-- ==== Sys2Proof/Word.lean ====
section
/-!
DEFINITION. The word types of the model. Registers are 32 bits wide, counters 64 (R15, R17, spec/00_scope.md); table
entries are at most sixteen 32-bit words (R39, `TBL_DATA[0..15]`).
-/
namespace Sys2Proof

/-- One byte of a frame, a message or a memory. -/
abbrev Byte := BitVec 8

/-- A register or one word of a table entry (R15). -/
abbrev W32 := BitVec 32

/-- A 64-bit register (R17). -/
abbrev W64 := BitVec 64

/-- A whole table entry, word 0 in the low 32 bits (R39). -/
abbrev Entry := BitVec 512

end Sys2Proof
end

