-- ==== Sys2Proof/Syntax.lean ====
section
/-!
DEFINITION. The commands the device takes from outside and from its own engines, one constructor per row of
spec/opcode_table.json, with the row's operands. Register commands carry the requester (R34) and the value written; an
event row carries what the event shows (a measured skew, a received message, a check result).
-/
namespace Sys2Proof

/-- The requesters of register accesses (R34); their numbers are those of `ERR_FIRST.REQ` (R50). -/
inductive Req where
  | BOOT | CC_A | CC_B | HOST | JTAG
  deriving DecidableEq, Repr

/-- Which rate word a rate write names: the time base's (R60) or a tracker's (R69). -/
inductive RateSel where
  | tb | trkA | trkB
  deriving DecidableEq, Repr

/-- The overhead of one layer in a received OTN frame: its TTI byte, the BIP-8 violations counted (0 to 8) and byte 3
(R149, R150, R153). -/
structure OtnOh where
  tti : Byte
  bip : Fin 9
  b3 : Byte
  deriving DecidableEq, Repr

/-- What an OTN receiver has received: a FlexO multiframe of one instance, a frame of one OTUC slice, an ODUflex frame, or
the end of an OPU multiframe (R149 to R154). -/
inductive OtnRx where
  /-- FlexO multiframe of an instance: group ID, instance number as its position (0 for position 0), RDI. -/
  | flexo (inst : Fin 8) (gid : BitVec 20) (num : BitVec 8) (rdi : Bool)
  /-- OTUC and ODUC frame of a slice: whether the 48 alignment bits match, MFAS, SM and PM-C. -/
  | otuc (slice : Fin 8) (fas : Bool) (mfas : Byte) (sm pmc : OtnOh)
  /-- ODUflex frame: MFAS, PM-F and TCM1 to TCM6. -/
  | oduflex (mfas : Byte) (pmf : OtnOh) (tcm : List OtnOh)
  /-- OPUCn multiframe: PT, and whether its MSI assigns every slot to tributary 1. -/
  | opuc (pt : Byte) (msiGood : Bool)
  /-- OPUflex multiframe: PT and CSF. -/
  | opuflex (pt : Byte) (csf : Bool)
  deriving DecidableEq, Repr

/-- The frames of an OTN port at whose boundaries consequent actions start and end (R158): the ODUC and ODUflex received, and
the FlexO, the OTUC with the ODUC in it, and the ODUflex transmitted. -/
inductive OtnFrame where
  | rxOduc | rxOduflex | txFlexo | txOtuc | txOduflex
  deriving DecidableEq, Repr

/-- What of its visit to an L2 position the scanner does (R260): the read, the conditional writes, or both. -/
inductive ScanStep where
  | read | write | visit
  deriving DecidableEq, Repr

/-- The two ends of the slip buffers of an overhead port (R165). -/
inductive OhpEnd where
  /-- An OTN frame's channel bytes arrive for extraction. -/
  | extract (data : W32)
  /-- A frame is read for OHP_DO. -/
  | toBoard
  /-- The board has presented a frame on OHP_DI. -/
  | fromBoard (data : W32)
  /-- A frame is read for insertion. -/
  | insert
  deriving DecidableEq, Repr

/-- The header of an Eloatal request as received (R547): destination and source MAC, Ethertype, VER, a TYPE that no message has
(none: the TYPE of the command's own message), SEQ, LEN, STATUS and byte 7. -/
structure EloHdr where
  dst : BitVec 48
  mac : BitVec 48
  etype : BitVec 16
  ver : Byte
  typ : Option Byte
  seq : BitVec 16
  len : BitVec 16
  status : Byte
  rsv : Byte
  deriving DecidableEq, Repr

/-- Fields of configuration space that the function acts on, beside Interrupt Disable and Bus Master Enable (R481, R494,
R504, R521): MSI-X Enable, Function Mask, Max Read Request Size as 128 × 2^mrrs bytes, the tag width (0 neither option,
1 Extended Tag, 2 10-bit tags), the AER uncorrectable mask, the status bits that the write clears, ECRC generation and checking,
Relaxed Ordering, the completion timeout's range setting and disable, the expansion ROM's enable, and D3hot. -/
structure PciCfg where
  msixEn : Bool
  msixMask : Bool
  mrrs : Fin 6
  tags : Fin 3
  aerMask : W32
  aerClear : W32
  ecrcGen : Bool
  ecrcChk : Bool
  relaxed : Bool
  cto : Fin 16
  ctoOff : Bool
  romEn : Bool
  d3 : Bool
  deriving DecidableEq, Repr

/-- A request of the host to BAR4, to the expansion-ROM window or to configuration space (R491, R492, R495, R502): DWORD `a` of
BAR4 with its byte enables, a write of `v` or a read; `n` bytes at window offset `o`; a write there; a read of DWORD `k`; a DOE
Discovery object with its index, written to the mailbox. -/
inductive HostAccess where
  | bar4 (a : Fin 4096) (be : BitVec 4) (v : Option W32)
  | rom (o : BitVec 20) (n : BitVec 13)
  | romWrite (o : BitVec 20)
  | config (k : Fin 1024)
  | discovery (index : Byte)
  deriving DecidableEq, Repr

/-- The commands the device takes: one constructor per row of spec/opcode_table.json. -/
inductive Instr where
  /-- REGISTER_WRITE (R18). A write by any requester to a register that has no row of its own stores the value according to the field's access code. -/
  | registerWrite (r : Req) (a : BitVec 29) (v : W32)
  /-- READ_LOW_HALF (R17). A read of the low half of a 64-bit register latches the high half for that requester. -/
  | readLowHalf (r : Req) (a : BitVec 29)
  /-- READ_CLEAR (R18). A read of an RC register returns its value and then clears it, with any same-cycle update applied after the clear. -/
  | readClear (r : Req) (a : BitVec 29)
  /-- SOFT_RESET (R43). A write of 1 to BLK_CTL.SRST resets the page's registers and working state but keeps its tables and locked values. -/
  | softReset (r : Req) (p : Fin 8192)
  /-- SOFT_RESET_DONE (R42). SRST self-clears within 1 µs, and the page serves accesses again. -/
  | softResetDone (p : Fin 8192)
  /-- BLOCK_ENABLE (R45). A write of BLK_CTL.EN := 1 resumes the block's function from its registers as they stand. -/
  | blockEnable (r : Req) (p : Fin 8192)
  /-- BLOCK_DISABLE (R45). A write of BLK_CTL.EN := 0 stops the block's function and discards the frames it holds. -/
  | blockDisable (r : Req) (p : Fin 8192)
  /-- BLOCK_LOCK (R42). A write of 1 to BLK_CTL.LOCK locks every RWL register of the page until a reset of the page. -/
  | blockLock (r : Req) (p : Fin 8192)
  /-- DRONE_ENABLE (R564). A write of BLK_CTL.DRONE from 0 to 1 clears the page's Drone counters and starts Drone counting. -/
  | droneEnable (r : Req) (p : Fin 8192)
  /-- EVT_PEND_WRITE (R46). A software write of EVT_PEND clears the bits written as 0; a hardware set in the same cycle survives. -/
  | evtPendWrite (r : Req) (p : Fin 8192) (v : W32)
  /-- EVT_MASK_WRITE (R48). A write of EVT_MASK changes the event mask and rings the doorbell again if unmasked events remain. -/
  | evtMaskWrite (r : Req) (p : Fin 8192) (v : W32)
  /-- PROFILE_SELECT (R41). A write of GLB.PROFILE_SEL selects the compatibility profile, or is refused with code 0x01 if the value is out of range. -/
  | profileSelect (r : Req) (v : W32)
  /-- TBL_READ (R55). TBL_CMD READ copies entry TBL_IDX of table TBL_SEL into the requester's TBL_DATA. -/
  | tblRead (r : Req) (p : Fin 8192)
  /-- TBL_WRITE (R56). TBL_CMD WRITE replaces the whole entry from TBL_DATA, subject to the table's checks. -/
  | tblWrite (r : Req) (p : Fin 8192)
  /-- TBL_CMD_COMPLETE (R54). A table command that took time completes, and the bank's TBL_STS.BUSY clears, with ERR and CODE set if it failed. -/
  | tblCmdComplete (r : Req) (p : Fin 8192)
  /-- BRIDGE_CRC_FAIL (R30). A Bridge transfer that fails its CRC is replayed from the sender's retry buffer without loss or reordering. -/
  | bridgeCrcFail (qf : Bool) (b : Fin 100) (lane : Fin 68)
  /-- LANE_ERR_WINDOW (R31). At the end of each 1 ms window, a Bridge lane whose CRC errors exceed SPARE_THR is marked for replacement by a spare lane. -/
  | laneErrWindow
  /-- LANE_SPARED (R31). The substitution of a spare lane completes, SPARED_CNT increments and event LANE_SPARED is raised. -/
  | laneSpared (qf : Bool) (b : Fin 100)
  /-- START_OF_FRAME_RX (R74). The MAC recognises a frame's start, and the TSU takes the birth timestamp at the reference plane. -/
  | startOfFrameRx (n : Fin 128) (dt : Fin 18)
  /-- HEADER_CELL_HANDOFF (R116). LG[g] hands a frame's completed header cell towards IPIPE[g]. -/
  | headerCellHandoff (n : Fin 128) (bytes : List Byte) (absorb : Bool)
  /-- PIPELINE_ENTRY (R132). IPIPE[g] takes one frame from the line group or the recirculation port and runs parse, lookups, classification and policing on it. -/
  | pipelineEntry (g : Fin 8) (recirc : Bool) (node : Option W32)
  /-- FRAME_TAIL_RX (R115). At a frame's end the MAC checks its length and FCS and counts it in one row of the check table. -/
  | frameTailRx (n : Fin 128) (bytes : List Byte) (fcsGood : Bool) (errBlock : Bool)
  /-- MAC_CTL_FRAME_RX (R122). A received frame with Ethertype 0x8808 is consumed: a PAUSE or PFC frame is obeyed, or the frame is discarded. -/
  | macCtlFrameRx (n : Fin 128)
  /-- PAUSE_EXPIRE (R123). An obeyed pause's quanta run out and the paused classes resume. -/
  | pauseExpire (n : Fin 128) (c : Fin 8)
  /-- FLOW_CONTROL_TX (R126). A flow-control frame is sent at the next frame boundary after a change in the set of asserted classes. -/
  | flowControlTx (n : Fin 128) (set : BitVec 8)
  /-- FC_REFRESH (R125). Every REFRESH × 100 ns while any class remains asserted, the flow-control frame is sent again. -/
  | fcRefresh (n : Fin 128)
  /-- ADMISSION (R327). A frame offered to its queue is admitted or refused under the partition, threshold and queue-state tests. -/
  | admission (q : Option (Fin 393216)) (carry : Bool)
  /-- BUFFER_GRANT (R319). A carried request for a buffer is served in round-robin order in a later Q-clock cycle, with a grant or an empty response. -/
  | bufferGrant
  /-- TAIL_CELL_ARRIVAL (R329). A cell of an admitted frame after its header cell is taken while headroom and buffer allow. -/
  | tailCellArrival (q : Fin 393216) (ue : Bool)
  /-- BUFFER_FREE (R322). An internal agent frees a buffer, after the range, alignment, already-free and owner checks. -/
  | bufferFree (ag : Fin 4) (i : Fin 6) (ptr : BitVec 28)
  /-- SPILL_PAGE_WRITE (R337). The spill writer takes a deep page and starts writing 32 staged cells of a DEEP queue. -/
  | spillPageWrite (q : Fin 393216) (ue : Bool)
  /-- PAGE_WRITE_DONE (R337). A deep-page write completes, and its 32 staging cells are freed. -/
  | pageWriteDone (q : Fin 393216)
  /-- RETURN_PREFETCH (R339). The return engine requests a queue's next deep page to keep RET_AHEAD pages ahead of dequeue. -/
  | returnPrefetch (q : Fin 393216)
  /-- PAGE_RETURNED (R339). A returned deep page is placed in return buffers and freed to pool D, and its frames pass the age check. -/
  | pageReturned (q : Fin 393216)
  /-- AGE_SWEEP_PASS (R344). Every 1 ms the sweep engine starts a pass and visits each queue, discarding aged head frames. -/
  | ageSweepPass
  /-- VOQ_FRAME_START (R363). A VOQ with positive credit starts its head frame towards the fabric and debits its credit balance. -/
  | voqFrameStart (e : Fin 10) (ue : Option (Fin 64))
  /-- DATA_CELL_TX (R404). Segmentation sends a data cell of the frame's byte string on the next link of the destination's spray set. -/
  | dataCellTx (d : Fin 4096) (c : Fin 8)
  /-- DATA_CELL_RX (R412). A received data cell is checked, then held, released in order or discarded by the resequencer context. -/
  | dataCellRx (l : Option (Fin 192)) (x : List Byte) (err : Bool)
  /-- SYNC_HOLD_EXPIRE (R411). An UNSYNC context's hold ends, and it takes the lowest held SEQ as its expected number and becomes SYNC. -/
  | syncHoldExpire (c : Fin 32768)
  /-- CTX_IDLE_EXPIRE (R411). A SYNC context that has received no cell for CTX_IDLE becomes UNSYNC. -/
  | ctxIdleExpire (c : Fin 32768)
  /-- RESEQ_TIMEOUT (R413). The oldest held cell waited RESEQ_TMO, so the gap is given up and the frame in progress is discarded. -/
  | reseqTimeout (c : Fin 32768)
  /-- SEQ_QUIET_END (R410). The quiet period after a TM-QUEUE or FAB reset ends, and data cells may be sent. -/
  | seqQuietEnd
  /-- SEQ_QUIET_WRITE (R410). A write of SEQ_QUIET moves the end of a running quiet period, or ends it at once. -/
  | seqQuietWrite (r : Req) (v : W32)
  /-- SCHED_SELECTION (R374). The egress scheduler picks an eligible port and descends the hierarchy to dequeue a head frame. -/
  | schedSelection (full : BitVec 136) (ue : Option (Fin 64))
  /-- EGRESS_PIPELINE (R268). EPIPE[g] takes a dequeued frame, checks it, rewrites it, sets up one-step and checks its length. -/
  | egressPipeline (g : Fin 8)
  /-- FRAME_TX (R119). The MAC sends a frame, with one-step insertion by the TSU and a new FCS, or an inverted FCS for a late bad mark. -/
  | frameTx (n : Fin 128) (dt : Fin 18)
  /-- TX_ABORT (R120). A frame whose start was sent is abandoned, and the MAC ends it at once with an inverted FCS. -/
  | txAbort (n : Fin 128)
  /-- RECIRC_ENTRY (R134). A recirculated frame arrives at its recirculation port; a bad one is discarded, the others are counted. -/
  | recircEntry (g : Fin 8)
  /-- MAP_COMMIT (R110). A write of MAP_COMMIT validates the shadow lane map and starts applying it, or refuses it. -/
  | mapCommit (r : Req) (g : Fin 8) (v : W32)
  /-- MAP_APPLIED (R110). The committed lane map takes effect: changed ports are taken out of service and new ports start bring-up. -/
  | mapApplied (g : Fin 8)
  /-- MAC_CFG_WRITE (R136). A write of MAC_CFG changes the MTU, the enables or the flow-control mode; RX_EN moves the link state. -/
  | macCfgWrite (r : Req) (n : Fin 128) (v : W32)
  /-- LOOPBACK_WRITE (R131). A change of LINK_CFG.LOOPBACK places or removes a test loop and returns the port to SIGNAL. -/
  | loopbackWrite (r : Req) (n : Fin 128) (v : W32)
  /-- SIGNAL_DETECT (R127). Signal and CDR lock on every lane of the port move it from SIGNAL to LOCK. -/
  | signalDetect (n : Fin 128)
  /-- ALIGNMENT_LOCK (R127). Alignment markers lock on every lane and the port enters DESKEW. -/
  | alignmentLock (n : Fin 128)
  /-- DESKEW_MEASURED (R129). The lane skews are measured; the port moves to HOLD, or to LOCK with DESKEW_FAIL if the skew is beyond the limit. -/
  | deskewMeasured (n : Fin 128) (skews : List (BitVec 16))
  /-- UP_HOLD_EXPIRE (R127). Alignment held for UP_HOLD moves the port to UP and loads DESKEW_RX. -/
  | upHoldExpire (n : Fin 128)
  /-- ALIGNMENT_LOSS (R127). A loss of alignment returns the port to LOCK. -/
  | alignmentLoss (n : Fin 128)
  /-- SIGNAL_LOSS (R127). A loss of signal or of CDR lock on any lane returns the port to SIGNAL. -/
  | signalLoss (n : Fin 128) (k : Fin 8)
  /-- RCLK_RESUME (R100). The recovered-clock output resumes 10 ms after its lane locks again. -/
  | rclkResume (r : Fin 4)
  /-- FAULT_SETS_RX (R127). Received local or remote fault ordered sets move an UP port to FAULT. -/
  | faultSetsRx (n : Fin 128) (remote : Bool)
  /-- FAULT_SETS_ABSENT (R127). 128 consecutive blocks without fault ordered sets return the port to UP. -/
  | faultSetsAbsent (n : Fin 128)
  /-- FEC_WINDOW (R135). At the end of each 1 ms window, FEC_DEG is set and FEC_DEGRADE raised if the corrected symbols exceed the threshold. -/
  | fecWindow (n : Fin 128) (corr : W32) (uncorr : W32) (sym : W32)
  /-- FLEXO_LOCK (R144). The FlexO instances lock their markers and are deskewed, which starts stage 2. -/
  | flexoLock (n : Fin 128) (skew : BitVec 16) (nums : List Byte)
  /-- FLEXO_LOCK_LOSS (R147). A loss of stage 1 puts the slice out of frame at once. -/
  | flexoLockLoss (n : Fin 128) (i : Fin 8)
  /-- FAS_SIGHTING (R145). A sighting of the alignment signal at a new position opens a candidate. -/
  | fasSighting (n : Fin 128) (i : Fin 8) (pos : Fin 15296) (mfas : Byte)
  /-- CANDIDATE_CHECK (R145). At frame spacing a candidate is checked, and is then counted towards confirmation, confirmed or closed. -/
  | candidateCheck (n : Fin 128) (i : Fin 8) (checks : List (Fin 15296 × Bool × Byte))
  /-- OTN_FRAME_RX (R147). Each received frame is checked for FAS, MFAS, BIP, BEI, TTI and status, and the per-frame defect counts are updated. -/
  | otnFrameRx (n : Fin 128) (x : OtnRx)
  /-- DEFECT_PERSIST_TIMER (R154). A condition held for its 3 ms or 1 ms persistence time declares or clears its defect. -/
  | defectPersistTimer (n : Fin 128) (k : Fin 4)
  /-- DEG_INTERVAL (R154). At each whole second, errored blocks are compared with DEG_THR to declare or clear dDEG. -/
  | degInterval (n : Fin 128)
  /-- CONSEQUENT_ACTION_BOUNDARY (R158). A consequent action starts or ends at the first frame boundary after its condition changes. -/
  | consequentActionBoundary (n : Fin 128) (e : OtnFrame)
  /-- TX_FORCE_APPLY (R161). A change of TX_FORCE takes effect at the next transmitted ODUflex frame boundary. -/
  | txForceApply (n : Fin 128)
  /-- OHP_CFG_WRITE (R162). A write of OHP CFG binds the overhead port to a channel, or is refused. -/
  | ohpCfgWrite (r : Req) (k : Fin 16) (v : W32)
  /-- OHP_FRAME_BOUNDARY (R165). An overhead frame is written to or read from a slip buffer, with a whole-frame slip when the buffer is full or empty. -/
  | ohpFrameBoundary (k : Fin 16) (e : OhpEnd)
  /-- RECENTRE (R165). A write of RECENTRE sets both slip buffers to two frames. -/
  | recentre (r : Req) (k : Fin 16) (v : W32)
  /-- CLK_LOSS (R166). 10 µs without an OHP_CLK edge sets CLK_LOSS. -/
  | clkLoss (k : Fin 16)
  /-- OHP_CLK_RETURN (R166). The next rising OHP_CLK edge clears CLK_LOSS and re-centres the buffers. -/
  | ohpClkReturn (k : Fin 16)
  /-- KEY_LOAD (R203). KEY_LOAD copies TBL_DATA into half of the requester's walk key. -/
  | keyLoad (r : Req)
  /-- WALK (R203). WALK searches a lookup for the lowest matching entry at or after TBL_IDX and returns it. -/
  | walk (r : Req)
  /-- ROW_MOVE (R205). ROW_MOVE copies a TCAM entry to a free row of its chain and frees the source, or is refused. -/
  | rowMove (r : Req)
  /-- TCAM_SCRUB_ROW (R207). Every 40 F-clock cycles the scrubber checks one row's parity and invalidates a failing entry. -/
  | tcamScrubRow (pos : Fin 262144) (ok : Bool)
  /-- SLICE_CFG_WRITE (R197). A write of SLICE_CFG or LKP_CFG assigns slices and widths, or is refused while visible rows exist. -/
  | sliceCfgWrite (r : Req) (k : Fin 130) (v : W32)
  /-- INSERT (R230). INSERT places an entry in its bucket or in the overflow store, evicting an entry or refusing if both are full. -/
  | insert (r : Req) (l2 : Bool)
  /-- DELETE (R232). DELETE writes VIS 00 to the entries with the key whose VIS shares a bit with the mask. -/
  | delete (r : Req) (l2 : Bool)
  /-- LOOKUP (R232). LOOKUP searches a hash table as a frame of the given parity would. -/
  | lookup (r : Req) (l2 : Bool)
  /-- ROUTE_ADD (R240). ROUTE_ADD adds a route to the LPM table, or is refused. -/
  | routeAdd (r : Req)
  /-- ROUTE_DEL (R240). ROUTE_DEL deletes the named route and frees its units. -/
  | routeDel (r : Req)
  /-- ROUTE_MOD (R239). ROUTE_MOD rewrites a route's VIS and next hop as one atomic entry write. -/
  | routeMod (r : Req)
  /-- ROUTE_GET (R239). ROUTE_GET returns word 5 of the named route. -/
  | routeGet (r : Req)
  /-- ROUTE_MATCH (R239). ROUTE_MATCH finds the longest route matching an address in a VRF and parity. -/
  | routeMatch (r : Req)
  /-- SEED_WRITE (R227). A write of a hash seed is refused while its table holds a visible entry. -/
  | seedWrite (r : Req) (k : Fin 3) (v : W32)
  /-- LEARN_UPDATE (R252). The L2 write port applies a queued learn insert, station move or refresh to the entry as it now stands. -/
  | learnUpdate (g : Fin 8)
  /-- MOVE_TICK (R254). At each whole 100 ms of the time base, move_now advances. -/
  | moveTick
  /-- AGE_TICK (R259). At each whole AGE_TICK period of the time base, age_now advances. -/
  | ageTick
  /-- AGE_SCAN_VISIT (R260). A pipeline's scanner visits an L2 position and issues a compare-and-delete for an aged entry. -/
  | ageScanVisit (g : Fin 8) (pos : Fin 266240) (k : ScanStep)
  /-- NOTIFY_POP (R258). A write of NOTIFY_POP removes the head notification. -/
  | notifyPop (r : Req) (v : W32)
  /-- TABLE_SCRUB (R264). The scrubber reads a forwarding-table entry and handles a parity failure. -/
  | tableScrub (p : Fin 8192) (sel : Fin 256) (idx : Nat) (ok : Bool)
  /-- LPM_NODE_REPAIR (R264). The route agent rebuilds a failing trie node from its route store. -/
  | lpmNodeRepair (idx : Nat) (storeOk : Bool)
  /-- FLIP_CMD (R289). A write of FLIP_CMD in READY requests an immediate flip, and is refused otherwise. -/
  | flipCmd (r : Req) (v : W32)
  /-- FLIP_ARM (R290). A write of FLIP_ARM.ARM arms a timed flip at FLIP_TIME, or is refused. -/
  | flipArm (r : Req) (v : W32)
  /-- FLIP_DISARM (R290). A write of FLIP_ARM.DISARM in ARMED cancels the timed flip. -/
  | flipDisarm (r : Req) (v : W32)
  /-- FLIP_TIME_REACHED (R68). The time base reaches FLIP_TIME and the armed flip starts. -/
  | flipTimeReached
  /-- FLIP_APPLY (R288). The parity changes in all pipelines in one F-clock cycle, and the flip time is latched. -/
  | flipApply
  /-- IN_FLIGHT_ZERO (R286). The old parity's in-flight count reaches 0, which moves DRAINING to SETTLING. -/
  | inFlightZero
  /-- SETTLE_EXPIRE (R291). The count stays 0 for SETTLE µs, so the drain ends and the sweep starts. -/
  | settleExpire
  /-- SWEEP_CONVERSION (R297). The sweep agent converts one entry's VIS as one atomic operation at the table port. -/
  | sweepConversion (p : Fin 8192) (sel : Fin 256) (i : Nat)
  /-- SWEEP_COMPLETE (R297). The sweep finishes its entries and bank copies, raises SWEEP_DONE and returns to READY. -/
  | sweepComplete
  /-- DRAIN_TIMEOUT (R293). The global age limit passes after a flip without the drain ending, which sets TIMEOUT and reports a fault. -/
  | drainTimeout
  /-- DRAIN_FORCE (R294). A write of DRAIN_FORCE after a timeout zeroes the old count and ends the drain. -/
  | drainForce (r : Req) (v : W32)
  /-- HP_COUNT_WRITE (R314). A write of HP_COUNT re-carves the host pools, or is refused. -/
  | hpCountWrite (r : Req) (h : Fin 4) (v : W32)
  /-- ALLOC (R324). ALLOC grants a buffer to software with owner SW, or fails on an empty response. -/
  | alloc (r : Req)
  /-- FREE (R324). FREE frees a software-held buffer under the free checks. -/
  | free (r : Req)
  /-- QUERY (R324). QUERY returns a buffer's free bit and owner code. -/
  | query (r : Req)
  /-- AGE_LIMIT_WRITE (R345). A write of AGE_LIMIT takes effect at every check point from the next Q-clock cycle. -/
  | ageLimitWrite (r : Req) (v : W32)
  /-- STATUS_REPEAT (R365). Every STATUS_IVL µs a VOQ in request repeats its STATUS message. -/
  | statusRepeat (q : Fin 262144)
  /-- CREDIT_CELL_TX (R415). A credit cell is sent when 32 messages are waiting for a destination, or CREDIT_HOLD after the oldest. -/
  | creditCellTx (d : Fin 4096)
  /-- CREDIT_CELL_RX (R415). A received credit cell delivers its STATUS and GRANT messages. -/
  | creditCellRx (l : Option (Fin 192)) (x : List Byte) (err : Bool)
  /-- CREDIT_FLOW_TIMEOUT (R366). A flow not refreshed for FLOW_TIMEOUT is removed. -/
  | creditFlowTimeout (i : Fin 262144)
  /-- CREDIT_PACER_GRANT (R368). A port's credit pacer allows a grant, which is sent as a GRANT to a flow of a credit-eligible queue. -/
  | creditPacerGrant (p : Fin 128)
  /-- FRET_RELEASE (R379). A Fretboard entry is released, its levels are updated, and the entity is re-evaluated or filed again. -/
  | fretRelease (i : Fin 184456)
  /-- COARSE_FRET_ADVANCE (R380). The coarse wheel reaches a fret and refiles its entries onto the fine wheel. -/
  | coarseFretAdvance
  /-- FAR_LIST_SCAN (R380). Once per coarse revolution the far list moves entries that are now due onto the coarse wheel. -/
  | farListScan
  /-- FABRIC_LINK_ENABLE (R398). A write of LINK_CFG.EN := 1 starts the fabric link, or is refused until DEV_ID is locked. -/
  | fabricLinkEnable (r : Req) (l : Fin 192) (v : W32)
  /-- LINK_DRAIN_WRITE (R400). A write of LINK_CFG.DRAIN holds the link and signals DRAIN to the far end. -/
  | linkDrainWrite (r : Req) (l : Fin 192) (v : W32)
  /-- FABRIC_SIGNAL_DETECT (R398). Signal and CDR lock move a fabric link from SIGNAL to HUNT. -/
  | fabricSignalDetect (l : Fin 192)
  /-- CODEWORD_LOCK (R397). Eight good codewords with a valid FIRST lock the link and move it to PEER. -/
  | codewordLock (l : Fin 192)
  /-- CODEWORD_LOCK_LOSS (R397). Four consecutive uncorrectable codewords lose lock and move the link to HUNT. -/
  | codewordLockLoss (l : Fin 192)
  /-- FABRIC_SIGNAL_LOSS (R398). A loss of signal or CDR lock moves the fabric link to SIGNAL and takes it out of the spray sets. -/
  | fabricSignalLoss (l : Fin 192)
  /-- CONTROL_WORD_RX (R395). A received control word delivers RDI, DRAIN and FIRST, which can move the link between UP, PEER and HELD. -/
  | controlWordRx (l : Fin 192) (w : BitVec 20)
  /-- FABRIC_UP_HOLD_EXPIRE (R398). A clean PEER state held for UP_HOLD moves the link to UP. -/
  | fabricUpHoldExpire (l : Fin 192)
  /-- LINK_DEG_WINDOW (R400). A 1 ms window of uncorrectable codewords starts or ends the DEGRADE hold. -/
  | linkDegWindow (l : Fin 192) (corr : W32) (uncorr : W32) (sym : W32)
  /-- KA_LOSS (R400). 4 × KA_IVL without a valid keepalive holds the link. -/
  | kaLoss (l : Fin 192)
  /-- KEEPALIVE_TX (R409). Every KA_IVL a keepalive identifying the sender is sent on the link. -/
  | keepaliveTx (l : Fin 192)
  /-- KEEPALIVE_RX (R409). A valid keepalive updates PEER and may start or end an ID or plane hold. -/
  | keepaliveRx (l : Fin 192) (x : List Byte) (err : Bool)
  /-- KA_IVL_WRITE (R409). A write of KA_IVL or REACH_IVL reschedules the next cell of that kind at once. -/
  | kaIvlWrite (r : Req) (reach : Bool) (v : W32)
  /-- REACH_CELL_TX (R407). Every REACH_IVL a reachability segment is sent on the link. -/
  | reachCellTx (l : Fin 192)
  /-- REACH_CELL_RX (R408). A received segment replaces the link's reachability and updates the spray sets. -/
  | reachCellRx (l : Fin 192) (x : List Byte) (err : Bool)
  /-- REACH_SEGMENT_TIMEOUT (R408). A segment not received for 8 × REACH_IVL is cleared. -/
  | reachSegmentTimeout (l : Fin 192) (g : Fin 4)
  /-- POP_CFG_WRITE (R426). A write of POP_CFG.CHANNELS selects the deep-store population, or is refused. -/
  | popCfgWrite (r : Req) (v : W32)
  /-- BMAP_WRITE (R431). A write of a bank-mapping mask is checked and stored, or refused. -/
  | bmapWrite (r : Req) (c : Fin 16) (b : Fin 5) (v : W32)
  /-- BRINGUP_START (R437). A write of EN := 1 on a DSC page starts that channel's bring-up. -/
  | bringupStart (r : Req) (c : Fin 16)
  /-- TRAIN_STEP_DONE (R437). A bring-up step of a channel ends, and the next step starts or the channel stops on failure. -/
  | trainStepDone (c : Fin 16) (fail : Bool) (spd : W32) (rfm : BitVec 16)
  /-- DS_READY (R438). When every channel of the population has trained, pool D is filled and D_LIMIT set. -/
  | dsReady
  /-- DRAM_OPERATION (R433). A channel serves a read or write operation from a requester class, with activates and row-hammer accounting. -/
  | dramOperation (c : Fin 16)
  /-- DRAM_OP_COMPLETE (R448). An operation completes, corrected or uncorrectable, and returns to its requester. -/
  | dramOpComplete (c : Fin 16) (k : Fin 5) (errs : List (Fin 8 × Option (Fin 10)))
  /-- DRAM_REFRESH (R440). A refresh due by REF_MODE is issued or postponed. -/
  | dramRefresh (c : Fin 16) (k : Fin 2) (what : Fin 3)
  /-- REFRESH_RATE_POLL (R440). Every 4 ms the refresh-rate mode register is read and the interval adjusted. -/
  | refreshRatePoll (c : Fin 16) (k : Fin 2) (half : Bool)
  /-- ZQ_CALIBRATION (R441). Every 128 ms a rank is ZQ-calibrated without stopping traffic. -/
  | zqCalibration (c : Fin 16) (sr : Fin 4)
  /-- DQS_OSC_MEASURE (R441). Every RETRAIN_IVL the DQS oscillator is measured and write timing adjusted, or a full retrain is called for. -/
  | dqsOscMeasure (c : Fin 16) (sr : Fin 4) (far : Bool)
  /-- RETRAIN_NOW (R442). A write of RETRAIN_NOW starts a full retrain of the channel. -/
  | retrainNow (r : Req) (c : Fin 16) (v : W32)
  /-- FULL_RETRAIN_DONE (R442). A full retrain ends, returning the channel to service or losing it. -/
  | fullRetrainDone (c : Fin 16) (ok : Bool)
  /-- RH_WINDOW_CLEAR (R445). Every 32 ms the activate-count tables, candidates and throttles are cleared. -/
  | rhWindowClear (c : Fin 16)
  /-- PATROL_READ (R450). The patrol scrubber reads a location, writes back a correction and counts errors. -/
  | patrolRead (c : Fin 16)
  /-- DIMM_TEMP_READ (R443). Every 100 ms the DIMM temperature is read, and TEMP_HIGH raised at or above TEMP_THR. -/
  | dimmTempRead (c : Fin 16) (t : BitVec 8)
  /-- PROCESSOR_LOAD (R459). The boot core loads a processor from a verified image at its start. -/
  | processorLoad (k : Fin 9)
  /-- CORE_LOAD_DONE (R462). A loaded control core passes self-test and becomes ACTIVE or SYNCING. -/
  | coreLoadDone (x : Fin 2) (ok : Bool)
  /-- CORE_FAULT (R464). A control core detects a lockstep, memory, watchdog or self-test fault, and is halted and fenced. -/
  | coreFault (x : Fin 2) (cause : Fin 4)
  /-- WDT_KICK (R464). A write of WDT_KICK restarts the writing core's watchdog. -/
  | wdtKick (r : Req) (v : W32)
  /-- HANDOVER (R467). A write of HANDOVER by the ACTIVE core fences it and hands control to the standby. -/
  | handover (r : Req) (v : W32)
  /-- TAKEOVER (R468). The new core takes over: the mirror drains, sources are retargeted and ROLE changes. -/
  | takeover
  /-- MIRROR_STORE (R466). A store of the ACTIVE core to its mirrored region is applied in the standby's SRAM. -/
  | mirrorStore (a : BitVec 22) (bs : List Byte)
  /-- SYNC_COMPLETE (R469). The bulk copy ends, and the core enters STANDBY with SYNCED. -/
  | syncComplete (x : Fin 2)
  /-- RELOAD (R470). A write of RELOAD reloads a non-ACTIVE core from an image slot. -/
  | reload (r : Req) (v : W32)
  /-- CORE_AUTO_RELOAD (R471). The boot core reloads a faulted core that will start as ACTIVE, unless it faulted three times in 10 s. -/
  | coreAutoReload (x : Fin 2)
  /-- DOORBELL (R472). A write of DOORBELL sets the named source pending, or is discarded if invalid. -/
  | doorbell (r : Req) (v : W32)
  /-- CLAIM (R476). A read of CLAIM returns the highest presentable source, clears it and pushes it on the target's stack. -/
  | claim (r : Req) (t : Fin 4)
  /-- EOI (R478). A write of EOI pops the top of the target's stack if it holds the named source. -/
  | eoi (r : Req) (t : Fin 4) (v : W32)
  /-- SETPRI (R479). A write of SETPRI pushes a priority-only entry on the target's stack. -/
  | setpri (r : Req) (t : Fin 4) (v : W32)
  /-- PEND_WRITE (R473). A software write of INTC PEND clears pending bits and marks LOST for unread hardware sets. -/
  | pendWrite (r : Req) (w : Fin 128) (v : W32)
  /-- INTC_MASK_WRITE (R476). A write of INTC MASK changes which sources are presentable. -/
  | intcMaskWrite (r : Req) (w : Fin 128) (v : W32)
  /-- HOLDOFF_EXPIRE (R480). A group's hold-off time passes and its held sources become presentable. -/
  | holdoffExpire (w : Fin 128) (t : Fin 4)
  /-- CORE_IDLE_ENTER (R480). A core enters wait-for-interrupt with an empty stack, and held sources are presented to it at once. -/
  | coreIdleEnter (t : Fin 3)
  /-- PFE_EMISSION (R482). At an entry's instant, or the instant less LEAD, the PFE builds a frame from its template and hands it to its queue. -/
  | pfeEmission (carry : Bool)
  /-- PFE_MISSED (R484). A frame not started by the next instant is dropped and counted in MISSED. -/
  | pfeMissed (i : Fin 65536)
  /-- BAR0_REQUEST (R496). A BAR0 request is served as register accesses or refused for its width. -/
  | bar0Request (a : BitVec 29) (dw : BitVec 11) (be : Bool) (w : Option (List W32))
  /-- BAR2_REQUEST (R525). A BAR2 request is translated through an active window into its target space. -/
  | bar2Request (a : W32) (n : BitVec 13) (w : Option (List Byte)) (ue : Bool)
  /-- WIN_COMMIT (R526). A write of WIN_COMMIT copies the shadow windows to the active set, or is refused. -/
  | winCommit (r : Req) (v : W32)
  /-- PUNT_WRITE (R509). The punt engine writes a frame and its metadata into posted buffers of its ring and writes back the descriptors. -/
  | puntWrite (r : Fin 64) (addrs : List W64) (ue : Bool)
  /-- PUNT_AGE_DROP (R511). A punt frame waiting longer than the global age limit is dropped. -/
  | puntAgeDrop (r : Fin 64)
  /-- P_TAIL_WRITE (R509). A write of P_TAIL posts punt descriptors. -/
  | pTailWrite (r : Req) (k : Fin 64) (v : W32)
  /-- I_TAIL_WRITE (R516). A write of I_TAIL posts inject descriptors. -/
  | iTailWrite (r : Req) (k : Fin 16) (v : W32)
  /-- INJECT_READ (R516). The inject engine starts reading a ring's next frame from host memory. -/
  | injectRead (whole : BitVec 16) (descs : List (BitVec 256))
  /-- READ_COMPLETION (R517). A completion for an outstanding DMA read arrives and delivers its data. -/
  | readCompletion (i : Option (Fin 16)) (data : List Byte) (sts : Fin 3) (aer : Option (Fin 32))
  /-- INJECT_OFFER (R514). A fully read inject frame is offered to its queue with known length. -/
  | injectOffer (i : Fin 16) (carry : Bool)
  /-- INJECT_WRITEBACK (R515). An inject frame's descriptors are written back in ring order with their status. -/
  | injectWriteback (i : Fin 16)
  /-- COMPLETION_TIMEOUT (R517). An outstanding read reaches its completion timeout and is abandoned. -/
  | completionTimeout (i : Fin 16)
  /-- BME_CLEAR (R517). Clearing Bus Master Enable stops new requests and aborts rings in transfer. -/
  | bmeClear
  /-- BME_SET (R517). Setting Bus Master Enable resumes paused rings. -/
  | bmeSet
  /-- RING_ENABLE (R518). Writing a ring's EN from 0 to 1 restarts it with head and tail at 0. -/
  | ringEnable (r : Req) (k : Fin 80) (v : W32)
  /-- MSIX_HOLD_END (R504). A held-back MSI-X message is sent when its hold-back ends, if its source is still presentable. -/
  | msixHoldEnd (v : Fin 64)
  /-- FLR (R519). A Function Level Reset stops and resets the host function. -/
  | flr
  /-- FLR_DONE (R519). The FLR completes, and configuration requests are served again. -/
  | flrDone
  /-- PCIE_LINK_DOWN (R521). An unannounced loss of the PCIe link freezes the function. -/
  | pcieLinkDown (announced : Bool)
  /-- RELEASE (R522). A write of RELEASE with the link up ends the freeze. -/
  | release (r : Req) (v : W32)
  /-- PERST_ASSERT (R523). PERST# resets only the host function under isolation, or the device without it. -/
  | perstAssert
  /-- SPDM_REQUEST (R553). An SPDM request through DOE or Eloatal is served by the boot core's responder. -/
  | spdmRequest (elo : Option EloHdr) (msg : List Byte)
  /-- BOOT_START (R541). The boot core starts: reads the Pegbox, chooses a slot, checks images and loads the control cores. -/
  | bootStart (flashOk : Bool)
  /-- KEY_REVOKE (R538). A write of KEY_REVOKE permanently revokes a signing key, or is refused. -/
  | keyRevoke (r : Req) (v : W32)
  /-- SVN_COMMIT (R539). A write of SVN_COMMIT raises an anti-rollback counter to the running SVN and stores it. -/
  | svnCommit (r : Req) (v : W32)
  /-- ENG_RELOAD (R545). A write of ENG_RELOAD checks a new engine image and restarts the engine with it. -/
  | engReload (r : Req) (v : W32)
  /-- ENG_RELOAD_DONE (R545). The engine restarts on the new image, or keeps the old one on a failed check. -/
  | engReloadDone
  /-- RUN_SLOT_WRITE (R546). A write of RUN_SLOT is accepted after the slot passes a full check. -/
  | runSlotWrite (r : Req) (v : W32)
  /-- HELLO (R548). An Eloatal HELLO returns identity and may lock the peer. -/
  | hello (h : EloHdr) (idle : Bool)
  /-- SLOT_INFO (R549). SLOT_INFO checks a slot in full and reports its images. -/
  | slotInfo (h : EloHdr) (slot : Byte)
  /-- ERASE (R549). ERASE starts erasing a flash slot. -/
  | erase (h : EloHdr) (slot : Byte)
  /-- ERASE_DONE (R548). The slot erase completes and is answered. -/
  | eraseDone (ok : Bool)
  /-- ELOATAL_WRITE (R549). WRITE programs flash bytes and reads them back. -/
  | eloatalWrite (h : EloHdr) (slot : Byte) (off : W32) (data : List Byte)
  /-- ELOATAL_READ (R549). READ returns flash bytes of a slot. -/
  | eloatalRead (h : EloHdr) (slot : Byte) (off : W32) (n : BitVec 16)
  /-- SET_BOOT (R549). SET_BOOT stores the boot slot option. -/
  | setBoot (h : EloHdr) (v : Byte)
  /-- ELOATAL_RESET (R549). RESET answers and then resets the device. -/
  | eloatalReset (h : EloHdr)
  /-- STORE (R556). A write of PEG.STORE starts storing the staging buffer to a Pegbox area. -/
  | store (r : Req) (v : W32)
  /-- STORE_DONE (R556). A Pegbox store completes, or fails on read-back mismatch. -/
  | storeDone (ok : Bool)
  /-- LIFETIME_STORE (R557). The boot core stores the LIFETIME record hourly and at every start. -/
  | lifetimeStore (hourly : Bool)
  /-- PERF_WRAP (R563). A sampling counter wraps, reloads and raises PERF_OVF. -/
  | perfWrap (p : Fin 8192)
  /-- BW_WINDOW_END (R568). A bandwidth window ends, and its byte counts and maxima are updated. -/
  | bwWindowEnd (n : Fin 128)
  /-- BW_SEQ_READ (R568). A read of BW_SEQ latches the window registers and restarts the maxima. -/
  | bwSeqRead (r : Req) (n : Fin 128)
  /-- BW_CFG_WRITE (R568). A write of BW_CFG clears the window registers and restarts counting. -/
  | bwCfgWrite (r : Req) (n : Fin 128) (v : W32)
  /-- FS_CFG_WRITE (R570). A write of FS_CFG enables flow statistics and sets, or is refused. -/
  | fsCfgWrite (r : Req) (v : W32)
  /-- FOLD (R572). A pair whose front counter reaches 2^31 is folded into its totals. -/
  | fold (i : Fin 4194304)
  /-- FS_VISIT (R572). The fold engine visits each pair every FS_IVL and folds it. -/
  | fsVisit (i : Fin 4194304)
  /-- FS_READ (R573). FS READ folds a pair and returns its totals. -/
  | fsRead (r : Req)
  /-- FS_CLEAR (R573). CLEAR zeroes a pair's front counters and totals. -/
  | fsClear (r : Req)
  /-- SNAP_ARM (R575). A write of CTL.ARM arms a snapshot at SNAP_TIME, or is refused. -/
  | snapArm (r : Req)
  /-- SNAP_DISARM (R575). A write of CTL.DISARM cancels an armed snapshot. -/
  | snapDisarm (r : Req)
  /-- SNAP_NOW (R575). A write of CTL.NOW orders a cut at the next tick. -/
  | snapNow (r : Req)
  /-- SNAP_CUT (R576). At the cut the epoch changes, the cut time is latched and SNAP_TAKEN is raised. -/
  | snapCut
  /-- SNAP_MOVER_COPY (R577). The snapshot mover copies a counter still in the old epoch to its shadow. -/
  | snapMoverCopy (a : BitVec 29)
  /-- SNAP_DONE (R577). All counters have passed into the new epoch, DONE_US is recorded and SNAP_DONE raised. -/
  | snapDone
  /-- FS_DONE (R578). All flow pairs have passed the snapshot. -/
  | fsDone
  /-- OPEN_CLEAR (R585). A write of 1 to a FAULT.OPEN bit closes that fault class. -/
  | openClear (r : Req) (v : W32)
  /-- PLL_UNLOCK (R593). A loss of root-PLL lock is recorded and every derived clock is gated. -/
  | pllUnlock
  /-- PIPE_WDT_SAMPLE (R594). Every 10 µs the pipeline watchdogs are sampled, and a stuck unit is recorded and starved. -/
  | pipeWdtSample (units : BitVec 37)
  /-- SUPPLY_DROOP (R595). A domain rail droop is recorded, and the domain is isolated and switched off. -/
  | supplyDroop (d : Fin 37)
  /-- TJ_OUT_OF_RANGE (R584). A junction sensor moving outside −5 °C to 105 °C clears COVERED and raises UNCOVERED. -/
  | tjOutOfRange (t : BitVec 8)
  /-- VAUX_POWER_ON (R601). VAUX coming up resets the whole device. -/
  | vauxPowerOn
  /-- VAUX_LOSS (R601). VAUX falling below 2.5 V resets the whole device. -/
  | vauxLoss
  /-- VIN_LOSS (R600). VIN below 2.6 V for 2 µs switches off every VIN domain and records a droop. -/
  | vinLoss
  /-- VIN_RESTART (R600). VIN in range for 10 ms after a loss makes the boot core perform a device reset. -/
  | vinRestart
  /-- VIN_IN_RANGE (R599). VIN in range for 1 ms starts the ramps of queued domain requests. -/
  | vinInRange
  /-- DOMAIN_SWITCH_ON (R604). A write of DOM_CTL.ON := 1 is accepted and queued or ramped, or refused. -/
  | domainSwitchOn (r : Req) (d : Fin 64)
  /-- RAMP_START (R605). A queued domain starts its ramp when fewer than four domains ramp. -/
  | rampStart
  /-- DOMAIN_ON (R604). A domain reaches the on state; its pages are enabled, its engines loaded and its tables initialised. -/
  | domainOn (d : Fin 37)
  /-- DOMAIN_SWITCH_OFF (R607). A write of DOM_CTL.ON := 0 discards the domain's frames, isolates it and switches it off. -/
  | domainSwitchOff (r : Req) (d : Fin 64)
  /-- DOMAIN_RESTART (R610). The boot core switches MGMT or HOST on again 10 ms after it dropped out. -/
  | domainRestart (d : Fin 37)
  /-- SERDES_PLL_LOCK_TIMEOUT (R611). A SerDes PLL not locked within 1 ms fails the switch-on and raises DOM_FAIL. -/
  | serdesPllLockTimeout (d : Fin 37)
  /-- ROOT_PLL_LOCK (R612). The root PLL locks, and T-clock and the derived clocks start. -/
  | rootPllLock
  /-- PLL_LOSS_RESET (R619). The PLL, locked again for 1 ms after a loss, triggers a device reset. -/
  | pllLossReset
  /-- SYS_RST_ASSERT (R617). SYS_RST_N taken low holds the device in reset. -/
  | sysRstAssert
  /-- SYS_RST_RELEASE (R616). The release of SYS_RST_N performs a device reset and starts the boot. -/
  | sysRstRelease (testMode : BitVec 2)
  /-- DEV_RESET (R618). A write of 0x9128 to DEV_RESET starts a device reset. -/
  | devReset (r : Req) (v : W32)
  /-- RATE_TB_LO_WRITE (R60). A write of a rate word's low half is held until the high-half write. -/
  | rateTbLoWrite (r : Req) (x : RateSel) (v : W32)
  /-- RATE_TB_HI_WRITE (R60). A write of a rate word's high half applies both halves at the next tick, or is refused while following a tracker. -/
  | rateTbHiWrite (r : Req) (x : RateSel) (v : W32)
  /-- TB_FRAC_READ (R61). A read of TB_FRAC latches the time base and both trackers at one tick. -/
  | tbFracRead (r : Req)
  /-- TB_CTL_WRITE (R62). A write of TB_CTL requests a state transition or a change of steering, or is refused. -/
  | tbCtlWrite (r : Req) (v : W32)
  /-- STEP_CMD (R65). A write of STEP_CMD adds the signed offset to the time base at the next tick, or is refused. -/
  | stepCmd (r : Req) (v : W32)
  /-- STEP_REARM (R64). A write of STEP_REARM in LOCKED re-arms one step. -/
  | stepRearm (r : Req) (v : W32)
  /-- TRK_STEP_CMD (R70). A tagged tracker step is applied at the next tick, unless its tag repeats. -/
  | trkStepCmd (r : Req) (x : Fin 2) (v : W32)
  /-- SLEW_DONE (R72). The slewed time base reaches the followed tracker exactly and ends the slew. -/
  | slewDone
  /-- REF_LOSS (R73). Three Sync intervals without a report set LOSS and may enter HOLDOVER. -/
  | refLoss (x : Fin 2)
  /-- FOLLOWER_REALIGN (R22). Every 1 µs the Q-die follower is realigned to the F-die time base. -/
  | followerRealign
  /-- PPS_IN_EDGE (R93). A filtered PPS_IN rising edge is timestamped, or discarded as too close. -/
  | ppsInEdge (i : Fin 2) (dt : Fin 18)
  /-- PPS_LOSS (R95). 1.2 s without an accepted edge sets LOSS. -/
  | ppsLoss (i : Fin 2)
  /-- PPS_REARM (R94). A write of REARM ends quarantine. -/
  | ppsRearm (r : Req) (i : Fin 2) (v : W32)
  /-- PPS_OUT_EDGE (R96). PPS_OUT rises at each whole second of its source plus OFFSET. -/
  | ppsOutEdge (i : Fin 2)
  /-- PPS_PULSE_END (R96). The PPS_OUT pulse ends after WIDTH µs. -/
  | ppsPulseEnd (i : Fin 2)
  /-- TOD_TX_START (R98). 100 ms after a PPS_OUT[0] edge the ToD message is sent. -/
  | todTxStart
  /-- TOD_RX_MESSAGE (R99). A received ToD message is checked and latched as the label of the next edge. -/
  | todRxMessage (msg : List Byte) (framing : Bool)
  /-- TOD_LOSS (R99). 2.0 s without a valid ToD message sets LOSS. -/
  | todLoss
  /-- FREQ_EDGE (R101). Every DIV-th FREQ_IN edge is timestamped. -/
  | freqEdge (dt : Fin 18)
  /-- FREQ_LOSS (R101). 10 µs without a FREQ_IN edge raises FREQ_LOSS. -/
  | freqLoss
  /-- LAUNCH_STAGE_ENTRY (R86). A timed frame enters its port's launch stage no earlier than L − TL_LEAD. -/
  | launchStageEntry (n : Fin 128)
  /-- TIMED_FRAME_START (R88). A timed frame starts at the first instant at which its launch time, an idle port and its window allow. -/
  | timedFrameStart (n : Fin 128) (dt : Fin 18)
  /-- LAUNCH_DEADLINE (R85). A timed frame's deadline passes before it starts, and it is dropped as late. -/
  | launchDeadline (n : Fin 128)
  /-- WINDOW_COMMIT (R87). A write of TSU WIN_COMMIT validates the shadow schedule and applies it now or at the next boundary. -/
  | windowCommit (r : Req) (n : Fin 128) (v : W32)
  /-- WINDOW_PERIOD_BOUNDARY (R91). At a period boundary a committed schedule takes effect, and timed-queue frames launched before it are dropped. -/
  | windowPeriodBoundary (n : Fin 128)
  /-- PCIE_LINK_UP (R522). The PCIe link comes up again, so HOST_STS.LINK_UP reads 1 and a RELEASE of the freeze becomes possible. -/
  | pcieLinkUp (width : Fin 4) (speed : Fin 5)
  /-- PERST_RELEASE (R523). PCIE_PERST_N is deasserted, which ends the hold of the host function under isolation, or ends the device reset without isolation. -/
  | perstRelease
  /-- INTERRUPT_DISABLE_WRITE (R505). A configuration write of the Interrupt Disable bit deasserts an asserted INTA, or allows Assert_INTA again. -/
  | interruptDisableWrite (dis : Bool) (cfg : Option PciCfg)
  /-- BAR4_REQUEST (R504). A host access to the MSI-X table or PBA in BAR4 sets vector addresses and mask bits, which hold back or release MSI-X messages. -/
  | bar4Request (t : HostAccess)
  /-- RUN_SLOT_CHECK_DONE (R546). The full check of the slot named by a RUN_SLOT write ends within 30 ms, and the write is then accepted or refused with code 0x11. -/
  | runSlotCheckDone
  deriving DecidableEq, Repr

end Sys2Proof
end

