-- ==== Sys2Proof/Decode.lean ====
section
/-!
DEFINITION. The command that a word spells by the bits of spec/opcode_table.json: the rows of this device give no bits, so
no word spells a command.
-/
namespace Sys2Proof

/-- The command spelled by the `nbits` bits `w`: none. -/
def decodeTableWord (_nbits _w : Nat) : Option Instr := none

end Sys2Proof
end

