-- ==== Sys2Proof/Config.lean ====
section
/-!
DEFINITION. What an implementation fixes and the free values: constants without a body, so that no proof can see what
they are (notes/assumptions/2.md, notes/assumptions/3.md).
-/
namespace Sys2Proof.Config

/-- A free value, one for each value of the state's own counter `State.freeCtr` (notes/assumptions/3.md). -/
opaque freeValue : Nat → BitVec 64

/-- The code of a block, `BLK_ID.CODE`, by the block's first page (R40: reset value per block). -/
opaque blkCode : Nat → BitVec 16

/-- The block version of a page, `BLK_VER` bits 31 to 8 (R41: reset value per stepping). -/
opaque blkVer : Nat → BitVec 24

/-- The capabilities of a page, `BLK_CAPS` (R39: reset value per member). -/
opaque blkCaps : Nat → BitVec 32

/-- PSI byte `j`, from 1 on, of slice `i` of an OPUC of `n` slices whose MSI assigns every tributary slot to tributary 1 (R149;
the layout is that of G.709). -/
opaque psiC : Nat → Nat → Nat → BitVec 8

/-- The 128-bit die identity (R536, R558). -/
opaque dieId : BitVec 128

/-- Result of a signature check over image bytes: whether the bytes carry a valid signature of the key (R537). -/
opaque sigValid : List (BitVec 8) → Nat → Bool

/-- The identifier that PCI-SIG assigned to Hokuavo (R491). -/
opaque vendorId : BitVec 16

/-- The stepping, coded as the Revision ID (R491, R536). -/
opaque stepping : BitVec 8

/-- The octets that measurement index `i` covers, from the values concerned (R551 names the values and not their layout). -/
opaque measured : Nat → List (BitVec 8) → List (BitVec 8)

/-- The memory of micro-engine or SerDes firmware `i` in bytes (R537). -/
opaque engineMemory : Nat → BitVec 32

/-- The ROM version and the flash size in MiB that HELLO reports (R549). -/
opaque romVersion : BitVec 32
opaque flashMib : BitVec 16

/-- The certificate chain of slot 0, provisioned at manufacture (R552). -/
opaque spdmChain : List (BitVec 8)

/-- The signature of the device identity key over the messages of a transport (R552). -/
opaque spdmSign : List (List (BitVec 8)) → BitVec 768

/-- Whether a measurement index belongs to the trusted computing base that a CHALLENGE may sum up. -/
opaque spdmTcb : Nat → Bool

/-- The SPDM responder's time exponent and the size of its longest message, which CAPABILITIES reports. -/
opaque spdmTime : BitVec 8
opaque spdmSize : BitVec 32

end Sys2Proof.Config
end

