-- ==== Sys2Proof/Machine/Operands.lean ====
section
/-!
DEFINITION. Operand forms: bit fields of registers and entries ([msb:lsb], bit 0 least significant, spec/00_scope.md,
"Numbers, units and clocks"), signed fields (two's complement, R103), byte strings most significant byte first (R13)
and little-endian memory structures (R14).
-/
namespace Sys2Proof.Machine

/-- The `w`-bit field of `v` whose lowest bit is `lo`. -/
def fld (v lo w : Nat) : Nat := v / 2 ^ lo % 2 ^ w

/-- Bit `i` of `v`. -/
def bit (v i : Nat) : Bool := v / 2 ^ i % 2 == 1

/-- `v` with the `w`-bit field at `lo` replaced by `x`. -/
def setFld (v lo w x : Nat) : Nat := v - fld v lo w * 2 ^ lo + x % 2 ^ w * 2 ^ lo

/-- `v` with bit `i` set to `b`. -/
def setBit (v i : Nat) (b : Bool) : Nat := setFld v i 1 (if b then 1 else 0)

/-- A Boolean as one bit. -/
def ofB (b : Bool) : Nat := if b then 1 else 0

/-- The two's complement value of a `w`-bit field. -/
def sgn (v w : Nat) : Int := if 2 ^ (w - 1) ≤ v % 2 ^ w then (v % 2 ^ w : Int) - 2 ^ w else (v % 2 ^ w : Int)

/-- An integer as a `w`-bit two's complement field. -/
def unsgn (x : Int) (w : Nat) : Nat := (x % (2 ^ w : Int)).toNat

/-- The bits of `old` that `mask` does not cover, with those of `new` that it does (a field-wise write, R18). -/
def mergeMask (old new mask : Nat) : Nat := (old &&& (mask ^^^ 0xFFFFFFFF)) ||| (new &&& mask)

/-- Word `i` of a table entry. -/
def word (e i : Nat) : Nat := fld e (32 * i) 32

/-- An entry with word `i` replaced. -/
def setWord (e i v : Nat) : Nat := setFld e (32 * i) 32 v

/-- An entry with only its first `n` words (R55: words beyond the entry's width read 0). -/
def cutWords (e n : Nat) : Nat := e % 2 ^ (32 * n)

/-- An entry built from its words, word 0 first. -/
def ofWords : List Nat → Nat
  | [] => 0
  | w :: ws => w % 2 ^ 32 + 2 ^ 32 * ofWords ws

/-- The number that a byte string spells, most significant byte first (R13). -/
def beNat (bs : List Byte) : Nat := bs.foldl (fun a b => a * 256 + b.toNat) 0

/-- `n` bytes of a number, most significant byte first (R13). -/
def beBytes : Nat → Nat → List Byte
  | 0, _ => []
  | n + 1, v => BitVec.ofNat 8 (v / 256 ^ n) :: beBytes n v

/-- The number that a byte string spells, least significant byte first (R14). -/
def leNat : List Byte → Nat
  | [] => 0
  | b :: bs => b.toNat + 256 * leNat bs

/-- `n` bytes of a number, least significant byte first (R14). -/
def leBytes : Nat → Nat → List Byte
  | 0, _ => []
  | n + 1, v => BitVec.ofNat 8 v :: leBytes n (v / 256)

/-- Byte `i` of a byte string, 0 beyond its end. -/
def byteAt (bs : List Byte) (i : Nat) : Nat :=
  match bs.drop i with
  | [] => 0
  | b :: _ => b.toNat

/-- The number at bytes `i` to `i + n - 1` of a byte string, most significant byte first. -/
def beAt (bs : List Byte) (i n : Nat) : Nat := beNat ((bs.drop i).take n)

/-- A byte string with the bytes from `i` on overwritten by `xs` (its length kept). -/
def overwrite (bs : List Byte) (i : Nat) (xs : List Byte) : List Byte :=
  (bs.take i ++ xs ++ bs.drop (i + xs.length)).take bs.length

/-- Ceiling division. -/
def cdiv (a b : Nat) : Nat := (a + b - 1) / b

/-- `a mod b` for a signed dividend. -/
def imod (a : Int) (b : Nat) : Nat := (a % (b : Int)).toNat

/-- The positions of the set bits of `v` below `n`, lowest first. -/
def bitsOf (v n : Nat) : List Nat := (List.range n).filter (bit v)

/-- How many bits of `v` below `n` are set. -/
def popCount (v n : Nat) : Nat := (bitsOf v n).length

/-- A list of numbers in rising order. -/
def sortNat (xs : List Nat) : List Nat :=
  xs.foldr (fun x acc => acc.takeWhile (· < x) ++ x :: acc.dropWhile (· < x)) []

/-- Internal rounding of a ratio to the nearest whole number, halves up. -/
def roundDiv (a b : Nat) : Nat := (2 * a + b) / (2 * b)

end Sys2Proof.Machine
end

