-- ==== Sys2Proof/Machine/RegMap.lean ====
section
/-!
DEFINITION. The register map: page kinds and their registers, from the page map R36 (spec/01_architecture.md), the
common header R39 and the register table of each block's chapter. A register's key in `State.regs` is its BAR0 byte
address (a 64-bit register: the address of its low half).
-/
namespace Sys2Proof.Machine

/-- The block kinds of the page map (R36). -/
inductive PageKind where
  | GLB | TIME | INTC | PEG | SEC | HOST | SNAP | FAULT | CAPO | PAIR | PFE | BPM | LPORT | LG | OTN | OHP | IPIPE | EPIPE | LPM | EM | TCAM | ADJ | L2 | POL | QMGR | SCHED | SHAPE | CELL | SPILL | FG | FAB | DSC | BRIDGE
  deriving DecidableEq, Repr

/-- The access codes of R18 (spec/00_scope.md). -/
inductive Acc where
  | rw | ro | wo | rc | w1c | rwl
  deriving DecidableEq, Repr

/-- One row of a register table: `count` instances `stride` bytes apart, each of `words` 32-bit words (`wide`: a 64-bit
register of two halves). `mask` marks the bits a software write reaches. -/
structure RegRow where
  off : Nat
  count : Nat
  stride : Nat
  words : Nat
  wide : Bool
  acc : Acc
  mask : Nat
  reset : Nat
  deriving DecidableEq, Repr

/-- The first page number of a block kind (R36). -/
def PageKind.base : PageKind → Nat
  | .GLB => 0x0
  | .TIME => 0x1
  | .INTC => 0x2
  | .PEG => 0x3
  | .SEC => 0x4
  | .HOST => 0x5
  | .SNAP => 0x6
  | .FAULT => 0x7
  | .CAPO => 0x8
  | .PAIR => 0x9
  | .PFE => 0xA
  | .BPM => 0xB
  | .LPORT => 0x10
  | .LG => 0x90
  | .OTN => 0x98
  | .OHP => 0xA0
  | .IPIPE => 0xB0
  | .EPIPE => 0xB8
  | .LPM => 0xC0
  | .EM => 0xC1
  | .TCAM => 0xC2
  | .ADJ => 0xC3
  | .L2 => 0xC4
  | .POL => 0xC5
  | .QMGR => 0xD0
  | .SCHED => 0xD1
  | .SHAPE => 0xD2
  | .CELL => 0xD4
  | .SPILL => 0xD5
  | .FG => 0xE0
  | .FAB => 0xE8
  | .DSC => 0xF0
  | .BRIDGE => 0x100

/-- How many pages a block kind has (R36). -/
def PageKind.insts : PageKind → Nat
  | .GLB => 1
  | .TIME => 1
  | .INTC => 1
  | .PEG => 1
  | .SEC => 1
  | .HOST => 1
  | .SNAP => 1
  | .FAULT => 1
  | .CAPO => 1
  | .PAIR => 1
  | .PFE => 1
  | .BPM => 1
  | .LPORT => 128
  | .LG => 8
  | .OTN => 8
  | .OHP => 16
  | .IPIPE => 8
  | .EPIPE => 8
  | .LPM => 1
  | .EM => 1
  | .TCAM => 1
  | .ADJ => 1
  | .L2 => 1
  | .POL => 1
  | .QMGR => 1
  | .SCHED => 1
  | .SHAPE => 1
  | .CELL => 1
  | .SPILL => 1
  | .FG => 6
  | .FAB => 1
  | .DSC => 16
  | .BRIDGE => 1

/-- Every block kind. -/
def PageKind.all : List PageKind :=
  [.GLB, .TIME, .INTC, .PEG, .SEC, .HOST, .SNAP, .FAULT, .CAPO, .PAIR, .PFE, .BPM, .LPORT, .LG, .OTN, .OHP, .IPIPE, .EPIPE, .LPM, .EM, .TCAM, .ADJ, .L2, .POL, .QMGR, .SCHED, .SHAPE, .CELL, .SPILL, .FG, .FAB, .DSC, .BRIDGE]

/-- The kind and instance of an assigned page (R36); none for an unassigned page. -/
def pageOf (p : Nat) : Option (PageKind × Nat) :=
  if p = 0x0 then some (.GLB, 0) else
  if p = 0x1 then some (.TIME, 0) else
  if p = 0x2 then some (.INTC, 0) else
  if p = 0x3 then some (.PEG, 0) else
  if p = 0x4 then some (.SEC, 0) else
  if p = 0x5 then some (.HOST, 0) else
  if p = 0x6 then some (.SNAP, 0) else
  if p = 0x7 then some (.FAULT, 0) else
  if p = 0x8 then some (.CAPO, 0) else
  if p = 0x9 then some (.PAIR, 0) else
  if p = 0xA then some (.PFE, 0) else
  if p = 0xB then some (.BPM, 0) else
  if 0x10 ≤ p ∧ p < 0x90 then some (.LPORT, p - 0x10) else
  if 0x90 ≤ p ∧ p < 0x98 then some (.LG, p - 0x90) else
  if 0x98 ≤ p ∧ p < 0xA0 then some (.OTN, p - 0x98) else
  if 0xA0 ≤ p ∧ p < 0xB0 then some (.OHP, p - 0xA0) else
  if 0xB0 ≤ p ∧ p < 0xB8 then some (.IPIPE, p - 0xB0) else
  if 0xB8 ≤ p ∧ p < 0xC0 then some (.EPIPE, p - 0xB8) else
  if p = 0xC0 then some (.LPM, 0) else
  if p = 0xC1 then some (.EM, 0) else
  if p = 0xC2 then some (.TCAM, 0) else
  if p = 0xC3 then some (.ADJ, 0) else
  if p = 0xC4 then some (.L2, 0) else
  if p = 0xC5 then some (.POL, 0) else
  if p = 0xD0 then some (.QMGR, 0) else
  if p = 0xD1 then some (.SCHED, 0) else
  if p = 0xD2 then some (.SHAPE, 0) else
  if p = 0xD4 then some (.CELL, 0) else
  if p = 0xD5 then some (.SPILL, 0) else
  if 0xE0 ≤ p ∧ p < 0xE6 then some (.FG, p - 0xE0) else
  if p = 0xE8 then some (.FAB, 0) else
  if 0xF0 ≤ p ∧ p < 0x100 then some (.DSC, p - 0xF0) else
  if p = 0x100 then some (.BRIDGE, 0) else
  none

/-- The common page header (R39), `PERF_CYC` and the programmable counters included. -/
def headerRows : List RegRow :=
  [⟨0x0, 1, 4, 1, false, .ro, 0x0, 0x0⟩,
   ⟨0x4, 1, 4, 1, false, .ro, 0x0, 0x0⟩,
   ⟨0x8, 1, 4, 1, false, .ro, 0x0, 0x0⟩,
   ⟨0xC, 1, 4, 1, false, .rw, 0x8, 0x0⟩,
   ⟨0x10, 1, 4, 1, false, .ro, 0x0, 0x0⟩,
   ⟨0x14, 1, 4, 1, false, .ro, 0x0, 0x0⟩,
   ⟨0x20, 1, 4, 1, false, .rw, 0xFFFFFFFF, 0x0⟩,
   ⟨0x24, 1, 4, 1, false, .rw, 0xFFFFFFFF, 0xFFFFFFFF⟩,
   ⟨0x28, 1, 4, 1, false, .w1c, 0xFFFFFFFF, 0x0⟩,
   ⟨0x2C, 1, 4, 1, false, .rwl, 0xFFF, 0x0⟩,
   ⟨0x40, 1, 4, 1, false, .w1c, 0x80000000, 0x0⟩,
   ⟨0x44, 1, 4, 1, false, .ro, 0x0, 0x0⟩,
   ⟨0x48, 1, 4, 1, false, .rc, 0x0, 0x0⟩,
   ⟨0x50, 1, 8, 2, true, .ro, 0, 0⟩,
   ⟨0x60, 7, 4, 1, false, .rw, 0xFF000FFF, 0⟩,
   ⟨0x7C, 1, 4, 1, false, .rw, 0xBF000FFF, 0⟩,
   ⟨0x80, 8, 4, 1, false, .rw, 0xFFFFFFFF, 0⟩,
   ⟨0x100, 1, 4, 1, false, .rw, 0xFFFFFFFF, 0⟩,
   ⟨0x104, 1, 4, 1, false, .rw, 0xFFFFFFFF, 0⟩,
   ⟨0x108, 1, 4, 1, false, .wo, 0xFF, 0⟩,
   ⟨0x10C, 1, 4, 1, false, .ro, 0, 0⟩,
   ⟨0x140, 16, 4, 1, false, .rw, 0xFFFFFFFF, 0⟩]

/-- The block-specific registers of the GLB page (R621). -/
def rowsGLB : List RegRow :=
  [⟨0x400, 1, 0x4, 1, false, .rwl, 0xFF, 0x1⟩,
   ⟨0x404, 1, 0x4, 1, false, .wo, 0xFFFF, 0x0⟩,
   ⟨0x408, 1, 0x4, 1, false, .ro, 0x0, 0x0⟩,
   ⟨0x40C, 1, 0x4, 1, false, .ro, 0x0, 0x0⟩,
   ⟨0x410, 1, 0x4, 1, false, .ro, 0x0, 0x0⟩,
   ⟨0x414, 1, 0x4, 1, false, .ro, 0x0, 0x0⟩,
   ⟨0x418, 1, 0x4, 1, false, .ro, 0x0, 0x0⟩,
   ⟨0x41C, 1, 0x4, 1, false, .ro, 0x0, 0x0⟩,
   ⟨0x504, 36, 0x4, 1, false, .rw, 0x80000000, 0x0⟩,
   ⟨0x604, 36, 0x4, 1, false, .ro, 0x0, 0x0⟩,
   ⟨0x8000, 1, 0x8, 2, true, .ro, 0x0, 0x0⟩,
   ⟨0x8008, 1, 0x8, 2, true, .ro, 0x0, 0x0⟩,
   ⟨0x8010, 1, 0x8, 2, true, .ro, 0x0, 0x0⟩,
   ⟨0x8108, 36, 0x8, 2, true, .ro, 0x0, 0x0⟩]

/-- The block-specific registers of the TIME page (R103). -/
def rowsTIME : List RegRow :=
  [⟨0x400, 1, 0x4, 1, false, .ro, 0x0, 0x0⟩,
   ⟨0x404, 1, 0x4, 1, false, .ro, 0x0, 0x0⟩,
   ⟨0x408, 1, 0x4, 1, false, .ro, 0x0, 0x0⟩,
   ⟨0x40C, 1, 0x4, 1, false, .ro, 0x0, 0x0⟩,
   ⟨0x410, 1, 0x4, 1, false, .rw, 0xFFFFFFFF, 0xC71C71C7⟩,
   ⟨0x414, 1, 0x4, 1, false, .rw, 0xFFFFFFFF, 0x11C71⟩,
   ⟨0x418, 1, 0x4, 1, false, .rw, 0xFFFFFFFF, 0x0⟩,
   ⟨0x41C, 1, 0x4, 1, false, .rw, 0xFFFFFFFF, 0x0⟩,
   ⟨0x420, 1, 0x4, 1, false, .rw, 0xFFFF, 0x0⟩,
   ⟨0x424, 1, 0x4, 1, false, .wo, 0x1, 0x0⟩,
   ⟨0x428, 1, 0x4, 1, false, .wo, 0x1, 0x0⟩,
   ⟨0x430, 1, 0x4, 1, false, .rw, 0x133, 0x100⟩,
   ⟨0x434, 1, 0x4, 1, false, .rw, 0x3FF, 0x32⟩,
   ⟨0x438, 1, 0x4, 1, false, .rw, 0x7, 0x4⟩,
   ⟨0x43C, 1, 0x4, 1, false, .rw, 0xFFFFFFFF, 0x0⟩,
   ⟨0x440, 1, 0x4, 1, false, .rw, 0xFFFFFF, 0x0⟩,
   ⟨0x444, 5, 0x4, 1, false, .ro, 0x0, 0x0⟩,
   ⟨0x458, 1, 0x4, 1, false, .ro, 0x0, 0x0⟩,
   ⟨0x4000, 128, 0x40, 1, false, .rw, 0x7, 0x1⟩,
   ⟨0x4004, 128, 0x40, 1, false, .ro, 0x0, 0x0⟩,
   ⟨0x4008, 128, 0x40, 1, false, .ro, 0x0, 0x0⟩,
   ⟨0x400C, 128, 0x40, 1, false, .rw, 0xFFF, 0x0⟩,
   ⟨0x4010, 128, 0x40, 1, false, .rw, 0xFFF, 0x0⟩,
   ⟨0x4014, 128, 0x40, 1, false, .ro, 0x0, 0x0⟩] ++
  [⟨0x4018, 128, 0x40, 1, false, .rw, 0xFFFF, 0x3E8⟩,
   ⟨0x401C, 128, 0x40, 1, false, .rw, 0xFFFF, 0x2710⟩,
   ⟨0x4020, 128, 0x40, 1, false, .rw, 0x3FFFFFFF, 0x0⟩,
   ⟨0x4024, 128, 0x40, 1, false, .rw, 0x3FFFFFFF, 0x0⟩,
   ⟨0x4028, 128, 0x40, 1, false, .rw, 0xFFFFFFFF, 0x0⟩,
   ⟨0x402C, 128, 0x40, 1, false, .wo, 0x1, 0x0⟩,
   ⟨0x6000, 2, 0x40, 1, false, .ro, 0x0, 0x0⟩,
   ⟨0x6004, 2, 0x40, 1, false, .ro, 0x0, 0x0⟩,
   ⟨0x6008, 2, 0x40, 1, false, .ro, 0x0, 0x0⟩,
   ⟨0x600C, 2, 0x40, 1, false, .ro, 0x0, 0x0⟩,
   ⟨0x6010, 2, 0x40, 1, false, .rw, 0xFFFFFFFF, 0xC71C71C7⟩,
   ⟨0x6014, 2, 0x40, 1, false, .rw, 0xFFFFFFFF, 0x11C71⟩,
   ⟨0x6018, 2, 0x40, 1, false, .rw, 0xFFFFFFFF, 0x0⟩,
   ⟨0x601C, 2, 0x40, 1, false, .rw, 0xFFFFFFFF, 0x0⟩,
   ⟨0x6020, 2, 0x40, 1, false, .rw, 0xFFFF, 0x0⟩,
   ⟨0x6024, 2, 0x40, 1, false, .rw, 0x0, 0x0⟩,
   ⟨0x6028, 2, 0x40, 1, false, .rw, 0x800FFF7F, 0x0⟩,
   ⟨0x602C, 2, 0x40, 1, false, .ro, 0x0, 0x0⟩,
   ⟨0x6100, 2, 0x20, 1, false, .rw, 0x800007FF, 0x1F4⟩,
   ⟨0x6104, 2, 0x20, 1, false, .ro, 0x0, 0x0⟩,
   ⟨0x6108, 2, 0x20, 1, false, .ro, 0x0, 0x0⟩,
   ⟨0x610C, 2, 0x20, 1, false, .ro, 0x0, 0x0⟩,
   ⟨0x6110, 2, 0x20, 1, false, .ro, 0x0, 0x0⟩,
   ⟨0x6114, 2, 0x20, 1, false, .ro, 0x0, 0x0⟩] ++
  [⟨0x6118, 2, 0x20, 1, false, .wo, 0x1, 0x0⟩,
   ⟨0x6200, 2, 0x20, 1, false, .rw, 0xC0000003, 0x40000000⟩,
   ⟨0x6204, 2, 0x20, 1, false, .rw, 0x3FFFFFFF, 0x0⟩,
   ⟨0x6208, 2, 0x20, 1, false, .rw, 0x7FFFF, 0x186A0⟩,
   ⟨0x6300, 4, 0x4, 1, false, .rw, 0xFFFF807F, 0x1540000⟩,
   ⟨0x6310, 1, 0x4, 1, false, .rw, 0x80FFFFFF, 0x3E8⟩,
   ⟨0x6314, 1, 0x4, 1, false, .ro, 0x0, 0x0⟩,
   ⟨0x6318, 1, 0x4, 1, false, .ro, 0x0, 0x0⟩,
   ⟨0x631C, 1, 0x4, 1, false, .ro, 0x0, 0x0⟩,
   ⟨0x6320, 1, 0x4, 1, false, .ro, 0x0, 0x0⟩,
   ⟨0x8000, 1, 0x8, 2, true, .ro, 0x0, 0x0⟩,
   ⟨0x8008, 1, 0x8, 2, true, .ro, 0x0, 0x0⟩,
   ⟨0x8010, 1, 0x8, 2, true, .ro, 0x0, 0x0⟩,
   ⟨0x8018, 1, 0x8, 2, true, .ro, 0x0, 0x0⟩,
   ⟨0x8020, 1, 0x8, 2, true, .ro, 0x0, 0x0⟩,
   ⟨0x8030, 2, 0x8, 2, true, .ro, 0x0, 0x0⟩,
   ⟨0x9000, 128, 0x20, 2, true, .ro, 0x0, 0x0⟩,
   ⟨0x9008, 128, 0x20, 2, true, .ro, 0x0, 0x0⟩,
   ⟨0x9010, 128, 0x20, 2, true, .ro, 0x0, 0x0⟩,
   ⟨0x9018, 128, 0x20, 2, true, .ro, 0x0, 0x0⟩]

/-- The block-specific registers of the INTC page (R488). -/
def rowsINTC : List RegRow :=
  [⟨0x400, 1, 0x4, 1, false, .wo, 0xFFFFFFFF, 0x0⟩,
   ⟨0x410, 4, 0x4, 1, false, .ro, 0x0, 0x0⟩,
   ⟨0x420, 4, 0x4, 1, false, .wo, 0xFFF, 0x0⟩,
   ⟨0x430, 4, 0x4, 1, false, .wo, 0xF, 0x0⟩,
   ⟨0x440, 4, 0x4, 1, false, .ro, 0x0, 0x0⟩,
   ⟨0x800, 128, 0x4, 1, false, .rw, 0xFFFFFFFF, 0x0⟩,
   ⟨0xA00, 128, 0x4, 1, false, .rw, 0xFFFFFFFF, 0xFFFFFFFF⟩,
   ⟨0xC00, 128, 0x4, 1, false, .w1c, 0xFFFFFFFF, 0x0⟩,
   ⟨0xE00, 128, 0x4, 1, false, .rw, 0x3FF, 0x0⟩,
   ⟨0x4000, 4096, 0x4, 1, false, .rw, 0xCF3F0000, 0x0⟩,
   ⟨0x8000, 1, 0x8, 2, true, .ro, 0x0, 0x0⟩,
   ⟨0x8008, 1, 0x8, 2, true, .ro, 0x0, 0x0⟩,
   ⟨0x8010, 1, 0x8, 2, true, .ro, 0x0, 0x0⟩,
   ⟨0x8018, 1, 0x8, 2, true, .ro, 0x0, 0x0⟩]

/-- The block-specific registers of the PEG page (R559). -/
def rowsPEG : List RegRow :=
  [⟨0x400, 1, 0x4, 1, false, .wo, 0x3FFFFFFF, 0x0⟩,
   ⟨0x404, 1, 0x4, 1, false, .ro, 0x0, 0x0⟩,
   ⟨0x4000, 64, 0x8, 1, false, .ro, 0x0, 0x0⟩,
   ⟨0x4004, 64, 0x8, 1, false, .ro, 0x0, 0x0⟩,
   ⟨0x8000, 1, 0x8, 2, true, .ro, 0x0, 0x0⟩,
   ⟨0x8008, 1, 0x8, 2, true, .ro, 0x0, 0x0⟩,
   ⟨0x8010, 1, 0x8, 2, true, .ro, 0x0, 0x0⟩]

/-- The block-specific registers of the SEC page (R558). -/
def rowsSEC : List RegRow :=
  [⟨0x400, 1, 0x4, 1, false, .ro, 0x0, 0x0⟩,
   ⟨0x404, 1, 0x4, 1, false, .rw, 0x1, 0x0⟩,
   ⟨0x408, 4, 0x4, 1, false, .ro, 0x0, 0x0⟩,
   ⟨0x418, 1, 0x4, 1, false, .ro, 0x0, 0x0⟩,
   ⟨0x41C, 1, 0x4, 1, false, .wo, 0xF, 0x0⟩,
   ⟨0x420, 1, 0x4, 1, false, .wo, 0xFF, 0x0⟩,
   ⟨0x424, 1, 0x4, 1, false, .wo, 0x107, 0x0⟩,
   ⟨0x428, 1, 0x4, 1, false, .w1c, 0x80000000, 0x0⟩,
   ⟨0x42C, 1, 0x4, 1, false, .rw, 0x3, 0x0⟩,
   ⟨0x430, 1, 0x4, 1, false, .rw, 0x1, 0x0⟩,
   ⟨0x434, 1, 0x4, 1, false, .ro, 0x0, 0x0⟩,
   ⟨0x438, 1, 0x4, 1, false, .ro, 0x0, 0x0⟩,
   ⟨0x1040, 8, 0x40, 12, false, .ro, 0x0, 0x0⟩,
   ⟨0x1070, 8, 0x40, 1, false, .ro, 0x0, 0x0⟩,
   ⟨0x8000, 1, 0x8, 2, true, .ro, 0x0, 0x0⟩,
   ⟨0x8008, 1, 0x8, 2, true, .ro, 0x0, 0x0⟩,
   ⟨0x8010, 1, 0x8, 2, true, .ro, 0x0, 0x0⟩,
   ⟨0x8018, 1, 0x8, 2, true, .ro, 0x0, 0x0⟩,
   ⟨0x8020, 1, 0x8, 2, true, .ro, 0x0, 0x0⟩]

/-- The block-specific registers of the HOST page (R528). -/
def rowsHOST : List RegRow :=
  [⟨0x400, 1, 0x4, 1, false, .ro, 0x0, 0x0⟩,
   ⟨0x404, 1, 0x4, 1, false, .ro, 0x0, 0x0⟩,
   ⟨0x408, 1, 0x4, 1, false, .wo, 0x1, 0x0⟩,
   ⟨0x40C, 1, 0x4, 1, false, .wo, 0x1, 0x0⟩,
   ⟨0x4000, 64, 0x20, 1, false, .rw, 0xFFFFFFF0, 0x0⟩,
   ⟨0x4004, 64, 0x20, 1, false, .rw, 0xFFFFFFFF, 0x0⟩,
   ⟨0x4008, 64, 0x20, 1, false, .rw, 0x801F007F, 0x0⟩,
   ⟨0x400C, 64, 0x20, 1, false, .rw, 0xFFFF, 0x0⟩,
   ⟨0x4010, 64, 0x20, 1, false, .ro, 0x0, 0x0⟩,
   ⟨0x4014, 64, 0x20, 1, false, .ro, 0x0, 0x0⟩,
   ⟨0x4018, 64, 0x20, 1, false, .rw, 0xFFFF, 0x100⟩,
   ⟨0x4C00, 16, 0x20, 1, false, .rw, 0xFFFFFFE0, 0x0⟩,
   ⟨0x4C04, 16, 0x20, 1, false, .rw, 0xFFFFFFFF, 0x0⟩,
   ⟨0x4C08, 16, 0x20, 1, false, .rw, 0x801F0000, 0x0⟩,
   ⟨0x4C0C, 16, 0x20, 1, false, .rw, 0xFFFF, 0x0⟩,
   ⟨0x4C10, 16, 0x20, 1, false, .ro, 0x0, 0x0⟩,
   ⟨0x4C14, 16, 0x20, 1, false, .ro, 0x0, 0x0⟩,
   ⟨0x4800, 8, 0x20, 1, false, .rw, 0xFFFFF000, 0x0⟩,
   ⟨0x4804, 8, 0x20, 1, false, .rw, 0xC000073F, 0x0⟩,
   ⟨0x4808, 8, 0x20, 1, false, .rw, 0xFFFFF000, 0x0⟩,
   ⟨0x480C, 8, 0x20, 1, false, .rw, 0xFF, 0x0⟩,
   ⟨0x4900, 8, 0x20, 1, false, .ro, 0x0, 0x0⟩,
   ⟨0x4904, 8, 0x20, 1, false, .ro, 0x0, 0x0⟩,
   ⟨0x4908, 8, 0x20, 1, false, .ro, 0x0, 0x0⟩] ++
  [⟨0x490C, 8, 0x20, 1, false, .ro, 0x0, 0x0⟩,
   ⟨0x8000, 64, 0x20, 2, true, .ro, 0x0, 0x0⟩,
   ⟨0x8008, 64, 0x20, 2, true, .ro, 0x0, 0x0⟩,
   ⟨0x8010, 64, 0x20, 2, true, .ro, 0x0, 0x0⟩,
   ⟨0x8018, 64, 0x20, 2, true, .ro, 0x0, 0x0⟩,
   ⟨0x8800, 16, 0x20, 2, true, .ro, 0x0, 0x0⟩,
   ⟨0x8808, 16, 0x20, 2, true, .ro, 0x0, 0x0⟩,
   ⟨0x8810, 16, 0x20, 2, true, .ro, 0x0, 0x0⟩,
   ⟨0x8C00, 64, 0x8, 2, true, .ro, 0x0, 0x0⟩,
   ⟨0x9000, 1, 0x8, 2, true, .ro, 0x0, 0x0⟩,
   ⟨0x9008, 1, 0x8, 2, true, .ro, 0x0, 0x0⟩,
   ⟨0x9010, 1, 0x8, 2, true, .ro, 0x0, 0x0⟩,
   ⟨0x9018, 1, 0x8, 2, true, .ro, 0x0, 0x0⟩,
   ⟨0x9020, 1, 0x8, 2, true, .ro, 0x0, 0x0⟩,
   ⟨0x9028, 1, 0x8, 2, true, .ro, 0x0, 0x0⟩,
   ⟨0x9030, 1, 0x8, 2, true, .ro, 0x0, 0x0⟩]

/-- The block-specific registers of the SNAP page (R581). -/
def rowsSNAP : List RegRow :=
  [⟨0x400, 1, 0x4, 1, false, .wo, 0x7, 0x0⟩,
   ⟨0x404, 1, 0x4, 1, false, .rw, 0x3FFFFFFF, 0x0⟩,
   ⟨0x408, 1, 0x4, 1, false, .rw, 0xFFFFFFFF, 0x0⟩,
   ⟨0x40C, 1, 0x4, 1, false, .rw, 0xFFFF, 0x0⟩,
   ⟨0x410, 1, 0x4, 1, false, .ro, 0x0, 0x0⟩,
   ⟨0x414, 1, 0x4, 1, false, .ro, 0x0, 0x0⟩,
   ⟨0x418, 1, 0x4, 1, false, .ro, 0x0, 0x0⟩,
   ⟨0x41C, 1, 0x4, 1, false, .ro, 0x0, 0x0⟩,
   ⟨0x420, 1, 0x4, 1, false, .rw, 0x80FF007F, 0x64007F⟩,
   ⟨0x424, 1, 0x4, 1, false, .ro, 0x0, 0x0⟩,
   ⟨0x8000, 1, 0x8, 2, true, .ro, 0x0, 0x0⟩,
   ⟨0x8008, 1, 0x8, 2, true, .ro, 0x0, 0x0⟩,
   ⟨0x8010, 1, 0x8, 2, true, .ro, 0x0, 0x0⟩]

/-- The block-specific registers of the FAULT page (R596). -/
def rowsFAULT : List RegRow :=
  [⟨0x400, 1, 0x4, 1, false, .ro, 0x0, 0x80000000⟩,
   ⟨0x404, 1, 0x4, 1, false, .rw, 0x7, 0x7⟩,
   ⟨0x408, 1, 0x4, 1, false, .rw, 0x7F, 0x5A⟩,
   ⟨0x40C, 1, 0x4, 1, false, .w1c, 0x7FFFE, 0x0⟩,
   ⟨0x410, 1, 0x4, 1, false, .rw, 0x7FFFE, 0x41C00⟩,
   ⟨0x414, 1, 0x4, 1, false, .rw, 0x7FFFE, 0x3E34C⟩,
   ⟨0x418, 1, 0x4, 1, false, .ro, 0x0, 0x0⟩,
   ⟨0x41C, 1, 0x4, 1, false, .w1c, 0x80000000, 0x0⟩,
   ⟨0x420, 1, 0x4, 1, false, .ro, 0x0, 0x0⟩,
   ⟨0x424, 1, 0x4, 1, false, .ro, 0x0, 0x0⟩,
   ⟨0x8008, 18, 0x8, 2, true, .ro, 0x0, 0x0⟩,
   ⟨0x8100, 1, 0x8, 2, true, .ro, 0x0, 0x0⟩]

/-- The block-specific registers of the CAPO page (R306). -/
def rowsCAPO : List RegRow :=
  [⟨0x400, 1, 0x4, 1, false, .wo, 0x1, 0x0⟩,
   ⟨0x404, 1, 0x4, 1, false, .wo, 0x3, 0x0⟩,
   ⟨0x408, 1, 0x4, 1, false, .rw, 0x3FFFFFFF, 0x0⟩,
   ⟨0x40C, 1, 0x4, 1, false, .rw, 0xFFFFFFFF, 0x0⟩,
   ⟨0x410, 1, 0x4, 1, false, .rw, 0xFFFF, 0x0⟩,
   ⟨0x414, 1, 0x4, 1, false, .rw, 0xFFFF, 0xC8⟩,
   ⟨0x418, 1, 0x4, 1, false, .ro, 0x0, 0x0⟩,
   ⟨0x41C, 1, 0x4, 1, false, .wo, 0x1, 0x0⟩,
   ⟨0x420, 2, 0x4, 1, false, .ro, 0x0, 0x0⟩,
   ⟨0x428, 2, 0x4, 1, false, .ro, 0x0, 0x0⟩,
   ⟨0x430, 1, 0x4, 1, false, .ro, 0x0, 0x64⟩,
   ⟨0x434, 1, 0x4, 1, false, .ro, 0x0, 0x0⟩,
   ⟨0x438, 1, 0x4, 1, false, .ro, 0x0, 0x0⟩,
   ⟨0x8000, 1, 0x8, 2, true, .ro, 0x0, 0x0⟩,
   ⟨0x8008, 1, 0x8, 2, true, .ro, 0x0, 0x0⟩,
   ⟨0x8010, 1, 0x8, 2, true, .ro, 0x0, 0x0⟩,
   ⟨0x8018, 1, 0x8, 2, true, .ro, 0x0, 0x0⟩,
   ⟨0x8020, 1, 0x8, 2, true, .ro, 0x0, 0x0⟩,
   ⟨0x8028, 1, 0x8, 2, true, .ro, 0x0, 0x0⟩,
   ⟨0x8030, 1, 0x8, 2, true, .ro, 0x0, 0x0⟩,
   ⟨0x8038, 1, 0x8, 2, true, .ro, 0x0, 0x0⟩,
   ⟨0x8040, 1, 0x8, 2, true, .ro, 0x0, 0x0⟩]

/-- The block-specific registers of the PAIR page (R487). -/
def rowsPAIR : List RegRow :=
  [⟨0x400, 1, 0x4, 1, false, .ro, 0x0, 0x0⟩,
   ⟨0x404, 2, 0x4, 1, false, .ro, 0x0, 0x0⟩,
   ⟨0x40C, 1, 0x4, 1, false, .wo, 0x1, 0x0⟩,
   ⟨0x410, 1, 0x4, 1, false, .wo, 0x101, 0x0⟩,
   ⟨0x414, 1, 0x4, 1, false, .rw, 0x3FF, 0x1F4⟩,
   ⟨0x418, 1, 0x4, 1, false, .wo, 0x1, 0x0⟩,
   ⟨0x41C, 1, 0x4, 1, false, .ro, 0x0, 0x0⟩,
   ⟨0x440, 7, 0x4, 1, false, .ro, 0x0, 0x0⟩,
   ⟨0x8000, 1, 0x8, 2, true, .ro, 0x0, 0x0⟩,
   ⟨0x8008, 1, 0x8, 2, true, .ro, 0x0, 0x0⟩,
   ⟨0x8010, 4, 0x8, 2, true, .ro, 0x0, 0x0⟩]

/-- The block-specific registers of the PFE page (R489). -/
def rowsPFE : List RegRow :=
  [⟨0x400, 1, 0x4, 1, false, .rw, 0xFFFF, 0x4E20⟩,
   ⟨0x404, 1, 0x4, 1, false, .ro, 0x0, 0x0⟩,
   ⟨0x8000, 1, 0x8, 2, true, .ro, 0x0, 0x0⟩,
   ⟨0x8008, 1, 0x8, 2, true, .ro, 0x0, 0x0⟩]

/-- The block-specific registers of the BPM page (R347). -/
def rowsBPM : List RegRow :=
  [⟨0x400, 4, 0x4, 1, false, .rw, 0xFFFF, 0x1000⟩,
   ⟨0x410, 1, 0x4, 1, false, .ro, 0x0, 0x7C010⟩,
   ⟨0x414, 4, 0x4, 1, false, .ro, 0x0, 0x0⟩,
   ⟨0x424, 1, 0x4, 1, false, .ro, 0x0, 0x0⟩,
   ⟨0x428, 1, 0x4, 1, false, .rw, 0xFFFFF, 0x4000⟩,
   ⟨0x42C, 1, 0x4, 1, false, .rw, 0xFFFFFFF, 0x10000⟩,
   ⟨0x430, 6, 0x4, 1, false, .ro, 0x0, 0x0⟩,
   ⟨0x450, 1, 0x4, 1, false, .w1c, 0x80000000, 0x0⟩,
   ⟨0x454, 1, 0x4, 1, false, .ro, 0x0, 0x0⟩,
   ⟨0x8000, 1, 0x8, 2, true, .ro, 0x0, 0x0⟩,
   ⟨0x8010, 6, 0x8, 2, true, .ro, 0x0, 0x0⟩,
   ⟨0x8040, 1, 0x8, 2, true, .ro, 0x0, 0x0⟩,
   ⟨0x8048, 1, 0x8, 2, true, .ro, 0x0, 0x0⟩]

/-- The block-specific registers of the LPORT page (R135). -/
def rowsLPORT : List RegRow :=
  [⟨0x400, 1, 0x4, 1, false, .rw, 0xFBFFF, 0x205F2⟩,
   ⟨0x404, 1, 0x4, 1, false, .rw, 0xFFFFFFFF, 0xFFFF03E8⟩,
   ⟨0x408, 1, 0x4, 1, false, .rw, 0xFF, 0xFF⟩,
   ⟨0x40C, 1, 0x4, 1, false, .rw, 0xFFFFFFFF, 0x0⟩,
   ⟨0x410, 1, 0x4, 1, false, .rw, 0xFFFF, 0x0⟩,
   ⟨0x414, 1, 0x4, 1, false, .rw, 0x3FF, 0xA⟩,
   ⟨0x418, 1, 0x4, 1, false, .rw, 0xFFFFFF, 0x1000⟩,
   ⟨0x420, 1, 0x4, 1, false, .ro, 0x0, 0x0⟩,
   ⟨0x430, 8, 0x4, 1, false, .ro, 0x0, 0x0⟩,
   ⟨0x460, 1, 0x4, 1, false, .rw, 0x800FFFFF, 0x3E8⟩,
   ⟨0x464, 1, 0x4, 1, false, .ro, 0x0, 0x0⟩,
   ⟨0x468, 1, 0x8, 2, true, .ro, 0x0, 0x0⟩,
   ⟨0x470, 1, 0x8, 2, true, .ro, 0x0, 0x0⟩,
   ⟨0x478, 1, 0x8, 2, true, .ro, 0x0, 0x0⟩,
   ⟨0x480, 1, 0x8, 2, true, .ro, 0x0, 0x0⟩,
   ⟨0x8000, 1, 0x8, 2, true, .ro, 0x0, 0x0⟩,
   ⟨0x8008, 1, 0x8, 2, true, .ro, 0x0, 0x0⟩,
   ⟨0x8010, 1, 0x8, 2, true, .ro, 0x0, 0x0⟩,
   ⟨0x8018, 1, 0x8, 2, true, .ro, 0x0, 0x0⟩,
   ⟨0x8020, 1, 0x8, 2, true, .ro, 0x0, 0x0⟩,
   ⟨0x8028, 1, 0x8, 2, true, .ro, 0x0, 0x0⟩,
   ⟨0x8030, 1, 0x8, 2, true, .ro, 0x0, 0x0⟩,
   ⟨0x8038, 1, 0x8, 2, true, .ro, 0x0, 0x0⟩,
   ⟨0x8040, 1, 0x8, 2, true, .ro, 0x0, 0x0⟩] ++
  [⟨0x8048, 1, 0x8, 2, true, .ro, 0x0, 0x0⟩,
   ⟨0x8050, 1, 0x8, 2, true, .ro, 0x0, 0x0⟩,
   ⟨0x8058, 1, 0x8, 2, true, .ro, 0x0, 0x0⟩,
   ⟨0x8060, 1, 0x8, 2, true, .ro, 0x0, 0x0⟩,
   ⟨0x8068, 1, 0x8, 2, true, .ro, 0x0, 0x0⟩,
   ⟨0x8070, 1, 0x8, 2, true, .ro, 0x0, 0x0⟩,
   ⟨0x8080, 1, 0x8, 2, true, .ro, 0x0, 0x0⟩,
   ⟨0x8088, 1, 0x8, 2, true, .ro, 0x0, 0x0⟩,
   ⟨0x8090, 1, 0x8, 2, true, .ro, 0x0, 0x0⟩,
   ⟨0x8098, 1, 0x8, 2, true, .ro, 0x0, 0x0⟩,
   ⟨0x80A0, 1, 0x8, 2, true, .ro, 0x0, 0x0⟩,
   ⟨0x80A8, 1, 0x8, 2, true, .ro, 0x0, 0x0⟩,
   ⟨0x80B0, 1, 0x8, 2, true, .ro, 0x0, 0x0⟩,
   ⟨0x8100, 8, 0x8, 2, true, .ro, 0x0, 0x0⟩,
   ⟨0x8140, 8, 0x8, 2, true, .ro, 0x0, 0x0⟩]

/-- The block-specific registers of the LG page (R137). -/
def rowsLG : List RegRow :=
  [⟨0x400, 1, 0x4, 1, false, .rw, 0xFFFFFFFF, 0x0⟩,
   ⟨0x404, 1, 0x4, 1, false, .rw, 0xFFFFFFFF, 0x0⟩,
   ⟨0x408, 1, 0x4, 1, false, .wo, 0x1, 0x0⟩,
   ⟨0x40C, 1, 0x4, 1, false, .ro, 0x0, 0x0⟩,
   ⟨0x410, 1, 0x4, 1, false, .ro, 0x0, 0x0⟩,
   ⟨0x414, 1, 0x4, 1, false, .rw, 0x1F, 0x2⟩,
   ⟨0x4000, 16, 0x4, 1, false, .rw, 0xFFFFFF3, 0x300000⟩,
   ⟨0x8000, 1, 0x8, 2, true, .ro, 0x0, 0x0⟩,
   ⟨0x8008, 1, 0x8, 2, true, .ro, 0x0, 0x0⟩,
   ⟨0x8010, 1, 0x8, 2, true, .ro, 0x0, 0x0⟩]

/-- The block-specific registers of the OTN page (R168). -/
def rowsOTN : List RegRow :=
  [⟨0x4000, 16, 0x100, 1, false, .rw, 0xFFF3FFFF, 0x4000000⟩,
   ⟨0x4004, 16, 0x100, 1, false, .rw, 0xF0FFFFFF, 0x30002710⟩,
   ⟨0x4008, 16, 0x100, 1, false, .rw, 0xFFFFF, 0x0⟩,
   ⟨0x400C, 16, 0x100, 1, false, .rw, 0xFFFFF, 0x0⟩,
   ⟨0x4010, 16, 0x100, 1, false, .rw, 0xFFFFFFFF, 0x0⟩,
   ⟨0x4014, 16, 0x100, 1, false, .ro, 0x0, 0x0⟩,
   ⟨0x4018, 16, 0x100, 1, false, .w1c, 0x1FFFFFFF, 0x0⟩,
   ⟨0x401C, 16, 0x100, 1, false, .ro, 0x0, 0x0⟩,
   ⟨0x4020, 16, 0x100, 1, false, .ro, 0x0, 0x0⟩,
   ⟨0x4024, 16, 0x100, 1, false, .ro, 0x0, 0x0⟩,
   ⟨0x4028, 16, 0x100, 1, false, .ro, 0x0, 0x0⟩,
   ⟨0x402C, 16, 0x100, 1, false, .ro, 0x0, 0x0⟩,
   ⟨0x8000, 16, 0x100, 2, true, .ro, 0x0, 0x0⟩,
   ⟨0x8008, 16, 0x100, 2, true, .ro, 0x0, 0x0⟩,
   ⟨0x8010, 16, 0x100, 2, true, .ro, 0x0, 0x0⟩,
   ⟨0x8018, 16, 0x100, 2, true, .ro, 0x0, 0x0⟩,
   ⟨0x8020, 16, 0x100, 2, true, .ro, 0x0, 0x0⟩,
   ⟨0x8028, 16, 0x100, 2, true, .ro, 0x0, 0x0⟩,
   ⟨0x8030, 16, 0x100, 2, true, .ro, 0x0, 0x0⟩,
   ⟨0x8038, 16, 0x100, 2, true, .ro, 0x0, 0x0⟩,
   ⟨0x8040, 16, 0x100, 2, true, .ro, 0x0, 0x0⟩,
   ⟨0x8048, 16, 0x100, 2, true, .ro, 0x0, 0x0⟩,
   ⟨0x8050, 16, 0x100, 2, true, .ro, 0x0, 0x0⟩,
   ⟨0x8058, 16, 0x100, 2, true, .ro, 0x0, 0x0⟩] ++
  [⟨0x8060, 16, 0x100, 2, true, .ro, 0x0, 0x0⟩,
   ⟨0x8068, 16, 0x100, 2, true, .ro, 0x0, 0x0⟩,
   ⟨0x8070, 16, 0x100, 2, true, .ro, 0x0, 0x0⟩,
   ⟨0x8078, 16, 0x100, 2, true, .ro, 0x0, 0x0⟩,
   ⟨0x8080, 16, 0x100, 2, true, .ro, 0x0, 0x0⟩]

/-- The block-specific registers of the OHP page (R173). -/
def rowsOHP : List RegRow :=
  [⟨0x400, 1, 0x4, 1, false, .rw, 0xF000000F, 0x0⟩,
   ⟨0x404, 1, 0x4, 1, false, .ro, 0x0, 0x0⟩,
   ⟨0x408, 1, 0x4, 1, false, .wo, 0x1, 0x0⟩,
   ⟨0x40C, 1, 0x4, 1, false, .ro, 0x0, 0x0⟩,
   ⟨0x8000, 1, 0x8, 2, true, .ro, 0x0, 0x0⟩,
   ⟨0x8008, 1, 0x8, 2, true, .ro, 0x0, 0x0⟩,
   ⟨0x8010, 1, 0x8, 2, true, .ro, 0x0, 0x0⟩,
   ⟨0x8018, 1, 0x8, 2, true, .ro, 0x0, 0x0⟩,
   ⟨0x8020, 1, 0x8, 2, true, .ro, 0x0, 0x0⟩,
   ⟨0x8028, 1, 0x8, 2, true, .ro, 0x0, 0x0⟩]

/-- The block-specific registers of the IPIPE page (R211, R276). -/
def rowsIPIPE : List RegRow :=
  [⟨0x4000, 17, 0x4, 1, false, .rw, 0xCF00FF, 0x0⟩,
   ⟨0x4100, 16, 0x4, 1, false, .rw, 0x7FFF, 0x0⟩,
   ⟨0x8000, 1, 0x8, 2, true, .ro, 0x0, 0x0⟩,
   ⟨0x8008, 6, 0x8, 2, true, .ro, 0x0, 0x0⟩,
   ⟨0x8038, 1, 0x8, 2, true, .ro, 0x0, 0x0⟩,
   ⟨0x8040, 1, 0x8, 2, true, .ro, 0x0, 0x0⟩,
   ⟨0x8048, 1, 0x8, 2, true, .ro, 0x0, 0x0⟩,
   ⟨0x8050, 1, 0x8, 2, true, .ro, 0x0, 0x0⟩,
   ⟨0x8058, 1, 0x8, 2, true, .ro, 0x0, 0x0⟩,
   ⟨0x8060, 1, 0x8, 2, true, .ro, 0x0, 0x0⟩,
   ⟨0x8068, 1, 0x8, 2, true, .ro, 0x0, 0x0⟩,
   ⟨0x8070, 1, 0x8, 2, true, .ro, 0x0, 0x0⟩,
   ⟨0x8078, 1, 0x8, 2, true, .ro, 0x0, 0x0⟩,
   ⟨0x8080, 1, 0x8, 2, true, .ro, 0x0, 0x0⟩,
   ⟨0x8088, 1, 0x8, 2, true, .ro, 0x0, 0x0⟩,
   ⟨0x8090, 1, 0x8, 2, true, .ro, 0x0, 0x0⟩,
   ⟨0x8098, 1, 0x8, 2, true, .ro, 0x0, 0x0⟩,
   ⟨0x80A0, 1, 0x8, 2, true, .ro, 0x0, 0x0⟩,
   ⟨0x80A8, 1, 0x8, 2, true, .ro, 0x0, 0x0⟩,
   ⟨0x80B0, 1, 0x8, 2, true, .ro, 0x0, 0x0⟩,
   ⟨0x80B8, 1, 0x8, 2, true, .ro, 0x0, 0x0⟩]

/-- The block-specific registers of the EPIPE page (R275). -/
def rowsEPIPE : List RegRow :=
  [⟨0x4000, 17, 0x4, 1, false, .rw, 0x3FFF, 0x3000⟩,
   ⟨0x8000, 1, 0x8, 2, true, .ro, 0x0, 0x0⟩,
   ⟨0x8008, 1, 0x8, 2, true, .ro, 0x0, 0x0⟩,
   ⟨0x8010, 1, 0x8, 2, true, .ro, 0x0, 0x0⟩,
   ⟨0x8018, 1, 0x8, 2, true, .ro, 0x0, 0x0⟩,
   ⟨0x8020, 1, 0x8, 2, true, .ro, 0x0, 0x0⟩,
   ⟨0x8028, 1, 0x8, 2, true, .ro, 0x0, 0x0⟩]

/-- The block-specific registers of the LPM page (R277). -/
def rowsLPM : List RegRow :=
  [⟨0x400, 1, 0x4, 1, false, .ro, 0x0, 0x0⟩,
   ⟨0x404, 1, 0x4, 1, false, .ro, 0x0, 0x800000⟩,
   ⟨0x408, 1, 0x4, 1, false, .ro, 0x0, 0x0⟩,
   ⟨0x40C, 1, 0x4, 1, false, .ro, 0x0, 0x0⟩,
   ⟨0x410, 1, 0x4, 1, false, .ro, 0x0, 0x0⟩,
   ⟨0x8000, 1, 0x8, 2, true, .ro, 0x0, 0x0⟩,
   ⟨0x8008, 1, 0x8, 2, true, .ro, 0x0, 0x0⟩]

/-- The block-specific registers of the EM page (R277). -/
def rowsEM : List RegRow :=
  [⟨0x400, 1, 0x4, 1, false, .rw, 0xFFFFFFFF, 0x0⟩,
   ⟨0x404, 1, 0x4, 1, false, .rw, 0xFFFFFFFF, 0x0⟩,
   ⟨0x408, 1, 0x4, 1, false, .rw, 0xFFFFF, 0x0⟩,
   ⟨0x410, 1, 0x4, 1, false, .ro, 0x0, 0x0⟩,
   ⟨0x414, 1, 0x4, 1, false, .ro, 0x0, 0x0⟩,
   ⟨0x418, 1, 0x4, 1, false, .ro, 0x0, 0x0⟩,
   ⟨0x41C, 1, 0x4, 1, false, .ro, 0x0, 0x0⟩,
   ⟨0x420, 1, 0x4, 1, false, .ro, 0x0, 0x0⟩,
   ⟨0x8000, 1, 0x8, 2, true, .ro, 0x0, 0x0⟩,
   ⟨0x8008, 1, 0x8, 2, true, .ro, 0x0, 0x0⟩]

/-- The block-specific registers of the TCAM page (R214). -/
def rowsTCAM : List RegRow :=
  [⟨0x400, 2, 0x4, 1, false, .rw, 0x3, 0x0⟩,
   ⟨0x410, 4, 0x4, 1, false, .ro, 0x0, 0x0⟩,
   ⟨0x420, 1, 0x4, 1, false, .ro, 0x0, 0x0⟩,
   ⟨0x424, 1, 0x4, 1, false, .ro, 0x0, 0x0⟩,
   ⟨0x4000, 128, 0x4, 1, false, .rw, 0x3, 0x0⟩,
   ⟨0x4200, 128, 0x4, 1, false, .ro, 0x0, 0x0⟩,
   ⟨0x8000, 2, 0x8, 2, true, .ro, 0x0, 0x0⟩,
   ⟨0x8010, 2, 0x8, 2, true, .ro, 0x0, 0x0⟩,
   ⟨0x8020, 2, 0x8, 2, true, .ro, 0x0, 0x0⟩,
   ⟨0x8030, 1, 0x8, 2, true, .ro, 0x0, 0x0⟩,
   ⟨0x8038, 1, 0x8, 2, true, .ro, 0x0, 0x0⟩]

/-- The block-specific registers of the ADJ page (R277). -/
def rowsADJ : List RegRow :=
  [⟨0x400, 1, 0x4, 1, false, .rw, 0xFF, 0xF⟩,
   ⟨0x404, 1, 0x4, 1, false, .rw, 0xFFFFFFFF, 0x0⟩,
   ⟨0x408, 1, 0x4, 1, false, .ro, 0x0, 0x0⟩,
   ⟨0x8000, 1, 0x8, 2, true, .ro, 0x0, 0x0⟩]

/-- The block-specific registers of the L2 page (R278). -/
def rowsL2 : List RegRow :=
  [⟨0x400, 1, 0x4, 1, false, .rw, 0x3, 0x0⟩,
   ⟨0x404, 1, 0x4, 1, false, .rw, 0xFFFF000F, 0x12C000A⟩,
   ⟨0x408, 1, 0x4, 1, false, .rw, 0xF0F, 0xA08⟩,
   ⟨0x40C, 1, 0x4, 1, false, .rw, 0xFFFFFFFF, 0x0⟩,
   ⟨0x410, 1, 0x4, 1, false, .ro, 0x0, 0x0⟩,
   ⟨0x414, 1, 0x4, 1, false, .ro, 0x0, 0x0⟩,
   ⟨0x418, 1, 0x4, 1, false, .wo, 0x1, 0x0⟩,
   ⟨0x420, 4, 0x4, 1, false, .ro, 0x0, 0x0⟩,
   ⟨0x430, 1, 0x4, 1, false, .ro, 0x0, 0x0⟩,
   ⟨0x4000, 8, 0x4, 1, false, .ro, 0x0, 0x0⟩,
   ⟨0x4020, 8, 0x4, 1, false, .ro, 0x0, 0x0⟩,
   ⟨0x8000, 8, 0x80, 2, true, .ro, 0x0, 0x0⟩,
   ⟨0x8008, 8, 0x80, 2, true, .ro, 0x0, 0x0⟩,
   ⟨0x8010, 8, 0x80, 2, true, .ro, 0x0, 0x0⟩,
   ⟨0x8018, 8, 0x80, 2, true, .ro, 0x0, 0x0⟩,
   ⟨0x8020, 8, 0x80, 2, true, .ro, 0x0, 0x0⟩,
   ⟨0x8028, 8, 0x80, 2, true, .ro, 0x0, 0x0⟩,
   ⟨0x8030, 8, 0x80, 2, true, .ro, 0x0, 0x0⟩,
   ⟨0x8038, 8, 0x80, 2, true, .ro, 0x0, 0x0⟩,
   ⟨0x8040, 8, 0x80, 2, true, .ro, 0x0, 0x0⟩,
   ⟨0x8048, 8, 0x80, 2, true, .ro, 0x0, 0x0⟩,
   ⟨0x8050, 8, 0x80, 2, true, .ro, 0x0, 0x0⟩,
   ⟨0x8058, 8, 0x80, 2, true, .ro, 0x0, 0x0⟩,
   ⟨0x8400, 1, 0x8, 2, true, .ro, 0x0, 0x0⟩]

/-- The block-specific registers of the POL page (R391). -/
def rowsPOL : List RegRow :=
  [⟨0x8000, 1, 0x8, 2, true, .ro, 0x0, 0x0⟩,
   ⟨0x8008, 1, 0x8, 2, true, .ro, 0x0, 0x0⟩,
   ⟨0x8010, 1, 0x8, 2, true, .ro, 0x0, 0x0⟩,
   ⟨0x8018, 1, 0x8, 2, true, .ro, 0x0, 0x0⟩]

/-- The block-specific registers of the QMGR page (R387). -/
def rowsQMGR : List RegRow :=
  [⟨0x400, 1, 0x4, 1, false, .rw, 0xFFFF, 0xA⟩,
   ⟨0x404, 1, 0x4, 1, false, .rw, 0xFFFF, 0x64⟩,
   ⟨0x408, 1, 0x4, 1, false, .rw, 0xFFFFF, 0x6000⟩,
   ⟨0x410, 8, 0x4, 1, false, .rw, 0x1FFFF, 0x0⟩,
   ⟨0x430, 1, 0x4, 1, false, .ro, 0x0, 0x0⟩,
   ⟨0x434, 1, 0x4, 1, false, .ro, 0x0, 0x40000⟩,
   ⟨0x8000, 1, 0x8, 2, true, .ro, 0x0, 0x0⟩,
   ⟨0x8008, 1, 0x8, 2, true, .ro, 0x0, 0x0⟩,
   ⟨0x8010, 1, 0x8, 2, true, .ro, 0x0, 0x0⟩,
   ⟨0x8018, 1, 0x8, 2, true, .ro, 0x0, 0x0⟩,
   ⟨0x8020, 1, 0x8, 2, true, .ro, 0x0, 0x0⟩,
   ⟨0x8028, 1, 0x8, 2, true, .ro, 0x0, 0x0⟩,
   ⟨0x8030, 1, 0x8, 2, true, .ro, 0x0, 0x0⟩,
   ⟨0x8038, 1, 0x8, 2, true, .ro, 0x0, 0x0⟩,
   ⟨0x8040, 1, 0x8, 2, true, .ro, 0x0, 0x0⟩,
   ⟨0x8048, 1, 0x8, 2, true, .ro, 0x0, 0x0⟩,
   ⟨0x8050, 1, 0x8, 2, true, .ro, 0x0, 0x0⟩,
   ⟨0x8058, 1, 0x8, 2, true, .ro, 0x0, 0x0⟩,
   ⟨0x8060, 1, 0x8, 2, true, .ro, 0x0, 0x0⟩]

/-- The block-specific registers of the SCHED page (R389). -/
def rowsSCHED : List RegRow :=
  [⟨0x400, 1, 0x4, 1, false, .rw, 0xFF, 0x69⟩,
   ⟨0x8000, 136, 0x8, 2, true, .ro, 0x0, 0x0⟩,
   ⟨0x8800, 136, 0x8, 2, true, .ro, 0x0, 0x0⟩,
   ⟨0x9000, 136, 0x8, 2, true, .ro, 0x0, 0x0⟩]

/-- The block-specific registers of the SHAPE page (R390). -/
def rowsSHAPE : List RegRow :=
  [⟨0x400, 1, 0x4, 1, false, .ro, 0x0, 0x0⟩,
   ⟨0x404, 1, 0x4, 1, false, .ro, 0x0, 0x0⟩,
   ⟨0x8000, 1, 0x8, 2, true, .ro, 0x0, 0x0⟩]

/-- The block-specific registers of the CELL page (R348). -/
def rowsCELL : List RegRow :=
  [⟨0x400, 1, 0x4, 1, false, .rw, 0x1FFFFF, 0x7A120⟩,
   ⟨0x404, 1, 0x4, 1, false, .rc, 0x0, 0x0⟩,
   ⟨0x500, 8, 0x20, 1, false, .rw, 0xFFFFF, 0x0⟩,
   ⟨0x504, 8, 0x20, 1, false, .rw, 0xFFFFF, 0x0⟩,
   ⟨0x508, 8, 0x20, 1, false, .rw, 0xFFFFF, 0x0⟩,
   ⟨0x50C, 8, 0x20, 1, false, .ro, 0x0, 0x0⟩,
   ⟨0x510, 8, 0x20, 1, false, .ro, 0x0, 0x0⟩,
   ⟨0x514, 8, 0x20, 1, false, .ro, 0x0, 0x0⟩,
   ⟨0x8000, 1, 0x8, 2, true, .ro, 0x0, 0x0⟩,
   ⟨0x8008, 1, 0x8, 2, true, .ro, 0x0, 0x0⟩,
   ⟨0x8010, 1, 0x8, 2, true, .ro, 0x0, 0x0⟩,
   ⟨0x8018, 1, 0x8, 2, true, .ro, 0x0, 0x0⟩,
   ⟨0x8020, 1, 0x8, 2, true, .ro, 0x0, 0x0⟩,
   ⟨0x8028, 1, 0x8, 2, true, .ro, 0x0, 0x0⟩,
   ⟨0x8030, 1, 0x8, 2, true, .ro, 0x0, 0x0⟩,
   ⟨0x8038, 1, 0x8, 2, true, .ro, 0x0, 0x0⟩,
   ⟨0x8040, 1, 0x8, 2, true, .ro, 0x0, 0x0⟩,
   ⟨0x8048, 1, 0x8, 2, true, .ro, 0x0, 0x0⟩,
   ⟨0x8050, 1, 0x8, 2, true, .ro, 0x0, 0x0⟩,
   ⟨0x8060, 1, 0x8, 2, true, .ro, 0x0, 0x0⟩,
   ⟨0x8068, 1, 0x8, 2, true, .ro, 0x0, 0x0⟩,
   ⟨0x8070, 1, 0x8, 2, true, .ro, 0x0, 0x0⟩,
   ⟨0x8078, 1, 0x8, 2, true, .ro, 0x0, 0x0⟩,
   ⟨0x8080, 1, 0x8, 2, true, .ro, 0x0, 0x0⟩] ++
  [⟨0x8088, 1, 0x8, 2, true, .ro, 0x0, 0x0⟩,
   ⟨0x8090, 1, 0x8, 2, true, .ro, 0x0, 0x0⟩,
   ⟨0x8098, 1, 0x8, 2, true, .ro, 0x0, 0x0⟩,
   ⟨0x8200, 8, 0x8, 2, true, .ro, 0x0, 0x0⟩]

/-- The block-specific registers of the SPILL page (R350). -/
def rowsSPILL : List RegRow :=
  [⟨0x400, 1, 0x4, 1, false, .rw, 0xFFFFF, 0x8000⟩,
   ⟨0x404, 1, 0x4, 1, false, .ro, 0x0, 0x0⟩,
   ⟨0x408, 1, 0x4, 1, false, .ro, 0x0, 0x0⟩,
   ⟨0x40C, 1, 0x4, 1, false, .ro, 0x0, 0x4000⟩,
   ⟨0x410, 1, 0x4, 1, false, .ro, 0x0, 0x0⟩,
   ⟨0x8000, 1, 0x8, 2, true, .ro, 0x0, 0x0⟩,
   ⟨0x8008, 1, 0x8, 2, true, .ro, 0x0, 0x0⟩,
   ⟨0x8010, 1, 0x8, 2, true, .ro, 0x0, 0x0⟩,
   ⟨0x8018, 1, 0x8, 2, true, .ro, 0x0, 0x0⟩,
   ⟨0x8020, 1, 0x8, 2, true, .ro, 0x0, 0x0⟩,
   ⟨0x8028, 1, 0x8, 2, true, .ro, 0x0, 0x0⟩,
   ⟨0x8030, 1, 0x8, 2, true, .ro, 0x0, 0x0⟩,
   ⟨0x8038, 1, 0x8, 2, true, .ro, 0x0, 0x0⟩,
   ⟨0x8040, 1, 0x8, 2, true, .ro, 0x0, 0x0⟩]

/-- The block-specific registers of the FG page (R422). -/
def rowsFG : List RegRow :=
  [⟨0x400, 1, 0x4, 1, false, .rw, 0xFFFF, 0x3E8⟩,
   ⟨0x404, 1, 0x4, 1, false, .rw, 0xFFFFFF, 0x10⟩,
   ⟨0x408, 1, 0x4, 1, false, .w1c, 0xFFFFFFFF, 0x0⟩,
   ⟨0x4000, 32, 0x40, 1, false, .rw, 0xC7000000, 0x0⟩,
   ⟨0x4004, 32, 0x40, 1, false, .rw, 0xFFFFFF3, 0x300000⟩,
   ⟨0x4008, 32, 0x40, 1, false, .ro, 0x0, 0x0⟩,
   ⟨0x400C, 32, 0x40, 1, false, .ro, 0x0, 0x0⟩,
   ⟨0x8000, 32, 0x80, 2, true, .ro, 0x0, 0x0⟩,
   ⟨0x8008, 32, 0x80, 2, true, .ro, 0x0, 0x0⟩,
   ⟨0x8010, 32, 0x80, 2, true, .ro, 0x0, 0x0⟩,
   ⟨0x8018, 32, 0x80, 2, true, .ro, 0x0, 0x0⟩,
   ⟨0x8020, 32, 0x80, 2, true, .ro, 0x0, 0x0⟩,
   ⟨0x8028, 32, 0x80, 2, true, .ro, 0x0, 0x0⟩,
   ⟨0x8030, 32, 0x80, 2, true, .ro, 0x0, 0x0⟩,
   ⟨0x8038, 32, 0x80, 2, true, .ro, 0x0, 0x0⟩]

/-- The block-specific registers of the FAB page (R420). -/
def rowsFAB : List RegRow :=
  [⟨0x400, 1, 0x4, 1, false, .rwl, 0xFFF, 0x0⟩,
   ⟨0x404, 1, 0x4, 1, false, .rw, 0xFF, 0x14⟩,
   ⟨0x408, 1, 0x4, 1, false, .rw, 0x3FFFF, 0x7D0⟩,
   ⟨0x40C, 1, 0x4, 1, false, .rw, 0xFFF, 0x3E8⟩,
   ⟨0x410, 1, 0x4, 1, false, .rw, 0xFFF, 0x44C⟩,
   ⟨0x414, 1, 0x4, 1, false, .rw, 0x3FF, 0x64⟩,
   ⟨0x418, 1, 0x4, 1, false, .rw, 0xFF, 0x40⟩,
   ⟨0x41C, 1, 0x4, 1, false, .rw, 0xFF, 0xA⟩,
   ⟨0x420, 1, 0x4, 1, false, .rw, 0xFF, 0x19⟩,
   ⟨0x424, 1, 0x4, 1, false, .ro, 0x0, 0x0⟩,
   ⟨0x8000, 1, 0x8, 2, true, .ro, 0x0, 0x0⟩,
   ⟨0x8008, 1, 0x8, 2, true, .ro, 0x0, 0x0⟩,
   ⟨0x8010, 1, 0x8, 2, true, .ro, 0x0, 0x0⟩,
   ⟨0x8018, 1, 0x8, 2, true, .ro, 0x0, 0x0⟩,
   ⟨0x8020, 1, 0x8, 2, true, .ro, 0x0, 0x0⟩,
   ⟨0x8028, 1, 0x8, 2, true, .ro, 0x0, 0x0⟩,
   ⟨0x8030, 1, 0x8, 2, true, .ro, 0x0, 0x0⟩,
   ⟨0x8038, 1, 0x8, 2, true, .ro, 0x0, 0x0⟩,
   ⟨0x8040, 1, 0x8, 2, true, .ro, 0x0, 0x0⟩,
   ⟨0x8048, 1, 0x8, 2, true, .ro, 0x0, 0x0⟩,
   ⟨0x8050, 1, 0x8, 2, true, .ro, 0x0, 0x0⟩,
   ⟨0x8058, 1, 0x8, 2, true, .ro, 0x0, 0x0⟩,
   ⟨0x8060, 1, 0x8, 2, true, .ro, 0x0, 0x0⟩,
   ⟨0x8068, 1, 0x8, 2, true, .ro, 0x0, 0x0⟩]

/-- The block-specific registers of the DSC page (R454). -/
def rowsDSC : List RegRow :=
  [⟨0x400, 1, 0x4, 1, false, .ro, 0x0, 0x0⟩,
   ⟨0x404, 1, 0x4, 1, false, .ro, 0x0, 0x0⟩,
   ⟨0x408, 1, 0x4, 1, false, .rw, 0x3, 0x2⟩,
   ⟨0x40C, 1, 0x4, 1, false, .rw, 0xFF000001, 0x10000001⟩,
   ⟨0x410, 5, 0x4, 1, false, .rw, 0x7FFFFF, 0x0⟩,
   ⟨0x430, 1, 0x4, 1, false, .rw, 0x3FF, 0x8A⟩,
   ⟨0x434, 1, 0x4, 1, false, .rw, 0x3FF, 0x40⟩,
   ⟨0x438, 1, 0x4, 1, false, .rw, 0xFFFFF, 0x11284⟩,
   ⟨0x43C, 1, 0x4, 1, false, .rw, 0xFFFFFFFF, 0x2002AF8⟩,
   ⟨0x440, 1, 0x4, 1, false, .rw, 0xFFFF, 0x3E8⟩,
   ⟨0x444, 1, 0x4, 1, false, .rw, 0x8000000F, 0x8000000C⟩,
   ⟨0x448, 1, 0x4, 1, false, .ro, 0x0, 0x0⟩,
   ⟨0x44C, 1, 0x4, 1, false, .rw, 0x8000FFFF, 0x80000064⟩,
   ⟨0x450, 1, 0x4, 1, false, .wo, 0x1, 0x0⟩,
   ⟨0x454, 1, 0x4, 1, false, .ro, 0x0, 0x0⟩,
   ⟨0x458, 1, 0x4, 1, false, .w1c, 0x80000000, 0x0⟩,
   ⟨0x45C, 1, 0x4, 1, false, .ro, 0x0, 0x0⟩,
   ⟨0x460, 1, 0x4, 1, false, .rw, 0xFF, 0x55⟩,
   ⟨0x470, 4, 0x4, 1, false, .ro, 0x0, 0x0⟩,
   ⟨0x480, 1, 0x4, 1, false, .rw, 0x1F, 0x0⟩,
   ⟨0x484, 1, 0x4, 1, false, .ro, 0x0, 0x0⟩,
   ⟨0x8000, 1, 0x8, 2, true, .ro, 0x0, 0x0⟩,
   ⟨0x8008, 1, 0x8, 2, true, .ro, 0x0, 0x0⟩,
   ⟨0x8010, 1, 0x8, 2, true, .ro, 0x0, 0x0⟩] ++
  [⟨0x8018, 1, 0x8, 2, true, .ro, 0x0, 0x0⟩,
   ⟨0x8020, 1, 0x8, 2, true, .ro, 0x0, 0x0⟩,
   ⟨0x8028, 1, 0x8, 2, true, .ro, 0x0, 0x0⟩,
   ⟨0x8030, 1, 0x8, 2, true, .ro, 0x0, 0x0⟩,
   ⟨0x8038, 1, 0x8, 2, true, .ro, 0x0, 0x0⟩,
   ⟨0x8040, 1, 0x8, 2, true, .ro, 0x0, 0x0⟩,
   ⟨0x8048, 1, 0x8, 2, true, .ro, 0x0, 0x0⟩,
   ⟨0x8050, 1, 0x8, 2, true, .ro, 0x0, 0x0⟩,
   ⟨0x8058, 1, 0x8, 2, true, .ro, 0x0, 0x0⟩,
   ⟨0x8060, 1, 0x8, 2, true, .ro, 0x0, 0x0⟩,
   ⟨0x8080, 10, 0x8, 2, true, .ro, 0x0, 0x0⟩]

/-- The block-specific registers of the BRIDGE page (R33). -/
def rowsBRIDGE : List RegRow :=
  [⟨0x400, 1, 0x4, 1, false, .rw, 0xFFFF, 0x10⟩,
   ⟨0x410, 4, 0x4, 1, false, .ro, 0x0, 0x0⟩,
   ⟨0x420, 4, 0x4, 1, false, .ro, 0x0, 0x0⟩,
   ⟨0x430, 1, 0x4, 1, false, .ro, 0x0, 0x64⟩,
   ⟨0x434, 1, 0x4, 1, false, .ro, 0x0, 0x64⟩,
   ⟨0x4000, 100, 0x4, 1, false, .ro, 0x0, 0x0⟩,
   ⟨0x4400, 100, 0x4, 1, false, .ro, 0x0, 0x0⟩,
   ⟨0x8000, 1, 0x8, 2, true, .ro, 0x0, 0x0⟩,
   ⟨0x8008, 1, 0x8, 2, true, .ro, 0x0, 0x0⟩,
   ⟨0x8010, 1, 0x8, 2, true, .ro, 0x0, 0x0⟩]

/-- The block-specific registers of a page kind. -/
def PageKind.rows : PageKind → List RegRow
  | .GLB => rowsGLB
  | .TIME => rowsTIME
  | .INTC => rowsINTC
  | .PEG => rowsPEG
  | .SEC => rowsSEC
  | .HOST => rowsHOST
  | .SNAP => rowsSNAP
  | .FAULT => rowsFAULT
  | .CAPO => rowsCAPO
  | .PAIR => rowsPAIR
  | .PFE => rowsPFE
  | .BPM => rowsBPM
  | .LPORT => rowsLPORT
  | .LG => rowsLG
  | .OTN => rowsOTN
  | .OHP => rowsOHP
  | .IPIPE => rowsIPIPE
  | .EPIPE => rowsEPIPE
  | .LPM => rowsLPM
  | .EM => rowsEM
  | .TCAM => rowsTCAM
  | .ADJ => rowsADJ
  | .L2 => rowsL2
  | .POL => rowsPOL
  | .QMGR => rowsQMGR
  | .SCHED => rowsSCHED
  | .SHAPE => rowsSHAPE
  | .CELL => rowsCELL
  | .SPILL => rowsSPILL
  | .FG => rowsFG
  | .FAB => rowsFAB
  | .DSC => rowsDSC
  | .BRIDGE => rowsBRIDGE

namespace Reg

/-- The BAR0 byte address of offset `o` of page `p` (R36). -/
def at_ (p o : Nat) : Nat := p * 0x10000 + o

def BLK_ID (p : Nat) : Nat := at_ p 0x0
def BLK_VER (p : Nat) : Nat := at_ p 0x4
def BLK_CAPS (p : Nat) : Nat := at_ p 0x8
def BLK_CTL (p : Nat) : Nat := at_ p 0xC
def BLK_STS (p : Nat) : Nat := at_ p 0x10
def BLK_PWR (p : Nat) : Nat := at_ p 0x14
def EVT_PEND (p : Nat) : Nat := at_ p 0x20
def EVT_MASK (p : Nat) : Nat := at_ p 0x24
def EVT_LOST (p : Nat) : Nat := at_ p 0x28
def EVT_SRC (p : Nat) : Nat := at_ p 0x2C
def ERR_FIRST (p : Nat) : Nat := at_ p 0x40
def ERR_INFO (p : Nat) : Nat := at_ p 0x44
def ERR_CNT (p : Nat) : Nat := at_ p 0x48
def PERF_CYC (p : Nat) : Nat := at_ p 0x50
def TBL_SEL (p : Nat) : Nat := at_ p 0x100
def TBL_IDX (p : Nat) : Nat := at_ p 0x104
def TBL_CMD (p : Nat) : Nat := at_ p 0x108
def TBL_STS (p : Nat) : Nat := at_ p 0x10C
def PERF_CTL (p i : Nat) : Nat := at_ p (0x60 + 4 * i)
def PERF_CNT (p i : Nat) : Nat := at_ p (0x80 + 4 * i)
def TBL_DATA (p i : Nat) : Nat := at_ p (0x140 + 4 * i)

def GLB.PROFILE_SEL : Nat := 0x400
def GLB.DEV_RESET : Nat := 0x404
def GLB.RST_CAUSE : Nat := 0x408
def GLB.PLL_STS : Nat := 0x40C
def GLB.VIN_MV : Nat := 0x410
def GLB.VAUX_MV : Nat := 0x414
def GLB.P_IN : Nat := 0x418
def GLB.TJ_MAX : Nat := 0x41C
def GLB.DOM_CTL (i : Nat) : Nat := 0x500 + 0x4 * i
def GLB.DOM_STS (i : Nat) : Nat := 0x600 + 0x4 * i
def GLB.PLL_LOSS : Nat := 0x8000
def GLB.VIN_LOSS : Nat := 0x8008
def GLB.CASCADES : Nat := 0x8010
def GLB.DOM_ON_CNT (i : Nat) : Nat := 0x8100 + 0x8 * i

def TIME.TB_FRAC : Nat := 0x10400
def TIME.TB_NS : Nat := 0x10404
def TIME.TB_SEC_LO : Nat := 0x10408
def TIME.TB_SEC_HI : Nat := 0x1040C
def TIME.RATE_TB_LO : Nat := 0x10410
def TIME.RATE_TB_HI : Nat := 0x10414
def TIME.STEP_SEC : Nat := 0x10418
def TIME.STEP_NS : Nat := 0x1041C
def TIME.STEP_FRAC : Nat := 0x10420
def TIME.STEP_CMD : Nat := 0x10424
def TIME.STEP_REARM : Nat := 0x10428
def TIME.TB_CTL : Nat := 0x10430
def TIME.SLEW_MAX : Nat := 0x10434
def TIME.TOD_CFG : Nat := 0x10438
def TIME.TOD_OUT_INFO0 : Nat := 0x1043C
def TIME.TOD_OUT_INFO1 : Nat := 0x10440
def TIME.TOD_IN (i : Nat) : Nat := 0x10444 + 0x4 * i
def TIME.TOD_STS : Nat := 0x10458
def TIME.TSU_TS_CTL (i : Nat) : Nat := 0x14000 + 0x40 * i
def TIME.TSU_MODE_RX (i : Nat) : Nat := 0x14004 + 0x40 * i
def TIME.TSU_MODE_TX (i : Nat) : Nat := 0x14008 + 0x40 * i
def TIME.TSU_RX_TRIM (i : Nat) : Nat := 0x1400C + 0x40 * i
def TIME.TSU_TX_TRIM (i : Nat) : Nat := 0x14010 + 0x40 * i
def TIME.TSU_DESKEW_RX (i : Nat) : Nat := 0x14014 + 0x40 * i
def TIME.TSU_TL_TOL (i : Nat) : Nat := 0x14018 + 0x40 * i
def TIME.TSU_TL_LEAD (i : Nat) : Nat := 0x1401C + 0x40 * i
def TIME.TSU_WIN_PERIOD (i : Nat) : Nat := 0x14020 + 0x40 * i
def TIME.TSU_WIN_BASE_NS (i : Nat) : Nat := 0x14024 + 0x40 * i
def TIME.TSU_WIN_BASE_SEC (i : Nat) : Nat := 0x14028 + 0x40 * i
def TIME.TSU_WIN_COMMIT (i : Nat) : Nat := 0x1402C + 0x40 * i
def TIME.TRK_FRAC (i : Nat) : Nat := 0x16000 + 0x40 * i
def TIME.TRK_NS (i : Nat) : Nat := 0x16004 + 0x40 * i
def TIME.TRK_SEC_LO (i : Nat) : Nat := 0x16008 + 0x40 * i
def TIME.TRK_SEC_HI (i : Nat) : Nat := 0x1600C + 0x40 * i
def TIME.TRK_RATE_LO (i : Nat) : Nat := 0x16010 + 0x40 * i
def TIME.TRK_RATE_HI (i : Nat) : Nat := 0x16014 + 0x40 * i
def TIME.TRK_STEP_SEC (i : Nat) : Nat := 0x16018 + 0x40 * i
def TIME.TRK_STEP_NS (i : Nat) : Nat := 0x1601C + 0x40 * i
def TIME.TRK_STEP_FRAC (i : Nat) : Nat := 0x16020 + 0x40 * i
def TIME.TRK_STEP_CMD (i : Nat) : Nat := 0x16024 + 0x40 * i
def TIME.TRK_REF_CFG (i : Nat) : Nat := 0x16028 + 0x40 * i
def TIME.TRK_REF_STS (i : Nat) : Nat := 0x1602C + 0x40 * i
def TIME.PPS_IN_CFG (i : Nat) : Nat := 0x16100 + 0x20 * i
def TIME.PPS_IN_TS_FRAC (i : Nat) : Nat := 0x16104 + 0x20 * i
def TIME.PPS_IN_TS_NS (i : Nat) : Nat := 0x16108 + 0x20 * i
def TIME.PPS_IN_TS_SEC_LO (i : Nat) : Nat := 0x1610C + 0x20 * i
def TIME.PPS_IN_TS_SEC_HI (i : Nat) : Nat := 0x16110 + 0x20 * i
def TIME.PPS_IN_STS (i : Nat) : Nat := 0x16114 + 0x20 * i
def TIME.PPS_IN_REARM (i : Nat) : Nat := 0x16118 + 0x20 * i
def TIME.PPS_OUT_CFG (i : Nat) : Nat := 0x16200 + 0x20 * i
def TIME.PPS_OUT_OFFSET (i : Nat) : Nat := 0x16204 + 0x20 * i
def TIME.PPS_OUT_WIDTH (i : Nat) : Nat := 0x16208 + 0x20 * i
def TIME.RCLK (i : Nat) : Nat := 0x16300 + 0x4 * i
def TIME.FREQ_CFG : Nat := 0x16310
def TIME.FREQ_TS_FRAC : Nat := 0x16314
def TIME.FREQ_TS_NS : Nat := 0x16318
def TIME.FREQ_TS_SEC_LO : Nat := 0x1631C
def TIME.FREQ_TS_SEC_HI : Nat := 0x16320
def TIME.STEP_CNT : Nat := 0x18000
def TIME.REARM_CNT : Nat := 0x18008
def TIME.LOCK_ACQ_CNT : Nat := 0x18010
def TIME.TOD_BAD_CNT : Nat := 0x18018
def TIME.TOD_EXTRA_CNT : Nat := 0x18020
def TIME.PPS_FAST_CNT (i : Nat) : Nat := 0x18030 + 0x8 * i
def TIME.LATE_DROP (i : Nat) : Nat := 0x19000 + 0x20 * i
def TIME.WIN_DEFER (i : Nat) : Nat := 0x19008 + 0x20 * i
def TIME.ONESTEP_DROP (i : Nat) : Nat := 0x19010 + 0x20 * i
def TIME.RANGE_DROP (i : Nat) : Nat := 0x19018 + 0x20 * i

def INTC.DOORBELL : Nat := 0x20400
def INTC.CLAIM (i : Nat) : Nat := 0x20410 + 0x4 * i
def INTC.EOI (i : Nat) : Nat := 0x20420 + 0x4 * i
def INTC.SETPRI (i : Nat) : Nat := 0x20430 + 0x4 * i
def INTC.TGT_STS (i : Nat) : Nat := 0x20440 + 0x4 * i
def INTC.PEND (i : Nat) : Nat := 0x20800 + 0x4 * i
def INTC.MASK (i : Nat) : Nat := 0x20A00 + 0x4 * i
def INTC.LOST (i : Nat) : Nat := 0x20C00 + 0x4 * i
def INTC.HOLDOFF (i : Nat) : Nat := 0x20E00 + 0x4 * i
def INTC.SRC_CFG (i : Nat) : Nat := 0x24000 + 0x4 * i
def INTC.DB_BAD : Nat := 0x28000
def INTC.CLAIM_NONE : Nat := 0x28008
def INTC.EOI_BAD : Nat := 0x28010
def INTC.STACK_OVF : Nat := 0x28018

def PEG.STORE : Nat := 0x30400
def PEG.STORE_STS : Nat := 0x30404
def PEG.REC_STS (i : Nat) : Nat := 0x34000 + 0x8 * i
def PEG.REC_GEN (i : Nat) : Nat := 0x34004 + 0x8 * i
def PEG.STORES : Nat := 0x38000
def PEG.STORE_FAILS : Nat := 0x38008
def PEG.CRC_FAILS : Nat := 0x38010

def SEC.BOOT_STS : Nat := 0x40400
def SEC.RUN_SLOT : Nat := 0x40404
def SEC.DIE_ID (i : Nat) : Nat := 0x40408 + 0x4 * i
def SEC.KEY_STS : Nat := 0x40418
def SEC.KEY_REVOKE : Nat := 0x4041C
def SEC.SVN_COMMIT : Nat := 0x40420
def SEC.ENG_RELOAD : Nat := 0x40424
def SEC.LOAD_ERR : Nat := 0x40428
def SEC.ELO_CFG : Nat := 0x4042C
def SEC.UART_OWN : Nat := 0x40430
def SEC.ELO_PEER_LO : Nat := 0x40434
def SEC.ELO_PEER_HI : Nat := 0x40438
def SEC.MR (i : Nat) : Nat := 0x41000 + 0x40 * i
def SEC.MR_CNT (i : Nat) : Nat := 0x41030 + 0x40 * i
def SEC.LOADS : Nat := 0x48000
def SEC.LOAD_FAILS : Nat := 0x48008
def SEC.ELO_RX : Nat := 0x48010
def SEC.ELO_BAD : Nat := 0x48018
def SEC.SPDM_REQ : Nat := 0x48020

def HOST.HOST_STS : Nat := 0x50400
def HOST.CONTAIN : Nat := 0x50404
def HOST.RELEASE : Nat := 0x50408
def HOST.WIN_COMMIT : Nat := 0x5040C
def HOST.P_BASE_LO (i : Nat) : Nat := 0x54000 + 0x20 * i
def HOST.P_BASE_HI (i : Nat) : Nat := 0x54004 + 0x20 * i
def HOST.P_CFG (i : Nat) : Nat := 0x54008 + 0x20 * i
def HOST.P_TAIL (i : Nat) : Nat := 0x5400C + 0x20 * i
def HOST.P_HEAD (i : Nat) : Nat := 0x54010 + 0x20 * i
def HOST.P_STS (i : Nat) : Nat := 0x54014 + 0x20 * i
def HOST.P_LIMIT (i : Nat) : Nat := 0x54018 + 0x20 * i
def HOST.I_BASE_LO (i : Nat) : Nat := 0x54C00 + 0x20 * i
def HOST.I_BASE_HI (i : Nat) : Nat := 0x54C04 + 0x20 * i
def HOST.I_CFG (i : Nat) : Nat := 0x54C08 + 0x20 * i
def HOST.I_TAIL (i : Nat) : Nat := 0x54C0C + 0x20 * i
def HOST.I_HEAD (i : Nat) : Nat := 0x54C10 + 0x20 * i
def HOST.I_STS (i : Nat) : Nat := 0x54C14 + 0x20 * i
def HOST.WIN_BASE (i : Nat) : Nat := 0x54800 + 0x20 * i
def HOST.WIN_CFG (i : Nat) : Nat := 0x54804 + 0x20 * i
def HOST.TGT_BASE_LO (i : Nat) : Nat := 0x54808 + 0x20 * i
def HOST.TGT_BASE_HI (i : Nat) : Nat := 0x5480C + 0x20 * i
def HOST.ACT_WIN_BASE (i : Nat) : Nat := 0x54900 + 0x20 * i
def HOST.ACT_WIN_CFG (i : Nat) : Nat := 0x54904 + 0x20 * i
def HOST.ACT_TGT_BASE_LO (i : Nat) : Nat := 0x54908 + 0x20 * i
def HOST.ACT_TGT_BASE_HI (i : Nat) : Nat := 0x5490C + 0x20 * i
def HOST.P_FRAMES (i : Nat) : Nat := 0x58000 + 0x20 * i
def HOST.P_BYTES (i : Nat) : Nat := 0x58008 + 0x20 * i
def HOST.P_DROP_FULL (i : Nat) : Nat := 0x58010 + 0x20 * i
def HOST.P_DROP_OFF (i : Nat) : Nat := 0x58018 + 0x20 * i
def HOST.I_FRAMES (i : Nat) : Nat := 0x58800 + 0x20 * i
def HOST.I_BYTES (i : Nat) : Nat := 0x58808 + 0x20 * i
def HOST.I_ERR (i : Nat) : Nat := 0x58810 + 0x20 * i
def HOST.P_DROP_AGED (i : Nat) : Nat := 0x58C00 + 0x8 * i
def HOST.UNEXP_CPL : Nat := 0x59000
def HOST.CPL_TIMEOUT : Nat := 0x59008
def HOST.ABANDONED : Nat := 0x59010
def HOST.ACC_ERR : Nat := 0x59018
def HOST.WIN_MISS : Nat := 0x59020
def HOST.WIN_DENY : Nat := 0x59028
def HOST.PUNT_UNMAPPED : Nat := 0x59030

def SNAP.CTL : Nat := 0x60400
def SNAP.SNAP_NS : Nat := 0x60404
def SNAP.SNAP_SEC_LO : Nat := 0x60408
def SNAP.SNAP_SEC_HI : Nat := 0x6040C
def SNAP.STS : Nat := 0x60410
def SNAP.CUT_NS : Nat := 0x60414
def SNAP.CUT_SEC : Nat := 0x60418
def SNAP.DONE_US : Nat := 0x6041C
def SNAP.FS_CFG : Nat := 0x60420
def SNAP.FS_STS : Nat := 0x60424
def SNAP.SNAPS : Nat := 0x68000
def SNAP.FOLDS : Nat := 0x68008
def SNAP.FS_OVF : Nat := 0x68010

def FAULT.STS : Nat := 0x70400
def FAULT.MON_EN : Nat := 0x70404
def FAULT.PIPE_WDT : Nat := 0x70408
def FAULT.OPEN : Nat := 0x7040C
def FAULT.PIN_FAULT : Nat := 0x70410
def FAULT.PIN_ALARM : Nat := 0x70414
def FAULT.LOG_WR : Nat := 0x70418
def FAULT.FIRST : Nat := 0x7041C
def FAULT.FIRST_NS : Nat := 0x70420
def FAULT.FIRST_SEC : Nat := 0x70424
def FAULT.CLASS_CNT (i : Nat) : Nat := 0x78000 + 0x8 * i
def FAULT.LOG_LOST : Nat := 0x78100

def CAPO.FLIP_CMD : Nat := 0x80400
def CAPO.FLIP_ARM : Nat := 0x80404
def CAPO.FLIP_NS : Nat := 0x80408
def CAPO.FLIP_SEC_LO : Nat := 0x8040C
def CAPO.FLIP_SEC_HI : Nat := 0x80410
def CAPO.SETTLE : Nat := 0x80414
def CAPO.STS : Nat := 0x80418
def CAPO.DRAIN_FORCE : Nat := 0x8041C
def CAPO.IN_FLIGHT (i : Nat) : Nat := 0x80420 + 0x4 * i
def CAPO.DRAIN_CNT (i : Nat) : Nat := 0x80428 + 0x4 * i
def CAPO.SWEEP_PROG : Nat := 0x80430
def CAPO.LAST_FLIP_NS : Nat := 0x80434
def CAPO.LAST_FLIP_SEC : Nat := 0x80438
def CAPO.FLIPS : Nat := 0x88000
def CAPO.FLIPS_REFUSED : Nat := 0x88008
def CAPO.STALE_DROP : Nat := 0x88010
def CAPO.GEN_LOCKED_WR : Nat := 0x88018
def CAPO.SWEPT_DEL : Nat := 0x88020
def CAPO.SWEPT_BOTH : Nat := 0x88028
def CAPO.FORCED_DRAINS : Nat := 0x88030
def CAPO.CNT_UNDERFLOW : Nat := 0x88038
def CAPO.INVIS_REF : Nat := 0x88040

def PAIR.ROLE : Nat := 0x90400
def PAIR.CORE_STS (i : Nat) : Nat := 0x90404 + 0x4 * i
def PAIR.HANDOVER : Nat := 0x9040C
def PAIR.RELOAD : Nat := 0x90410
def PAIR.WDT_CFG : Nat := 0x90414
def PAIR.WDT_KICK : Nat := 0x90418
def PAIR.MIRROR_STS : Nat := 0x9041C
def PAIR.ENG_STS (i : Nat) : Nat := 0x90440 + 0x4 * i
def PAIR.HANDOVERS : Nat := 0x98000
def PAIR.STBY_WR_DISC : Nat := 0x98008
def PAIR.FAULTS (i : Nat) : Nat := 0x98010 + 0x8 * i

def PFE.LEAD : Nat := 0xA0400
def PFE.LOAD : Nat := 0xA0404
def PFE.SENT : Nat := 0xA8000
def PFE.MISSED : Nat := 0xA8008

def BPM.HP_COUNT (i : Nat) : Nat := 0xB0400 + 0x4 * i
def BPM.C_LIMIT : Nat := 0xB0410
def BPM.HP_BASE (i : Nat) : Nat := 0xB0414 + 0x4 * i
def BPM.D_LIMIT : Nat := 0xB0424
def BPM.LOW_THR_C : Nat := 0xB0428
def BPM.LOW_THR_D : Nat := 0xB042C
def BPM.FREE_CNT (i : Nat) : Nat := 0xB0430 + 0x4 * i
def BPM.FREE_ERR_INFO : Nat := 0xB0450
def BPM.FREE_ERR_PTR : Nat := 0xB0454
def BPM.FREE_ERR_CNT : Nat := 0xB8000
def BPM.EMPTY_RESP (i : Nat) : Nat := 0xB8010 + 0x8 * i
def BPM.PUNT_FALLBACK : Nat := 0xB8040
def BPM.PUNT_DROP : Nat := 0xB8048

def LPORT.MAC_CFG (n : Nat) : Nat := 0x100400 + 0x10000 * n
def LPORT.PFC_TX_CFG (n : Nat) : Nat := 0x100404 + 0x10000 * n
def LPORT.PFC_RX_EN (n : Nat) : Nat := 0x100408 + 0x10000 * n
def LPORT.MAC_SA_LO (n : Nat) : Nat := 0x10040C + 0x10000 * n
def LPORT.MAC_SA_HI (n : Nat) : Nat := 0x100410 + 0x10000 * n
def LPORT.LINK_CFG (n : Nat) : Nat := 0x100414 + 0x10000 * n
def LPORT.FEC_DEG_THR (n : Nat) : Nat := 0x100418 + 0x10000 * n
def LPORT.LINK_STS (n : Nat) : Nat := 0x100420 + 0x10000 * n
def LPORT.LANE_SKEW (n i : Nat) : Nat := 0x100430 + 0x10000 * n + 0x4 * i
def LPORT.BW_CFG (n : Nat) : Nat := 0x100460 + 0x10000 * n
def LPORT.BW_SEQ (n : Nat) : Nat := 0x100464 + 0x10000 * n
def LPORT.BW_RX (n : Nat) : Nat := 0x100468 + 0x10000 * n
def LPORT.BW_TX (n : Nat) : Nat := 0x100470 + 0x10000 * n
def LPORT.BW_RX_MAX (n : Nat) : Nat := 0x100478 + 0x10000 * n
def LPORT.BW_TX_MAX (n : Nat) : Nat := 0x100480 + 0x10000 * n
def LPORT.RX_FRAMES (n : Nat) : Nat := 0x108000 + 0x10000 * n
def LPORT.RX_BYTES (n : Nat) : Nat := 0x108008 + 0x10000 * n
def LPORT.RX_FCS_ERR (n : Nat) : Nat := 0x108010 + 0x10000 * n
def LPORT.RX_UNDERSIZE (n : Nat) : Nat := 0x108018 + 0x10000 * n
def LPORT.RX_FRAGMENT (n : Nat) : Nat := 0x108020 + 0x10000 * n
def LPORT.RX_OVERSIZE (n : Nat) : Nat := 0x108028 + 0x10000 * n
def LPORT.RX_TRUNC (n : Nat) : Nat := 0x108030 + 0x10000 * n
def LPORT.RX_BAD_MARKED (n : Nat) : Nat := 0x108038 + 0x10000 * n
def LPORT.RX_BADTAIL_DISC (n : Nat) : Nat := 0x108040 + 0x10000 * n
def LPORT.RX_PAUSE (n : Nat) : Nat := 0x108048 + 0x10000 * n
def LPORT.RX_MACCTL_DISC (n : Nat) : Nat := 0x108050 + 0x10000 * n
def LPORT.FEC_CW_CORR (n : Nat) : Nat := 0x108058 + 0x10000 * n
def LPORT.FEC_CW_UNCORR (n : Nat) : Nat := 0x108060 + 0x10000 * n
def LPORT.FEC_SYM_CORR (n : Nat) : Nat := 0x108068 + 0x10000 * n
def LPORT.LINK_UP_CNT (n : Nat) : Nat := 0x108070 + 0x10000 * n
def LPORT.TX_FRAMES (n : Nat) : Nat := 0x108080 + 0x10000 * n
def LPORT.TX_BYTES (n : Nat) : Nat := 0x108088 + 0x10000 * n
def LPORT.TX_BAD_TAIL (n : Nat) : Nat := 0x108090 + 0x10000 * n
def LPORT.TX_BAD_DISC (n : Nat) : Nat := 0x108098 + 0x10000 * n
def LPORT.TX_ABORT (n : Nat) : Nat := 0x1080A0 + 0x10000 * n
def LPORT.TX_DOWN_DROP (n : Nat) : Nat := 0x1080A8 + 0x10000 * n
def LPORT.TX_PAUSE (n : Nat) : Nat := 0x1080B0 + 0x10000 * n
def LPORT.RX_PFC (n i : Nat) : Nat := 0x108100 + 0x10000 * n + 0x8 * i
def LPORT.TX_PFC (n i : Nat) : Nat := 0x108140 + 0x10000 * n + 0x8 * i

def LG.MAP_LO (n : Nat) : Nat := 0x900400 + 0x10000 * n
def LG.MAP_HI (n : Nat) : Nat := 0x900404 + 0x10000 * n
def LG.MAP_COMMIT (n : Nat) : Nat := 0x900408 + 0x10000 * n
def LG.ACT_LO (n : Nat) : Nat := 0x90040C + 0x10000 * n
def LG.ACT_HI (n : Nat) : Nat := 0x900410 + 0x10000 * n
def LG.RECIRC_SHARE (n : Nat) : Nat := 0x900414 + 0x10000 * n
def LG.LANE_CFG (n i : Nat) : Nat := 0x904000 + 0x10000 * n + 0x4 * i
def LG.PIPE_DROP (n : Nat) : Nat := 0x908000 + 0x10000 * n
def LG.RECIRC_FRAMES (n : Nat) : Nat := 0x908008 + 0x10000 * n
def LG.RECIRC_BAD_DISC (n : Nat) : Nat := 0x908010 + 0x10000 * n

def OTN.CFG (n i : Nat) : Nat := 0x984000 + 0x10000 * n + 0x100 * i
def OTN.DEG_CFG (n i : Nat) : Nat := 0x984004 + 0x10000 * n + 0x100 * i
def OTN.GID_TX (n i : Nat) : Nat := 0x984008 + 0x10000 * n + 0x100 * i
def OTN.GID_EXP (n i : Nat) : Nat := 0x98400C + 0x10000 * n + 0x100 * i
def OTN.PT (n i : Nat) : Nat := 0x984010 + 0x10000 * n + 0x100 * i
def OTN.DEF_STS (n i : Nat) : Nat := 0x984014 + 0x10000 * n + 0x100 * i
def OTN.DEF_CHG (n i : Nat) : Nat := 0x984018 + 0x10000 * n + 0x100 * i
def OTN.TCM_STS (n i : Nat) : Nat := 0x98401C + 0x10000 * n + 0x100 * i
def OTN.TCM_STAT (n i : Nat) : Nat := 0x984020 + 0x10000 * n + 0x100 * i
def OTN.ALIGN_STS (n i : Nat) : Nat := 0x984024 + 0x10000 * n + 0x100 * i
def OTN.FX_SKEW (n i : Nat) : Nat := 0x984028 + 0x10000 * n + 0x100 * i
def OTN.ACC_PT (n i : Nat) : Nat := 0x98402C + 0x10000 * n + 0x100 * i
def OTN.FX_CW_CORR (n i : Nat) : Nat := 0x988000 + 0x10000 * n + 0x100 * i
def OTN.FX_CW_UNCORR (n i : Nat) : Nat := 0x988008 + 0x10000 * n + 0x100 * i
def OTN.SM_BIP (n i : Nat) : Nat := 0x988010 + 0x10000 * n + 0x100 * i
def OTN.SM_BEI (n i : Nat) : Nat := 0x988018 + 0x10000 * n + 0x100 * i
def OTN.PMC_BIP (n i : Nat) : Nat := 0x988020 + 0x10000 * n + 0x100 * i
def OTN.PMC_BEI (n i : Nat) : Nat := 0x988028 + 0x10000 * n + 0x100 * i
def OTN.PMF_BIP (n i : Nat) : Nat := 0x988030 + 0x10000 * n + 0x100 * i
def OTN.PMF_BEI (n i : Nat) : Nat := 0x988038 + 0x10000 * n + 0x100 * i
def OTN.TCM_BIP1 (n i : Nat) : Nat := 0x988040 + 0x10000 * n + 0x100 * i
def OTN.TCM_BIP2 (n i : Nat) : Nat := 0x988048 + 0x10000 * n + 0x100 * i
def OTN.TCM_BIP3 (n i : Nat) : Nat := 0x988050 + 0x10000 * n + 0x100 * i
def OTN.TCM_BIP4 (n i : Nat) : Nat := 0x988058 + 0x10000 * n + 0x100 * i
def OTN.TCM_BIP5 (n i : Nat) : Nat := 0x988060 + 0x10000 * n + 0x100 * i
def OTN.TCM_BIP6 (n i : Nat) : Nat := 0x988068 + 0x10000 * n + 0x100 * i
def OTN.CAND_DROP (n i : Nat) : Nat := 0x988070 + 0x10000 * n + 0x100 * i
def OTN.ALIGN_AMBIG (n i : Nat) : Nat := 0x988078 + 0x10000 * n + 0x100 * i
def OTN.OOF_CNT (n i : Nat) : Nat := 0x988080 + 0x10000 * n + 0x100 * i

def OHP.CFG (n : Nat) : Nat := 0xA00400 + 0x10000 * n
def OHP.STS (n : Nat) : Nat := 0xA00404 + 0x10000 * n
def OHP.RECENTRE (n : Nat) : Nat := 0xA00408 + 0x10000 * n
def OHP.CLK_MEAS (n : Nat) : Nat := 0xA0040C + 0x10000 * n
def OHP.DO_REPEAT (n : Nat) : Nat := 0xA08000 + 0x10000 * n
def OHP.DO_DROP (n : Nat) : Nat := 0xA08008 + 0x10000 * n
def OHP.DI_REPEAT (n : Nat) : Nat := 0xA08010 + 0x10000 * n
def OHP.DI_DROP (n : Nat) : Nat := 0xA08018 + 0x10000 * n
def OHP.DO_FRAMES (n : Nat) : Nat := 0xA08020 + 0x10000 * n
def OHP.DI_FRAMES (n : Nat) : Nat := 0xA08028 + 0x10000 * n

def IPIPE.PORT_CFG (n i : Nat) : Nat := 0xB04000 + 0x10000 * n + 0x4 * i
def IPIPE.SYSPORT (n i : Nat) : Nat := 0xB04100 + 0x10000 * n + 0x4 * i
def IPIPE.PARSE_OK (n : Nat) : Nat := 0xB08000 + 0x10000 * n
def IPIPE.PARSE_FAIL (n i : Nat) : Nat := 0xB08008 + 0x10000 * n + 0x8 * i
def IPIPE.FRAG_CNT (n : Nat) : Nat := 0xB08038 + 0x10000 * n
def IPIPE.CLS_NULL (n : Nat) : Nat := 0xB08040 + 0x10000 * n
def IPIPE.FWD_BRIDGE (n : Nat) : Nat := 0xB08048 + 0x10000 * n
def IPIPE.FWD_ROUTE (n : Nat) : Nat := 0xB08050 + 0x10000 * n
def IPIPE.FWD_MPLS (n : Nat) : Nat := 0xB08058 + 0x10000 * n
def IPIPE.IF_MISS (n : Nat) : Nat := 0xB08060 + 0x10000 * n
def IPIPE.NO_FWD_MODE (n : Nat) : Nat := 0xB08068 + 0x10000 * n
def IPIPE.L2_DMISS (n : Nat) : Nat := 0xB08070 + 0x10000 * n
def IPIPE.L2_HAIRPIN (n : Nat) : Nat := 0xB08078 + 0x10000 * n
def IPIPE.L2_NOPORT (n : Nat) : Nat := 0xB08080 + 0x10000 * n
def IPIPE.LPM_MISS (n : Nat) : Nat := 0xB08088 + 0x10000 * n
def IPIPE.MPLS_MISS (n : Nat) : Nat := 0xB08090 + 0x10000 * n
def IPIPE.TTL_EXP (n : Nat) : Nat := 0xB08098 + 0x10000 * n
def IPIPE.ECMP_INVALID (n : Nat) : Nat := 0xB080A0 + 0x10000 * n
def IPIPE.ADJ_DROP (n : Nat) : Nat := 0xB080A8 + 0x10000 * n
def IPIPE.RECIRC_LIMIT (n : Nat) : Nat := 0xB080B0 + 0x10000 * n
def IPIPE.PAR_MISS (n : Nat) : Nat := 0xB080B8 + 0x10000 * n

def EPIPE.PORT_CFG (n i : Nat) : Nat := 0xB84000 + 0x10000 * n + 0x4 * i
def EPIPE.FRAMES (n : Nat) : Nat := 0xB88000 + 0x10000 * n
def EPIPE.RW_FRAMES (n : Nat) : Nat := 0xB88008 + 0x10000 * n
def EPIPE.PASS_FRAMES (n : Nat) : Nat := 0xB88010 + 0x10000 * n
def EPIPE.ADJ_ERR (n : Nat) : Nat := 0xB88018 + 0x10000 * n
def EPIPE.RW_ERR (n : Nat) : Nat := 0xB88020 + 0x10000 * n
def EPIPE.MTU_DROP (n : Nat) : Nat := 0xB88028 + 0x10000 * n

def LPM.UNITS_USED : Nat := 0xC00400
def LPM.UNITS_CAP : Nat := 0xC00404
def LPM.ROUTES_V4 : Nat := 0xC00408
def LPM.ROUTES_V6 : Nat := 0xC0040C
def LPM.PAR_ERR_LKP : Nat := 0xC00410
def LPM.SCRUB_ERR : Nat := 0xC08000
def LPM.REPAIRED : Nat := 0xC08008

def EM.MPLS_SEED : Nat := 0xC10400
def EM.IFT_SEED : Nat := 0xC10404
def EM.MPLS_MISS_ADJ : Nat := 0xC10408
def EM.MPLS_ENT : Nat := 0xC10410
def EM.IFT_ENT : Nat := 0xC10414
def EM.MPLS_OVF : Nat := 0xC10418
def EM.IFT_OVF : Nat := 0xC1041C
def EM.PAR_ERR_LKP : Nat := 0xC10420
def EM.INS_REJ : Nat := 0xC18000
def EM.SCRUB_ERR : Nat := 0xC18008

def TCAM.LKP_CFG (i : Nat) : Nat := 0xC20400 + 0x4 * i
def TCAM.CHAIN_ERR (i : Nat) : Nat := 0xC20410 + 0x4 * i
def TCAM.FULL_GRP : Nat := 0xC20420
def TCAM.SCRUB_LAST : Nat := 0xC20424
def TCAM.SLICE_CFG (i : Nat) : Nat := 0xC24000 + 0x4 * i
def TCAM.VALID_ROWS (i : Nat) : Nat := 0xC24200 + 0x4 * i
def TCAM.LKP_HIT (i : Nat) : Nat := 0xC28000 + 0x8 * i
def TCAM.LKP_MISS (i : Nat) : Nat := 0xC28010 + 0x8 * i
def TCAM.LKP_MULTI (i : Nat) : Nat := 0xC28020 + 0x8 * i
def TCAM.SCRUB_ERR : Nat := 0xC28030
def TCAM.ROW_MOVES : Nat := 0xC28038

def ADJ.ECMP_CFG : Nat := 0xC30400
def ADJ.ECMP_SEED : Nat := 0xC30404
def ADJ.PAR_ERR_LKP : Nat := 0xC30408
def ADJ.SCRUB_ERR : Nat := 0xC38000

def L2.EVICT : Nat := 0xC40400
def L2.AGE_CFG : Nat := 0xC40404
def L2.MOVE_CFG : Nat := 0xC40408
def L2.HASH_SEED : Nat := 0xC4040C
def L2.TICK_NOW : Nat := 0xC40410
def L2.NOTIFY_CNT : Nat := 0xC40414
def L2.NOTIFY_POP : Nat := 0xC40418
def L2.NOTIFY (i : Nat) : Nat := 0xC40420 + 0x4 * i
def L2.PAR_ERR_LKP : Nat := 0xC40430
def L2.ENT_CNT (i : Nat) : Nat := 0xC44000 + 0x4 * i
def L2.OVF_USED (i : Nat) : Nat := 0xC44020 + 0x4 * i
def L2.LEARN_NEW (i : Nat) : Nat := 0xC48000 + 0x80 * i
def L2.MOVES (i : Nat) : Nat := 0xC48008 + 0x80 * i
def L2.FLAPS (i : Nat) : Nat := 0xC48010 + 0x80 * i
def L2.AGED (i : Nat) : Nat := 0xC48018 + 0x80 * i
def L2.AGE_SAVED (i : Nat) : Nat := 0xC48020 + 0x80 * i
def L2.EVICTED (i : Nat) : Nat := 0xC48028 + 0x80 * i
def L2.LEARN_REJ (i : Nat) : Nat := 0xC48030 + 0x80 * i
def L2.LEARN_OVF (i : Nat) : Nat := 0xC48038 + 0x80 * i
def L2.FROZEN_HIT (i : Nat) : Nat := 0xC48040 + 0x80 * i
def L2.STATIC_CONFLICT (i : Nat) : Nat := 0xC48048 + 0x80 * i
def L2.SRC_INVALID (i : Nat) : Nat := 0xC48050 + 0x80 * i
def L2.SCRUB_ERR (i : Nat) : Nat := 0xC48058 + 0x80 * i
def L2.NOTIFY_LOST : Nat := 0xC48400

def POL.GREEN : Nat := 0xC58000
def POL.YELLOW : Nat := 0xC58008
def POL.RED : Nat := 0xC58010
def POL.RED_DROP : Nat := 0xC58018

def QMGR.STATUS_IVL : Nat := 0xD00400
def QMGR.FLOW_TIMEOUT : Nat := 0xD00404
def QMGR.CB_MAX : Nat := 0xD00408
def QMGR.RQ_BASE (i : Nat) : Nat := 0xD00410 + 0x4 * i
def QMGR.CFLOW_USED : Nat := 0xD00430
def QMGR.CFLOW_CAP : Nat := 0xD00434
def QMGR.ENQ_VOQ : Nat := 0xD08000
def QMGR.DEQ_VOQ : Nat := 0xD08008
def QMGR.ENQ_EGQ : Nat := 0xD08010
def QMGR.DEQ_EGQ : Nat := 0xD08018
def QMGR.STATUS_TX : Nat := 0xD08020
def QMGR.STATUS_RX : Nat := 0xD08028
def QMGR.GRANT_TX : Nat := 0xD08030
def QMGR.GRANT_RX : Nat := 0xD08038
def QMGR.CRED_WASTE : Nat := 0xD08040
def QMGR.CFLOW_FULL : Nat := 0xD08048
def QMGR.CFLOW_TIMEOUT : Nat := 0xD08050
def QMGR.STATUS_BAD : Nat := 0xD08058
def QMGR.NO_SYSQ : Nat := 0xD08060

def SCHED.CRED_SPEED : Nat := 0xD10400
def SCHED.DEQ_FRAMES (i : Nat) : Nat := 0xD18000 + 0x8 * i
def SCHED.DEQ_BYTES (i : Nat) : Nat := 0xD18800 + 0x8 * i
def SCHED.GRANTS (i : Nat) : Nat := 0xD19000 + 0x8 * i

def SHAPE.FRET_NOW : Nat := 0xD20400
def SHAPE.FAR_CNT : Nat := 0xD20404
def SHAPE.FRET_LATE : Nat := 0xD28000

def CELL.AGE_LIMIT : Nat := 0xD40400
def CELL.SWEEP_MAX : Nat := 0xD40404
def CELL.PART_MIN (i : Nat) : Nat := 0xD40500 + 0x20 * i
def CELL.PART_SHARED (i : Nat) : Nat := 0xD40504 + 0x20 * i
def CELL.PART_HEAD (i : Nat) : Nat := 0xD40508 + 0x20 * i
def CELL.PART_GU (i : Nat) : Nat := 0xD4050C + 0x20 * i
def CELL.PART_SH (i : Nat) : Nat := 0xD40510 + 0x20 * i
def CELL.PART_FREE (i : Nat) : Nat := 0xD40514 + 0x20 * i
def CELL.ADM_FRAMES : Nat := 0xD48000
def CELL.DROP_QMAX : Nat := 0xD48008
def CELL.DROP_DEEPMAX : Nat := 0xD48010
def CELL.DROP_STAGE : Nat := 0xD48018
def CELL.DROP_THR : Nat := 0xD48020
def CELL.DROP_NOBUF : Nat := 0xD48028
def CELL.PO_ADMIT : Nat := 0xD48030
def CELL.PO_FRAMES : Nat := 0xD48038
def CELL.PO_CELLS : Nat := 0xD48040
def CELL.TAIL_TRUNC : Nat := 0xD48048
def CELL.UE_DROP : Nat := 0xD48050
def CELL.AGED_DEQ_G : Nat := 0xD48060
def CELL.AGED_DEQ_S : Nat := 0xD48068
def CELL.AGED_RET_G : Nat := 0xD48070
def CELL.AGED_RET_S : Nat := 0xD48078
def CELL.AGED_RESEQ_G : Nat := 0xD48080
def CELL.AGED_RESEQ_S : Nat := 0xD48088
def CELL.AGED_SWEEP_G : Nat := 0xD48090
def CELL.AGED_SWEEP_S : Nat := 0xD48098
def CELL.DROP_PART (i : Nat) : Nat := 0xD48200 + 0x8 * i

def SPILL.STAGE_GLOBAL : Nat := 0xD50400
def SPILL.STAGE_USED : Nat := 0xD50404
def SPILL.CTX_USED : Nat := 0xD50408
def SPILL.CTX_CAP : Nat := 0xD5040C
def SPILL.PAGES_HELD : Nat := 0xD50410
def SPILL.PAGES_WR : Nat := 0xD58000
def SPILL.PAGES_RD : Nat := 0xD58008
def SPILL.PAGES_SKIPPED : Nat := 0xD58010
def SPILL.TO_DEEP : Nat := 0xD58018
def SPILL.TO_DRAINING : Nat := 0xD58020
def SPILL.TO_SHALLOW : Nat := 0xD58028
def SPILL.DEEP_DENIED : Nat := 0xD58030
def SPILL.RET_STALL : Nat := 0xD58038
def SPILL.DEEP_UE_DROP : Nat := 0xD58040

def FG.UP_HOLD (n : Nat) : Nat := 0xE00400 + 0x10000 * n
def FG.DEG_THR (n : Nat) : Nat := 0xE00404 + 0x10000 * n
def FG.LINK_CHG (n : Nat) : Nat := 0xE00408 + 0x10000 * n
def FG.LINK_CFG (n i : Nat) : Nat := 0xE04000 + 0x10000 * n + 0x40 * i
def FG.LANE_CFG (n i : Nat) : Nat := 0xE04004 + 0x10000 * n + 0x40 * i
def FG.LINK_STS (n i : Nat) : Nat := 0xE04008 + 0x10000 * n + 0x40 * i
def FG.PEER (n i : Nat) : Nat := 0xE0400C + 0x10000 * n + 0x40 * i
def FG.CW_CORR (n i : Nat) : Nat := 0xE08000 + 0x10000 * n + 0x80 * i
def FG.CW_UNCORR (n i : Nat) : Nat := 0xE08008 + 0x10000 * n + 0x80 * i
def FG.SYM_CORR (n i : Nat) : Nat := 0xE08010 + 0x10000 * n + 0x80 * i
def FG.HCRC_ERR (n i : Nat) : Nat := 0xE08018 + 0x10000 * n + 0x80 * i
def FG.CELL_ERR_DISC (n i : Nat) : Nat := 0xE08020 + 0x10000 * n + 0x80 * i
def FG.CELLS_TX (n i : Nat) : Nat := 0xE08028 + 0x10000 * n + 0x80 * i
def FG.CELLS_RX (n i : Nat) : Nat := 0xE08030 + 0x10000 * n + 0x80 * i
def FG.LINK_FAIL (n i : Nat) : Nat := 0xE08038 + 0x10000 * n + 0x80 * i

def FAB.DEV_ID : Nat := 0xE80400
def FAB.RESEQ_TMO : Nat := 0xE80404
def FAB.SYNC_HOLD : Nat := 0xE80408
def FAB.CTX_IDLE : Nat := 0xE8040C
def FAB.SEQ_QUIET : Nat := 0xE80410
def FAB.CREDIT_HOLD : Nat := 0xE80414
def FAB.LINK_FILL_MAX : Nat := 0xE80418
def FAB.KA_IVL : Nat := 0xE8041C
def FAB.REACH_IVL : Nat := 0xE80420
def FAB.RESEQ_USED : Nat := 0xE80424
def FAB.DATA_TX : Nat := 0xE88000
def FAB.DATA_RX : Nat := 0xE88008
def FAB.CREDIT_TX : Nat := 0xE88010
def FAB.CREDIT_RX : Nat := 0xE88018
def FAB.RESEQ_LATE : Nat := 0xE88020
def FAB.RESEQ_RESYNC : Nat := 0xE88028
def FAB.RESEQ_FULL : Nat := 0xE88030
def FAB.RESEQ_TIMEOUT : Nat := 0xE88038
def FAB.RESEQ_FRAME_DISC : Nat := 0xE88040
def FAB.TYPE_ERR : Nat := 0xE88048
def FAB.MISDELIVER : Nat := 0xE88050
def FAB.FCRC_ERR : Nat := 0xE88058
def FAB.CREDIT_UNREACH : Nat := 0xE88060
def FAB.CRED_MSG_ERR : Nat := 0xE88068

def DSC.DIMM_INFO (n : Nat) : Nat := 0xF00400 + 0x10000 * n
def DSC.TRAIN_STS (n : Nat) : Nat := 0xF00404 + 0x10000 * n
def DSC.REF_CFG (n : Nat) : Nat := 0xF00408 + 0x10000 * n
def DSC.ECC_CFG (n : Nat) : Nat := 0xF0040C + 0x10000 * n
def DSC.BMAP (n i : Nat) : Nat := 0xF00410 + 0x10000 * n + 0x4 * i
def DSC.PG_HINT (n : Nat) : Nat := 0xF00430 + 0x10000 * n
def DSC.PG_IDLE (n : Nat) : Nat := 0xF00434 + 0x10000 * n
def DSC.ARB_W (n : Nat) : Nat := 0xF00438 + 0x10000 * n
def DSC.RH_CFG (n : Nat) : Nat := 0xF0043C + 0x10000 * n
def DSC.THR_GAP (n : Nat) : Nat := 0xF00440 + 0x10000 * n
def DSC.PATROL_CFG (n : Nat) : Nat := 0xF00444 + 0x10000 * n
def DSC.PATROL_POS (n : Nat) : Nat := 0xF00448 + 0x10000 * n
def DSC.RETRAIN_CFG (n : Nat) : Nat := 0xF0044C + 0x10000 * n
def DSC.RETRAIN_NOW (n : Nat) : Nat := 0xF00450 + 0x10000 * n
def DSC.UE_ADDR (n : Nat) : Nat := 0xF00454 + 0x10000 * n
def DSC.UE_INFO (n : Nat) : Nat := 0xF00458 + 0x10000 * n
def DSC.DIMM_TEMP (n : Nat) : Nat := 0xF0045C + 0x10000 * n
def DSC.TEMP_THR (n : Nat) : Nat := 0xF00460 + 0x10000 * n
def DSC.ERASED (n i : Nat) : Nat := 0xF00470 + 0x10000 * n + 0x4 * i
def DSC.POP_CFG (n : Nat) : Nat := 0xF00480 + 0x10000 * n
def DSC.POP_STS (n : Nat) : Nat := 0xF00484 + 0x10000 * n
def DSC.RD_OPS (n : Nat) : Nat := 0xF08000 + 0x10000 * n
def DSC.WR_OPS (n : Nat) : Nat := 0xF08008 + 0x10000 * n
def DSC.ACT_CNT (n : Nat) : Nat := 0xF08010 + 0x10000 * n
def DSC.CE_CNT (n : Nat) : Nat := 0xF08018 + 0x10000 * n
def DSC.UE_CNT (n : Nat) : Nat := 0xF08020 + 0x10000 * n
def DSC.SCRUB_CE (n : Nat) : Nat := 0xF08028 + 0x10000 * n
def DSC.SCRUB_UE (n : Nat) : Nat := 0xF08030 + 0x10000 * n
def DSC.SCRUB_WB_CANCEL (n : Nat) : Nat := 0xF08038 + 0x10000 * n
def DSC.RFM_CNT (n : Nat) : Nat := 0xF08040 + 0x10000 * n
def DSC.DRFM_CNT (n : Nat) : Nat := 0xF08048 + 0x10000 * n
def DSC.THROTTLE_CNT (n : Nat) : Nat := 0xF08050 + 0x10000 * n
def DSC.RETRAIN_CNT (n : Nat) : Nat := 0xF08058 + 0x10000 * n
def DSC.RETRAIN_FULL_CNT (n : Nat) : Nat := 0xF08060 + 0x10000 * n
def DSC.CE_DEV (n i : Nat) : Nat := 0xF08080 + 0x10000 * n + 0x8 * i

def BRIDGE.SPARE_THR : Nat := 0x1000400
def BRIDGE.BND_DOWN_FQ (i : Nat) : Nat := 0x1000410 + 0x4 * i
def BRIDGE.BND_DOWN_QF (i : Nat) : Nat := 0x1000420 + 0x4 * i
def BRIDGE.CAP_FQ : Nat := 0x1000430
def BRIDGE.CAP_QF : Nat := 0x1000434
def BRIDGE.BND_STS_FQ (i : Nat) : Nat := 0x1004000 + 0x4 * i
def BRIDGE.BND_STS_QF (i : Nat) : Nat := 0x1004400 + 0x4 * i
def BRIDGE.CRC_ERR_CNT : Nat := 0x1008000
def BRIDGE.REPLAY_CNT : Nat := 0x1008008
def BRIDGE.SPARED_CNT : Nat := 0x1008010

end Reg

/-- The power domain of a page (R36, R603). -/
def domainOf : PageKind → Nat → Nat
  | .GLB, _ | .INTC, _ | .PEG, _ | .SEC, _ | .FAULT, _ => 1
  | .SNAP, _ | .PAIR, _ => 2
  | .HOST, _ => 3
  | .TIME, _ | .PFE, _ => 4
  | .LPORT, n => 5 + n / 16
  | .LG, g | .OTN, g => 5 + g
  | .OHP, k => 5 + k / 2
  | .FG, k => 13 + k
  | .IPIPE, g => 19 + g
  | .CAPO, _ | .LPM, _ | .EM, _ | .L2, _ => 27
  | .TCAM, _ | .ADJ, _ | .POL, _ => 28
  | .EPIPE, g => if g ≤ 3 then 29 else 30
  | .BPM, _ | .CELL, _ | .SPILL, _ => 31
  | .QMGR, _ | .FAB, _ => 32
  | .SCHED, _ | .SHAPE, _ => 33
  | .DSC, c => if c ≤ 7 then 34 else 35
  | .BRIDGE, _ => 36

/-- The power domain of a page number; 0 for an unassigned page. -/
def pageDomain (p : Nat) : Nat :=
  match pageOf p with
  | some (k, i) => domainOf k i
  | none => 0

/-- Every assigned page number (R36). -/
def allPages : List Nat := PageKind.all.flatMap fun k => (List.range k.insts).map (k.base + ·)

/-- The instance and word of row `r` that lies at page offset `o`, if any; every register lies at a 32-bit-aligned address
(R15), so none lies at another. That an access of a requester other than BAR0 there finds no register is the model's own
choice: DESIGN CHOICE (notes/assumptions/85.md). -/
def RegRow.hit (r : RegRow) (o : Nat) : Option (Nat × Nat) :=
  if o < r.off then none else
  let i := (o - r.off) / r.stride
  let b := (o - r.off) % r.stride
  if i < r.count ∧ b < 4 * r.words ∧ b % 4 = 0 then some (i, b / 4) else none

/-- The first row of a list that holds page offset `o`, with its instance and word. -/
def findRow : List RegRow → Nat → Option (RegRow × Nat × Nat)
  | [], _ => none
  | r :: rs, o =>
    match r.hit o with
    | some (i, w) => some (r, i, w)
    | none => findRow rs o

/-- A register found at an address: its page, its row, its index in the row and its word. -/
structure RegRef where
  kind : PageKind
  inst : Nat
  page : Nat
  row : RegRow
  idx : Nat
  word : Nat
  deriving DecidableEq, Repr

/-- Registers that exist only on the first page of their kind: `POP_CFG` and `POP_STS` of DSC[0] (R454). -/
def onlyFirst (k : PageKind) (o : Nat) : Bool := k == .DSC && (o == 0x480 || o == 0x484)

/-- The register that occupies BAR0 byte address `a` (R36, R39), shadows aside. -/
def lookupReg (a : Nat) : Option RegRef :=
  let p := a / 0x10000
  let o := a % 0x10000
  match pageOf p with
  | none => none
  | some (k, i) =>
    if i ≠ 0 ∧ onlyFirst k o then none else
    match findRow (if o < 0x400 then headerRows else k.rows) o with
    | some (r, j, w) => some ⟨k, i, p, r, j, w⟩
    | none => none

/-- Whether a 64-bit counter of the counter region lies at address `a` (R574: offsets 0x8000 to 0xBEFF). -/
def isCounter (a : Nat) : Bool :=
  let o := a % 0x10000
  if a < 2 ^ 29 ∧ 0x8000 ≤ o ∧ o ≤ 0xBEFF then
    match lookupReg a with
    | some f => f.row.wide && f.word == 0
    | none => false
  else false

/-- Reset values that depend on the instance: `EVT_SRC` (R39), the host pools (R347), the bank masks (R454), domain 1
(R621), the mask bits of the sources that do not exist (R473). The key is the BAR0 byte address. -/
def specialReset (k : PageKind) (p o : Nat) : Option Nat :=
  if o = 0x2C then some (p + 1) else
  match k with
  | .BPM =>
    if o = 0x400 then some 4096 else if o = 0x404 then some 512 else if o = 0x408 then some 102 else
    if o = 0x40C then some 16 else
    if o = 0x414 then some 507920 else if o = 0x418 then some 512016 else if o = 0x41C then some 516112 else
    if o = 0x420 then some 520192 else
    if o = 0x430 then some 507920 else if o = 0x438 then some 4096 else if o = 0x43C then some 512 else
    if o = 0x440 then some 102 else if o = 0x444 then some 16 else none
  | .DSC =>
    if o = 0x410 then some 0x21082 else if o = 0x414 then some 0x42104 else if o = 0x418 then some 0x84208 else
    if o = 0x41C then some 0x108410 else if o = 0x420 then some 0x10860 else none
  | .GLB => if o = 0x504 then some 0x80000000 else if o = 0x604 then some 1 else none
  | .INTC => if o = 0xA00 then some 0xFFFFFFFE else if o = 0xBFC then some 0x7FFFFFFF else none
  | _ => none

/-- The reset value of the register at a key: that of its row (R39 and the chapters' register tables); 0 for a key above
the register space, where the copies kept per requester lie (R17, R53). -/
def resetVal (a : Nat) : Nat :=
  if 2 ^ 29 ≤ a then 0 else
  match lookupReg a with
  | none => 0
  | some f => (specialReset f.kind f.page (a % 0x10000)).getD f.row.reset

end Sys2Proof.Machine
end

