-- ==== Sys2Proof/Machine/State.lean ====
section
/-!
DEFINITION. The state of the device as plain data: the register file (every register of the register map, sparse), the
tables, the byte memories, the frames inside the device with the place where each is held, the time counters, the hidden
state that the rules name beside the registers (`Hid`), and the queue of waiting commands. The reasons a step can stop,
and the state after reset.
-/
namespace Sys2Proof.Machine

/-- Further hidden numbers beside those of `Hid`, each with up to two indices. -/
inductive Extra where
  /-- 1 + root-PLL cycle at which VIN had been in range for 1 ms (R599). -/
  | vinAt
  /-- Receive instant of the frame under reception at port `a`, in 1/16 ns of the time base (R568). -/
  | rxTs
  /-- Root-PLL cycle of the last device reset (R616). -/
  | resetAt
  /-- Rolling activate count of bank `b` of deep-store channel `a` since its last refresh-management command (R444). -/
  | raa
  /-- Refresh-management threshold read from the devices of channel `b` in step 1 of its bring-up (R437, R444). -/
  | rfmThr
  /-- 1 while channel `b` serves a run of writes, 0 of reads (R435). -/
  | runWrite
  /-- Operations served in the run under way in channel `b` (R435). -/
  | runLen
  /-- Requester class that the weighted round robin of channel `b` serves (R435). -/
  | arbCls
  /-- Operations left of the weight of that class (R435). -/
  | arbLeft
  /-- The model's count of deep-page writes and reads asked for. -/
  | dramTag
  /-- Life of the population: 0 none, 1 being brought up from EN = 0 on every channel, 2 in service, 3 a channel of it lost (R439, R443). -/
  | popRun
  /-- 1 + when the writes of the core that the last handover fenced have left the register fabric (R468). -/
  | fabricUntil
  /-- Start address in the image of core `x` (R536). -/
  | coreEntry
  /-- Takeover entry in the image of core `x` (R468, R536). -/
  | coreTake
  /-- 1 + the address at which core `x` last started; 0 before (R459, R468). -/
  | coreStart
  /-- The SerDes firmware is loaded in domain `d` (R460). -/
  | serdes
  /-- 1 + when the engine whose reload is in progress stops; 0 while its image is not accepted (R545). -/
  | stopAt
  /-- The boot core is in recovery mode (R542). -/
  | recovery
  /-- The slot started from (R558). -/
  | startSlot
  /-- The flash device lacks the features of R532. -/
  | flashBad
  /-- Step 6 of the start is over: CC_B has been loaded or refused (R541, R551). -/
  | step6
  /-- VERSION [15:0] of the running image of engine `i` (R487). -/
  | engVer
  /-- 1 + First Error Pointer of AER; 0 while no error holds the header log (R492). -/
  | aerFirst
  /-- DWORD `k` of the AER header log (R492). -/
  | aerHdr
  /-- ECRC generation (bit 0) and checking (bit 1) enabled (R492). -/
  | ecrc
  /-- The function is in D3hot (R492). -/
  | pmD3
  /-- Root-PLL cycle until which the SPDM responder serves its last request (R553). -/
  | spdmUntil
  /-- 1 + the transport of that request: 0 DOE, 1 Eloatal (R553). -/
  | spdmBy
  deriving DecidableEq, Repr

/-- The number of a further hidden number. -/
def Extra.num : Extra → Nat
  | .vinAt => 0
  | .rxTs => 1
  | .resetAt => 2
  | .raa => 3
  | .rfmThr => 4
  | .runWrite => 5
  | .runLen => 6
  | .arbCls => 7
  | .arbLeft => 8
  | .dramTag => 9
  | .popRun => 10
  | .fabricUntil => 11
  | .coreEntry => 12
  | .coreTake => 13
  | .coreStart => 14
  | .serdes => 15
  | .stopAt => 16
  | .recovery => 17
  | .startSlot => 18
  | .flashBad => 19
  | .step6 => 20
  | .engVer => 21
  | .aerFirst => 22
  | .aerHdr => 23
  | .ecrc => 24
  | .pmD3 => 25
  | .spdmUntil => 26
  | .spdmBy => 27

/-- Hidden state: a number that a rule names and that no register shows by itself. Every one is 0 at reset. -/
inductive Hid where
  /-- Event bits of page `p` that hardware set and no requester has read since (R47). -/
  | evtUnread (p : Nat)
  /-- The table operation in progress in requester `r`'s bank of page `p`: 0 none, else 1 + 256 × error code (R54). -/
  | tblOp (p r : Nat)
  /-- Applied rate word of the time base less the nominal word (R59, R60). -/
  | tbRate
  /-- Applied rate word of tracker `x` less the nominal word (R69). -/
  | trkRate (x : Nat)
  /-- 1 + the held low half of a rate word: 0 the time base, 1 + x tracker `x` (R60). -/
  | rateHeld (x : Nat)
  /-- 1 while tracker `x` has no Sync report outstanding loss marking (R73). -/
  | refMiss (x : Nat)
  /-- Time of the last accepted edge of PPS_IN[i], plus 1; 0 none (R94). -/
  | ppsLast (i : Nat)
  /-- Times of the last discarded edges of PPS_IN[i], plus 1; slot `k` of 5 (R94). -/
  | ppsFast (i k : Nat)
  /-- Level of output PPS_OUT[i] (R96). -/
  | ppsOut (i : Nat)
  /-- 1 when a valid ToD message has been received since the last accepted PPS_IN[0] edge (R99). -/
  | todSeen
  /-- 1 while target `t` executes its wait-for-interrupt state (R480). -/
  | coreIdle (t : Nat)
  /-- 1 while the hold-off of group `w` runs for target `t` (R480). -/
  | holdRun (w t : Nat)
  /-- 1 once source `s` has been presented and not yet claimed (R480). -/
  | presented (s : Nat)
  /-- Source `s` presentable to HOST: 1 message sent, 2 message held back (R481, R504). -/
  | msiSent (s : Nat)
  /-- 1 while INTA is asserted (R481). -/
  | intaOn
  /-- MSI-X Enable of configuration space (R481). -/
  | msixEn
  /-- Function Mask of configuration space (R504). -/
  | msixMask
  /-- Interrupt Disable of the Command register (R505). -/
  | intDis
  /-- Bus Master Enable (R517). -/
  | bme
  /-- 1 while the PCIe link is up (R522). -/
  | pciUp
  /-- Bits of `PEND[w]` that hardware set and no requester has read since (R473). -/
  | intcUnread (w : Nat)
  /-- 1 while LOG entry `i` has not been read (R591). -/
  | logUnread (i : Nat)
  /-- 1 while the junction temperature lies outside −5 °C to 105 °C (R584). -/
  | tjBad
  /-- 1 while VIN is out of range (R584). -/
  | vinBad
  /-- 1 while VAUX is out of range (R584). -/
  | vauxBad
  /-- Block-clock cycles of page `p` already accounted in its counters of event 0 (R562). -/
  | perfBase (p : Nat)
  /-- Root-PLL cycle count at which `PERF_CYC` of page `p` read 0. -/
  | cycBase (p : Nat)
  /-- 1 from a cut until every counter has passed into the new epoch (R577). -/
  | snapOpen
  /-- 1 + the model's number of the frame being received at line port `n`; 0 none (R115). -/
  | rxOn (n : Nat)
  /-- Bytes received so far of the frame being received at line port `n`. -/
  | rxLen (n : Nat)
  /-- `MTU` in force when that frame's first byte arrived (R136). -/
  | rxMtu (n : Nat)
  /-- 1 when that frame's Ethertype is known to be 0x8808 (R117). -/
  | rxCtl (n : Nat)
  /-- The model's count of frames made. -/
  | nextId
  /-- 1 once unit `u` is recorded as stuck (R594): IPIPE g as g, EPIPE g as 8 + g, queue engine e as 16 + e, the resequencer as 36. -/
  | stuck (u : Nat)
  /-- 1 while class `c` of port `n` is paused (R123). -/
  | paused (n c : Nat)
  /-- Classes that port `n` is asked to stop (R125). -/
  | fcSet (n : Nat)
  /-- Deskew delay of the first lane of port `n`, in 1/16 ns (R129). -/
  | deskew (n : Nat)
  /-- Bytes received in the running bandwidth window of port `n` (R568). -/
  | bwRx (n : Nat)
  /-- Bytes sent in the running bandwidth window of port `n` (R568). -/
  | bwTx (n : Nat)
  /-- 1 + start of the running bandwidth window of port `n`, in ns; 0 while none runs (R568). -/
  | bwStart (n : Nat)
  /-- Frames of parity `p` inside the device (R285). -/
  | inFlight (p : Nat)
  /-- Drains completed of parity `p` (R291). -/
  | drainCnt (p : Nat)
  /-- `CAPO.STS.STATE` (R286). -/
  | capoState
  /-- `CAPO.STS.PARITY` (R286). -/
  | capoParity
  /-- `CAPO.STS.TIMEOUT` (R293). -/
  | capoTimeout
  /-- 1 from an accepted flip until it applies (R288). -/
  | flipPending
  /-- Flips applied since the last device reset (R178). -/
  | capoEver
  /-- 1 while bank `b` of pipeline `g` is an empty bank (R178). -/
  | emptyBank (g b : Nat)
  /-- Guaranteed buffer cells of queue `q` (R326). -/
  | gq (q : Nat)
  /-- Shared buffer cells of queue `q` (R326). -/
  | sq (q : Nat)
  /-- State of queue `q`: 0 SHALLOW, 1 DEEP, 2 DRAINING (R335). -/
  | qstate (q : Nat)
  /-- Cursor of pool D (R315). -/
  | cursorD
  /-- 1 while the entry at position `i` of a table (page × 256 + TBL_SEL) fails its parity (R207, R262). -/
  | parityBad (t i : Nat)
  /-- 1 while flow pair `p` waits for a fold (R572). -/
  | foldQueued (p : Nat)
  /-- `age_now` of the L2 page (R259). -/
  | ageNow
  /-- `move_now` of the L2 page (R254). -/
  | moveNow
  /-- Committed tokens of policer `i` in units of 2^-16 byte (R384). -/
  | polTc (i : Nat)
  /-- Peak or excess tokens of policer `i` in units of 2^-16 byte (R384). -/
  | polTe (i : Nat)
  /-- Time base of the last use of policer `i`, in units of 2^-48 ns (R384). -/
  | polLast (i : Nat)
  /-- 1 while a committed lane map of group `g` is being applied (R110). -/
  | mapBusy (g : Nat)
  /-- Instant at which port `n` last began to send, in 1/16 ns of the time base (R568). -/
  | txTs (n : Nat)
  /-- Instant in 1/144 ns of the root PLL at which port `n` has finished what it sends (R88). -/
  | txFree (n : Nat)
  /-- 1 while a committed schedule of port `n` is in force (R87). -/
  | winIn (n : Nat)
  /-- 1 while a committed schedule of port `n` waits for the next period boundary (R87). -/
  | winNext (n : Nat)
  /-- CRC errors of Bridge lane `k` in the running 1 ms window, k = 68 × (100 × direction + bundle) + lane (R31). -/
  | laneErr (k : Nat)
  /-- Lanes of Bridge bundle `k` = 100 × direction + bundle that wait for their spare lane (R31). -/
  | laneMark (k : Nat)
  /-- The model's count of frames that entered a launch stage (R90). -/
  | tlOrder
  /-- FlexO instances of port `n` locked and deskewed, bit i for instance i (R144). -/
  | fxLock (n : Nat)
  /-- Last MFAS of slice `i` of port `n` (R148). -/
  | slMfas (n i : Nat)
  /-- Confirmed position of the alignment signal of slice `i` of port `n` (R145). -/
  | slPos (n i : Nat)
  /-- Consecutive errored alignment frames of slice `i` of port `n` (R147). -/
  | fasBad (n i : Nat)
  /-- Consecutive frames of slice `i` of port `n` with a wrong MFAS, or, negative, with a right one (R148). -/
  | mfasRun (n i : Nat)
  /-- Consecutive occurrences of condition `d` of port `n`, or, negative, of its absence (R154). -/
  | detRun (n d : Nat)
  /-- Consecutive equal 64-frame multiframes of the TTI of layer `l` of port `n` (R151). -/
  | ttiRep (n l : Nat)
  /-- Errored blocks of layer `l` of port `n` in the running second (R154). -/
  | errBlocks (n l : Nat)
  /-- Consecutive seconds of layer `l` of port `n` at or above DEG_THR (R154). -/
  | degRun (n l : Nat)
  /-- PT of the last multiframes of port `n`, 256 × count + PT; `c` 0 OPUCn, 1 OPUflex (R154). -/
  | ptSeen (n c : Nat)
  /-- 1 while the accepted MSI of port `n` is wrong (R154). -/
  | msiBad (n : Nat)
  /-- STAT of the last frames of TCMi of port `n`, 8 × count + STAT (R169). -/
  | statSeen (n i : Nat)
  /-- Consequent actions in effect at port `n`: 0 SSF_C, 1 SSF_F, 2 client fail, 3 FlexO RDI, 4 SM BDI, 5 PM-C BDI, 6 PM-F BDI (R158). -/
  | caEff (n : Nat)
  /-- TX_FORCE in effect at port `n` (R161). -/
  | txForce (n : Nat)
  /-- Frames in slip buffer `d` (0 extraction, 1 insertion) of overhead port `k`, 32 bits each, oldest lowest (R165). -/
  | ohpBuf (k d : Nat)
  /-- Last frame read from that slip buffer (R165). -/
  | ohpLast (k d : Nat)
  /-- 1 while overhead port `k` waits to be re-centred at its next frame boundary (R165). -/
  | ohpCentre (k : Nat)
  /-- Time base in ns at the last flip (R293). -/
  | flipAt
  /-- Root-PLL cycle at which the hold of SETTLING ends (R291). -/
  | settleAt
  /-- Greatest AGE_LIMIT, in µs, since the last flip (R345). -/
  | ageMax
  /-- Entries converted by the running sweep (R297). -/
  | sweepDone
  /-- Credit balance CB of VOQ `q` in bytes, signed (R363). -/
  | cb (q : Nat)
  /-- 1 while VOQ `q` is in request (R365). -/
  | inReq (q : Nat)
  /-- 1 + the VOQ of class `c` that VOQ-side engine `e` served last (R364). -/
  | voqPtr (e c : Nat)
  /-- 1 + the flow of egress queue `e` that received the last grant (R368). -/
  | flowPtr (e : Nat)
  /-- Level of the credit pacer of line port `p` in units of 2^-16 byte, less its burst (R368). -/
  | pacer (p : Nat)
  /-- Root-PLL cycle of the last update of that level. -/
  | pacerAt (p : Nat)
  /-- Deficit of entity `n`, numbered as in R390, less 64: `x` 0 committed pass, 1 excess pass (R373), 2 credit (R368). -/
  | dwrr (x n : Nat)
  /-- Child index at which the scan of node `n` starts, for `x` as above at priority `k` (R373, R368). -/
  | ptr (x n k : Nat)
  /-- 1 + the port that the last selection took (R374). -/
  | portPtr
  /-- Level of the committed bucket of entity `i` in units of 2^-16 byte (R375). -/
  | shpC (i : Nat)
  /-- Level of the peak bucket of entity `i` in units of 2^-16 byte (R375). -/
  | shpP (i : Nat)
  /-- Root-PLL cycle of the last update of the levels of entity `i` (R378). -/
  | shpAt (i : Nat)
  /-- 1 + the fret boundary, in root-PLL cycles, at which entity `i` is filed; 0 not filed (R379). -/
  | fretDue (i : Nat)
  /-- Where entity `i` is filed: 1 fine wheel, 2 coarse wheel, 3 far list (R380). -/
  | fretAt (i : Nat)
  /-- Next SEQ of source context `c` = 8 × destination device + class (R410). -/
  | txSeq (c : Nat)
  /-- 1 while resequencer context `c` = 8 × source device + class is SYNC (R411). -/
  | rsSync (c : Nat)
  /-- Expected number E of context `c` (R411). -/
  | rsE (c : Nat)
  /-- 1 + root-PLL cycle of the last cell received in context `c` (R411). -/
  | rsLast (c : Nat)
  /-- Released cells of TYPE 1 and 2 of context `c` are discarded: 1 their frame is counted, 2 not yet counted (R413). -/
  | rsSkip (c : Nat)
  /-- 1 from the first to the last cell of a frame of context `c` (R406). -/
  | rsBusy (c : Nat)
  /-- 1 + the link last used for destination device `d` (R409). -/
  | lastLink (d : Nat)
  /-- 1 + root-PLL cycle at which segment k mod 4 of link k ÷ 4 was last received (R408). -/
  | reachAt (k : Nat)
  /-- Root-PLL cycle of the last reset of the TM-QUEUE or FAB domains (R410). -/
  | quietAt
  /-- Root-PLL cycle of the last keepalive sent on link `l` (R409). -/
  | kaTx (l : Nat)
  /-- Root-PLL cycle of the last reachability cell sent on link `l` (R407). -/
  | reachTx (l : Nat)
  /-- Segment that link `l` sends next (R407). -/
  | reachSeg (l : Nat)
  /-- Root-PLL cycle from which the loss of keepalives of link `l` is measured (R400). -/
  | kaRx (l : Nat)
  /-- 1 once link `l` has received a valid keepalive since it left DISABLED or HUNT (R398). -/
  | kaGood (l : Nat)
  /-- 1 while the reason KA_LOSS of link `l` holds (R400). -/
  | kaLost (l : Nat)
  /-- 1 while the reason DEGRADE of link `l` holds (R400). -/
  | degOn (l : Nat)
  /-- Consecutive 1 ms windows of link `l` without an uncorrectable codeword (R400). -/
  | degClean (l : Nat)
  /-- Consecutive control words of link `l` with RDI 1 (R398). -/
  | rdiRun (l : Nat)
  /-- Root-PLL cycle since which link `l` has been in PEER with every condition of UP met (R398). -/
  | peerAt (l : Nat)
  /-- Bring-up of channel `c`: 0 not started, 1 to 6 the step in progress, 7 in service, 8 stopped or lost (R437, R443). -/
  | trainStep (c : Nat)
  /-- Root-PLL cycle of the start of the bring-up of channel `c` (R437). -/
  | trainAt (c : Nat)
  /-- Full retrain of channel `c`: 0 none, 1 under way, 2 waiting for the driver, 3 waiting for the operations in flight (R442). -/
  | retrain (c : Nat)
  /-- 1 + the row open in bank `b` (32 × rank + bank) of channel `c`; 0 none (R436). -/
  | openRow (c b : Nat)
  /-- Refreshes of rank `k` of channel `c` that stand postponed (R440). -/
  | refDebt (c k : Nat)
  /-- 1 while the refresh interval of rank `k` of channel `c` is halved (R440). -/
  | refHalf (c k : Nat)
  /-- Corrected errors in the running patrol pass of channel `c`; k = 16 × sr + device (R449). -/
  | devCe (c k : Nat)
  /-- 512-byte block of the page that the scrubber of channel `c` reads next (R450). -/
  | patBlk (c : Nat)
  /-- 1 while class `k` is throttled in bank `b` = 64 × channel + 32 × rank + bank (R446). -/
  | thr (b k : Nat)
  /-- Root-PLL cycle of the last activate of class `k` in that bank (R446). -/
  | thrLast (b k : Nat)
  /-- 1 while deep page `p` holds what a page write left there (R336). -/
  | pgInt (p : Nat)
  /-- Root-PLL cycle at which the hold-off of source group w started for target t (R480). -/
  | holdAt (w t : Nat)
  /-- 1 + the core that a handover is making ACTIVE, from the fence to the takeover (R467). -/
  | hoTo
  /-- 1 + the core that the last handover fenced (R467, R648). -/
  | hoFrom
  /-- 1 + the core that took over and has made no write yet (R468, R648). -/
  | hoFirst
  /-- 1 while the boot core is to reload core x, which starts as ACTIVE (R471). -/
  | autoLoad (x : Nat)
  /-- 1 + root-PLL cycle of the last fault of core x (k = 0) and of the two before it (k = 1, 2; R471). -/
  | coreFaultAt (x k : Nat)
  /-- Slot from which core x is loaded (R470). -/
  | coreSlot (x : Nat)
  /-- 1 + STATE_VER of the image in core x (R544). -/
  | coreVer (x : Nat)
  /-- 1 + SVN of the image in core x; 0 none (R539). -/
  | coreSvn (x : Nat)
  /-- 1 + signing key of the image in core x; 0 none (R538). -/
  | coreKey (x : Nat)
  /-- 1 or 2 while processor k waits for its load: 1 at a start, 2 a reload (0 to 5 micro-engines, 6 SerDes firmware, 7 and 8 the control cores; R459, R551). -/
  | loadDue (k : Nat)
  /-- Root-PLL cycle of the last restart of core x's watchdog (R464). -/
  | wdtAt (x : Nat)
  /-- 1 while engine i runs, 2 when its image was not loaded (R460). -/
  | eng (i : Nat)
  /-- 1 + VERSION [15:0] of the image of engine i in the cache; 0 none (R541). -/
  | cacheVer (i : Nat)
  /-- 1 + SVN of the running image of engine i; 0 none (R539). -/
  | engSvn (i : Nat)
  /-- 1 + signing key of the running image of engine i; 0 none (R538). -/
  | engKey (i : Nat)
  /-- 1 once the boot core has started after a device reset (R541). -/
  | booted
  /-- Host isolation as read at the start (R523). -/
  | iso
  /-- 1 once a peer is locked (R548). -/
  | eloPeer
  /-- 1 + SEQ of the last request executed (R548). -/
  | eloSeq
  /-- Recovery entries not yet in the lifetime record (R542, R557). -/
  | lifeRec
  /-- Handovers not yet in the lifetime record (R557). -/
  | lifeHo
  /-- 1 + next instant of entry i in ns of the time base; 0 none (R482). -/
  | pfeNext (i : Nat)
  /-- Root-PLL cycle from which the PFE can build the next frame (R485). -/
  | pfeFree
  /-- 1 while PCIE_PERST_N is asserted (R523). -/
  | perst
  /-- What holds the device in reset: bit 0 SYS_RST_N low (R617), bit 1 PERST_N (R523), bit 2 no VAUX (R601), bit 3 the factory test mode, in which it does not start (R634). -/
  | rstHold
  /-- 1 while a Function Level Reset runs (R519). -/
  | flr
  /-- 1 when inject ring i is to be ABORTED once no read is outstanding (R517). -/
  | injAbort (i : Nat)
  /-- Inject ring whose turn is next (R516). -/
  | injTurn
  /-- Descriptors already written for the first frame of punt ring r (R509). -/
  | puntPart (r : Nat)
  /-- WIDTH × 16 + SPEED of the PCIe link (R528). -/
  | linkWS
  /-- 1 + root-PLL cycle at which domain d dropped out and waits for its restart (R610). -/
  | dropAt (d : Nat)
  /-- 1 + root-PLL cycle of the last three restarts of domain d (R610). -/
  | restartAt (d k : Nat)
  /-- Highest junction temperature seen since the start, plus 128 (R557). -/
  | tjHi
  /-- Max_Read_Request_Size of Device Control less 2, its value after a reset (R494). -/
  | mrrs
  /-- Tag width of the endpoint: 0 neither option, 1 Extended Tag, 2 10-bit tags (R494). -/
  | tags
  /-- AER uncorrectable mask: bit 0 poisoned data, bit 1 completion timeout (R521). -/
  | aerMask
  /-- Root-PLL cycle at which the ramp of domain d started (R604). -/
  | rampAt (d : Nat)
  /-- 1 from a loss of VIN until the reset that follows it (R600). -/
  | vinDown
  /-- 1 from a loss of root-PLL lock until the reset that follows it (R593). -/
  | pllLost
  /-- Root-PLL cycle at which the root PLL last locked (R619). -/
  | pllAt
  /-- 1 + the next edge instant of PPS_OUT[i] in the count of its source; 0 while it makes none (R68, R96). -/
  | ppsNext (i : Nat)
  /-- Root-PLL cycle of the last rise of PPS_OUT[i] (R96). -/
  | ppsRise (i : Nat)
  /-- Root-PLL cycle from which the loss of PPS_IN[i] is measured (R95). -/
  | ppsSince (i : Nat)
  /-- 1 + root-PLL cycle at which the message of the last PPS_OUT[0] edge starts; 0 none (R98). -/
  | todDue
  /-- Root-PLL cycle of the last valid ToD message (R99). -/
  | todSince
  /-- Root-PLL cycle from which the loss of tracker x's reference is measured (R73). -/
  | refSince (x : Nat)
  /-- Edges of FREQ_IN since the last one stamped (R101). -/
  | freqCnt
  /-- 1 + root-PLL cycle of the last edge of FREQ_IN; 0 once its loss is reported (R101). -/
  | freqSince
  /-- Root-PLL cycle of the last realignment of the follower (R22). -/
  | folAt
  /-- Root-PLL cycle at which the running window of Bridge CRC errors started (R31). -/
  | laneWin
  /-- Root-PLL cycle at which line lane l last locked (R100). -/
  | laneLockAt (l : Nat)
  /-- Root-PLL cycle at which port n last entered HOLD (R127). -/
  | upAt (n : Nat)
  /-- 1 while the MAC of port n sends remote fault (R127, R159). -/
  | txRf (n : Nat)
  /-- 1 while a flow-control frame of port n waits for a frame boundary (R126). -/
  | fcPend (n : Nat)
  /-- Root-PLL cycle of the last flow-control frame of port n (R125). -/
  | fcAt (n : Nat)
  /-- Root-PLL cycle at which the running FEC window of port n started (R135). -/
  | fecAt (n : Nat)
  /-- 1 + the next period boundary of port n in 1/16 ns; 0 with no schedule in force (R68, R91). -/
  | winAt (n : Nat)
  /-- Cycles of the running span of 16 at the entry of pipeline g (R132). -/
  | spanCnt (g : Nat)
  /-- Cycles of that span in which recirculation had the first call (R132). -/
  | spanRec (g : Nat)
  /-- The position of the FlexO instance on lane `i` of port `n`, less `i` (R144). -/
  | fxPos (n i : Nat)
  /-- CFG of port `n` in force for the OTUC, ODUC and OPUC layers, exclusive-or its reset value (R169). -/
  | otnCfgC (n : Nat)
  /-- CFG of port `n` in force for the ODUflex and OPUflex layers, exclusive-or its reset value (R169). -/
  | otnCfgF (n : Nat)
  /-- dAIS, dOCI and dLCK held of each TCM of port `n`, three bits for each (R154). -/
  | tcmHeld (n : Nat)
  /-- BIP-8 violations of the last frame received of layer `k / 8`, slice `k % 8`, of port `n` (R153). -/
  | rxBip (n k : Nat)
  /-- Root-PLL cycle of the last change of the condition of persistence timer `k` of port `n` (R154). -/
  | perSince (n k : Nat)
  /-- The whole second of the last dDEG interval of port `n`, plus 1; 0 none (R154). -/
  | degAt (n : Nat)
  /-- MFAS of the next OTUC frame that port `n` sends (R149). -/
  | txMfas (n : Nat)
  /-- MFAS of the next ODUflex frame that port `n` sends (R151). -/
  | txMfasF (n : Nat)
  /-- The overhead frame read for insertion and not yet sent, plus 1; 0 none (R165). -/
  | ohpNext (k : Nat)
  /-- Root-PLL cycle of the last rising edge of OHP_CLK[k] (R166). -/
  | ohpEdge (k : Nat)
  /-- The 1 ms intervals of OHP[k]'s clock measurement that `CLK_MEAS` covers (R173). -/
  | clkMeas (k : Nat)
  /-- The whole multiples of 100 ms of the time base that move_now has counted or passed over (R254, R259). -/
  | moveAt
  /-- The whole multiples of the age-tick period that age_now has counted or passed over (R259). -/
  | ageAt
  /-- 4 × (1 + the position that the scanner of pipeline `g` has read and not yet written) + 2 if its move window had passed + 1
  if the entry was aged when read; 0 none (R260). -/
  | scanAt (g : Nat)
  /-- 1 while the stream received on fabric link `l` is discarded up to the next position that FIRST names (R396). -/
  | lnkDisc (l : Nat)
  /-- Root-PLL cycle of the last end of a 1 ms window of codewords of fabric link `l` (R400). -/
  | degAtL (l : Nat)
  /-- 1 + the requester that pool `i` granted last; 0 none (R319). -/
  | poolTurn (i : Nat)
  /-- Root-PLL cycle at which the last pass of the age sweep started (R344). -/
  | sweepAt
  /-- Root-PLL cycle of the last STATUS of VOQ `q` (R365). -/
  | statusAt (q : Nat)
  /-- Root-PLL cycle of the last read of rank `k`'s refresh-rate register in channel `c` (R440). -/
  | refPoll (c k : Nat)
  /-- Root-PLL cycle at which the last refresh of rank `k` of channel `c` was due (R440). -/
  | refAt (c k : Nat)
  /-- Root-PLL cycle of the last ZQ calibration of rank and subchannel `k` of channel `c` (R441). -/
  | zqAt (c k : Nat)
  /-- Root-PLL cycle of the last DQS oscillator measurement of rank and subchannel `k` of channel `c` (R441). -/
  | dqsAt (c k : Nat)
  /-- Root-PLL cycle at which the running 32 ms window of channel `c` started (R445). -/
  | rhAt (c : Nat)
  /-- Root-PLL cycle of the last patrol read of channel `c` (R450). -/
  | patAt (c : Nat)
  /-- Root-PLL cycle of the last temperature reading of channel `c` (R443). -/
  | tempAt (c : Nat)
  /-- 1 + root-PLL cycle of the last access to bank `b` of channel `c` with hint OPEN; 0 without a limit of idle time (R436). -/
  | openIdle (c b : Nat)
  /-- AER Uncorrectable Error Status, in the register's own bits (R496, R521). -/
  | aerSts
  /-- Completion timeout of Device Control 2: the range setting in [3:0], the disable in [4] (R494). -/
  | cto
  /-- Relaxed Ordering is disabled in Device Control (R506). -/
  | roOff
  /-- Enable bit of the expansion ROM (R502). -/
  | romEn
  /-- Subsystem ID and vendor ID, as the boot core read them from the boot options (R491). -/
  | subsystem
  /-- Root-PLL cycle at which core `x` entered SYNCING (R469). -/
  | syncAt (x : Nat)
  /-- Root-PLL cycle of the locked peer's last request (R548). -/
  | eloAt
  /-- The LIFETIME record of this start is still to be stored (R557). -/
  | lifeDue
  /-- Root-PLL cycle of the last LIFETIME store, or of the start (R557). -/
  | lifeAt
  /-- Root-PLL cycle of the fold engine's last visit to flow pair `i` (R572). -/
  | fsAt (i : Nat)
  /-- Root-PLL cycle of the last cut (R577). -/
  | snapAt
  /-- 1 + number of the measurement that VIN_MV (0), VAUX_MV (1) or P_IN (2) holds (R621). -/
  | measAt (i : Nat)
  /-- 129 + the last junction temperature read, while it is out of range (R646). -/
  | tjNow
  /-- Root-PLL cycle of the last sample of the pipeline watchdogs (R594). -/
  | wdtSampleAt
  /-- Time in µs for which watchdog unit `u` has held a frame and passed none (R594). -/
  | wdtRun (u : Nat)
  /-- A further hidden number `x` with its indices (`Extra`). -/
  | more (x : Extra) (a b : Nat)


/-- A constructor's number and its indices as one number. -/
def hidKey (c a b d : Nat) : Nat := c * 2 ^ 96 + a * 2 ^ 64 + b * 2 ^ 32 + d

/-- The key under which a hidden number is stored: its constructor and its indices, each below 2^32. -/
def Hid.code : Hid → Nat
  | .evtUnread p => hidKey 0 0 0 p
  | .tblOp p r => hidKey 1 0 p r
  | .tbRate => hidKey 2 0 0 0
  | .trkRate x => hidKey 3 0 0 x
  | .rateHeld x => hidKey 4 0 0 x
  | .refMiss x => hidKey 5 0 0 x
  | .ppsLast i => hidKey 6 0 0 i
  | .ppsFast i k => hidKey 7 0 i k
  | .ppsOut i => hidKey 8 0 0 i
  | .todSeen => hidKey 9 0 0 0
  | .coreIdle t => hidKey 10 0 0 t
  | .holdRun w t => hidKey 11 0 w t
  | .presented s => hidKey 12 0 0 s
  | .msiSent s => hidKey 13 0 0 s
  | .intaOn => hidKey 14 0 0 0
  | .msixEn => hidKey 15 0 0 0
  | .msixMask => hidKey 16 0 0 0
  | .intDis => hidKey 17 0 0 0
  | .bme => hidKey 18 0 0 0
  | .pciUp => hidKey 19 0 0 0
  | .intcUnread w => hidKey 20 0 0 w
  | .logUnread i => hidKey 21 0 0 i
  | .tjBad => hidKey 22 0 0 0
  | .vinBad => hidKey 23 0 0 0
  | .vauxBad => hidKey 24 0 0 0
  | .perfBase p => hidKey 25 0 0 p
  | .cycBase p => hidKey 26 0 0 p
  | .snapOpen => hidKey 27 0 0 0
  | .rxOn n => hidKey 28 0 0 n
  | .rxLen n => hidKey 29 0 0 n
  | .rxMtu n => hidKey 30 0 0 n
  | .rxCtl n => hidKey 31 0 0 n
  | .nextId => hidKey 32 0 0 0
  | .stuck u => hidKey 33 0 0 u
  | .paused n c => hidKey 34 0 n c
  | .fcSet n => hidKey 35 0 0 n
  | .deskew n => hidKey 36 0 0 n
  | .bwRx n => hidKey 37 0 0 n
  | .bwTx n => hidKey 38 0 0 n
  | .bwStart n => hidKey 39 0 0 n
  | .inFlight p => hidKey 40 0 0 p
  | .drainCnt p => hidKey 41 0 0 p
  | .capoState => hidKey 42 0 0 0
  | .capoParity => hidKey 43 0 0 0
  | .capoTimeout => hidKey 44 0 0 0
  | .flipPending => hidKey 45 0 0 0
  | .capoEver => hidKey 46 0 0 0
  | .emptyBank g b => hidKey 47 0 g b
  | .gq q => hidKey 48 0 0 q
  | .sq q => hidKey 49 0 0 q
  | .qstate q => hidKey 50 0 0 q
  | .cursorD => hidKey 51 0 0 0
  | .parityBad t i => hidKey 52 0 t i
  | .foldQueued p => hidKey 53 0 0 p
  | .ageNow => hidKey 54 0 0 0
  | .moveNow => hidKey 55 0 0 0
  | .polTc i => hidKey 56 0 0 i
  | .polTe i => hidKey 57 0 0 i
  | .polLast i => hidKey 58 0 0 i
  | .mapBusy g => hidKey 59 0 0 g
  | .txTs n => hidKey 60 0 0 n
  | .txFree n => hidKey 61 0 0 n
  | .winIn n => hidKey 62 0 0 n
  | .winNext n => hidKey 63 0 0 n
  | .laneErr k => hidKey 64 0 0 k
  | .laneMark k => hidKey 65 0 0 k
  | .tlOrder => hidKey 66 0 0 0
  | .fxLock n => hidKey 67 0 0 n
  | .slMfas n i => hidKey 68 0 n i
  | .slPos n i => hidKey 69 0 n i
  | .fasBad n i => hidKey 70 0 n i
  | .mfasRun n i => hidKey 71 0 n i
  | .detRun n d => hidKey 72 0 n d
  | .ttiRep n l => hidKey 73 0 n l
  | .errBlocks n l => hidKey 74 0 n l
  | .degRun n l => hidKey 75 0 n l
  | .ptSeen n c => hidKey 76 0 n c
  | .msiBad n => hidKey 77 0 0 n
  | .statSeen n i => hidKey 78 0 n i
  | .caEff n => hidKey 79 0 0 n
  | .txForce n => hidKey 80 0 0 n
  | .ohpBuf k d => hidKey 81 0 k d
  | .ohpLast k d => hidKey 82 0 k d
  | .ohpCentre k => hidKey 83 0 0 k
  | .flipAt => hidKey 84 0 0 0
  | .settleAt => hidKey 85 0 0 0
  | .ageMax => hidKey 86 0 0 0
  | .sweepDone => hidKey 87 0 0 0
  | .cb q => hidKey 88 0 0 q
  | .inReq q => hidKey 89 0 0 q
  | .voqPtr e c => hidKey 90 0 e c
  | .flowPtr e => hidKey 91 0 0 e
  | .pacer p => hidKey 92 0 0 p
  | .pacerAt p => hidKey 93 0 0 p
  | .dwrr x n => hidKey 94 0 x n
  | .ptr x n k => hidKey 95 x n k
  | .portPtr => hidKey 96 0 0 0
  | .shpC i => hidKey 97 0 0 i
  | .shpP i => hidKey 98 0 0 i
  | .shpAt i => hidKey 99 0 0 i
  | .fretDue i => hidKey 100 0 0 i
  | .fretAt i => hidKey 101 0 0 i
  | .txSeq c => hidKey 102 0 0 c
  | .rsSync c => hidKey 103 0 0 c
  | .rsE c => hidKey 104 0 0 c
  | .rsLast c => hidKey 105 0 0 c
  | .rsSkip c => hidKey 106 0 0 c
  | .rsBusy c => hidKey 107 0 0 c
  | .lastLink d => hidKey 108 0 0 d
  | .reachAt k => hidKey 109 0 0 k
  | .quietAt => hidKey 110 0 0 0
  | .kaTx l => hidKey 111 0 0 l
  | .reachTx l => hidKey 112 0 0 l
  | .reachSeg l => hidKey 113 0 0 l
  | .kaRx l => hidKey 114 0 0 l
  | .kaGood l => hidKey 115 0 0 l
  | .kaLost l => hidKey 116 0 0 l
  | .degOn l => hidKey 117 0 0 l
  | .degClean l => hidKey 118 0 0 l
  | .rdiRun l => hidKey 119 0 0 l
  | .peerAt l => hidKey 120 0 0 l
  | .trainStep c => hidKey 121 0 0 c
  | .trainAt c => hidKey 122 0 0 c
  | .retrain c => hidKey 123 0 0 c
  | .openRow c b => hidKey 124 0 c b
  | .refDebt c k => hidKey 125 0 c k
  | .refHalf c k => hidKey 126 0 c k
  | .devCe c k => hidKey 127 0 c k
  | .patBlk c => hidKey 128 0 0 c
  | .thr b k => hidKey 129 0 b k
  | .thrLast b k => hidKey 130 0 b k
  | .pgInt p => hidKey 131 0 0 p
  | .holdAt w t => hidKey 132 0 w t
  | .hoTo => hidKey 133 0 0 0
  | .hoFrom => hidKey 134 0 0 0
  | .hoFirst => hidKey 135 0 0 0
  | .autoLoad x => hidKey 136 0 0 x
  | .coreFaultAt x k => hidKey 137 0 x k
  | .coreSlot x => hidKey 138 0 0 x
  | .coreVer x => hidKey 139 0 0 x
  | .coreSvn x => hidKey 140 0 0 x
  | .coreKey x => hidKey 141 0 0 x
  | .loadDue k => hidKey 142 0 0 k
  | .wdtAt x => hidKey 143 0 0 x
  | .eng i => hidKey 144 0 0 i
  | .cacheVer i => hidKey 145 0 0 i
  | .engSvn i => hidKey 148 0 0 i
  | .engKey i => hidKey 149 0 0 i
  | .booted => hidKey 152 0 0 0
  | .iso => hidKey 153 0 0 0
  | .eloPeer => hidKey 157 0 0 0
  | .eloSeq => hidKey 158 0 0 0
  | .lifeRec => hidKey 159 0 0 0
  | .lifeHo => hidKey 160 0 0 0
  | .pfeNext i => hidKey 161 0 0 i
  | .pfeFree => hidKey 162 0 0 0
  | .perst => hidKey 163 0 0 0
  | .rstHold => hidKey 164 0 0 0
  | .flr => hidKey 165 0 0 0
  | .injAbort i => hidKey 166 0 0 i
  | .injTurn => hidKey 167 0 0 0
  | .puntPart r => hidKey 168 0 0 r
  | .linkWS => hidKey 169 0 0 0
  | .dropAt d => hidKey 170 0 0 d
  | .restartAt d k => hidKey 171 0 d k
  | .tjHi => hidKey 172 0 0 0
  | .mrrs => hidKey 173 0 0 0
  | .tags => hidKey 174 0 0 0
  | .aerMask => hidKey 175 0 0 0
  | .rampAt d => hidKey 176 0 0 d
  | .vinDown => hidKey 177 0 0 0
  | .pllLost => hidKey 178 0 0 0
  | .pllAt => hidKey 179 0 0 0
  | .ppsNext i => hidKey 180 0 0 i
  | .ppsRise i => hidKey 181 0 0 i
  | .ppsSince i => hidKey 182 0 0 i
  | .todDue => hidKey 183 0 0 0
  | .todSince => hidKey 184 0 0 0
  | .refSince x => hidKey 185 0 0 x
  | .freqCnt => hidKey 186 0 0 0
  | .freqSince => hidKey 187 0 0 0
  | .folAt => hidKey 188 0 0 0
  | .laneWin => hidKey 189 0 0 0
  | .laneLockAt l => hidKey 190 0 0 l
  | .upAt n => hidKey 191 0 0 n
  | .txRf n => hidKey 192 0 0 n
  | .fcPend n => hidKey 193 0 0 n
  | .fcAt n => hidKey 194 0 0 n
  | .fecAt n => hidKey 195 0 0 n
  | .winAt n => hidKey 196 0 0 n
  | .spanCnt g => hidKey 197 0 0 g
  | .spanRec g => hidKey 198 0 0 g
  | .fxPos n i => hidKey 199 0 n i
  | .otnCfgC n => hidKey 200 0 0 n
  | .otnCfgF n => hidKey 201 0 0 n
  | .tcmHeld n => hidKey 202 0 0 n
  | .rxBip n k => hidKey 203 0 n k
  | .perSince n k => hidKey 204 0 n k
  | .degAt n => hidKey 205 0 0 n
  | .txMfas n => hidKey 206 0 0 n
  | .txMfasF n => hidKey 207 0 0 n
  | .ohpNext k => hidKey 208 0 0 k
  | .ohpEdge k => hidKey 209 0 0 k
  | .clkMeas k => hidKey 210 0 0 k
  | .moveAt => hidKey 211 0 0 0
  | .ageAt => hidKey 212 0 0 0
  | .scanAt g => hidKey 213 0 0 g
  | .lnkDisc l => hidKey 215 0 0 l
  | .degAtL l => hidKey 216 0 0 l
  | .poolTurn i => hidKey 217 0 0 i
  | .sweepAt => hidKey 218 0 0 0
  | .statusAt q => hidKey 219 0 0 q
  | .refPoll c k => hidKey 220 0 c k
  | .refAt c k => hidKey 221 0 c k
  | .zqAt c k => hidKey 222 0 c k
  | .dqsAt c k => hidKey 223 0 c k
  | .rhAt c => hidKey 224 0 0 c
  | .patAt c => hidKey 225 0 0 c
  | .tempAt c => hidKey 226 0 0 c
  | .openIdle c b => hidKey 227 0 c b
  | .aerSts => hidKey 228 0 0 0
  | .cto => hidKey 229 0 0 0
  | .roOff => hidKey 230 0 0 0
  | .romEn => hidKey 231 0 0 0
  | .subsystem => hidKey 232 0 0 0
  | .syncAt x => hidKey 233 0 0 x
  | .eloAt => hidKey 234 0 0 0
  | .lifeDue => hidKey 235 0 0 0
  | .lifeAt => hidKey 236 0 0 0
  | .fsAt i => hidKey 237 0 0 i
  | .snapAt => hidKey 238 0 0 0
  | .measAt i => hidKey 239 0 0 i
  | .tjNow => hidKey 240 0 0 0
  | .wdtSampleAt => hidKey 241 0 0 0
  | .wdtRun u => hidKey 242 0 0 u
  | .more x a b => hidKey (243 + x.num) 0 a b

/-- `Extra.vinAt`. -/
abbrev Hid.vinAt : Hid := .more .vinAt 0 0
/-- `Extra.rxTs` of port `n`. -/
abbrev Hid.rxTs (n : Nat) : Hid := .more .rxTs 0 n
/-- `Extra.resetAt`. -/
abbrev Hid.resetAt : Hid := .more .resetAt 0 0
/-- `Extra.raa`. -/
abbrev Hid.raa (c : Nat) (b : Nat) : Hid := .more .raa c b
/-- `Extra.rfmThr`. -/
abbrev Hid.rfmThr (c : Nat) : Hid := .more .rfmThr 0 c
/-- `Extra.runWrite`. -/
abbrev Hid.runWrite (c : Nat) : Hid := .more .runWrite 0 c
/-- `Extra.runLen`. -/
abbrev Hid.runLen (c : Nat) : Hid := .more .runLen 0 c
/-- `Extra.arbCls`. -/
abbrev Hid.arbCls (c : Nat) : Hid := .more .arbCls 0 c
/-- `Extra.arbLeft`. -/
abbrev Hid.arbLeft (c : Nat) : Hid := .more .arbLeft 0 c
/-- `Extra.dramTag`. -/
abbrev Hid.dramTag : Hid := .more .dramTag 0 0
/-- `Extra.popRun`. -/
abbrev Hid.popRun : Hid := .more .popRun 0 0
/-- `Extra.fabricUntil`. -/
abbrev Hid.fabricUntil : Hid := .more .fabricUntil 0 0
/-- `Extra.coreEntry`. -/
abbrev Hid.coreEntry (x : Nat) : Hid := .more .coreEntry 0 x
/-- `Extra.coreTake`. -/
abbrev Hid.coreTake (x : Nat) : Hid := .more .coreTake 0 x
/-- `Extra.coreStart`. -/
abbrev Hid.coreStart (x : Nat) : Hid := .more .coreStart 0 x
/-- `Extra.serdes`. -/
abbrev Hid.serdes (d : Nat) : Hid := .more .serdes 0 d
/-- `Extra.stopAt`. -/
abbrev Hid.stopAt : Hid := .more .stopAt 0 0
/-- `Extra.recovery`. -/
abbrev Hid.recovery : Hid := .more .recovery 0 0
/-- `Extra.startSlot`. -/
abbrev Hid.startSlot : Hid := .more .startSlot 0 0
/-- `Extra.flashBad`. -/
abbrev Hid.flashBad : Hid := .more .flashBad 0 0
/-- `Extra.step6`. -/
abbrev Hid.step6 : Hid := .more .step6 0 0
/-- `Extra.engVer`. -/
abbrev Hid.engVer (i : Nat) : Hid := .more .engVer 0 i
/-- `Extra.aerFirst`. -/
abbrev Hid.aerFirst : Hid := .more .aerFirst 0 0
/-- `Extra.aerHdr`. -/
abbrev Hid.aerHdr (k : Nat) : Hid := .more .aerHdr 0 k
/-- `Extra.ecrc`. -/
abbrev Hid.ecrc : Hid := .more .ecrc 0 0
/-- `Extra.pmD3`. -/
abbrev Hid.pmD3 : Hid := .more .pmD3 0 0
/-- `Extra.spdmUntil`. -/
abbrev Hid.spdmUntil : Hid := .more .spdmUntil 0 0
/-- `Extra.spdmBy`. -/
abbrev Hid.spdmBy : Hid := .more .spdmBy 0 0

/-- Where a frame is held. -/
inductive Loc where
  /-- At the MAC of a line port, before its header cell is handed over (R116). -/
  | rx (n : Nat)
  /-- In the pipeline-entry buffer of IPIPE[g] (R28). -/
  | entry (g : Nat)
  /-- In the recirculation entry buffer of IPIPE[g] (R133). -/
  | rentry (g : Nat)
  /-- Across the Bridge, before the admission to a queue (R23 step 5). -/
  | toQ (q : Nat)
  /-- Admitted, its request for a buffer carried to a later Q-clock cycle (R319). -/
  | carried (q : Nat)
  /-- In queue q (R354). -/
  | queued (q : Nat)
  /-- On its way into a host buffer pool (R321). -/
  | toHost
  /-- Its request to host pool i carried (R319). -/
  | hostWait (i : Nat)
  /-- In a host buffer, waiting for punt ring r or being written to it (R509). -/
  | host (r : Nat)
  /-- Started towards the fabric; its byte string is being segmented (R404). -/
  | fabricTx
  /-- In the resequencer, its cells released so far (R414). -/
  | fabricRx
  /-- Dequeued for a port of EPIPE[g] (R268). -/
  | epipe (g : Nat)
  /-- In the launch stage of port n (R86). -/
  | launch (n : Nat)
  /-- Handed to the MAC of port n (R119). -/
  | mac (n : Nat)
  /-- Handed to recirculation port 128 + g (R134). -/
  | recirc (g : Nat)
  /-- Read from inject ring i, or built by the PFE, and offered to its queue (R514, R482). -/
  | offer (i : Nat)
  deriving DecidableEq, Repr

/-- Where a buffer cell of a queued frame lies (R335 to R339). -/
inductive Part where
  /-- On die: the head segment, or the queue while SHALLOW. -/
  | head
  /-- On die, in the tail staging. -/
  | stage
  /-- On die, in the tail staging, handed to a page write. -/
  | handed (page : Nat)
  /-- In a deep page. -/
  | deep (page : Nat)
  /-- In a deep page that the return engine has requested. -/
  | asked (page : Nat)
  /-- On die, in a return buffer. -/
  | ret (page : Nat)
  deriving DecidableEq, Repr

/-- One step of a frame's descent through the egress hierarchy (R373, R374): the node, the pass, the child chosen and its
priority, and whether the child has taken its quantum for this frame. -/
structure Step where
  node : Nat
  pass : Nat
  child : Nat
  prio : Nat
  topped : Bool
  deriving DecidableEq, Repr

/-- One buffer cell of a frame: its part, and its number in the cell store (unused while in a deep page). -/
structure CellRef where
  part : Part
  ptr : Nat
  deriving DecidableEq, Repr

/-- A frame inside the device: its bytes from the destination address up to the FCS, and what travels with it. -/
structure Frame where
  /-- The model's own number of the frame. -/
  id : Nat
  loc : Loc
  bytes : List Byte := []
  /-- Every byte has been received. -/
  full : Bool := true
  /-- Marked bad (R117). -/
  bad : Bool := false
  /-- Its fabric cells or its transmission started before its last byte was received (R24). -/
  cut : Bool := false
  /-- Whether its port allows cut-through (R116). -/
  ctEn : Bool := false
  /-- Its length counts the 4 bytes of an FCS. -/
  fcs : Bool := true
  /-- The line port that still receives it. -/
  recv : Option Nat := none
  /-- The line port that received it first. -/
  inPort : Option Nat := none
  /-- Port index of the present pass, 0 to 135. -/
  port : Nat := 0
  /-- Original ingress system port (R267). -/
  srcSys : Nat := 0
  /-- Birth time in 1/16 ns (R78); a frame of another device: its BIRTH field, low 32 bits of nanoseconds, times 16. -/
  birth : Nat := 0
  /-- The birth time is a BIRTH field modulo 2^32 ns (R342). -/
  remote : Bool := false
  /-- Generation parity once taken; the frame then counts in flight (R283, R285). -/
  parity : Option Nat := none
  /-- Pass count (R266). -/
  passes : Nat := 0
  /-- VRF that a POP_LOOKUP entry set for the further passes (R267). -/
  vrfOvr : Option Nat := none
  cls : Nat := 0
  colour : Nat := 0
  qoff : Nat := 0
  /-- Its qsel resolved to OFFSET (R209). -/
  useOff : Bool := false
  /-- Punt reason (R507). -/
  reason : Option Nat := none
  /-- Parse failure code (R191). -/
  fail : Nat := 0
  /-- Multiple-match flags, bit l for lookup l (R200). -/
  multi : Nat := 0
  l3if : Nat := 0
  vrf : Nat := 0
  adj : Nat := 0
  dstSys : Nat := 0
  dstDev : Nat := 0
  /-- MPLS operation of the egress rewrite: 0 none, 1 SWAP, 2 PHP, 3 POP_LOOKUP (R235). -/
  mplsOp : Nat := 0
  outLabel : Nat := 0
  /-- No egress rewrite (R268). -/
  noRw : Bool := false
  /-- Carries its own one-step mode and source (R272). -/
  osOvr : Bool := false
  onestep : Nat := 0
  tsrc : Nat := 0
  /-- The departure time taken at its start, in 1/16 ns plus 1; 0 before (R75). -/
  txAt : Nat := 0
  /-- Pipeline it recirculates to (R265). -/
  rpipe : Option Nat := none
  /-- Launch time, [63:32] seconds and [31:0] nanoseconds (R84). -/
  launch : Option Nat := none
  /-- Order of sources with equal launch times: 0 PFE, 1 host, 2 queue (R90). -/
  lsrc : Nat := 2
  /-- Order of entry into the launch stage (R90). -/
  lorder : Nat := 0
  /-- Deferral to a later window already counted (R88). -/
  deferred : Bool := false
  /-- PFE entry plus 1, and the instant T_(k+1) in ns by which it must have started (R484). -/
  pfe : Nat := 0
  pfeEnd : Nat := 0
  /-- Inject ring plus 1, and its first descriptor index (R515). -/
  ring : Nat := 0
  desc : Nat := 0
  descs : Nat := 0
  /-- A departure timestamp is asked for (R79). -/
  txTs : Bool := false
  /-- Its punt metadata in the host buffer, where a window has overwritten it (R510, R525). -/
  hmeta : List Byte := []
  /-- Destination port index once dequeued for a port. -/
  outPort : Nat := 0
  /-- Abandoned after its start was sent (R120). -/
  gone : Bool := false
  /-- Its start towards the fabric, the host or the line has been made. -/
  started : Bool := false
  /-- Bytes of the fabric byte string already sent (R404). -/
  sent : Nat := 0
  /-- Its length was checked against TX_MTU at EPIPE (R273). -/
  chk : Bool := false
  /-- The steps of its descent through the hierarchy, once dequeued for a port (R373). -/
  hops : List Step := []
  /-- Bytes of it counted at its admission to a VOQ, and bytes charged for its start or its dequeue (R363, R373, R377, R569). -/
  counted : Nat := 0
  paid : Nat := 0
  /-- It comes from another device's fabric side (R119). -/
  ext : Bool := false
  /-- The queue it was admitted to. -/
  q : Nat := 0
  /-- Truncated: the rest of its bytes is discarded (R329). -/
  trunc : Bool := false
  /-- A cell of it entered the staging of a DEEP queue, so it leaves only whole (R338). -/
  sf : Bool := false
  /-- Bytes that the egress rewrite has added to it since it left its queue. -/
  grew : Int := 0
  /-- Buffer cells taken so far (R329). -/
  ncell : Nat := 0
  /-- Guaranteed and shared cells counted for it while its request is carried (R319, R326). -/
  carG : Nat := 0
  carE : Nat := 0
  /-- 1 + its context: 8 × destination device + class while it is segmented, 8 × source device + class while it is
  reassembled (R403, R411). -/
  ctx : Nat := 0
  /-- DST_Q of its cells (R401). -/
  dq : Nat := 0
  /-- Buffer cells granted before its admission, to the inject DMA (R514). -/
  pre : List Nat := []
  /-- CRC-32 state over the bytes of S received so far (R405). -/
  crc : Nat := 0xFFFFFFFF
  cells : List CellRef := []
  /-- Host buffer held: pool and pointer plus 1 (R321). -/
  hbuf : Nat := 0
  hpool : Nat := 0
  /-- Follower time in ns at which it began to wait for its punt ring, and the greatest `AGE_LIMIT`, in µs, since (R345, R511). -/
  since : Nat := 0
  limit : Nat := 0
  deriving DecidableEq, Repr

/-- What a queued L2 update asks for (R252). -/
inductive LearnKind where
  | refresh | insert | move
  deriving DecidableEq, Repr

/-- An update in the learn queue of pipeline `g`: its key (MAC above BD in the entry's words) and system port (R252). -/
structure Learn where
  g : Nat
  kind : LearnKind
  mac : Nat
  bd : Nat
  port : Nat
  deriving DecidableEq, Repr

/-- A deep-page write in progress (R337): its queue, its page and the buffer cells handed over. -/
structure PageWrite where
  queue : Nat
  page : Nat
  cells : List Nat
  /-- Its tag, and its operations not yet complete. -/
  tag : Nat := 0
  left : Nat := 16
  deriving DecidableEq, Repr

/-- A deep page requested by the return engine (R339): its tag, its operations not yet complete, and whether one was
uncorrectable (R448). -/
structure PageRead where
  tag : Nat
  page : Nat
  left : Nat := 16
  ue : Bool := false
  deriving DecidableEq, Repr

/-- An inject frame from the start of its reading to its write-back (R514, R515): its ring, the descriptors
before its SOP descriptor, its first descriptor and their number, the SOP descriptor, its reads not yet ended (bytes, and the root-PLL cycle at which each was issued), the bytes read, whether a read failed, whether
it has been offered, its buffer cells, and its status and departure timestamp in 1/16 ns once known. -/
structure Inj where
  ring : Nat
  skip : Nat
  desc : Nat
  descs : Nat
  sop : Nat
  reads : List (Nat × Option Nat)
  bytes : List Byte
  err : Bool
  offered : Bool
  cells : List Nat
  status : Option Nat
  ts : Nat
  deriving DecidableEq, Repr

/-- A candidate of the frame hunt of an OTUC slice (R145): port, slice, position, last MFAS and successful checks. -/
structure Cand where
  port : Nat
  slice : Nat
  pos : Nat
  mfas : Nat
  hits : Nat
  deriving DecidableEq, Repr

/-- An entry of the credit flow table (R366): its slot, source device and VOQ, egress queue, and the root-PLL cycle of its
last refresh. -/
structure Flow where
  slot : Nat
  src : Nat
  voq : Nat
  e : Nat
  since : Nat
  deriving DecidableEq, Repr

/-- A credit message that waits for a credit cell (R415): its destination device, the root-PLL cycle at which it was queued,
and its 64 bits. -/
structure CredMsg where
  dest : Nat
  since : Nat
  msg : Nat
  deriving DecidableEq, Repr

/-- A data cell held in a slot of the resequencer (R411): its context, SEQ, the root-PLL cycle of its arrival, its bytes. -/
structure Held where
  ctx : Nat
  seq : Nat
  since : Nat
  bytes : List Byte
  deriving DecidableEq, Repr

/-- A row of the activate-count table of a bank (R445); both subchannels see the same activates. -/
structure RhRow where
  chan : Nat
  bank : Nat
  row : Nat
  cnt : Nat
  deriving DecidableEq, Repr

/-- The candidate row of a bank, with its activate tally of each requester class (R446). -/
structure RhCand where
  chan : Nat
  bank : Nat
  row : Nat
  cnt : Nat
  tally : List Nat
  deriving DecidableEq, Repr

/-- A store to the Pegbox, in progress or waiting (R556): requester number (5 the boot core), area, payload format, payload. -/
structure PegJob where
  r : Nat
  area : Nat
  fmt : Nat
  data : List Byte
  deriving DecidableEq, Repr

/-- A command of the LPM page that waits at the table port (R53, R460): its requester and operation, and the window registers
as it was written. -/
structure RouteCmd where
  r : Req
  op : Nat
  sel : Nat
  idx : Nat
  data : Entry
  deriving DecidableEq, Repr

/-- An operation that waits for a deep-store channel or is in flight there (R433): channel, requester class, direction,
channel-local page and 512-byte block. -/
structure DramOp where
  chan : Nat
  cls : Nat
  write : Bool
  page : Nat
  blk : Nat
  /-- Its bytes. -/
  size : Nat := 512
  /-- What it belongs to: a page write or a page read by its tag, a fold by its flow pair. -/
  tag : Nat := 0
  /-- Bursts of its block known to be uncorrectable when it reached the channel (R448). -/
  bad : Nat := 0
  /-- A write has reached its block since (R451). -/
  stale : Bool := false
  /-- The command of table DEEP that it serves, with the data written or read (R452). -/
  sw : Option RouteCmd := none
  deriving DecidableEq, Repr

/-- What an OTN port sends (R149). -/
inductive OtnTx where
  /-- The FlexO overhead of an instance: its number as its position, group ID and RDI. -/
  | flexo (inst gid : Nat) (rdi : Bool)
  /-- Columns 1 to 14 of the four rows of an OTUC slice, row by row, the GMP justification control of its tributary-slot
  overhead (JC1 to JC6), and its PSI byte. -/
  | otuc (slice : Nat) (overhead gmp : List Byte) (psi : Byte)
  /-- An ODUflex frame: its MFAS, columns 1 to 14 of rows 2 to 4, its PSI byte, and the byte that fills its payload in place of
  the client. -/
  | oduflex (mfas : Nat) (overhead : List Byte) (psi : Byte) (fill : Option Byte)
  deriving DecidableEq, Repr

/-- What the transmit side of a fabric link holds (R395, R396, R409). -/
structure TxLink where
  link : Nat
  /-- Instant at which the next unit of 16 bytes can start, in 1/125 of a cycle of the root PLL. -/
  next : Nat := 0
  /-- The last 58 bits that the scrambler has put out, the newest in bit 0. -/
  scr : Nat := 0
  /-- Position of the first unit that begins in the body under way; 63 none. -/
  first : Nat := 63
  /-- Bytes of the body under way, not yet scrambled. -/
  body : List Byte := []
  /-- The transmit buffer, oldest first: the kind of each cell, 0 link, 1 credit, 2 data, and its bytes. -/
  wait : List (Nat × List Byte) := []
  deriving DecidableEq, Repr

/-- What leaves the device: read data, interrupts, frames, cells, messages and host writes. The model's own log. -/
inductive Out where
  /-- Read data returned to a requester. -/
  | readData (r : Req) (addr value : Nat)
  /-- An MSI-X message on a vector (R481). -/
  | msix (vec : Nat)
  /-- Assert_INTA or Deassert_INTA (R481). -/
  | inta (on : Bool)
  /-- A new level of PPS_OUT[i] (R96). -/
  | pps (i : Nat) (level : Bool)
  /-- A message on TOD_OUT (R98). -/
  | tod (bytes : List Byte)
  /-- An overhead frame on OHP_FS and OHP_DO of overhead port k, bit by bit (R163, R164). -/
  | ohpDo (k : Nat) (bits : List (Bool × Bool))
  /-- An overhead frame inserted by overhead port k (R163). -/
  | ohpIns (k data : Nat)
  /-- What OTN port n sends (R149). -/
  | otn (n : Nat) (f : OtnTx)
  /-- A flow-control frame on the line of port n (R125). -/
  | fc (n : Nat) (bytes : List Byte)
  /-- The MAC of port n starts or stops sending remote fault (R127). -/
  | fault (n : Nat) (on : Bool)
  /-- A codeword on fabric link l: its control word, and its body of 640 bytes as scrambled (R395). -/
  | codeword (l word : Nat) (body : List Byte)
  /-- `n` codewords on fabric link l that carry nothing but fill units, each of these 16 bytes (R396). -/
  | idle (l n : Nat) (unit : List Byte)
  /-- A cell on fabric link l (R401). -/
  | cell (l : Nat) (bytes : List Byte)
  /-- A frame on the line of port n: bytes up to the FCS, and whether the FCS is inverted (R119). -/
  | line (n : Nat) (bytes : List Byte) (inverted : Bool)
  /-- An Eloatal response (R547, R548): the frame from its destination address to its payload. -/
  | elo (bytes : List Byte)
  /-- A data object in the DOE mailbox (R492, R553). -/
  | doe (bytes : List Byte)
  /-- A write into host memory (R509, R515). -/
  | hostWrite (relaxed : Bool) (addr : Nat) (bytes : List Byte)
  /-- A completion of a host read (R496, R525): Unsupported Request, poisoned, its data. -/
  | cpl (ur poisoned : Bool) (bytes : List Byte)
  /-- A configuration request answered with Request Retry Status (R501, R519). -/
  | cplRetry
  deriving DecidableEq, Repr

/-- An Eloatal request that reads, writes or checks the flash (R549). -/
inductive EloMsg where
  /-- SLOT_INFO of a slot. -/
  | slotInfo (slot : Nat)
  /-- ERASE of a slot. -/
  | erase (slot : Nat)
  /-- WRITE of bytes at an offset of a slot. -/
  | write (slot off : Nat) (data : List Byte)
  /-- READ of `n` bytes at an offset of a slot. -/
  | read (slot off n : Nat)
  /-- SET_BOOT to an option. -/
  | setBoot (v : Nat)
  deriving DecidableEq, Repr

/-- An operation on the flash, which the boot core serves in request order (R543). -/
inductive FlashOp where
  /-- The load of the CONTROL image into core x (R460), while `Hid.loadDue` asks for it. -/
  | core (x : Nat)
  /-- The reload of engine i from a slot (R545). -/
  | engine (i slot : Nat)
  /-- The full check of a slot that requester r wrote to `RUN_SLOT` (R546). -/
  | check (slot r : Nat)
  /-- An Eloatal request (R549). -/
  | elo (h : EloHdr) (m : EloMsg)
  deriving DecidableEq, Repr

/-- The state of the device. -/
structure State where
  /-- Commands waiting, first in, first out. -/
  pending : List Instr
  /-- Registers, sparse and sorted by BAR0 byte address; an unlisted register holds its reset value. Copies kept per
  requester lie above 2^32 (notes/assumptions/1.md). -/
  regs : List (Nat × W64)
  /-- Table entries, sparse and sorted by page, table and index; an unlisted entry holds its reset value. -/
  tabs : List (Nat × Entry)
  /-- Byte memories, sparse and sorted; an unlisted byte reads as `memDefault` says. -/
  mem : List Host.Cell
  /-- Hidden numbers, sparse and sorted by `Hid.code`; unlisted is 0. -/
  hid : List (Nat × Int)
  /-- Frames held, oldest arrival at their place first. -/
  frames : List Frame
  /-- Buffers held: key pool × 2^32 + buffer number, value the owner code (R317); unlisted is free. -/
  bufs : List (Nat × Nat)
  /-- Learn queues of the L2 write ports, oldest first (R252). -/
  learnQ : List Learn
  /-- Notification FIFO, head first, word 0 in the low bits (R258). -/
  notify : List (BitVec 128)
  /-- The reports made for LEARN = NOTIFY that were placed in the FIFO, with their pipeline, newest first; at most 64 for
  each pipeline (R258). -/
  reports : List (Nat × BitVec 128)
  /-- Interrupt stacks: (target, source, priority), top first (R474). -/
  intStacks : List (Nat × Nat × Nat)
  /-- Candidates of the frame hunts (R145). -/
  cands : List Cand
  /-- Commands of the LPM page in arrival order, until they complete (R53, R241). -/
  lpmQ : List RouteCmd
  /-- The deep-page writes in progress, oldest first (R337). -/
  pageWrites : List PageWrite
  /-- Inject frames being read or waiting for their write-back, ring order (R515). -/
  injects : List Inj
  /-- The stores to the Pegbox: the one in progress, then those of the boot core that wait (R556). -/
  pegJobs : List PegJob
  /-- Operations on the flash: the one in progress, then those that wait (R543). -/
  flashQ : List FlashOp
  /-- The last Eloatal response, header and payload (R548). -/
  eloLast : List Byte
  /-- SPDM requests that wait in the DOE mailbox (R553). -/
  doeQ : List (List Byte)
  /-- SPDM requests served since the transport's state was reset, newest first: 0 DOE, 1 Eloatal (R553). -/
  spdm : List (Nat × List Byte)
  /-- Domains whose switch-on request waits for its ramp, oldest first (R605). -/
  domQ : List Nat
  /-- The credit flow table, lowest slot first (R366). -/
  flows : List Flow
  /-- Credit messages waiting, oldest first (R415). -/
  credQ : List CredMsg
  /-- Cells on the local path, oldest first (R416). -/
  localPath : List (List Byte)
  /-- The transmit sides of the fabric links that have sent, each at most once (R409). -/
  txLinks : List TxLink
  /-- Cells held by the resequencer, oldest first (R411). -/
  held : List Held
  /-- The deep pages requested for return and not yet returned (R339). -/
  pageReads : List PageRead
  /-- Operations that wait for a deep-store channel at their requesters, oldest first (R433). -/
  dramWait : List DramOp
  /-- Operations in flight in the deep store, oldest first (R433). -/
  dramOps : List DramOp
  /-- Activate-count tables (R445). -/
  rhRows : List RhRow
  /-- Candidate rows (R446). -/
  rhCands : List RhCand
  /-- The time base in units of 2^-48 ns (R58). -/
  tb : Nat
  /-- Tracker A in the same unit (R69). -/
  trkA : Nat
  /-- Tracker B in the same unit (R69). -/
  trkB : Nat
  /-- The Q-die follower in the same unit (R22). -/
  fol : Nat
  /-- Root-PLL cycles since the PLL first locked (R612). -/
  root : Nat
  /-- The model's own counter of free values used (notes/assumptions/3.md). -/
  freeCtr : Nat
  /-- What has left the device, oldest first (the model's own field). -/
  out : List Out
  deriving DecidableEq, Repr

/-- Reasons a step stops with a fault: there are none, for every command of the device answers a next state. -/
inductive Fault where
  deriving DecidableEq, Repr

/-- Reasons a command is refused. -/
inductive Refusal where
  /-- Raised by an arm of `exec` whose command has no meaning yet. Safe. -/
  | notModelled (mnemonic : String)
  deriving DecidableEq, Repr

/-- The machine right after reset: every register at its reset value, every table entry at its reset value, no frame,
no waiting command, all time counters at 0 (R62, R69). -/
def State.reset : State where
  pending := []
  regs := []
  tabs := []
  mem := []
  hid := []
  frames := []
  bufs := []
  learnQ := []
  notify := []
  reports := []
  intStacks := []
  cands := []
  lpmQ := []
  pageWrites := []
  injects := []
  pegJobs := []
  flashQ := []
  eloLast := []
  doeQ := []
  spdm := []
  domQ := []
  flows := []
  credQ := []
  localPath := []
  txLinks := []
  held := []
  pageReads := []
  dramWait := []
  dramOps := []
  rhRows := []
  rhCands := []
  tb := 0
  trkA := 0
  trkB := 0
  fol := 0
  root := 0
  freeCtr := 0
  out := []

end Sys2Proof.Machine
end

