-- ==== Sys2Proof/Machine/Ops.lean ====
section
/-!
DEFINITION. The named operations over the state: sparse maps in one canonical form, the register file, the tables, the
byte memories, hidden numbers, the frames held, the time counters' fields, and the power and enable tests of a page.
-/
namespace Sys2Proof.Machine

/-! ### Sparse maps: sorted by key, no entry equal to what an unlisted key reads as -/

/-- The value at key `a`, `d` for an unlisted key. -/
def Smap.find {β : Type} (d : β) : List (Nat × β) → Nat → β
  | [], _ => d
  | (k, v) :: t, a => if a < k then d else if a = k then v else Smap.find d t a

/-- The map with `v` stored at key `a`. -/
def Smap.put {β : Type} (a : Nat) (v : β) : List (Nat × β) → List (Nat × β)
  | [] => [(a, v)]
  | (k, w) :: t =>
    if a < k then (a, v) :: (k, w) :: t else if a = k then (a, v) :: t else (k, w) :: Smap.put a v t

/-- The map without key `a`. -/
def Smap.del {β : Type} (a : Nat) : List (Nat × β) → List (Nat × β)
  | [] => []
  | (k, w) :: t => if a < k then (k, w) :: t else if a = k then t else (k, w) :: Smap.del a t

/-- Reading under the default function `d`. -/
def Smap.get {β : Type} (d : Nat → β) (m : List (Nat × β)) (a : Nat) : β := Smap.find (d a) m a

/-- Writing under the default function `d`: a key that takes its default is dropped, so equal maps are equal lists. -/
def Smap.set {β : Type} [DecidableEq β] (d : Nat → β) (m : List (Nat × β)) (a : Nat) (v : β) : List (Nat × β) :=
  if v = d a then Smap.del a m else Smap.put a v m

/-- The keys rise strictly. -/
abbrev Smap.Sorted {β : Type} (m : List (Nat × β)) : Prop := m.Pairwise fun x y => x.1 < y.1

/-- The canonical form of a sparse map: keys strictly rising, no entry at its default. -/
abbrev Smap.Canonical {β : Type} (d : Nat → β) (m : List (Nat × β)) : Prop :=
  Smap.Sorted m ∧ ∀ e ∈ m, e.2 ≠ d e.1

/-! ### Registers -/

/-- What an unlisted register holds: its reset value. The vector control words of the MSI-X table, bank 60 below, reset to
masked. -/
def regDefault (a : Nat) : W64 :=
  if a / 2 ^ 32 = 60 then (if a % 16 = 12 ∧ a % 2 ^ 32 < 0x400 then 1 else 0) else BitVec.ofNat 64 (resetVal a)

/-- The register stored at key `a`. -/
def State.reg (s : State) (a : Nat) : Nat := (Smap.get regDefault s.regs a).toNat

/-- Store a register. -/
def State.setReg (s : State) (a v : Nat) : State :=
  { s with regs := Smap.set regDefault s.regs a (BitVec.ofNat 64 v) }

/-- A field of a register. -/
def State.rfld (s : State) (a lo w : Nat) : Nat := fld (s.reg a) lo w

/-- One bit of a register. -/
def State.rbit (s : State) (a i : Nat) : Bool := bit (s.reg a) i

/-- Write a field of a register. -/
def State.setRfld (s : State) (a lo w v : Nat) : State := s.setReg a (setFld (s.reg a) lo w v)

/-- Write one bit of a register. -/
def State.setRbit (s : State) (a i : Nat) (b : Bool) : State := s.setReg a (setBit (s.reg a) i b)

/-- Keys of the copies kept beside a register: `bank b a` is copy `b` of register `a` (notes/assumptions/1.md): 1 to 5 the
table-window banks of the requesters (R53), 16 to 20 the high-half latches (R17), 32 the snapshot shadow (R577), 33 the
epoch mark, 40 to 44 the time latches (R61), 48 to 52 the bandwidth latches (R568). -/
def bank (b a : Nat) : Nat := b * 2 ^ 32 + a

/-- A requester's number (R50). -/
def reqNo : Req → Nat
  | .BOOT => 0 | .CC_A => 1 | .CC_B => 2 | .HOST => 3 | .JTAG => 4

/-- Every register and copy of the pages that `f` holds for returns to its reset value. -/
def State.clearPages (s : State) (f : Nat → Bool) : State :=
  { s with regs := s.regs.filter fun e => !(f (e.1 % 2 ^ 32 / 0x10000)) || e.1 / 2 ^ 32 == 60 }

/-! ### Hidden numbers -/

/-- A hidden number, 0 unless set. -/
def State.h (s : State) (k : Hid) : Int := Smap.get (fun _ => 0) s.hid k.code

/-- Set a hidden number. -/
def State.setH (s : State) (k : Hid) (v : Int) : State := { s with hid := Smap.set (fun _ => 0) s.hid k.code v }

/-- A hidden number as a natural number. -/
def State.hn (s : State) (k : Hid) : Nat := (s.h k).toNat

/-- Whether a hidden flag is set. -/
def State.hb (s : State) (k : Hid) : Bool := s.h k != 0

/-- Set a hidden flag. -/
def State.setHb (s : State) (k : Hid) (b : Bool) : State := s.setH k (if b then 1 else 0)

/-! ### Tables -/

/-- The key of entry `i` of table `sel` of page `p`. -/
def tabKey (p sel i : Nat) : Nat := (p * 256 + sel) * 2 ^ 32 + i

/-- The reset value of entry `i` of table `sel` of page `p`: 0 but for the fields whose chapter gives another reset value
(R225, R349, R358, R371, R390, R489). -/
def tabResetAt (p sel i : Nat) : Nat :=
  if p = 0xD4 ∧ sel = 1 then ofWords [0x8880, 0, 0xFFFFF, 0, 0, 0, 0x20080]
  else if p = 0xD0 ∧ sel = 1 then ofWords [0, 0, 0, 0x100000]
  else if p = 0xD1 ∧ 1 ≤ sel ∧ sel ≤ 4 then 0x10000
  else if p = 0xD2 ∧ sel = 1 then ofWords [0, 0, 1, 0, 1]
  else if p = 0x0A ∧ sel = 1 then ofWords [0, 60]
  else if p = 0xC3 ∧ sel = 1 ∧ i = 0 then 0xC0000000
  else 0

/-- The reset value of the table entry at a key. -/
def tabReset (k : Nat) : Nat := tabResetAt (k / 2 ^ 40) (k / 2 ^ 32 % 256) (k % 2 ^ 32)

/-- What an unlisted table entry holds. -/
def tabDefault (k : Nat) : Entry := BitVec.ofNat 512 (tabReset k)

/-- A table entry. -/
def State.tab (s : State) (p sel i : Nat) : Nat := (Smap.get tabDefault s.tabs (tabKey p sel i)).toNat

/-- Store a whole table entry (R56). -/
def State.setTab (s : State) (p sel i v : Nat) : State :=
  { s with tabs := Smap.set tabDefault s.tabs (tabKey p sel i) (BitVec.ofNat 512 v) }

/-- Word `j` of a table entry. -/
def State.tabW (s : State) (p sel i j : Nat) : Nat := word (s.tab p sel i) j

/-- The listed entries of a table, lowest index first. -/
def State.tabList (s : State) (p sel : Nat) : List (Nat × Nat) :=
  (s.tabs.filter fun e => e.1 / 2 ^ 32 == p * 256 + sel).map fun e => (e.1 % 2 ^ 32, e.2.toNat)

/-- Every entry of the tables of the pages that `f` holds for returns to its reset value. -/
def State.clearTabs (s : State) (f : Nat → Bool) : State :=
  { s with tabs := s.tabs.filter fun e => !(f (e.1 / 2 ^ 40)) }

/-! ### Byte memories -/

/-- The byte memories, one space each above the address. -/
inductive Space where
  /-- The flash, 32 MiB (R533). -/
  | flash
  /-- The Pegbox, 512 KiB (R554). -/
  | pegbox
  /-- The Pegbox staging buffers, 4,032 bytes per requester (R556). -/
  | staging
  /-- The SRAM of CC_A, 4 MiB (R458). -/
  | sramA
  /-- The SRAM of CC_B, 4 MiB (R458). -/
  | sramB
  /-- The deep store, as far as it is read and written through windows (R452). -/
  | deep
  /-- The cell store, as far as it is written through windows (R525). -/
  | cell
  /-- The image cache, 1 MiB (R541): the image of engine i, header and payload, from byte 147,456 × i. -/
  | cache
  /-- The memory of engine i, from byte 2^32 × i (R536). -/
  | engine
  deriving DecidableEq, Repr

/-- The number of a space. -/
def Space.no : Space → Nat
  | .flash => 0 | .pegbox => 1 | .staging => 2 | .sramA => 3 | .sramB => 4 | .deep => 5 | .cell => 6 | .cache => 7 | .engine => 8

/-- The address of byte `a` of a space in the one byte memory. -/
def memAddr (sp : Space) (a : Nat) : Nat := sp.no * 2 ^ 48 + a

/-- What a byte that nothing has written reads as: 0xFF in the flash, 0 elsewhere. DESIGN CHOICE
(notes/assumptions/4.md). -/
def memDefault (a : Nat) : Byte := if a / 2 ^ 48 = 0 then 0xFF else 0

/-- One byte of memory. -/
def Memory.read (m : List Host.Cell) (a : Nat) : Byte := Smap.get memDefault m a

/-- Store one byte. -/
def Memory.write (m : List Host.Cell) (a : Nat) (b : Byte) : List Host.Cell := Smap.set memDefault m a b

/-- Store consecutive bytes. -/
def Memory.writeBytes (m : List Host.Cell) (a : Nat) : List Byte → List Host.Cell
  | [] => m
  | b :: bs => Memory.writeBytes (Memory.write m a b) (a + 1) bs

/-- The canonical form of a memory. -/
abbrev Memory.wf (m : List Host.Cell) : Prop := Smap.Canonical memDefault m

/-- Read `n` bytes of a space. -/
def State.rdMem (s : State) (sp : Space) (a n : Nat) : List Byte :=
  (List.range n).map fun i => Memory.read s.mem (memAddr sp (a + i))

/-- Write bytes of a space. -/
def State.wrMem (s : State) (sp : Space) (a : Nat) (bs : List Byte) : State :=
  { s with mem := Memory.writeBytes s.mem (memAddr sp a) bs }

/-- A span of a space returns to what unwritten bytes read as (the erase of a flash block, R543; a lost SRAM). -/
def State.eraseMem (s : State) (sp : Space) (a n : Nat) : State :=
  { s with mem := s.mem.filter fun e => !(memAddr sp a ≤ e.1 && e.1 < memAddr sp (a + n)) }

/-! ### Output and free values -/

/-- Something leaves the device. -/
def State.emit (s : State) (o : Out) : State := { s with out := s.out ++ [o] }

/-- A free value: nothing constrains it; each use takes a new one (notes/assumptions/3.md). -/
def State.free (s : State) : Nat × State :=
  ((Config.freeValue s.freeCtr).toNat, { s with freeCtr := s.freeCtr + 1 })

/-- Fold a state change over a list. -/
def forEach {α : Type} (xs : List α) (s : State) (f : α → State → State) : State := xs.foldl (fun t x => f x t) s

/-! ### Time counters (R58) -/

/-- Units of 2^-48 ns in one nanosecond. -/
def unitsNs : Nat := 2 ^ 48

/-- Units in one second. -/
def unitsSec : Nat := 1000000000 * 2 ^ 48

/-- Where a 48-bit seconds count wraps. -/
def timeWrap : Nat := 2 ^ 48 * unitsSec

/-- Seconds of a time. -/
def secOf (t : Nat) : Nat := t / unitsSec % 2 ^ 48

/-- Nanoseconds field of a time, 0 to 999,999,999. -/
def nsOf (t : Nat) : Nat := t / unitsNs % 1000000000

/-- Visible fraction of a time, in 2^-16 ns. -/
def fracOf (t : Nat) : Nat := t / 2 ^ 32 % 2 ^ 16

/-- Whole nanoseconds of a time since 0 s. -/
def totalNs (t : Nat) : Nat := t / unitsNs

/-- A time in units of 1/16 ns, the resolution of a timestamp (R74). -/
def in16 (t : Nat) : Nat := t / 2 ^ 44

/-- The time base in nanoseconds. -/
def State.nowNs (s : State) : Nat := totalNs s.tb

/-- The Q-die follower in nanoseconds (R22). -/
def State.folNs (s : State) : Nat := totalNs s.fol

/-! ### Flash operations and engines (R460, R543) -/

/-- Whether a flash operation is still to be served: a core's load while it is asked for. -/
def flashDue (s : State) : FlashOp → Bool
  | .core x => s.h (.loadDue (7 + x)) != 0
  | .engine .. | .check .. | .elo .. => true

/-- The flash operation in progress (R543). -/
def flashHead (s : State) : Option FlashOp := (s.flashQ.filter (flashDue s)).head?

/-- Whether engine `i` runs: loaded, and not stopped by the reload in progress (R545). -/
def engUp (s : State) (i : Nat) : Bool :=
  s.h (.eng i) == 1 && !(s.h .stopAt != 0 && decide (s.h .stopAt - 1 ≤ (s.root : Int)) &&
    match flashHead s with
    | some (.engine j _) => j == i
    | _ => false)

/-! ### Power and enables -/

/-- `STATE` of power domain `d` (R44, R621). -/
def State.domState (s : State) (d : Nat) : Nat := s.rfld (Reg.GLB.DOM_STS d) 0 2

/-- Whether power domain `d` is on. -/
def State.domOn (s : State) (d : Nat) : Bool := s.domState d == 1

/-- Whether the power domain of page `p` is on. -/
def State.pageOn (s : State) (p : Nat) : Bool := s.domOn (pageDomain p)

/-- Whether the root PLL is locked. -/
def State.pllOk (s : State) : Bool := s.rbit Reg.GLB.PLL_STS 0

/-- Whether the clocks of page `p` run: its domain is on and, outside AON, the root PLL is locked (R589, R593, R614). -/
def State.clocked (s : State) (p : Nat) : Bool := s.pageOn p && (pageDomain p == 1 || s.pllOk)

/-- Whether the block of page `p` performs its function: clocked, not in soft reset, `EN` = 1 (R43, R45). -/
def State.live (s : State) (p : Nat) : Bool :=
  s.clocked p && s.rbit (Reg.BLK_CTL p) 0 && !s.rbit (Reg.BLK_CTL p) 1

/-- Whether the time base runs: T-clock needs the root PLL and the TIME domain (R614). -/
def State.timeRuns (s : State) : Bool := s.pllOk && s.domOn 4

/-- An internal event is applied only while its block performs its function. -/
def State.ifLive (s : State) (p : Nat) (f : State → State) : State := if s.live p then f s else s

/-- An internal event is applied only under a condition. -/
def State.when (s : State) (c : Bool) (f : State → State) : State := if c then f s else s

/-- Every command of this model completes: its effect as a next state. -/
def done (s : State) : Host.Outcome State Fault Refusal := .next s

end Sys2Proof.Machine
end

