-- ==== Sys2Proof/Machine/Flags.lean ====
section
/-!
DEFINITION. Counters, events, errors, interrupts and fault records: what a block does when it counts (R17, R562, R577),
raises an event (R46 to R48, R564), reports an error (R50 to R52), rings the INTC (R472 to R481, R504) or records a fault
(R587 to R592).
-/
namespace Sys2Proof.Machine

/-! ### Snapshot shadows (R577) -/

/-- The first update of a counter in the new epoch copies its value to its shadow. -/
def snapTouch (a : Nat) (s : State) : State :=
  if s.hb .snapOpen && s.reg (bank 33 a) == 0 then
    (s.setReg (bank 32 a) (s.reg a)).setReg (bank 33 a) 1
  else s

/-! ### Programmable counters (R561 to R563) -/

/-- The value a sampling counter takes at a wrap (R561). -/
def perfReload (ctl : Nat) : Nat := if fld ctl 24 5 = 0 then 0 else 2 ^ 32 - 2 ^ fld ctl 24 5

/-- One counter of the chain adds its amount: its new value, its carries, and how often it raises PERF_OVF. A sampling counter
that is not the low half of a chain is loaded at its wrap; `one` tells that the amount comes as increments of 1. -/
def perfStep (one : Bool) (ctl cnt amount : Nat) : Nat × Nat × Nat :=
  let t := cnt + amount
  let c := t / 2 ^ 32
  if c ≠ 0 ∧ bit ctl 29 ∧ ¬ bit ctl 30 then
    let period := 2 ^ 32 - perfReload ctl
    if one then (perfReload ctl + (t - 2 ^ 32) % period, 1 + (t - 2 ^ 32) / period, 1 + (t - 2 ^ 32) / period)
    else (perfReload ctl, c, c)
  else (t % 2 ^ 32, c, 0)

/-- The counters `i ..` of page `p` add `amount` of event `ev`; `carry` holds the carries of counter i − 1 where it is
chained. Answers how often the counters raise PERF_OVF. -/
def perfAddFrom (p ev amount : Nat) : Nat → Nat → Option Nat → State → Nat × State
  | 0, _, _, s => (0, s)
  | n + 1, i, carry, s =>
    let ctl := s.reg (Reg.PERF_CTL p i)
    let add := match carry with
      | some c => c
      | none => if bit ctl 31 && fld ctl 0 12 == ev then amount else 0
    let next := fun (c : Nat) => if bit ctl 30 then some c else none
    if add = 0 then perfAddFrom p ev amount n (i + 1) (next 0) s else
    let (v, c, ovf) := perfStep (carry.isSome || decide (ev < 64)) ctl (s.reg (Reg.PERF_CNT p i)) add
    let s := (snapTouch (Reg.PERF_CNT p i) s).setReg (Reg.PERF_CNT p i) v
    let (k, s) := perfAddFrom p ev amount n (i + 1) (next c) s
    (k + ovf, s)

/-- Whether any programmable counter of page `p` is enabled or chained. -/
def perfUsed (s : State) (p : Nat) : Bool := (List.range 8).any fun i => s.reg (Reg.PERF_CTL p i) != 0

/-- All eight counters of page `p` add `amount` of event `ev`. -/
def perfAdd (p ev amount : Nat) (s : State) : Nat × State :=
  if perfUsed s p then perfAddFrom p ev amount 8 0 none s else (0, s)

/-! ### The interrupt controller (R472 to R481) -/

/-- The INTC page. -/
def intcPage : Nat := 2

/-- Whether source `src` exists (0x001 to 0xFFE, R472). -/
def srcOk (src : Nat) : Bool := 0 < src && src < 0xFFF

/-- The target of a source (R474). -/
def srcTarget (s : State) (src : Nat) : Nat := s.rfld (Reg.INTC.SRC_CFG src) 30 2

/-- The priority of a source (R474). -/
def srcPrio (s : State) (src : Nat) : Nat := s.rfld (Reg.INTC.SRC_CFG src) 24 4

/-- The stack of a target, top first (R474). -/
def stackOf (s : State) (t : Nat) : List (Nat × Nat × Nat) := s.intStacks.filter fun e => e.1 == t

/-- The running priority of a target (R474). -/
def runPrio (s : State) (t : Nat) : Nat :=
  match stackOf s t with
  | [] => 0
  | e :: _ => e.2.2

/-- Whether a target is an idle core (R480): it waits for an interrupt and its stack is empty; never for HOST. -/
def tgtIdle (s : State) (t : Nat) : Bool := t != 3 && s.hb (.coreIdle t) && (stackOf s t).isEmpty

/-- Pending sources, lowest number first. -/
def pendingSrcs (s : State) : List Nat :=
  (s.regs.filter fun e => Reg.INTC.PEND 0 ≤ e.1 && e.1 < Reg.INTC.PEND 128).flatMap fun e =>
    (bitsOf e.2.toNat 32).map ((e.1 - Reg.INTC.PEND 0) / 4 * 32 + ·)

/-- Whether a source is unmasked and its priority exceeds its target's running priority. -/
def srcEligible (s : State) (src : Nat) : Bool :=
  !s.rbit (Reg.INTC.MASK (src / 32)) (src % 32) && runPrio s (srcTarget s src) < srcPrio s src

/-- Whether a source is held back under moderation (R480): its group has a hold-off that runs for the target, the source
was not presented before the hold-off started, and the target is no idle core. -/
def srcHeld (s : State) (src : Nat) : Bool :=
  s.reg (Reg.INTC.HOLDOFF (src / 32)) != 0 && s.hb (.holdRun (src / 32) (srcTarget s src)) &&
    !s.hb (.presented src) && !tgtIdle s (srcTarget s src)

/-- The sources presentable to target `t` (R475), lowest number first. -/
def presentable (s : State) (t : Nat) : List Nat :=
  if s.live intcPage then
    (pendingSrcs s).filter fun src => srcTarget s src == t && srcEligible s src && !srcHeld s src
  else []

/-- Whether messages on vector `v` are held back (R504): the vector's mask bit, the Function Mask, no Bus Master Enable,
or the freeze. -/
def msixHeld (s : State) (v : Nat) : Bool :=
  s.rbit (bank 60 (16 * v + 12)) 0 || s.hb .msixMask || !s.hb .bme || s.rbit Reg.HOST.CONTAIN 31

/-- A source of HOST becomes presentable with MSI-X enabled: its message is sent, or held back with its vector's PBA bit
set (R481, R504). -/
def msixPresent (src : Nat) (s : State) : State :=
  if s.hb (.msiSent src) then s else
  let v := s.rfld (Reg.INTC.SRC_CFG src) 16 6
  if msixHeld s v then (s.setH (.msiSent src) 2).setRbit (bank 60 (0x800 + 4 * (v / 32))) (v % 32) true
  else (s.setH (.msiSent src) 1).emit (.msix v)

/-- Whether the host function can send messages: its link is up and it is not held in a reset (R519, R523). -/
def hostReach (s : State) : Bool := s.hb .pciUp && !s.hb .flr && !s.hb .perst

/-- INTA follows the presentable sources of HOST while MSI-X is disabled (R481, R505). -/
def intaUpdate (s : State) : State :=
  let want := hostReach s && !s.hb .msixEn && !s.hb .intDis && !(presentable s 3).isEmpty
  if want == s.hb .intaOn then s else (s.setHb .intaOn want).emit (.inta want)

/-- A presentable source of a moderated group is presented, and the group's hold-off restarts for its target (R480). -/
def markPresented (src : Nat) (s : State) : State :=
  if s.reg (Reg.INTC.HOLDOFF (src / 32)) == 0 || s.hb (.presented src) then s
  else ((s.setHb (.presented src) true).setHb (.holdRun (src / 32) (srcTarget s src)) true).setH
    (.holdAt (src / 32) (srcTarget s src)) (s.root : Nat)

/-- Presentation is evaluated again after a change in the INTC (R475, R480, R481). -/
def intcUpdate (s : State) : State :=
  let s := forEach [0, 1, 2, 3] s fun t s => forEach (presentable s t) s markPresented
  let s := if s.hb .msixEn then forEach (presentable s 3) s msixPresent else s
  intaUpdate s

/-- Hardware sets the pending bit of a source (R472, R473). -/
def setPend (src : Nat) (s : State) : State :=
  let s := s.setRbit (Reg.INTC.PEND (src / 32)) (src % 32) true
  s.setH (.intcUnread (src / 32)) (setBit (s.hn (.intcUnread (src / 32))) (src % 32) true)

/-- Capture and count an error on page `p` (R50): `arg` and `info` are taken if no capture is held. -/
def errCapture (p code reqn arg info : Nat) (s : State) : State :=
  let s := s.setReg (Reg.ERR_CNT p) (min (s.reg (Reg.ERR_CNT p) + 1) 0xFFFFFFFF)
  if s.rbit (Reg.ERR_FIRST p) 31 then s
  else
    (s.setReg (Reg.ERR_FIRST p) (2 ^ 31 + code % 128 * 2 ^ 24 + reqn % 16 * 2 ^ 20 + arg % 2 ^ 20)).setReg
      (Reg.ERR_INFO p) (info % 2 ^ 32)

/-- A block rings source `src` at the INTC (R48, R472). A disabled INTC discards the notification (R45); that the capture holds
the doorbell's page offset, 0x400, and the source is the model's choice (notes/assumptions/94.md). -/
def ring (src : Nat) (s : State) : State :=
  if !s.clocked intcPage then s
  else if !s.live intcPage then errCapture intcPage 0x08 5 0x400 src s
  else if srcOk src then intcUpdate (setPend src s) else s

/-! ### Events (R46 to R48, R564) -/

/-- The unmasked pending events of page `p`. -/
def evtUnmasked (s : State) (p : Nat) : Nat :=
  s.reg (Reg.EVT_PEND p) &&& ((s.reg (Reg.EVT_MASK p)) ^^^ 0xFFFFFFFF)

/-- Hardware sets bit `e` of `EVT_PEND` (R46): the Drone counter counts it (R564), the unread mark of R47 is set, and the
page rings its source when its unmasked events become non-zero (R48). -/
def evtSet (p e : Nat) (s : State) : State :=
  let was := evtUnmasked s p
  let s := s.setRbit (Reg.EVT_PEND p) e true
  let s := s.setH (.evtUnread p) (setBit (s.hn (.evtUnread p)) e true)
  let s := if s.rbit (Reg.BLK_CTL p) 3 then s.setTab p 0xFF e ((s.tab p 0xFF e + 1) % 2 ^ 64) else s
  if was = 0 ∧ evtUnmasked s p ≠ 0 then ring (s.reg (Reg.EVT_SRC p)) s else s

/-- Event `e` of page `p` is set `n` times at once, `n` at least 1: its Drone counter counts each (R564). -/
def evtSets (p e n : Nat) (s : State) : State :=
  let s := evtSet p e s
  if s.rbit (Reg.BLK_CTL p) 3 then s.setTab p 0xFF e ((s.tab p 0xFF e + (n - 1)) % 2 ^ 64) else s

/-- PERF_OVF of `n` counters, and the counts of event 32 that it causes (R562, R563). -/
def perfOvf (p : Nat) : Nat → Nat → State → State
  | _, 0, s => s
  | 0, n + 1, s => evtSets p 31 (n + 1) s
  | fuel + 1, n + 1, s =>
    let s := evtSets p 31 (n + 1) s
    let (k, s) := perfAdd p 32 (n + 1) s
    perfOvf p fuel k s

/-- Whether the counters of page `p` count: they hold their values while its block performs no function; the BPM alone answers
requests and checks frees while its `EN` is 0 (R45). -/
def counts (s : State) (p : Nat) : Bool := s.live p || (p == 11 && s.clocked p)

/-- Page `p` counts `amount` of event `ev` in its programmable counters (R562). -/
def perfCount (p ev amount : Nat) (s : State) : State :=
  if counts s p && perfUsed s p then
    let (k, s) := perfAdd p ev amount s
    perfOvf p 8 k s
  else s

/-- Event `e` occurs on page `p`: a page whose domain is off raises nothing. -/
def raise (p e : Nat) (s : State) : State :=
  if s.pageOn p then perfCount p (e + 1) 1 (evtSet p e s) else s

/-- The first occurrence after the bit was last cleared raises the event. -/
def raiseFirst (p e : Nat) (s : State) : State := if s.rbit (Reg.EVT_PEND p) e then s else raise p e s

/-- The 64-bit counter at address `a` adds `amount` (R17, R562, R577) while the counters of its page count (R45, R607). -/
def bumpBy (a amount : Nat) (s : State) : State :=
  if amount = 0 || !counts s (a / 0x10000) then s else
  let s := (snapTouch a s).setReg a ((s.reg a + amount) % 2 ^ 64)
  perfCount (a / 0x10000) (64 + (a % 0x10000 - 0x8000) / 8) amount s

/-- The 64-bit counter at address `a` counts one. -/
def bump (a : Nat) (s : State) : State := bumpBy a 1 s

/-! ### The FAULT page (R583 to R592) -/

/-- The FAULT page. -/
def faultPage : Nat := 7

/-- Whether a fault class is logged (R587). -/
def logged (c : Nat) : Bool := c != 1 && c != 4 && c != 7

/-- Open faults of classes 1 to 14. -/
def openCovered (s : State) : Nat := popCount (fld (s.reg Reg.FAULT.OPEN) 1 14) 14

/-- The channels of the deep-store population (R426): `POP_CFG.CHANNELS`. -/
def popChannels (s : State) : List Nat := List.range (fld (s.reg (Reg.DSC.POP_CFG 0)) 0 5)

/-- The conditions of the commitment that fail, `STS.WHY` (R584). -/
def coverWhy (s : State) : Nat :=
  ofB (s.reg Reg.FAULT.MON_EN != 7) +
  2 * ofB ((popChannels s).any fun c =>
    !s.rbit (Reg.DSC.PATROL_CFG c) 31 || 12 < s.rfld (Reg.DSC.PATROL_CFG c) 0 4 ||
      !s.rbit (Reg.DSC.ECC_CFG c) 0) +
  4 * ofB (s.hb .tjBad) + 8 * ofB (s.hb .vinBad) + 16 * ofB (s.hb .vauxBad) + 32 * ofB (decide (2 ≤ openCovered s))

/-- `FAULT.STS` follows the conditions of R584 and the pins of R592; a change of COVERED from 1 to 0 raises UNCOVERED. -/
def coverUpdate (s : State) : State :=
  let why := coverWhy s
  let was := s.rbit Reg.FAULT.STS 31
  let opn := s.reg Reg.FAULT.OPEN
  let s := s.setReg Reg.FAULT.STS
    (2 ^ 31 * ofB (why == 0) + 2 ^ 30 * ofB (opn &&& s.reg Reg.FAULT.PIN_FAULT != 0) +
      2 ^ 29 * ofB (opn &&& s.reg Reg.FAULT.PIN_ALARM != 0) + 2 ^ 16 * why + openCovered s)
  if was && why != 0 then raise faultPage 18 s else s

/-- The time base as a LOG entry holds it, 0 while the root PLL is unlocked (R596). -/
def logTime (s : State) : Nat × Nat := if s.pllOk then (nsOf s.tb, secOf s.tb % 2 ^ 32) else (0, 0)

/-- Write a LOG entry and, if free, `FIRST` (R587, R591, R596). -/
def faultLog (c dom page arg : Nat) (s : State) : State :=
  let (ns, sec) := logTime s
  let i := s.reg Reg.FAULT.LOG_WR
  let w0 := 2 ^ 31 + c * 2 ^ 24 + dom * 2 ^ 16 + page % 2 ^ 13
  let s := if s.hb (.logUnread i) then bump Reg.FAULT.LOG_LOST s else s
  let s := (s.setTab faultPage 1 i (ofWords [w0, arg, ns, sec])).setHb (.logUnread i) true
  let s := s.setReg Reg.FAULT.LOG_WR ((i + 1) % 64)
  if s.rbit Reg.FAULT.FIRST 31 then s
  else ((s.setReg Reg.FAULT.FIRST w0).setReg Reg.FAULT.FIRST_NS ns).setReg Reg.FAULT.FIRST_SEC sec

/-- Record a fault of class `c` with its domain, page and argument (R587); a disabled FAULT page records none (R45). -/
def faultRecordAt (c dom page arg : Nat) (s : State) : State :=
  if !s.live faultPage then s else
  let s := bump (Reg.FAULT.CLASS_CNT c) s
  if logged c then
    let s := faultLog c dom page arg s
    let s := s.setRbit Reg.FAULT.OPEN c true
    coverUpdate (raise faultPage (c - 1) s)
  else s

/-- Record a fault of class `c` reported by page `page` (R587). -/
def faultRecord (c page arg : Nat) (s : State) : State := faultRecordAt c (pageDomain page) page arg s

/-- Event `e` of page `p`, which the fault table names as the source of class `c` (R588). -/
def raiseFault (p e c arg : Nat) (s : State) : State :=
  if s.pageOn p then faultRecord c p arg (raise p e s) else s

/-! ### Errors (R50 to R52) -/

/-- An error of `code` on page `p` by requester number `reqn` (5 an internal agent): counted, captured if it is the first,
and recorded as SRAM_UE if the capture has code 0x07 (R588 class 15). -/
def errBy (p code reqn arg info : Nat) (s : State) : State :=
  let first := !s.rbit (Reg.ERR_FIRST p) 31
  let s := errCapture p code reqn arg info s
  if code = 7 ∧ first then faultRecord 15 p info s else s

/-- An error of an access by requester `r` to address `a`. -/
def errReq (p code : Nat) (r : Req) (a info : Nat) (s : State) : State := errBy p code (reqNo r) (a % 0x10000) info s

/-- An error of an internal agent; that its capture has ARG 0 is the model's choice (notes/assumptions/94.md). -/
def errInt (p code info : Nat) (s : State) : State := errBy p code 5 0 info s

/-- A discard or refusal because the page's `EN` is 0 (R45); that `ERR_INFO` holds 0 is the model's choice
(notes/assumptions/94.md). -/
def errDisabled (p : Nat) (s : State) : State := errInt p 0x08 0 s

/-! ### Flow statistics (R569 to R573, R578) -/

/-- The SNAP page; its table 1 holds the totals of a flow pair, 2 its values at the last cut, 3 its front counters, 4 the
mark that it has passed into the new epoch. -/
def snapPage : Nat := 6

/-- The set of a flow pair, in the order of R569; 7 for a reserved pair. -/
def fsSet (pair : Nat) : Nat :=
  if pair < 1572864 then 0 else if pair < 2621440 then 1 else if pair < 2883584 then 2 else if pair < 3145728 then 3
  else if pair < 3276800 then 4 else if pair < 3407872 then 5 else if pair < 3670016 then 6 else 7

/-- Totals plus front counters of a pair: words 0 and 1 the frames, 2 and 3 the bytes. -/
def fsSum (s : State) (pair : Nat) : Nat :=
  let t := s.tab snapPage 1 pair
  let f := s.tab snapPage 3 pair
  (fld t 0 64 + word f 0) % 2 ^ 64 + 2 ^ 64 * ((fld t 64 64 + word f 1) % 2 ^ 64)

/-- The first update of a pair in the new epoch keeps its values as they stood at the cut (R578). -/
def fsTouch (pair : Nat) (s : State) : State :=
  if s.rbit Reg.SNAP.STS 30 && s.tab snapPage 4 pair == 0 then
    (s.setTab snapPage 2 pair (fsSum s pair)).setTab snapPage 4 pair 1
  else s

/-- Whether flow pair `pair` counts: its set is enabled and the statistics are on (R570). -/
def fsOn (s : State) (pair : Nat) : Bool :=
  s.live snapPage && s.rbit Reg.SNAP.FS_CFG 31 && fsSet pair != 7 && s.rbit Reg.SNAP.FS_CFG (fsSet pair)

/-- A front counter adds `n`, holding 0xFFFFFFFF at saturation: the new value, and whether the increment was lost (R572). -/
def fsAdd (v n : Nat) : Nat × Bool := if v + n < 2 ^ 32 then (v + n, false) else (0xFFFFFFFF, decide (v + n ≠ 0xFFFFFFFF))

/-- Flow pair `pair` counts `frames` frames and `bytes` bytes (R569, R572): a front counter that reaches 2^31 queues the pair for a
fold, and a lost increment is counted in FS_OVF. -/
def fsAddTo (pair frames bytes : Nat) (s : State) : State :=
  if !fsOn s pair then s else
  let s := fsTouch pair s
  let f := s.tab snapPage 3 pair
  let (a, la) := fsAdd (word f 0) frames
  let (b, lb) := fsAdd (word f 1) bytes
  let s := s.setTab snapPage 3 pair (ofWords [a, b])
  let s := if la || lb then raiseFirst snapPage 3 (bumpBy Reg.SNAP.FS_OVF (ofB la + ofB lb) s) else s
  if (2 ^ 31 ≤ a ∨ 2 ^ 31 ≤ b) ∧ s.hb (.foldQueued pair) = false then
    (s.setHb (.foldQueued pair) true).setRfld Reg.SNAP.FS_STS 0 23 (s.rfld Reg.SNAP.FS_STS 0 23 + 1)
  else s

/-- Flow pair `pair` counts a frame of `bytes` bytes (R569). -/
def fsCount (pair bytes : Nat) (s : State) : State := fsAddTo pair 1 bytes s

/-- Flow pair `pair` counts `bytes` further bytes of a frame already counted (R569). -/
def fsBytes (pair bytes : Nat) (s : State) : State := fsAddTo pair 0 bytes s

end Sys2Proof.Machine
end

