-- ==== Sys2Proof/Machine/Gate.lean ====
section
/-!
DEFINITION. What stands before every register access: the write fence of the control cores (R463, spec/12_control_complex.md),
unassigned pages and unoccupied addresses (R37), pages that are off or in soft reset (R38, R43), locked registers (R18,
R52).
-/
namespace Sys2Proof.Machine

/-- The PAIR page. -/
def pairPage : Nat := 9

/-- The control core that a requester is. -/
def coreOf : Req → Option Nat
  | .CC_A => some 0 | .CC_B => some 1 | _ => none

/-- `CORE_STS[x].STATE`. -/
def coreState (s : State) (x : Nat) : Nat := s.rfld (Reg.PAIR.CORE_STS x) 0 3

/-- Whether requester `r` is a control core that is not ACTIVE (R462, R463). -/
def standbyCore (s : State) (r : Req) : Bool := (coreOf r).any fun x => coreState s x != 4

/-- Whether requester `r` is a control core in OFF or FAILED, which issues no register access (R462, R465, R467). -/
def haltedCore (s : State) (r : Req) : Bool := (coreOf r).any fun x => coreState s x == 0 || coreState s x == 5

/-- Whether writes of requester `r` may still be in the register fabric (R468): those of the core that a handover fenced, until
1 µs after the first write of the new core. -/
def inFabric (s : State) (r : Req) : Bool :=
  haltedCore s r && (coreOf r).any fun x =>
    s.h .hoFrom == (x + 1 : Nat) && (s.h .hoTo != 0 || s.h .hoFirst != 0 || decide ((s.root : Int) < s.h .fabricUntil))

/-- The interrupt target of a requester (R474). -/
def reqTarget : Req → Option Nat
  | .BOOT => some 0 | .CC_A => some 1 | .CC_B => some 2 | .HOST => some 3 | .JTAG => none

/-- Writes that the fence lets a standby core make (R463): its `WDT_KICK`, and the `CLAIM`, `EOI` and `SETPRI` registers of
its own target. -/
def fenceExempt (r : Req) (a : Nat) : Bool :=
  a == Reg.PAIR.WDT_KICK ||
    match reqTarget r with
    | some t => a == Reg.INTC.CLAIM t || a == Reg.INTC.EOI t || a == Reg.INTC.SETPRI t
    | none => false

/-- Whether the fence discards a write of requester `r` to address `a` (R463, R465). Whether a write that may still be in the
register fabric takes effect (R468) is a free value (notes/assumptions/76.md). -/
def fenced (r : Req) (a : Nat) (s : State) : Bool × State :=
  if inFabric s r then
    let (v, s) := s.free
    (v % 2 == 0, s)
  else (standbyCore s r && (haltedCore s r || !fenceExempt r a), s)

/-- Whether a shadow lies at address `a` (R574), which is 32-bit aligned (R15). -/
def isShadow (a : Nat) : Bool :=
  let o := a % 0x10000
  let p := a / 0x10000 * 0x10000
  if a % 4 ≠ 0 then false
  else if o / 4 * 4 = 0xFF00 ∨ o / 4 * 4 = 0xFF04 ∨ (0xFF10 ≤ o ∧ o < 0xFF30) then (pageOf (a / 0x10000)).isSome
  else if 0xC000 ≤ o ∧ o ≤ 0xFEFF then
    isCounter (p + (o - 0x4000) / 8 * 8)
  else false

/-- Whether some register occupies address `a` (R37). -/
def occupied (a : Nat) : Bool := (lookupReg a).isSome || isShadow a

/-- The core that took over makes its first write (R468, R648): writes in the register fabric take effect for 1 µs more. -/
def firstWrite (r : Req) (s : State) : State :=
  let x := s.h .hoFirst
  if (r = .CC_A ∧ x = 1) ∨ (r = .CC_B ∧ x = 2) then (s.setH .hoFirst 0).setH .fabricUntil (s.root + 7200 : Nat) else s

/-- The registers that stay readable while their page is off (R38, R287). -/
def offReadable (a : Nat) : Bool :=
  let o := a % 0x10000
  o == 0 || o == 4 || o == 8 || o == 0x14 ||
    [Reg.CAPO.STS, Reg.CAPO.IN_FLIGHT 0, Reg.CAPO.IN_FLIGHT 1, Reg.CAPO.DRAIN_CNT 0, Reg.CAPO.DRAIN_CNT 1].contains a

/-- A register write of requester `r` to address `a`: its effect `f` unless the device is held in reset (R617), or the fence,
the power state, a soft reset or an empty address turns it away (R37, R38, R43, R463). A read-only register that the AON
domain serves for a page that is off ignores the write, as it does while the page is on. -/
def gateWrite (r : Req) (a : Nat) (f : State → State) (s : State) : State :=
  let p := a / 0x10000
  if s.h .rstHold ≠ 0 then s else
  let (stop, s) := fenced r a (firstWrite r s)
  if stop then
    if s.pageOn pairPage then errReq pairPage 0x10 r a a (bump Reg.PAIR.STBY_WR_DISC s) else s
  else if (pageOf p).isNone then errReq 0 0x06 r a a s
  else if !s.pageOn p then if offReadable a then s else errReq 0 0x05 r a a s
  else if s.rbit (Reg.BLK_CTL p) 1 then errReq 0 0x05 r a a s
  else if !occupied a then errReq p 0x06 r a a s
  else f s

/-- The registers that stay readable while their page is in soft reset (R43). -/
def srstReadable (a : Nat) : Bool :=
  let o := a % 0x10000
  o == 0 || o == 4 || o == 8 || o == 0xC || o == 0x10 || o == 0x14

/-- A register read of requester `r` at address `a`: the value and effect of `f` unless the access is turned away, which
returns 0 (R37, R38, R43). -/
def gateRead (r : Req) (a : Nat) (f : State → Nat × State) (s : State) : Nat × State :=
  let p := a / 0x10000
  if s.h .rstHold ≠ 0 then (0, s)
  else if (pageOf p).isNone then (0, errReq 0 0x06 r a a s)
  else if !s.pageOn p && !offReadable a then (0, errReq 0 0x05 r a a s)
  else if s.rbit (Reg.BLK_CTL p) 1 && !srstReadable a then (0, errReq 0 0x05 r a a s)
  else if !occupied a then (0, errReq p 0x06 r a a s)
  else f s

/-- A read of requester `r`: its value leaves for the requester. A core in OFF or FAILED issues none (R465, R467). -/
def readFor (r : Req) (a : Nat) (f : State → Nat × State) (s : State) : State :=
  if haltedCore s r then s else
  let (v, s) := gateRead r a f s
  s.emit (.readData r a v)

/-- A write to a locked register: its effect `f`, or error LOCKED_WR once the page is locked (R18, R52); that `ERR_INFO` then holds
the value written is the model's choice (notes/assumptions/94.md). -/
def ifUnlocked (r : Req) (a : Nat) (v : Nat) (f : State → State) (s : State) : State :=
  let p := a / 0x10000
  if s.rbit (Reg.BLK_CTL p) 2 then errReq p 0x01 r a v s else f s

/-- A plain store into the bits of a register that software writes (R18, RW). -/
def storeReg (a v : Nat) (s : State) : State :=
  match lookupReg a with
  | some f => s.setReg a (mergeMask (s.reg a) v f.row.mask)
  | none => s

end Sys2Proof.Machine
end

