-- ==== Sys2Proof/Machine/Image.lean ====
section
/-!
DEFINITION. What the boot core reads and checks: the flash slots and images (R532 to R540, spec/14_firmware_trust.md), the
Pegbox areas (R554 to R557) and the measurement registers (R551).
-/
namespace Sys2Proof.Machine

def pegPage : Nat := 3
def secPage : Nat := 4

/-! ### The Pegbox (R554, R555) -/

/-- The bytes of a Pegbox page. -/
def pegBytes (s : State) (pg : Nat) : List Byte := s.rdMem .pegbox (4096 * pg) 4096

/-- LEN of a record. -/
def recLen (bs : List Byte) : Nat := leNat ((bs.drop 12).take 4)

/-- GEN of a record. -/
def recGen (bs : List Byte) : Nat := leNat ((bs.drop 8).take 4)

/-- The CRC of a record, over its header with the CRC field taken as 0, and the payload. -/
def recCrc (bs : List Byte) : Nat := fcsOf (overwrite (bs.take 64) 16 [0, 0, 0, 0] ++ (bs.drop 64).take (recLen bs))

/-- Whether a page holds a valid copy of area `a`: MAGIC, AREA and CRC. -/
def recValid (a : Nat) (bs : List Byte) : Bool :=
  beAt bs 0 4 == 0x50454742 && byteAt bs 4 == a && recLen bs ≤ 4032 && leNat ((bs.drop 16).take 4) == recCrc bs

/-- The page of the current copy of area `a` (R555): none when the area is empty. -/
def pegCurrent (s : State) (a : Nat) : Option Nat :=
  let x := pegBytes s (2 * a)
  let y := pegBytes s (2 * a + 1)
  match recValid a x, recValid a y with
  | false, false => none
  | true, false => some (2 * a)
  | false, true => some (2 * a + 1)
  | true, true =>
    let d := (recGen y + 2 ^ 32 - recGen x) % 2 ^ 32
    some (if 1 ≤ d ∧ d ≤ 2 ^ 31 then 2 * a + 1 else 2 * a)

/-- The payload of the current copy of area `a`; empty for an empty area. -/
def pegData (s : State) (a : Nat) : List Byte :=
  match pegCurrent s a with
  | none => []
  | some pg => let bs := pegBytes s pg; (bs.drop 64).take (recLen bs)

/-- Copies of area `a` that are valid. -/
def pegCopies (s : State) (a : Nat) : Nat := ofB (recValid a (pegBytes s (2 * a))) + ofB (recValid a (pegBytes s (2 * a + 1)))

/-- `REC_STS` and `REC_GEN` of area `a` follow its pages (R559). -/
def pegStatus (a : Nat) (s : State) : State :=
  match pegCurrent s a with
  | none => (s.setReg (Reg.PEG.REC_STS a) (2 ^ 28)).setReg (Reg.PEG.REC_GEN a) 0
  | some pg =>
    let bs := pegBytes s pg
    (s.setReg (Reg.PEG.REC_STS a)
      (2 ^ 31 + pegCopies s a * 2 ^ 29 + pg % 2 * 2 ^ 24 + byteAt bs 5 * 2 ^ 12 + recLen bs)).setReg (Reg.PEG.REC_GEN a) (recGen bs)

/-- The record of a payload. -/
def pegRecord (a fmt gen : Nat) (data : List Byte) : List Byte :=
  let head := beBytes 4 0x50454742 ++ beBytes 1 a ++ beBytes 1 fmt ++ beBytes 2 0 ++ leBytes 4 gen ++ leBytes 4 data.length ++
    List.replicate 48 0
  let crc := fcsOf (head ++ data)
  overwrite head 16 (leBytes 4 crc) ++ data ++ List.replicate (4032 - data.length) 0

/-- A store completes (R556): the page that is not current holds the new record and becomes current. -/
def pegCommit (a fmt : Nat) (data : List Byte) (s : State) : State :=
  let pg := match pegCurrent s a with
    | some p => 4 * a + 1 - p
    | none => 2 * a
  let gen := match pegCurrent s a with
    | some p => (recGen (pegBytes s p) + 1) % 2 ^ 32
    | none => 1
  let s := s.wrMem .pegbox (4096 * pg) (pegRecord a fmt gen data)
  pegStatus a (raise pegPage 0 (bump Reg.PEG.STORES s))

/-- The boot options (R557), byte by byte; an empty area gives NEWEST, isolation off, IDs and permissions 0. -/
def bootOpt (s : State) (i : Nat) : Nat :=
  if (pegCurrent s 0).isNone then (if i = 0 then 2 else 0) else byteAt (pegData s 0) i

/-- The anti-rollback counter of an image type (R539, R557). -/
def rollback (s : State) (typ : Nat) : Nat := byteAt (pegData s 3) typ

/-! ### Slots and images (R533 to R537) -/

/-- Flash bytes of a slot: those of its 16 MiB (R533). -/
def slotBytes (s : State) (slot off n : Nat) : List Byte := s.rdMem .flash (slot * 2 ^ 24 + off) (min n (2 ^ 24 - off))

/-- Whether a slot table passes MAGIC and CRC (R534, R540); a flash device without the features of R532 holds no valid slot. -/
def tableOk (s : State) (slot : Nat) : Bool :=
  let t := slotBytes s slot 0 80
  !s.hb .flashBad && beAt t 0 4 == 0x484B534C && beAt t 12 4 == fcsOf (overwrite t 12 [0, 0, 0, 0])

/-- SEQ of a slot table. -/
def slotSeq (s : State) (slot : Nat) : Nat := beAt (slotBytes s slot 0 80) 4 4

/-- TYPE and header offset of the images that a slot table lists (R534). -/
def slotImages (s : State) (slot : Nat) : List (Nat × Nat) :=
  let t := slotBytes s slot 0 80
  (List.range (min 8 (byteAt t 8))).map fun j => (byteAt t (16 + 8 * j), beAt t (20 + 8 * j) 4)

/-- The image types (R535): CONTROL, the six micro-engines, the SerDes firmware. -/
def imageTypes : List Nat := 0x01 :: (List.range 7).map (0x10 + ·)

/-- Whether a slot lists exactly one image of each type (R535). -/
def slotComplete (s : State) (slot : Nat) : Bool :=
  let ts := (slotImages s slot).map (·.1)
  ts.length == 8 && imageTypes.all fun t => ts.contains t

/-- The header of the image at an offset of a slot. -/
def imageHeader (s : State) (slot off : Nat) : List Byte := slotBytes s slot off 512

/-- PAYLOAD_LEN and LOAD_OFF of a header. -/
def payloadLen (h : List Byte) : Nat := beAt h 20 4
def loadOff (h : List Byte) : Nat := beAt h 24 4

/-- `SEC.DIE_ID` in header order, byte 40 first (R536, R558). -/
def dieIdBytes : List Byte := beBytes 16 Config.dieId.toNat

/-- Whether LAYOUT of R537 fails. -/
def layoutBad (typ : Nat) (h : List Byte) : Bool :=
  let len := payloadLen h
  if typ = 0x01 then 2 ^ 20 < len || loadOff h < 0x300000 || 0x400000 < loadOff h + len
  else 2 ^ 17 < len || (Config.engineMemory (typ - 0x10)).toNat < len

/-- The check of the image of type `typ` with header `h` in a slot (R537): 0 when passed, else the first code that fails.
`active` is the STATE_VER of the active core's image, for a core loaded beside it (R544). -/
def checkHeader (s : State) (slot off typ : Nat) (active : Option Nat) : Nat :=
  let h := imageHeader s slot off
  let zero := fun (i n : Nat) => beAt h i n == 0
  if beAt h 0 4 ≠ 0x484B4657 ∨ beAt h 4 2 ≠ 1 ∨ beAt h 6 2 ≠ 512 ∨ byteAt h 8 ≠ typ ∨ 2 ≤ byteAt h 9 ∨ !zero 104 312 then 2
  else if beAt h 10 2 ≠ 0x9128 ∨ Config.stepping.toNat < byteAt h 12 ∨ byteAt h 13 < Config.stepping.toNat then 3
  else if byteAt h 9 = 1 ∧ (h.drop 40).take 16 ≠ dieIdBytes then 4
  else if bit (s.reg Reg.SEC.KEY_STS) (byteAt h 14) then 5
  else if 4 ≤ byteAt h 14 ∨ !Config.sigValid h (byteAt h 14) then 6
  else if sha384 (slotBytes s slot (off + 512) (payloadLen h)) ≠ (h.drop 56).take 48 then 7
  else if byteAt h 15 < rollback s typ then 8
  else if layoutBad typ h then 9
  else match active with
    | some v => if typ = 0x01 ∧ (v < beAt h 38 2 ∨ beAt h 36 2 < v) then 10 else 0
    | none => 0

/-- The header offset of the image of a type in a slot. -/
def imageAt (s : State) (slot typ : Nat) : Option Nat :=
  if tableOk s slot then ((slotImages s slot).find? fun x => x.1 == typ).map (·.2) else none

/-- The check of the image of a type in a slot (R537). -/
def checkImage (s : State) (slot typ : Nat) (active : Option Nat) : Nat :=
  match imageAt s slot typ with
  | none => 1
  | some off => checkHeader s slot off typ active

/-- The image types in the order in which they are read at a start: the engines, then CONTROL (R541). -/
def startTypes : List Nat := (List.range 7).map (0x10 + ·) ++ [0x01]

/-- The first image of a slot that is refused: its type and code; none for a valid slot (R540). -/
def slotBad (s : State) (slot : Nat) : Option (Nat × Nat) :=
  if !tableOk s slot then some (1, 1)
  else
    match (startTypes.map fun t => (t, checkImage s slot t none)).find? fun x => x.2 != 0 with
    | some x => some x
    | none => if slotComplete s slot then none else some (1, 1)

/-- Whether a slot passes a full check (R540, R546). -/
def slotValid (s : State) (slot : Nat) : Bool := (slotBad s slot).isNone

/-! ### Measurements and refused images -/

/-- The bytes of MR[i], word 0 first, each word most significant byte first. -/
def mrBytes (s : State) (i : Nat) : List Byte := (List.range 12).flatMap fun j => beBytes 4 (s.reg (Reg.SEC.MR i + 4 * j))

/-- MR[i] is extended with a digest (R551). -/
def mrExtend (i : Nat) (d : List Byte) (s : State) : State :=
  let m := sha384 (mrBytes s i ++ d)
  let s := forEach (List.range 12) s fun j s => s.setReg (Reg.SEC.MR i + 4 * j) (beAt m (4 * j) 4)
  s.setReg (Reg.SEC.MR_CNT i) ((s.reg (Reg.SEC.MR_CNT i) + 1) % 2 ^ 32)

/-- MR[i] is extended with an image: the digest of its header bytes 0 to 415. -/
def mrImage (i slot off : Nat) (s : State) : State := mrExtend i (sha384 ((imageHeader s slot off).take 416)) s

/-- MR[i] is extended with configuration values. -/
def mrConfig (i : Nat) (vals : List Byte) (s : State) : State := mrExtend i (sha384 (Config.measured i vals)) s

/-- A refused image (R537, R558): counted, and held in `LOAD_ERR` if that is free. -/
def loadErr (slot typ code : Nat) (s : State) : State :=
  let s := bump Reg.SEC.LOAD_FAILS s
  let s := if s.rbit Reg.SEC.LOAD_ERR 31 then s else s.setReg Reg.SEC.LOAD_ERR (2 ^ 31 + typ * 2 ^ 16 + slot * 2 ^ 8 + code)
  raise secPage 2 s

/-! ### The image cache and the flash operations (R541 to R543) -/

/-- The byte of the cache at which the image of engine `i` stands. -/
def cacheBase (i : Nat) : Nat := 147456 * i

/-- The header of engine `i`'s image in the cache. -/
def cacheHeader (s : State) (i : Nat) : List Byte := s.rdMem .cache (cacheBase i) 512

/-- The SRAM of a core. -/
def coreSram (x : Nat) : Space := if x = 0 then .sramA else .sramB

/-- The boot core is in recovery mode (R542). -/
def inRecovery (s : State) : Bool := s.hb .recovery

/-- A flash operation is requested (R543). -/
def flashAsk (op : FlashOp) (s : State) : State := { s with flashQ := s.flashQ.filter (· != op) ++ [op] }

/-- The flash operation in progress ends. -/
def flashEnd (s : State) : State := { s with flashQ := (s.flashQ.filter (flashDue s)).tail }

/-- A core is ACTIVE, the boot core, or neither: whether requester `r` may give the pair's orders (R470, R545, R558, R618). -/
def ordersOk (s : State) (r : Req) : Bool :=
  match r with
  | .BOOT => true
  | .CC_A => s.rfld (Reg.PAIR.CORE_STS 0) 0 3 == 4
  | .CC_B => s.rfld (Reg.PAIR.CORE_STS 1) 0 3 == 4
  | _ => false

end Sys2Proof.Machine
end

