-- ==== Sys2Proof/Machine/Time.lean ====
section
/-!
DEFINITION. The time base, the trackers, the time inputs and outputs (spec/02_time.md, R58 to R73 and R93 to R107).
-/
namespace Sys2Proof.Machine

/-- The TIME page. -/
def timePage : Nat := 1

/-- The nominal rate word of a 900 MHz T-clock in units of 2^-48 ns (R59). -/
def nominalRate : Nat := 0x00011C71C71C71C7

/-- The rate word that software applied to the time base (R59, R60). -/
def rateTb (s : State) : Nat := (s.h .tbRate + nominalRate).toNat

/-- The rate word of tracker `x` (R69). -/
def rateTrk (s : State) (x : Nat) : Nat := (s.h (.trkRate x) + nominalRate).toNat

/-- The count of tracker `x`: 0 A, 1 B (R69). -/
def trk (s : State) (x : Nat) : Nat := if x = 0 then s.trkA else s.trkB

/-- Set the count of tracker `x`. -/
def setTrk (x v : Nat) (s : State) : State :=
  if x = 0 then { s with trkA := v % timeWrap } else { s with trkB := v % timeWrap }

/-- The tracker that `TB_SEL` follows (R71). -/
def followed (s : State) : Option Nat :=
  match s.rfld Reg.TIME.TB_CTL 0 2 with
  | 1 => some 0
  | 2 => some 1
  | _ => none

/-- The signed difference d = tracker − time base at full resolution (R72). -/
def trkDiff (s : State) (x : Nat) : Int :=
  let d := ((trk s x : Int) - s.tb) % timeWrap
  if (timeWrap : Int) / 2 < d then d - timeWrap else d

/-- The slew term of one tick: N × SLEW_MAX × 10^-9, rounded to a whole unit (R72). -/
def slewTerm (s : State) : Nat := roundDiv (nominalRate * s.reg Reg.TIME.SLEW_MAX) 1000000000

/-- Ticks until a slew ends (R72). -/
def slewTicks (s : State) (x : Nat) : Nat := cdiv (trkDiff s x).natAbs (max 1 (slewTerm s))

/-- The rate word in effect (R71, R72). -/
def effectiveRate (s : State) : Int :=
  match followed s with
  | none => rateTb s
  | some x =>
    if s.rbit Reg.TIME.TB_CTL 11 then
      if 0 ≤ trkDiff s x then (rateTrk s x : Int) + slewTerm s else (rateTrk s x : Int) - slewTerm s
    else rateTrk s x

/-- The slewed time base has reached the tracker: `SLEWING` reads 0 and SLEW_DONE is raised (R72). -/
def endSlew (s : State) : State := raise timePage 6 (s.setRbit Reg.TIME.TB_CTL 11 false)

/-- Move the time base and the follower by `d` units (R22: the follower advances on the same rate word). -/
def moveTb (d : Int) (s : State) : State :=
  { s with tb := (((s.tb : Int) + d) % timeWrap).toNat, fol := (((s.fol : Int) + d) % timeWrap).toNat }

/-- `n` T-clock ticks pass (R59, R69, R72): the trackers advance on their rate words; the time base on its effective rate
word, which a slew brings onto the followed tracker. -/
def advance (n : Nat) (s : State) : State :=
  if !s.pllOk then s else
  let s := { s with root := s.root + 8 * n }
  if !s.domOn 4 then s else
  let a := (s.trkA + n * rateTrk s 0) % timeWrap
  let b := (s.trkB + n * rateTrk s 1) % timeWrap
  match followed s with
  | some x =>
    if s.rbit Reg.TIME.TB_CTL 11 ∧ slewTicks s x ≤ n then
      let d := trkDiff s x + n * rateTrk s x
      endSlew { moveTb d s with trkA := a, trkB := b }
    else { moveTb (n * effectiveRate s) s with trkA := a, trkB := b }
  | none => { moveTb (n * effectiveRate s) s with trkA := a, trkB := b }

/-- T-clock ticks pass until the root-PLL cycle count reaches `c`. -/
def waitRoot (c : Nat) (s : State) : State := if s.root < c then advance (cdiv (c - s.root) 8) s else s

/-- Root-PLL cycles of `n` ns and of `n` µs (R612: 7.2 GHz). -/
def cycNs (n : Nat) : Nat := cdiv (n * 36) 5
def cycUs (n : Nat) : Nat := n * 7200

/-- The cycle from which an interval of page `p` is measured: `k`, or the start of the page where that is later. -/
def sinceOf (s : State) (p : Nat) (k : Hid) : Nat := max (s.hn k) (s.hn (.cycBase p))

/-- `cyc` root-PLL cycles have passed since `k`: the ticks until then pass first. -/
def waitSince (p : Nat) (k : Hid) (cyc : Nat) (s : State) : State := waitRoot (sinceOf s p k + cyc) s

/-- An interval of `cyc` root-PLL cycles that repeats comes to its end, and the next one starts. -/
def nextInterval (p : Nat) (k : Hid) (cyc : Nat) (s : State) : State :=
  let s := waitSince p k cyc s
  s.setH k (s.root : Nat)

/-- Ticks until the time base has moved by `dist` units or more; none if it does not move forward. -/
def ticksFor (s : State) (dist : Nat) : Option Nat :=
  match followed s with
  | some x =>
    if s.rbit Reg.TIME.TB_CTL 11 then
      let n := slewTicks s x
      let r := (effectiveRate s).toNat
      let whole := (trkDiff s x + n * rateTrk s x).toNat
      if r ≠ 0 ∧ cdiv dist r < n then some (cdiv dist r)
      else if dist ≤ whole then some n
      else if rateTrk s x = 0 then none
      else some (n + cdiv (dist - whole) (rateTrk s x))
    else if rateTrk s x = 0 then none else some (cdiv dist (rateTrk s x))
  | none => if rateTb s = 0 then none else some (cdiv dist (rateTb s))

/-- T-clock ticks pass until the first at which the time base equals or exceeds `t` (R68). -/
def advanceTo (t : Nat) (s : State) : State :=
  if s.tb < t then
    match ticksFor s (t - s.tb) with
    | some n => advance n s
    | none => s
  else s

/-- T-clock ticks pass until the follower equals or exceeds `t` (R22). -/
def advanceFolTo (t : Nat) (s : State) : State :=
  if s.fol < t then
    match ticksFor s (t - s.fol) with
    | some n => advance n s
    | none => s
  else s

/-- An action at time-base instant `t`: it takes effect at the first tick at which the time base equals or exceeds `t`
(R68); no effect while the time base does not run. -/
def atInstant (t : Nat) (f : State → State) (s : State) : State :=
  if s.timeRuns then
    let s := advanceTo t s
    if t ≤ s.tb then f s else s
  else s

/-- T-clock ticks pass until the count of source `src` (0 time base, 1 A, 2 B) equals or exceeds `t`. -/
def advanceSrcTo (src t : Nat) (s : State) : State :=
  if src = 0 then advanceTo t s else
  let c := trk s (src - 1)
  let r := rateTrk s (src - 1)
  if c < t ∧ r ≠ 0 then advance (cdiv (t - c) r) s else s

/-- A slew starts, or ends at once, after a change of `TB_SEL` or a step (R72). -/
def startSlew (s : State) : State :=
  match followed s with
  | none => s.setRbit Reg.TIME.TB_CTL 11 false
  | some x => if trkDiff s x = 0 then endSlew s else s.setRbit Reg.TIME.TB_CTL 11 true

/-- An error of the TIME page with the value written in `ERR_INFO` (R107). -/
def timeErr (code : Nat) (r : Req) (a v : Nat) (s : State) : State := errReq timePage code r a v s

/-! ### Rate words (R60, R69) -/

/-- The addresses of a rate word's halves. -/
def rateLoAddr : RateSel → Nat
  | .tb => Reg.TIME.RATE_TB_LO
  | .trkA => Reg.TIME.TRK_RATE_LO 0
  | .trkB => Reg.TIME.TRK_RATE_LO 1

def rateHiAddr : RateSel → Nat
  | .tb => Reg.TIME.RATE_TB_HI
  | .trkA => Reg.TIME.TRK_RATE_HI 0
  | .trkB => Reg.TIME.TRK_RATE_HI 1

/-- The hidden numbers of a rate word: its index among the held halves, and its applied value. -/
def rateNo : RateSel → Nat
  | .tb => 0 | .trkA => 1 | .trkB => 2

def rateHid : RateSel → Hid
  | .tb => .tbRate | .trkA => .trkRate 0 | .trkB => .trkRate 1

/-- Whether a write of the rate word is discarded because the time base follows a tracker (R71). -/
def rateFollowed (s : State) (x : RateSel) : Bool := x == .tb && (followed s).isSome

/-- The low half is held (R60). -/
def rateLo (r : Req) (x : RateSel) (v : Nat) (s : State) : State :=
  if rateFollowed s x then timeErr 0x11 r (rateLoAddr x) v s
  else s.setH (.rateHeld (rateNo x)) (v + 1)

/-- The high half applies both halves, the low half held or last applied (R60). -/
def rateHi (r : Req) (x : RateSel) (v : Nat) (s : State) : State :=
  if rateFollowed s x then timeErr 0x11 r (rateHiAddr x) v s
  else
    let cur := (s.h (rateHid x) + nominalRate).toNat
    let held := s.hn (.rateHeld (rateNo x))
    let lo := if held = 0 then cur % 2 ^ 32 else held - 1
    let s := s.setH (.rateHeld (rateNo x)) 0
    let s := s.setH (rateHid x) ((v * 2 ^ 32 + lo : Nat) - nominalRate)
    (s.setReg (rateLoAddr x) lo).setReg (rateHiAddr x) v

/-- RATE_TB_LO_WRITE (R60). -/
def execRateTbLoWrite (r : Req) (x : RateSel) (v : W32) (s : State) : Host.Outcome State Fault Refusal :=
  done (gateWrite r (rateLoAddr x) (rateLo r x v.toNat) s)

/-- RATE_TB_HI_WRITE (R60). -/
def execRateTbHiWrite (r : Req) (x : RateSel) (v : W32) (s : State) : Host.Outcome State Fault Refusal :=
  done (gateWrite r (rateHiAddr x) (rateHi r x v.toNat) s)

/-! ### The latched read (R61) -/

/-- Latch a time into four registers' copies of bank `b`: fraction, nanoseconds, seconds low and high. -/
def latchTime (b fr ns lo hi t : Nat) (s : State) : State :=
  (((s.setReg (bank b fr) (fracOf t)).setReg (bank b ns) (nsOf t)).setReg (bank b lo) (secOf t % 2 ^ 32)).setReg
    (bank b hi) (secOf t / 2 ^ 32)

/-- A read of `TB_FRAC` by requester `r` latches the time base and both trackers at one tick and returns the fraction. -/
def readTbFrac (r : Req) (s : State) : Nat × State :=
  let b := 40 + reqNo r
  let s := latchTime b Reg.TIME.TB_FRAC Reg.TIME.TB_NS Reg.TIME.TB_SEC_LO Reg.TIME.TB_SEC_HI s.tb s
  let s := forEach [0, 1] s fun x s =>
    latchTime b (Reg.TIME.TRK_FRAC x) (Reg.TIME.TRK_NS x) (Reg.TIME.TRK_SEC_LO x) (Reg.TIME.TRK_SEC_HI x) (trk s x) s
  (fracOf s.tb, s)

/-- TB_FRAC_READ (R61). -/
def execTbFracRead (r : Req) (s : State) : Host.Outcome State Fault Refusal :=
  done (readFor r Reg.TIME.TB_FRAC (readTbFrac r) s)

/-! ### The PPS outputs (R96) -/

/-- The count of a source: 0 time base, 1 tracker A, 2 tracker B (R96). -/
def srcTime (s : State) (src : Nat) : Nat := if src = 0 then s.tb else trk s (src - 1)

/-- The offset of PPS_OUT[i] within a second, in nanoseconds (R96). -/
def ppsOffset (s : State) (i : Nat) : Nat := imod (sgn (s.reg (Reg.TIME.PPS_OUT_OFFSET i)) 30) 1000000000

/-- The first edge instant of PPS_OUT[i] after the present count of its source: a whole second plus the offset. -/
def nextPps (s : State) (i : Nat) : Nat :=
  let t := srcTime s (s.rfld (Reg.TIME.PPS_OUT_CFG i) 0 2)
  let e := t / unitsSec * unitsSec + ppsOffset s i * unitsNs
  if t < e then e else e + unitsSec

/-- Whether PPS_OUT[i] is held low (R96). -/
def squelched (s : State) (i : Nat) : Bool :=
  s.rbit (Reg.TIME.PPS_OUT_CFG i) 30 && s.rfld Reg.TIME.TB_CTL 4 2 ≤ 1

/-- PPS_OUT[i] takes a level. -/
def ppsLevel (i : Nat) (on : Bool) (s : State) : State :=
  if s.hb (.ppsOut i) = on then s else (s.setHb (.ppsOut i) on).emit (.pps i on)

/-- Every output that is squelched or not enabled is low (R96). -/
def ppsHold (s : State) : State :=
  forEach [0, 1] s fun i s =>
    if squelched s i || !s.rbit (Reg.TIME.PPS_OUT_CFG i) 31 then ppsLevel i false s else s

/-- The next edge of PPS_OUT[i] is set from the present count of its source; an output that is not enabled, or whose source
is 3, makes none (notes/assumptions/86.md). -/
def ppsArm (i : Nat) (s : State) : State :=
  let v := s.reg (Reg.TIME.PPS_OUT_CFG i)
  s.setH (.ppsNext i) (if bit v 31 ∧ fld v 0 2 ≠ 3 then nextPps s i + 1 else 0 : Nat)

/-- A write of the configuration or offset of PPS_OUT[i] (R96). -/
def ppsOutWrite (i : Nat) (store : State → State) (s : State) : State := ppsHold (ppsArm i (store s))

/-! ### Control and steps (R62 to R66, R70 to R73) -/

/-- The allowed transitions of `TB_STATE` by software (R62). -/
def tbTransition : Nat → Nat → Bool
  | _, 0 => true
  | 0, 1 | 3, 1 | 1, 2 | 3, 2 | 2, 3 => true
  | _, _ => false

/-- Entry into LOCKED arms one step and counts a lock acquisition; leaving LOCKED disarms (R63). -/
def tbEnter (st : Nat) (s : State) : State :=
  let s := s.setRfld Reg.TIME.TB_CTL 4 2 st
  if st = 2 then raise timePage 2 (bump Reg.TIME.LOCK_ACQ_CNT (s.setRbit Reg.TIME.TB_CTL 10 true))
  else s.setRbit Reg.TIME.TB_CTL 10 false

/-- A write of `TB_CTL`: HOLD_AUTO is stored; the state and the steering change if the value is allowed, and each refused
field stays and is counted with code 0x13 (R62, R71). Entry into FREE_RUN or ACQUIRE squelches the outputs (R96). -/
def tbCtl (r : Req) (v : Nat) (s : State) : State :=
  let cur := s.rfld Reg.TIME.TB_CTL 4 2
  let st := fld v 4 2
  let s := s.setRbit Reg.TIME.TB_CTL 8 (bit v 8)
  let s := if st = cur then s
    else if tbTransition cur st then tbEnter st s
    else timeErr 0x13 r Reg.TIME.TB_CTL v s
  let s := ppsHold s
  let sel := fld v 0 2
  if sel = 3 then timeErr 0x13 r Reg.TIME.TB_CTL v s
  else if sel = s.rfld Reg.TIME.TB_CTL 0 2 then s
  else startSlew (s.setRfld Reg.TIME.TB_CTL 0 2 sel)

/-- TB_CTL_WRITE (R62, R71). -/
def execTbCtlWrite (r : Req) (v : W32) (s : State) : Host.Outcome State Fault Refusal :=
  done (gateWrite r Reg.TIME.TB_CTL (tbCtl r v.toNat) s)

/-- The signed step offset of three registers, in units of 2^-48 ns (R65, R70). -/
def stepOffset (sec ns fr : Nat) : Int :=
  sgn sec 32 * unitsSec + sgn ns 32 * unitsNs + (fr : Int) * 2 ^ 32

/-- Whether the state permits a step (R62, R63): any in FREE_RUN, one per arming in LOCKED. -/
def stepAllowed (s : State) : Bool :=
  let st := s.rfld Reg.TIME.TB_CTL 4 2
  st == 0 || (st == 2 && s.rbit Reg.TIME.TB_CTL 10)

/-! ### The ticks of the L2 tables (R254, R259) -/

/-- `n` × 100 ms in units of the time base. -/
def tickUnits (n : Nat) : Nat := n * 100000000 * unitsNs

/-- The age-tick period, in 100 ms (R259). -/
def agePeriod (s : State) : Nat := max 1 (s.rfld Reg.L2.AGE_CFG 16 16)

/-- move_now advances: `moveAt` counts the multiples that have passed (R254). -/
def moveTick (s : State) : State :=
  let s := (s.setH .moveNow ((s.h .moveNow + 1) % 16)).setH .moveAt (s.h .moveAt + 1)
  s.setRfld Reg.L2.TICK_NOW 4 4 (s.hn .moveNow)

/-- age_now advances: `ageAt` counts the multiples that have passed (R259). -/
def ageTick (s : State) : State :=
  let s := (s.setH .ageNow ((s.h .ageNow + 1) % 16)).setH .ageAt (s.h .ageAt + 1)
  s.setRfld Reg.L2.TICK_NOW 0 4 (s.hn .ageNow)

/-- The multiples that have passed are those of the present time base: the next tick is at the next one. -/
def ageRebase (s : State) : State := s.setH .ageAt (s.tb / tickUnits (agePeriod s) : Nat)
def l2Rebase (s : State) : State := ageRebase (s.setH .moveAt (s.tb / tickUnits 1 : Nat))

/-- A step of the time base over whole multiples, or onto one, advances each tick by one (R259). -/
def l2Step (was : Nat) (s : State) : State :=
  if !s.live 0xC4 then s else
  let hit := fun (u : Nat) => was != s.tb && (s.tb % u == 0 || (was < s.tb && was / u < s.tb / u))
  let s := if hit (tickUnits 1) then moveTick s else s
  let s := if hit (tickUnits (agePeriod s)) then ageTick s else s
  l2Rebase s

/-- A write of 1 to `STEP_CMD` (R65). The follower keeps the unstepped time until its realignment (R66). -/
def stepCmd (r : Req) (v : Nat) (s : State) : State :=
  let a := Reg.TIME.STEP_CMD
  let ns := sgn (s.reg Reg.TIME.STEP_NS) 32
  if !bit v 0 then s
  else if !stepAllowed s then timeErr 0x10 r a v s
  else if ns < -999999999 ∨ 999999999 < ns then timeErr 0x12 r a v s
  else
    let off := stepOffset (s.reg Reg.TIME.STEP_SEC) (s.reg Reg.TIME.STEP_NS) (s.reg Reg.TIME.STEP_FRAC)
    let s := l2Step s.tb { s with tb := (((s.tb : Int) + off) % timeWrap).toNat }
    let s := if s.rfld Reg.TIME.TB_CTL 4 2 = 2 then s.setRbit Reg.TIME.TB_CTL 10 false else s
    let s := raise timePage 0 (bump Reg.TIME.STEP_CNT s)
    if (followed s).isSome then startSlew s else s

/-- STEP_CMD (R65). -/
def execStepCmd (r : Req) (v : W32) (s : State) : Host.Outcome State Fault Refusal :=
  done (gateWrite r Reg.TIME.STEP_CMD (stepCmd r v.toNat) s)

/-- A write of 1 to `STEP_REARM` (R64); a 0 triggers nothing (R18, WO). -/
def stepRearm (r : Req) (v : Nat) (s : State) : State :=
  if !bit v 0 then s
  else if s.rfld Reg.TIME.TB_CTL 4 2 = 2 ∧ s.rbit Reg.TIME.TB_CTL 10 = false then
    raise timePage 1 (bump Reg.TIME.REARM_CNT (s.setRbit Reg.TIME.TB_CTL 10 true))
  else timeErr 0x13 r Reg.TIME.STEP_REARM v s

/-- STEP_REARM (R64). -/
def execStepRearm (r : Req) (v : W32) (s : State) : Host.Outcome State Fault Refusal :=
  done (gateWrite r Reg.TIME.STEP_REARM (stepRearm r v.toNat) s)

/-- A tagged step of tracker `x` (R70); a step of the followed tracker starts a new slew (R72). -/
def trkStep (x v : Nat) (s : State) : State :=
  let a := Reg.TIME.TRK_STEP_CMD x
  let tag := fld v 0 16
  if tag = s.rfld a 16 16 then s
  else
    let off := stepOffset (s.reg (Reg.TIME.TRK_STEP_SEC x)) (s.reg (Reg.TIME.TRK_STEP_NS x))
      (s.reg (Reg.TIME.TRK_STEP_FRAC x))
    let s := setTrk x (((trk s x : Int) + off) % timeWrap).toNat s
    let s := s.setReg a (tag * 2 ^ 16)
    if followed s = some x then startSlew s else s

/-- TRK_STEP_CMD (R70). -/
def execTrkStepCmd (r : Req) (x : Fin 2) (v : W32) (s : State) : Host.Outcome State Fault Refusal :=
  done (gateWrite r (Reg.TIME.TRK_STEP_CMD x) (trkStep x v.toNat) s)

/-- The slew in progress ends: the ticks that it takes pass (R72). -/
def slewDone (s : State) : State :=
  match followed s with
  | some x => if s.rbit Reg.TIME.TB_CTL 11 then advance (slewTicks s x) s else s
  | none => s

/-- SLEW_DONE (R72). -/
def execSlewDone (s : State) : Host.Outcome State Fault Refusal := done (slewDone s)

/-- Root-PLL cycles of three Sync intervals of tracker `x`'s reference (R73). -/
def syncCycles (s : State) (x : Nat) : Nat :=
  let ivl := sgn (s.rfld (Reg.TIME.TRK_REF_CFG x) 16 4) 4
  3 * 7200000000 * 2 ^ ivl.toNat / 2 ^ (-ivl).toNat

/-- Three Sync intervals have passed without a report of tracker `x`'s reference (R73). -/
def refLoss (x : Nat) (s : State) : State :=
  if s.rbit (Reg.TIME.TRK_REF_CFG x) 31 ∧ s.rbit (Reg.TIME.TRK_REF_STS x) 0 = false then
    let s := s.setRbit (Reg.TIME.TRK_REF_STS x) 0 true
    let s := raiseFault timePage (3 + x) 13 x s
    if followed s = some x ∧ s.rfld Reg.TIME.TB_CTL 4 2 = 2 ∧ s.rbit Reg.TIME.TB_CTL 8 then
      raise timePage 5 (tbEnter 3 s)
    else s
  else s

/-- REF_LOSS (R73). -/
def execRefLoss (x : Fin 2) (s : State) : Host.Outcome State Fault Refusal :=
  done (s.ifLive timePage fun s =>
    if s.rbit (Reg.TIME.TRK_REF_CFG x) 31 then refLoss x (waitSince timePage (.refSince x) (syncCycles s x) s) else s)

/-- The pipeline reports a Sync of domain `dom` received on port `n`: each tracker that watches it clears `LOSS` and measures
anew (R73). -/
def refSync (n dom : Nat) (s : State) : State :=
  forEach [0, 1] s fun x s =>
    let v := s.reg (Reg.TIME.TRK_REF_CFG x)
    if s.live timePage && bit v 31 && fld v 8 8 == dom && fld v 0 7 == n then
      (s.setRbit (Reg.TIME.TRK_REF_STS x) 0 false).setH (.refSince x) (s.root : Nat)
    else s

/-- A write of `REF_CFG` of tracker `x`: the watch starts with `EN` (R73). -/
def refCfg (x v : Nat) (s : State) : State :=
  let a := Reg.TIME.TRK_REF_CFG x
  let s := if bit v 31 ∧ s.rbit a 31 = false then s.setH (.refSince x) (s.root : Nat) else s
  storeReg a v s

/-- FOLLOWER_REALIGN (R22, R66): every 1 µs the follower takes the whole of the time base across the Bridge. -/
def execFollowerRealign (s : State) : Host.Outcome State Fault Refusal :=
  done (s.when (s.timeRuns && s.live 0x100) fun s =>
    let s := nextInterval 0x100 .folAt (cycUs 1) s
    { s with fol := s.tb })

/-! ### Time inputs (R93 to R95, R99, R101) -/

/-- Store a timestamp in units of 1/16 ns into four registers: fraction, nanoseconds, seconds low and high. -/
def stampRegs (fr ns lo hi t16 : Nat) (s : State) : State :=
  latchTime 0 fr ns lo hi (t16 * 2 ^ 44) s

/-- The timestamp of an input edge: the time base to 1/16 ns, `dt` sixteenths after the last tick (R93, R74). -/
def stamp (s : State) (dt : Nat) : Nat := in16 s.tb + dt

/-- A discarded edge of PPS_IN[i]: counted, and more than 4 within 10 s quarantine the input (R94). -/
def ppsFastEdge (i t : Nat) (s : State) : State :=
  let s := bump (Reg.TIME.PPS_FAST_CNT i) s
  let s := forEach [4, 3, 2, 1] s fun k s => s.setH (.ppsFast i k) (s.h (.ppsFast i (k - 1)))
  let s := s.setH (.ppsFast i 0) (t + 1)
  let old := s.hn (.ppsFast i 4)
  if old ≠ 0 ∧ t + 1 ≤ old + 10 * 1000000000 * 16 then
    raise timePage (11 + i) (s.setRbit (Reg.TIME.PPS_IN_STS i) 1 true)
  else s

/-- An accepted edge of PPS_IN[i] (R93, R95); it closes the interval of ToD messages of R99. -/
def ppsAccept (i t : Nat) (s : State) : State :=
  let s := stampRegs (Reg.TIME.PPS_IN_TS_FRAC i) (Reg.TIME.PPS_IN_TS_NS i) (Reg.TIME.PPS_IN_TS_SEC_LO i)
    (Reg.TIME.PPS_IN_TS_SEC_HI i) t s
  let s := (s.setH (.ppsLast i) (t + 1)).setH (.ppsSince i) (s.root : Nat)
  let s := s.setRbit (Reg.TIME.PPS_IN_STS i) 0 false
  let s := if i = 0 then s.setHb .todSeen false else s
  raise timePage (7 + i) s

/-- A filtered rising edge of PPS_IN[i], `dt` sixteenths of a nanosecond after the last tick (R93, R94). -/
def ppsEdge (i dt : Nat) (s : State) : State :=
  let t := stamp s dt
  let last := s.hn (.ppsLast i)
  let minInt := s.rfld (Reg.TIME.PPS_IN_CFG i) 0 11 * 1000000 * 16
  if s.rbit (Reg.TIME.PPS_IN_CFG i) 31 = false ∨ s.rbit (Reg.TIME.PPS_IN_STS i) 1 then s
  else if last ≠ 0 ∧ t + 1 < last + minInt then ppsFastEdge i t s
  else ppsAccept i t s

/-- PPS_IN_EDGE (R93). -/
def execPpsInEdge (i : Fin 2) (dt : Fin 18) (s : State) : Host.Outcome State Fault Refusal :=
  done (s.ifLive timePage (ppsEdge i dt))

/-- 1.2 s have passed without an accepted edge (R95). -/
def ppsLoss (i : Nat) (s : State) : State :=
  if s.rbit (Reg.TIME.PPS_IN_CFG i) 31 ∧ s.rbit (Reg.TIME.PPS_IN_STS i) 0 = false then
    raise timePage (9 + i) (s.setRbit (Reg.TIME.PPS_IN_STS i) 0 true)
  else s

/-- PPS_LOSS (R95). -/
def execPpsLoss (i : Fin 2) (s : State) : Host.Outcome State Fault Refusal :=
  done (s.ifLive timePage fun s =>
    if s.rbit (Reg.TIME.PPS_IN_CFG i) 31 then ppsLoss i (waitSince timePage (.ppsSince i) (cycUs 1200000) s) else s)

/-- A write of the configuration of PPS_IN[i]: the watch of R95 starts with `EN`. -/
def ppsInCfg (i v : Nat) (s : State) : State :=
  let a := Reg.TIME.PPS_IN_CFG i
  let s := if bit v 31 ∧ s.rbit a 31 = false then s.setH (.ppsSince i) (s.root : Nat) else s
  storeReg a v s

/-- A write of 1 to `REARM` ends quarantine; the count of discarded edges starts again (R94). -/
def ppsRearm (i v : Nat) (s : State) : State :=
  if bit v 0 then
    forEach [0, 1, 2, 3, 4] (s.setRbit (Reg.TIME.PPS_IN_STS i) 1 false) fun k s => s.setH (.ppsFast i k) 0
  else s

/-- PPS_REARM (R94). -/
def execPpsRearm (r : Req) (i : Fin 2) (v : W32) (s : State) : Host.Outcome State Fault Refusal :=
  done (gateWrite r (Reg.TIME.PPS_IN_REARM i) (ppsRearm i v.toNat) s)

/-- CRC-16 of one byte: polynomial 0x1021 (R97). -/
def crc16Byte (c : Nat) (b : Byte) : Nat :=
  (List.range 8).foldl (fun c _ => if 0x8000 ≤ c then (c * 2 ^^^ 0x1021) % 0x10000 else c * 2) (c ^^^ (b.toNat * 256))

/-- CRC-16 with initial value 0xFFFF (R97). -/
def crc16 (bs : List Byte) : Nat := bs.foldl crc16Byte 0xFFFF

/-- Whether a received ToD message is valid (R97, R99): SYNC, VER, LEN and CRC. -/
def todValid (m : List Byte) (framing : Bool) : Bool :=
  !framing && m.length == 24 && beAt m 0 2 == 0xA55A && byteAt m 2 == 1 && byteAt m 3 == 18 &&
    beAt m 22 2 == crc16 ((m.drop 2).take 20)

/-- A received ToD message: discarded, or latched as the label of the next edge, the last of an interval kept (R99). -/
def todRx (m : List Byte) (framing : Bool) (s : State) : State :=
  if todValid m framing then
    let s := if s.hb .todSeen then bump Reg.TIME.TOD_EXTRA_CNT s else s
    let s := forEach (List.range 5) s fun i s =>
      s.setReg (Reg.TIME.TOD_IN i) (beNat ((((m.drop 4).take 18) ++ [0, 0]).drop (4 * i) |>.take 4))
    ((s.setHb .todSeen true).setRbit Reg.TIME.TOD_STS 0 false).setH .todSince (s.root : Nat)
  else bump Reg.TIME.TOD_BAD_CNT s

/-- TOD_RX_MESSAGE (R99). -/
def execTodRxMessage (msg : List Byte) (framing : Bool) (s : State) : Host.Outcome State Fault Refusal :=
  done (s.ifLive timePage (todRx msg framing))

/-- 2.0 s have passed without a valid message (R99). -/
def todLoss (s : State) : State :=
  if s.rbit Reg.TIME.TOD_STS 0 then s else raise timePage 13 (s.setRbit Reg.TIME.TOD_STS 0 true)

/-- TOD_LOSS (R99). -/
def execTodLoss (s : State) : Host.Outcome State Fault Refusal :=
  done (s.ifLive timePage fun s => todLoss (waitSince timePage .todSince (cycUs 2000000) s))

/-- A rising edge of FREQ_IN: every `DIV`-th one is timestamped (R101); a `DIV` of 0 counts as 1
(notes/assumptions/86.md). -/
def freqEdge (dt : Nat) (s : State) : State :=
  if s.rbit Reg.TIME.FREQ_CFG 31 then
    let s := s.setH .freqSince (s.root + 1 : Nat)
    let n := s.hn .freqCnt + 1
    if n < s.rfld Reg.TIME.FREQ_CFG 0 24 then s.setH .freqCnt n
    else
      stampRegs Reg.TIME.FREQ_TS_FRAC Reg.TIME.FREQ_TS_NS Reg.TIME.FREQ_TS_SEC_LO Reg.TIME.FREQ_TS_SEC_HI (stamp s dt)
        (s.setH .freqCnt 0)
  else s

/-- FREQ_EDGE (R101). -/
def execFreqEdge (dt : Fin 18) (s : State) : Host.Outcome State Fault Refusal :=
  done (s.ifLive timePage (freqEdge dt))

/-- 10 µs have passed since the last edge of FREQ_IN, or since its enabling: the loss is reported once (R101). -/
def freqLoss (s : State) : State :=
  let at0 := s.hn .freqSince
  if s.rbit Reg.TIME.FREQ_CFG 31 ∧ at0 ≠ 0 then raise timePage 14 ((waitRoot (at0 - 1 + cycUs 10) s).setH .freqSince 0) else s

/-- FREQ_LOSS (R101). -/
def execFreqLoss (s : State) : Host.Outcome State Fault Refusal := done (s.ifLive timePage freqLoss)

/-- A write of `FREQ_CFG`: the edges count, and the watch for their loss starts, with `EN` (R101); a new `DIV` leaves the count
(notes/assumptions/86.md). -/
def freqCfg (v : Nat) (s : State) : State :=
  let s := if bit v 31 ∧ s.rbit Reg.TIME.FREQ_CFG 31 = false then
      (s.setH .freqSince (s.root + 1 : Nat)).setH .freqCnt 0 else s
  storeReg Reg.TIME.FREQ_CFG v s

/-! ### Time outputs (R96 to R98) -/

/-- The pulse of PPS_OUT[i] ends after `WIDTH` µs (R96). -/
def ppsPulseEnd (i : Nat) (s : State) : State :=
  if s.hb (.ppsOut i) then ppsLevel i false (waitRoot (s.hn (.ppsRise i) + cycUs (s.reg (Reg.TIME.PPS_OUT_WIDTH i))) s) else s

/-- The output rises, unless it is squelched; a rise of PPS_OUT[0] starts the ToD message 100 ms later (R96, R98). -/
def ppsRise (i : Nat) (s : State) : State :=
  if squelched s i then s else
  let s := (ppsLevel i true s).setH (.ppsRise i) (s.root : Nat)
  if i = 0 then s.setH .todDue (s.root + cycUs 100000 + 1 : Nat) else s

/-- PPS_OUT[i] reaches its next edge (R96): the first tick at which the count of its source equals or exceeds the edge, so
that a step past the edge brings it at once and a step back does not repeat the last one (R68). A pulse ends before the
next. -/
def ppsOutEdge (i : Nat) (s : State) : State :=
  let src := s.rfld (Reg.TIME.PPS_OUT_CFG i) 0 2
  let t := s.hn (.ppsNext i)
  if t = 0 then s else
  let s := advanceSrcTo src (t - 1) (ppsPulseEnd i s)
  if srcTime s src < t - 1 then s else ppsRise i (ppsArm i s)

/-- PPS_OUT_EDGE (R96). -/
def execPpsOutEdge (i : Fin 2) (s : State) : Host.Outcome State Fault Refusal :=
  done (s.ifLive timePage (ppsOutEdge i))

/-- PPS_PULSE_END (R96). -/
def execPpsPulseEnd (i : Fin 2) (s : State) : Host.Outcome State Fault Refusal :=
  done (s.ifLive timePage (ppsPulseEnd i))

/-- The ToD message of the PPS_OUT[0] edge at count `t` of its source (R97, R98). -/
def todMessage (s : State) (t : Nat) : List Byte :=
  let body := [0x01, 18, 0x01] ++ beBytes 6 (secOf t) ++ beBytes 4 (ppsOffset s 0) ++
    beBytes 4 (s.reg Reg.TIME.TOD_OUT_INFO0) ++ beBytes 3 (s.reg Reg.TIME.TOD_OUT_INFO1)
  [0xA5, 0x5A] ++ body ++ beBytes 2 (crc16 body)

/-- 100 ms after an edge of PPS_OUT[0], the message of its next edge is sent, unless the output is then squelched or makes no
edge (R98). -/
def todSend (s : State) : State :=
  let due := s.hn .todDue
  if due = 0 then s else
  let s := (waitRoot (due - 1) s).setH .todDue 0
  let t := s.hn (.ppsNext 0)
  if t = 0 ∨ squelched s 0 then s else s.emit (.tod (todMessage s (t - 1)))

/-- TOD_TX_START (R98). -/
def execTodTxStart (s : State) : Host.Outcome State Fault Refusal := done (s.ifLive timePage todSend)

/-- The functions of the TIME page that start with its enabling: the edges of the outputs (R45, R96). -/
def timeStart (s : State) : State := forEach [0, 1] s ppsArm

/-- The outputs of the TIME page go low as it stops, and no message is due (R45). -/
def timeStop (s : State) : State := forEach [0, 1] (s.setH .todDue 0) fun i s => ppsLevel i false s

end Sys2Proof.Machine
end

