-- ==== Sys2Proof/Machine/Frames.lean ====
section
/-!
DEFINITION. Frames inside the device: finding and moving them, the in-flight counts of the generations (R283 to R286,
spec/07_table_generations.md), and the buffers they hold (R311 to R324, spec/08_buffering.md).
-/
namespace Sys2Proof.Machine

/-! ### The list of frames -/

/-- The frame with the model's number `id`. -/
def State.frame (s : State) (id : Nat) : Option Frame := s.frames.find? fun f => f.id == id

/-- The oldest frame held at a place. -/
def State.firstAt (s : State) (l : Loc) : Option Frame := s.frames.find? fun f => decide (f.loc = l)

/-- All frames held at a place, oldest first. -/
def State.allAt (s : State) (l : Loc) : List Frame := s.frames.filter fun f => decide (f.loc = l)

/-- Replace a frame by its new contents, at its place in the order. -/
def State.putFrame (s : State) (f : Frame) : State :=
  { s with frames := s.frames.map fun g => if g.id = f.id then f else g }

/-- A frame moves to a place, behind every frame already there. -/
def State.moveFrame (s : State) (f : Frame) (l : Loc) : State :=
  { s with frames := s.frames.filter (fun g => g.id != f.id) ++ [{ f with loc := l }] }

/-- A new frame, numbered by the model. -/
def State.newFrame (s : State) (f : Frame) : State :=
  { s.setH .nextId (s.h .nextId + 1) with frames := s.frames ++ [{ f with id := s.hn .nextId }] }

/-- Forget a frame. -/
def State.removeFrame (s : State) (id : Nat) : State :=
  { s with frames := s.frames.filter fun g => g.id != id }

/-- The length of a frame, destination address to FCS where it carries one; of a frame still arriving, the bytes received so far. -/
def Frame.len (f : Frame) : Nat := f.bytes.length + (if f.fcs && f.full then 4 else 0)

/-- Buffer cells that a frame of this length occupies (R311). -/
def Frame.cellsNeeded (f : Frame) : Nat := max 1 (cdiv f.len 256)

/-- The length of a frame before the egress rewrite, as its queue holds it (R373). -/
def Frame.qlen (f : Frame) : Nat := ((f.len : Int) - f.grew).toNat

/-- Cells that the bytes received so far fill. -/
def cellsIn (f : Frame) : Nat := if f.full then max 1 (cdiv f.qlen 256) else f.qlen / 256

/-- A frame lacks a cell that it has bytes for (R329). -/
def lacksCell (f : Frame) : Bool := f.ncell != 0 && !f.trunc && decide (f.ncell < cellsIn f)

/-- The last byte of a frame has been received and, once it is admitted, lies in a buffer cell (R119, R329). -/
def Frame.whole (f : Frame) : Bool := f.full && !lacksCell f

/-- Whether a bad mark on a frame is known (R119): its last cell has been received, and for a frame of the local device also
written to the cell store. -/
def Frame.markKnown (f : Frame) : Bool := f.full && (f.ext || !lacksCell f)

/-- Whether the bytes of a frame lie in the buffer cells counted for it; all of them do before its admission, and once the frame
is truncated (R329). -/
def Frame.celled (f : Frame) : Bool := f.ncell != 0 && !f.trunc

/-- The bytes of a frame that buffer cells hold (R329). -/
def Frame.heldBytes (f : Frame) : List Byte := if f.celled then f.bytes.take (256 * f.ncell) else f.bytes

/-- The length of the part of a frame that buffer cells hold, before the egress rewrite (R329, R373). -/
def Frame.heldLen (f : Frame) : Nat := if f.celled then min f.qlen (256 * f.ncell) else f.qlen

/-! ### In-flight counts (R285, R286) -/

/-- The CAPO page. -/
def capoPage : Nat := 8

/-- The parity being drained: the other one than the current. -/
def oldParity (s : State) : Nat := 1 - s.hn .capoParity

/-- A frame takes parity `p`, or the resequencer accepts one of parity `p`: the count rises, and a settling drain whose
count rises drains again (R285, R286). -/
def infInc (p : Nat) (s : State) : State :=
  let s := s.setH (.inFlight p) (s.h (.inFlight p) + 1)
  if s.h .capoState = 3 ∧ p = oldParity s then s.setH .capoState 2 else s

/-- A frame of parity `p` leaves; a count at 0 stays and counts an underflow (R285, R294). -/
def infDec (p : Nat) (s : State) : State :=
  if s.h (.inFlight p) ≤ 0 then bump Reg.CAPO.CNT_UNDERFLOW s
  else s.setH (.inFlight p) (s.h (.inFlight p) - 1)

/-- A frame takes the current parity (R283). -/
def stampParity (f : Frame) (s : State) : Frame × State :=
  ({ f with parity := some (s.hn .capoParity) }, infInc (s.hn .capoParity) s)

/-! ### The buffer pools (R313 to R324) -/

/-- The BPM page. -/
def bpmPage : Nat := 11

/-- Buffers of pool `i` (R313). -/
def poolSize (s : State) (i : Nat) : Nat :=
  match i with
  | 0 => s.reg Reg.BPM.C_LIMIT
  | 1 => s.reg Reg.BPM.D_LIMIT
  | _ => s.reg (Reg.BPM.HP_COUNT (i - 2))

/-- Buffer cells of one buffer of a pool (R313). -/
def poolCells : Nat → Nat
  | 3 => 8 | 4 => 40 | 5 => 256 | _ => 1

/-- The pointer of buffer `j` of pool `i` (R313). -/
def bufPtr (s : State) (i j : Nat) : Nat := if i < 2 then j else s.reg (Reg.BPM.HP_BASE (i - 2)) + j * poolCells i

/-- The owner code of buffer `j` of pool `i`, 0 while free (R317). -/
def bufOwner (s : State) (i j : Nat) : Nat := Smap.get (fun _ => 0) s.bufs (i * 2 ^ 32 + j)

/-- Set the owner code of a buffer. -/
def setOwner (i j o : Nat) (s : State) : State :=
  { s with bufs := Smap.set (fun _ => 0) s.bufs (i * 2 ^ 32 + j) o }

/-- The buffers of pool `i` that are held, lowest first. -/
def heldBufs (s : State) (i : Nat) : List Nat :=
  (s.bufs.filter fun e => e.1 / 2 ^ 32 == i).map fun e => e.1 % 2 ^ 32

/-- The first of `from, from + step, ..` that a rising list does not hold. -/
def firstGap (step : Nat) : Nat → List Nat → Nat
  | a, [] => a
  | a, b :: bs => if b = a then firstGap step (a + step) bs else if b < a then firstGap step a bs else a

/-- The buffer that pool C grants: the first free cell of the lowest-numbered sub-pool that holds one (R316, R319). -/
def pickC (s : State) : Option Nat :=
  let held := heldBufs s 0
  let limit := poolSize s 0
  ((List.range 16).map fun k => firstGap 16 k (held.filter fun j => j % 16 == k)).find? fun j => j < limit

/-- log2 of the channels of the population (R429). -/
def popLog (s : State) : Nat := if fld (s.reg (Reg.DSC.POP_CFG 0)) 0 5 = 16 then 4 else 3

/-- The channel of deep page `p` (R429). -/
def chanOf (s : State) (p : Nat) : Nat := fld p 9 (popLog s) ^^^ fld p 0 (popLog s)

/-- Whether channel `c` is in service, not stopped by a full retrain (R442, R443). -/
def chanServes (s : State) (c : Nat) : Bool := s.h (.trainStep c) == 7 && s.hn (.retrain c) % 2 == 0

/-- Whether the population is in service (R438). -/
def popReady (s : State) : Bool := s.rbit (Reg.DSC.POP_STS 0) 31

/-- The first page at or after `a`, below `limit`, that is free and lies on a channel in service. -/
def scanD (s : State) (limit : Nat) (held : List Nat) : Nat → Nat → Option Nat
  | 0, _ => none
  | n + 1, a =>
    if limit ≤ a then none
    else if held.contains a || !chanServes s (chanOf s a) then scanD s limit held n (a + 1)
    else some a

/-- The page that pool D grants: the lowest free page at or after the cursor, from page 0 again at the end (R315), on a
channel in service; none while the deep store is out of service (R439, R442, R443). -/
def pickD (s : State) : Option Nat :=
  if !popReady s then none else
  let held := heldBufs s 1
  let limit := poolSize s 1
  let fuel := 17 * (held.length + 1)
  (scanD s limit held fuel (s.hn .cursorD)).orElse fun _ => scanD s limit held fuel 0

/-- The buffer that a host pool grants: its first free one (R313). -/
def pickH (s : State) (i : Nat) : Option Nat :=
  let a := firstGap 1 0 (heldBufs s i)
  if a < poolSize s i then some a else none

/-- The buffer that pool `i` would grant. -/
def pickBuf (s : State) (i : Nat) : Option Nat :=
  match i with
  | 0 => pickC s
  | 1 => pickD s
  | _ => pickH s i

/-- LOW_C and LOW_D are raised when the free count falls below the threshold (R352). -/
def lowEvent (i before after : Nat) (s : State) : State :=
  let thr := if i = 0 then s.reg Reg.BPM.LOW_THR_C else s.reg Reg.BPM.LOW_THR_D
  if i ≤ 1 ∧ thr ≤ before ∧ after < thr then raise bpmPage (1 + i) s else s

/-- Set the free count of pool `i`. -/
def setFreeCnt (i n : Nat) (s : State) : State :=
  let before := s.reg (Reg.BPM.FREE_CNT i)
  lowEvent i before n (s.setReg (Reg.BPM.FREE_CNT i) n)

/-- The QMGR, CELL and SPILL pages. -/
def qmgrPage : Nat := 0xD0
def cellPage : Nat := 0xD4
def spillPage : Nat := 0xD5
def schedPage : Nat := 0xD1

/-- Table 0xE0 of the CELL page marks the bytes of a buffer cell that a window has written since the cell was last granted (R525);
no command reaches it. -/
def cellMark : Nat := 0xE0

/-- The buffer cells of buffer `j` of pool `i` are granted: what they hold is not known until they are written. -/
def cellWipe (i j : Nat) (s : State) : State :=
  if i = 1 then s else forEach (List.range (poolCells i)) s fun k s => s.setTab cellPage cellMark (bufPtr s i j + k) 0

/-- A request of requester `rq` for one buffer of pool `i` for owner `o`: the buffer number granted, or an empty response,
which is counted (R317, R319, R320); a disabled BPM answers with an empty response, counted also in `ERR_CNT` (R45). -/
def grantBuf (rq i o : Nat) (s : State) : Option Nat × State :=
  if !s.live bpmPage then
    (none, if s.pageOn bpmPage then errDisabled bpmPage (bump (Reg.BPM.EMPTY_RESP i) s) else s)
  else
  match pickBuf s i with
  | none => (none, bump (Reg.BPM.EMPTY_RESP i) s)
  | some j =>
    let s := cellWipe i j (s.setH (.poolTurn i) (rq + 1 : Nat))
    let s := setFreeCnt i (s.reg (Reg.BPM.FREE_CNT i) - 1) (setOwner i j o s)
    let s := if i = 1 ∧ 0 < poolSize s 1 then s.setH .cursorD ((s.hn .cursorD + 512) % poolSize s 1 : Nat) else s
    (some j, s)

/-- Return a held buffer to its pool. -/
def releaseBuf (i j : Nat) (s : State) : State :=
  if bufOwner s i j = 0 then s else setFreeCnt i (s.reg (Reg.BPM.FREE_CNT i) + 1) (setOwner i j 0 s)

/-- `n` buffers of pool C for requester `rq` and owner `o`: their numbers, or none and the state after the empty response, with what had been
granted returned. -/
def grantCells (rq o : Nat) : Nat → State → Option (List Nat) × State
  | 0, s => (some [], s)
  | n + 1, s =>
    match grantBuf rq 0 o s with
    | (none, s) => (none, s)
    | (some j, s) =>
      match grantCells rq o n s with
      | (some js, s) => (some (j :: js), s)
      | (none, s) => (none, releaseBuf 0 j s)

/-- The pointer range of a pool (R322, check 1). -/
def inRange (s : State) (i ptr : Nat) : Bool :=
  if i < 2 then ptr < poolSize s i
  else s.reg (Reg.BPM.HP_BASE (i - 2)) ≤ ptr && ptr < bufPtr s i (poolSize s i)

/-- The checks of a free by agent `ag`: the reason of the first that fails, 0 if none (R322). -/
def freeCheck (s : State) (i ptr ag : Nat) : Nat :=
  let j := if i < 2 then ptr else (ptr - s.reg (Reg.BPM.HP_BASE (i - 2))) / poolCells i
  if !inRange s i ptr then 1
  else if 2 ≤ i ∧ (ptr - s.reg (Reg.BPM.HP_BASE (i - 2))) % poolCells i ≠ 0 then 2
  else if bufOwner s i j = 0 then 3
  else if bufOwner s i j ≠ ag then 4
  else 0

/-- The number of the buffer that a pointer names. -/
def bufNo (s : State) (i ptr : Nat) : Nat :=
  if i < 2 then ptr else (ptr - s.reg (Reg.BPM.HP_BASE (i - 2))) / poolCells i

/-- A rejected free is counted, captured and raises FREE_ERR (R322, R323). -/
def freeReject (reason i ptr ag reqn : Nat) (s : State) : State :=
  let found := if reason ≤ 2 then 0 else bufOwner s i (bufNo s i ptr)
  let s := bump Reg.BPM.FREE_ERR_CNT s
  let s := if s.rbit Reg.BPM.FREE_ERR_INFO 31 then s else
    (s.setReg Reg.BPM.FREE_ERR_INFO (2 ^ 31 + ag * 2 ^ 24 + found * 2 ^ 20 + i * 2 ^ 16 + reason)).setReg
      Reg.BPM.FREE_ERR_PTR (ptr % 2 ^ 28)
  raise bpmPage 0 (errBy bpmPage (0x0F + reason) reqn i ptr s)

/-- A free of `ptr` in pool `i` by the agent with owner code `ag` (R322): the reason it is rejected, 0 if done. -/
def freeBuf (i ptr ag reqn : Nat) (s : State) : Nat × State :=
  match freeCheck s i ptr ag with
  | 0 => (0, releaseBuf i (bufNo s i ptr) s)
  | k => (k, freeReject k i ptr ag reqn s)

/-- The agent with owner code `ag` frees buffer `j` of pool `i`, under the checks of R322 (R317). -/
def agentFree (i j ag : Nat) (s : State) : State := (freeBuf i (bufPtr s i j) ag 5 s).2

/-! ### Queue profiles and counts (R326, R354, R358) -/

/-- The first egress queue number (R354). -/
def egqBase : Nat := 262144

/-- Whether queue `q` is a VOQ. -/
def isVoq (q : Nat) : Bool := q < egqBase

/-- The requesters of pool C (R318): the engine of a queue, the return engine, the inject DMA and software. -/
def queueReqr (q : Nat) : Nat := q % 10 + (if isVoq q then 0 else 10)
def returnReqr : Nat := 20
def injectReqr : Nat := 21
def softReqr : Nat := 22

/-- The requesters of pools other than C: the block that the pool serves, and software (R318). -/
def blockReqr : Nat := 0

/-- The owner code of a queue's cells (R317). -/
def ownerOf (q : Nat) : Nat := if isVoq q then 1 else 2

/-- The owner codes of the spill writer and of the punt DMA (R317). -/
def spillOwner : Nat := 3
def puntOwner : Nat := 4

/-- The queue profile of queue `q` (R357, R371). -/
def queueProf (s : State) (q : Nat) : Nat :=
  if isVoq q then 8 * fld (s.tab qmgrPage 2 (q / 8)) 24 7 + q % 8
  else fld (s.tab schedPage 1 (q - egqBase)) 32 10

/-- A word of a queue's profile (R358). -/
def qprofW (s : State) (q w : Nat) : Nat := s.tabW qmgrPage 1 (queueProf s q) w

/-- The admission profile of queue `q` (R325). -/
def admProf (s : State) (q : Nat) : Nat := fld (qprofW s q 0) 0 8

/-- A word of a queue's admission profile (R349). -/
def admW (s : State) (q w : Nat) : Nat := s.tabW cellPage 1 (admProf s q) w

/-- The partition of queue `q` (R325). -/
def partOf (s : State) (q : Nat) : Nat := fld (admW s q 0) 27 3

/-- The traffic class of queue `q` (R358). -/
def queueClass (s : State) (q : Nat) : Nat := fld (qprofW s q 0) 29 3

/-- On-die buffer cells of queue `q`, uq = gq + sq (R326). -/
def uq (s : State) (q : Nat) : Nat := s.hn (.gq q) + s.hn (.sq q)

/-- The free cells of partition `p`: F(p) = PART_SHARED − SH(p) (R326). -/
def partFree (s : State) (p : Nat) : Int := (s.reg (Reg.CELL.PART_SHARED p) : Int) - s.reg (Reg.CELL.PART_SH p)

/-- Recompute the read-only sums of partition `p` after a change (R326, R348). -/
def setPart (p gu sh : Nat) (s : State) : State :=
  let s := (s.setReg (Reg.CELL.PART_GU p) gu).setReg (Reg.CELL.PART_SH p) sh
  s.setReg (Reg.CELL.PART_FREE p) (unsgn (partFree s p) 21)

/-- Queue `q` takes `g` cells under the minimum and `e` shared cells (R326). -/
def takeCounts (q g e : Nat) (s : State) : State :=
  let p := partOf s q
  let s := (s.setH (.gq q) (s.h (.gq q) + g)).setH (.sq q) (s.h (.sq q) + e)
  setPart p (s.reg (Reg.CELL.PART_GU p) + g) (s.reg (Reg.CELL.PART_SH p) + e) s

/-- Queue `q` frees one on-die cell: sq falls while it is above 0, otherwise gq (R326). -/
def freeCount (q : Nat) (s : State) : State :=
  let p := partOf s q
  let gu := s.reg (Reg.CELL.PART_GU p)
  let sh := s.reg (Reg.CELL.PART_SH p)
  if 0 < s.h (.sq q) then setPart p gu (sh - 1) (s.setH (.sq q) (s.h (.sq q) - 1))
  else setPart p (gu - 1) sh (s.setH (.gq q) (s.h (.gq q) - 1))

/-- Whether a cell lies on die. -/
def CellRef.onDie (c : CellRef) : Bool :=
  match c.part with
  | .deep _ | .asked _ => false
  | _ => true

/-- The deep page of a cell in the deep store. -/
def CellRef.page (c : CellRef) : Option Nat :=
  match c.part with
  | .deep p | .asked p => some p
  | _ => none

/-- Whether any frame still has a cell in deep page `p`. -/
def pageInUse (s : State) (p : Nat) : Bool := s.frames.any fun f => f.cells.any fun c => c.page == some p

/-- Cells staged by a queue: in its tail staging, those handed to a page write included (R337, R350). -/
def CellRef.staged (c : CellRef) : Bool :=
  match c.part with
  | .stage | .handed _ => true
  | _ => false

/-- Whether a cell has been handed to a page write: SPILL owns it until the write completes (R317, R337). -/
def CellRef.isHanded (c : CellRef) : Bool :=
  match c.part with
  | .handed _ => true
  | _ => false

/-- Whether a cell can leave its queue: on die, and not handed to a page write (R337, R339). -/
def CellRef.ready (c : CellRef) : Bool := c.onDie && !c.isHanded

/-- A deep page that a queue held returns to pool D, and its return is not waited for any more (R317, R339). -/
def pageFree (p : Nat) (s : State) : State :=
  { (agentFree 1 p spillOwner s).setReg Reg.SPILL.PAGES_HELD (s.reg Reg.SPILL.PAGES_HELD - 1) with
    pageReads := s.pageReads.filter fun r => r.page != p }

/-- Cells leave queue `q`: those on die that the queue owns return to pool C and to the counts; a deep page that no frame
uses any more returns to pool D (R317, R322, R326, R339). -/
def freeCells (q : Nat) (cells : List CellRef) (s : State) : State :=
  let s := forEach cells s fun c s =>
    if c.ready then
      let s := freeCount q (agentFree 0 c.ptr (ownerOf q) s)
      if c.staged then s.setReg Reg.SPILL.STAGE_USED (s.reg Reg.SPILL.STAGE_USED - 1) else s
    else s
  forEach (cells.filterMap CellRef.page).eraseDups s fun p s =>
    if pageInUse s p then s else pageFree p s

/-- The result of an inject frame becomes known, once: its status and its departure time in 1/16 ns (R513, R515). -/
def injResult (ring desc status ts : Nat) (s : State) : State :=
  { s with injects := s.injects.map fun j =>
      if j.ring = ring ∧ j.desc = desc ∧ j.status = none then { j with status := some status, ts := ts } else j }

/-- Whether an inject frame still waits for its result. -/
def injWaits (s : State) (f : Frame) : Bool :=
  f.ring != 0 && s.injects.any fun j => j.ring + 1 == f.ring && j.desc == f.desc && j.status.isNone

/-- The counts taken for a carried request are given back (R319, R326). -/
def uncharge (f : Frame) (s : State) : State :=
  if f.carG + f.carE = 0 then s else
  let p := partOf s f.q
  let s := (s.setH (.gq f.q) (s.h (.gq f.q) - f.carG)).setH (.sq f.q) (s.h (.sq f.q) - f.carE)
  setPart p (s.reg (Reg.CELL.PART_GU p) - f.carG) (s.reg (Reg.CELL.PART_SH p) - f.carE) s

/-- Whether the in-flight count of a frame has passed to its first cell on the local path (R285, R416). -/
def onLocalPath (s : State) (f : Frame) : Bool :=
  decide (f.loc = .fabricTx) && f.sent != 0 && (f.ctx - 1) / 8 == s.reg Reg.FAB.DEV_ID

/-- A frame leaves the device or is discarded whole: it gives up its buffers and leaves the in-flight count (R285, R317).
The write-back of an inject frame dropped for a reason that has no STATUS of its own carries a free STATUS
(notes/assumptions/3.md). -/
def State.drop (s : State) (f : Frame) : State :=
  let s := if injWaits s f then let (v, s) := s.free; injResult (f.ring - 1) f.desc (v % 256) 0 s else s
  let s := uncharge f (s.removeFrame f.id)
  let s := freeCells f.q f.cells s
  let s := forEach f.pre s fun j s => agentFree 0 j (ownerOf f.q) s
  let s := if f.hbuf = 0 then s else agentFree f.hpool (f.hbuf - 1) puntOwner s
  match f.parity with
  | some p => if onLocalPath s f then s else infDec p s
  | none => s

/-- The PFE page. -/
def pfePage : Nat := 10

/-- One more in RO word `w` of PFE entry `i`, modulo 2^32 (R489). -/
def pfeBump (i w : Nat) (s : State) : State :=
  let e := s.tab pfePage 1 i
  s.setTab pfePage 1 i (setWord e w ((word e w + 1) % 2 ^ 32))

/-- A frame of PFE entry `i` is missed (R484). -/
def pfeMiss (i : Nat) (s : State) : State :=
  s.ifLive pfePage fun s => raiseFirst pfePage 0 (bump Reg.PFE.MISSED (pfeBump i 8 s))

/-- A frame that is a PFE frame has started towards its port or the fabric (R484, R489). -/
def pfeSent (f : Frame) (s : State) : State :=
  if f.pfe != 0 && s.live pfePage then bump Reg.PFE.SENT (pfeBump (f.pfe - 1) 7 s) else s

/-- Every frame that a predicate holds for is discarded whole. -/
def dropWhere (p : Frame → Bool) (s : State) : State := forEach (s.frames.filter p) s fun f s => s.drop f

/-- A frame is discarded whole at a page that performs no function (R45). -/
def dropDisabled (p : Nat) (f : Frame) (s : State) : State :=
  let s := s.drop f
  if s.clocked p then errDisabled p s else s

/-! ### Crossing the Bridge (R21) -/

/-- The BRIDGE page. -/
def bridgePage : Nat := 0x100

/-- A frame is carried from one die to the other, to be held at `l`; the Bridge discards it while it performs no function (R21,
R45). -/
def bridgeTo (f : Frame) (l : Loc) (s : State) : State :=
  if s.live bridgePage then s.moveFrame f l else dropDisabled bridgePage f s

end Sys2Proof.Machine
end

