-- ==== Sys2Proof/Machine/Classify.lean ====
section
/-!
DEFINITION. The parse engine and the classification lookups (spec/05_parsing_classification.md, R175 to R217).
-/
namespace Sys2Proof.Machine

/-- Page numbers of the instanced pages (R36). -/
def lportPage (n : Nat) : Nat := 0x10 + n
def lgPage (g : Nat) : Nat := 0x90 + g
def otnPage (g : Nat) : Nat := 0x98 + g
def ohpPage (k : Nat) : Nat := 0xA0 + k
def ipipePage (g : Nat) : Nat := 0xB0 + g
def epipePage (g : Nat) : Nat := 0xB8 + g
def tcamPage : Nat := 0xC2

/-- The parity-error mark of a table position (R207, R262): set by a scrubber, cleared by a rewrite. -/
def parBad (s : State) (p sel i : Nat) : Bool := s.hb (.parityBad (p * 256 + sel) i)

def setParBad (p sel i : Nat) (b : Bool) (s : State) : State := s.setHb (.parityBad (p * 256 + sel) i) b

/-! ### The parse engine -/

/-- What the walk of the graph has gathered (R187). -/
structure Parse where
  /-- The 64 slots. -/
  slots : List Nat := List.replicate 64 0
  /-- Bits of each slot written by an earlier node (R182). -/
  written : List Nat := List.replicate 64 0
  flags : Nat := 0
  ptype : Nat := 0
  headers : Nat := 0
  /-- Failure code, 0 on success (R191). -/
  code : Nat := 0
  /-- `HDR_ID` and byte offset of each header entered, first header first. -/
  stack : List (Nat × Nat) := []
  /-- The parse ended at a fragment (R189). -/
  frag : Bool := false
  deriving DecidableEq, Repr

/-- Slot `i` of a parse result. -/
def Parse.slot (r : Parse) (i : Nat) : Nat := (r.slots.drop i).headD 0

/-- Element `i` of a list replaced. -/
def setAt (xs : List Nat) (i v : Nat) : List Nat := xs.take i ++ (v :: xs.drop (i + 1))

/-- One extraction of a header that starts at `o` (R182). `before` holds the bits that earlier nodes wrote. -/
def extract (bs : List Byte) (o e : Nat) (before : List Nat) (r : Parse) : Parse :=
  if !bit e 31 then r else
  let w := fld e 14 5 + 1
  let lsb := fld e 19 5
  let slot := fld e 24 6
  let sbit := fld e 5 3
  let n := cdiv (sbit + w) 8
  let v := fld (beAt bs (o + fld e 8 6) n) (8 * n - sbit - w) w
  let mask := (2 ^ w - 1) * 2 ^ lsb
  let mask := if bit e 30 then mask &&& ((before.drop slot).headD 0 ^^^ 0xFFFFFFFF) else mask
  let old := r.slot slot
  { r with
    slots := setAt r.slots slot (mergeMask old (v * 2 ^ lsb) mask)
    written := setAt r.written slot ((r.written.drop slot).headD 0 ||| mask) }

/-- The last byte, counted from the header's start, that an extraction reads; 0 for an invalid one. -/
def extractEnd (e : Nat) : Nat := if bit e 31 then fld e 8 6 + (fld e 5 3 + fld e 14 5) / 8 else 0

/-- The parse tables as one pipeline holds them: the node, transition and extraction entries of a bank (R177, R213). -/
def parseNode (s : State) (g bank n : Nat) : Nat := s.tab (ipipePage g) 1 (256 * bank + n)
def parseTrans (s : State) (g bank n t : Nat) : Nat := s.tab (ipipePage g) 2 (2048 * bank + 8 * n + t)
def parseExtr (s : State) (g bank n i : Nat) : Nat := s.tab (ipipePage g) 3 (2048 * bank + 8 * n + i)

/-- The next step chosen at a node (R183). -/
def parseNext (s : State) (g bank n sel : Nat) : Nat :=
  let hit := (List.range 8).find? fun t =>
    let e := parseTrans s g bank n t
    bit (word e 1) 31 && ((sel &&& fld e 0 16) == (fld e 16 16 &&& fld e 0 16))
  match hit with
  | some t => fld (word (parseTrans s g bank n t) 1) 0 9
  | none => fld (word (parseNode s g bank n) 3) 0 9

/-- The header length of node entry `e` at offset `o` (R181). -/
def headerLen (bs : List Byte) (o e : Nat) : Nat :=
  let base := fld e 0 8
  let wid := fld (word e 1) 16 4
  if wid = 0 then base
  else base + fld (byteAt bs (o + fld (word e 1) 24 6)) (fld (word e 1) 20 3) wid * 2 ^ fld (word e 1) 12 2

/-- The fragment test of R189: whether the header is a fragment, and whether its offset is 0. -/
def fragTest (bs : List Byte) (o kind : Nat) : Bool × Bool :=
  match kind with
  | 1 => let v := beAt bs (o + 6) 2; (bit v 13 || fld v 0 13 != 0, fld v 0 13 == 0)
  | 2 => (true, fld (beAt bs (o + 2) 2) 3 13 == 0)
  | _ => (false, false)

/-- A failed parse (R191). -/
def Parse.fail (r : Parse) (c : Nat) : Parse := { r with code := c, flags := setBit r.flags 14 true }

/-- The code of a check of byte `i` that lies outside the window (R191, R192): SHORT past the last byte of a frame of 256 parse
bytes or fewer, or past the bytes that a frame truncated by the MAC holds (`held`); else WINDOW. -/
def pastCode (long : Bool) (held : Option Nat) (i : Nat) : Nat :=
  if !long || (held.any fun h => h ≤ i) then 4 else 5

/-- The walk of the graph from node `n` at byte offset `o` (R180). `bs` are the parse bytes in the window, `long` says that
the frame has more than 256 parse bytes, `held` is the length of a frame truncated by the MAC (R192). -/
def parseWalk (s : State) (g bank : Nat) (bs : List Byte) (long : Bool) (held : Option Nat) : Nat → Nat → Nat → Parse → Parse
  | 0, _, _, r => r.fail 1
  | fuel + 1, n, o, r =>
    let r := { r with headers := r.headers + 1 }
    let e := parseNode s g bank n
    if !bit e 31 then r.fail 2 else
    let r := { r with stack := r.stack ++ [(fld e 8 8, o)] }
    if fld (word e 1) 16 4 ≠ 0 ∧ bs.length ≤ o + fld (word e 1) 24 6 then r.fail (pastCode long held (o + fld (word e 1) 24 6))
    else
      let len := headerLen bs o e
      if len = 0 ∨ len < fld (word e 1) 0 8 then r.fail 3
      else
        let xs := (List.range 8).map (parseExtr s g bank n)
        let kind := fld e 28 2
        let need := (xs.map extractEnd).foldl max
          (max (len - 1) (max (fld (word e 2) 0 6 + 1) (if kind = 1 then 7 else if kind = 2 then 3 else 0)))
        if bs.length ≤ o + need then r.fail (pastCode long held (o + need))
        else
          let r := xs.foldl (fun t x => extract bs o x r.written t) r
          let r := { r with flags := r.flags ||| fld (word e 2) 20 12 }
          let r := if bit e 23 then { r with ptype := fld e 24 4 } else r
          let (isFrag, first) := fragTest bs o kind
          if isFrag then { r with frag := true, flags := setBit (setBit r.flags 12 true) 13 first }
          else
            let nx := parseNext s g bank n (beAt bs (o + fld (word e 2) 0 6) 2)
            if nx < 256 then parseWalk s g bank bs long held fuel nx (o + len) r
            else if nx = 0x100 then r else r.fail 6

/-- The parse of a frame in pipeline `g` from start node `n` with the bank of its parity (R176, R177, R192). `more` says whether
bytes follow the 256 of a frame that is still arriving. -/
def parseFrame (s : State) (g bank n : Nat) (f : Frame) (more : Bool) : Parse :=
  let long := decide (256 < f.bytes.length) || (!f.full && more)
  let r := parseWalk s g bank (f.bytes.take 256) long (if f.bad && !f.fcs then some f.bytes.length else none) 24 n 0 {}
  if r.headers = 24 ∧ r.code = 1 then { r with headers := 25 } else r

/-- The port's index within its pipeline's tables: 0 to 15 for a line port, 16 for the recirculation port (R211). -/
def portSlot (port : Nat) : Nat := if port < 128 then port % 16 else 16

/-! ### Classification -/

/-- The metadata words of R195 that do not depend on the lookup. -/
structure Meta where
  sysPort : Nat
  portIdx : Nat
  portCls : Nat
  parse : Parse
  l3if : Nat
  vrf : Nat
  cls : Nat
  colour : Nat
  discard : Bool
  punt : Bool
  dstSys : Nat
  adj : Nat
  dev : Nat
  len : Nat

/-- Metadata word `i` for key profile `prof` (R195). -/
def metaWord (m : Meta) (prof : Nat) : Nat → Nat
  | 0 => m.sysPort * 2 ^ 17 + m.portIdx * 2 ^ 8 + m.portCls * 16 + m.parse.ptype
  | 1 => m.parse.flags * 2 ^ 16 + m.parse.headers * 2 ^ 8 + m.parse.code
  | 2 => m.l3if * 2 ^ 16 + m.vrf
  | 3 => m.cls * 2 ^ 29 + m.colour * 2 ^ 27 + ofB m.discard * 2 ^ 26 + ofB m.punt * 2 ^ 25 + m.dstSys
  | 4 => m.adj * 2 ^ 12 + m.dev
  | 5 => m.len
  | 6 => prof
  | _ => 0

/-- Half-word `i` of the key bus, 0 to 159. -/
def keyBus (m : Meta) (prof i : Nat) : Nat :=
  if i < 128 then fld (m.parse.slot (i / 2)) (16 * (i % 2)) 16
  else if i < 144 then fld (metaWord m prof ((i - 128) / 2)) (16 * (i % 2)) 16
  else 0

/-- Chain length of lookup `l`: 1, 2 or 4 slices (R197). -/
def chainLen (s : State) (l : Nat) : Nat := 2 ^ s.rfld (Reg.TCAM.LKP_CFG l) 0 2

/-- The key of lookup `l` under profile `prof` (R196). -/
def buildKey (s : State) (m : Meta) (l prof : Nat) : Nat :=
  let e := s.tab tcamPage 3 (64 * l + prof)
  (List.range (10 * chainLen s l)).foldl (fun k j =>
    let sel := fld e (8 * j) 8
    k + (if sel < 160 then keyBus m prof sel else 0) * 2 ^ (16 * j)) 0

/-- The head slice of the chain that slice `sl` belongs to, by the width of the lookup that its `SLICE_CFG` names (R204). -/
def headSlice (st : State) (sl : Nat) : Nat := sl - sl % chainLen st (st.rfld (Reg.TCAM.SLICE_CFG sl) 1 1)

/-- Whether slice `sl` is enabled and assigned to lookup `l` (R197). -/
def sliceServes (st : State) (l sl : Nat) : Bool :=
  st.rbit (Reg.TCAM.SLICE_CFG sl) 0 && st.rfld (Reg.TCAM.SLICE_CFG sl) 1 1 == l

/-- Whether slice `sl` belongs to an incomplete chain: one of which a slice, but not every slice, serves its lookup (R198). -/
def chainBroken (st : State) (sl : Nat) : Bool :=
  [0, 1].any fun l =>
    let k := chainLen st l
    let serve := (List.range k).map fun m => sliceServes st l (sl - sl % k + m)
    serve.any id && !serve.all id

/-- Whether slice `sl` heads an active chain of lookup `l`: all its slices serve `l`, and none belongs to an incomplete chain of
the other lookup (R198). -/
def chainActive (st : State) (l sl : Nat) : Bool :=
  let k := chainLen st l
  sl % k == 0 && (List.range k).all fun m => sliceServes st l (sl + m) && !chainBroken st (sl + m)

/-- Whether row `pos` matches 160 key bits (R199). -/
def rowMatches (s : State) (pos key : Nat) : Bool :=
  let e := s.tab tcamPage 1 pos
  let mask := fld e 160 160
  (key &&& mask) == (fld e 0 160 &&& mask)

/-- Positions of every entry of lookup `l` that matches a key for parity `p`, lowest first (R199, R200). -/
def tcamMatches (s : State) (l key p : Nat) : List Nat :=
  ((s.tabList tcamPage 1).filter fun (pos, e) =>
    bit (word e 10) p && chainActive s l (pos / 2048) &&
      (List.range (chainLen s l)).all fun m => rowMatches s (pos + 2048 * m) (fld key (160 * m) 160)).map (·.1)

/-- The action word of an entry (R208). -/
def tcamAction (s : State) (pos : Nat) : Nat := s.tabW tcamPage 1 pos 11

/-- The class, colour and queue selection being resolved (R209): qsel is 0 none, 1 NULL, 2 OFFSET. -/
structure Resolve where
  cls : Nat
  colour : Nat
  qsel : Nat := 0
  qoff : Nat := 0
  deriving DecidableEq, Repr

/-- A hit's action is applied over what stands (R209). -/
def Resolve.apply (a : Resolve) (act : Nat) : Resolve :=
  let a := if bit act 15 then { a with cls := fld act 12 3 } else a
  let a := if bit act 11 then { a with colour := fld act 9 2 } else a
  if fld act 7 2 ≠ 0 then { a with qsel := fld act 7 2, qoff := fld act 0 3 } else a

/-- The KSEL entry of a frame (R194). -/
def kselOf (s : State) (bank portCls ptype : Nat) : Nat := s.tab tcamPage 2 (256 * bank + 16 * portCls + ptype)

/-- Whether the KSEL entry enables lookup `l`, and its key profile (R194). -/
def kselEn (k l : Nat) : Bool := bit k (if l = 0 then 31 else 23)
def kselProf (k l : Nat) : Nat := if l = 0 then fld k 24 6 else fld k 16 6

/-- One classification lookup for parity `p`: counted, its winner's action applied and its multiple-match flag set (R200,
R209). The flow-statistics pair of the winner counts the frame (R569). -/
def classify1 (m : Meta) (p l prof : Nat) (bytes : Nat) (a : Resolve × Nat × State) :
    Resolve × Nat × State :=
  let (r, multi, s) := a
  match tcamMatches s l (buildKey s m l prof) p with
  | [] => (r, multi, bump (Reg.TCAM.LKP_MISS l) s)
  | pos :: rest =>
    let s := fsCount (3407872 + pos) bytes (bump (Reg.TCAM.LKP_HIT l) s)
    let s := if rest.isEmpty then s else bump (Reg.TCAM.LKP_MULTI l) s
    (r.apply (tcamAction s pos), if rest.isEmpty then multi else multi + 2 ^ l, s)

end Sys2Proof.Machine
end

