-- ==== Sys2Proof/Machine/Tables.lean ====
section
/-!
DEFINITION. The forwarding tables: hash tables (R226 to R237), the longest-prefix table (R238 to R243), learning and
ageing of L2 (R250 to R261), parity and scrub (R262 to R264), and the generation rules of their writes (R295, R296).
-/
namespace Sys2Proof.Machine

def lpmPage : Nat := 0xC0
def emPage : Nat := 0xC1
def adjPage : Nat := 0xC3
def l2Page : Nat := 0xC4
def polPage : Nat := 0xC5

/-! ### Generation rules of writes (R295, R296) -/

/-- What the generation cycle makes of a software command that changes a visibility from `old` to `new`: refused with
GEN_LOCKED, or the visibility that is stored (R295, R296). Before a flip in progress applies, the old parity is the
present one (R286, R288). -/
def genVis (s : State) (old new : Nat) : Option Nat :=
  let st := s.hn .capoState
  let po := if s.hb .flipPending then s.hn .capoParity else oldParity s
  if (st = 2 ∨ st = 3) ∧ fld old po 1 ≠ fld new po 1 then none
  else if st = 4 ∧ new = 2 ^ po then none
  else if st = 4 ∧ new = 2 ^ (1 - po) then some 3
  else some new

/-- A table command refused with code `code` (R54, R281): counted and captured with `TBL_IDX`; GEN_LOCKED also counts in
`CAPO.GEN_LOCKED_WR`. Answers the state and the code. -/
def tblFail (p code reqn sel idx : Nat) (s : State) : State × Nat :=
  let s := errBy p code reqn sel idx s
  (if code = 0x1F then bump Reg.CAPO.GEN_LOCKED_WR s else s, code)

/-! ### Hash tables (R226 to R233) -/

/-- The hash tables (R226): L2 once for each pipeline. -/
inductive HTab where
  | mpls | ift | l2 (g : Nat)
  deriving DecidableEq, Repr

/-- The page and table number of a hash table (R279). -/
def HTab.page : HTab → Nat
  | .l2 _ => l2Page | _ => emPage
def HTab.sel : HTab → Nat
  | .mpls => 1 | .ift => 2 | .l2 g => 1 + g

/-- Bucket bits B of R226. -/
def HTab.bits : HTab → Nat
  | .mpls => 18 | .ift => 14 | .l2 _ => 16

/-- Entries in buckets, N of R231. -/
def HTab.cap (t : HTab) : Nat := 4 * 2 ^ t.bits

/-- Words of an entry (R279). -/
def HTab.words : HTab → Nat
  | .l2 _ => 3 | _ => 4

/-- The seed register (R277, R278). -/
def HTab.seed : HTab → Nat
  | .mpls => Reg.EM.MPLS_SEED | .ift => Reg.EM.IFT_SEED | .l2 _ => Reg.L2.HASH_SEED

/-- The registers that count entries and overflow slots (R277, R278). -/
def HTab.entReg : HTab → Nat
  | .mpls => Reg.EM.MPLS_ENT | .ift => Reg.EM.IFT_ENT | .l2 g => Reg.L2.ENT_CNT g
def HTab.ovfReg : HTab → Nat
  | .mpls => Reg.EM.MPLS_OVF | .ift => Reg.EM.IFT_OVF | .l2 g => Reg.L2.OVF_USED g

/-- The table that a page and `TBL_SEL` name. -/
def hashTab (p sel : Nat) : Option HTab :=
  if p = emPage then if sel = 1 then some .mpls else if sel = 2 then some .ift else none
  else if p = l2Page ∧ 1 ≤ sel ∧ sel ≤ 8 then some (.l2 (sel - 1))
  else none

/-- The visibility of an entry (R234, R236, R250). -/
def entVis (t : HTab) (e : Nat) : Nat :=
  match t with
  | .l2 _ => fld (word e 2) 30 2
  | _ => fld (word e 1) 30 2

/-- An entry with another visibility. -/
def setEntVis (t : HTab) (e v : Nat) : Nat :=
  match t with
  | .l2 _ => setFld e 94 2 v
  | _ => setFld e 62 2 v

/-- The key of an entry as one number: MPLS the label, IFT port index and VID, L2 bridge domain above the MAC. -/
def entKey (t : HTab) (e : Nat) : Nat :=
  match t with
  | .l2 _ => fld (word e 1) 0 14 * 2 ^ 48 + word e 0 * 2 ^ 16 + fld (word e 1) 16 16
  | _ => fld e 0 20

/-- The key bytes that the hash covers (R226). -/
def keyBytes (t : HTab) (k : Nat) : List Byte :=
  match t with
  | .mpls => beBytes 3 k
  | .ift => beBytes 1 (k / 4096) ++ beBytes 2 (k % 4096)
  | .l2 _ => beBytes 8 k

/-- CRC-32 of one byte, most significant bit first, polynomial 0x1EDC6F41 (R227). -/
def crc32Byte (c : Nat) (b : Byte) : Nat :=
  (List.range 8).foldl (fun c _ => if 2 ^ 31 ≤ c then (c * 2 % 2 ^ 32) ^^^ 0x1EDC6F41 else c * 2) (c ^^^ (b.toNat * 2 ^ 24))

/-- CRC-32 from a start value, with no final inversion (R227). -/
def crc32 (seed : Nat) (bs : List Byte) : Nat := bs.foldl crc32Byte seed

/-- The bucket of a key (R227). -/
def bucketOf (s : State) (t : HTab) (k : Nat) : Nat := crc32 (s.reg t.seed) (keyBytes t k) % 2 ^ t.bits

/-- The listed entries that a lookup of a key reads: those of its bucket and of the overflow store (R228). -/
def readSet (s : State) (t : HTab) (k : Nat) : List (Nat × Nat) :=
  let b := bucketOf s t k
  (s.tabList t.page t.sel).filter fun (pos, _) => pos / 4 == b || t.cap ≤ pos

/-- The position of the entry that a lookup for parity `p` hits (R228); an entry that fails its parity is ignored (R262). -/
def hashFind (s : State) (t : HTab) (k p : Nat) : Option Nat :=
  ((readSet s t k).find? fun (pos, e) =>
    entKey t e == k && bit (entVis t e) p && !parBad s t.page t.sel pos).map (·.1)

/-- The positions of a table that are marked as failing their parity, lowest first. -/
def parMarks (s : State) (p sel : Nat) : List Nat :=
  (s.hid.filter fun e => e.1 / 2 ^ 32 == (Hid.parityBad (p * 256 + sel) 0).code / 2 ^ 32).map fun e => e.1 % 2 ^ 32

/-- The position of an entry that fails its parity among those that the lookup of a key reads, in its bucket or in the overflow
store (R262). -/
def hashBad (s : State) (t : HTab) (k : Nat) : Option Nat :=
  let b := bucketOf s t k
  (parMarks s t.page t.sel).find? fun pos => pos / 4 == b || t.cap ≤ pos

/-- Every position whose entry has the key, apart from `except_` (R229). -/
def sameKey (s : State) (t : HTab) (k except_ : Nat) : List (Nat × Nat) :=
  (readSet s t k).filter fun (pos, e) => entKey t e == k && pos != except_

/-- Whether an entry with the key, apart from `except_`, shares a visibility with `v` (R229). A write of the sweep is judged
by the visibility that it would store (R296). -/
def clashes (s : State) (t : HTab) (k except_ v : Nat) : Bool :=
  (sameKey s t k except_).any fun x => entVis t x.2 &&& v != 0

/-- Store an entry of a hash table and keep its counts of entries and overflow slots (R277, R278). -/
def putEntry (t : HTab) (pos e : Nat) (s : State) : State :=
  let was := ofB (entVis t (s.tab t.page t.sel pos) != 0)
  let now := ofB (entVis t e != 0)
  let s := setParBad t.page t.sel pos false (s.setTab t.page t.sel pos e)
  let s := s.setReg t.entReg (s.reg t.entReg + now - was)
  if t.cap ≤ pos then s.setReg t.ovfReg (s.reg t.ovfReg + now - was) else s

/-- Field values that an entry may not hold (R234, R236). -/
def entRange (t : HTab) (e : Nat) : Bool :=
  match t with
  | .mpls => fld (word e 1) 28 2 == 3 || (bit (word e 1) 20 && fld (word e 1) 16 4 != 0)
  | .ift => 135 < fld (word e 0) 12 8 || fld (word e 1) 25 2 == 3
  | .l2 _ => false

/-- The bits of an entry that exist (the formats of R234, R236, R250: reserved bits read 0). -/
def entMask : HTab → Nat
  | .mpls => ofWords [0xFFFFF, 0xF01FFFFF, 0xFFFFF000, 0x8000FFFF]
  | .ift => ofWords [0xFFFFF, 0xFFF03FFF, 0xFFFFFFFF, 0xFF0FFFFF]
  | .l2 _ => ofWords [0xFFFFFFFF, 0xFFFF3FFF, 0xFFFF7FFF]

/-- A software WRITE to a hash table (R229, R231, R234 to R236, R250, R295, R296). -/
def hashWrite (t : HTab) (reqn idx data : Nat) (s : State) : State × Nat :=
  let e := (cutWords data t.words) &&& entMask t
  let old := s.tab t.page t.sel idx
  let fail := fun c => tblFail t.page c reqn t.sel idx s
  if entRange t e then fail 0x12
  else if idx < t.cap ∧ bucketOf s t (entKey t e) ≠ idx / 4 then fail 0x13
  else if clashes s t (entKey t e) idx (entVis t e) then fail 0x10
  else
    match genVis s (entVis t old) (entVis t e) with
    | none => fail 0x1F
    | some v =>
      if clashes s t (entKey t e) idx v then fail 0x10 else
      let e := setEntVis t e v
      let thaw := match t with
        | .l2 _ => bit (word old 2) 28 && !bit (word e 2) 28
        | _ => false
      (putEntry t idx (if thaw then setFld e 84 4 0 else e) s, 0)

/-- The position that INSERT takes: the lowest way of the bucket with VIS 00, else the lowest free overflow slot (R230). -/
def insertPos (s : State) (t : HTab) (k : Nat) : Option Nat :=
  let b := bucketOf s t k
  let free := fun pos => entVis t (s.tab t.page t.sel pos) == 0
  match (List.range 4).find? fun w => free (4 * b + w) with
  | some w => some (4 * b + w)
  | none =>
    let used := ((s.tabList t.page t.sel).filter fun (pos, e) => t.cap ≤ pos && entVis t e != 0).map fun x => x.1 - t.cap
    let o := firstGap 1 0 used
    if o < 4096 then some (t.cap + o) else none

/-- The age of an L2 entry in ticks (R255, R259). -/
def l2Age (s : State) (e : Nat) : Nat := (s.hn .ageNow + 16 - fld (word e 2) 24 4) % 16

/-- The way that the eviction policy replaces in a full bucket (R255): OLDEST the greatest age, ties to the lowest way;
RANDOM a free choice of the LFSR among the same entries. -/
def evictWay (s : State) (g k : Nat) : Option Nat × State :=
  let t := HTab.l2 g
  let b := bucketOf s t k
  let ok := (List.range 4).filter fun w =>
    let e := s.tab t.page t.sel (4 * b + w)
    entVis t e == 3 && !bit (word e 2) 29
  let age := fun w => l2Age s (s.tab t.page t.sel (4 * b + w))
  match s.reg Reg.L2.EVICT, ok with
  | _, [] => (none, s)
  | 1, w :: ws => (some (4 * b + ws.foldl (fun best x => if age best < age x then x else best) w), s)
  | 2, w :: ws =>
    let (v, s) := s.free
    (some (4 * b + (((w :: ws).drop (v % (w :: ws).length)).headD w)), s)
  | _, _ => (none, s)

/-- A notification enters the FIFO, or is lost (R258). -/
def notifyPush (n : Nat) (s : State) : State :=
  if 16384 ≤ s.notify.length then raise l2Page 1 (bump Reg.L2.NOTIFY_LOST s)
  else
    let was := s.notify.isEmpty
    let s := { s with notify := s.notify ++ [BitVec.ofNat 128 n] }
    let s := s.setReg Reg.L2.NOTIFY_CNT s.notify.length
    if was then raise l2Page 0 s else s

/-- The four words of a notification (R258). -/
def notifyWords (type : Nat) (applied : Bool) (g mac bd port prev : Nat) : Nat :=
  ofWords [mac / 65536, mac % 65536 * 65536 + bd, type * 2 ^ 28 + ofB applied * 2 ^ 27 + g * 2 ^ 24 + port, prev]

/-- A report made only because LEARN is NOTIFY, suppressed if it repeats one of the last 64 placed (R258). -/
def notifyReport (g n : Nat) (s : State) : State :=
  let b := BitVec.ofNat 128 n
  if s.reports.any fun x => x.1 == g && x.2 == b then s
  else if 16384 ≤ s.notify.length then notifyPush n s
  else
    let s := notifyPush n s
    let mine := (g, b) :: (s.reports.filter fun x => x.1 == g).take 63
    { s with reports := mine ++ s.reports.filter fun x => x.1 != g }

/-- The MAC and bridge domain of an L2 entry. -/
def l2Mac (e : Nat) : Nat := word e 0 * 65536 + fld (word e 1) 16 16
def l2Bd (e : Nat) : Nat := fld (word e 1) 0 14
def l2Port (e : Nat) : Nat := fld (word e 2) 0 15

/-- Place an entry in a hash table under R230; a full L2 bucket follows the eviction policy (R255). Answers the position
and whether an entry was evicted. -/
def placeEntry (t : HTab) (e : Nat) (s : State) : Option (Nat × Bool) × State :=
  match insertPos s t (entKey t e) with
  | some pos => (some (pos, false), putEntry t pos e s)
  | none =>
    match t with
    | .l2 g =>
      match evictWay s g (entKey t e) with
      | (none, s) => (none, s)
      | (some pos, s) =>
        let old := s.tab t.page t.sel pos
        let s := bump (Reg.L2.EVICTED g) s
        let s := putEntry t pos e s
        (some (pos, true), notifyPush (notifyWords 4 true g (l2Mac old) (l2Bd old) (l2Port old) 0) s)
    | _ => (none, s)

/-- An insert into L2 that finds no way, or that would break R229, is dropped, counted and reported (R255). -/
def l2LearnRej (g mac bd port : Nat) (s : State) : State :=
  let s := raiseFirst l2Page 4 (bump (Reg.L2.LEARN_REJ g) s)
  notifyPush (notifyWords 6 true g mac bd port 0) s

/-- The result word of a key-addressed command (R232). -/
def doneWord (evicted : Bool) (pos : Nat) : Nat := 2 ^ 31 + ofB evicted * 2 ^ 30 + pos

/-- INSERT (R229, R230, R232, R255, R295, R296): answers the state, the code and `TBL_DATA[15]`. An eviction that would
change the old-parity bit of the entry evicted is refused too (R295). -/
def hashInsert (t : HTab) (reqn idx data : Nat) (s : State) : State × Nat × Nat :=
  let e := (cutWords data t.words) &&& entMask t
  let fail := fun (c : Nat) (s : State) =>
    let (s, c) := tblFail t.page c reqn t.sel idx s
    (s, c, 0)
  if entRange t e ∨ entVis t e = 0 then fail 0x12 s
  else if clashes s t (entKey t e) (2 ^ 40) (entVis t e) then fail 0x10 s
  else
    match genVis s 0 (entVis t e) with
    | none => fail 0x1F s
    | some v =>
      if clashes s t (entKey t e) (2 ^ 40) v then fail 0x10 s else
      match placeEntry t (setEntVis t e v) s with
      | (some (pos, ev), s') => if ev && (genVis s 3 v).isNone then fail 0x1F s else (s', 0, doneWord ev pos)
      | (none, s) =>
        match t with
        | .l2 g => fail 0x11 (l2LearnRej g (l2Mac e) (l2Bd e) (l2Port e) s)
        | _ => fail 0x11 (bump Reg.EM.INS_REJ s)

/-- DELETE (R232, R295): VIS 00 to each entry with the key that shares a bit with the mask. -/
def hashDelete (t : HTab) (reqn idx data : Nat) (s : State) : State × Nat × Nat :=
  let mask := fld (word data 14) 0 2
  let hits := (sameKey s t (entKey t data) (2 ^ 40)).filter fun x => entVis t x.2 &&& mask != 0
  let fail := fun c =>
    let (s, c) := tblFail t.page c reqn t.sel idx s
    (s, c, 0)
  if mask = 0 then fail 0x12
  else
    match hits.reverse with
    | [] => fail 0x14
    | (last, _) :: _ =>
      if hits.any fun x => (genVis s (entVis t x.2) 0).isNone then fail 0x1F
      else (forEach hits s fun x s => putEntry t x.1 (setEntVis t x.2 0) s, 0, doneWord false last)

/-- LOOKUP (R228, R232): the entry found and `TBL_DATA[15]`. -/
def hashLookup (t : HTab) (data : Nat) (s : State) : Option (Nat × Nat) :=
  (hashFind s t (entKey t data) (fld (word data 14) 0 1)).map fun pos => (s.tab t.page t.sel pos, 2 ^ 31 + pos)

/-! ### Longest-prefix routes (R238 to R242) -/

/-- A route entry as the route agent holds it: words 0 to 5 of R239 in table ROUTE at a slot of the model's own. -/
def routeList (s : State) : List (Nat × Nat) := (s.tabList lpmPage 1).filter fun x => x.2 != 0

/-- The address part of route data: 128 bits, most significant word in word 1. -/
def routeAddr (d : Nat) : Nat := word d 1 * 2 ^ 96 + word d 2 * 2 ^ 64 + word d 3 * 2 ^ 32 + word d 4

def routeV6 (d : Nat) : Bool := bit d 15
def routeLen (d : Nat) : Nat := fld d 0 8
def routeVrf (d : Nat) : Nat := fld d 16 16
def routeVis (d : Nat) : Nat := fld (word d 5) 30 2

/-- Address bits of a family. -/
def famBits (v6 : Bool) : Nat := if v6 then 128 else 32

/-- Units that a route costs (R238). -/
def routeUnits (d : Nat) : Nat := if routeV6 d then if routeLen d ≤ 64 then 2 else 4 else 1

/-- Whether two route data name the same VRF, family, prefix and length. -/
def samePrefix (a b : Nat) : Bool :=
  fld a 15 17 == fld b 15 17 && routeLen a == routeLen b && routeAddr a == routeAddr b

/-- LEN out of range, or a prefix bit set below its length (R240). -/
def routeRange (d : Nat) : Bool :=
  let w := famBits (routeV6 d)
  w < routeLen d || routeAddr d % 2 ^ (w - routeLen d) != 0 || (!routeV6 d && 2 ^ 32 ≤ routeAddr d)

/-- The ECMP and NEXT rules of R234 hold for word 5 or 6 of a route. -/
def nextRange (w : Nat) : Bool := bit w 20 && fld w 16 4 != 0

/-- Store or remove a route and keep the counts of units and entries (R238, R277). -/
def putRoute (slot d : Nat) (s : State) : State :=
  let old := s.tab lpmPage 1 slot
  let v4 := fun e => ofB (e != 0 && !routeV6 e)
  let v6 := fun e => ofB (e != 0 && routeV6 e)
  let units := fun e => if e = 0 then 0 else routeUnits e
  let s := setParBad lpmPage 1 slot false (s.setTab lpmPage 1 slot d)
  let s := s.setReg Reg.LPM.UNITS_USED (s.reg Reg.LPM.UNITS_USED + units d - units old)
  let s := s.setReg Reg.LPM.ROUTES_V4 (s.reg Reg.LPM.ROUTES_V4 + v4 d - v4 old)
  s.setReg Reg.LPM.ROUTES_V6 (s.reg Reg.LPM.ROUTES_V6 + v6 d - v6 old)

/-- The bits of route words 0 to 5 that exist (R239). A route entry keeps bit 8 of word 0 set, so that none is 0. -/
def routeMask : Nat := ofWords [0xFFFF80FF, 0xFFFFFFFF, 0xFFFFFFFF, 0xFFFFFFFF, 0xFFFFFFFF, 0xC01FFFFF]

/-- The slot of the route that words 0 to 4 and the VIS of word 5 name. -/
def findRoute (s : State) (d : Nat) : Option (Nat × Nat) :=
  (routeList s).find? fun (_, e) => samePrefix e d && routeVis e == routeVis d

/-- ROUTE_ADD (R239, R240, R295, R296). -/
def routeAdd (reqn idx data : Nat) (s : State) : State × Nat :=
  let d := data &&& routeMask
  let fail := fun c => tblFail lpmPage c reqn 1 idx s
  if routeRange d ∨ routeVis d = 0 ∨ nextRange (word d 5) then fail 0x12
  else if (routeList s).any fun (_, e) => samePrefix e d && (routeVis e &&& routeVis d) != 0 then fail 0x10
  else if s.reg Reg.LPM.UNITS_CAP < s.reg Reg.LPM.UNITS_USED + routeUnits d then fail 0x11
  else
    match genVis s 0 (routeVis d) with
    | none => fail 0x1F
    | some v =>
      if (routeList s).any fun (_, e) => samePrefix e d && (routeVis e &&& v) != 0 then fail 0x10 else
      let slot := firstGap 1 0 ((routeList s).map (·.1))
      (putRoute slot (setFld d 190 2 v + 2 ^ 8) s, 0)

/-- ROUTE_DEL (R239, R240, R295). -/
def routeDel (reqn idx data : Nat) (s : State) : State × Nat :=
  let d := data &&& routeMask
  let fail := fun c => tblFail lpmPage c reqn 1 idx s
  if routeRange d then fail 0x12
  else
    match findRoute s d with
    | none => fail 0x14
    | some (slot, e) => if (genVis s (routeVis e) 0).isNone then fail 0x1F else (putRoute slot 0 s, 0)

/-- ROUTE_MOD (R239, R240, R295, R296): a new VIS of 00 removes the route. -/
def routeMod (reqn idx data : Nat) (s : State) : State × Nat :=
  let d := data &&& routeMask
  let w := word data 6 &&& 0xC01FFFFF
  let nv := fld w 30 2
  let fail := fun c => tblFail lpmPage c reqn 1 idx s
  if routeRange d ∨ nextRange w then fail 0x12
  else
    match findRoute s d with
    | none => fail 0x14
    | some (slot, e) =>
      if (routeList s).any fun (i, x) => i != slot && samePrefix x d && (routeVis x &&& nv) != 0 then fail 0x10
      else
        match genVis s (routeVis e) nv with
        | none => fail 0x1F
        | some 0 => (putRoute slot 0 s, 0)
        | some v =>
          if (routeList s).any fun (i, x) => i != slot && samePrefix x d && (routeVis x &&& v) != 0 then fail 0x10
          else (putRoute slot (setWord e 5 (setFld w 30 2 v)) s, 0)

/-- Whether a route contains an address of its family. -/
def routeCovers (e addr : Nat) : Bool :=
  let w := famBits (routeV6 e)
  addr / 2 ^ (w - routeLen e) == routeAddr e / 2 ^ (w - routeLen e)

/-- The longest route of a VRF that contains the address and is visible in parity `p` (R239, R242): its slot and entry. -/
def routeMatch (s : State) (vrf : Nat) (v6 : Bool) (addr p : Nat) : Option (Nat × Nat) :=
  ((routeList s).filter fun (_, e) =>
    routeVrf e == vrf && routeV6 e == v6 && routeCovers e addr && bit (routeVis e) p).foldl
    (fun best x => match best with
      | none => some x
      | some b => if routeLen b.2 < routeLen x.2 then some x else some b) none

/-! ### Learning (R251 to R257) -/

/-- The position of the L2 entry of pipeline `g` with this key, as the write port finds it. -/
def l2Find (s : State) (g mac bd : Nat) : Option (Nat × Nat) :=
  let t := HTab.l2 g
  (sameKey s t (bd * 2 ^ 48 + mac) (2 ^ 40)).find? fun x => entVis t x.2 != 0

/-- A refresh writes `TS` := age_now if it differs (R257). -/
def l2Refresh (g pos : Nat) (s : State) : State :=
  let t := HTab.l2 g
  let e := s.tab t.page t.sel pos
  if fld (word e 2) 24 4 = s.hn .ageNow then s
  else s.setTab t.page t.sel pos (setFld e 88 4 (s.hn .ageNow))

/-- A station move updates the entry as it stands, or freezes it (R254). -/
def l2Move (g pos port : Nat) (s : State) : State :=
  let t := HTab.l2 g
  let e := s.tab t.page t.sel pos
  let now := s.hn .moveNow
  let win := s.rfld Reg.L2.MOVE_CFG 8 4
  let old := l2Port e
  let fresh := fld (word e 2) 20 4 = 0 ∨ win ≤ (now + 16 - fld (word e 2) 16 4) % 16
  let e := if fresh then setFld (setFld e 80 4 now) 84 4 0 else e
  let moves := fld (word e 2) 20 4
  if s.rfld Reg.L2.MOVE_CFG 0 4 < moves + 1 then
    let s := s.setTab t.page t.sel pos (setFld e 92 1 1)
    let s := raise l2Page 2 (bump (Reg.L2.FLAPS g) s)
    notifyPush (notifyWords 5 true g (l2Mac e) (l2Bd e) port 0) s
  else
    let s := s.setTab t.page t.sel pos (setFld (setFld e 84 4 (moves + 1)) 64 15 port)
    let s := bump (Reg.L2.MOVES g) s
    notifyPush (notifyWords 2 true g (l2Mac e) (l2Bd e) port old) s

/-- A learn insert (R251, R255, R258): placed with VIS 11, or dropped, counted and reported. -/
def l2Learn (g mac bd port : Nat) (s : State) : State :=
  let e := ofWords [mac / 65536, mac % 65536 * 65536 + bd, 3 * 2 ^ 30 + s.hn .ageNow * 2 ^ 24 + port]
  match placeEntry (.l2 g) e s with
  | (some _, s) => notifyPush (notifyWords 1 true g mac bd port 0) (bump (Reg.L2.LEARN_NEW g) s)
  | (none, s) => l2LearnRej g mac bd port s

/-- The L2 write port applies a queued update to the entry as it now stands (R252, R253, R261). An update whose entry is gone
is a learn insert, which an entry with the key and a single visibility rejects (R229, R255): only entries with VIS 11 are
refreshed or moved (R251). -/
def l2Apply (u : Learn) (s : State) : State :=
  match l2Find s u.g u.mac u.bd with
  | none => l2Learn u.g u.mac u.bd u.port s
  | some (pos, e) =>
    if fld (word e 2) 30 2 ≠ 3 then l2LearnRej u.g u.mac u.bd u.port s
    else if l2Port e = u.port then l2Refresh u.g pos s
    else if bit (word e 2) 29 then bump (Reg.L2.STATIC_CONFLICT u.g) s
    else if bit (word e 2) 28 then bump (Reg.L2.FROZEN_HIT u.g) s
    else l2Move u.g pos u.port s

/-- An update enters the learn queue of its pipeline, or is dropped (R252). -/
def learnPush (u : Learn) (s : State) : State :=
  if 64 ≤ (s.learnQ.filter fun x => x.g == u.g).length then bump (Reg.L2.LEARN_OVF u.g) s
  else { s with learnQ := s.learnQ ++ [u] }

/-- The source lookup of a bridged frame (R251): LEARN is 1 HW or 2 NOTIFY. -/
def sourceLookup (g par learn mac bd port : Nat) (s : State) : State :=
  if bit mac 40 ∨ mac = 0 then bump (Reg.L2.SRC_INVALID g) s else
  match hashFind s (.l2 g) (bd * 2 ^ 48 + mac) par with
  | none =>
    if learn = 1 then learnPush ⟨g, .insert, mac, bd, port⟩ s
    else notifyReport g (notifyWords 1 false g mac bd port 0) s
  | some pos =>
    let e := s.tab l2Page (1 + g) pos
    if fld (word e 2) 30 2 ≠ 3 then s
    else if l2Port e = port then learnPush ⟨g, .refresh, mac, bd, port⟩ s
    else if bit (word e 2) 29 then bump (Reg.L2.STATIC_CONFLICT g) s
    else if bit (word e 2) 28 then bump (Reg.L2.FROZEN_HIT g) s
    else if learn = 1 then learnPush ⟨g, .move, mac, bd, port⟩ s
    else notifyReport g (notifyWords 2 false g mac bd port (l2Port e)) s

/-- LEARN_UPDATE (R252): the oldest update of pipeline `g`'s learn queue reaches the write port. -/
def execLearnUpdate (g : Fin 8) (s : State) : Host.Outcome State Fault Refusal :=
  done (s.ifLive l2Page fun s =>
    match s.learnQ.find? fun u => u.g == g.val with
    | none => s
    | some u => l2Apply u { s with learnQ := s.learnQ.erase u })

/-! ### Ticks and ageing (R254, R259 to R261) -/

/-- MOVE_TICK (R254): at the next whole multiple of 100 ms of the time base, move_now advances. -/
def execMoveTick (s : State) : Host.Outcome State Fault Refusal :=
  done (s.ifLive l2Page fun s => atInstant ((s.hn .moveAt + 1) * tickUnits 1) moveTick s)

/-- AGE_TICK (R259): at the next whole multiple of the age-tick period, age_now advances. -/
def execAgeTick (s : State) : Host.Outcome State Fault Refusal :=
  done (s.ifLive l2Page fun s => atInstant ((s.hn .ageAt + 1) * tickUnits (agePeriod s)) ageTick s)

/-- Whether an L2 entry is aged (R259). -/
def l2Aged (s : State) (e : Nat) : Bool :=
  let n := s.rfld Reg.L2.AGE_CFG 0 4
  fld (word e 2) 30 2 == 3 && !bit (word e 2) 29 && n != 0 && n ≤ l2Age s e

/-- Whether the move window of an L2 entry has passed (R254, R260). -/
def movePassed (s : State) (e : Nat) : Bool :=
  fld (word e 2) 20 4 != 0 && s.rfld Reg.L2.MOVE_CFG 8 4 ≤ (s.hn .moveNow + 16 - fld (word e 2) 16 4) % 16

/-- The end of a move window found at the read, with the compare rule on key and `MW` of `seen` (R260). -/
def moveVisit (g pos seen : Nat) (passed : Bool) (s : State) : State :=
  let t := HTab.l2 g
  let e := s.tab t.page t.sel pos
  if passed ∧ entKey t e = entKey t seen ∧ fld (word e 2) 16 4 = fld (word seen 2) 16 4 then
    s.setTab t.page t.sel pos (setFld e 84 4 0)
  else s

/-- The scanner's conditional writes to position `pos`, where it has read key, `TS` and `MW` of `seen`: the delete of an entry
that was aged when read, and the end of a move window (R260). -/
def ageVisit (g pos seen : Nat) (aged passed : Bool) (s : State) : State :=
  let t := HTab.l2 g
  let e := s.tab t.page t.sel pos
  if aged then
    if entKey t e = entKey t seen ∧ fld (word e 2) 24 4 = fld (word seen 2) 24 4 ∧ entVis t e ≠ 0 then
      let s := bump (Reg.L2.AGED g) (putEntry t pos (setEntVis t e 0) s)
      notifyPush (notifyWords 3 true g (l2Mac e) (l2Bd e) (l2Port e) 0) s
    else moveVisit g pos seen passed (bump (Reg.L2.AGE_SAVED g) s)
  else moveVisit g pos seen passed s

/-- The scanner of pipeline `g` reads position `pos`, and finds whether the entry is aged and its move window past (R260). -/
def scanRead (g pos : Nat) (s : State) : State :=
  let e := s.tab l2Page (1 + g) pos
  (s.setTab l2Page (16 + g) 0 e).setH (.scanAt g) (4 * (pos + 1) + 2 * ofB (movePassed s e) + ofB (l2Aged s e) : Nat)

/-- Its conditional writes for the position it has read reach the write port (R253, R260). -/
def scanWrite (g pos : Nat) (s : State) : State :=
  let at_ := s.hn (.scanAt g)
  if at_ / 4 = pos + 1 then
    ageVisit g pos (s.tab l2Page (16 + g) 0) (bit at_ 0) (bit at_ 1) ((s.setTab l2Page (16 + g) 0 0).setH (.scanAt g) 0)
  else s

/-- AGE_SCAN_VISIT (R260): the read, the conditional writes, or both at once. Between the two, refreshes, learn updates and
software commands may reach the entry (R253). -/
def execAgeScanVisit (g : Fin 8) (pos : Fin 266240) (k : ScanStep) (s : State) : Host.Outcome State Fault Refusal :=
  done (s.ifLive l2Page fun s =>
    match k with
    | .read => scanRead g pos s
    | .write => scanWrite g pos s
    | .visit => scanWrite g pos (scanRead g pos s))

/-- A write of 1 to `NOTIFY_POP` removes the head notification (R258). -/
def notifyPop (v : Nat) (s : State) : State :=
  if bit v 0 then
    let s := { s with notify := s.notify.drop 1 }
    s.setReg Reg.L2.NOTIFY_CNT s.notify.length
  else s

/-- NOTIFY_POP (R258). -/
def execNotifyPop (r : Req) (v : W32) (s : State) : Host.Outcome State Fault Refusal :=
  done (gateWrite r Reg.L2.NOTIFY_POP (notifyPop v.toNat) s)

/-! ### Scrub (R264) -/

/-- The bit of event TBL_PARITY on a page (R280). -/
def parityEvent (p : Nat) : Nat := if p = l2Page then 3 else 0

/-- The `SCRUB_ERR` counter of a page or pipeline (R277, R278). -/
def scrubReg (p sel : Nat) : Nat :=
  if p = lpmPage then Reg.LPM.SCRUB_ERR else if p = emPage then Reg.EM.SCRUB_ERR
  else if p = adjPage then Reg.ADJ.SCRUB_ERR else Reg.L2.SCRUB_ERR (sel - 1)

/-- Whether a page and table are among those the scrubber reads (R264). -/
def scrubbed (p sel : Nat) : Bool :=
  (p == lpmPage && (sel == 1 || sel == 2)) || (p == emPage && (sel == 1 || sel == 2)) ||
    (p == adjPage && 1 ≤ sel && sel ≤ 5) || (p == l2Page && 1 ≤ sel && sel ≤ 8)

/-- An entry that the scrubber finds failing (R264): counted, captured with code 0x07, reported; a dynamic L2 entry is
deleted and reported as PARITY_DEL; any other stays in place, marked. -/
def scrubFail (p sel idx : Nat) (s : State) : State :=
  let s := bump (scrubReg p sel) s
  let s := errBy p 0x07 5 sel idx s
  let s := raiseFault p (parityEvent p) 2 idx s
  let e := s.tab p sel idx
  if p = l2Page ∧ fld (word e 2) 30 2 = 3 ∧ ¬ bit (word e 2) 29 then
    let g := sel - 1
    let s := putEntry (.l2 g) idx (setEntVis (.l2 g) e 0) s
    notifyPush (notifyWords 7 true g (l2Mac e) (l2Bd e) (l2Port e) 0) s
  else setParBad p sel idx true s

/-- TABLE_SCRUB (R264): the scrubber reads an entry; `ok` says whether its parity holds. -/
def execTableScrub (p : Fin 8192) (sel : Fin 256) (idx : Nat) (ok : Bool) (s : State) : Host.Outcome State Fault Refusal :=
  done (s.ifLive p fun s => if ok || !scrubbed p sel then s else scrubFail p sel idx s)

/-- LPM_NODE_REPAIR (R264): the route agent rebuilds a failing node from its route store, or reports that the store itself
holds an uncorrectable error, with the VRF. -/
def execLpmNodeRepair (idx : Nat) (storeOk : Bool) (s : State) : Host.Outcome State Fault Refusal :=
  done (s.ifLive lpmPage fun s =>
    if !parBad s lpmPage 1 idx || !engUp s 0 then s
    else if storeOk then bump Reg.LPM.REPAIRED (setParBad lpmPage 1 idx false s)
    else
      let vrf := routeVrf (s.tab lpmPage 1 idx)
      raiseFault lpmPage 1 2 vrf (errBy lpmPage 0x07 5 1 vrf s))

/-- A seed write is refused with code 0x16 while its table holds a visible entry (R227). -/
def seedWrite (r : Req) (a : Nat) (v : Nat) (s : State) : State :=
  let held := if a = Reg.EM.MPLS_SEED then s.reg Reg.EM.MPLS_ENT != 0
    else if a = Reg.EM.IFT_SEED then s.reg Reg.EM.IFT_ENT != 0
    else (List.range 8).any fun g => s.reg (Reg.L2.ENT_CNT g) != 0
  if held then errReq (a / 0x10000) 0x16 r a v s else s.setReg a v

/-- The seed registers (R227). -/
def seedAddr : Fin 3 → Nat
  | 0 => Reg.EM.MPLS_SEED
  | 1 => Reg.EM.IFT_SEED
  | 2 => Reg.L2.HASH_SEED

/-- SEED_WRITE (R227): `k` is 0 MPLS_SEED, 1 IFT_SEED, 2 HASH_SEED. -/
def execSeedWrite (r : Req) (k : Fin 3) (v : W32) (s : State) : Host.Outcome State Fault Refusal :=
  done (gateWrite r (seedAddr k) (seedWrite r (seedAddr k) v.toNat) s)

end Sys2Proof.Machine
end

