-- ==== Sys2Proof/Machine/Queue.lean ====
section
/-!
DEFINITION. What every queue operation uses: links and spray sets (R399, R407, R408, spec/10_fabric.md), the request state
of a VOQ and its STATUS messages (R363 to R365), the age of a frame (R342, R343), the parts of a queue (R335, R338).
-/
namespace Sys2Proof.Machine

/-! ### Fabric links and spray sets (R398, R408) -/

/-- The FAB page, and the FG page of link `l` = 32 × k + j. -/
def fabPage : Nat := 0xE8
def fgPage (l : Nat) : Nat := 0xE0 + l / 32

/-- The registers of link `l`. -/
def linkCfgReg (l : Nat) : Nat := Reg.FG.LINK_CFG (l / 32) (l % 32)
def linkStsReg (l : Nat) : Nat := Reg.FG.LINK_STS (l / 32) (l % 32)

/-- The state of link `l` (R398): 0 DISABLED, 1 SIGNAL, 2 HUNT, 3 PEER, 4 UP, 5 HELD. -/
def flinkState (s : State) (l : Nat) : Nat := s.rfld (linkStsReg l) 0 3

/-- Whether link `l` is UP and serves traffic. -/
def flinkUp (s : State) (l : Nat) : Bool := s.live (fgPage l) && flinkState s l == 4

/-- Whether the reachability of link `l` includes device `d`: table LINK_REACH of R421. -/
def reachBit (s : State) (l d : Nat) : Bool :=
  bit (s.tabW fabPage 3 (8 * l + d / 512) (d % 512 / 32)) (31 - d % 32)

/-- The spray set of device `d`: the links in UP whose reachability includes it, lowest first (R408). -/
def spraySet (s : State) (d : Nat) : List Nat := (List.range 192).filter fun l => flinkUp s l && reachBit s l d

/-- The device's own ID (R417). -/
def devId (s : State) : Nat := s.reg Reg.FAB.DEV_ID

/-- Whether device `d` is reachable: the local device by the local path, any other by its spray set (R408, R416). -/
def reachable (s : State) (d : Nat) : Bool := d == devId s || !(spraySet s d).isEmpty

/-! ### Queue contents -/

/-- The bytes of a queued frame that its queue still holds, on die or in deep pages: those of cells that have left are not
(R365). -/
def Frame.leftLen (f : Frame) : Nat := f.heldLen - 256 * (f.ncell - f.cells.length)

/-- Bytes held by queue `q` (R365, R367). -/
def backlogBytes (s : State) (q : Nat) : Nat := ((s.allAt (.queued q)).map Frame.leftLen).sum

/-- The cells of queue `q`, in order. -/
def queueCells (s : State) (q : Nat) : List CellRef := (s.allAt (.queued q)).flatMap (·.cells)

/-- The deep pages of queue `q` (R327). -/
def pagesOf (s : State) (q : Nat) : List Nat := ((queueCells s q).filterMap CellRef.page).eraseDups

/-- Whether a cell lies in a return buffer. -/
def CellRef.inRet (c : CellRef) : Bool := match c.part with | .ret _ => true | _ => false

/-- Whether a cell lies in the head segment. -/
def CellRef.inHead (c : CellRef) : Bool := match c.part with | .head => true | _ => false

/-- Whether a cell is staged and not handed to a page write. -/
def CellRef.atStage (c : CellRef) : Bool := match c.part with | .stage => true | _ => false

/-- The page writes in progress of queue `q` (R337). -/
def writesOf (s : State) (q : Nat) : List PageWrite := s.pageWrites.filter fun w => w.queue == q

/-- Cells in the tail staging of queue `q`, those handed to page writes included (R337). -/
def stageOf (s : State) (q : Nat) : Nat :=
  ((queueCells s q).filter CellRef.atStage).length + ((writesOf s q).map fun w => w.cells.length).sum

/-- backlog(q): uq plus 32 buffer cells for each deep page (R327). -/
def backlog (s : State) (q : Nat) : Nat := uq s q + 32 * (pagesOf s q).length

/-- The queues that hold a frame, lowest number first. -/
def usedQueues (s : State) : List Nat :=
  sortNat (s.frames.filterMap fun f => match f.loc with | .queued q => some q | _ => none).eraseDups

/-- The next cell of the head frame of a queue is in the head segment, the staging or a return buffer (R339). -/
def nextReady (f : Frame) : Bool := (f.cells.head?.map CellRef.ready).getD true

/-- The head frame of a queue may start to dequeue under R339: its next cell is there; a frame whose cells entered the
staging leaves only whole, so not before its last cell has been received (R338). One that has started goes on with each
page that returns. -/
def headReady (f : Frame) : Bool := !f.started && nextReady f && (f.whole || !f.sf)

/-- The flow-statistics pair of a frame of queue `q` that is dropped, evicted or aged (R569). -/
def dropPair (q : Nat) : Nat := if isVoq q then 2883584 + q else 3276800 + (q - egqBase)

/-- `AGE_LIMIT` has a new value: every wait for the global age limit takes the greatest that it has held since the wait began
(R293, R345). -/
def ageRaise (s : State) : State :=
  let v := s.reg Reg.CELL.AGE_LIMIT
  let s : State := { s with frames := s.frames.map fun f => { f with limit := max f.limit v } }
  if s.h .capoState = 2 ∨ s.h .capoState = 3 then s.setH .ageMax (max (s.h .ageMax) v) else s

/-- Where a frame goes that has left queue `q` (R23, R26). -/
def onward (q : Nat) (f : Frame) (s : State) : State :=
  let g := { f with started := false }
  if isVoq q then s.moveFrame g .fabricTx
  else bridgeTo g (.epipe (if f.outPort < 128 then f.outPort / 16 else f.outPort - 128)) s

/-- A frame that has started ends after its first `k` cells (R120): on its way to the fabric its last cell is marked bad, so that
its egress device ends it; on its way to a port it runs out of data there. -/
def endStarted (k : Nat) (f : Frame) (s : State) : State :=
  let g := { f with bytes := f.bytes.take (256 * k + f.grew).toNat, fcs := false, trunc := true, bad := true, recv := none }
  if f.loc = .fabricTx ∨ 128 ≤ f.outPort then s.putFrame { g with full := true }
  else s.putFrame { g with full := false, gone := true, ctx := 0 }

/-- A frame of queue `q` that has started ends after its first `k` cells; what the queue still holds of it is freed (R120). -/
def endQueued (q k id : Nat) (s : State) : State :=
  match s.frame id with
  | none => s
  | some f =>
    let s := if f.loc = .queued q then onward q { f with cells := [] } (freeCells q f.cells s) else s
    match s.frame id with
    | some f => endStarted k f s
    | none => s

/-- A frame of queue `q` is dropped and counted in the drop pair of the queue (R569). -/
def queueDrop (q : Nat) (f : Frame) (s : State) : State := fsCount (dropPair q) f.heldLen (s.drop f)

/-- Cell `k` of frame `id` of queue `q` is read with an uncorrectable error by the block of page `p` (R312): a frame that has not
started is discarded whole and counted, one that has is ended under R120. -/
def cellUe (p q k id : Nat) (startedNow : Bool) (s : State) : State :=
  match s.frame id with
  | none => s
  | some f =>
    errInt p 0x07 0 (if startedNow then endQueued q k id s else bump Reg.CELL.UE_DROP (queueDrop q f s))

/-- A Q-clock cycle in which the scheduler finds queues that wait for the deep store: each is counted (R339). -/
def retStall (mine : Nat → Bool) (s : State) : State :=
  let stalled := (usedQueues s).filter fun q => mine q && s.h (.qstate q) != 0 &&
    match s.firstAt (.queued q) with
    | some f => !nextReady f
    | none => false
  if s.live spillPage then bumpBy Reg.SPILL.RET_STALL stalled.length s else s

/-! ### Request state and STATUS (R363 to R366, R415) -/

/-- The destination device and egress queue of VOQ `q`: none while its SYSQ or SPMAP entry is not valid (R357, R365). -/
def voqDest (s : State) (q : Nat) : Option (Nat × Nat) :=
  let e := s.tab qmgrPage 2 (q / 8)
  let m := s.tab adjPage 4 (q / 8)
  if bit e 31 && bit m 31 then some (fld m 0 12, fld e 0 17 + q % 8) else none

/-- The destination of VOQ `q` while it is reachable (R365). -/
def voqReach (s : State) (q : Nat) : Option (Nat × Nat) := (voqDest s q).filter fun d => reachable s d.1

/-- Queue a credit message for device `d` (R415). -/
def credSend (d msg : Nat) (s : State) : State := { s with credQ := s.credQ ++ [{ dest := d, since := s.root, msg := msg }] }

/-- The bits of a STATUS message (R415). -/
def statusMsg (req : Bool) (voq e : Nat) : Nat := 2 ^ 62 + ofB req * 2 ^ 61 + voq * 2 ^ 43 + e * 2 ^ 26

/-- The bits of a GRANT message (R415). -/
def grantMsg (voq e : Nat) : Nat := 2 ^ 63 + voq * 2 ^ 43 + e * 2 ^ 26

/-- VOQ `q` sends its request state to its destination; none to an unreachable one (R365). -/
def sendStatus (q : Nat) (s : State) : State :=
  match voqReach s q with
  | some (d, e) => credSend d (statusMsg (s.hb (.inReq q)) q e) (bump Reg.QMGR.STATUS_TX (s.setH (.statusAt q) (s.root : Nat)))
  | none => s

/-- Whether VOQ `q` is in request: its backlog in bytes exceeds max(CB, 0) (R365). -/
def wantsCredit (s : State) (q : Nat) : Bool := decide (max (s.h (.cb q)) 0 < (backlogBytes s q : Int))

/-- The request state of VOQ `q` is evaluated; each change is sent (R365). -/
def voqEval (q : Nat) (s : State) : State :=
  if isVoq q && s.live qmgrPage && wantsCredit s q != s.hb (.inReq q) then
    sendStatus q (s.setHb (.inReq q) (wantsCredit s q))
  else s

/-- Each VOQ in request whose destination was unreachable in state `old` and is reachable now sends STATUS at once (R365). -/
def reachGained (old s : State) : State :=
  if !s.live qmgrPage then s else
  forEach ((usedQueues s).filter isVoq) s fun q s =>
    if s.hb (.inReq q) && (voqReach old q).isNone && (voqReach s q).isSome then sendStatus q s else s

/-! ### Frame age (R342, R343) -/

/-- The age of a frame in 1/16 ns: the follower less its birth time; modulo 2^32 ns, signed, from a BIRTH field. -/
def ageOf (s : State) (f : Frame) : Int :=
  if f.remote then sgn (imod ((s.folNs : Int) - (f.birth / 16 : Nat)) (2 ^ 32)) 32 * 16
  else
    let m : Int := (timeWrap / 2 ^ 44 : Nat)
    let d := ((in16 s.fol : Int) - f.birth) % m
    if m / 2 < d then d - m else d

/-- Whether a frame of queue `q` is aged (R343): 1 beyond the global limit, 2 beyond the sojourn limit of its queue. -/
def agedBy (s : State) (q : Nat) (f : Frame) : Nat :=
  let soj := fld (qprofW s q 1) 0 21
  if (s.reg Reg.CELL.AGE_LIMIT * 16000 : Nat) < ageOf s f then 1
  else if soj ≠ 0 ∧ (soj * 16000 : Nat) < ageOf s f then 2
  else 0

/-- The age check of a frame of queue `q` at the point whose counters start at `base`: whether it is aged; an aged one is
counted and discarded whole (R343). -/
def ageCheck (q base : Nat) (f : Frame) (s : State) : Bool × State :=
  match agedBy s q f with
  | 0 => (false, s)
  | k =>
    let s := fsCount (dropPair q) f.heldLen (raiseFirst cellPage 0 (bump (base + 8 * (k - 1)) s))
    (true, voqEval q (s.drop f))

/-! ### Queue states (R335) -/

/-- The cells of queue `q` that meet a test take another part. -/
def reparts (q : Nat) (p : CellRef → Bool) (upd : CellRef → CellRef) (s : State) : State :=
  forEach (s.allAt (.queued q)) s fun f s => s.putFrame { f with cells := f.cells.map fun c => if p c then upd c else c }

/-- The staging of queue `q` becomes the rest of the on-die queue, and the spill context is freed (R335). -/
def toShallow (q : Nat) (s : State) : State :=
  let n := stageOf s q
  let s := s.setReg Reg.SPILL.STAGE_USED (s.reg Reg.SPILL.STAGE_USED - n)
  let s := s.setReg Reg.SPILL.CTX_USED (s.reg Reg.SPILL.CTX_USED - 1)
  bump Reg.SPILL.TO_SHALLOW ((reparts q CellRef.staged (fun c => { c with part := .head }) s).setH (.qstate q) 0)

/-- The state of queue `q` follows its backlog and its deep pages (R335). -/
def queueUpdate (q : Nat) (s : State) : State :=
  let s := if s.h (.qstate q) = 1 ∧ backlog s q ≤ fld (admW s q 3) 0 20 then
    bump Reg.SPILL.TO_DRAINING (s.setH (.qstate q) 2) else s
  let s := if s.h (.qstate q) = 2 ∧ fld (admW s q 2) 0 20 < backlog s q then
    bump Reg.SPILL.TO_DEEP (s.setH (.qstate q) 1) else s
  if s.h (.qstate q) = 2 ∧ (queueCells s q).all (fun c => c.inHead || c.atStage) ∧ writesOf s q = [] then toShallow q s else s

/-- What follows any departure or discard from queue `q`. -/
def queueLeft (q : Nat) (s : State) : State := voqEval q (queueUpdate q s)

end Sys2Proof.Machine
end

