-- ==== Sys2Proof/Machine/Window.lean ====
section
/-!
DEFINITION. The indirect table window (R53 to R57, spec/01_architecture.md): one bank for each requester, and the course of a
table command: it is discarded while the bank is busy, else it executes at the table port, and its bank reads BUSY until
TBL_CMD_COMPLETE.
-/
namespace Sys2Proof.Machine

/-- A table command as a block sees it: requester, page, `TBL_SEL`, `TBL_IDX`, and `TBL_DATA[0..15]` as one entry. -/
structure Win where
  r : Req
  p : Nat
  sel : Nat
  idx : Nat
  data : Nat
  deriving DecidableEq, Repr

/-- What a table command leaves: the state, its error code (0 none), and the new contents of `TBL_DATA`. -/
abbrev TblRes : Type := State × Nat × Option Nat

/-- A window register in requester `r`'s bank (R53). -/
def winBank (r : Req) (a : Nat) : Nat := bank (1 + reqNo r) a

/-- The words of `TBL_DATA` of requester `r` on page `p`. -/
def winData (s : State) (r : Req) (p : Nat) : Nat :=
  ofWords ((List.range 16).map fun i => s.reg (winBank r (Reg.TBL_DATA p i)))

/-- Store `TBL_DATA[0..15]` of requester `r` on page `p`. -/
def setWinData (r : Req) (p e : Nat) (s : State) : State :=
  forEach (List.range 16) s fun i s => s.setReg (winBank r (Reg.TBL_DATA p i)) (word e i)

/-- A refusal of the table command `w` (R50 to R54). -/
def Win.fail (w : Win) (code : Nat) (s : State) : TblRes :=
  let (s, c) := tblFail w.p code (reqNo w.r) w.sel w.idx s
  (s, c, none)

/-- A table command that ends well, with the data it returns. -/
def Win.ok (d : Option Nat) (s : State) : TblRes := (s, 0, d)

/-- READ of an entry of `n` words of a table with `size` entries (R55). -/
def Win.read (w : Win) (size n : Nat) (s : State) : TblRes :=
  if w.idx < size then Win.ok (some (cutWords (s.tab w.p w.sel w.idx) n)) s else w.fail 0x04 s

/-- The window registers of requester `r` on page `p` as a command. -/
def winOf (s : State) (r : Req) (p : Nat) : Win :=
  { r := r, p := p, sel := s.reg (winBank r (Reg.TBL_SEL p)), idx := s.reg (winBank r (Reg.TBL_IDX p)), data := winData s r p }

/-- A table command of requester `r` on page `p` executes as `h` says (R53, R54, R57). -/
def tblRun (r : Req) (p : Nat) (h : Win → State → TblRes) (s : State) : State :=
  let w := winOf s r p
  let sts := winBank r (Reg.TBL_STS p)
  if s.rbit sts 31 then errBy p 0x02 (reqNo r) w.sel w.idx s
  else
    let (s, code, d) := h w s
    let s := match d with
      | some e => setWinData r p e s
      | none => s
    (s.setReg sts (setBit (s.reg sts) 31 true)).setH (.tblOp p (reqNo r)) (1 + 256 * code : Nat)

/-- A write of `TBL_CMD` by requester `r` that starts the table command `h`. -/
def tblCmd (r : Req) (p : Nat) (h : Win → State → TblRes) (s : State) : State :=
  gateWrite r (Reg.TBL_CMD p) (tblRun r p h) s

/-- The command in requester `r`'s bank completes (R54): `ERR` tells whether it failed, and `CODE` keeps the code of the
last failed one. -/
def tblComplete (r : Req) (p : Nat) (s : State) : State :=
  let op := s.hn (.tblOp p (reqNo r))
  let sts := winBank r (Reg.TBL_STS p)
  if op = 0 then s else
  let code := op / 256
  let s := s.setH (.tblOp p (reqNo r)) 0
  if code = 0 then s.setReg sts (fld (s.reg sts) 0 7) else s.setReg sts (2 ^ 30 + code)

end Sys2Proof.Machine
end

