-- ==== Sys2Proof/Machine/Dram.lean ====
section
/-!
DEFINITION. The operations of the deep-store channels (spec/11_deep_store.md, R429 to R436, R442 to R453): addresses, activates
with row-hammer accounting, errors, arbitration, and what an operation does where it reaches its channel and where it completes.
-/
namespace Sys2Proof.Machine

/-- The DSC page of channel `c`. -/
def dscPage (c : Nat) : Nat := 0xF0 + c

/-- Ranks of the modules of the population: of DSC[0]'s module (R425). -/
def popRanks (s : State) : Nat := s.rfld (Reg.DSC.DIMM_INFO 0) 24 2

/-- Pages of one channel (R428). -/
def chanPages (s : State) : Nat := if popRanks s = 2 then 8388608 else 4194304

/-- Deep pages of the population, T, and of the statistics region (R428). -/
def popPages (s : State) : Nat := (popChannels s).length * chanPages s
def statPages : Nat := 131072

/-! ### Addresses (R429, R430) -/

/-- The bank of channel-local page `p`: 32 × rank + bank-address bits by the masks (R430). -/
def bankOf (s : State) (c p : Nat) : Nat :=
  let b := fun i => popCount (p &&& s.reg (Reg.DSC.BMAP c i)) 23 % 2
  b 0 + 2 * b 1 + 4 * b 2 + 8 * b 3 + 16 * b 4 + (if popRanks s = 2 then 32 * fld p 22 1 else 0)

/-- The row of channel-local page `p` (R430). -/
def rowOf (p : Nat) : Nat := fld p 6 16

/-- The deep page at channel-local page `p` of channel `c` (R429). -/
def pageAt (s : State) (c p : Nat) : Nat :=
  let k := popLog s
  p / 512 * 2 ^ (9 + k) + (c ^^^ fld p 0 k) * 512 + p % 512

/-- The subchannel of byte `o` of a deep page, and its offset in that half-page (R429). -/
def subOf (o : Nat) : Nat := fld o 8 1
def halfOff (o : Nat) : Nat := fld o 9 4 * 256 + o % 256

/-- The column burst of 64 bytes that holds byte `o` of channel-local page `p` (R429). -/
def colBurst (p o : Nat) : Nat := fld p 0 1 * 64 + halfOff o / 64

/-- Where block `idx` of 64 bytes of channel `c` lies in the model's store: half-row pair, subchannel and column burst (R429,
R452). -/
def deepAddr (c idx : Nat) : Nat :=
  let p := idx / 128
  let o := 64 * (idx % 128)
  c * 2 ^ 37 + p / 2 * 2 ^ 14 + subOf o * 2 ^ 13 + colBurst p o * 64

/-- The channel-local page of deep page `p` (R429). -/
def localOf (s : State) (p : Nat) : Nat := p / 2 ^ (9 + popLog s) * 512 + p % 512

/-- The rank that channel-local page `p` lies on (R430). -/
def rankOf (s : State) (p : Nat) : Nat := if popRanks s = 2 then fld p 22 1 else 0

/-! ### Errors (R447 to R449) -/

/-- Table 3 of a DSC page keeps, for each 512-byte block, the bursts known to be uncorrectable: bit 4 × subchannel + burst (R450);
no command reaches it. -/
def ueMark (s : State) (c p blk : Nat) : Nat := s.tab (dscPage c) 3 (16 * p + blk)
def setUeMark (c p blk v : Nat) (s : State) : State := s.setTab (dscPage c) 3 (16 * p + blk) v

/-- A corrected read of channel-local page `p`: counted once, and each device corrected on each subchannel (R448, R449). -/
def dramCe (c p : Nat) (ds : List (Nat × Nat)) (s : State) : State :=
  let s := raiseFirst (dscPage c) 3 (bump (Reg.DSC.CE_CNT c) s)
  forEach ds s fun (sub, d) s =>
    let sr := 2 * rankOf s p + sub
    let n := s.hn (.devCe c (16 * sr + d)) + 1
    let s := (bump (Reg.DSC.CE_DEV c d) s).setH (.devCe c (16 * sr + d)) (n : Nat)
    if s.rbit (Reg.DSC.ECC_CFG c) 0 ∧ n = s.rfld (Reg.DSC.ECC_CFG c) 24 8 then
      let a := Reg.DSC.ERASED c sr
      raiseFault (dscPage c) 5 6 c (if s.rbit a 31 then s else s.setReg a (2 ^ 31 + d))
    else s

/-- An uncorrectable read of channel-local page `p` on subchannel `sub` for class `k` (R448). -/
def dramUe (c p sub k : Nat) (s : State) : State :=
  let s := bump (Reg.DSC.UE_CNT c) s
  let s := if s.rbit (Reg.DSC.UE_INFO c) 31 then s else
    (s.setReg (Reg.DSC.UE_ADDR c) (pageAt s c p % 2 ^ 27)).setReg (Reg.DSC.UE_INFO c)
      (2 ^ 31 + sub * 2 ^ 8 + (if popRanks s = 2 then fld p 22 1 else 0) * 2 ^ 7 + k)
  raiseFault (dscPage c) 4 16 c s

/-! ### Activates (R436, R444 to R446) -/

/-- An activate of a row with a single-rank module (R445), in both subchannels: the neighbours are refreshed at RH_THR. -/
def rhCount (c b row : Nat) (s : State) : State :=
  let mine : List RhRow := s.rhRows.filter fun x => x.chan == c && x.bank == b
  let rest := s.rhRows.filter fun x => !(x.chan == c && x.bank == b)
  let others := mine.filter fun x => x.row != row
  let (cnt, keep) : Nat × List RhRow :=
    match mine.find? fun x => x.row == row with
    | some x => (x.cnt + 1, others)
    | none =>
      if mine.length < 64 then (1, others)
      else
        let low := mine.foldl (fun (m : Nat) (x : RhRow) => min m x.cnt) (mine.headD ⟨c, b, row, 0⟩).cnt
        match others.findIdx? fun (x : RhRow) => x.cnt == low with
        | some i => (low + 1, others.eraseIdx i)
        | none => (low + 1, others)
  let hit := s.rfld (Reg.DSC.RH_CFG c) 0 16 ≤ cnt
  let s := { s with rhRows := rest ++ keep ++ [{ chan := c, bank := b, row := row, cnt := if hit then 0 else cnt }] }
  if hit then bumpBy (Reg.DSC.DRFM_CNT c) 2 s else s

/-- The class with the greatest tally, lowest number on ties. -/
def topClass (t : List Nat) : Nat :=
  ((List.range 5).foldl (fun (a : Nat × Nat) k => if a.2 < t.getD k 0 then (k, t.getD k 0) else a) (0, 0)).1

/-- An activate of a row by class `k` with a dual-rank module (R446), in both subchannels. -/
def rhCandidate (c b row k : Nat) (s : State) : State :=
  let old := (s.rhCands.find? fun x => x.chan == c && x.bank == b).getD ⟨c, b, row, 0, [0, 0, 0, 0, 0]⟩
  let old := if old.cnt = 0 then ⟨c, b, row, 0, [0, 0, 0, 0, 0]⟩ else old
  let x := if old.row = row then { old with cnt := old.cnt + 1, tally := old.tally.set k (old.tally.getD k 0 + 1) }
    else { old with cnt := old.cnt - 1 }
  let s := { s with rhCands := (s.rhCands.filter fun y => !(y.chan == c && y.bank == b)) ++ [x] }
  if x.cnt = s.rfld (Reg.DSC.RH_CFG c) 16 16 then
    raise (dscPage c) 6 (bumpBy (Reg.DSC.THROTTLE_CNT c) 2 (s.setHb (.thr (64 * c + b) (topClass x.tally)) true))
  else s

/-- The rolling activate count of bank `b`, in both subchannels: at the devices' threshold a refresh-management command goes to the
bank, and the count starts again (R444, notes/assumptions/91.md). -/
def rollCount (c b : Nat) (s : State) : State :=
  let n := s.hn (.raa c b) + 1
  if s.hn (.rfmThr c) ≤ n ∧ s.hn (.rfmThr c) ≠ 0 then bumpBy (Reg.DSC.RFM_CNT c) 2 (s.setH (.raa c b) 0) else s.setH (.raa c b) (n : Nat)

/-- Whether class `k` may open a row of bank `b` now, a throttled class at its gap (R446). -/
def mayOpen (s : State) (c b k : Nat) : Bool :=
  !s.hb (.thr (64 * c + b) k) || decide (s.hn (.thrLast (64 * c + b) k) + cycNs (s.reg (Reg.DSC.THR_GAP c)) ≤ s.root)

/-- A row is opened in both subchannels for class `k`; a throttled class waits for its turn (R446). -/
def activate (c b row k : Nat) (s : State) : State :=
  let bk := 64 * c + b
  let s := if s.hb (.thr bk k) then waitRoot (s.hn (.thrLast bk k) + cycNs (s.reg (Reg.DSC.THR_GAP c))) s else s
  let s := (s.setH (.thrLast bk k) (s.root : Nat)).setH (.openRow c b) (row + 1 : Nat)
  let s := rollCount c b (bumpBy (Reg.DSC.ACT_CNT c) 2 s)
  if popRanks s = 2 then rhCandidate c b row k s else rhCount c b row s

/-- Whether bank `b` of channel `c` has its row open: one left open under hint OPEN closes once it has been idle `PG_IDLE`
D-clock cycles, of 8 root-PLL cycles each (R436). -/
def rowIsOpen (s : State) (c b row : Nat) : Bool :=
  let t := s.hn (.openIdle c b)
  s.hn (.openRow c b) == row + 1 && (t == 0 || decide (s.root ≤ t - 1 + 8 * s.reg (Reg.DSC.PG_IDLE c)))

/-- The row of page `p` is open for an access of class `k`, which leaves it as the class's hint says: `last`, it is the class's last
operation on that half-row (R436). -/
def rowUse (c p k : Nat) (last : Bool) (s : State) : State :=
  let b := bankOf s c p
  let s := if rowIsOpen s c b (rowOf p) then s else activate c b (rowOf p) k s
  let hint := s.rfld (Reg.DSC.PG_HINT c) (2 * k) 2
  let s := if hint = 0 ∨ (hint = 2 ∧ last) then s.setH (.openRow c b) 0 else s
  s.setH (.openIdle c b) (if hint = 1 then s.root + 1 else 0 : Nat)

/-- The deep store is lost: folding stalls (R443, R572). -/
def foldStall (s : State) : State :=
  if s.pageOn snapPage && s.rbit Reg.SNAP.FS_CFG 31 && !s.rbit Reg.SNAP.FS_STS 31 then
    raise snapPage 4 (s.setRbit Reg.SNAP.FS_STS 31 true)
  else s

/-! ### Contents (R452, R453, R571) -/

/-- The four flow pairs whose totals a block of the statistics region holds, and whether they are those of the snapshot
(R571): the top pages, 64 bytes for each block. -/
def statBlock (s : State) (c idx : Nat) : Option (Nat × Bool) :=
  let back := popPages s - 1 - pageAt s c (idx / 128)
  if back / statPages ≠ 0 then none else
  let off := (statPages - 1 - back) * 8192 + idx % 128 * 64
  if off < 2 ^ 26 then some (off / 16, false) else if off < 2 ^ 27 then some (off / 16 - 2 ^ 22, true) else none

/-- The totals of flow pair `i`: those in memory, or those of the last snapshot (R571). -/
def statPair (s : State) (i : Nat) (snap : Bool) : Nat := s.tab snapPage (if snap then 2 else 1) i % 2 ^ 128

/-- Where the totals of flow pair `i` lie: channel, channel-local page and 512-byte block (R571). -/
def statPlace (s : State) (i : Nat) : Nat × Nat × Nat :=
  let pg := popPages s - statPages + i / 512
  (chanOf s pg, localOf s pg, i % 512 / 32)

/-- A block of 64 bytes as table DEEP reads it (R452). What a page write left in a page is internal to the spill engine (R336): it
reads as a free value. -/
def deepRead (c idx : Nat) (s : State) : Nat × State :=
  match statBlock s c idx with
  | some (i, snap) => (((List.range 4).map fun k => statPair s (i + k) snap * 2 ^ (128 * k)).sum, s)
  | none =>
    if s.hb (.pgInt (pageAt s c (idx / 128))) && s.tab (dscPage c) 2 idx == 0 then
      let (ws, s) := (List.range 16).foldl (fun (a : List Nat × State) _ =>
        let (v, t) := a.2.free
        (a.1 ++ [v], t)) ([], s)
      (ofWords ws, s)
    else (leNat (s.rdMem .deep (deepAddr c idx) 64), s)

/-- A block of 64 bytes is written, whoever holds its page (R452, R453); what was uncorrectable in it is gone. -/
def deepWrite (c idx data : Nat) (s : State) : State :=
  let s := setUeMark c (idx / 128) (idx % 128 / 8) (setBit (ueMark s c (idx / 128) (idx % 128 / 8)) (idx % 8) false) s
  match statBlock s c idx with
  | some (i, snap) =>
    forEach (List.range 4) s fun k s => s.setTab snapPage (if snap then 2 else 1) (i + k) (fld data (128 * k) 128)
  | none =>
    let s := if s.hb (.pgInt (pageAt s c (idx / 128))) then s.setTab (dscPage c) 2 idx 1 else s
    s.wrMem .deep (deepAddr c idx) (leBytes 64 data)

/-- Whether folding runs: enabled and not stalled (R572). -/
def foldOn (s : State) : Bool := s.live snapPage && s.rbit Reg.SNAP.FS_CFG 31 && !s.rbit Reg.SNAP.FS_STS 31

/-- A pair waits for a fold no longer. -/
def unqueue (i : Nat) (s : State) : State :=
  if s.hb (.foldQueued i) then (s.setHb (.foldQueued i) false).setRfld Reg.SNAP.FS_STS 0 23 (s.rfld Reg.SNAP.FS_STS 0 23 - 1) else s

/-- Pair `i` is folded (R572, R578): its values as they stood at the cut are kept, its front counters join its totals. -/
def foldPair (i : Nat) (s : State) : State :=
  let s := fsTouch i s
  bump Reg.SNAP.FOLDS (unqueue i ((s.setTab snapPage 1 i (fsSum s i)).setTab snapPage 3 i 0))

/-! ### Operations (R433 to R435, R448 to R452) -/

/-- Whether two operations lie in the same 512-byte block (R434). -/
def DramOp.sameBlock (x y : DramOp) : Bool := x.chan == y.chan && x.page == y.page && x.blk == y.blk

/-- An operation waits at its requester (R433). -/
def opWait (o : DramOp) (s : State) : State := { s with dramWait := s.dramWait ++ [o] }

/-- The patrol position advances by one 512-byte block; a pass ends after the last page (R449, R450). -/
def patrolStep (c : Nat) (s : State) : State :=
  let b := s.hn (.patBlk c) + 1
  if b < 16 then s.setH (.patBlk c) (b : Nat)
  else
    let s := s.setH (.patBlk c) 0
    let a := Reg.DSC.PATROL_POS c
    let p := s.reg a + 1
    if p < chanPages s then s.setReg a p
    else
      let s := forEach (List.range 64) s fun k s => s.setH (.devCe c k) 0
      raise (dscPage c) 9 (s.setReg a 0)

/-- A software command of table DEEP ends with a code, 0 none; a READ returns what was read (R452). -/
def swDone (o : DramOp) (code : Nat) (s : State) : State :=
  match o.sw with
  | none => s
  | some x =>
    let p := dscPage o.chan
    let (s, code) := if code = 0 then (s, 0) else tblFail p code (reqNo x.r) x.sel x.idx s
    let s := if o.write then s else setWinData x.r p x.data.toNat s
    tblComplete x.r p (s.setH (.tblOp p (reqNo x.r)) (1 + 256 * code : Nat))

/-- What an operation's end brings its requester: `unc` uncorrectable, `corr` corrected (R337, R339, R448, R450 to R452, R572). A
correction found by the patrol is written back unless a newer write came to its block. -/
def opDeliver (o : DramOp) (unc corr : Bool) (s : State) : State :=
  match o.cls with
  | 0 => { s with pageWrites := s.pageWrites.map fun w => if w.tag = o.tag then { w with left := w.left - 1 } else w }
  | 1 => { s with pageReads := s.pageReads.map fun r => if r.tag = o.tag then { r with left := r.left - 1, ue := r.ue || unc } else r }
  | 2 => if o.write || unc then s else opWait { o with write := true, bad := 0 } s
  | 3 =>
    if o.write then s else
    let s := if unc then bump (Reg.DSC.SCRUB_UE o.chan) s else s
    let s := if !corr then s else
      let s := faultRecord 7 (dscPage o.chan) o.chan (bump (Reg.DSC.SCRUB_CE o.chan) s)
      if o.stale then bump (Reg.DSC.SCRUB_WB_CANCEL o.chan) s else opWait { o with write := true, bad := 0 } s
    patrolStep o.chan s
  | _ => swDone o (if unc then 7 else 0) s

/-- An operation to a lost channel completes as uncorrectable at once (R443, R448); the spec names no subchannel for it, so that
it is free. -/
def opLost (o : DramOp) (s : State) : State :=
  let (v, s) := s.free
  opDeliver o true false (dramUe o.chan o.page (v % 2) o.cls s)

/-- A requester asks for an operation (R433, R443). -/
def opAsk (o : DramOp) (s : State) : State := if s.h (.trainStep o.chan) = 7 then opWait o s else opLost o s

/-- The sixteen operations of 512 bytes on deep page `pg`, of class `k` (R433). -/
def pageAsk (k : Nat) (write : Bool) (pg tag : Nat) (s : State) : State :=
  forEach (List.range 16) s fun b s => opAsk { chan := chanOf s pg, cls := k, write := write, page := localOf s pg, blk := b, tag := tag } s

/-- The fold engine asks for the totals of flow pair `i`, unless it has already (R572). -/
def foldAsk (i : Nat) (s : State) : State :=
  if (s.dramWait ++ s.dramOps).any fun o => o.cls == 2 && o.tag == i then s
  else
    let (c, p, b) := statPlace s i
    opAsk { chan := c, cls := 2, write := false, page := p, blk := b, size := 128, tag := i } s

/-- What an operation does as it reaches its channel, in the order of arrival (R434): the operation as it is then in flight. A write
of another class cancels a correction write-back to its block (R451). -/
def opReach (o : DramOp) (s : State) : DramOp × State :=
  let c := o.chan
  let s := if !o.write then s else
    let wb := fun (x : DramOp) => x.cls == 3 && x.write && x.sameBlock o && o.cls != 3
    let s := bumpBy (Reg.DSC.SCRUB_WB_CANCEL c) (s.dramWait.filter wb).length s
    { s with dramWait := s.dramWait.filter (!wb ·), dramOps := s.dramOps.map fun x => if x.sameBlock o && !x.write then { x with stale := true } else x }
  let o := if o.write then o else { o with bad := ueMark s c o.page o.blk }
  match o.cls, o.sw with
  | 0, _ =>
    let s := forEach (List.range 8) (setUeMark c o.page o.blk 0 s) fun i s => s.setTab (dscPage c) 2 (128 * o.page + 8 * o.blk + i) 0
    (o, s.setH (.pgInt (pageAt s c o.page)) 1)
  | 2, _ => if o.write then (o, if foldOn s then foldPair o.tag s else s) else ({ o with bad := o.bad &&& 3 * 4 ^ (o.tag % 32 / 8) }, s)
  | 4, some x =>
    if o.write then (o, deepWrite c x.idx x.data.toNat s)
    else
      let (d, s) := deepRead c x.idx s
      ({ o with sw := some { x with data := BitVec.ofNat 512 d }, bad := if bit o.bad (x.idx % 8) then o.bad else 0 }, s)
  | _, _ => (o, s)

/-- The operation of class `k` and one direction that waits longest in a channel, unless an older one of its class to its block still
waits. -/
def firstWait (ws : List DramOp) (k : Nat) (write : Bool) : Option DramOp :=
  (ws.find? fun o => o.cls == k && o.write == write).filter fun o =>
    !(ws.takeWhile fun x => decide (x ≠ o)).any fun x => x.cls == k && x.sameBlock o

/-- The direction that a channel serves: reads and writes go in runs of 16, unless only one direction waits (R435). -/
def runWrites (s : State) (c : Nat) (ws : List DramOp) : Bool :=
  let d := s.hb (.runWrite c)
  if ws.any (·.write == d) && (s.hn (.runLen c) < 16 || !ws.any (·.write != d)) then d else ws.any (·.write)

/-- The classes in the order of the weighted round robin: the one under way while its weight lasts, then the next ones (R435). -/
def turnOrder (s : State) (c : Nat) : List Nat :=
  let k := s.hn (.arbCls c)
  if s.hn (.arbLeft c) = 0 then (List.range 5).map fun i => (k + 1 + i) % 5 else (List.range 5).map fun i => (k + i) % 5

/-- The operation that a channel serves next (R435): of the first class in turn, in the direction under way, a throttled class only
if no other can be served (R446). -/
def nextOp (s : State) (c : Nat) : Option DramOp :=
  let ws := s.dramWait.filter (·.chan == c)
  let d := runWrites s c ws
  let of := fun d => (turnOrder s c).filterMap fun k => firstWait ws k d
  let os := if (of d).isEmpty then of !d else of d
  let free := os.filter fun o => rowIsOpen s c (bankOf s c o.page) (rowOf o.page) || mayOpen s c (bankOf s c o.page) o.cls
  (free ++ os).head?

/-- The weighted round robin and the run go on with operation `o` (R435). -/
def arbStep (o : DramOp) (s : State) : State :=
  let c := o.chan
  let left := if s.hn (.arbCls c) = o.cls ∧ s.hn (.arbLeft c) ≠ 0 then s.hn (.arbLeft c) else s.rfld (Reg.DSC.ARB_W c) (4 * o.cls) 4
  let run := if s.hb (.runWrite c) = o.write then s.hn (.runLen c) + 1 else 1
  (((s.setH (.arbCls c) (o.cls : Nat)).setH (.arbLeft c) (left - 1 : Nat)).setHb (.runWrite c) o.write).setH (.runLen c) (run : Nat)

/-- A channel serves its next operation while it has a free slot (R433, R435). -/
def opServe (c : Nat) (s : State) : State :=
  if !chanServes s c ∨ 256 ≤ (s.dramOps.filter (·.chan == c)).length then s else
  match nextOp s c with
  | none => s
  | some o =>
    let s := { s with dramWait := s.dramWait.erase o }
    let last := !s.dramWait.any fun x => x.chan == c && x.cls == o.cls && x.page == o.page
    let s := bump (if o.write then Reg.DSC.WR_OPS c else Reg.DSC.RD_OPS c) (rowUse c o.page o.cls last (arbStep o s))
    let (o, s) := opReach o s
    { s with dramOps := s.dramOps ++ [o] }

/-- DRAM_OPERATION (R433): channel `c` serves the next of the operations that wait for it. -/
def execDramOperation (c : Fin 16) (s : State) : Host.Outcome State Fault Refusal := done (s.ifLive (dscPage c) (opServe c))

/-- A full retrain that waits for the operations in flight begins once there is none (R442). -/
def retrainBegin (c : Nat) (s : State) : State :=
  if s.h (.retrain c) = 3 ∧ !(s.dramOps.any (·.chan == c)) then
    raise (dscPage c) 7 (bump (Reg.DSC.RETRAIN_FULL_CNT c) (s.setH (.retrain c) 1))
  else s

/-- An operation in flight completes (R447, R448): `errs` names the bursts in error, 4 × subchannel + burst, each corrected on a
device or uncorrectable. A read with a burst that is uncorrectable, or known to be, is uncorrectable. -/
def opEnd (o : DramOp) (errs : List (Nat × Option Nat)) (s : State) : State :=
  if o.write then opDeliver o false false s else
  let mask := (errs.filter (·.2.isNone)).foldl (fun m e => setBit m e.1 true) o.bad
  let ds := (errs.filterMap fun e => e.2.map fun d => (e.1 / 4, d)).eraseDups
  if mask ≠ 0 then
    let s := if o.stale then s else setUeMark o.chan o.page o.blk (ueMark s o.chan o.page o.blk ||| mask) s
    opDeliver o true false (dramUe o.chan o.page (if fld mask 0 4 = 0 then 1 else 0) o.cls s)
  else if ds = [] then opDeliver o false false s
  else opDeliver o false true (dramCe o.chan o.page ds s)

/-- The oldest operation of class `k` in flight in channel `c` completes, unless an older one is in flight to its block (R434). -/
def opDone (c k : Nat) (errs : List (Nat × Option Nat)) (s : State) : State :=
  match s.dramOps.find? fun o => o.chan == c && o.cls == k with
  | none => s
  | some o =>
    if (s.dramOps.takeWhile fun x => decide (x ≠ o)).any (·.sameBlock o) then s
    else retrainBegin c (opEnd o errs { s with dramOps := s.dramOps.erase o })

/-- DRAM_OP_COMPLETE (R448): of class `k`; `errs` names the bursts of a read in error and the device corrected, none for an
uncorrectable one. -/
def execDramOpComplete (c : Fin 16) (k : Fin 5) (errs : List (Fin 8 × Option (Fin 10))) (s : State) : Host.Outcome State Fault Refusal :=
  done (s.ifLive (dscPage c) (opDone c k (errs.map fun e => (e.1.val, e.2.map Fin.val))))

/-- Every operation that waits for channel `c` or is in flight there completes as uncorrectable (R443). -/
def opsLost (c : Nat) (s : State) : State :=
  let os := (s.dramOps ++ s.dramWait).filter (·.chan == c)
  forEach os { s with dramOps := s.dramOps.filter (·.chan != c), dramWait := s.dramWait.filter (·.chan != c) } opLost

/-! ### Software access (R452) -/

/-- The refusals of the table commands of a DSC page (R452). -/
def dscTable (op : Nat) (w : Win) (s : State) : TblRes :=
  if w.sel ≠ 1 ∨ (op ≠ 1 ∧ op ≠ 2) then w.fail 0x03 s else w.fail 0x04 s

/-- A table command of a DSC page (R452): READ or WRITE of a block of table DEEP is an operation of class SW, and reads BUSY until it
completes. -/
def deepRun (r : Req) (p op : Nat) (s : State) : State :=
  let w := winOf s r p
  let sts := winBank r (Reg.TBL_STS p)
  if s.rbit sts 31 ∨ w.sel ≠ 1 ∨ (op ≠ 1 ∧ op ≠ 2) ∨ chanPages s * 128 ≤ w.idx then tblRun r p (dscTable op) s
  else
    let x : RouteCmd := { r := r, op := op, sel := w.sel, idx := w.idx, data := BitVec.ofNat 512 w.data }
    let s := s.setReg sts (setBit (s.reg sts) 31 true)
    let lost := s.h (.trainStep (p - 0xF0)) != 7
    let (d, s) := if lost && op == 1 then deepRead (p - 0xF0) w.idx s else (w.data, s)
    opAsk { chan := p - 0xF0, cls := 4, write := op == 2, page := w.idx / 128, blk := w.idx % 128 / 8, size := 128, tag := 0
            sw := some { x with data := BitVec.ofNat 512 d } } s

/-- An access of the host to a block through a window is one of class SW too: its row is opened and it is counted (R452, R525). -/
def swTouch (c idx : Nat) (write : Bool) (s : State) : State :=
  bump (if write then Reg.DSC.WR_OPS c else Reg.DSC.RD_OPS c) (rowUse c (idx / 128) 4 true s)

end Sys2Proof.Machine
end

