-- ==== Sys2Proof/Machine/Shaper.lean ====
section
/-!
DEFINITION. The egress hierarchy's entities and their shapers with the Fretboard (spec/09_queueing_scheduling.md, R370, R371,
R375 to R381, R390). Entities are numbered as the SHP table numbers them (R390).
-/
namespace Sys2Proof.Machine

/-- The first element of a rising list at or after `p`, else its first (round robin). -/
def firstFrom (p : Nat) (xs : List Nat) : Option Nat := (xs.find? fun x => p ≤ x).orElse fun _ => xs.head?

/-- The SHAPE page. -/
def shapePage : Nat := 0xD2

/-! ### Entities (R370, R371, R390) -/

/-- The table and index of an entity's hierarchy entry. -/
def entTab (i : Nat) : Nat × Nat :=
  if i < 131072 then (1, i) else if i < 163840 then (2, i - 131072) else if i < 180224 then (3, i - 163840)
  else if i < 184320 then (4, i - 180224) else (5, i - 184320)

/-- Word 0 of an entity's hierarchy entry. -/
def entW (s : State) (i : Nat) : Nat := s.tabW schedPage (entTab i).1 (entTab i).2 0

def entEn (s : State) (i : Nat) : Bool := bit (entW s i) 31
def entPrio (s : State) (i : Nat) : Nat := fld (entW s i) 28 3

/-- The quantum of an entity: 64 × WEIGHT bytes (R371). -/
def quantum (s : State) (i : Nat) : Nat := 64 * fld (entW s i) 16 12

/-- The parent of an entity below the port level. -/
def parentOf (s : State) (i : Nat) : Nat :=
  (if i < 131072 then 131072 else if i < 163840 then 163840 else if i < 180224 then 180224 else 184320) +
    fld (entW s i) 0 15

/-- The first entity of the port level. -/
def port0 : Nat := 184320

/-- The nodes on the path of egress queue `e`: queue, L3, L2, L1, port. -/
def pathOf (s : State) (e : Nat) : List Nat :=
  let a := parentOf s e
  let b := parentOf s a
  let c := parentOf s b
  [e, a, b, c, parentOf s c]

/-- The port of egress queue `e`. -/
def portOf (s : State) (e : Nat) : Nat := parentOf s (parentOf s (parentOf s (parentOf s e))) - port0

/-- The deficit of an entity (R373): it resets to 64. -/
def deficit (s : State) (x i : Nat) : Int := s.h (.dwrr x i) + 64

/-- `n` further bytes of a frame already charged are charged on one step of its descent (R373): the frame's whole length counts
as charged at once, so that its child takes at most one quantum for it. -/
def chargeMore (n : Nat) (t : Step) (s : State) : State :=
  let d := deficit s t.pass t.child - n
  if d ≤ 0 ∧ t.topped = false then
    (s.setH (.dwrr t.pass t.child) (d + quantum s t.child - 64)).setH (.ptr t.node t.pass t.prio) (t.child + 1 : Nat)
  else s.setH (.dwrr t.pass t.child) (d - 64)

/-- The step after that charge. -/
def Step.after (n : Nat) (s : State) (t : Step) : Step :=
  { t with topped := t.topped || decide (deficit s t.pass t.child ≤ n) }

/-! ### Shapers (R375 to R381) -/

/-- Words of an entity's SHP entry (R390). -/
def shpW (s : State) (i w : Nat) : Nat := s.tabW shapePage 1 i w

/-- Whether the committed (`p` false) or peak bucket of an entity is enabled, its rate in kbit/s, and its burst. -/
def bktEn (s : State) (p : Bool) (i : Nat) : Bool := bit (shpW s i 0) (if p then 30 else 31)
def bktRate (s : State) (p : Bool) (i : Nat) : Nat := fld (shpW s i (if p then 3 else 1)) 0 31
def bktBurst (s : State) (p : Bool) (i : Nat) : Nat := fld (shpW s i (if p then 4 else 2)) 0 24
def bktHid (p : Bool) (i : Nat) : Hid := if p then .shpP i else .shpC i

/-- What a rate in kbit/s brings in `d` root-PLL cycles, in units of 2^-16 byte, rounded down. -/
def refill (rate d : Nat) : Nat := rate * 125 * d * 65536 / 7200000000

/-- Cycles after which a rate in kbit/s has repaid a debt in units of 2^-16 byte. -/
def repayTime (rate debt : Nat) : Nat := cdiv (debt * 7200000000) (rate * 125 * 65536)

/-- Bring one bucket's level up to date (R378); a rate of 0 freezes it (R381). -/
def bktUpdate (p : Bool) (i : Nat) (s : State) : State :=
  if bktEn s p i && bktRate s p i != 0 then
    let v := s.h (bktHid p i)
    let top : Int := bktBurst s p i * 65536
    s.setH (bktHid p i) (min (v + refill (bktRate s p i) (s.root - s.hn (.shpAt i))) (max top v))
  else s

/-- Bring an entity's levels up to date. -/
def shpUpdate (i : Nat) (s : State) : State := (bktUpdate true i (bktUpdate false i s)).setH (.shpAt i) (s.root : Nat)

/-- The due time of an entity: the earliest time at which a bucket below 0 with a non-zero rate reaches 0, rounded up to the
next fret boundary of 72 root-PLL cycles, plus 1; 0 when none is due (R379). -/
def dueTime (s : State) (i : Nat) : Nat :=
  let one := fun p =>
    let v := s.h (bktHid p i)
    if bktEn s p i && bktRate s p i != 0 && decide (v < 0) then
      some (s.hn (.shpAt i) + repayTime (bktRate s p i) (-v).toNat)
    else none
  match one false, one true with
  | none, none => 0
  | some a, none => cdiv a 72 * 72 + 1
  | none, some b => cdiv b 72 * 72 + 1
  | some a, some b => cdiv (min a b) 72 * 72 + 1

/-- Where an entry due at `due` is filed (R380): 1 the fine wheel, 2 the coarse wheel, 3 the far list. -/
def wheelOf (s : State) (due : Nat) : Nat :=
  let now := s.root / 72 * 72
  if due ≤ now + 4096 * 72 then 1 else if due ≤ now + 4096 * 73728 then 2 else 3

/-- An entity's Fretboard entry takes a place (R379, R390): 0 withdraws it. -/
def setFret (i due at_ : Nat) (s : State) : State :=
  let far := fun (k : Int) => ofB (k == 3)
  let s := s.setReg Reg.SHAPE.FAR_CNT (s.reg Reg.SHAPE.FAR_CNT + ofB (at_ == 3) - far (s.h (.fretAt i)))
  (s.setH (.fretDue i) (due : Nat)).setH (.fretAt i) (at_ : Nat)

/-- File an entity at its due time, or withdraw its entry (R379, R381). -/
def refile (i : Nat) (s : State) : State :=
  let due := dueTime s i
  if due = 0 then setFret i 0 0 s else setFret i due (wheelOf s (due - 1)) s

/-- Whether the SHAPE page performs its function (R376). -/
def shaping (s : State) : Bool := s.live shapePage

/-- Whether an entity's peak bucket permits (R376). -/
def permits (s : State) (i : Nat) : Bool :=
  !shaping s || !bktEn s true i || (decide (0 ≤ s.h (.shpP i)) && bktRate s true i != 0)

/-- Whether an entity is in the committed pass (R376). -/
def committed (s : State) (i : Nat) : Bool :=
  shaping s && bktEn s false i && decide (0 ≤ s.h (.shpC i)) && bktRate s false i != 0

/-- The enabled buckets of an entity are debited `b` bytes (R378). -/
def shpTake (b : Int) (i : Nat) (s : State) : State :=
  if !shaping s || !(bktEn s false i || bktEn s true i) then s else
  let s := shpUpdate i s
  let s := if bktEn s false i then s.setH (.shpC i) (s.h (.shpC i) - b * 65536) else s
  let s := if bktEn s true i then s.setH (.shpP i) (s.h (.shpP i) - b * 65536) else s
  refile i s

/-- The length charged to entity `i` for `len` bytes of a frame (R377). -/
def shpLen (s : State) (len i : Nat) : Int := max 1 ((len : Int) + sgn (shpW s i 0) 7)

/-- A frame of `len` bytes is charged to an entity (R377, R378). -/
def shpCharge (len i : Nat) (s : State) : State := shpTake (shpLen s len i) i s

/-- A frame charged to an entity at `had` bytes has `len` bytes now: what is wanting is debited (R377, R378). -/
def shpDebit (had len i : Nat) (s : State) : State := shpTake (shpLen s len i - shpLen s had i) i s

/-- A bucket set to its burst. -/
def bktFill (p : Bool) (i : Nat) (s : State) : State := s.setH (bktHid p i) (bktBurst s p i * 65536 : Nat)

/-- The Fretboard holds no entry (R376). -/
def fretClear (s : State) : State :=
  let s := { s with hid := s.hid.filter fun e => !(e.1 / 2 ^ 96 == (Hid.fretDue 0).code / 2 ^ 96 || e.1 / 2 ^ 96 == (Hid.fretAt 0).code / 2 ^ 96) }
  s.setReg Reg.SHAPE.FAR_CNT 0

/-- Every enabled bucket is set to its burst, and the Fretboard holds no entry: a write of `EN` := 1, and a soft reset
(R43, R376). -/
def shapeRestart (s : State) : State :=
  let s := fretClear s
  forEach (s.tabList shapePage 1) s fun (i, _) s =>
    let s := s.setH (.shpAt i) (s.root : Nat)
    let s := if bktEn s false i then bktFill false i s else s
    if bktEn s true i then bktFill true i s else s

/-- WRITE of an SHP entry (R381, R390). -/
def shpWrite (w : Win) (s : State) : TblRes :=
  let e := (cutWords w.data 8) &&& ofWords [0xC000007F, 0x7FFFFFFF, 0xFFFFFF, 0x7FFFFFFF, 0xFFFFFF, 0, 0, 0]
  let i := w.idx
  let rate := fun k => fld (word e k) 0 31
  let ovh := sgn e 7
  if ovh < -32 ∨ 1600000000 < rate 1 ∨ 1600000000 < rate 3 ∨ word e 2 = 0 ∨ word e 4 = 0 then w.fail 0x10 s
  else
    let s := if shaping s then shpUpdate i s else s.setH (.shpAt i) (s.root : Nat)
    let was := fun p => bktEn s p i
    let wasC := was false
    let wasP := was true
    let s := s.setTab shapePage 1 i e
    let one := fun (p had : Bool) (s : State) =>
      if bktEn s p i && !had then bktFill p i s
      else if (bktBurst s p i * 65536 : Int) < s.h (bktHid p i) then bktFill p i s
      else s
    let s := one true wasP (one false wasC s)
    Win.ok none (if shaping s then refile i s else s)

/-- The entry of table SHP (R390): the words written, the levels in whole bytes, and where it is filed. -/
def shpEntry (s : State) (i : Nat) : Nat :=
  let e := cutWords (s.tab shapePage 1 i) 5
  let lvl := fun p => unsgn (s.h (bktHid p i) / 65536) 32
  e + ofWords [0, 0, 0, 0, 0, lvl false, lvl true, s.hn (.fretAt i) * 2 ^ 30]

/-- The table commands of the SHAPE page (R390). -/
def shapeTable (op : Nat) (w : Win) (s : State) : TblRes :=
  if w.sel ≠ 1 ∨ (op ≠ 1 ∧ op ≠ 2) then w.fail 0x03 s
  else if 184456 ≤ w.idx then w.fail 0x04 s
  else if op = 1 then Win.ok (some (shpEntry s w.idx)) s else shpWrite w s

/-- `SHAPE.FRET_NOW`: the current fine fret (R390). -/
def fretNow (s : State) : Nat := s.root / 72 % 4096

/-- An entry is released (R379, R380): the levels are brought up to date, and an entity still in debt is filed again. -/
def fretRelease (i : Nat) (s : State) : State :=
  let due := s.hn (.fretDue i)
  if due = 0 then s else
  let s := waitRoot (due - 1) s
  let s := if due - 1 + 72 < s.root then raiseFirst shapePage 0 (bump Reg.SHAPE.FRET_LATE s) else s
  refile i (shpUpdate i s)

/-- FRET_RELEASE (R379): the entry of entity `i`. -/
def execFretRelease (i : Fin 184456) (s : State) : Host.Outcome State Fault Refusal :=
  done (s.ifLive shapePage (fretRelease i))

/-- The entities filed at a place, in numeric order. -/
def filedAt (s : State) (at_ : Nat) : List Nat :=
  (s.hid.filter fun e => e.1 / 2 ^ 96 == (Hid.fretAt 0).code / 2 ^ 96 && e.2 == (at_ : Int)).map fun e => e.1 % 2 ^ 32

/-- The coarse wheel reaches its next fret, and the fret's entries are refiled onto the fine wheel (R380). -/
def coarseAdvance (s : State) : State :=
  let s := waitRoot ((s.root / 73728 + 1) * 73728) s
  forEach (filedAt s 2) s fun i s =>
    if (s.hn (.fretDue i) - 1) / 73728 ≤ s.root / 73728 then setFret i (s.hn (.fretDue i)) 1 s else s

/-- COARSE_FRET_ADVANCE (R380). -/
def execCoarseFretAdvance (s : State) : Host.Outcome State Fault Refusal := done (s.ifLive shapePage coarseAdvance)

/-- The scan of the far list: entries due within the next revolution of the coarse wheel move to it (R380). -/
def farScan (s : State) : State :=
  forEach (filedAt s 3) s fun i s =>
    if s.hn (.fretDue i) - 1 ≤ s.root + 4096 * 73728 then setFret i (s.hn (.fretDue i)) 2 s else s

/-- FAR_LIST_SCAN (R380). -/
def execFarListScan (s : State) : Host.Outcome State Fault Refusal := done (s.ifLive shapePage farScan)

end Sys2Proof.Machine
end

