-- ==== Sys2Proof/Machine/Buffer.lean ====
section
/-!
DEFINITION. The buffer manager and the deep-store spill (spec/08_buffering.md, R311 to R353): admission with push-out,
grants and frees, the spill writer and the return engine, the age sweep.
-/
namespace Sys2Proof.Machine

/-! ### Admission (R325 to R329) -/

/-- Why a frame is refused (R327, R320). -/
inductive Why where
  | qmax | deepmax | stage | shared | nobuf
  deriving DecidableEq, Repr

/-- The drop counter of a refusal (R328). -/
def Why.counter : Why → Nat
  | .qmax => Reg.CELL.DROP_QMAX
  | .deepmax => Reg.CELL.DROP_DEEPMAX
  | .stage => Reg.CELL.DROP_STAGE
  | .shared => Reg.CELL.DROP_THR
  | .nobuf => Reg.CELL.DROP_NOBUF

/-- The charge E of a frame in buffer cells (R327). -/
def charge (f : Frame) : Nat := if f.full then f.cellsNeeded else 1

/-- floor(alpha(c) × x) for a frame of colour `c` on queue `q` (R327). -/
def alphaOf (s : State) (q c x : Nat) : Nat := x * 2 ^ fld (admW s q 0) (12 - 4 * min c 2) 4 / 256

/-- The part of a charge that the minima cover (R327). -/
def minPart (s : State) (q e : Nat) : Nat :=
  let p := partOf s q
  min e (min (fld (admW s q 1) 0 20 - s.hn (.gq q)) (s.reg (Reg.CELL.PART_MIN p) - s.reg (Reg.CELL.PART_GU p)))

/-- The admission test of R327: the guaranteed and shared cells of the charge, and the reason of a refusal. -/
def admTest (s : State) (q : Nat) (f : Frame) : Nat × Nat × Option Why :=
  let e := charge f
  let p := partOf s q
  let qmax := fld (admW s q 4) 0 28
  let dmax := fld (admW s q 5) 0 28
  let deep := s.h (.qstate q) == 1
  let g := if deep then 0 else minPart s q e
  let x := e - g
  let why :=
    if qmax ≠ 0 ∧ 32 * qmax < backlog s q + e then some Why.qmax
    else if deep then
      if (dmax ≠ 0 ∧ dmax ≤ (pagesOf s q).length) ∨ s.reg (Reg.BPM.FREE_CNT 1) = 0 then some .deepmax
      else if fld (admW s q 6) 0 12 < stageOf s q + e ∨
          s.reg Reg.SPILL.STAGE_GLOBAL < s.reg Reg.SPILL.STAGE_USED + e then some .stage
      else if partFree s p < e then some .shared
      else none
    else if x = 0 then none
    else if (x : Int) ≤ partFree s p ∧ s.hn (.sq q) + x ≤ alphaOf s q f.colour (partFree s p).toNat then none
    else some .shared
  (g, x, why)

/-- A SHALLOW queue that an admission of `e` cells would take above SPILL_ON moves to DEEP, or is denied for want of a
context or a page (R327, R335); it stays SHALLOW while the SPILL page performs no function (R45). -/
def deepEntry (q e : Nat) (s : State) : State :=
  if s.h (.qstate q) ≠ 0 ∨ !bit (admW s q 0) 30 ∨ uq s q + e ≤ fld (admW s q 2) 0 20 ∨ !s.live spillPage then s
  else if s.reg Reg.SPILL.CTX_USED < s.reg Reg.SPILL.CTX_CAP ∧ s.reg (Reg.BPM.FREE_CNT 1) ≠ 0 ∧ popReady s then
    let s := s.setReg Reg.SPILL.CTX_USED (s.reg Reg.SPILL.CTX_USED + 1)
    bump Reg.SPILL.TO_DEEP (s.setH (.qstate q) 1)
  else raiseFirst spillPage 0 (bump Reg.SPILL.DEEP_DENIED s)

/-- A frame dropped at its admission (R328); a refused inject frame carries STATUS ADM_DROP (R513). -/
def admDrop (q : Nat) (f : Frame) (w : Why) (s : State) : State :=
  let s := bump w.counter (bump (Reg.CELL.DROP_PART (partOf s q)) s)
  let s := fsCount (dropPair q) f.len s
  let s := if f.ring = 0 then s else injResult (f.ring - 1) f.desc 2 0 s
  queueLeft q (s.drop f)

/-- A frame joins queue `q` with its cells (R283, R328, R335, R338, R342). -/
def enqueue (q : Nat) (f : Frame) (cells : List Nat) (s : State) : State :=
  let st := s.h (.qstate q)
  let part := if st = 0 then Part.head else Part.stage
  let fresh := f.parity.isNone
  let f := { f with q := q, pre := [], cells := cells.map fun j => { part := part, ptr := j }, ncell := cells.length, sf := f.sf || st == 1, birth := if fresh then in16 s.fol else f.birth }
  let f := { f with counted := if isVoq q then f.heldLen else 0, paid := 0 }
  let (f, s) := if fresh then stampParity f s else (f, s)
  let s := if f.ring ≠ 0 ∧ !f.txTs then injResult (f.ring - 1) f.desc 0 0 s else s
  let s := s.moveFrame f (.queued q)
  let s := if st = 0 then s else s.setReg Reg.SPILL.STAGE_USED (s.reg Reg.SPILL.STAGE_USED + cells.length)
  let s := bump Reg.CELL.ADM_FRAMES (bump (if isVoq q then Reg.QMGR.ENQ_VOQ else Reg.QMGR.ENQ_EGQ) s)
  let s := if isVoq q then fsCount (2621440 + q) f.heldLen s else s
  queueLeft q s

/-- The frame's cells are granted and counted, and it joins queue `q` (R319, R326); none when a cell is refused for lack
of buffer (R320). Cells that the inject DMA already holds are taken over (R514). -/
def place (q : Nat) (f : Frame) (g x : Nat) (s : State) : Option State × State :=
  if f.pre ≠ [] then
    (some (enqueue q f f.pre (takeCounts q g x s)), s)
  else
    match grantCells (queueReqr q) (ownerOf q) (g + x) s with
    | (some js, s) => (some (enqueue q f js (takeCounts q g x s)), s)
    | (none, s) => (none, s)

/-! ### Push-out (R330 to R334) -/

/-- A frame may be evicted from the tail of its queue (R332). -/
def evictable (f : Frame) : Bool :=
  !f.started && f.cells.all fun c => match c.part with
    | .head | .stage | .ret _ => true
    | _ => false

/-- The whole eligible frames at the tail of a queue, given newest first, that push-out counts: up to the first that is not
eligible, or that would take the count of cells, `total` so far, above 64 (R332). -/
def evictList : Nat → List Frame → List Frame
  | _, [] => []
  | total, f :: rest =>
    if evictable f ∧ total + f.cells.length ≤ 64 then f :: evictList (total + f.cells.length) rest else []

/-- The victim of a push-out (R331): in the domain of queue `q`, of a class below `c`, the greatest uq, lowest number. -/
def victim (s : State) (q c : Nat) : Option Nat :=
  let dom := fun k => (partOf s k, fld (admW s k 0) 24 3)
  let cands := (usedQueues s).filter fun k => dom k == dom q && decide (queueClass s k < c)
  cands.foldl (fun best k => match best with
    | none => some k
    | some b => if uq s b < uq s k then some k else some b) none

/-- A frame of queue `q` is evicted as it now stands (R332). -/
def evict (q id : Nat) (s : State) : State :=
  match s.frame id with
  | none => s
  | some f =>
  let s := bumpBy Reg.CELL.PO_CELLS f.cells.length (bump Reg.CELL.PO_FRAMES s)
  queueLeft q (queueDrop q f s)

/-- Cells that push-out must free for a refused frame; none when it is not eligible (R330). -/
def pushNeed (s : State) (q : Nat) (f : Frame) (g x : Nat) (w : Why) : Option Nat :=
  let p := partOf s q
  let need := if w = .shared then ((x : Int) - partFree s p).toNat else g + x
  if w = .qmax ∨ w = .deepmax ∨ !bit (admW s q 0) 31 ∨ f.cls < fld (admW s q 0) 21 3 then none
  else if alphaOf s q f.colour (s.reg (Reg.CELL.PART_SHARED p)) < s.hn (.sq q) + x ∨ 64 < need then none
  else some need

/-- A frame admitted through push-out takes its cells, or is dropped for lack of buffer (R332). -/
def pushPlace (q : Nat) (f : Frame) (g x : Nat) (s : State) : State :=
  match place q f g x s with
  | (some t, _) => bump Reg.CELL.PO_ADMIT t
  | (none, s) => admDrop q f .nobuf s

/-- A refused frame: push-out makes room for it, or it is dropped (R328, R330 to R332, R340). -/
def refuse (q : Nat) (f : Frame) (g x : Nat) (w : Why) (s : State) : State :=
  let s := if w = .stage then raiseFirst spillPage 1 s else s
  match pushNeed s q f g x w with
  | none => admDrop q f w s
  | some 0 => pushPlace q f g x s
  | some n =>
    match victim s q f.cls with
    | none => admDrop q f w s
    | some v =>
      let fs := evictList 0 (s.allAt (.queued v)).reverse
      if (fs.map fun e => e.cells.length).sum < n then admDrop q f w s
      else pushPlace q f g x (forEach fs s fun e s => evict v e.id s)

/-- The queue engine that serves queue `q`, as a unit of R594: 16 + engine. -/
def engineUnit (q : Nat) : Nat := 16 + q % 10 + (if isVoq q then 0 else 10)

/-- The request for buffer that an engine carries: that of its oldest frame so admitted (R318, R319). -/
def carriedBy (s : State) (rq : Nat) : Option Frame :=
  s.frames.find? fun f => match f.loc with
    | .carried q => queueReqr q == rq
    | _ => false

/-- Whether a queue engine carries a request for pool C (R319). -/
def anyCarried (s : State) : Bool := (List.range 20).any fun rq => (carriedBy s rq).isSome

/-- The frame is tested for queue `q` (R327); `carry`: its request for buffer is carried to a later Q-clock cycle, as it is while
another engine's request is carried, so that the two are served in turn (R319). -/
def admitQueue (carry : Bool) (q : Nat) (f : Frame) (s : State) : State :=
  let s := deepEntry q (charge f) s
  match admTest s q f with
  | (g, x, some w) => refuse q f g x w s
  | (g, x, none) =>
    if (carry || anyCarried s) && f.pre.isEmpty then (takeCounts q g x s).moveFrame { f with q := q, carG := g, carE := x } (.carried q)
    else
      match place q f g x s with
      | (some t, _) => t
      | (none, s) => refuse q f g x .nobuf s

/-- The frame offered to queue `q` is admitted or refused (R45, R327, R355, R594). While the queue's engine carries a request,
the frame waits for it (R318, R319). -/
def offerTo (carry : Bool) (q : Nat) (f : Frame) (s : State) : State :=
  if s.live qmgrPage && s.live cellPage && (carriedBy s (queueReqr q)).isSome then
    (if f.loc = .toQ q then s else s.moveFrame f (.toQ q))
  else if !s.live qmgrPage then dropDisabled qmgrPage f s
  else if isVoq q && !bit (s.tab qmgrPage 2 (q / 8)) 31 then bump Reg.QMGR.NO_SYSQ (s.drop f)
  else if s.hb (.stuck (engineUnit q)) then errInt qmgrPage 0x07 0 (s.drop f)
  else if !s.live cellPage then dropDisabled cellPage f s
  else admitQueue carry q f s

/-! ### Punted frames (R320, R321, R507, R511) -/

/-- The HOST page. -/
def hostPage : Nat := 5

/-- The punt ring of a frame (R507). -/
def puntRing (s : State) (f : Frame) : Option Nat :=
  let e := s.tab hostPage 1 (f.reason.getD 0)
  if !bit e 31 then none
  else if f.useOff then some ((fld e 16 6 + f.qoff) % 64)
  else if bit e 8 then some ((fld e 16 6 + f.cls) % 64)
  else some (fld e 16 6)

/-- Bytes of a buffer of host pool `i` (R313). -/
def hostBufBytes (i : Nat) : Nat := 256 * poolCells i

/-- Bytes that a punted frame and its metadata take (R321, R509). -/
def puntBytes (f : Frame) : Nat := 32 + f.bytes.length

/-- A punt frame is dropped, counted in a counter of the HOST page (R507, R511). -/
def puntDrop (a : Nat) (f : Frame) (s : State) : State := bump a (s.drop f)

/-- A punt frame whose reason names no ring is dropped; the first one raises PUNT_UNMAPPED (R507, R530). -/
def puntUnmapped (f : Frame) (s : State) : State := raiseFirst hostPage 5 (puntDrop Reg.HOST.PUNT_UNMAPPED f s)

/-- A punt frame holds its host buffer: it waits for its ring, or is dropped (R511). -/
def puntWait (f : Frame) (s : State) : State :=
  match puntRing s f with
  | none => puntUnmapped f s
  | some r =>
    if !s.rbit (Reg.HOST.P_CFG r) 31 || s.rbit (Reg.HOST.P_STS r) 31 then puntDrop (Reg.HOST.P_DROP_OFF r) f s
    else if s.reg (Reg.HOST.P_LIMIT r) ≤ (s.allAt (.host r)).length then puntDrop (Reg.HOST.P_DROP_FULL r) f s
    else s.moveFrame { f with since := s.folNs, limit := s.reg Reg.CELL.AGE_LIMIT } (.host r)

/-- The punt engine asks host pool `i` and the larger ones in turn (R320, R321). -/
def puntAsk (f : Frame) : Nat → Nat → State → State
  | 0, _, s => raiseFirst bpmPage 3 (bump Reg.BPM.PUNT_DROP (s.drop f))
  | n + 1, i, s =>
    match grantBuf blockReqr i puntOwner s with
    | (some j, s) => puntWait { f with hbuf := j + 1, hpool := i } (s.putFrame { f with hbuf := j + 1, hpool := i })
    | (none, s) => puntAsk f n (i + 1) (if n = 0 then s else bump Reg.BPM.PUNT_FALLBACK s)

/-- A punted frame whose last byte is in asks for the smallest host buffer that holds it (R321). -/
def puntAdmit (f : Frame) (s : State) : State :=
  let first := if puntBytes f ≤ 256 then 2 else if puntBytes f ≤ 2048 then 3 else if puntBytes f ≤ 10240 then 4 else 5
  if !s.live hostPage then dropDisabled hostPage f s
  else if (puntRing s f).isNone then puntUnmapped f s
  else puntAsk f (6 - first) first s

/-- ADMISSION (R327): the oldest frame offered to queue `q`, or, with none, the oldest complete frame on its way to the
host; `carry` says that its request for buffer is carried to a later Q-clock cycle (R319). -/
def execAdmission (q : Option (Fin 393216)) (carry : Bool) (s : State) : Host.Outcome State Fault Refusal :=
  done (match q with
    | some q =>
      match s.firstAt (.toQ q) with
      | some f => offerTo carry q f s
      | none => s
    | none =>
      match (s.allAt .toHost).find? (·.full) with
      | some f => puntAdmit f s
      | none => s)

/-- The frame of a carried request has every buffer that it asked for, and joins its queue (R319). -/
def carryDone (q : Nat) (f : Frame) (s : State) : State :=
  enqueue q { f with carG := 0, carE := 0 } f.pre s

/-- A carried request receives an empty response: the buffers already granted are freed, and the frame is refused NOBUF
(R319, R320). -/
def carryEmpty (q : Nat) (f : Frame) (s : State) : State :=
  let g := f.carG
  let x := f.carE
  let s := forEach f.pre (uncharge f s) fun j s => agentFree 0 j (ownerOf q) s
  let f := { f with carG := 0, carE := 0, pre := [] }
  refuse q f g x .nobuf (s.putFrame f)

/-- Requester `rq` of pool C, a queue engine that carries a request, is served: it is granted one buffer, or receives an
empty response (R319). -/
def carryServe (rq : Nat) (s : State) : State :=
  match carriedBy s rq with
  | none => s
  | some f =>
    match f.loc with
    | .carried q =>
      match grantBuf rq 0 (ownerOf q) s with
      | (none, s) => carryEmpty q f s
      | (some j, s) =>
        let f := { f with pre := f.pre ++ [j] }
        let s := s.putFrame f
        if f.carG + f.carE ≤ f.pre.length then carryDone q f s else s
    | _ => s

/-- The queue engines that carry a request, in the order of their numbers (R318). -/
def carriers (s : State) : List Nat := (List.range 20).filter fun rq => (carriedBy s rq).isSome

/-- The carried requests that pool C reaches before requester `rq` in this Q-clock cycle are served (R319). -/
def serveAhead (rq : Nat) (s : State) : State :=
  let turn := fun x => (x + 23 - s.hn (.poolTurn 0) % 23) % 23
  let ahead := (carriers s).filter fun x => turn x < turn rq
  forEach (((List.range 23).map fun k => (s.hn (.poolTurn 0) + k) % 23).filter ahead.contains) s carryServe

/-- `n` buffers of pool C for requester `rq` and owner `o`, each in its turn among the carried requests (R319): their numbers, or
none and the state after the empty response, with what had been granted returned. -/
def grantTurns (rq o : Nat) : Nat → State → Option (List Nat) × State
  | 0, s => (some [], s)
  | n + 1, s =>
    match grantBuf rq 0 o (serveAhead rq s) with
    | (none, s) => (none, s)
    | (some j, s) =>
      match grantTurns rq o n s with
      | (some js, s) => (some (j :: js), s)
      | (none, s) => (none, releaseBuf 0 j s)

/-- BUFFER_GRANT (R319): pool C serves the next requester in round-robin order, after the one that it last granted. -/
def execBufferGrant (s : State) : Host.Outcome State Fault Refusal :=
  done (match firstFrom (s.hn (.poolTurn 0)) (carriers s) with
    | some rq => carryServe rq s
    | none => s)

/-! ### Cells after the header cell (R329) -/

/-- The frame is truncated: its last cell held is marked bad and the rest of its bytes are discarded (R329); its queue's
request state follows (R365). -/
def truncate (q : Nat) (f : Frame) (s : State) : State :=
  let f := { f with bytes := f.bytes.take (256 * f.ncell + f.grew).toNat, fcs := false, trunc := true, bad := true, full := true, recv := none }
  voqEval q (bump Reg.CELL.TAIL_TRUNC (s.putFrame f))

/-- The bytes of a dequeued frame beyond those charged are charged on its path and in the byte counters (R373, R377, R389). -/
def chargePath (q : Nat) (f : Frame) (s : State) : State :=
  let n := f.heldLen - f.paid
  let s := s.ifLive schedPage fun s => forEach f.hops s (chargeMore n)
  let s := forEach (f.hops.map (·.child) ++ [port0 + f.outPort]) s fun i s => shpDebit f.paid f.heldLen i s
  bumpBy (Reg.SCHED.DEQ_BYTES f.outPort) n (fsBytes (3145728 + (q - egqBase)) n s)

/-- The bytes that have come into buffer cells since a frame was counted and charged are counted and charged wherever the bytes
before them were (R363, R365, R373, R377, R389): at the admission to a VOQ, to the VOQ's credit, on the frame's path. -/
def chargeLate (f : Frame) (s : State) : State :=
  let len := f.heldLen
  let late := fun had => if had = 0 then 0 else len
  let g := { f with counted := late f.counted, paid := late f.paid, hops := f.hops.map (Step.after (len - f.paid) s) }
  let s := s.putFrame g
  let s := if f.counted = 0 then s else fsBytes (2621440 + f.q) (len - f.counted) s
  if f.paid = 0 then s
  else if isVoq f.q then s.setH (.cb f.q) (s.h (.cb f.q) - (len - f.paid : Nat))
  else chargePath f.q f s

/-- The frame with the model's number `id` has more of its bytes in buffer cells. -/
def grown (id : Nat) (s : State) : State :=
  match s.frame id with
  | some f => if f.counted = 0 ∧ f.paid = 0 then s else voqEval f.q (chargeLate f s)
  | none => s

/-- The next cell of an admitted frame is taken while headroom and buffer allow (R329), and the bytes in it are charged. A
frame that has left its queue gives the cell up at once; `ue`: it is then read with an uncorrectable error (R312). -/
def tailCell (q : Nat) (ue : Bool) (f : Frame) (s : State) : State :=
  let p := partOf s q
  if s.reg (Reg.CELL.PART_SHARED p) + s.reg (Reg.CELL.PART_HEAD p) ≤ s.reg (Reg.CELL.PART_SH p) then truncate q f s
  else
    match grantBuf (queueReqr q) 0 (ownerOf q) s with
    | (none, s) => truncate q f s
    | (some j, s) =>
      let g := { f with ncell := f.ncell + 1 }
      let s := if f.loc = .queued q then
          let st := s.h (.qstate q)
          let c : CellRef := { part := if st = 0 then .head else .stage, ptr := j }
          let s := takeCounts q 0 1 s
          let s := if st = 0 then s else s.setReg Reg.SPILL.STAGE_USED (s.reg Reg.SPILL.STAGE_USED + 1)
          s.putFrame { g with cells := f.cells ++ [c], sf := f.sf || st == 1 }
        else
          let s := agentFree 0 j (ownerOf q) s
          let s := s.putFrame g
          if ue then cellUe (if isVoq q then qmgrPage else schedPage) q f.ncell f.id true s else s
      queueLeft q (grown f.id s)

/-- The next cell of the oldest frame of queue `q` that lacks one. -/
def tailNext (q : Nat) (ue : Bool) (s : State) : State :=
  match s.frames.find? fun f => f.q == q && lacksCell f with
  | some f => tailCell q ue f s
  | none => s

/-- TAIL_CELL_ARRIVAL (R329): of the oldest frame of queue `q` that lacks a cell; `ue`: the cell, of a frame that has left its
queue, is read with an uncorrectable error (R312). A disabled CELL page takes no cell, and the frame is cut short (R45). -/
def execTailCellArrival (q : Fin 393216) (ue : Bool) (s : State) : Host.Outcome State Fault Refusal :=
  done (match s.frames.find? fun f => f.q == q.val && lacksCell f with
    | some f =>
      if s.live cellPage then tailNext q ue (serveAhead (queueReqr q) s)
      else if s.clocked cellPage then truncate q f (errDisabled cellPage s)
      else truncate q f s
    | none => s)

/-! ### Frees (R322) -/

/-- The internal agents that free buffers (R317): their owner codes. -/
def agentCode (a : Fin 4) : Nat := a + 1

/-- BUFFER_FREE (R322): the agent with owner code `ag` + 1 frees pointer `ptr` of pool `i`. A free of a buffer that its
rules call for passes the checks; this command shows any other pointer to them too. A queued frame whose cell is
freed so keeps its bytes. -/
def execBufferFree (ag : Fin 4) (i : Fin 6) (ptr : BitVec 28) (s : State) : Host.Outcome State Fault Refusal :=
  done (s.when (s.clocked bpmPage) fun s => (freeBuf i ptr.toNat (agentCode ag) 5 s).2)

/-! ### Spill (R336, R337) -/

/-- The page that a cell lies in, or lies in while it is requested. -/
def CellRef.deepPage (c : CellRef) : Option Nat := match c.part with | .deep p => some p | _ => none
def CellRef.askedPage (c : CellRef) : Option Nat := match c.part with | .asked p => some p | _ => none

/-- Mark the first `n` cells of a frame that meet a test: the frame's cells, and how many marks are left. -/
def markCells (p : CellRef → Bool) (upd : CellRef → CellRef) : Nat → List CellRef → List CellRef × Nat
  | n, [] => ([], n)
  | 0, c :: cs => (c :: cs, 0)
  | n + 1, c :: cs =>
    if p c then
      let (r, k) := markCells p upd n cs
      (upd c :: r, k)
    else
      let (r, k) := markCells p upd (n + 1) cs
      (c :: r, k)

/-- The oldest `n` cells of queue `q` that meet a test take another part, in queue order. -/
def markQueue (q : Nat) (p : CellRef → Bool) (upd : CellRef → CellRef) (n : Nat) (s : State) : State :=
  ((s.allAt (.queued q)).foldl (fun (a : Nat × State) f =>
    let (cs, k) := markCells p upd a.1 f.cells
    (k, if cs = f.cells then a.2 else a.2.putFrame { f with cells := cs, sf := true })) (n, s)).2

/-- Queue `q` holds DEEP_MAX pages, those being written included, and the spill writer is held up (R340). -/
def atDeepMax (s : State) (q : Nat) : Bool :=
  let m := fld (admW s q 5) 0 28
  m != 0 && decide (m ≤ (pagesOf s q).length + (writesOf s q).length)

/-- The spill writer hands 32 staged cells of a DEEP queue to a page write, and asks for its operations (R337, R433). -/
def spillWrite (q : Nat) (s : State) : State :=
  let ready := ((queueCells s q).filter CellRef.atStage).length
  if s.h (.qstate q) ≠ 1 ∨ ready < 32 ∨ atDeepMax s q then s else
  match grantBuf blockReqr 1 spillOwner s with
  | (none, s) => s
  | (some pg, s) =>
    let s := markQueue q CellRef.atStage (fun c => { c with part := .handed pg }) 32 s
    let cells := ((queueCells s q).filter fun c => decide (c.part = .handed pg)).map (·.ptr)
    let tag := s.hn .dramTag + 1
    let s := { s.setH .dramTag (tag : Nat) with pageWrites := s.pageWrites ++ [{ queue := q, page := pg, cells := cells, tag := tag }] }
    pageAsk 0 true pg tag (forEach cells s fun j s => setOwner 0 j spillOwner s)

/-- The spill writer reads the first staged cell of queue `q` with an uncorrectable error (R312). -/
def spillUe (q : Nat) (s : State) : State :=
  match (s.allAt (.queued q)).find? fun f => f.cells.any CellRef.atStage with
  | some f =>
    queueLeft q (cellUe spillPage q (f.ncell - f.cells.length + (f.cells.takeWhile (!·.atStage)).length) f.id f.started s)
  | none => s

/-- SPILL_PAGE_WRITE (R337): of queue `q`; `ue`: a staged buffer cell is read with an uncorrectable error (R312). -/
def execSpillPageWrite (q : Fin 393216) (ue : Bool) (s : State) : Host.Outcome State Fault Refusal :=
  done (s.ifLive spillPage (if ue then spillUe q else spillWrite q))

/-- The page write of the oldest page handed over by queue `q` completes with the last of its operations: its 32 staging cells are freed, and the page is the
queue's last deep page, or is freed if every frame with a cell in it has been discarded (R317, R337). -/
def pageWritten (q : Nat) (s : State) : State :=
  match s.pageWrites.find? fun w => w.queue == q with
  | none => s
  | some w =>
    if w.left ≠ 0 then s else
    let s := { s with pageWrites := s.pageWrites.filter fun x => decide (x ≠ w) }
    let s := forEach w.cells s fun j s => freeCount q (agentFree 0 j spillOwner s)
    let s := s.setReg Reg.SPILL.STAGE_USED (s.reg Reg.SPILL.STAGE_USED - w.cells.length)
    let mine := fun (c : CellRef) => decide (c.part = .handed w.page)
    let s := if (queueCells s q).any mine then
        let s := s.setReg Reg.SPILL.PAGES_HELD (s.reg Reg.SPILL.PAGES_HELD + 1)
        reparts q mine (fun _ => { part := .deep w.page, ptr := 0 }) s
      else agentFree 1 w.page spillOwner s
    queueLeft q (bump Reg.SPILL.PAGES_WR s)

/-- Every page write in progress is given up: its cells and its page are freed (R45). -/
def writesStop (s : State) : State :=
  forEach s.pageWrites { s with pageWrites := [] } fun w s =>
    let s := forEach w.cells s fun j s => freeCount w.queue (agentFree 0 j spillOwner s)
    agentFree 1 w.page spillOwner (s.setReg Reg.SPILL.STAGE_USED (s.reg Reg.SPILL.STAGE_USED - w.cells.length))

/-- PAGE_WRITE_DONE (R337). -/
def execPageWriteDone (q : Fin 393216) (s : State) : Host.Outcome State Fault Refusal :=
  done (s.ifLive spillPage (pageWritten q))

/-! ### Return (R339, R341) -/

/-- Pages of queue `q` requested or held in return buffers (R339). -/
def pagesAhead (s : State) (q : Nat) : Nat :=
  ((queueCells s q).filterMap fun c => match c.part with | .asked p | .ret p => some p | _ => none).eraseDups.length

/-- The return engine requests the next deep page of queue `q`, and asks for its operations (R339, R433). -/
def prefetch (q : Nat) (s : State) : State :=
  let ahead := fld (admW s q 6) 16 6
  if s.h (.qstate q) = 0 ∨ 32 * ahead < ((queueCells s q).filter CellRef.inHead).length ∨ ahead ≤ pagesAhead s q then s
  else
    match (queueCells s q).findSome? CellRef.deepPage with
    | none => s
    | some pg =>
      let tag := s.hn .dramTag + 1
      let s := reparts q (fun c => decide (c.part = .deep pg)) (fun c => { c with part := .asked pg }) (s.setH .dramTag (tag : Nat))
      pageAsk 1 false pg tag { s with pageReads := s.pageReads ++ [{ tag := tag, page := pg }] }

/-- RETURN_PREFETCH (R339). -/
def execReturnPrefetch (q : Fin 393216) (s : State) : Host.Outcome State Fault Refusal :=
  done (s.ifLive spillPage (prefetch q))

/-- A page returns with an uncorrectable error: it is freed, and every frame with a cell in it is discarded whole (R341), or
ended where it has started (R120). -/
def pageLost (q pg : Nat) (s : State) : State :=
  let lost := fun (c : CellRef) => decide (c.part = .asked pg)
  let fs := (s.allAt (.queued q)).filter fun f => f.cells.any lost
  let s := forEach fs s fun f s => bump Reg.SPILL.DEEP_UE_DROP
    (if f.started then endQueued q (f.ncell - f.cells.length + (f.cells.takeWhile (!lost ·)).length) f.id s else queueDrop q f s)
  queueLeft q (raise spillPage 2 s)

/-- The cells of page `pg` take return buffers `js` (R339). -/
def toReturn (q pg : Nat) (js : List Nat) (s : State) : State :=
  ((s.allAt (.queued q)).foldl (fun (a : List Nat × State) f =>
    let (cs, left) := f.cells.foldl (fun (b : List CellRef × List Nat) c =>
      if c.part = .asked pg then (b.1 ++ [{ part := .ret pg, ptr := b.2.headD 0 }], b.2.tail) else (b.1 ++ [c], b.2))
      ([], a.1)
    (left, if cs = f.cells then a.2 else a.2.putFrame { f with cells := cs })) (js, s)).2

/-- The cells of a frame that has started to dequeue leave queue `q` as far as they are there; with its last one the frame goes
on its way (R338, R339). -/
def leaveQueue (q : Nat) (f : Frame) (s : State) : State :=
  let out := f.cells.takeWhile CellRef.ready
  let g := { f with cells := f.cells.drop out.length }
  let s := freeCells q out (s.putFrame g)
  if g.cells ≠ [] then s else onward q g s

/-- The head frame of queue `q`, if it has started to dequeue, goes on (R339). -/
def goOn (q : Nat) (s : State) : State :=
  match s.firstAt (.queued q) with
  | some f => if f.started then leaveQueue q f s else s
  | none => s

/-- Whether software has written into deep page `pg` since its page write (R453). -/
def pageTorn (s : State) (pg : Nat) : Bool :=
  (List.range 128).any fun i => s.tab (dscPage (chanOf s pg)) 2 (128 * localOf s pg + i) == 1

/-- `n` bytes that nothing tells. -/
def freeBytes : Nat → State → List Byte × State
  | 0, s => ([], s)
  | n + 1, s =>
    let (v, s) := s.free
    let (bs, s) := freeBytes n s
    (BitVec.ofNat 8 v :: bs, s)

/-- The frames of queue `q` with cells in deep page `pg` are corrupted in those cells (R453): where a block of the page lies in them is
internal to the spill engine (R336). -/
def tearFrames (q pg : Nat) (s : State) : State :=
  forEach (s.allAt (.queued q)) s fun f s =>
    let (bs, s) := f.cells.zipIdx.foldl (fun (a : List Byte × State) c =>
      if c.1.part = .asked pg then
        let k := 256 * (f.ncell - f.cells.length + c.2)
        let (x, s) := freeBytes (min 256 (a.1.length - k)) a.2
        (overwrite a.1 k x, s)
      else a) (f.bytes, s)
    if bs = f.bytes then s else s.putFrame { f with bytes := bs }

/-- A returned page's cells enter return buffers under the queue's owner code, its deep page is freed, and each frame whose
first cell lies in it passes the age check (R339, R343). No grant leaves the page for a retry (R320). -/
def pageReturn (q pg : Nat) (s : State) : State :=
  let n := ((queueCells s q).filter fun c => decide (c.part = .asked pg)).length
  match grantTurns returnReqr (ownerOf q) n s with
  | (none, s) => s
  | (some js, s) =>
    let s := if pageTorn s pg then tearFrames q pg s else s
    let starts := (s.allAt (.queued q)).filter fun f => (f.cells.head?.map fun c => decide (c.part = .asked pg)).getD false
    let s := toReturn q pg js (takeCounts q 0 n s)
    let s := bump Reg.SPILL.PAGES_RD (pageFree pg s)
    let s := forEach starts s fun f s =>
      match s.frame f.id with
      | some f => if f.started then s else (ageCheck q Reg.CELL.AGED_RET_G f s).2
      | none => s
    queueLeft q (goOn q s)

/-- PAGE_RETURNED (R339, R341): the oldest page that queue `q` has requested returns once its operations are complete, good or
uncorrectable (R448), as every page of a lost channel is (R443). -/
def execPageReturned (q : Fin 393216) (s : State) : Host.Outcome State Fault Refusal :=
  done (s.ifLive spillPage fun s =>
    match (queueCells s q).findSome? CellRef.askedPage with
    | none => s
    | some pg =>
      match s.pageReads.find? (·.page == pg) with
      | none => s
      | some r => if r.left ≠ 0 then s else if r.ue then pageLost q pg s else pageReturn q pg s)

/-! ### The age sweep (R344) -/

/-- Discard aged frames from the head of queue `q`, at most `n` (R344). -/
def sweepHead (q : Nat) : Nat → State → State
  | 0, s => s
  | n + 1, s =>
    match s.firstAt (.queued q) with
    | none => s
    | some f =>
      if f.started then s else
      match ageCheck q Reg.CELL.AGED_SWEEP_G f s with
      | (false, s) => s
      | (true, s) =>
        let unread := ((f.cells.filterMap CellRef.deepPage).eraseDups.filter fun p => !pageInUse s p).length
        sweepHead q n (queueUpdate q (bumpBy Reg.SPILL.PAGES_SKIPPED unread s))

/-- One pass, 1 ms after the start of the last one: queue `q` is visited 2q Q-clock cycles, of 6 root-PLL cycles each, after its start; the pass lasts 655.36 µs
(R344). -/
def sweepPass (s : State) : State :=
  let s := nextInterval cellPage .sweepAt (cycUs 1000) s
  let start := s.root
  let s := forEach (usedQueues s) s fun q s => sweepHead q 64 (waitRoot (start + 12 * q) s)
  let s := waitRoot (start + 12 * 393216) s
  s.setReg Reg.CELL.SWEEP_MAX (max (s.reg Reg.CELL.SWEEP_MAX) 40960)

/-- AGE_SWEEP_PASS (R344). -/
def execAgeSweepPass (s : State) : Host.Outcome State Fault Refusal := done (s.ifLive cellPage sweepPass)

/-! ### Registers of the BPM and CELL pages (R314, R345, R347 to R350) -/

/-- The host cells that the counts take, with `HP_COUNT[h]` = `v` (R314). -/
def hostCells (s : State) (h v : Nat) : Nat :=
  ((List.range 4).map fun k => (if k = h then v else s.reg (Reg.BPM.HP_COUNT k)) * poolCells (k + 2)).sum

/-- A write of `HP_COUNT[h]` (R314): the carve of the host pools from the top of the cell store. -/
def hpCount (r : Req) (h w : Nat) (s : State) : State :=
  let v := w % 2 ^ 16
  let cells := hostCells s h v
  let held := s.bufs.any fun e => e.1 / 2 ^ 32 != 1
  if s.rbit (Reg.BLK_CTL bpmPage) 0 || cells % 16 != 0 || 524288 < cells || held then
    errReq bpmPage 0x15 r (Reg.BPM.HP_COUNT h) w s
  else
    let s := s.setReg (Reg.BPM.HP_COUNT h) v
    let s := setFreeCnt 0 (524288 - cells) (s.setReg Reg.BPM.C_LIMIT (524288 - cells))
    let carve := fun (k : Nat) (a : Nat × State) =>
      let n := s.reg (Reg.BPM.HP_COUNT k)
      (a.1 + n * poolCells (k + 2), (a.2.setReg (Reg.BPM.HP_BASE k) (a.1 % 2 ^ 20)).setReg (Reg.BPM.FREE_CNT (k + 2)) n)
    (carve 3 (carve 2 (carve 1 (carve 0 (524288 - cells, s))))).2

/-- HP_COUNT_WRITE (R314). -/
def execHpCountWrite (r : Req) (h : Fin 4) (v : W32) (s : State) : Host.Outcome State Fault Refusal :=
  done (gateWrite r (Reg.BPM.HP_COUNT h) (hpCount r h v.toNat) s)

/-- A write of `AGE_LIMIT` (R345, R348). -/
def ageLimit (r : Req) (w : Nat) (s : State) : State :=
  let v := w % 2 ^ 21
  if v = 0 ∨ 2000000 < v then errReq cellPage 0x10 r Reg.CELL.AGE_LIMIT w s
  else
    ageRaise (s.setReg Reg.CELL.AGE_LIMIT v)

/-- AGE_LIMIT_WRITE (R345). -/
def execAgeLimitWrite (r : Req) (v : W32) (s : State) : Host.Outcome State Fault Refusal :=
  done (gateWrite r Reg.CELL.AGE_LIMIT (ageLimit r v.toNat) s)

/-! ### Software commands of the pools (R324) -/

/-- The pool that `TBL_SEL` names. -/
def Win.pool (w : Win) : Option Nat := if 1 ≤ w.sel ∧ w.sel ≤ 6 then some (w.sel - 1) else none

/-- A command on pool `i`, refused when `TBL_SEL` names none. -/
def onPool (h : Nat → Win → State → TblRes) (w : Win) (s : State) : TblRes :=
  match w.pool with
  | some i => h i w s
  | none => w.fail 0x03 s

/-- A refusal with the pointer in `ERR_INFO` (R323, R353). -/
def Win.failPtr (w : Win) (code ptr : Nat) (s : State) : TblRes :=
  (errBy bpmPage code (reqNo w.r) w.sel ptr s, code, none)

/-- READ of a bitmap word: bit j is 1 while buffer 32 × TBL_IDX + j is free. -/
def poolRead (i : Nat) (w : Win) (s : State) : TblRes :=
  if poolSize s i ≤ 32 * w.idx then w.fail 0x04 s
  else
    let bits := (List.range 32).map fun j =>
      ofB (decide (32 * w.idx + j < poolSize s i) && bufOwner s i (32 * w.idx + j) == 0) * 2 ^ j
    Win.ok (some bits.sum) s

/-- ALLOC: a buffer with owner SW; what its buffer cells hold is not known until they are written. -/
def poolAlloc (i : Nat) (w : Win) (s : State) : TblRes :=
  match (if i = 0 then grantBuf softReqr 0 5 (serveAhead softReqr s) else grantBuf 1 i 5 s) with
  | (some j, s) =>
    Win.ok (some (setWord w.data 0 (bufPtr s i j))) s
  | (none, s) => w.failPtr 0x14 0 s

/-- FREE with agent code SW. -/
def poolFree (i : Nat) (w : Win) (s : State) : TblRes :=
  match freeBuf i (word w.data 0) 5 (reqNo w.r) s with
  | (0, s) => Win.ok none s
  | (k, s) => (s, 0x0F + k, none)

/-- QUERY of a pointer. -/
def poolQuery (i : Nat) (w : Win) (s : State) : TblRes :=
  let ptr := word w.data 0
  match freeCheck s i ptr 5 with
  | 1 => w.failPtr 0x10 ptr s
  | 2 => w.failPtr 0x11 ptr s
  | _ =>
    let o := bufOwner s i (bufNo s i ptr)
    Win.ok (some (setWord w.data 1 (ofB (o == 0) * 16 + o))) s

/-- The table commands of the BPM page (R324). -/
def bpmTable (op : Nat) (w : Win) (s : State) : TblRes :=
  match op with
  | 0x01 => onPool poolRead w s
  | 0x10 => onPool poolAlloc w s
  | 0x11 => onPool poolFree w s
  | 0x12 => onPool poolQuery w s
  | _ => w.fail 0x03 s

/-- ALLOC (R324). -/
def execAlloc (r : Req) (s : State) : Host.Outcome State Fault Refusal := done (tblCmd r bpmPage (bpmTable 0x10) s)

/-- FREE (R324). -/
def execFree (r : Req) (s : State) : Host.Outcome State Fault Refusal := done (tblCmd r bpmPage (bpmTable 0x11) s)

/-- QUERY (R324). -/
def execQuery (r : Req) (s : State) : Host.Outcome State Fault Refusal := done (tblCmd r bpmPage (bpmTable 0x12) s)

/-! ### Tables ADM_PROF and QSTATE (R349, R351) -/

/-- Whether a queue that meets a test holds a buffer cell or a deep page. -/
def queueBusy (s : State) (p : Nat → Bool) : Bool :=
  (usedQueues s ++ (s.frames.filterMap fun f => match f.loc with | .carried q => some q | _ => none) ++
    s.pageWrites.map (·.queue)).any p

/-- WRITE of an admission profile (R349). -/
def admProfWrite (w : Win) (s : State) : TblRes :=
  let e := (cutWords w.data 8) &&& ofWords [0xFFE0FFF0, 0xFFFFF, 0xFFFFF, 0xFFFFF, 0xFFFFFFF, 0xFFFFFFF, 0x3F0FFF, 0]
  let old := s.tab cellPage 1 w.idx
  if fld (word e 2) 0 20 ≤ fld (word e 3) 0 20 ∨ fld (word e 6) 16 6 < 2 ∨ 32 < fld (word e 6) 16 6 ∨
      fld (word e 6) 0 12 < 32 then w.fail 0x10 s
  else if fld e 24 6 ≠ fld old 24 6 ∧ queueBusy s (fun q => admProf s q == w.idx) then w.fail 0x11 s
  else Win.ok none (s.setTab cellPage 1 w.idx e)

/-- The table commands of the CELL page (R349). -/
def cellTable (op : Nat) (w : Win) (s : State) : TblRes :=
  if w.sel ≠ 1 ∨ (op ≠ 1 ∧ op ≠ 2) then w.fail 0x03 s
  else if 256 ≤ w.idx then w.fail 0x04 s
  else if op = 1 then w.read 256 8 s else admProfWrite w s

/-- The entry of table QSTATE of queue `q` (R351). -/
def qstateEntry (s : State) (q : Nat) : Nat :=
  let cs := queueCells s q
  let head := if s.h (.qstate q) = 0 then uq s q else (cs.filter CellRef.inHead).length
  ofWords [s.hn (.qstate q) * 2 ^ 30, head, (pagesOf s q).length, stageOf s q, (cs.filter CellRef.inRet).length]

/-- The table commands of the SPILL page (R351). -/
def spillTable (op : Nat) (w : Win) (s : State) : TblRes :=
  if w.sel ≠ 1 ∨ op ≠ 1 then w.fail 0x03 s
  else if 393216 ≤ w.idx then w.fail 0x04 s
  else Win.ok (some (qstateEntry s w.idx)) s

/-- Writes of the BPM, CELL and SPILL registers that are checked (R347, R348, R350, R353). -/
def bufferReg (r : Req) (a v : Nat) (s : State) : Option State :=
  if a = Reg.CELL.AGE_LIMIT then some (ageLimit r v s)
  else if a = Reg.SPILL.STAGE_GLOBAL then
    some (if v % 2 ^ 20 = 0 then errReq spillPage 0x10 r a v s else s.setReg a (v % 2 ^ 20))
  else if a / 0x10000 = bpmPage ∧ Reg.BPM.HP_COUNT 0 ≤ a ∧ a ≤ Reg.BPM.HP_COUNT 3 then
    some (hpCount r ((a - Reg.BPM.HP_COUNT 0) / 4) v s)
  else if a / 0x10000 = cellPage ∧ Reg.CELL.PART_SHARED 0 / 0x20 ≤ a / 0x20 ∧ a / 0x20 ≤ Reg.CELL.PART_SHARED 7 / 0x20 then
    let p := (a - Reg.CELL.PART_MIN 0) / 0x20
    let s := storeReg a v s
    some (setPart p (s.reg (Reg.CELL.PART_GU p)) (s.reg (Reg.CELL.PART_SH p)) s)
  else none

end Sys2Proof.Machine
end

