-- ==== Sys2Proof/Machine/Lines.lean ====
section
/-!
DEFINITION. Line groups and Ethernet ports: lane maps (R108 to R111), the link states (R127 to R131), reception (R115 to
R117), bandwidth counting (R568) and the write handlers of their registers (spec/03_line_ports.md).
-/
namespace Sys2Proof.Machine

/-! ### Lanes and ports -/

/-- The mode of lane `n` (0 to 127) in the map in force (R110, R137). -/
def portMode (s : State) (n : Nat) : Nat :=
  let g := n / 16
  let l := n % 16
  if l < 8 then s.rfld (Reg.LG.ACT_LO g) (4 * l) 4 else s.rfld (Reg.LG.ACT_HI g) (4 * (l - 8)) 4

/-- Lanes that a mode occupies; 0 for DISABLED and the reserved values (R108). -/
def modeLanes : Nat → Nat
  | 1 | 5 => 1 | 2 | 6 => 2 | 3 | 7 => 4 | 4 | 8 => 8 | _ => 0

/-- Whether LPORT[n] is a port of the map in force. -/
def mapped (s : State) (n : Nat) : Bool := portMode s n != 0

/-- Lanes of port `n`. -/
def portLanes (s : State) (n : Nat) : Nat := modeLanes (portMode s n)

/-- Whether port `n` is an OTN-mode port. -/
def isOtn (s : State) (n : Nat) : Bool := 5 ≤ portMode s n && portMode s n ≤ 8

/-- The first lane of the port that holds lane `l`, if any. -/
def portOfLane (s : State) (l : Nat) : Option Nat :=
  ((List.range 8).map fun k => l - k).find? fun n => n / 16 == l / 16 && l < n + portLanes s n

/-- `LINK_STS.STATE` of port `n` (R127). -/
def linkState (s : State) (n : Nat) : Nat := s.rfld (Reg.LPORT.LINK_STS n) 0 3

/-- `LOOPBACK` of port `n` (R131). -/
def loopback (s : State) (n : Nat) : Nat := s.rfld (Reg.LPORT.LINK_CFG n) 8 2

/-- Time that `bytes` bytes and the gap of 20 take on the line of port `n`, in 1/16 ns, rounded up (R88). -/
def wireTime (s : State) (n bytes : Nat) : Nat := cdiv ((bytes + 20) * 32) (25 * max 1 (portLanes s n))

/-- `MODE_RX` of a port mode in 1/16 ns (R76). -/
def modeRx : Nat → Nat
  | 1 => 2108 | 2 => 1992 | 3 => 1912 | 4 => 1858 | 5 => 6592 | 6 => 6372 | 7 => 6264 | 8 => 6206 | _ => 0

/-- `MODE_TX` of a port mode in 1/16 ns (R76). -/
def modeTx : Nat → Nat
  | 1 => 1796 | 2 => 1738 | 3 => 1680 | 4 => 1638 | 5 => 5848 | 6 => 5630 | 7 => 5504 | 8 => 5444 | _ => 0

/-- The receive correction of R75 in 1/16 ns. -/
def rxCorr (s : State) (n : Nat) : Int :=
  modeRx (portMode s n) + sgn (s.reg (Reg.TIME.TSU_RX_TRIM n)) 12 + s.reg (Reg.TIME.TSU_DESKEW_RX n)

/-- The transmit correction of R75 in 1/16 ns. -/
def txCorr (s : State) (n : Nat) : Int := modeTx (portMode s n) + sgn (s.reg (Reg.TIME.TSU_TX_TRIM n)) 12

/-- The instant, in 1/16 ns of the time base, at which what the MAC sees `dt` sixteenths after the last tick crosses the reference
plane, `corr` away (R75). -/
def planeTime (s : State) (dt : Nat) (corr : Int) : Nat :=
  (((stamp s dt : Nat) : Int) + corr) % (timeWrap / 2 ^ 44 : Nat) |>.toNat

/-- A timestamp of port `n` (R74, R75): the time base to 1/16 ns, `dt` sixteenths after the last tick, with the
correction `corr`; with `TS_CTL.TS_EN` = 0, or with the TIME page disabled (R45), the value is a free value
(notes/assumptions/3.md). -/
def tsuStamp (n dt : Nat) (corr : Int) (s : State) : Nat × State :=
  if s.live timePage && s.rbit (Reg.TIME.TSU_TS_CTL n) 0 then (planeTime s dt corr, s) else s.free

/-! ### Bandwidth windows (R568) -/

/-- Start of the window of `win` µs that holds the time `t` in ns: whole seconds, and every WIN after (R568). -/
def bwFloor (win t : Nat) : Nat := t / 10 ^ 9 * 10 ^ 9 + t % 10 ^ 9 / (win * 1000) * (win * 1000)

/-- The running window of port `n` is complete: its byte counts stand in the registers and their maxima (R567). -/
def bwClose (n : Nat) (s : State) : State :=
  let put := fun (v a m : Nat) (s : State) => (s.setReg a v).setReg m (max (s.reg m) v)
  let s := put (s.hn (.bwRx n)) (Reg.LPORT.BW_RX n) (Reg.LPORT.BW_RX_MAX n) s
  let s := put (s.hn (.bwTx n)) (Reg.LPORT.BW_TX n) (Reg.LPORT.BW_TX_MAX n) s
  ((s.setH (.bwRx n) 0).setH (.bwTx n) 0).setReg (Reg.LPORT.BW_SEQ n) ((s.reg (Reg.LPORT.BW_SEQ n) + 1) % 2 ^ 32)

/-- The windows of port `n` that end by the time `t` in ns are complete: the running one, and those after it in which nothing
was counted (R568). -/
def bwCatch (n t : Nat) (s : State) : State :=
  let st := s.hn (.bwStart n)
  let win := s.rfld (Reg.LPORT.BW_CFG n) 0 20 * 1000
  if !s.rbit (Reg.LPORT.BW_CFG n) 31 || st == 0 || win == 0 || t + 1 < st + win then s
  else
    let empty := (t + 1 - st - win) / win
    let s := bwClose n s
    let s := s.when (empty != 0) fun s =>
      (((bwClose n s).setReg (Reg.LPORT.BW_SEQ n) ((s.reg (Reg.LPORT.BW_SEQ n) + empty) % 2 ^ 32)))
    s.setH (.bwStart n) (max (st + win) (bwFloor (win / 1000) t + 1) : Nat)

/-- A frame of `bytes` bytes with timestamp `t16` counts in the window that holds it, the running one or the last complete
one. -/
def bwCount (rx : Bool) (n bytes t16 : Nat) (s : State) : State :=
  let s := bwCatch n (t16 / 16) s
  let st := s.hn (.bwStart n)
  if !s.rbit (Reg.LPORT.BW_CFG n) 31 || st == 0 then s
  else if t16 / 16 + 1 < st then
    let (a, m) := if rx then (Reg.LPORT.BW_RX n, Reg.LPORT.BW_RX_MAX n) else (Reg.LPORT.BW_TX n, Reg.LPORT.BW_TX_MAX n)
    if s.reg (Reg.LPORT.BW_SEQ n) = 0 then s else
    let v := s.reg a + bytes
    (s.setReg a v).setReg m (max (s.reg m) v)
  else
    let h := if rx then Hid.bwRx n else Hid.bwTx n
    s.setH h (s.h h + bytes)

/-! ### Reception (R115, R117) -/

/-- Whether a byte string carries Ethertype 0x8808. -/
def isMacCtl (bs : List Byte) : Bool := beAt bs 12 2 == 0x8808

/-- Bytes of the frame under reception at port `n` arrive: the MAC takes none past the MTU, and a frame with more than fit
before an FCS ends without one (R115, notes/assumptions/88.md). -/
def rxBytes (n : Nat) (bs : List Byte) (s : State) : State :=
  let on := s.hn (.rxOn n)
  if on = 0 then s else
  let had := s.hn (.rxLen n)
  let s := s.setH (.rxLen n) (had + bs.length : Nat)
  match s.frame (on - 1) with
  | none => s
  | some f =>
    let mtu := s.hn (.rxMtu n)
    let f := if f.trunc then f else { f with bytes := f.bytes ++ bs.take (mtu - had), fcs := f.fcs && had + bs.length ≤ mtu - 4 }
    let s := if had < 14 then s.setHb (.rxCtl n) (isMacCtl f.bytes) else s
    s.putFrame f

/-- The frame under reception at port `n` is bad: it keeps the mark, or, with Ethertype 0x8808, it is discarded at the MAC
(R117, R122). -/
def rxBad (n id : Nat) (s : State) : State :=
  if s.hb (.rxCtl n) then
    match s.frame id with
    | some f => s.drop f
    | none => s
  else
    let s := bump (Reg.LPORT.RX_BAD_MARKED n) s
    match s.frame id with
    | some f => s.putFrame { f with bad := true, full := true, recv := none }
    | none => s

/-- The frame under reception is discarded at the MAC. -/
def rxDiscard (id : Nat) (s : State) : State :=
  match s.frame id with
  | some f => s.drop f
  | none => s

/-- A frame that the MAC truncates holds no FCS; an oversize one is filled to the MTU with what came of its FCS, which is a
free value (R115, notes/assumptions/88.md). -/
def rxFill (id mtu : Nat) (s : State) : State :=
  match s.frame id with
  | some f =>
    if f.trunc then s
    else if f.bytes.length < mtu then
      let (x, s) := s.free
      s.putFrame { f with bytes := (f.bytes ++ beBytes 4 x).take mtu, fcs := false }
    else s.putFrame { f with fcs := false }
  | none => s

/-- The frame under reception at port `n` ends (R115): the first row whose condition it meets counts it. One ended by an error
block or a loss of alignment holds no FCS. It counts in the window of its receive timestamp (R568). -/
def rxEnd (n : Nat) (fcsGood errBlock : Bool) (s : State) : State :=
  let on := s.hn (.rxOn n)
  if on = 0 then s else
  let id := on - 1
  let len := s.hn (.rxLen n) + (if errBlock then 0 else 4)
  let mtu := s.hn (.rxMtu n)
  let s := bwCount true n (min len mtu) (s.hn (.rxTs n)) (s.setH (.rxOn n) 0)
  if mtu < len then rxBad n id (rxFill id mtu (bump (Reg.LPORT.RX_OVERSIZE n) s))
  else if errBlock then rxBad n id (rxFill id 0 (bump (Reg.LPORT.RX_TRUNC n) s))
  else if len < 64 then rxDiscard id (bump (if fcsGood then Reg.LPORT.RX_UNDERSIZE n else Reg.LPORT.RX_FRAGMENT n) s)
  else if !fcsGood then
    let s := bump (Reg.LPORT.RX_FCS_ERR n) s
    if len ≤ 256 then rxDiscard id s else rxBad n id s
  else
    let s := if s.hb (.rxCtl n) then s else bumpBy (Reg.LPORT.RX_BYTES n) len (bump (Reg.LPORT.RX_FRAMES n) s)
    match s.frame id with
    | some f => s.putFrame { f with full := true, recv := none }
    | none => s

/-- A frame's start is recognised at port `n` (R74, R78, R136): the port receives in UP and in FAULT. A disabled port
discards it (R45). -/
def rxStart (n dt : Nat) (s : State) : State :=
  if linkState s n ≠ 5 ∧ linkState s n ≠ 6 then s
  else if !s.live (lportPage n) then (if s.clocked (lportPage n) then errDisabled (lportPage n) s else s)
  else
    let s := rxEnd n false true s
    let (t, s) := tsuStamp n dt (-(rxCorr s n)) s
    let id := s.hn .nextId
    let ct := s.rbit (Reg.LPORT.MAC_CFG n) 17
    let s := s.newFrame
      { id := 0, loc := .rx n, full := false, recv := some n, inPort := some n, port := n, birth := t, ctEn := ct }
    let s := ((s.setH (.rxOn n) (id + 1)).setH (.rxLen n) 0).setH (.rxTs n) (planeTime s dt (-(rxCorr s n)))
    (s.setH (.rxMtu n) (s.rfld (Reg.LPORT.MAC_CFG n) 0 14)).setHb (.rxCtl n) false

/-- A whole frame, good, received in the test loop NEAR_PCS (R131). -/
def loopRx (n : Nat) (bytes : List Byte) (good : Bool) (s : State) : State :=
  if loopback s n = 1 then rxEnd n good false (rxBytes n bytes (rxStart n 0 s)) else s

/-! ### Recovered clocks (R100) -/

/-- Whether line lane `l` is locked. -/
def laneLocked (s : State) (l : Nat) : Bool :=
  match portOfLane s l with
  | some n => s.rbit (Reg.LPORT.LINK_STS n) (16 + (l - n))
  | none => false

/-- Recovered-clock output `r` is held low: `SQUELCHED` and its event, for an output that is enabled. -/
def rclkSquelch (r : Nat) (s : State) : State :=
  let v := s.reg (Reg.TIME.RCLK r)
  if s.live timePage && bit v 15 && !bit v 14 then raise timePage 15 (s.setRbit (Reg.TIME.RCLK r) 14 true) else s

/-- A change `f` that can end the lock of line lanes: each output whose selected lane loses it is held low (R100). -/
def lockChange (f : State → State) (s : State) : State :=
  let lane := fun (s : State) r => s.rfld (Reg.TIME.RCLK r) 0 7
  let lost := (List.range 4).filter fun r => laneLocked s (lane s r)
  let s := f s
  forEach lost s fun r s => if laneLocked s (lane s r) then s else rclkSquelch r s

/-! ### Link states (R127) -/

/-- Every obeyed pause of port `n` is released (R130). -/
def releasePauses (n : Nat) (s : State) : State := forEach (List.range 8) s fun c s => s.setH (.paused n c) 0

/-- Whether the client that OTN port `n` demaps fails, and its port receives that client (R131, R157, R159). -/
def clientFails (s : State) (n : Nat) : Bool := isOtn s n && loopback s n != 1 && bit (s.hn (.caEff n)) 2

/-- Whether the MAC of port `n` is to send remote fault: in FAULT with local fault received, or while its OTN client fails
(R127, R159); it sends nothing in FAR_PMA (R131), and an OTN port with `TX_EN` = 0 fills its client with idle (R160). -/
def remoteDue (s : State) (n : Nat) : Bool :=
  loopback s n != 2 && (!isOtn s n || s.rbit (Reg.LPORT.MAC_CFG n) 16) &&
    ((linkState s n == 6 && s.rbit (Reg.LPORT.LINK_STS n) 6) || (2 ≤ linkState s n && clientFails s n))

/-- The MAC of port `n` starts or stops sending remote fault (R127, R159). -/
def remoteFault (n : Nat) (s : State) : State :=
  let due := remoteDue s n
  if s.hb (.txRf n) = due then s else (s.setHb (.txRf n) due).emit (.fault n due)

/-- Port `n` moves to link state `st`. A departure from UP or FAULT to any other state raises LINK_DOWN, truncates the
frame under reception and releases the pauses; the fault bits show only in FAULT (R111, R127, R130). The entry into HOLD
starts `UP_HOLD`. -/
def setLink (n st : Nat) (s : State) : State :=
  let old := linkState s n
  let s := s.setRfld (Reg.LPORT.LINK_STS n) 0 3 st
  let s := if st = 6 then s else s.setRfld (Reg.LPORT.LINK_STS n) 6 2 0
  let s := remoteFault n (if st = 4 then s.setH (.upAt n) (s.root : Nat) else s)
  if (old = 5 ∨ old = 6) ∧ st ≠ 5 ∧ st ≠ 6 then raise (lportPage n) 1 (releasePauses n (rxEnd n false true s)) else s

/-- The state in which a port starts: SIGNAL with `RX_EN` = 1 on a mapped port, else DISABLED (R127). -/
def startState (s : State) (n : Nat) : Nat := if mapped s n && s.rbit (Reg.LPORT.MAC_CFG n) 15 then 1 else 0

/-- The port is running bring-up: mapped, `RX_EN` = 1, its page live. -/
def linkRuns (s : State) (n : Nat) : Bool := s.live (lportPage n) && linkState s n != 0

/-- Signal and CDR lock on every lane (R127): a lane that was not locked is from now on (R100). -/
def signalDetect (n : Nat) (s : State) : State :=
  let s := forEach (List.range (portLanes s n)) s fun k s =>
    if s.rbit (Reg.LPORT.LINK_STS n) (16 + k) then s else s.setH (.laneLockAt (n + k)) (s.root : Nat)
  let s := s.setRfld (Reg.LPORT.LINK_STS n) 16 8 (2 ^ portLanes s n - 1)
  if linkRuns s n && linkState s n == 1 then setLink n 2 s else s

/-- SIGNAL_DETECT (R127): the lanes lock whatever the port's state (R100, R154). -/
def execSignalDetect (n : Fin 128) (s : State) : Host.Outcome State Fault Refusal :=
  done (s.when (s.clocked (lportPage n)) (signalDetect n))

/-- ALIGNMENT_LOCK (R127); in NEAR_PCS the looped stream meets the conditions of SIGNAL as well, whatever the line receiver
sees (R131). -/
def execAlignmentLock (n : Fin 128) (s : State) : Host.Outcome State Fault Refusal :=
  done (s.when (linkRuns s n && (linkState s n == 2 || (linkState s n == 1 && loopback s n == 1))) (setLink n 3))

/-- The lane skews are measured, in 1/16 ns relative to the earliest lane (R129); 0 in NEAR_PCS (R131). The limit is
180 ns. -/
def deskewMeasured (n : Nat) (skews : List Nat) (s : State) : State :=
  let k := portLanes s n
  let sk := (skews ++ List.replicate k 0).take k
  let sk := if loopback s n = 1 then sk.map fun _ => 0 else sk
  let top := sk.foldl max 0
  let s := forEach (List.range k) s fun i s => s.setReg (Reg.LPORT.LANE_SKEW n i) ((sk.drop i).headD 0)
  if top ≤ 2880 then setLink n 4 (s.setH (.deskew n) (top - sk.headD 0 : Nat))
  else raise (lportPage n) 2 (setLink n 2 s)

/-- DESKEW_MEASURED (R129). -/
def execDeskewMeasured (n : Fin 128) (skews : List (BitVec 16)) (s : State) : Host.Outcome State Fault Refusal :=
  done (s.when (linkRuns s n && linkState s n == 3) (deskewMeasured n (skews.map BitVec.toNat)))

/-- ALIGNMENT_LOSS (R127): from HOLD, UP and FAULT to LOCK. -/
def execAlignmentLoss (n : Fin 128) (s : State) : Host.Outcome State Fault Refusal :=
  done (s.when (linkRuns s n && 4 ≤ linkState s n) (setLink n 2))

/-- Lane `k` of port `n` loses signal or CDR lock, also while `RX_EN` is 0: the recovered clocks taken from it are held low
(R100), and the port returns to SIGNAL, unless it is DISABLED or the loop NEAR_PCS holds its conditions met (R127,
R131). -/
def signalLoss (n k : Nat) (s : State) : State :=
  let s := lockChange (fun s => s.setRbit (Reg.LPORT.LINK_STS n) (16 + k) false) s
  if !s.live (lportPage n) ∨ linkState s n = 0 ∨ loopback s n = 1 then s else setLink n 1 s

/-- RCLK_RESUME (R100): 10 ms after the lane is again locked. -/
def execRclkResume (r : Fin 4) (s : State) : Host.Outcome State Fault Refusal :=
  done (s.ifLive timePage fun s =>
    let l := s.rfld (Reg.TIME.RCLK r) 0 7
    if s.rbit (Reg.TIME.RCLK r) 14 && laneLocked s l then
      (waitRoot (s.hn (.laneLockAt l) + cycUs 10000) s).setRbit (Reg.TIME.RCLK r) 14 false
    else s)

/-- Received fault ordered sets move the port from UP to FAULT, with the event on entry (R127); the port is then not UP, and
every obeyed pause is released (R130). While local fault is received, the MAC sends remote fault. -/
def faultSets (n : Nat) (remote : Bool) (s : State) : State :=
  let old := linkState s n
  let s := s.setRfld (Reg.LPORT.LINK_STS n) 6 2 (if remote then 2 else 1)
  let s := if old = 5 then
      raise (lportPage n) (if remote then 3 else 4) (releasePauses n (s.setRfld (Reg.LPORT.LINK_STS n) 0 3 6))
    else s
  remoteFault n s

/-- What the MAC of port `n` sends is brought up to date; in NEAR_PCS the port receives the remote fault that it sends
(R131). -/
def remoteUpdate (n : Nat) (s : State) : State :=
  let was := s.hb (.txRf n)
  let s := remoteFault n s
  if !was && s.hb (.txRf n) && loopback s n = 1 && 5 ≤ linkState s n then faultSets n true s else s

/-- The fault ordered sets that a port finds as it enters UP: the local ones of a failed OTN client (R159), or in NEAR_PCS the
remote ones that it sends itself (R131). -/
def upFaults (n : Nat) (s : State) : State :=
  if clientFails s n then faultSets n false s
  else if s.hb (.txRf n) && loopback s n == 1 then faultSets n true s else s

/-- Alignment has held for `UP_HOLD`: `DESKEW_RX` is loaded and the port is UP (R127, R129). -/
def upHold (n : Nat) (s : State) : State :=
  let s := s.setReg (Reg.TIME.TSU_DESKEW_RX n) (s.hn (.deskew n))
  upFaults n (raise (lportPage n) 0 (bump (Reg.LPORT.LINK_UP_CNT n) (setLink n 5 s)))

/-- UP_HOLD_EXPIRE (R127): `UP_HOLD` ms after the entry into HOLD. -/
def execUpHoldExpire (n : Fin 128) (s : State) : Host.Outcome State Fault Refusal :=
  done (s.when (linkRuns s n && linkState s n == 4) fun s =>
    upHold n (waitSince (lportPage n) (.upAt n) (cycUs (1000 * s.rfld (Reg.LPORT.LINK_CFG n) 0 8)) s))

/-- FAULT_SETS_RX (R127); in NEAR_PCS the line receiver is not used by the port (R131). -/
def execFaultSetsRx (n : Fin 128) (remote : Bool) (s : State) : Host.Outcome State Fault Refusal :=
  done (s.when (linkRuns s n && 5 ≤ linkState s n && loopback s n != 1) (faultSets n remote))

/-- FAULT_SETS_ABSENT (R127): back to UP, without LINK_UP; while the client of an OTN port fails, it carries local fault ordered
sets (R157, R159). -/
def execFaultSetsAbsent (n : Fin 128) (s : State) : Host.Outcome State Fault Refusal :=
  done (s.when (linkRuns s n && linkState s n == 6 && !clientFails s n) (setLink n 5))

/-- The end of a 1 ms FEC window with its counts of codewords and symbols (R135); NEAR_PCS counts nothing (R131), and on
an OTN-mode port only the FlexO codewords count (R143). -/
def fecWindow (n corr uncorr sym : Nat) (s : State) : State :=
  if loopback s n = 1 then s
  else if isOtn s n then
    s.ifLive (otnPage (n / 16)) fun s =>
      bumpBy (Reg.OTN.FX_CW_UNCORR (n / 16) (n % 16)) uncorr (bumpBy (Reg.OTN.FX_CW_CORR (n / 16) (n % 16)) corr s)
  else
  let s := bumpBy (Reg.LPORT.FEC_CW_CORR n) corr s
  let s := bumpBy (Reg.LPORT.FEC_CW_UNCORR n) uncorr s
  let s := bumpBy (Reg.LPORT.FEC_SYM_CORR n) sym s
  let deg := decide (s.reg (Reg.LPORT.FEC_DEG_THR n) < sym)
  let s := s.setRbit (Reg.LPORT.LINK_STS n) 9 deg
  if deg then raise (lportPage n) 5 s else s

/-- FEC_WINDOW (R135): each 1 ms; on an OTN-mode port the FlexO codewords are counted whatever the state of the client's
port (R143). -/
def execFecWindow (n : Fin 128) (corr uncorr sym : W32) (s : State) : Host.Outcome State Fault Refusal :=
  done (s.when (if isOtn s n then s.live (otnPage (n.val / 16)) else linkRuns s n) fun s =>
    let s := nextInterval (if isOtn s n then otnPage (n.val / 16) else lportPage n) (.fecAt n) (cycUs 1000) s
    fecWindow n corr.toNat uncorr.toNat sym.toNat s)

/-! ### Lane maps (R109 to R111) -/

/-- The mode of lane `l` in a map of two words. -/
def mapLane (lo hi l : Nat) : Nat := if l < 8 then fld lo (4 * l) 4 else fld hi (4 * (l - 8)) 4

/-- Whether lane `l` offends in a map: a reserved mode, a first lane out of place, or a lane of its port in use (R108,
R109). -/
def laneOffends (lo hi l : Nat) : Bool :=
  let m := mapLane lo hi l
  let k := modeLanes m
  m != 0 && (k == 0 || l % k != 0 || (List.range (k - 1)).any fun i => mapLane lo hi (l + 1 + i) != 0)

/-- A write of 1 to `MAP_COMMIT` (R110). -/
def mapCommit (r : Req) (g v : Nat) (s : State) : State :=
  let a := Reg.LG.MAP_COMMIT g
  let lo := s.reg (Reg.LG.MAP_LO g)
  let hi := s.reg (Reg.LG.MAP_HI g)
  if !bit v 0 then s
  else if s.hb (.mapBusy g) then errReq (lgPage g) 0x11 r a v s
  else match (List.range 16).find? (laneOffends lo hi) with
    | some l => errReq (lgPage g) 0x10 r a l s
    | none =>
      ((s.setReg (bank 61 (Reg.LG.ACT_LO g)) lo).setReg (bank 61 (Reg.LG.ACT_HI g)) hi).setHb (.mapBusy g) true

/-- MAP_COMMIT (R110). -/
def execMapCommit (r : Req) (g : Fin 8) (v : W32) (s : State) : Host.Outcome State Fault Refusal :=
  done (gateWrite r (Reg.LG.MAP_COMMIT g) (mapCommit r g v.toNat) s)

/-- Port `n` leaves the lane map: its FlexO group and its slices are not locked any more (R144, R145). -/
def otnOut (n : Nat) (s : State) : State :=
  let s := (s.setH (.fxLock n) 0).setReg (Reg.OTN.ALIGN_STS (n / 16) (n % 16)) 0
  let s := forEach (List.range 8) s fun i s => ((s.setH (.fxPos n i) 0).setH (.fasBad n i) 0).setH (.mfasRun n i) 0
  { s with cands := s.cands.filter fun c => c.port != n }

/-- The committed map takes effect (R111): ports with the same first lane and mode stay untouched, the others of the old
map leave service, and the new ones start bring-up. -/
def mapApply (g : Nat) (s : State) : State :=
  let lo := s.reg (bank 61 (Reg.LG.ACT_LO g))
  let hi := s.reg (bank 61 (Reg.LG.ACT_HI g))
  let changed := (List.range 16).filter fun l => mapLane lo hi l != portMode s (16 * g + l)
  let s := lockChange (fun s =>
    let s := forEach changed s fun l s =>
      if mapped s (16 * g + l) then otnOut (16 * g + l) ((setLink (16 * g + l) 0 s).setRfld (Reg.LPORT.LINK_STS (16 * g + l)) 9 15 0) else s
    (s.setReg (Reg.LG.ACT_LO g) lo).setReg (Reg.LG.ACT_HI g) hi) s
  let s := forEach changed s fun l s =>
    setLink (16 * g + l) (startState s (16 * g + l)) (forEach [1, 2, 3] s fun k s => s.setH (.perSince (16 * g + l) k) (s.root : Nat))
  raise (lgPage g) 0 (s.setHb (.mapBusy g) false)

/-- MAP_APPLIED (R110). -/
def execMapApplied (g : Fin 8) (s : State) : Host.Outcome State Fault Refusal :=
  done (s.ifLive (lgPage g) fun s => if s.hb (.mapBusy g) then mapApply g s else s)

/-! ### Register writes (R135, R136) -/

/-- A write of `MAC_CFG` (R136): a refused field stays; a change of RX_EN moves the link (R127). -/
def macCfg (r : Req) (n v : Nat) (s : State) : State :=
  let a := Reg.LPORT.MAC_CFG n
  let old := s.reg a
  let mtuOk := decide (64 ≤ fld v 0 14 ∧ fld v 0 14 ≤ 12288)
  let fcOk := fld v 18 2 != 3
  let s := if mtuOk then s else errReq (lportPage n) 0x10 r a v s
  let s := if fcOk then s else errReq (lportPage n) 0x10 r a v s
  let w := setFld (setFld old 15 3 (fld v 15 3)) 0 14 (if mtuOk then fld v 0 14 else fld old 0 14)
  let s := s.setReg a (setFld w 18 2 (if fcOk then fld v 18 2 else fld old 18 2))
  remoteFault n (if bit v 15 = bit old 15 then s
    else if bit v 15 then (if mapped s n then setLink n 1 s else s)
    else setLink n 0 s)

/-- MAC_CFG_WRITE (R136). -/
def execMacCfgWrite (r : Req) (n : Fin 128) (v : W32) (s : State) : Host.Outcome State Fault Refusal :=
  done (gateWrite r (Reg.LPORT.MAC_CFG n) (macCfg r n v.toNat) s)

/-- A write of `LINK_CFG` (R131, R135): refused whole with code 0x10 for LOOPBACK 3 or UP_HOLD 0; a change of LOOPBACK
returns the port to SIGNAL. -/
def linkCfg (r : Req) (n v : Nat) (s : State) : State :=
  let a := Reg.LPORT.LINK_CFG n
  if fld v 8 2 = 3 ∨ fld v 0 8 = 0 then errReq (lportPage n) 0x10 r a v s
  else
    let old := loopback s n
    let s := s.setReg a (fld v 0 10)
    if fld v 8 2 ≠ old ∧ linkState s n ≠ 0 then setLink n 1 s else s

/-- LOOPBACK_WRITE (R131). -/
def execLoopbackWrite (r : Req) (n : Fin 128) (v : W32) (s : State) : Host.Outcome State Fault Refusal :=
  done (gateWrite r (Reg.LPORT.LINK_CFG n) (linkCfg r n v.toNat) s)

end Sys2Proof.Machine
end

