-- ==== Sys2Proof/Machine/Ports.lean ====
section
/-!
DEFINITION. Frames at the line ports: hand-over of header cells, frame ends and MAC control frames (R115 to R117, R122,
R123), flow control (R125, R126), transmission (R119, R120, R130, R273), one-step insertion (R79 to R83), timed launch
(R84 to R92) and the recirculation ports (R134).
-/
namespace Sys2Proof.Machine

/-! ### Reception -/

/-- START_OF_FRAME_RX (R74): `dt` sixteenths of a nanosecond after the last tick. In NEAR_PCS the line receiver is not
used (R131). -/
def execStartOfFrameRx (n : Fin 128) (dt : Fin 18) (s : State) : Host.Outcome State Fault Refusal :=
  done (s.when (loopback s n != 1) (rxStart n dt))

/-- FRAME_TAIL_RX (R115): the rest of the frame up to its FCS arrives and the frame ends, by a good or bad FCS or by an
error block. -/
def execFrameTailRx (n : Fin 128) (bytes : List Byte) (fcsGood errBlock : Bool) (s : State) :
    Host.Outcome State Fault Refusal :=
  done (s.ifLive (lportPage n) fun s => grown (s.hn (.rxOn n) - 1) (rxEnd n fcsGood errBlock (rxBytes n bytes s)))

/-- A frame is discarded at the pipeline entry of group `g` (R28, R594). -/
def pipeDrop (g : Nat) (f : Frame) (s : State) : State :=
  raiseFirst (lgPage g) 1 (bump (Reg.LG.PIPE_DROP g) (s.drop f))

/-- Whether the header cell of a frame is complete: its first 256 bytes, or the whole frame (R116). -/
def headerComplete (f : Frame) : Bool := f.full || 256 ≤ f.bytes.length

/-- The bytes of the first frame at port `n` that complete its header cell arrive, and it is handed towards its pipeline
(R116); `absorb` says that the pipeline-entry buffer takes it (R28). Bytes that do not complete it are only received. -/
def headerHandoff (n : Nat) (bytes : List Byte) (absorb : Bool) (s : State) : State :=
  let g := n / 16
  match s.firstAt (.rx n) with
  | none => s
  | some f =>
    let s := if f.full then s else rxBytes n bytes s
    match s.frame f.id with
    | none => s
    | some f =>
      if isMacCtl f.bytes || !headerComplete f then s
      else if !s.live (lgPage g) then
        let s := s.drop f
        if s.clocked (lgPage g) then errDisabled (lgPage g) s else s
      else if !absorb || !s.clocked (ipipePage g) || s.hb (.stuck g) then pipeDrop g f s
      else s.moveFrame f (.entry g)

/-- HEADER_CELL_HANDOFF (R116). -/
def execHeaderCellHandoff (n : Fin 128) (bytes : List Byte) (absorb : Bool) (s : State) :
    Host.Outcome State Fault Refusal :=
  done (headerHandoff n bytes absorb s)

/-- A pause of `quanta` is obeyed for class `c` of port `n` from now on; quanta of 0 release it (R123), and a port that is not
UP holds none (R130). -/
def obeyPause (n c quanta : Nat) (s : State) : State :=
  s.setH (.paused n c) (if quanta = 0 ∨ linkState s n ≠ 5 then 0 else
    in16 s.tb + cdiv (quanta * 2048) (25 * max 1 (portLanes s n)) + 1 : Nat)

/-- A received MAC control frame is obeyed or discarded (R121, R122). -/
def macCtl (n : Nat) (bs : List Byte) (s : State) : State :=
  let mode := s.rfld (Reg.LPORT.MAC_CFG n) 18 2
  let op := beAt bs 14 2
  let en := beAt bs 16 2 &&& s.reg (Reg.LPORT.PFC_RX_EN n)
  if mode = 1 ∧ op = 1 then
    bump (Reg.LPORT.RX_PAUSE n) (forEach (List.range 8) s fun c s => obeyPause n c (beAt bs 16 2) s)
  else if mode = 2 ∧ op = 0x0101 ∧ en ≠ 0 then
    forEach (bitsOf en 8) s fun p s => bump (Reg.LPORT.RX_PFC n p) (obeyPause n p (beAt bs (18 + 2 * p) 2) s)
  else bump (Reg.LPORT.RX_MACCTL_DISC n) s

/-- MAC_CTL_FRAME_RX (R122): the first frame at port `n`, complete and with Ethertype 0x8808, is consumed. -/
def execMacCtlFrameRx (n : Fin 128) (s : State) : Host.Outcome State Fault Refusal :=
  done (s.ifLive (lportPage n) fun s =>
    match s.firstAt (.rx n) with
    | some f => if f.full && isMacCtl f.bytes then macCtl n f.bytes (s.drop f) else s
    | none => s)

/-- PAUSE_EXPIRE (R123): the quanta of class `c` run out. -/
def execPauseExpire (n : Fin 128) (c : Fin 8) (s : State) : Host.Outcome State Fault Refusal :=
  done (s.ifLive (lportPage n) fun s =>
    if s.hb (.paused n c) then
      let s := if s.timeRuns then advanceTo ((s.hn (.paused n c) - 1) * 2 ^ 44) s else s
      s.setH (.paused n c) 0
    else s)

/-! ### Windows of the launch schedule (R87) -/

/-- A register of the schedule in force is kept in its bank 62; one that waits for the boundary in bank 63. -/
def winReg (b a : Nat) : Nat := bank b a

/-- The valid windows of the schedule in force of port `n`: offset and length in 1/16 ns, with their number. -/
def winForce (s : State) (n : Nat) : List (Nat × Nat × Nat) :=
  if !s.hb (.winIn n) then [] else
  (List.range 8).filterMap fun w =>
    let e := s.tab timePage 2 (8 * n + w)
    if bit (word e 1) 31 then some (fld e 0 30 * 16, fld (word e 1) 0 30 * 16, w) else none

/-- The period of the schedule in force in 1/16 ns. -/
def winPeriod (s : State) (n : Nat) : Nat := s.reg (winReg 62 (Reg.TIME.TSU_WIN_PERIOD n)) * 16

/-- A time given by the low 32 bits of its seconds and its nanoseconds, as the instant nearest to now, in 1/16 ns (R84:
compared modulo 2^32 s). -/
def nearTime (s : State) (sec ns : Nat) : Int :=
  let now := secOf s.tb
  let d := sgn ((sec + 2 ^ 32 - now % 2 ^ 32) % 2 ^ 32) 32
  ((now + d) * 1000000000 + ns) * 16

/-- The position of an instant within the period of the schedule in force. -/
def winPos (s : State) (n : Nat) (t : Int) : Nat :=
  let base := nearTime s (s.reg (winReg 62 (Reg.TIME.TSU_WIN_BASE_SEC n))) (s.reg (winReg 62 (Reg.TIME.TSU_WIN_BASE_NS n)))
  imod (t - base) (max 1 (winPeriod s n))

/-- The first instant at or after `t` at which a transmission of `dur` fits in a window (R88). -/
def winFit (s : State) (n : Nat) (t : Int) (dur : Nat) : Option Int :=
  let p := winPos s n t
  let per := max 1 (winPeriod s n)
  let ws := (winForce s n).filterMap fun (o, l, _) =>
    if l < dur then none
    else if o ≤ p ∧ p + dur ≤ o + l then some 0
    else some ((o + per - p % per) % per + (if (o + per - p % per) % per = 0 then per else 0))
  match ws with
  | [] => none
  | w :: rest => some (t + (rest.foldl min w : Nat))

/-! ### Launch times -/

/-- The launch time of a frame as an instant near now, in 1/16 ns (R84). -/
def launchAt (s : State) (l : Nat) : Int := nearTime s (l / 2 ^ 32) (l % 2 ^ 32)

/-- The deadline of launch time `l` at port `n` (R85). -/
def deadline (s : State) (n l : Nat) : Int := launchAt s l + s.reg (Reg.TIME.TSU_TL_TOL n) * 16

/-- The present instant in 1/16 ns. -/
def now16 (s : State) : Int := (in16 s.tb : Nat)

/-- The instant at which a frame that the MAC of port `n` starts now crosses the reference plane (R75), in 1/16 ns; the start
of a frame is this instant (R88, R89). -/
def planeNow (s : State) (n : Nat) : Int := now16 s + txCorr s n

/-- The frame in transmission on port `n`: started, its end not yet sent. -/
def inTx (s : State) (n : Nat) : Option Frame := (s.allAt (.mac n)).find? (·.started)

/-- How long port `n` is still busy with what it has sent, in 1/16 ns: `txFree` counts in 1/144 ns of the root PLL, so that a
step of the time base does not change it (R88). -/
def busyFor (s : State) (n : Nat) : Nat := cdiv (s.hn (.txFree n) - 20 * s.root) 9

/-- The instant from which the port is idle, at the reference plane. -/
def idleAt (s : State) (n : Nat) : Int := planeNow s n + busyFor s n

/-- The earliest instant at which a frame with launch time `l` can start on port `n`, its window aside. -/
def readyAt (s : State) (n l : Nat) : Int := max (launchAt s l) (idleAt s n)

/-- The first instant at which a timed frame of `len` bytes can start (R88): its launch time, the port idle, its window. -/
def timedStart (s : State) (n l len : Nat) : Option Int :=
  let t := readyAt s n l
  if s.rbit (Reg.TIME.TSU_TS_CTL n) 2 then winFit s n t (wireTime s n len) else some t

/-- The timed frames held in the launch stage of port `n`, in launch-time order (R90). -/
def launchOrder (s : State) (n : Nat) : List Frame :=
  let key := fun (f : Frame) => (launchAt s (f.launch.getD 0), f.lsrc, f.lorder)
  let lt := fun (a b : Frame) =>
    let (x, y, z) := key a
    let (u, v, w) := key b
    decide (x < u ∨ (x = u ∧ (y < v ∨ (y = v ∧ z < w))))
  (s.allAt (.launch n)).foldr (fun f acc => acc.takeWhile (lt · f) ++ f :: acc.dropWhile (lt · f)) []

/-- Whether the guard holds back an untimed transmission of `len` bytes that would start at `t` (R89): it would not end
before the earliest instant at which a held timed frame can start. -/
def guardHolds (s : State) (n len : Nat) (t : Int) : Bool :=
  s.rbit (Reg.TIME.TSU_TS_CTL n) 1 && (s.allAt (.launch n)).any fun f =>
    match timedStart s n (f.launch.getD 0) f.len with
    | some e => decide (e ≤ t + wireTime s n len)
    | none => false

/-- A timed frame is dropped as late (R92); an inject frame that asked for its departure carries STATUS LATE (R513), and a
PFE frame is missed too (R484). -/
def dropLate (n : Nat) (f : Frame) (s : State) : State :=
  let s := s.ifLive timePage fun s => raise timePage 16 (bump (Reg.TIME.LATE_DROP n) s)
  let s := if f.ring = 0 then s else injResult (f.ring - 1) f.desc 5 0 s
  let s := if f.pfe = 0 then s else pfeMiss (f.pfe - 1) s
  s.drop f

/-! ### One-step insertion (R80 to R83) -/

/-- The offset after 0 to 2 VLAN tags, of the Ethertype (R81). -/
def etherOff (bs : List Byte) : Nat :=
  let tag := fun o => beAt bs o 2 == 0x8100 || beAt bs o 2 == 0x88A8
  if tag 12 then if tag 16 then 20 else 16 else 12

/-- The offset after an MPLS stack of 1 to 4 labels at `o`, if its bottom lies among them. -/
def mplsEnd (bs : List Byte) : Nat → Nat → Option Nat
  | 0, _ => none
  | k + 1, o => if bit (byteAt bs (o + 2)) 0 then some (o + 4) else mplsEnd bs k (o + 4)

/-- Whether an IP header starts at `o`: its version 4 or 6 by what announces it. -/
def ipAt (bs : List Byte) : Option (Nat × Nat) :=
  let e := etherOff bs
  match beAt bs e 2 with
  | 0x0800 => some (e + 2, 4)
  | 0x86DD => some (e + 2, 6)
  | 0x8847 => (mplsEnd bs 4 (e + 2)).bind fun o =>
      match byteAt bs o / 16 with
      | 4 => some (o, 4)
      | 6 => some (o, 6)
      | _ => none
  | _ => none

/-- The PTP header of a frame: its offset, and the offset of the UDP header and the IP version for an IP encapsulation
(R81). -/
def ptpFind (bs : List Byte) : Option (Nat × Option (Nat × Nat)) :=
  let e := etherOff bs
  if beAt bs e 2 = 0x88F7 then some (e + 2, none)
  else match ipAt bs with
    | some (o, 4) =>
      let u := o + byteAt bs o % 16 * 4
      if byteAt bs (o + 9) = 17 ∧ beAt bs (u + 2) 2 = 319 then some (u + 8, some (u, 4)) else none
    | some (o, 6) =>
      let u := o + 40
      if byteAt bs (o + 6) = 17 ∧ beAt bs (u + 2) 2 = 319 then some (u + 8, some (u, 6)) else none
    | _ => none

/-- The ones' complement sum of the 16-bit words of a byte string, modulo 65,535. -/
def onesSum (bs : List Byte) : Nat :=
  ((List.range (cdiv bs.length 2)).foldl (fun a i => a + beNat (((bs.drop (2 * i)).take 2) ++ [0] |>.take 2)) 0) % 65535

/-- The checksum action of R81 after the message was written: `old` and `new` are the frame before and after. For IPv6
the last two bytes of the UDP payload absorb the change. -/
def udpRepair (old new : List Byte) : Option (Nat × Nat) → List Byte
  | none => new
  | some (u, 4) => overwrite new (u + 6) (beBytes 2 0)
  | some (u, _) =>
    let len := beAt new (u + 4) 2
    let k := u + len - 2
    let region := fun bs => (bs.drop u).take len
    let clear := overwrite new k (beBytes 2 0)
    let need := (onesSum (region old) + 65535 - onesSum (region clear)) % 65535
    let v := if (k - u) % 2 = 0 then need else need / 256 + need % 256 * 256
    overwrite new k (beBytes 2 v)

/-- The signed 64-bit addition to correctionField, which saturates upward (R83). -/
def corrAdd (field : Nat) (add : Int) : Nat :=
  let v := sgn field 64 + add
  if v < -(2 ^ 63) ∨ 2 ^ 63 ≤ v then 0x7FFFFFFFFFFFFFFF else unsgn v 64

/-- One-step insertion of mode 1 (ORIGIN) or 2 (RESIDENCE) on the bytes of a frame: none when the frame is discarded
(R82). `src16` is the departure time in the source counter and `res16` the residence, in 1/16 ns. -/
def oneStep (bs : List Byte) (mode src16 : Nat) (res16 : Int) : Option (List Byte) :=
  match ptpFind bs with
  | none => none
  | some (o, udp) =>
    let typ := byteAt bs o % 16
    let top := if mode = 1 then o + 44 else o + 16
    let ulen := match udp with | some (u, _) => beAt bs (u + 4) 2 | none => 0
    let far := match udp with | some (u, 6) => decide (256 < u + ulen) | _ => false
    let short := match udp with | some (_, 6) => decide (ulen < beAt bs (o + 2) 2 + 2) | _ => false
    let last := if mode = 1 then 1 else 3
    if last < typ || 256 < top || bs.length < top || far || short then none
    else
      let corr := beAt bs (o + 8) 8
      let new :=
        if mode = 1 then
          let c := corrAdd corr ((src16 % 16 : Nat) * 4096 : Nat)
          overwrite (overwrite bs (o + 8) (beBytes 8 c)) (o + 34)
            (beBytes 6 (src16 / 16 / 1000000000) ++ beBytes 4 (src16 / 16 % 1000000000))
        else overwrite bs (o + 8) (beBytes 8 (corrAdd corr (res16 * 4096)))
      some (udpRepair bs new udp)

/-- The residence of a frame that departs at `t`, in 1/16 ns (R80): modulo 2^32 ns for a frame of another device. -/
def residence (f : Frame) (t : Nat) : Int :=
  if f.remote then (imod ((t : Int) - f.birth) (2 ^ 36) : Nat) else (t : Int) - f.birth

/-- The TSU writes the one-step fields of a frame that departs at `t` of the time base: the frame as sent, or none when it
is discarded, with the reserved mode counted (R80, R82). The value in `ERR_INFO` for the reserved mode, and a source of 3
taken as the time base, are the model's choices (notes/assumptions/86.md). A disabled TIME page discards a frame that
needs its TSU (R45). -/
def tsuWrite (n : Nat) (f : Frame) (t : Nat) (s : State) : Option Frame × State :=
  if f.onestep = 0 then (some f, s)
  else if !s.live timePage then (if f.onestep = 3 then some f else none, if s.clocked timePage then errDisabled timePage s else s)
  else if f.onestep = 3 then (some f, errInt timePage 0x14 3 s)
  else
    let src := if f.tsrc = 0 then 0 else f.tsrc - 1
    let diff : Int := if f.tsrc = 0 ∨ f.tsrc = 3 then 0 else in16 (trk s src) - (in16 s.tb : Int)
    let src16 := ((t + diff) % (timeWrap / 2 ^ 44 : Nat)).toNat
    match oneStep f.bytes f.onestep src16 (residence f t) with
    | some bs => (some { f with bytes := bs }, s)
    | none => (none, raise timePage 17 (bump (Reg.TIME.ONESTEP_DROP n) s))

/-! ### Transmission -/

/-- Whether port `n` transmits frames (R130, R131). -/
def portSends (s : State) (n : Nat) : Bool :=
  s.live (lportPage n) && linkState s n == 5 && s.rbit (Reg.LPORT.MAC_CFG n) 16 && loopback s n != 2

/-- A frame for a port that does not transmit is discarded whole (R130); a disabled port page counts it (R45). -/
def txDownDrop (n : Nat) (f : Frame) (s : State) : State :=
  let p := lportPage n
  let s := s.drop f
  if !s.pageOn p then s
  else if s.clocked p && !s.live p then errDisabled p s
  else bump (Reg.LPORT.TX_DOWN_DROP n) s

/-- The largest frame that EPIPE sends on port `n` (R273, R275). -/
def txMtu (s : State) (n : Nat) : Nat := s.rfld (Reg.EPIPE.PORT_CFG (n / 16) (n % 16)) 0 14

/-- Bytes padded with zeros to 60, so that the frame has 64 with its FCS (R273). -/
def padded (bs : List Byte) : List Byte := bs ++ List.replicate (60 - bs.length) 0

/-- Whether a frame whose length EPIPE could not check proves longer than the port's TX_MTU (R273). -/
def overMtu (s : State) (n : Nat) (f : Frame) : Bool := !f.chk && txMtu s n < (padded f.bytes).length + 4

/-- The start of what port `n` sends, `dt` sixteenths after the last tick: the port is busy from now, and its departure time is
kept (R75, R568). -/
def txBegin (n dt : Nat) (s : State) : State :=
  (s.setH (.txFree n) (max (s.hn (.txFree n)) (20 * s.root + 9 * dt) : Nat)).setH (.txTs n) (planeTime s dt (txCorr s n))

/-- What port `n` has begun to send ends after `len` bytes: the line is busy for them, and they count in the window of their
departure time (R88, R568). -/
def txEnd (n len : Nat) (s : State) : State :=
  bwCount false n len (s.hn (.txTs n)) (s.setH (.txFree n) (s.hn (.txFree n) + 9 * wireTime s n len : Nat))

/-- A frame ends on the line with an inverted FCS after `bytes` (R120). -/
def abortTx (n : Nat) (f : Frame) (bytes : List Byte) (s : State) : State :=
  let s := txEnd n (bytes.length + 4) (if f.started then s else txBegin n 0 s)
  let s := raise (lportPage n) 6 (bump (Reg.LPORT.TX_ABORT n) s)
  let s := loopRx n bytes false (s.emit (.line n bytes true))
  s.drop f

/-- A frame of which more does not come, or no more may go, ends with an inverted FCS (R120), at TX_MTU bytes if it is longer
(R273). -/
def cutTx (n : Nat) (f : Frame) (s : State) : State :=
  if overMtu s n f then
    abortTx n f (f.bytes.take (txMtu s n - 4)) (raiseFirst (epipePage (n / 16)) 1 (bump (Reg.EPIPE.MTU_DROP (n / 16)) s))
  else abortTx n f f.bytes s


/-- The MAC ends a frame whose last byte is in (R119, R273): with a new FCS, or with an inverted one for a late bad mark
or beyond the port's TX_MTU. -/
def txFinish (n : Nat) (f : Frame) (s : State) : State :=
  if overMtu s n f then cutTx n f s
  else
    let bs := padded f.bytes
    let len := bs.length + 4
    let s := txEnd n len s
    let s := if f.bad then bump (Reg.LPORT.TX_BAD_TAIL n) s
      else bumpBy (Reg.LPORT.TX_BYTES n) len (bump (Reg.LPORT.TX_FRAMES n) s)
    let s := if f.ring = 0 then s else injResult (f.ring - 1) f.desc 0 (f.txAt - 1) s
    let s := loopRx n bs (!f.bad) (s.emit (.line n bs f.bad))
    s.drop f

/-- T-clock ticks pass until a frame that port `n` starts can cross the reference plane at `t16` or later, a time in 1/16
ns. -/
def waitPlane (n : Nat) (t16 : Int) (s : State) : State :=
  if s.timeRuns then advanceTo ((t16 - txCorr s n).toNat * 2 ^ 44) s else s

/-- A frame starts on port `n` (R75, R119): its departure time is taken, the one-step fields are written, and it ends at
once if its last byte is in. -/
def txStart (n dt : Nat) (f : Frame) (s : State) : State :=
  let s := txBegin n dt (waitRoot (cdiv (s.hn (.txFree n)) 20) s)
  let (t, s) := tsuStamp n dt (txCorr s n) s
  match tsuWrite n f t s with
  | (none, s) => s.drop f
  | (some g, s) =>
    let g := { g with started := true, txAt := t + 1, loc := .mac n }
    let s := if g.launch.isSome then pfeSent g s else s
    let s := s.putFrame g
    if g.whole then txFinish n g s else s

/-- A frame waiting at port `n` is sent, or discarded by R119 or R130; the one in transmission ends once its last byte is in
or it proves longer than TX_MTU. That a frame known to be bad counts as such also at a port that does not transmit, and that a
frame in transmission when its port ceases to transmit is kept until its last byte is in and then counts in TX_DOWN_DROP, are
the model's choices (notes/assumptions/96.md). -/
def txOne (n dt : Nat) (f : Frame) (s : State) : State :=
  if f.markKnown && f.bad && !f.started then bump (Reg.LPORT.TX_BAD_DISC n) (s.drop f)
  else if !portSends s n then (if f.started && !f.whole then s else txDownDrop n f s)
  else if f.started then (if f.whole || overMtu s n f then txFinish n f s else s)
  else txStart n dt f s

/-- The traffic class for which a frame dequeued for a port is paused: that of its queue (R123, R358). -/
def pauseClass (s : State) (f : Frame) : Nat := queueClass s f.q

/-- The frame that the MAC of port `n` sends next: the one in transmission, or the first untimed one whose class is not
paused (R123). -/
def txNext (s : State) (n : Nat) : Option Frame :=
  let fs := s.allAt (.mac n)
  match fs.find? (·.started) with
  | some f => some f
  | none => fs.find? fun f => f.launch.isNone && (!s.hb (.paused n (pauseClass s f)) || !portSends s n)

/-! ### Flow control (R125, R126) -/

/-- The source address of port `n` (R135). -/
def macSa (s : State) (n : Nat) : List Byte :=
  beBytes 2 (s.reg (Reg.LPORT.MAC_SA_HI n)) ++ beBytes 4 (s.reg (Reg.LPORT.MAC_SA_LO n))

/-- The flow-control frame of port `n` for the asserted classes `set` (R125). -/
def fcFrame (s : State) (n set : Nat) : List Byte :=
  let q := s.rfld (Reg.LPORT.PFC_TX_CFG n) 16 16
  let body := if s.rfld (Reg.LPORT.MAC_CFG n) 18 2 = 2 then
      beBytes 2 0x0101 ++ beBytes 2 0xFF ++ (List.range 8).flatMap fun c => beBytes 2 (if bit set c then q else 0)
    else beBytes 2 1 ++ beBytes 2 (if set = 0 then 0 else q)
  padded ([0x01, 0x80, 0xC2, 0x00, 0x00, 0x01] ++ macSa s n ++ [0x88, 0x08] ++ body)

/-- The flow-control frame for the set of classes that admission now asks to stop is sent: 64 bytes on the line. -/
def fcEmit (n : Nat) (s : State) : State :=
  let set := s.hn (.fcSet n)
  let mode := s.rfld (Reg.LPORT.MAC_CFG n) 18 2
  let bs := fcFrame s n set
  let s := (s.emit (.fc n bs)).setH (.fcAt n) (s.root : Nat)
  let s := if mode = 2 then forEach (bitsOf set 8) s fun p s => bump (Reg.LPORT.TX_PFC n p) s
    else bump (Reg.LPORT.TX_PAUSE n) s
  loopRx n bs true (txEnd n 64 (txBegin n 0 (waitRoot (cdiv (s.hn (.txFree n)) 20) s)))

/-- A flow-control frame that waits goes at the frame boundary, ahead of every queued frame, unless the guard holds it back
(R126); a port that does not transmit sends none (R130). -/
def fcBoundary (n : Nat) (s : State) : State :=
  if !s.hb (.fcPend n) || (inTx s n).isSome then s
  else if !portSends s n || s.rfld (Reg.LPORT.MAC_CFG n) 18 2 == 0 then s.setH (.fcPend n) 0
  else if guardHolds s n 64 (idleAt s n) then s
  else fcEmit n (s.setH (.fcPend n) 0)

/-- A flow-control frame is due: it goes now, or at the end of the frame in transmission (R126). -/
def fcSend (n : Nat) (s : State) : State := fcBoundary n (s.setH (.fcPend n) 1)

/-- FLOW_CONTROL_TX (R125, R126): admission asks the port to stop the classes `set`; a frame follows each change. The spec does
not say when admission asks for it, so the command carries the set (notes/assumptions/13.md). -/
def execFlowControlTx (n : Fin 128) (set : BitVec 8) (s : State) : Host.Outcome State Fault Refusal :=
  done (s.when (s.hn (.fcSet n) != set.toNat) fun s => fcSend n (s.setH (.fcSet n) (set.toNat : Nat)))

/-- FC_REFRESH (R125): `REFRESH` × 100 ns after the last one, while any class remains asserted. -/
def execFcRefresh (n : Fin 128) (s : State) : Host.Outcome State Fault Refusal :=
  done (s.when (s.hb (.fcSet n) && s.clocked (lportPage n)) fun s =>
    fcSend n (waitSince (lportPage n) (.fcAt n) (720 * s.rfld (Reg.LPORT.PFC_TX_CFG n) 0 16) s))

/-! ### Frames on the line (R119, R120) -/

/-- FRAME_TX (R119): the start of a frame, `dt` sixteenths after the last tick, and its end when its last byte is in; the
guard of R89 may hold it back. A flow-control frame goes first at a frame boundary (R126). -/
def execFrameTx (n : Fin 128) (dt : Fin 18) (s : State) : Host.Outcome State Fault Refusal :=
  done (s.when (s.clocked (lportPage n)) fun s =>
    let s := fcBoundary n s
    match txNext s n with
    | none => s
    | some f =>
      if !f.started && guardHolds s n f.len (idleAt s n) then s
      else fcBoundary n (txOne n dt f s))

/-- An abandoned frame at port `n` ends (R120): its start has gone towards the port, so that it ends on the line with an
inverted FCS; a port that does not transmit discards it (R130). -/
def abandonTx (n : Nat) (f : Frame) (s : State) : State := if portSends s n then cutTx n f s else txDownDrop n f s

/-- TX_ABORT (R120): the first frame of port `n` that has been abandoned, in transmission, at the MAC or in the launch
stage, ends at once. -/
def execTxAbort (n : Fin 128) (s : State) : Host.Outcome State Fault Refusal :=
  done (s.when (s.clocked (lportPage n)) fun s =>
    match (s.allAt (.mac n) ++ s.allAt (.launch n)).find? (·.gone) with
    | some f => fcBoundary n (abandonTx n f s)
    | none => s)

/-! ### Timed launch (R85 to R91) -/

/-- The first timed frame at port `n` enters the launch stage, or is dropped as late or out of range (R85, R86). -/
def launchEntry (n : Nat) (s : State) : State :=
  match (s.allAt (.mac n)).find? fun f => f.launch.isSome && !f.started with
  | none => s
  | some f =>
    let l := f.launch.getD 0
    if deadline s n l < now16 s then dropLate n f s
    else if now16 s + 32000000000 < launchAt s l then (bump (Reg.TIME.RANGE_DROP n) s).drop f
    else if now16 s < launchAt s l - s.reg (Reg.TIME.TSU_TL_LEAD n) * 16 then s
    else if 32 ≤ (s.allAt (.launch n)).length then s
    else
      let k := s.hn .tlOrder
      (s.setH .tlOrder (k + 1 : Nat)).moveFrame { f with lorder := k } (.launch n)

/-- LAUNCH_STAGE_ENTRY (R86). -/
def execLaunchStageEntry (n : Fin 128) (s : State) : Host.Outcome State Fault Refusal :=
  done (s.when (s.timeRuns && s.live timePage) (launchEntry n))

/-- How much of the windows that hold an instant is left, in 1/16 ns: the longest remainder. -/
def winLeft (s : State) (n : Nat) (t : Int) : Nat :=
  ((winForce s n).map fun (o, l, _) => if o ≤ winPos s n t then o + l - winPos s n t else 0).foldl max 0

/-- Whether a held frame fits no remaining part of the window that is current at its launch time, or of the first one after it:
the port is busy, or the window ends, too soon (R88). -/
def winMissed (s : State) (n : Nat) (t : Int) (f : Frame) : Bool :=
  let l := f.launch.getD 0
  match winFit s n (launchAt s l) 1 with
  | some w => decide (w ≤ t ∧ w + winLeft s n w < readyAt s n l + wireTime s n f.len)
  | none => false

/-- Every held frame of port `n` that by the instant `t` fits no remaining part of its current window is counted as deferred, once
(R88). -/
def deferHeld (n : Nat) (t : Int) (s : State) : State :=
  if !s.rbit (Reg.TIME.TSU_TS_CTL n) 2 then s else
  forEach (s.allAt (.launch n)) s fun f s =>
    if f.deferred = false ∧ winMissed s n t f then
      (bump (Reg.TIME.WIN_DEFER n) s).putFrame { f with deferred := true }
    else s

/-- The offset of the start of a timed frame after the last tick: what the TSU reports, but no more than brings the frame
2 ns past its instant `t`, in 1/16 ns (R89). -/
def launchDt (s : State) (n dt : Nat) (t : Int) : Nat := min dt (t + 32 - planeNow s n).toNat

/-- The first held timed frame in launch order whose class is not paused starts at the first instant of R88, once the port
is idle; those that fit no remaining part of the current window are counted as deferred. A frame whose deadline comes
first is left for its deadline. -/
def timedStartNext (n dt : Nat) (s : State) : State :=
  if (inTx s n).isSome then s else
  match (launchOrder s n).find? fun f => !s.hb (.paused n (pauseClass s f)) with
  | none => s
  | some f =>
    let l := f.launch.getD 0
    let s := deferHeld n (readyAt s n l) s
    match timedStart s n l f.len, s.frame f.id with
    | some t, some f =>
      if deadline s n l < t then s else
      let s := waitPlane n t s
      fcBoundary n (txOne n (launchDt s n dt t) f s)
    | _, _ => s

/-- TIMED_FRAME_START (R88). -/
def execTimedFrameStart (n : Fin 128) (dt : Fin 18) (s : State) : Host.Outcome State Fault Refusal :=
  done (s.when (s.timeRuns && s.live timePage) (timedStartNext n dt))

/-- The earliest deadline among the held frames of port `n` passes, and every frame whose deadline has passed is dropped
as late (R85, R88). -/
def launchDeadline (n : Nat) (s : State) : State :=
  let held := s.allAt (.launch n)
  let due := held.map fun f => deadline s n (f.launch.getD 0)
  match due with
  | [] => s
  | d :: ds =>
    let first := ds.foldl min d
    let s := deferHeld n first s
    let s := advanceTo (first.toNat * 2 ^ 44) s
    forEach ((s.allAt (.launch n)).filter fun f => deadline s n (f.launch.getD 0) ≤ now16 s) s (dropLate n)

/-- LAUNCH_DEADLINE (R85). -/
def execLaunchDeadline (n : Fin 128) (s : State) : Host.Outcome State Fault Refusal :=
  done (s.when (s.timeRuns && s.live timePage) (launchDeadline n))

/-- The registers of a schedule (R105). -/
def winRegs (n : Nat) : List Nat := [Reg.TIME.TSU_WIN_PERIOD n, Reg.TIME.TSU_WIN_BASE_NS n, Reg.TIME.TSU_WIN_BASE_SEC n]

/-- Copy a schedule between its places: registers of bank `b` to bank `c`, table `x` to table `y`. -/
def winCopy (n b c x y : Nat) (s : State) : State :=
  let s := forEach (winRegs n) s fun a s => s.setReg (bank c a) (s.reg (bank b a))
  forEach (List.range 8) s fun w s => s.setTab timePage y (8 * n + w) (s.tab timePage x (8 * n + w))

/-- Whether the shadow schedule of port `n` may be committed (R105). -/
def winValid (s : State) (n : Nat) : Bool :=
  let p := s.reg (Reg.TIME.TSU_WIN_PERIOD n)
  1000 ≤ p && p ≤ 1000000000 && (List.range 8).all fun w =>
    let e := s.tab timePage 1 (8 * n + w)
    !bit (word e 1) 31 || fld e 0 30 + fld (word e 1) 0 30 ≤ p

/-- The next period boundary of the schedule in force is set from the present instant (R68). -/
def winArm (n : Nat) (s : State) : State :=
  s.setH (.winAt n) (now16 s + (winPeriod s n - winPos s n (now16 s) : Nat) + 1)

/-- A write of 1 to `WIN_COMMIT` of TSU[n] (R87, R105). -/
def winCommit (r : Req) (n v : Nat) (s : State) : State :=
  if !bit v 0 then s
  else if !winValid s n then timeErr 0x14 r (Reg.TIME.TSU_WIN_COMMIT n) v s
  else if !s.rbit (Reg.TIME.TSU_TS_CTL n) 2 || (winForce s n).isEmpty then
    winArm n (((winCopy n 0 62 1 2 s).setHb (.winIn n) true).setHb (.winNext n) false)
  else (winCopy n 0 63 1 3 s).setHb (.winNext n) true

/-- WINDOW_COMMIT (R87). -/
def execWindowCommit (r : Req) (n : Fin 128) (v : W32) (s : State) : Host.Outcome State Fault Refusal :=
  done (gateWrite r (Reg.TIME.TSU_WIN_COMMIT n) (winCommit r n v.toNat) s)

/-! ### Recirculation (R134) -/

/-- The first complete frame at recirculation port 128 + g is taken, or discarded when bad (R134). -/
def recircEntry (g : Nat) (s : State) : State :=
  match s.firstAt (.recirc g) with
  | none => s
  | some f =>
    if !s.live (lgPage g) then (let s := s.drop f; if s.clocked (lgPage g) then errDisabled (lgPage g) s else s)
    else if !f.whole then s
    else if f.bad then raise (lgPage g) 2 (bump (Reg.LG.RECIRC_BAD_DISC g) (s.drop f))
    else (bump (Reg.LG.RECIRC_FRAMES g) s).moveFrame { f with started := false, ncell := 0, grew := 0, hops := [] } (.rentry g)

/-- RECIRC_ENTRY (R134). -/
def execRecircEntry (g : Fin 8) (s : State) : Host.Outcome State Fault Refusal := done (recircEntry g s)

end Sys2Proof.Machine
end

