-- ==== Sys2Proof/Machine/Sched.lean ====
section
/-!
DEFINITION. Credit and the egress hierarchy (spec/09_queueing_scheduling.md, R354 to R381, R387 to R393): credit flows and
grants, launch times of queues, selection, shapers and the Fretboard. Entities are numbered as the SHP table numbers them
(R390).
-/
namespace Sys2Proof.Machine

/-! ### Choice of a child (R373) -/

/-- The child of node `n` chosen among the eligible `kids` in pass `x`: the child and its priority. -/
def pickPass (s : State) (x n : Nat) (kids : List Nat) : Option (Nat × Nat) :=
  ((List.range 8).reverse.findSome? fun k =>
    (firstFrom (s.hn (.ptr x n k)) (sortNat (kids.filter fun c => entPrio s c == k))).map fun c => (c, k))

/-- The child of node `n` chosen: committed pass first, then excess (R373). -/
def pickChild (s : State) (n : Nat) (kids : List Nat) : Option (Nat × Nat × Nat) :=
  match pickPass s 0 n (kids.filter (committed s)) with
  | some (c, k) => some (0, c, k)
  | none => (pickPass s 1 n kids).map fun (c, k) => (1, c, k)

/-- The entities whose deficit of `x` is listed. -/
def listedDef (s : State) (x : Nat) : List Nat :=
  (s.hid.filter fun e => e.1 / 2 ^ 32 == (Hid.dwrr x 0).code / 2 ^ 32).map fun e => e.1 % 2 ^ 32

/-- Whether `c` lies in the scan from `p` up to, not including, `chosen`. -/
def inScan (p chosen c : Nat) : Bool := if p ≤ chosen then p ≤ c && c < chosen else p ≤ c || c < chosen

/-- The entities of the children's level of node `n`, below the port level, whose entry is not the reset one; every other child
has weight 1 (R371). -/
def enteredKids (s : State) (n : Nat) : List Nat :=
  let of := fun (tab base : Nat) => (s.tabList schedPage tab).map fun e => base + e.1
  if n < 163840 then of 1 0 else if n < 180224 then of 2 131072 else if n < port0 then of 3 163840 else of 4 180224

/-- Child `c` of node `n` is chosen at priority `k` in pass `x`: the children that the scan passed over take their quantum in
place of a positive deficit, and PTR takes the child (R373). -/
def chosen (x n c k : Nat) (ok : Nat → Bool) (s : State) : State :=
  let p := s.hn (.ptr x n k)
  let done_ := ((listedDef s x ++ enteredKids s n).eraseDups).filter fun i =>
    i < port0 && parentOf s i == n && entPrio s i == k && inScan p c i && !ok i && decide (0 < deficit s x i)
  let s := forEach done_ s fun i s => s.setH (.dwrr x i) ((quantum s i : Int) - 64)
  s.setH (.ptr x n k) (c : Nat)

/-- `len` bytes sent through child `c` of node `n`, chosen in `x` at priority `k`, are charged (R373). -/
def chargeChild (x n c k len : Nat) (s : State) : State :=
  let d := deficit s x c - len
  if d ≤ 0 then (s.setH (.dwrr x c) (d + quantum s c - 64)).setH (.ptr x n k) (c + 1 : Nat)
  else s.setH (.dwrr x c) (d - 64)

/-- One step of a descent: node, pass, child, priority. -/
abbrev Hop : Type := Nat × Nat × Nat × Nat

/-- A step of a descent by which `len` bytes are charged in state `s`: its child takes its quantum if its deficit is used up
(R373). -/
def hopStep (s : State) (len : Nat) : Hop → Step
  | (n, x, c, k) => { node := n, pass := x, child := c, prio := k, topped := decide (deficit s x c ≤ len) }

/-- The descent from node `n` to a queue among the eligible queues `qs` (R374); `pick` chooses at each node, `ok` tells
which children are eligible in a pass. -/
def descend (s : State) (pick : Nat → List Nat → Option (Nat × Nat × Nat)) : Nat → Nat → List (List Nat) → Option (List Hop)
  | 0, _, _ => some []
  | k + 1, n, lists =>
    match lists with
    | [] => none
    | kids :: rest =>
      match pick n (kids.filter fun c => parentOf s c == n) with
      | none => none
      | some (x, c, pr) => (descend s pick k c rest).map fun h => (n, x, c, pr) :: h

/-- The eligible nodes of each level above the eligible queues `qs`, lowest level first, under a test for nodes. -/
def levels (s : State) (node : Nat → Bool) (qs : List Nat) : List (List Nat) :=
  let up := fun xs => (xs.map (parentOf s)).eraseDups.filter node
  let l3 := up qs
  let l2 := up l3
  let l1 := up l2
  [l1, l2, l3, qs]

/-! ### Launch times of queues (R360, R361) -/

/-- The present instant of the Q-die's follower in 1/16 ns, which timed launches on the Q-die read (R22). -/
def fol16 (s : State) : Int := (in16 s.fol : Nat)

/-- The birth time of a frame as an instant near now, in 1/16 ns. -/
def absBirth (s : State) (f : Frame) : Int :=
  if f.remote then fol16 s - (sgn (imod ((s.folNs : Int) - (f.birth / 16 : Nat)) (2 ^ 32)) 32) * 16 else f.birth

/-- The launch time that queue `q` on port `n` gives a frame, in 1/16 ns (R360); a frame that carries its own keeps it. -/
def queueLaunch (s : State) (q n : Nat) (f : Frame) : Option Int :=
  match f.launch with
  | some l => some (launchAt s l)
  | none =>
    let l0 := absBirth s f + (fld (qprofW s q 2) 0 30 * 16 : Nat)
    match fld (qprofW s q 0) 27 2 with
    | 1 => some l0
    | 2 =>
      let ws := (winForce s n).filter fun (_, _, w) => bit (qprofW s q 3) (24 + w)
      let per := max 1 (winPeriod s n)
      let waits := ws.map fun (o, _, _) => (o + per - winPos s n l0 % per) % per
      if !s.rbit (Reg.TIME.TSU_TS_CTL n) 2 then some l0 else
      match waits with
      | [] => some l0
      | w :: r => some (l0 + (r.foldl min w : Nat))
    | _ => none

/-- A launch time in the form of R84. -/
def launchBits (t : Int) : Nat :=
  let ns := (t / 16 % (2 ^ 48 * 1000000000 : Nat)).toNat
  ns / 1000000000 % 2 ^ 32 * 2 ^ 32 + ns % 1000000000

/-- Timed frames on their way to port `n` or in its launch stage. -/
def stageLoad (s : State) (n : Nat) : Nat :=
  (s.frames.filter fun f => f.outPort == n && f.launch.isSome && match f.loc with
    | .epipe _ | .mac _ | .launch _ => true
    | _ => false).length

/-- A frame with a launch time may leave its queue: not before L less TL_LEAD, and with room in the launch stage; one more
than 2.0 s ahead leaves, to be dropped by its port (R85, R86, R361). -/
def launchReady (s : State) (q n : Nat) (f : Frame) : Bool :=
  if 128 ≤ n then true else
  match queueLaunch s q n f with
  | none => true
  | some l =>
    if f.launch.isSome ∧ fol16 s + 32000000000 < l then true
    else s.timeRuns && decide (l - s.reg (Reg.TIME.TSU_TL_LEAD n) * 16 ≤ fol16 s) && decide (stageLoad s n < 32)

/-! ### The period boundaries of a window schedule (R87, R91) -/

/-- Whether queue `q` is bound to its port's window schedule: MODE TIMED (R91, R358). -/
def timedQueue (s : State) (q : Nat) : Bool := fld (qprofW s q 0) 27 2 == 2

/-- Whether port `n` holds frame `f` of a timed queue with a launch time before `b`: in its queue, on its way to the port, at
the port or in its launch stage, and not started (R91). -/
def timedBefore (s : State) (n : Nat) (b : Int) (f : Frame) : Bool :=
  let due := egqBase ≤ f.q && timedQueue s f.q &&
    match queueLaunch s f.q n f with
    | some l => decide (l < b)
    | none => false
  match f.loc with
  | .queued q => egqBase ≤ q && portOf s (q - egqBase) == n && due
  | .epipe _ => f.outPort == n && due
  | .mac m | .launch m => m == n && !f.started && due
  | _ => false

/-- A frame is dropped as late at a period boundary; its queue is evaluated again. -/
def boundaryDrop (n : Nat) (f : Frame) (s : State) : State :=
  match f.loc with
  | .queued q => queueLeft q (dropLate n f s)
  | _ => dropLate n f s

/-- The next period boundary of port `n` is reached (R87, R91): the first tick at which the time base equals or exceeds it,
so that a step past it brings it at once and a step back does not repeat the last one (R68). The frames of timed queues
launched before it are dropped, and a committed schedule takes effect. -/
def windowBoundary (n : Nat) (s : State) : State :=
  let b := s.h (.winAt n) - 1
  if !s.hb (.winIn n) || b < 0 then s else
  let s := advanceTo (b.toNat * 2 ^ 44) s
  if now16 s < b then s else
  let last := now16 s - (winPos s n (now16 s) : Nat)
  let s := forEach (s.frames.filter (timedBefore s n last)) s (boundaryDrop n)
  winArm n (if s.hb (.winNext n) then (winCopy n 63 62 3 2 s).setHb (.winNext n) false else s)

/-- WINDOW_PERIOD_BOUNDARY (R91). -/
def execWindowPeriodBoundary (n : Fin 128) (s : State) : Host.Outcome State Fault Refusal :=
  done (s.when (s.timeRuns && s.live timePage) (windowBoundary n))

/-! ### Selection (R372 to R374) -/

/-- Whether a class is paused on a line port (R123). -/
def pausedOn (s : State) (n c : Nat) : Bool := n < 128 && s.hb (.paused n c)

/-- Egress queues that are eligible (R371, R372). -/
def eligQueues (s : State) : List Nat :=
  ((usedQueues s).filter fun q => egqBase ≤ q).filterMap fun q =>
    let e := q - egqBase
    let n := portOf s e
    match s.firstAt (.queued q) with
    | none => none
    | some f =>
      if entEn s e && permits s e && headReady f && !pausedOn s n (queueClass s q) && launchReady s q n f &&
          !s.hb (.stuck (engineUnit q)) then some e else none

/-- Whether a port has room (R133, R372, R594): `full` names the ports whose transmit or entry buffer has none. -/
def portRoom (s : State) (full : Nat) (n : Nat) : Bool :=
  !bit full n && (if n < 128 then !s.hb (.stuck (8 + n / 16)) else !s.hb (.stuck (n - 128)))

/-- The selection of one port: the next eligible one in round robin, and the descent to a queue (R374). -/
def selection (s : State) (full : Nat) : Option (Nat × List Hop) :=
  let node := fun i => entEn s i && permits s i
  let lv := levels s node (eligQueues s)
  let ports := ((lv.headD []).map fun c => parentOf s c - port0).eraseDups.filter fun p =>
    p < 136 && entEn s (port0 + p) && permits s (port0 + p) && portRoom s full p
  match firstFrom (s.hn .portPtr) (sortNat ports) with
  | none => none
  | some p => (descend s (pickChild s) 4 (port0 + p) lv).map fun h => (p, h)

/-- A frame of egress queue `e` is dequeued for port `p`, chosen along `hops` (R118, R360, R374). -/
def dequeued (p e : Nat) (hops : List Step) (f : Frame) (s : State) : State :=
  let q := egqBase + e
  let l := if p < 128 then (queueLaunch s q p f).map launchBits else none
  let s := bump Reg.QMGR.DEQ_EGQ s
  let s := bumpBy (Reg.SCHED.DEQ_BYTES p) f.heldLen (bump (Reg.SCHED.DEQ_FRAMES p) s)
  let s := fsCount (3145728 + e) f.heldLen s
  let s := if l.isNone then pfeSent f s else s
  let f := { f with outPort := p, launch := l, cut := f.cut || !f.whole, hops := hops, paid := f.heldLen, started := true }
  let s := if f.bad && f.whole && !f.cut && f.inPort.isSome then
      bump (Reg.LPORT.RX_BADTAIL_DISC (f.inPort.getD 0)) (s.drop f)
    else leaveQueue q f s
  queueLeft q s

/-- Cell `ue` of a frame that queue `q` has just started is read with an uncorrectable error (R312): with its first cell the frame
has not started, with a later one it has (notes/assumptions/62.md). -/
def ueAt (p q : Nat) (ue : Option (Fin 64)) (f : Frame) (s : State) : State :=
  match ue with
  | some k => if k.val < f.ncell then queueLeft q (cellUe p q k f.id (k.val != 0) s) else s
  | none => s

/-- One selection (R374): an aged head frame makes it void; `ue`: a buffer cell of the head frame has an uncorrectable
error. -/
def schedSelect (full : Nat) (ue : Option (Fin 64)) (s : State) : State :=
  match selection s full with
  | none => s
  | some (p, hops) =>
    match hops.getLast? with
    | none => s
    | some (_, _, e, _) =>
      match s.firstAt (.queued (egqBase + e)) with
      | none => s
      | some f =>
        match ageCheck (egqBase + e) Reg.CELL.AGED_DEQ_G f s with
        | (true, s) => queueUpdate (egqBase + e) s
        | (false, _) =>
          let elig := (levels s (fun i => entEn s i && permits s i) (eligQueues s)).flatten
          let len := f.heldLen
          let s := s.setH .portPtr (p + 1 : Nat)
          let t := forEach hops s fun (n, x, c, k) s =>
            chargeChild x n c k len (chosen x n c k (fun i => elig.contains i && (x == 1 || committed s i)) s)
          let t := forEach (pathOf s e) t fun i t => shpCharge len i t
          let t := dequeued p e (hops.map (hopStep s len)) f t
          ueAt schedPage (egqBase + e) ue f t

/-- SCHED_SELECTION (R374): `full` names the ports without room in their transmit buffer (R372); `ue`: the buffer cell of the
frame selected that is read with an uncorrectable error (R312). -/
def execSchedSelection (full : BitVec 136) (ue : Option (Fin 64)) (s : State) : Host.Outcome State Fault Refusal :=
  done (s.when (s.live schedPage && s.live qmgrPage && s.live cellPage) fun s =>
    schedSelect full.toNat ue (retStall (fun q => egqBase ≤ q) s))

/-! ### Credit flows (R366 to R369) -/

/-- The flow of a source VOQ. -/
def findFlow (s : State) (src voq : Nat) : Option Flow := s.flows.find? fun f => f.src == src && f.voq == voq

/-- Flows in slot order with one more. -/
def insFlow (f : Flow) (fs : List Flow) : List Flow :=
  fs.takeWhile (fun g => g.slot < f.slot) ++ f :: fs.dropWhile (fun g => g.slot < f.slot)

/-- The flow table takes a new list; CFLOW_USED follows. -/
def setFlows (fs : List Flow) (s : State) : State := ({ s with flows := fs }).setReg Reg.QMGR.CFLOW_USED fs.length

/-- A STATUS message of device `src` arrives (R366). -/
def statusIn (src voq e : Nat) (req : Bool) (s : State) : State :=
  if !entEn s e then raiseFirst qmgrPage 1 (bump Reg.QMGR.STATUS_BAD s)
  else if !req then setFlows (s.flows.filter fun f => !(f.src == src && f.voq == voq)) s
  else
    match findFlow s src voq with
    | some f => { s with flows := s.flows.map fun g => if g.slot = f.slot then { g with e := e, since := s.root } else g }
    | none =>
      if s.reg Reg.QMGR.CFLOW_CAP ≤ s.flows.length then raiseFirst qmgrPage 0 (bump Reg.QMGR.CFLOW_FULL s)
      else setFlows (insFlow { slot := firstGap 1 0 (s.flows.map (·.slot)), src := src, voq := voq, e := e, since := s.root } s.flows) s

/-- A GRANT for VOQ `q` arrives (R369). -/
def grantIn (q : Nat) (s : State) : State :=
  if 262144 ≤ q ∨ !bit (s.tab qmgrPage 2 (q / 8)) 31 then bumpBy Reg.QMGR.CRED_WASTE 8192 s
  else
    let v := s.h (.cb q) + 8192
    let top : Int := s.reg Reg.QMGR.CB_MAX
    let s := bumpBy Reg.QMGR.CRED_WASTE (min 8192 (v - top).toNat) s
    voqEval q (s.setH (.cb q) (min v top))

/-- The flow of slot `i` has not been refreshed for FLOW_TIMEOUT µs (R366). -/
def flowTimeout (i : Nat) (s : State) : State :=
  match s.flows.find? fun f => f.slot == i with
  | none => s
  | some f =>
    let s := waitRoot (f.since + cycUs (s.reg Reg.QMGR.FLOW_TIMEOUT)) s
    setFlows (s.flows.filter fun g => g.slot != i) (bump Reg.QMGR.CFLOW_TIMEOUT s)

/-- CREDIT_FLOW_TIMEOUT (R366). -/
def execCreditFlowTimeout (i : Fin 262144) (s : State) : Host.Outcome State Fault Refusal :=
  done (s.ifLive qmgrPage (flowTimeout i))

/-- The rate in kbit/s at which the pacer of line port `p` allows grants (R368). -/
def pacerRate (s : State) (p : Nat) : Nat :=
  let line := portLanes s p * 100000000
  let i := port0 + p
  let r := if shaping s && bktEn s true i then min line (bktRate s true i) else line
  r * s.reg Reg.SCHED.CRED_SPEED / 100

/-- The level of the pacer of port `p` brought up to date: in units of 2^-16 byte, at most a burst of 2 grants (R368). -/
def pacerUpdate (p : Nat) (s : State) : State :=
  let v := min 0 (s.h (.pacer p) + refill (pacerRate s p) (s.root - s.hn (.pacerAt p)))
  (s.setH (.pacer p) v).setH (.pacerAt p) (s.root : Nat)

/-- Time passes until the pacer allows a grant of 8,192 bytes. -/
def pacerWait (p : Nat) (s : State) : State :=
  let s := pacerUpdate p s
  let need := -(8192 * 65536 : Int) - s.h (.pacer p)
  if need ≤ 0 ∨ pacerRate s p = 0 then s
  else pacerUpdate p (waitRoot (s.root + repayTime (pacerRate s p) need.toNat + 8) s)

/-- The credit-eligible egress queues of port `p` (R367). -/
def credQueues (s : State) (p : Nat) : List Nat :=
  ((s.flows.map (·.e)).eraseDups).filter fun e =>
    let q := egqBase + e
    portOf s e == p && (pathOf s e).all (entEn s) && decide (backlogBytes s q < fld (qprofW s q 3) 0 24) &&
      !pausedOn s p (queueClass s q)

/-- The credit scheduler grants to a flow of one credit-eligible queue of port `p` (R368). -/
def credGrant (p : Nat) (s : State) : State :=
  let qs := credQueues s p
  let lv := levels s (fun _ => true) qs
  let pick := fun n kids => (pickPass s 2 n kids).map fun (c, k) => (2, c, k)
  match descend s pick 4 (port0 + p) lv with
  | none => s
  | some hops =>
    match hops.getLast? with
    | none => s
    | some (_, _, e, _) =>
      let slots := (s.flows.filter fun f => f.e == e).map (·.slot)
      match firstFrom (s.hn (.flowPtr e)) slots with
      | none => s
      | some i =>
        match s.flows.find? fun f => f.slot == i with
        | none => s
        | some f =>
          let elig := lv.flatten
          let s := forEach hops s fun (n, x, c, k) s => chargeChild x n c k 8192 (chosen x n c k elig.contains s)
          let s := s.setH (.flowPtr e) (i + 1 : Nat)
          let s := s.setH (.pacer p) (s.h (.pacer p) - 8192 * 65536)
          credSend f.src (grantMsg f.voq e) (bump Reg.QMGR.GRANT_TX (bump (Reg.SCHED.GRANTS p) s))

/-- CREDIT_PACER_GRANT (R368): the pacer of port `p`, which is UP with `TX_EN` = 1 (R367), allows a grant. -/
def execCreditPacerGrant (p : Fin 128) (s : State) : Host.Outcome State Fault Refusal :=
  done (s.when (s.live schedPage && s.live qmgrPage && linkState s p == 5 && s.rbit (Reg.LPORT.MAC_CFG p) 16)
    fun s =>
      let s := pacerWait p s
      if s.h (.pacer p) < -(8192 * 65536 : Int) then s else credGrant p s)

/-- STATUS_REPEAT (R365): VOQ `q`, in request, repeats its STATUS `STATUS_IVL` µs after the last one. -/
def execStatusRepeat (q : Fin 262144) (s : State) : Host.Outcome State Fault Refusal :=
  done (s.ifLive qmgrPage fun s =>
    if s.hb (.inReq q) then sendStatus q (waitSince qmgrPage (.statusAt q) (cycUs (s.reg Reg.QMGR.STATUS_IVL)) s) else s)

/-! ### VOQ service (R363, R364) -/

/-- VOQ-side engine `e` may start the head frame of VOQ `q` (R363, R365, R408). -/
def voqReady (s : State) (q : Nat) : Bool :=
  decide (0 < s.h (.cb q)) && (voqReach s q).isSome && match s.firstAt (.queued q) with
    | some f => headReady f
    | none => false

/-- The VOQ that engine `e` serves: highest class, then round robin (R364). -/
def voqPick (s : State) (e : Nat) : Option Nat :=
  let qs := (usedQueues s).filter fun q => isVoq q && q % 10 == e && voqReady s q
  (List.range 8).reverse.findSome? fun c => firstFrom (s.hn (.voqPtr e c)) (qs.filter fun q => queueClass s q == c)

/-- VOQ `q` starts its head frame towards the fabric (R118, R343, R363). -/
def voqStart (q : Nat) (f : Frame) (s : State) : State :=
  match ageCheck q Reg.CELL.AGED_DEQ_G f s with
  | (true, s) => queueLeft q s
  | (false, s) =>
    match voqDest s q with
    | none => s
    | some (d, e) =>
      let s := s.setH (.voqPtr (q % 10) (queueClass s q)) (q + 1 : Nat)
      if f.whole && f.bad && !f.cut then
        let s := s.drop f
        queueLeft q (match f.inPort with
          | some n => bump (Reg.LPORT.RX_BADTAIL_DISC n) s
          | none => s)
      else
        let s := s.setH (.cb q) (s.h (.cb q) - f.heldLen)
        let s := pfeSent f (bump Reg.QMGR.DEQ_VOQ s)
        queueLeft q (leaveQueue q { f with ctx := 8 * d + queueClass s q + 1, dq := e, sent := 0, paid := f.heldLen, started := true } s)

/-- VOQ-side engine `e` starts a frame; `ue`: the buffer cell of it that is read with an uncorrectable error (R312, R363). -/
def voqServe (e : Nat) (ue : Option (Fin 64)) (s : State) : State :=
  match voqPick s e with
  | none => s
  | some q =>
    match s.firstAt (.queued q) with
    | some f => if ue = some 0 then queueLeft q (cellUe qmgrPage q 0 f.id false s) else ueAt qmgrPage q ue f (voqStart q f s)
    | none => s

/-- VOQ_FRAME_START (R363): of VOQ-side engine `e`. -/
def execVoqFrameStart (e : Fin 10) (ue : Option (Fin 64)) (s : State) : Host.Outcome State Fault Refusal :=
  done (s.when (s.live qmgrPage && s.live cellPage && !s.hb (.stuck (16 + e))) fun s =>
    voqServe e ue (retStall (fun q => isVoq q && q % 10 == e) s))

/-! ### Tables and registers of the QMGR and SCHED pages (R357 to R359, R371, R387 to R389) -/

/-- WRITE of a queue profile (R358, R359). -/
def qprofWrite (w : Win) (s : State) : TblRes :=
  let e := (cutWords w.data 4) &&& ofWords [0xF80000FF, 0x1FFFFF, 0x3FFFFFFF, 0xFFFFFFFF]
  let old := s.tab qmgrPage 1 w.idx
  let keep := fun x => (fld x 27 2, fld x 0 8)
  if fld e 27 2 = 3 ∨ 2000000 < word e 1 ∨ 1000000000 < word e 2 then w.fail 0x10 s
  else if keep e ≠ keep old ∧ queueBusy s (fun q => queueProf s q == w.idx) then w.fail 0x11 s
  else Win.ok none (s.setTab qmgrPage 1 w.idx e)

/-- WRITE of a SYSQ entry (R357, R359). -/
def sysqWrite (w : Win) (s : State) : TblRes :=
  let e := (cutWords w.data 1) &&& 0xFF01FFFF
  let old := s.tab qmgrPage 2 w.idx
  if 131071 < fld e 0 17 + 7 then w.fail 0x10 s
  else if fld e 24 7 ≠ fld old 24 7 ∧ queueBusy s (fun q => isVoq q && q / 8 == w.idx) then w.fail 0x11 s
  else
    Win.ok none (reachGained s (s.setTab qmgrPage 2 w.idx e))

/-- The entry of table VOQ_STS (R388). -/
def voqSts (s : State) (q : Nat) : Nat := ofWords [unsgn (s.h (.cb q)) 32, backlog s q, ofB (s.hb (.inReq q)) * 2 ^ 31]

/-- The entry of table CFLOW (R388). -/
def cflowEntry (s : State) (i : Nat) : Nat :=
  match s.flows.find? fun f => f.slot == i with
  | none => 0
  | some f => ofWords [2 ^ 31 + f.src, f.voq, f.e, min 0xFFFF ((s.root - f.since) / 7200)]

/-- The table commands of the QMGR page (R388). -/
def qmgrTable (op : Nat) (w : Win) (s : State) : TblRes :=
  match w.sel, op with
  | 1, 1 => w.read 1024 4 s
  | 1, 2 => if w.idx < 1024 then qprofWrite w s else w.fail 0x04 s
  | 2, 1 => w.read 32768 1 s
  | 2, 2 => if w.idx < 32768 then sysqWrite w s else w.fail 0x04 s
  | 3, 1 => if w.idx < 262144 then Win.ok (some (voqSts s w.idx)) s else w.fail 0x04 s
  | 4, 1 => if w.idx < 262144 then Win.ok (some (cflowEntry s w.idx)) s else w.fail 0x04 s
  | _, _ => w.fail 0x03 s

/-- Entries of the tables of the SCHED page (R370, R389). -/
def schedSize : Nat → Nat
  | 1 => 131072 | 2 => 32768 | 3 => 16384 | 4 => 4096 | _ => 136

/-- Entities of the level above (R370). -/
def schedAbove : Nat → Nat
  | 1 => 32768 | 2 => 16384 | 3 => 4096 | _ => 136

/-- WRITE of a hierarchy entry (R359, R371). -/
def schedWrite (w : Win) (s : State) : TblRes :=
  if w.sel = 5 then Win.ok none (s.setTab schedPage 5 w.idx (fld w.data 31 1 * 2 ^ 31))
  else
    let e := if w.sel = 1 then (cutWords w.data 2) &&& ofWords [0xFFFF7FFF, 0x3FF] else (cutWords w.data 1) &&& 0xFFFF7FFF
    let old := s.tab schedPage w.sel w.idx
    if fld e 16 12 = 0 ∨ schedAbove w.sel ≤ fld e 0 15 then w.fail 0x10 s
    else if fld e 0 15 ≠ fld old 0 15 ∧ bit old 31 then w.fail 0x11 s
    else if w.sel = 1 ∧ word e 1 ≠ word old 1 ∧ queueBusy s (fun q => q == egqBase + w.idx) then w.fail 0x11 s
    else Win.ok none (s.setTab schedPage w.sel w.idx e)

/-- The table commands of the SCHED page (R389). -/
def schedTable (op : Nat) (w : Win) (s : State) : TblRes :=
  if w.sel = 0 ∨ 5 < w.sel ∨ (op ≠ 1 ∧ op ≠ 2) then w.fail 0x03 s
  else if schedSize w.sel ≤ w.idx then w.fail 0x04 s
  else if op = 1 then w.read (schedSize w.sel) (if w.sel = 1 then 2 else 1) s else schedWrite w s

/-- Writes of the QMGR and SCHED registers that are checked (R387, R389). -/
def queueReg (r : Req) (a v : Nat) (s : State) : Option State :=
  let range := fun (p w lo hi : Nat) =>
    let x := v % 2 ^ w
    if x < lo ∨ hi < x then errReq p 0x10 r a v s else s.setReg a x
  if a = Reg.QMGR.STATUS_IVL ∨ a = Reg.QMGR.FLOW_TIMEOUT then some (range qmgrPage 16 1 65535)
  else if a = Reg.QMGR.CB_MAX then some (range qmgrPage 20 8192 (2 ^ 20))
  else if Reg.QMGR.RQ_BASE 0 ≤ a ∧ a ≤ Reg.QMGR.RQ_BASE 7 then some (range qmgrPage 17 0 131064)
  else if a = Reg.SCHED.CRED_SPEED then some (range schedPage 8 100 150)
  else none

end Sys2Proof.Machine
end

