-- ==== Sys2Proof/Machine/Capo.lean ====
section
/-!
DEFINITION. The generation cycle (spec/07_table_generations.md, R285 to R297): flips, the drain of the old parity and the
sweep. The state, the parity, the counts and the timers are held in AON (R287), so the drain goes on while the CAPO page is
off or disabled.
-/
namespace Sys2Proof.Machine

/-- A write of a command register of a disabled CAPO page is refused and counted with code 0x08 (R289). -/
def capoCmd (r : Req) (a v : Nat) (off : State → State) (f : State → State) (s : State) : State :=
  if s.rbit (Reg.BLK_CTL capoPage) 0 then f s else off (errReq capoPage 0x08 r a v s)

/-- A write of `FLIP_CMD` (R288, R289). -/
def flipCmd (r : Req) (v : Nat) (s : State) : State :=
  let a := Reg.CAPO.FLIP_CMD
  if !bit v 0 then s else
  capoCmd r a v (bump Reg.CAPO.FLIPS_REFUSED) (fun s =>
    if s.h .capoState = 0 ∧ s.hb .flipPending = false then (s.setH .capoState 2).setHb .flipPending true
    else bump Reg.CAPO.FLIPS_REFUSED (errReq capoPage 0x10 r a v s)) s

/-- FLIP_CMD (R289). -/
def execFlipCmd (r : Req) (v : W32) (s : State) : Host.Outcome State Fault Refusal :=
  done (gateWrite r Reg.CAPO.FLIP_CMD (flipCmd r v.toNat) s)

/-- FLIP_TIME in units of 2^-48 ns (R306). -/
def flipTime (s : State) : Nat :=
  (s.reg Reg.CAPO.FLIP_SEC_HI * 2 ^ 32 + s.reg Reg.CAPO.FLIP_SEC_LO) * unitsSec + s.reg Reg.CAPO.FLIP_NS * unitsNs

/-- A write of `FLIP_ARM` (R290). -/
def flipArm (r : Req) (v : Nat) (s : State) : State :=
  let a := Reg.CAPO.FLIP_ARM
  let refuse := errReq capoPage 0x11 r a v
  if fld v 0 2 = 0 then s else
  capoCmd r a v id (fun s =>
    if fld v 0 2 = 3 then refuse s
    else if bit v 0 then
      if s.h .capoState = 0 ∧ s.hb .flipPending = false ∧ s.reg Reg.CAPO.FLIP_NS ≤ 999999999 ∧
          s.tb + 1000 * unitsNs ≤ flipTime s then s.setH .capoState 1
      else refuse s
    else if s.h .capoState = 1 then s.setH .capoState 0
    else refuse s) s

/-- FLIP_ARM (R290). -/
def execFlipArm (r : Req) (v : W32) (s : State) : Host.Outcome State Fault Refusal :=
  done (gateWrite r Reg.CAPO.FLIP_ARM (flipArm r v.toNat) s)

/-- FLIP_DISARM (R290): a write of `FLIP_ARM` that cancels the timed flip. -/
def execFlipDisarm (r : Req) (v : W32) (s : State) : Host.Outcome State Fault Refusal :=
  done (gateWrite r Reg.CAPO.FLIP_ARM (flipArm r v.toNat) s)

/-- FLIP_TIME_REACHED (R68, R288): the armed flip starts at the first tick at which the time base equals or exceeds
FLIP_TIME. -/
def execFlipTimeReached (s : State) : Host.Outcome State Fault Refusal :=
  done (s.when (s.live capoPage && s.h .capoState == 1)
    (atInstant (flipTime s) fun s => (s.setH .capoState 2).setHb .flipPending true))

/-- A flip applies (R288): every pipeline takes the new parity, and no bank is an empty bank any more (R178). -/
def flipApply (s : State) : State :=
  let s := (s.setH .capoParity (oldParity s : Nat)).setHb .flipPending false
  let s := s.setH .capoEver (s.h .capoEver + 1)
  let s := forEach (List.range 8) s fun g s => (s.setHb (.emptyBank g 0) false).setHb (.emptyBank g 1) false
  let s := ((s.setReg Reg.CAPO.LAST_FLIP_NS (nsOf s.tb)).setReg Reg.CAPO.LAST_FLIP_SEC (secOf s.tb % 2 ^ 32)).setH .flipAt
    (s.root : Nat)
  let s := s.setH .ageMax (s.reg Reg.CELL.AGE_LIMIT : Nat)
  raise capoPage 0 (bump Reg.CAPO.FLIPS s)

/-- FLIP_APPLY (R288). -/
def execFlipApply (s : State) : Host.Outcome State Fault Refusal :=
  done (s.when (s.clocked capoPage && s.hb .flipPending) flipApply)

/-- IN_FLIGHT_ZERO (R286): the old parity's count has reached 0. -/
def execInFlightZero (s : State) : Host.Outcome State Fault Refusal :=
  done (s.when (s.pllOk && s.h .capoState == 2 && !s.hb .flipPending && s.h (.inFlight (oldParity s)) == 0) fun s =>
    (s.setH .capoState 3).setH .settleAt (s.root + cycUs (s.reg Reg.CAPO.SETTLE) : Nat))

/-- The end of a drain (R291): counted, DRAIN_DONE, and the sweep starts. -/
def drainEnd (s : State) : State :=
  let o := oldParity s
  let s := s.setH (.drainCnt o) ((s.h (.drainCnt o) + 1) % 2 ^ 32)
  raise capoPage 1 ((s.setH .capoState 4).setH .sweepDone 0)

/-- SETTLE_EXPIRE (R291): the hold of `SETTLE` µs from the entry into SETTLING passes, on the timer in AON, which a loss of the
page's registers leaves unchanged (R287). -/
def execSettleExpire (s : State) : Host.Outcome State Fault Refusal :=
  done (s.when (s.pllOk && s.h .capoState == 3) fun s =>
    drainEnd (waitRoot (s.hn .settleAt) s))

/-- DRAIN_TIMEOUT (R293, R345): the greatest global age limit since the flip has elapsed, on the timer in AON (R287). -/
def execDrainTimeout (s : State) : Host.Outcome State Fault Refusal :=
  done (s.when (s.pllOk && (s.h .capoState == 2 || s.h .capoState == 3) && !s.hb .flipPending && !s.hb .capoTimeout)
    fun s =>
      let s := waitRoot (s.hn .flipAt + cycUs (s.hn .ageMax)) s
      let s := raise capoPage 3 (s.setHb .capoTimeout true)
      faultRecord 14 capoPage (oldParity s) s)

/-- A write of 1 to `DRAIN_FORCE` (R294). -/
def drainForce (r : Req) (v : Nat) (s : State) : State :=
  let a := Reg.CAPO.DRAIN_FORCE
  if !bit v 0 then s else
  capoCmd r a v id (fun s =>
    if s.hb .capoTimeout ∧ (s.h .capoState = 2 ∨ s.h .capoState = 3) then
      drainEnd (bump Reg.CAPO.FORCED_DRAINS (s.setH (.inFlight (oldParity s)) 0))
    else errReq capoPage 0x13 r a v s) s

/-- DRAIN_FORCE (R294). -/
def execDrainForce (r : Req) (v : W32) (s : State) : Host.Outcome State Fault Refusal :=
  done (gateWrite r Reg.CAPO.DRAIN_FORCE (drainForce r v.toNat) s)

/-! ### The sweep (R297) -/

/-- The lowest bit of VIS in an entry of table `sel` of page `p`; none for a table without VIS (R282). -/
def visAt (p sel : Nat) : Option Nat :=
  if p = emPage ∧ (sel = 1 ∨ sel = 2) then some 62
  else if p = l2Page ∧ 1 ≤ sel ∧ sel ≤ 8 then some 94
  else if p = adjPage ∧ (sel = 1 ∨ sel = 2) then some 30
  else if p = lpmPage ∧ sel = 1 then some 190
  else if p = tcamPage ∧ sel = 1 then some 320
  else none

/-- Store an entry of a table with VIS, with the counts that its table keeps. -/
def putVisEntry (p sel i e : Nat) (s : State) : State :=
  match hashTab p sel with
  | some t => putEntry t i e s
  | none => if p = lpmPage then putRoute i (if fld e 190 2 = 0 then 0 else e) s else s.setTab p sel i e

/-- Whether table `sel` of page `p` is swept: its page on, and its pipeline for a table of L2 (R256, R297). -/
def sweptHere (s : State) (p sel : Nat) : Bool := s.pageOn p && (p != l2Page || s.pageOn (ipipePage (sel - 1)))

/-- The conversion of one entry from visibility `v` (R297): Po only is deleted, Pc only becomes visible in both. -/
def sweepEntry (p sel i b v : Nat) (s : State) : State :=
  let e := s.tab p sel i
  let s' := s.setH .sweepDone (s.h .sweepDone + 1)
  if v = 2 ^ oldParity s then bump Reg.CAPO.SWEPT_DEL (putVisEntry p sel i (setFld e b 2 0) s')
  else if v = 2 ^ (1 - oldParity s) then bump Reg.CAPO.SWEPT_BOTH (putVisEntry p sel i (setFld e b 2 3) s')
  else s

/-- The entry of a hash table that shares the key of entry `i` and is visible in Po only (R229). -/
def sweepTwin (s : State) (p sel i b : Nat) : Option Nat :=
  (hashTab p sel).bind fun t =>
    ((sameKey s t (entKey t (s.tab p sel i)) i).find? fun x => fld x.2 b 2 == 2 ^ oldParity s).map (·.1)

/-- The sweep agent comes to one entry (R297). The Po-only entry that shares the key of a Pc-only one is deleted before it, so
that the two never share a bit of VIS (R229). Routes are the route agent's to convert, engine 0. -/
def sweepOne (p sel i : Nat) (s : State) : State :=
  match visAt p sel with
  | none => s
  | some b =>
    let v := fld (s.tab p sel i) b 2
    if (p = adjPage ∧ sel = 1 ∧ i = 0) ∨ (p = tcamPage ∧ headSlice s (i / 2048) ≠ i / 2048) ∨
        (p = lpmPage ∧ !engUp s 0) then s
    else if v = 2 ^ (1 - oldParity s) then
      sweepEntry p sel i b v (match sweepTwin s p sel i b with
        | some j => sweepEntry p sel j b (2 ^ oldParity s) s
        | none => s)
    else sweepEntry p sel i b v s

/-- Whether the sweep agent works: SWEEPING, and its page performs its function (R287, R289). -/
def sweeping (s : State) : Bool := s.live capoPage && s.h .capoState == 4 && engUp s 2

/-- SWEEP_CONVERSION (R297). -/
def execSweepConversion (p : Fin 8192) (sel : Fin 256) (i : Nat) (s : State) : Host.Outcome State Fault Refusal :=
  done (s.when (sweeping s && sweptHere s p sel) (sweepOne p sel (i % 2 ^ 32)))

/-- The tables that the sweep visits (R282). -/
def sweptTables : List (Nat × Nat) :=
  [(emPage, 1), (emPage, 2), (adjPage, 1), (adjPage, 2), (lpmPage, 1), (tcamPage, 1)] ++
    (List.range 8).map fun g => (l2Page, 1 + g)

/-- The bank bit of the index of a banked table: PARSE_NODE and KSEL 256 entries a bank, the others 2,048 (R213, R215). -/
def bankSize (p sel : Nat) : Nat := if p = tcamPage ∨ sel = 1 then 256 else 2048

/-- Copy bank `b` of a banked table into the other one. -/
def copyBank (p sel b : Nat) (s : State) : State :=
  let n := bankSize p sel
  let src := (s.tabList p sel).filter fun e => e.1 / n == b
  let s := forEach ((s.tabList p sel).filter fun e => e.1 / n == 1 - b) s fun e s => s.setTab p sel e.1 0
  forEach src s fun e s => s.setTab p sel ((1 - b) * n + e.1 % n) e.2

/-- The parse tables of every powered pipeline and KSEL are copied from the bank of Pc into that of Po (R297). -/
def copyBanks (s : State) : State :=
  let b := s.hn .capoParity
  let s := forEach (List.range 8) s fun g s =>
    if s.pageOn (ipipePage g) then forEach [1, 2, 3] s fun sel s => copyBank (ipipePage g) sel b s else s
  if s.pageOn tcamPage then copyBank tcamPage 2 b s else s

/-- The sweep finishes (R297): every entry still to be visited is converted, the banks are copied, and the state is READY. -/
def sweepFinish (s : State) : State :=
  let s := forEach sweptTables s fun t s =>
    if sweptHere s t.1 t.2 then forEach (s.tabList t.1 t.2) s fun e s => sweepOne t.1 t.2 e.1 s else s
  let s := copyBanks s
  raise capoPage 2 ((s.setH .capoState 0).setHb .capoTimeout false)

/-- Entries of a table that the sweep has still to convert. -/
def sweepLeft (s : State) (p sel : Nat) : Nat :=
  match visAt p sel with
  | some b => if sweptHere s p sel then ((s.tabList p sel).filter fun e =>
      (p != tcamPage || headSlice s (e.1 / 2048) == e.1 / 2048) && (fld e.2 b 2 == 1 || fld e.2 b 2 == 2)).length else 0
  | none => 0

/-- SWEEP_COMPLETE (R297): not while routes wait for the route agent, engine 0. -/
def execSweepComplete (s : State) : Host.Outcome State Fault Refusal :=
  done (s.when (sweeping s && (engUp s 0 || sweepLeft s lpmPage 1 == 0)) sweepFinish)

/-- The state returns from ARMED to READY when its page is switched off, disabled or reset (R287, R289). -/
def capoDisarm (s : State) : State := if s.h .capoState = 1 then s.setH .capoState 0 else s

/-- `SWEEP_PROG` as read (R306): the share of the entries to convert that the running sweep has converted; 100 when none
is running. -/
def sweepProg (s : State) : Nat :=
  if s.h .capoState ≠ 4 then 100 else
  let left := sweptTables.foldl (fun n t => n + sweepLeft s t.1 t.2) 0
  let total := s.hn .sweepDone + left
  if total = 0 then 0 else s.hn .sweepDone * 100 / total

/-- `CAPO.STS` as read (R307). -/
def capoSts (s : State) : Nat := ofB (s.hb .capoTimeout) * 256 + s.hn .capoParity * 16 + s.hn .capoState

end Sys2Proof.Machine
end

