-- ==== Sys2Proof/Machine/Pipeline.lean ====
section
/-!
DEFINITION. The ingress and egress pipelines: one frame's pass through IPIPE[g] (R132, R176 to R194, R209 to R225, R242 to
R251, R265 to R267), policing (R382 to R386), and its pass through EPIPE[g] (R268 to R274).
-/
namespace Sys2Proof.Machine

/-! ### Policing (R383 to R386) -/

/-- A policer's tokens brought up to the time base, in 2^-16 byte: committed, and peak or excess (R384). -/
def polTokens (s : State) (i : Nat) : Nat × Nat :=
  let e := s.tab polPage 1 i
  let cap := fun j => fld (word e j) 0 24 * 65536
  let dt := s.tb - s.hn (.polLast i)
  let add := fun j => fld (word e j) 0 31 * dt / (8000000 * 2 ^ 32)
  let tc := s.hn (.polTc i) + add 1
  let te := s.hn (.polTe i)
  match fld e 30 2 with
  | 1 => (min tc (cap 2), min (te + (tc - cap 2)) (cap 4))
  | _ => (min tc (cap 2), min (te + add 3) (cap 4))

/-- One use of policer `i` by a frame of length `len` and pre-colour `pre`: its colour and the policer after (R384). -/
def polUse (i len pre : Nat) (s : State) : Nat × State :=
  let e := s.tab polPage 1 i
  let (tc, te) := polTokens s i
  let b := max 1 ((len : Int) + sgn e 7) |>.toNat
  let b := b * 65536
  let pre := if bit e 29 then pre else 0
  let (col, tc, te) :=
    if fld e 30 2 = 2 then
      if pre = 2 ∨ te < b then (2, tc, te)
      else if pre = 1 ∨ tc < b then (1, tc, te - b)
      else (0, tc - b, te - b)
    else if pre = 0 ∧ b ≤ tc then (0, tc - b, te)
    else if pre ≠ 2 ∧ b ≤ te then (1, tc, te - b)
    else (2, tc, te)
  (col, ((s.setH (.polTc i) tc).setH (.polTe i) te).setH (.polLast i) s.tb)

/-- A frame is policed by policer `i` (R384, R385): its colour, and whether it goes to the null queue. -/
def police (i len pre : Nat) (s : State) : Nat × Bool × State :=
  let e := s.tab polPage 1 i
  if fld e 30 2 = 0 then (pre, false, s) else
  let (col, s) := polUse i len pre s
  let s := bump (match col with | 0 => Reg.POL.GREEN | 1 => Reg.POL.YELLOW | _ => Reg.POL.RED) s
  let s := fsCount (3 * i + col) len s
  if col = 2 ∧ bit e 28 then (col, true, bump Reg.POL.RED_DROP s) else (col, false, s)

/-! ### Forwarding (R218 to R225) -/

/-- The forwarding result of a frame in one pass. -/
structure Fwd where
  /-- 1 + the disabled page at which the frame was discarded (R45); 0 none. -/
  off : Nat := 0
  discard : Bool := false
  punt : Option Nat := none
  adj : Nat := 0
  dst : Nat := 0
  dev : Nat := 0
  cls : Nat := 0
  colour : Nat := 0
  l3if : Nat := 0
  vrf : Nat := 0
  mplsOp : Nat := 0
  outLabel : Nat := 0
  noRw : Bool := false
  rpipe : Option Nat := none
  vrfOvr : Option Nat := none
  deriving DecidableEq, Repr

/-- A stage that needs a table of page `p`: the frame is discarded there while the page performs no function (R45). -/
def needPage (p : Nat) (k : State → Fwd × State) (s : State) (w : Fwd) : Fwd × State :=
  if s.live p then k s else ({ w with off := p + 1 }, s)

/-- A lookup of pipeline `g` read an entry that fails its parity (R262): counted, its position held in its page. -/
def parMiss (g reg v : Nat) (s : State) : State :=
  raiseFirst (ipipePage g) 2 (bump (Reg.IPIPE.PAR_MISS g) (s.setReg reg v))

/-- Parity bookkeeping of a hash lookup (R262). -/
def hashPar (g : Nat) (t : HTab) (k : Nat) (s : State) : State :=
  match hashBad s t k with
  | none => s
  | some pos =>
    match t with
    | .mpls => parMiss g Reg.EM.PAR_ERR_LKP pos s
    | .ift => parMiss g Reg.EM.PAR_ERR_LKP (2 ^ 31 + pos) s
    | .l2 h => parMiss g Reg.L2.PAR_ERR_LKP (h * 2 ^ 24 + pos) s

/-- The frame takes adjacency 0, the fixed DROP (R225): its final adjacency is counted (R569). -/
def adjZero (g len : Nat) (w : Fwd) (s : State) : Fwd × State :=
  let s := fsCount 1572864 len (bump (Reg.IPIPE.ADJ_DROP g) s)
  ({ w with adj := 0, discard := true }, s)

/-- A read of an entry of the ADJ page that fails its parity (R262). -/
def adjPar (g sel i : Nat) (s : State) : State := parMiss g Reg.ADJ.PAR_ERR_LKP (sel * 2 ^ 28 + i) s

/-- Adjacency `i` is resolved for parity `p` (R247 to R249, R262, R300). A bridged frame takes no rewrite. -/
def resolveAdj (g p i len : Nat) (w : Fwd) (s : State) : Fwd × State :=
  let e := s.tab adjPage 1 i
  if i = 0 then adjZero g len w s
  else if parBad s adjPage 1 i then adjZero g len w (adjPar g 1 i s)
  else if !bit (fld e 30 2) p then adjZero g len w (bump Reg.CAPO.INVIS_REF s)
  else
    let w := { w with adj := i }
    let dst := fld e 0 15
    let final := fun (w : Fwd) (s : State) => (w, fsCount (1572864 + i) len s)
    match fld e 27 3 with
    | 1 =>
      let m := s.tab adjPage 4 dst
      if parBad s adjPage 4 dst then adjZero g len w (adjPar g 4 dst s)
      else if !bit m 31 then adjZero g len w s
      else final { w with dst := dst, dev := fld m 0 12 } s
    | 2 => final { w with punt := some (fld (word e 1) 0 8) } s
    | 3 => final { w with rpipe := some (fld (word e 1) 8 3) } s
    | _ => final { w with discard := true } (bump (Reg.IPIPE.ADJ_DROP g) s)

/-- Adjacency `i` is resolved for a miss adjacency that no generation-banked entry names (R221, R243): one that the parity
does not see is adjacency 0 and no reference of R300. -/
def resolveMiss (g p i len : Nat) (w : Fwd) (s : State) : Fwd × State :=
  if i ≠ 0 ∧ parBad s adjPage 1 i = false ∧ bit (fld (s.tab adjPage 1 i) 30 2) p = false then adjZero g len w s
  else resolveAdj g p i len w s

/-- Bytes of the hashed fields that `FIELDS` selects (R245). -/
def ecmpBytes (s : State) (r : Parse) (sysPort : Nat) : List Byte :=
  let fs := s.rfld Reg.ADJ.ECMP_CFG 0 8
  let four := fun i => beBytes 4 (r.slot i)
  (if bit fs 0 then [11, 12, 13, 14].flatMap four else []) ++ (if bit fs 1 then [15, 16, 17, 18].flatMap four else []) ++
    (if bit fs 2 then beBytes 1 (fld (r.slot 10) 16 8) else []) ++ (if bit fs 3 then four 19 else []) ++
    (if bit fs 4 then beBytes 4 (fld (r.slot 20) 12 20) else []) ++
    (if bit fs 5 then [6, 7, 8, 9].flatMap fun i => beBytes 4 (fld (r.slot i) 12 20) else []) ++
    (if bit fs 6 then [0, 1, 2].flatMap four else []) ++ (if bit fs 7 then beBytes 2 sysPort else [])

/-- A next hop, an adjacency or an ECMP group, is resolved (R244 to R246, R300). -/
def resolveNext (g p : Nat) (r : Parse) (sysPort len next : Nat) (w : Fwd) (s : State) : Fwd × State :=
  if !bit next 20 then resolveAdj g p (fld next 0 20) len w s else
  let grp := fld next 0 16
  let e := s.tab adjPage 2 grp
  if parBad s adjPage 2 grp then adjZero g len w (adjPar g 2 grp s)
  else if !bit (fld e 30 2) p then
    let s := bump Reg.CAPO.INVIS_REF (bump (Reg.IPIPE.ECMP_INVALID g) s)
    adjZero g len w s
  else
    let h := crc32 (s.reg Reg.ADJ.ECMP_SEED) (ecmpBytes s r sysPort)
    let h16 := (h / 65536) ^^^ (h % 65536)
    let m := fld e 0 18 + h16 * fld e 20 9 / 65536
    if parBad s adjPage 3 m then adjZero g len w (adjPar g 3 m s)
    else resolveAdj g p (fld (s.tab adjPage 3 m) 0 20) len w s

/-- The TTL check of R223, in modes ROUTE and MPLS: whether the result is replaced. -/
def ttlExpired (g ttl : Nat) (ift : Nat) (w : Fwd) (s : State) : Option (Fwd × State) :=
  if 1 < ttl then none
  else
    let s := bump (Reg.IPIPE.TTL_EXP g) s
    some (if bit (word ift 1) 24 then { w with punt := some 0xF0 } else { w with discard := true }, s)

/-- The class and colour of a QMAP entry (R224, R237). -/
def withQmap (s : State) (ift kind cp : Nat) (w : Fwd) : Fwd :=
  let q := s.tab emPage 3 (256 * fld (word ift 1) 20 4 + 64 * kind + cp)
  { w with cls := fld q 2 3, colour := fld q 0 2 }

/-- The destination address of slots 0 and 1, and the source address of slots 1 and 2. -/
def dmacOf (r : Parse) : Nat := r.slot 0 * 65536 + fld (r.slot 1) 16 16
def smacOf (r : Parse) : Nat := fld (r.slot 1) 0 16 * 2 ^ 32 + r.slot 2

/-- Mode BRIDGE (R221, R222, R251). -/
def fwdBridge (g p : Nat) (f : Frame) (r : Parse) (ift : Nat) (w : Fwd) (s : State) : Fwd × State :=
  let bd := fld (word ift 1) 0 14
  let w := { withQmap s ift 2 (fld (r.slot 3) 12 4) w with noRw := true }
  let s := bump (Reg.IPIPE.FWD_BRIDGE g) s
  needPage l2Page (fun s =>
    let key := bd * 2 ^ 48 + dmacOf r
    let s := hashPar g (.l2 g) key s
    let hit := hashFind s (.l2 g) key p
    let learn := fld (word ift 1) 25 2
    let src := f.srcSys
    let s := if f.passes = 0 ∧ learn ≠ 0 then
        let skey := bd * 2 ^ 48 + smacOf r
        sourceLookup g p learn (smacOf r) bd src (hashPar g (.l2 g) skey s)
      else s
    needPage adjPage (fun s =>
      match hit with
      | some pos =>
        let dst := l2Port (s.tab l2Page (1 + g) pos)
        let m := s.tab adjPage 4 dst
        let w := { w with dst := dst }
        if dst = src then ({ w with discard := true }, bump (Reg.IPIPE.L2_HAIRPIN g) s)
        else if parBad s adjPage 4 dst then adjZero g f.len w (adjPar g 4 dst s)
        else if !bit m 31 then ({ w with discard := true }, bump (Reg.IPIPE.L2_NOPORT g) s)
        else ({ w with dev := fld m 0 12 }, s)
      | none => resolveAdj g p (fld (word ift 3) 0 20) f.len w (bump (Reg.IPIPE.L2_DMISS g) s)) s w) s w

/-- The VRF entry that a lookup reads (R243). One that fails its parity is counted, and what is read of it is a free value
(R262, notes/assumptions/88.md). -/
def vrfRead (g vrf : Nat) (s : State) : Nat × State :=
  if parBad s lpmPage 2 vrf then
    let (x, s) := (parMiss g Reg.LPM.PAR_ERR_LKP vrf s).free
    (x % 2 ^ 32, s)
  else (s.tab lpmPage 2 vrf, s)

/-- Mode ROUTE (R221, R242, R262): `node` is the failing trie node that the lookup reads, if any; the route that it finds may
be marked as failing itself. -/
def fwdRoute (g p : Nat) (f : Frame) (r : Parse) (ift : Nat) (node : Option Nat) (w : Fwd) (s : State) : Fwd × State :=
  let vrf := f.vrfOvr.getD (fld (word ift 2) 0 16)
  let w := { withQmap s ift 0 (fld (r.slot 10) 26 6) w with vrf := vrf }
  let s := bump (Reg.IPIPE.FWD_ROUTE g) s
  needPage lpmPage (fun s =>
    let v6 := fld (r.slot 5) 16 16 == 0x86DD
    let addr := if v6 then ((r.slot 11 * 2 ^ 32 + r.slot 12) * 2 ^ 32 + r.slot 13) * 2 ^ 32 + r.slot 14 else r.slot 14
    let (v, s) := vrfRead g vrf s
    let hit := routeMatch s vrf v6 addr p
    let node := node.orElse fun _ => (hit.filter fun x => parBad s lpmPage 1 x.1).map (·.1)
    let miss := bit v 31 && (node.isSome || hit.isNone)
    let (next, s) :=
      if !bit v 31 then (0, s)
      else match node, hit with
        | some nd, _ => (fld v 0 20, bump (Reg.IPIPE.LPM_MISS g) (parMiss g Reg.LPM.PAR_ERR_LKP nd s))
        | none, some (_, e) => (fld (word e 5) 0 21, s)
        | none, none => (fld v 0 20, bump (Reg.IPIPE.LPM_MISS g) s)
    match ttlExpired g (fld (r.slot 10) 8 8) ift w s with
    | some x => x
    | none => needPage adjPage (fun s =>
        if miss then resolveMiss g p next f.len w s else resolveNext g p r f.srcSys f.len next w s) s w) s w

/-- Mode MPLS (R221, R234, R235). -/
def fwdMpls (g p : Nat) (f : Frame) (r : Parse) (ift : Nat) (w : Fwd) (s : State) : Fwd × State :=
  let w := withQmap s ift 1 (fld (r.slot 6) 9 3) w
  let s := bump (Reg.IPIPE.FWD_MPLS g) s
  let key := fld (r.slot 6) 12 20
  let s := hashPar g .mpls key s
  match hashFind s .mpls key p with
  | some pos =>
    let e := s.tab emPage 1 pos
    let op := fld (word e 1) 28 2
    let w := { w with mplsOp := op + 1, outLabel := fld (word e 2) 12 20 }
    match ttlExpired g (fld (r.slot 6) 0 8) ift w s with
    | some x => x
    | none =>
      if op = 2 then
        ({ w with rpipe := some g, vrfOvr := if bit (word e 3) 31 then some (fld (word e 3) 0 16) else none }, s)
      else needPage adjPage (resolveNext g p r f.srcSys f.len (fld (word e 1) 0 21) w) s w
  | none =>
    let s := bump (Reg.IPIPE.MPLS_MISS g) s
    match ttlExpired g (fld (r.slot 6) 0 8) ift w s with
    | some x => x
    | none => needPage adjPage (resolveMiss g p (fld (s.reg Reg.EM.MPLS_MISS_ADJ) 0 20) f.len w) s w

/-- The router-MAC test of R220, read only where a mode depends on it. An entry that fails its parity is counted, and its
match is a free value (R262, notes/assumptions/88.md). -/
def rmacHit (g : Nat) (r : Parse) (ift : Nat) (s : State) : Bool × State :=
  let i := fld (word ift 3) 24 8
  let e := s.tab adjPage 5 i
  if parBad s adjPage 5 i then
    let (x, s) := (adjPar g 5 i s).free
    (bit x 0, s)
  else (bit (word e 1) 0 && dmacOf r == word e 0 * 65536 + fld (word e 1) 16 16, s)

/-- Interface lookup, mode and forwarding lookup (R219 to R223). -/
def forward (g p : Nat) (f : Frame) (r : Parse) (node : Option Nat) (s : State) : Fwd × State :=
  needPage emPage (fun s =>
    let key := f.port * 4096 + fld (r.slot 3) 0 12
    let s := hashPar g .ift key s
    match hashFind s .ift key p with
    | none => ({ discard := true }, bump (Reg.IPIPE.IF_MISS g) s)
    | some pos =>
      let ift := s.tab emPage 2 pos
      let w : Fwd := { l3if := fld (word ift 2) 16 16, vrf := fld (word ift 2) 0 16 }
      let et := fld (r.slot 5) 16 16
      let mpls := bit (word ift 1) 28 && et == 0x8847
      let route := bit (word ift 1) 29 && (et == 0x0800 || et == 0x86DD)
      let bridge := fun s =>
        if bit (word ift 1) 27 then fwdBridge g p f r ift w s
        else ({ w with discard := true }, bump (Reg.IPIPE.NO_FWD_MODE g) s)
      if !mpls && !route then bridge s
      else needPage adjPage (fun s =>
        let (rmac, s) := rmacHit g r ift s
        if !rmac then bridge s
        else if mpls then fwdMpls g p f r ift w s
        else fwdRoute g p f r ift node w s) s w) s {}

/-! ### One pass (R132, R209 to R210, R265 to R267, R382) -/

/-- A frame whose queue is resolved crosses the Bridge to the Q-die: to a host pool, a recirculation queue or a VOQ
(R21, R209, R265, R355). -/
def route (g : Nat) (f : Frame) (w : Fwd) (res : Resolve) (s : State) : State :=
  let k := if res.qsel = 2 then res.qoff else res.cls
  match w.punt, w.rpipe with
  | some reason, _ => bridgeTo { f with reason := some reason } .toHost s
  | none, some h =>
    if 3 ≤ f.passes then raise (ipipePage g) 1 (bump (Reg.IPIPE.RECIRC_LIMIT g) (s.drop f))
    else bridgeTo { f with rpipe := some h } (.toQ (egqBase + s.reg (Reg.QMGR.RQ_BASE h) + k)) s
  | none, none => bridgeTo f (.toQ (8 * w.dst + k)) s

/-- Classification, queue resolution and policing of a forwarded frame (R194 to R210, R382). -/
def classify (g p portCls : Nat) (f : Frame) (r : Parse) (w : Fwd) (s : State) : State :=
  let m : Meta := { sysPort := f.srcSys, portIdx := f.port, portCls := portCls, parse := r, l3if := w.l3if, vrf := w.vrf, cls := w.cls, colour := w.colour, discard := w.discard, punt := w.punt.isSome, dstSys := w.dst, adj := w.adj, dev := w.dev, len := f.len % 2 ^ 14 }
  let ks := kselOf s p portCls r.ptype
  if (kselEn ks 0 || kselEn ks 1) && !s.live tcamPage then dropDisabled tcamPage f s else
  let step := fun l (a : Resolve × Nat × State) => if kselEn ks l then classify1 m p l (kselProf ks l) f.len a else a
  let (res, multi, s) := step 1 (step 0 ({ cls := w.cls, colour := w.colour }, 0, s))
  let f := { f with
    cls := res.cls, colour := res.colour, qoff := if res.qsel = 2 then res.qoff else 0, useOff := res.qsel = 2, multi := multi, l3if := w.l3if
    vrf := w.vrf, adj := w.adj, dstSys := w.dst, dstDev := w.dev, mplsOp := w.mplsOp, outLabel := w.outLabel
    noRw := w.noRw, vrfOvr := w.vrfOvr.orElse fun _ => f.vrfOvr }
  if res.qsel = 1 then bump (Reg.IPIPE.CLS_NULL g) (s.drop f)
  else if w.discard then s.drop f
  else if f.passes ≠ 0 then route g f w res s
  else if !s.live polPage then dropDisabled polPage f s
  else
    let (col, null, s) := police (8 * w.l3if + res.cls) f.len res.colour s
    if null then s.drop f else route g { f with colour := col } w res s

/-- Whether the parse of a frame still arriving hangs on its next byte: all that it holds is its header window, and a check
reaches past it, which is SHORT or WINDOW by what follows (R191, R192). -/
def parseOpen (s : State) (g : Nat) (f : Frame) : Bool :=
  let root := fld (s.reg (Reg.IPIPE.PORT_CFG g (portSlot f.port))) 0 8
  let p := f.parity.getD (s.hn .capoParity)
  !f.full && decide (f.bytes.length ≤ 256) && (parseFrame s g p root f true).code != (parseFrame s g p root f false).code

/-- One frame passes IPIPE[g] (R132, R193, R218). -/
def ipipePass (g : Nat) (node : Option Nat) (f : Frame) (s : State) : State :=
  let slot := portSlot f.port
  let cfg := s.reg (Reg.IPIPE.PORT_CFG g slot)
  let p := f.parity.getD 0
  let r := parseFrame s g p (fld cfg 0 8) f true
  let s := if r.frag then bump (Reg.IPIPE.FRAG_CNT g) s else s
  let s := if r.code = 0 then bump (Reg.IPIPE.PARSE_OK g) s
    else raiseFirst (ipipePage g) 0 (bump (Reg.IPIPE.PARSE_FAIL g (r.code - 1)) s)
  let f := { f with fail := r.code }
  if r.code ≠ 0 ∧ fld cfg 22 2 = 0 then s.drop f
  else if r.code ≠ 0 ∧ fld cfg 22 2 = 2 then
    let f := { f with cls := 0, colour := 0, qoff := 0, useOff := false, l3if := 0, vrf := 0, adj := 0, dstSys := 0, multi := 0 }
    bridgeTo { f with reason := some 0xF1 } .toHost s
  else
    let (w, s) := forward g p f r node s
    if w.off ≠ 0 then dropDisabled (w.off - 1) f s else classify g p (fld cfg 16 4) f r w s

/-- A frame's first entry takes the parity (R283) and its ingress system port; a further pass keeps both and counts
(R266, R267). -/
def ipipeEnter (g : Nat) (f : Frame) (s : State) : Frame × State :=
  match f.parity with
  | none =>
    let f := { f with srcSys := s.reg (Reg.IPIPE.SYSPORT g (f.port % 16)) }
    let (f, s) := stampParity f s
    (f, s.putFrame f)
  | some _ =>
    let f := { f with port := 128 + g, passes := f.passes + 1, mplsOp := 0, outLabel := 0, rpipe := none, adj := 0, noRw := false, osOvr := false }
    (f, s.putFrame f)

/-- Whether the recirculation port has first call on this cycle of IPIPE[g]: `want`, as far as the share of the running span of
16 cycles leaves it open (R132). -/
def recircCall (s : State) (g : Nat) (want : Bool) : Bool :=
  let share := s.reg (Reg.LG.RECIRC_SHARE g)
  let n := s.hn (.spanCnt g)
  let r := s.hn (.spanRec g)
  if share ≤ r then false else if 16 - share ≤ n - r then true else want

/-- A cycle of the running span is used; after 16 the next span starts. -/
def spanStep (g : Nat) (call : Bool) (s : State) : State :=
  let n := s.hn (.spanCnt g) + 1
  if 16 ≤ n then (s.setH (.spanCnt g) 0).setH (.spanRec g) 0
  else (s.setH (.spanCnt g) n).setH (.spanRec g) (s.hn (.spanRec g) + ofB call : Nat)

/-- The frame that IPIPE[g] takes: from the side that has the call, else from the other (R132). -/
def ipipeNext (s : State) (g : Nat) (recirc : Bool) : Option Frame :=
  let a := s.firstAt (.entry g)
  let b := s.firstAt (.rentry g)
  if recirc then b.orElse fun _ => a else a.orElse fun _ => b

/-- The domain number of a received PTP Sync message, as the pipeline reports it (R73). -/
def syncOf (bs : List Byte) : Option Nat :=
  match ptpFind bs with
  | some (o, _) => if byteAt bs o % 16 = 0 then some (byteAt bs (o + 4)) else none
  | none => none

/-- A Sync message received on a line port is reported to the trackers (R73). -/
def syncReport (f : Frame) (s : State) : State :=
  match f.inPort, syncOf f.bytes with
  | some n, some dom => if f.passes = 0 then refSync n dom s else s
  | _, _ => s

/-- PIPELINE_ENTRY (R132): `recirc` says that the recirculation port has first call on this cycle, where its share leaves that
open; `node` names a failing trie node that the route lookup reads (R262). A frame whose parse hangs on its next byte waits for it
(notes/assumptions/88.md). -/
def execPipelineEntry (g : Fin 8) (recirc : Bool) (node : Option W32) (s : State) : Host.Outcome State Fault Refusal :=
  done (s.when (s.clocked (ipipePage g) && !s.hb (.stuck g)) fun s =>
    let call := recircCall s g recirc
    let s := spanStep g call s
    match ipipeNext s g call with
    | none => s
    | some f =>
      if !s.live (ipipePage g) then dropDisabled (ipipePage g) f s
      else if parseOpen s g f then s
      else
        let (f, s) := ipipeEnter g f s
        ipipePass g (node.map BitVec.toNat) f (syncReport f s))

/-! ### Egress rewrite (R268 to R274) -/

/-- The IPv4 header checksum after the TTL falls by one: the ones' complement sum stays right (R271). -/
def cksumDec (c : Nat) : Nat := let t := c + 0x100; if 0xFFFF ≤ t then t - 0xFFFF else t

/-- Ethertype and the bytes after it. -/
abbrev Body := Nat × List Byte

/-- Whether an MPLS label stands after the tags. -/
def hasLabel (b : Body) : Bool := b.1 == 0x8847 && 4 ≤ b.2.length

/-- The top label is removed; past the bottom the Ethertype follows the first nibble (R235). -/
def popLabel (b : Body) : Option Body :=
  if !hasLabel b then none else
  let rest := b.2.drop 4
  if !bit (byteAt b.2 2) 0 then some (0x8847, rest)
  else match byteAt rest 0 / 16 with
    | 4 => some (0x0800, rest)
    | 6 => some (0x86DD, rest)
    | _ => none

/-- The frame's MPLS operation (R271, step 1): 1 SWAP, 2 PHP, 3 POP_LOOKUP. -/
def mplsStep (op label : Nat) (b : Body) : Option Body :=
  match op with
  | 0 => some b
  | 1 =>
    if !hasLabel b then none
    else some (b.1, overwrite b.2 0 (beBytes 3 (label * 16 + byteAt b.2 2 % 16)))
  | _ => popLabel b

/-- The TTL is decremented (R271, step 2). -/
def ttlStep (b : Body) : Option Body :=
  let dec := fun i => overwrite b.2 i [BitVec.ofNat 8 (byteAt b.2 i + 255)]
  if hasLabel b then some (b.1, dec 3)
  else if b.1 = 0x0800 ∧ 20 ≤ b.2.length then
    some (b.1, overwrite (dec 8) 10 (beBytes 2 (cksumDec (beAt b.2 10 2))))
  else if b.1 = 0x86DD ∧ 40 ≤ b.2.length then some (b.1, dec 7)
  else none

/-- A label is pushed above the stack (R271, step 3). -/
def pushStep (label cls : Nat) (b : Body) : Body :=
  let ttl := if hasLabel b then byteAt b.2 3
    else if b.1 = 0x0800 ∧ 20 ≤ b.2.length then byteAt b.2 8
    else if b.1 = 0x86DD ∧ 40 ≤ b.2.length then byteAt b.2 7
    else 255
  (0x8847, beBytes 4 (label * 4096 + cls * 512 + ofB (!hasLabel b) * 256 + ttl) ++ b.2)

/-- The rewrite of a frame under adjacency entry `e` with source address `smac` (R270, R271). -/
def rewrite (e : Nat) (smac : List Byte) (f : Frame) : Option (List Byte) :=
  let o := etherOff f.bytes
  let b : Body := (beAt f.bytes o 2, f.bytes.drop (o + 2))
  (mplsStep f.mplsOp f.outLabel b).bind fun b =>
    (if bit e 26 then ttlStep b else some b).map fun b =>
      let b := if bit (word e 5) 31 then pushStep (fld (word e 5) 0 20) f.cls b else b
      let tag := if bit (word e 4) 31 then
          beBytes 2 0x8100 ++ beBytes 2 (f.cls * 2 ^ 13 + ofB (f.colour != 0) * 2 ^ 12 + fld (word e 4) 0 12)
        else []
      beBytes 4 (word e 2) ++ beBytes 2 (fld (word e 3) 16 16) ++ smac ++ tag ++ beBytes 2 b.1 ++ b.2

/-- The source address of RMAC entry `i`, if valid (R249, R270). -/
def rmacBytes (s : State) (i : Nat) : Option (List Byte) :=
  let e := s.tab adjPage 5 i
  if bit (word e 1) 0 then some (beBytes 4 (word e 0) ++ beBytes 2 (fld (word e 1) 16 16)) else none

/-- A frame that its rewrite discards (R270, R271). -/
def rwErr (g : Nat) (f : Frame) (s : State) : State :=
  raiseFirst (epipePage g) 0 (bump (Reg.EPIPE.RW_ERR g) (s.drop f))

/-- A frame whose adjacency read fails (R269). -/
def adjErr (g : Nat) (f : Frame) (s : State) : State :=
  raiseFirst (epipePage g) 2 (bump (Reg.EPIPE.ADJ_ERR g) (s.drop f))

/-- The frame leaves EPIPE[g]: the length check and the hand-over (R272 to R274). -/
def epipeHand (g : Nat) (rw : Bool) (f : Frame) (s : State) : State :=
  let n := f.outPort
  if n < 128 ∧ f.full ∧ txMtu s n < f.len then
    raiseFirst (epipePage g) 1 (bump (Reg.EPIPE.MTU_DROP g) (s.drop f))
  else
    let s := bump (if rw then Reg.EPIPE.RW_FRAMES g else Reg.EPIPE.PASS_FRAMES g) (bump (Reg.EPIPE.FRAMES g) s)
    if n < 128 then s.moveFrame { f with chk := f.full, grew := f.grew + f.len } (.mac n)
    else
      let f := { f with onestep := 0, fcs := false }
      s.moveFrame { f with grew := f.grew + f.len } (.recirc (n - 128))

/-- One frame passes EPIPE[g] (R268). That a frame known to be bad counts in TX_BAD_DISC, not in TX_DOWN_DROP, at a port that does
not transmit is the model's choice (R119, R130, notes/assumptions/96.md). -/
def epipePass (g : Nat) (f : Frame) (s : State) : State :=
  let n := f.outPort
  if n < 128 ∧ f.markKnown ∧ f.bad then bump (Reg.LPORT.TX_BAD_DISC n) (s.drop f)
  else if n < 128 ∧ portSends s n = false then txDownDrop n f s
  else
  let f := { f with grew := f.grew - f.len }
  if f.noRw then epipeHand g false (if f.osOvr then f else { f with onestep := 0 }) s
  else if f.mplsOp = 3 then
    let o := etherOff f.bytes
    match popLabel (beAt f.bytes o 2, f.bytes.drop (o + 2)) with
    | none => rwErr g f s
    | some b => epipeHand g true { f with bytes := f.bytes.take o ++ beBytes 2 b.1 ++ b.2 } s
  else if !s.live adjPage then dropDisabled adjPage f s
  else
    let e := s.tab adjPage 1 f.adj
    let typ := fld e 27 3
    if !bit (fld e 30 2) (f.parity.getD 0) ∨ parBad s adjPage 1 f.adj ∨ (typ ≠ 1 ∧ typ ≠ 3) then adjErr g f s
    else match rmacBytes s (fld (word e 3) 8 8) with
      | none => rwErr g f s
      | some smac =>
        match rewrite e smac f with
        | none => rwErr g f s
        | some bs =>
          let f := { f with bytes := bs }
          epipeHand g true (if f.osOvr then f else { f with onestep := fld e 24 2, tsrc := fld e 22 2 }) s

/-- EGRESS_PIPELINE (R268). -/
def execEgressPipeline (g : Fin 8) (s : State) : Host.Outcome State Fault Refusal :=
  done (s.when (s.clocked (epipePage g) && !s.hb (.stuck (8 + g))) fun s =>
    match s.firstAt (.epipe g) with
    | none => s
    | some f => if !s.live (epipePage g) then dropDisabled (epipePage g) f s else epipePass g f s)

end Sys2Proof.Machine
end

