-- ==== Sys2Proof/Machine/Search.lean ====
section
/-!
DEFINITION. The table commands of the ingress and search pages: the TCAM with its slices, row moves, match walks and scrub
(R194 to R208), the parse banks (R178, R179, R184 to R186), the hash tables and routes (R229 to R243), the entries of ADJ
and POL (R237, R243, R244, R247, R249, R383).
-/
namespace Sys2Proof.Machine

/-! ### Entries of the command window -/

/-- READ of an entry that carries parity: one that fails is returned with code 0x07 (R55, R263). -/
def Win.readPar (w : Win) (size n : Nat) (s : State) : TblRes :=
  if size ≤ w.idx then w.fail 0x04 s else
  let d := some (cutWords (s.tab w.p w.sel w.idx) n)
  if parBad s w.p w.sel w.idx then
    let (s, c, _) := w.fail 0x07 s
    (s, c, d)
  else Win.ok d s

/-- The entry named by a command is replaced whole (R56). -/
def Win.put (w : Win) (e : Nat) (s : State) : TblRes :=
  Win.ok none (setParBad w.p w.sel w.idx false (s.setTab w.p w.sel w.idx e))

/-- The entry is replaced under the generation rules, its VIS at bit `b` (R295, R296). -/
def Win.putVis (w : Win) (b e : Nat) (s : State) : TblRes :=
  match genVis s (fld (s.tab w.p w.sel w.idx) b 2) (fld e b 2) with
  | none => w.fail 0x1F s
  | some v => w.put (setFld e b 2 v) s

/-! ### Banked tables (R177 to R179, R194) -/

/-- Whether bank `b` of the parse tables and KSEL is in use (R179, R296). -/
def bankInUse (s : State) (b : Nat) : Bool :=
  s.hn .capoParity == b || s.h (.inFlight b) != 0 || ((s.h .capoState == 3 || s.h .capoState == 4) && oldParity s == b)

/-- Whether every powered copy of a parse bank is an empty bank (R178). -/
def bankEmpty (s : State) (b : Nat) : Bool :=
  (List.range 8).all fun g => !s.pageOn (ipipePage g) || s.hb (.emptyBank g b)

/-- Words of an entry of parse table `sel`, and the bits of it that exist (R184 to R186). -/
def parseMask : Nat → Nat
  | 1 => ofWords [0xBF80FFFF, 0x3F7F30FF, 0xFFF0003F, 0x1FF]
  | 2 => ofWords [0xFFFFFFFF, 0x800001FF]
  | _ => 0xFFFFFFE0

/-- A value of a parse entry that is refused (R184 to R186). -/
def parseRange (sel e : Nat) : Bool :=
  match sel with
  | 1 => fld e 28 2 == 3 || 8 < fld (word e 1) 16 4 || 8 < fld (word e 1) 20 3 + fld (word e 1) 16 4 ||
      0x101 < fld (word e 3) 0 9
  | 2 => 0x101 < fld (word e 1) 0 9
  | _ => 31 < fld e 19 5 + fld e 14 5 || 528 < 8 * fld e 8 6 + fld e 5 3 + fld e 14 5 + 1

/-- The table commands of an IPIPE page (R178, R179, R213): a WRITE reaches every powered pipeline. -/
def ipipeTable (op : Nat) (w : Win) (s : State) : TblRes :=
  let n := if w.sel = 1 then 512 else 4096
  if w.sel = 0 ∨ 3 < w.sel ∨ (op ≠ 1 ∧ op ≠ 2) then w.fail 0x03 s
  else if op = 1 then w.read n (if w.sel = 1 then 4 else if w.sel = 2 then 2 else 1) s
  else if n ≤ w.idx then w.fail 0x04 s
  else
    let b := w.idx / (n / 2)
    let e := w.data &&& parseMask w.sel
    if bankInUse s b && !bankEmpty s b then w.fail 0x10 s
    else if parseRange w.sel e then w.fail 0x11 s
    else Win.ok none (forEach (List.range 8) s fun g s => if s.pageOn (ipipePage g) then s.setTab (ipipePage g) w.sel w.idx e else s)

/-! ### TCAM rows (R197 to R206) -/

/-- The VIS of a row. -/
def rowVis (s : State) (pos : Nat) : Nat := fld (s.tabW tcamPage 1 pos 10) 0 2

/-- Rows of slice `sl` with VIS other than 00, `VALID_ROWS` (R214). -/
def validRows (s : State) (sl : Nat) : Nat :=
  ((s.tabList tcamPage 1).filter fun e => e.1 / 2048 == sl && fld (word e.2 10) 0 2 != 0).length

/-- Whether the group of 16 rows that holds `pos` has no invalid row (R204). -/
def groupFull (s : State) (pos : Nat) : Bool := (List.range 16).all fun i => rowVis s (pos / 16 * 16 + i) != 0

/-- `FULL_GRP`: groups of head slices that have no invalid row (R204). -/
def fullGroups (s : State) : Nat :=
  ((s.tabList tcamPage 1).filter fun e =>
    e.1 % 16 == 0 && headSlice s (e.1 / 2048) == e.1 / 2048 && groupFull s e.1).length

/-- `CHAIN_ERR` follows the slices; a bit that becomes set raises the event (R198). -/
def chainEval (s : State) : State :=
  let new := (List.range 4).map fun w => ((List.range 32).map fun b => ofB (chainBroken s (32 * w + b)) * 2 ^ b).sum
  let rise := ((List.range 4).zip new).any fun x => x.2 &&& (s.reg (Reg.TCAM.CHAIN_ERR x.1) ^^^ 0xFFFFFFFF) != 0
  let s := forEach ((List.range 4).zip new) s fun x s => s.setReg (Reg.TCAM.CHAIN_ERR x.1) x.2
  if rise then raise tcamPage 1 s else s

/-- A write of `LKP_CFG[l]` (R197, R214). -/
def lkpCfg (r : Req) (l w : Nat) (s : State) : State :=
  let a := Reg.TCAM.LKP_CFG l
  let v := w % 4
  if v = s.reg a then s
  else if v = 3 ∨ (s.tabList tcamPage 1).any fun e =>
      s.rfld (Reg.TCAM.SLICE_CFG (e.1 / 2048)) 1 1 == l && fld (word e.2 10) 0 2 != 0 then errReq tcamPage 0x12 r a w s
  else chainEval (s.setReg a v)

/-- A write of `SLICE_CFG[i]` (R197). -/
def sliceCfg (r : Req) (i w : Nat) (s : State) : State :=
  let a := Reg.TCAM.SLICE_CFG i
  let v := w % 4
  if v = s.reg a then s
  else if validRows s i ≠ 0 then errReq tcamPage 0x12 r a w s
  else chainEval (s.setReg a v)

/-- SLICE_CFG_WRITE (R197): `k` 0 to 127 names `SLICE_CFG[k]`, 128 and 129 `LKP_CFG[k − 128]`. -/
def execSliceCfgWrite (r : Req) (k : Fin 130) (v : W32) (s : State) : Host.Outcome State Fault Refusal :=
  done (if k.val < 128 then gateWrite r (Reg.TCAM.SLICE_CFG k) (sliceCfg r k v.toNat) s
    else gateWrite r (Reg.TCAM.LKP_CFG (k - 128)) (lkpCfg r (k - 128) v.toNat) s)

/-- The bits of an action word that exist (R208). -/
def actionMask : Nat := 0xFF87

/-- A row as stored: key bits that the mask does not compare are 0 (R201). -/
def rowEntry (d : Nat) : Nat :=
  let key := fld d 0 160 &&& fld d 160 160
  key + fld d 160 160 * 2 ^ 160 + fld (word d 10) 0 2 * 2 ^ 320 + (word d 11 &&& actionMask) * 2 ^ 352

/-- A row of a head slice takes a new VIS; a group that loses its last invalid row raises HOLE_LOST (R204). -/
def holeWatch (pos : Nat) (was : Bool) (s : State) : State :=
  if !was && headSlice s (pos / 2048) == pos / 2048 && groupFull s pos then raise tcamPage 2 s else s

/-- WRITE of a row (R201, R202, R208, R295). -/
def rowWrite (w : Win) (s : State) : TblRes :=
  let e := rowEntry w.data
  let sl := w.idx / 2048
  let h := headSlice s sl
  let full := groupFull s w.idx
  if fld (word e 11) 9 2 = 3 ∨ fld (word e 11) 7 2 = 3 then w.fail 0x12 s
  else if h ≠ sl then
    if rowVis s (h * 2048 + w.idx % 2048) ≠ 0 then w.fail 0x11 s else w.put e s
  else
    let (s, c, d) := w.putVis 320 e s
    (if c = 0 then holeWatch w.idx full s else s, c, d)

/-- ROW_MOVE (R205, R206, R296): every row of the chain is written at the destination, then the source is freed. -/
def rowMove (w : Win) (s : State) : TblRes :=
  let sl := w.idx / 2048
  let dst := sl * 2048 + fld w.data 0 11
  let lo := min w.idx dst
  let hi := max w.idx dst
  let between := (s.tabList tcamPage 1).any fun e => lo < e.1 && e.1 < hi && fld (word e.2 10) 0 2 != 0
  if headSlice s sl ≠ sl ∨ rowVis s w.idx = 0 ∨ dst = w.idx ∨ rowVis s dst ≠ 0 ∨ between then w.fail 0x10 s
  else
    let full := groupFull s dst
    let v := rowVis s w.idx
    let v := if s.h .capoState = 4 then (if v = 2 ^ oldParity s then 0 else 3) else v
    let k := chainLen s (s.rfld (Reg.TCAM.SLICE_CFG sl) 1 1)
    let s := forEach (List.range k) s fun m s =>
      let e := s.tab tcamPage 1 (w.idx + 2048 * m)
      s.setTab tcamPage 1 (dst + 2048 * m) (if m = 0 then setFld e 320 2 v else e)
    let s := s.setTab tcamPage 1 w.idx (setFld (s.tab tcamPage 1 w.idx) 320 2 0)
    let s := bump Reg.TCAM.ROW_MOVES s
    Win.ok none (if w.idx / 16 = dst / 16 then s else holeWatch dst full s)

/-! ### Match walks (R203) -/

/-- The table in which the model keeps the walk keys, 320 bits an entry: 2 × requester + half. -/
def walkSel : Nat := 0x20

/-- The walk key of a requester. -/
def walkKey (s : State) (r : Req) : Nat :=
  fld (s.tab tcamPage walkSel (2 * reqNo r)) 0 320 + fld (s.tab tcamPage walkSel (2 * reqNo r + 1)) 0 320 * 2 ^ 320

/-- KEY_LOAD. -/
def keyLoad (w : Win) (s : State) : TblRes :=
  if 1 < w.idx then w.fail 0x04 s
  else Win.ok none (s.setTab tcamPage walkSel (2 * reqNo w.r + w.idx) (cutWords w.data 10))

/-- WALK. -/
def walkStep (w : Win) (s : State) : TblRes :=
  if 262144 ≤ w.idx then w.fail 0x04 s else
  let l := (w.sel - 0x10) / 2
  let hits := (tcamMatches s l (walkKey s w.r) (w.sel % 2)).filter fun pos => decide (w.idx ≤ pos)
  match hits with
  | [] => Win.ok (some (setWord (setWord w.data 0 0) 1 0)) s
  | pos :: rest =>
    Win.ok (some (setWord (setWord w.data 0 (2 ^ 31 + ofB (!rest.isEmpty) * 2 ^ 30 + pos)) 1 (tcamAction s pos))) s

/-! ### KSEL and KPROF (R194, R196) -/

/-- Whether an enabled field of a KSEL entry in a bank in use names key profile `i` (R194). -/
def kprofUsed (s : State) (i : Nat) : Bool :=
  (s.tabList tcamPage 2).any fun e =>
    bankInUse s (e.1 / 256) && kselEn e.2 (i / 64) && kselProf e.2 (i / 64) == i % 64

/-- The table commands of the TCAM page (R203, R205, R215). -/
def tcamTable (op : Nat) (w : Win) (s : State) : TblRes :=
  match w.sel, op with
  | 1, 1 => w.readPar 262144 12 s
  | 1, 2 => if w.idx < 262144 then rowWrite w s else w.fail 0x04 s
  | 1, 0x10 => if w.idx < 262144 then rowMove w s else w.fail 0x04 s
  | 2, 1 => w.read 512 1 s
  | 2, 2 =>
    if 512 ≤ w.idx then w.fail 0x04 s else if bankInUse s (w.idx / 256) then w.fail 0x13 s
    else w.put (w.data &&& 0xBFBF0000) s
  | 3, 1 => w.read 128 10 s
  | 3, 2 =>
    if 128 ≤ w.idx then w.fail 0x04 s
    else if (List.range 40).any fun j => let x := fld w.data (8 * j) 8; 159 < x && x != 0xFF then w.fail 0x12 s
    else if kprofUsed s w.idx then w.fail 0x14 s
    else w.put (cutWords w.data 10) s
  | sel, 0x11 => if 0x10 ≤ sel ∧ sel ≤ 0x13 then keyLoad w s else w.fail 0x03 s
  | sel, 0x12 => if 0x10 ≤ sel ∧ sel ≤ 0x13 then walkStep w s else w.fail 0x03 s
  | _, _ => w.fail 0x03 s

/-- KEY_LOAD (R203). -/
def execKeyLoad (r : Req) (s : State) : Host.Outcome State Fault Refusal := done (tblCmd r tcamPage (tcamTable 0x11) s)

/-- WALK (R203). -/
def execWalk (r : Req) (s : State) : Host.Outcome State Fault Refusal := done (tblCmd r tcamPage (tcamTable 0x12) s)

/-- ROW_MOVE (R205). -/
def execRowMove (r : Req) (s : State) : Host.Outcome State Fault Refusal := done (tblCmd r tcamPage (tcamTable 0x10) s)

/-- The scrubber finds row `pos` failing (R207): its head row is invalidated. -/
def rowScrubFail (pos : Nat) (s : State) : State :=
  let h := headSlice s (pos / 2048) * 2048 + pos % 2048
  let s := s.setTab tcamPage 1 h (setFld (s.tab tcamPage 1 h) 320 2 0)
  let s := (bump Reg.TCAM.SCRUB_ERR s).setReg Reg.TCAM.SCRUB_LAST pos
  raiseFault tcamPage 0 3 pos (errBy tcamPage 0x07 5 1 pos s)

/-- TCAM_SCRUB_ROW (R207): the scrubber checks a row; `ok` says whether its parity holds. -/
def execTcamScrubRow (pos : Fin 262144) (ok : Bool) (s : State) : Host.Outcome State Fault Refusal :=
  done (s.ifLive tcamPage fun s => if ok then s else rowScrubFail pos s)

/-! ### Hash tables by key (R229 to R233, R256) -/

/-- The answer of a key-addressed command: `TBL_DATA[15]` holds its result word. -/
def Win.keyed (w : Win) (x : State × Nat × Nat) : TblRes := (x.1, x.2.1, some (setWord w.data 15 x.2.2))

/-- INSERT or DELETE on one hash table. -/
def keyCmd (del : Bool) (t : HTab) (w : Win) (s : State) : State × Nat × Nat :=
  if del then hashDelete t (reqNo w.r) w.idx w.data s else hashInsert t (reqNo w.r) w.idx w.data s

/-- INSERT or DELETE on the L2 table of every powered pipeline (R256): the failure of the lowest-numbered failing pipeline
is captured once. -/
def l2All (del : Bool) (w : Win) (s : State) : TblRes :=
  let (s, bad, code) := (List.range 8).foldl (fun (a : State × Nat × Nat) g =>
    let (s, bad, code) := a
    if !s.pageOn (ipipePage g) then a else
    match keyCmd del (.l2 g) w s with
    | (s', 0, _) => (s', bad, code)
    | (_, c, _) => (if !del && c == 0x11 then l2LearnRej g (l2Mac w.data) (l2Bd w.data) (l2Port w.data) s else s, bad + 2 ^ g,
      if code = 0 then c else code)) (s, 0, 0)
  let d := some (setWord w.data 15 (ofB (bad == 0) * 2 ^ 31 + bad * 2 ^ 16))
  if bad = 0 then Win.ok d s
  else
    let (s, c, _) := w.fail code s
    (s, c, d)

/-- LOOKUP on one hash table: a hit returns the entry in the entry words (R232). -/
def keyLookup (t : HTab) (w : Win) (s : State) : TblRes :=
  match hashLookup t w.data s with
  | none => Win.ok (some (setWord w.data 15 0)) s
  | some (e, res) => Win.ok (some (setWord (setFld w.data 0 (32 * t.words) e) 15 res)) s

/-- The table commands of a hash table (R231, R232, R279). -/
def hashTable (t : HTab) (op : Nat) (w : Win) (s : State) : TblRes :=
  match op with
  | 1 => w.readPar (t.cap + 4096) t.words s
  | 2 =>
    if w.idx < t.cap + 4096 then (let (s, c) := hashWrite t (reqNo w.r) w.idx w.data s; (s, c, none)) else w.fail 0x04 s
  | 0x10 => w.keyed (keyCmd false t w s)
  | 0x11 => w.keyed (keyCmd true t w s)
  | 0x12 => keyLookup t w s
  | _ => w.fail 0x03 s

/-- The table commands of the EM page (R237, R279). -/
def emTable (op : Nat) (w : Win) (s : State) : TblRes :=
  match w.sel, op with
  | 1, _ => hashTable .mpls op w s
  | 2, _ => hashTable .ift op w s
  | 3, 1 => w.read 4096 1 s
  | 3, 2 =>
    if 4096 ≤ w.idx then w.fail 0x04 s else if fld w.data 0 2 = 3 then w.fail 0x12 s else w.put (fld w.data 0 5) s
  | _, _ => w.fail 0x03 s

/-- The table commands of the L2 page (R256, R279). -/
def l2Table (op : Nat) (w : Win) (s : State) : TblRes :=
  if w.sel = 0x0F ∧ op = 0x10 then l2All false w s
  else if w.sel = 0x0F ∧ op = 0x11 then l2All true w s
  else if 1 ≤ w.sel ∧ w.sel ≤ 8 then hashTable (.l2 (w.sel - 1)) op w s
  else w.fail 0x03 s

/-- A key-addressed command of the EM or the L2 page. -/
def keyedCmd (r : Req) (l2 : Bool) (op : Nat) (s : State) : State :=
  if l2 then tblCmd r l2Page (l2Table op) s else tblCmd r emPage (emTable op) s

/-- INSERT (R230) on the L2 page, or on the EM page. -/
def execInsert (r : Req) (l2 : Bool) (s : State) : Host.Outcome State Fault Refusal := done (keyedCmd r l2 0x10 s)

/-- DELETE (R232). -/
def execDelete (r : Req) (l2 : Bool) (s : State) : Host.Outcome State Fault Refusal := done (keyedCmd r l2 0x11 s)

/-- LOOKUP (R232). -/
def execLookup (r : Req) (l2 : Bool) (s : State) : Host.Outcome State Fault Refusal := done (keyedCmd r l2 0x12 s)

/-! ### Routes (R239 to R241) -/

/-- ROUTE_GET: word 5 of the route named (R239, R240). -/
def routeGet (w : Win) (s : State) : TblRes :=
  let d := w.data &&& routeMask
  if routeRange d then w.fail 0x12 s
  else
    match findRoute s d with
    | none => w.fail 0x14 s
    | some (_, e) => Win.ok (some (setWord (setWord w.data 5 (word e 5)) 15 (2 ^ 31))) s

/-- ROUTE_MATCH: the longest route for an address (R239, R240). -/
def routeMatchCmd (w : Win) (s : State) : TblRes :=
  let v6 := routeV6 w.data
  let addr := if v6 then routeAddr w.data else word w.data 4
  match routeMatch s (routeVrf w.data) v6 addr (fld (word w.data 6) 0 1) with
  | none => Win.ok (some (setWord w.data 15 0)) s
  | some (_, e) => Win.ok (some (setWord (setFld w.data 0 192 (e &&& routeMask)) 15 (2 ^ 31))) s

/-- The table commands of the LPM page (R239, R243, R279). -/
def lpmTable (op : Nat) (w : Win) (s : State) : TblRes :=
  let two := fun (x : State × Nat) => ((x.1, x.2, none) : TblRes)
  match w.sel, op with
  | 1, 0x10 => two (routeAdd (reqNo w.r) w.idx w.data s)
  | 1, 0x11 => two (routeDel (reqNo w.r) w.idx w.data s)
  | 1, 0x12 => two (routeMod (reqNo w.r) w.idx w.data s)
  | 1, 0x13 => routeGet w s
  | 1, 0x14 => routeMatchCmd w s
  | 2, 1 => w.readPar 65536 1 s
  | 2, 2 => if w.idx < 65536 then w.put (w.data &&& 0x800FFFFF) s else w.fail 0x04 s
  | _, _ => w.fail 0x03 s

/-- A command of requester `r` for the LPM page takes its place in the order of arrival, with its window as it stands (R53);
it reads BUSY until it completes (R54, R241). -/
def lpmQueue (r : Req) (op : Nat) (s : State) : State :=
  let sts := winBank r (Reg.TBL_STS lpmPage)
  let w := winOf s r lpmPage
  { s.setReg sts (setBit (s.reg sts) 31 true) with
    lpmQ := s.lpmQ ++ [{ r := r, op := op, sel := w.sel, idx := w.idx, data := BitVec.ofNat 512 w.data }] }

/-- A route command of requester `r` goes to the route agent, which executes it at its completion (R241, R460, R545). -/
def routeRun (r : Req) (op : Nat) (s : State) : State :=
  if s.rbit (winBank r (Reg.TBL_STS lpmPage)) 31 then tblRun r lpmPage (lpmTable op) s else lpmQueue r op s

/-- A route command of requester `r`. -/
def routeCmd (r : Req) (op : Nat) (s : State) : State := gateWrite r (Reg.TBL_CMD lpmPage) (routeRun r op) s

/-- ROUTE_ADD (R239, R240). -/
def execRouteAdd (r : Req) (s : State) : Host.Outcome State Fault Refusal := done (routeCmd r 0x10 s)

/-- ROUTE_DEL (R239, R240). -/
def execRouteDel (r : Req) (s : State) : Host.Outcome State Fault Refusal := done (routeCmd r 0x11 s)

/-- ROUTE_MOD (R239, R240). -/
def execRouteMod (r : Req) (s : State) : Host.Outcome State Fault Refusal := done (routeCmd r 0x12 s)

/-- ROUTE_GET (R239, R240). -/
def execRouteGet (r : Req) (s : State) : Host.Outcome State Fault Refusal := done (routeCmd r 0x13 s)

/-- ROUTE_MATCH (R239, R240). -/
def execRouteMatch (r : Req) (s : State) : Host.Outcome State Fault Refusal := done (routeCmd r 0x14 s)

/-! ### ADJ and POL (R225, R244, R247, R249, R383, R386) -/

/-- WRITE of an adjacency (R225, R247). -/
def adjWrite (w : Win) (s : State) : TblRes :=
  let e := w.data &&& ofWords [0xFFC07FFF, 0x7FF, 0xFFFFFFFF, 0xFFFFFF00, 0x80000FFF, 0x800FFFFF]
  if w.idx = 0 then w.fail 0x15 s
  else if 4 ≤ fld e 27 3 ∨ fld e 24 2 = 3 ∨ fld e 22 2 = 3 ∨ 0xF0 ≤ fld (word e 1) 0 8 then w.fail 0x12 s
  else w.putVis 30 e s

/-- WRITE of an ECMP group (R244). -/
def ecmpWrite (w : Win) (s : State) : TblRes :=
  let e := w.data &&& 0xDFF3FFFF
  let size := fld e 20 9
  if size = 0 ∨ 256 < size ∨ 262144 < fld e 0 18 + size then w.fail 0x12 s else w.putVis 30 e s

/-- Entries, words and existing bits of the tables of the ADJ page (R244, R249, R279). -/
def adjSize : Nat → Nat × Nat × Nat
  | 1 => (1048576, 6, 0) | 2 => (65536, 1, 0) | 3 => (262144, 1, 0xFFFFF) | 4 => (32768, 1, 0x80000FFF)
  | _ => (256, 2, ofWords [0xFFFFFFFF, 0xFFFF0001])

/-- The table commands of the ADJ page (R279). -/
def adjTable (op : Nat) (w : Win) (s : State) : TblRes :=
  if w.sel = 0 ∨ 5 < w.sel ∨ (op ≠ 1 ∧ op ≠ 2) then w.fail 0x03 s else
  let (n, ws, mask) := adjSize w.sel
  if op = 1 then w.readPar n ws s
  else if n ≤ w.idx then w.fail 0x04 s
  else match w.sel with
    | 1 => adjWrite w s
    | 2 => ecmpWrite w s
    | 4 => let (t, k, d) := w.put (w.data &&& mask) s; (reachGained s t, k, d)
    | _ => w.put (w.data &&& mask) s

/-- Every bucket of policer `i` is set to its burst (R386). -/
def polFill (i : Nat) (s : State) : State :=
  let e := s.tab polPage 1 i
  ((s.setH (.polTc i) (fld (word e 2) 0 24 * 65536 : Nat)).setH (.polTe i) (fld (word e 4) 0 24 * 65536 : Nat)).setH (.polLast i) s.tb

/-- WRITE of a policer (R383, R386). -/
def polWrite (w : Win) (s : State) : TblRes :=
  let e := w.data &&& ofWords [0xF000007F, 0x7FFFFFFF, 0xFFFFFF, 0x7FFFFFFF, 0xFFFFFF]
  let i := w.idx
  let old := s.tab polPage 1 i
  let (tc, te) := if fld old 30 2 = 0 then (s.hn (.polTc i), s.hn (.polTe i)) else polTokens s i
  if (64 ≤ fld e 0 7 ∧ fld e 0 7 < 96) ∨ 1600000000 < fld (word e 1) 0 31 ∨ 1600000000 < fld (word e 3) 0 31 then w.fail 0x10 s
  else
    let s := s.setTab polPage 1 i e
    if fld e 30 2 ≠ fld old 30 2 then Win.ok none (polFill i s)
    else
      let s := (s.setH (.polTc i) (min tc (fld (word e 2) 0 24 * 65536) : Nat)).setH (.polTe i) (min te (fld (word e 4) 0 24 * 65536) : Nat)
      Win.ok none (s.setH (.polLast i) s.tb)

/-- READ of a policer: the words written, and its tokens in whole bytes (R383). -/
def polRead (w : Win) (s : State) : TblRes :=
  let i := w.idx
  Win.ok (some (cutWords (s.tab polPage 1 i) 5 + ofWords [0, 0, 0, 0, 0, s.hn (.polTc i) / 65536, s.hn (.polTe i) / 65536])) s

/-- The table commands of the POL page (R391). -/
def polTable (op : Nat) (w : Win) (s : State) : TblRes :=
  if w.sel ≠ 1 ∨ (op ≠ 1 ∧ op ≠ 2) then w.fail 0x03 s
  else if 524288 ≤ w.idx then w.fail 0x04 s
  else if op = 1 then polRead w s else polWrite w s

/-- Every policer's buckets are set to their bursts (R43): a soft reset of the POL page. -/
def polRestart (s : State) : State :=
  forEach (s.tabList polPage 1) s fun e s => polFill e.1 s

end Sys2Proof.Machine
end

