-- ==== Sys2Proof/Machine/Control.lean ====
section
/-!
DEFINITION. The control complex (spec/12_control_complex.md): the processors and their loads (R459 to R461), the redundant
pair (R462 to R471, R648), the interrupt controller's commands (R472 to R481), and the periodic frame engine (R482 to R486).
-/
namespace Sys2Proof.Machine

/-! ### Core states (R462) -/

/-- Core `x` enters state `v` (R462). A core that halts, is loaded or starts is not in its wait-for-interrupt state (R480). -/
def setCore (x v : Nat) (s : State) : State :=
  let s := s.setRfld (Reg.PAIR.CORE_STS x) 0 3 v
  let s := if v = 2 then s.setH (.syncAt x) (s.root : Nat) else s
  if v = 2 ∨ v = 3 then s else s.setHb (.coreIdle (x + 1)) false

/-- The ACTIVE core, if any. -/
def activeCore (s : State) : Option Nat := [0, 1].find? fun x => coreState s x == 4

/-- `MIRROR_STS.SYNCED` reads 1 while one core is ACTIVE and the other in STANDBY (R469). -/
def mirrorSts (s : State) : State :=
  s.setReg Reg.PAIR.MIRROR_STS (if (coreState s 0 == 4 && coreState s 1 == 3) || (coreState s 0 == 3 && coreState s 1 == 4) then 2 ^ 31 else 0)

/-- The pair works: its domain is on and its clocks run. -/
def pairRuns (s : State) : Bool := s.clocked pairPage

/-! ### Interrupt targets (R468, R471) -/

/-- Sources whose TARGET is `t`. -/
def srcsOf (s : State) (t : Nat) : List Nat :=
  (s.regs.filter fun e => Reg.INTC.SRC_CFG 0 ≤ e.1 && e.1 < Reg.INTC.SRC_CFG 0x1000 && fld e.2.toNat 30 2 == t).map fun e =>
    (e.1 - Reg.INTC.SRC_CFG 0) / 4

/-- The INTC rewrites the TARGET of every source that names `t` to `u`. -/
def retarget (t u : Nat) (s : State) : State :=
  forEach (srcsOf s t) s fun src s => s.setRfld (Reg.INTC.SRC_CFG src) 30 2 u

/-- Every source claimed by target `t` and not ended is set pending again, and the stack is emptied. -/
def reclaim (t : Nat) (s : State) : State :=
  let mine := stackOf s t
  let s := { s with intStacks := s.intStacks.filter fun e => e.1 != t }
  forEach mine s fun e s => if e.2.1 = 0 then s else setPend e.2.1 s

/-! ### Loads (R459 to R461, R544, R551) -/

/-- Domains of the line ports and fabric groups, in which the SerDes firmware runs (R20). -/
def serdesDomains : List Nat := (List.range 14).map (5 + ·)

/-- Engine `i` starts on the image in the cache (R459, R541): its memory holds the payload at LOAD_OFF. -/
def engineStart (i : Nat) (s : State) : State :=
  let h := cacheHeader s i
  let s := s.wrMem .engine (2 ^ 32 * i + loadOff h) (s.rdMem .cache (cacheBase i + 512) (payloadLen h))
  let s := bump Reg.SEC.LOADS ((s.setH (.eng i) 1).setH (.engVer i) (beAt h 18 2 : Nat))
  let s := (s.setH (.engSvn i) (byteAt h 15 + 1 : Nat)).setH (.engKey i) (byteAt h 14 + 1 : Nat)
  let s := if i = 2 then s.setH .sweepDone 0 else s
  if i = 6 then forEach (serdesDomains.filter s.domOn) s fun d s => s.setH (.serdes d) 1 else s

/-- The boot core loads engine `i` from the cache, if that holds its image (R460, R541); a load after the start is measured
(R551). -/
def engineLoad (i : Nat) (s : State) : State :=
  let again := s.h (.loadDue i) = 2
  let s := s.setH (.loadDue i) 0
  if s.h (.cacheVer i) = 0 then raise pairPage 4 (s.setH (.eng i) 2)
  else engineStart i (s.when again (mrExtend 8 (sha384 ((cacheHeader s i).take 416))))

/-- `ENG_STS[i]` as read (R460, R487): LOADED, FAIL and VER of the image that runs. -/
def engSts (s : State) (i : Nat) : Nat :=
  if s.h (.eng i) = 1 then 2 ^ 31 + s.hn (.engVer i) else if s.h (.eng i) = 2 then 2 ^ 30 else 0

/-- The boot core checks the CONTROL image of core `x`'s slot and loads it into the private part of the core's SRAM, or leaves the
core FAILED (R460, R537, R544). -/
def coreLoad (x : Nat) (s : State) : State :=
  let slot := s.hn (.coreSlot x)
  let kind := s.h (.loadDue (7 + x))
  let s := (setCore x 1 s).setH (.loadDue (7 + x)) 0
  let s := if x = 1 then s.setH .step6 1 else s
  let other := if coreState s (1 - x) = 4 then some (s.hn (.coreVer (1 - x)) - 1) else none
  match checkImage s slot 0x01 other, imageAt s slot 0x01 with
  | 0, some off =>
    let h := imageHeader s slot off
    let s := s.wrMem (coreSram x) (loadOff h) (slotBytes s slot (off + 512) (payloadLen h))
    let s := (s.setH (.coreEntry x) (beAt h 28 4 : Nat)).setH (.coreTake x) (beAt h 32 4 : Nat)
    let s := (s.setH (.coreVer x) (beAt h 36 2 + 1 : Nat)).setH (.coreSvn x) (byteAt h 15 + 1 : Nat)
    let s := (s.setH (.coreKey x) (byteAt h 14 + 1 : Nat)).setH (.coreStart x) (beAt h 28 4 + 1 : Nat)
    let s := bump Reg.SEC.LOADS s
    let s := if kind = 2 then s else mrImage 3 slot off s
    if kind = 1 then s else mrImage 8 slot off s
  | c, _ => raise pairPage 4 (loadErr slot 0x01 c (setCore x 5 s))

/-- Whether processor `k` may be loaded now: a control core when its load is the flash operation in progress, CC_A first (R461,
R543). -/
def loadReady (s : State) (k : Nat) : Bool :=
  s.h (.loadDue k) != 0 && s.pllOk &&
    (k < 7 || (pairRuns s && flashHead s == some (.core (k - 7)) && (k == 7 || (s.h (.loadDue 7) == 0 && coreState s 0 != 1))))

/-- A core ends its self-test (R461, R462): ACTIVE when no core is, else SYNCING; FAILED otherwise. -/
def coreReady (x : Nat) (ok : Bool) (s : State) : State :=
  if coreState s x ≠ 1 ∨ s.h (.loadDue (7 + x)) ≠ 0 then s
  else if !ok then raise pairPage 4 (((setCore x 5 s).setH (.coreSvn x) 0).setH (.coreKey x) 0)
  else
    let s := s.setH (.wdtAt x) (s.root : Nat)
    match activeCore s with
    | some _ => setCore x 2 s
    | none => if s.h .hoTo ≠ 0 then setCore x 2 s else (setCore x 4 s).setReg Reg.PAIR.ROLE (x + 1)

/-- CORE_LOAD_DONE (R462): `ok` is the result of the self-test. -/
def execCoreLoadDone (x : Fin 2) (ok : Bool) (s : State) : Host.Outcome State Fault Refusal :=
  done (s.when (pairRuns s) (coreReady x ok))

/-! ### Faults and handover (R464 to R468, R471, R648) -/

/-- A core's fault is remembered for the rule of three faults in 10 s (R471). -/
def noteFault (x : Nat) (s : State) : State :=
  let s := s.setH (.coreFaultAt x 2) (s.h (.coreFaultAt x 1))
  (s.setH (.coreFaultAt x 1) (s.h (.coreFaultAt x 0))).setH (.coreFaultAt x 0) (s.root + 1 : Nat)

/-- No core is ACTIVE any more (R471): the sources of the targets go to BOOT, and core `x` is to be reloaded. -/
def pairLost (ts : List Nat) (x : Nat) (s : State) : State :=
  let s := forEach ts s fun t s => retarget t 0 s
  let s := ((s.setReg Reg.PAIR.ROLE 0).setHb (.autoLoad x) true).setH .hoTo 0
  raiseFault pairPage 3 18 x (intcUpdate (s.setH .hoFirst 0))

/-- A handover is abandoned before the new core's first write (R648): what both cores had claimed is pending again, `HANDOVERS` is
as before the handover, and the core that the handover fenced is to be reloaded. -/
def abandonHandover (s : State) : State :=
  let s := if s.h .hoFirst = 0 then s
    else (s.setReg Reg.PAIR.HANDOVERS ((s.reg Reg.PAIR.HANDOVERS + 2 ^ 64 - 1) % 2 ^ 64)).setH .lifeHo (s.h .lifeHo - 1)
  pairLost [1, 2] (s.hn .hoFrom - 1) (reclaim 2 (reclaim 1 s))

/-- A control core faults (R464, R465): halted and fenced; a handover starts, ends or fails. -/
def coreFault (x cause : Nat) (s : State) : State :=
  let was := coreState s x
  let making := s.h .hoTo = (x + 1 : Nat) ∨ s.h .hoFirst = (x + 1 : Nat)
  let s := setCore x 5 (s.setReg (Reg.PAIR.CORE_STS x) (cause * 16))
  let s := noteFault x (bump (Reg.PAIR.FAULTS cause) s)
  let s := (s.setH (.coreSvn x) 0).setH (.coreKey x) 0
  let s := mirrorSts (raiseFault pairPage 1 9 x s)
  if making then abandonHandover s
  else if was = 4 then
    if coreState s (1 - x) = 3 then (s.setH .hoTo (2 - x : Nat)).setH .hoFrom (x + 1 : Nat)
    else pairLost [x + 1] x s
  else s

/-- CORE_FAULT (R464): cause 0 lockstep, 1 memory, 2 watchdog, 3 self-test. The watchdog and the self-test run from STANDBY
to ACTIVE; the watchdog's fault comes when `WDT_CFG.US` have passed since the last kick. -/
def execCoreFault (x : Fin 2) (cause : Fin 4) (s : State) : Host.Outcome State Fault Refusal :=
  done (s.when (pairRuns s && (coreState s x == 3 || coreState s x == 4 || (coreState s x == 2 && cause.val < 2))) fun s =>
    coreFault x (cause + 1) (if cause.val = 2 then waitRoot (s.hn (.wdtAt x) + cycUs (s.reg Reg.PAIR.WDT_CFG)) s else s))

/-- A write of `WDT_KICK` (R464). -/
def wdtKick (r : Req) (v : Nat) (s : State) : State :=
  match coreOf r with
  | some x => if bit v 0 then s.setH (.wdtAt x) (s.root : Nat) else s
  | none => s

/-- WDT_KICK (R464). -/
def execWdtKick (r : Req) (v : W32) (s : State) : Host.Outcome State Fault Refusal :=
  done (gateWrite r Reg.PAIR.WDT_KICK (wdtKick r v.toNat) s)

/-- A write of `HANDOVER` (R467): the writing core is fenced and goes to OFF. -/
def handover (r : Req) (v : Nat) (s : State) : State :=
  if !bit v 0 then s else
  match coreOf r with
  | some x =>
    if coreState s x = 4 ∧ coreState s (1 - x) = 3 then
      let s := (setCore x 0 (s.setReg (Reg.PAIR.CORE_STS x) 0)).setH (.coreSvn x) 0
      mirrorSts (((s.setH (.coreKey x) 0).setH .hoTo (2 - x : Nat)).setH .hoFrom (x + 1 : Nat))
    else errReq pairPage 0x11 r Reg.PAIR.HANDOVER v s
  | none => errReq pairPage 0x11 r Reg.PAIR.HANDOVER v s

/-- HANDOVER (R467). -/
def execHandover (r : Req) (v : W32) (s : State) : Host.Outcome State Fault Refusal :=
  done (gateWrite r Reg.PAIR.HANDOVER (handover r v.toNat) s)

/-- The new core takes over (R468): its sources, the claimed ones pending again, then `ROLE`. -/
def takeover (s : State) : State :=
  let x := s.hn .hoTo - 1
  if s.h .hoTo = 0 ∨ coreState s x ≠ 3 then s else
  let old := s.hn .hoFrom
  let s := reclaim old (retarget old (x + 1) s)
  let s := ((setCore x 4 s).setReg Reg.PAIR.ROLE (x + 1)).setH (.coreStart x) (s.h (.coreTake x) + 1)
  let s := ((s.setH .hoTo 0).setH .hoFirst (x + 1 : Nat)).setH .lifeHo (s.h .lifeHo + 1)
  let s := (mirrorSts s).setH (.wdtAt x) (s.root : Nat)
  raise pairPage 0 (bump Reg.PAIR.HANDOVERS (intcUpdate s))

/-- TAKEOVER (R468). -/
def execTakeover (s : State) : Host.Outcome State Fault Refusal := done (s.when (pairRuns s) takeover)

/-- Bytes of the mirrored region (R466). -/
def mirrorSize : Nat := 0x300000

/-- A store of the ACTIVE core to its SRAM; in the mirrored region it is applied to a core in STANDBY or SYNCING too (R466,
R469). -/
def mirrorStore (a : Nat) (bs : List Byte) (s : State) : State :=
  match activeCore s with
  | none => s
  | some x =>
    let bs := bs.take (2 ^ 22 - a)
    let s := s.wrMem (coreSram x) a bs
    let o := coreState s (1 - x)
    if o = 2 ∨ o = 3 then s.wrMem (coreSram (1 - x)) a (bs.take (mirrorSize - a)) else s

/-- MIRROR_STORE (R466). -/
def execMirrorStore (a : BitVec 22) (bs : List Byte) (s : State) : Host.Outcome State Fault Refusal :=
  done (s.when (pairRuns s) (mirrorStore a.toNat bs))

/-- The bulk copy of the mirrored region from core `x` to the other core (R469). -/
def bulkCopy (x : Nat) (s : State) : State :=
  let src := s.mem.filter fun e => memAddr (coreSram x) 0 ≤ e.1 && e.1 < memAddr (coreSram x) mirrorSize
  let s := s.eraseMem (coreSram (1 - x)) 0 mirrorSize
  forEach src s fun e s => s.wrMem (coreSram (1 - x)) (e.1 % 2 ^ 48) [e.2]

/-- The bulk copy of 3 MiB at 6.4 GB/s ends, and the core is in STANDBY (R466, R469). -/
def syncDone (x : Nat) (s : State) : State :=
  if coreState s x = 2 ∧ coreState s (1 - x) = 4 then
    let s := waitRoot (s.hn (.syncAt x) + 3538944) s
    raise pairPage 2 (mirrorSts ((setCore x 3 (bulkCopy (1 - x) s)).setH (.wdtAt x) (s.root : Nat)))
  else s

/-- SYNC_COMPLETE (R469). -/
def execSyncComplete (x : Fin 2) (s : State) : Host.Outcome State Fault Refusal := done (s.when (pairRuns s) (syncDone x))

/-- A core is to be loaded from a slot. -/
def requestLoad (x slot kind : Nat) (s : State) : State :=
  let s := flashAsk (.core x) (((setCore x 1 s).setH (.coreSlot x) slot).setH (.loadDue (7 + x)) kind)
  mirrorSts (((s.setHb (.autoLoad x) false).setH (.coreSvn x) 0).setH (.coreKey x) 0)

/-- A write of `RELOAD` (R470). In recovery no core is loaded (R542). -/
def reload (r : Req) (v : Nat) (s : State) : State :=
  let x := fld v 0 1
  if !ordersOk s r ∨ coreState s x = 4 then errReq pairPage 0x11 r Reg.PAIR.RELOAD v s
  else if inRecovery s then s
  else requestLoad x (fld v 8 1) 2 s

/-- RELOAD (R470). -/
def execReload (r : Req) (v : W32) (s : State) : Host.Outcome State Fault Refusal :=
  done (gateWrite r Reg.PAIR.RELOAD (reload r v.toNat) s)

/-- Whether core `x` has faulted three times within 10 s: the last fault and the two before it (R471). -/
def faultedThrice (s : State) (x : Nat) : Bool :=
  s.h (.coreFaultAt x 2) != 0 && s.hn (.coreFaultAt x 0) - s.hn (.coreFaultAt x 2) < 10000000 * 7200

/-- CORE_AUTO_RELOAD (R471, R648). -/
def execCoreAutoReload (x : Fin 2) (s : State) : Host.Outcome State Fault Refusal :=
  done (s.when (pairRuns s && s.hb (.autoLoad x)) fun s =>
    if faultedThrice s x then s.setHb (.autoLoad x) false else requestLoad x (s.hn (.coreSlot x)) 2 s)

/-! ### The interrupt controller (R472 to R481) -/

/-- A write of `DOORBELL` (R472). -/
def doorbell (r : Req) (v : Nat) (s : State) : State :=
  if v = 0 ∨ 0xFFF ≤ v then errReq intcPage 0x10 r Reg.INTC.DOORBELL v (bump Reg.INTC.DB_BAD s) else ring v s

/-- DOORBELL (R472). -/
def execDoorbell (r : Req) (v : W32) (s : State) : Host.Outcome State Fault Refusal :=
  done (gateWrite r Reg.INTC.DOORBELL (doorbell r v.toNat) s)

/-- The presentable source of the highest priority, lowest number on ties (R476). -/
def claimPick (s : State) (t : Nat) : Option Nat :=
  (presentable s t).foldl (fun best x => match best with
    | none => some x
    | some b => if srcPrio s b < srcPrio s x then some x else some b) none

/-- A 17th entry is refused (R479). -/
def stackFull (r : Req) (a src : Nat) (s : State) : State :=
  raise intcPage 0 (errReq intcPage 0x12 r a src (bump Reg.INTC.STACK_OVF s))

/-- A read of `CLAIM[t]` (R476, R479): its value, and the state after it. -/
def claim (r : Req) (t : Nat) (s : State) : Nat × State :=
  if !s.live intcPage then (0, errDisabled intcPage s) else
  match claimPick s t with
  | none => (0, bump Reg.INTC.CLAIM_NONE s)
  | some src =>
    if 16 ≤ (stackOf s t).length then (2 ^ 31, stackFull r (Reg.INTC.CLAIM t) src s)
    else
      let p := srcPrio s src
      let s := s.setRbit (Reg.INTC.PEND (src / 32)) (src % 32) false
      let s := { s with intStacks := (t, src, p) :: s.intStacks }
      let s := ((s.setH (.msiSent src) 0).setHb (.presented src) false).setHb (.coreIdle t) false
      (p * 2 ^ 24 + src, intcUpdate s)

/-- CLAIM (R476). -/
def execClaim (r : Req) (t : Fin 4) (s : State) : Host.Outcome State Fault Refusal :=
  done (readFor r (Reg.INTC.CLAIM t) (claim r t) s)

/-- A write of `EOI[t]` (R478, R479). -/
def eoi (r : Req) (t v : Nat) (s : State) : State :=
  match stackOf s t with
  | (_, src, _) :: _ =>
    if src = v % 2 ^ 12 then
      match s.intStacks.findIdx? fun e => e.1 == t with
      | some i => intcUpdate { s with intStacks := s.intStacks.eraseIdx i }
      | none => s
    else raise intcPage 1 (errReq intcPage 0x11 r (Reg.INTC.EOI t) v (bump Reg.INTC.EOI_BAD s))
  | [] => raise intcPage 1 (errReq intcPage 0x11 r (Reg.INTC.EOI t) v (bump Reg.INTC.EOI_BAD s))

/-- EOI (R478). -/
def execEoi (r : Req) (t : Fin 4) (v : W32) (s : State) : Host.Outcome State Fault Refusal :=
  done (gateWrite r (Reg.INTC.EOI t) (eoi r t v.toNat) s)

/-- A write of `SETPRI[t]` (R479). -/
def setpri (r : Req) (t v : Nat) (s : State) : State :=
  if 16 ≤ (stackOf s t).length then stackFull r (Reg.INTC.SETPRI t) 0 s
  else intcUpdate ({ s with intStacks := (t, 0, v % 16) :: s.intStacks }.setHb (.coreIdle t) false)

/-- SETPRI (R479). -/
def execSetpri (r : Req) (t : Fin 4) (v : W32) (s : State) : Host.Outcome State Fault Refusal :=
  done (gateWrite r (Reg.INTC.SETPRI t) (setpri r t v.toNat) s)

/-- The bits of word `w` of PEND and MASK that exist: not those of sources 0x000 and 0xFFF (R473). -/
def srcBits (w v : Nat) : Nat := v &&& (if w = 0 then 0xFFFFFFFE else if w = 127 then 0x7FFFFFFF else 0xFFFFFFFF)

/-- A software write of `PEND[w]` (R473): a bit cleared after an unread hardware set is marked in `LOST`. -/
def pendWrite (w v : Nat) (s : State) : State :=
  let v := srcBits w v
  let cleared := s.reg (Reg.INTC.PEND w) &&& (v ^^^ 0xFFFFFFFF)
  let lost := cleared &&& s.hn (.intcUnread w)
  let s := (s.setReg (Reg.INTC.PEND w) v).setReg (Reg.INTC.LOST w) (s.reg (Reg.INTC.LOST w) ||| lost)
  let s := s.setH (.intcUnread w) (s.hn (.intcUnread w) &&& (cleared ^^^ 0xFFFFFFFF) : Nat)
  intcUpdate (forEach (bitsOf cleared 32) s fun b s => s.setHb (.presented (32 * w + b)) false)

/-- PEND_WRITE (R473). -/
def execPendWrite (r : Req) (w : Fin 128) (v : W32) (s : State) : Host.Outcome State Fault Refusal :=
  done (gateWrite r (Reg.INTC.PEND w) (pendWrite w v.toNat) s)

/-- A software write of `MASK[w]` (R473, R476). -/
def intcMask (w v : Nat) (s : State) : State := intcUpdate (s.setReg (Reg.INTC.MASK w) (srcBits w v))

/-- INTC_MASK_WRITE (R476). -/
def execIntcMaskWrite (r : Req) (w : Fin 128) (v : W32) (s : State) : Host.Outcome State Fault Refusal :=
  done (gateWrite r (Reg.INTC.MASK w) (intcMask w v.toNat) s)

/-- The hold-off of a group ends for a target (R480). -/
def holdoffEnd (w t : Nat) (s : State) : State :=
  if !s.hb (.holdRun w t) then s
  else
    let s := waitRoot (s.hn (.holdAt w t) + cycUs (s.reg (Reg.INTC.HOLDOFF w))) s
    intcUpdate (s.setHb (.holdRun w t) false)

/-- HOLDOFF_EXPIRE (R480): of group `w` for target `t`. -/
def execHoldoffExpire (w : Fin 128) (t : Fin 4) (s : State) : Host.Outcome State Fault Refusal :=
  done (s.ifLive intcPage (holdoffEnd w t))

/-- Whether the processor of a target executes: the boot core, or a control core that its load has started (R462). -/
def targetRuns (s : State) (t : Nat) : Bool := t == 0 || (2 ≤ coreState s (t - 1) && coreState s (t - 1) ≤ 4)

/-- CORE_IDLE_ENTER (R480): a core executes its wait-for-interrupt state, and its stack is empty. -/
def execCoreIdleEnter (t : Fin 3) (s : State) : Host.Outcome State Fault Refusal :=
  done (s.when ((stackOf s t).isEmpty && s.live intcPage && targetRuns s t) fun s => intcUpdate (s.setHb (.coreIdle t) true))

/-- `TGT_STS[t]` as read (R488). -/
def tgtSts (s : State) (t : Nat) : Nat :=
  ofB (tgtIdle s t) * 2 ^ 31 + (stackOf s t).length * 2 ^ 16 + runPrio s t * 2 ^ 8 + ofB (!(presentable s t).isEmpty)

/-! ### The periodic frame engine (R482 to R486, R489) -/

/-- PERIOD of an entry in ns. -/
def pfePeriod (e : Nat) : Nat := word e 2 + 2 ^ 32 * fld (word e 3) 0 5

/-- The first instant T_k, k ≥ 0, at or after `t` ns of the time base (R482). -/
def pfeFirst (s : State) (e t : Nat) : Nat :=
  let base := nearTime s (word e 5) (fld (word e 4) 0 30) / 16
  if (t : Int) ≤ base then base.toNat else (base + cdiv ((t : Int) - base).toNat (pfePeriod e) * pfePeriod e).toNat

/-- An entry starts: its first instant is the first T_k at or after now plus 1 µs (R482). -/
def pfeArm (i : Nat) (s : State) : State :=
  let e := s.tab pfePage 1 i
  if bit e 31 ∧ pfePeriod e ≠ 0 then s.setH (.pfeNext i) (pfeFirst s e (cdiv s.tb unitsNs + 1000) + 1 : Nat) else s.setH (.pfeNext i) 0

/-- Every enabled entry starts again, after its page was disabled or reset. -/
def pfeRearm (s : State) : State := forEach (s.tabList pfePage 1) s fun e s => pfeArm e.1 s

/-- WRITE of an entry (R489); its RO counts stay. -/
def pfeEntryWrite (w : Win) (s : State) : TblRes :=
  let e := w.data &&& ofWords [0xFC07FFFF, 0xFFFC01FF, 0xFFFFFFFF, 0x1F, 0x3FFFFFFF, 0xFFFFFFFF, 0x80FFFFFF]
  let len := fld (word e 1) 0 9
  let q := fld e 0 19
  let p := pfePeriod e
  if fld e 28 2 = 3 ∨ fld e 26 2 = 3 ∨ 393215 < q ∨ len < 60 ∨ 252 < len ∨ (bit e 31 ∧ (p < 1000 ∨ 100000000000 < p)) ∨
      len < fld (word e 6) 16 8 + 2 ∨ (bit e 30 ∧ (isVoq q ∨ 128 ≤ portOf s (q - egqBase))) then w.fail 0x10 s
  else
    let old := s.tab pfePage 1 w.idx
    Win.ok none (pfeArm w.idx (s.setTab pfePage 1 w.idx (e + word old 7 * 2 ^ 224 + word old 8 * 2 ^ 256)))

/-- The table commands of the PFE page (R489). -/
def pfeTable (op : Nat) (w : Win) (s : State) : TblRes :=
  match w.sel, op with
  | 1, 1 => w.read 65536 9 s
  | 1, 2 => if w.idx < 65536 then pfeEntryWrite w s else w.fail 0x04 s
  | 2, 1 => w.read 65536 16 s
  | 2, 2 => if w.idx < 65536 then Win.ok none (s.setTab pfePage 2 w.idx w.data) else w.fail 0x04 s
  | _, _ => w.fail 0x03 s

/-- Enabled entries that have an instant to come. -/
def pfeEntries (s : State) : List (Nat × Nat) := (s.tabList pfePage 1).filter fun e => bit e.2 31 && s.h (.pfeNext e.1) != 0

/-- `PFE.LOAD` as read: the sum of 1 ÷ PERIOD of the enabled entries in frames/s (R489). -/
def pfeLoad (s : State) : Nat :=
  let (n, d) := (pfeEntries s).foldl (fun (n, d) e => (n * pfePeriod e.2 + 10 ^ 9 * d, d * pfePeriod e.2)) (0, 1)
  n / d % 2 ^ 27

/-- The instant in ns at which the next frame of an entry is handed over (R482). -/
def pfeDue (s : State) (i e : Nat) : Nat :=
  let t := s.hn (.pfeNext i) - 1
  if bit e 30 then t - s.reg Reg.PFE.LEAD else t

/-- The entry served next: the earliest instant, lowest number on ties (R485). -/
def pfePick (s : State) : Option (Nat × Nat) :=
  (pfeEntries s).foldl (fun best x => match best with
    | none => some x
    | some b => if pfeDue s x.1 x.2 < pfeDue s b.1 b.2 then some x else some b) none

/-- The bytes of a template block, byte 0 first (R489). -/
def pfeTemplate (s : State) (b : Nat) : List Byte :=
  (List.range 64).flatMap fun j => beBytes 4 (s.tabW pfePage 2 (4 * b + j / 16) (j % 16))

/-- The frame of entry `i` for the instant `t` in ns (R482, R483), and the entry with its SEQ advanced. -/
def pfeBuild (i t : Nat) (s : State) : Frame × State :=
  let e := s.tab pfePage 1 i
  let bs := (pfeTemplate s (fld (word e 1) 18 14)).take (fld (word e 1) 0 9)
  let seq := fld (word e 6) 0 16
  let bs := if bit (word e 6) 31 then overwrite bs (fld (word e 6) 16 8) (beBytes 2 seq) else bs
  let s := if bit (word e 6) 31 then s.setTab pfePage 1 i (setFld e 192 16 (seq + 1)) else s
  let q := fld e 0 19
  let launch := if bit e 30 then some (t / 10 ^ 9 % 2 ^ 32 * 2 ^ 32 + t % 10 ^ 9) else none
  ({ id := s.hn .nextId, loc := .toQ q, bytes := bs, birth := in16 s.fol, cls := queueClass s q, noRw := true, osOvr := true,
     onestep := fld e 28 2, tsrc := fld e 26 2, launch := launch, lsrc := 0, pfe := i + 1, pfeEnd := t + pfePeriod e }, s)

/-- PFE_EMISSION (R482, R485): the entry due next is served; an instant whose successor has passed is missed. -/
def pfeEmit (carry : Bool) (s : State) : State :=
  match pfePick s with
  | none => s
  | some (i, e) =>
    let t := s.hn (.pfeNext i) - 1
    let due := pfeDue s i e
    let s := waitRoot (s.hn .pfeFree) (advanceTo (due * 2 ^ 48) s)
    if s.nowNs < due then s else
    let s := s.setH (.pfeNext i) (t + pfePeriod e + 1 : Nat)
    if t + pfePeriod e ≤ s.nowNs then pfeMiss i (pfeBuild i t s).2 else
    let (f, s) := pfeBuild i t (s.setH .pfeFree (s.root + 64 : Nat))
    let s := s.newFrame f
    if s.live bridgePage then offerTo carry (fld e 0 19) f s else dropDisabled bridgePage f s

/-- PFE_EMISSION (R482): `carry` tells whether the queue's request for a buffer is carried to a later Q-clock cycle (R319). -/
def execPfeEmission (carry : Bool) (s : State) : Host.Outcome State Fault Refusal :=
  done (s.when (s.live pfePage && s.timeRuns) (pfeEmit carry))

/-- Whether a PFE frame has not started towards its port or the fabric (R484). -/
def pfeHeld (f : Frame) : Bool :=
  match f.loc with
  | .toQ _ | .carried _ | .queued _ | .launch _ => !f.started
  | .epipe _ | .mac _ => f.launch.isSome && !f.started
  | _ => false

/-- The oldest frame of entry `i` that has not started by its successor's instant is dropped (R484). -/
def pfeMissed (i : Nat) (s : State) : State :=
  match s.frames.find? fun f => f.pfe == i + 1 && pfeHeld f with
  | none => s
  | some f =>
    let s := advanceTo (f.pfeEnd * 2 ^ 48) s
    if s.nowNs < f.pfeEnd then s else
    let s := pfeMiss i (s.drop f)
    match f.loc with
    | .queued q => queueLeft q s
    | _ => s

/-- PFE_MISSED (R484): of entry `i`. -/
def execPfeMissed (i : Fin 65536) (s : State) : Host.Outcome State Fault Refusal :=
  done (s.when (s.live pfePage && s.timeRuns) (pfeMissed i))

end Sys2Proof.Machine
end

