-- ==== Sys2Proof/Machine/Directory.lean ====
section
/-!
DEFINITION. The Lindun directory and the expansion-ROM window that holds it (R498 to R501, spec/13_host_interface.md). The order
of the tables, the place of the strings, the names' spelling and the PCI Data Structure's place are the model's own: DESIGN
CHOICE; the layout of the PCI Data Structure is that of the PCI Firmware specification: PRESUMED (notes/assumptions/92.md).
-/
namespace Sys2Proof.Machine

/-! ### What the directory lists -/

/-- A field as the directory lists it (R500): its most and least significant bit, its access code and its name. -/
structure DirField where
  msb : Nat
  lsb : Nat
  acc : Nat
  name : String
  deriving DecidableEq, Repr

/-- A register as the directory names it (R500): its name, its access code, 8 where its fields differ, and its fields; offset,
reset value and instances are those of its row of the register map. -/
structure DirReg where
  name : String
  acc : Nat
  fields : List DirField
  deriving DecidableEq, Repr

/-- The name of a block (R36). -/
def PageKind.name : PageKind → String
  | .GLB => "GLB"
  | .TIME => "TIME"
  | .INTC => "INTC"
  | .PEG => "PEG"
  | .SEC => "SEC"
  | .HOST => "HOST"
  | .SNAP => "SNAP"
  | .FAULT => "FAULT"
  | .CAPO => "CAPO"
  | .PAIR => "PAIR"
  | .PFE => "PFE"
  | .BPM => "BPM"
  | .LPORT => "LPORT"
  | .LG => "LG"
  | .OTN => "OTN"
  | .OHP => "OHP"
  | .IPIPE => "IPIPE"
  | .EPIPE => "EPIPE"
  | .LPM => "LPM"
  | .EM => "EM"
  | .TCAM => "TCAM"
  | .ADJ => "ADJ"
  | .L2 => "L2"
  | .POL => "POL"
  | .QMGR => "QMGR"
  | .SCHED => "SCHED"
  | .SHAPE => "SHAPE"
  | .CELL => "CELL"
  | .SPILL => "SPILL"
  | .FG => "FG"
  | .FAB => "FAB"
  | .DSC => "DSC"
  | .BRIDGE => "BRIDGE"

/-- The registers of the common page header (R39 to R54, R561), in the order of `headerRows`. -/
def dirHeader : List DirReg :=
  [⟨"BLK_ID", 1, [⟨31, 16, 1, "CODE"⟩, ⟨15, 0, 1, "INST"⟩]⟩,
   ⟨"BLK_VER", 1, [⟨31, 24, 1, "MAJOR"⟩, ⟨23, 16, 1, "MINOR"⟩, ⟨15, 8, 1, "PROF_MAX"⟩]⟩, ⟨"BLK_CAPS", 1, []⟩,
   ⟨"BLK_CTL", 8, [⟨3, 3, 0, "DRONE"⟩, ⟨2, 2, 5, "LOCK"⟩, ⟨1, 1, 5, "SRST"⟩, ⟨0, 0, 0, "EN"⟩]⟩,
   ⟨"BLK_STS", 1, [⟨3, 3, 1, "PWR_ON"⟩, ⟨2, 2, 1, "ERR"⟩, ⟨1, 1, 1, "BUSY"⟩, ⟨0, 0, 1, "READY"⟩]⟩,
   ⟨"BLK_PWR", 1, [⟨21, 16, 1, "DOMAIN"⟩, ⟨1, 0, 1, "STATE"⟩]⟩, ⟨"EVT_PEND", 0, []⟩, ⟨"EVT_MASK", 0, []⟩,
   ⟨"EVT_LOST", 4, []⟩, ⟨"EVT_SRC", 6, []⟩,
   ⟨"ERR_FIRST", 8, [⟨31, 31, 4, "VALID"⟩, ⟨30, 24, 1, "CODE"⟩, ⟨23, 20, 1, "REQ"⟩, ⟨19, 0, 1, "ARG"⟩]⟩,
   ⟨"ERR_INFO", 1, []⟩, ⟨"ERR_CNT", 3, []⟩, ⟨"PERF_CYC", 1, []⟩,
   ⟨"PERF_CTL", 0, [⟨31, 31, 0, "EN"⟩, ⟨30, 30, 0, "CHAIN"⟩, ⟨29, 29, 0, "SAMPLE"⟩, ⟨28, 24, 0, "RELOAD"⟩, ⟨11, 0, 0, "EVENT"⟩]⟩,
   ⟨"PERF_CNT", 0, []⟩, ⟨"TBL_SEL", 0, []⟩, ⟨"TBL_IDX", 0, []⟩, ⟨"TBL_CMD", 2, [⟨7, 0, 2, "OP"⟩]⟩,
   ⟨"TBL_STS", 1, [⟨31, 31, 1, "BUSY"⟩, ⟨30, 30, 1, "ERR"⟩, ⟨6, 0, 1, "CODE"⟩]⟩, ⟨"TBL_DATA", 0, []⟩]

/-- The block-specific registers of BRIDGE, in the order of `rowsBRIDGE`. -/
def dirBRIDGE : List DirReg :=
  [⟨"SPARE_THR", 0, [⟨15, 0, 0, "SPARE_THR"⟩]⟩, ⟨"BND_DOWN_FQ", 1, []⟩, ⟨"BND_DOWN_QF", 1, []⟩,
   ⟨"CAP_FQ", 1, [⟨15, 0, 1, "CAP_FQ"⟩]⟩, ⟨"CAP_QF", 1, [⟨15, 0, 1, "CAP_QF"⟩]⟩,
   ⟨"BND_STS_FQ", 1, [⟨2, 0, 1, "BND_STS_FQ"⟩]⟩, ⟨"BND_STS_QF", 1, [⟨2, 0, 1, "BND_STS_QF"⟩]⟩,
   ⟨"CRC_ERR_CNT", 1, []⟩, ⟨"REPLAY_CNT", 1, []⟩, ⟨"SPARED_CNT", 1, []⟩]

/-- The block-specific registers of TIME, in the order of `rowsTIME`. -/
def dirTIME : List DirReg :=
  [⟨"TB_FRAC", 1, [⟨15, 0, 1, "TB_FRAC"⟩]⟩, ⟨"TB_NS", 1, [⟨29, 0, 1, "TB_NS"⟩]⟩, ⟨"TB_SEC_LO", 1, []⟩,
   ⟨"TB_SEC_HI", 1, [⟨15, 0, 1, "TB_SEC_HI"⟩]⟩, ⟨"RATE_TB_LO", 0, []⟩, ⟨"RATE_TB_HI", 0, []⟩, ⟨"STEP_SEC", 0, []⟩,
   ⟨"STEP_NS", 0, []⟩, ⟨"STEP_FRAC", 0, [⟨15, 0, 0, "STEP_FRAC"⟩]⟩, ⟨"STEP_CMD", 2, [⟨0, 0, 2, "STEP_CMD"⟩]⟩,
   ⟨"STEP_REARM", 2, [⟨0, 0, 2, "STEP_REARM"⟩]⟩,
   ⟨"TB_CTL", 8, [⟨11, 11, 1, "SLEWING"⟩, ⟨10, 10, 1, "STEP_ARMED"⟩, ⟨8, 8, 0, "HOLD_AUTO"⟩, ⟨5, 4, 0, "TB_STATE"⟩, ⟨1, 0, 0, "TB_SEL"⟩]⟩,
   ⟨"SLEW_MAX", 0, [⟨9, 0, 0, "SLEW_MAX"⟩]⟩, ⟨"TOD_CFG", 0, [⟨2, 0, 0, "BAUD"⟩]⟩,
   ⟨"TOD_OUT_INFO0", 0, [⟨31, 16, 0, "UTC_OFFSET"⟩, ⟨15, 8, 0, "FLAGS"⟩, ⟨7, 0, 0, "CLOCK_CLASS"⟩]⟩,
   ⟨"TOD_OUT_INFO1", 0, [⟨23, 16, 0, "CLOCK_ACCURACY"⟩, ⟨15, 8, 0, "DOMAIN"⟩, ⟨7, 0, 0, "TIME_SOURCE"⟩]⟩,
   ⟨"TOD_IN", 1, []⟩, ⟨"TOD_STS", 1, [⟨0, 0, 1, "LOSS"⟩]⟩,
   ⟨"TSU_TS_CTL", 0, [⟨2, 2, 0, "WIN_EN"⟩, ⟨1, 1, 0, "TL_GUARD"⟩, ⟨0, 0, 0, "TS_EN"⟩]⟩,
   ⟨"TSU_MODE_RX", 1, [⟨19, 0, 1, "TSU_MODE_RX"⟩]⟩, ⟨"TSU_MODE_TX", 1, [⟨19, 0, 1, "TSU_MODE_TX"⟩]⟩,
   ⟨"TSU_RX_TRIM", 0, [⟨11, 0, 0, "TSU_RX_TRIM"⟩]⟩, ⟨"TSU_TX_TRIM", 0, [⟨11, 0, 0, "TSU_TX_TRIM"⟩]⟩,
   ⟨"TSU_DESKEW_RX", 1, [⟨15, 0, 1, "TSU_DESKEW_RX"⟩]⟩] ++
  [⟨"TSU_TL_TOL", 0, [⟨15, 0, 0, "TSU_TL_TOL"⟩]⟩, ⟨"TSU_TL_LEAD", 0, [⟨15, 0, 0, "TSU_TL_LEAD"⟩]⟩,
   ⟨"TSU_WIN_PERIOD", 0, [⟨29, 0, 0, "TSU_WIN_PERIOD"⟩]⟩, ⟨"TSU_WIN_BASE_NS", 0, []⟩, ⟨"TSU_WIN_BASE_SEC", 0, []⟩,
   ⟨"TSU_WIN_COMMIT", 2, [⟨0, 0, 2, "TSU_WIN_COMMIT"⟩]⟩, ⟨"TRK_FRAC", 1, []⟩, ⟨"TRK_NS", 1, []⟩,
   ⟨"TRK_SEC_LO", 1, []⟩, ⟨"TRK_SEC_HI", 1, []⟩, ⟨"TRK_RATE_LO", 0, []⟩, ⟨"TRK_RATE_HI", 0, []⟩,
   ⟨"TRK_STEP_SEC", 0, []⟩, ⟨"TRK_STEP_NS", 0, []⟩, ⟨"TRK_STEP_FRAC", 0, [⟨15, 0, 0, "TRK_STEP_FRAC"⟩]⟩,
   ⟨"TRK_STEP_CMD", 8, [⟨31, 16, 1, "LAST_TAG"⟩, ⟨15, 0, 2, "TAG"⟩]⟩,
   ⟨"TRK_REF_CFG", 0, [⟨31, 31, 0, "EN"⟩, ⟨19, 16, 0, "SYNC_IVL"⟩, ⟨15, 8, 0, "DOMAIN"⟩, ⟨6, 0, 0, "PORT"⟩]⟩,
   ⟨"TRK_REF_STS", 1, [⟨0, 0, 1, "LOSS"⟩]⟩, ⟨"PPS_IN_CFG", 0, [⟨31, 31, 0, "EN"⟩, ⟨10, 0, 0, "MIN_INT"⟩]⟩,
   ⟨"PPS_IN_TS_FRAC", 1, []⟩, ⟨"PPS_IN_TS_NS", 1, []⟩, ⟨"PPS_IN_TS_SEC_LO", 1, []⟩, ⟨"PPS_IN_TS_SEC_HI", 1, []⟩,
   ⟨"PPS_IN_STS", 1, [⟨1, 1, 1, "QUAR"⟩, ⟨0, 0, 1, "LOSS"⟩]⟩] ++
  [⟨"PPS_IN_REARM", 2, [⟨0, 0, 2, "PPS_IN_REARM"⟩]⟩,
   ⟨"PPS_OUT_CFG", 0, [⟨31, 31, 0, "EN"⟩, ⟨30, 30, 0, "SQUELCH"⟩, ⟨1, 0, 0, "SRC"⟩]⟩,
   ⟨"PPS_OUT_OFFSET", 0, [⟨29, 0, 0, "PPS_OUT_OFFSET"⟩]⟩, ⟨"PPS_OUT_WIDTH", 0, [⟨18, 0, 0, "PPS_OUT_WIDTH"⟩]⟩,
   ⟨"RCLK", 8, [⟨31, 16, 0, "DIV"⟩, ⟨15, 15, 0, "EN"⟩, ⟨14, 14, 1, "SQUELCHED"⟩, ⟨6, 0, 0, "LANE"⟩]⟩,
   ⟨"FREQ_CFG", 0, [⟨31, 31, 0, "EN"⟩, ⟨23, 0, 0, "DIV"⟩]⟩, ⟨"FREQ_TS_FRAC", 1, []⟩, ⟨"FREQ_TS_NS", 1, []⟩,
   ⟨"FREQ_TS_SEC_LO", 1, []⟩, ⟨"FREQ_TS_SEC_HI", 1, []⟩, ⟨"STEP_CNT", 1, []⟩, ⟨"REARM_CNT", 1, []⟩,
   ⟨"LOCK_ACQ_CNT", 1, []⟩, ⟨"TOD_BAD_CNT", 1, []⟩, ⟨"TOD_EXTRA_CNT", 1, []⟩, ⟨"PPS_FAST_CNT", 1, []⟩,
   ⟨"LATE_DROP", 1, []⟩, ⟨"WIN_DEFER", 1, []⟩, ⟨"ONESTEP_DROP", 1, []⟩, ⟨"RANGE_DROP", 1, []⟩]

/-- The block-specific registers of LPORT, in the order of `rowsLPORT`. -/
def dirLPORT : List DirReg :=
  [
   ⟨"MAC_CFG", 0, [⟨19, 18, 0, "FC_MODE"⟩, ⟨17, 17, 0, "CT_EN"⟩, ⟨16, 16, 0, "TX_EN"⟩, ⟨15, 15, 0, "RX_EN"⟩, ⟨13, 0, 0, "MTU"⟩]⟩,
   ⟨"PFC_TX_CFG", 0, [⟨31, 16, 0, "QUANTA"⟩, ⟨15, 0, 0, "REFRESH"⟩]⟩, ⟨"PFC_RX_EN", 0, [⟨7, 0, 0, "PFC_RX_EN"⟩]⟩,
   ⟨"MAC_SA_LO", 0, []⟩, ⟨"MAC_SA_HI", 0, [⟨15, 0, 0, "MAC_SA_HI"⟩]⟩,
   ⟨"LINK_CFG", 0, [⟨9, 8, 0, "LOOPBACK"⟩, ⟨7, 0, 0, "UP_HOLD"⟩]⟩, ⟨"FEC_DEG_THR", 0, [⟨23, 0, 0, "FEC_DEG_THR"⟩]⟩,
   ⟨"LINK_STS", 1, [⟨23, 16, 1, "LANE_LOCK"⟩, ⟨9, 9, 1, "FEC_DEG"⟩, ⟨7, 7, 1, "RF"⟩, ⟨6, 6, 1, "LF"⟩, ⟨2, 0, 1, "STATE"⟩]⟩,
   ⟨"LANE_SKEW", 1, [⟨15, 0, 1, "LANE_SKEW"⟩]⟩, ⟨"BW_CFG", 0, []⟩, ⟨"BW_SEQ", 1, []⟩, ⟨"BW_RX", 1, []⟩,
   ⟨"BW_TX", 1, []⟩, ⟨"BW_RX_MAX", 1, []⟩, ⟨"BW_TX_MAX", 1, []⟩, ⟨"RX_FRAMES", 1, []⟩, ⟨"RX_BYTES", 1, []⟩,
   ⟨"RX_FCS_ERR", 1, []⟩, ⟨"RX_UNDERSIZE", 1, []⟩, ⟨"RX_FRAGMENT", 1, []⟩, ⟨"RX_OVERSIZE", 1, []⟩,
   ⟨"RX_TRUNC", 1, []⟩, ⟨"RX_BAD_MARKED", 1, []⟩, ⟨"RX_BADTAIL_DISC", 1, []⟩] ++
  [⟨"RX_PAUSE", 1, []⟩, ⟨"RX_MACCTL_DISC", 1, []⟩, ⟨"FEC_CW_CORR", 1, []⟩, ⟨"FEC_CW_UNCORR", 1, []⟩,
   ⟨"FEC_SYM_CORR", 1, []⟩, ⟨"LINK_UP_CNT", 1, []⟩, ⟨"TX_FRAMES", 1, []⟩, ⟨"TX_BYTES", 1, []⟩,
   ⟨"TX_BAD_TAIL", 1, []⟩, ⟨"TX_BAD_DISC", 1, []⟩, ⟨"TX_ABORT", 1, []⟩, ⟨"TX_DOWN_DROP", 1, []⟩, ⟨"TX_PAUSE", 1, []⟩,
   ⟨"RX_PFC", 1, []⟩, ⟨"TX_PFC", 1, []⟩]

/-- The block-specific registers of LG, in the order of `rowsLG`. -/
def dirLG : List DirReg :=
  [⟨"MAP_LO", 0, []⟩, ⟨"MAP_HI", 0, []⟩, ⟨"MAP_COMMIT", 2, [⟨0, 0, 2, "MAP_COMMIT"⟩]⟩, ⟨"ACT_LO", 1, []⟩,
   ⟨"ACT_HI", 1, []⟩, ⟨"RECIRC_SHARE", 0, [⟨4, 0, 0, "RECIRC_SHARE"⟩]⟩,
   ⟨"LANE_CFG", 0, [⟨27, 22, 0, "POST1"⟩, ⟨21, 16, 0, "MAIN"⟩, ⟨15, 10, 0, "PRE1"⟩, ⟨9, 4, 0, "PRE2"⟩, ⟨1, 1, 0, "RX_INV"⟩, ⟨0, 0, 0, "TX_INV"⟩]⟩,
   ⟨"PIPE_DROP", 1, []⟩, ⟨"RECIRC_FRAMES", 1, []⟩, ⟨"RECIRC_BAD_DISC", 1, []⟩]

/-- The block-specific registers of OTN, in the order of `rowsOTN`. -/
def dirOTN : List DirReg :=
  [
   ⟨"CFG", 0, [⟨31, 30, 0, "TX_FORCE"⟩, ⟨29, 29, 0, "TIM_ACT_SM"⟩, ⟨28, 28, 0, "TIM_ACT_PMF"⟩, ⟨27, 27, 0, "PLM_EN"⟩, ⟨26, 26, 0, "MSIM_EN"⟩, ⟨25, 24, 0, "TIM_MODE_SM"⟩, ⟨23, 22, 0, "TIM_MODE_PMC"⟩, ⟨21, 20, 0, "TIM_MODE_PMF"⟩, ⟨17, 6, 0, "TIM_MODE_TCM"⟩, ⟨5, 0, 0, "TCM_EN"⟩]⟩,
   ⟨"DEG_CFG", 0, [⟨31, 28, 0, "DEG_M"⟩, ⟨23, 0, 0, "DEG_THR"⟩]⟩, ⟨"GID_TX", 0, [⟨19, 0, 0, "GID_TX"⟩]⟩,
   ⟨"GID_EXP", 0, [⟨19, 0, 0, "GID_EXP"⟩]⟩,
   ⟨"PT", 0, [⟨31, 24, 0, "EXP_C"⟩, ⟨23, 16, 0, "TX_C"⟩, ⟨15, 8, 0, "EXP_F"⟩, ⟨7, 0, 0, "TX_F"⟩]⟩,
   ⟨"DEF_STS", 1, []⟩, ⟨"DEF_CHG", 4, []⟩, ⟨"TCM_STS", 1, [⟨29, 0, 1, "TCM_STS"⟩]⟩,
   ⟨"TCM_STAT", 1, [⟨17, 0, 1, "TCM_STAT"⟩]⟩,
   ⟨"ALIGN_STS", 1, [⟨23, 16, 1, "IM"⟩, ⟨15, 8, 1, "IF"⟩, ⟨7, 0, 1, "MFAS"⟩]⟩,
   ⟨"FX_SKEW", 1, [⟨15, 0, 1, "FX_SKEW"⟩]⟩, ⟨"ACC_PT", 1, [⟨15, 8, 1, "C"⟩, ⟨7, 0, 1, "F"⟩]⟩, ⟨"FX_CW_CORR", 1, []⟩,
   ⟨"FX_CW_UNCORR", 1, []⟩, ⟨"SM_BIP", 1, []⟩, ⟨"SM_BEI", 1, []⟩, ⟨"PMC_BIP", 1, []⟩, ⟨"PMC_BEI", 1, []⟩,
   ⟨"PMF_BIP", 1, []⟩, ⟨"PMF_BEI", 1, []⟩, ⟨"TCM_BIP1", 1, []⟩, ⟨"TCM_BIP2", 1, []⟩, ⟨"TCM_BIP3", 1, []⟩,
   ⟨"TCM_BIP4", 1, []⟩] ++
  [⟨"TCM_BIP5", 1, []⟩, ⟨"TCM_BIP6", 1, []⟩, ⟨"CAND_DROP", 1, []⟩, ⟨"ALIGN_AMBIG", 1, []⟩, ⟨"OOF_CNT", 1, []⟩]

/-- The block-specific registers of OHP, in the order of `rowsOHP`. -/
def dirOHP : List DirReg :=
  [⟨"CFG", 0, []⟩,
   ⟨"STS", 1, [⟨9, 7, 1, "DI_FILL"⟩, ⟨6, 4, 1, "DO_FILL"⟩, ⟨1, 1, 1, "UNBOUND"⟩, ⟨0, 0, 1, "CLK_LOSS"⟩]⟩,
   ⟨"RECENTRE", 2, [⟨0, 0, 2, "RECENTRE"⟩]⟩, ⟨"CLK_MEAS", 1, [⟨27, 0, 1, "CLK_MEAS"⟩]⟩, ⟨"DO_REPEAT", 1, []⟩,
   ⟨"DO_DROP", 1, []⟩, ⟨"DI_REPEAT", 1, []⟩, ⟨"DI_DROP", 1, []⟩, ⟨"DO_FRAMES", 1, []⟩, ⟨"DI_FRAMES", 1, []⟩]

/-- The block-specific registers of IPIPE, in the order of `rowsIPIPE`. -/
def dirIPIPE : List DirReg :=
  [⟨"PORT_CFG", 0, [⟨23, 22, 0, "FAIL_ACT"⟩, ⟨19, 16, 0, "PORT_CLS"⟩, ⟨7, 0, 0, "START_NODE"⟩]⟩,
   ⟨"SYSPORT", 0, [⟨14, 0, 0, "SYSPORT"⟩]⟩, ⟨"PARSE_OK", 1, []⟩, ⟨"PARSE_FAIL", 1, []⟩, ⟨"FRAG_CNT", 1, []⟩,
   ⟨"CLS_NULL", 1, []⟩, ⟨"FWD_BRIDGE", 1, []⟩, ⟨"FWD_ROUTE", 1, []⟩, ⟨"FWD_MPLS", 1, []⟩, ⟨"IF_MISS", 1, []⟩,
   ⟨"NO_FWD_MODE", 1, []⟩, ⟨"L2_DMISS", 1, []⟩, ⟨"L2_HAIRPIN", 1, []⟩, ⟨"L2_NOPORT", 1, []⟩, ⟨"LPM_MISS", 1, []⟩,
   ⟨"MPLS_MISS", 1, []⟩, ⟨"TTL_EXP", 1, []⟩, ⟨"ECMP_INVALID", 1, []⟩, ⟨"ADJ_DROP", 1, []⟩, ⟨"RECIRC_LIMIT", 1, []⟩,
   ⟨"PAR_MISS", 1, []⟩]

/-- The block-specific registers of EPIPE, in the order of `rowsEPIPE`. -/
def dirEPIPE : List DirReg :=
  [⟨"PORT_CFG", 0, [⟨13, 0, 0, "TX_MTU"⟩]⟩, ⟨"FRAMES", 1, []⟩, ⟨"RW_FRAMES", 1, []⟩, ⟨"PASS_FRAMES", 1, []⟩,
   ⟨"ADJ_ERR", 1, []⟩, ⟨"RW_ERR", 1, []⟩, ⟨"MTU_DROP", 1, []⟩]

/-- The block-specific registers of TCAM, in the order of `rowsTCAM`. -/
def dirTCAM : List DirReg :=
  [⟨"LKP_CFG", 0, [⟨1, 0, 0, "WIDTH"⟩]⟩, ⟨"CHAIN_ERR", 1, []⟩, ⟨"FULL_GRP", 1, [⟨14, 0, 1, "FULL_GRP"⟩]⟩,
   ⟨"SCRUB_LAST", 1, [⟨17, 0, 1, "SCRUB_LAST"⟩]⟩, ⟨"SLICE_CFG", 0, [⟨1, 1, 0, "LOOKUP"⟩, ⟨0, 0, 0, "EN"⟩]⟩,
   ⟨"VALID_ROWS", 1, [⟨11, 0, 1, "VALID_ROWS"⟩]⟩, ⟨"LKP_HIT", 1, []⟩, ⟨"LKP_MISS", 1, []⟩, ⟨"LKP_MULTI", 1, []⟩,
   ⟨"SCRUB_ERR", 1, []⟩, ⟨"ROW_MOVES", 1, []⟩]

/-- The block-specific registers of LPM, in the order of `rowsLPM`. -/
def dirLPM : List DirReg :=
  [⟨"UNITS_USED", 1, [⟨23, 0, 1, "UNITS_USED"⟩]⟩, ⟨"UNITS_CAP", 1, [⟨23, 0, 1, "UNITS_CAP"⟩]⟩,
   ⟨"ROUTES_V4", 1, [⟨23, 0, 1, "ROUTES_V4"⟩]⟩, ⟨"ROUTES_V6", 1, [⟨22, 0, 1, "ROUTES_V6"⟩]⟩, ⟨"PAR_ERR_LKP", 1, []⟩,
   ⟨"SCRUB_ERR", 1, []⟩, ⟨"REPAIRED", 1, []⟩]

/-- The block-specific registers of EM, in the order of `rowsEM`. -/
def dirEM : List DirReg :=
  [⟨"MPLS_SEED", 0, []⟩, ⟨"IFT_SEED", 0, []⟩, ⟨"MPLS_MISS_ADJ", 0, [⟨19, 0, 0, "MPLS_MISS_ADJ"⟩]⟩,
   ⟨"MPLS_ENT", 1, [⟨20, 0, 1, "MPLS_ENT"⟩]⟩, ⟨"IFT_ENT", 1, [⟨16, 0, 1, "IFT_ENT"⟩]⟩,
   ⟨"MPLS_OVF", 1, [⟨12, 0, 1, "MPLS_OVF"⟩]⟩, ⟨"IFT_OVF", 1, [⟨12, 0, 1, "IFT_OVF"⟩]⟩, ⟨"PAR_ERR_LKP", 1, []⟩,
   ⟨"INS_REJ", 1, []⟩, ⟨"SCRUB_ERR", 1, []⟩]

/-- The block-specific registers of ADJ, in the order of `rowsADJ`. -/
def dirADJ : List DirReg :=
  [⟨"ECMP_CFG", 0, [⟨7, 0, 0, "FIELDS"⟩]⟩, ⟨"ECMP_SEED", 0, []⟩, ⟨"PAR_ERR_LKP", 1, []⟩, ⟨"SCRUB_ERR", 1, []⟩]

/-- The block-specific registers of L2, in the order of `rowsL2`. -/
def dirL2 : List DirReg :=
  [⟨"EVICT", 0, [⟨1, 0, 0, "EVICT"⟩]⟩, ⟨"AGE_CFG", 0, [⟨31, 16, 0, "AGE_TICK"⟩, ⟨3, 0, 0, "AGE_TICKS"⟩]⟩,
   ⟨"MOVE_CFG", 0, [⟨11, 8, 0, "MOVE_WIN"⟩, ⟨3, 0, 0, "MOVE_MAX"⟩]⟩, ⟨"HASH_SEED", 0, []⟩, ⟨"TICK_NOW", 1, []⟩,
   ⟨"NOTIFY_CNT", 1, [⟨14, 0, 1, "NOTIFY_CNT"⟩]⟩, ⟨"NOTIFY_POP", 2, [⟨0, 0, 2, "NOTIFY_POP"⟩]⟩, ⟨"NOTIFY", 1, []⟩,
   ⟨"PAR_ERR_LKP", 1, []⟩, ⟨"ENT_CNT", 1, [⟨18, 0, 1, "ENT_CNT"⟩]⟩, ⟨"OVF_USED", 1, [⟨12, 0, 1, "OVF_USED"⟩]⟩,
   ⟨"LEARN_NEW", 1, []⟩, ⟨"MOVES", 1, []⟩, ⟨"FLAPS", 1, []⟩, ⟨"AGED", 1, []⟩, ⟨"AGE_SAVED", 1, []⟩,
   ⟨"EVICTED", 1, []⟩, ⟨"LEARN_REJ", 1, []⟩, ⟨"LEARN_OVF", 1, []⟩, ⟨"FROZEN_HIT", 1, []⟩, ⟨"STATIC_CONFLICT", 1, []⟩,
   ⟨"SRC_INVALID", 1, []⟩, ⟨"SCRUB_ERR", 1, []⟩, ⟨"NOTIFY_LOST", 1, []⟩]

/-- The block-specific registers of CAPO, in the order of `rowsCAPO`. -/
def dirCAPO : List DirReg :=
  [⟨"FLIP_CMD", 2, [⟨0, 0, 2, "FLIP_CMD"⟩]⟩, ⟨"FLIP_ARM", 2, [⟨1, 1, 2, "DISARM"⟩, ⟨0, 0, 2, "ARM"⟩]⟩,
   ⟨"FLIP_NS", 0, [⟨29, 0, 0, "FLIP_NS"⟩]⟩, ⟨"FLIP_SEC_LO", 0, []⟩, ⟨"FLIP_SEC_HI", 0, [⟨15, 0, 0, "FLIP_SEC_HI"⟩]⟩,
   ⟨"SETTLE", 0, [⟨15, 0, 0, "SETTLE"⟩]⟩,
   ⟨"STS", 1, [⟨8, 8, 1, "TIMEOUT"⟩, ⟨4, 4, 1, "PARITY"⟩, ⟨2, 0, 1, "STATE"⟩]⟩,
   ⟨"DRAIN_FORCE", 2, [⟨0, 0, 2, "DRAIN_FORCE"⟩]⟩, ⟨"IN_FLIGHT", 1, []⟩, ⟨"DRAIN_CNT", 1, []⟩,
   ⟨"SWEEP_PROG", 1, [⟨6, 0, 1, "SWEEP_PROG"⟩]⟩, ⟨"LAST_FLIP_NS", 1, [⟨29, 0, 1, "LAST_FLIP_NS"⟩]⟩,
   ⟨"LAST_FLIP_SEC", 1, []⟩, ⟨"FLIPS", 1, []⟩, ⟨"FLIPS_REFUSED", 1, []⟩, ⟨"STALE_DROP", 1, []⟩,
   ⟨"GEN_LOCKED_WR", 1, []⟩, ⟨"SWEPT_DEL", 1, []⟩, ⟨"SWEPT_BOTH", 1, []⟩, ⟨"FORCED_DRAINS", 1, []⟩,
   ⟨"CNT_UNDERFLOW", 1, []⟩, ⟨"INVIS_REF", 1, []⟩]

/-- The block-specific registers of BPM, in the order of `rowsBPM`. -/
def dirBPM : List DirReg :=
  [⟨"HP_COUNT", 0, [⟨15, 0, 0, "HP_COUNT"⟩]⟩, ⟨"C_LIMIT", 1, [⟨19, 0, 1, "C_LIMIT"⟩]⟩,
   ⟨"HP_BASE", 1, [⟨19, 0, 1, "HP_BASE"⟩]⟩, ⟨"D_LIMIT", 1, [⟨27, 0, 1, "D_LIMIT"⟩]⟩,
   ⟨"LOW_THR_C", 0, [⟨19, 0, 0, "LOW_THR_C"⟩]⟩, ⟨"LOW_THR_D", 0, [⟨27, 0, 0, "LOW_THR_D"⟩]⟩,
   ⟨"FREE_CNT", 1, [⟨27, 0, 1, "FREE_CNT"⟩]⟩,
   ⟨"FREE_ERR_INFO", 8, [⟨31, 31, 4, "VALID"⟩, ⟨27, 24, 1, "AGENT"⟩, ⟨23, 20, 1, "OWNER"⟩, ⟨18, 16, 1, "POOL"⟩, ⟨3, 0, 1, "REASON"⟩]⟩,
   ⟨"FREE_ERR_PTR", 1, [⟨27, 0, 1, "FREE_ERR_PTR"⟩]⟩, ⟨"FREE_ERR_CNT", 1, []⟩, ⟨"EMPTY_RESP", 1, []⟩,
   ⟨"PUNT_FALLBACK", 1, []⟩, ⟨"PUNT_DROP", 1, []⟩]

/-- The block-specific registers of CELL, in the order of `rowsCELL`. -/
def dirCELL : List DirReg :=
  [⟨"AGE_LIMIT", 0, [⟨20, 0, 0, "AGE_LIMIT"⟩]⟩, ⟨"SWEEP_MAX", 3, [⟨19, 0, 3, "SWEEP_MAX"⟩]⟩,
   ⟨"PART_MIN", 0, [⟨19, 0, 0, "PART_MIN"⟩]⟩, ⟨"PART_SHARED", 0, [⟨19, 0, 0, "PART_SHARED"⟩]⟩,
   ⟨"PART_HEAD", 0, [⟨19, 0, 0, "PART_HEAD"⟩]⟩, ⟨"PART_GU", 1, [⟨19, 0, 1, "PART_GU"⟩]⟩,
   ⟨"PART_SH", 1, [⟨20, 0, 1, "PART_SH"⟩]⟩, ⟨"PART_FREE", 1, [⟨20, 0, 1, "PART_FREE"⟩]⟩, ⟨"ADM_FRAMES", 1, []⟩,
   ⟨"DROP_QMAX", 1, []⟩, ⟨"DROP_DEEPMAX", 1, []⟩, ⟨"DROP_STAGE", 1, []⟩, ⟨"DROP_THR", 1, []⟩, ⟨"DROP_NOBUF", 1, []⟩,
   ⟨"PO_ADMIT", 1, []⟩, ⟨"PO_FRAMES", 1, []⟩, ⟨"PO_CELLS", 1, []⟩, ⟨"TAIL_TRUNC", 1, []⟩, ⟨"UE_DROP", 1, []⟩,
   ⟨"AGED_DEQ_G", 1, []⟩, ⟨"AGED_DEQ_S", 1, []⟩, ⟨"AGED_RET_G", 1, []⟩, ⟨"AGED_RET_S", 1, []⟩,
   ⟨"AGED_RESEQ_G", 1, []⟩] ++
  [⟨"AGED_RESEQ_S", 1, []⟩, ⟨"AGED_SWEEP_G", 1, []⟩, ⟨"AGED_SWEEP_S", 1, []⟩, ⟨"DROP_PART", 1, []⟩]

/-- The block-specific registers of SPILL, in the order of `rowsSPILL`. -/
def dirSPILL : List DirReg :=
  [⟨"STAGE_GLOBAL", 0, [⟨19, 0, 0, "STAGE_GLOBAL"⟩]⟩, ⟨"STAGE_USED", 1, [⟨19, 0, 1, "STAGE_USED"⟩]⟩,
   ⟨"CTX_USED", 1, [⟨14, 0, 1, "CTX_USED"⟩]⟩, ⟨"CTX_CAP", 1, [⟨14, 0, 1, "CTX_CAP"⟩]⟩,
   ⟨"PAGES_HELD", 1, [⟨27, 0, 1, "PAGES_HELD"⟩]⟩, ⟨"PAGES_WR", 1, []⟩, ⟨"PAGES_RD", 1, []⟩, ⟨"PAGES_SKIPPED", 1, []⟩,
   ⟨"TO_DEEP", 1, []⟩, ⟨"TO_DRAINING", 1, []⟩, ⟨"TO_SHALLOW", 1, []⟩, ⟨"DEEP_DENIED", 1, []⟩, ⟨"RET_STALL", 1, []⟩,
   ⟨"DEEP_UE_DROP", 1, []⟩]

/-- The block-specific registers of QMGR, in the order of `rowsQMGR`. -/
def dirQMGR : List DirReg :=
  [⟨"STATUS_IVL", 0, [⟨15, 0, 0, "STATUS_IVL"⟩]⟩, ⟨"FLOW_TIMEOUT", 0, [⟨15, 0, 0, "FLOW_TIMEOUT"⟩]⟩,
   ⟨"CB_MAX", 0, [⟨19, 0, 0, "CB_MAX"⟩]⟩, ⟨"RQ_BASE", 0, [⟨16, 0, 0, "RQ_BASE"⟩]⟩,
   ⟨"CFLOW_USED", 1, [⟨18, 0, 1, "CFLOW_USED"⟩]⟩, ⟨"CFLOW_CAP", 1, [⟨18, 0, 1, "CFLOW_CAP"⟩]⟩, ⟨"ENQ_VOQ", 1, []⟩,
   ⟨"DEQ_VOQ", 1, []⟩, ⟨"ENQ_EGQ", 1, []⟩, ⟨"DEQ_EGQ", 1, []⟩, ⟨"STATUS_TX", 1, []⟩, ⟨"STATUS_RX", 1, []⟩,
   ⟨"GRANT_TX", 1, []⟩, ⟨"GRANT_RX", 1, []⟩, ⟨"CRED_WASTE", 1, []⟩, ⟨"CFLOW_FULL", 1, []⟩, ⟨"CFLOW_TIMEOUT", 1, []⟩,
   ⟨"STATUS_BAD", 1, []⟩, ⟨"NO_SYSQ", 1, []⟩]

/-- The block-specific registers of SCHED, in the order of `rowsSCHED`. -/
def dirSCHED : List DirReg :=
  [⟨"CRED_SPEED", 0, [⟨7, 0, 0, "CRED_SPEED"⟩]⟩, ⟨"DEQ_FRAMES", 1, []⟩, ⟨"DEQ_BYTES", 1, []⟩, ⟨"GRANTS", 1, []⟩]

/-- The block-specific registers of SHAPE, in the order of `rowsSHAPE`. -/
def dirSHAPE : List DirReg :=
  [⟨"FRET_NOW", 1, []⟩, ⟨"FAR_CNT", 1, []⟩, ⟨"FRET_LATE", 1, []⟩]

/-- The block-specific registers of POL, in the order of `rowsPOL`. -/
def dirPOL : List DirReg :=
  [⟨"GREEN", 1, []⟩, ⟨"YELLOW", 1, []⟩, ⟨"RED", 1, []⟩, ⟨"RED_DROP", 1, []⟩]

/-- The block-specific registers of FAB, in the order of `rowsFAB`. -/
def dirFAB : List DirReg :=
  [⟨"DEV_ID", 6, [⟨11, 0, 6, "DEV_ID"⟩]⟩, ⟨"RESEQ_TMO", 0, [⟨7, 0, 0, "RESEQ_TMO"⟩]⟩,
   ⟨"SYNC_HOLD", 0, [⟨17, 0, 0, "SYNC_HOLD"⟩]⟩, ⟨"CTX_IDLE", 0, [⟨11, 0, 0, "CTX_IDLE"⟩]⟩,
   ⟨"SEQ_QUIET", 0, [⟨11, 0, 0, "SEQ_QUIET"⟩]⟩, ⟨"CREDIT_HOLD", 0, [⟨9, 0, 0, "CREDIT_HOLD"⟩]⟩,
   ⟨"LINK_FILL_MAX", 0, [⟨7, 0, 0, "LINK_FILL_MAX"⟩]⟩, ⟨"KA_IVL", 0, [⟨7, 0, 0, "KA_IVL"⟩]⟩,
   ⟨"REACH_IVL", 0, [⟨7, 0, 0, "REACH_IVL"⟩]⟩, ⟨"RESEQ_USED", 1, [⟨16, 0, 1, "RESEQ_USED"⟩]⟩, ⟨"DATA_TX", 1, []⟩,
   ⟨"DATA_RX", 1, []⟩, ⟨"CREDIT_TX", 1, []⟩, ⟨"CREDIT_RX", 1, []⟩, ⟨"RESEQ_LATE", 1, []⟩, ⟨"RESEQ_RESYNC", 1, []⟩,
   ⟨"RESEQ_FULL", 1, []⟩, ⟨"RESEQ_TIMEOUT", 1, []⟩, ⟨"RESEQ_FRAME_DISC", 1, []⟩, ⟨"TYPE_ERR", 1, []⟩,
   ⟨"MISDELIVER", 1, []⟩, ⟨"FCRC_ERR", 1, []⟩, ⟨"CREDIT_UNREACH", 1, []⟩, ⟨"CRED_MSG_ERR", 1, []⟩]

/-- The block-specific registers of FG, in the order of `rowsFG`. -/
def dirFG : List DirReg :=
  [⟨"UP_HOLD", 0, [⟨15, 0, 0, "UP_HOLD"⟩]⟩, ⟨"DEG_THR", 0, [⟨23, 0, 0, "DEG_THR"⟩]⟩, ⟨"LINK_CHG", 4, []⟩,
   ⟨"LINK_CFG", 0, [⟨31, 31, 0, "EN"⟩, ⟨30, 30, 0, "DRAIN"⟩, ⟨26, 24, 0, "PLANE"⟩]⟩, ⟨"LANE_CFG", 0, []⟩,
   ⟨"LINK_STS", 1, [⟨10, 10, 1, "KA_OK"⟩, ⟨9, 9, 1, "DRAIN_RX"⟩, ⟨8, 8, 1, "RDI_RX"⟩, ⟨7, 4, 1, "HELD_WHY"⟩, ⟨2, 0, 1, "STATE"⟩]⟩,
   ⟨"PEER", 1, [⟨31, 31, 1, "KIND"⟩, ⟨26, 24, 1, "PLANE"⟩, ⟨23, 16, 1, "LINK"⟩, ⟨15, 0, 1, "ID"⟩]⟩,
   ⟨"CW_CORR", 1, []⟩, ⟨"CW_UNCORR", 1, []⟩, ⟨"SYM_CORR", 1, []⟩, ⟨"HCRC_ERR", 1, []⟩, ⟨"CELL_ERR_DISC", 1, []⟩,
   ⟨"CELLS_TX", 1, []⟩, ⟨"CELLS_RX", 1, []⟩, ⟨"LINK_FAIL", 1, []⟩]

/-- The block-specific registers of DSC, in the order of `rowsDSC`. -/
def dirDSC : List DirReg :=
  [
   ⟨"DIMM_INFO", 1, [⟨31, 31, 1, "VALID"⟩, ⟨25, 24, 1, "RANKS"⟩, ⟨23, 16, 1, "GIB"⟩, ⟨15, 8, 1, "WIDTH"⟩, ⟨7, 7, 1, "DRFM"⟩, ⟨3, 0, 1, "CHECK"⟩]⟩,
   ⟨"TRAIN_STS", 1, [⟨31, 31, 1, "DONE"⟩, ⟨30, 30, 1, "FAIL"⟩, ⟨26, 24, 1, "STEP"⟩, ⟨15, 0, 1, "MS"⟩]⟩,
   ⟨"REF_CFG", 0, [⟨1, 0, 0, "REF_MODE"⟩]⟩, ⟨"ECC_CFG", 0, [⟨31, 24, 0, "ERASE_THR"⟩, ⟨0, 0, 0, "ERASE_EN"⟩]⟩,
   ⟨"BMAP", 0, [⟨22, 0, 0, "BMAP"⟩]⟩, ⟨"PG_HINT", 0, [⟨9, 0, 0, "PG_HINT"⟩]⟩, ⟨"PG_IDLE", 0, [⟨9, 0, 0, "PG_IDLE"⟩]⟩,
   ⟨"ARB_W", 0, [⟨19, 0, 0, "ARB_W"⟩]⟩, ⟨"RH_CFG", 0, [⟨31, 16, 0, "HOT_THR"⟩, ⟨15, 0, 0, "RH_THR"⟩]⟩,
   ⟨"THR_GAP", 0, [⟨15, 0, 0, "THR_GAP"⟩]⟩, ⟨"PATROL_CFG", 0, [⟨31, 31, 0, "EN"⟩, ⟨3, 0, 0, "HOURS"⟩]⟩,
   ⟨"PATROL_POS", 1, [⟨22, 0, 1, "PATROL_POS"⟩]⟩,
   ⟨"RETRAIN_CFG", 0, [⟨31, 31, 0, "AUTO_FULL"⟩, ⟨15, 0, 0, "RETRAIN_IVL"⟩]⟩,
   ⟨"RETRAIN_NOW", 2, [⟨0, 0, 2, "RETRAIN_NOW"⟩]⟩, ⟨"UE_ADDR", 1, [⟨26, 0, 1, "UE_ADDR"⟩]⟩,
   ⟨"UE_INFO", 8, [⟨31, 31, 4, "VALID"⟩, ⟨8, 8, 1, "SUBCH"⟩, ⟨7, 7, 1, "RANK"⟩, ⟨2, 0, 1, "CLASS"⟩]⟩,
   ⟨"DIMM_TEMP", 1, [⟨7, 0, 1, "DIMM_TEMP"⟩]⟩, ⟨"TEMP_THR", 0, [⟨7, 0, 0, "TEMP_THR"⟩]⟩,
   ⟨"ERASED", 1, [⟨31, 31, 1, "VALID"⟩, ⟨3, 0, 1, "DEVICE"⟩]⟩, ⟨"POP_CFG", 0, [⟨4, 0, 0, "CHANNELS"⟩]⟩,
   ⟨"POP_STS", 1, [⟨31, 31, 1, "READY"⟩, ⟨30, 30, 1, "FAIL"⟩, ⟨15, 0, 1, "FAILED"⟩]⟩, ⟨"RD_OPS", 1, []⟩,
   ⟨"WR_OPS", 1, []⟩, ⟨"ACT_CNT", 1, []⟩] ++
  [⟨"CE_CNT", 1, []⟩, ⟨"UE_CNT", 1, []⟩, ⟨"SCRUB_CE", 1, []⟩, ⟨"SCRUB_UE", 1, []⟩, ⟨"SCRUB_WB_CANCEL", 1, []⟩,
   ⟨"RFM_CNT", 1, []⟩, ⟨"DRFM_CNT", 1, []⟩, ⟨"THROTTLE_CNT", 1, []⟩, ⟨"RETRAIN_CNT", 1, []⟩,
   ⟨"RETRAIN_FULL_CNT", 1, []⟩, ⟨"CE_DEV", 1, []⟩]

/-- The block-specific registers of PAIR, in the order of `rowsPAIR`. -/
def dirPAIR : List DirReg :=
  [⟨"ROLE", 1, [⟨1, 0, 1, "ROLE"⟩]⟩, ⟨"CORE_STS", 1, [⟨7, 4, 1, "CAUSE"⟩, ⟨2, 0, 1, "STATE"⟩]⟩,
   ⟨"HANDOVER", 2, [⟨0, 0, 2, "HANDOVER"⟩]⟩, ⟨"RELOAD", 2, [⟨8, 8, 2, "SLOT"⟩, ⟨0, 0, 2, "CORE"⟩]⟩,
   ⟨"WDT_CFG", 0, [⟨9, 0, 0, "US"⟩]⟩, ⟨"WDT_KICK", 2, [⟨0, 0, 2, "WDT_KICK"⟩]⟩,
   ⟨"MIRROR_STS", 1, [⟨31, 31, 1, "SYNCED"⟩, ⟨11, 0, 1, "LAG"⟩]⟩,
   ⟨"ENG_STS", 1, [⟨31, 31, 1, "LOADED"⟩, ⟨30, 30, 1, "FAIL"⟩, ⟨15, 0, 1, "VER"⟩]⟩, ⟨"HANDOVERS", 1, []⟩,
   ⟨"STBY_WR_DISC", 1, []⟩, ⟨"FAULTS", 1, []⟩]

/-- The block-specific registers of INTC, in the order of `rowsINTC`. -/
def dirINTC : List DirReg :=
  [⟨"DOORBELL", 2, [⟨11, 0, 2, "DOORBELL"⟩]⟩,
   ⟨"CLAIM", 1, [⟨31, 31, 1, "OVF"⟩, ⟨27, 24, 1, "PRIO"⟩, ⟨11, 0, 1, "SRC"⟩]⟩, ⟨"EOI", 2, [⟨11, 0, 2, "EOI"⟩]⟩,
   ⟨"SETPRI", 2, [⟨3, 0, 2, "SETPRI"⟩]⟩,
   ⟨"TGT_STS", 1, [⟨31, 31, 1, "IDLE"⟩, ⟨20, 16, 1, "DEPTH"⟩, ⟨11, 8, 1, "RUNPRI"⟩, ⟨0, 0, 1, "ASSERTED"⟩]⟩,
   ⟨"PEND", 0, []⟩, ⟨"MASK", 0, []⟩, ⟨"LOST", 4, []⟩, ⟨"HOLDOFF", 0, [⟨9, 0, 0, "HOLDOFF"⟩]⟩,
   ⟨"SRC_CFG", 0, [⟨31, 30, 0, "TARGET"⟩, ⟨27, 24, 0, "PRIO"⟩, ⟨21, 16, 0, "VEC"⟩]⟩, ⟨"DB_BAD", 1, []⟩,
   ⟨"CLAIM_NONE", 1, []⟩, ⟨"EOI_BAD", 1, []⟩, ⟨"STACK_OVF", 1, []⟩]

/-- The block-specific registers of PFE, in the order of `rowsPFE`. -/
def dirPFE : List DirReg :=
  [⟨"LEAD", 0, []⟩, ⟨"LOAD", 1, []⟩, ⟨"SENT", 1, []⟩, ⟨"MISSED", 1, []⟩]

/-- The block-specific registers of HOST, in the order of `rowsHOST`. -/
def dirHOST : List DirReg :=
  [
   ⟨"HOST_STS", 1, [⟨31, 31, 1, "LINK_UP"⟩, ⟨30, 30, 1, "BME"⟩, ⟨28, 28, 1, "ISO"⟩, ⟨27, 24, 1, "WIDTH"⟩, ⟨23, 20, 1, "SPEED"⟩, ⟨9, 0, 1, "OUTSTANDING"⟩]⟩,
   ⟨"CONTAIN", 1, [⟨31, 31, 1, "FROZEN"⟩, ⟨1, 0, 1, "CAUSE"⟩]⟩, ⟨"RELEASE", 2, [⟨0, 0, 2, "RELEASE"⟩]⟩,
   ⟨"WIN_COMMIT", 2, [⟨0, 0, 2, "WIN_COMMIT"⟩]⟩, ⟨"P_BASE_LO", 0, [⟨31, 4, 0, "P_BASE_LO"⟩]⟩, ⟨"P_BASE_HI", 0, []⟩,
   ⟨"P_CFG", 0, [⟨31, 31, 0, "EN"⟩, ⟨20, 16, 0, "LOG2N"⟩, ⟨6, 0, 0, "BUF_SIZE"⟩]⟩,
   ⟨"P_TAIL", 0, [⟨15, 0, 0, "P_TAIL"⟩]⟩, ⟨"P_HEAD", 1, [⟨15, 0, 1, "P_HEAD"⟩]⟩,
   ⟨"P_STS", 1, [⟨31, 31, 1, "ABORTED"⟩, ⟨15, 0, 1, "WAITING"⟩]⟩, ⟨"P_LIMIT", 0, [⟨15, 0, 0, "P_LIMIT"⟩]⟩,
   ⟨"I_BASE_LO", 0, []⟩, ⟨"I_BASE_HI", 0, []⟩, ⟨"I_CFG", 0, [⟨31, 31, 0, "EN"⟩, ⟨20, 16, 0, "LOG2N"⟩]⟩,
   ⟨"I_TAIL", 0, [⟨15, 0, 0, "I_TAIL"⟩]⟩, ⟨"I_HEAD", 1, [⟨15, 0, 1, "I_HEAD"⟩]⟩,
   ⟨"I_STS", 1, [⟨31, 31, 1, "ABORTED"⟩]⟩, ⟨"WIN_BASE", 0, [⟨31, 12, 0, "WIN_BASE"⟩]⟩,
   ⟨"WIN_CFG", 0, [⟨31, 31, 0, "RD_EN"⟩, ⟨30, 30, 0, "WR_EN"⟩, ⟨10, 8, 0, "TGT"⟩, ⟨5, 0, 0, "LOG2SZ"⟩]⟩,
   ⟨"TGT_BASE_LO", 0, [⟨31, 12, 0, "TGT_BASE_LO"⟩]⟩, ⟨"TGT_BASE_HI", 0, [⟨7, 0, 0, "TGT_BASE_HI"⟩]⟩,
   ⟨"ACT_WIN_BASE", 1, [⟨31, 12, 1, "ACT_WIN_BASE"⟩]⟩,
   ⟨"ACT_WIN_CFG", 1, [⟨31, 31, 1, "RD_EN"⟩, ⟨30, 30, 1, "WR_EN"⟩, ⟨10, 8, 1, "TGT"⟩, ⟨5, 0, 1, "LOG2SZ"⟩]⟩,
   ⟨"ACT_TGT_BASE_LO", 1, [⟨31, 12, 1, "ACT_TGT_BASE_LO"⟩]⟩] ++
  [⟨"ACT_TGT_BASE_HI", 1, [⟨7, 0, 1, "ACT_TGT_BASE_HI"⟩]⟩, ⟨"P_FRAMES", 1, []⟩, ⟨"P_BYTES", 1, []⟩,
   ⟨"P_DROP_FULL", 1, []⟩, ⟨"P_DROP_OFF", 1, []⟩, ⟨"I_FRAMES", 1, []⟩, ⟨"I_BYTES", 1, []⟩, ⟨"I_ERR", 1, []⟩,
   ⟨"P_DROP_AGED", 1, []⟩, ⟨"UNEXP_CPL", 1, []⟩, ⟨"CPL_TIMEOUT", 1, []⟩, ⟨"ABANDONED", 1, []⟩, ⟨"ACC_ERR", 1, []⟩,
   ⟨"WIN_MISS", 1, []⟩, ⟨"WIN_DENY", 1, []⟩, ⟨"PUNT_UNMAPPED", 1, []⟩]

/-- The block-specific registers of SEC, in the order of `rowsSEC`. -/
def dirSEC : List DirReg :=
  [⟨"BOOT_STS", 1, [⟨31, 30, 1, "MODE"⟩, ⟨29, 29, 1, "FALLBACK"⟩]⟩, ⟨"RUN_SLOT", 0, [⟨0, 0, 0, "RUN_SLOT"⟩]⟩,
   ⟨"DIE_ID", 1, []⟩, ⟨"KEY_STS", 1, [⟨3, 0, 1, "REVOKED"⟩]⟩, ⟨"KEY_REVOKE", 2, [⟨3, 0, 2, "KEY_REVOKE"⟩]⟩,
   ⟨"SVN_COMMIT", 2, [⟨7, 0, 2, "TYPE"⟩]⟩, ⟨"ENG_RELOAD", 2, [⟨8, 8, 2, "SLOT"⟩, ⟨2, 0, 2, "ENGINE"⟩]⟩,
   ⟨"LOAD_ERR", 8, [⟨31, 31, 4, "VALID"⟩, ⟨23, 16, 1, "TYPE"⟩, ⟨8, 8, 1, "SLOT"⟩, ⟨3, 0, 1, "CODE"⟩]⟩,
   ⟨"ELO_CFG", 0, [⟨1, 1, 0, "RESET_EN"⟩, ⟨0, 0, 0, "WRITE_EN"⟩]⟩, ⟨"UART_OWN", 0, [⟨0, 0, 0, "UART_OWN"⟩]⟩,
   ⟨"ELO_PEER_LO", 1, []⟩, ⟨"ELO_PEER_HI", 1, []⟩, ⟨"MR", 1, []⟩, ⟨"MR_CNT", 1, []⟩, ⟨"LOADS", 1, []⟩,
   ⟨"LOAD_FAILS", 1, []⟩, ⟨"ELO_RX", 1, []⟩, ⟨"ELO_BAD", 1, []⟩, ⟨"SPDM_REQ", 1, []⟩]

/-- The block-specific registers of PEG, in the order of `rowsPEG`. -/
def dirPEG : List DirReg :=
  [⟨"STORE", 2, [⟨29, 24, 2, "AREA"⟩, ⟨19, 12, 2, "FMT"⟩, ⟨11, 0, 2, "LEN"⟩]⟩,
   ⟨"STORE_STS", 1, [⟨31, 31, 1, "BUSY"⟩, ⟨30, 30, 1, "ERR"⟩, ⟨6, 0, 1, "CODE"⟩]⟩,
   ⟨"REC_STS", 1, [⟨31, 31, 1, "VALID"⟩, ⟨30, 29, 1, "COPIES"⟩, ⟨28, 28, 1, "CORRUPT"⟩, ⟨24, 24, 1, "CUR_PAGE"⟩, ⟨19, 12, 1, "FMT"⟩, ⟨11, 0, 1, "LEN"⟩]⟩,
   ⟨"REC_GEN", 1, []⟩, ⟨"STORES", 1, []⟩, ⟨"STORE_FAILS", 1, []⟩, ⟨"CRC_FAILS", 1, []⟩]

/-- The block-specific registers of SNAP, in the order of `rowsSNAP`. -/
def dirSNAP : List DirReg :=
  [⟨"CTL", 2, [⟨2, 2, 2, "NOW"⟩, ⟨1, 1, 2, "DISARM"⟩, ⟨0, 0, 2, "ARM"⟩]⟩, ⟨"SNAP_NS", 0, [⟨29, 0, 0, "SNAP_NS"⟩]⟩,
   ⟨"SNAP_SEC_LO", 0, []⟩, ⟨"SNAP_SEC_HI", 0, [⟨15, 0, 0, "SNAP_SEC_HI"⟩]⟩,
   ⟨"STS", 1, [⟨31, 31, 1, "PARTIAL"⟩, ⟨30, 30, 1, "FS_PEND"⟩, ⟨29, 28, 1, "STATE"⟩, ⟨15, 0, 1, "EPOCH"⟩]⟩,
   ⟨"CUT_NS", 1, [⟨29, 0, 1, "CUT_NS"⟩]⟩, ⟨"CUT_SEC", 1, []⟩, ⟨"DONE_US", 1, [⟨15, 0, 1, "DONE_US"⟩]⟩,
   ⟨"FS_CFG", 0, [⟨31, 31, 0, "EN"⟩, ⟨23, 16, 0, "FS_IVL"⟩, ⟨6, 0, 0, "SET_EN"⟩]⟩,
   ⟨"FS_STS", 1, [⟨31, 31, 1, "STALL"⟩, ⟨22, 0, 1, "QUEUED"⟩]⟩, ⟨"SNAPS", 1, []⟩, ⟨"FOLDS", 1, []⟩,
   ⟨"FS_OVF", 1, []⟩]

/-- The block-specific registers of FAULT, in the order of `rowsFAULT`. -/
def dirFAULT : List DirReg :=
  [
   ⟨"STS", 1, [⟨31, 31, 1, "COVERED"⟩, ⟨30, 30, 1, "FAULT_ACT"⟩, ⟨29, 29, 1, "ALARM_ACT"⟩, ⟨21, 16, 1, "WHY"⟩, ⟨4, 0, 1, "OPEN_CNT"⟩]⟩,
   ⟨"MON_EN", 0, [⟨2, 0, 0, "MON_EN"⟩]⟩, ⟨"PIPE_WDT", 0, [⟨6, 0, 0, "PIPE_WDT"⟩]⟩, ⟨"OPEN", 4, [⟨18, 1, 4, "OPEN"⟩]⟩,
   ⟨"PIN_FAULT", 0, [⟨18, 1, 0, "PIN_FAULT"⟩]⟩, ⟨"PIN_ALARM", 0, [⟨18, 1, 0, "PIN_ALARM"⟩]⟩,
   ⟨"LOG_WR", 1, [⟨5, 0, 1, "LOG_WR"⟩]⟩,
   ⟨"FIRST", 8, [⟨31, 31, 4, "VALID"⟩, ⟨28, 24, 1, "CLASS"⟩, ⟨21, 16, 1, "DOMAIN"⟩, ⟨12, 0, 1, "PAGE"⟩]⟩,
   ⟨"FIRST_NS", 1, [⟨29, 0, 1, "FIRST_NS"⟩]⟩, ⟨"FIRST_SEC", 1, []⟩, ⟨"CLASS_CNT", 1, []⟩, ⟨"LOG_LOST", 1, []⟩]

/-- The block-specific registers of GLB, in the order of `rowsGLB`. -/
def dirGLB : List DirReg :=
  [⟨"PROFILE_SEL", 6, [⟨7, 0, 6, "PROFILE_SEL"⟩]⟩, ⟨"DEV_RESET", 2, [⟨15, 0, 2, "DEV_RESET"⟩]⟩,
   ⟨"RST_CAUSE", 1, [⟨3, 0, 1, "RST_CAUSE"⟩]⟩, ⟨"PLL_STS", 1, [⟨0, 0, 1, "LOCKED"⟩]⟩,
   ⟨"VIN_MV", 1, [⟨13, 0, 1, "VIN_MV"⟩]⟩, ⟨"VAUX_MV", 1, [⟨13, 0, 1, "VAUX_MV"⟩]⟩, ⟨"P_IN", 1, [⟨15, 0, 1, "P_IN"⟩]⟩,
   ⟨"TJ_MAX", 1, [⟨7, 0, 1, "TJ_MAX"⟩]⟩, ⟨"DOM_CTL", 0, [⟨31, 31, 0, "ON"⟩]⟩,
   ⟨"DOM_STS", 1, [⟨31, 16, 1, "ON_US"⟩, ⟨4, 4, 1, "QUEUED"⟩, ⟨1, 0, 1, "STATE"⟩]⟩, ⟨"PLL_LOSS", 1, []⟩,
   ⟨"VIN_LOSS", 1, []⟩, ⟨"CASCADES", 1, []⟩, ⟨"DOM_ON_CNT", 1, []⟩]

/-- The names and fields of a block's own registers, in the order of `PageKind.rows`. -/
def PageKind.dir : PageKind → List DirReg
  | .GLB => dirGLB
  | .TIME => dirTIME
  | .INTC => dirINTC
  | .PEG => dirPEG
  | .SEC => dirSEC
  | .HOST => dirHOST
  | .SNAP => dirSNAP
  | .FAULT => dirFAULT
  | .CAPO => dirCAPO
  | .PAIR => dirPAIR
  | .PFE => dirPFE
  | .BPM => dirBPM
  | .LPORT => dirLPORT
  | .LG => dirLG
  | .OTN => dirOTN
  | .OHP => dirOHP
  | .IPIPE => dirIPIPE
  | .EPIPE => dirEPIPE
  | .LPM => dirLPM
  | .EM => dirEM
  | .TCAM => dirTCAM
  | .ADJ => dirADJ
  | .L2 => dirL2
  | .POL => dirPOL
  | .QMGR => dirQMGR
  | .SCHED => dirSCHED
  | .SHAPE => dirSHAPE
  | .CELL => dirCELL
  | .SPILL => dirSPILL
  | .FG => dirFG
  | .FAB => dirFAB
  | .DSC => dirDSC
  | .BRIDGE => dirBRIDGE

/-- The indirect tables of a block: `TBL_SEL`, name, words of an entry, access code; table DRONE (R565) is on every page. -/
def PageKind.tables : PageKind → List (Nat × String × Nat × Nat)
  | .GLB => []
  | .TIME => [(0x1, "LAUNCH_WIN", 2, 0)]
  | .INTC => []
  | .PEG => [(0x1, "STAGE", 16, 0), (0x2, "RECORD", 16, 1)]
  | .SEC => []
  | .HOST => [(0x1, "PUNT_MAP", 1, 0)]
  | .SNAP => [(0x1, "FS", 4, 1), (0x2, "FS_SNAP", 4, 1)]
  | .FAULT => [(0x1, "LOG", 4, 1)]
  | .CAPO => []
  | .PAIR => []
  | .PFE => [(0x1, "ENTRY", 9, 0), (0x2, "TMPL", 16, 0)]
  | .BPM => [(0x1, "POOL_C", 2, 0), (0x2, "POOL_D", 2, 0), (0x3, "POOL_H0", 2, 0), (0x4, "POOL_H1", 2, 0),
     (0x5, "POOL_H2", 2, 0), (0x6, "POOL_H3", 2, 0)]
  | .LPORT => []
  | .LG => []
  | .OTN => [(0x1, "TTI_TX", 16, 0), (0x2, "TTI_EXP", 16, 0), (0x3, "TTI_ACC", 16, 1)]
  | .OHP => []
  | .IPIPE => [(0x1, "PARSE_NODE", 4, 0), (0x2, "PARSE_TRANS", 2, 0), (0x3, "PARSE_EXTR", 1, 0)]
  | .EPIPE => []
  | .LPM => [(0x1, "ROUTE", 7, 0), (0x2, "VRF", 1, 0)]
  | .EM => [(0x1, "MPLS", 4, 0), (0x2, "IFT", 4, 0), (0x3, "QMAP", 1, 0)]
  | .TCAM => [(0x1, "ROW", 12, 0), (0x2, "KSEL", 1, 0), (0x3, "KPROF", 10, 0), (0x10, "WALK_0_0", 2, 1),
     (0x11, "WALK_0_1", 2, 1), (0x12, "WALK_1_0", 2, 1), (0x13, "WALK_1_1", 2, 1)]
  | .ADJ => [(0x1, "ADJ", 6, 0), (0x2, "ECMP_GRP", 1, 0), (0x3, "ECMP_MEM", 1, 0), (0x4, "SPMAP", 1, 0), (0x5, "RMAC", 2, 0)]
  | .L2 => [(0x1, "L2_0", 3, 0), (0x2, "L2_1", 3, 0), (0x3, "L2_2", 3, 0), (0x4, "L2_3", 3, 0), (0x5, "L2_4", 3, 0),
     (0x6, "L2_5", 3, 0), (0x7, "L2_6", 3, 0), (0x8, "L2_7", 3, 0), (0xF, "L2_ALL", 3, 2)]
  | .POL => [(0x1, "POLICER", 7, 0)]
  | .QMGR => [(0x1, "QPROF", 4, 0), (0x2, "SYSQ", 1, 0), (0x3, "VOQ_STS", 3, 1), (0x4, "CFLOW", 4, 1)]
  | .SCHED => [(0x1, "QUEUE", 2, 0), (0x2, "L3", 1, 0), (0x3, "L2", 1, 0), (0x4, "L1", 1, 0), (0x5, "PORT", 1, 0)]
  | .SHAPE => [(0x1, "SHP", 8, 0)]
  | .CELL => [(0x1, "ADM_PROF", 8, 0)]
  | .SPILL => [(0x1, "QSTATE", 5, 1)]
  | .FG => []
  | .FAB => [(0x1, "SPRAY", 7, 1), (0x2, "RESEQ_CTX", 3, 1), (0x3, "LINK_REACH", 16, 1)]
  | .DSC => [(0x1, "DEEP", 16, 0)]
  | .BRIDGE => []

/-- The rows of the common header as the directory lists them: one array for the eight `PERF_CTL`. -/
def headerList : List RegRow :=
  (headerRows.filter fun w => w.off != 0x7C).map fun w => if w.off = 0x60 then { w with count := 8 } else w

/-- A register-table entry before its strings and fields are placed: offset, reset value, instances, stride, kind, and what
the directory names. -/
structure DirItem where
  off : Nat
  reset : Nat
  count : Nat
  stride : Nat
  kind : Nat
  dir : DirReg
  deriving DecidableEq, Repr

/-- A register of the map as a directory item. -/
def DirItem.ofRow (w : RegRow) (d : DirReg) : DirItem :=
  { off := w.off, reset := w.reset, count := w.count, stride := w.stride, kind := ofB w.wide, dir := d }

/-- An indirect table as a directory item: `COUNT` is the words of an entry, `STRIDE` 0 (R500). -/
def DirItem.ofTable (t : Nat × String × Nat × Nat) : DirItem :=
  { off := t.1, reset := 0, count := t.2.2.1, stride := 0, kind := 2, dir := { name := t.2.1, acc := t.2.2.2, fields := [] } }

/-- The registers and tables of a block in directory order. -/
def PageKind.items (k : PageKind) : List DirItem :=
  List.zipWith DirItem.ofRow headerList dirHeader ++ List.zipWith DirItem.ofRow k.rows k.dir ++
    (k.tables ++ [(0xFF, "DRONE", 2, 1)]).map DirItem.ofTable

/-! ### The tables (R500) -/

/-- A name's bytes: ASCII, terminated by a zero byte. -/
def cString (n : String) : List Byte := n.toList.map (fun c => BitVec.ofNat 8 c.toNat) ++ [0]

/-- The tables under construction: block, register, field and string bytes, and how many registers and fields they hold. -/
structure DirTabs where
  blocks : List Byte
  regs : List Byte
  fields : List Byte
  strs : List Byte
  nRegs : Nat
  nFields : Nat
  deriving DecidableEq, Repr

/-- A field entry; `PROF` is 1, for every field exists in profile 1. -/
def DirTabs.addField (reset : Nat) (t : DirTabs) (f : DirField) : DirTabs :=
  { t with
    fields := t.fields ++ leBytes 1 f.msb ++ leBytes 1 f.lsb ++ leBytes 1 f.acc ++ [1] ++ leBytes 4 t.strs.length ++
      leBytes 4 (fld reset f.lsb (f.msb + 1 - f.lsb))
    strs := t.strs ++ cString f.name
    nFields := t.nFields + 1 }

/-- A register entry and the entries of its fields. -/
def DirTabs.addReg (t : DirTabs) (i : DirItem) : DirTabs :=
  let t' : DirTabs := { t with
    regs := t.regs ++ leBytes 4 i.off ++ leBytes 4 t.strs.length ++ leBytes 4 i.reset ++ leBytes 2 i.count ++ leBytes 2 i.stride ++
      leBytes 1 i.kind ++ leBytes 1 i.dir.acc ++ leBytes 1 i.dir.fields.length ++ [1] ++ leBytes 4 t.nFields
    strs := t.strs ++ cString i.dir.name
    nRegs := t.nRegs + 1 }
  i.dir.fields.foldl (DirTabs.addField i.reset) t'

/-- The code of a block (R40). -/
def PageKind.code (k : PageKind) : Nat := (Config.blkCode k.base).toNat

/-- A block's entry and the entries of its registers and tables. -/
def DirTabs.addBlock (t : DirTabs) (k : PageKind) : DirTabs :=
  let t' : DirTabs := { t with
    blocks := t.blocks ++ leBytes 2 k.code ++ leBytes 2 k.items.length ++ leBytes 4 t.nRegs ++ leBytes 4 t.strs.length ++ leBytes 4 0
    strs := t.strs ++ cString k.name }
  k.items.foldl DirTabs.addReg t'

/-- The block, register, field and string tables. -/
def dirTabs : DirTabs := PageKind.all.foldl DirTabs.addBlock ⟨[], [], [], [], 0, 0⟩

/-- The die of a block (R36): 0 the F-die, 1 the Q-die, 2 both. -/
def PageKind.die : PageKind → Nat
  | .TIME | .CAPO | .PFE | .LPORT | .LG | .OTN | .OHP | .IPIPE | .EPIPE | .LPM | .EM | .TCAM | .ADJ | .L2 | .POL => 0
  | .BRIDGE => 2
  | _ => 1

/-- The assigned pages in page order, each with its block and instance. -/
def pageList : List (Nat × PageKind × Nat) :=
  (List.range 0x101).filterMap fun p => (pageOf p).map fun k => (p, k.1, k.2)

/-- Bits [31:8] of `BLK_VER` of page `p`; `PROF_MAX` is at least 1 (R41). -/
def blkVersion (p : Nat) : Nat :=
  let v := (Config.blkVer p).toNat
  setFld v 0 8 (max 1 (fld v 0 8))

/-- The entry of an assigned page. -/
def pageEntry (x : Nat × PageKind × Nat) : List Byte :=
  leBytes 2 x.1 ++ leBytes 2 x.2.1.code ++ leBytes 2 x.2.2 ++ leBytes 1 (pageDomain x.1) ++ leBytes 1 x.2.1.die ++
    leBytes 4 (blkVersion x.1 * 256) ++ leBytes 4 (Config.blkCaps x.1).toNat

/-- The page table. -/
def pageTab : List Byte := pageList.flatMap pageEntry

/-! ### The header and the window (R498, R499) -/

/-- The highest compatibility profile of the device: the smallest `PROF_MAX` of any page (R41). -/
def profMax : Nat := allPages.foldl (fun m p => min m (fld (blkVersion p) 0 8)) 255

/-- The Lindun header with `CRC` as given; the page, block, register, field and string tables follow it in this order. -/
def lindunHeader (crc : Nat) : List Byte :=
  let t := dirTabs
  let page := 0x140
  let block := page + pageTab.length
  let reg := block + t.blocks.length
  let field := reg + t.regs.length
  let str := field + t.fields.length
  "LNDN".toList.map (fun c => BitVec.ofNat 8 c.toNat) ++ leBytes 2 1 ++ leBytes 2 64 ++ leBytes 4 (str + t.strs.length - 0x100) ++
    leBytes 4 crc ++ leBytes 2 0x9128 ++ leBytes 1 Config.stepping.toNat ++ leBytes 1 profMax ++ leBytes 2 pageList.length ++
    leBytes 2 PageKind.all.length ++ leBytes 4 page ++ leBytes 4 block ++ leBytes 4 reg ++ leBytes 4 field ++ leBytes 4 str ++
    leBytes 4 t.nRegs ++ leBytes 4 t.nFields ++ List.replicate 12 0

/-- The directory's tables in window order. -/
def lindunTables : List Byte := pageTab ++ dirTabs.blocks ++ dirTabs.regs ++ dirTabs.fields ++ dirTabs.strs

/-- The Lindun directory from window offset 0x0100: its header, with the CRC over it with the CRC field taken as 0, and its
tables. -/
def lindun : List Byte := lindunHeader (fcsOf (lindunHeader 0 ++ lindunTables)) ++ lindunTables

/-- The PCI Data Structure (R498). -/
def pciData : List Byte :=
  [0x50, 0x43, 0x49, 0x52] ++ leBytes 2 Config.vendorId.toNat ++ leBytes 2 0x9128 ++ leBytes 2 0 ++ leBytes 2 24 ++ leBytes 1 0 ++
    leBytes 3 0x028000 ++ leBytes 2 2048 ++ leBytes 2 0 ++ [0xE0, 0x80] ++ leBytes 2 0

/-- The expansion-ROM window up to the directory's end: the ROM header with its pointer at 0x18 to the PCI Data Structure, then
the directory from 0x0100 (R498). -/
def romImage : List Byte :=
  [0x55, 0xAA] ++ List.replicate 22 0 ++ leBytes 2 0x1C ++ [0, 0] ++ pciData ++ List.replicate 204 0 ++ lindun

end Sys2Proof.Machine
end

