-- ==== Sys2Proof/Machine/Fabric.lean ====
section
/-!
DEFINITION. Fabric links, Juzer cells, the resequencer and credit cells (spec/10_fabric.md, R394 to R424).
-/
namespace Sys2Proof.Machine

/-! ### Cells (R401, R405) -/

/-- The header of a cell: fields of R401 and its HCRC. -/
def cellHeader (typ dst src cls gen seq len bad cut dq birth : Nat) : List Byte :=
  let h := typ * 2 ^ 108 + dst * 2 ^ 96 + src * 2 ^ 84 + cls * 2 ^ 81 + gen * 2 ^ 80 + seq * 2 ^ 56 + len * 2 ^ 52 +
    bad * 2 ^ 51 + cut * 2 ^ 50 + dq * 2 ^ 33 + birth
  beBytes 14 h ++ beBytes 2 (crc16 (beBytes 14 h))

/-- A field of the header of a cell. -/
def hdr (c : List Byte) (lo w : Nat) : Nat := fld (beAt c 0 16) lo w

def cellType (c : List Byte) : Nat := hdr c 124 4
def cellDst (c : List Byte) : Nat := hdr c 112 12
def cellSrc (c : List Byte) : Nat := hdr c 100 12
def cellClass (c : List Byte) : Nat := hdr c 97 3
def cellGen (c : List Byte) : Nat := hdr c 96 1
def cellSeq (c : List Byte) : Nat := hdr c 72 24
def cellLen (c : List Byte) : Nat := hdr c 68 4

/-- The payload of a cell: LEN + 1 units of 16 bytes. -/
def cellPayload (c : List Byte) : List Byte := (c.drop 16).take (16 * (cellLen c + 1))

/-- Whether the header's HCRC is right (R401). -/
def hcrcOk (c : List Byte) : Bool := beAt c 14 2 == crc16 (c.take 14)

/-- The running CRC-32 of IEEE 802.3 over more bytes; it starts at 0xFFFFFFFF and its complement is the FCS (R405). -/
def fcsRun (c : Nat) (bs : List Byte) : Nat := bs.foldl fcsByte c

/-- The prefix of a frame's byte string S (R405). -/
def prefixOf (f : Frame) : List Byte :=
  beBytes 16 (2 ^ 124 + f.colour % 4 * 2 ^ 122 + f.srcSys % 2 ^ 15 * 2 ^ 107 + f.adj % 2 ^ 20 * 2 ^ 87 +
    f.mplsOp % 4 * 2 ^ 85 + f.outLabel % 2 ^ 20 * 2 ^ 65 + ofB f.osOvr * 2 ^ 64 + f.onestep % 4 * 2 ^ 62 +
    f.tsrc % 4 * 2 ^ 60 + ofB f.noRw * 2 ^ 59)

/-- The trailer of a frame's byte string S (R405). -/
def trailerOf (f : Frame) (str : List Byte) : List Byte :=
  beBytes 16 (f.bytes.length % 2 ^ 14 * 2 ^ 114 + (fcsRun 0xFFFFFFFF str ^^^ 0xFFFFFFFF))

/-! ### Sending on links (R407 to R409) -/

/-- The transmit side of link `l`, and its change. -/
def txLink (s : State) (l : Nat) : TxLink := (s.txLinks.find? fun t => t.link == l).getD { link := l }
def putTx (t : TxLink) (s : State) : State := { s with txLinks := t :: s.txLinks.filter fun u => u.link != t.link }

/-- The self-synchronising scrambler x^58 + x^39 + 1 over bytes, most significant bit first, from its last 58 bits `st`: the bytes
it puts out and its last 58 bits then (R395, notes/assumptions/89.md). -/
def scramble : Nat → List Byte → List Byte × Nat
  | st, [] => ([], st)
  | st, b :: bs =>
    let y := (b.toNat ^^^ st / 2 ^ 31 ^^^ st / 2 ^ 50) % 256
    let (ys, st') := scramble ((st * 256 + y) % 2 ^ 58) bs
    (BitVec.ofNat 8 y :: ys, st')

/-- The control word of a codeword that link `l` sends: the position of the first unit that begins in its body, RDI while the
link's receive side is not in PEER, UP or HELD, and DRAIN (R395, R400). -/
def ctlWord (s : State) (l first : Nat) : Nat :=
  first * 2 ^ 14 + ofB (flinkState s l < 3) * 2 ^ 13 + ofB (s.rbit (linkCfgReg l) 30) * 2 ^ 12

/-- A cell or fill unit, at most a body long, takes its place in the bodies of its link without a gap; a body that is full goes out
as a codeword (R395, R396). -/
def unitsTx (l : Nat) (x : List Byte) (s : State) : State :=
  let t := txLink s l
  let first := if t.first = 63 then t.body.length / 16 else t.first
  let all := t.body ++ x
  if all.length < 640 then putTx { t with next := t.next + 1152 * (x.length / 16), first := first, body := all } s
  else
    let (y, scr) := scramble t.scr (all.take 640)
    putTx { t with next := t.next + 1152 * (x.length / 16), scr := scr, first := 63, body := all.drop 640 }
      (s.emit (.codeword l (ctlWord s l first) y))

/-- A fill unit: TYPE 0xF, a valid HCRC, every other header bit 0 (R396). -/
def fillUnit : List Byte := cellHeader 15 0 0 0 0 0 0 0 0 0 0

/-- `n` fill units are sent on link `l`. -/
def fillOut (l n : Nat) (s : State) : State := forEach (List.range n) s fun _ s => unitsTx l fillUnit s

/-- Fill units have been sent on link `l` since it last sent, for nothing waited (R396, R409): one each 1.28 ns, the last of them up
to the present. Whole codewords of fill units are told by their number, and what the scrambler holds after them is a free value, as
what it starts from is (notes/assumptions/89.md). -/
def fillTx (l : Nat) (s : State) : State :=
  let t := txLink s l
  let n := cdiv (125 * s.root - t.next) 1152
  let p := 40 - t.body.length / 16
  if n ≤ p then fillOut l n s
  else
    let s := fillOut l p s
    let (x, s) := s.free
    let t := txLink s l
    let k := (n - p) / 40
    fillOut l ((n - p) % 40)
      (if k = 0 then s else putTx { t with next := t.next + 46080 * k, scr := x % 2 ^ 58 } (s.emit (.idle l k fillUnit)))

/-- The next cell of a transmit buffer: credit and link cells ahead of data cells (R409); a link not in UP carries link cells only
(R398). -/
def nextWait (s : State) (t : TxLink) : Option (Nat × List Byte) :=
  let ok := t.wait.filter fun x => x.1 == 0 || flinkState s t.link == 4
  (ok.find? fun x => x.1 < 2).orElse fun _ => ok.head?

/-- The cells of the transmit buffer of link `l` that have had their turn by now are sent, at most `n`. -/
def pump (l : Nat) : Nat → State → State
  | 0, s => s
  | n + 1, s =>
    let t := txLink s l
    match nextWait s t with
    | some x =>
      if t.next < 125 * s.root + 1152 then
        pump l n ((unitsTx l x.2 (putTx { t with wait := t.wait.erase x } s)).emit (.cell l x.2))
      else s
    | none => s

/-- Link `l` is brought up to the present. -/
def pumpLink (l : Nat) (s : State) : State :=
  let s := pump l (txLink s l).wait.length s
  if (nextWait s (txLink s l)).isNone then fillTx l s else s

/-- A cell of kind `k` enters the transmit buffer of link `l`, and leaves at once if nothing else is before it. -/
def cellOut (l k : Nat) (c : List Byte) (s : State) : State :=
  let s := pumpLink l s
  let t := txLink s l
  bump (Reg.FG.CELLS_TX (l / 32) (l % 32)) (pump l (t.wait.length + 1) (putTx { t with wait := t.wait ++ [(k, c)] } s))

/-- The link for the next cell to device `d`: after the one last used, in ascending order, skipping those whose transmit buffer
holds more than LINK_FILL_MAX cells (R409). -/
def nextLink (s : State) (d : Nat) : Option Nat :=
  firstFrom (s.hn (.lastLink d)) ((spraySet s d).filter fun l => (txLink s l).wait.length ≤ s.reg Reg.FAB.LINK_FILL_MAX)

/-- While every link of the spray set of device `d` is above the fill, the cell waits for the first of them to send one
(R409). -/
def fillWait (d : Nat) : Nat → State → State
  | 0, s => s
  | n + 1, s =>
    let s := forEach (spraySet s d) s fun l s => pump l (txLink s l).wait.length s
    match nextLink s d, (spraySet s d).map fun l => (txLink s l).next with
    | none, t :: ts => fillWait d n (waitRoot (cdiv (ts.foldl min t - 1151) 125) s)
    | _, _ => s

/-- A data or credit cell of kind `k` is sent to device `d`: on the local path, or on its next link; none while no link leads there
(R409, R416). -/
def cellSend (d k : Nat) (c : List Byte) (s : State) : Option State :=
  if d = devId s then some { s with localPath := s.localPath ++ [c] }
  else
    let s := fillWait d (((spraySet s d).map fun l => (txLink s l).wait.length).sum + 1) s
    (nextLink s d).map fun l => cellOut l k c (s.setH (.lastLink d) (l + 1 : Nat))

/-- A keepalive is sent on link `l` (R409). -/
def keepaliveTx (l : Nat) (s : State) : State :=
  let pay := [1, 0] ++ beBytes 2 (devId s) ++ beBytes 2 l ++ beBytes 1 (s.rfld (linkCfgReg l) 24 3)
  let c := cellHeader 6 0 0 0 0 0 3 0 0 0 0 ++ pay ++ List.replicate 57 0
  cellOut l 0 c (s.setH (.kaTx l) (s.root : Nat))

/-- The reachability bits of segment `g` that the device sends: its own (R407). -/
def ownReach (s : State) (g : Nat) : List Byte :=
  (List.range 128).map fun i =>
    if devId s / 1024 = g ∧ devId s % 1024 / 8 = i then BitVec.ofNat 8 (2 ^ (7 - devId s % 8)) else 0

/-- The next reachability segment is sent on link `l` (R407). -/
def reachTx (l : Nat) (s : State) : State :=
  let g := s.hn (.reachSeg l)
  let c := cellHeader 5 0 0 0 0 0 8 0 0 0 0 ++ [1, BitVec.ofNat 8 g] ++ List.replicate 14 0 ++ ownReach s g
  cellOut l 0 c ((s.setH (.reachTx l) (s.root : Nat)).setH (.reachSeg l) ((g + 1) % 4 : Nat))

/-! ### Link states (R398 to R400) -/

/-- Devices in the reachability of link `l`. -/
def reachDevs (s : State) (l : Nat) : List Nat :=
  (List.range 8).flatMap fun h =>
    let e := s.tab fabPage 3 (8 * l + h)
    if e = 0 then [] else
    (List.range 512).filterMap fun i => if bit (word e (i / 32)) (31 - i % 32) then some (512 * h + i) else none

/-- A change that can alter the spray sets through link `l`: a destination whose set becomes empty raises UNREACH, and the
VOQs of one that becomes reachable send STATUS (R365, R408). -/
def withReach (l : Nat) (f : State → State) (s : State) : State :=
  let had := (reachDevs s l).filter fun d => d != devId s && reachable s d
  let t := f s
  let t := forEach had t fun d t => if reachable t d then t else raise fabPage 3 t
  reachGained s t

/-- The reachability of link `l` is cleared (R399). -/
def reachClear (l : Nat) (s : State) : State := forEach (List.range 8) s fun h s => s.setTab fabPage 3 (8 * l + h) 0

/-- The reasons for HELD that hold, lowest first; 0 none (R400). -/
def heldWhy (s : State) (l : Nat) : Nat :=
  let peer := s.reg (Reg.FG.PEER (l / 32) (l % 32))
  let good := s.hb (.kaGood l)
  if s.rbit (linkCfgReg l) 30 then 1
  else if s.rbit (linkStsReg l) 9 then 2
  else if good && !bit peer 31 && fld peer 0 12 == devId s then 3
  else if good && fld peer 24 3 != s.rfld (linkCfgReg l) 24 3 then 4
  else if s.hb (.degOn l) then 5
  else if s.hb (.kaLost l) then 6
  else 0

/-- `LINK_STS.KA_OK` and `HELD_WHY` follow (R422). -/
def linkReport (l : Nat) (s : State) : State :=
  let a := linkStsReg l
  let s := s.setRbit a 10 (s.hb (.kaGood l) && !s.hb (.kaLost l))
  s.setRfld a 4 4 (if flinkState s l = 5 then heldWhy s l else 0)

/-- Link `l` leaves for a state in which its lane carries nothing of it: what its transmit buffer holds is lost, and at EN = 0 the
stream ends (R398, notes/assumptions/89.md). -/
def txLost (l st : Nat) (s : State) : State :=
  if st = 0 then { s with txLinks := s.txLinks.filter fun t => t.link != l }
  else putTx { txLink s l with wait := (txLink s l).wait.filter fun x => x.1 == 0 } s

/-- The stream of link `l` begins, its scrambler in a state that the spec leaves free (R395, notes/assumptions/89.md). -/
def txBegins (l : Nat) (s : State) : State :=
  let (x, s) := s.free
  putTx { link := l, next := 125 * s.root, scr := x % 2 ^ 58 } s

/-- A change of RDI or DRAIN goes out with the codeword under way, which fill units complete when nothing waits (R395). -/
def idleTx (l : Nat) (s : State) : State :=
  let s := pumpLink l s
  if (nextWait s (txLink s l)).isSome then s else fillOut l (40 - (txLink s l).body.length / 16) s

/-- Link `l` moves to a state (R398, R399). -/
def flinkSet (l st : Nat) (s : State) : State :=
  let k := l / 32
  let j := l % 32
  let was := flinkState s l
  if was = st then linkReport l s else
  let s := if was = 0 then s else pumpLink l s
  let move := fun (s : State) =>
    let s := (s.setRfld (linkStsReg l) 0 3 st).setRbit (Reg.FG.LINK_CHG k) j true
    if was = 4 then reachClear l s else s
  let s := withReach l move s
  let s := s.setH (.peerAt l) 0
  let s := if st ≤ 2 then txLost l st s else s
  let s := if st ≤ 2 then
      ((((s.setHb (.kaGood l) false).setHb (.kaLost l) false).setH (.rdiRun l) 0).setRbit (linkStsReg l) 8 false).setRbit (linkStsReg l) 9 false
    else s
  let s := if was ≤ 2 ∧ 3 ≤ st then (s.setH (.kaRx l) (s.root : Nat)).setHb (.lnkDisc l) false else s
  let s := if st ≠ 0 ∧ decide (was < 3) ≠ decide (st < 3) then idleTx l s else s
  let s := linkReport l s
  if st = 4 then raise (fgPage l) 0 s
  else if was = 4 then
    if st = 1 ∨ st = 2 then raiseFault (fgPage l) 1 8 l (bump (Reg.FG.LINK_FAIL k j) s)
    else if s.hb (.degOn l) ∨ s.hb (.kaLost l) then raiseFault (fgPage l) 2 8 l s
    else raise (fgPage l) 2 s
  else s

/-- Whether the conditions of PEER for UP hold (R398). -/
def peerClean (s : State) (l : Nat) : Bool :=
  flinkState s l == 3 && !s.rbit (linkStsReg l) 8 && !s.rbit (linkStsReg l) 9 && s.hb (.kaGood l) && heldWhy s l == 0

/-- The reasons of R400 and the conditions of UP are evaluated again. -/
def linkEval (l : Nat) (s : State) : State :=
  let st := flinkState s l
  let why := heldWhy s l
  let s := if (st = 3 ∨ st = 4) ∧ why ≠ 0 then flinkSet l 5 s
    else if st = 5 ∧ why = 0 then flinkSet l 3 s
    else linkReport l s
  if peerClean s l then (if s.h (.peerAt l) = 0 then s.setH (.peerAt l) (s.root + 1 : Nat) else s)
  else s.setH (.peerAt l) 0

/-- An event of link `l` acts while its FG page performs its function and the link is in one of the states `sts`. -/
def onLink (l : Nat) (sts : List Nat) (f : State → State) (s : State) : State :=
  s.when (s.live (fgPage l) && sts.contains (flinkState s l)) f

/-- A write of `LINK_CFG` (R398, R400, R409, R417). -/
def flinkCfg (r : Req) (l w : Nat) (s : State) : State :=
  let a := linkCfgReg l
  let v := w &&& 0xC7000000
  if bit v 31 && !s.rbit (Reg.BLK_CTL fabPage) 2 then errReq (fgPage l) 0x11 r a w s
  else
    let was := s.rbit a 31
    let drain := s.rbit a 30
    let s := s.setReg a v
    let s := if !was && bit v 31 then
        let s := (txBegins l (flinkSet l 1 s)).setH (.reachSeg l) 0
        keepaliveTx l (reachTx l s)
      else if was && !bit v 31 then flinkSet l 0 s
      else s
    linkEval l (if bit v 31 && drain != bit v 30 then idleTx l s else s)

/-- FABRIC_LINK_ENABLE (R398). -/
def execFabricLinkEnable (r : Req) (l : Fin 192) (v : W32) (s : State) : Host.Outcome State Fault Refusal :=
  done (gateWrite r (linkCfgReg l) (flinkCfg r l v.toNat) s)

/-- LINK_DRAIN_WRITE (R400). -/
def execLinkDrainWrite (r : Req) (l : Fin 192) (v : W32) (s : State) : Host.Outcome State Fault Refusal :=
  done (gateWrite r (linkCfgReg l) (flinkCfg r l v.toNat) s)

/-- FABRIC_SIGNAL_DETECT (R398). -/
def execFabricSignalDetect (l : Fin 192) (s : State) : Host.Outcome State Fault Refusal :=
  done (onLink l [1] (flinkSet l 2) s)

/-- CODEWORD_LOCK (R397). -/
def execCodewordLock (l : Fin 192) (s : State) : Host.Outcome State Fault Refusal :=
  done (onLink l [2] (fun s => linkEval l (flinkSet l 3 s)) s)

/-- CODEWORD_LOCK_LOSS (R397). -/
def execCodewordLockLoss (l : Fin 192) (s : State) : Host.Outcome State Fault Refusal :=
  done (onLink l [3, 4, 5] (flinkSet l 2) s)

/-- FABRIC_SIGNAL_LOSS (R398). -/
def execFabricSignalLoss (l : Fin 192) (s : State) : Host.Outcome State Fault Refusal :=
  done (onLink l [2, 3, 4, 5] (flinkSet l 1) s)

/-- A control word arrives on link `l` (R395, R398): a FIRST that names a position delineates the stream again, an invalid
one loses it (R396). -/
def controlWord (l w : Nat) (s : State) : State :=
  let rdi := bit w 13
  let first := fld w 14 6
  let s := if first < 40 then s.setHb (.lnkDisc l) false else if first < 63 then s.setHb (.lnkDisc l) true else s
  let s := (s.setRbit (linkStsReg l) 8 rdi).setRbit (linkStsReg l) 9 (bit w 12)
  let n := if rdi then s.hn (.rdiRun l) + 1 else 0
  let s := s.setH (.rdiRun l) (min n 2 : Nat)
  linkEval l (if flinkState s l = 4 ∧ 2 ≤ n then flinkSet l 3 s else s)

/-- CONTROL_WORD_RX (R395). -/
def execControlWordRx (l : Fin 192) (w : BitVec 20) (s : State) : Host.Outcome State Fault Refusal :=
  done (onLink l [3, 4, 5] (controlWord l w.toNat) s)

/-- FABRIC_UP_HOLD_EXPIRE (R398). -/
def execFabricUpHoldExpire (l : Fin 192) (s : State) : Host.Outcome State Fault Refusal :=
  done (s.when (s.live (fgPage l) && peerClean s l && s.h (.peerAt l) != 0) fun s =>
    flinkSet l 4 (waitRoot (s.hn (.peerAt l) - 1 + cycUs (s.reg (Reg.FG.UP_HOLD (l / 32)))) s))

/-- A 1 ms window of codewords of link `l` ends (R400, R422). -/
def degWindow (l corr uncorr sym : Nat) (s : State) : State :=
  let k := l / 32
  let j := l % 32
  let s := bumpBy (Reg.FG.CW_CORR k j) corr (bumpBy (Reg.FG.CW_UNCORR k j) uncorr (bumpBy (Reg.FG.SYM_CORR k j) sym s))
  let clean := if uncorr = 0 then s.hn (.degClean l) + 1 else 0
  let s := s.setH (.degClean l) (min clean 10 : Nat)
  let s := if s.reg (Reg.FG.DEG_THR k) < uncorr then s.setHb (.degOn l) true
    else if 10 ≤ clean then s.setHb (.degOn l) false else s
  linkEval l s

/-- LINK_DEG_WINDOW (R400): every 1 ms. -/
def execLinkDegWindow (l : Fin 192) (corr uncorr sym : W32) (s : State) : Host.Outcome State Fault Refusal :=
  done (onLink l [2, 3, 4, 5] (fun s =>
    degWindow l corr.toNat uncorr.toNat sym.toNat (nextInterval (fgPage l) (.degAtL l) (cycUs 1000) s)) s)

/-- Four keepalive intervals pass without a valid keepalive (R400). -/
def kaLoss (l : Nat) (s : State) : State :=
  let s := waitRoot (s.hn (.kaRx l) + 4 * cycUs (s.reg Reg.FAB.KA_IVL)) s
  if s.hb (.kaLost l) then s else linkEval l (raise (fgPage l) 3 (s.setHb (.kaLost l) true))

/-- KA_LOSS (R400). -/
def execKaLoss (l : Fin 192) (s : State) : Host.Outcome State Fault Refusal := done (onLink l [3, 4, 5] (kaLoss l) s)

/-- KEEPALIVE_TX (R409). -/
def execKeepaliveTx (l : Fin 192) (s : State) : Host.Outcome State Fault Refusal :=
  done (onLink l [1, 2, 3, 4, 5] (fun s =>
    keepaliveTx l (waitRoot (s.hn (.kaTx l) + cycUs (s.reg Reg.FAB.KA_IVL)) s)) s)

/-- REACH_CELL_TX (R407). -/
def execReachCellTx (l : Fin 192) (s : State) : Host.Outcome State Fault Refusal :=
  done (onLink l [1, 2, 3, 4, 5] (fun s =>
    reachTx l (waitRoot (s.hn (.reachTx l) + cycUs (s.reg Reg.FAB.REACH_IVL)) s)) s)

/-- Links that are not DISABLED. -/
def activeLinks (s : State) : List Nat := (List.range 192).filter fun l => s.live (fgPage l) && flinkState s l != 0

/-- A write of `KA_IVL` or `REACH_IVL`: a cell whose new due time has passed is sent at once (R409). -/
def ivlWrite (r : Req) (reach : Bool) (w : Nat) (s : State) : State :=
  let a := if reach then Reg.FAB.REACH_IVL else Reg.FAB.KA_IVL
  let v := w % 256
  if v = 0 then errReq fabPage 0x10 r a w s
  else
    let s := s.setReg a v
    forEach (activeLinks s) s fun l s =>
      if reach then (if s.hn (.reachTx l) + cycUs v ≤ s.root then reachTx l s else s)
      else (if s.hn (.kaTx l) + cycUs v ≤ s.root then keepaliveTx l s else s)

/-- KA_IVL_WRITE (R409): of `REACH_IVL` where `reach` says so. -/
def execKaIvlWrite (r : Req) (reach : Bool) (v : W32) (s : State) : Host.Outcome State Fault Refusal :=
  done (gateWrite r (if reach then Reg.FAB.REACH_IVL else Reg.FAB.KA_IVL) (ivlWrite r reach v.toNat) s)

/-! ### Link cells received (R407 to R409) -/

/-- A keepalive arrives on link `l` (R400, R409). -/
def keepaliveIn (l : Nat) (c : List Byte) (s : State) : State :=
  let p := cellPayload c
  if cellLen c ≠ 3 ∨ byteAt p 0 ≠ 1 ∨ 1 < byteAt p 1 then s
  else
    let far := beAt p 4 2
    let v := byteAt p 1 * 2 ^ 31 + byteAt p 6 % 8 * 2 ^ 24 + (if far < 256 then far else 0) * 2 ^ 16 + beAt p 2 2
    let s := s.setReg (Reg.FG.PEER (l / 32) (l % 32)) v
    linkEval l (((s.setHb (.kaGood l) true).setHb (.kaLost l) false).setH (.kaRx l) (s.root : Nat))

/-- A reachability segment arrives on link `l` and replaces that segment (R407, R408, R421). -/
def reachIn (l : Nat) (c : List Byte) (s : State) : State :=
  let p := cellPayload c
  let g := byteAt p 1
  if cellLen c ≠ 8 ∨ byteAt p 0 ≠ 1 ∨ 3 < g then s
  else
    let half := fun h => ofWords ((List.range 16).map fun i => beAt p (16 + 64 * h + 4 * i) 4)
    let put := fun (s : State) =>
      (s.setTab fabPage 3 (8 * l + 2 * g) (half 0)).setTab fabPage 3 (8 * l + 2 * g + 1) (half 1)
    (withReach l put s).setH (.reachAt (4 * l + g)) (s.root : Nat)

/-- A segment has not been received for 8 × REACH_IVL (R408), since a reset of FAB at the earliest. -/
def segTimeout (l g : Nat) (s : State) : State :=
  let s := waitSince fabPage (.reachAt (4 * l + g)) (8 * cycUs (s.reg Reg.FAB.REACH_IVL)) s
  let clear := fun (s : State) => (s.setTab fabPage 3 (8 * l + 2 * g) 0).setTab fabPage 3 (8 * l + 2 * g + 1) 0
  withReach l clear s

/-- REACH_SEGMENT_TIMEOUT (R408). -/
def execReachSegmentTimeout (l : Fin 192) (g : Fin 4) (s : State) : Host.Outcome State Fault Refusal :=
  done (s.when (s.live fabPage && s.live (fgPage l)) (segTimeout l g))

/-! ### Segmentation (R403, R404, R410) -/

/-- The instant at which the quiet period ends (R410). -/
def quietEnd (s : State) : Nat := s.hn .quietAt + 7200000 * s.reg Reg.FAB.SEQ_QUIET

/-- A frame that waits to be segmented, or is being segmented, in a context. -/
def segFrame (s : State) (ctx : Nat) : Option Frame :=
  let fs := (s.allAt .fabricTx).filter fun f => f.ctx == ctx + 1
  (fs.find? (·.started)).orElse fun _ => fs.head?

/-- The next cell of a frame's byte string S (R404): its payload, how many bytes of S it takes, and whether it is the last. -/
def nextCell (f : Frame) : Option (List Byte × Nat × Bool) :=
  let str := prefixOf f ++ f.heldBytes
  let rest := str.drop f.sent
  let p := rest.length
  if 257 ≤ p then some (rest.take 256, 256, false)
  else if !f.whole then none
  else if 240 < p then some (rest.take 240, 240, false)
  else
    let pay := max 64 (16 * cdiv (p + 16) 16)
    some (rest ++ List.replicate (pay - 16 - p) 0 ++ trailerOf f str, p, true)

/-- The data cells of one step of segmentation: the frame of context `ctx` sends its next cell (R24, R118, R401, R404,
R409, R410). -/
def dataTx (ctx : Nat) (s : State) : State :=
  match segFrame s ctx with
  | none => s
  | some f =>
    if s.root < quietEnd s then s
    else if f.sent = 0 ∧ f.whole ∧ f.bad then
      (match f.inPort with
        | some n => bump (Reg.LPORT.RX_BADTAIL_DISC n) (s.drop f)
        | none => s.drop f)
    else if f.whole = false ∧ (f.ctEn = false ∨ f.sf) then s
    else
      match nextCell f with
      | none => s
      | some (pay, n, last) =>
        let d := ctx / 8
        let cut := if f.sent = 0 then !f.whole else f.cut
        let typ := if last then (if f.sent = 0 then 3 else 2) else (if f.sent = 0 then 0 else 1)
        let c := cellHeader typ d (devId s) (ctx % 8) (f.parity.getD 0) (s.hn (.txSeq ctx)) (pay.length / 16 - 1)
          (ofB (last && f.bad)) (ofB cut) f.dq (f.birth / 16 % 2 ^ 32) ++ pay
        match cellSend d 2 c s with
        | none => s
        | some s =>
          let s := bump Reg.FAB.DATA_TX (s.setH (.txSeq ctx) ((s.hn (.txSeq ctx) + 1) % 2 ^ 24 : Nat))
          if !last then s.putFrame { f with sent := f.sent + n, started := true, cut := cut }
          else s.drop { f with sent := f.sent + n }

/-- DATA_CELL_TX (R404): of the context to device `d` of class `c`. -/
def execDataCellTx (d : Fin 4096) (c : Fin 8) (s : State) : Host.Outcome State Fault Refusal :=
  done (s.ifLive fabPage (dataTx (8 * d + c)))

/-- SEQ_QUIET_END (R410). -/
def execSeqQuietEnd (s : State) : Host.Outcome State Fault Refusal := done (s.ifLive fabPage fun s => waitRoot (quietEnd s) s)

/-- A write of `SEQ_QUIET` (R410, R420): the end of a running quiet period follows the register. -/
def seqQuiet (r : Req) (v : Nat) (s : State) : State :=
  if 4000 < v % 4096 then errReq fabPage 0x10 r Reg.FAB.SEQ_QUIET v s else s.setReg Reg.FAB.SEQ_QUIET (v % 4096)

/-- SEQ_QUIET_WRITE (R410). -/
def execSeqQuietWrite (r : Req) (v : W32) (s : State) : Host.Outcome State Fault Refusal :=
  done (gateWrite r Reg.FAB.SEQ_QUIET (seqQuiet r v.toNat) s)

/-! ### The resequencer (R411 to R414) -/

/-- The held cells of a context. -/
def heldOf (s : State) (c : Nat) : List Held := s.held.filter fun h => h.ctx == c

/-- The list of held cells changes, and RESEQ_USED follows. -/
def setHeld (hs : List Held) (s : State) : State := ({ s with held := hs }).setReg Reg.FAB.RESEQ_USED hs.length

/-- A first cell that the resequencer accepted, or a local one, is discarded: its frame leaves the in-flight count (R285). -/
def cellLost (c : List Byte) (s : State) : State := if cellType c = 0 ∨ cellType c = 3 then infDec (cellGen c) s else s

/-- The resequencer accepts a cell: the first one of a frame from another device raises the in-flight count (R285). -/
def cellAccept (c : List Byte) (s : State) : State :=
  if (cellType c = 0 ∨ cellType c = 3) ∧ cellSrc c ≠ devId s then infInc (cellGen c) s else s

/-- The frame in progress of a context. -/
def rxFrame (s : State) (c : Nat) : Option Frame := s.frames.find? fun f => f.ctx == c + 1 && !f.full && f.loc != .fabricTx

/-- The frame in progress is given up (R413): discarded whole, or ended under R120 once it has left its queue for a port. -/
def rxAbandon (c : Nat) (s : State) : State :=
  let s := s.setHb (.rsBusy c) false
  match rxFrame s c with
  | none => s
  | some f =>
    match f.loc with
    | .epipe _ | .mac _ | .launch _ | .recirc _ =>
      if 128 ≤ f.outPort then s.putFrame { f with bad := true, full := true }
      else s.putFrame { f with bad := true, gone := true, ctx := 0 }
    | .queued q => queueLeft q (if f.started then endQueued q f.ncell f.id s else s.drop f)
    | _ => s.drop f

/-- A frame whose cells break their order ends bad (R406). -/
def rxBroken (c : Nat) (s : State) : State :=
  let s := bump Reg.FAB.TYPE_ERR (s.setHb (.rsBusy c) false)
  match rxFrame s c with
  | none => s
  | some f =>
    let f := { f with bad := true, full := true }
    if f.loc = .fabricRx then (s.putFrame f).moveFrame f (.toQ (egqBase + f.dq)) else s.putFrame f

/-- A frame from the first cell of its byte string: header and prefix (R401, R405). -/
def frameOf (ctx : Nat) (c : List Byte) : Frame :=
  let p := beAt (cellPayload c) 0 16
  { id := 0, loc := .fabricRx, full := false, ctx := ctx + 1, dq := hdr c 49 17, cut := hdr c 66 1 == 1
    birth := hdr c 16 32 * 16, remote := true, parity := some (cellGen c), cls := cellClass c
    colour := fld p 122 2, srcSys := fld p 107 15, adj := fld p 87 20, mplsOp := fld p 85 2, outLabel := fld p 65 20
    osOvr := bit p 64, onestep := fld p 62 2, tsrc := fld p 60 2, noRw := bit p 59 }

/-- The bytes of S in a cell that is not the last, and in a last cell by its trailer's FLEN; whether FLEN fits (R404,
R405). `had` bytes of S came before. -/
def sBytes (had : Nat) (last : Bool) (c : List Byte) : List Byte × Bool :=
  let p := cellPayload c
  if !last then (p, true) else
  let n := 16 + beAt p (p.length - 16) 2 / 4 - had
  let fits := had < 16 + beAt p (p.length - 16) 2 / 4 && p.length == max 64 (16 * cdiv (n + 16) 16)
  if fits then (p.take n, true) else (p.take (p.length - 16), false)

/-- A released cell adds its bytes to the frame in progress; the last one ends it (R406, R414). -/
def cellJoin (c : Nat) (f : Frame) (x : List Byte) (s : State) : State :=
  let last := cellType x = 2 ∨ cellType x = 3
  let (bs, fits) := sBytes f.sent (decide last) x
  let crc := fcsRun f.crc bs
  let body := if f.sent = 0 then bs.drop 16 else bs
  let f := { f with bytes := if f.trunc then f.bytes else f.bytes ++ body, sent := f.sent + bs.length, crc := crc }
  if !last then grown f.id (s.putFrame f)
  else
    let good := crc ^^^ 0xFFFFFFFF == beAt (cellPayload x) ((cellPayload x).length - 4) 4
    let s := s.setHb (.rsBusy c) false
    let s := if fits then s else bump Reg.FAB.TYPE_ERR s
    let s := if good then s else raiseFirst fabPage 5 (bump Reg.FAB.FCRC_ERR s)
    let f := { f with full := true, bad := f.bad || !fits || !good || hdr x 67 1 == 1, ctx := 0 }
    let s := s.putFrame f
    if f.loc = .fabricRx then s.moveFrame f (.toQ (egqBase + f.dq)) else grown f.id s

/-- Whether a frame of parity `g` that arrives from the fabric is stale (R292). -/
def isStale (s : State) (g : Nat) : Bool :=
  (s.h .capoState == 0 || s.h .capoState == 1 || s.h .capoState == 4) && g == oldParity s

/-- A first cell is released: the checks of R414, then the frame starts (R25, R292, R343). -/
def frameStart (c : Nat) (x : List Byte) (s : State) : State :=
  let f := { frameOf c x with ext := cellSrc x != devId s }
  let q := egqBase + f.dq
  let only := cellType x = 3
  let skip := fun (s : State) => if only then s else s.setH (.rsSkip c) 1
  if isStale s (cellGen x) then skip (raiseFirst capoPage 4 (bump Reg.CAPO.STALE_DROP (cellLost x s)))
  else
    match agedBy s q f with
    | 0 =>
      let id := s.hn .nextId
      let s := (s.newFrame f).setHb (.rsBusy c) true
      match s.frame id with
      | none => s
      | some f =>
        let s := cellJoin c f x s
        match s.frame id with
        | some f => if f.loc = .fabricRx ∧ f.cut then s.moveFrame f (.toQ q) else s
        | none => s
    | k =>
      let s := raiseFirst cellPage 0 (bump (Reg.CELL.AGED_RESEQ_G + 8 * (k - 1)) s)
      skip (cellLost x (fsCount (dropPair q) ((sBytes 0 only x).1.length - 16) s))

/-- A cell of context `c` is released in order (R406, R413, R414). -/
def cellRelease (c : Nat) (x : List Byte) (s : State) : State :=
  let first := cellType x = 0 ∨ cellType x = 3
  if first then
    let s := s.setH (.rsSkip c) 0
    frameStart c x (if s.hb (.rsBusy c) then rxBroken c s else s)
  else if s.h (.rsSkip c) = 2 then (bump Reg.FAB.RESEQ_FRAME_DISC s).setH (.rsSkip c) 1
  else if s.h (.rsSkip c) = 1 then s
  else if s.hb (.rsBusy c) then
    match rxFrame s c with
    | some f => cellJoin c f x s
    | none => if cellType x = 2 then s.setHb (.rsBusy c) false else s
  else bump Reg.FAB.TYPE_ERR s

/-- Held cells that follow in sequence are released, and E advances past them (R412). -/
def releaseRun (c : Nat) : Nat → State → State
  | 0, s => s
  | n + 1, s =>
    match (heldOf s c).find? fun h => (h.seq : Int) == s.h (.rsE c) with
    | none => s
    | some h =>
      let s := setHeld (s.held.filter fun k => !(k.ctx == c && k.seq == h.seq)) s
      let s := cellRelease c h.bytes s
      releaseRun c n (s.setH (.rsE c) ((s.hn (.rsE c) + 1) % 2 ^ 24 : Nat))

/-- A cell takes a slot, or is discarded when none is free; a second cell of a SEQ already held is discarded as late (R411,
R412). -/
def cellHold (c : Nat) (x : List Byte) (s : State) : State :=
  let lost := fun (s : State) => if cellSrc x = devId s then cellLost x s else s
  if (heldOf s c).any fun h => h.seq == cellSeq x then bump Reg.FAB.RESEQ_LATE (lost s)
  else if 65536 ≤ s.held.length then raise fabPage 2 (bump Reg.FAB.RESEQ_FULL (lost s))
  else setHeld (s.held ++ [{ ctx := c, seq := cellSeq x, since := s.root, bytes := x }]) (cellAccept x s)

/-- The frames in progress of every context are given up (R406): no further cell of theirs comes. -/
def rxAbandonAll (s : State) : State :=
  forEach ((s.frames.filter fun f => f.ctx != 0 && !f.full && f.loc != .fabricTx).map fun f => f.ctx - 1) s rxAbandon

/-- Every held cell, every cell on the local path and every frame in progress is discarded (R43, R45, R285). -/
def cellsDrop (s : State) : State :=
  let s := rxAbandonAll s
  forEach (s.held.map (·.bytes) ++ s.localPath) (setHeld [] { s with localPath := [] }) cellLost

/-- Every held cell of a context is discarded. -/
def heldDrop (c : Nat) (s : State) : State :=
  let hs := heldOf s c
  forEach hs (setHeld (s.held.filter fun h => h.ctx != c) s) fun h s => cellLost h.bytes s

/-- A data cell arrives in its context (R412). -/
def reseqIn (x : List Byte) (s : State) : State :=
  let c := 8 * cellSrc x + cellClass x
  let s := s.setH (.rsLast c) (s.root + 1 : Nat)
  if !s.hb (.rsSync c) then cellHold c x s
  else
    let e := s.hn (.rsE c)
    let d := (cellSeq x + 2 ^ 24 - e) % 2 ^ 24
    let b := (e + 2 ^ 24 - cellSeq x) % 2 ^ 24
    if d = 0 then
      let s := cellRelease c x (cellAccept x s)
      let s := s.setH (.rsE c) ((e + 1) % 2 ^ 24 : Nat)
      releaseRun c s.held.length s
    else if d < 65536 then cellHold c x s
    else if 1 ≤ b ∧ b ≤ 65536 then
      bump Reg.FAB.RESEQ_LATE (if cellSrc x = devId s then cellLost x s else s)
    else
      let s := rxAbandon c (heldDrop c s)
      let s := raise fabPage 1 (bump Reg.FAB.RESEQ_RESYNC (s.setHb (.rsSync c) false))
      cellHold c x s

/-- A credit cell arrives: its messages are delivered (R366, R369, R415). -/
def creditIn (x : List Byte) (s : State) : State :=
  let s := bump Reg.FAB.CREDIT_RX s
  let p := cellPayload x
  forEach (List.range (p.length / 8)) s fun i s =>
    let m := beAt p (8 * i) 8
    let voq := fld m 43 18
    match fld m 62 2 with
    | 0 => s
    | 3 => bump Reg.FAB.CRED_MSG_ERR s
    | k =>
      if !s.live qmgrPage then (if s.clocked qmgrPage then errDisabled qmgrPage s else s)
      else if k = 1 then statusIn (cellSrc x) voq (fld m 26 17) (bit m 61) (bump Reg.QMGR.STATUS_RX s)
      else grantIn voq (bump Reg.QMGR.GRANT_RX s)

/-- A data or credit cell reaches FAB, from a link or the local path (R402, R412, R594). -/
def fabIn (x : List Byte) (s : State) : State :=
  let t := cellType x
  let lost := fun (s : State) => if t ≤ 3 ∧ cellSrc x = devId s then cellLost x s else s
  if !s.live fabPage then (if s.clocked fabPage then errDisabled fabPage (lost s) else lost s)
  else if cellLen x < 3 then bump Reg.FAB.TYPE_ERR (lost s)
  else if cellDst x ≠ devId s then raise fabPage 4 (bump Reg.FAB.MISDELIVER s)
  else if t = 4 then creditIn x s
  else if s.hb (.stuck 36) then errInt fabPage 0x07 0 (lost s)
  else reseqIn x (bump Reg.FAB.DATA_RX s)

/-- A cell arrives on link `l` (R396, R402): `err` says that a byte of it lies in an uncorrectable codeword. After a header
that fails its HCRC the stream is discarded up to the next position that FIRST names. -/
def linkIn (l : Nat) (x : List Byte) (err : Bool) (s : State) : State :=
  let k := l / 32
  let j := l % 32
  let t := cellType x
  if s.hb (.lnkDisc l) then s
  else if err then bump (Reg.FG.CELL_ERR_DISC k j) s
  else if !hcrcOk x then (bump (Reg.FG.HCRC_ERR k j) s).setHb (.lnkDisc l) true
  else if t = 15 then s
  else
    let s := bump (Reg.FG.CELLS_RX k j) s
    if t = 5 then reachIn l x s
    else if t = 6 then keepaliveIn l x s
    else if 7 ≤ t then (if s.live fabPage then bump Reg.FAB.TYPE_ERR s else s)
    else fabIn x s

/-- The next cell on the local path that `p` holds for reaches the resequencer or the credit logic, after those before it: the
path is in order (R416). -/
def localIn (p : List Byte → Bool) (s : State) : State :=
  match s.localPath.dropWhile fun y => !p y with
  | [] => s
  | x :: rest => forEach (s.localPath.takeWhile (fun y => !p y) ++ [x]) { s with localPath := rest } fabIn

/-- A cell arrives on a link that has codeword lock. -/
def onCell (l : Nat) (x : List Byte) (err : Bool) (s : State) : State := onLink l [3, 4, 5] (linkIn l x err) s

/-- DATA_CELL_RX (R412): a cell arrives on a link, or, with no link, the next data cell on the local path. -/
def execDataCellRx (l : Option (Fin 192)) (x : List Byte) (err : Bool) (s : State) : Host.Outcome State Fault Refusal :=
  done (match l with
    | some l => onCell l x err s
    | none => localIn (fun y => cellType y ≤ 3) s)

/-- CREDIT_CELL_RX (R415): a cell arrives on a link, or, with no link, the next credit cell on the local path. -/
def execCreditCellRx (l : Option (Fin 192)) (x : List Byte) (err : Bool) (s : State) : Host.Outcome State Fault Refusal :=
  done (match l with
    | some l => onCell l x err s
    | none => localIn (fun y => cellType y == 4) s)

/-- KEEPALIVE_RX (R409). -/
def execKeepaliveRx (l : Fin 192) (x : List Byte) (err : Bool) (s : State) : Host.Outcome State Fault Refusal :=
  done (onCell l x err s)

/-- REACH_CELL_RX (R408). -/
def execReachCellRx (l : Fin 192) (x : List Byte) (err : Bool) (s : State) : Host.Outcome State Fault Refusal :=
  done (onCell l x err s)

/-- The lowest SEQ of a list, in sequence order: the one that all others follow, else the least number (R411). -/
def lowestSeq (qs : List Nat) : Option Nat :=
  (qs.find? fun x => qs.all fun y => (y + 2 ^ 24 - x) % 2 ^ 24 < 2 ^ 23).orElse fun _ => (sortNat qs).head?

/-- The hold of an UNSYNC context ends (R411, R413). -/
def syncHold (c : Nat) (s : State) : State :=
  match heldOf s c with
  | [] => s
  | h :: _ =>
    if s.hb (.rsSync c) then s else
    let s := waitRoot (h.since + cycNs (s.reg Reg.FAB.SYNC_HOLD)) s
    match lowestSeq ((heldOf s c).map (·.seq)) with
    | none => s
    | some e =>
      let s := ((s.setHb (.rsSync c) true).setH (.rsE c) (e : Nat)).setH (.rsSkip c) 2
      releaseRun c s.held.length s

/-- SYNC_HOLD_EXPIRE (R411): of context `c` = 8 × source device + class. -/
def execSyncHoldExpire (c : Fin 32768) (s : State) : Host.Outcome State Fault Refusal :=
  done (s.ifLive fabPage (syncHold c))

/-- CTX_IDLE_EXPIRE (R411). -/
def execCtxIdleExpire (c : Fin 32768) (s : State) : Host.Outcome State Fault Refusal :=
  done (s.when (s.live fabPage && s.hb (.rsSync c)) fun s =>
    (waitRoot (s.hn (.rsLast c) - 1 + 7200000 * s.reg Reg.FAB.CTX_IDLE) s).setHb (.rsSync c) false)

/-- The oldest held cell of a context has waited RESEQ_TMO: the gap is given up (R413). -/
def reseqTimeout (c : Nat) (s : State) : State :=
  match heldOf s c with
  | [] => s
  | h :: _ =>
    if !s.hb (.rsSync c) then s else
    let s := waitRoot (h.since + cycUs (s.reg Reg.FAB.RESEQ_TMO)) s
    let e := s.hn (.rsE c)
    let off := sortNat ((heldOf s c).map fun k => (k.seq + 2 ^ 24 - e) % 2 ^ 24)
    let s := raiseFirst fabPage 0 (bump Reg.FAB.RESEQ_TIMEOUT s)
    let busy := s.hb (.rsBusy c)
    let s := if busy then bump Reg.FAB.RESEQ_FRAME_DISC (rxAbandon c s) else s
    let s := s.setH (.rsSkip c) (if busy || s.h (.rsSkip c) == 1 then 1 else 2)
    let s := s.setH (.rsE c) ((e + off.headD 0) % 2 ^ 24 : Nat)
    releaseRun c s.held.length s

/-- RESEQ_TIMEOUT (R413). -/
def execReseqTimeout (c : Fin 32768) (s : State) : Host.Outcome State Fault Refusal :=
  done (s.ifLive fabPage (reseqTimeout c))

/-! ### Credit cells sent (R408, R415) -/

/-- A credit cell for device `d` is sent with up to 32 waiting messages; an unreachable device's is discarded. -/
def creditTx (d : Nat) (s : State) : State :=
  let ms := s.credQ.filter fun m => m.dest == d
  match ms with
  | [] => s
  | m :: _ =>
    let s := if ms.length < 32 then waitRoot (m.since + cycNs (s.reg Reg.FAB.CREDIT_HOLD)) s else s
    let take := ms.take 32
    let rest := s.credQ.filter (fun m => m.dest != d) ++ ms.drop 32
    let pay := take.flatMap fun m => beBytes 8 m.msg
    let len := max 64 (16 * cdiv pay.length 16)
    let c := cellHeader 4 d (devId s) 7 0 0 (len / 16 - 1) 0 0 0 0 ++ pay ++ List.replicate (len - pay.length) 0
    if !s.live fabPage then (let s := { s with credQ := rest }; if s.clocked fabPage then errDisabled fabPage s else s)
    else if !reachable s d then bump Reg.FAB.CREDIT_UNREACH { s with credQ := rest }
    else
      match cellSend d 1 c s with
      | none => s
      | some s => bump Reg.FAB.CREDIT_TX { s with credQ := rest }

/-- CREDIT_CELL_TX (R415): to device `d`. -/
def execCreditCellTx (d : Fin 4096) (s : State) : Host.Outcome State Fault Refusal :=
  done (s.ifLive qmgrPage (creditTx d))

/-! ### Registers and tables of the FAB and FG pages (R420 to R422) -/

/-- The entry of table SPRAY of device `d` (R421). -/
def sprayEntry (s : State) (d : Nat) : Nat :=
  let ls := spraySet s d
  ls.length + (ls.map fun l => 2 ^ (32 + l)).sum

/-- The entry of table RESEQ_CTX (R421). -/
def ctxEntry (s : State) (c : Nat) : Nat :=
  let last := s.hn (.rsLast c)
  ofWords [ofB (s.hb (.rsSync c)) * 2 ^ 31 + s.hn (.rsE c), (heldOf s c).length, if last = 0 then 0 else (s.root + 1 - last) / 7200 % 2 ^ 32]

/-- The table commands of the FAB page (R421). -/
def fabTable (op : Nat) (w : Win) (s : State) : TblRes :=
  match w.sel, op with
  | 1, 1 => if w.idx < 4096 then Win.ok (some (sprayEntry s w.idx)) s else w.fail 0x04 s
  | 2, 1 => if w.idx < 32768 then Win.ok (some (ctxEntry s w.idx)) s else w.fail 0x04 s
  | 3, 1 => w.read 1536 16 s
  | _, _ => w.fail 0x03 s

/-- Writes of the FAB registers with a range (R420, R424). -/
def fabReg (r : Req) (a v : Nat) (s : State) : Option State :=
  let range := fun (w lo hi : Nat) =>
    let x := v % 2 ^ w
    some (if x < lo ∨ hi < x then errReq fabPage 0x10 r a v s else s.setReg a x)
  if a = Reg.FAB.RESEQ_TMO then range 8 1 200
  else if a = Reg.FAB.SYNC_HOLD then range 18 500 200000
  else if a = Reg.FAB.CTX_IDLE then range 12 1 4000
  else if a = Reg.FAB.SEQ_QUIET then some (seqQuiet r v s)
  else if a = Reg.FAB.CREDIT_HOLD then range 10 10 1000
  else if a = Reg.FAB.LINK_FILL_MAX then range 8 4 255
  else if a = Reg.FAB.KA_IVL then some (ivlWrite r false v s)
  else if a = Reg.FAB.REACH_IVL then some (ivlWrite r true v s)
  else none

/-- Writes of the FG registers that are checked or act (R422, R424); `lane` tells whether a `LANE_CFG` value is refused
(R137). -/
def fgReg (lane : Nat → Bool) (r : Req) (a v : Nat) (s : State) : Option State :=
  let p := a / 0x10000
  let k := p - 0xE0
  let o := a % 0x10000
  if p < 0xE0 ∨ 0xE6 ≤ p then none
  else if a = Reg.FG.UP_HOLD k then
    some (if v % 2 ^ 16 = 0 then errReq p 0x10 r a v s else s.setReg a (v % 2 ^ 16))
  else if 0x4000 ≤ o ∧ o < 0x4800 ∧ o % 0x40 = 0 then some (flinkCfg r (32 * k + (o - 0x4000) / 0x40) v s)
  else if 0x4000 ≤ o ∧ o < 0x4800 ∧ o % 0x40 = 4 then some (if lane v then errReq p 0x10 r a v s else storeReg a v s)
  else none

end Sys2Proof.Machine
end

