-- ==== Sys2Proof/Machine/Deep.lean ====
section
/-!
DEFINITION. The deep store (spec/11_deep_store.md, R425 to R428, R437 to R446, R450, R454 to R457): population, bring-up, loss,
maintenance, patrol scrub and registers.
-/
namespace Sys2Proof.Machine

/-- Whether every DSC page reads `EN` = 0 (R426). -/
def allDscOff (s : State) : Bool := (List.range 16).all fun c => !s.rbit (Reg.BLK_CTL (dscPage c)) 0

/-! ### Population, masks and checked registers (R426, R431, R454, R455) -/

/-- A write of `POP_CFG` (R426). -/
def popCfg (r : Req) (v : Nat) (s : State) : State :=
  let a := Reg.DSC.POP_CFG 0
  let n := v % 32
  if n ≠ 0 ∧ n ≠ 8 ∧ n ≠ 16 then errReq (dscPage 0) 0x10 r a v s
  else if !allDscOff s then errReq (dscPage 0) 0x11 r a v s
  else coverUpdate (s.setReg a n)

/-- POP_CFG_WRITE (R426). -/
def execPopCfgWrite (r : Req) (v : W32) (s : State) : Host.Outcome State Fault Refusal :=
  done (gateWrite r (Reg.DSC.POP_CFG 0) (popCfg r v.toNat) s)

/-- Whether a mask of `BMAP[b]` is accepted (R431). -/
def bmapOk (s : State) (c b m : Nat) : Bool :=
  let top := if s.rfld (Reg.DSC.DIMM_INFO c) 24 2 = 1 then 22 else 23
  bit m (1 + b) && fld m 0 6 == 2 ^ (1 + b) && m < 2 ^ top && decide (popCount m 23 ≤ 8)

/-- A write of BMAP[b] (R431). -/
def bmapWrite (r : Req) (c b v : Nat) (s : State) : State :=
  let a := Reg.DSC.BMAP c b
  let m := v % 2 ^ 32
  if s.rbit (Reg.BLK_CTL (dscPage c)) 0 then errReq (dscPage c) 0x11 r a v s
  else if !bmapOk s c b m then errReq (dscPage c) 0x12 r a v s
  else s.setReg a m

/-- BMAP_WRITE (R431). -/
def execBmapWrite (r : Req) (c : Fin 16) (b : Fin 5) (v : W32) (s : State) : Host.Outcome State Fault Refusal :=
  done (gateWrite r (Reg.DSC.BMAP c b) (bmapWrite r c b v.toNat) s)

/-! ### Bring-up (R437 to R439) -/

/-- `POP_STS` reports a failed channel (R438, R443). -/
def popFail (c : Nat) (s : State) : State :=
  let a := Reg.DSC.POP_STS 0
  s.setReg a (setBit (setBit (setBit (s.reg a) 30 true) 31 false) c true)

/-- A step of the bring-up starts, and `TRAIN_STS.STEP` reports it. -/
def trainStep (c k : Nat) (s : State) : State := (s.setH (.trainStep c) (k : Nat)).setReg (Reg.DSC.TRAIN_STS c) (k * 2 ^ 24)

/-- The bring-up of a population begins with its first channel, from `EN` = 0 on every one (R439): the pages of an earlier one are no
more (R438). -/
def popBegin (c : Nat) (s : State) : State :=
  if (popChannels s).any fun x => x != c && s.rbit (Reg.BLK_CTL (dscPage x)) 0 then s
  else (((s.setH .popRun 1).setReg Reg.BPM.D_LIMIT 0).setReg (Reg.BPM.FREE_CNT 1) 0).setReg (Reg.DSC.POP_STS 0) 0

/-- `EN` := 1 on a DSC page of the population starts its bring-up (R437, R449). -/
def bringup (c : Nat) (s : State) : State :=
  if !(popChannels s).contains c || !s.clocked (dscPage c) then s
  else
    let s := popBegin c s
    let s := forEach (List.range 4) s fun k s => s.setReg (Reg.DSC.ERASED c k) 0
    trainStep c 1 (s.setH (.trainAt c) (s.root : Nat))

/-- A write of `EN` := 1 on a DSC page (R45, R437): the rest of `BLK_CTL` is written beside it. -/
def bringupStart (c : Nat) (s : State) : State :=
  let a := Reg.BLK_CTL (dscPage c)
  if s.rbit a 0 then s else bringup c (s.setRbit a 0 true)

/-- BRINGUP_START (R437). -/
def execBringupStart (r : Req) (c : Fin 16) (s : State) : Host.Outcome State Fault Refusal :=
  done (gateWrite r (Reg.BLK_CTL (dscPage c)) (bringupStart c) s)

/-- A channel of a running population is lost, and with it the deep store is out of service; its operations end (R443). -/
def chanLost (c : Nat) (s : State) : State :=
  let s := ((s.setH (.trainStep c) 8).setH (.retrain c) 0).setH .popRun 3
  let s := popFail c s
  let s := raise (dscPage c) 1 (raiseFault (dscPage c) 4 16 c s)
  opsLost c (foldStall s)

/-- Whether DSC[0]'s module has been read in this bring-up (R427). -/
def firstRead (s : State) : Bool := decide (2 ≤ s.h (.trainStep 0)) && s.rbit (Reg.DSC.DIMM_INFO 0) 31

/-- What the SPD of channel `c`'s module shows, with the first check of R425 that it fails (R427, R454): what CHECK reports
already, no SPD read, the width of a subchannel (log entry 91), rank count and capacity, and a rank count other than
DSC[0]'s. -/
def spdCheck (s : State) (c spd : Nat) : Nat :=
  let v := spd &&& 0x83FFFF8F
  let shape := (fld v 24 2, fld v 16 8)
  if fld v 0 4 ≠ 0 then v
  else if !bit v 31 then v + 6
  else if fld v 8 8 ≠ 40 then v + 2
  else if shape ≠ (1, 32) ∧ shape ≠ (2, 64) then v + 3
  else if c ≠ 0 ∧ firstRead s ∧ popRanks s ≠ fld v 24 2 then v + 5
  else v

/-- The bring-up of channel `c` stops with step `k` failed (R437). -/
def trainFail (c k : Nat) (s : State) : State :=
  let s := (s.setH (.trainStep c) 8).setReg (Reg.DSC.TRAIN_STS c) (2 ^ 30 + k * 2 ^ 24)
  raise (dscPage c) 1 (popFail c (if s.h .popRun = 1 then s.setH .popRun 0 else s))

/-- DSC[0]'s module has been read: the channels whose module, read before it, differs in rank count fail step 1 (R427). -/
def rankCheck (s : State) : State :=
  forEach ((popChannels s).filter fun c =>
    c != 0 && decide (2 ≤ s.h (.trainStep c)) && s.h (.trainStep c) != 8 && s.rfld (Reg.DSC.DIMM_INFO c) 24 2 != popRanks s) s
    fun c s => trainFail c 1 (s.setRfld (Reg.DSC.DIMM_INFO c) 0 4 5)

/-- The contents of channel `c` are zero data with valid ECC (R437). -/
def chanClear (c : Nat) (s : State) : State :=
  let s := s.eraseMem .deep (c * 2 ^ 37) (2 ^ 37)
  { s with
    tabs := s.tabs.filter fun e => e.1 / 2 ^ 32 != dscPage c * 256 + 2 && e.1 / 2 ^ 32 != dscPage c * 256 + 3 }

/-- A bring-up step of channel `c` ends (R437). Step 1 reports the module in `DIMM_INFO` and reads the devices' threshold `rfm`;
step 6 leaves zero data. -/
def trainDone (c : Nat) (fail : Bool) (spd rfm : Nat) (s : State) : State :=
  let k := s.hn (.trainStep c)
  if k = 0 ∨ 6 < k then s else
  let s := if k = 1 then (s.setReg (Reg.DSC.DIMM_INFO c) (spdCheck s c spd)).setH (.rfmThr c) (rfm : Nat) else s
  let bad := fail || (k == 1 && s.rfld (Reg.DSC.DIMM_INFO c) 0 4 != 0)
  let ms := (s.root - s.hn (.trainAt c)) / 7200000
  if k < 6 then
    let s := if bad then trainFail c k s else trainStep c (k + 1) s
    if c = 0 ∧ k = 1 ∧ firstRead s then rankCheck s else s
  else if bad then trainFail c k s
  else
    let s := chanClear c s
    let s := s.setReg (Reg.DSC.TRAIN_STS c) (2 ^ 31 + 6 * 2 ^ 24 + ms % 2 ^ 16)
    raise (dscPage c) 0 (s.setH (.trainStep c) 7)

/-- TRAIN_STEP_DONE (R437): the step in progress ends, failed or not; `spd` is what step 1 reads of the module, in the form
of DIMM_INFO, and `rfm` the refresh-management threshold of its devices. -/
def execTrainStepDone (c : Fin 16) (fail : Bool) (spd : W32) (rfm : BitVec 16) (s : State) : Host.Outcome State Fault Refusal :=
  done (s.ifLive (dscPage c) (trainDone c fail spd.toNat rfm.toNat))

/-- Whether a table entry stands in the deep store: the marks of blocks, and the flow statistics (R572). -/
def popTab (k : Nat) : Bool :=
  (0xF0 ≤ k / 2 ^ 40 && k / 2 ^ 40 < 0x100 && (k / 2 ^ 32 % 256 == 2 || k / 2 ^ 32 % 256 == 3)) || k / 2 ^ 32 == snapPage * 256 + 1 ||
    k / 2 ^ 32 == snapPage * 256 + 2

/-- The deep pages of an earlier population hold nothing of this one. -/
def popForget (s : State) : State := { s with tabs := s.tabs.filter fun e => !popTab e.1 }

/-- Every channel of the population has trained: pool D is filled and the deep store is ready (R428, R438). -/
def dsReady (s : State) : State :=
  let cs := popChannels s
  if cs.isEmpty || s.h .popRun != 1 || !(cs.all fun c => s.h (.trainStep c) == 7) then s else
  let n := popPages s - statPages
  let s := { s with bufs := s.bufs.filter fun e => e.1 / 2 ^ 32 != 1, hid := s.hid.filter fun e => e.1 / 2 ^ 96 != (Hid.pgInt 0).code / 2 ^ 96 }
  let s := (setFreeCnt 1 n (s.setReg Reg.BPM.D_LIMIT n)).setH .cursorD 0
  let s := popForget s
  raise (dscPage 0) 2 ((s.setReg (Reg.DSC.POP_STS 0) (2 ^ 31)).setH .popRun 2)

/-- DS_READY (R438). -/
def execDsReady (s : State) : Host.Outcome State Fault Refusal := done (s.when (s.pageOn bpmPage && s.pageOn (dscPage 0)) dsReady)

/-- `EN` := 0 on a DSC page takes a running population out of service (R438, R439, R443). -/
def dscDisable (c : Nat) (s : State) : State :=
  let s := if s.h (.trainStep c) = 7 ∧ 2 ≤ s.h .popRun then chanLost c s else s
  let s := if s.h .popRun = 1 ∧ (popChannels s).contains c then s.setH .popRun 0 else s
  let s := { s with rhRows := s.rhRows.filter fun x => x.chan != c, rhCands := s.rhCands.filter fun x => x.chan != c }
  let s := opsLost c ((s.setH (.trainStep c) 0).setH (.retrain c) 0)
  if allDscOff s then (s.setReg (Reg.DSC.POP_STS 0) 0).setH .popRun 0 else s

/-! ### Maintenance (R440 to R443) -/

/-- Refreshes that may stand postponed (R440). -/
def refLimit (s : State) (c : Nat) : Nat := if s.rfld (Reg.DSC.REF_CFG c) 0 2 = 0 then 4 else 8

/-- The refresh interval of a rank in root-PLL cycles: 3.9 µs, or 1.95 µs in the fine-granularity mode, halved where the rank's
register demands it; 0 in FGR_SB, for which the spec gives none (log entry 91; R440). -/
def refInterval (s : State) (c k : Nat) : Nat :=
  let base := match s.rfld (Reg.DSC.REF_CFG c) 0 2 with
    | 0 => 28080
    | 1 => 14040
    | _ => 0
  if s.hb (.refHalf c k) then base / 2 else base

/-- A refresh due for rank `k` is issued, or postponed while the debt allows it; one in debt is made good (R440). -/
def dramRefresh (c k what : Nat) (s : State) : State :=
  let d := s.hn (.refDebt c k)
  if what = 1 then (if d < refLimit s c then s.setH (.refDebt c k) (d + 1 : Nat) else s)
  else if what = 2 then s.setH (.refDebt c k) (d - 1 : Nat)
  else s

/-- DRAM_REFRESH (R440): `what` 0 issues the refresh due at the end of the interval, 1 postpones it, 2 makes a postponed one
good. -/
def execDramRefresh (c : Fin 16) (k : Fin 2) (what : Fin 3) (s : State) : Host.Outcome State Fault Refusal :=
  done (s.ifLive (dscPage c) fun s =>
    dramRefresh c k what (if what.val = 2 then s else nextInterval (dscPage c) (.refAt c k) (refInterval s c k) s))

/-- REFRESH_RATE_POLL (R440): every 4 ms the rank's mode register demands half the interval, or not. -/
def execRefreshRatePoll (c : Fin 16) (k : Fin 2) (half : Bool) (s : State) : Host.Outcome State Fault Refusal :=
  done (s.ifLive (dscPage c) fun s => (nextInterval (dscPage c) (.refPoll c k) (cycUs 4000) s).setHb (.refHalf c k) half)

/-- Whether the module of channel `c` has the rank of rank and subchannel `sr` = 2 × rank + subchannel. -/
def hasRank (s : State) (sr : Nat) : Bool := sr < 2 || popRanks s == 2

/-- ZQ_CALIBRATION (R441): every 128 ms a maintenance step of rank and subchannel `sr`, counted. -/
def execZqCalibration (c : Fin 16) (sr : Fin 4) (s : State) : Host.Outcome State Fault Refusal :=
  done (s.when (s.live (dscPage c) && chanServes s c && hasRank s sr)
    fun s => bump (Reg.DSC.RETRAIN_CNT c) (nextInterval (dscPage c) (.zqAt c sr) (cycUs 128000) s))

/-- A full retrain stops the channel, and begins when no operation is in flight there (R442). -/
def retrainStart (c : Nat) (s : State) : State :=
  if s.h (.trainStep c) ≠ 7 ∨ s.hn (.retrain c) % 2 = 1 then s else retrainBegin c (s.setH (.retrain c) 3)

/-- The DQS oscillator of a rank is measured (R441, R442): `far` says that the drift is beyond the adjustment. -/
def dqsMeasure (c : Nat) (far : Bool) (s : State) : State :=
  let s := bump (Reg.DSC.RETRAIN_CNT c) s
  if !far then s
  else if s.rbit (Reg.DSC.RETRAIN_CFG c) 31 then retrainStart c s
  else raise (dscPage c) 7 (s.setH (.retrain c) 2)

/-- DQS_OSC_MEASURE (R441): every `RETRAIN_IVL` ms the oscillator of rank and subchannel `sr` is measured. -/
def execDqsOscMeasure (c : Fin 16) (sr : Fin 4) (far : Bool) (s : State) : Host.Outcome State Fault Refusal :=
  done (s.when (s.live (dscPage c) && chanServes s c && hasRank s sr) fun s =>
    dqsMeasure c far (nextInterval (dscPage c) (.dqsAt c sr) (cycUs (1000 * s.rfld (Reg.DSC.RETRAIN_CFG c) 0 16)) s))

/-- RETRAIN_NOW (R442). -/
def execRetrainNow (r : Req) (c : Fin 16) (v : W32) (s : State) : Host.Outcome State Fault Refusal :=
  done (gateWrite r (Reg.DSC.RETRAIN_NOW c) (fun s => if bit v.toNat 0 then retrainStart c s else s) s)

/-- A full retrain ends: the channel serves again, or is lost (R442, R443). -/
def retrainDone (c : Nat) (ok : Bool) (s : State) : State :=
  if s.h (.retrain c) ≠ 1 then s else if ok then s.setH (.retrain c) 0 else chanLost c s

/-- FULL_RETRAIN_DONE (R442). -/
def execFullRetrainDone (c : Fin 16) (ok : Bool) (s : State) : Host.Outcome State Fault Refusal :=
  done (s.ifLive (dscPage c) (retrainDone c ok))

/-- The activate-count tables, the candidates and the throttles of a channel are cleared (R445, R446). -/
def rhClear (c : Nat) (s : State) : State :=
  let s := { s with rhRows := s.rhRows.filter fun x => x.chan != c, rhCands := s.rhCands.filter fun x => x.chan != c }
  forEach (List.range 64) s fun b s => forEach (List.range 5) s fun k s => s.setHb (.thr (64 * c + b) k) false

/-- RH_WINDOW_CLEAR (R445, R446): every 32 ms. -/
def execRhWindowClear (c : Fin 16) (s : State) : Host.Outcome State Fault Refusal :=
  done (s.ifLive (dscPage c) fun s => rhClear c (nextInterval (dscPage c) (.rhAt c) (cycUs 32000) s))

/-! ### Patrol scrub (R450, R451) -/

/-- Root-PLL cycles between two patrol reads: a pass of 16 operations a page, spread evenly over `HOURS` hours (R450). -/
def patrolGap (s : State) (c : Nat) : Nat := s.rfld (Reg.DSC.PATROL_CFG c) 0 4 * 3600 * 7200000000 / (16 * chanPages s)

/-- The patrol scrubber asks for its next location of channel `c`, the last one having come (R450). -/
def patrolRead (c : Nat) (s : State) : State :=
  let s := nextInterval (dscPage c) (.patAt c) (patrolGap s c) s
  opAsk { chan := c, cls := 3, write := false, page := s.reg (Reg.DSC.PATROL_POS c), blk := s.hn (.patBlk c) } s

/-- PATROL_READ (R450). -/
def execPatrolRead (c : Fin 16) (s : State) : Host.Outcome State Fault Refusal :=
  done (s.when (s.live (dscPage c) && chanServes s c && s.rbit (Reg.DSC.PATROL_CFG c) 31 &&
    !(s.dramWait ++ s.dramOps).any fun o => o.chan == c && o.cls == 3 && !o.write) (patrolRead c))

/-- DIMM_TEMP_READ (R443): every 100 ms; a reading at or above TEMP_THR raises TEMP_HIGH; both are signed °C. -/
def execDimmTempRead (c : Fin 16) (t : BitVec 8) (s : State) : Host.Outcome State Fault Refusal :=
  done (s.ifLive (dscPage c) fun s =>
    let s := (nextInterval (dscPage c) (.tempAt c) (cycUs 100000) s).setReg (Reg.DSC.DIMM_TEMP c) t.toNat
    if sgn (s.reg (Reg.DSC.TEMP_THR c)) 8 ≤ t.toInt then raise (dscPage c) 8 s else s)

/-! ### Registers (R454, R455) -/

/-- Writes of the DSC registers that are checked (R426, R431, R435, R436, R442, R454, R455). -/
def dscReg (r : Req) (a v : Nat) (s : State) : Option State :=
  let p := a / 0x10000
  if p < 0xF0 ∨ 0x100 ≤ p then none else
  let c := p - 0xF0
  let bad := fun k => errReq p k r a v s
  let busy := s.rbit (Reg.BLK_CTL p) 0
  let put := fun (ok idle : Bool) => some (if idle && busy then bad 0x11 else if !ok then bad 0x10 else coverUpdate (storeReg a v s))
  if a = Reg.DSC.POP_CFG 0 then some (popCfg r v s)
  else if Reg.DSC.BMAP c 0 ≤ a ∧ a ≤ Reg.DSC.BMAP c 4 then some (bmapWrite r c ((a - Reg.DSC.BMAP c 0) / 4) v s)
  else if a = Reg.DSC.REF_CFG c then put (fld v 0 2 != 3) true
  else if a = Reg.DSC.ECC_CFG c then put (fld v 24 8 != 0) true
  else if a = Reg.DSC.ARB_W c then put ((List.range 5).all fun k => fld v (4 * k) 4 != 0) true
  else if a = Reg.DSC.PG_HINT c then put ((List.range 5).all fun k => fld v (2 * k) 2 != 3) false
  else if a = Reg.DSC.PG_IDLE c then put (fld v 0 10 != 0) false
  else if a = Reg.DSC.RH_CFG c then put (64 ≤ fld v 16 16 && 512 ≤ fld v 0 16) false
  else if a = Reg.DSC.THR_GAP c then put (100 ≤ fld v 0 16) false
  else if a = Reg.DSC.PATROL_CFG c then put (1 ≤ fld v 0 4 && fld v 0 4 ≤ 12) false
  else if a = Reg.DSC.RETRAIN_CFG c then put (10 ≤ fld v 0 16 && fld v 0 16 ≤ 1000) false
  else if a = Reg.DSC.RETRAIN_NOW c then some (if bit v 0 then retrainStart c s else s)
  else none

end Sys2Proof.Machine
end

