-- ==== Sys2Proof/Machine/Reset.lean ====
section
/-!
DEFINITION. The device reset (R616, R620, spec/17_power_clocks_reset.md).
-/
namespace Sys2Proof.Machine

def glbPage : Nat := 0

/-- Registers that a device reset leaves: the lock of the root PLL, and the revocation bits (R616, R621). -/
def keptReg (a : Nat) : Bool :=
  [Reg.GLB.PLL_STS, Reg.SEC.KEY_STS].contains a

/-- Hidden numbers that a device reset leaves: the pins and what the monitors observe, and, with the FAULT page, the LOG
entries that are unread. -/
def keptHid (log : Bool) (k : Nat) : Bool :=
  let c := k / 2 ^ 96
  let is := fun (h : Hid) => c == h.code / 2 ^ 96
  is .perst || is .rstHold || is .tjBad || is .tjNow || is .vinBad || is .vauxBad || (log && is (.logUnread 0))

/-- A device reset with its cause (R616, R620): the FAULT page is kept or reset, the flash, the Pegbox and the revocation
bits stay, and everything else returns to its reset state. -/
def deviceReset (cause : Nat) (log : Bool) (s : State) : State :=
  let t : State :=
    { State.reset with
      pending := s.pending
      regs := s.regs.filter fun e => keptReg e.1 || (log && e.1 / 0x10000 == faultPage)
      tabs := s.tabs.filter fun e => log && e.1 / 2 ^ 40 == faultPage
      mem := s.mem.filter fun e => e.1 / 2 ^ 48 ≤ 1
      hid := s.hid.filter fun e => keptHid log e.1
      root := s.root
      freeCtr := s.freeCtr
      out := s.out }
  let t := forEach [0, 2, 3, 4, 7] t fun p t => t.setH (.cycBase p) (s.root : Nat)
  coverUpdate ((t.setReg Reg.GLB.RST_CAUSE cause).setH .resetAt (s.root : Nat))

/-- Bit `b` of what holds the device in reset. -/
def holdReset (b : Nat) (on : Bool) (s : State) : State := s.setH .rstHold (setBit (s.hn .rstHold) b on : Nat)

end Sys2Proof.Machine
end

