-- ==== Sys2Proof/Machine/Spdm.lean ====
section
/-!
DEFINITION. The SPDM responder of the boot core (R552, R553, spec/14_firmware_trust.md). The formats and codes are those of DMTF
SPDM 1.2, which the rule names; they are PRESUMED (notes/assumptions/98.md).
-/
namespace Sys2Proof.Machine

/-- The requests that the responder supports (R552): GET_DIGESTS, GET_CERTIFICATE, CHALLENGE, GET_VERSION, GET_MEASUREMENTS,
GET_CAPABILITIES and NEGOTIATE_ALGORITHMS. -/
def spdmCodes : List Nat := [0x81, 0x82, 0x83, 0x84, 0xE0, 0xE1, 0xE3]

/-- Whether NEGOTIATE_ALGORITHMS offers ECDSA P-384 and SHA-384 (R552). -/
def spdmOffers (msg : List Byte) : Bool := bit (leNat ((msg.drop 8).take 4)) 7 && bit (leNat ((msg.drop 12).take 4)) 1

/-- What a transport has negotiated after a request: 0 nothing, 1 the version, 2 the capabilities, 3 the algorithms. -/
def spdmStep (phase : Nat) (msg : List Byte) : Nat :=
  let code := byteAt msg 1
  if msg.length < 4 then phase
  else if code = 0x84 ∧ byteAt msg 0 = 0x10 then 1
  else if byteAt msg 0 ≠ 0x12 then phase
  else if phase = 1 ∧ code = 0xE1 ∧ 20 ≤ msg.length then 2
  else if phase = 2 ∧ code = 0xE3 ∧ 32 ≤ msg.length ∧ spdmOffers msg then 3
  else phase

/-- What a transport has negotiated after the requests `served`, newest first. -/
def spdmPhase (served : List (List Byte)) : Nat := served.reverse.foldl spdmStep 0

/-- The four bytes that begin a message. -/
def spdmHead (ver code p1 p2 : Nat) : List Byte := beBytes 1 ver ++ beBytes 1 code ++ beBytes 1 p1 ++ beBytes 1 p2

/-- ERROR: 0x01 InvalidRequest, 0x04 UnexpectedRequest, 0x07 UnsupportedRequest with the request's code, 0x41 VersionMismatch. -/
def spdmError (phase code data : Nat) : List Byte := spdmHead (if phase = 0 then 0x10 else 0x12) 0x7F code data

/-- The digest of the certificate chain of slot 0 (R552). -/
def chainDigest : List Byte := sha384 Config.spdmChain

/-- The DMTF value type of measurement index `i` (R551). -/
def mrType (i : Nat) : Nat := if i = 1 then 0 else if i = 2 ∨ i = 6 then 3 else if i = 7 then 2 else 1

/-- The measurement block of index `i`: a digest of 48 bytes. -/
def mrBlock (s : State) (i : Nat) : List Byte :=
  beBytes 1 i ++ [1] ++ leBytes 2 51 ++ beBytes 1 (mrType i) ++ leBytes 2 48 ++ mrBytes s i

/-- The measurement indices (R551). -/
def mrIndices : List Nat := (List.range 8).map (· + 1)

/-- A response with its signature: it signs what the transport has served, and the response up to there. -/
def spdmSigned (served : List (List Byte)) (ans : List Byte) : List Byte :=
  ans ++ beBytes 96 (Config.spdmSign (ans :: served)).toNat

/-- CHALLENGE_AUTH with a nonce (R552). -/
def spdmChallenge (s : State) (served : List (List Byte)) (msg nonce : List Byte) : List Byte :=
  let kind := byteAt msg 3
  if byteAt msg 2 ≠ 0 ∨ msg.length < 36 ∨ (kind ≠ 0 ∧ kind ≠ 1 ∧ kind ≠ 0xFF) then spdmError 3 1 0
  else
    let summed := mrIndices.filter fun i => kind == 0xFF || Config.spdmTcb i
    let summary := if kind = 0 then [] else sha384 (summed.flatMap (mrBlock s))
    spdmSigned (msg :: served) (spdmHead 0x12 0x03 0 1 ++ chainDigest ++ nonce ++ summary ++ [0, 0])

/-- MEASUREMENTS with a nonce: the number of indices, one of them, or all (R552), signed where the request asks for it. -/
def spdmMeasurements (s : State) (served : List (List Byte)) (msg nonce : List Byte) : List Byte :=
  let sign := bit (byteAt msg 2) 0
  let i := byteAt msg 3
  if (8 < i ∧ i ≠ 0xFF) ∨ (sign ∧ (msg.length < 37 ∨ byteAt msg 36 % 16 ≠ 0)) then spdmError 3 1 0
  else
    let blocks := if i = 0 then [] else if i = 0xFF then mrIndices else [i]
    let body := blocks.flatMap (mrBlock s)
    let ans := spdmHead 0x12 0x60 (if i = 0 then 8 else 0) 0 ++ beBytes 1 blocks.length ++ leBytes 3 body.length ++ body ++ nonce ++
      [0, 0]
    if sign then spdmSigned (msg :: served) ans else ans

/-- The answer to a request on a transport that has served `served`, with the nonce it may carry (R552). -/
def spdmAnswer (s : State) (served : List (List Byte)) (msg nonce : List Byte) : List Byte :=
  let phase := spdmPhase served
  let code := byteAt msg 1
  if msg.length < 4 then spdmError phase 1 0
  else if !spdmCodes.contains code then spdmError phase 7 code
  else if byteAt msg 0 ≠ (if code = 0x84 then 0x10 else 0x12) then spdmError phase 0x41 0
  else if code = 0x84 then spdmHead 0x10 0x04 0 0 ++ [0, 1] ++ leBytes 2 0x1200
  else if code = 0xE1 then
    if phase ≠ 1 then spdmError phase 4 0
    else if msg.length < 20 then spdmError phase 1 0
    else spdmHead 0x12 0x61 0 0 ++ [0] ++ beBytes 1 Config.spdmTime.toNat ++ [0, 0] ++ leBytes 4 0x16 ++
      leBytes 4 Config.spdmSize.toNat ++ leBytes 4 Config.spdmSize.toNat
  else if code = 0xE3 then
    if phase ≠ 2 then spdmError phase 4 0
    else if msg.length < 32 ∨ !spdmOffers msg then spdmError phase 1 0
    else spdmHead 0x12 0x63 0 0 ++ leBytes 2 36 ++ [1, 0] ++ leBytes 4 4 ++ leBytes 4 0x80 ++ leBytes 4 2 ++ List.replicate 16 0
  else if phase ≠ 3 then spdmError phase 4 0
  else if code = 0x81 then spdmHead 0x12 0x01 0 1 ++ chainDigest
  else if code = 0x82 then
    let off := leNat ((msg.drop 4).take 2)
    let part := (Config.spdmChain.drop off).take (leNat ((msg.drop 6).take 2))
    if byteAt msg 2 % 16 ≠ 0 ∨ msg.length < 8 ∨ Config.spdmChain.length ≤ off then spdmError phase 1 0
    else spdmHead 0x12 0x02 0 0 ++ leBytes 2 part.length ++ leBytes 2 (Config.spdmChain.length - off - part.length) ++ part
  else if code = 0x83 then spdmChallenge s served msg nonce
  else spdmMeasurements s served msg nonce

/-- A nonce of 32 bytes: free. -/
def freeNonce (s : State) : List Byte × State :=
  let (a, s) := s.free
  let (b, s) := s.free
  let (c, s) := s.free
  let (d, s) := s.free
  (beBytes 8 a ++ beBytes 8 b ++ beBytes 8 c ++ beBytes 8 d, s)

/-- The SPDM responder serves a request of a transport, 0 DOE and 1 Eloatal (R552, R553). -/
def spdmServe (t : Nat) (msg : List Byte) (s : State) : List Byte × State :=
  let served := (s.spdm.filter fun x => x.1 == t).map (·.2)
  let (nonce, s) := freeNonce s
  (spdmAnswer s served msg nonce, { bump Reg.SEC.SPDM_REQ s with spdm := (t, msg) :: s.spdm })

/-! ### The transports (R492, R553) -/

/-- A DOE data object of the PCI-SIG vendor and a type, 0 DOE Discovery and 1 SPDM: its header and its contents. -/
def doeObject (typ : Nat) (pay : List Byte) : List Byte :=
  let pad := pay ++ List.replicate ((4 - pay.length % 4) % 4) 0
  [1, 0] ++ beBytes 1 typ ++ [0] ++ leBytes 4 (2 + pad.length / 4) ++ pad

/-- A request is served on a transport for a free time of up to 5 ms (R553). -/
def spdmRun (t : Nat) (msg : List Byte) (s : State) : List Byte × State :=
  let (v, s) := s.free
  spdmServe t msg ((s.setH .spdmUntil (s.root + v % (cycUs 5000 + 1) : Nat)).setH .spdmBy (t + 1 : Nat))

/-- Whether the responder serves a request of the other transport `t` (R553). -/
def spdmBusy (s : State) (t : Nat) : Bool := s.h .spdmBy == (t + 1 : Nat) && decide ((s.root : Int) < s.h .spdmUntil)

/-- A DOE request that waits is served once the request of the other transport has been (R553). -/
def doeGo (s : State) : State :=
  match s.doeQ with
  | [] => s
  | m :: ms =>
    if spdmBusy s 1 then s else
    let (ans, s) := spdmRun 0 m { s with doeQ := ms }
    s.emit (.doe (doeObject 1 ans))

/-- A DOE request arrives: it waits while a request of Eloatal is served (R553). -/
def doeRequest (msg : List Byte) (s : State) : State := doeGo { s with doeQ := s.doeQ ++ [msg] }

/-- An Eloatal request is served in its turn: after a DOE request that waits or is being served (R553). -/
def eloSpdm (msg : List Byte) (s : State) : List Byte × State :=
  let s := if s.doeQ.isEmpty then s else doeGo (waitRoot (s.hn .spdmUntil) s)
  spdmRun 1 msg (if spdmBusy s 0 then waitRoot (s.hn .spdmUntil) s else s)

end Sys2Proof.Machine
end

