-- ==== Sys2Proof/Machine/HostIf.lean ====
section
/-!
DEFINITION. The host interface (spec/13_host_interface.md): the punt rings (R507 to R511), the inject rings (R512 to R516),
stopping, resetting and containing the function (R517 to R524), the MSI-X table (R504), the inbound windows' registers (R526)
and the register writes of the HOST page (R528).
-/
namespace Sys2Proof.Machine

/-! ### The function -/

/-- Whether the function may issue requests: it is enabled, its link is up, Bus Master Enable is 1, and it is neither frozen
nor in a reset (R517, R519, R521), nor in D3hot (R492; that the function then issues nothing is the PCI Express specification's,
notes/assumptions/92.md). -/
def dmaOk (s : State) : Bool := s.live hostPage && hostReach s && s.hb .bme && !s.rbit Reg.HOST.CONTAIN 31 && !s.hb .pmD3

/-- An uncorrectable error is logged under AER: bit `b` of its status register (R496, R521; the bit's place is that of the PCI
Express specification, notes/assumptions/92.md). The first one that is not masked takes the header log: the header of its TLP,
which is free. -/
def aerLog (b : Nat) (s : State) : State :=
  let s := s.setH .aerSts (setBit (s.hn .aerSts) b true : Nat)
  if bit (s.hn .aerMask) b ∨ s.h .aerFirst ≠ 0 then s else
  let (x, s) := s.free
  let (y, s) := s.free
  let s := (s.setH (.aerHdr 0) (x % 2 ^ 32 : Nat)).setH (.aerHdr 1) (x / 2 ^ 32 : Nat)
  ((s.setH (.aerHdr 2) (y % 2 ^ 32 : Nat)).setH (.aerHdr 3) (y / 2 ^ 32 : Nat)).setH .aerFirst (b + 1 : Nat)

/-- A completion with Unsupported Request. -/
def cplUr (s : State) : State := (aerLog 20 s).emit (.cpl true false [])

/-- Reads that may be outstanding (R494). -/
def readLimit (s : State) : Nat := if s.h .tags = 2 then 512 else if s.h .tags = 1 then 256 else 32

/-- Whether a read has been issued. -/
def issued (x : Nat × Option Nat) : Bool := x.2.isSome

/-- Reads outstanding (R528). -/
def readsOut (s : State) : Nat := (s.injects.map fun j => (j.reads.filter issued).length).sum

/-- The first `n` reads of a list that are not issued yet are issued at cycle `t`. -/
def issueList (t : Nat) : Nat → List (Nat × Option Nat) → List (Nat × Option Nat)
  | _, [] => []
  | n, x :: xs =>
    if issued x then x :: issueList t n xs
    else match n with
      | 0 => x :: xs
      | n + 1 => (x.1, some t) :: issueList t n xs

/-- The first `n` reads that wait for a tag are issued, the oldest frame's first. -/
def issueAll (t : Nat) : Nat → List Inj → List Inj
  | _, [] => []
  | n, j :: js => { j with reads := issueList t n j.reads } :: issueAll t (n - (j.reads.filter fun x => !issued x).length) js

/-- Reads are issued while tags are free (R494). -/
def issueReads (s : State) : State :=
  s.when (dmaOk s) fun s => { s with injects := issueAll s.root (readLimit s - readsOut s) s.injects }

/-- `HOST_STS` (R528). -/
def hostSts (s : State) : Nat :=
  let up := s.hb .pciUp
  ofB up * 2 ^ 31 + ofB (s.hb .bme) * 2 ^ 30 + ofB (s.hb .iso) * 2 ^ 28 +
    (if up then s.hn .linkWS / 16 * 2 ^ 24 + s.hn .linkWS % 16 * 2 ^ 20 else 0) + readsOut s % 1024

/-! ### Rings -/

/-- Whether punt ring `r` works: enabled and not ABORTED. -/
def puntOn (s : State) (r : Nat) : Bool := s.rbit (Reg.HOST.P_CFG r) 31 && !s.rbit (Reg.HOST.P_STS r) 31

/-- Whether inject ring `i` works: enabled, not ABORTED, nor about to be. -/
def injOn (s : State) (i : Nat) : Bool :=
  s.rbit (Reg.HOST.I_CFG i) 31 && !s.rbit (Reg.HOST.I_STS i) 31 && !s.hb (.injAbort i)

/-- Descriptors of a ring whose `CFG` register is at `a` (R528). -/
def ringSize (s : State) (a : Nat) : Nat := 2 ^ s.rfld a 16 5

/-- The base of a ring. -/
def ringBase (s : State) (lo hi : Nat) : Nat := s.reg hi * 2 ^ 32 + s.reg lo

/-- Descriptors from `head` up to `tail` − 1, modulo the ring size (R509, R516). -/
def posted (s : State) (cfg head tail : Nat) : Nat :=
  (s.reg tail + ringSize s cfg - s.reg head % ringSize s cfg) % ringSize s cfg

/-- Every frame waiting for punt ring `r` is dropped (R511). -/
def puntFlush (r : Nat) (s : State) : State :=
  forEach (s.allAt (.host r)) (s.setH (.puntPart r) 0) fun f s => puntDrop (Reg.HOST.P_DROP_OFF r) f s

/-- Punt ring `r` is ABORTED (R517, R518). -/
def puntAbort (r : Nat) (s : State) : State :=
  raise hostPage 1 (puntFlush r (s.setRbit (Reg.HOST.P_STS r) 31 true))

/-- The queue number of an inject descriptor (R512). -/
def dscQueue (d : Nat) : Nat := fld d 96 19

/-- The inject frames of ring `i` are forgotten: those not yet offered give up their cells and count in `I_ERR`, those
already in a queue go on without a write-back (R515, R517, R518). -/
def injFlush (i : Nat) (s : State) : State :=
  let mine := s.injects.filter fun j => j.ring == i && !j.offered
  let s : State := { s with
    injects := s.injects.filter fun j => j.ring != i
    frames := s.frames.map fun f => if f.ring = i + 1 then { f with ring := 0 } else f }
  forEach mine (s.setH (.injAbort i) 0) fun j s => bump (Reg.HOST.I_ERR i) (forEach j.cells s fun c s => agentFree 0 c (ownerOf (dscQueue j.sop)) s)

/-- Inject ring `i` is ABORTED (R517, R518). -/
def injStop (i : Nat) (s : State) : State :=
  raise hostPage 1 (injFlush i (s.setRbit (Reg.HOST.I_STS i) 31 true))

/-- Whether a frame of inject ring `i` is partly transferred: a read outstanding, or partly received (R517). -/
def injBusy (s : State) (i : Nat) : Bool :=
  s.injects.any fun j => j.ring == i && !j.offered && !j.reads.isEmpty && (j.reads.any issued || !j.bytes.isEmpty)

/-- Whether ring `i` has a read outstanding. -/
def readPending (s : State) (i : Nat) : Bool := s.injects.any fun j => j.ring == i && j.reads.any issued

/-- The reads of the rings `is` that have not been issued are dropped. -/
def cutReads (is : List Nat) (js : List Inj) : List Inj :=
  js.map fun j => if is.contains j.ring then { j with reads := j.reads.filter issued } else j

/-- A ring without an outstanding read is ABORTED if R517 asks for it. -/
def injSettle (i : Nat) (s : State) : State := if s.hb (.injAbort i) && !readPending s i then injStop i s else s

/-- The function stops issuing requests (R517): a punt ring with a frame partly written is ABORTED at once, an inject ring with
a frame partly transferred once its outstanding reads have completed or are abandoned. -/
def stopRequests (s : State) : State :=
  let busy := (List.range 16).filter (injBusy s)
  let s := { s with injects := cutReads busy s.injects }
  let s := forEach busy s fun i s => injSettle i (s.setHb (.injAbort i) true)
  forEach ((List.range 64).filter fun r => s.h (.puntPart r) != 0) s puntAbort

/-- Every read outstanding is abandoned at once (R519, R521). -/
def abandonReads (s : State) : State :=
  let n := readsOut s
  let s := { s with injects := s.injects.map fun j => { j with reads := j.reads.filter fun x => !issued x } }
  bumpBy Reg.HOST.ABANDONED n (forEach (List.range 16) s injSettle)

/-- The function freezes (R521): cause 1 an uncorrectable error, 2 a loss of the link. -/
def freeze (cause : Nat) (s : State) : State :=
  if s.rbit Reg.HOST.CONTAIN 31 then s
  else abandonReads (stopRequests (raise hostPage 0 (s.setReg Reg.HOST.CONTAIN (2 ^ 31 + cause))))

/-! ### Punt rings (R507 to R511) -/

/-- The punt metadata (R510), or what a window has made of it. -/
def puntMeta (f : Frame) : List Byte :=
  if !f.hmeta.isEmpty then f.hmeta else
  leBytes 6 (f.birth / 16 / 10 ^ 9) ++ leBytes 2 (f.birth % 16 * 4096) ++ leBytes 4 (f.birth / 16 % 10 ^ 9) ++
    leBytes 1 (f.reason.getD 0) ++ leBytes 1 (f.cls * 32 + f.qoff % 8 * 4 + f.parity.getD 0 * 2 + ofB f.bad) ++
    leBytes 1 (f.colour * 64 + f.passes % 4 * 16 + f.fail % 8) ++ leBytes 1 f.port ++ leBytes 2 f.srcSys ++
    leBytes 2 f.bytes.length ++ leBytes 2 f.l3if ++ leBytes 2 f.vrf ++ leBytes 4 (f.adj % 2 ^ 20) ++ leBytes 2 f.dstSys ++
    leBytes 1 (f.multi % 4) ++ [0]

/-- What a frame's buffers hold in order, for buffers of `n` bytes (R509). -/
def puntChunks (n : Nat) (f : Frame) : List (List Byte) :=
  let all := puntMeta f ++ f.bytes
  (List.range (cdiv all.length (max 1 n))).map fun k => (all.drop (n * k)).take n

/-- One descriptor of punt ring `r`, at index `d`, is filled with a chunk at host address `addr` and written back (R508,
R509). -/
def puntFill (r d addr : Nat) (chunk : List Byte) (sop eop : Bool) (s : State) : State :=
  let base := ringBase s (Reg.HOST.P_BASE_LO r) (Reg.HOST.P_BASE_HI r)
  let s := s.emit (.hostWrite (!s.hb .roOff) addr chunk)
  let sts := 2 ^ 31 + ofB sop * 2 ^ 30 + ofB eop * 2 ^ 29
  s.emit (.hostWrite false (base + 16 * d + 8) (leBytes 2 chunk.length ++ [0, 0] ++ leBytes 4 sts))

/-- The punt engine writes the frame at the head of ring `r`, or the next part of it, into the posted buffers, whose
descriptors hold the addresses `addrs` in ring order (R509, R511). -/
def puntWrite (r : Nat) (addrs : List Nat) (s : State) : State :=
  match s.firstAt (.host r) with
  | none => s
  | some f =>
    let chunks := puntChunks (256 * s.rfld (Reg.HOST.P_CFG r) 0 7) f
    let from_ := s.hn (.puntPart r)
    let n := min (min (chunks.length - from_) addrs.length) (posted s (Reg.HOST.P_CFG r) (Reg.HOST.P_HEAD r) (Reg.HOST.P_TAIL r))
    let size := ringSize s (Reg.HOST.P_CFG r)
    let head := s.reg (Reg.HOST.P_HEAD r)
    let s := forEach (List.range n) s fun k s =>
      puntFill r ((head + k) % size) (addrs.getD k 0) (chunks.getD (from_ + k) []) (from_ + k == 0) (from_ + k + 1 == chunks.length) s
    let s := s.setReg (Reg.HOST.P_HEAD r) ((head + n) % size)
    if from_ + n < chunks.length then s.setH (.puntPart r) (from_ + n : Nat)
    else
      let s := (s.setH (.puntPart r) 0).drop f
      ring (0xE00 + r) (bumpBy (Reg.HOST.P_BYTES r) f.bytes.length (bump (Reg.HOST.P_FRAMES r) s))

/-- The frame at the head of ring `r` is read with an uncorrectable error: it is discarded whole, or, once its start has been
written, ended where it is and not completed (R312). -/
def puntUe (r : Nat) (s : State) : State :=
  match s.firstAt (.host r) with
  | some f =>
    let t := (s.setH (.puntPart r) 0).drop f
    errInt hostPage 0x07 0 (if s.hb (.puntPart r) then t else bump Reg.CELL.UE_DROP t)
  | none => s

/-- PUNT_WRITE (R509): ring `r`; `addrs` are the ADDR fields of the descriptors from `P_HEAD` on, as they stand in host
memory; `ue`: a buffer cell is read with an uncorrectable error (R312). -/
def execPuntWrite (r : Fin 64) (addrs : List W64) (ue : Bool) (s : State) : Host.Outcome State Fault Refusal :=
  done (s.when (dmaOk s && puntOn s r) (if ue then puntUe r else puntWrite r (addrs.map BitVec.toNat)))

/-- The frame that has waited longest for punt ring `r` is dropped once it has waited longer than the global age limit
(R345, R511). -/
def puntAge (r : Nat) (s : State) : State :=
  match s.firstAt (.host r) with
  | none => s
  | some f =>
    let s := advanceFolTo ((f.since + f.limit * 1000 + 1) * unitsNs) s
    if s.folNs ≤ f.since + f.limit * 1000 then s
    else puntDrop (Reg.HOST.P_DROP_AGED r) f (s.setH (.puntPart r) 0)

/-- PUNT_AGE_DROP (R511). -/
def execPuntAgeDrop (r : Fin 64) (s : State) : Host.Outcome State Fault Refusal := done (s.ifLive hostPage (puntAge r))

/-! ### Inject rings (R512 to R516) -/

/-- Fields of an inject descriptor (R512). -/
def dscAddr (d : Nat) : Nat := fld d 0 64
def dscLen (d : Nat) : Nat := fld d 64 16
def dscSop (d : Nat) : Bool := bit d 87
def dscEop (d : Nat) : Bool := bit d 86
def dscLtEn (d : Nat) : Bool := bit d 85
def dscTsReq (d : Nat) : Bool := bit d 84
def dscOnestep (d : Nat) : Nat := fld d 82 2
def dscTsrc (d : Nat) : Nat := fld d 80 2
def dscColour (d : Nat) : Nat := fld d 88 2
def dscLaunch (d : Nat) : Nat := fld d 128 64

/-- Descriptors of ring `i` that the frames being read or waiting for their write-back take, with those before their SOP. -/
def claimed (s : State) (i : Nat) : Nat := ((s.injects.filter fun j => j.ring == i).map fun j => j.skip + j.descs).sum

/-- Posted descriptors of ring `i` from which no frame has been taken yet. -/
def injPosted (s : State) (i : Nat) : Nat :=
  posted s (Reg.HOST.I_CFG i) (Reg.HOST.I_HEAD i) (Reg.HOST.I_TAIL i) - claimed s i

/-- The reads of a buffer: at most `m` bytes each, none across a 4 KiB boundary (R494). -/
def splitReads (m : Nat) : Nat → Nat → Nat → List Nat
  | 0, _, _ => []
  | fuel + 1, a, n =>
    if n = 0 then []
    else
      let k := min (min m (4096 - a % 4096)) n
      k :: splitReads m fuel (a + k) (n - k)

/-- Max Read Request Size in bytes (R494). -/
def maxRead (s : State) : Nat := 128 * 2 ^ (s.h .mrrs + 2).toNat

/-- A frame's descriptors: from the first one to the next EOP. -/
def uptoEop : List Nat → Option (List Nat)
  | [] => none
  | d :: ds => if dscEop d then some [d] else (uptoEop ds).map (d :: ·)

/-- The frame of ring `i` in the descriptors `ds`, which follow `skip` descriptors without SOP, is taken up (R512, R514, R516): a
frame whose length is in range takes its buffer cells, or stays in its ring with its turn; its reads are issued. -/
def injTake (i skip : Nat) (ds : List Nat) (s : State) : State :=
  let len := (ds.map dscLen).sum
  let at_ := (s.reg (Reg.HOST.I_HEAD i) + claimed s i + skip) % ringSize s (Reg.HOST.I_CFG i)
  let sop := ds.headD 0
  let j : Inj := { ring := i, skip := skip, desc := at_, descs := ds.length, sop := sop, reads := [], bytes := [], err := false, offered := false, cells := [], status := none, ts := 0 }
  let turn := fun (s : State) => s.setH .injTurn ((i + 1) % 16 : Nat)
  if len < 60 ∨ 12288 < len then
    { turn s with injects := s.injects ++ [{ j with offered := true, status := some 4 }] }
  else
    match grantTurns injectReqr (ownerOf (dscQueue sop)) (max 1 (cdiv (len + 4) 256)) s with
    | (none, s) => s.setH .injTurn (i : Nat)
    | (some cs, s) =>
      let reads := (ds.flatMap fun d => splitReads (maxRead s) 128 (dscAddr d) (dscLen d)).map fun n => (n, none)
      { turn s with injects := s.injects ++ [{ j with cells := cs, reads := reads }] }

/-- INJECT_READ (R516): the next ring in round robin that has a whole frame posted; `whole` tells which rings do, and `descs`
are that ring's descriptors not yet taken, as they stand in host memory. A frame begins at an SOP descriptor (R512); one before
it belongs to no frame and is passed over without a write-back (notes/assumptions/60.md). -/
def execInjectRead (whole : BitVec 16) (descs : List (BitVec 256)) (s : State) : Host.Outcome State Fault Refusal :=
  let rings := (List.range 16).filter fun i => injOn s i && bit whole.toNat i && injPosted s i != 0
  done (match firstFrom (s.hn .injTurn) rings with
    | none => s
    | some i =>
      let ds := (descs.take (injPosted s i)).map BitVec.toNat
      let skip := (ds.takeWhile fun d => !dscSop d).length
      match uptoEop (ds.drop skip) with
      | none => s
      | some fr => s.when (dmaOk s) fun s => issueReads (injTake i skip fr s))

/-- The oldest outstanding read of ring `i` ends with `data`; `bad` tells that it ended with an error. -/
def readEnd (i : Nat) (data : List Byte) (bad : Bool) (s : State) : State :=
  let rec go : List Inj → List Inj
    | [] => []
    | j :: js =>
      match decide (j.ring = i), j.reads with
      | true, x :: xs => { j with reads := xs, bytes := j.bytes ++ data, err := j.err || bad || data.length != x.1 } :: js
      | _, _ => j :: go js
  issueReads (injSettle i { s with injects := go s.injects })

/-- The frame of ring `i` with the oldest outstanding read ends with READ_ERR (R522): its other reads are not made, and those
outstanding are abandoned. -/
def readFail (i : Nat) (s : State) : State :=
  match s.injects.findIdx? fun j => j.ring == i && !j.reads.isEmpty with
  | none => s
  | some k =>
    let n := (((s.injects[k]?).map fun j => (j.reads.filter issued).length).getD 0) - 1
    bumpBy Reg.HOST.ABANDONED n { s with injects := s.injects.modify k fun j => { j with reads := [], err := true } }

/-- Bits of the AER uncorrectable registers for which a received TLP is in error (R521); 16 is an unexpected completion, 20 an
unsupported request. -/
def aerBits : List Nat := [4, 5, 12, 13, 14, 15, 16, 17, 18, 19, 20]

/-- An uncorrectable error of AER is logged; unless it is masked, an unexpected completion or an unsupported request, the
function freezes (R521). -/
def aerError (b : Nat) (s : State) : State :=
  let s := aerLog b s
  if bit (s.hn .aerMask) b ∨ b = 16 ∨ b = 20 then s else freeze 1 s

/-- An unexpected completion (R518, R530). -/
def unexpected (s : State) : State := raiseFirst hostPage 3 (bump Reg.HOST.UNEXP_CPL (aerLog 16 s))

/-- READ_COMPLETION (R517, R518, R521, R522): of the oldest outstanding read of ring `i`, with `sts` 0 its data, 1 an error, 2
poisoned data; `none`, a completion that matches no outstanding read; `aer`, a TLP that is discarded for the uncorrectable error
of this bit of AER. -/
def execReadCompletion (i : Option (Fin 16)) (data : List Byte) (sts : Fin 3) (aer : Option (Fin 32)) (s : State) :
    Host.Outcome State Fault Refusal :=
  done (s.when (s.clocked hostPage && s.hb .pciUp) fun s =>
    match aer, i with
    | some b, _ => if aerBits.contains b.val then aerError b s else s
    | none, none => unexpected s
    | none, some i =>
      if !readPending s i then unexpected s
      else if sts.val = 2 then aerError 12 (if bit (s.hn .aerMask) 12 then readEnd i data true s else readFail i s)
      else readEnd i data (sts.val != 0) s)

/-- Whether queue `q` is an egress queue of a local line port (R513). -/
def lineQueue (s : State) (q : Nat) : Bool := !isVoq q && q < 393216 && decide (portOf s (q - egqBase) < 128)

/-- The status with which a fully read frame is refused before its queue sees it, 0 if it is offered (R513). -/
def injRefused (s : State) (j : Inj) : Nat :=
  let q := dscQueue j.sop
  if j.err then 7
  else if 393215 < q ∨ (isVoq q ∧ bit (s.tab qmgrPage 2 (q / 8)) 31 = false) then 3
  else if (dscTsReq j.sop ∨ dscOnestep j.sop ≠ 0) ∧ lineQueue s q = false then 6
  else 0

/-- A fully read frame is offered to its queue (R283, R342, R514). -/
def injOffer (carry : Bool) (j : Inj) (s : State) : State :=
  let mark := fun (st : Option Nat) => s.injects.map fun k =>
    if k.ring = j.ring ∧ k.desc = j.desc then { k with offered := true, status := st, cells := [] } else k
  let q := dscQueue j.sop
  match injRefused s j with
  | 0 =>
    let f : Frame := { id := s.hn .nextId, loc := .offer j.ring, bytes := j.bytes, cls := queueClass s q, colour := dscColour j.sop, noRw := true,
                       osOvr := true, onestep := dscOnestep j.sop, tsrc := dscTsrc j.sop,
                       launch := if dscLtEn j.sop then some (dscLaunch j.sop) else none, lsrc := 1, ring := j.ring + 1,
                       desc := j.desc, descs := j.descs, txTs := dscTsReq j.sop, pre := j.cells, q := q }
    let s := ({ s with injects := mark none }).newFrame f
    offerTo carry q f s
  | st => forEach j.cells { s with injects := mark (some st) } fun c s => agentFree 0 c (ownerOf q) s

/-- INJECT_OFFER (R514): the oldest frame of ring `i` that has been read and not yet offered; `carry` as for ADMISSION. -/
def execInjectOffer (i : Fin 16) (carry : Bool) (s : State) : Host.Outcome State Fault Refusal :=
  done (match s.injects.find? fun j => j.ring == i.val && !j.offered with
    | some j => s.when (dmaOk s && injOn s i && j.reads.isEmpty) (injOffer carry j)
    | none => s)

/-- The write-back of one inject descriptor (R513). -/
def injBack (j : Inj) (st : Nat) (eop : Bool) : List Byte :=
  let ts := if eop ∧ dscTsReq j.sop ∧ st = 0 then j.ts else 0
  leBytes 4 (ts / 16 / 10 ^ 9 % 2 ^ 32) ++ leBytes 4 (ts / 16 % 10 ^ 9) ++ leBytes 2 (ts % 16 * 4096) ++ leBytes 1 st ++
    [0x80, 0, 0, 0, 0]

/-- The descriptors of a frame are written back (R503, R515). -/
def injWriteback (j : Inj) (st : Nat) (s : State) : State :=
  let i := j.ring
  let size := ringSize s (Reg.HOST.I_CFG i)
  let base := ringBase s (Reg.HOST.I_BASE_LO i) (Reg.HOST.I_BASE_HI i)
  let s := forEach (List.range j.descs) s fun k s =>
    s.emit (.hostWrite false (base + 32 * ((j.desc + k) % size) + 16) (injBack j st (k + 1 == j.descs)))
  let s := { s with injects := s.injects.filter fun k => !(k.ring == i && k.desc == j.desc) }
  let s := s.setReg (Reg.HOST.I_HEAD i) ((j.desc + j.descs) % size)
  let s := if st = 0 then bumpBy (Reg.HOST.I_BYTES i) j.bytes.length (bump (Reg.HOST.I_FRAMES i) s) else bump (Reg.HOST.I_ERR i) s
  ring (0xE40 + i) s

/-- INJECT_WRITEBACK (R515): of the oldest frame of ring `i`, once its status is known. -/
def execInjectWriteback (i : Fin 16) (s : State) : Host.Outcome State Fault Refusal :=
  done (match s.injects.find? fun j => j.ring == i.val with
    | some j =>
      match j.status with
      | some st => s.when (dmaOk s && injOn s i) (injWriteback j st)
      | none => s
    | none => s)

/-! ### Stopping, resetting and containing (R517 to R524) -/

/-- The completion timeout in µs of a range setting (R494). -/
def ctoUs : Nat → Nat
  | 1 => 80
  | 2 => 8000
  | 6 => 160000
  | 9 => 700000
  | 10 => 2500000
  | _ => 40000

/-- The cycle at which the oldest outstanding read of ring `i` was issued. -/
def readSince (s : State) (i : Nat) : Nat :=
  match s.injects.find? fun j => j.ring == i && j.reads.any issued with
  | some j => ((j.reads.filterMap (·.2)).head?).getD 0
  | none => 0

/-- The oldest outstanding read of ring `i` reaches its completion timeout, unless the timeout is disabled (R494, R517, R521,
R528); the time until then passes first. -/
def cplTimeout (i : Nat) (s : State) : State :=
  if !readPending s i || bit (s.hn .cto) 4 then s else
  let s := waitRoot (readSince s i + cycUs (ctoUs (s.hn .cto % 16))) s
  if s.hb .bme then
    let s := raise hostPage 4 (bump Reg.HOST.CPL_TIMEOUT (aerLog 14 s))
    if bit (s.hn .aerMask) 14 then readEnd i [] true s else freeze 1 s
  else bump Reg.HOST.ABANDONED (readEnd i [] true s)

/-- COMPLETION_TIMEOUT (R517). -/
def execCompletionTimeout (i : Fin 16) (s : State) : Host.Outcome State Fault Refusal :=
  done (s.when (s.clocked hostPage) (cplTimeout i))

/-- Whether the host can reach configuration space. -/
def cfgOk (s : State) : Bool := s.clocked hostPage && hostReach s

/-- A configuration request that does `f` (R501, R519): until the boot core has built the directory, and while a Function Level
Reset runs, it is answered with Request Retry Status. -/
def configReq (f : State → State) (s : State) : State :=
  if !s.clocked hostPage || !s.hb .pciUp || s.hb .perst then s
  else if s.h .booted = 0 ∨ s.hb .flr then s.emit .cplRetry
  else f s

/-- BME_CLEAR (R517). -/
def execBmeClear (s : State) : Host.Outcome State Fault Refusal :=
  done (configReq (fun s => s.when (s.hb .bme) fun s => stopRequests (s.setHb .bme false)) s)

/-- BME_SET (R517). -/
def execBmeSet (s : State) : Host.Outcome State Fault Refusal := done (configReq (fun s => issueReads (s.setHb .bme true)) s)

/-- Registers of the HOST page that a reset of the function returns to their reset values: all but the counters (R519), with
their shadows, and `BLK_CTL`, which a reset of a block leaves too (R43; notes/assumptions/92.md). -/
def fnReg (a : Nat) : Bool :=
  let b := a / 2 ^ 32
  let x := a % 2 ^ 32
  x / 0x10000 == hostPage && b != 32 && b != 33 && x % 0x10000 < 0x8000 && x != Reg.BLK_CTL hostPage && x != Reg.ERR_CNT hostPage &&
    (List.range 8).all fun i => x != Reg.PERF_CNT hostPage i

/-- The host function is reset (R519): requests stop, reads are abandoned, frames waiting for a punt ring are dropped, rings
and windows are disabled, configuration space, the MSI-X table and the stack of HOST are reset. -/
def fnReset (s : State) : State :=
  let s := abandonReads (stopRequests (s.setHb .bme false))
  let s := forEach (List.range 64) s puntFlush
  let s := forEach (List.range 16) s injFlush
  let s : State := { s with
    regs := s.regs.filter fun e => !(fnReg e.1 || e.1 / 2 ^ 32 == 60)
    hid := s.hid.filter fun e => e.1 / 2 ^ 96 != (Hid.msiSent 0).code / 2 ^ 96 && e.1 != (Hid.evtUnread hostPage).code &&
      !((Hid.tblOp hostPage 0).code ≤ e.1 && e.1 < (Hid.tblOp (hostPage + 1) 0).code)
    intStacks := s.intStacks.filter fun e => e.1 != 3
    doeQ := []
    spdm := s.spdm.filter fun e => e.1 != 0 }
  forEach [.msixEn, .msixMask, .intDis, .mrrs, .tags, .intaOn, .cto, .roOff, .romEn, .pmD3] s fun h s => s.setH h 0

/-- FLR (R519). -/
def execFlr (s : State) : Host.Outcome State Fault Refusal :=
  done (configReq (fun s => intcUpdate ((fnReset s).setHb .flr true)) s)

/-- FLR_DONE (R519, R530). -/
def execFlrDone (s : State) : Host.Outcome State Fault Refusal :=
  done (s.when (s.hb .flr) fun s => intcUpdate (raise hostPage 2 (s.setHb .flr false)))

/-- The link goes down (R521, R523, R530): unannounced, the function freezes; after a hot reset or a link disable, it is
reset. -/
def linkDown (announced : Bool) (s : State) : State :=
  let s := raise hostPage 6 ((s.setHb .pciUp false).setHb .intaOn false)
  if announced then fnReset s else freeze 2 s

/-- PCIE_LINK_DOWN (R521, R523): `announced` tells that a hot reset or a link disable preceded. -/
def execPcieLinkDown (announced : Bool) (s : State) : Host.Outcome State Fault Refusal :=
  done (s.when (s.hb .pciUp) (linkDown announced))

/-- PCIE_LINK_UP (R490, R522, R528): 2^`width` lanes, x1 to x8, at speed 1 + `speed`, 2.5 to 32 GT/s. -/
def execPcieLinkUp (width : Fin 4) (speed : Fin 5) (s : State) : Host.Outcome State Fault Refusal :=
  done (s.when (s.pageOn hostPage && !s.hb .perst && s.h .rstHold == 0) fun s =>
    intcUpdate ((s.setHb .pciUp true).setH .linkWS (2 ^ width.val * 16 + (speed.val + 1) : Nat)))

/-- A write of `RELEASE` (R522). -/
def releaseWrite (r : Req) (v : Nat) (s : State) : State :=
  if !bit v 0 then s
  else if s.rbit Reg.HOST.CONTAIN 31 && s.hb .pciUp then issueReads (s.setReg Reg.HOST.CONTAIN 0)
  else errReq hostPage 0x13 r Reg.HOST.RELEASE v s

/-- RELEASE (R522). -/
def execRelease (r : Req) (v : W32) (s : State) : Host.Outcome State Fault Refusal :=
  done (gateWrite r Reg.HOST.RELEASE (releaseWrite r v.toNat) s)

/-- PERST_ASSERT (R523, R616): the host function alone is reset and held, or the device as SYS_RST_N does, the log kept under
R597. -/
def execPerstAssert (s : State) : Host.Outcome State Fault Refusal :=
  done (if s.hb .perst then s
    else if s.hb .iso then intcUpdate (fnReset (((s.setHb .perst true).setHb .pciUp false).setHb .flr false))
    else holdReset 1 true ((deviceReset 3 (s.rbit Reg.FAULT.FIRST 31) s).setHb .perst true))

/-- PERST_RELEASE (R523). -/
def execPerstRelease (s : State) : Host.Outcome State Fault Refusal :=
  done (holdReset 1 false (s.setHb .perst false))

/-! ### MSI-X (R504, R505) -/

/-- The hold-back of vector `v` ends (R504): the message is sent if a source of the vector is still presentable, and the PBA
bit is cleared. A source that is not presentable then sends its message when it is presentable again. -/
def holdEnd (v : Nat) (s : State) : State :=
  let pba := bank 60 (0x800 + 4 * (v / 32))
  if !s.rbit pba (v % 32) || msixHeld s v then s else
  let of := fun (src : Nat) => s.rfld (Reg.INTC.SRC_CFG src) 16 6 == v
  let mine := (presentable s 3).filter of
  let s := s.setRbit pba (v % 32) false
  let s := forEach ((srcsOf s 3).filter of) s fun src s => if s.h (.msiSent src) = 2 then s.setH (.msiSent src) 0 else s
  if mine.isEmpty || !s.hb .msixEn then s else (forEach mine s fun src s => s.setH (.msiSent src) 1).emit (.msix v)

/-- MSIX_HOLD_END (R504). -/
def execMsixHoldEnd (v : Fin 64) (s : State) : Host.Outcome State Fault Refusal := done (s.when (cfgOk s) (holdEnd v))

/-- The fields of configuration space that the host writes (R481, R494, R502, R504, R506, R521). -/
def pciWrite (c : PciCfg) (s : State) : State :=
  let s := ((s.setHb .msixEn c.msixEn).setHb .msixMask c.msixMask).setH .mrrs ((c.mrrs.val : Int) - 2)
  let s := (s.setH .tags (c.tags.val : Nat)).setH .aerMask (c.aerMask.toNat &&& 0x1FF030 : Nat)
  let s := s.setH .aerSts (s.hn .aerSts &&& (0xFFFFFFFF ^^^ c.aerClear.toNat) : Nat)
  let s := if s.h .aerFirst ≠ 0 ∧ ¬ bit (s.hn .aerSts) (s.hn .aerFirst - 1) then s.setH .aerFirst 0 else s
  let s := (s.setH .ecrc (ofB c.ecrcGen + 2 * ofB c.ecrcChk : Nat)).setHb .pmD3 c.d3
  ((s.setHb .roOff (!c.relaxed)).setH .cto (c.cto.val + 16 * ofB c.ctoOff : Nat)).setHb .romEn c.romEn

/-- INTERRUPT_DISABLE_WRITE (R505): Interrupt Disable, and the other fields of configuration space where the host writes them
too. -/
def execInterruptDisableWrite (dis : Bool) (cfg : Option PciCfg) (s : State) : Host.Outcome State Fault Refusal :=
  done (configReq (fun s => intcUpdate (match cfg with
      | none => s.setHb .intDis dis
      | some c => issueReads (pciWrite c (s.setHb .intDis dis)))) s)

/-- A read of `n` bytes of the expansion-ROM window at offset `o` (R502): refused unless the ROM's enable bit is set. -/
def romRead (o n : Nat) (s : State) : State :=
  if s.hb .romEn then s.emit (.cpl false false ((List.range n).map fun i => BitVec.ofNat 8 (byteAt romImage (o + i))))
  else cplUr s

/-! ### Configuration space (R491, R492, R494, R505) -/

/-- An entry of the legacy capability list: its ID, the next one's offset, and its upper half. -/
def capHead (id next up : Nat) : Nat := id + 256 * next + 65536 * up

/-- What the spec says of DWORD `k` of configuration space: the bits it gives, and their values. -/
def configWord (s : State) (k : Nat) : Nat × Nat :=
  let all := 0xFFFFFFFF
  let ext := fun (id next : Nat) => (0xFFF0FFFF, id + next * 2 ^ 20)
  match 4 * k with
  | 0x00 => (all, 0x9128 * 65536 + Config.vendorId.toNat)
  | 0x04 => (0x00180404, ofB (s.hb .bme) * 4 + ofB (s.hb .intDis) * 2 ^ 10 + ofB (!(presentable s 3).isEmpty) * 2 ^ 19 + 2 ^ 20)
  | 0x08 => (all, 0x028000 * 256 + Config.stepping.toNat)
  | 0x10 => (0x1FFFFFFF, 4)
  | 0x18 => (all, 0xC)
  | 0x20 => (0x3FFF, 4)
  | 0x2C => (all, s.hn .subsystem)
  | 0x30 => (0xFFFFF, ofB (s.hb .romEn))
  | 0x34 => (0xFF, 0x40)
  | 0x3C => (0xFF00, 0x100)
  | 0x40 => (0xFE00FFFF, capHead 0x01 0x50 0)
  | 0x44 => (0x10B, 8 + 3 * ofB (s.hb .pmD3))
  | 0x50 => (0xC7FFFFFF, capHead 0x11 0x70 (63 + ofB (s.hb .msixMask) * 2 ^ 14 + ofB (s.hb .msixEn) * 2 ^ 15))
  | 0x54 => (all, 4)
  | 0x58 => (all, 0x804)
  | 0x70 => (0x00F0FFFF, capHead 0x10 0 0)
  | 0x74 => (0x10000027, 2 + 2 ^ 5 + 2 ^ 28)
  | 0x78 => (0x7110, ofB (!s.hb .roOff) * 2 ^ 4 + ofB (s.h .tags != 0) * 2 ^ 8 + (s.h .mrrs + 2).toNat * 2 ^ 12)
  | 0x7C => (0xFFF, 5 + 8 * 2 ^ 4)
  | 0x80 => (0x3FF0000, (s.hn .linkWS % 16 + s.hn .linkWS / 16 * 2 ^ 4) * 2 ^ 16)
  | 0x94 => (0x33BDF, 7 + 2 ^ 4 + 2 ^ 16 + 2 ^ 17)
  | 0x98 => (0x101F, s.hn .cto + ofB (s.h .tags == 2) * 2 ^ 12)
  | 0x9C => (0xFE, 0x3E)
  | 0x100 => ext 0x0001 0x148
  | 0x104 => (all, s.hn .aerSts)
  | 0x108 => (0x1FF030, s.hn .aerMask)
  | 0x118 => (0x9FF, (s.hn .aerFirst - 1) + 2 ^ 5 + ofB (bit (s.hn .ecrc) 0) * 2 ^ 6 + 2 ^ 7 + ofB (bit (s.hn .ecrc) 1) * 2 ^ 8)
  | 0x11C => (all, s.hn (.aerHdr 0))
  | 0x120 => (all, s.hn (.aerHdr 1))
  | 0x124 => (all, s.hn (.aerHdr 2))
  | 0x128 => (all, s.hn (.aerHdr 3))
  | 0x148 => ext 0x0019 0x168
  | 0x168 => ext 0x0025 0x174
  | 0x16C => (1, 1)
  | 0x174 => ext 0x0026 0x1A0
  | 0x1A0 => ext 0x002A 0x1D0
  | 0x1D0 => ext 0x0027 0x200
  | 0x200 => ext 0x002E 0x300
  | 0x20C => (1, ofB (!s.doeQ.isEmpty))
  | 0x300 => ext 0x0003 0
  | 0x304 => (all, Config.dieId.toNat % 2 ^ 32)
  | 0x308 => (all, Config.dieId.toNat / 2 ^ 32 % 2 ^ 32)
  | _ => (0, 0)

/-- A read of DWORD `k` of configuration space; a bit whose value the spec does not give is free (notes/assumptions/92.md). -/
def configRead (k : Nat) (s : State) : State :=
  let (m, v) := configWord s k
  let (f, s) := s.free
  s.emit (.cpl false false (leBytes 4 (v ||| (f &&& (0xFFFFFFFF ^^^ m)))))

/-! ### BAR4 (R495, R504) -/

/-- Writable bits of DWORD `k` of BAR4 (R495): the MSI-X table; the PBA and every other offset discard writes. -/
def bar4Mask (k : Nat) : Nat :=
  if 256 ≤ k then 0 else if k % 4 = 0 then 0xFFFFFFFC else if k % 4 = 3 then 1 else 0xFFFFFFFF

/-- A write of `v` to DWORD `a` of BAR4 with its byte enables, or a read. -/
def bar4 (a : Nat) (be : Nat) (v : Option W32) (s : State) : State :=
  let key := bank 60 (4 * a)
  match v with
  | none => s.emit (.cpl false false (leBytes 4 (s.reg key)))
  | some v =>
    let m := (bitsOf be 4).foldl (fun m k => m + 255 * 2 ^ (8 * k)) 0 &&& bar4Mask a
    if m = 0 then s else s.setReg key (mergeMask (s.reg key) v.toNat m)

/-- A request to the function's memory that does `f`: in D3hot, a read receives Unsupported Request and a write is discarded
(PRESUMED, notes/assumptions/92.md). -/
def memReq (read : Bool) (f : State → State) (s : State) : State :=
  if !cfgOk s then s else if s.hb .pmD3 then (if read then cplUr s else s) else f s

/-- The DOE Discovery object of an index (R492): it lists DOE Discovery and SPDM; any other index has no object. -/
def doeDiscovery (index : Nat) : List Byte :=
  let entry := if index = 0 then [1, 0, 0, 1] else if index = 1 then [1, 0, 1, 0] else [0xFF, 0xFF, 0, 0]
  doeObject 0 entry

/-- BAR4_REQUEST (R492, R495, R502, R504): a request to BAR4, to the expansion-ROM window or to configuration space, or a
Discovery object in the DOE mailbox. -/
def execBar4Request (t : HostAccess) (s : State) : Host.Outcome State Fault Refusal :=
  done (match t with
    | .bar4 a be v => memReq v.isNone (bar4 a be.toNat v) s
    | .rom o n => memReq true (romRead o.toNat n.toNat) s
    | .romWrite _ => s
    | .config k => configReq (fun s => configRead k (doeGo s)) s
    | .discovery i => configReq (fun s => (doeGo s).emit (.doe (doeDiscovery i.toNat))) s)

/-! ### Register writes of the HOST page (R526, R528) -/

/-- A refused ring write (R528). -/
def ringBad (r : Req) (a v : Nat) (s : State) : State := errReq hostPage 0x11 r a v s

/-- A write of `P_CFG` or `I_CFG` at `a`, its writable bits `mask` (R518, R528): `ok` tells that BUF_SIZE is in range; `reset`
and `flush` act when `EN` rises and falls. -/
def ringCfg (r : Req) (a v mask : Nat) (ok : Bool) (rise fall : State → State) (s : State) : State :=
  let old := s.reg a
  let new := v &&& mask
  if !ok ∨ fld new 16 5 < 6 ∨ 16 < fld new 16 5 ∨ (bit old 31 ∧ fld new 0 31 ≠ fld old 0 31) then ringBad r a v s
  else
    let s := s.setReg a new
    if bit new 31 ∧ ¬ bit old 31 then rise s else if bit old 31 ∧ ¬ bit new 31 then fall s else s

/-- A write of `P_CFG[k]`. -/
def puntCfg (r : Req) (k v : Nat) (s : State) : State :=
  ringCfg r (Reg.HOST.P_CFG k) v 0x801F007F (1 ≤ fld v 0 7 && fld v 0 7 ≤ 64)
    (fun s => ((s.setReg (Reg.HOST.P_HEAD k) 0).setReg (Reg.HOST.P_TAIL k) 0).setReg (Reg.HOST.P_STS k) 0) (puntFlush k) s

/-- A write of `I_CFG[k]`. -/
def injCfg (r : Req) (k v : Nat) (s : State) : State :=
  ringCfg r (Reg.HOST.I_CFG k) v 0x801F0000 true
    (fun s => ((s.setReg (Reg.HOST.I_HEAD k) 0).setReg (Reg.HOST.I_TAIL k) 0).setReg (Reg.HOST.I_STS k) 0) (injFlush k) s

/-- RING_ENABLE (R518): a write of `P_CFG[k]`, or of `I_CFG[k − 64]`. -/
def execRingEnable (r : Req) (k : Fin 80) (v : W32) (s : State) : Host.Outcome State Fault Refusal :=
  done (if k.val < 64 then gateWrite r (Reg.HOST.P_CFG k) (puntCfg r k v.toNat) s
    else gateWrite r (Reg.HOST.I_CFG (k - 64)) (injCfg r (k - 64) v.toNat) s)

/-- A tail write at `a` of the ring whose `CFG` is at `cfg` (R528). -/
def tailWrite (r : Req) (cfg a v : Nat) (s : State) : State :=
  if ringSize s cfg ≤ v % 65536 then ringBad r a v s else s.setReg a (v % 65536)

/-- P_TAIL_WRITE (R509). -/
def execPTailWrite (r : Req) (k : Fin 64) (v : W32) (s : State) : Host.Outcome State Fault Refusal :=
  done (gateWrite r (Reg.HOST.P_TAIL k) (tailWrite r (Reg.HOST.P_CFG k) (Reg.HOST.P_TAIL k) v.toNat) s)

/-- I_TAIL_WRITE (R516). -/
def execITailWrite (r : Req) (k : Fin 16) (v : W32) (s : State) : Host.Outcome State Fault Refusal :=
  done (gateWrite r (Reg.HOST.I_TAIL k) (tailWrite r (Reg.HOST.I_CFG k) (Reg.HOST.I_TAIL k) v.toNat) s)

/-- A window of the shadow set (`act` false) or the active set: base, configuration, target base. -/
def hostWin (s : State) (act : Bool) (w : Nat) : Nat × Nat × Nat :=
  if act then (s.reg (Reg.HOST.ACT_WIN_BASE w), s.reg (Reg.HOST.ACT_WIN_CFG w),
      s.reg (Reg.HOST.ACT_TGT_BASE_HI w) * 2 ^ 32 + s.reg (Reg.HOST.ACT_TGT_BASE_LO w))
  else (s.reg (Reg.HOST.WIN_BASE w), s.reg (Reg.HOST.WIN_CFG w),
      s.reg (Reg.HOST.TGT_BASE_HI w) * 2 ^ 32 + s.reg (Reg.HOST.TGT_BASE_LO w))

/-- Bytes of a target space (R525); a value that names none has none. -/
def tgtExtent : Nat → Nat
  | 1 => 2 ^ 29 | 2 => 2 ^ 27 | 3 => 2 ^ 40 | _ => 0

/-- Whether a shadow window may be committed (R526). -/
def winOk (s : State) (w : Nat) : Bool :=
  let (base, cfg, tgt) := hostWin s false w
  let size := 2 ^ fld cfg 0 6
  let l := fld cfg 0 6
  fld cfg 8 3 == 0 ||
    (12 ≤ l && l ≤ 32 && base % size == 0 && tgt % size == 0 && base + size ≤ 2 ^ 32 && tgt + size ≤ tgtExtent (fld cfg 8 3))

/-- Whether two enabled shadow windows overlap. -/
def winOverlap (s : State) : Bool :=
  let ws := (List.range 8).filter fun w => fld (s.reg (Reg.HOST.WIN_CFG w)) 8 3 != 0
  ws.any fun w => ws.any fun x =>
    let (a, ca, _) := hostWin s false w
    let (b, cb, _) := hostWin s false x
    w < x && a < b + 2 ^ fld cb 0 6 && b < a + 2 ^ fld ca 0 6

/-- A write of `WIN_COMMIT` (R526). -/
def winCommitHost (r : Req) (v : Nat) (s : State) : State :=
  if !bit v 0 then s
  else if !(List.range 8).all (winOk s) || winOverlap s then errReq hostPage 0x12 r Reg.HOST.WIN_COMMIT v s
  else
    forEach (List.range 8) s fun w s =>
      let s := s.setReg (Reg.HOST.ACT_WIN_BASE w) (s.reg (Reg.HOST.WIN_BASE w))
      let s := s.setReg (Reg.HOST.ACT_WIN_CFG w) (s.reg (Reg.HOST.WIN_CFG w))
      let s := s.setReg (Reg.HOST.ACT_TGT_BASE_LO w) (s.reg (Reg.HOST.TGT_BASE_LO w))
      s.setReg (Reg.HOST.ACT_TGT_BASE_HI w) (s.reg (Reg.HOST.TGT_BASE_HI w))

/-- WIN_COMMIT (R526). -/
def execWinCommit (r : Req) (v : W32) (s : State) : Host.Outcome State Fault Refusal :=
  done (gateWrite r Reg.HOST.WIN_COMMIT (winCommitHost r v.toNat) s)

/-- Register writes of the HOST page that are not plain stores (R528); none for a plain register. -/
def hostReg (r : Req) (a v : Nat) (s : State) : Option State :=
  let o := a % 0x10000
  let k := o % 0x1000 / 0x20
  let f := o % 0x20
  if a / 0x10000 ≠ hostPage then none
  else if a = Reg.HOST.RELEASE then some (releaseWrite r v s)
  else if a = Reg.HOST.WIN_COMMIT then some (winCommitHost r v s)
  else if 0x4000 ≤ o ∧ o < 0x4800 then
    if f = 0 ∨ f = 4 then some (if s.rbit (Reg.HOST.P_CFG k) 31 then ringBad r a v s else storeReg a v s)
    else if f = 8 then some (puntCfg r k v s)
    else if f = 0xC then some (tailWrite r (Reg.HOST.P_CFG k) a v s)
    else if f = 0x18 then some (if v % 65536 = 0 then ringBad r a v s else s.setReg a (v % 65536))
    else none
  else if 0x4C00 ≤ o ∧ o < 0x4E00 then
    let k := (o - 0x4C00) / 0x20
    if f = 0 ∨ f = 4 then some (if s.rbit (Reg.HOST.I_CFG k) 31 then ringBad r a v s else storeReg a v s)
    else if f = 8 then some (injCfg r k v s)
    else if f = 0xC then some (tailWrite r (Reg.HOST.I_CFG k) a v s)
    else none
  else none

/-- The table commands of the HOST page: PUNT_MAP (R507, R529). -/
def hostTable (op : Nat) (w : Win) (s : State) : TblRes :=
  if w.sel ≠ 1 ∨ (op ≠ 1 ∧ op ≠ 2) then w.fail 0x03 s
  else if 256 ≤ w.idx then w.fail 0x04 s
  else if op = 1 then w.read 256 1 s
  else if 63 < fld w.data 16 8 then (errBy hostPage 0x11 (reqNo w.r) w.sel (w.data % 2 ^ 32) s, 0x11, none)
  else Win.ok none (s.setTab hostPage 1 w.idx (w.data &&& 0x803F0100))

end Sys2Proof.Machine
end

