-- ==== Sys2Proof/Machine/Observe.lean ====
section
/-!
DEFINITION. Observability (spec/15_observability.md): cycle counters and counter wraps (R560 to R563), the Drone table (R565),
bandwidth windows (R567, R568), flow statistics (R569 to R573) and snapshots (R574 to R579).
-/
namespace Sys2Proof.Machine

/-! ### Cycles of a block's clock (R560, R562) -/

/-- Root-PLL cycles of one cycle of the block clock of page `p` (R12, R612). DEDUCED from the clocks' uses
(notes/assumptions/15.md). -/
def clockDiv (p : Nat) : Nat :=
  match pageOf p with
  | some (.TIME, _) | some (.PFE, _) | some (.DSC, _) => 8
  | some (.BRIDGE, _) => 3
  | some (.GLB, _) | some (.INTC, _) | some (.PEG, _) | some (.SEC, _) | some (.HOST, _) | some (.SNAP, _) | some (.FAULT, _)
  | some (.PAIR, _) => 9
  | some (.BPM, _) | some (.QMGR, _) | some (.SCHED, _) | some (.SHAPE, _) | some (.CELL, _) | some (.SPILL, _)
  | some (.FG, _) | some (.FAB, _) => 6
  | _ => 5

/-- `PERF_CYC` of page `p` (R560): 0 while the domain is off. -/
def perfCyc (s : State) (p : Nat) : Nat :=
  if s.pageOn p then (s.root - s.hn (.cycBase p)) / clockDiv p % 2 ^ 64 else 0

/-- The counters of event 0 of page `p` take the cycles since they were last brought up to date; those of a disabled page
hold (R45, R562). -/
def perfSync (p : Nat) (s : State) : State :=
  let now := perfCyc s p
  let old := s.hn (.perfBase p)
  if !perfUsed s p then s.setH (.perfBase p) (now : Nat)
  else
    let s := s.setH (.perfBase p) (now : Nat)
    if s.live p && old < now then perfCount p 0 (now - old) s else s

/-- Cycles until counter `i` of page `p` next wraps, for a counter of event 0 or one chained above it. -/
def wrapIn (s : State) (p : Nat) : Nat → Option Nat
  | 0 =>
    let ctl := s.reg (Reg.PERF_CTL p 0)
    if bit ctl 31 && fld ctl 0 12 == 0 then some (2 ^ 32 - s.reg (Reg.PERF_CNT p 0)) else none
  | i + 1 =>
    let ctl := s.reg (Reg.PERF_CTL p (i + 1))
    if bit (s.reg (Reg.PERF_CTL p i)) 30 then
      (wrapIn s p i).map (· + (2 ^ 32 - 1 - s.reg (Reg.PERF_CNT p (i + 1))) * 2 ^ 32)
    else if bit ctl 31 && fld ctl 0 12 == 0 then some (2 ^ 32 - s.reg (Reg.PERF_CNT p (i + 1)))
    else none

/-- The next wrap of a sampling counter of cycles of page `p`. -/
def nextWrap (s : State) (p : Nat) : Option Nat :=
  let ws := (List.range 8).filterMap fun i =>
    let ctl := s.reg (Reg.PERF_CTL p i)
    if bit ctl 29 && !bit ctl 30 then wrapIn s p i else none
  match ws with
  | [] => none
  | w :: rest => some (rest.foldl min w)

/-- The next sampling counter of cycles of page `p` wraps (R563). -/
def perfWrap (p : Nat) (s : State) : State :=
  let s := perfSync p s
  match nextWrap s p with
  | none => s
  | some n => perfSync p (waitRoot (s.hn (.cycBase p) + (perfCyc s p + n) * clockDiv p) s)

/-- PERF_WRAP (R563): of a counter that counts cycles of page `p`; the wraps of other counters come with their events. -/
def execPerfWrap (p : Fin 8192) (s : State) : Host.Outcome State Fault Refusal :=
  done (s.when ((pageOf p).isSome && s.live p) (perfWrap p))

/-- The Drone table of a page (R565). -/
def droneTable (op : Nat) (w : Win) (s : State) : TblRes :=
  if op ≠ 1 then w.fail 0x03 s else w.read 32 2 s

/-! ### Bandwidth windows (R567, R568) -/

/-- The registers of R567 with their lengths in words. -/
def bwRegs (n : Nat) : List Nat :=
  [Reg.LPORT.BW_SEQ n, Reg.LPORT.BW_RX n, Reg.LPORT.BW_TX n, Reg.LPORT.BW_RX_MAX n, Reg.LPORT.BW_TX_MAX n]

/-- The copy of a bandwidth register that requester `r` has latched (R568). -/
def bwLatch (r : Req) (a : Nat) : Nat := bank (48 + reqNo r) a

/-- A write of `BW_CFG` (R567, R568, R582). -/
def bwCfg (r : Req) (n v : Nat) (s : State) : State :=
  let win := v % 2 ^ 20
  if win = 0 ∨ 1000000 < win ∨ 1000000 % win ≠ 0 then errReq (0x10 + n) 0x10 r (Reg.LPORT.BW_CFG n) v s
  else
    let s := forEach (bwRegs n) s fun a s =>
      forEach [Req.BOOT, .CC_A, .CC_B, .HOST, .JTAG] (s.setReg a 0) fun q s => s.setReg (bwLatch q a) 0
    let s := ((s.setReg (Reg.LPORT.BW_CFG n) (v &&& 0x800FFFFF)).setH (.bwRx n) 0).setH (.bwTx n) 0
    s.setH (.bwStart n) (if bit v 31 then bwFloor win s.nowNs + win * 1000 + 1 else 0 : Nat)

/-- BW_CFG_WRITE (R568). -/
def execBwCfgWrite (r : Req) (n : Fin 128) (v : W32) (s : State) : Host.Outcome State Fault Refusal :=
  done (gateWrite r (Reg.LPORT.BW_CFG n) (bwCfg r n v.toNat) s)

/-- The next window boundary of port `n` (R568): a running window is complete, a new one starts. -/
def bwEnd (n : Nat) (s : State) : State :=
  let s := advanceTo ((s.hn (.bwStart n) - 1 + s.rfld (Reg.LPORT.BW_CFG n) 0 20 * 1000) * unitsNs) s
  bwCatch n s.nowNs s

/-- BW_WINDOW_END (R568). -/
def execBwWindowEnd (n : Fin 128) (s : State) : Host.Outcome State Fault Refusal :=
  done (s.when (s.live (0x10 + n) && s.rbit (Reg.LPORT.BW_CFG n) 31 && s.h (.bwStart n) != 0) (bwEnd n))

/-- A read of `BW_SEQ` (R568): the registers are latched for the requester and the maxima restart. -/
def bwSeq (r : Req) (n : Nat) (s : State) : Nat × State :=
  let s := s.when (s.live (0x10 + n)) (bwCatch n s.nowNs)
  let s := forEach (bwRegs n) s fun a s => s.setReg (bwLatch r a) (s.reg a)
  (s.reg (Reg.LPORT.BW_SEQ n), (s.setReg (Reg.LPORT.BW_RX_MAX n) 0).setReg (Reg.LPORT.BW_TX_MAX n) 0)

/-- BW_SEQ_READ (R568). -/
def execBwSeqRead (r : Req) (n : Fin 128) (s : State) : Host.Outcome State Fault Refusal :=
  done (readFor r (Reg.LPORT.BW_SEQ n) (bwSeq r n) s)

/-! ### Flow statistics (R570 to R573) -/

/-- A write of `FS_CFG` (R570, R581): folding starts afresh with the deep store in service. -/
def fsCfg (r : Req) (v : Nat) (s : State) : State :=
  if fld v 16 8 = 0 then errReq snapPage 0x11 r Reg.SNAP.FS_CFG v s
  else if bit v 31 && !popReady s then errReq snapPage 0x12 r Reg.SNAP.FS_CFG v s
  else
    let s := s.setReg Reg.SNAP.FS_CFG (v &&& 0x80FF007F)
    if bit v 31 then s.setRbit Reg.SNAP.FS_STS 31 false else s

/-- FS_CFG_WRITE (R570). -/
def execFsCfgWrite (r : Req) (v : W32) (s : State) : Host.Outcome State Fault Refusal :=
  done (gateWrite r Reg.SNAP.FS_CFG (fsCfg r v.toNat) s)

/-- FOLD (R572): of a queued pair. -/
def execFold (i : Fin 4194304) (s : State) : Host.Outcome State Fault Refusal :=
  done (s.when (foldOn s && s.hb (.foldQueued i)) (foldAsk i))

/-- FS_VISIT (R572): the fold engine visits pair `i`, `FS_IVL` ms after its last visit. -/
def execFsVisit (i : Fin 4194304) (s : State) : Host.Outcome State Fault Refusal :=
  done (s.when (foldOn s && fsSet i != 7) fun s =>
    foldAsk i (nextInterval snapPage (.fsAt i) (cycUs (s.rfld Reg.SNAP.FS_CFG 16 8 * 1000)) s))

/-- The pair's values as a snapshot read shows them (R578). -/
def fsSnap (s : State) (i : Nat) : Nat :=
  if s.rbit Reg.SNAP.STS 30 && s.tab snapPage 4 i == 0 then fsSum s i else s.tab snapPage 2 i % 2 ^ 128

/-- The table commands of the SNAP page (R573): table FS and table FS_SNAP. -/
def snapTable (op : Nat) (w : Win) (s : State) : TblRes :=
  if (w.sel ≠ 1 ∨ (op ≠ 1 ∧ op ≠ 0x10)) ∧ (w.sel ≠ 2 ∨ op ≠ 1) then w.fail 0x03 s
  else if 3670016 ≤ w.idx then w.fail 0x04 s
  else if !foldOn s then w.fail 0x12 s
  else if w.sel = 2 then Win.ok (some (fsSnap s w.idx)) s
  else if op = 1 then
    Win.ok (some (fsSum s w.idx)) (foldAsk w.idx s)
  else
    let s := fsTouch w.idx s
    Win.ok none (unqueue w.idx ((s.setTab snapPage 1 w.idx 0).setTab snapPage 3 w.idx 0))

/-- FS_READ (R573): op 0x01 in the window of the SNAP page. -/
def execFsRead (r : Req) (s : State) : Host.Outcome State Fault Refusal := done (tblCmd r snapPage (snapTable 1) s)

/-- FS_CLEAR (R573): op 0x10. -/
def execFsClear (r : Req) (s : State) : Host.Outcome State Fault Refusal := done (tblCmd r snapPage (snapTable 0x10) s)

/-! ### Snapshots (R574 to R579) -/

/-- `SNAP.STS.STATE` (R575). -/
def snapState (s : State) : Nat := s.rfld Reg.SNAP.STS 28 2

def setSnapState (v : Nat) (s : State) : State := s.setRfld Reg.SNAP.STS 28 2 v

/-- SNAP_TIME in units of the time base. -/
def snapTime (s : State) : Nat :=
  (s.reg Reg.SNAP.SNAP_SEC_HI * 2 ^ 32 + s.reg Reg.SNAP.SNAP_SEC_LO) * unitsSec + s.reg Reg.SNAP.SNAP_NS * unitsNs

/-- A refused write of `CTL`, or of a SNAP_TIME register (R575). -/
def snapRefuse (r : Req) (a v : Nat) (s : State) : State := errReq snapPage 0x10 r a v s

/-- `ARM` (R575). -/
def snapArm (r : Req) (v : Nat) (s : State) : State :=
  if snapState s = 0 ∧ s.reg Reg.SNAP.SNAP_NS ≤ 999999999 ∧ s.tb + 1000 * unitsNs ≤ snapTime s then setSnapState 1 s
  else snapRefuse r Reg.SNAP.CTL v s

/-- `DISARM` (R575). -/
def snapDisarm (r : Req) (v : Nat) (s : State) : State :=
  if snapState s = 1 then setSnapState 0 s else snapRefuse r Reg.SNAP.CTL v s

/-- `NOW` (R575): the cut comes at the next tick. -/
def snapNow (r : Req) (v : Nat) (s : State) : State :=
  if snapState s = 0 then setSnapState 2 s else snapRefuse r Reg.SNAP.CTL v s

/-- A write of `CTL` (R575, R581); a disabled page takes no command (R45). -/
def snapCtl (r : Req) (v : Nat) (s : State) : State :=
  if v % 8 = 0 then s
  else if !s.live snapPage then errReq snapPage 0x08 r Reg.SNAP.CTL v s
  else
    let s := if bit v 0 then snapArm r v s else s
    let s := if bit v 1 then snapDisarm r v s else s
    if bit v 2 then snapNow r v s else s

/-- SNAP_ARM (R575): a write of 1 to `CTL`. -/
def execSnapArm (r : Req) (s : State) : Host.Outcome State Fault Refusal := done (gateWrite r Reg.SNAP.CTL (snapCtl r 1) s)

/-- SNAP_DISARM (R575): a write of 2 to `CTL`. -/
def execSnapDisarm (r : Req) (s : State) : Host.Outcome State Fault Refusal := done (gateWrite r Reg.SNAP.CTL (snapCtl r 2) s)

/-- SNAP_NOW (R575): a write of 4 to `CTL`. -/
def execSnapNow (r : Req) (s : State) : Host.Outcome State Fault Refusal := done (gateWrite r Reg.SNAP.CTL (snapCtl r 4) s)

/-- The marks of the counters and pairs that have passed into the new epoch are taken away. -/
def clearMarks (s : State) : State :=
  { s with
    regs := s.regs.filter fun e => e.1 / 2 ^ 32 != 33
    tabs := s.tabs.filter fun e => e.1 / 2 ^ 32 != snapPage * 256 + 4 }

/-- The shadow of `PERF_CYC` of page `p` is taken at the edge of the epoch, for the next cycle counts in the new one; a page
that is off reads 0 (R577, R579). -/
def cycShadow (p : Nat) (s : State) : State :=
  (s.setReg (bank 32 (Reg.PERF_CYC p)) (perfCyc s p)).setReg (bank 33 (Reg.PERF_CYC p)) 1

/-- The cut (R576): the time is latched, `EPOCH` counts, and SNAP_TAKEN is raised. -/
def snapLatch (s : State) : State :=
  let s := (s.setReg Reg.SNAP.CUT_NS (nsOf s.tb)).setReg Reg.SNAP.CUT_SEC (secOf s.tb % 2 ^ 32)
  let s := s.setReg Reg.SNAP.STS (2 ^ 30 + 2 * 2 ^ 28 + (s.rfld Reg.SNAP.STS 0 16 + 1) % 2 ^ 16)
  raise snapPage 0 (bump Reg.SNAP.SNAPS s)

/-- The epoch of every counter changes (R576): what each page counted until now stands in its old epoch, and the shadows of pages
that are off read 0 (R579). -/
def snapEpoch (s : State) : State :=
  let s := forEach allPages s perfSync
  let s := clearMarks s
  let s := { s with regs := s.regs.filter fun e => !(e.1 / 2 ^ 32 == 32 && !s.pageOn (e.1 % 2 ^ 32 / 0x10000)) }
  ((forEach allPages s cycShadow).setHb .snapOpen true).setH .snapAt (s.root : Nat)

/-- The cut, and 16 ns later the change of epoch (R576, R580). -/
def snapCut (s : State) : State :=
  let s := snapLatch s
  snapEpoch (advanceTo (s.tb + 16 * unitsNs) s)

/-- SNAP_CUT (R576): an armed cut at SNAP_TIME, or a cut ordered by `NOW` at the next tick. -/
def execSnapCut (s : State) : Host.Outcome State Fault Refusal :=
  done (s.when (s.live snapPage && s.timeRuns) fun s =>
    if snapState s = 1 then
      let t := snapTime s
      let s := advanceTo t s
      s.when (t ≤ s.tb) snapCut
    else if snapState s = 2 ∧ s.hb .snapOpen = false ∧ s.rbit Reg.SNAP.STS 30 = false then snapCut (advance 1 s)
    else s)

/-- Whether a captured counter lies at address `a` (R574). -/
def captured (a : Nat) : Bool :=
  isCounter a || ((pageOf (a / 0x10000)).isSome && decide (0x80 ≤ a % 0x10000 ∧ a % 0x10000 < 0xA0 ∧ a % 4 = 0))

/-- SNAP_MOVER_COPY (R577): the mover reaches the counter at address `a`. -/
def execSnapMoverCopy (a : BitVec 29) (s : State) : Host.Outcome State Fault Refusal :=
  done (s.when (s.live snapPage && engUp s 3 && captured a.toNat && s.pageOn (a.toNat / 0x10000)) (snapTouch a.toNat))

/-- The counters listed in the register file or among the shadows. -/
def listedCounters (s : State) : List Nat :=
  ((s.regs.filter fun e => (e.1 / 2 ^ 32 == 0 || e.1 / 2 ^ 32 == 32) && captured (e.1 % 2 ^ 32)).map fun e => e.1 % 2 ^ 32).eraseDups

/-- The state becomes IDLE once every counter and every pair has passed (R575). -/
def snapIdle (s : State) : State :=
  if snapState s = 2 ∧ s.hb .snapOpen = false ∧ s.rbit Reg.SNAP.STS 30 = false then setSnapState 0 s else s

/-- Every counter has passed into the new epoch (R577). -/
def snapDone (s : State) : State :=
  let s := forEach (listedCounters s) s snapTouch
  let s := s.setHb .snapOpen false
  let s := { s with regs := s.regs.filter fun e => e.1 / 2 ^ 32 != 33 }
  let gone := (s.root - s.hn .snapAt) / cycUs 1
  snapIdle (raise snapPage 1 (s.setReg Reg.SNAP.DONE_US (min gone 65535)))

/-- SNAP_DONE (R577). -/
def execSnapDone (s : State) : Host.Outcome State Fault Refusal :=
  done (s.when (s.live snapPage && s.hb .snapOpen && engUp s 3) snapDone)

/-- Every flow pair has passed into the new epoch (R578). -/
def fsDone (s : State) : State :=
  let pairs := ([1, 2, 3].flatMap fun k => (s.tabList snapPage k).map Prod.fst).eraseDups
  let s := forEach pairs s fun i s => if s.tab snapPage 4 i = 0 then s.setTab snapPage 2 i (fsSum s i) else s
  let s := { s with tabs := s.tabs.filter fun e => e.1 / 2 ^ 32 != snapPage * 256 + 4 }
  snapIdle (raise snapPage 2 (s.setRbit Reg.SNAP.STS 30 false))

/-- FS_DONE (R578). -/
def execFsDone (s : State) : Host.Outcome State Fault Refusal :=
  done (s.when (s.live snapPage && s.rbit Reg.SNAP.STS 30) fsDone)

/-- Register writes of the SNAP page that are not plain stores (R575, R581). -/
def snapReg (r : Req) (a v : Nat) (s : State) : Option State :=
  if a = Reg.SNAP.CTL then some (snapCtl r v s)
  else if a = Reg.SNAP.FS_CFG then some (fsCfg r v s)
  else if (a = Reg.SNAP.SNAP_NS ∨ a = Reg.SNAP.SNAP_SEC_LO ∨ a = Reg.SNAP.SNAP_SEC_HI) ∧ snapState s = 1 then
    some (snapRefuse r a v s)
  else none

end Sys2Proof.Machine
end

