-- ==== Sys2Proof/Machine/Otn.lean ====
section
/-!
DEFINITION. OTN framing, overhead, defects and consequent actions, and the overhead ports
(spec/04_otn_framing.md, R144 to R174).
-/
namespace Sys2Proof.Machine

/-! ### Places -/

/-- The line group and lane of port `n`. -/
def otnG (n : Nat) : Nat := n / 16
def otnL (n : Nat) : Nat := n % 16

/-- Slices of OTN port `n`: as many as its lanes (R108). -/
def otnSlices (s : State) (n : Nat) : Nat := portLanes s n

/-- Whether port `n` is an OTN port whose OTN page performs its function. -/
def otnRuns (s : State) (n : Nat) : Bool := isOtn s n && s.live (otnPage (otnG n))

/-- CFG of port `n` (R169). -/
def otnCfg (s : State) (n : Nat) : Nat := s.reg (Reg.OTN.CFG (otnG n) (otnL n))

/-- CFG in force for the OTUC, ODUC and OPUC layers, and for the ODUflex and OPUflex layers (R169): each is taken at a frame
boundary of its layer; until the first one it is the reset value. -/
def cfgC (s : State) (n : Nat) : Nat := s.hn (.otnCfgC n) ^^^ 0x04000000
def cfgF (s : State) (n : Nat) : Nat := s.hn (.otnCfgF n) ^^^ 0x04000000

/-- The defect and alignment registers of port `n`. -/
def defSts (n : Nat) : Nat := Reg.OTN.DEF_STS (otnG n) (otnL n)
def tcmSts (n : Nat) : Nat := Reg.OTN.TCM_STS (otnG n) (otnL n)
def alignSts (n : Nat) : Nat := Reg.OTN.ALIGN_STS (otnG n) (otnL n)

/-- Whether slice `i` of port `n` is in frame, and in multiframe (R168). -/
def slIF (s : State) (n i : Nat) : Bool := s.rbit (alignSts n) (8 + i)
def slIM (s : State) (n i : Nat) : Bool := s.rbit (alignSts n) (16 + i)

/-- Whether port `n` is out of multiframe: a slice OOM, or slices in frame with different MFAS (R148). -/
def portOom (s : State) (n : Nat) : Bool :=
  let k := List.range (otnSlices s n)
  let fs := (k.filter (slIF s n)).map fun i => s.h (.slMfas n i)
  k.any (fun i => !slIM s n i) || fs.any fun m => m != fs.headD 0

/-! ### Conditions that persist over frames (R154) -/

/-- Condition `d` of port `n` occurs or not in one more frame. -/
def detect (n d : Nat) (c : Bool) (s : State) : State :=
  let r := s.h (.detRun n d)
  s.setH (.detRun n d) (if c then max r 0 + 1 else min r 0 - 1)

/-- A defect over the conditions `8 * code + i` for `i < k`: declared when one of them has held in `up` consecutive frames,
cleared when every one has been absent in `down`. -/
def hyst (s : State) (n code k : Nat) (up down : Int) (cur : Bool) : Bool :=
  let rs := (List.range k).map fun i => s.h (.detRun n (8 * code + i))
  if rs.any fun r => up ≤ r then true
  else if rs.all fun r => r ≤ -down then false
  else cur

/-- The numbers of the conditions: SM BDI 0, IAE 1, BIAE 2; PM-C BDI 3; PM-F BDI 4, AIS 5, OCI 6, LCK 7; group ID 8,
instance number 9, RDI 10; CSF 11; TCMi (from i = 0) BDI, AIS, OCI, LCK, LTC from 12 + 5i. -/
def tcmCode (i k : Nat) : Nat := 12 + 5 * i + k

/-- Forget the runs of the conditions of a list of codes, and the multiframes of the trail traces of a list of layers. -/
def forget (n : Nat) (codes layers : List Nat) (s : State) : State :=
  forEach layers (forEach codes s fun c s => forEach (List.range 8) s fun i s => s.setH (.detRun n (8 * c + i)) 0)
    fun l s => s.setH (.ttiRep n l) 0

/-! ### Trail traces (R151, R152) -/

/-- The table index of layer `l` of port `n` (R171): 0 SM, 1 PM-C, 2 PM-F, 3 to 8 TCM1 to TCM6. -/
def ttiIdx (n l : Nat) : Nat := 16 * otnL n + l

/-- Byte `j` of a TTI table entry (R171). -/
def ttiByte (e j : Nat) : Nat := fld (word e (j / 4)) (24 - 8 * (j % 4)) 8

/-- A received TTI byte at MFAS `m` (R151): tables 4 and 5 of the OTN page hold the multiframe being received and the last
complete one; three equal ones are accepted. `ttiRep` is 0 before the first multiframe begins, then one more than the
number of equal multiframes that have arrived. -/
def ttiRx (n l m b : Nat) (s : State) : State :=
  let p := otnPage (otnG n)
  let j := m % 64
  let cur := s.tab p 4 (ttiIdx n l)
  let cur := setFld cur (32 * (j / 4) + (24 - 8 * (j % 4))) 8 b
  let s := s.setTab p 4 (ttiIdx n l) cur
  let r := if j = 0 then max 1 (s.hn (.ttiRep n l)) else s.hn (.ttiRep n l)
  let s := s.setH (.ttiRep n l) r
  if j ≠ 63 ∨ r = 0 then s else
  let rep := if r = 1 ∨ cur ≠ s.tab p 5 (ttiIdx n l) then 2 else min 4 (r + 1)
  let s := (s.setTab p 5 (ttiIdx n l) cur).setH (.ttiRep n l) rep
  if rep = 4 ∧ cur ≠ s.tab p 3 (ttiIdx n l) then raise p 1 (s.setTab p 3 (ttiIdx n l) cur) else s

/-- The TIM mode of a layer (R169). -/
def timMode (s : State) (n l : Nat) : Nat :=
  match l with
  | 0 => fld (cfgC s n) 24 2
  | 1 => fld (cfgC s n) 22 2
  | 2 => fld (cfgF s n) 20 2
  | _ => fld (cfgF s n) (6 + 2 * (l - 3)) 2

/-- Whether the accepted TTI of a layer differs from the expected one under its mode (R152). -/
def timBad (s : State) (n l : Nat) : Bool :=
  let p := otnPage (otnG n)
  let ne := fun lo hi => (List.range (hi - lo)).any fun i =>
    ttiByte (s.tab p 3 (ttiIdx n l)) (lo + i) != ttiByte (s.tab p 2 (ttiIdx n l)) (lo + i)
  match timMode s n l with
  | 0 => false
  | 1 => ne 0 16
  | 2 => ne 16 32
  | _ => ne 0 32

/-! ### Evaluation of the defects (R154 to R157) -/

/-- Whether a TCM is enabled (R169). -/
def tcmOn (s : State) (n i : Nat) : Bool := bit (cfgF s n) i

/-- The defects of TCM `i` (from 0), as its five bits of `TCM_STS` (LTC, MAINT, TIM, BDI, DEG from the lowest, R168) and
dAIS, dOCI and dLCK, each held for itself, which make MAINT (R154). `fail` is the server signal fail of R155, `inh` the
inhibition by a held PM-F maintenance signal. -/
def tcmEval (s : State) (n i old held : Nat) (fail inh : Bool) : Nat × Nat :=
  if fail || !tcmOn s n i then (0, 0) else
  let ltc := hyst s n (tcmCode i 4) 1 3 3 (bit old 0)
  let m := fun k => hyst s n (tcmCode i (1 + k)) 1 3 3 (bit held k)
  let held := ofB (m 0) + 2 * ofB (m 1) + 4 * ofB (m 2)
  let maint := held != 0
  let inh := inh || ltc || maint
  let tim := timBad s n (3 + i) && (bit old 2 || !inh)
  let b := hyst s n (tcmCode i 0) 1 5 5 (bit old 3)
  (ofB ltc + 2 * ofB maint + 4 * ofB tim + 8 * ofB (b && (bit old 3 || !inh)) + 16 * ofB (bit old 4), held)

/-- The line conditions of SSF_C: dLOS, dLOF_FX, dGIDM, dPMM, dLOF, dLOM (R157). -/
def ssfLine (d : Nat) : Bool := [0, 1, 2, 3, 5, 6].any (bit d)

/-- The defects and consequent states of port `n`, with `d` and `t` as the held values of `DEF_STS` and `TCM_STS`, and those
of the TCMs' maintenance signals after them. dTIM of SM does not clear itself through the SSF_C that it causes
(notes/assumptions/12.md). -/
def defEval (s : State) (n d t : Nat) : Nat × Nat × Nat :=
  let k := otnSlices s n
  let cfg := cfgC s n
  let cfgf := cfgF s n
  let d := setBit d 2 (hyst s n 8 k 3 3 (bit d 2))
  let d := setBit d 3 (hyst s n 9 k 3 3 (bit d 3))
  let d := setBit d 4 (hyst s n 10 k 3 3 (bit d 4))
  let line := ssfLine d
  let d := setBit d 7 (!line && timBad s n 0)
  let ssfC := line || (bit d 7 && bit cfg 29)
  let d := if ssfC then setFld d 8 4 0 else
    setFld d 8 3 (ofB (hyst s n 0 k 5 5 (bit d 8)) + 2 * ofB (hyst s n 1 k 5 5 (bit d 9)) + 4 * ofB (hyst s n 2 k 3 3 (bit d 10)))
  let d := if ssfC then setFld d 12 3 0 else setBit (setBit d 12 (timBad s n 1)) 13 (hyst s n 3 k 5 5 (bit d 13))
  let pt := s.reg (Reg.OTN.PT (otnG n) (otnL n))
  let acc := s.reg (Reg.OTN.ACC_PT (otnG n) (otnL n))
  let d := setBit d 15 (bit cfg 27 && fld acc 8 8 != fld pt 24 8)
  let d := setBit d 16 (bit cfg 26 && s.hb (.msiBad n))
  let ssfF := ssfC || bit d 15 || bit d 16
  let d := if ssfF then setFld d 17 6 0 else
    let d := setBit d 17 (hyst s n 5 1 3 3 (bit d 17))
    let d := setBit d 18 (hyst s n 6 1 3 3 (bit d 18))
    let d := setBit d 19 (hyst s n 7 1 3 3 (bit d 19))
    let inh := fld d 17 3 != 0
    let d := setBit d 20 (timBad s n 2 && (bit d 20 || !inh))
    setBit d 21 (hyst s n 4 1 5 5 (bit d 21) && (bit d 21 || !inh))
  let inh := fld d 17 3 != 0
  let d := setBit d 23 (bit cfgf 27 && fld acc 0 8 != fld pt 8 8)
  let d := setBit d 24 (hyst s n 11 1 3 3 (bit d 24))
  let fail := ssfF || fld d 17 3 != 0 || (bit d 20 && bit cfgf 28) || bit d 23 || bit d 24
  let (t, m) := (List.range 6).foldl (fun (t, m) i =>
    let (b, h) := tcmEval s n i (fld t (5 * i) 5) (fld m (3 * i) 3) ssfF inh
    (setFld t (5 * i) 5 b, setFld m (3 * i) 3 h)) (t, s.hn (.tcmHeld n))
  let d := setBit (setBit (setBit (setBit d 25 ssfC) 26 ssfF) 27 fail) 28 (t != 0)
  (fld d 0 29, t, m)

/-- The held defect values become `d` and `t`; the defects are evaluated, every change is marked in `DEF_CHG` and raises
DEFECT_CHANGE (R156), and a failed layer forgets what it was counting (R155). The mark of a TCM defect is bit 28
(notes/assumptions/87.md). -/
def defUpdate (n d t : Nat) (s : State) : State :=
  let old := s.reg (defSts n)
  let (d, t, m) := defEval s n d t
  let tcm := t != s.reg (tcmSts n) || m != s.hn (.tcmHeld n)
  let chg := (old ^^^ d) ||| (if tcm then 2 ^ 28 else 0)
  let s := ((s.setReg (defSts n) d).setReg (tcmSts n) t).setH (.tcmHeld n) (m : Nat)
  let s := if ssfLine d then forget n [] [0] s else s
  let s := if bit d 25 then forget n [0, 1, 2, 3] [1] s else s
  let s := if bit d 26 then forget n ([4, 5, 6, 7] ++ (List.range 30).map (12 + ·)) [2, 3, 4, 5, 6, 7, 8] s else s
  if chg = 0 then s
  else
    let a := Reg.OTN.DEF_CHG (otnG n) (otnL n)
    raise (otnPage (otnG n)) 0 (s.setReg a (s.reg a ||| chg))

/-- The defects of port `n` are evaluated as they stand. -/
def defRefresh (n : Nat) (s : State) : State := defUpdate n (s.reg (defSts n)) (s.reg (tcmSts n)) s

/-- A frame boundary of the OTUC, ODUC and OPUC layers, or of the ODUflex and OPUflex layers: CFG as it stands takes effect
there (R169). -/
def latchC (n : Nat) (s : State) : State := defRefresh n (s.setH (.otnCfgC n) (otnCfg s n ^^^ 0x04000000 : Nat))
def latchF (n : Nat) (s : State) : State := defRefresh n (s.setH (.otnCfgF n) (otnCfg s n ^^^ 0x04000000 : Nat))

/-- A held defect bit is declared or cleared. -/
def setDefect (n b : Nat) (v : Bool) (s : State) : State :=
  defUpdate n (setBit (s.reg (defSts n)) b v) (s.reg (tcmSts n)) s

/-! ### Alignment (R144 to R148) -/

/-- Slice `i` of port `n` falls out of frame: counted, its candidates cleared, stage 2 restarts (R147). -/
def oof (n i : Nat) (s : State) : State :=
  let s := if slIF s n i then bump (Reg.OTN.OOF_CNT (otnG n) (otnL n)) s else s
  let s := (s.setRbit (alignSts n) (8 + i) false).setRbit (alignSts n) (16 + i) false
  { s.setH (.fasBad n i) 0 with cands := s.cands.filter fun c => !(c.port == n && c.slice == i) }

/-- Whether the condition of persistence timer `k` of port `n` occurs (R154): 1 an instance unlocked or the group not
deskewed, 2 a slice OOF, 3 the port OOM. -/
def perCond (s : State) (n k : Nat) : Bool :=
  let w := otnSlices s n
  match k with
  | 1 => s.hn (.fxLock n) != 2 ^ w - 1
  | 2 => (List.range w).any fun i => !slIF s n i
  | _ => portOom s n

/-- A change `f` of the alignment of port `n`: the conditions that turn are timed from now on (R154). -/
def withPersist (n : Nat) (f : State → State) (s : State) : State :=
  let t := f s
  forEach [1, 2, 3] t fun k t => if perCond t n k = perCond s n k then t else t.setH (.perSince n k) (t.root : Nat)

/-- The positions of the instances on `w` lanes with the received instance numbers `nums` (R144): each takes the position
that its number names; an instance whose number names none that is free takes the lowest one left
(notes/assumptions/87.md). -/
def instPlaces (w : Nat) (nums : List Nat) : List Nat :=
  let named := nums.foldl (fun acc m => acc ++ [if m < w && !acc.contains m then m else w]) []
  named.foldl (fun acc p =>
    acc ++ [if p < w then p else ((List.range w).find? fun q => !named.contains q && !acc.contains q).getD 0]) []

/-- The position of the instance on lane `l` of port `n` (R144). -/
def fxPlace (s : State) (n l : Nat) : Nat := ((l : Int) + s.h (.fxPos n l)).toNat

/-- FLEXO_LOCK (R144): every instance is locked and placed at the position that its number names; the group is deskewed if
its skew is at most 300 ns, else stage 1 is lost on every instance. `skew` in 1/16 ns, `nums` by lane. -/
def execFlexoLock (n : Fin 128) (skew : BitVec 16) (nums : List Byte) (s : State) : Host.Outcome State Fault Refusal :=
  done (s.when (otnRuns s n) (withPersist n fun s =>
    let w := otnSlices s n
    let s := s.setReg (Reg.OTN.FX_SKEW (otnG n) (otnL n)) skew.toNat
    let s := forEach ((List.range w).zip (instPlaces w ((nums.map BitVec.toNat).take w))) s fun (l, p) s => s.setH (.fxPos n l) ((p : Int) - (l : Int))
    if skew.toNat ≤ 4800 then s.setH (.fxLock n) (2 ^ w - 1 : Nat)
    else forEach (List.range w) (s.setH (.fxLock n) 0) fun i s => oof n i s))

/-- FLEXO_LOCK_LOSS (R147): the slice of the instance on lane `i` is out of frame at once. -/
def execFlexoLockLoss (n : Fin 128) (i : Fin 8) (s : State) : Host.Outcome State Fault Refusal :=
  done (s.when (otnRuns s n && i.val < otnSlices s n) (withPersist n fun s =>
    let p := fxPlace s n i
    oof n p (s.setH (.fxLock n) (setBit (s.hn (.fxLock n)) p false : Nat))))

/-- Whether stage 2 hunts slice `i`. -/
def hunting (s : State) (n i : Nat) : Bool :=
  otnRuns s n && i < otnSlices s n && bit (s.hn (.fxLock n)) i && !slIF s n i

/-- The candidates of a slice. -/
def candsOf (s : State) (n i : Nat) : List Cand := s.cands.filter fun c => c.port == n && c.slice == i

/-- FAS_SIGHTING (R145): a new position opens a candidate while fewer than four are open. -/
def execFasSighting (n : Fin 128) (i : Fin 8) (pos : Fin 15296) (mfas : Byte) (s : State) :
    Host.Outcome State Fault Refusal :=
  done (s.when (hunting s n i && (candsOf s n i).length < 4 && (candsOf s n i).all fun c => c.pos != pos.val) fun s =>
    { s with cands := s.cands ++ [⟨n, i, pos, mfas.toNat, 0⟩] })

/-- The slice is in frame and in multiframe at a confirmed candidate (R145). -/
def confirm (n i : Nat) (c : Cand) (s : State) : State :=
  let s := { s with cands := s.cands.filter fun c => !(c.port == n && c.slice == i) }
  let s := (s.setRbit (alignSts n) (8 + i) true).setRbit (alignSts n) (16 + i) true
  let s := ((s.setH (.slPos n i) c.pos).setH (.slMfas n i) c.mfas).setH (.mfasRun n i) 0
  if i = 0 then s.setRfld (alignSts n) 0 8 c.mfas else s

/-- The checks of one frame of a slice: for each position checked, whether the alignment signal stands there and the
MFAS that follows it (R145, R146). -/
def candCheck (n i : Nat) (checks : List (Nat × Bool × Nat)) (s : State) : State :=
  let look := fun (c : Cand) => checks.find? fun x => x.1 == c.pos
  let good := fun (c : Cand) => match look c with
    | some (_, ok, m) => ok && m == (c.mfas + 1) % 256
    | none => true
  let mine := candsOf s n i
  let s := bumpBy (Reg.OTN.CAND_DROP (otnG n) (otnL n)) (mine.filter (!good ·)).length s
  let next := (mine.filter good).map fun c => match look c with
    | some (_, _, m) => { c with mfas := m, hits := c.hits + 1 }
    | none => c
  let s := { s with cands := s.cands.filter (fun c => !(c.port == n && c.slice == i)) ++ next }
  match next.filter (·.hits == 3) with
  | [] => s
  | [c] => confirm n i c s
  | _ =>
    let s := { s with cands := s.cands.filter fun c => !(c.port == n && c.slice == i) }
    raise (otnPage (otnG n)) 2 (bump (Reg.OTN.ALIGN_AMBIG (otnG n) (otnL n)) s)

/-- CANDIDATE_CHECK (R145). -/
def execCandidateCheck (n : Fin 128) (i : Fin 8) (checks : List (Fin 15296 × Bool × Byte)) (s : State) :
    Host.Outcome State Fault Refusal :=
  done (s.when (hunting s n i) (withPersist n (candCheck n i (checks.map fun x => (x.1.val, x.2.1, x.2.2.toNat)))))

/-! ### Received frames (R147 to R154) -/

/-- The alignment signal of a frame in frame is checked: five errored frames in a row put the slice out of frame (R147). -/
def fasCheck (n i : Nat) (ok : Bool) (s : State) : State :=
  if ok then s.setH (.fasBad n i) 0
  else if s.h (.fasBad n i) + 1 = 5 then oof n i s
  else s.setH (.fasBad n i) (s.h (.fasBad n i) + 1)

/-- The MFAS of a frame in frame is checked: five wrong increments put the slice OOM, three right ones return it to IM
(R148). -/
def mfasCheck (n i m : Nat) (s : State) : State :=
  if !slIF s n i then s else
  let ok := m == (s.hn (.slMfas n i) + 1) % 256
  let r := s.h (.mfasRun n i)
  let r := if ok then min r 0 - 1 else max r 0 + 1
  let s := (s.setH (.slMfas n i) m).setH (.mfasRun n i) r
  let s := if i = 0 then s.setRfld (alignSts n) 0 8 m else s
  if 5 ≤ r then s.setRbit (alignSts n) (16 + i) false
  else if r ≤ -3 then s.setRbit (alignSts n) (16 + i) true
  else s

/-- The violation count of the last received frame of layer `l`, slice `i`: 0 SM, 1 PM-C, 2 PM-F (R153). -/
def lastBip (l i : Nat) (n v : Nat) (s : State) : State := s.setH (.rxBip n (8 * l + i)) (v : Nat)

/-- BIP and BEI of one layer's frame are counted (R153): layer `l`, its BIP counter and, if any, its BEI counter. The frame of
each slice is checked by itself, so it is one errored block if it is violated (notes/assumptions/97.md). -/
def bipCount (n l bipA : Nat) (beiA : Option Nat) (o : OtnOh) (s : State) : State :=
  let s := bumpBy bipA o.bip s
  let s := if o.bip.val = 0 then s else s.setH (.errBlocks n l) (s.h (.errBlocks n l) + 1)
  match beiA with
  | some a => let v := o.b3.toNat / 16; if v ≤ 8 then bumpBy a v s else s
  | none => s

/-- A frame of OTUC slice `i` (R147 to R154). -/
def rxOtuc (n i : Nat) (fas : Bool) (m : Nat) (sm pmc : OtnOh) (s : State) : State :=
  if !slIF s n i then s else
  let s := latchC n s
  let s := mfasCheck n i m (fasCheck n i fas s)
  let s := lastBip 1 i n pmc.bip (lastBip 0 i n sm.bip s)
  let d := s.reg (defSts n)
  let g := otnG n
  let l := otnL n
  let s := if bit d 25 then s else
    let s := bipCount n 0 (Reg.OTN.SM_BIP g l) (some (Reg.OTN.SM_BEI g l)) sm s
    let s := detect n i (bit sm.b3.toNat 3) s
    let s := detect n (8 + i) (bit sm.b3.toNat 2) s
    detect n (16 + i) (sm.b3.toNat / 16 == 11) s
  let s := if i = 0 ∧ !ssfLine d then ttiRx n 0 m sm.tti.toNat s else s
  let s := if bit d 25 then s else
    let s := bipCount n 1 (Reg.OTN.PMC_BIP g l) (some (Reg.OTN.PMC_BEI g l)) pmc s
    let s := detect n (24 + i) (bit pmc.b3.toNat 3) s
    if i = 0 then ttiRx n 1 m pmc.tti.toNat s else s
  defRefresh n s

/-- The STAT conditions of a layer: AIS 111, OCI 110, LCK 101 from condition code `c` on. -/
def detectStat (n c st : Nat) (s : State) : State :=
  forEach [(0, 7), (1, 6), (2, 5)] s fun (k, v) s => detect n (8 * (c + k)) (st == v) s

/-- The STAT of TCM `i` is accepted when it arrives in three consecutive frames (R168). -/
def tcmStat (n i st : Nat) (s : State) : State :=
  let old := s.hn (.statSeen n i)
  let c := if old % 8 = st then min 3 (old / 8 + 1) else 1
  let s := s.setH (.statSeen n i) (8 * c + st : Nat)
  if c = 3 then s.setRfld (Reg.OTN.TCM_STAT (otnG n) (otnL n)) (3 * i) 3 st else s

/-- The BIP counter of TCM `i` (from 0). -/
def tcmBip (n i : Nat) : Nat := Reg.OTN.TCM_BIP1 (otnG n) (otnL n) + 8 * i

/-- One TCM of an ODUflex frame. -/
def rxTcm (n i m : Nat) (o : OtnOh) (s : State) : State :=
  if !tcmOn s n i then s else
  let st := o.b3.toNat % 8
  let t := fld (s.reg (tcmSts n)) (5 * i) 5
  let s := if bit t 0 || bit t 1 then s else bipCount n (3 + i) (tcmBip n i) none o s
  let s := detect n (8 * tcmCode i 0) (bit o.b3.toNat 3) s
  let s := detectStat n (tcmCode i 1) st s
  let s := detect n (8 * tcmCode i 4) (st == 0) s
  ttiRx n (3 + i) m o.tti.toNat (tcmStat n i st s)

/-- An ODUflex frame (R149 to R155). -/
def rxOduflex (n m : Nat) (pmf : OtnOh) (tcm : List OtnOh) (s : State) : State :=
  let s := lastBip 2 0 n pmf.bip (latchF n s)
  let d := s.reg (defSts n)
  if bit d 26 then s else
  let inh := fld d 17 3 != 0
  let s := if inh then s else
    bipCount n 2 (Reg.OTN.PMF_BIP (otnG n) (otnL n)) (some (Reg.OTN.PMF_BEI (otnG n) (otnL n))) pmf s
  let s := detect n 32 (bit pmf.b3.toNat 3) s
  let s := detectStat n 5 (pmf.b3.toNat % 8) s
  let s := ttiRx n 2 m pmf.tti.toNat s
  let s := forEach ((List.range 6).zip tcm) s fun (i, o) s =>
    if inh then rxTcm n i m { o with bip := 0 } s else rxTcm n i m o s
  defRefresh n s

/-- A PT received in a multiframe is accepted when equal in three consecutive ones (R154); a change raises PT_ACCEPTED. -/
def ptRx (n c pt : Nat) (s : State) : State :=
  let old := s.hn (.ptSeen n c)
  let k := if old % 256 = pt then min 3 (old / 256 + 1) else 1
  let s := s.setH (.ptSeen n c) (256 * k + pt : Nat)
  let a := Reg.OTN.ACC_PT (otnG n) (otnL n)
  let lo := if c = 0 then 8 else 0
  if k = 3 ∧ s.rfld a lo 8 ≠ pt then raise (otnPage (otnG n)) 3 (s.setRfld a lo 8 pt) else s

/-- What an OTN port receives (R147 to R154). -/
def otnRx (n : Nat) (x : OtnRx) (s : State) : State :=
  match x with
  | .flexo i gid num rdi =>
    let s := detect n (64 + i) (gid.toNat != s.reg (Reg.OTN.GID_EXP (otnG n) (otnL n))) s
    let s := detect n (72 + i) (num.toNat != fxPlace s n i) s
    defRefresh n (detect n (80 + i) rdi s)
  | .otuc i fas m sm pmc => if i.val < otnSlices s n then rxOtuc n i fas m.toNat sm pmc s else s
  | .oduflex m pmf tcm => rxOduflex n m.toNat pmf tcm s
  | .opuc pt good => defRefresh n ((ptRx n 0 pt.toNat (latchC n s)).setHb (.msiBad n) (!good))
  | .opuflex pt csf => defRefresh n (detect n 88 csf (ptRx n 1 pt.toNat (latchF n s)))

/-- OTN_FRAME_RX (R147). -/
def execOtnFrameRx (n : Fin 128) (x : OtnRx) (s : State) : Host.Outcome State Fault Refusal :=
  done (s.when (otnRuns s n) (withPersist n (otnRx n x)))

/-! ### Persistence, degrade and consequent actions -/

/-- A condition of port `n` holds for its persistence time (R154): 0 every lane locked for 1 ms; 1 dLOF_FX, 2 dLOF, 3 dLOM,
each for 3 ms from the last change of its condition. The defect then follows the condition. -/
def defectTimer (n : Nat) (k : Fin 4) (s : State) : State :=
  let w := otnSlices s n
  let p := otnPage (otnG n)
  if k = 0 then
    if bit (s.reg (defSts n)) 0 && (List.range w).all fun i => laneLocked s (n + i) then
      setDefect n 0 false (waitRoot ((List.range w).foldl (fun t i => max t (sinceOf s p (.laneLockAt (n + i)))) 0 + cycUs 1000) s)
    else s
  else
    let b := if k = 1 then 1 else 3 + k.val
    let c := perCond s n k
    if c = bit (s.reg (defSts n)) b then s else setDefect n b c (waitSince p (.perSince n k) (cycUs 3000) s)

/-- DEFECT_PERSIST_TIMER (R154). -/
def execDefectPersistTimer (n : Fin 128) (k : Fin 4) (s : State) : Host.Outcome State Fault Refusal :=
  done (s.when (otnRuns s n) (defectTimer n k))

/-- SIGNAL_LOSS (R127, R100): on an OTN-mode port dLOS is declared (R154). -/
def execSignalLoss (n : Fin 128) (k : Fin 8) (s : State) : Host.Outcome State Fault Refusal :=
  let s := s.when (s.clocked (lportPage n) && k.val < portLanes s n) (signalLoss n k)
  done (s.when (otnRuns s n && k.val < portLanes s n) (setDefect n 0 true))

/-- Whole seconds of dDEG (R154): the errored blocks of layer `l` of the second that ended decide the held bit; no defect
is declared while the layer is failed or inhibited. -/
def degLayer (n l : Nat) (fail inh old : Bool) (s : State) : Bool × State :=
  let cfg := s.reg (Reg.OTN.DEG_CFG (otnG n) (otnL n))
  let e := s.h (.errBlocks n l)
  let s := s.setH (.errBlocks n l) 0
  if fail then (false, s.setH (.degRun n l) 0)
  else if e < fld cfg 0 24 then (false, s.setH (.degRun n l) 0)
  else
    let r := s.h (.degRun n l) + 1
    (old || (decide ((fld cfg 28 4 : Int) ≤ r) && !inh), s.setH (.degRun n l) r)

/-- The end of a whole second at port `n` (R154). -/
def degInterval (n : Nat) (s : State) : State :=
  let d := s.reg (defSts n)
  let t := s.reg (tcmSts n)
  let inh := fld d 17 3 != 0
  let (a, s) := degLayer n 0 (bit d 25) false (bit d 11) s
  let (b, s) := degLayer n 1 (bit d 25) false (bit d 14) s
  let (c, s) := degLayer n 2 (bit d 26) inh (bit d 22) s
  let (t, s) := (List.range 6).foldl (fun (t, s) i =>
    let o := fld t (5 * i) 5
    let (v, s) := degLayer n (3 + i) (bit d 26 || !tcmOn s n i) (inh || bit o 0 || bit o 1) (bit o 4) s
    (setBit t (5 * i + 4) v, s)) (t, s)
  defUpdate n (setBit (setBit (setBit d 11 a) 14 b) 22 c) t s

/-- The whole second that ends next at port `n`, as an instant of the time base: one that has ended unseen, else the one under
way. -/
def degNext (s : State) (n : Nat) : Nat :=
  let sec := s.tb / unitsSec
  let seen := s.hn (.degAt n)
  (if seen ≠ 0 ∧ seen ≤ sec then sec else sec + 1) * unitsSec

/-- DEG_INTERVAL (R154): at the end of a whole second of the time base. -/
def execDegInterval (n : Fin 128) (s : State) : Host.Outcome State Fault Refusal :=
  done (s.when (otnRuns s n) (atInstant (degNext s n) fun s => (degInterval n s).setH (.degAt n) (s.tb / unitsSec + 1 : Nat)))

/-- The consequent actions that the defects call for (R157): SSF_C, SSF_F, client fail, FlexO RDI, SM BDI, PM-C BDI, PM-F BDI
from the lowest bit. -/
def caWanted (s : State) (n : Nat) : Nat :=
  let d := s.reg (defSts n)
  let rdi := bit d 0 || bit d 1 || bit d 2 || bit d 3
  let other := bit d 26 || fld d 17 3 != 0 || (bit d 20 && bit (cfgF s n) 28) || bit d 23
  ofB (bit d 25) + 2 * ofB (bit d 26) + 4 * ofB (bit d 27) + 8 * ofB rdi + 16 * ofB (bit d 25) + 32 * ofB (bit d 25) +
    64 * ofB (bit d 27 && other)

/-- The consequent actions that start and end at a boundary of frame `e`: the received ODUC and ODUflex, and the transmitted
FlexO, OTUC with its ODUC, and ODUflex (R157, R158). -/
def caMask : OtnFrame → Nat
  | .rxOduc => 1
  | .rxOduflex => 6
  | .txFlexo => 8
  | .txOtuc => 48
  | .txOduflex => 64

/-- The consequent actions of frame `e` start and end; the start of client fail delivers local fault ordered sets to the MAC,
and what the MAC then sends follows (R157 to R159). -/
def caStart (n : Nat) (e : OtnFrame) (s : State) : State :=
  let was := s.hn (.caEff n)
  let now := mergeMask was (caWanted s n) (caMask e)
  let s := s.setH (.caEff n) (now : Nat)
  let s := if clientFails s n && !bit was 2 && linkRuns s n && 5 ≤ linkState s n then faultSets n false s else s
  if linkRuns s n then remoteUpdate n s else s

/-! ### Overhead ports (R162 to R167) -/

/-- CFG of OHP[k], and the OTN port it binds (R162). -/
def ohpCfg (s : State) (k : Nat) : Nat := s.reg (Reg.OHP.CFG k)
def ohpPort (s : State) (k : Nat) : Nat := 16 * (k / 2) + fld (ohpCfg s k) 0 4

/-- Whether two channels overlap (R162). -/
def chanOverlap (a b : Nat) : Bool := a == b || (a == 3 && (b == 1 || b == 2)) || (b == 3 && (a == 1 || a == 2))

/-- A write of CFG (R162): a binding refused leaves the register; a change of enable or binding re-centres (R165). With EN = 0
nothing is bound, and the write is never refused (notes/assumptions/97.md). -/
def ohpCfgWrite (r : Req) (k v : Nat) (s : State) : State :=
  let a := Reg.OHP.CFG k
  let other := ohpCfg s (k ^^^ 1)
  let clash := bit v 31 && bit v 30 && bit other 31 && bit other 30 && fld other 0 4 == fld v 0 4 &&
    chanOverlap (fld v 28 2) (fld other 28 2)
  if bit v 31 && (!isOtn s (16 * (k / 2) + fld v 0 4) || clash) then errReq (ohpPage k) 0x10 r a v s
  else
    let old := s.reg a
    let s := storeReg a v s
    if bit v 31 && (!bit old 31 || fld old 28 2 != fld v 28 2 || fld old 0 4 != fld v 0 4) then s.setHb (.ohpCentre k) true
    else s

/-- OHP_CFG_WRITE (R162). -/
def execOhpCfgWrite (r : Req) (k : Fin 16) (v : W32) (s : State) : Host.Outcome State Fault Refusal :=
  done (gateWrite r (Reg.OHP.CFG k) (ohpCfgWrite r k v.toNat) s)

/-- RECENTRE (R165). -/
def execRecentre (r : Req) (k : Fin 16) (v : W32) (s : State) : Host.Outcome State Fault Refusal :=
  done (gateWrite r (Reg.OHP.RECENTRE k) (fun s => if bit v.toNat 0 then s.setHb (.ohpCentre k) true else s) s)

/-- The field of STS that shows the fill of slip buffer `d` (R173): 0 extraction, 1 insertion. -/
def ohpFill (s : State) (k d : Nat) : Nat := s.rfld (Reg.OHP.STS k) (4 + 3 * d) 3
def setOhpFill (k d v : Nat) (s : State) : State := s.setRfld (Reg.OHP.STS k) (4 + 3 * d) 3 v

/-- Both slip buffers take two frames (R165): of three or four, the two newest stay (notes/assumptions/97.md); what a frame
that was not there holds is a free value (notes/assumptions/3.md). -/
def recentre (k : Nat) (s : State) : State :=
  let s := forEach [0, 1] s fun d s =>
    let n := ohpFill s k d
    let b := s.hn (.ohpBuf k d)
    let (x, s) := s.free
    let b := if 2 ≤ n then b / 2 ^ (32 * (n - 2)) else if n = 1 then b + x % 2 ^ 32 * 2 ^ 32 else x % 2 ^ 64
    setOhpFill k d 2 (s.setH (.ohpBuf k d) b)
  s.setHb (.ohpCentre k) false

/-- A slip: counted, and event SLIP at the first one (R165). -/
def ohpSlip (k cnt : Nat) (s : State) : State := raiseFirst (ohpPage k) 1 (bump cnt s)

/-- The length of an overhead frame of a channel in bits, and the frame of ones (R163). -/
def ohpLen (s : State) (k : Nat) : Nat := if fld (ohpCfg s k) 28 2 = 3 then 32 else 16
def ohpOnes (s : State) (k : Nat) : Nat := 2 ^ ohpLen s k - 1

/-- The bits of an overhead frame as OHP_FS and OHP_DO carry them, one to each rising edge of OHP_CLK: first byte first, each
byte most significant bit first, with OHP_FS high during the first bit (R163, R164). -/
def ohpBits (len v : Nat) : List (Bool × Bool) := (List.range len).map fun i => (i == 0, bit v (len - 1 - i))

/-- A frame is written to slip buffer `d` (R165): 16 bits, or 32 for CHAN = 3 (R163). -/
def ohpWrite (k d data : Nat) (s : State) : State :=
  let n := ohpFill s k d
  if n = 4 then ohpSlip k (if d = 0 then Reg.OHP.DO_DROP k else Reg.OHP.DI_DROP k) s
  else setOhpFill k d (n + 1) (s.setH (.ohpBuf k d) (s.hn (.ohpBuf k d) + data % 2 ^ ohpLen s k * 2 ^ (32 * n) : Nat))

/-- A frame is read from slip buffer `d`, in the length of the channel (R163); an empty one gives the last frame again (R165). -/
def ohpRead (k d : Nat) (s : State) : Nat × State :=
  let n := ohpFill s k d
  let b := s.hn (.ohpBuf k d)
  let cut := fun v => v % 2 ^ ohpLen s k
  if n = 0 then (cut (s.hn (.ohpLast k d)), ohpSlip k (if d = 0 then Reg.OHP.DO_REPEAT k else Reg.OHP.DI_REPEAT k) s)
  else (cut (b % 2 ^ 32),
    setOhpFill k d (n - 1) ((s.setH (.ohpBuf k d) (b / 2 ^ 32 : Nat)).setH (.ohpLast k d) (b % 2 ^ 32 : Nat)))

/-- Whether extraction is all-ones by a consequent action (R157). -/
def ohpAis (s : State) (k : Nat) : Bool :=
  bit (s.hn (.caEff (ohpPort s k))) (if fld (ohpCfg s k) 28 2 = 0 then 0 else 1)

/-- An overhead-frame boundary at one end of a slip buffer (R165 to R167). `DO_FRAMES` counts the frames of the channel, not
the all-ones sent while the port is not bound (notes/assumptions/97.md). -/
def ohpFrame (k : Nat) (e : OhpEnd) (s : State) : State :=
  let s := if s.hb (.ohpCentre k) then recentre k s else s
  let bound := isOtn s (ohpPort s k)
  let ins := bit (ohpCfg s k) 30
  match e with
  | .extract d => if bound then ohpWrite k 0 (if ohpAis s k then ohpOnes s k else d.toNat) s else s
  | .toBoard =>
    if bound then
      let (v, s) := ohpRead k 0 s
      (bump (Reg.OHP.DO_FRAMES k) s).emit (.ohpDo k (ohpBits (ohpLen s k) v))
    else s.emit (.ohpDo k (ohpBits (ohpLen s k) (ohpOnes s k)))
  | .fromBoard d => if bound && ins then ohpWrite k 1 d.toNat s else s
  | .insert =>
    if bound && ins then
      let (v, s) := ohpRead k 1 s
      ((bump (Reg.OHP.DI_FRAMES k) s).emit (.ohpIns k v)).setH (.ohpNext k) (v + 1 : Nat)
    else s.emit (.ohpIns k 0)

/-- Whether OHP[k] is enabled and its page live. -/
def ohpRuns (s : State) (k : Nat) : Bool := s.live (ohpPage k) && bit (ohpCfg s k) 31

/-- A rising edge of OHP_CLK[k]: the first one after a clock loss ends it (R165, R166). -/
def ohpEdge (k : Nat) (s : State) : State :=
  let s := s.setH (.ohpEdge k) (s.root : Nat)
  if s.rbit (Reg.OHP.STS k) 0 then (s.setRbit (Reg.OHP.STS k) 0 false).setHb (.ohpCentre k) true else s

/-- OHP_FRAME_BOUNDARY (R165): a frame on the board's side moves on edges of OHP_CLK (R164). -/
def execOhpFrameBoundary (k : Fin 16) (e : OhpEnd) (s : State) : Host.Outcome State Fault Refusal :=
  done (s.ifLive (ohpPage k) fun s =>
    let s := match e with
      | .toBoard | .fromBoard _ => ohpEdge k s
      | .extract _ | .insert => s
    s.when (ohpRuns s k) (ohpFrame k e))

/-- CLK_LOSS (R166): 10 µs after the last rising edge of OHP_CLK. -/
def execClkLoss (k : Fin 16) (s : State) : Host.Outcome State Fault Refusal :=
  done (s.when (s.live (ohpPage k) && !s.rbit (Reg.OHP.STS k) 0) fun s =>
    raise (ohpPage k) 0 ((waitSince (ohpPage k) (.ohpEdge k) (cycUs 10) s).setRbit (Reg.OHP.STS k) 0 true))

/-- OHP_CLK_RETURN (R166). -/
def execOhpClkReturn (k : Fin 16) (s : State) : Host.Outcome State Fault Refusal :=
  done (s.ifLive (ohpPage k) (ohpEdge k))

/-- The frequency of OHP_CLK in kHz, measured every 1 ms (R173): 0 until the first measurement, then a value that the spec
leaves free, held until the next (notes/assumptions/3.md). -/
def clkMeas (k : Nat) (s : State) : Nat × State :=
  let m := (s.root - s.hn (.cycBase (ohpPage k))) / cycUs 1000
  if m = s.hn (.clkMeas k) then (s.reg (Reg.OHP.CLK_MEAS k), s)
  else
    let (x, s) := s.free
    (x % 2 ^ 28, (s.setReg (Reg.OHP.CLK_MEAS k) (x % 2 ^ 28)).setH (.clkMeas k) (m : Nat))

/-! ### Transmitted frames (R149 to R151, R153, R157, R161) -/

/-- The overhead frame that OHP[k] inserts into the next frame of port `n`: the one read at its boundary, which is now if it
has not been read yet; none where OHP[k] does not insert a channel of layer `flex` (GCC1 and GCC2 of the ODUflex, or
GCC0) of the port (R165, R167). -/
def ohpTake (k n : Nat) (flex : Bool) (s : State) : Nat × State :=
  if ohpRuns s k && ohpPort s k == n && bit (ohpCfg s k) 30 && (fld (ohpCfg s k) 28 2 != 0) == flex then
    let s := if s.hn (.ohpNext k) = 0 then ohpFrame k .insert s else s
    let v := (s.hn (.ohpNext k) - 1) % 2 ^ ohpLen s k
    (if fld (ohpCfg s k) 28 2 = 1 then v * 2 ^ 16 else v, s.setH (.ohpNext k) 0)
  else (0, s)

/-- The channel bytes of a transmitted frame of port `n`: GCC0, or GCC1 above GCC2; 0x00 where no overhead port inserts. -/
def gccTx (n : Nat) (flex : Bool) (s : State) : Nat × State :=
  let (a, s) := ohpTake (2 * otnG n) n flex s
  let (b, s) := ohpTake (2 * otnG n + 1) n flex s
  (a ||| b, s)

/-- The TTI byte of layer `l` at MFAS `m` (R151): tables 1 and 6 of the OTN page are TTI_TX and the multiframe being sent,
which is taken from TTI_TX where it starts (R171). -/
def ttiTake (n l m : Nat) (s : State) : Nat × State :=
  let p := otnPage (otnG n)
  let s := if m % 64 = 0 then s.setTab p 6 (ttiIdx n l) (s.tab p 1 (ttiIdx n l)) else s
  (ttiByte (s.tab p 6 (ttiIdx n l)) (m % 64), s)

/-- The BEI sent for layer `l`, slice `i` (R153): the violations of the last frame received, 0 while the layer's signal fails. -/
def beiTx (s : State) (n l i : Nat) : Nat :=
  if bit (s.reg (defSts n)) (if l = 2 then 26 else 25) then 0 else s.hn (.rxBip n (8 * l + i))

/-- A byte of overhead. -/
def ohByte (v : Nat) : Byte := BitVec.ofNat 8 v

/-- The SM or PM bytes: TTI, the BIP-8 of the frame, and byte 3 with its last three bits `st` (R149, R150). The BIP-8 lies
over bytes that the model does not hold and is a free value (notes/assumptions/87.md). -/
def monBytes (tti bei : Nat) (bdi : Bool) (st : Nat) (s : State) : List Byte × State :=
  let (x, s) := s.free
  ([ohByte tti, ohByte x, ohByte (16 * bei + 8 * ofB bdi + st)], s)

/-- The frame of slice `i` that is sent at MFAS `m`: row 1 with the OTUC overhead, rows 2 to 4 with the ODUC overhead, the
GMP justification control, and the PSI byte (R149). The justification control follows the rate of the client's clock and is a
free value (notes/assumptions/97.md). -/
def otucSlice (n i m smTti pmTti gcc : Nat) (s : State) : State :=
  let ca := s.hn (.caEff n)
  let (sm, s) := monBytes smTti (beiTx s n 0 i) (bit ca 4) 0 s
  let (pm, s) := monBytes pmTti (beiTx s n 1 i) (bit ca 5) 1 s
  let z := fun k => List.replicate k (0 : Byte)
  let row1 := [ohByte 0xF6, ohByte 0xF6, ohByte 0xF6, ohByte 0x28, ohByte 0x28, ohByte 0x28, ohByte m] ++ sm ++
    beBytes 2 (if i = 0 then gcc else 0) ++ z 2
  let psi := if m = 0 then ohByte (s.rfld (Reg.OTN.PT (otnG n) (otnL n)) 16 8) else Config.psiC (otnSlices s n) i m
  let (x, s) := s.free
  s.emit (.otn n (.otuc i (row1 ++ z 14 ++ z 9 ++ pm ++ z 2 ++ z 14) (beBytes 6 (x % 2 ^ 48)) psi))

/-- One frame of every slice is sent, with equal MFAS, which counts from 0 to 255 (R149, R151). -/
def otucTx (n : Nat) (s : State) : State :=
  let m := s.hn (.txMfas n)
  let (a, s) := ttiTake n 0 m s
  let (b, s) := ttiTake n 1 m s
  let (gcc, s) := gccTx n false s
  (forEach (List.range (otnSlices s n)) s fun i s => otucSlice n i m a b gcc s).setH (.txMfas n) ((m + 1) % 256 : Nat)

/-- An ODUflex frame is sent: rows 2 to 4 of its overhead, its PSI byte, and what replaces its payload (R149, R161).
`TX_FORCE` as it stands takes effect; with 2 or 3 the PSI byte, which lies beside the payload in the OPU, is 0x55 too and the other
bytes sent as 0x00 stay so (notes/assumptions/97.md). -/
def oduflexTx (n : Nat) (s : State) : State :=
  let force := fld (otnCfg s n) 30 2
  let s := s.setH (.txForce n) (force : Nat)
  let m := s.hn (.txMfasF n)
  let (tti, s) := ttiTake n 2 m s
  let (gcc, s) := gccTx n true s
  let st := match force with
    | 0 => 1
    | 1 => 7
    | 2 => 6
    | _ => 5
  let (pm, s) := monBytes tti (beiTx s n 2 0) (bit (s.hn (.caEff n)) 6) st s
  let x := fun k => List.replicate k (if force = 1 then ohByte 255 else 0)
  let z := fun k => List.replicate k (0 : Byte)
  let row2 := x 4 ++ z 9 ++ x 1
  let row3 := z 9 ++ pm ++ x 2
  let row4 := beBytes 4 gcc ++ x 10
  let fill := if force = 0 then none else some (if force = 1 then ohByte 255 else ohByte 0x55)
  let psi := fill.getD (if m = 0 then ohByte (s.rfld (Reg.OTN.PT (otnG n) (otnL n)) 0 8) else 0)
  (s.emit (.otn n (.oduflex m (row2 ++ row3 ++ row4) psi fill))).setH (.txMfasF n) ((m + 1) % 256 : Nat)

/-- The FlexO overhead of every instance is sent: group ID, instance number and RDI (R157, R168). -/
def flexoTx (n : Nat) (s : State) : State :=
  forEach (List.range (otnSlices s n)) s fun i s =>
    s.emit (.otn n (.flexo i (s.reg (Reg.OTN.GID_TX (otnG n) (otnL n))) (bit (s.hn (.caEff n)) 3)))

/-- What port `n` sends through `f`; in FAR_PMA the line carries the loop only (R131). -/
def otnSend (n : Nat) (f : State → State) (s : State) : State := if loopback s n = 2 then s else f s

/-- A frame boundary of frame `e`: its consequent actions start and end, changes of CFG take effect, and a transmitted frame
is sent (R149, R158, R169). -/
def caBoundary (n : Nat) (e : OtnFrame) (s : State) : State :=
  match e with
  | .rxOduc => caStart n e (latchC n s)
  | .rxOduflex => caStart n e (latchF n s)
  | .txFlexo => otnSend n (flexoTx n) (caStart n e s)
  | .txOtuc => otnSend n (otucTx n) (caStart n e s)
  | .txOduflex => otnSend n (oduflexTx n) (caStart n e s)

/-- CONSEQUENT_ACTION_BOUNDARY (R158). -/
def execConsequentActionBoundary (n : Fin 128) (e : OtnFrame) (s : State) : Host.Outcome State Fault Refusal :=
  done (s.when (otnRuns s n) (caBoundary n e))

/-- TX_FORCE_APPLY (R161): at a boundary of the transmitted ODUflex. -/
def execTxForceApply (n : Fin 128) (s : State) : Host.Outcome State Fault Refusal :=
  done (s.when (otnRuns s n) (caBoundary n .txOduflex))

end Sys2Proof.Machine
end

