-- ==== Sys2Proof/Machine/Block.lean ====
section
/-!
DEFINITION. What enabling, disabling and resetting a block does beyond its registers (R43, R45, spec/01_architecture.md): the
frames it holds, its working state, and the functions that start and stop with it.
-/
namespace Sys2Proof.Machine

/-! ### What a block holds -/

/-- Whether a frame has a cell in the staging, the deep store or the return buffers of its queue. -/
def spilled (f : Frame) : Bool := f.cells.any fun c => !c.inHead

/-- Whether the block of page `p` holds frame `f` (R45). -/
def pageHolds (p : Nat) (f : Frame) : Bool :=
  match pageOf p, f.loc with
  | some (.LPORT, n), .rx m | some (.LPORT, n), .launch m | some (.LPORT, n), .mac m => n == m
  | some (.LG, g), .entry h => g == h
  | some (.IPIPE, g), .rentry h => g == h
  | some (.EPIPE, g), .epipe h | some (.EPIPE, g), .recirc h => g == h
  | some (.BRIDGE, _), .toQ _ => f.passes != 0 || (!f.remote && f.ring == 0)
  | some (.BRIDGE, _), .toHost => true
  | some (.QMGR, _), .toQ _ | some (.QMGR, _), .carried _ | some (.QMGR, _), .queued _ | some (.QMGR, _), .fabricTx => true
  | some (.CELL, _), .queued _ | some (.CELL, _), .host _ | some (.CELL, _), .hostWait _ => true
  | some (.SPILL, _), .queued _ => spilled f
  | some (.FAB, _), .fabricRx => true
  | some (.HOST, _), .host _ | some (.HOST, _), .hostWait _ => true
  | _, _ => false

/-- A held frame is discarded whole; its queue is evaluated again. -/
def dropHeld (f : Frame) (s : State) : State :=
  match f.loc with
  | .queued q => queueLeft q (s.drop f)
  | _ => s.drop f

/-- The frames that the block of page `p` holds are discarded whole (R43, R45). -/
def dropPage (p : Nat) (s : State) : State := forEach (s.frames.filter (pageHolds p)) s dropHeld

/-- The frame under reception at port `n` ends: it is discarded at the MAC, or, handed on, marked bad (R45, R117). -/
def rxStop (n : Nat) (s : State) : State :=
  let on := s.hn (.rxOn n)
  if on = 0 then s else
  let s := s.setH (.rxOn n) 0
  match s.frame (on - 1) with
  | some f => if f.loc = .rx n then s.drop f else s.putFrame { f with bad := true, full := true, recv := none }
  | none => s

/-- A change to the links `ls` that can alter the spray sets (R365, R408). -/
def withReachAll (ls : List Nat) (f : State → State) (s : State) : State :=
  let had := ((ls.flatMap (reachDevs s)).eraseDups).filter fun d => d != devId s && reachable s d
  let t := f s
  let t := forEach had t fun d t => if reachable t d then t else raise fabPage 3 t
  reachGained s t

/-- The links of FG[k]. -/
def fgLinks (k : Nat) : List Nat := (List.range 32).map (32 * k + ·)

/-- The frames of the host's inject rings that are not yet in a queue are given up, and no punt frame is in transfer. -/
def hostStop (s : State) : State :=
  let s := forEach (List.range 64) (abandonReads (stopRequests s)) fun r s => s.setH (.puntPart r) 0
  forEach (List.range 16) s injFlush

/-- The function of the block of page `p` stops (R43, R45): what it holds is discarded. -/
def stopBlock (p : Nat) (s : State) : State :=
  match pageOf p with
  | some (.LPORT, n) => dropPage p (rxStop n s)
  | some (.FAB, _) => cellsDrop (dropPage p s)
  | some (.FG, k) => forEach (fgLinks k) (dropPage p s) fun l s => txLost l 0 (reachClear l s)
  | some (.DSC, c) => dscDisable c s
  | some (.CAPO, _) => (capoDisarm s).setH .sweepDone 0
  | some (.L2, _) => forEach (List.range 8) (dropPage p s) fun g s => s.setH (.scanAt g) 0
  | some (.TIME, _) => timeStop s
  | some (.HOST, _) => dropPage p (hostStop s)
  | some (.CELL, _) =>
    let s := forEach s.injects s fun j s => forEach j.cells s fun c s => agentFree 0 c (ownerOf (dscQueue j.sop)) s
    { forEach (List.range 64) (dropPage p s) fun r s => s.setH (.puntPart r) 0 with
      injects := s.injects.map fun j => { j with cells := [] } }
  | some (.SHAPE, _) => fretClear s
  | some (.SPILL, _) => writesStop (dropPage p s)
  | _ => dropPage p s

/-! ### Working state (R43) -/

/-- Whether key `k` belongs to a constructor of `hs`. -/
def hidAny (hs : List Hid) (k : Nat) : Bool := hs.any fun h => k / 2 ^ 96 == h.code / 2 ^ 96

/-- The last index of a hidden number, and the one before it. -/
def hidLast (k : Nat) : Nat := k % 2 ^ 32
def hidMid (k : Nat) : Nat := k / 2 ^ 32 % 2 ^ 32

/-- Hidden numbers of one page: marks of its header and table window. -/
def pageHid (p k : Nat) : Bool :=
  (hidAny [.evtUnread 0, .perfBase 0, .cycBase 0] k && hidLast k == p) || (hidAny [.tblOp 0 0] k && hidMid k == p)

/-- Hidden numbers that are working state of instance `i` of a block. -/
def workHid (kind : PageKind) (i k : Nat) : Bool :=
  let all := fun hs => hidAny hs k
  let one := fun hs => hidAny hs k && hidLast k == i
  let two := fun hs => hidAny hs k && hidMid k == i
  match kind with
  | .TIME => all [.tbRate, .trkRate 0, .rateHeld 0, .refMiss 0, .ppsLast 0, .ppsFast 0 0, .ppsOut 0, .todSeen, .winIn 0, .winNext 0,
      .ppsNext 0, .ppsRise 0, .ppsSince 0, .todDue, .todSince, .refSince 0, .freqCnt, .freqSince, .winAt 0]
  | .INTC => all [.holdRun 0 0, .holdAt 0 0, .presented 0, .msiSent 0, .intcUnread 0]
  | .PAIR => all [.hoTo, .hoFrom, .hoFirst, .fabricUntil, .autoLoad 0, .wdtAt 0, .coreSvn 0, .coreKey 0, .coreEntry 0, .coreTake 0, .coreStart 0] || (all [.loadDue 0] && 7 ≤ hidLast k)
  | .SEC => all [.eloPeer, .eloSeq, .eloAt, .stopAt] 
  | .HOST => all [.injAbort 0, .injTurn, .puntPart 0]
  | .SNAP => all [.snapOpen, .snapAt, .foldQueued 0, .fsAt 0]
  | .CAPO => all [.sweepDone]
  | .PFE => all [.pfeFree]
  | .LPORT => one [.rxOn 0, .rxLen 0, .rxMtu 0, .rxCtl 0, .fcSet 0, .deskew 0, .bwRx 0, .bwTx 0, .bwStart 0, .txTs 0, .txFree 0, .rxTs 0,
      .upAt 0, .txRf 0, .fcPend 0, .fcAt 0, .fecAt 0] ||
      two [.paused 0 0]
  | .LG => one [.mapBusy 0]
  | .IPIPE => one [.spanCnt 0, .spanRec 0]
  | .OTN => (hidAny [.fxLock 0, .msiBad 0, .caEff 0, .txForce 0, .otnCfgC 0, .otnCfgF 0, .tcmHeld 0, .degAt 0, .txMfas 0, .txMfasF 0] k &&
        hidLast k / 16 == i) ||
      (hidAny [.fxPos 0 0, .rxBip 0 0, .perSince 0 0, .slMfas 0 0, .slPos 0 0, .fasBad 0 0, .mfasRun 0 0, .detRun 0 0, .ttiRep 0 0, .errBlocks 0 0, .degRun 0 0, .ptSeen 0 0, .statSeen 0 0] k &&
        hidMid k / 16 == i)
  | .OHP => one [.ohpCentre 0, .ohpNext 0, .ohpEdge 0, .clkMeas 0] || two [.ohpBuf 0 0, .ohpLast 0 0]
  | .L2 => all [.ageNow, .moveNow, .ageAt, .moveAt, .scanAt 0]
  | .QMGR => all [.cb 0, .inReq 0, .voqPtr 0 0, .statusAt 0]
  | .SCHED => all [.flowPtr 0, .pacer 0, .pacerAt 0, .ptr 0 0 0, .portPtr, .dwrr 0 0]
  | .CELL => all [.gq 0, .sq 0, .sweepAt]
  | .SPILL => all [.qstate 0]
  | .BPM => all [.cursorD, .poolTurn 0]
  | .FG => hidAny [.kaTx 0, .reachTx 0, .reachSeg 0, .kaRx 0, .kaGood 0, .kaLost 0, .degOn 0, .degClean 0, .rdiRun 0, .peerAt 0, .lnkDisc 0, .degAtL 0] k &&
      hidLast k / 32 == i
  | .FAB => all [.txSeq 0, .rsSync 0, .rsE 0, .rsLast 0, .rsSkip 0, .rsBusy 0, .lastLink 0, .reachAt 0]
  | .DSC => two [.openRow 0 0, .openIdle 0 0, .refDebt 0 0, .refHalf 0 0, .refPoll 0 0, .refAt 0 0, .zqAt 0 0, .dqsAt 0 0, .devCe 0 0, .raa 0 0] ||
      one [.patBlk 0, .patAt 0, .rhAt 0, .tempAt 0, .rfmThr 0, .runWrite 0, .runLen 0, .arbCls 0, .arbLeft 0] ||
      (hidAny [.thr 0 0, .thrLast 0 0] k && hidMid k / 64 == i)
  | .BRIDGE => all [.laneErr 0, .laneMark 0, .laneWin, .folAt]
  | _ => false

/-- The lists of working state that a block keeps: learn queues and notifications, the interrupt stacks, frame hunts, credit
flows and messages, pool owners, the store in progress. -/
def clearLists (kind : PageKind) (i : Nat) (s : State) : State :=
  match kind with
  | .L2 => { s with learnQ := [], notify := [], reports := [] }
  | .INTC => { s with intStacks := [] }
  | .OTN => { s with cands := s.cands.filter fun c => c.port / 16 != i }
  | .QMGR => { s with flows := [], credQ := [] }
  | .BPM => { s with bufs := [] }
  | .LPM => { s with lpmQ := [] }
  | .SPILL => { s with pageWrites := [], pageReads := [] }
  | .PEG => { s with pegJobs := [] }
  | .SEC => { s with flashQ := s.flashQ.filter fun op => match op with
      | .core _ => true
      | .engine .. | .check .. | .elo .. => false }
  | _ => s

/-- The working state of the block of page `p` is cleared (R43). -/
def clearWork (p : Nat) (s : State) : State :=
  match pageOf p with
  | some (kind, i) =>
    clearLists kind i { s with hid := s.hid.filter fun e => !(pageHid p e.1 || workHid kind i e.1) }
  | none => s

/-! ### Soft reset (R43) -/

/-- Registers of page `p` that a soft reset leaves: locked registers, `ERR_CNT`, the shadows of the snapshot, what reports the
tables' kept contents, what measures the package or the domains, and the registers that R616 and R538 name. -/
def softKept (a : Nat) : Bool :=
  let b := a / 2 ^ 32
  let a := a % 2 ^ 32
  b == 32 || b == 33 || b == 60 || a % 0x10000 == 0x48 ||
    (match lookupReg a with
      | some f => f.row.acc == .rwl
      | none => false) ||
    [Reg.LPM.UNITS_USED, Reg.LPM.ROUTES_V4, Reg.LPM.ROUTES_V6, Reg.EM.MPLS_ENT, Reg.EM.IFT_ENT, Reg.EM.MPLS_OVF, Reg.EM.IFT_OVF].contains a ||
    (Reg.L2.ENT_CNT 0 ≤ a && a < Reg.L2.ENT_CNT 16) || (Reg.GLB.DOM_STS 0 ≤ a && a < Reg.GLB.DOM_STS 37) ||
    (Reg.SEC.MR 0 ≤ a && a < Reg.SEC.MR 9) ||
    [Reg.SEC.KEY_STS, Reg.GLB.RST_CAUSE, Reg.GLB.PLL_STS, Reg.BRIDGE.CAP_FQ, Reg.BRIDGE.CAP_QF].contains a ||
    (Reg.BRIDGE.BND_DOWN_FQ 0 ≤ a && a < Reg.BRIDGE.CAP_FQ)

/-- What starts again with a soft reset of page `p` (R43, R410, R482). -/
def restart (p : Nat) (s : State) : State :=
  match pageOf p with
  | some (.SHAPE, _) => shapeRestart s
  | some (.POL, _) => polRestart s
  | some (.PFE, _) => pfeRearm s
  | some (.SCHED, _) =>
    forEach ([1, 2, 3, 4, 5].flatMap fun k => (s.tabList schedPage k).map fun e => (if k = 1 then 0 else if k = 2 then 131072 else if k = 3 then 163840 else if k = 4 then 180224 else 184320) + e.1) s
      fun i s => forEach [0, 1, 2] s fun x s => s.setH (.dwrr x i) ((quantum s i : Int) - 64)
  | some (.L2, _) => l2Rebase s
  | some (.FAB, _) => s.setH .quietAt (s.root : Nat)
  | some (.CELL, _) => ageRaise s
  | some (.FAULT, _) | some (.DSC, _) => coverUpdate s
  | some (.INTC, _) => intcUpdate s
  | some (.SNAP, _) => clearMarks s
  | some (.PAIR, _) => mirrorSts s
  | some (.SEC, _) =>
    s.when (s.h .booted == 1) fun s => (s.setReg Reg.SEC.RUN_SLOT (s.hn .startSlot)).setReg Reg.SEC.ELO_CFG (bootOpt s 6 % 4)
  | some (.PEG, _) => s.when (s.h .booted == 1) fun s => forEach (List.range 64) s pegStatus
  | _ => s

/-- Ports of LG[g] leave service when its lane map returns to its reset value. -/
def lgStop (g : Nat) (s : State) : State :=
  forEach (List.range 16) s fun l s => if mapped s (16 * g + l) then setLink (16 * g + l) 0 s else s

/-- The effects of a soft reset that need the registers as they stood. -/
def beforeReset (p : Nat) (s : State) : State :=
  match pageOf p with
  | some (.LG, g) => lgStop g s
  | _ => s

/-- Both window schedules of every port lose their windows (R649): the shadow table and the tables of the schedules in force
and committed. -/
def State.clearSchedules (s : State) : State :=
  { s with tabs := s.tabs.filter fun e => !(1 ≤ e.1 / 2 ^ 32 - timePage * 256 && e.1 / 2 ^ 32 - timePage * 256 ≤ 3) }

/-- A soft reset of page `p` (R43): every register but those that stay, and the working state; `SRST` reads 1 until it is
done. -/
def softReset (p : Nat) (s : State) : State :=
  let ctl := s.reg (Reg.BLK_CTL p)
  let reset := fun (s : State) =>
    let s := perfSync p s
    let s := forEach ((listedCounters s).filter fun a => a / 0x10000 == p) s snapTouch
    let s := clearWork p (stopBlock p (beforeReset p s))
    let s := { s with regs := s.regs.filter fun e => e.1 % 2 ^ 32 / 0x10000 != p || softKept e.1 }
    let s := (s.setReg (Reg.BLK_CTL p) (ctl &&& 5 ||| 2)).setH (.cycBase p) (s.root : Nat)
    restart p (if p = timePage then s.clearSchedules else s)
  match pageOf p with
  | some (.FG, k) => withReachAll (fgLinks k) reset s
  | some (.LPORT, _) | some (.LG, _) => lockChange reset s
  | _ => reset s

/-! ### Enabling and disabling (R45) -/

/-- `EN` := 1 on page `p`. -/
def enable (p : Nat) (s : State) : State :=
  if s.rbit (Reg.BLK_CTL p) 0 then s else
  let on := fun (s : State) => (perfSync p s).setRbit (Reg.BLK_CTL p) 0 true
  match pageOf p with
  | some (.SHAPE, _) => shapeRestart (on s)
  | some (.PFE, _) => pfeRearm (on s)
  | some (.TIME, _) => timeStart (on s)
  | some (.L2, _) => l2Rebase (on s)
  | some (.DSC, c) => bringupStart c (perfSync p s)
  | some (.FG, k) => withReachAll (fgLinks k) on s
  | some (.INTC, _) => intcUpdate (on s)
  | _ => on s

/-- `EN` := 0 on page `p`: the frames that its block holds are discarded whole. -/
def disable (p : Nat) (s : State) : State :=
  if !s.rbit (Reg.BLK_CTL p) 0 then s else
  let off := fun (s : State) => (stopBlock p (perfSync p s)).setRbit (Reg.BLK_CTL p) 0 false
  match pageOf p with
  | some (.DSC, c) => dscDisable c ((perfSync p s).setRbit (Reg.BLK_CTL p) 0 false)
  | some (.FG, k) => withReachAll (fgLinks k) off s
  | some (.INTC, _) => intcUpdate (off s)
  | _ => off s

end Sys2Proof.Machine
end

