-- ==== Sys2Proof/Machine/Firmware.lean ====
section
/-!
DEFINITION. Firmware, trust and the Pegbox (spec/14_firmware_trust.md): the start (R540 to R542), engine reloads and slot
checks (R545, R546), key revocation and anti-rollback (R538, R539), Eloatal (R547 to R550), SPDM (R553), Pegbox stores (R556,
R557).
-/
namespace Sys2Proof.Machine

/-! ### The start (R540 to R542) -/

/-- The AON pages (R36). -/
def aonPages : List Nat := [0, 2, 3, 4, 7]

/-- The slot that BOOT_SLOT names (R540). -/
def chosenSlot (s : State) : Nat :=
  match bootOpt s 0 with
  | 0 => 0
  | 1 => 1
  | _ =>
    match tableOk s 0, tableOk s 1 with
    | true, true => if slotSeq s 0 < slotSeq s 1 then 1 else 0
    | false, true => 1
    | _, _ => 0

/-- The image of engine `i` of a slot enters the cache (R541). -/
def cacheImage (slot i : Nat) (s : State) : State :=
  match imageAt s slot (0x10 + i) with
  | none => s
  | some off =>
    let h := imageHeader s slot off
    (s.wrMem .cache (cacheBase i) (slotBytes s slot off (512 + payloadLen h))).setH (.cacheVer i) (beAt h 18 2 + 1 : Nat)

/-- Every image already loaded is discarded (R540). -/
def cacheClear (s : State) : State :=
  forEach (List.range 7) (s.eraseMem .cache 0 (2 ^ 20)) fun i s => s.setH (.cacheVer i) 0

/-- Area `a` is read and resolved (R555, R559): copies found invalid are counted; with neither valid, the area is empty. -/
def pegCheck (a : Nat) (s : State) : State :=
  let n := 2 - pegCopies s a
  let s := pegStatus a (bumpBy Reg.PEG.CRC_FAILS n s)
  if n = 2 then raise pegPage 2 s else s

/-- The boot core reads and resolves the Pegbox areas (R541 step 2, R555). -/
def readPegbox (s : State) : State :=
  let s := forEach (List.range 64) s pegCheck
  let s := s.setReg Reg.SEC.ELO_CFG (bootOpt s 6 % 4)
  let ids := fun i => bootOpt s i + 256 * bootOpt s (i + 1)
  (s.setH .subsystem (ids 4 * 65536 + ids 2 : Nat)).setH .iso (bootOpt s 1 % 2)

/-- Step 4 of a start (R541): the engine images of a slot, each checked, cached and measured, until one is refused. -/
def startEngines (slot : Nat) : List Nat → State → Option (Nat × Nat) × State
  | [], s => (none, s)
  | i :: is, s =>
    match checkImage s slot (0x10 + i) none with
    | 0 => startEngines slot is
        (mrImage (if i = 6 then 5 else 4) slot ((imageAt s slot (0x10 + i)).getD 0) (cacheImage slot i s))
    | c => (some (0x10 + i, c), s)

/-- A start from a slot (R541 steps 4 and 5): its engine images, then its CONTROL image, from which both cores are to be loaded;
or the first image refused, with every image already loaded discarded (R540). -/
def startFrom (slot : Nat) (s : State) : Bool × State :=
  let fail := fun (t c : Nat) (s : State) => (false, cacheClear (loadErr slot t c s))
  match startEngines slot (List.range 7) s with
  | (some (t, c), s) => fail t c s
  | (none, s) =>
    match checkImage s slot 0x01 none with
    | 0 =>
      let s := ((s.setReg Reg.SEC.RUN_SLOT slot).setH .startSlot slot).setH (.coreSlot 0) slot
      (true, s.setH (.coreSlot 1) slot)
    | c => fail 0x01 c s

/-- A processor's load is requested if its image can come from a slot: not in recovery (R459, R542). After step 6 of the start,
it is measured as a later load (R551). -/
def askLoad (k : Nat) (s : State) : State :=
  if inRecovery s || s.h .booted == 0 then s
  else
    let s := s.setH (.loadDue k) (if s.h .step6 = 0 then 1 else if k < 7 then 2 else 3)
    if k < 7 then s else flashAsk (.core (k - 7)) s

/-- The slot chosen, then the other one; with neither valid, recovery (R540, R542). -/
def bootSlots (s : State) : State :=
  let first := chosenSlot s
  match startFrom first s with
  | (true, s) => s
  | (false, s) =>
    let s := raise secPage 1 (s.setReg Reg.SEC.BOOT_STS (2 ^ 29))
    match startFrom (1 - first) s with
    | (true, s) => s
    | (false, s) =>
      let s := (s.setReg Reg.SEC.BOOT_STS (2 ^ 30 + 2 ^ 29)).setHb .recovery true
      raise secPage 0 (s.setH .lifeRec (s.h .lifeRec + 1))

/-- The power domain of processor `k` (R20): 0 for the SerDes firmware, which runs in many. -/
def procDomain (k : Nat) : Nat := if k = 6 then 0 else if k = 3 ∨ k = 4 ∨ 7 ≤ k then 2 else 27

/-- The boot core starts (R541). -/
def bootStart (flashOk : Bool) (s : State) : State :=
  let s := (s.setH .booted 1).setHb .flashBad !flashOk
  let s := forEach aonPages s fun p s => s.setRbit (Reg.BLK_CTL p) 0 true
  let s := readPegbox (mrConfig 1 [] s)
  let vals := pegData s 0 ++ [BitVec.ofNat 8 (s.reg Reg.SEC.KEY_STS)] ++ pegData s 3
  let s := (mrConfig 7 lindun (mrConfig 2 vals s)).setHb .lifeDue true
  let s := bootSlots s
  forEach (List.range 9) s fun k s =>
    let d := procDomain k
    if d ≠ 0 ∧ s.domOn d then askLoad k s else s

/-- BOOT_START (R541): 10 µs after a device reset at the earliest (R616), the boot core starts; `flashOk` tells whether the flash device has the features of R532. -/
def execBootStart (flashOk : Bool) (s : State) : Host.Outcome State Fault Refusal :=
  done (s.when (s.h .booted == 0 && s.pllOk && s.h .rstHold == 0) fun s =>
    bootStart flashOk (waitRoot (s.hn .resetAt + cycUs 10) s))

/-! ### Eloatal's service (R547 to R550) -/

/-- The device's service: the boot core has started. -/
def eloRuns (s : State) : Bool := s.h .booted == 1

/-- A response: header and payload (R547). -/
def eloResp (typ seq status : Nat) (pay : List Byte) : List Byte :=
  beBytes 1 1 ++ beBytes 1 typ ++ beBytes 2 seq ++ beBytes 2 pay.length ++ beBytes 1 status ++ [0] ++ pay

/-- The service MAC address (R547). -/
def serviceMac : Nat := 0x02 * 2 ^ 40 + Config.dieId.toNat % 2 ^ 40

/-- A frame leaves the service port for `h`'s sender (R547). -/
def eloSend (h : EloHdr) (bs : List Byte) (s : State) : State :=
  s.emit (.elo (beBytes 6 h.mac.toNat ++ beBytes 6 serviceMac ++ beBytes 2 0x88B5 ++ bs))

/-- Whether the 9128 accepts the frame of a request of type `typ` (R547): Ethertype 0x88B5, addressed to the service MAC, or a HELLO
to the broadcast address. -/
def eloFor (h : EloHdr) (typ : Nat) : Bool :=
  h.etype == 0x88B5 && (h.dst.toNat == serviceMac || (typ == 1 && h.typ.isNone && h.dst == 0xFFFFFFFFFFFF))

/-- A request with a wrong VER or LEN, or an unknown TYPE (R548); `len` is the length of its payload. -/
def eloMalformed (h : EloHdr) (len : Nat) : Bool := h.ver != 1 || h.typ.isSome || h.len.toNat != len || decide (1100 < len)

/-- The response to an executed request is sent and kept for a repeat of its SEQ (R548). -/
def eloAnswer (h : EloHdr) (typ status : Nat) (pay : List Byte) (s : State) : State :=
  let bs := eloResp (typ + 0x80) h.seq.toNat status pay
  let s := { bump Reg.SEC.ELO_RX s with eloLast := bs }
  eloSend h bs ((s.setH .eloSeq (h.seq.toNat + 1 : Nat)).setH .eloAt (s.root : Nat))

/-- The locked peer's MAC. -/
def eloMac (s : State) : Nat := s.reg Reg.SEC.ELO_PEER_HI * 2 ^ 32 + s.reg Reg.SEC.ELO_PEER_LO

/-- A malformed request (R548). -/
def eloBad (h : EloHdr) (s : State) : State :=
  eloSend h (eloResp 0xFF h.seq.toNat 1 []) (bump Reg.SEC.ELO_BAD s)

/-- Whether a request waits for its answer, and whether one with this SEQ does. -/
def eloWaits (s : State) : Bool := s.flashQ.any fun op => match op with
  | .elo .. => true
  | _ => false
def eloOpen (s : State) (seq : BitVec 16) : Bool := s.flashQ.any fun op => match op with
  | .elo h _ => h.seq == seq
  | _ => false

/-- Whether Eloatal permits a write (bit 0) or a reset (bit 1) (R550). -/
def eloPermit (s : State) (b : Nat) : Bool := inRecovery s || s.rbit Reg.SEC.ELO_CFG b

/-- The 16 bytes of SLOT_INFO for an image (R549). -/
def imageInfo (s : State) (slot : Nat) (x : Nat × Nat) : List Byte :=
  let h := imageHeader s slot x.2
  beBytes 1 x.1 ++ beBytes 1 (checkHeader s slot x.2 x.1 none) ++ beBytes 1 (byteAt h 15) ++ beBytes 1 (byteAt h 14) ++
    (h.drop 16).take 4 ++ beBytes 4 (payloadLen h) ++ beBytes 2 (beAt h 36 2) ++ beBytes 2 (beAt h 38 2)

/-- The payload of a SLOT_INFO response. -/
def slotInfo (s : State) (slot : Nat) : List Byte :=
  if tableOk s slot then
    beBytes 4 (slotSeq s slot) ++ [1] ++ beBytes 1 (slotImages s slot).length ++ (slotImages s slot).flatMap (imageInfo s slot)
  else List.replicate 6 0

/-- Programming can only clear bits of a NOR flash (R532). PRESUMED (notes/assumptions/14.md). -/
def programmed (old new : List Byte) : List Byte := List.zipWith (· &&& ·) old new

/-- What area `a` will hold once the stores that run and wait have ended. -/
def pegLatest (s : State) (a : Nat) : List Byte :=
  match s.pegJobs.reverse.find? fun j => j.area == a with
  | some j => j.data
  | none => pegData s a

/-- The boot core stores area `a`, after the stores that run and wait (R539, R556, R557). -/
def pegAsk (a : Nat) (data : List Byte) (s : State) : State :=
  { s with pegJobs := s.pegJobs ++ [{ r := 5, area := a, fmt := 0, data := data }] }

/-- SET_BOOT stores the boot slot option (R549, R550, R551); the other options keep what they are. -/
def setBoot (v : Nat) (s : State) : Nat × List Byte × State :=
  if (v = 2 ∧ !slotValid s 0 ∧ !slotValid s 1) ∨ (v < 2 ∧ !slotValid s v) then (7, [], s)
  else
    let d := pegLatest s 0
    (0, [], pegAsk 0 (overwrite (d ++ List.replicate (7 - d.length) 0) 0 [BitVec.ofNat 8 v]) s)

/-! ### Flash operations (R543, R549, R550) -/

/-- What an ERASE or WRITE of a slot is refused with whenever it is to be served (R546, R550). -/
def slotDenied (s : State) (slot : Nat) : Nat :=
  if 2 ≤ slot then 1
  else if !inRecovery s && (slot == s.reg Reg.SEC.RUN_SLOT || !eloPermit s 0) then 3 else 0

/-- TYPE of a request (R549). -/
def EloMsg.no : EloMsg → Nat
  | .slotInfo _ => 2 | .erase _ => 3 | .write .. => 4 | .read .. => 5 | .setBoot _ => 6

/-- Whether a load from a slot is queued or in progress (R550). -/
def slotLoading (s : State) (slot : Nat) : Bool := s.flashQ.any fun op => match op with
  | .core x => flashDue s op && s.hn (.coreSlot x) == slot
  | .engine _ n => n == slot
  | _ => false

/-- What a request that uses the flash is refused with as it arrives (R550), 0 if it is not. -/
def eloRefused (m : EloMsg) (s : State) : Nat :=
  match m with
  | .slotInfo slot => if 2 ≤ slot then 1 else 0
  | .erase slot => if slotDenied s slot ≠ 0 then slotDenied s slot else if slotLoading s slot then 8 else 0
  | .write slot off data =>
    if slotDenied s slot = 1 ∨ off % 4 ≠ 0 ∨ data.length % 4 ≠ 0 ∨ data.length < 4 ∨ 1024 < data.length then 1
    else if slotDenied s slot ≠ 0 then slotDenied s slot
    else if slotLoading s slot then 8
    else if 2 ^ 24 < off + data.length then 4 else 0
  | .read slot off n => if 2 ≤ slot ∨ n = 0 ∨ 1024 < n then 1 else if 2 ^ 24 < off + n then 4 else 0
  | .setBoot v => if 2 < v then 1 else 0

/-- A request is served (R549, R550): status, payload and state. An ERASE that is not refused ends later. -/
def eloServes (m : EloMsg) (s : State) : Nat × List Byte × State :=
  match m with
  | .slotInfo slot => (0, slotInfo s slot, s)
  | .erase slot => (slotDenied s slot, [], s)
  | .write slot off data =>
    if slotDenied s slot ≠ 0 then (slotDenied s slot, [], s) else
    let now := programmed (slotBytes s slot off data.length) data
    (if now = data then 0 else 5, [], s.wrMem .flash (slot * 2 ^ 24 + off) now)
  | .read slot off n => (0, slotBytes s slot off n, s)
  | .setBoot v => setBoot v s

/-- The flash operation in progress begins (R543): an Eloatal request is executed and answered at once, but for an ERASE, which
ends later; an accepted image of an engine's reload sets the instant at which the engine stops, a free value within the
2 ms of the reload (R545). -/
def flashNext : Nat → State → State
  | 0, s => s
  | n + 1, s =>
    match flashHead s with
    | some (.elo h m) =>
      match m, eloServes m s with
      | .erase _, (0, _, _) => s
      | _, (st, pay, t) => flashNext n (eloAnswer h m.no st pay (flashEnd t))
    | some (.engine i slot) =>
      if s.h .stopAt = 0 ∧ checkImage s slot (0x10 + i) none = 0 then
        let (v, s) := s.free
        s.setH .stopAt (s.root + v % (cycUs 2000 - cycUs 500) + 1 : Nat)
      else s
    | _ => s

/-- The boot core goes on with the flash operations. -/
def flashGo (s : State) : State := flashNext (s.flashQ.length + 1) s

/-- PROCESSOR_LOAD (R459): processor 0 to 5 a micro-engine, 6 the SerDes firmware, 7 CC_A, 8 CC_B. -/
def execProcessorLoad (k : Fin 9) (s : State) : Host.Outcome State Fault Refusal :=
  done (s.when (loadReady s k) fun s => if k.val < 7 then engineLoad k s else flashGo (coreLoad (k - 7) s))

/-! ### Orders of the control firmware (R538, R539, R545, R546, R558) -/

/-- SVNs of the running images of a type, each plus 1, 0 for an image that does not run. -/
def runningSvn (s : State) (typ : Nat) : List Nat :=
  if typ = 0x01 then [s.hn (.coreSvn 0), s.hn (.coreSvn 1)] else [s.hn (.engSvn (typ - 0x10))]

/-- Keys of the running images, each plus 1. -/
def runningKeys (s : State) : List Nat :=
  [s.hn (.coreKey 0), s.hn (.coreKey 1)] ++ (List.range 7).map fun i => s.hn (.engKey i)

/-- A write of `KEY_REVOKE` (R538). -/
def keyRevoke (r : Req) (v : Nat) (s : State) : State :=
  let k := v % 16
  let all := s.reg Reg.SEC.KEY_STS ||| k
  if !ordersOk s r ∨ all = 15 ∨ (runningKeys s).any fun x => x != 0 && bit k (x - 1) then
    errReq secPage 0x13 r Reg.SEC.KEY_REVOKE v s
  else mrConfig 6 [BitVec.ofNat 8 all] (s.setReg Reg.SEC.KEY_STS all)

/-- KEY_REVOKE (R538). -/
def execKeyRevoke (r : Req) (v : W32) (s : State) : Host.Outcome State Fault Refusal :=
  done (gateWrite r Reg.SEC.KEY_REVOKE (keyRevoke r v.toNat) s)

/-- A write of `SVN_COMMIT` (R539). -/
def svnCommit (r : Req) (v : Nat) (s : State) : State :=
  let t := v % 256
  if !ordersOk s r ∨ !imageTypes.contains t then errReq secPage 0x12 r Reg.SEC.SVN_COMMIT v s
  else
    let run := (runningSvn s t).filter (· != 0)
    let low := match run with
      | [] => 0
      | x :: xs => xs.foldl min x - 1
    let old := pegLatest s 3
    pegAsk 3 ((List.range 256).map fun i => BitVec.ofNat 8 (if i = t then max low (byteAt old i) else byteAt old i)) s

/-- SVN_COMMIT (R539). -/
def execSvnCommit (r : Req) (v : W32) (s : State) : Host.Outcome State Fault Refusal :=
  done (gateWrite r Reg.SEC.SVN_COMMIT (svnCommit r v.toNat) s)

/-- A snapshot is pending or in progress (R545, R580): `SNAP.STS.STATE`. -/
def snapBusy (s : State) : Bool := s.rfld Reg.SNAP.STS 28 2 != 0

/-- Whether the reload of an engine is in progress (R545). -/
def reloading (s : State) : Bool := s.flashQ.any fun op => match op with
  | .engine .. => true
  | _ => false

/-- A write of `ENG_RELOAD` (R545). -/
def engReload (r : Req) (v : Nat) (s : State) : State :=
  let i := fld v 0 3
  let st := s.hn .capoState
  if !ordersOk s r ∨ i = 7 ∨ (i = 2 ∧ 2 ≤ st) ∨ (i = 3 ∧ snapBusy s) ∨ reloading s then
    errReq secPage 0x10 r Reg.SEC.ENG_RELOAD v s
  else flashGo (flashAsk (.engine i (fld v 8 1)) s)

/-- ENG_RELOAD (R545). -/
def execEngReload (r : Req) (v : W32) (s : State) : Host.Outcome State Fault Refusal :=
  done (gateWrite r Reg.SEC.ENG_RELOAD (engReload r v.toNat) s)

/-- The reload of an engine ends (R545): on the new image, or on the old one after a failed check. An engine that does not run
is loaded with the new image at its next start. -/
def engReloadDone (s : State) : State :=
  match flashHead s with
  | some (.engine i slot) =>
    let s := if s.h .stopAt = 0 then s else waitRoot (s.hn .stopAt - 1) s
    let s := flashEnd (s.setH .stopAt 0)
    flashGo (match checkImage s slot (0x10 + i) none, imageAt s slot (0x10 + i) with
      | 0, some off =>
        let s := mrImage 8 slot off (cacheImage slot i s)
        if s.h (.eng i) = 0 then s else engineStart i s
      | c, _ => loadErr slot (0x10 + i) c s)
  | _ => s

/-- ENG_RELOAD_DONE (R545). -/
def execEngReloadDone (s : State) : Host.Outcome State Fault Refusal := done (engReloadDone s)

/-- The full check of the slot named by a `RUN_SLOT` write ends (R546). -/
def slotCheckDone (s : State) : State :=
  match flashHead s with
  | some (.check slot r) =>
    let s := flashEnd s
    flashGo (if slotValid s slot then s.setReg Reg.SEC.RUN_SLOT slot
      else errBy secPage 0x11 r (Reg.SEC.RUN_SLOT % 0x10000) slot s)
  | _ => s

/-- RUN_SLOT_CHECK_DONE (R546). -/
def execRunSlotCheckDone (s : State) : Host.Outcome State Fault Refusal := done (slotCheckDone s)

/-- A write of `RUN_SLOT` (R546): its check waits for the flash operations before it (R543). -/
def runSlot (r : Req) (v : Nat) (s : State) : State :=
  if !ordersOk s r then errReq secPage 0x11 r Reg.SEC.RUN_SLOT v s
  else flashGo (flashAsk (.check (v % 2) (reqNo r)) s)

/-- RUN_SLOT_WRITE (R546). -/
def execRunSlotWrite (r : Req) (v : W32) (s : State) : Host.Outcome State Fault Refusal :=
  done (gateWrite r Reg.SEC.RUN_SLOT (runSlot r v.toNat) s)

/-! ### Eloatal requests (R547 to R550) -/

/-- The requests that do not use the flash, and those that do, as they arrive (R548): not accepted, malformed, from another
source, waiting for its answer, repeated, or served by `f`. `len` is the length of the payload. -/
def eloGate (h : EloHdr) (typ len : Nat) (f : State → State) (s : State) : State :=
  if !eloRuns s || !eloFor h typ then s
  else if eloMalformed h len then eloBad h s
  else if s.h .eloPeer = 0 ∨ eloMac s ≠ h.mac.toNat then eloSend h (eloResp (typ + 0x80) h.seq.toNat 2 []) s
  else if eloOpen s h.seq then s.setH .eloAt (s.root : Nat)
  else if s.h .eloSeq = (h.seq.toNat + 1 : Nat) then eloSend h s.eloLast (s.setH .eloAt (s.root : Nat))
  else f s

/-- A request that uses the flash (R543, R549): answered with its refusal, or served after the flash operations before it. -/
def eloAsk (h : EloHdr) (m : EloMsg) (len : Nat) (s : State) : State :=
  eloGate h m.no len (fun s =>
    match eloRefused m s with
    | 0 => flashGo (flashAsk (.elo h m) (s.setH .eloAt (s.root : Nat)))
    | st => eloAnswer h m.no st [] s) s

/-- The HELLO response (R549). -/
def helloPay (s : State) : List Byte :=
  let rec_ := inRecovery s
  beBytes 2 0x9128 ++ beBytes 1 Config.stepping.toNat ++ beBytes 1 (ofB rec_) ++
    beBytes 1 (if rec_ then 0xFF else s.reg Reg.SEC.RUN_SLOT) ++ beBytes 1 (ofB (eloPermit s 0) + 2 * ofB (eloPermit s 1)) ++
    dieIdBytes.drop 8 ++ beBytes 4 Config.romVersion.toNat ++ beBytes 2 Config.flashMib.toNat ++ beBytes 2 1024

/-- HELLO (R548): `idle` tells that it comes once the peer has been idle for 10 s; the time until then passes first. The first
HELLO after that locks the peer to its source. A peer whose request waits for its answer is not idle. -/
def execHello (h : EloHdr) (idle : Bool) (s : State) : Host.Outcome State Fault Refusal :=
  let due := s.hn .eloAt + cycUs 10000000
  let s := if idle then waitRoot due s else s
  let free := s.h .eloPeer == 0 || (due ≤ s.root && !eloWaits s)
  let s := if eloRuns s && eloFor h 1 && !eloMalformed h 0 && free then
      let s := ((s.setReg Reg.SEC.ELO_PEER_LO (h.mac.toNat % 2 ^ 32)).setReg Reg.SEC.ELO_PEER_HI (h.mac.toNat / 2 ^ 32)).setH .eloPeer 1
      raise secPage 3 (s.setH .eloSeq 0)
    else s
  done (eloGate h 0x01 0 (fun s => eloAnswer h 0x01 0 (helloPay s) s) s)

/-- SLOT_INFO (R549). -/
def execSlotInfo (h : EloHdr) (slot : Byte) (s : State) : Host.Outcome State Fault Refusal :=
  done (eloAsk h (.slotInfo slot.toNat) 1 s)

/-- ERASE (R549): answered on completion. -/
def execErase (h : EloHdr) (slot : Byte) (s : State) : Host.Outcome State Fault Refusal :=
  done (eloAsk h (.erase slot.toNat) 1 s)

/-- The erase of a slot completes (R548, R550): `ok` tells that every block was erased. -/
def eraseDone (ok : Bool) (s : State) : State :=
  match flashHead s with
  | some (.elo h (.erase slot)) =>
    let s := if ok then s.eraseMem .flash (slot * 2 ^ 24) (2 ^ 24) else s
    flashGo (eloAnswer h 0x03 (if ok then 0 else 6) [] (flashEnd s))
  | _ => s

/-- ERASE_DONE (R548). -/
def execEraseDone (ok : Bool) (s : State) : Host.Outcome State Fault Refusal := done (eraseDone ok s)

/-- ELOATAL_WRITE (R549). -/
def execEloatalWrite (h : EloHdr) (slot : Byte) (off : W32) (data : List Byte) (s : State) : Host.Outcome State Fault Refusal :=
  done (eloAsk h (.write slot.toNat off.toNat data) (8 + data.length) s)

/-- ELOATAL_READ (R549). -/
def execEloatalRead (h : EloHdr) (slot : Byte) (off : W32) (n : BitVec 16) (s : State) : Host.Outcome State Fault Refusal :=
  done (eloAsk h (.read slot.toNat off.toNat n.toNat) 10 s)

/-- SET_BOOT (R549). -/
def execSetBoot (h : EloHdr) (v : Byte) (s : State) : Host.Outcome State Fault Refusal :=
  done (eloAsk h (.setBoot v.toNat) 1 s)

/-- ELOATAL_RESET (R548, R549): answered, then, 10 ms later, a device reset (R616, R620). -/
def execEloatalReset (h : EloHdr) (s : State) : Host.Outcome State Fault Refusal :=
  done (eloGate h 0x07 0 (fun s =>
    if eloPermit s 1 then deviceReset 4 true (waitRoot (s.root + cycUs 10000) (eloAnswer h 0x07 0 [] s))
    else eloAnswer h 0x07 3 [] s) s)

/-! ### SPDM (R553) -/

/-- SPDM_REQUEST (R553): over the DOE mailbox, or over Eloatal with its header. -/
def execSpdmRequest (elo : Option EloHdr) (msg : List Byte) (s : State) : Host.Outcome State Fault Refusal :=
  done (match elo with
    | none =>
      if !eloRuns s then s else doeRequest msg (doeGo s)
    | some h => eloGate h 0x08 msg.length (fun s => let (ans, s) := eloSpdm msg s; eloAnswer h 0x08 0 ans s) s)

/-! ### Pegbox stores (R556, R557) -/

/-- `STORE_STS` of a requester (R559). -/
def storeSts (r : Nat) : Nat := bank (1 + r) Reg.PEG.STORE_STS

/-- The staging buffer of a requester (R556). -/
def staging (s : State) (r n : Nat) : List Byte := s.rdMem .staging (r * 2 ^ 16) n

/-- A write of `PEG.STORE` (R556, R557). -/
def pegStore (r : Req) (v : Nat) (s : State) : State :=
  let a := fld v 24 6
  let len := fld v 0 12
  let bad := fun c => errReq pegPage c r Reg.PEG.STORE v (s.setReg (storeSts (reqNo r))
    (setFld (s.reg (storeSts (reqNo r))) 0 31 (2 ^ 30 + c)))
  if !s.live pegPage then bad 0x08
  else if !s.pegJobs.isEmpty then bad 0x10
  else if 2 ≤ a ∧ a ≤ 31 then bad 0x11
  else if 4032 < len then bad 0x12
  else
    { s.setReg (storeSts (reqNo r)) (2 ^ 31) with
      pegJobs := [{ r := reqNo r, area := a, fmt := fld v 12 8, data := staging s (reqNo r) len }] }

/-- STORE (R556). -/
def execStore (r : Req) (v : W32) (s : State) : Host.Outcome State Fault Refusal :=
  done (gateWrite r Reg.PEG.STORE (pegStore r v.toNat) s)

/-- `STORE_STS` of a job's requester; the boot core's own stores (5) have none. -/
def jobSts (j : PegJob) (v : Nat) (s : State) : State := if j.r < 5 then s.setReg (storeSts j.r) v else s

/-- A store has ended well (R539, R551, R556): an anti-rollback counter or the boot options so stored extend MR[6]. -/
def storeGood (j : PegJob) (s : State) : State :=
  let s := pegCommit j.area j.fmt j.data (jobSts j 0 s)
  if j.area = 3 then raise secPage 4 (mrConfig 6 j.data s) else if j.area = 0 then mrConfig 6 j.data s else s

/-- A store has ended with a read-back mismatch (R556): the page that is not current is left erased. -/
def storeBad (j : PegJob) (s : State) : State :=
  let pg := match pegCurrent s j.area with
    | some p => 4 * j.area + 1 - p
    | none => 2 * j.area
  let s := s.eraseMem .pegbox (4096 * pg) 4096
  let s := pegStatus j.area (bump Reg.PEG.STORE_FAILS (jobSts j (2 ^ 30 + 0x13) s))
  raise pegPage 1 (errBy pegPage 0x13 (j.r % 5) (Reg.PEG.STORE % 0x10000) (j.area * 2 ^ 24 + j.fmt * 2 ^ 12 + j.data.length) s)

/-- The store in progress ends (R556): `ok` tells that the read-back matched; the next one starts. -/
def storeDone (ok : Bool) (s : State) : State :=
  match s.pegJobs with
  | [] => s
  | j :: js =>
    let s := { s with pegJobs := js }
    if ok then storeGood j s else storeBad j s

/-- STORE_DONE (R556). -/
def execStoreDone (ok : Bool) (s : State) : Host.Outcome State Fault Refusal := done (storeDone ok s)

/-- The LIFETIME record (R557): hours, starts, recovery entries, highest junction temperature, handovers. -/
def lifetimeStore (hourly : Bool) (s : State) : State :=
  let d := pegLatest s 4
  let w := fun i => leNat ((d.drop (4 * i)).take 4)
  let tj := max (sgn (w 3) 32) ((s.hn .tjHi : Int) - 128)
  let rec_ := leBytes 4 (w 0 + ofB hourly) ++ leBytes 4 (w 1 + ofB (!hourly)) ++ leBytes 4 (w 2 + s.hn .lifeRec) ++
    leBytes 4 (unsgn tj 32) ++ leBytes 4 ((w 4 : Int) + s.h .lifeHo).toNat
  pegAsk 4 rec_ ((s.setH .lifeRec 0).setH .lifeHo 0)

/-- LIFETIME_STORE (R557): once at every start, or hourly, an hour after the start or the last one. -/
def execLifetimeStore (hourly : Bool) (s : State) : Host.Outcome State Fault Refusal :=
  done (if !eloRuns s then s
    else if hourly then
      let s := waitRoot (s.hn .lifeAt + cycUs 3600000000) s
      lifetimeStore true (s.setH .lifeAt (s.root : Nat))
    else s.when (s.hb .lifeDue) fun s => lifetimeStore false ((s.setHb .lifeDue false).setH .lifeAt (s.root : Nat)))

/-- The table commands of the PEG page (R559): the requester's staging buffer, and the current copy of an area. -/
def pegTable (op : Nat) (w : Win) (s : State) : TblRes :=
  match w.sel, op with
  | 1, 1 => if w.idx < 63 then Win.ok (some (leNat (s.rdMem .staging (reqNo w.r * 2 ^ 16 + 64 * w.idx) 64))) s else w.fail 0x04 s
  | 1, 2 =>
    if w.idx < 63 then Win.ok none (s.wrMem .staging (reqNo w.r * 2 ^ 16 + 64 * w.idx) (leBytes 64 w.data)) else w.fail 0x04 s
  | 2, 1 =>
    if w.idx < 4096 ∧ w.idx % 64 < 63 then
      Win.ok (some (leNat (((pegData s (w.idx / 64)).drop (64 * (w.idx % 64))).take 64))) (pegCheck (w.idx / 64) s)
    else w.fail 0x04 s
  | _, _ => w.fail 0x03 s

end Sys2Proof.Machine
end

