-- ==== Sys2Proof/Machine/Power.lean ====
section
/-!
DEFINITION. Power, clocks and reset (spec/17_power_clocks_reset.md): the power domains (R603 to R611), the supplies (R599 to
R601), the root PLL (R612, R619) and the reset sources (R616 to R620).
-/
namespace Sys2Proof.Machine

/-! ### The domains (R603, R608) -/

/-- The domains that domain `d` requires, besides AON (R603). -/
def prereqs (d : Nat) : List Nat :=
  if d = 4 ∨ d = 28 then [36]
  else if 5 ≤ d ∧ d ≤ 12 then [4]
  else if 13 ≤ d ∧ d ≤ 18 then [32]
  else if 19 ≤ d ∧ d ≤ 26 then [27, 28]
  else if d = 27 ∨ d = 31 then [4]
  else if d = 29 ∨ d = 30 then [28, 4]
  else if d = 32 ∨ d = 34 ∨ d = 35 then [31]
  else if d = 33 then [32]
  else []

/-- The domains. -/
def allDomains : List Nat := (List.range 36).map (· + 1)

/-- The domains that depend on domain `d` directly, and those that depend on it at all (R608, R609). -/
def directDependents (d : Nat) : List Nat := allDomains.filter fun e => (prereqs e).contains d
def dependents (d : Nat) : List Nat :=
  let step := fun (xs : List Nat) => (xs ++ xs.flatMap directDependents).eraseDups
  sortNat (step (step (step (step (step (directDependents d))))))

/-- Whether requester `r` may switch domain `d` (R603): domain 1 is never switched. -/
def maySwitch (s : State) (r : Req) (d : Nat) : Bool :=
  if d = 2 ∨ d = 3 then r == .BOOT
  else if d = 4 ∨ d = 36 then ordersOk s r
  else 2 ≤ d && d ≤ 36 && (r == .HOST || r == .JTAG || ordersOk s r)

/-- `DOM_STS.QUEUED` (R605). -/
def domQueued (s : State) (d : Nat) : Bool := s.rbit (Reg.GLB.DOM_STS d) 4

/-- Domains whose ramp runs (R605). -/
def ramping (s : State) : Nat := (allDomains.filter fun d => s.domState d == 2 && !domQueued s d).length

/-- Set `STATE` and `QUEUED` of domain `d`; `ON_US` keeps the last switch-on. -/
def setDom (d st : Nat) (queued : Bool) (s : State) : State :=
  s.setReg (Reg.GLB.DOM_STS d) (s.rfld (Reg.GLB.DOM_STS d) 16 16 * 2 ^ 16 + ofB queued * 16 + st)

/-- The pages of domain `d`. -/
def domPages (d : Nat) : List Nat := allPages.filter fun p => pageDomain p == d

/-! ### Switching off (R607) -/

/-- Whether page `p` has a captured counter that has not passed into the new epoch (R579). -/
def untouched (s : State) (p : Nat) : Bool :=
  (List.range 8).any (fun i => s.reg (bank 33 (Reg.PERF_CNT p i)) == 0) ||
    (List.range 2048).any fun i =>
      isCounter (p * 0x10000 + 0x8000 + 8 * i) && s.reg (bank 33 (p * 0x10000 + 0x8000 + 8 * i)) == 0

/-- A page of domain `d` loses the old-epoch values of its untouched counters (R579). -/
def markPartial (d : Nat) (s : State) : State :=
  if s.hb .snapOpen && d != 2 && (domPages d).any (untouched s) then raise snapPage 5 (s.setRbit Reg.SNAP.STS 31 true) else s

/-- The domain of watchdog unit `u` (R594). -/
def unitDomain (u : Nat) : Nat := if u < 8 then 19 + u else if u < 12 then 29 else if u < 16 then 30 else 32

/-- Hidden numbers that domain `d` loses besides the working state of its pages. -/
def lostHid (d k : Nat) : Bool :=
  let all := fun hs => hidAny hs k
  (all [.parityBad 0 0] && pageDomain (hidMid k / 256) == d) || (all [.stuck 0] && unitDomain (hidLast k) == d) ||
    (19 ≤ d && d ≤ 26 && all [.emptyBank 0 0] && hidMid k == d - 19) ||
    (d == 28 && all [.polTc 0, .polTe 0, .polLast 0]) ||
    (d == 33 && all [.shpC 0, .shpP 0, .shpAt 0, .fretDue 0, .fretAt 0]) ||
    (d == 4 && all [.pfeNext 0]) ||
    ((d == 2 || d == 27) && all [.eng 0, .engVer 0, .engSvn 0, .engKey 0, .loadDue 0] && procDomain (hidLast k) == d) ||
    (all [.serdes 0] && hidLast k == d) ||
    (d == 2 && all [.coreIdle 0] && hidLast k != 0)

/-- Every register, table, counter and SRAM of domain `d` is lost (R607); the statistics' totals lie in the deep store
(R571), and what R287 names in AON. -/
def domLost (d : Nat) (s : State) : State :=
  let ps := domPages d
  let s := forEach ps s clearWork
  let s := s.clearPages fun p => ps.contains p
  let s := { s with
    tabs := s.tabs.filter fun e => !(ps.contains (e.1 / 2 ^ 40)) || e.1 / 2 ^ 32 == snapPage * 256 + 1 || e.1 / 2 ^ 32 == snapPage * 256 + 2
    hid := s.hid.filter fun e => !(lostHid d e.1) }
  let s := forEach ((List.range 6).filter fun i => procDomain i == d) s fun i s => s.eraseMem .engine (2 ^ 32 * i) (2 ^ 32)
  if d = 2 then flashGo ((s.eraseMem .sramA 0 (2 ^ 22)).eraseMem .sramB 0 (2 ^ 22))
  else if d = 4 then l2Rebase { s with tb := 0, trkA := 0, trkB := 0, fol := 0 }
  else s

/-- Both cores fail with their domain (R471). -/
def coresLost (s : State) : State :=
  if s.h .hoTo ≠ 0 ∨ s.h .hoFirst ≠ 0 then abandonHandover s
  else if (activeCore s).isSome then pairLost [1, 2] ((activeCore s).getD 0) s else s

/-- The host function stops with its domain. -/
def hostOff (s : State) : State := intcUpdate (fnReset ((s.setHb .pciUp false).setHb .flr false))

/-- Domain `d` is isolated and switched off, and reads STATE `st` (R607). -/
def domainOff (d st : Nat) (s : State) : State :=
  let s := if s.domOn d then
      let s := markPartial d s
      let s := if d = 3 then hostOff s else s
      let off := lockChange fun s => domLost d (forEach (domPages d) s fun p s => disable p (stopBlock p s))
      if 13 ≤ d ∧ d ≤ 18 then withReachAll (fgLinks (d - 13)) off s else off s
    else s
  let s := { s with domQ := s.domQ.filter (· != d) }
  coverUpdate (setDom d st false s)

/-! ### Switching on (R604 to R606) -/

/-- The ramp of domain `d` starts. -/
def startRamp (d : Nat) (s : State) : State := (setDom d 2 false s).setH (.rampAt d) (s.root : Nat)

/-- A switch-on is accepted (R599, R605): the ramp starts, or the request is queued. -/
def acceptOn (d : Nat) (s : State) : State :=
  let s := s.setReg (Reg.GLB.DOM_CTL d) (2 ^ 31)
  if s.hb .vinBad || 4 ≤ ramping s || !s.domQ.isEmpty then { setDom d 2 true s with domQ := s.domQ ++ [d] }
  else startRamp d s

/-- The first queued request starts its ramp, if VIN is in range and fewer than four domains ramp (R599, R605). -/
def rampNext (s : State) : State :=
  match s.domQ with
  | [] => s
  | d :: rest => if s.hb .vinBad || 4 ≤ ramping s then s else startRamp d { s with domQ := rest }

/-- A refused `DOM_CTL[d]` write (R608, R622). -/
def domRefuse (code : Nat) (r : Req) (d v : Nat) (s : State) : State :=
  errReq glbPage code r (Reg.GLB.DOM_CTL d) (setFld v 16 6 d) s

/-- A write of `DOM_CTL[d]` (R604, R607, R608). In recovery only AON, HOST and MGMT are switched on (R542). -/
def domCtl (r : Req) (d v : Nat) (s : State) : State :=
  let on := bit v 31
  let st := s.domState d
  if !maySwitch s r d then domRefuse 0x10 r d v s
  else if st = 2 then domRefuse 0x11 r d v s
  else if !on && (directDependents d).any (fun e => s.domState e == 1 || s.domState e == 2) then domRefuse 0x12 r d v s
  else if on && (prereqs d).any (fun e => s.domState e != 1) then domRefuse 0x13 r d v s
  else if on then (if st = 1 then s.setReg (Reg.GLB.DOM_CTL d) (2 ^ 31) else if inRecovery s && 3 < d then s else acceptOn d s)
  else
    let s := s.setReg (Reg.GLB.DOM_CTL d) 0
    if st = 0 then s else raise glbPage 1 (domainOff d 0 (s.setH (.dropAt d) 0))

/-- DOMAIN_SWITCH_ON (R604): a write of `DOM_CTL[d].ON` := 1. -/
def execDomainSwitchOn (r : Req) (d : Fin 64) (s : State) : Host.Outcome State Fault Refusal :=
  done (gateWrite r (Reg.GLB.DOM_CTL d) (domCtl r d (2 ^ 31)) s)

/-- DOMAIN_SWITCH_OFF (R607): a write of `DOM_CTL[d].ON` := 0. -/
def execDomainSwitchOff (r : Req) (d : Fin 64) (s : State) : Host.Outcome State Fault Refusal :=
  done (gateWrite r (Reg.GLB.DOM_CTL d) (domCtl r d 0) s)

/-- RAMP_START (R605). -/
def execRampStart (s : State) : Host.Outcome State Fault Refusal := done (rampNext s)

/-- The trims of port `n` come from the Pegbox (R557); one out of range is not loaded and counted with code 0x15 (R107). -/
def loadTrims (n : Nat) (s : State) : State :=
  let d := (pegData s 2).drop (4 * n)
  let put := fun (a i : Nat) (s : State) =>
    let t := sgn (leNat ((d.drop i).take 2)) 16
    if t < -2048 ∨ 2047 < t then errInt timePage 0x15 n (s.setReg a 0) else s.setReg a (unsgn t 12)
  put (Reg.TIME.TSU_TX_TRIM n) 2 (put (Reg.TIME.TSU_RX_TRIM n) 0 s)

/-- The parse banks of pipeline `g` come from the lowest-numbered other pipeline that is on, or come up empty (R178); its L2
table starts empty (R256). -/
def pipeOn (g : Nat) (s : State) : State :=
  let p := ipipePage g
  let s := match (List.range 8).find? fun h => h != g && s.pageOn (ipipePage h) with
    | some h =>
      let s := forEach [1, 2, 3] s fun sel s => forEach (s.tabList (ipipePage h) sel) s fun e s => s.setTab p sel e.1 e.2
      forEach [0, 1] s fun b s => s.setHb (.emptyBank g b) (s.hb (.emptyBank h b))
    | none => forEach [0, 1] s fun b s => s.setHb (.emptyBank g b) true
  let s := { s with
    tabs := s.tabs.filter fun e => e.1 / 2 ^ 32 != l2Page * 256 + 1 + g
    hid := s.hid.filter fun e => !(hidAny [.parityBad 0 0] e.1 && hidMid e.1 == l2Page * 256 + 1 + g)
    learnQ := s.learnQ.filter fun x => x.g != g }
  ((s.setH (.scanAt g) 0).setReg (Reg.L2.ENT_CNT g) 0).setReg (Reg.L2.OVF_USED g) 0

/-- What the domain's entry into STATE 1 brings besides its pages' enables (R606). -/
def domStart (d : Nat) (s : State) : State :=
  if 5 ≤ d ∧ d ≤ 12 then askLoad 6 (forEach ((List.range 16).map (16 * (d - 5) + ·)) s loadTrims)
  else if 13 ≤ d ∧ d ≤ 18 then
    let s := askLoad 6 s
    { s with hid := s.hid.filter fun e => !(hidAny [.txSeq 0] e.1) }.setH .quietAt (s.root : Nat)
  else if 19 ≤ d ∧ d ≤ 26 then pipeOn (d - 19) s
  else if d = 27 then forEach [0, 1, 2, 5] s askLoad
  else if d = 32 then s.setH .quietAt (s.root : Nat)
  else if d = 2 then
    let slot := s.reg Reg.SEC.RUN_SLOT
    forEach [3, 4, 7, 8] ((s.setH (.coreSlot 0) slot).setH (.coreSlot 1) slot) askLoad
  else s

/-- `BLK_CTL` of page `p` as its domain comes on (R45, R606): EN but on the DSC and BPM pages, and DRONE. -/
def startCtl (p : Nat) : Nat :=
  match pageOf p with
  | some (.DSC, _) | some (.BPM, _) => 8
  | _ => 9

/-- The ramp of domain `d` ends (R604 step 5, R606). -/
def domainOn (d : Nat) (s : State) : State :=
  let us := min ((s.root - s.hn (.rampAt d)) / 7200) 65535
  let s := s.setReg (Reg.GLB.DOM_STS d) (us * 2 ^ 16 + 1)
  let s := raise glbPage 0 (bump (Reg.GLB.DOM_ON_CNT d) s)
  let s := forEach (domPages d) s fun p s =>
    let s := (s.setReg (Reg.BLK_CTL p) (startCtl p)).setH (.cycBase p) (s.root : Nat)
    if s.hb .snapOpen then cycShadow p s else s
  let s := if (domPages d).contains l2Page then l2Rebase s else s
  let s := if (domPages d).contains cellPage then ageRaise s else s
  coverUpdate (domStart d s)

/-- DOMAIN_ON (R604). -/
def execDomainOn (d : Fin 37) (s : State) : Host.Outcome State Fault Refusal :=
  done (s.when (s.pllOk && d.val != 0 && s.domState d == 2 && !domQueued s d) (domainOn d))

/-- SERDES_PLL_LOCK_TIMEOUT (R611): 1 ms after step 3 of the switch-on of a LINE or FAB domain. -/
def execSerdesPllLockTimeout (d : Fin 37) (s : State) : Host.Outcome State Fault Refusal :=
  done (s.when (s.pllOk && 5 ≤ d.val && d.val ≤ 18 && s.domState d == 2 && !domQueued s d) fun s =>
    raise glbPage 2 (domainOff d 3 (waitRoot (s.hn (.rampAt d) + cycUs 1070) s)))

/-! ### Drops and restarts (R609, R610) -/

/-- The dependents of a domain that drops out are switched off (R609). -/
def cascade (d : Nat) (s : State) : State :=
  let ds := (dependents d).filter fun e => s.domState e == 1 || s.domState e == 2
  if ds.isEmpty then s else
  raise glbPage 3 (forEach ds s fun e s => bump Reg.GLB.CASCADES (domainOff e 0 s))

/-- Domain `d` drops out (R595): it is switched off with STATE 3, and its dependents with it. -/
def dropOut (d : Nat) (s : State) : State :=
  let s := domainOff d 3 (if d = 2 then coresLost s else s)
  let s := if d = 2 ∨ d = 3 then s.setH (.dropAt d) (s.root + 1 : Nat) else s
  cascade d s

/-- The boot core requests MGMT or HOST on again (R610), unless three restarts lie within 60 s. -/
def domRestart (d : Nat) (s : State) : State :=
  let s := waitRoot (s.hn (.dropAt d) - 1 + cycUs 10000) s
  let s := s.setH (.dropAt d) 0
  let old := s.hn (.restartAt d 2)
  if old ≠ 0 ∧ s.root + 1 < old + cycUs 60000000 then s
  else
    let s := (s.setH (.restartAt d 2) (s.h (.restartAt d 1))).setH (.restartAt d 1) (s.h (.restartAt d 0))
    acceptOn d (s.setH (.restartAt d 0) (s.root + 1 : Nat))

/-- DOMAIN_RESTART (R610). -/
def execDomainRestart (d : Fin 37) (s : State) : Host.Outcome State Fault Refusal :=
  done (s.when (s.pllOk && s.h (.dropAt d) != 0 && s.domState d == 3) (domRestart d))

/-! ### The supplies (R599 to R601) -/

/-- VIN is lost (R600): every VIN domain reads STATE 3, and one SUPPLY_DROOP is recorded. -/
def vinLoss (s : State) : State :=
  let s := coverUpdate ((s.setHb .vinBad true).setH (.measAt 0) 0)
  let s := faultRecordAt 12 0 faultPage 0 s
  let s := coresLost s
  let s := forEach ((allDomains.drop 1).reverse) s fun d s => domainOff d 3 (s.setH (.dropAt d) 0)
  raise glbPage 4 (bump Reg.GLB.VIN_LOSS (s.setHb .vinDown true))

/-- VIN_LOSS (R600). -/
def execVinLoss (s : State) : Host.Outcome State Fault Refusal :=
  done (s.when (!s.hb .vinDown && !bit (s.hn .rstHold) 2) vinLoss)

/-- VIN_IN_RANGE (R599): VIN has been in range for 1 ms, and up to four queued ramps start. -/
def execVinInRange (s : State) : Host.Outcome State Fault Refusal :=
  done (rampNext (rampNext (rampNext (rampNext (coverUpdate (((s.setHb .vinBad false).setH (.measAt 0) 0).setH .vinAt (s.root + 1 : Nat)))))))

/-- VIN_RESTART (R600): VIN has been in range for 10 ms after a loss. -/
def execVinRestart (s : State) : Host.Outcome State Fault Refusal :=
  done (s.when (s.hb .vinDown) fun s =>
    let s := s.when (!s.hb .vinBad) fun s => waitRoot (s.hn .vinAt - 1 + cycUs 9000) s
    coverUpdate (deviceReset 7 true (s.setHb .vinBad false)))

/-- VAUX is lost (R601): the device is reset and held. -/
def vauxLoss (s : State) : State :=
  let s := deviceReset 1 false ((s.setHb .vauxBad true).setReg Reg.GLB.PLL_STS 0)
  coverUpdate (holdReset 3 false (holdReset 2 true s))

/-- VAUX_LOSS (R601). -/
def execVauxLoss (s : State) : Host.Outcome State Fault Refusal := done (vauxLoss s)

/-- VAUX_POWER_ON (R601, R616, R620). -/
def execVauxPowerOn (s : State) : Host.Outcome State Fault Refusal :=
  done (coverUpdate (holdReset 2 false (deviceReset 1 false ((s.setHb .vauxBad false).setReg Reg.GLB.PLL_STS 0))))

/-! ### The root PLL (R612, R619) -/

/-- ROOT_PLL_LOCK (R612): the derived clocks start. -/
def execRootPllLock (s : State) : Host.Outcome State Fault Refusal :=
  done (s.when (!s.pllOk && !bit (s.hn .rstHold) 2) fun s => (s.setReg Reg.GLB.PLL_STS 1).setH .pllAt (s.root : Nat))

/-- PLL_LOSS_RESET (R619): the PLL has been locked for 1 ms after a loss. -/
def execPllLossReset (s : State) : Host.Outcome State Fault Refusal :=
  done (s.when (s.hb .pllLost && s.pllOk) fun s => coverUpdate (deviceReset 6 true (waitRoot (s.hn .pllAt + cycUs 1000) s)))

/-! ### Reset sources (R616 to R618) -/

/-- SYS_RST_ASSERT (R617): the device is held in reset; the log is kept as R597 says. -/
def execSysRstAssert (s : State) : Host.Outcome State Fault Refusal :=
  done (if bit (s.hn .rstHold) 2 then holdReset 0 true s
    else coverUpdate (holdReset 3 false (holdReset 0 true (deviceReset 2 (s.rbit Reg.FAULT.FIRST 31) s))))

/-- SYS_RST_RELEASE (R616, R597): the start may follow, but not in the factory test mode that TEST_MODE selects (R634). -/
def execSysRstRelease (testMode : BitVec 2) (s : State) : Host.Outcome State Fault Refusal :=
  done (if bit (s.hn .rstHold) 2 then holdReset 0 false s
    else coverUpdate (holdReset 3 (testMode != 0) (holdReset 0 false (deviceReset 2 (s.rbit Reg.FAULT.FIRST 31) s))))

/-- A write of `DEV_RESET` (R618). -/
def devReset (r : Req) (v : Nat) (s : State) : State :=
  if v % 65536 = 0x9128 ∧ ordersOk s r then coverUpdate (deviceReset 5 true s)
  else errReq glbPage 0x14 r Reg.GLB.DEV_RESET v s

/-- DEV_RESET (R618). -/
def execDevReset (r : Req) (v : W32) (s : State) : Host.Outcome State Fault Refusal :=
  done (gateWrite r Reg.GLB.DEV_RESET (devReset r v.toNat) s)

end Sys2Proof.Machine
end

