-- ==== Sys2Proof/Machine/Reliab.lean ====
section
/-!
DEFINITION. The monitors of the FAULT page (spec/16_reliability.md): root-PLL lock, pipeline watchdogs, domain supplies and
junction temperature (R589 to R595), and the closing of a fault class (R585).
-/
namespace Sys2Proof.Machine

/-- A write of `OPEN` (R585, W1C). -/
def openClear (v : Nat) (s : State) : State :=
  coverUpdate (s.setReg Reg.FAULT.OPEN (s.reg Reg.FAULT.OPEN &&& (v % 2 ^ 32 ^^^ 0xFFFFFFFF)))

/-- OPEN_CLEAR (R585). -/
def execOpenClear (r : Req) (v : W32) (s : State) : Host.Outcome State Fault Refusal :=
  done (gateWrite r Reg.FAULT.OPEN (openClear v.toNat) s)

/-- The root PLL loses lock (R593): recorded, counted, and every derived clock is gated. -/
def pllUnlock (s : State) : State :=
  let s := bump Reg.GLB.PLL_LOSS (s.setReg Reg.GLB.PLL_STS 0)
  faultRecordAt 10 1 faultPage 0 (s.setHb .pllLost true)

/-- PLL_UNLOCK (R593). -/
def execPllUnlock (s : State) : Host.Outcome State Fault Refusal := done (s.when s.pllOk pllUnlock)

/-- The page of watchdog unit `u`, and its argument in the log (R594, R596). -/
def unitPage (u : Nat) : Nat × Nat :=
  if u < 8 then (ipipePage u, 0) else if u < 16 then (epipePage (u - 8), 0)
  else if u < 36 then (qmgrPage, u - 16) else (fabPage, 0)

/-- Unit `u` is found stuck (R594). -/
def unitStuck (u : Nat) (s : State) : State :=
  let (p, arg) := unitPage u
  if s.hb (.stuck u) || !s.live p then s else faultRecord 11 p arg (s.setHb (.stuck u) true)

/-- The watchdogs are sampled, 10 µs after the last sample (R594): a unit of `units` has held a frame since then and passed none
to its output; one that has done so for `PIPE_WDT` µs is stuck. -/
def wdtSample (units : Nat) (s : State) : State :=
  forEach (List.range 37) (nextInterval faultPage .wdtSampleAt (cycUs 10) s) fun u s =>
    let n := if bit units u then s.h (.wdtRun u) + 10 else 0
    let s := s.setH (.wdtRun u) n
    if n ≠ 0 ∧ (s.rfld Reg.FAULT.PIPE_WDT 0 7 : Int) ≤ n then unitStuck u s else s

/-- PIPE_WDT_SAMPLE (R594): `units` are those that have held a frame since the last sample and passed none to their output, time
in which their output refused a frame not counted: IPIPE g as bit g, EPIPE g as 8 + g, queue engine e as 16 + e, the
resequencer as 36. -/
def execPipeWdtSample (units : BitVec 37) (s : State) : Host.Outcome State Fault Refusal :=
  done (s.when (s.pllOk && s.rbit Reg.FAULT.MON_EN 0) (wdtSample units.toNat))

/-- A domain's supply drops (R595): recorded and switched off, unless its monitor is disabled or not armed (R589, R590). -/
def supplyDroop (d : Nat) (s : State) : State :=
  if d = 1 then vauxLoss s
  else if 2 ≤ d ∧ s.rbit Reg.FAULT.MON_EN 1 ∧ s.domOn d then dropOut d (faultRecordAt 12 d faultPage d s)
  else s

/-- SUPPLY_DROOP (R595). -/
def execSupplyDroop (d : Fin 37) (s : State) : Host.Outcome State Fault Refusal := done (supplyDroop d s)

/-- The hottest junction sensor reads `t` °C (R584, R557). -/
def tjMeasured (t : Int) (s : State) : State :=
  let s := s.setH .tjHi (max (s.h .tjHi) (t + 128))
  let s := s.setH .tjNow (if t < -5 ∨ 105 < t then t + 129 else 0)
  if s.rbit Reg.FAULT.MON_EN 2 then coverUpdate (s.setHb .tjBad (t < -5 || 105 < t)) else s

/-- TJ_OUT_OF_RANGE (R584, R646): a sensor reads `t`, a signed number of °C. -/
def execTjOutOfRange (t : BitVec 8) (s : State) : Host.Outcome State Fault Refusal := done (tjMeasured t.toInt s)

end Sys2Proof.Machine
end

