-- ==== Sys2Proof/Machine/Access.lean ====
section
/-!
DEFINITION. Register accesses: what a write and a read of every register does (R17, R18, R37 to R49, spec/00_scope.md and
spec/01_architecture.md, with the checks that the chapters' register tables state), the table commands of every page
(R53 to R57), and the requests of the host to BAR0 and BAR2 (R496, R525 to R527, spec/13_host_interface.md).
-/
namespace Sys2Proof.Machine

/-! ### Table commands -/

/-- The table of the TIME page: LAUNCH_WIN, the shadow schedules (R105). -/
def timeTable (op : Nat) (w : Win) (s : State) : TblRes :=
  if w.sel ≠ 1 ∨ (op ≠ 1 ∧ op ≠ 2) then w.fail 0x03 s
  else if op = 1 then w.read 1024 2 s
  else if 1024 ≤ w.idx then w.fail 0x04 s
  else Win.ok none (s.setTab timePage 1 w.idx (w.data &&& ofWords [0x3FFFFFFF, 0xBFFFFFFF]))

/-- The tables of an OTN page: TTI_TX, TTI_EXP and TTI_ACC (R171). -/
def otnTable (op : Nat) (w : Win) (s : State) : TblRes :=
  if w.sel = 0 ∨ 3 < w.sel ∨ (op ≠ 1 ∧ (op ≠ 2 ∨ w.sel = 3)) then w.fail 0x03 s
  else if 256 ≤ w.idx then w.fail 0x04 s
  else if (if w.sel = 1 then 2 else 8) < w.idx % 16 then w.fail 0x11 s
  else if op = 1 then w.read 256 16 s
  else Win.ok none (s.setTab w.p w.sel w.idx w.data)

/-- The table of the FAULT page: LOG, whose entries read are no longer unread (R591, R596). -/
def faultTable (op : Nat) (w : Win) (s : State) : TblRes :=
  if w.sel ≠ 1 ∨ op ≠ 1 then w.fail 0x03 s
  else w.read 64 4 (if w.idx < 64 then s.setHb (.logUnread w.idx) false else s)

/-- The table command `op` of a page; every page has the Drone table (R565), and a page without tables rejects any other
(R52, R54). -/
def pageTable (op : Nat) (w : Win) (s : State) : TblRes :=
  if w.sel = 0xFF then droneTable op w s else
  match (pageOf w.p).map Prod.fst with
  | some .TIME => timeTable op w s
  | some .PEG => pegTable op w s
  | some .HOST => hostTable op w s
  | some .SNAP => snapTable op w s
  | some .FAULT => faultTable op w s
  | some .PFE => pfeTable op w s
  | some .BPM => bpmTable op w s
  | some .OTN => otnTable op w s
  | some .IPIPE => ipipeTable op w s
  | some .LPM => lpmTable op w s
  | some .EM => emTable op w s
  | some .TCAM => tcamTable op w s
  | some .ADJ => adjTable op w s
  | some .L2 => l2Table op w s
  | some .POL => polTable op w s
  | some .QMGR => qmgrTable op w s
  | some .SCHED => schedTable op w s
  | some .SHAPE => shapeTable op w s
  | some .CELL => cellTable op w s
  | some .SPILL => spillTable op w s
  | some .FAB => fabTable op w s
  | some .DSC => dscTable op w s
  | _ => w.fail 0x03 s

/-- Whether an operation of the LPM page is a route command, which the route agent executes (R239, R460). -/
def routeOp (op : Nat) : Bool := 0x10 ≤ op && op ≤ 0x14

/-- A write of `op` to `TBL_CMD` of page `p` (R54). On the LPM page a route command waits for the route agent (R460, R545), and
a later command of another bank waits behind it (R53). -/
def cmdWrite (r : Req) (p op : Nat) (s : State) : State :=
  if p = lpmPage ∧ (routeOp op ∨ s.lpmQ ≠ []) then routeRun r op s
  else if 0xF0 ≤ p ∧ p < 0x100 then deepRun r p op s
  else tblRun r p (pageTable op) s

/-- The first command in the queue of the LPM page executes at the table port and completes. -/
def lpmStep (c : RouteCmd) (s : State) : State :=
  let w : Win := { r := c.r, p := lpmPage, sel := c.sel, idx := c.idx, data := c.data.toNat }
  let (s, code, d) := pageTable c.op w { s with lpmQ := s.lpmQ.drop 1 }
  let s := match d with
    | some e => setWinData c.r lpmPage e s
    | none => s
  tblComplete c.r lpmPage (s.setH (.tblOp lpmPage (reqNo c.r)) (1 + 256 * code : Nat))

/-- The commands of the LPM page up to that of requester `r` execute in arrival order and complete (R53, R241), unless one of
them is a route command and the route agent is not loaded: then they go on waiting (R460, R545). -/
def lpmComplete (r : Req) (s : State) : State :=
  match s.lpmQ.findIdx? (·.r == r) with
  | none => tblComplete r lpmPage s
  | some k =>
    let cs := s.lpmQ.take (k + 1)
    if cs.any (fun c => routeOp c.op) && !engUp s 0 then s else forEach cs s lpmStep

/-- TBL_CMD_COMPLETE (R54). -/
def execTblCmdComplete (r : Req) (p : Fin 8192) (s : State) : Host.Outcome State Fault Refusal :=
  done (if p.val = lpmPage then lpmComplete r s else tblComplete r p s)

/-! ### Writes of the common header (R39 to R50) -/

/-- Drone counting starts: a change of `DRONE` from 0 to 1 clears the page's Drone counters (R564). -/
def droneOn (p : Nat) (s : State) : State :=
  if s.rbit (Reg.BLK_CTL p) 3 then s
  else { s with tabs := s.tabs.filter fun e => e.1 / 2 ^ 32 != p * 256 + 0xFF }.setRbit (Reg.BLK_CTL p) 3 true

/-- A write of `BLK_CTL` (R42, R43, R45): the soft reset comes last. -/
def blkCtl (p v : Nat) (s : State) : State :=
  let s := if bit v 3 then droneOn p s else s.setRbit (Reg.BLK_CTL p) 3 false
  let s := if bit v 2 then s.setRbit (Reg.BLK_CTL p) 2 true else s
  let s := if bit v 0 then enable p s else disable p s
  if bit v 1 then softReset p s else s

/-- A software write that leaves an unmasked event pending rings again (R48). -/
def ringAgain (p : Nat) (s : State) : State := if evtUnmasked s p = 0 then s else ring (s.reg (Reg.EVT_SRC p)) s

/-- A write of `EVT_PEND` (R46, R47). -/
def evtPend (p v : Nat) (s : State) : State :=
  let unread := s.hn (.evtUnread p)
  let lost := s.reg (Reg.EVT_PEND p) &&& unread &&& (v ^^^ 0xFFFFFFFF)
  let s := s.setReg (Reg.EVT_LOST p) (s.reg (Reg.EVT_LOST p) ||| lost)
  let s := (s.setReg (Reg.EVT_PEND p) v).setH (.evtUnread p) (unread &&& v : Nat)
  ringAgain p s

/-- A write of `EVT_MASK` (R48). -/
def evtMask (p v : Nat) (s : State) : State := ringAgain p (s.setReg (Reg.EVT_MASK p) v)

/-- A write of a programmable counter or its control (R561, R577). -/
def perfWrite (a v : Nat) (s : State) : State :=
  let s := perfSync (a / 0x10000) s
  storeReg a v (if captured a then snapTouch a s else s)

/-- A write at offset `o` of the common header of page `p`; none for a register without a rule of its own. -/
def headerWrite (r : Req) (p o v : Nat) (s : State) : Option State :=
  let a := 0x10000 * p + o
  if o = 0xC then some (blkCtl p v s)
  else if o = 0x20 then some (evtPend p v s)
  else if o = 0x24 then some (evtMask p v s)
  else if o = 0x2C then
    some (ifUnlocked r a v (fun s => if fld v 0 12 = 0 ∨ fld v 0 12 = 0xFFF then s else s.setReg a (fld v 0 12)) s)
  else if o = 0x40 then some (if bit v 31 then s.setReg a 0 else s)
  else if 0x60 ≤ o ∧ o < 0xA0 then some (perfWrite a v s)
  else if o = 0x108 then some (cmdWrite r p (fld v 0 8) s)
  else if 0x100 ≤ o ∧ o < 0x200 then some (if o = 0x10C then s else s.setReg (winBank r a) v)
  else none

/-! ### Writes of the block-specific registers -/

/-- Whether register reference `f` is an instance of the register whose first instance is at address `b`. -/
def RegRef.is (f : RegRef) (b : Nat) : Bool := f.row.off == b % 0x10000

/-- A field value outside its range is refused with `code`, else stored. -/
def ranged (ok : Bool) (code : Nat) (r : Req) (a v : Nat) (s : State) : State :=
  if ok then storeReg a v s else errReq (a / 0x10000) code r a v s

/-- A write of `GLB.PROFILE_SEL` (R41): accepted from 1 to the smallest `PROF_MAX` of any assigned page. -/
def profileSel (r : Req) (v : Nat) (s : State) : State :=
  let a := Reg.GLB.PROFILE_SEL
  ifUnlocked r a v (ranged (1 ≤ fld v 0 8 && fld v 0 8 ≤ profMax) 0x01 r a v) s

/-- Magnitude of a signed 6-bit tap. -/
def tap (v lo : Nat) : Nat := (sgn (fld v lo 6) 6).natAbs

/-- Whether the magnitudes of the transmit taps of a `LANE_CFG` value sum to more than 63 (R137). -/
def tapsOver (v : Nat) : Bool := 63 < tap v 22 + fld v 16 6 + tap v 10 + tap v 4

/-- Writes of the TIME page (R59 to R73, R94, R103, R105). -/
def timeReg (r : Req) (f : RegRef) (a v : Nat) (s : State) : Option State :=
  if a = Reg.TIME.RATE_TB_LO then some (rateLo r .tb v s)
  else if a = Reg.TIME.RATE_TB_HI then some (rateHi r .tb v s)
  else if f.is (Reg.TIME.TRK_RATE_LO 0) then some (rateLo r (if f.idx = 0 then .trkA else .trkB) v s)
  else if f.is (Reg.TIME.TRK_RATE_HI 0) then some (rateHi r (if f.idx = 0 then .trkA else .trkB) v s)
  else if a = Reg.TIME.STEP_CMD then some (stepCmd r v s)
  else if a = Reg.TIME.STEP_REARM then some (stepRearm r v s)
  else if a = Reg.TIME.TB_CTL then some (tbCtl r v s)
  else if a = Reg.TIME.SLEW_MAX then some (ranged (1 ≤ fld v 0 10 && fld v 0 10 ≤ 1000) 0x14 r a v s)
  else if f.is (Reg.TIME.TRK_STEP_CMD 0) then some (trkStep f.idx v s)
  else if f.is (Reg.TIME.PPS_IN_REARM 0) then some (ppsRearm f.idx v s)
  else if f.is (Reg.TIME.TRK_REF_CFG 0) then some (refCfg f.idx v s)
  else if f.is (Reg.TIME.PPS_IN_CFG 0) then some (ppsInCfg f.idx v s)
  else if f.is (Reg.TIME.PPS_OUT_CFG 0) || f.is (Reg.TIME.PPS_OUT_OFFSET 0) then
    some (ppsOutWrite f.idx (storeReg a v) s)
  else if a = Reg.TIME.FREQ_CFG then some (freqCfg v s)
  else if f.is (Reg.TIME.TSU_WIN_COMMIT 0) then some (winCommit r f.idx v s)
  else none

/-- Writes of the INTC page (R472 to R480, R488). -/
def intcReg (r : Req) (f : RegRef) (a v : Nat) (s : State) : Option State :=
  if a = Reg.INTC.DOORBELL then some (doorbell r v s)
  else if f.is (Reg.INTC.EOI 0) then some (eoi r f.idx v s)
  else if f.is (Reg.INTC.SETPRI 0) then some (setpri r f.idx v s)
  else if f.is (Reg.INTC.PEND 0) then some (pendWrite f.idx v s)
  else if f.is (Reg.INTC.MASK 0) then some (intcMask f.idx v s)
  else if a = Reg.INTC.SRC_CFG 0 ∨ a = Reg.INTC.SRC_CFG 0xFFF then some s
  else if f.is (Reg.INTC.SRC_CFG 0) || f.is (Reg.INTC.HOLDOFF 0) then some (intcUpdate (storeReg a v s))
  else none

/-- Writes of the SEC page (R538, R539, R545, R546, R550, R558). -/
def secReg (r : Req) (a v : Nat) (s : State) : Option State :=
  if a = Reg.SEC.RUN_SLOT then some (runSlot r v s)
  else if a = Reg.SEC.KEY_REVOKE then some (keyRevoke r v s)
  else if a = Reg.SEC.SVN_COMMIT then some (svnCommit r v s)
  else if a = Reg.SEC.ENG_RELOAD then some (engReload r v s)
  else if a = Reg.SEC.ELO_CFG ∨ a = Reg.SEC.UART_OWN then some (ranged (ordersOk s r) 0x10 r a v s)
  else none

/-- Writes of the FAULT page (R585, R590, R592, R596). -/
def faultReg (r : Req) (a v : Nat) (s : State) : Option State :=
  if a = Reg.FAULT.OPEN then some (openClear v s)
  else if a = Reg.FAULT.PIPE_WDT then some (ranged (10 ≤ fld v 0 7 && fld v 0 7 ≤ 90) 0x10 r a v s)
  else if a = Reg.FAULT.MON_EN ∨ a = Reg.FAULT.PIN_FAULT ∨ a = Reg.FAULT.PIN_ALARM then some (coverUpdate (storeReg a v s))
  else none

/-- Writes of the CAPO page (R289 to R294, R306). -/
def capoReg (r : Req) (a v : Nat) (s : State) : Option State :=
  if a = Reg.CAPO.FLIP_CMD then some (flipCmd r v s)
  else if a = Reg.CAPO.FLIP_ARM then some (flipArm r v s)
  else if a = Reg.CAPO.DRAIN_FORCE then some (drainForce r v s)
  else if a = Reg.CAPO.SETTLE then some (ranged (fld v 0 16 != 0) 0x12 r a v s)
  else if a = Reg.CAPO.FLIP_NS ∨ a = Reg.CAPO.FLIP_SEC_LO ∨ a = Reg.CAPO.FLIP_SEC_HI then
    some (ranged (s.h .capoState != 1) 0x11 r a v s)
  else none

/-- Writes of the PAIR page (R464, R467, R470, R487). -/
def pairReg (r : Req) (a v : Nat) (s : State) : Option State :=
  if a = Reg.PAIR.HANDOVER then some (handover r v s)
  else if a = Reg.PAIR.RELOAD then some (reload r v s)
  else if a = Reg.PAIR.WDT_CFG then some (ranged (10 ≤ fld v 0 10 && fld v 0 10 ≤ 1000) 0x12 r a v s)
  else if a = Reg.PAIR.WDT_KICK then some (wdtKick r v s)
  else none

/-- Writes of an LG or an OHP page (R110, R137, R162, R165). -/
def lineReg (r : Req) (f : RegRef) (a v : Nat) (s : State) : Option State :=
  match f.kind with
  | .LG =>
    if a = Reg.LG.MAP_COMMIT f.inst then some (mapCommit r f.inst v s)
    else if a = Reg.LG.RECIRC_SHARE f.inst then some (ranged (fld v 0 5 ≤ 16) 0x12 r a v s)
    else if f.is (Reg.LG.LANE_CFG 0 0) then some (ranged (!tapsOver v) 0x12 r a v s)
    else none
  | .OHP =>
    if a = Reg.OHP.CFG f.inst then some (ohpCfgWrite r f.inst v s)
    else if a = Reg.OHP.RECENTRE f.inst then some (if bit v 0 then s.setHb (.ohpCentre f.inst) true else s)
    else none
  | _ => none

/-- Whether the array of the lane that `f` names belongs to the first lane of an OTN-mode port (R168). -/
def otnLane (s : State) (f : RegRef) : Bool := f.kind != .OTN || f.row.off < 0x4000 || isOtn s (16 * f.inst + f.idx)

/-- Writes of the L2 page (R227, R254, R255, R258, R259, R278). -/
def l2Reg (r : Req) (a v : Nat) (s : State) : Option State :=
  if a = Reg.L2.EVICT then some (ranged (fld v 0 2 != 3) 0x12 r a v s)
  else if a = Reg.L2.AGE_CFG then some (ageRebase (ranged (fld v 16 16 != 0) 0x12 r a v s))
  else if a = Reg.L2.MOVE_CFG then
    some (ranged (1 ≤ fld v 8 4 && fld v 8 4 ≤ 14 && 1 ≤ fld v 0 4 && fld v 0 4 ≤ 14) 0x12 r a v s)
  else if a = Reg.L2.HASH_SEED then some (seedWrite r a v s)
  else if a = Reg.L2.NOTIFY_POP then some (notifyPop v s)
  else none

/-- A write of a block-specific register; none for one without a rule of its own. -/
def blockWrite (r : Req) (f : RegRef) (a v : Nat) (s : State) : Option State :=
  match f.kind with
  | .GLB =>
    if a = Reg.GLB.PROFILE_SEL then some (profileSel r v s)
    else if a = Reg.GLB.DEV_RESET then some (devReset r v s)
    else if f.is (Reg.GLB.DOM_CTL 1) then some (domCtl r (f.idx + 1) v s)
    else none
  | .TIME => timeReg r f a v s
  | .INTC => intcReg r f a v s
  | .PEG => if a = Reg.PEG.STORE then some (pegStore r v s) else none
  | .SEC => secReg r a v s
  | .HOST => hostReg r a v s
  | .SNAP => snapReg r a v s
  | .FAULT => faultReg r a v s
  | .CAPO => capoReg r a v s
  | .PAIR => pairReg r a v s
  | .PFE => if a = Reg.PFE.LEAD then some (
      if 1000 ≤ fld v 0 16 then storeReg a v s else errReq pfePage 0x10 r a (s.reg (winBank r (Reg.TBL_IDX pfePage))) s) else none
  | .BPM => bufferReg r a v s
  | .CELL => bufferReg r a v s
  | .SPILL => bufferReg r a v s
  | .LPORT =>
    if a = Reg.LPORT.MAC_CFG f.inst then some (macCfg r f.inst v s)
    else if a = Reg.LPORT.LINK_CFG f.inst then some (linkCfg r f.inst v s)
    else if a = Reg.LPORT.BW_CFG f.inst then some (bwCfg r f.inst v s)
    else none
  | .LG => lineReg r f a v s
  | .OHP => lineReg r f a v s
  | .OTN =>
    if f.is (Reg.OTN.DEG_CFG 0 0) then some (ranged (2 ≤ fld v 28 4 && fld v 28 4 ≤ 10 && fld v 0 24 != 0) 0x10 r a v s) else none
  | .IPIPE => if f.is (Reg.IPIPE.PORT_CFG 0 0) then some (ranged (fld v 22 2 != 3) 0x11 r a v s) else none
  | .EPIPE =>
    if f.is (Reg.EPIPE.PORT_CFG 0 0) then some (ranged (64 ≤ fld v 0 14 && fld v 0 14 ≤ 12288) 0x10 r a v s) else none
  | .EM => if a = Reg.EM.MPLS_SEED ∨ a = Reg.EM.IFT_SEED then some (seedWrite r a v s) else none
  | .TCAM =>
    if f.is (Reg.TCAM.LKP_CFG 0) then some (lkpCfg r f.idx v s)
    else if f.is (Reg.TCAM.SLICE_CFG 0) then some (sliceCfg r f.idx v s)
    else none
  | .L2 => l2Reg r a v s
  | .QMGR => queueReg r a v s
  | .SCHED => queueReg r a v s
  | .SHAPE => queueReg r a v s
  | .FG => fgReg tapsOver r a v s
  | .FAB => fabReg r a v s
  | .DSC => dscReg r a v s
  | .LPM | .ADJ | .POL | .BRIDGE => none

/-- A write of a register by its access code alone (R18). -/
def plainWrite (r : Req) (f : RegRef) (a v : Nat) (s : State) : State :=
  match f.row.acc with
  | .rw => storeReg a v s
  | .rwl => ifUnlocked r a v (storeReg a v) s
  | .w1c => s.setReg a (s.reg a &&& ((v &&& f.row.mask) ^^^ 0xFFFFFFFF))
  | .ro => s
  | .wo => s
  | .rc => s

/-- What a write of `v` to the occupied address `a` does; a shadow ignores it. -/
def writeEffect (r : Req) (a v : Nat) (s : State) : State :=
  match lookupReg a with
  | none => s
  | some f =>
    if !otnLane s f then errReq f.page 0x12 r a v s
    else
      match (if a % 0x10000 < 0x400 then headerWrite r f.page (a % 0x10000) v s else blockWrite r f a v s) with
      | some t => t
      | none => plainWrite r f a v s

/-- A register write of requester `r`. -/
def regWrite (r : Req) (a v : Nat) (s : State) : State := gateWrite r a (writeEffect r a v) s

/-! ### Reads -/

/-- A half of a 64-bit register whose value is `v`: the low half latches the high half for the requester, the high half
returns what was latched (R17). -/
def readHalf (r : Req) (lo : Nat) (hi : Bool) (v : Nat) (s : State) : Nat × State :=
  let k := bank (16 + reqNo r) lo
  if hi then (s.reg k, s) else (v % 2 ^ 32, s.setReg k (v / 2 ^ 32))

/-- The live value of a counter. -/
def liveCount (s : State) (a : Nat) : Nat := if a % 0x10000 = 0x50 then perfCyc s (a / 0x10000) else s.reg a

/-- What the shadow of the counter at `a` reads as (R577). -/
def shadowVal (s : State) (a : Nat) : Nat :=
  if s.hb .snapOpen && s.reg (bank 33 a) == 0 then liveCount s a else s.reg (bank 32 a)

/-- A read of the shadow at address `a` (R574). -/
def readShadow (r : Req) (a : Nat) (s : State) : Nat × State :=
  let p := a / 0x10000
  let o := a % 0x10000
  let s := perfSync p s
  if 0xFF10 ≤ o then (shadowVal s (Reg.PERF_CNT p ((o - 0xFF10) / 4)), s)
  else
    let lo := a / 8 * 8
    readHalf r lo (o % 8 == 4) (shadowVal s (if 0xFF00 ≤ o then Reg.PERF_CYC p else lo - 0x4000)) s

/-- Whether the start-up actions of page `p` are complete (R44): its block is enabled and out of soft reset, the engine or
SerDes firmware that serves it is loaded, and a channel has finished its bring-up. -/
def blkReady (s : State) (p : Nat) : Bool :=
  s.live p &&
    match pageOf p with
    | some (.LPM, _) => s.h (.eng 0) == 1
    | some (.L2, _) => s.h (.eng 1) == 1
    | some (.CAPO, _) => s.h (.eng 2) == 1
    | some (.SNAP, _) => s.h (.eng 3) == 1
    | some (.LPORT, _) | some (.LG, _) | some (.FG, _) => s.h (.serdes (pageDomain p)) == 1
    | some (.DSC, c) => s.h (.trainStep c) == 7
    | _ => true

/-- `BLK_STS` (R44). -/
def blkSts (s : State) (p : Nat) : Nat :=
  let busy := s.rbit (Reg.BLK_CTL p) 1 || (match pageOf p with | some (.LG, g) => s.hb (.mapBusy g) | _ => false) || [Req.BOOT, .CC_A, .CC_B, .HOST, .JTAG].any fun r => s.rbit (winBank r (Reg.TBL_STS p)) 31
  8 * ofB (s.pageOn p) + 4 * ofB (s.rbit (Reg.ERR_FIRST p) 31) + 2 * ofB busy + ofB (blkReady s p)

/-- The block that page `p` belongs to, by its first page: the pages of one block have one code (R40). -/
def blockKey (p : Nat) : Nat := ((pageOf p).map fun x => x.1.base).getD 0

/-- A read at offset `o` of the common header of page `p` (R39 to R49, R53); none for a stored value. -/
def headerRead (r : Req) (p o : Nat) (s : State) : Option (Nat × State) :=
  let a := 0x10000 * p + o
  if o = 0 then some ((Config.blkCode (blockKey p)).toNat * 65536 + ((pageOf p).map Prod.snd).getD 0, s)
  else if o = 4 then some (blkVersion p * 256, s)
  else if o = 8 then some ((Config.blkCaps p).toNat, s)
  else if o = 0x10 then some (blkSts s p, s)
  else if o = 0x14 then some (65536 * pageDomain p + s.domState (pageDomain p), s)
  else if o = 0x20 then some (s.reg a, s.setH (.evtUnread p) 0)
  else if o = 0x50 ∨ o = 0x54 then some (readHalf r (Reg.PERF_CYC p) (o == 0x54) (perfCyc s p) s)
  else if 0x80 ≤ o ∧ o < 0xA0 then
    let s := perfSync p s
    some (s.reg a, s)
  else if 0x100 ≤ o ∧ o < 0x200 ∧ o ≠ 0x108 then some (s.reg (winBank r a), s)
  else none

/-- Latch a set of timestamp registers for requester `r` and return its fraction (R103: a read of FRAC latches the set). -/
def latchStamp (r : Req) (as : List Nat) (a : Nat) (s : State) : Nat × State :=
  (s.reg a, forEach as s fun x s => s.setReg (bank (40 + reqNo r) x) (s.reg x))

/-- Reads of the TIME page (R61, R76, R103); `RATE_TB` reads as the rate word in effect (R71). -/
def timeRead (r : Req) (f : RegRef) (a : Nat) (s : State) : Option (Nat × State) :=
  let j := f.idx
  let latched := some (s.reg (bank (40 + reqNo r) a), s)
  if a = Reg.TIME.TB_FRAC then some (readTbFrac r s)
  else if a = Reg.TIME.RATE_TB_LO then some ((effectiveRate s).toNat % 2 ^ 32, s)
  else if a = Reg.TIME.RATE_TB_HI then some ((effectiveRate s).toNat / 2 ^ 32 % 2 ^ 32, s)
  else if a = Reg.TIME.TB_NS ∨ a = Reg.TIME.TB_SEC_LO ∨ a = Reg.TIME.TB_SEC_HI then latched
  else if [Reg.TIME.TRK_FRAC 0, Reg.TIME.TRK_NS 0, Reg.TIME.TRK_SEC_LO 0, Reg.TIME.TRK_SEC_HI 0].any f.is then latched
  else if f.is (Reg.TIME.PPS_IN_TS_FRAC 0) then
    some (latchStamp r [a, Reg.TIME.PPS_IN_TS_NS j, Reg.TIME.PPS_IN_TS_SEC_LO j, Reg.TIME.PPS_IN_TS_SEC_HI j] a s)
  else if [Reg.TIME.PPS_IN_TS_NS 0, Reg.TIME.PPS_IN_TS_SEC_LO 0, Reg.TIME.PPS_IN_TS_SEC_HI 0].any f.is then latched
  else if a = Reg.TIME.FREQ_TS_FRAC then
    some (latchStamp r [a, Reg.TIME.FREQ_TS_NS, Reg.TIME.FREQ_TS_SEC_LO, Reg.TIME.FREQ_TS_SEC_HI] a s)
  else if a = Reg.TIME.FREQ_TS_NS ∨ a = Reg.TIME.FREQ_TS_SEC_LO ∨ a = Reg.TIME.FREQ_TS_SEC_HI then latched
  else if f.is (Reg.TIME.TSU_MODE_RX 0) then some (modeRx (portMode s j), s)
  else if f.is (Reg.TIME.TSU_MODE_TX 0) then some (modeTx (portMode s j), s)
  else none

/-- The register `a`, measured anew every `ivl` root-PLL cycles (R621): a free value that `ok` brings into its range, held until
the next measurement, whose number `k` keeps (notes/assumptions/3.md). -/
def measured (a : Nat) (k : Hid) (ivl : Nat) (ok : Nat → Nat) (s : State) : Option (Nat × State) :=
  let m := s.root / ivl + 1
  if m = s.hn k then some (s.reg a, s)
  else
    let (x, s) := s.free
    some (ok x, (s.setReg a (ok x)).setH k (m : Nat))

/-- A supply's voltage in mV: 2,700 to 5,500 while it is in range (R639). -/
def inRangeMv (bad : Bool) (x : Nat) : Nat := if bad then x % 2 ^ 14 else 2700 + x % 2801

/-- `TJ_MAX` (R621, R646): the last reading out of range while there is one, else a free value from −5 °C to 105 °C. -/
def tjRead (s : State) : Nat × State :=
  if s.h .tjNow ≠ 0 then (unsgn (s.h .tjNow - 129) 8, s)
  else
    let (x, s) := s.free
    (unsgn ((x % 111 : Nat) - 5 : Int) 8, s)

/-- A read of a block-specific register; none for a stored value. `OHP.STS.UNBOUND` reads 0 while `CFG.EN` = 0: no port is
bound then (R167, notes/assumptions/97.md). -/
def blockRead (r : Req) (f : RegRef) (a : Nat) (s : State) : Option (Nat × State) :=
  match f.kind with
  | .GLB =>
    if a = Reg.GLB.VIN_MV then measured a (.measAt 0) (cycUs 100) (inRangeMv (s.hb .vinBad)) s
    else if a = Reg.GLB.VAUX_MV then measured a (.measAt 1) (cycUs 100) (inRangeMv (s.hb .vauxBad)) s
    else if a = Reg.GLB.P_IN then measured a (.measAt 2) (cycUs 1000) (· % 2 ^ 16) s
    else if a = Reg.GLB.TJ_MAX then some (tjRead s)
    else none
  | .TIME => timeRead r f a s
  | .INTC =>
    if f.is (Reg.INTC.CLAIM 0) then some (claim r f.idx s)
    else if f.is (Reg.INTC.TGT_STS 0) then some (tgtSts s f.idx, s)
    else if f.is (Reg.INTC.PEND 0) then some (s.reg a, s.setH (.intcUnread f.idx) 0)
    else none
  | .PAIR => if f.is (Reg.PAIR.ENG_STS 0) then some (engSts s f.idx, s) else none
  | .PEG => if a = Reg.PEG.STORE_STS then some (s.reg (storeSts (reqNo r)), s) else none
  | .SEC => if f.is (Reg.SEC.DIE_ID 0) then some (fld Config.dieId.toNat (32 * f.idx) 32, s) else none
  | .HOST =>
    if a = Reg.HOST.HOST_STS then some (hostSts s, s)
    else if f.is (Reg.HOST.P_STS 0) then some (setFld (s.reg a) 0 16 (s.allAt (.host f.idx)).length, s)
    else none
  | .CAPO =>
    if a = Reg.CAPO.STS then some (capoSts s, s)
    else if f.is (Reg.CAPO.IN_FLIGHT 0) then some (s.hn (.inFlight f.idx) % 2 ^ 32, s)
    else if f.is (Reg.CAPO.DRAIN_CNT 0) then some (s.hn (.drainCnt f.idx) % 2 ^ 32, s)
    else if a = Reg.CAPO.SWEEP_PROG then some (sweepProg s, s)
    else none
  | .PFE => if a = Reg.PFE.LOAD then some (pfeLoad s, s) else none
  | .LPORT =>
    if a = Reg.LPORT.BW_SEQ f.inst then some (bwSeq r f.inst s)
    else if f.row.wide && f.row.off < 0x8000 then
      let v := s.reg (bwLatch r (a / 8 * 8))
      some (if f.word = 1 then v / 2 ^ 32 else v % 2 ^ 32, s)
    else none
  | .OHP =>
    if a = Reg.OHP.CLK_MEAS f.inst then some (clkMeas f.inst s)
    else if a = Reg.OHP.STS f.inst then some (setBit (s.reg a) 1 (bit (ohpCfg s f.inst) 31 && !isOtn s (ohpPort s f.inst)), s)
    else none
  | .TCAM =>
    if f.is (Reg.TCAM.VALID_ROWS 0) then some (validRows s f.idx, s)
    else if a = Reg.TCAM.FULL_GRP then some (fullGroups s, s)
    else none
  | .L2 =>
    if f.is (Reg.L2.NOTIFY 0) then some (fld ((s.notify.map BitVec.toNat).headD 0) (32 * f.idx) 32, s) else none
  | .SHAPE => if a = Reg.SHAPE.FRET_NOW then some (fretNow s, s) else none
  | _ => none

/-- A stored value read by its access code (R17, R18). -/
def plainRead (r : Req) (f : RegRef) (a : Nat) (s : State) : Nat × State :=
  match f.row.acc with
  | .wo => (0, s)
  | .rc => (s.reg a, s.setReg a 0)
  | _ => if f.row.wide then readHalf r (a / 8 * 8) (f.word == 1) (s.reg (a / 8 * 8)) s else (s.reg a, s)

/-- What a read of the occupied address `a` returns and does. -/
def readEffect (r : Req) (a : Nat) (s : State) : Nat × State :=
  match lookupReg a with
  | none => readShadow r a s
  | some f =>
    if !otnLane s f then (0, s)
    else
      match (if a % 0x10000 < 0x400 then headerRead r f.page (a % 0x10000) s else blockRead r f a s) with
      | some x => x
      | none => plainRead r f a s

/-- A register read of requester `r`. -/
def regRead (r : Req) (a : Nat) (s : State) : Nat × State := gateRead r a (readEffect r a) s

/-- A register read of requester `r`, its data returned. -/
def readOut (r : Req) (a : Nat) (s : State) : State :=
  readFor r a (readEffect r a) s

/-! ### The commands -/

/-- REGISTER_WRITE (R18). -/
def execRegisterWrite (r : Req) (a : BitVec 29) (v : W32) (s : State) : Host.Outcome State Fault Refusal :=
  done (regWrite r a.toNat v.toNat s)

/-- READ_LOW_HALF (R17); at an address that is no low half, the read is an ordinary one. -/
def execReadLowHalf (r : Req) (a : BitVec 29) (s : State) : Host.Outcome State Fault Refusal := done (readOut r a.toNat s)

/-- READ_CLEAR (R18); at the address of a register that no read clears, the read is an ordinary one. -/
def execReadClear (r : Req) (a : BitVec 29) (s : State) : Host.Outcome State Fault Refusal := done (readOut r a.toNat s)

/-- A write of `BLK_CTL` of page `p` that changes what `f` gives, and keeps the other fields. -/
def ctlWrite (r : Req) (p : Nat) (f : State → State) (s : State) : State := gateWrite r (Reg.BLK_CTL p) f s

/-- SOFT_RESET (R43). -/
def execSoftReset (r : Req) (p : Fin 8192) (s : State) : Host.Outcome State Fault Refusal := done (ctlWrite r p (softReset p) s)

/-- SOFT_RESET_DONE (R42): `SRST` clears itself. -/
def execSoftResetDone (p : Fin 8192) (s : State) : Host.Outcome State Fault Refusal :=
  done (s.when (s.rbit (Reg.BLK_CTL p) 1) fun s => s.setRbit (Reg.BLK_CTL p) 1 false)

/-- BLOCK_ENABLE (R45). -/
def execBlockEnable (r : Req) (p : Fin 8192) (s : State) : Host.Outcome State Fault Refusal := done (ctlWrite r p (enable p) s)

/-- BLOCK_DISABLE (R45). -/
def execBlockDisable (r : Req) (p : Fin 8192) (s : State) : Host.Outcome State Fault Refusal := done (ctlWrite r p (disable p) s)

/-- BLOCK_LOCK (R42). -/
def execBlockLock (r : Req) (p : Fin 8192) (s : State) : Host.Outcome State Fault Refusal :=
  done (ctlWrite r p (fun s => s.setRbit (Reg.BLK_CTL p) 2 true) s)

/-- DRONE_ENABLE (R564). -/
def execDroneEnable (r : Req) (p : Fin 8192) (s : State) : Host.Outcome State Fault Refusal := done (ctlWrite r p (droneOn p) s)

/-- EVT_PEND_WRITE (R46, R47). -/
def execEvtPendWrite (r : Req) (p : Fin 8192) (v : W32) (s : State) : Host.Outcome State Fault Refusal :=
  done (gateWrite r (Reg.EVT_PEND p) (evtPend p v.toNat) s)

/-- EVT_MASK_WRITE (R48). -/
def execEvtMaskWrite (r : Req) (p : Fin 8192) (v : W32) (s : State) : Host.Outcome State Fault Refusal :=
  done (gateWrite r (Reg.EVT_MASK p) (evtMask p v.toNat) s)

/-- PROFILE_SELECT (R41). -/
def execProfileSelect (r : Req) (v : W32) (s : State) : Host.Outcome State Fault Refusal :=
  done (gateWrite r Reg.GLB.PROFILE_SEL (profileSel r v.toNat) s)

/-- TBL_READ (R55). -/
def execTblRead (r : Req) (p : Fin 8192) (s : State) : Host.Outcome State Fault Refusal :=
  done (gateWrite r (Reg.TBL_CMD p) (cmdWrite r p 1) s)

/-- TBL_WRITE (R56). -/
def execTblWrite (r : Req) (p : Fin 8192) (s : State) : Host.Outcome State Fault Refusal :=
  done (gateWrite r (Reg.TBL_CMD p) (cmdWrite r p 2) s)

/-! ### BAR0 requests (R496) -/

/-- A BAR0 request that is refused for its width: counted and captured on the HOST page. -/
def accErr (a : Nat) (s : State) : State := errReq hostPage 0x10 .HOST a a (bump Reg.HOST.ACC_ERR s)

/-- A BAR0 read of `dw` DWORDs at byte address `a`; `be`: every byte enable is set. -/
def bar0Read (a dw : Nat) (be : Bool) (s : State) : State :=
  if dw = 1 ∧ a % 4 = 0 ∧ be then
    let (v, s) := regRead .HOST a s
    s.emit (.cpl false false (leBytes 4 v))
  else if dw = 2 ∧ a % 8 = 0 ∧ be then
    let (v, s) := regRead .HOST a s
    let (x, s) := regRead .HOST (a + 4) s
    s.emit (.cpl false false (leBytes 4 v ++ leBytes 4 x))
  else if dw ≤ 2 then (accErr a s).emit (.cpl false false (List.replicate (4 * dw) 0xFF))
  else cplUr (accErr a s)

/-- A BAR0 write of the DWORDs `ws` at byte address `a`. -/
def bar0Write (a : Nat) (be : Bool) (ws : List Nat) (s : State) : State :=
  match ws with
  | [v] => if a % 4 = 0 ∧ be then regWrite .HOST a v s else accErr a s
  | [v, x] => if a % 8 = 0 ∧ be then regWrite .HOST (a + 4) x (regWrite .HOST a v s) else accErr a s
  | _ => accErr a s

/-- BAR0_REQUEST (R496): a read of `dw` DWORDs, or a write of `w`, at byte address `a`. -/
def execBar0Request (a : BitVec 29) (dw : BitVec 11) (be : Bool) (w : Option (List W32)) (s : State) :
    Host.Outcome State Fault Refusal :=
  done (memReq w.isNone (match w with
    | some ws => bar0Write a.toNat be (ws.map BitVec.toNat)
    | none => bar0Read a.toNat dw.toNat be) s)

/-! ### BAR2 requests (R525 to R527) -/

/-- The active window that holds all of the `n` bytes at BAR2 offset `a`, if any. -/
def winAt (s : State) (a n : Nat) : Option Nat :=
  (List.range 8).find? fun w =>
    let (base, cfg, _) := hostWin s true w
    fld cfg 8 3 != 0 && base ≤ a && a + n ≤ base + 2 ^ fld cfg 0 6

/-- What holds byte `x` of the cell store: of the frame at this place of `frames`, a byte, or a byte of its punt metadata in its
host buffer (R509, R525); of the inject frame at this place of `injects`, a byte; or no frame. -/
inductive CellHolder where
  | frame (k j : Nat)
  | punt (k j : Nat)
  | inject (k j : Nat)
  | none

/-- The byte of frame `f`, the `k`-th, that lies at byte `x` of the cell store. -/
def frameHolds (s : State) (f : Frame) (k x : Nat) : Option CellHolder :=
  let c := x / 256
  if f.hbuf ≠ 0 ∧ bufPtr s f.hpool (f.hbuf - 1) ≤ c ∧ c < bufPtr s f.hpool (f.hbuf - 1) + poolCells f.hpool then
    let j := x - 256 * bufPtr s f.hpool (f.hbuf - 1)
    some (if j < 32 then .punt k j else .frame k (j - 32))
  else ((f.cells.findIdx? fun y => y.onDie && y.ptr == c).orElse fun _ => f.pre.findIdx? (· == c)).map fun j => .frame k (256 * j + x % 256)

/-- What holds byte `x` of the cell store. -/
def cellHolder (s : State) (x : Nat) : CellHolder :=
  match s.frames.zipIdx.findSome? fun (f, k) => frameHolds s f k x with
  | some h => h
  | Option.none =>
    match s.injects.zipIdx.findSome? fun (i, k) => (i.cells.findIdx? (· == x / 256)).map fun j => (k, 256 * j + x % 256) with
    | some (k, j) => .inject k j
    | Option.none => .none

/-- The byte that a holder has, if the frame has been received so far. -/
def heldByte (s : State) : CellHolder → Option Byte
  | .frame k j => (s.frames[k]?).bind fun f => f.bytes[j]?
  | .punt k j => (s.frames[k]?).bind fun f => (puntMeta f)[j]?
  | .inject k j => (s.injects[k]?).bind fun i => i.bytes[j]?
  | .none => Option.none

/-- Byte `x` of the cell store: a byte of the frame that holds it, what a window has written into its cell since the cell was last
granted, else a value that nothing tells. -/
def cellByte (x : Nat) (s : State) : Byte × State :=
  match heldByte s (cellHolder s x) with
  | some b => (b, s)
  | Option.none =>
    if bit (s.tab cellPage cellMark (x / 256)) (x % 256) then (Memory.read s.mem (memAddr .cell x), s) else
    let (v, s) := s.free
    (BitVec.ofNat 8 v, s)

/-- Store byte `x` of the cell store: it overwrites what lies there, whatever holds the cell (R453, R525). -/
def setCellByte (x : Nat) (b : Byte) (s : State) : State :=
  if (heldByte s (cellHolder s x)).isNone then
    (s.wrMem .cell x [b]).setTab cellPage cellMark (x / 256) (setBit (s.tab cellPage cellMark (x / 256)) (x % 256) true)
  else
    match cellHolder s x with
    | .frame k j => { s with frames := s.frames.modify k fun f => { f with bytes := overwrite f.bytes j [b] } }
    | .punt k j => { s with frames := s.frames.modify k fun f => { f with hmeta := overwrite (puntMeta f) j [b] } }
    | .inject k j => { s with injects := s.injects.modify k fun i => { i with bytes := overwrite i.bytes j [b] } }
    | .none => s

/-- The channel and the 64-byte block of its local address space that hold byte `x` of the deep store (R429). -/
def deepAt (s : State) (x : Nat) : Nat × Nat :=
  let k := popLog s
  let pg := x / 8192
  let c := fld pg 9 k ^^^ fld pg 0 k
  (c, (pg / 2 ^ (9 + k) * 512 + pg % 512) * 128 + x % 8192 / 64)

/-- Whether a block can be served: its channel is in service and has it. -/
def deepOk (s : State) (c idx : Nat) : Bool := s.h (.trainStep c) == 7 && decide (idx < chanPages s * 128)

/-- Whether a read of a block is good: it can be served, and is not known to be uncorrectable (R448). -/
def deepGood (s : State) (c idx : Nat) : Bool := deepOk s c idx && !bit (ueMark s c (idx / 128) (idx % 128 / 8)) (idx % 8)

/-- The 64 bytes of a block of the deep store. -/
def deepBlock (c idx : Nat) (s : State) : List Byte × State :=
  let r := deepRead c idx s
  (leBytes 64 r.1, r.2)

/-- `n` bytes of the deep store from byte `x`, and whether one of them was uncorrectable, as those of a channel out of
service are. -/
def deepBytes (x n : Nat) (s : State) : List Byte × Bool × State :=
  let blocks := (List.range ((x + n + 63) / 64 - x / 64)).map fun i => 64 * (x / 64 + i)
  let r := blocks.foldl (fun (acc : List Byte × Bool × State) y =>
    let b := deepAt acc.2.2 y
    let d := deepBlock b.1 b.2 (if deepOk acc.2.2 b.1 b.2 then swTouch b.1 b.2 false acc.2.2 else acc.2.2)
    (acc.1 ++ d.1, acc.2.1 || !deepGood d.2 b.1 b.2, d.2)) ([], false, s)
  ((r.1.drop (x % 64)).take n, r.2.1, r.2.2)

/-- Store bytes of the deep store from byte `x`; those of a channel out of service are lost. -/
def setDeepBytes (x : Nat) (bs : List Byte) (s : State) : State :=
  let blocks := (List.range ((x + bs.length + 63) / 64 - x / 64)).map fun i => 64 * (x / 64 + i)
  forEach blocks s fun y s =>
    let b := deepAt s y
    if !deepOk s b.1 b.2 then s else
    let old := deepBlock b.1 b.2 s
    let part := if y ≤ x then overwrite old.1 (x - y) bs else overwrite old.1 0 (bs.drop (y - x))
    deepWrite b.1 b.2 (leNat part) (swTouch b.1 b.2 true old.2)

/-- A read of `n` bytes through window target `tgt` at its byte `x` (R525). -/
def winRead (tgt x n : Nat) (ue : Bool) (s : State) : State :=
  if tgt = 1 then bar0Read x (cdiv (x % 4 + n) 4) (x % 4 == 0 && n % 4 == 0) s
  else if tgt = 2 then
    let (bs, s) := (List.range n).foldl (fun (acc : List Byte × State) i =>
      let (b, t) := cellByte (x + i) acc.2
      (acc.1 ++ [b], t)) ([], s)
    s.emit (.cpl false ue bs)
  else
    let r := deepBytes x n s
    r.2.2.emit (.cpl false (ue || r.2.1) r.1)

/-- A write of bytes through window target `tgt` at its byte `x` (R525). -/
def winWrite (tgt x : Nat) (bs : List Byte) (s : State) : State :=
  let n := bs.length
  if tgt = 1 then
    bar0Write x (x % 4 == 0 && n % 4 == 0) ((List.range (cdiv (x % 4 + n) 4)).map fun i => leNat ((bs.drop (4 * i)).take 4)) s
  else if tgt = 2 then forEach bs.zipIdx s fun (b, i) s => setCellByte (x + i) b s
  else setDeepBytes x bs s

/-- A BAR2 request: a read of `n` bytes, or a write of `w`, at BAR2 offset `a`; `ue`: the read meets an uncorrectable error. -/
def bar2 (a n : Nat) (w : Option (List Byte)) (ue : Bool) (s : State) : State :=
  let refuse := fun (s : State) => if w.isNone then cplUr s else s
  if s.rbit Reg.HOST.CONTAIN 31 || !s.live hostPage then refuse s
  else
    match winAt s a (max n 1) with
    | none => refuse (bump Reg.HOST.WIN_MISS s)
    | some i =>
      let (base, cfg, tgt) := hostWin s true i
      if !bit cfg (if w.isSome then 30 else 31) then refuse (bump Reg.HOST.WIN_DENY s)
      else
        match w with
        | some bs => winWrite (fld cfg 8 3) (tgt + (a - base)) bs s
        | none => winRead (fld cfg 8 3) (tgt + (a - base)) n ue s

/-- BAR2_REQUEST (R525 to R527). -/
def execBar2Request (a : W32) (n : BitVec 13) (w : Option (List Byte)) (ue : Bool) (s : State) :
    Host.Outcome State Fault Refusal :=
  done (memReq w.isNone (bar2 a.toNat (match w with | some bs => bs.length | none => n.toNat) w ue) s)

end Sys2Proof.Machine
end

