-- ==== Sys2Proof/Machine/Bridge.lean ====
section
/-!
DEFINITION. The Bridge between the dies (spec/01_architecture.md, R29 to R33). Bundles are counted per direction: bundle
`k` = 100 × direction + bundle, direction 0 F to Q, 1 Q to F.
-/
namespace Sys2Proof.Machine

/-- The register of spare lanes in use of bundle `k` (R33). -/
def bndSts (k : Nat) : Nat := if k < 100 then Reg.BRIDGE.BND_STS_FQ k else Reg.BRIDGE.BND_STS_QF (k - 100)

/-- The register that marks bundle `k` out of service, and its bit (R33). -/
def bndDown (k : Nat) : Nat × Nat :=
  if k < 100 then (Reg.BRIDGE.BND_DOWN_FQ (k / 32), k % 32)
  else (Reg.BRIDGE.BND_DOWN_QF ((k - 100) / 32), (k - 100) % 32)

/-- Whether bundle `k` is out of service (R32). -/
def bundleOut (s : State) (k : Nat) : Bool := s.rbit (bndDown k).1 (bndDown k).2

/-- A transfer on lane `lane` of bundle `k` fails its CRC and is replayed; the frames it carries are not affected (R30). -/
def bridgeCrcFail (k lane : Nat) (s : State) : State :=
  if bundleOut s k then s else
  let s := faultRecord 4 bridgePage k (bump Reg.BRIDGE.REPLAY_CNT (bump Reg.BRIDGE.CRC_ERR_CNT s))
  s.setH (.laneErr (68 * k + lane)) (s.h (.laneErr (68 * k + lane)) + 1)

/-- BRIDGE_CRC_FAIL (R30). -/
def execBridgeCrcFail (qf : Bool) (b : Fin 100) (lane : Fin 68) (s : State) : Host.Outcome State Fault Refusal :=
  done (s.ifLive bridgePage (bridgeCrcFail (100 * ofB qf + b) lane))

/-- Bundle `k` is taken out of service: its bit, the direction's capacity and event BUNDLE_DOWN (R32). -/
def bundleTakeDown (k : Nat) (s : State) : State :=
  let cap := if k < 100 then Reg.BRIDGE.CAP_FQ else Reg.BRIDGE.CAP_QF
  let s := (s.setRbit (bndDown k).1 (bndDown k).2 true).setReg cap (s.reg cap - 1)
  raiseFault bridgePage 2 17 k (s.setH (.laneMark k) 0)

/-- A lane of bundle `k` is marked for replacement; a bundle that needs a fifth replacement lane is taken out of service
(R31, R32). -/
def laneMarked (k : Nat) (s : State) : State :=
  if bundleOut s k then s
  else if s.reg (bndSts k) + s.hn (.laneMark k) < 4 then s.setH (.laneMark k) (s.h (.laneMark k) + 1)
  else bundleTakeDown k s

/-- The lanes with CRC errors in the running window, with their counts. -/
def laneErrors (s : State) : List (Nat × Int) :=
  (s.hid.filter fun e => e.1 / 2 ^ 96 == (Hid.laneErr 0).code / 2 ^ 96).map fun e => (e.1 % 2 ^ 96, e.2)

/-- The end of a 1 ms window: each lane above `SPARE_THR` is marked, and the counts start again (R31). -/
def laneErrWindow (s : State) : State :=
  let thr : Int := s.reg Reg.BRIDGE.SPARE_THR
  forEach (laneErrors s) s fun (l, n) s =>
    let s := s.setH (.laneErr l) 0
    if thr < n then laneMarked (l / 68) s else s

/-- LANE_ERR_WINDOW (R31). -/
def execLaneErrWindow (s : State) : Host.Outcome State Fault Refusal :=
  done (s.ifLive bridgePage fun s => laneErrWindow (nextInterval bridgePage .laneWin (cycUs 1000) s))

/-- A substitution completes on bundle `k`: a spare is in use, SPARED_CNT counts it, and the fourth raises
SPARES_EXHAUSTED (R31, R33). -/
def laneSpared (k : Nat) (s : State) : State :=
  if s.h (.laneMark k) ≤ 0 then s else
  let s := s.setH (.laneMark k) (s.h (.laneMark k) - 1)
  let s := s.setReg (bndSts k) (s.reg (bndSts k) + 1)
  let s := raiseFault bridgePage 0 5 k (bump Reg.BRIDGE.SPARED_CNT s)
  if s.reg (bndSts k) = 4 then raise bridgePage 1 s else s

/-- LANE_SPARED (R31). -/
def execLaneSpared (qf : Bool) (b : Fin 100) (s : State) : Host.Outcome State Fault Refusal :=
  done (s.ifLive bridgePage (laneSpared (100 * ofB qf + b)))

end Sys2Proof.Machine
end

