-- ==== Sys2Proof/Machine/Dispatch.lean ====
section
/-!
DEFINITION. The effect of a command: one arm per constructor of `Instr`, each one call of its meaning.
-/
namespace Sys2Proof.Machine

/-- The effect of a command on everything but the queue. -/
def exec (i : Instr) (s : State) : Host.Outcome State Fault Refusal :=
  match i with
  | .registerWrite r a v => Sys2Proof.Machine.execRegisterWrite r a v s
  | .readLowHalf r a => Sys2Proof.Machine.execReadLowHalf r a s
  | .readClear r a => Sys2Proof.Machine.execReadClear r a s
  | .softReset r p => Sys2Proof.Machine.execSoftReset r p s
  | .softResetDone p => Sys2Proof.Machine.execSoftResetDone p s
  | .blockEnable r p => Sys2Proof.Machine.execBlockEnable r p s
  | .blockDisable r p => Sys2Proof.Machine.execBlockDisable r p s
  | .blockLock r p => Sys2Proof.Machine.execBlockLock r p s
  | .droneEnable r p => Sys2Proof.Machine.execDroneEnable r p s
  | .evtPendWrite r p v => Sys2Proof.Machine.execEvtPendWrite r p v s
  | .evtMaskWrite r p v => Sys2Proof.Machine.execEvtMaskWrite r p v s
  | .profileSelect r v => Sys2Proof.Machine.execProfileSelect r v s
  | .tblRead r p => Sys2Proof.Machine.execTblRead r p s
  | .tblWrite r p => Sys2Proof.Machine.execTblWrite r p s
  | .tblCmdComplete r p => Sys2Proof.Machine.execTblCmdComplete r p s
  | .bridgeCrcFail qf b lane => Sys2Proof.Machine.execBridgeCrcFail qf b lane s
  | .laneErrWindow => Sys2Proof.Machine.execLaneErrWindow s
  | .laneSpared qf b => Sys2Proof.Machine.execLaneSpared qf b s
  | .startOfFrameRx n dt => Sys2Proof.Machine.execStartOfFrameRx n dt s
  | .headerCellHandoff n bytes absorb => Sys2Proof.Machine.execHeaderCellHandoff n bytes absorb s
  | .pipelineEntry g recirc node => Sys2Proof.Machine.execPipelineEntry g recirc node s
  | .frameTailRx n bytes fcsGood errBlock => Sys2Proof.Machine.execFrameTailRx n bytes fcsGood errBlock s
  | .macCtlFrameRx n => Sys2Proof.Machine.execMacCtlFrameRx n s
  | .pauseExpire n c => Sys2Proof.Machine.execPauseExpire n c s
  | .flowControlTx n set => Sys2Proof.Machine.execFlowControlTx n set s
  | .fcRefresh n => Sys2Proof.Machine.execFcRefresh n s
  | .admission q carry => Sys2Proof.Machine.execAdmission q carry s
  | .bufferGrant => Sys2Proof.Machine.execBufferGrant s
  | .tailCellArrival q ue => Sys2Proof.Machine.execTailCellArrival q ue s
  | .bufferFree ag ix ptr => Sys2Proof.Machine.execBufferFree ag ix ptr s
  | .spillPageWrite q ue => Sys2Proof.Machine.execSpillPageWrite q ue s
  | .pageWriteDone q => Sys2Proof.Machine.execPageWriteDone q s
  | .returnPrefetch q => Sys2Proof.Machine.execReturnPrefetch q s
  | .pageReturned q => Sys2Proof.Machine.execPageReturned q s
  | .ageSweepPass => Sys2Proof.Machine.execAgeSweepPass s
  | .voqFrameStart e ue => Sys2Proof.Machine.execVoqFrameStart e ue s
  | .dataCellTx d c => Sys2Proof.Machine.execDataCellTx d c s
  | .dataCellRx l x err => Sys2Proof.Machine.execDataCellRx l x err s
  | .syncHoldExpire c => Sys2Proof.Machine.execSyncHoldExpire c s
  | .ctxIdleExpire c => Sys2Proof.Machine.execCtxIdleExpire c s
  | .reseqTimeout c => Sys2Proof.Machine.execReseqTimeout c s
  | .seqQuietEnd => Sys2Proof.Machine.execSeqQuietEnd s
  | .seqQuietWrite r v => Sys2Proof.Machine.execSeqQuietWrite r v s
  | .schedSelection full ue => Sys2Proof.Machine.execSchedSelection full ue s
  | .egressPipeline g => Sys2Proof.Machine.execEgressPipeline g s
  | .frameTx n dt => Sys2Proof.Machine.execFrameTx n dt s
  | .txAbort n => Sys2Proof.Machine.execTxAbort n s
  | .recircEntry g => Sys2Proof.Machine.execRecircEntry g s
  | .mapCommit r g v => Sys2Proof.Machine.execMapCommit r g v s
  | .mapApplied g => Sys2Proof.Machine.execMapApplied g s
  | .macCfgWrite r n v => Sys2Proof.Machine.execMacCfgWrite r n v s
  | .loopbackWrite r n v => Sys2Proof.Machine.execLoopbackWrite r n v s
  | .signalDetect n => Sys2Proof.Machine.execSignalDetect n s
  | .alignmentLock n => Sys2Proof.Machine.execAlignmentLock n s
  | .deskewMeasured n skews => Sys2Proof.Machine.execDeskewMeasured n skews s
  | .upHoldExpire n => Sys2Proof.Machine.execUpHoldExpire n s
  | .alignmentLoss n => Sys2Proof.Machine.execAlignmentLoss n s
  | .signalLoss n k => Sys2Proof.Machine.execSignalLoss n k s
  | .rclkResume r => Sys2Proof.Machine.execRclkResume r s
  | .faultSetsRx n remote => Sys2Proof.Machine.execFaultSetsRx n remote s
  | .faultSetsAbsent n => Sys2Proof.Machine.execFaultSetsAbsent n s
  | .fecWindow n corr uncorr sym => Sys2Proof.Machine.execFecWindow n corr uncorr sym s
  | .flexoLock n skew nums => Sys2Proof.Machine.execFlexoLock n skew nums s
  | .flexoLockLoss n ix => Sys2Proof.Machine.execFlexoLockLoss n ix s
  | .fasSighting n ix pos mfas => Sys2Proof.Machine.execFasSighting n ix pos mfas s
  | .candidateCheck n ix checks => Sys2Proof.Machine.execCandidateCheck n ix checks s
  | .otnFrameRx n x => Sys2Proof.Machine.execOtnFrameRx n x s
  | .defectPersistTimer n k => Sys2Proof.Machine.execDefectPersistTimer n k s
  | .degInterval n => Sys2Proof.Machine.execDegInterval n s
  | .consequentActionBoundary n e => Sys2Proof.Machine.execConsequentActionBoundary n e s
  | .txForceApply n => Sys2Proof.Machine.execTxForceApply n s
  | .ohpCfgWrite r k v => Sys2Proof.Machine.execOhpCfgWrite r k v s
  | .ohpFrameBoundary k e => Sys2Proof.Machine.execOhpFrameBoundary k e s
  | .recentre r k v => Sys2Proof.Machine.execRecentre r k v s
  | .clkLoss k => Sys2Proof.Machine.execClkLoss k s
  | .ohpClkReturn k => Sys2Proof.Machine.execOhpClkReturn k s
  | .keyLoad r => Sys2Proof.Machine.execKeyLoad r s
  | .walk r => Sys2Proof.Machine.execWalk r s
  | .rowMove r => Sys2Proof.Machine.execRowMove r s
  | .tcamScrubRow pos ok => Sys2Proof.Machine.execTcamScrubRow pos ok s
  | .sliceCfgWrite r k v => Sys2Proof.Machine.execSliceCfgWrite r k v s
  | .insert r l2 => Sys2Proof.Machine.execInsert r l2 s
  | .delete r l2 => Sys2Proof.Machine.execDelete r l2 s
  | .lookup r l2 => Sys2Proof.Machine.execLookup r l2 s
  | .routeAdd r => Sys2Proof.Machine.execRouteAdd r s
  | .routeDel r => Sys2Proof.Machine.execRouteDel r s
  | .routeMod r => Sys2Proof.Machine.execRouteMod r s
  | .routeGet r => Sys2Proof.Machine.execRouteGet r s
  | .routeMatch r => Sys2Proof.Machine.execRouteMatch r s
  | .seedWrite r k v => Sys2Proof.Machine.execSeedWrite r k v s
  | .learnUpdate g => Sys2Proof.Machine.execLearnUpdate g s
  | .moveTick => Sys2Proof.Machine.execMoveTick s
  | .ageTick => Sys2Proof.Machine.execAgeTick s
  | .ageScanVisit g pos k => Sys2Proof.Machine.execAgeScanVisit g pos k s
  | .notifyPop r v => Sys2Proof.Machine.execNotifyPop r v s
  | .tableScrub p sel idx ok => Sys2Proof.Machine.execTableScrub p sel idx ok s
  | .lpmNodeRepair idx storeOk => Sys2Proof.Machine.execLpmNodeRepair idx storeOk s
  | .flipCmd r v => Sys2Proof.Machine.execFlipCmd r v s
  | .flipArm r v => Sys2Proof.Machine.execFlipArm r v s
  | .flipDisarm r v => Sys2Proof.Machine.execFlipDisarm r v s
  | .flipTimeReached => Sys2Proof.Machine.execFlipTimeReached s
  | .flipApply => Sys2Proof.Machine.execFlipApply s
  | .inFlightZero => Sys2Proof.Machine.execInFlightZero s
  | .settleExpire => Sys2Proof.Machine.execSettleExpire s
  | .sweepConversion p sel ix => Sys2Proof.Machine.execSweepConversion p sel ix s
  | .sweepComplete => Sys2Proof.Machine.execSweepComplete s
  | .drainTimeout => Sys2Proof.Machine.execDrainTimeout s
  | .drainForce r v => Sys2Proof.Machine.execDrainForce r v s
  | .hpCountWrite r h v => Sys2Proof.Machine.execHpCountWrite r h v s
  | .alloc r => Sys2Proof.Machine.execAlloc r s
  | .free r => Sys2Proof.Machine.execFree r s
  | .query r => Sys2Proof.Machine.execQuery r s
  | .ageLimitWrite r v => Sys2Proof.Machine.execAgeLimitWrite r v s
  | .statusRepeat q => Sys2Proof.Machine.execStatusRepeat q s
  | .creditCellTx d => Sys2Proof.Machine.execCreditCellTx d s
  | .creditCellRx l x err => Sys2Proof.Machine.execCreditCellRx l x err s
  | .creditFlowTimeout ix => Sys2Proof.Machine.execCreditFlowTimeout ix s
  | .creditPacerGrant p => Sys2Proof.Machine.execCreditPacerGrant p s
  | .fretRelease ix => Sys2Proof.Machine.execFretRelease ix s
  | .coarseFretAdvance => Sys2Proof.Machine.execCoarseFretAdvance s
  | .farListScan => Sys2Proof.Machine.execFarListScan s
  | .fabricLinkEnable r l v => Sys2Proof.Machine.execFabricLinkEnable r l v s
  | .linkDrainWrite r l v => Sys2Proof.Machine.execLinkDrainWrite r l v s
  | .fabricSignalDetect l => Sys2Proof.Machine.execFabricSignalDetect l s
  | .codewordLock l => Sys2Proof.Machine.execCodewordLock l s
  | .codewordLockLoss l => Sys2Proof.Machine.execCodewordLockLoss l s
  | .fabricSignalLoss l => Sys2Proof.Machine.execFabricSignalLoss l s
  | .controlWordRx l w => Sys2Proof.Machine.execControlWordRx l w s
  | .fabricUpHoldExpire l => Sys2Proof.Machine.execFabricUpHoldExpire l s
  | .linkDegWindow l corr uncorr sym => Sys2Proof.Machine.execLinkDegWindow l corr uncorr sym s
  | .kaLoss l => Sys2Proof.Machine.execKaLoss l s
  | .keepaliveTx l => Sys2Proof.Machine.execKeepaliveTx l s
  | .keepaliveRx l x err => Sys2Proof.Machine.execKeepaliveRx l x err s
  | .kaIvlWrite r reach v => Sys2Proof.Machine.execKaIvlWrite r reach v s
  | .reachCellTx l => Sys2Proof.Machine.execReachCellTx l s
  | .reachCellRx l x err => Sys2Proof.Machine.execReachCellRx l x err s
  | .reachSegmentTimeout l g => Sys2Proof.Machine.execReachSegmentTimeout l g s
  | .popCfgWrite r v => Sys2Proof.Machine.execPopCfgWrite r v s
  | .bmapWrite r c b v => Sys2Proof.Machine.execBmapWrite r c b v s
  | .bringupStart r c => Sys2Proof.Machine.execBringupStart r c s
  | .trainStepDone c fail spd rfm => Sys2Proof.Machine.execTrainStepDone c fail spd rfm s
  | .dsReady => Sys2Proof.Machine.execDsReady s
  | .dramOperation c => Sys2Proof.Machine.execDramOperation c s
  | .dramOpComplete c k errs => Sys2Proof.Machine.execDramOpComplete c k errs s
  | .dramRefresh c k what => Sys2Proof.Machine.execDramRefresh c k what s
  | .refreshRatePoll c k half => Sys2Proof.Machine.execRefreshRatePoll c k half s
  | .zqCalibration c sr => Sys2Proof.Machine.execZqCalibration c sr s
  | .dqsOscMeasure c sr far => Sys2Proof.Machine.execDqsOscMeasure c sr far s
  | .retrainNow r c v => Sys2Proof.Machine.execRetrainNow r c v s
  | .fullRetrainDone c ok => Sys2Proof.Machine.execFullRetrainDone c ok s
  | .rhWindowClear c => Sys2Proof.Machine.execRhWindowClear c s
  | .patrolRead c => Sys2Proof.Machine.execPatrolRead c s
  | .dimmTempRead c t => Sys2Proof.Machine.execDimmTempRead c t s
  | .processorLoad k => Sys2Proof.Machine.execProcessorLoad k s
  | .coreLoadDone x ok => Sys2Proof.Machine.execCoreLoadDone x ok s
  | .coreFault x cause => Sys2Proof.Machine.execCoreFault x cause s
  | .wdtKick r v => Sys2Proof.Machine.execWdtKick r v s
  | .handover r v => Sys2Proof.Machine.execHandover r v s
  | .takeover => Sys2Proof.Machine.execTakeover s
  | .mirrorStore a bs => Sys2Proof.Machine.execMirrorStore a bs s
  | .syncComplete x => Sys2Proof.Machine.execSyncComplete x s
  | .reload r v => Sys2Proof.Machine.execReload r v s
  | .coreAutoReload x => Sys2Proof.Machine.execCoreAutoReload x s
  | .doorbell r v => Sys2Proof.Machine.execDoorbell r v s
  | .claim r t => Sys2Proof.Machine.execClaim r t s
  | .eoi r t v => Sys2Proof.Machine.execEoi r t v s
  | .setpri r t v => Sys2Proof.Machine.execSetpri r t v s
  | .pendWrite r w v => Sys2Proof.Machine.execPendWrite r w v s
  | .intcMaskWrite r w v => Sys2Proof.Machine.execIntcMaskWrite r w v s
  | .holdoffExpire w t => Sys2Proof.Machine.execHoldoffExpire w t s
  | .coreIdleEnter t => Sys2Proof.Machine.execCoreIdleEnter t s
  | .pfeEmission carry => Sys2Proof.Machine.execPfeEmission carry s
  | .pfeMissed ix => Sys2Proof.Machine.execPfeMissed ix s
  | .bar0Request a dw be w => Sys2Proof.Machine.execBar0Request a dw be w s
  | .bar2Request a n w ue => Sys2Proof.Machine.execBar2Request a n w ue s
  | .winCommit r v => Sys2Proof.Machine.execWinCommit r v s
  | .puntWrite r addrs ue => Sys2Proof.Machine.execPuntWrite r addrs ue s
  | .puntAgeDrop r => Sys2Proof.Machine.execPuntAgeDrop r s
  | .pTailWrite r k v => Sys2Proof.Machine.execPTailWrite r k v s
  | .iTailWrite r k v => Sys2Proof.Machine.execITailWrite r k v s
  | .injectRead whole descs => Sys2Proof.Machine.execInjectRead whole descs s
  | .readCompletion ix data sts aer => Sys2Proof.Machine.execReadCompletion ix data sts aer s
  | .injectOffer ix carry => Sys2Proof.Machine.execInjectOffer ix carry s
  | .injectWriteback ix => Sys2Proof.Machine.execInjectWriteback ix s
  | .completionTimeout ix => Sys2Proof.Machine.execCompletionTimeout ix s
  | .bmeClear => Sys2Proof.Machine.execBmeClear s
  | .bmeSet => Sys2Proof.Machine.execBmeSet s
  | .ringEnable r k v => Sys2Proof.Machine.execRingEnable r k v s
  | .msixHoldEnd v => Sys2Proof.Machine.execMsixHoldEnd v s
  | .flr => Sys2Proof.Machine.execFlr s
  | .flrDone => Sys2Proof.Machine.execFlrDone s
  | .pcieLinkDown announced => Sys2Proof.Machine.execPcieLinkDown announced s
  | .release r v => Sys2Proof.Machine.execRelease r v s
  | .perstAssert => Sys2Proof.Machine.execPerstAssert s
  | .spdmRequest elo msg => Sys2Proof.Machine.execSpdmRequest elo msg s
  | .bootStart flashOk => Sys2Proof.Machine.execBootStart flashOk s
  | .keyRevoke r v => Sys2Proof.Machine.execKeyRevoke r v s
  | .svnCommit r v => Sys2Proof.Machine.execSvnCommit r v s
  | .engReload r v => Sys2Proof.Machine.execEngReload r v s
  | .engReloadDone => Sys2Proof.Machine.execEngReloadDone s
  | .runSlotWrite r v => Sys2Proof.Machine.execRunSlotWrite r v s
  | .hello h idle => Sys2Proof.Machine.execHello h idle s
  | .slotInfo h slot => Sys2Proof.Machine.execSlotInfo h slot s
  | .erase h slot => Sys2Proof.Machine.execErase h slot s
  | .eraseDone ok => Sys2Proof.Machine.execEraseDone ok s
  | .eloatalWrite h slot off data => Sys2Proof.Machine.execEloatalWrite h slot off data s
  | .eloatalRead h slot off n => Sys2Proof.Machine.execEloatalRead h slot off n s
  | .setBoot h v => Sys2Proof.Machine.execSetBoot h v s
  | .eloatalReset h => Sys2Proof.Machine.execEloatalReset h s
  | .store r v => Sys2Proof.Machine.execStore r v s
  | .storeDone ok => Sys2Proof.Machine.execStoreDone ok s
  | .lifetimeStore hourly => Sys2Proof.Machine.execLifetimeStore hourly s
  | .perfWrap p => Sys2Proof.Machine.execPerfWrap p s
  | .bwWindowEnd n => Sys2Proof.Machine.execBwWindowEnd n s
  | .bwSeqRead r n => Sys2Proof.Machine.execBwSeqRead r n s
  | .bwCfgWrite r n v => Sys2Proof.Machine.execBwCfgWrite r n v s
  | .fsCfgWrite r v => Sys2Proof.Machine.execFsCfgWrite r v s
  | .fold ix => Sys2Proof.Machine.execFold ix s
  | .fsVisit ix => Sys2Proof.Machine.execFsVisit ix s
  | .fsRead r => Sys2Proof.Machine.execFsRead r s
  | .fsClear r => Sys2Proof.Machine.execFsClear r s
  | .snapArm r => Sys2Proof.Machine.execSnapArm r s
  | .snapDisarm r => Sys2Proof.Machine.execSnapDisarm r s
  | .snapNow r => Sys2Proof.Machine.execSnapNow r s
  | .snapCut => Sys2Proof.Machine.execSnapCut s
  | .snapMoverCopy a => Sys2Proof.Machine.execSnapMoverCopy a s
  | .snapDone => Sys2Proof.Machine.execSnapDone s
  | .fsDone => Sys2Proof.Machine.execFsDone s
  | .openClear r v => Sys2Proof.Machine.execOpenClear r v s
  | .pllUnlock => Sys2Proof.Machine.execPllUnlock s
  | .pipeWdtSample units => Sys2Proof.Machine.execPipeWdtSample units s
  | .supplyDroop d => Sys2Proof.Machine.execSupplyDroop d s
  | .tjOutOfRange t => Sys2Proof.Machine.execTjOutOfRange t s
  | .vauxPowerOn => Sys2Proof.Machine.execVauxPowerOn s
  | .vauxLoss => Sys2Proof.Machine.execVauxLoss s
  | .vinLoss => Sys2Proof.Machine.execVinLoss s
  | .vinRestart => Sys2Proof.Machine.execVinRestart s
  | .vinInRange => Sys2Proof.Machine.execVinInRange s
  | .domainSwitchOn r d => Sys2Proof.Machine.execDomainSwitchOn r d s
  | .rampStart => Sys2Proof.Machine.execRampStart s
  | .domainOn d => Sys2Proof.Machine.execDomainOn d s
  | .domainSwitchOff r d => Sys2Proof.Machine.execDomainSwitchOff r d s
  | .domainRestart d => Sys2Proof.Machine.execDomainRestart d s
  | .serdesPllLockTimeout d => Sys2Proof.Machine.execSerdesPllLockTimeout d s
  | .rootPllLock => Sys2Proof.Machine.execRootPllLock s
  | .pllLossReset => Sys2Proof.Machine.execPllLossReset s
  | .sysRstAssert => Sys2Proof.Machine.execSysRstAssert s
  | .sysRstRelease testMode => Sys2Proof.Machine.execSysRstRelease testMode s
  | .devReset r v => Sys2Proof.Machine.execDevReset r v s
  | .rateTbLoWrite r x v => Sys2Proof.Machine.execRateTbLoWrite r x v s
  | .rateTbHiWrite r x v => Sys2Proof.Machine.execRateTbHiWrite r x v s
  | .tbFracRead r => Sys2Proof.Machine.execTbFracRead r s
  | .tbCtlWrite r v => Sys2Proof.Machine.execTbCtlWrite r v s
  | .stepCmd r v => Sys2Proof.Machine.execStepCmd r v s
  | .stepRearm r v => Sys2Proof.Machine.execStepRearm r v s
  | .trkStepCmd r x v => Sys2Proof.Machine.execTrkStepCmd r x v s
  | .slewDone => Sys2Proof.Machine.execSlewDone s
  | .refLoss x => Sys2Proof.Machine.execRefLoss x s
  | .followerRealign => Sys2Proof.Machine.execFollowerRealign s
  | .ppsInEdge ix dt => Sys2Proof.Machine.execPpsInEdge ix dt s
  | .ppsLoss ix => Sys2Proof.Machine.execPpsLoss ix s
  | .ppsRearm r ix v => Sys2Proof.Machine.execPpsRearm r ix v s
  | .ppsOutEdge ix => Sys2Proof.Machine.execPpsOutEdge ix s
  | .ppsPulseEnd ix => Sys2Proof.Machine.execPpsPulseEnd ix s
  | .todTxStart => Sys2Proof.Machine.execTodTxStart s
  | .todRxMessage msg framing => Sys2Proof.Machine.execTodRxMessage msg framing s
  | .todLoss => Sys2Proof.Machine.execTodLoss s
  | .freqEdge dt => Sys2Proof.Machine.execFreqEdge dt s
  | .freqLoss => Sys2Proof.Machine.execFreqLoss s
  | .launchStageEntry n => Sys2Proof.Machine.execLaunchStageEntry n s
  | .timedFrameStart n dt => Sys2Proof.Machine.execTimedFrameStart n dt s
  | .launchDeadline n => Sys2Proof.Machine.execLaunchDeadline n s
  | .windowCommit r n v => Sys2Proof.Machine.execWindowCommit r n v s
  | .windowPeriodBoundary n => Sys2Proof.Machine.execWindowPeriodBoundary n s
  | .pcieLinkUp width speed => Sys2Proof.Machine.execPcieLinkUp width speed s
  | .perstRelease => Sys2Proof.Machine.execPerstRelease s
  | .interruptDisableWrite dis cfg => Sys2Proof.Machine.execInterruptDisableWrite dis cfg s
  | .bar4Request t => Sys2Proof.Machine.execBar4Request t s
  | .runSlotCheckDone => Sys2Proof.Machine.execRunSlotCheckDone s

end Sys2Proof.Machine
end

