-- ==== Sys2Proof/Safety.lean ====
section
/-!
DEFINITION. What counts as a sane state, which areas of the state a command may change, and what every command keeps: the
terms the statements use.
-/
namespace Sys2Proof.Machine

/-- A sane state: every sparse map in its canonical form, no interrupt stack above its 16 entries (R474), the notification
FIFO within its 16,384 entries (R258). -/
structure Sane (s : State) : Prop where
  regs : Smap.Canonical regDefault s.regs
  tabs : Smap.Canonical tabDefault s.tabs
  mem : Memory.wf s.mem
  hid : Smap.Canonical (fun _ => (0 : Int)) s.hid
  bufs : Smap.Canonical (fun _ => (0 : Nat)) s.bufs
  intStacks : ∀ t, (stackOf s t).length ≤ 16
  notify : s.notify.length ≤ 16384

/-- The areas of the state beside registers, tables, hidden numbers and outputs. -/
inductive Area where
  /-- Frames, buffers, page writes, page reads and inject frames (chapters 3, 8, 9, 13). -/
  | frames
  /-- Credit flows and messages, cells on the local path, in the transmit buffers and in the resequencer (chapters 9 and 10). -/
  | fabric
  /-- The byte memories: flash, Pegbox, SRAMs, image cache, engine memories, deep store and cell store. -/
  | memory
  /-- The time base, the trackers, the follower and the root-PLL cycle count (chapter 2). -/
  | time
  /-- The learn queues, the notification FIFO and its reports (chapter 6). -/
  | learn
  /-- The interrupt stacks (R474). -/
  | intStacks
  /-- Deep-store operations waiting and in flight, and the activate counts (chapter 11). -/
  | dram
  /-- The store agent, flash operations, Eloatal, DOE and SPDM, ramp requests, frame hunts and waiting LPM commands (chapters 4, 6, 14, 17). -/
  | agents
  deriving DecidableEq, Repr

/-- The area is the same in both states. -/
def Area.same (z s : State) : Area → Prop
  | .frames => s.frames = z.frames ∧ s.bufs = z.bufs ∧ s.injects = z.injects ∧ s.pageWrites = z.pageWrites ∧
    s.pageReads = z.pageReads
  | .fabric => s.flows = z.flows ∧ s.credQ = z.credQ ∧ s.localPath = z.localPath ∧ s.txLinks = z.txLinks ∧ s.held = z.held
  | .memory => s.mem = z.mem
  | .time => s.tb = z.tb ∧ s.trkA = z.trkA ∧ s.trkB = z.trkB ∧ s.fol = z.fol ∧ s.root = z.root
  | .learn => s.learnQ = z.learnQ ∧ s.notify = z.notify ∧ s.reports = z.reports
  | .intStacks => s.intStacks = z.intStacks
  | .dram => s.dramWait = z.dramWait ∧ s.dramOps = z.dramOps ∧ s.rhRows = z.rhRows ∧ s.rhCands = z.rhCands
  | .agents => s.pegJobs = z.pegJobs ∧ s.lpmQ = z.lpmQ ∧ s.flashQ = z.flashQ ∧ s.eloLast = z.eloLast ∧
    s.doeQ = z.doeQ ∧ s.spdm = z.spdm ∧ s.domQ = z.domQ ∧ s.cands = z.cands

/-- From `z` to `s` the device stays sane, its queue stays as it is, what has left it stays out (outputs are only added behind
those already made), and every area for which `K` holds stays as it is. -/
structure Kept (K : Area → Prop) (z s : State) : Prop where
  sane : Sane z → Sane s
  pending : s.pending = z.pending
  out : z.out <+: s.out
  area : ∀ p, K p → p.same z s

/-- The areas of the state that a command may change. A register write and the requests that carry one may reach every
effect that a register has; a reset or a loss of power may change every area. -/
def cmdAreas : Instr → List Area
  | .registerWrite .. | .bar0Request .. | .bar2Request .. | .perstAssert | .eloatalReset .. | .supplyDroop ..
  | .vauxPowerOn | .vauxLoss | .vinLoss | .vinRestart | .domainSwitchOn .. | .domainSwitchOff ..
  | .serdesPllLockTimeout .. | .pllLossReset | .sysRstAssert | .sysRstRelease .. | .devReset .. => [.frames, .fabric, .memory, .time, .learn, .intStacks, .dram, .agents]
  | .softReset .. => [.frames, .fabric, .learn, .intStacks, .dram, .agents]
  | .tblRead .. | .tblWrite .. | .tblCmdComplete .. => [.frames, .fabric, .memory, .learn, .dram, .agents]
  | .blockDisable .. | .spillPageWrite .. => [.frames, .fabric, .dram]
  | .ageSweepPass | .dataCellTx .. | .syncHoldExpire .. | .reseqTimeout .. | .pfeEmission .. | .pfeMissed ..
  | .windowPeriodBoundary .. => [.frames, .fabric, .time]
  | .flr | .pcieLinkDown .. => [.frames, .intStacks, .agents]
  | .domainOn .. => [.frames, .learn, .agents]
  | .patrolRead .. | .fsVisit .. => [.frames, .time, .dram]
  | .bootStart .. | .engReloadDone => [.memory, .time, .agents]
  | .dramOperation .. => [.memory, .time, .dram]
  | .statusRepeat .. | .creditCellTx .. | .creditFlowTimeout .. | .creditPacerGrant .. | .fabricUpHoldExpire ..
  | .linkDegWindow .. | .kaLoss .. | .keepaliveTx .. | .reachCellTx .. | .reachSegmentTimeout .. => [.fabric, .time]
  | .mapApplied .. => [.frames, .agents]
  | .returnPrefetch .. | .dramOpComplete .. | .fullRetrainDone .. | .fold .. | .fsRead .. | .fsClear .. => [.frames, .dram]
  | .frameTailRx .. | .admission .. | .bufferGrant | .tailCellArrival .. | .pageWriteDone .. | .pageReturned ..
  | .voqFrameStart .. | .dataCellRx .. | .schedSelection .. | .alloc .. | .free .. | .query ..
  | .creditCellRx .. | .keepaliveRx .. | .reachCellRx .. | .injectRead .. | .injectOffer .. => [.frames, .fabric]
  | .pipelineEntry .. => [.frames, .learn]
  | .flowControlTx .. | .fcRefresh .. | .frameTx .. | .txAbort .. | .upHoldExpire .. | .puntAgeDrop ..
  | .completionTimeout .. | .timedFrameStart .. | .launchDeadline .. => [.frames, .time]
  | .processorLoad .. | .engReload .. | .runSlotWrite .. | .slotInfo .. | .erase .. | .eraseDone ..
  | .eloatalWrite .. | .eloatalRead .. | .setBoot .. | .storeDone .. | .runSlotCheckDone => [.memory, .agents]
  | .syncComplete .. => [.memory, .time]
  | .spdmRequest .. | .hello .. | .lifetimeStore .. | .domainRestart .. => [.time, .agents]
  | .rhWindowClear .. => [.time, .dram]
  | .coreFault .. => [.time, .intStacks]
  | .flexoLock .. | .flexoLockLoss .. | .fasSighting .. | .candidateCheck .. | .otnFrameRx .. | .routeAdd ..
  | .routeDel .. | .routeMod .. | .routeGet .. | .routeMatch .. | .reload .. | .coreAutoReload ..
  | .svnCommit .. | .store .. | .vinInRange | .rampStart | .bar4Request .. => [.agents]
  | .blockEnable .. | .fabricLinkEnable .. | .linkDrainWrite .. | .fabricSignalDetect .. | .codewordLock ..
  | .codewordLockLoss .. | .fabricSignalLoss .. | .controlWordRx .. | .kaIvlWrite .. => [.fabric]
  | .startOfFrameRx .. | .headerCellHandoff .. | .macCtlFrameRx .. | .bufferFree .. | .egressPipeline ..
  | .recircEntry .. | .macCfgWrite .. | .loopbackWrite .. | .signalDetect .. | .alignmentLock ..
  | .deskewMeasured .. | .alignmentLoss .. | .signalLoss .. | .faultSetsAbsent .. | .ageLimitWrite ..
  | .dsReady | .puntWrite .. | .readCompletion .. | .injectWriteback .. | .bmeClear | .bmeSet | .ringEnable ..
  | .release .. | .launchStageEntry .. | .interruptDisableWrite .. => [.frames]
  | .readLowHalf .. | .readClear .. | .takeover | .claim .. | .eoi .. | .setpri .. => [.intStacks]
  | .insert .. | .delete .. | .lookup .. | .learnUpdate .. | .ageScanVisit .. | .notifyPop .. | .tableScrub .. => [.learn]
  | .trainStepDone .. | .mirrorStore .. => [.memory]
  | .laneErrWindow | .pauseExpire .. | .ctxIdleExpire .. | .seqQuietEnd | .rclkResume .. | .fecWindow ..
  | .defectPersistTimer .. | .degInterval .. | .clkLoss .. | .moveTick | .ageTick | .flipTimeReached
  | .settleExpire | .drainTimeout | .fretRelease .. | .coarseFretAdvance | .dramRefresh ..
  | .refreshRatePoll .. | .zqCalibration .. | .dqsOscMeasure .. | .dimmTempRead .. | .holdoffExpire ..
  | .perfWrap .. | .bwWindowEnd .. | .snapCut | .pipeWdtSample .. | .stepCmd .. | .trkStepCmd .. | .slewDone
  | .refLoss .. | .followerRealign | .ppsLoss .. | .ppsOutEdge .. | .ppsPulseEnd .. | .todTxStart | .todLoss
  | .freqLoss => [.time]
  | .softResetDone .. | .blockLock .. | .droneEnable .. | .evtPendWrite .. | .evtMaskWrite ..
  | .profileSelect .. | .bridgeCrcFail .. | .laneSpared .. | .seqQuietWrite .. | .mapCommit ..
  | .faultSetsRx .. | .consequentActionBoundary .. | .txForceApply .. | .ohpCfgWrite .. | .ohpFrameBoundary ..
  | .recentre .. | .ohpClkReturn .. | .keyLoad .. | .walk .. | .rowMove .. | .tcamScrubRow ..
  | .sliceCfgWrite .. | .seedWrite .. | .lpmNodeRepair .. | .flipCmd .. | .flipArm .. | .flipDisarm ..
  | .flipApply | .inFlightZero | .sweepConversion .. | .sweepComplete | .drainForce .. | .hpCountWrite ..
  | .farListScan | .popCfgWrite .. | .bmapWrite .. | .bringupStart .. | .retrainNow .. | .coreLoadDone ..
  | .wdtKick .. | .handover .. | .doorbell .. | .pendWrite .. | .intcMaskWrite .. | .coreIdleEnter ..
  | .winCommit .. | .pTailWrite .. | .iTailWrite .. | .msixHoldEnd .. | .flrDone | .keyRevoke ..
  | .bwSeqRead .. | .bwCfgWrite .. | .fsCfgWrite .. | .snapArm .. | .snapDisarm .. | .snapNow ..
  | .snapMoverCopy .. | .snapDone | .fsDone | .openClear .. | .pllUnlock | .tjOutOfRange .. | .rootPllLock
  | .rateTbLoWrite .. | .rateTbHiWrite .. | .tbFracRead .. | .tbCtlWrite .. | .stepRearm .. | .ppsInEdge ..
  | .ppsRearm .. | .todRxMessage .. | .freqEdge .. | .windowCommit .. | .pcieLinkUp .. | .perstRelease => []

/-- The registers that events, counts, errors and fault records change: the pending and error registers and the counters of a
header, the counters of a page, the pending bits of the INTC, the FAULT page, and the copies kept beside registers. -/
abbrev Noisy (a : Nat) : Prop :=
  2 ^ 32 ≤ a ∨ a % 0x10000 = 0x20 ∨ (0x40 ≤ a % 0x10000 ∧ a % 0x10000 < 0x4C) ∨
    (0x80 ≤ a % 0x10000 ∧ a % 0x10000 < 0xA0) ∨ 0x8000 ≤ a % 0x10000 ∨ (0x70400 ≤ a ∧ a < 0x80000) ∨
    (0x20800 ≤ a ∧ a < 0x20A00)

/-! ### Accesses and events -/

/-- Requester `r`'s access to the register at address `a` meets nothing that turns it away: no reset holds the device (R617),
a control core is neither halted nor stopped by the fence (R463, R465), the page is assigned (R37), on (R38) and in no soft reset (R43), and a register lies at the
address (R37). -/
abbrev Admits (s : State) (r : Req) (a : Nat) : Prop :=
  s.h .rstHold = 0 ∧ (standbyCore s r = false ∨ (haltedCore s r = false ∧ fenceExempt r a = true)) ∧ (pageOf (a / 0x10000)).isSome = true ∧
    s.pageOn (a / 0x10000) = true ∧ s.rbit (Reg.BLK_CTL (a / 0x10000)) 1 = false ∧ occupied a = true

/-- An Eloatal request of type `typ` with a payload of `len` bytes that executes: the service runs, the request is for it, is well
formed, comes from the locked peer, and neither waits in the queue of flash operations nor repeats the last SEQ (R548). -/
abbrev EloServed (s : State) (h : EloHdr) (typ len : Nat) : Prop :=
  eloRuns s = true ∧ eloFor h typ = true ∧ eloMalformed h len = false ∧ s.h .eloPeer ≠ 0 ∧ eloMac s = h.mac.toNat ∧
    eloOpen s h.seq = false ∧ s.h .eloSeq ≠ (h.seq.toNat + 1 : Nat)

/-- Requester `r` may start a table command on page `p`: its write of `TBL_CMD` is admitted, and its bank is not busy (R54). -/
abbrev TableReady (s : State) (r : Req) (p : Nat) : Prop :=
  Admits s r (Reg.TBL_CMD p) ∧ s.rbit (winBank r (Reg.TBL_STS p)) 31 = false

/-- `TBL_SEL` and `TBL_IDX` of requester `r` on page `p`. -/
abbrev selOf (s : State) (r : Req) (p : Nat) : Nat := s.reg (winBank r (Reg.TBL_SEL p))
abbrev idxOf (s : State) (r : Req) (p : Nat) : Nat := s.reg (winBank r (Reg.TBL_IDX p))

/-- A table command of requester `r` on page `p` has executed: the data that it returns stands in `TBL_DATA`, and the bank reads
BUSY until the command completes with `code`, 0 for none (R54). -/
def tableEnd (r : Req) (p code : Nat) (d : Option Nat) (s : State) : State :=
  let s := match d with
    | some e => setWinData r p e s
    | none => s
  (s.setReg (winBank r (Reg.TBL_STS p)) (setBit (s.reg (winBank r (Reg.TBL_STS p))) 31 true)).setH (.tblOp p (reqNo r))
    (1 + 256 * code : Nat)

/-- What a write of `v` to register `f` at address `a` does where the register has a rule of its own; none for one that its
access code alone governs (R18). -/
abbrev ownRule (r : Req) (f : RegRef) (a v : Nat) (s : State) : Option State :=
  if a % 0x10000 < 0x400 then headerWrite r f.page (a % 0x10000) v s else blockWrite r f a v s

/-- The same for a read. -/
abbrev ownRead (r : Req) (f : RegRef) (a : Nat) (s : State) : Option (Nat × State) :=
  if a % 0x10000 < 0x400 then headerRead r f.page (a % 0x10000) s else blockRead r f a s

/-- The requester and the register of a command that is a register write, a table command included (its register is
`TBL_CMD`). -/
def writeTarget : Instr → Option (Req × Nat)
  | .registerWrite r a _ => some (r, a.toNat)
  | .softReset r p => some (r, Reg.BLK_CTL p)
  | .blockEnable r p => some (r, Reg.BLK_CTL p)
  | .blockDisable r p => some (r, Reg.BLK_CTL p)
  | .blockLock r p => some (r, Reg.BLK_CTL p)
  | .droneEnable r p => some (r, Reg.BLK_CTL p)
  | .evtPendWrite r p _ => some (r, Reg.EVT_PEND p)
  | .evtMaskWrite r p _ => some (r, Reg.EVT_MASK p)
  | .profileSelect r _ => some (r, Reg.GLB.PROFILE_SEL)
  | .tblRead r p => some (r, Reg.TBL_CMD p)
  | .tblWrite r p => some (r, Reg.TBL_CMD p)
  | .seqQuietWrite r _ => some (r, Reg.FAB.SEQ_QUIET)
  | .mapCommit r g _ => some (r, Reg.LG.MAP_COMMIT g)
  | .macCfgWrite r n _ => some (r, Reg.LPORT.MAC_CFG n)
  | .loopbackWrite r n _ => some (r, Reg.LPORT.LINK_CFG n)
  | .ohpCfgWrite r k _ => some (r, Reg.OHP.CFG k)
  | .recentre r k _ => some (r, Reg.OHP.RECENTRE k)
  | .keyLoad r => some (r, Reg.TBL_CMD tcamPage)
  | .walk r => some (r, Reg.TBL_CMD tcamPage)
  | .rowMove r => some (r, Reg.TBL_CMD tcamPage)
  | .sliceCfgWrite r k _ => some (r, if k.val < 128 then Reg.TCAM.SLICE_CFG k else Reg.TCAM.LKP_CFG (k - 128))
  | .insert r l2 => some (r, Reg.TBL_CMD (if l2 then l2Page else emPage))
  | .delete r l2 => some (r, Reg.TBL_CMD (if l2 then l2Page else emPage))
  | .lookup r l2 => some (r, Reg.TBL_CMD (if l2 then l2Page else emPage))
  | .routeAdd r => some (r, Reg.TBL_CMD lpmPage)
  | .routeDel r => some (r, Reg.TBL_CMD lpmPage)
  | .routeMod r => some (r, Reg.TBL_CMD lpmPage)
  | .routeGet r => some (r, Reg.TBL_CMD lpmPage)
  | .routeMatch r => some (r, Reg.TBL_CMD lpmPage)
  | .seedWrite r k _ => some (r, seedAddr k)
  | .notifyPop r _ => some (r, Reg.L2.NOTIFY_POP)
  | .flipCmd r _ => some (r, Reg.CAPO.FLIP_CMD)
  | .flipArm r _ => some (r, Reg.CAPO.FLIP_ARM)
  | .flipDisarm r _ => some (r, Reg.CAPO.FLIP_ARM)
  | .drainForce r _ => some (r, Reg.CAPO.DRAIN_FORCE)
  | .hpCountWrite r h _ => some (r, Reg.BPM.HP_COUNT h)
  | .alloc r => some (r, Reg.TBL_CMD bpmPage)
  | .free r => some (r, Reg.TBL_CMD bpmPage)
  | .query r => some (r, Reg.TBL_CMD bpmPage)
  | .ageLimitWrite r _ => some (r, Reg.CELL.AGE_LIMIT)
  | .fabricLinkEnable r l _ => some (r, linkCfgReg l)
  | .linkDrainWrite r l _ => some (r, linkCfgReg l)
  | .kaIvlWrite r reach _ => some (r, if reach then Reg.FAB.REACH_IVL else Reg.FAB.KA_IVL)
  | .popCfgWrite r _ => some (r, Reg.DSC.POP_CFG 0)
  | .bmapWrite r c b _ => some (r, Reg.DSC.BMAP c b)
  | .bringupStart r c => some (r, Reg.BLK_CTL (dscPage c))
  | .retrainNow r c _ => some (r, Reg.DSC.RETRAIN_NOW c)
  | .wdtKick r _ => some (r, Reg.PAIR.WDT_KICK)
  | .handover r _ => some (r, Reg.PAIR.HANDOVER)
  | .reload r _ => some (r, Reg.PAIR.RELOAD)
  | .doorbell r _ => some (r, Reg.INTC.DOORBELL)
  | .eoi r t _ => some (r, Reg.INTC.EOI t)
  | .setpri r t _ => some (r, Reg.INTC.SETPRI t)
  | .pendWrite r w _ => some (r, Reg.INTC.PEND w)
  | .intcMaskWrite r w _ => some (r, Reg.INTC.MASK w)
  | .winCommit r _ => some (r, Reg.HOST.WIN_COMMIT)
  | .pTailWrite r k _ => some (r, Reg.HOST.P_TAIL k)
  | .iTailWrite r k _ => some (r, Reg.HOST.I_TAIL k)
  | .ringEnable r k _ => some (r, if k.val < 64 then Reg.HOST.P_CFG k else Reg.HOST.I_CFG (k - 64))
  | .release r _ => some (r, Reg.HOST.RELEASE)
  | .keyRevoke r _ => some (r, Reg.SEC.KEY_REVOKE)
  | .svnCommit r _ => some (r, Reg.SEC.SVN_COMMIT)
  | .engReload r _ => some (r, Reg.SEC.ENG_RELOAD)
  | .runSlotWrite r _ => some (r, Reg.SEC.RUN_SLOT)
  | .store r _ => some (r, Reg.PEG.STORE)
  | .bwCfgWrite r n _ => some (r, Reg.LPORT.BW_CFG n)
  | .fsCfgWrite r _ => some (r, Reg.SNAP.FS_CFG)
  | .fsRead r => some (r, Reg.TBL_CMD snapPage)
  | .fsClear r => some (r, Reg.TBL_CMD snapPage)
  | .snapArm r => some (r, Reg.SNAP.CTL)
  | .snapDisarm r => some (r, Reg.SNAP.CTL)
  | .snapNow r => some (r, Reg.SNAP.CTL)
  | .openClear r _ => some (r, Reg.FAULT.OPEN)
  | .domainSwitchOn r d => some (r, Reg.GLB.DOM_CTL d)
  | .domainSwitchOff r d => some (r, Reg.GLB.DOM_CTL d)
  | .devReset r _ => some (r, Reg.GLB.DEV_RESET)
  | .rateTbLoWrite r x _ => some (r, rateLoAddr x)
  | .rateTbHiWrite r x _ => some (r, rateHiAddr x)
  | .tbCtlWrite r _ => some (r, Reg.TIME.TB_CTL)
  | .stepCmd r _ => some (r, Reg.TIME.STEP_CMD)
  | .stepRearm r _ => some (r, Reg.TIME.STEP_REARM)
  | .trkStepCmd r x _ => some (r, Reg.TIME.TRK_STEP_CMD x)
  | .ppsRearm r i _ => some (r, Reg.TIME.PPS_IN_REARM i)
  | .windowCommit r n _ => some (r, Reg.TIME.TSU_WIN_COMMIT n)
  | .readLowHalf .. | .readClear .. | .softResetDone .. | .tblCmdComplete .. | .bridgeCrcFail ..
  | .laneErrWindow | .laneSpared .. | .startOfFrameRx .. | .headerCellHandoff .. | .pipelineEntry ..
  | .frameTailRx .. | .macCtlFrameRx .. | .pauseExpire .. | .flowControlTx .. | .fcRefresh .. | .admission ..
  | .bufferGrant | .tailCellArrival .. | .bufferFree .. | .spillPageWrite .. | .pageWriteDone ..
  | .returnPrefetch .. | .pageReturned .. | .ageSweepPass | .voqFrameStart .. | .dataCellTx .. | .dataCellRx ..
  | .syncHoldExpire .. | .ctxIdleExpire .. | .reseqTimeout .. | .seqQuietEnd | .schedSelection ..
  | .egressPipeline .. | .frameTx .. | .txAbort .. | .recircEntry .. | .mapApplied .. | .signalDetect ..
  | .alignmentLock .. | .deskewMeasured .. | .upHoldExpire .. | .alignmentLoss .. | .signalLoss ..
  | .rclkResume .. | .faultSetsRx .. | .faultSetsAbsent .. | .fecWindow .. | .flexoLock .. | .flexoLockLoss ..
  | .fasSighting .. | .candidateCheck .. | .otnFrameRx .. | .defectPersistTimer .. | .degInterval ..
  | .consequentActionBoundary .. | .txForceApply .. | .ohpFrameBoundary .. | .clkLoss .. | .ohpClkReturn ..
  | .tcamScrubRow .. | .learnUpdate .. | .moveTick | .ageTick | .ageScanVisit .. | .tableScrub ..
  | .lpmNodeRepair .. | .flipTimeReached | .flipApply | .inFlightZero | .settleExpire | .sweepConversion ..
  | .sweepComplete | .drainTimeout | .statusRepeat .. | .creditCellTx .. | .creditCellRx ..
  | .creditFlowTimeout .. | .creditPacerGrant .. | .fretRelease .. | .coarseFretAdvance | .farListScan
  | .fabricSignalDetect .. | .codewordLock .. | .codewordLockLoss .. | .fabricSignalLoss .. | .controlWordRx ..
  | .fabricUpHoldExpire .. | .linkDegWindow .. | .kaLoss .. | .keepaliveTx .. | .keepaliveRx ..
  | .reachCellTx .. | .reachCellRx .. | .reachSegmentTimeout .. | .trainStepDone .. | .dsReady
  | .dramOperation .. | .dramOpComplete .. | .dramRefresh .. | .refreshRatePoll .. | .zqCalibration ..
  | .dqsOscMeasure .. | .fullRetrainDone .. | .rhWindowClear .. | .patrolRead .. | .dimmTempRead ..
  | .processorLoad .. | .coreLoadDone .. | .coreFault .. | .takeover | .mirrorStore .. | .syncComplete ..
  | .coreAutoReload .. | .claim .. | .holdoffExpire .. | .coreIdleEnter .. | .pfeEmission .. | .pfeMissed ..
  | .bar0Request .. | .bar2Request .. | .puntWrite .. | .puntAgeDrop .. | .injectRead .. | .readCompletion ..
  | .injectOffer .. | .injectWriteback .. | .completionTimeout .. | .bmeClear | .bmeSet | .msixHoldEnd ..
  | .flr | .flrDone | .pcieLinkDown .. | .perstAssert | .spdmRequest .. | .bootStart .. | .engReloadDone
  | .hello .. | .slotInfo .. | .erase .. | .eraseDone .. | .eloatalWrite .. | .eloatalRead .. | .setBoot ..
  | .eloatalReset .. | .storeDone .. | .lifetimeStore .. | .perfWrap .. | .bwWindowEnd .. | .bwSeqRead ..
  | .fold .. | .fsVisit .. | .snapCut | .snapMoverCopy .. | .snapDone | .fsDone | .pllUnlock
  | .pipeWdtSample .. | .supplyDroop .. | .tjOutOfRange .. | .vauxPowerOn | .vauxLoss | .vinLoss | .vinRestart
  | .vinInRange | .rampStart | .domainOn .. | .domainRestart .. | .serdesPllLockTimeout .. | .rootPllLock
  | .pllLossReset | .sysRstAssert | .sysRstRelease .. | .tbFracRead .. | .slewDone | .refLoss ..
  | .followerRealign | .ppsInEdge .. | .ppsLoss .. | .ppsOutEdge .. | .ppsPulseEnd .. | .todTxStart
  | .todRxMessage .. | .todLoss | .freqEdge .. | .freqLoss | .launchStageEntry .. | .timedFrameStart ..
  | .launchDeadline .. | .windowPeriodBoundary .. | .pcieLinkUp .. | .perstRelease | .interruptDisableWrite ..
  | .bar4Request .. | .runSlotCheckDone => none

/-- The page whose block applies an internal event, or an event on the lines of a block, only while it performs its function
(R45). -/
def eventPage : Instr → Option Nat
  | .bridgeCrcFail _ _ _ => some bridgePage
  | .laneErrWindow => some bridgePage
  | .laneSpared _ _ => some bridgePage
  | .frameTailRx n _ _ _ => some (lportPage n)
  | .macCtlFrameRx n => some (lportPage n)
  | .pauseExpire n _ => some (lportPage n)
  | .spillPageWrite _ _ => some spillPage
  | .pageWriteDone _ => some spillPage
  | .returnPrefetch _ => some spillPage
  | .pageReturned _ => some spillPage
  | .ageSweepPass => some cellPage
  | .dataCellTx _ _ => some fabPage
  | .syncHoldExpire _ => some fabPage
  | .reseqTimeout _ => some fabPage
  | .seqQuietEnd => some fabPage
  | .mapApplied g => some (lgPage g)
  | .rclkResume _ => some timePage
  | .ohpFrameBoundary k _ => some (ohpPage k)
  | .ohpClkReturn k => some (ohpPage k)
  | .tcamScrubRow _ _ => some tcamPage
  | .learnUpdate _ => some l2Page
  | .moveTick => some l2Page
  | .ageTick => some l2Page
  | .ageScanVisit _ _ _ => some l2Page
  | .tableScrub p _ _ _ => some p
  | .lpmNodeRepair _ _ => some lpmPage
  | .statusRepeat _ => some qmgrPage
  | .creditCellTx _ => some qmgrPage
  | .creditFlowTimeout _ => some qmgrPage
  | .fretRelease _ => some shapePage
  | .coarseFretAdvance => some shapePage
  | .farListScan => some shapePage
  | .trainStepDone c _ _ _ => some (dscPage c)
  | .dramOperation c => some (dscPage c)
  | .dramOpComplete c _ _ => some (dscPage c)
  | .dramRefresh c _ _ => some (dscPage c)
  | .refreshRatePoll c _ _ => some (dscPage c)
  | .fullRetrainDone c _ => some (dscPage c)
  | .rhWindowClear c => some (dscPage c)
  | .dimmTempRead c _ => some (dscPage c)
  | .holdoffExpire _ _ => some intcPage
  | .puntAgeDrop _ => some hostPage
  | .refLoss _ => some timePage
  | .ppsInEdge _ _ => some timePage
  | .ppsLoss _ => some timePage
  | .ppsOutEdge _ => some timePage
  | .ppsPulseEnd _ => some timePage
  | .todTxStart => some timePage
  | .todRxMessage _ _ => some timePage
  | .todLoss => some timePage
  | .freqEdge _ => some timePage
  | .freqLoss => some timePage
  | .registerWrite .. | .readLowHalf .. | .readClear .. | .softReset .. | .softResetDone .. | .blockEnable ..
  | .blockDisable .. | .blockLock .. | .droneEnable .. | .evtPendWrite .. | .evtMaskWrite ..
  | .profileSelect .. | .tblRead .. | .tblWrite .. | .tblCmdComplete .. | .startOfFrameRx ..
  | .headerCellHandoff .. | .pipelineEntry .. | .flowControlTx .. | .fcRefresh .. | .admission ..
  | .bufferGrant | .tailCellArrival .. | .bufferFree .. | .voqFrameStart .. | .dataCellRx ..
  | .ctxIdleExpire .. | .seqQuietWrite .. | .schedSelection .. | .egressPipeline .. | .frameTx .. | .txAbort ..
  | .recircEntry .. | .mapCommit .. | .macCfgWrite .. | .loopbackWrite .. | .signalDetect ..
  | .alignmentLock .. | .deskewMeasured .. | .upHoldExpire .. | .alignmentLoss .. | .signalLoss ..
  | .faultSetsRx .. | .faultSetsAbsent .. | .fecWindow .. | .flexoLock .. | .flexoLockLoss .. | .fasSighting ..
  | .candidateCheck .. | .otnFrameRx .. | .defectPersistTimer .. | .degInterval ..
  | .consequentActionBoundary .. | .txForceApply .. | .ohpCfgWrite .. | .recentre .. | .clkLoss ..
  | .keyLoad .. | .walk .. | .rowMove .. | .sliceCfgWrite .. | .insert .. | .delete .. | .lookup ..
  | .routeAdd .. | .routeDel .. | .routeMod .. | .routeGet .. | .routeMatch .. | .seedWrite .. | .notifyPop ..
  | .flipCmd .. | .flipArm .. | .flipDisarm .. | .flipTimeReached | .flipApply | .inFlightZero | .settleExpire
  | .sweepConversion .. | .sweepComplete | .drainTimeout | .drainForce .. | .hpCountWrite .. | .alloc ..
  | .free .. | .query .. | .ageLimitWrite .. | .creditCellRx .. | .creditPacerGrant .. | .fabricLinkEnable ..
  | .linkDrainWrite .. | .fabricSignalDetect .. | .codewordLock .. | .codewordLockLoss ..
  | .fabricSignalLoss .. | .controlWordRx .. | .fabricUpHoldExpire .. | .linkDegWindow .. | .kaLoss ..
  | .keepaliveTx .. | .keepaliveRx .. | .kaIvlWrite .. | .reachCellTx .. | .reachCellRx ..
  | .reachSegmentTimeout .. | .popCfgWrite .. | .bmapWrite .. | .bringupStart .. | .dsReady | .zqCalibration ..
  | .dqsOscMeasure .. | .retrainNow .. | .patrolRead .. | .processorLoad .. | .coreLoadDone .. | .coreFault ..
  | .wdtKick .. | .handover .. | .takeover | .mirrorStore .. | .syncComplete .. | .reload ..
  | .coreAutoReload .. | .doorbell .. | .claim .. | .eoi .. | .setpri .. | .pendWrite .. | .intcMaskWrite ..
  | .coreIdleEnter .. | .pfeEmission .. | .pfeMissed .. | .bar0Request .. | .bar2Request .. | .winCommit ..
  | .puntWrite .. | .pTailWrite .. | .iTailWrite .. | .injectRead .. | .readCompletion .. | .injectOffer ..
  | .injectWriteback .. | .completionTimeout .. | .bmeClear | .bmeSet | .ringEnable .. | .msixHoldEnd .. | .flr
  | .flrDone | .pcieLinkDown .. | .release .. | .perstAssert | .spdmRequest .. | .bootStart .. | .keyRevoke ..
  | .svnCommit .. | .engReload .. | .engReloadDone | .runSlotWrite .. | .hello .. | .slotInfo .. | .erase ..
  | .eraseDone .. | .eloatalWrite .. | .eloatalRead .. | .setBoot .. | .eloatalReset .. | .store ..
  | .storeDone .. | .lifetimeStore .. | .perfWrap .. | .bwWindowEnd .. | .bwSeqRead .. | .bwCfgWrite ..
  | .fsCfgWrite .. | .fold .. | .fsVisit .. | .fsRead .. | .fsClear .. | .snapArm .. | .snapDisarm ..
  | .snapNow .. | .snapCut | .snapMoverCopy .. | .snapDone | .fsDone | .openClear .. | .pllUnlock
  | .pipeWdtSample .. | .supplyDroop .. | .tjOutOfRange .. | .vauxPowerOn | .vauxLoss | .vinLoss | .vinRestart
  | .vinInRange | .domainSwitchOn .. | .rampStart | .domainOn .. | .domainSwitchOff .. | .domainRestart ..
  | .serdesPllLockTimeout .. | .rootPllLock | .pllLossReset | .sysRstAssert | .sysRstRelease .. | .devReset ..
  | .rateTbLoWrite .. | .rateTbHiWrite .. | .tbFracRead .. | .tbCtlWrite .. | .stepCmd .. | .stepRearm ..
  | .trkStepCmd .. | .slewDone | .followerRealign | .ppsRearm .. | .launchStageEntry .. | .timedFrameStart ..
  | .launchDeadline .. | .windowCommit .. | .windowPeriodBoundary .. | .pcieLinkUp .. | .perstRelease
  | .interruptDisableWrite .. | .bar4Request .. | .runSlotCheckDone => none

end Sys2Proof.Machine
end

