-- ==== Sys2Proof/Certificates/Slice0/Obligations.lean ====
section
/-!
DEFINITION. The statements about the model, one definition each; a clause is one command or one condition of it. Behind an
access stands `firstWrite r s`: `s` with the mark of R468 cleared if this is the first write of a core that took over.
-/
open Sys2Proof Sys2Proof.Machine

/-- A step executes the command at the front of the queue. For every command and every state, a step of a state with the
command at the front of its queue is the command's effect on the state with the rest of the queue. (spec/98_reader.md,
spec/01_architecture.md) -/
def Obligations.StepRunsTheFrontCommand : Prop :=
  ∀ (c : Instr) (cs : List Instr) (s : State), s.pending = c :: cs →
    step s = exec c { s with pending := cs }

/-- On an empty queue one tick passes. On an empty queue one tick of T-clock passes: the model's choice
(notes/assumptions/5.md). While the root PLL is locked and TIME is on, a free-running time base moves by its rate
word, its follower too, the trackers by theirs, and 8 cycles of the root PLL pass. While the root PLL is unlocked no
time passes. With TIME off only the root PLL counts. (R12, R58, R59) -/
def Obligations.EmptyQueueTicks : Prop :=
  (∀ s, s.pending = [] →
     step s = .next (advance 1 s)) ∧
  (∀ s, s.pllOk = true → s.domOn 4 = true → followed s = none →
     advance 1 s = { s with
       root := s.root + 8
       trkA := (s.trkA + rateTrk s 0) % timeWrap
       trkB := (s.trkB + rateTrk s 1) % timeWrap
       tb := (s.tb + rateTb s) % timeWrap
       fol := (s.fol + rateTb s) % timeWrap }) ∧
  (∀ s, s.pllOk = false →
     advance 1 s = s) ∧
  (∀ s, s.pllOk = true → s.domOn 4 = false →
     advance 1 s = { s with root := s.root + 8 })

/-- What turns a register write away. While the device is held in reset no register write has an effect. A write of a core
that is not ACTIVE is discarded, counted in STBY_WR_DISC and reported with code 0x10, but for the registers that the
fence leaves to a core that is neither OFF nor FAILED. So is one that a fenced core still had in the register fabric,
where the free choice says that it does not take effect. A write to an unassigned page is reported on page 0 with code
0x06. A write to a page whose domain is off is discarded and reported on page 0 with code 0x05, but to a register that
stays readable while the page is off. A write to such a register, which is read-only, is ignored. So is a write to a
page in soft reset. A write to an address that no register occupies is reported on its page with code 0x06. (R37, R38,
R43, R50, R463, R617) -/
def Obligations.WritesTurnedAway : Prop :=
  (∀ (c : Instr) (r : Req) (a : Nat) s, s.h .rstHold ≠ 0 → writeTarget c = some (r, a) →
     exec c s = .next s) ∧
  (∀ (c : Instr) (r : Req) (a : Nat) s, s.h .rstHold = 0 → writeTarget c = some (r, a) →
     inFabric (firstWrite r s) r = false → standbyCore s r = true → (haltedCore s r = true ∨ fenceExempt r a = false) →
     s.pageOn pairPage = true →
     exec c s = .next (errReq pairPage 0x10 r a a (bump Reg.PAIR.STBY_WR_DISC (firstWrite r s)))) ∧
  (∀ (c : Instr) (r : Req) (a : Nat) s, s.h .rstHold = 0 → writeTarget c = some (r, a) →
     inFabric (firstWrite r s) r = true → s.pageOn pairPage = true →
     (firstWrite r s).free.1 % 2 = 0 →
       exec c s = .next (errReq pairPage 0x10 r a a (bump Reg.PAIR.STBY_WR_DISC (firstWrite r s).free.2))) ∧
  (∀ (c : Instr) (r : Req) (a : Nat) s, s.h .rstHold = 0 → writeTarget c = some (r, a) →
     (standbyCore s r = false ∨ (haltedCore s r = false ∧ fenceExempt r a = true)) → pageOf (a / 0x10000) = none →
     exec c s = .next (errReq 0 0x06 r a a (firstWrite r s))) ∧
  (∀ (c : Instr) (r : Req) (a : Nat) s, s.h .rstHold = 0 → writeTarget c = some (r, a) →
     (standbyCore s r = false ∨ (haltedCore s r = false ∧ fenceExempt r a = true)) →
     (pageOf (a / 0x10000)).isSome = true → s.pageOn (a / 0x10000) = false → offReadable a = false →
     exec c s = .next (errReq 0 0x05 r a a (firstWrite r s))) ∧
  (∀ (c : Instr) (r : Req) (a : Nat) s, s.h .rstHold = 0 → writeTarget c = some (r, a) →
     (standbyCore s r = false ∨ (haltedCore s r = false ∧ fenceExempt r a = true)) →
     (pageOf (a / 0x10000)).isSome = true → s.pageOn (a / 0x10000) = false → offReadable a = true →
     exec c s = .next (firstWrite r s)) ∧
  (∀ (c : Instr) (r : Req) (a : Nat) s, s.h .rstHold = 0 → writeTarget c = some (r, a) →
     (standbyCore s r = false ∨ (haltedCore s r = false ∧ fenceExempt r a = true)) →
     (pageOf (a / 0x10000)).isSome = true → s.pageOn (a / 0x10000) = true → s.rbit (Reg.BLK_CTL (a / 0x10000)) 1 = true →
     exec c s = .next (errReq 0 0x05 r a a (firstWrite r s))) ∧
  (∀ (c : Instr) (r : Req) (a : Nat) s, s.h .rstHold = 0 → writeTarget c = some (r, a) →
     (standbyCore s r = false ∨ (haltedCore s r = false ∧ fenceExempt r a = true)) →
     (pageOf (a / 0x10000)).isSome = true → s.pageOn (a / 0x10000) = true → s.rbit (Reg.BLK_CTL (a / 0x10000)) 1 = false →
     occupied a = false →
     exec c s = .next (errReq (a / 0x10000) 0x06 r a a (firstWrite r s)))

/-- An event of a block that does not perform its function has no effect. While the block of its page is unclocked, in
soft reset or disabled, an event leaves the state as it is. (R43, R45) -/
def Obligations.EventsNeedTheirBlock : Prop :=
  ∀ (c : Instr) (p : Nat) s, eventPage c = some p → s.live p = false →
    exec c s = .next s

/-- Register writes and reads by their access codes. RW: the bits that the register has take the value written, its other
bits stay. RWL: as RW until the page is locked. A write to a locked register of a locked page is discarded and
reported with code 0x01. W1C: the bits written as 1 are cleared. RO: the write is ignored. A window register is
written in the bank of the requester. A register with a rule of its own takes the write as that rule says. In every
state REGISTER_WRITE completes, with the effect stated. A register that a read clears returns its value and becomes 0.
A read of the low half of a 64-bit counter returns it and latches the high half for the requester. A read of the high
half returns what was latched. A write-only register reads as 0. Any other register of 32 bits returns its value and
nothing changes. A read of a page whose domain is off returns 0 and is reported on page 0 with code 0x05, but for the
registers that stay readable. A core in OFF or FAILED issues no read. A read that the page admits returns what the
register's own rule or its access code says, with its effect. In every state READ_LOW_HALF and READ_CLEAR complete,
with the effects stated. (R17, R18, R52, R53, R50) -/
def Obligations.RegisterAccessCodes : Prop :=
  (∀ r (a : BitVec 29) (v : W32) (f : RegRef) s, Admits s r a.toNat → lookupReg a.toNat = some f → otnLane s f = true →
     ownRule r f a.toNat v.toNat (firstWrite r s) = none → f.row.acc = .rw →
     exec (.registerWrite r a v) s = .next (storeReg a.toNat v.toNat (firstWrite r s))) ∧
  (∀ r (a : BitVec 29) (v : W32) (f : RegRef) s, Admits s r a.toNat → lookupReg a.toNat = some f → otnLane s f = true →
     ownRule r f a.toNat v.toNat (firstWrite r s) = none → f.row.acc = .rwl →
     s.rbit (Reg.BLK_CTL (a.toNat / 0x10000)) 2 = false →
     exec (.registerWrite r a v) s = .next (storeReg a.toNat v.toNat (firstWrite r s))) ∧
  (∀ r (a : BitVec 29) (v : W32) (f : RegRef) s, Admits s r a.toNat → lookupReg a.toNat = some f → otnLane s f = true →
     ownRule r f a.toNat v.toNat (firstWrite r s) = none → f.row.acc = .rwl →
     s.rbit (Reg.BLK_CTL (a.toNat / 0x10000)) 2 = true →
     exec (.registerWrite r a v) s = .next (errReq (a.toNat / 0x10000) 0x01 r a.toNat v.toNat (firstWrite r s))) ∧
  (∀ r (a : BitVec 29) (v : W32) (f : RegRef) s, Admits s r a.toNat → lookupReg a.toNat = some f → otnLane s f = true →
     ownRule r f a.toNat v.toNat (firstWrite r s) = none → f.row.acc = .w1c →
     exec (.registerWrite r a v) s = .next ((firstWrite r s).setReg a.toNat
       (s.reg a.toNat &&& ((v.toNat &&& f.row.mask) ^^^ 0xFFFFFFFF)))) ∧
  (∀ r (a : BitVec 29) (v : W32) (f : RegRef) s, Admits s r a.toNat → lookupReg a.toNat = some f → otnLane s f = true →
     ownRule r f a.toNat v.toNat (firstWrite r s) = none → f.row.acc = .ro →
     exec (.registerWrite r a v) s = .next (firstWrite r s)) ∧
  (∀ r (p : Fin 8192) (j : Fin 16) (v : W32) s, Admits s r (Reg.TBL_DATA p j) →
     exec (.registerWrite r (BitVec.ofNat 29 (Reg.TBL_DATA p j)) v) s = .next (
       (firstWrite r s).setReg (winBank r (Reg.TBL_DATA p j)) v.toNat)) ∧
  (∀ r (a : BitVec 29) (v : W32) (f : RegRef) s t, Admits s r a.toNat → lookupReg a.toNat = some f →
     otnLane (firstWrite r s) f = true → ownRule r f a.toNat v.toNat (firstWrite r s) = some t →
     exec (.registerWrite r a v) s = .next t) ∧
  (∀ r (a : BitVec 29) (v : W32) s,
     exec (.registerWrite r a v) s = .next (regWrite r a.toNat v.toNat s)) ∧
  (∀ r (a : BitVec 29) (f : RegRef) s, Admits s r a.toNat → lookupReg a.toNat = some f → otnLane s f = true →
     ownRead r f a.toNat s = none → f.row.acc = .rc →
     exec (.readClear r a) s = .next ((s.setReg a.toNat 0).emit (.readData r a.toNat (s.reg a.toNat)))) ∧
  (∀ r (a : BitVec 29) (f : RegRef) s, Admits s r a.toNat → lookupReg a.toNat = some f → otnLane s f = true →
     ownRead r f a.toNat s = none → f.row.acc = .ro → f.row.wide = true → f.word = 0 → a.toNat % 8 = 0 →
     exec (.readLowHalf r a) s = .next ((s.setReg (bank (16 + reqNo r) a.toNat) (s.reg a.toNat / 2 ^ 32)).emit
       (.readData r a.toNat (s.reg a.toNat % 2 ^ 32)))) ∧
  (∀ r (a : BitVec 29) (f : RegRef) s, Admits s r a.toNat → lookupReg a.toNat = some f → otnLane s f = true →
     ownRead r f a.toNat s = none → f.row.acc = .ro → f.row.wide = true → f.word = 1 → a.toNat % 8 = 4 →
     exec (.readLowHalf r a) s = .next (s.emit (.readData r a.toNat (s.reg (bank (16 + reqNo r) (a.toNat - 4)))))) ∧
  (∀ r (a : BitVec 29) (f : RegRef) s, Admits s r a.toNat → lookupReg a.toNat = some f → otnLane s f = true →
     ownRead r f a.toNat s = none → f.row.acc = .wo →
     exec (.readClear r a) s = .next (s.emit (.readData r a.toNat 0))) ∧
  (∀ r (a : BitVec 29) (f : RegRef) s, Admits s r a.toNat → lookupReg a.toNat = some f → otnLane s f = true →
     ownRead r f a.toNat s = none → f.row.acc = .rw → f.row.wide = false →
     exec (.readClear r a) s = .next (s.emit (.readData r a.toNat (s.reg a.toNat)))) ∧
  (∀ r (a : BitVec 29) s, haltedCore s r = false → s.h .rstHold = 0 → (pageOf (a.toNat / 0x10000)).isSome = true →
     s.pageOn (a.toNat / 0x10000) = false → offReadable a.toNat = false →
     exec (.readClear r a) s = .next ((errReq 0 0x05 r a.toNat a.toNat s).emit (.readData r a.toNat 0))) ∧
  (∀ r (a : BitVec 29) s, haltedCore s r = true →
     exec (.readClear r a) s = .next s ∧ exec (.readLowHalf r a) s = .next s) ∧
  (∀ r (a : BitVec 29) s, Admits s r a.toNat →
     exec (.readLowHalf r a) s = .next ((readEffect r a.toNat s).2.emit (.readData r a.toNat (readEffect r a.toNat s).1)) ∧
       exec (.readClear r a) s = exec (.readLowHalf r a) s) ∧
  (∀ r (a : BitVec 29) s,
     exec (.readLowHalf r a) s = .next (readOut r a.toNat s)) ∧
  (∀ r (a : BitVec 29) s,
     exec (.readClear r a) s = .next (readOut r a.toNat s))

/-- Block control and event registers of a page. BLOCK_LOCK sets LOCK; nothing of this command clears it. DRONE_ENABLE
from 0 clears the page's Drone counters and starts them; counting already on goes on. BLOCK_ENABLE of an enabled block
changes nothing. BLOCK_ENABLE of a disabled block of a kind without start-up actions sets EN. BLOCK_DISABLE of a block
of such a kind discards whole what the block holds and clears EN. SOFT_RESET of a table block: SRST reads 1, and every
register of the page that R43 does not keep reads its reset value. SOFT_RESET_DONE: SRST reads 0 again. A write of
PROFILE_SEL from 1 to the least PROF_MAX of any page is stored. Any other value is refused with code 0x01, and so is
every value once page 0 is locked. Admitted, SOFT_RESET, BLOCK_ENABLE, BLOCK_DISABLE and PROFILE_SELECT have the
effects softReset, enable, disable and profileSel. A write of EVT_PEND stores the value; a pending event set since the
last read that it clears is marked in EVT_LOST, and a write that leaves an unmasked event pending rings the page's
source again. A write of EVT_MASK stores the value and rings again likewise. An event sets its bit and leaves every
other pending event pending. (R42, R43, R45, R564, R46, R47, R48) -/
def Obligations.BlockHeader : Prop :=
  (∀ r (p : Fin 8192) s, Admits s r (Reg.BLK_CTL p) →
     exec (.blockLock r p) s = .next ((firstWrite r s).setRbit (Reg.BLK_CTL p) 2 true)) ∧
  (∀ r (p : Fin 8192) s, Admits s r (Reg.BLK_CTL p) →
     exec (.droneEnable r p) s = .next (if s.rbit (Reg.BLK_CTL p) 3 = true then firstWrite r s else
       { firstWrite r s with tabs := s.tabs.filter fun e => e.1 / 2 ^ 32 != p.val * 256 + 0xFF }.setRbit (Reg.BLK_CTL p) 3 true)) ∧
  (∀ r (p : Fin 8192) s, Admits s r (Reg.BLK_CTL p) → s.rbit (Reg.BLK_CTL p) 0 = true →
     exec (.blockEnable r p) s = .next (firstWrite r s)) ∧
  (∀ r (p : Fin 8192) s (k : PageKind) (i : Nat), Admits s r (Reg.BLK_CTL p) → pageOf p = some (k, i) →
     k ∉ [.SHAPE, .PFE, .TIME, .L2, .DSC, .FG, .INTC] → s.rbit (Reg.BLK_CTL p) 0 = false →
     exec (.blockEnable r p) s = .next ((perfSync p (firstWrite r s)).setRbit (Reg.BLK_CTL p) 0 true)) ∧
  (∀ r (p : Fin 8192) s (k : PageKind) (i : Nat), Admits s r (Reg.BLK_CTL p) → pageOf p = some (k, i) →
     k ∉ [.DSC, .FG, .INTC] → s.rbit (Reg.BLK_CTL p) 0 = true →
     exec (.blockDisable r p) s = .next ((stopBlock p (perfSync p (firstWrite r s))).setRbit (Reg.BLK_CTL p) 0 false)) ∧
  (∀ r (p : Fin 8192) s (k : PageKind) (i : Nat), Sane s → Admits s r (Reg.BLK_CTL p) → pageOf p = some (k, i) →
     k ∈ [.EM, .TCAM, .ADJ] →
     ∃ t, exec (.softReset r p) s = .next t ∧ t.rbit (Reg.BLK_CTL p) 1 = true ∧
       (∀ a, a / 0x10000 = p → a < 2 ^ 29 → softKept a = false → a ≠ Reg.BLK_CTL p → t.reg a = (regDefault a).toNat) ∧
       (∀ a, a / 0x10000 ≠ p → a < 2 ^ 29 → ¬Noisy a → t.reg a = s.reg a) ∧
       (∀ q sel i, sel < 0xFF → i < 2 ^ 32 → t.tab q sel i = s.tab q sel i) ∧ t.mem = s.mem) ∧
  (∀ (p : Fin 8192) s, s.rbit (Reg.BLK_CTL p) 1 = true →
     exec (.softResetDone p) s = .next (s.setRbit (Reg.BLK_CTL p) 1 false)) ∧
  (∀ r (v : W32) s, Admits s r Reg.GLB.PROFILE_SEL → s.rbit (Reg.BLK_CTL 0) 2 = false → 1 ≤ fld v.toNat 0 8 →
     (∀ p ∈ allPages, fld v.toNat 0 8 ≤ fld (blkVersion p) 0 8) →
     exec (.profileSelect r v) s = .next (storeReg Reg.GLB.PROFILE_SEL v.toNat (firstWrite r s))) ∧
  (∀ r (v : W32) s, Admits s r Reg.GLB.PROFILE_SEL → (s.rbit (Reg.BLK_CTL 0) 2 = true ∨ fld v.toNat 0 8 = 0) →
     exec (.profileSelect r v) s = .next (errReq 0 0x01 r Reg.GLB.PROFILE_SEL v.toNat (firstWrite r s))) ∧
  (∀ r (p : Fin 8192) s, Admits s r (Reg.BLK_CTL p) →
     exec (.softReset r p) s = .next (softReset p (firstWrite r s))) ∧
  (∀ r (p : Fin 8192) s, Admits s r (Reg.BLK_CTL p) →
     exec (.blockEnable r p) s = .next (enable p (firstWrite r s))) ∧
  (∀ r (p : Fin 8192) s, Admits s r (Reg.BLK_CTL p) →
     exec (.blockDisable r p) s = .next (disable p (firstWrite r s))) ∧
  (∀ r (v : W32) s, Admits s r Reg.GLB.PROFILE_SEL →
     exec (.profileSelect r v) s = .next (profileSel r v.toNat (firstWrite r s))) ∧
  (∀ r (p : Fin 8192) (v : W32) s, Admits s r (Reg.EVT_PEND p) →
     exec (.evtPendWrite r p v) s = .next (
       let w := firstWrite r s
       let lost := s.reg (Reg.EVT_PEND p) &&& w.hn (.evtUnread p) &&& (v.toNat ^^^ 0xFFFFFFFF)
       let w := ((w.setReg (Reg.EVT_LOST p) (s.reg (Reg.EVT_LOST p) ||| lost)).setReg (Reg.EVT_PEND p) v.toNat).setH
         (.evtUnread p) (w.hn (.evtUnread p) &&& v.toNat : Nat)
       if evtUnmasked w p = 0 then w else ring (w.reg (Reg.EVT_SRC p)) w)) ∧
  (∀ r (p : Fin 8192) (v : W32) s, Admits s r (Reg.EVT_MASK p) →
     exec (.evtMaskWrite r p v) s = .next (
       let w := (firstWrite r s).setReg (Reg.EVT_MASK p) v.toNat
       if evtUnmasked w p = 0 then w else ring (w.reg (Reg.EVT_SRC p)) w)) ∧
  (∀ (p e : Nat) s, Sane s → p < 8192 → p ≠ 2 → e < 32 → s.pageOn p = true →
     (raise p e s).rbit (Reg.EVT_PEND p) e = true ∧ (∀ i, s.rbit (Reg.EVT_PEND p) i = true →
       (raise p e s).rbit (Reg.EVT_PEND p) i = true))

/-- The table window: a busy bank, a read, a write, a refusal and the completion. A table command of a requester whose
bank is busy is discarded with code 0x02. READ of an entry of the launch windows leaves its two words in TBL_DATA, and
BUSY reads 1 until the command completes. WRITE of an entry of the launch windows stores the whole entry. Off the LPM
page a command that succeeded completes with BUSY and ERR 0 and the last code kept. One that failed with a code
completes with ERR 1 and that code. Admitted, TBL_READ and TBL_WRITE have the effects cmdWrite and cmdWrite.
TBL_CMD_COMPLETE completes the command in the requester's bank, on the LPM page after those that came before it. (R53,
R54, R55, R56, R57) -/
def Obligations.TableCommands : Prop :=
  (∀ r (p : Fin 8192) s, Admits s r (Reg.TBL_CMD p) → p.val ≠ lpmPage → s.rbit (winBank r (Reg.TBL_STS p)) 31 = true →
     exec (.tblRead r p) s = .next (errBy p 0x02 (reqNo r) (s.reg (winBank r (Reg.TBL_SEL p)))
       (s.reg (winBank r (Reg.TBL_IDX p))) (firstWrite r s))) ∧
  (∀ r s, Admits s r (Reg.TBL_CMD 1) → s.rbit (winBank r (Reg.TBL_STS 1)) 31 = false →
     s.reg (winBank r (Reg.TBL_SEL 1)) = 1 → s.reg (winBank r (Reg.TBL_IDX 1)) < 1024 →
     exec (.tblRead r 1) s = .next (
       let w := setWinData r 1 (cutWords (s.tab 1 1 (s.reg (winBank r (Reg.TBL_IDX 1)))) 2) (firstWrite r s)
       (w.setReg (winBank r (Reg.TBL_STS 1)) (setBit (w.reg (winBank r (Reg.TBL_STS 1))) 31 true)).setH (.tblOp 1 (reqNo r)) 1)) ∧
  (∀ r s, Admits s r (Reg.TBL_CMD 1) → s.rbit (winBank r (Reg.TBL_STS 1)) 31 = false →
     s.reg (winBank r (Reg.TBL_SEL 1)) = 1 → s.reg (winBank r (Reg.TBL_IDX 1)) < 1024 →
     exec (.tblWrite r 1) s = .next (
       (((firstWrite r s).setTab timePage 1 (s.reg (winBank r (Reg.TBL_IDX 1))) (winData s r 1 &&& ofWords [0x3FFFFFFF, 0xBFFFFFFF])).setReg
         (winBank r (Reg.TBL_STS 1)) (setBit (s.reg (winBank r (Reg.TBL_STS 1))) 31 true)).setH (.tblOp 1 (reqNo r)) 1)) ∧
  (∀ r (p : Fin 8192) s, s.hn (.tblOp p (reqNo r)) = 1 → p.val ≠ lpmPage →
     exec (.tblCmdComplete r p) s = .next ((s.setH (.tblOp p (reqNo r)) 0).setReg (winBank r (Reg.TBL_STS p))
       (fld (s.reg (winBank r (Reg.TBL_STS p))) 0 7))) ∧
  (∀ r (p : Fin 8192) (n : Nat) s, s.hn (.tblOp p (reqNo r)) = 1 + 256 * n → 0 < n → p.val ≠ lpmPage →
     exec (.tblCmdComplete r p) s = .next ((s.setH (.tblOp p (reqNo r)) 0).setReg (winBank r (Reg.TBL_STS p)) (2 ^ 30 + n))) ∧
  (∀ r (p : Fin 8192) s, Admits s r (Reg.TBL_CMD p) →
     exec (.tblRead r p) s = .next (cmdWrite r p 1 (firstWrite r s))) ∧
  (∀ r (p : Fin 8192) s, Admits s r (Reg.TBL_CMD p) →
     exec (.tblWrite r p) s = .next (cmdWrite r p 2 (firstWrite r s))) ∧
  (∀ r (p : Fin 8192) s,
     exec (.tblCmdComplete r p) s = .next (if p.val = lpmPage then lpmComplete r s else tblComplete r p s))

/-- A rate word is applied by the write of its high half. The low half of a rate word is held, nothing else changes. The
high half applies both halves: the low half held or, if none is held, the one last applied; the time base stays. While
the time base follows a tracker, the low half of its rate word is refused with code 0x11. So is its high half.
Admitted, RATE_TB_LO_WRITE and RATE_TB_HI_WRITE have the effects rateLo and rateHi. (R60, R69, R71) -/
def Obligations.RateWordHalves : Prop :=
  (∀ r (x : RateSel) (v : W32) s, Admits s r (rateLoAddr x) → rateFollowed s x = false →
     exec (.rateTbLoWrite r x v) s = .next ((firstWrite r s).setH (.rateHeld (rateNo x)) (v.toNat + 1))) ∧
  (∀ r (x : RateSel) (v : W32) s, Sane s → Admits s r (rateHiAddr x) → rateFollowed s x = false →
     ∃ t, exec (.rateTbHiWrite r x v) s = .next t ∧ t.tb = s.tb ∧ t.h (.rateHeld (rateNo x)) = 0 ∧
       t.h (rateHid x) + nominalRate = (v.toNat * 2 ^ 32 + (if s.hn (.rateHeld (rateNo x)) = 0
         then (s.h (rateHid x) + nominalRate).toNat % 2 ^ 32 else s.hn (.rateHeld (rateNo x)) - 1) : Nat)) ∧
  (∀ r (v : W32) s, (followed s).isSome = true → Admits s r Reg.TIME.RATE_TB_LO →
     exec (.rateTbLoWrite r .tb v) s = .next (errReq timePage 0x11 r Reg.TIME.RATE_TB_LO v.toNat (firstWrite r s))) ∧
  (∀ r (v : W32) s, (followed s).isSome = true → Admits s r Reg.TIME.RATE_TB_HI →
     exec (.rateTbHiWrite r .tb v) s = .next (errReq timePage 0x11 r Reg.TIME.RATE_TB_HI v.toNat (firstWrite r s))) ∧
  (∀ r (x : RateSel) (v : W32) s, Admits s r (rateLoAddr x) →
     exec (.rateTbLoWrite r x v) s = .next (rateLo r x v.toNat (firstWrite r s))) ∧
  (∀ r (x : RateSel) (v : W32) s, Admits s r (rateHiAddr x) →
     exec (.rateTbHiWrite r x v) s = .next (rateHi r x v.toNat (firstWrite r s)))

/-- A read of TB_FRAC latches the time base and both trackers. A read of TB_FRAC returns the fraction of the time base,
and the requester's copies of the other registers hold the time base and the trackers at the same tick. In every state
TB_FRAC_READ completes, with the effect stated. (R61) -/
def Obligations.TimeBaseRead : Prop :=
  (∀ r s, Sane s → Admits s r Reg.TIME.TB_FRAC →
     ∃ t, exec (.tbFracRead r) s = .next t ∧ t.out = s.out ++ [.readData r Reg.TIME.TB_FRAC (fracOf s.tb)] ∧
       t.reg (bank (40 + reqNo r) Reg.TIME.TB_NS) = nsOf s.tb ∧
       t.reg (bank (40 + reqNo r) Reg.TIME.TB_SEC_LO) = secOf s.tb % 2 ^ 32 ∧
       t.reg (bank (40 + reqNo r) Reg.TIME.TB_SEC_HI) = secOf s.tb / 2 ^ 32 ∧
       (∀ x, x < 2 → t.reg (bank (40 + reqNo r) (Reg.TIME.TRK_FRAC x)) = fracOf (trk s x) ∧
         t.reg (bank (40 + reqNo r) (Reg.TIME.TRK_NS x)) = nsOf (trk s x) ∧
         t.reg (bank (40 + reqNo r) (Reg.TIME.TRK_SEC_LO x)) = secOf (trk s x) % 2 ^ 32 ∧
         t.reg (bank (40 + reqNo r) (Reg.TIME.TRK_SEC_HI x)) = secOf (trk s x) / 2 ^ 32) ∧
       t.tb = s.tb ∧ t.trkA = s.trkA ∧ t.trkB = s.trkB) ∧
  (∀ r s,
     exec (.tbFracRead r) s = .next (readFor r Reg.TIME.TB_FRAC (readTbFrac r) s))

/-- Control and steps of the time base. A write of TB_CTL with its present state and steering stores HOLD_AUTO only. A
state change that R62 allows is entered; LOCKED arms one step and counts a lock acquisition, any other state disarms.
Any other state change is refused with code 0x13, and the state stays. TB_CTL_WRITE, admitted, has the effect tbCtl.
STEP_CMD with an allowed step moves the time base by the signed offset, uses up the arming in LOCKED, counts and
raises STEP_DONE; the follower keeps the unstepped time. A write of 0 does nothing. A step that the state does not
permit is refused with code 0x10. A step whose nanoseconds are out of range is refused with code 0x12. STEP_REARM arms
a further step in LOCKED once the step is used, counts and raises STEP_REARMED; otherwise it is refused with code
0x13. TRK_STEP_CMD with a new tag moves the tracker by the signed offset and keeps the tag. With the tag of the last
step it does nothing. Admitted, STEP_CMD, STEP_REARM and TRK_STEP_CMD have the effects stepCmd, stepRearm and trkStep.
(R62, R63, R71, R64, R65, R66, R70, R72) -/
def Obligations.TimeControlAndSteps : Prop :=
  (∀ r (v : W32) s, Sane s → Admits s r Reg.TIME.TB_CTL → fld v.toNat 4 2 = s.rfld Reg.TIME.TB_CTL 4 2 →
     fld v.toNat 0 2 = s.rfld Reg.TIME.TB_CTL 0 2 → fld v.toNat 0 2 ≠ 3 →
     exec (.tbCtlWrite r v) s = .next ((firstWrite r s).setRbit Reg.TIME.TB_CTL 8 (bit v.toNat 8))) ∧
  (∀ r (v : W32) s, Sane s → Admits s r Reg.TIME.TB_CTL → fld v.toNat 4 2 ≠ s.rfld Reg.TIME.TB_CTL 4 2 →
     tbTransition (s.rfld Reg.TIME.TB_CTL 4 2) (fld v.toNat 4 2) = true → fld v.toNat 0 2 = s.rfld Reg.TIME.TB_CTL 0 2 →
     fld v.toNat 0 2 ≠ 3 →
     exec (.tbCtlWrite r v) s = .next (
       let w := ((firstWrite r s).setRbit Reg.TIME.TB_CTL 8 (bit v.toNat 8)).setRfld Reg.TIME.TB_CTL 4 2 (fld v.toNat 4 2)
       if fld v.toNat 4 2 = 2 then raise timePage 2 (bump Reg.TIME.LOCK_ACQ_CNT (w.setRbit Reg.TIME.TB_CTL 10 true))
       else w.setRbit Reg.TIME.TB_CTL 10 false)) ∧
  (∀ r (v : W32) s, Sane s → Admits s r Reg.TIME.TB_CTL → fld v.toNat 4 2 ≠ s.rfld Reg.TIME.TB_CTL 4 2 →
     tbTransition (s.rfld Reg.TIME.TB_CTL 4 2) (fld v.toNat 4 2) = false → fld v.toNat 0 2 = s.rfld Reg.TIME.TB_CTL 0 2 →
     fld v.toNat 0 2 ≠ 3 →
     exec (.tbCtlWrite r v) s = .next (errReq timePage 0x13 r Reg.TIME.TB_CTL v.toNat
       ((firstWrite r s).setRbit Reg.TIME.TB_CTL 8 (bit v.toNat 8)))) ∧
  (∀ r (v : W32) s, Admits s r Reg.TIME.TB_CTL →
     exec (.tbCtlWrite r v) s = .next (tbCtl r v.toNat (firstWrite r s))) ∧
  (∀ r (v : W32) s, Sane s → Admits s r Reg.TIME.STEP_CMD → bit v.toNat 0 = true → stepAllowed s = true →
     followed s = none → -999999999 ≤ sgn (s.reg Reg.TIME.STEP_NS) 32 → sgn (s.reg Reg.TIME.STEP_NS) 32 ≤ 999999999 →
     exec (.stepCmd r v) s = .next (
       let w : State := { firstWrite r s with tb := (((s.tb : Int) + stepOffset (s.reg Reg.TIME.STEP_SEC)
         (s.reg Reg.TIME.STEP_NS) (s.reg Reg.TIME.STEP_FRAC)) % timeWrap).toNat }
       raise timePage 0 (bump Reg.TIME.STEP_CNT
         (if s.rfld Reg.TIME.TB_CTL 4 2 = 2 then w.setRbit Reg.TIME.TB_CTL 10 false else w)))) ∧
  (∀ r (v : W32) s, Admits s r Reg.TIME.STEP_CMD → bit v.toNat 0 = false →
     exec (.stepCmd r v) s = .next (firstWrite r s)) ∧
  (∀ r (v : W32) s, Admits s r Reg.TIME.STEP_CMD → bit v.toNat 0 = true → stepAllowed s = false →
     exec (.stepCmd r v) s = .next (errReq timePage 0x10 r Reg.TIME.STEP_CMD v.toNat (firstWrite r s))) ∧
  (∀ r (v : W32) s, Admits s r Reg.TIME.STEP_CMD → bit v.toNat 0 = true → stepAllowed s = true →
     (sgn (s.reg Reg.TIME.STEP_NS) 32 < -999999999 ∨ 999999999 < sgn (s.reg Reg.TIME.STEP_NS) 32) →
     exec (.stepCmd r v) s = .next (errReq timePage 0x12 r Reg.TIME.STEP_CMD v.toNat (firstWrite r s))) ∧
  (∀ r (v : W32) s, Admits s r Reg.TIME.STEP_REARM → bit v.toNat 0 = true →
     exec (.stepRearm r v) s = .next (if s.rfld Reg.TIME.TB_CTL 4 2 = 2 ∧ s.rbit Reg.TIME.TB_CTL 10 = false
       then raise timePage 1 (bump Reg.TIME.REARM_CNT ((firstWrite r s).setRbit Reg.TIME.TB_CTL 10 true))
       else errReq timePage 0x13 r Reg.TIME.STEP_REARM v.toNat (firstWrite r s))) ∧
  (∀ r (x : Fin 2) (v : W32) s, Sane s → Admits s r (Reg.TIME.TRK_STEP_CMD x) → followed s = none →
     fld v.toNat 0 16 ≠ s.rfld (Reg.TIME.TRK_STEP_CMD x) 16 16 →
     exec (.trkStepCmd r x v) s = .next ((setTrk x (((trk s x : Int) +
       stepOffset (s.reg (Reg.TIME.TRK_STEP_SEC x)) (s.reg (Reg.TIME.TRK_STEP_NS x)) (s.reg (Reg.TIME.TRK_STEP_FRAC x)))
       % timeWrap).toNat (firstWrite r s)).setReg (Reg.TIME.TRK_STEP_CMD x) (fld v.toNat 0 16 * 2 ^ 16))) ∧
  (∀ r (x : Fin 2) (v : W32) s, Admits s r (Reg.TIME.TRK_STEP_CMD x) →
     fld v.toNat 0 16 = s.rfld (Reg.TIME.TRK_STEP_CMD x) 16 16 →
     exec (.trkStepCmd r x v) s = .next (firstWrite r s)) ∧
  (∀ r (v : W32) s, Admits s r Reg.TIME.STEP_CMD →
     exec (.stepCmd r v) s = .next (stepCmd r v.toNat (firstWrite r s))) ∧
  (∀ r (v : W32) s, Admits s r Reg.TIME.STEP_REARM →
     exec (.stepRearm r v) s = .next (stepRearm r v.toNat (firstWrite r s))) ∧
  (∀ r (x : Fin 2) (v : W32) s, Admits s r (Reg.TIME.TRK_STEP_CMD x) →
     exec (.trkStepCmd r x v) s = .next (trkStep x v.toNat (firstWrite r s)))

/-- A slew ends on its tracker; a lost reference; the realignment of the follower. The ticks that the slew takes pass
until the time base meets the tracker. With no slew in progress nothing happens. A reference that is lost sets LOSS
and is a fault of class 13; the followed tracker's loss in LOCKED with HOLD_AUTO also enters HOLDOVER and raises
AUTO_HOLDOVER. The time to the third missed Sync passes first. At its realignment, 1 µs after the last, the follower
takes the whole of the time base. SLEW_DONE has the effect slewDone. REF_LOSS of a reference that is not in use has no
effect, of one in use the effect refLoss at its deadline. On its condition, FOLLOWER_REALIGN has the effect stated.
(R22, R66, R72, R73) -/
def Obligations.TimeFollowing : Prop :=
  (∀ s x, followed s = some x → s.rbit Reg.TIME.TB_CTL 11 = true →
     exec .slewDone s = .next (advance (slewTicks s x) s)) ∧
  (∀ s, followed s = none →
     exec .slewDone s = .next s) ∧
  (∀ (x : Fin 2) s u, s.live timePage = true → s.rbit (Reg.TIME.TRK_REF_CFG x) 31 = true →
     waitSince timePage (.refSince x) (syncCycles s x) s = u → u.rbit (Reg.TIME.TRK_REF_CFG x) 31 = true →
     u.rbit (Reg.TIME.TRK_REF_STS x) 0 = false →
     exec (.refLoss x) s = .next (
       let w := raiseFault timePage (3 + x) 13 x (u.setRbit (Reg.TIME.TRK_REF_STS x) 0 true)
       if followed w = some x.val ∧ w.rfld Reg.TIME.TB_CTL 4 2 = 2 ∧ w.rbit Reg.TIME.TB_CTL 8 = true
       then raise timePage 5 (tbEnter 3 w) else w)) ∧
  (∀ s u, s.timeRuns = true → s.live 0x100 = true → nextInterval 0x100 .folAt (cycUs 1) s = u →
     exec .followerRealign s = .next { u with fol := u.tb }) ∧
  (∀ s,
     exec .slewDone s = .next (slewDone s)) ∧
  (∀ (x : Fin 2) s, s.live timePage = true →
     exec (.refLoss x) s = .next (if s.rbit (Reg.TIME.TRK_REF_CFG x) 31 = true then refLoss x (waitSince timePage (.refSince x) (syncCycles s x) s) else s)) ∧
  (∀ s, s.timeRuns = true → s.live 0x100 = true →
     exec .followerRealign s = .next (let s := nextInterval 0x100 .folAt (cycUs 1) s; { s with fol := s.tb }))

/-- PPS, time-of-day and frequency inputs and outputs. An edge of an enabled PPS input, outside quarantine and not before
the least interval, is timestamped, clears LOSS and raises its event; on input 0 it closes the interval of ToD
messages. An earlier edge is discarded and counted, and the fifth such edge within 10 s quarantines the input. 1.2 s
after the last edge, which pass first, LOSS is set and the input's loss event raised, once. REARM ends the quarantine
and starts the count of discarded edges again. A valid ToD message is latched as five words, an earlier one of the
same interval is counted as superseded, and LOSS is cleared. Any other message is counted and discarded. 2.0 s after
the last valid message, which pass first, LOSS is set and TOD_LOSS raised, once. Of the edges of the enabled frequency
input one in DIV is timestamped, the others are counted. 10 µs after the last edge, which pass first, FREQ_LOSS is
raised, once. PPS_LOSS of a disabled input has no effect, of an enabled one the effect ppsLoss at its deadline.
PPS_REARM, admitted, has the effect ppsRearm. In a live block PPS_IN_EDGE, TOD_RX_MESSAGE, FREQ_EDGE and FREQ_LOSS
have the effects ppsEdge, todRx, freqEdge and freqLoss. In live blocks, TOD_LOSS has the effect stated. At its next
edge an enabled output ends the pulse before, takes the instant of the edge after, and rises unless it is squelched.
An output without an edge to come stays as it is. A rise sets the output high, and on output 0 makes the ToD message
due 100 ms later; a squelched output stays as it is. A pulse ends after its width, which passes first. The ToD message
that is due leaves at its instant with the time of the next edge of output 0, unless the output is squelched or has no
edge to come. With none due nothing is sent. In a live block PPS_OUT_EDGE, PPS_PULSE_END and TOD_TX_START have the
effects ppsOutEdge, ppsPulseEnd and todSend. (R74, R93, R94, R95, R97, R99, R101, R96, R98) -/
def Obligations.TimeInputsAndOutputs : Prop :=
  (∀ (i : Fin 2) (dt : Fin 18) s, s.live timePage = true → s.rbit (Reg.TIME.PPS_IN_CFG i) 31 = true →
     s.rbit (Reg.TIME.PPS_IN_STS i) 1 = false →
     (s.hn (.ppsLast i) = 0 ∨ s.hn (.ppsLast i) + s.rfld (Reg.TIME.PPS_IN_CFG i) 0 11 * 1000000 * 16 ≤ stamp s dt + 1) →
     exec (.ppsInEdge i dt) s = .next (raise timePage (7 + i) (
       let w := stampRegs (Reg.TIME.PPS_IN_TS_FRAC i) (Reg.TIME.PPS_IN_TS_NS i) (Reg.TIME.PPS_IN_TS_SEC_LO i)
         (Reg.TIME.PPS_IN_TS_SEC_HI i) (stamp s dt) s
       let w := (w.setH (.ppsLast i) (stamp s dt + 1 : Nat)).setH (.ppsSince i) (w.root : Nat)
       let w := w.setRbit (Reg.TIME.PPS_IN_STS i) 0 false
       if i.val = 0 then w.setHb .todSeen false else w))) ∧
  (∀ (i : Fin 2) (dt : Fin 18) s, s.live timePage = true → s.rbit (Reg.TIME.PPS_IN_CFG i) 31 = true →
     s.rbit (Reg.TIME.PPS_IN_STS i) 1 = false → s.hn (.ppsLast i) ≠ 0 →
     stamp s dt + 1 < s.hn (.ppsLast i) + s.rfld (Reg.TIME.PPS_IN_CFG i) 0 11 * 1000000 * 16 →
     exec (.ppsInEdge i dt) s = .next (ppsFastEdge i (stamp s dt) s)) ∧
  (∀ (i : Fin 2) s u, s.live timePage = true → s.rbit (Reg.TIME.PPS_IN_CFG i) 31 = true →
     waitSince timePage (.ppsSince i) (cycUs 1200000) s = u → u.rbit (Reg.TIME.PPS_IN_CFG i) 31 = true →
     u.rbit (Reg.TIME.PPS_IN_STS i) 0 = false →
     exec (.ppsLoss i) s = .next (raise timePage (9 + i) (u.setRbit (Reg.TIME.PPS_IN_STS i) 0 true))) ∧
  (∀ r (i : Fin 2) (v : W32) s, Admits s r (Reg.TIME.PPS_IN_REARM i) → bit v.toNat 0 = true →
     exec (.ppsRearm r i v) s = .next (forEach [0, 1, 2, 3, 4] ((firstWrite r s).setRbit (Reg.TIME.PPS_IN_STS i) 1 false)
       fun k t => t.setH (.ppsFast i k) 0)) ∧
  (∀ msg fr s, s.live timePage = true → todValid msg fr = true →
     exec (.todRxMessage msg fr) s = .next (
       let w := if s.hb .todSeen then bump Reg.TIME.TOD_EXTRA_CNT s else s
       let w := forEach (List.range 5) w fun i s =>
         s.setReg (Reg.TIME.TOD_IN i) (beNat ((((msg.drop 4).take 18) ++ [0, 0]).drop (4 * i) |>.take 4))
       ((w.setHb .todSeen true).setRbit Reg.TIME.TOD_STS 0 false).setH .todSince (w.root : Nat))) ∧
  (∀ msg fr s, s.live timePage = true → todValid msg fr = false →
     exec (.todRxMessage msg fr) s = .next (bump Reg.TIME.TOD_BAD_CNT s)) ∧
  (∀ s u, s.live timePage = true → waitSince timePage .todSince (cycUs 2000000) s = u →
     exec .todLoss s = .next (if u.rbit Reg.TIME.TOD_STS 0 = true then u else raise timePage 13 (u.setRbit Reg.TIME.TOD_STS 0 true))) ∧
  (∀ (dt : Fin 18) s, s.live timePage = true → s.rbit Reg.TIME.FREQ_CFG 31 = true →
     exec (.freqEdge dt) s = .next (
       let w := s.setH .freqSince (s.root + 1 : Nat)
       if w.hn .freqCnt + 1 < w.rfld Reg.TIME.FREQ_CFG 0 24 then w.setH .freqCnt (w.hn .freqCnt + 1 : Nat) else
       stampRegs Reg.TIME.FREQ_TS_FRAC Reg.TIME.FREQ_TS_NS Reg.TIME.FREQ_TS_SEC_LO Reg.TIME.FREQ_TS_SEC_HI (stamp w dt)
         (w.setH .freqCnt 0))) ∧
  (∀ s, s.live timePage = true → s.rbit Reg.TIME.FREQ_CFG 31 = true → s.hn .freqSince ≠ 0 →
     exec .freqLoss s = .next (raise timePage 14 ((waitRoot (s.hn .freqSince - 1 + cycUs 10) s).setH .freqSince 0))) ∧
  (∀ (i : Fin 2) s, s.live timePage = true →
     exec (.ppsLoss i) s = .next (if s.rbit (Reg.TIME.PPS_IN_CFG i) 31 = true then ppsLoss i (waitSince timePage (.ppsSince i) (cycUs 1200000) s) else s)) ∧
  (∀ r (i : Fin 2) (v : W32) s, Admits s r (Reg.TIME.PPS_IN_REARM i) →
     exec (.ppsRearm r i v) s = .next (ppsRearm i v.toNat (firstWrite r s))) ∧
  (∀ (i : Fin 2) (dt : Fin 18) s, s.live timePage = true →
     exec (.ppsInEdge i dt) s = .next (ppsEdge i dt s)) ∧
  (∀ (msg : List Byte) (framing : Bool) s, s.live timePage = true →
     exec (.todRxMessage msg framing) s = .next (todRx msg framing s)) ∧
  (∀ (dt : Fin 18) s, s.live timePage = true →
     exec (.freqEdge dt) s = .next (freqEdge dt s)) ∧
  (∀ s, s.live timePage = true →
     exec .freqLoss s = .next (freqLoss s)) ∧
  (∀ s, s.live timePage = true →
     exec .todLoss s = .next (todLoss (waitSince timePage .todSince (cycUs 2000000) s))) ∧
  (∀ (i : Fin 2) (t : Nat) s u, s.live timePage = true → s.hn (.ppsNext i) = t + 1 →
     advanceSrcTo (s.rfld (Reg.TIME.PPS_OUT_CFG i) 0 2) t (ppsPulseEnd i s) = u →
     t ≤ srcTime u (s.rfld (Reg.TIME.PPS_OUT_CFG i) 0 2) →
     exec (.ppsOutEdge i) s = .next (ppsRise i (ppsArm i u))) ∧
  (∀ (i : Fin 2) s, s.live timePage = true → s.hn (.ppsNext i) = 0 →
     exec (.ppsOutEdge i) s = .next s) ∧
  (∀ (i : Nat) s,
     ppsRise i s = if squelched s i = true then s else
       let w := ((if s.hb (.ppsOut i) = true then s else (s.setHb (.ppsOut i) true).emit (.pps i true))).setH (.ppsRise i) (s.root : Nat)
       if i = 0 then w.setH .todDue (s.root + cycUs 100000 + 1 : Nat) else w) ∧
  (∀ (i : Fin 2) s u, s.live timePage = true → s.hb (.ppsOut i) = true →
     waitRoot (s.hn (.ppsRise i) + cycUs (s.reg (Reg.TIME.PPS_OUT_WIDTH i))) s = u → u.hb (.ppsOut i) = true →
     exec (.ppsPulseEnd i) s = .next ((u.setHb (.ppsOut i) false).emit (.pps i false))) ∧
  (∀ (due : Nat) s u, s.live timePage = true → s.hn .todDue = due + 1 → (waitRoot due s).setH .todDue 0 = u →
     exec .todTxStart s = .next (if u.hn (.ppsNext 0) = 0 ∨ squelched u 0 = true then u else u.emit (.tod (todMessage u (u.hn (.ppsNext 0) - 1))))) ∧
  (∀ s, s.live timePage = true → s.hn .todDue = 0 →
     exec .todTxStart s = .next s) ∧
  (∀ (i : Fin 2) s, s.live timePage = true →
     exec (.ppsOutEdge i) s = .next (ppsOutEdge i s)) ∧
  (∀ (i : Fin 2) s, s.live timePage = true →
     exec (.ppsPulseEnd i) s = .next (ppsPulseEnd i s)) ∧
  (∀ s, s.live timePage = true →
     exec .todTxStart s = .next (todSend s))

/-- Bring-up and faults of a line link. SIGNAL_DETECT marks every lane of the port locked and moves a running port in
SIGNAL to LOCK. A change of state shows no fault kind outside FAULT, sends remote fault where due, and in leaving UP
and FAULT ends the frame under reception, releases the pauses and raises LINK_DOWN. ALIGNMENT_LOCK moves a port from
LOCK to DESKEW. Outside LOCK and SIGNAL it is ignored. In SIGNAL with the PCS looped back, where the line is not
looked at, it moves the port to DESKEW. DESKEW_MEASURED with no skew above 180 ns stores the skews and moves the port
to HOLD. With more it returns to LOCK and raises the skew event. UP_HOLD_EXPIRE in HOLD lets UP_HOLD ms pass since its
start, loads DESKEW_RX, moves the port to UP, counts LINK_UP_CNT and raises LINK_UP; the local fault sets of a client
fail, or its own remote fault sets looped back, then reach it. ALIGNMENT_LOSS moves a port in HOLD, UP or FAULT to
LOCK. SIGNAL_LOSS on a lane of a running Ethernet port clears its lock, squelches the recovered clocks taken from it
and returns a port that is not in NEAR_PCS to SIGNAL. SIGNAL_LOSS of a lane of an OTN port also declares dLOS.
Received fault ordered sets show their kind; they move a port from UP to FAULT with the event of the kind, and release
its pauses. In FAULT they stay while a client fail lasts. Their absence returns the port to UP without LINK_UP. A FEC
window, 1 ms after the last, of an Ethernet port adds its counts; more symbols than the threshold set DEGRADED and
raise its event, fewer clear it. A recovered-clock output squelched for the loss of its lane resumes 10 ms after the
lane has locked again. While the lane is not locked, or the output not squelched, nothing happens. On a running link
in the state that takes it ALIGNMENT_LOCK and DESKEW_MEASURED have the effects setLink and deskewMeasured.
FAULT_SETS_RX of a port in UP or FAULT without the PCS looped back has the effect faultSets. FEC_WINDOW has the effect
fecWindow after its 1 ms. In live blocks, RCLK_RESUME has the effect stated. (R127, R129, R131, R100, R130, R135) -/
def Obligations.LineLinks : Prop :=
  (∀ (n : Fin 128) s, s.clocked (lportPage n) = true →
     exec (.signalDetect n) s = .next (
       let u := forEach (List.range (portLanes s n)) s fun k w =>
         if w.rbit (Reg.LPORT.LINK_STS n) (16 + k) = true then w else w.setH (.laneLockAt (n + k)) (w.root : Nat)
       let u := u.setRfld (Reg.LPORT.LINK_STS n) 16 8 (2 ^ portLanes u n - 1)
       if linkRuns u n = true ∧ linkState u n = 1 then setLink n 2 u else u)) ∧
  (∀ (n st : Nat) s,
     setLink n st s =
       let u := s.setRfld (Reg.LPORT.LINK_STS n) 0 3 st
       let u := if st = 6 then u else u.setRfld (Reg.LPORT.LINK_STS n) 6 2 0
       let u := remoteFault n (if st = 4 then u.setH (.upAt n) (u.root : Nat) else u)
       if (linkState s n = 5 ∨ linkState s n = 6) ∧ st ≠ 5 ∧ st ≠ 6
       then raise (lportPage n) 1 (releasePauses n (rxEnd n false true u)) else u) ∧
  (∀ (n : Fin 128) s, linkRuns s n = true → linkState s n = 2 →
     exec (.alignmentLock n) s = .next (setLink n 3 s)) ∧
  (∀ (n : Fin 128) s, linkState s n ≠ 2 → linkState s n ≠ 1 ∨ loopback s n ≠ 1 →
     exec (.alignmentLock n) s = .next s) ∧
  (∀ (n : Fin 128) s, linkRuns s n = true → linkState s n = 1 → loopback s n = 1 →
     exec (.alignmentLock n) s = .next (setLink n 3 s)) ∧
  (∀ (n : Fin 128) (skews : List (BitVec 16)) s, Sane s → linkRuns s n = true → linkState s n = 3 → loopback s n ≠ 1 →
     portLanes s n = skews.length → (∀ x ∈ skews, x.toNat ≤ 2880) →
     exec (.deskewMeasured n skews) s = .next (
       let sk := skews.map BitVec.toNat
       let w := (forEach (List.range (portLanes s n)) s fun i t => t.setReg (Reg.LPORT.LANE_SKEW n i) ((sk.drop i).headD 0)).setH
         (.deskew n) (sk.foldl max 0 - sk.headD 0 : Nat)
       setLink n 4 w)) ∧
  (∀ (n : Fin 128) (skews : List (BitVec 16)) s, Sane s → linkRuns s n = true → linkState s n = 3 → loopback s n ≠ 1 →
     portLanes s n = skews.length → (∃ x ∈ skews, 2880 < x.toNat) →
     exec (.deskewMeasured n skews) s = .next (
       let w := forEach (List.range (portLanes s n)) s fun i t =>
         t.setReg (Reg.LPORT.LANE_SKEW n i) (((skews.map BitVec.toNat).drop i).headD 0)
       raise (lportPage n) 2 (setLink n 2 w))) ∧
  (∀ (n : Fin 128) s, linkRuns s n = true → linkState s n = 4 →
     exec (.upHoldExpire n) s = .next (
       let u := waitSince (lportPage n) (.upAt n) (cycUs (1000 * s.rfld (Reg.LPORT.LINK_CFG n) 0 8)) s
       let w := raise (lportPage n) 0 (bump (Reg.LPORT.LINK_UP_CNT n) (setLink n 5 (u.setReg (Reg.TIME.TSU_DESKEW_RX n) (u.hn (.deskew n)))))
       if clientFails w n = true then faultSets n false w
       else if w.hb (.txRf n) = true ∧ loopback w n = 1 then faultSets n true w else w)) ∧
  (∀ (n : Fin 128) s, linkRuns s n = true → 4 ≤ linkState s n →
     exec (.alignmentLoss n) s = .next (setLink n 2 s)) ∧
  (∀ (n : Fin 128) (k : Fin 8) s u, s.clocked (lportPage n) = true → k.val < portLanes s n →
     lockChange (fun w => w.setRbit (Reg.LPORT.LINK_STS n) (16 + k) false) s = u → u.live (lportPage n) = true →
     linkState u n ≠ 0 → loopback u n ≠ 1 → otnRuns (setLink n 1 u) n = false →
     exec (.signalLoss n k) s = .next (setLink n 1 u)) ∧
  (∀ (n : Fin 128) (k : Fin 8) s,
     exec (.signalLoss n k) s = .next (
       let u := s.when (s.clocked (lportPage n) && k.val < portLanes s n) (Machine.signalLoss n k)
       u.when (otnRuns u n && k.val < portLanes u n) (setDefect n 0 true))) ∧
  (∀ (n : Fin 128) (remote : Bool) s, linkRuns s n = true → 5 ≤ linkState s n → loopback s n ≠ 1 →
     exec (.faultSetsRx n remote) s = .next (
       let u := s.setRfld (Reg.LPORT.LINK_STS n) 6 2 (if remote then 2 else 1)
       remoteFault n (if linkState s n = 5 then
         raise (lportPage n) (if remote then 3 else 4) (releasePauses n (u.setRfld (Reg.LPORT.LINK_STS n) 0 3 6)) else u))) ∧
  (∀ (n : Fin 128) s, clientFails s n = true →
     exec (.faultSetsAbsent n) s = .next s) ∧
  (∀ (n : Fin 128) s, linkRuns s n = true → linkState s n = 6 → clientFails s n = false →
     exec (.faultSetsAbsent n) s = .next (setLink n 5 s)) ∧
  (∀ (n : Fin 128) (corr uncorr sym : W32) s u, linkRuns s n = true → isOtn s n = false →
     nextInterval (lportPage n) (.fecAt n) (cycUs 1000) s = u → loopback u n ≠ 1 → isOtn u n = false →
     exec (.fecWindow n corr uncorr sym) s = .next (
       let w := bumpBy (Reg.LPORT.FEC_SYM_CORR n) sym.toNat (bumpBy (Reg.LPORT.FEC_CW_UNCORR n) uncorr.toNat
         (bumpBy (Reg.LPORT.FEC_CW_CORR n) corr.toNat u))
       if w.reg (Reg.LPORT.FEC_DEG_THR n) < sym.toNat then raise (lportPage n) 5 (w.setRbit (Reg.LPORT.LINK_STS n) 9 true)
       else w.setRbit (Reg.LPORT.LINK_STS n) 9 false)) ∧
  (∀ (k : Fin 4) s, s.live timePage = true → s.rbit (Reg.TIME.RCLK k) 14 = true →
     laneLocked s (s.rfld (Reg.TIME.RCLK k) 0 7) = true →
     exec (.rclkResume k) s = .next ((waitRoot (s.hn (.laneLockAt (s.rfld (Reg.TIME.RCLK k) 0 7)) + cycUs 10000) s).setRbit (Reg.TIME.RCLK k) 14 false)) ∧
  (∀ (k : Fin 4) s, s.rbit (Reg.TIME.RCLK k) 14 = false ∨ laneLocked s (s.rfld (Reg.TIME.RCLK k) 0 7) = false →
     exec (.rclkResume k) s = .next s) ∧
  (∀ (n : Fin 128) s, linkRuns s n = true → (linkState s n == 2 || (linkState s n == 1 && loopback s n == 1)) = true →
     exec (.alignmentLock n) s = .next (setLink n 3 s)) ∧
  (∀ (n : Fin 128) (skews : List (BitVec 16)) s, linkRuns s n = true → linkState s n = 3 →
     exec (.deskewMeasured n skews) s = .next (deskewMeasured n (skews.map BitVec.toNat) s)) ∧
  (∀ (n : Fin 128) (remote : Bool) s, linkRuns s n = true → 5 ≤ linkState s n → loopback s n ≠ 1 →
     exec (.faultSetsRx n remote) s = .next (faultSets n remote s)) ∧
  (∀ (n : Fin 128) (corr uncorr sym : W32) s,
     (if isOtn s n then s.live (otnPage (n.val / 16)) else linkRuns s n) = true →
     exec (.fecWindow n corr uncorr sym) s = .next (Machine.fecWindow n corr.toNat uncorr.toNat sym.toNat
       (nextInterval (if isOtn s n then otnPage (n.val / 16) else lportPage n) (.fecAt n) (cycUs 1000) s))) ∧
  (∀ (r : Fin 4) s, s.live timePage = true →
     exec (.rclkResume r) s = .next (let l := s.rfld (Reg.TIME.RCLK r) 0 7; if s.rbit (Reg.TIME.RCLK r) 14 && laneLocked s l then (waitRoot (s.hn (.laneLockAt l) + cycUs 10000) s).setRbit (Reg.TIME.RCLK r) 14 false else s))

/-- Lane maps and port configuration. MAP_COMMIT of a map in which no lane offends keeps it for the switch and reads busy.
A map is refused with code 0x10 and the number of the first lane that offends. While a committed map is not applied, a
commit is refused with code 0x11. MAP_APPLIED of a committed map: the ports whose lane or mode changes leave service,
the map becomes the active one with its recovered clocks following, and the changed ports start again. With no map
committed nothing happens. MAP_COMMIT, admitted, has the effect mapCommit. In live blocks, MAP_APPLIED has the effect
stated. A write of MAC_CFG with an MTU from 64 to 12,288, a flow-control mode that exists and RX_EN unchanged stores
its fields. An MTU outside that range stays as it was and is reported with code 0x10; the other fields are stored.
LINK_CFG with LOOPBACK 3 or UP_HOLD 0 is refused whole with code 0x10. Else it is stored, and a change of LOOPBACK
returns a port that runs to SIGNAL. MAC_CFG_WRITE, admitted, has the effect macCfg. A write that changes RX_EN also
puts the port into DISABLED, or from it into SIGNAL if the active map has it. Admitted, LOOPBACK_WRITE has the effect
stated. (R108, R109, R110, R111, R127, R131, R135, R136) -/
def Obligations.PortSettings : Prop :=
  (∀ r (g : Fin 8) (v : W32) s, Admits s r (Reg.LG.MAP_COMMIT g) → bit v.toNat 0 = true → s.hb (.mapBusy g) = false →
     (List.range 16).find? (laneOffends (s.reg (Reg.LG.MAP_LO g)) (s.reg (Reg.LG.MAP_HI g))) = none →
     exec (.mapCommit r g v) s = .next ((((firstWrite r s).setReg (bank 61 (Reg.LG.ACT_LO g)) (s.reg (Reg.LG.MAP_LO g))).setReg
       (bank 61 (Reg.LG.ACT_HI g)) (s.reg (Reg.LG.MAP_HI g))).setHb (.mapBusy g) true)) ∧
  (∀ r (g : Fin 8) (v : W32) s (l : Nat), Admits s r (Reg.LG.MAP_COMMIT g) → bit v.toNat 0 = true →
     s.hb (.mapBusy g) = false →
     (List.range 16).find? (laneOffends (s.reg (Reg.LG.MAP_LO g)) (s.reg (Reg.LG.MAP_HI g))) = some l →
     exec (.mapCommit r g v) s = .next (errReq (lgPage g) 0x10 r (Reg.LG.MAP_COMMIT g) l (firstWrite r s))) ∧
  (∀ r (g : Fin 8) (v : W32) s, Sane s → Admits s r (Reg.LG.MAP_COMMIT g) → bit v.toNat 0 = true →
     s.hb (.mapBusy g) = true →
     exec (.mapCommit r g v) s = .next (errReq (lgPage g) 0x11 r (Reg.LG.MAP_COMMIT g) v.toNat (firstWrite r s))) ∧
  (∀ (g : Fin 8) s, s.live (lgPage g) = true → s.hb (.mapBusy g) = true →
     exec (.mapApplied g) s = .next (
       let lo := s.reg (bank 61 (Reg.LG.ACT_LO g))
       let hi := s.reg (bank 61 (Reg.LG.ACT_HI g))
       let changed := (List.range 16).filter fun l => mapLane lo hi l != portMode s (16 * g + l)
       let w := lockChange (fun s =>
         let w := forEach changed s fun l t => if mapped t (16 * g + l)
           then otnOut (16 * g + l) ((setLink (16 * g + l) 0 t).setRfld (Reg.LPORT.LINK_STS (16 * g + l)) 9 15 0) else t
         (w.setReg (Reg.LG.ACT_LO g) lo).setReg (Reg.LG.ACT_HI g) hi) s
       let w := forEach changed w fun l t =>
         setLink (16 * g + l) (startState t (16 * g + l))
           (forEach [1, 2, 3] t fun k t => t.setH (.perSince (16 * g + l) k) (t.root : Nat))
       raise (lgPage g) 0 (w.setHb (.mapBusy g) false))) ∧
  (∀ (g : Fin 8) s, s.hb (.mapBusy g) = false →
     exec (.mapApplied g) s = .next s) ∧
  (∀ r (g : Fin 8) (v : W32) s, Admits s r (Reg.LG.MAP_COMMIT g) →
     exec (.mapCommit r g v) s = .next (mapCommit r g v.toNat (firstWrite r s))) ∧
  (∀ (g : Fin 8) s, s.live (lgPage g) = true →
     exec (.mapApplied g) s = .next (if s.hb (.mapBusy g) then mapApply g s else s)) ∧
  (∀ r (n : Fin 128) (v : W32) s, Admits s r (Reg.LPORT.MAC_CFG n) → 64 ≤ fld v.toNat 0 14 → fld v.toNat 0 14 ≤ 12288 →
     fld v.toNat 18 2 ≠ 3 → bit v.toNat 15 = s.rbit (Reg.LPORT.MAC_CFG n) 15 →
     exec (.macCfgWrite r n v) s = .next ((firstWrite r s).setReg (Reg.LPORT.MAC_CFG n) (setFld (setFld (setFld
       (s.reg (Reg.LPORT.MAC_CFG n)) 15 3 (fld v.toNat 15 3)) 0 14 (fld v.toNat 0 14)) 18 2 (fld v.toNat 18 2)))) ∧
  (∀ r (n : Fin 128) (v : W32) s, Admits s r (Reg.LPORT.MAC_CFG n) →
     (fld v.toNat 0 14 < 64 ∨ 12288 < fld v.toNat 0 14) → fld v.toNat 18 2 ≠ 3 →
     bit v.toNat 15 = s.rbit (Reg.LPORT.MAC_CFG n) 15 →
     exec (.macCfgWrite r n v) s = .next ((errReq (lportPage n) 0x10 r (Reg.LPORT.MAC_CFG n) v.toNat (firstWrite r s)).setReg
       (Reg.LPORT.MAC_CFG n) (setFld (setFld (setFld (s.reg (Reg.LPORT.MAC_CFG n)) 15 3 (fld v.toNat 15 3)) 0 14
         (fld (s.reg (Reg.LPORT.MAC_CFG n)) 0 14)) 18 2 (fld v.toNat 18 2)))) ∧
  (∀ r (n : Fin 128) (v : W32) s, Admits s r (Reg.LPORT.LINK_CFG n) → (fld v.toNat 8 2 = 3 ∨ fld v.toNat 0 8 = 0) →
     exec (.loopbackWrite r n v) s = .next (errReq (lportPage n) 0x10 r (Reg.LPORT.LINK_CFG n) v.toNat (firstWrite r s))) ∧
  (∀ r (n : Fin 128) (v : W32) s, Admits s r (Reg.LPORT.LINK_CFG n) → fld v.toNat 8 2 ≠ 3 → fld v.toNat 0 8 ≠ 0 →
     exec (.loopbackWrite r n v) s = .next (
       let w := (firstWrite r s).setReg (Reg.LPORT.LINK_CFG n) (fld v.toNat 0 10)
       if fld v.toNat 8 2 ≠ loopback s n ∧ linkState w n ≠ 0 then setLink n 1 w else w)) ∧
  (∀ r (n : Fin 128) (v : W32) s, Admits s r (Reg.LPORT.MAC_CFG n) →
     exec (.macCfgWrite r n v) s = .next (macCfg r n v.toNat (firstWrite r s))) ∧
  (∀ r (n : Fin 128) (v : W32) s, Admits s r (Reg.LPORT.MAC_CFG n) → 64 ≤ fld v.toNat 0 14 → fld v.toNat 0 14 ≤ 12288 →
     fld v.toNat 18 2 ≠ 3 → bit v.toNat 15 ≠ s.rbit (Reg.LPORT.MAC_CFG n) 15 →
     exec (.macCfgWrite r n v) s = .next (
       let w := (firstWrite r s).setReg (Reg.LPORT.MAC_CFG n) (setFld (setFld (setFld
         (s.reg (Reg.LPORT.MAC_CFG n)) 15 3 (fld v.toNat 15 3)) 0 14 (fld v.toNat 0 14)) 18 2 (fld v.toNat 18 2))
       if bit v.toNat 15 = true then (if mapped w n = true then setLink n 1 w else w) else setLink n 0 w)) ∧
  (∀ r (n : Fin 128) (v : W32) s, Admits s r (Reg.LPORT.LINK_CFG n) →
     exec (.loopbackWrite r n v) s = .next (linkCfg r n v.toNat (firstWrite r s)))

/-- A frame at a receiver: its start, its end by the first row of R115 that it meets, and its header cell. A start of
frame at a port in UP or FAULT with no frame under reception opens a frame with its timestamp and the MTU of the port.
A disabled port discards it and reports code 0x08. START_OF_FRAME_RX without the PCS looped back has the effect
rxStart. FRAME_TAIL_RX takes the last bytes, ends the frame, and settles what was charged of it as it came.
HEADER_CELL_HANDOFF has the effect headerHandoff. A MAC control frame, and an incomplete frame of less than 256 bytes,
stays at the receiver with the bytes that came. The end of a frame: with L its length, to the FCS where it has come, M
the MTU, u the state with the reception closed and the bandwidth window counted; what of it was charged as it came is
then settled. The header cell of a complete frame goes to its pipeline while the line group runs and the pipeline
takes it. A frame that the pipeline does not take is discarded, counted in PIPE_DROP, and raises its event on the
first count. A PAUSE frame, with flow control PAUSE, is consumed, counted, and obeyed for every class. A MAC control
frame that the port's flow control does not obey is discarded and counted. At the end of its quanta a pause ends. In
live blocks, MAC_CTL_FRAME_RX and PAUSE_EXPIRE have the effects stated. (R74, R75, R78, R115, R116, R117, R122, R123) -/
def Obligations.Reception : Prop :=
  (∀ (n : Fin 128) (dt : Fin 18) s, loopback s n ≠ 1 → (linkState s n = 5 ∨ linkState s n = 6) →
     s.live (lportPage n) = true → s.hn (.rxOn n) = 0 → s.live timePage = true → s.rbit (Reg.TIME.TSU_TS_CTL n) 0 = true →
     exec (.startOfFrameRx n dt) s = .next (
       let t := (((stamp s dt : Nat) + -(rxCorr s n)) % (timeWrap / 2 ^ 44 : Nat)).toNat
       let w := s.newFrame { id := 0, loc := .rx n, full := false, recv := some n.val, inPort := some n.val, port := n, birth := t, ctEn := s.rbit (Reg.LPORT.MAC_CFG n) 17 }
       (((w.setH (.rxOn n) (s.hn .nextId + 1)).setH (.rxLen n) 0).setH (.rxMtu n) (w.rfld (Reg.LPORT.MAC_CFG n) 0 14)).setHb
         (.rxCtl n) false)) ∧
  (∀ (n : Fin 128) (dt : Fin 18) s, loopback s n ≠ 1 → (linkState s n = 5 ∨ linkState s n = 6) →
     s.live (lportPage n) = false → s.clocked (lportPage n) = true →
     exec (.startOfFrameRx n dt) s = .next (errDisabled (lportPage n) s)) ∧
  (∀ (n : Fin 128) (dt : Fin 18) s, loopback s n ≠ 1 →
     exec (.startOfFrameRx n dt) s = .next (rxStart n dt s)) ∧
  (∀ (n : Fin 128) (bytes : List Byte) (good err : Bool) s, s.live (lportPage n) = true →
     exec (.frameTailRx n bytes good err) s = .next (grown (s.hn (.rxOn n) - 1) (rxEnd n good err (rxBytes n bytes s)))) ∧
  (∀ (n : Fin 128) (bytes : List Byte) (absorb : Bool) s,
     exec (.headerCellHandoff n bytes absorb) s = .next (headerHandoff n bytes absorb s)) ∧
  (∀ (n : Fin 128) (bytes : List Byte) (absorb : Bool) (f g : Frame) s u, s.firstAt (.rx n) = some f →
     (if f.full = true then s else rxBytes n bytes s) = u → u.frame f.id = some g →
     isMacCtl g.bytes = true ∨ headerComplete g = false →
     exec (.headerCellHandoff n bytes absorb) s = .next u) ∧
  (∀ (n : Fin 128) (bytes : List Byte) (good err : Bool) s, s.live (lportPage n) = true → s.hn (.rxOn n) ≠ 0 →
     (rxBytes n bytes s).hn (.rxOn n) = s.hn (.rxOn n) →
     exec (.frameTailRx n bytes good err) s = .next (
       let w := rxBytes n bytes s
       let id := s.hn (.rxOn n) - 1
       let L := w.hn (.rxLen n) + if err then 0 else 4
       let M := w.hn (.rxMtu n)
       let u := bwCount true n (min L M) (w.hn (.rxTs n)) (w.setH (.rxOn n) 0)
       grown id (if M < L then rxBad n id (rxFill id M (bump (Reg.LPORT.RX_OVERSIZE n) u))
       else if err then rxBad n id (rxFill id 0 (bump (Reg.LPORT.RX_TRUNC n) u))
       else if L < 64 then rxDiscard id (bump (if good then Reg.LPORT.RX_UNDERSIZE n else Reg.LPORT.RX_FRAGMENT n) u)
       else if good = false then
         (if L ≤ 256 then rxDiscard id else rxBad n id) (bump (Reg.LPORT.RX_FCS_ERR n) u)
       else
         let u := if u.hb (.rxCtl n) then u else bumpBy (Reg.LPORT.RX_BYTES n) L (bump (Reg.LPORT.RX_FRAMES n) u)
         match u.frame id with
         | some f => u.putFrame { f with full := true, recv := none }
         | none => u))) ∧
  (∀ (n : Fin 128) (f : Frame) (bytes : List Byte) s, s.firstAt (.rx n) = some f → s.frame f.id = some f →
     f.full = true → isMacCtl f.bytes = false → s.live (lgPage (n / 16)) = true → s.clocked (ipipePage (n / 16)) = true →
     s.hb (.stuck (n / 16)) = false →
     exec (.headerCellHandoff n bytes true) s = .next (s.moveFrame f (.entry (n / 16)))) ∧
  (∀ (n : Fin 128) (f : Frame) (bytes : List Byte) s, s.firstAt (.rx n) = some f → s.frame f.id = some f →
     f.full = true → isMacCtl f.bytes = false → s.live (lgPage (n / 16)) = true →
     exec (.headerCellHandoff n bytes false) s = .next
       (raiseFirst (lgPage (n / 16)) 1 (bump (Reg.LG.PIPE_DROP (n / 16)) (s.drop f)))) ∧
  (∀ (n : Fin 128) (f : Frame) s, s.live (lportPage n) = true → s.firstAt (.rx n) = some f → f.full = true →
     isMacCtl f.bytes = true → (s.drop f).rfld (Reg.LPORT.MAC_CFG n) 18 2 = 1 → beAt f.bytes 14 2 = 1 →
     exec (.macCtlFrameRx n) s = .next (bump (Reg.LPORT.RX_PAUSE n) (forEach (List.range 8) (s.drop f)
       fun c t => obeyPause n c (beAt f.bytes 16 2) t))) ∧
  (∀ (n : Fin 128) (f : Frame) s, s.live (lportPage n) = true → s.firstAt (.rx n) = some f → f.full = true →
     isMacCtl f.bytes = true → (s.drop f).rfld (Reg.LPORT.MAC_CFG n) 18 2 = 0 →
     exec (.macCtlFrameRx n) s = .next (bump (Reg.LPORT.RX_MACCTL_DISC n) (s.drop f))) ∧
  (∀ (n : Fin 128) (c : Fin 8) s, s.live (lportPage n) = true → s.hb (.paused n c) = true → s.timeRuns = true →
     exec (.pauseExpire n c) s = .next ((advanceTo ((s.hn (.paused n c) - 1) * 2 ^ 44) s).setH (.paused n c) 0)) ∧
  (∀ (n : Fin 128) s, s.live (lportPage n) = true →
     exec (.macCtlFrameRx n) s = .next (match s.firstAt (.rx n) with | some f => if f.full && isMacCtl f.bytes then macCtl n f.bytes (s.drop f) else s | none => s)) ∧
  (∀ (n : Fin 128) (c : Fin 8) s, s.live (lportPage n) = true →
     exec (.pauseExpire n c) s = .next (if s.hb (.paused n c) then let s := if s.timeRuns then advanceTo ((s.hn (.paused n c) - 1) * 2 ^ 44) s else s; s.setH (.paused n c) 0 else s))

/-- A frame at a transmitter, flow-control frames, and the recirculation ports. With no flow-control frame waiting: a
frame not known to be bad whose port does not transmit is discarded whole and counted in TX_DOWN_DROP. A frame known
to be bad is discarded before its start and counted in TX_BAD_DISC; that this also holds where the port does not
transmit is the model's choice (notes/assumptions/96.md). FRAME_TX at each boundary sends a waiting flow-control frame
first, then starts or ends the next frame of the port, and sends one again behind it. A complete good frame without
one-step field, launch time or inject ring is sent, padded to 60 bytes, on the line, and leaves the device. TX_ABORT
ends the first abandoned frame of the port's transmitter or launch stage, under R120 if the port transmits, and sends
a waiting flow-control frame behind it. Without an abandoned frame it does nothing. A frame ended under R120 within
TX_MTU goes out with an inverted FCS, counts TX_ABORT and raises its event. A change of the classes that admission
asks the port to stop makes a flow-control frame due, which goes out at the next frame boundary. A due flow-control
frame goes out while the port transmits, no frame is in transmission and no timed frame is near; PFC counts each
asserted class, PAUSE the frame. FC_REFRESH, REFRESH x 100 ns after the last one, makes it due again while a class
stays asserted. With no class asserted it does nothing. A complete good frame at a recirculation port is counted and
goes to its pipeline. A bad one is discarded, counted in RECIRC_BAD_DISC and raises its event. RECIRC_ENTRY has the
effect recircEntry. In live blocks, TX_ABORT has the effect stated. (R75, R119, R120, R125, R126, R130, R134) -/
def Obligations.Transmission : Prop :=
  (∀ (n : Fin 128) (dt : Fin 18) (f : Frame) s, s.live (lportPage n) = true → s.hb (.fcPend n) = false →
     (txDownDrop n f s).hb (.fcPend n) = false → txNext s n = some f → f.started = false →
     guardHolds s n f.len (idleAt s n) = false → portSends s n = false → (f.markKnown && f.bad) = false →
     exec (.frameTx n dt) s = .next (txDownDrop n f s)) ∧
  (∀ (n : Fin 128) (dt : Fin 18) (f : Frame) s, s.clocked (lportPage n) = true → s.hb (.fcPend n) = false →
     txNext s n = some f → f.started = false → guardHolds s n f.len (idleAt s n) = false → f.markKnown = true →
     f.bad = true → (bump (Reg.LPORT.TX_BAD_DISC n) (s.drop f)).hb (.fcPend n) = false →
     exec (.frameTx n dt) s = .next (bump (Reg.LPORT.TX_BAD_DISC n) (s.drop f))) ∧
  (∀ (n : Fin 128) (dt : Fin 18) s, s.clocked (lportPage n) = true →
     exec (.frameTx n dt) s = .next (
       let u := fcBoundary n s
       match txNext u n with
       | none => u
       | some f => if f.started = false ∧ guardHolds u n f.len (idleAt u n) = true then u
         else fcBoundary n (txOne n dt f u))) ∧
  (∀ (n : Fin 128) (dt : Fin 18) (f : Frame) s, Sane s → portSends s n = true → txNext s n = some f → s.frames = [f] →
     f.started = false → s.hb (.fcPend n) = false → s.live timePage = true → s.hn (.bwStart n) = 0 →
     guardHolds s n f.len (idleAt s n) = false → f.full = true → f.bad = false → f.onestep = 0 → f.launch = none →
     f.ring = 0 → f.cells = [] → f.pre = [] → f.hbuf = 0 → loopback s n = 0 → s.rbit (Reg.TIME.TSU_TS_CTL n) 0 = true →
     f.len ≤ txMtu s n → 64 ≤ txMtu s n →
     ∃ t o, exec (.frameTx n dt) s = .next t ∧ t.out = s.out ++ o ∧ .line n (padded f.bytes) false ∈ o ∧ t.frames = []) ∧
  (∀ (n : Fin 128) (f : Frame) s, s.clocked (lportPage n) = true →
     (s.allAt (.mac n) ++ s.allAt (.launch n)).find? (·.gone) = some f →
     exec (.txAbort n) s = .next (fcBoundary n (if portSends s n = true then cutTx n f s else txDownDrop n f s))) ∧
  (∀ (n : Fin 128) s, (s.allAt (.mac n) ++ s.allAt (.launch n)).find? (·.gone) = none →
     exec (.txAbort n) s = .next s) ∧
  (∀ (n : Nat) (f : Frame) s, overMtu s n f = false →
     cutTx n f s = (
       let w := txEnd n (f.bytes.length + 4) (if f.started then s else txBegin n 0 s)
       let w := raise (lportPage n) 6 (bump (Reg.LPORT.TX_ABORT n) w)
       (loopRx n f.bytes false (w.emit (.line n f.bytes true))).drop f)) ∧
  (∀ (n : Fin 128) (set : BitVec 8) s,
     exec (.flowControlTx n set) s = .next (if s.hn (.fcSet n) = set.toNat then s
       else fcBoundary n ((s.setH (.fcSet n) set.toNat).setH (.fcPend n) 1))) ∧
  (∀ (n : Nat) s u, s.hb (.fcPend n) = true → inTx s n = none → portSends s n = true →
     s.rfld (Reg.LPORT.MAC_CFG n) 18 2 ≠ 0 → guardHolds s n 64 (idleAt s n) = false → s.setH (.fcPend n) 0 = u →
     fcBoundary n s = (
       let set := u.hn (.fcSet n)
       let w := (u.emit (.fc n (fcFrame u n set))).setH (.fcAt n) (u.root : Nat)
       let w := if u.rfld (Reg.LPORT.MAC_CFG n) 18 2 = 2 then forEach (bitsOf set 8) w fun p t => bump (Reg.LPORT.TX_PFC n p) t
         else bump (Reg.LPORT.TX_PAUSE n) w
       loopRx n (fcFrame u n set) true (txEnd n 64 (txBegin n 0 (waitRoot (cdiv (w.hn (.txFree n)) 20) w))))) ∧
  (∀ (n : Fin 128) s, s.hb (.fcSet n) = true → s.clocked (lportPage n) = true →
     exec (.fcRefresh n) s = .next (fcBoundary n ((waitSince (lportPage n) (.fcAt n) (720 * s.rfld (Reg.LPORT.PFC_TX_CFG n) 0 16) s).setH (.fcPend n) 1))) ∧
  (∀ (n : Fin 128) s, s.hb (.fcSet n) = false →
     exec (.fcRefresh n) s = .next s) ∧
  (∀ (g : Fin 8) (f : Frame) s, s.firstAt (.recirc g) = some f → s.live (lgPage g) = true → f.whole = true →
     f.bad = false →
     exec (.recircEntry g) s = .next ((bump (Reg.LG.RECIRC_FRAMES g) s).moveFrame
       { f with started := false, ncell := 0, grew := 0, hops := [] } (.rentry g))) ∧
  (∀ (g : Fin 8) (f : Frame) s, s.firstAt (.recirc g) = some f → s.live (lgPage g) = true → f.whole = true →
     f.bad = true →
     exec (.recircEntry g) s = .next (raise (lgPage g) 2 (bump (Reg.LG.RECIRC_BAD_DISC g) (s.drop f)))) ∧
  (∀ (g : Fin 8) s,
     exec (.recircEntry g) s = .next (recircEntry g s)) ∧
  (∀ (n : Fin 128) s, s.clocked (lportPage n) = true →
     exec (.txAbort n) s = .next (match (s.allAt (.mac n) ++ s.allAt (.launch n)).find? (·.gone) with | some f => fcBoundary n (abandonTx n f s) | none => s))

/-- The launch stage, its deadlines, and the window schedules. A timed frame within its lead time enters the launch stage
with its order of entry. A timed frame whose deadline has passed is dropped as late. One more than 2 s ahead is
dropped and counted in RANGE_DROP. The first held frame in launch order whose class is not paused crosses the
reference plane at the first instant of R88, if its deadline permits; a frame that its window defers until then is
counted. While a frame of the port is in transmission no timed frame starts. At the earliest deadline among the held
frames every one whose deadline has passed is dropped as late. A late drop of a frame that the host and the frame
engine did not send counts LATE_DROP and raises its event while TIME is live, and the frame leaves the device.
WIN_COMMIT of a schedule that R105 does not allow is refused with code 0x14. With windows not enabled on the port, or
with none in force, an allowed one takes effect at once; otherwise it waits for the period boundary. At the period
boundary every frame of a timed queue launched before it and not started is dropped as late, and a schedule that waits
takes effect; u is the state at the boundary b. While TIME runs and its page is live LAUNCH_STAGE_ENTRY,
TIMED_FRAME_START, LAUNCH_DEADLINE and WINDOW_PERIOD_BOUNDARY have the effects launchEntry, timedStartNext,
launchDeadline and windowBoundary. WINDOW_COMMIT, admitted, has the effect winCommit. Where no schedule is in force
nothing happens. (R84, R85, R86, R87, R88, R90, R91, R92, R105) -/
def Obligations.TimedLaunch : Prop :=
  (∀ (n : Fin 128) (f : Frame) (l : Nat) s, s.timeRuns = true → s.live timePage = true →
     (s.allAt (.mac n)).find? (fun f => f.launch.isSome && !f.started) = some f → f.launch = some l →
     now16 s ≤ deadline s n l → launchAt s l ≤ now16 s + 32000000000 →
     launchAt s l - s.reg (Reg.TIME.TSU_TL_LEAD n) * 16 ≤ now16 s → (s.allAt (.launch n)).length < 32 →
     exec (.launchStageEntry n) s = .next ((s.setH .tlOrder (s.hn .tlOrder + 1 : Nat)).moveFrame
       { f with lorder := s.hn .tlOrder } (.launch n))) ∧
  (∀ (n : Fin 128) (f : Frame) (l : Nat) s, s.timeRuns = true → s.live timePage = true →
     (s.allAt (.mac n)).find? (fun f => f.launch.isSome && !f.started) = some f → f.launch = some l →
     deadline s n l < now16 s →
     exec (.launchStageEntry n) s = .next (dropLate n f s)) ∧
  (∀ (n : Fin 128) (f : Frame) (l : Nat) s, s.timeRuns = true → s.live timePage = true →
     (s.allAt (.mac n)).find? (fun f => f.launch.isSome && !f.started) = some f → f.launch = some l →
     now16 s ≤ deadline s n l → now16 s + 32000000000 < launchAt s l →
     exec (.launchStageEntry n) s = .next ((bump (Reg.TIME.RANGE_DROP n) s).drop f)) ∧
  (∀ (n : Fin 128) (dt : Fin 18) (f g : Frame) (l : Nat) (at_ : Int) s u w, s.timeRuns = true → s.live timePage = true →
     inTx s n = none → (launchOrder s n).find? (fun f => !s.hb (.paused n (pauseClass s f))) = some f →
     f.launch = some l → deferHeld n (readyAt s n l) s = u → timedStart u n l f.len = some at_ → u.frame f.id = some g →
     at_ ≤ deadline u n l → waitPlane n at_ u = w →
     exec (.timedFrameStart n dt) s = .next (fcBoundary n (txOne n (launchDt w n dt at_) g w))) ∧
  (∀ (n : Fin 128) (dt : Fin 18) s, (inTx s n).isSome = true →
     exec (.timedFrameStart n dt) s = .next s) ∧
  (∀ (n : Fin 128) (d : Int) (ds : List Int) s u, s.timeRuns = true → s.live timePage = true →
     ((s.allAt (.launch n)).map fun f => deadline s n (f.launch.getD 0)) = d :: ds →
     advanceTo ((ds.foldl min d).toNat * 2 ^ 44) (deferHeld n (ds.foldl min d) s) = u →
     exec (.launchDeadline n) s = .next (forEach ((u.allAt (.launch n)).filter fun f =>
         deadline u n (f.launch.getD 0) ≤ now16 u) u (dropLate n))) ∧
  (∀ (n : Nat) (f : Frame) s, f.ring = 0 → f.pfe = 0 →
     dropLate n f s = (if s.live timePage = true then raise timePage 16 (bump (Reg.TIME.LATE_DROP n) s) else s).drop f) ∧
  (∀ r (n : Fin 128) (v : W32) s, Admits s r (Reg.TIME.TSU_WIN_COMMIT n) → bit v.toNat 0 = true → winValid s n = false →
     exec (.windowCommit r n v) s = .next (errReq timePage 0x14 r (Reg.TIME.TSU_WIN_COMMIT n) v.toNat (firstWrite r s))) ∧
  (∀ r (n : Fin 128) (v : W32) s, Admits s r (Reg.TIME.TSU_WIN_COMMIT n) → bit v.toNat 0 = true → winValid s n = true →
     exec (.windowCommit r n v) s = .next (if (firstWrite r s).rbit (Reg.TIME.TSU_TS_CTL n) 2 = false ∨ winForce (firstWrite r s) n = []
       then winArm n (((winCopy n 0 62 1 2 (firstWrite r s)).setHb (.winIn n) true).setHb (.winNext n) false)
       else (winCopy n 0 63 1 3 (firstWrite r s)).setHb (.winNext n) true)) ∧
  (∀ (n : Fin 128) (b : Int) s u, s.timeRuns = true → s.live timePage = true → s.hb (.winIn n) = true →
     s.h (.winAt n) = b + 1 → 0 ≤ b → advanceTo (b.toNat * 2 ^ 44) s = u → b ≤ now16 u →
     exec (.windowPeriodBoundary n) s = .next (
       let w := forEach (u.frames.filter (timedBefore u n (now16 u - (winPos u n (now16 u) : Nat)))) u (boundaryDrop n)
       winArm n (if w.hb (.winNext n) = true then (winCopy n 63 62 3 2 w).setHb (.winNext n) false else w))) ∧
  (∀ (n : Fin 128) s, s.timeRuns = true → s.live timePage = true →
     exec (.launchStageEntry n) s = .next (launchEntry n s)) ∧
  (∀ (n : Fin 128) (dt : Fin 18) s, s.timeRuns = true → s.live timePage = true →
     exec (.timedFrameStart n dt) s = .next (timedStartNext n dt s)) ∧
  (∀ (n : Fin 128) s, s.timeRuns = true → s.live timePage = true →
     exec (.launchDeadline n) s = .next (launchDeadline n s)) ∧
  (∀ (n : Fin 128) s, s.timeRuns = true → s.live timePage = true →
     exec (.windowPeriodBoundary n) s = .next (windowBoundary n s)) ∧
  (∀ r (n : Fin 128) (v : W32) s, Admits s r (Reg.TIME.TSU_WIN_COMMIT n) →
     exec (.windowCommit r n v) s = .next (winCommit r n v.toNat (firstWrite r s))) ∧
  (∀ (n : Fin 128) s, s.hb (.winIn n) = false →
     exec (.windowPeriodBoundary n) s = .next s)

/-- Alignment of OTN ports, and the overhead ports. FLEXO_LOCK stores the skew and places each instance where the number
that it carries says; up to 300 ns of skew lock the group, more put every slice out of frame. Here and below the
instants from which the conditions of dLOF_FX, dLOF and dLOM hold follow. FLEXO_LOCK_LOSS of an instance puts its
slice out of frame at once. A slice that goes out of frame is counted if it was in frame; its alignment bits and
candidates are cleared. A sighting at a new position opens a candidate while the slice hunts and fewer than four are
open. With four open, or one at that position, a further sighting is ignored. A candidate that fails its check is
dropped and counted; here it was the only one. The only candidate whose third check succeeds confirms: the slice is in
frame and in multiframe at its position and MFAS. Two candidates confirmed at once are all cleared, counted in
ALIGN_AMBIG, and raise its event. CANDIDATE_CHECK of a slice that hunts has the effect candCheck. A binding to a port
that is no OTN port, or one that overlaps the insertion of the neighbour, is refused with code 0x10. A write that
disables the port is stored. RECENTRE marks both slip buffers for the next boundary. A frame extracted goes to slip
buffer 0 of a bound port, all-ones under a consequent action. The board takes the oldest frame of slip buffer 0, which
is counted. A port that is not bound gives all-ones. A frame to a full slip buffer is dropped as a slip, counted, with
the event at the first one; an empty one repeats its last frame likewise. CLK_LOSS, 10 µs after the last edge of the
clock, which pass first, sets CLK_LOST and raises its event once. While it is set CLK_LOSS does nothing. An edge of
the clock clears it and then re-centres the buffers. OHP_FRAME_BOUNDARY of a live page has the effect ohpFrame while
the port runs; the board's ends are edges of its clock too. OHP_CFG_WRITE, admitted, has the effect ohpCfgWrite. A
write of 0 to RECENTRE does nothing. Admitted, RECENTRE has the effect stated. (R143, R144, R145, R147, R148, R162,
R163, R165, R166, R167) -/
def Obligations.OtnAlignmentAndOverhead : Prop :=
  (∀ (n : Fin 128) (skew : BitVec 16) (nums : List Byte) s, otnRuns s n = true →
     exec (.flexoLock n skew nums) s = .next (withPersist n (fun s =>
       let w := otnSlices s n
       let u := s.setReg (Reg.OTN.FX_SKEW (otnG n) (otnL n)) skew.toNat
       let u := forEach ((List.range w).zip (instPlaces w ((nums.map BitVec.toNat).take w))) u fun (l, p) u =>
         u.setH (.fxPos n l) ((p : Int) - (l : Int))
       if skew.toNat ≤ 4800 then u.setH (.fxLock n) (2 ^ w - 1 : Nat)
       else forEach (List.range w) (u.setH (.fxLock n) 0) fun i u => oof n i u) s)) ∧
  (∀ (n : Fin 128) (i : Fin 8) s, otnRuns s n = true → i.val < otnSlices s n →
     exec (.flexoLockLoss n i) s = .next (withPersist n (fun s =>
       oof n (fxPlace s n i) (s.setH (.fxLock n) (setBit (s.hn (.fxLock n)) (fxPlace s n i) false : Nat))) s)) ∧
  (∀ (n i : Nat) s,
     oof n i s =
       let w := if slIF s n i = true then bump (Reg.OTN.OOF_CNT (otnG n) (otnL n)) s else s
       { (((w.setRbit (alignSts n) (8 + i) false).setRbit (alignSts n) (16 + i) false).setH (.fasBad n i) 0) with
         cands := w.cands.filter fun c => !(c.port == n && c.slice == i) }) ∧
  (∀ (n : Fin 128) (i : Fin 8) (pos : Fin 15296) (mfas : Byte) s, hunting s n i = true → (candsOf s n i).length < 4 →
     ((candsOf s n i).all fun c => c.pos != pos.val) = true →
     exec (.fasSighting n i pos mfas) s = .next { s with cands := s.cands ++ [⟨n, i, pos, mfas.toNat, 0⟩] }) ∧
  (∀ (n : Fin 128) (i : Fin 8) (pos : Fin 15296) (mfas : Byte) s,
     4 ≤ (candsOf s n i).length ∨ ((candsOf s n i).all fun c => c.pos != pos.val) = false →
     exec (.fasSighting n i pos mfas) s = .next s) ∧
  (∀ (n : Fin 128) (i : Fin 8) (c : Cand) (m : Byte) (p : Fin 15296) s, hunting s n i = true → s.cands = [c] →
     c.port = n.val → c.slice = i.val → c.pos = p.val →
     candCheck n i [(p.val, false, m.toNat)] s = { bumpBy (Reg.OTN.CAND_DROP (otnG n) (otnL n)) 1 s with cands := [] }) ∧
  (∀ (n : Fin 128) (i : Fin 8) (c : Cand) (m : Byte) (p : Fin 15296) s, hunting s n i = true → s.cands = [c] →
     c.port = n.val → c.slice = i.val → c.pos = p.val → c.hits = 2 → m.toNat = (c.mfas + 1) % 256 →
     candCheck n i [(p.val, true, m.toNat)] s = (
       let w := ({ s with cands := [] }.setRbit (alignSts n) (8 + i) true).setRbit (alignSts n) (16 + i) true
       let w := ((w.setH (.slPos n i) p.val).setH (.slMfas n i) m.toNat).setH (.mfasRun n i) 0
       if i.val = 0 then w.setRfld (alignSts n) 0 8 m.toNat else w)) ∧
  (∀ (n : Fin 128) (i : Fin 8) (a b : Cand) (m : Byte) (p q : Fin 15296) s, hunting s n i = true → s.cands = [a, b] →
     a.port = n.val → b.port = n.val → a.slice = i.val → b.slice = i.val → a.pos = p.val → b.pos = q.val → p ≠ q →
     a.hits = 2 → b.hits = 2 → m.toNat = (a.mfas + 1) % 256 → b.mfas = a.mfas →
     candCheck n i [(p.val, true, m.toNat), (q.val, true, m.toNat)] s = (raise (otnPage (otnG n)) 2
       (bump (Reg.OTN.ALIGN_AMBIG (otnG n) (otnL n)) { s with cands := [] }))) ∧
  (∀ (n : Fin 128) (i : Fin 8) (checks : List (Fin 15296 × Bool × Byte)) s, hunting s n i = true →
     exec (.candidateCheck n i checks) s = .next (withPersist n (candCheck n i (checks.map fun x => (x.1.val, x.2.1, x.2.2.toNat))) s)) ∧
  (∀ r (k : Fin 16) (v : W32) s, Admits s r (Reg.OHP.CFG k) → bit v.toNat 31 = true →
     isOtn s (16 * (k.val / 2) + fld v.toNat 0 4) = false →
     exec (.ohpCfgWrite r k v) s = .next (errReq (ohpPage k) 0x10 r (Reg.OHP.CFG k) v.toNat (firstWrite r s))) ∧
  (∀ r (k : Fin 16) (v : W32) s, Admits s r (Reg.OHP.CFG k) → bit v.toNat 31 = false →
     exec (.ohpCfgWrite r k v) s = .next (storeReg (Reg.OHP.CFG k) v.toNat (firstWrite r s))) ∧
  (∀ r (k : Fin 16) (v : W32) s, Admits s r (Reg.OHP.RECENTRE k) → bit v.toNat 0 = true →
     exec (.recentre r k v) s = .next ((firstWrite r s).setHb (.ohpCentre k) true)) ∧
  (∀ (k : Fin 16) (d : W32) s, s.hb (.ohpCentre k) = false → isOtn s (ohpPort s k) = true →
     ohpFrame k (.extract d) s = ohpWrite k 0 (if ohpAis s k then ohpOnes s k else d.toNat) s) ∧
  (∀ (k : Fin 16) s, s.hb (.ohpCentre k) = false → isOtn s (ohpPort s k) = true →
     ohpFrame k .toBoard s =
       (bump (Reg.OHP.DO_FRAMES k) (ohpRead k 0 s).2).emit (.ohpDo k (ohpBits (ohpLen (ohpRead k 0 s).2 k) (ohpRead k 0 s).1))) ∧
  (∀ (k : Fin 16) s, s.hb (.ohpCentre k) = false → isOtn s (ohpPort s k) = false →
     ohpFrame k .toBoard s = s.emit (.ohpDo k (ohpBits (ohpLen s k) (ohpOnes s k)))) ∧
  (∀ (k d data : Nat) s, ohpFill s k d = 4 →
     ohpWrite k d data s = raiseFirst (ohpPage k) 1 (bump (if d = 0 then Reg.OHP.DO_DROP k else Reg.OHP.DI_DROP k) s)) ∧
  (∀ (k : Fin 16) s, s.live (ohpPage k) = true → s.rbit (Reg.OHP.STS k) 0 = false →
     exec (.clkLoss k) s = .next (raise (ohpPage k) 0 ((waitSince (ohpPage k) (.ohpEdge k) (cycUs 10) s).setRbit (Reg.OHP.STS k) 0 true))) ∧
  (∀ (k : Fin 16) s, s.rbit (Reg.OHP.STS k) 0 = true →
     exec (.clkLoss k) s = .next s) ∧
  (∀ (k : Fin 16) s, s.live (ohpPage k) = true →
     exec (.ohpClkReturn k) s = .next (
       let w := s.setH (.ohpEdge k) (s.root : Nat)
       if w.rbit (Reg.OHP.STS k) 0 = true then (w.setRbit (Reg.OHP.STS k) 0 false).setHb (.ohpCentre k) true else w)) ∧
  (∀ (k : Fin 16) (e : OhpEnd) s, s.live (ohpPage k) = true →
     exec (.ohpFrameBoundary k e) s = .next (
       let u := match e with
         | .toBoard | .fromBoard _ => ohpEdge k s
         | .extract _ | .insert => s
       if ohpRuns u k = true then ohpFrame k e u else u)) ∧
  (∀ r (k : Fin 16) (v : W32) s, Admits s r (Reg.OHP.CFG k) →
     exec (.ohpCfgWrite r k v) s = .next (ohpCfgWrite r k v.toNat (firstWrite r s))) ∧
  (∀ r (k : Fin 16) (v : W32) s, Admits s r (Reg.OHP.RECENTRE k) → bit v.toNat 0 = false →
     exec (.recentre r k v) s = .next (firstWrite r s)) ∧
  (∀ r (k : Fin 16) (v : W32) s, Admits s r (Reg.OHP.RECENTRE k) →
     exec (.recentre r k v) s = .next (let w := (firstWrite r s); if bit v.toNat 0 then w.setHb (.ohpCentre k) true else w))

/-- Received frames, persistence, degrade, loss of signal and consequent actions. OTN_FRAME_RX of a port whose OTN block
runs has the effect otnRx. An OTUC frame of a slice out of frame is not used. A FlexO frame is compared with the
expected group, the place of the instance and RDI, and the defects are evaluated. An OPUC structure identifier that
differs is a held condition; a PT is accepted when three multiframes in a row carry it, and its change raises
PT_ACCEPTED. A new CFG counts from that frame. The evaluation stores the defects, marks every change in DEF_CHG, one
of a TCM in bit 28, and raises DEFECT_CHANGE; with nothing changed it raises nothing. Loss of signal on a lane of an
OTN port declares dLOS, whatever the link state does. After 1 ms with every lane locked dLOS clears. Timer 1 is
dLOF_FX (the lock of the group), 2 dLOF (a slice out of frame), 3 dLOM (out of multiframe): each follows its condition
once that has held for 3 ms. With dLOS clear, or a lane without lock, timer 0 does nothing. DEG_INTERVAL takes effect
at the end of the second. There each layer is degraded by its errored blocks and the held defects follow; with every
layer in signal fail none is degraded. CONSEQUENT_ACTION_BOUNDARY of a frame has the effect caBoundary, TX_FORCE_APPLY
that of the transmitted ODUflex. A boundary starts and ends the consequent actions of its own frame as the defects
call for them; a received frame takes a new CFG first, a transmitted one is then formed and sent, unless the line
carries the FAR_PMA loop only. The start of client fail on a running link in UP or FAULT also delivers local fault
ordered sets to its MAC. TX_FORCE takes effect from that frame: 0 sends the client, 1 all-ones with STAT 111, 2 and 3
0x55 with STAT 110 and 101. On its condition, DEFECT_PERSIST_TIMER has the effect stated. (R147, R148, R153, R154,
R155, R156, R157, R158, R161) -/
def Obligations.OtnDefects : Prop :=
  (∀ (n : Fin 128) (x : OtnRx) s, otnRuns s n = true →
     exec (.otnFrameRx n x) s = .next (withPersist n (otnRx n x) s)) ∧
  (∀ (n : Fin 128) (i : Fin 8) (fas : Bool) (m : Byte) (sm pmc : OtnOh) s, slIF s n i = false →
     otnRx n (.otuc i fas m sm pmc) s = s) ∧
  (∀ (n : Fin 128) (i : Fin 8) (gid : BitVec 20) (num : Byte) (rdi : Bool) s,
     otnRx n (.flexo i gid num rdi) s =
       let u := detect n (64 + i) (gid.toNat != s.reg (Reg.OTN.GID_EXP (otnG n) (otnL n))) s
       defRefresh n (detect n (80 + i) rdi (detect n (72 + i) (num.toNat != fxPlace u n i) u))) ∧
  (∀ (n : Fin 128) (pt : Byte) (good : Bool) s,
     otnRx n (.opuc pt good) s = defRefresh n ((ptRx n 0 pt.toNat (latchC n s)).setHb (.msiBad n) (!good))) ∧
  (∀ (n d t d1 t1 m1 : Nat) s, defEval s n d t = (d1, t1, m1) → ssfLine d1 = false → bit d1 25 = false →
     bit d1 26 = false →
     defUpdate n d t s = (
       let w := ((s.setReg (defSts n) d1).setReg (tcmSts n) t1).setH (.tcmHeld n) (m1 : Nat)
       let tcm := if t1 != s.reg (tcmSts n) || m1 != s.hn (.tcmHeld n) then 2 ^ 28 else 0
       if (s.reg (defSts n) ^^^ d1) ||| tcm = 0 then w
       else raise (otnPage (otnG n)) 0 (w.setReg (Reg.OTN.DEF_CHG (otnG n) (otnL n))
         (w.reg (Reg.OTN.DEF_CHG (otnG n) (otnL n)) ||| ((s.reg (defSts n) ^^^ d1) ||| tcm))))) ∧
  (∀ (n : Fin 128) (k : Fin 8) s u,
     s.when (s.clocked (lportPage n) && k.val < portLanes s n) (Machine.signalLoss n k) = u → otnRuns u n = true →
     k.val < portLanes u n →
     exec (.signalLoss n k) s = .next (setDefect n 0 true u)) ∧
  (∀ (n : Fin 128) s, otnRuns s n = true → bit (s.reg (defSts n)) 0 = true →
     ((List.range (otnSlices s n)).all fun i => laneLocked s (n + i)) = true →
     exec (.defectPersistTimer n 0) s = .next (setDefect n 0 false (waitRoot ((List.range (otnSlices s n)).foldl
       (fun t i => max t (sinceOf s (otnPage (otnG n)) (.laneLockAt (n + i)))) 0 + cycUs 1000) s))) ∧
  (∀ (n : Fin 128) (k : Fin 4) s, otnRuns s n = true → k ≠ 0 →
     exec (.defectPersistTimer n k) s = .next (
       let b := if k = 1 then 1 else 3 + k.val
       if perCond s n k = bit (s.reg (defSts n)) b then s
       else setDefect n b (perCond s n k) (waitSince (otnPage (otnG n)) (.perSince n k) (cycUs 3000) s))) ∧
  (∀ (n : Fin 128) s,
     bit (s.reg (defSts n)) 0 = false ∨ ((List.range (otnSlices s n)).all fun i => laneLocked s (n + i)) = false →
     exec (.defectPersistTimer n 0) s = .next s) ∧
  (∀ (n : Fin 128) s, otnRuns s n = true →
     exec (.degInterval n) s = .next (atInstant (degNext s n) (fun s => (degInterval n s).setH (.degAt n) (s.tb / unitsSec + 1 : Nat)) s)) ∧
  (∀ (n : Fin 128) s, bit (s.reg (defSts n)) 25 = true → bit (s.reg (defSts n)) 26 = true →
     ∃ w, degInterval n s = defUpdate n (setBit (setBit (setBit (s.reg (defSts n)) 11 false) 14 false) 22 false)
       ((List.range 6).foldl (fun t i => setBit t (5 * i + 4) false) (s.reg (tcmSts n))) w ∧ w.regs = s.regs ∧ w.tb = s.tb) ∧
  (∀ (n : Fin 128) (e : OtnFrame) s, otnRuns s n = true →
     exec (.consequentActionBoundary n e) s = .next (caBoundary n e s) ∧
       exec (.txForceApply n) s = .next (caBoundary n .txOduflex s)) ∧
  (∀ (n : Nat) s,
     caBoundary n .rxOduc s = caStart n .rxOduc (latchC n s) ∧ caBoundary n .rxOduflex s = caStart n .rxOduflex (latchF n s) ∧
       caBoundary n .txFlexo s = otnSend n (flexoTx n) (caStart n .txFlexo s) ∧
       caBoundary n .txOtuc s = otnSend n (otucTx n) (caStart n .txOtuc s) ∧
       caBoundary n .txOduflex s = otnSend n (oduflexTx n) (caStart n .txOduflex s)) ∧
  (∀ (n : Nat) (e : OtnFrame) s u, s.setH (.caEff n) (mergeMask (s.hn (.caEff n)) (caWanted s n) (caMask e) : Nat) = u →
     clientFails u n = true → bit (s.hn (.caEff n)) 2 = false → linkRuns u n = true → 5 ≤ linkState u n →
     linkRuns (faultSets n false u) n = true →
     caStart n e s = remoteUpdate n (faultSets n false u)) ∧
  (∀ (n : Nat) s w, s.setH (.txForce n) (fld (otnCfg s n) 30 2 : Nat) = w →
     ∃ (u : State) (oh : List Byte), oduflexTx n s = (u.emit (.otn n (.oduflex (w.hn (.txMfasF n)) oh
         ((if fld (otnCfg s n) 30 2 = 0 then none else some (if fld (otnCfg s n) 30 2 = 1 then ohByte 255 else ohByte 0x55)).getD
           (if w.hn (.txMfasF n) = 0 then ohByte (u.rfld (Reg.OTN.PT (otnG n) (otnL n)) 0 8) else 0))
         (if fld (otnCfg s n) 30 2 = 0 then none else some (if fld (otnCfg s n) 30 2 = 1 then ohByte 255 else ohByte 0x55))))).setH
       (.txMfasF n) ((w.hn (.txMfasF n) + 1) % 256 : Nat)) ∧
  (∀ (n : Fin 128) (k : Fin 4) s, otnRuns s n = true →
     exec (.defectPersistTimer n k) s = .next (defectTimer n k s))

/-- Bridge transfers, lane errors and spare lanes. A transfer that fails its CRC is counted as an error and as a replay,
recorded as a fault of class 4 and counted against its lane. A bundle out of service has no transfers. At the end of a
window, 1 ms after the last, every lane's count starts again, and a lane with more errors than SPARE_THR is marked for
replacement. A lane is marked while the bundle has a spare lane left for it. A bundle of direction F to Q that needs a
fifth is taken out of service: its bit, one off the capacity, event BUNDLE_DOWN and a fault of class 17. A
substitution puts a spare lane in use and is counted, with its event and a fault of class 5; the fourth also raises
SPARES_EXHAUSTED. Without a lane marked nothing is substituted. In a live block BRIDGE_CRC_FAIL and LANE_SPARED have
the effects bridgeCrcFail and laneSpared. In live blocks, LANE_ERR_WINDOW has the effect stated. (R30, R31, R32, R33) -/
def Obligations.BridgeLanes : Prop :=
  (∀ (qf : Bool) (b : Fin 100) (lane : Fin 68) s, s.live bridgePage = true → bundleOut s (100 * ofB qf + b) = false →
     exec (.bridgeCrcFail qf b lane) s = .next (
       let w := faultRecord 4 bridgePage (100 * ofB qf + b) (bump Reg.BRIDGE.REPLAY_CNT (bump Reg.BRIDGE.CRC_ERR_CNT s))
       w.setH (.laneErr (68 * (100 * ofB qf + b) + lane)) (w.h (.laneErr (68 * (100 * ofB qf + b) + lane)) + 1))) ∧
  (∀ (qf : Bool) (b : Fin 100) (lane : Fin 68) s, bundleOut s (100 * ofB qf + b) = true →
     exec (.bridgeCrcFail qf b lane) s = .next s) ∧
  (∀ s u, s.live bridgePage = true → nextInterval bridgePage .laneWin (cycUs 1000) s = u →
     exec .laneErrWindow s = .next (forEach (laneErrors u) u fun (l, n) w =>
       if (u.reg Reg.BRIDGE.SPARE_THR : Int) < n then laneMarked (l / 68) (w.setH (.laneErr l) 0) else w.setH (.laneErr l) 0)) ∧
  (∀ (k : Nat) s, bundleOut s k = false → s.reg (bndSts k) + s.hn (.laneMark k) < 4 →
     laneMarked k s = s.setH (.laneMark k) (s.h (.laneMark k) + 1)) ∧
  (∀ (k : Nat) s, k < 100 → bundleOut s k = false → 4 ≤ s.reg (bndSts k) + s.hn (.laneMark k) →
     laneMarked k s = raiseFault bridgePage 2 17 k (((s.setRbit (Reg.BRIDGE.BND_DOWN_FQ (k / 32)) (k % 32) true).setReg
       Reg.BRIDGE.CAP_FQ (s.reg Reg.BRIDGE.CAP_FQ - 1)).setH (.laneMark k) 0)) ∧
  (∀ (qf : Bool) (b : Fin 100) s, s.live bridgePage = true → 0 < s.h (.laneMark (100 * ofB qf + b)) →
     exec (.laneSpared qf b) s = .next (
       let k := 100 * ofB qf + b
       let w := s.setH (.laneMark k) (s.h (.laneMark k) - 1)
       let w := raiseFault bridgePage 0 5 k (bump Reg.BRIDGE.SPARED_CNT (w.setReg (bndSts k) (w.reg (bndSts k) + 1)))
       if w.reg (bndSts k) = 4 then raise bridgePage 1 w else w)) ∧
  (∀ (qf : Bool) (b : Fin 100) s, s.h (.laneMark (100 * ofB qf + b)) ≤ 0 →
     exec (.laneSpared qf b) s = .next s) ∧
  (∀ (qf : Bool) (b : Fin 100) (lane : Fin 68) s, s.live bridgePage = true →
     exec (.bridgeCrcFail qf b lane) s = .next (bridgeCrcFail (100 * ofB qf + b) lane s)) ∧
  (∀ (qf : Bool) (b : Fin 100) s, s.live bridgePage = true →
     exec (.laneSpared qf b) s = .next (laneSpared (100 * ofB qf + b) s)) ∧
  (∀ s, s.live bridgePage = true →
     exec .laneErrWindow s = .next (laneErrWindow (nextInterval bridgePage .laneWin (cycUs 1000) s)))

/-- A frame enters an ingress pipeline, is parsed, forwarded and sent on. At each pass one side has first call by
RECIRC_SHARE; its oldest frame, or else the other's, enters and passes, once enough of it has come to tell how its
parse ends; a Sync that it receives is reported. With none waiting only the span of 16 calls goes on. Of each 16 calls
RECIRC_SHARE fall to the recirculation side: where they are used up the line side has first call, where only they are
left the other side; in between the order is open (notes/assumptions/29.md). The side that has first call is served
first, the other if it is empty. A frame at its first entry takes the ingress system port and the current parity, and
counts in flight. A further pass keeps parity and system port, and counts. A frame whose parse fails where the port's
action is DROP is discarded: counted under its code, PARSE_FAIL at the first. Where it is PUNT, it goes to the host
with reason 0xF1 and its code. A frame crosses to another chiplet while the Bridge performs its function; else it is
discarded there and reported with code 0x08. A classified frame that is not punted and does not recirculate goes to
the queue of its destination and class. An OFFSET action takes the place of the class. A frame to be recirculated
after its fourth pass is discarded, counted, and raises RECIRC_LIMIT. Adjacency 0 drops the frame, counted. A
reference to an adjacency that the frame's parity does not see counts in INVIS_REF and takes adjacency 0. (R45, R132,
R191, R209, R225, R247, R265, R266, R267, R283, R285, R300) -/
def Obligations.IngressPipeline : Prop :=
  (∀ (g : Fin 8) (rc : Bool) (node : Option W32) s, s.clocked (ipipePage g) = true → s.hb (.stuck g) = false →
     exec (.pipelineEntry g rc node) s = .next (
       let call := recircCall s g rc
       let u := spanStep g call s
       match ipipeNext u g call with
       | none => u
       | some f => if u.live (ipipePage g) = false then dropDisabled (ipipePage g) f u
         else if parseOpen u g f = true then u
         else ipipePass g (node.map BitVec.toNat) (ipipeEnter g f u).1 (syncReport (ipipeEnter g f u).1 (ipipeEnter g f u).2))) ∧
  (∀ (g : Nat) (want : Bool) s,
     (s.reg (Reg.LG.RECIRC_SHARE g) ≤ s.hn (.spanRec g) → recircCall s g want = false) ∧
       (s.hn (.spanRec g) < s.reg (Reg.LG.RECIRC_SHARE g) →
         16 - s.reg (Reg.LG.RECIRC_SHARE g) ≤ s.hn (.spanCnt g) - s.hn (.spanRec g) → recircCall s g want = true)) ∧
  (∀ (g : Nat) (call : Bool) s,
     ipipeNext s g call = if call = true then (s.firstAt (.rentry g)).orElse fun _ => s.firstAt (.entry g) else (s.firstAt (.entry g)).orElse fun _ => s.firstAt (.rentry g)) ∧
  (∀ (g : Nat) (f : Frame) s, Sane s → s.hn .capoParity ≤ 1 → f.parity = none → s.h .capoState ≠ 3 →
     ipipeEnter g f s = (
       let h := { f with srcSys := s.reg (Reg.IPIPE.SYSPORT g (f.port % 16)), parity := some (s.hn .capoParity) }
       (h, (s.setH (.inFlight (s.hn .capoParity)) (s.h (.inFlight (s.hn .capoParity)) + 1)).putFrame h))) ∧
  (∀ (g : Nat) (f : Frame) s, f.parity.isSome = true →
     (ipipeEnter g f s).1.parity = f.parity ∧ (ipipeEnter g f s).1.srcSys = f.srcSys ∧ (ipipeEnter g f s).1.passes = f.passes + 1 ∧
       (ipipeEnter g f s).2.hid = s.hid) ∧
  (∀ (g c : Nat) (node : Option Nat) (f : Frame) (r : Parse) s,
     parseFrame s g (f.parity.getD 0) (fld (s.reg (Reg.IPIPE.PORT_CFG g (portSlot f.port))) 0 8) f true = r →
     r.code = c + 1 → r.frag = false → fld (s.reg (Reg.IPIPE.PORT_CFG g (portSlot f.port))) 22 2 = 0 →
     ipipePass g node f s = (raiseFirst (ipipePage g) 0 (bump (Reg.IPIPE.PARSE_FAIL g c) s)).drop { f with fail := c + 1 }) ∧
  (∀ (g c : Nat) (node : Option Nat) (f : Frame) (r : Parse) s,
     parseFrame s g (f.parity.getD 0) (fld (s.reg (Reg.IPIPE.PORT_CFG g (portSlot f.port))) 0 8) f true = r →
     r.code = c + 1 → r.frag = false → fld (s.reg (Reg.IPIPE.PORT_CFG g (portSlot f.port))) 22 2 = 2 →
     ipipePass g node f s = bridgeTo { f with
       fail := c + 1, cls := 0, colour := 0, qoff := 0, useOff := false, l3if := 0, vrf := 0, adj := 0, dstSys := 0
       multi := 0, reason := some 0xF1 } .toHost (raiseFirst (ipipePage g) 0 (bump (Reg.IPIPE.PARSE_FAIL g c) s))) ∧
  (∀ (f : Frame) (l : Loc) s,
     bridgeTo f l s = if s.live bridgePage = true then s.moveFrame f l else dropDisabled bridgePage f s) ∧
  (∀ (g : Nat) (f : Frame) (w : Fwd) (res : Resolve) s, w.punt = none → w.rpipe = none → res.qsel ≠ 2 →
     route g f w res s = bridgeTo f (.toQ (8 * w.dst + res.cls)) s) ∧
  (∀ (g : Nat) (f : Frame) (w : Fwd) (res : Resolve) s, w.punt = none → w.rpipe = none → res.qsel = 2 →
     route g f w res s = bridgeTo f (.toQ (8 * w.dst + res.qoff)) s) ∧
  (∀ (g h : Nat) (f : Frame) (w : Fwd) (res : Resolve) s, w.punt = none → w.rpipe = some h → 3 ≤ f.passes →
     route g f w res s = raise (ipipePage g) 1 (bump (Reg.IPIPE.RECIRC_LIMIT g) (s.drop f))) ∧
  (∀ (g p len : Nat) (w : Fwd) s,
     resolveAdj g p 0 len w s = ({ w with adj := 0, discard := true }, fsCount 1572864 len (bump (Reg.IPIPE.ADJ_DROP g) s))) ∧
  (∀ (g p i len : Nat) (w : Fwd) s, i ≠ 0 → parBad s adjPage 1 i = false →
     bit (fld (s.tab adjPage 1 i) 30 2) p = false →
     resolveAdj g p i len w s = adjZero g len w (bump Reg.CAPO.INVIS_REF s))

/-- A frame passes an egress pipeline. With no frame waiting nothing happens. The oldest frame waiting makes its pass. A
disabled pipeline discards it. A frame for a line port that is known to be bad is discarded and counted there. A frame
for a line port that does not send is discarded there. A frame without a rewrite passes unchanged, its one-step mode
cleared unless it is its own. A rewritten frame whose adjacency its parity does not see, or whose adjacency read
fails, is discarded as ADJ_ERR. A frame longer than the MTU of its port is discarded, counted, MTU_DROP at the first.
Any other frame for a line port is counted and goes to its MAC. A frame for a recirculation port goes there with no
one-step mode and no FCS. EGRESS_PIPELINE of a running pipeline: with no frame waiting nothing happens, else the
oldest makes its pass or, at a disabled pipeline, is discarded. (R45, R118, R268, R269, R270, R271, R272, R273, R274) -/
def Obligations.EgressPipeline : Prop :=
  (∀ (g : Fin 8) s, s.firstAt (.epipe g) = none →
     exec (.egressPipeline g) s = .next s) ∧
  (∀ (g : Fin 8) (f : Frame) s, s.clocked (epipePage g) = true → s.hb (.stuck (8 + g)) = false →
     s.firstAt (.epipe g) = some f → s.live (epipePage g) = true →
     exec (.egressPipeline g) s = .next (epipePass g f s)) ∧
  (∀ (g : Fin 8) (f : Frame) s, s.clocked (epipePage g) = true → s.hb (.stuck (8 + g)) = false →
     s.firstAt (.epipe g) = some f → s.live (epipePage g) = false →
     exec (.egressPipeline g) s = .next (dropDisabled (epipePage g) f s)) ∧
  (∀ (g : Nat) (f : Frame) s, f.outPort < 128 → f.markKnown = true → f.bad = true →
     epipePass g f s = bump (Reg.LPORT.TX_BAD_DISC f.outPort) (s.drop f)) ∧
  (∀ (g : Nat) (f : Frame) s, f.outPort < 128 → f.bad = false → portSends s f.outPort = false →
     epipePass g f s = txDownDrop f.outPort f s) ∧
  (∀ (g : Nat) (f : Frame) s, 128 ≤ f.outPort → f.noRw = true →
     epipePass g f s = epipeHand g false (if f.osOvr then { f with grew := f.grew - f.len }
       else { f with grew := f.grew - f.len, onestep := 0 }) s) ∧
  (∀ (g : Nat) (f : Frame) s, 128 ≤ f.outPort → f.noRw = false → f.mplsOp ≠ 3 → s.live adjPage = true →
     bit (fld (s.tab adjPage 1 f.adj) 30 2) (f.parity.getD 0) = false ∨ parBad s adjPage 1 f.adj = true →
     epipePass g f s = raiseFirst (epipePage g) 2 (bump (Reg.EPIPE.ADJ_ERR g)
       (s.drop { f with grew := f.grew - f.len }))) ∧
  (∀ (g : Nat) (rw : Bool) (f : Frame) s, f.outPort < 128 → f.full = true → txMtu s f.outPort < f.len →
     epipeHand g rw f s = raiseFirst (epipePage g) 1 (bump (Reg.EPIPE.MTU_DROP g) (s.drop f))) ∧
  (∀ (g : Nat) (rw : Bool) (f : Frame) s, f.outPort < 128 → f.len ≤ txMtu s f.outPort →
     epipeHand g rw f s = (bump (if rw then Reg.EPIPE.RW_FRAMES g else Reg.EPIPE.PASS_FRAMES g)
       (bump (Reg.EPIPE.FRAMES g) s)).moveFrame
         { f with chk := f.full, grew := f.grew + f.len } (.mac f.outPort)) ∧
  (∀ (g : Nat) (rw : Bool) (f : Frame) s, 128 ≤ f.outPort →
     epipeHand g rw f s = (
       let h := { f with onestep := 0, fcs := false }
       (bump (if rw then Reg.EPIPE.RW_FRAMES g else Reg.EPIPE.PASS_FRAMES g) (bump (Reg.EPIPE.FRAMES g) s)).moveFrame
         { h with grew := h.grew + h.len } (.recirc (f.outPort - 128)))) ∧
  (∀ (g : Fin 8) s, s.clocked (epipePage g) = true → s.hb (.stuck (8 + g)) = false →
     exec (.egressPipeline g) s = .next (match s.firstAt (.epipe g) with
       | none => s
       | some f => if s.live (epipePage g) = false then dropDisabled (epipePage g) f s else epipePass g f s))

/-- TCAM commands, slice configurations and hash seeds. KEY_LOAD stores half of the requester's match key. WALK with no
matching entry at or after the index answers 0 in both words. Otherwise it answers the position of the first, whether
another follows, and its action. ROW_MOVE of an invalid row is refused with code 0x10. ROW_MOVE of a row of a one-
slice chain to a free row of its group, outside a sweep, writes the row there with its visibility, frees the source
and is counted. A row that the scrubber finds good stays. A bad one loses the visibility of its head row, is counted
and kept in SCRUB_LAST, captured with code 0x07 and reported as a fault of class 3. With a ready window KEY_LOAD,
WALK, ROW_MOVE have the effects and answers of tcamTable. A slice with no valid row takes the value, and the chains
are evaluated. One that holds a valid row refuses another value with code 0x12. Writing the value that a slice already
holds changes nothing. LKP_CFG refuses the width 3 with code 0x12. With no valid row in any slice of the lookup it
takes the value, and the chains are evaluated. The seed of an exact-match table takes a value while no entry is
visible. Otherwise it refuses the write with code 0x16. The same holds of the interface table. The L2 seed asks that
no pipeline holds an entry. SLICE_CFG_WRITE of a slice, admitted, has the effect sliceCfg, of a lookup lkpCfg, and
SEED_WRITE the effect seedWrite. (R54, R203, R204, R205, R206, R207, R197, R198, R227) -/
def Obligations.TcamAndSeeds : Prop :=
  (∀ r s w, TableReady s r tcamPage → firstWrite r s = w → 0x10 ≤ selOf s r tcamPage → selOf s r tcamPage ≤ 0x13 →
     idxOf s r tcamPage ≤ 1 →
     exec (.keyLoad r) s = .next (tableEnd r tcamPage 0 none
       (w.setTab tcamPage walkSel (2 * reqNo r + idxOf s r tcamPage) (cutWords (winData s r tcamPage) 10)))) ∧
  (∀ r s w, TableReady s r tcamPage → firstWrite r s = w → 0x10 ≤ selOf s r tcamPage → selOf s r tcamPage ≤ 0x13 →
     idxOf s r tcamPage < 262144 →
     ((tcamMatches w ((selOf s r tcamPage - 0x10) / 2) (walkKey w r) (selOf s r tcamPage % 2)).filter fun pos => decide (idxOf s r tcamPage ≤ pos)) = [] →
     exec (.walk r) s = .next (tableEnd r tcamPage 0 (some (setWord (setWord (winData s r tcamPage) 0 0) 1 0)) w)) ∧
  (∀ r (pos : Nat) (rest : List Nat) s w, TableReady s r tcamPage → firstWrite r s = w → 0x10 ≤ selOf s r tcamPage →
     selOf s r tcamPage ≤ 0x13 → idxOf s r tcamPage < 262144 →
     ((tcamMatches w ((selOf s r tcamPage - 0x10) / 2) (walkKey w r) (selOf s r tcamPage % 2)).filter fun x => decide (idxOf s r tcamPage ≤ x)) = pos :: rest →
     exec (.walk r) s = .next (tableEnd r tcamPage 0 (some (setWord
       (setWord (winData s r tcamPage) 0 (2 ^ 31 + ofB (!rest.isEmpty) * 2 ^ 30 + pos)) 1 (tcamAction w pos))) w)) ∧
  (∀ r s w, TableReady s r tcamPage → firstWrite r s = w → selOf s r tcamPage = 1 → idxOf s r tcamPage < 262144 →
     rowVis w (idxOf s r tcamPage) = 0 →
     exec (.rowMove r) s = .next (tableEnd r tcamPage 0x10 none (errBy tcamPage 0x10 (reqNo r) 1 (idxOf s r tcamPage) w))) ∧
  (∀ r (x : Nat) s w, TableReady s r tcamPage → firstWrite r s = w → selOf s r tcamPage = 1 →
     idxOf s r tcamPage < 262144 → w.h .capoState ≠ 4 →
     chainLen w (w.rfld (Reg.TCAM.SLICE_CFG (idxOf s r tcamPage / 2048)) 1 1) = 1 →
     idxOf s r tcamPage / 2048 * 2048 + fld (winData s r tcamPage) 0 11 = x → idxOf s r tcamPage / 16 = x / 16 →
     x ≠ idxOf s r tcamPage → rowVis w (idxOf s r tcamPage) ≠ 0 → rowVis w x = 0 →
     ((w.tabList tcamPage 1).any fun e => min (idxOf s r tcamPage) x < e.1 && e.1 < max (idxOf s r tcamPage) x && fld (word e.2 10) 0 2 != 0) = false →
     exec (.rowMove r) s = .next (tableEnd r tcamPage 0 none (
       let y := idxOf s r tcamPage
       let t := w.setTab tcamPage 1 x (setFld (w.tab tcamPage 1 y) 320 2 (rowVis w y))
       bump Reg.TCAM.ROW_MOVES (t.setTab tcamPage 1 y (setFld (t.tab tcamPage 1 y) 320 2 0))))) ∧
  (∀ (pos : Fin 262144) s,
     exec (.tcamScrubRow pos true) s = .next s) ∧
  (∀ (pos : Fin 262144) s, s.live tcamPage = true →
     exec (.tcamScrubRow pos false) s = .next (
       let h := headSlice s (pos.val / 2048) * 2048 + pos.val % 2048
       let w := s.setTab tcamPage 1 h (setFld (s.tab tcamPage 1 h) 320 2 0)
       raiseFault tcamPage 0 3 pos (errBy tcamPage 0x07 5 1 pos ((bump Reg.TCAM.SCRUB_ERR w).setReg Reg.TCAM.SCRUB_LAST pos)))) ∧
  (∀ r s, TableReady s r tcamPage →
     exec (.keyLoad r) s = .next (tableEnd r tcamPage (tcamTable 0x11 (winOf s r tcamPage) (firstWrite r s)).2.1
       (tcamTable 0x11 (winOf s r tcamPage) (firstWrite r s)).2.2 (tcamTable 0x11 (winOf s r tcamPage) (firstWrite r s)).1)) ∧
  (∀ r s, TableReady s r tcamPage →
     exec (.walk r) s = .next (tableEnd r tcamPage (tcamTable 0x12 (winOf s r tcamPage) (firstWrite r s)).2.1
       (tcamTable 0x12 (winOf s r tcamPage) (firstWrite r s)).2.2 (tcamTable 0x12 (winOf s r tcamPage) (firstWrite r s)).1)) ∧
  (∀ r s, TableReady s r tcamPage →
     exec (.rowMove r) s = .next (tableEnd r tcamPage (tcamTable 0x10 (winOf s r tcamPage) (firstWrite r s)).2.1
       (tcamTable 0x10 (winOf s r tcamPage) (firstWrite r s)).2.2 (tcamTable 0x10 (winOf s r tcamPage) (firstWrite r s)).1)) ∧
  (∀ r (k : Fin 130) (v : W32) s w, k.val < 128 → Admits s r (Reg.TCAM.SLICE_CFG k) → firstWrite r s = w →
     v.toNat % 4 ≠ s.reg (Reg.TCAM.SLICE_CFG k) → validRows w k = 0 →
     exec (.sliceCfgWrite r k v) s = .next (chainEval (w.setReg (Reg.TCAM.SLICE_CFG k) (v.toNat % 4)))) ∧
  (∀ r (k : Fin 130) (v : W32) s w, k.val < 128 → Admits s r (Reg.TCAM.SLICE_CFG k) → firstWrite r s = w →
     v.toNat % 4 ≠ s.reg (Reg.TCAM.SLICE_CFG k) → validRows w k ≠ 0 →
     exec (.sliceCfgWrite r k v) s = .next (errReq tcamPage 0x12 r (Reg.TCAM.SLICE_CFG k) v.toNat w)) ∧
  (∀ r (k : Fin 130) (v : W32) s w, k.val < 128 → Admits s r (Reg.TCAM.SLICE_CFG k) → firstWrite r s = w →
     v.toNat % 4 = s.reg (Reg.TCAM.SLICE_CFG k) →
     exec (.sliceCfgWrite r k v) s = .next w) ∧
  (∀ r (k : Fin 130) (v : W32) s w, 128 ≤ k.val → Admits s r (Reg.TCAM.LKP_CFG (k.val - 128)) → firstWrite r s = w →
     3 ≠ s.reg (Reg.TCAM.LKP_CFG (k.val - 128)) → v.toNat % 4 = 3 →
     exec (.sliceCfgWrite r k v) s = .next (errReq tcamPage 0x12 r (Reg.TCAM.LKP_CFG (k.val - 128)) v.toNat w)) ∧
  (∀ r (k : Fin 130) (v : W32) s w, 128 ≤ k.val → Admits s r (Reg.TCAM.LKP_CFG (k.val - 128)) → firstWrite r s = w →
     v.toNat % 4 ≠ s.reg (Reg.TCAM.LKP_CFG (k.val - 128)) → v.toNat % 4 ≠ 3 → w.tabList tcamPage 1 = [] →
     exec (.sliceCfgWrite r k v) s = .next (chainEval (w.setReg (Reg.TCAM.LKP_CFG (k.val - 128)) (v.toNat % 4)))) ∧
  (∀ r (v : W32) s, Admits s r Reg.EM.MPLS_SEED → s.reg Reg.EM.MPLS_ENT = 0 →
     exec (.seedWrite r 0 v) s = .next ((firstWrite r s).setReg Reg.EM.MPLS_SEED v.toNat)) ∧
  (∀ r (v : W32) s, Admits s r Reg.EM.MPLS_SEED → s.reg Reg.EM.MPLS_ENT ≠ 0 →
     exec (.seedWrite r 0 v) s = .next (errReq 0xC1 0x16 r Reg.EM.MPLS_SEED v.toNat (firstWrite r s))) ∧
  (∀ r (v : W32) s, Admits s r Reg.EM.IFT_SEED →
     exec (.seedWrite r 1 v) s = .next (if s.reg Reg.EM.IFT_ENT = 0 then (firstWrite r s).setReg Reg.EM.IFT_SEED v.toNat
       else errReq 0xC1 0x16 r Reg.EM.IFT_SEED v.toNat (firstWrite r s))) ∧
  (∀ r (v : W32) s, Admits s r Reg.L2.HASH_SEED →
     exec (.seedWrite r 2 v) s = .next (
       if (List.range 8).any fun g => s.reg (Reg.L2.ENT_CNT g) != 0 then errReq 0xC4 0x16 r Reg.L2.HASH_SEED v.toNat (firstWrite r s)
       else (firstWrite r s).setReg Reg.L2.HASH_SEED v.toNat)) ∧
  (∀ r (k : Fin 130) (v : W32) s, k.val < 128 → Admits s r (Reg.TCAM.SLICE_CFG k) →
     exec (.sliceCfgWrite r k v) s = .next (sliceCfg r k v.toNat (firstWrite r s))) ∧
  (∀ r (k : Fin 130) (v : W32) s, 128 ≤ k.val → Admits s r (Reg.TCAM.LKP_CFG (k.val - 128)) →
     exec (.sliceCfgWrite r k v) s = .next (lkpCfg r (k.val - 128) v.toNat (firstWrite r s))) ∧
  (∀ r (k : Fin 3) (v : W32) s, Admits s r (seedAddr k) →
     exec (.seedWrite r k v) s = .next (seedWrite r (seedAddr k) v.toNat (firstWrite r s)))

/-- INSERT, DELETE and LOOKUP on the hash tables. INSERT of a label whose key no entry holds with a shared visibility,
while no generation cycle runs, goes to the lowest way of its bucket with VIS 00, else to the lowest free overflow
slot, and answers that position. One that shares a visibility with an entry of its key is refused with code 0x10. One
that names no visibility, or a value out of range, is refused with code 0x12. With no room it is refused with code
0x11 and counted in INS_REJ. On the L2 page the same goes for the table of each pipeline. DELETE with no visibility
named is refused with code 0x12, and of a key that no entry holds under it with code 0x14. While no generation cycle
runs, DELETE takes the visibility of every entry of the key that shares a bit with the mask, and answers the last of
them. LOOKUP returns the entry that its key hits under the parity named, and its position. A miss answers 0. DELETE
and LOOKUP on the L2 page, likewise for each pipeline. With a ready window INSERT, DELETE and LOOKUP have the effect
and answer of l2Table on the L2 page and of emTable on the exact-match page. On the L2 page an INSERT that finds no
place and may evict nothing is refused with code 0x11, counted in LEARN_REJ and reported. (R228, R229, R230, R232,
R234, R255, R281, R295, R296) -/
def Obligations.ExactMatchCommands : Prop :=
  (∀ r (e pos : Nat) s w, TableReady s r emPage → firstWrite r s = w → selOf s r emPage = 1 →
     winData s r emPage % 2 ^ 128 &&& entMask .mpls = e → entRange .mpls e = false → entVis .mpls e ≠ 0 →
     clashes w .mpls (entKey .mpls e) (2 ^ 40) (entVis .mpls e) = false → w.h .capoState = 0 →
     insertPos w .mpls (entKey .mpls e) = some pos →
     exec (.insert r false) s = .next (tableEnd r emPage 0 (some (setWord (winData s r emPage) 15 (2 ^ 31 + pos)))
       (putEntry .mpls pos e w))) ∧
  (∀ r (e : Nat) s w, TableReady s r emPage → firstWrite r s = w → selOf s r emPage = 1 →
     winData s r emPage % 2 ^ 128 &&& entMask .mpls = e → entRange .mpls e = false → entVis .mpls e ≠ 0 →
     clashes w .mpls (entKey .mpls e) (2 ^ 40) (entVis .mpls e) = true →
     exec (.insert r false) s = .next (tableEnd r emPage 0x10 (some (setWord (winData s r emPage) 15 0))
       (errBy emPage 0x10 (reqNo r) 1 (idxOf s r emPage) w))) ∧
  (∀ r (e : Nat) s w, TableReady s r emPage → firstWrite r s = w → selOf s r emPage = 1 →
     winData s r emPage % 2 ^ 128 &&& entMask .mpls = e → entRange .mpls e = true ∨ entVis .mpls e = 0 →
     exec (.insert r false) s = .next (tableEnd r emPage 0x12 (some (setWord (winData s r emPage) 15 0))
       (errBy emPage 0x12 (reqNo r) 1 (idxOf s r emPage) w))) ∧
  (∀ (reqn idx d : Nat) s, entRange .mpls (d % 2 ^ 128 &&& entMask .mpls) = false →
     entVis .mpls (d % 2 ^ 128 &&& entMask .mpls) ≠ 0 →
     clashes s .mpls (entKey .mpls (d % 2 ^ 128 &&& entMask .mpls)) (2 ^ 40) (entVis .mpls (d % 2 ^ 128 &&& entMask .mpls)) = false →
     s.h .capoState = 0 → insertPos s .mpls (entKey .mpls (d % 2 ^ 128 &&& entMask .mpls)) = none →
     hashInsert .mpls reqn idx d s = (errBy emPage 0x11 reqn 1 idx (bump Reg.EM.INS_REJ s), 0x11, 0)) ∧
  (∀ r (g : Fin 8) s w, TableReady s r l2Page → firstWrite r s = w → selOf s r l2Page = 1 + g.val →
     exec (.insert r true) s = .next (
       let x := hashInsert (.l2 g) (reqNo r) (idxOf s r l2Page) (winData s r l2Page) w
       tableEnd r l2Page x.2.1 (some (setWord (winData s r l2Page) 15 x.2.2)) x.1)) ∧
  (∀ r s w, TableReady s r emPage → firstWrite r s = w → selOf s r emPage = 1 →
     fld (word (winData s r emPage) 14) 0 2 = 0 ∨ (sameKey w .mpls (entKey .mpls (winData s r emPage)) (2 ^ 40)).filter (fun x => entVis .mpls x.2 &&& fld (word (winData s r emPage) 14) 0 2 != 0) = [] →
     exec (.delete r false) s = .next (
       let c := if fld (word (winData s r emPage) 14) 0 2 = 0 then 0x12 else 0x14
       tableEnd r emPage c (some (setWord (winData s r emPage) 15 0)) (errBy emPage c (reqNo r) 1 (idxOf s r emPage) w))) ∧
  (∀ r (x : Nat × Nat) s w, TableReady s r emPage → firstWrite r s = w → selOf s r emPage = 1 →
     fld (word (winData s r emPage) 14) 0 2 ≠ 0 →
     (sameKey w .mpls (entKey .mpls (winData s r emPage)) (2 ^ 40)).filter (fun x => entVis .mpls x.2 &&& fld (word (winData s r emPage) 14) 0 2 != 0) = [x] →
     w.h .capoState = 0 →
     exec (.delete r false) s = .next (tableEnd r emPage 0 (some (setWord (winData s r emPage) 15 (2 ^ 31 + x.1)))
       (putEntry .mpls x.1 (setEntVis .mpls x.2 0) w))) ∧
  (∀ r (pos : Nat) s w, TableReady s r emPage → firstWrite r s = w → selOf s r emPage = 1 →
     hashFind w .mpls (entKey .mpls (winData s r emPage)) (fld (word (winData s r emPage) 14) 0 1) = some pos →
     exec (.lookup r false) s = .next (tableEnd r emPage 0 (some (setWord
       (setFld (winData s r emPage) 0 128 (w.tab emPage 1 pos)) 15 (2 ^ 31 + pos))) w)) ∧
  (∀ r s w, TableReady s r emPage → firstWrite r s = w → selOf s r emPage = 1 →
     hashFind w .mpls (entKey .mpls (winData s r emPage)) (fld (word (winData s r emPage) 14) 0 1) = none →
     exec (.lookup r false) s = .next (tableEnd r emPage 0 (some (setWord (winData s r emPage) 15 0)) w)) ∧
  (∀ r (g : Fin 8) s w, TableReady s r l2Page → firstWrite r s = w → selOf s r l2Page = 1 + g.val →
     exec (.delete r true) s = .next (
         let x := hashDelete (.l2 g) (reqNo r) (idxOf s r l2Page) (winData s r l2Page) w
         tableEnd r l2Page x.2.1 (some (setWord (winData s r l2Page) 15 x.2.2)) x.1) ∧
       exec (.lookup r true) s = .next (match hashLookup (.l2 g) (winData s r l2Page) w with
         | none => tableEnd r l2Page 0 (some (setWord (winData s r l2Page) 15 0)) w
         | some (e, res) => tableEnd r l2Page 0 (some (setWord (setFld (winData s r l2Page) 0 96 e) 15 res)) w)) ∧
  (∀ r s, TableReady s r l2Page →
     exec (.insert r true) s = .next (tableEnd r l2Page (l2Table 0x10 (winOf s r l2Page) (firstWrite r s)).2.1
       (l2Table 0x10 (winOf s r l2Page) (firstWrite r s)).2.2 (l2Table 0x10 (winOf s r l2Page) (firstWrite r s)).1)) ∧
  (∀ r s, TableReady s r l2Page →
     exec (.delete r true) s = .next (tableEnd r l2Page (l2Table 0x11 (winOf s r l2Page) (firstWrite r s)).2.1
       (l2Table 0x11 (winOf s r l2Page) (firstWrite r s)).2.2 (l2Table 0x11 (winOf s r l2Page) (firstWrite r s)).1)) ∧
  (∀ r s, TableReady s r l2Page →
     exec (.lookup r true) s = .next (tableEnd r l2Page (l2Table 0x12 (winOf s r l2Page) (firstWrite r s)).2.1
       (l2Table 0x12 (winOf s r l2Page) (firstWrite r s)).2.2 (l2Table 0x12 (winOf s r l2Page) (firstWrite r s)).1)) ∧
  (∀ r s, TableReady s r emPage →
     exec (.insert r false) s = .next (tableEnd r emPage (emTable 0x10 (winOf s r emPage) (firstWrite r s)).2.1
       (emTable 0x10 (winOf s r emPage) (firstWrite r s)).2.2 (emTable 0x10 (winOf s r emPage) (firstWrite r s)).1)) ∧
  (∀ r s, TableReady s r emPage →
     exec (.delete r false) s = .next (tableEnd r emPage (emTable 0x11 (winOf s r emPage) (firstWrite r s)).2.1
       (emTable 0x11 (winOf s r emPage) (firstWrite r s)).2.2 (emTable 0x11 (winOf s r emPage) (firstWrite r s)).1)) ∧
  (∀ r s, TableReady s r emPage →
     exec (.lookup r false) s = .next (tableEnd r emPage (emTable 0x12 (winOf s r emPage) (firstWrite r s)).2.1
       (emTable 0x12 (winOf s r emPage) (firstWrite r s)).2.2 (emTable 0x12 (winOf s r emPage) (firstWrite r s)).1)) ∧
  (∀ (g reqn idx d e : Nat) s u, cutWords d 3 &&& entMask (.l2 g) = e → entRange (.l2 g) e = false →
     entVis (.l2 g) e ≠ 0 → clashes s (.l2 g) (entKey (.l2 g) e) (2 ^ 40) (entVis (.l2 g) e) = false →
     s.h .capoState = 0 → placeEntry (.l2 g) e s = (none, u) →
     hashInsert (.l2 g) reqn idx d s = (errBy l2Page 0x11 reqn (1 + g) idx
       (l2LearnRej g (l2Mac e) (l2Bd e) (l2Port e) u), 0x11, 0))

/-- ROUTE_ADD, ROUTE_DEL, ROUTE_MOD, ROUTE_GET and ROUTE_MATCH. While no generation cycle runs, ROUTE_ADD of a prefix that
no route of its visibility holds and for which units are left stores the route in the first free place of the agent. A
route whose length is out of range, which has a bit set below its length, or which names no visibility is refused with
code 0x12. With no units left it is refused with code 0x11. ROUTE_DEL removes the route named, while no generation
cycle runs. A route that does not exist answers code 0x14. ROUTE_MOD gives the route named a new next hop and a
visibility that no other route of its prefix shares; while no generation cycle runs a visibility of 00 removes it.
ROUTE_GET returns word 5 of the route named. ROUTE_MATCH returns the longest route of the VRF that covers the address
under the parity named; here an IPv4 one. With none it answers 0. A route command is queued with its window as it
stands, and its window is busy. Its TBL_CMD_COMPLETE carries out the commands queued up to it, in the order in which
they came. While the route agent does not run a route command waits for it. (R238, R239, R240, R242, R277, R281, R295,
R296, R460, R545) -/
def Obligations.RouteCommands : Prop :=
  (∀ (w : Win) (d : Nat) s, w.sel = 1 → w.data &&& routeMask = d → routeRange d = false → routeVis d ≠ 0 →
     nextRange (word d 5) = false →
     ((routeList s).any fun x => samePrefix x.2 d && (routeVis x.2 &&& routeVis d) != 0) = false →
     s.reg Reg.LPM.UNITS_USED + routeUnits d ≤ s.reg Reg.LPM.UNITS_CAP → s.h .capoState = 0 →
     lpmTable 0x10 w s = ((putRoute (firstGap 1 0 ((routeList s).map (·.1))) (setFld d 190 2 (routeVis d) + 2 ^ 8) s), 0, none)) ∧
  (∀ (w : Win) (d : Nat) s, w.sel = 1 → w.data &&& routeMask = d → routeRange d = true ∨ routeVis d = 0 →
     lpmTable 0x10 w s = (errBy lpmPage 0x12 (reqNo w.r) 1 w.idx s, 0x12, none)) ∧
  (∀ (reqn idx d : Nat) s, routeRange (d &&& routeMask) = false → routeVis (d &&& routeMask) ≠ 0 →
     nextRange (word (d &&& routeMask) 5) = false →
     ((routeList s).any fun x => samePrefix x.2 (d &&& routeMask) && (routeVis x.2 &&& routeVis (d &&& routeMask)) != 0) = false →
     s.reg Reg.LPM.UNITS_CAP < s.reg Reg.LPM.UNITS_USED + routeUnits (d &&& routeMask) →
     routeAdd reqn idx d s = (errBy lpmPage 0x11 reqn 1 idx s, 0x11)) ∧
  (∀ (w : Win) (slot e : Nat) s, w.sel = 1 → routeRange (w.data &&& routeMask) = false →
     findRoute s (w.data &&& routeMask) = some (slot, e) → s.h .capoState = 0 →
     lpmTable 0x11 w s = (putRoute slot 0 s, 0, none)) ∧
  (∀ (w : Win) s, w.sel = 1 → routeRange (w.data &&& routeMask) = false → findRoute s (w.data &&& routeMask) = none →
     lpmTable 0x11 w s = (errBy lpmPage 0x14 (reqNo w.r) 1 w.idx s, 0x14, none)) ∧
  (∀ (w : Win) (slot e m : Nat) s, w.sel = 1 → word (w.data) 6 &&& 0xC01FFFFF = m →
     routeRange (w.data &&& routeMask) = false → nextRange m = false →
     findRoute s (w.data &&& routeMask) = some (slot, e) →
     ((routeList s).any fun x => x.1 != slot && samePrefix x.2 (w.data &&& routeMask) && (routeVis x.2 &&& fld m 30 2) != 0) = false →
     s.h .capoState = 0 →
     lpmTable 0x12 w s = (if fld m 30 2 = 0 then putRoute slot 0 s else putRoute slot (setWord e 5 m) s, 0, none)) ∧
  (∀ (w : Win) (slot e : Nat) s, w.sel = 1 → routeRange (w.data &&& routeMask) = false →
     findRoute s (w.data &&& routeMask) = some (slot, e) →
     lpmTable 0x13 w s = (s, 0, (some (setWord (setWord (w.data) 5 (word e 5)) 15 (2 ^ 31))))) ∧
  (∀ (w : Win) (x : Nat × Nat) s, w.sel = 1 → routeV6 (w.data) = false →
     routeMatch s (routeVrf (w.data)) false (word (w.data) 4) (fld (word (w.data) 6) 0 1) = some x →
     lpmTable 0x14 w s = (s, 0, (some (setWord (setFld (w.data) 0 192 (x.2 &&& routeMask)) 15 (2 ^ 31))))) ∧
  (∀ (w : Win) s, w.sel = 1 → routeV6 (w.data) = false →
     routeMatch s (routeVrf (w.data)) false (word (w.data) 4) (fld (word (w.data) 6) 0 1) = none →
     lpmTable 0x14 w s = (s, 0, (some (setWord (w.data) 15 0)))) ∧
  (∀ r s, TableReady s r lpmPage →
     exec (.routeAdd r) s = .next (lpmQueue r 0x10 (firstWrite r s)) ∧ exec (.routeDel r) s = .next (lpmQueue r 0x11 (firstWrite r s)) ∧
       exec (.routeMod r) s = .next (lpmQueue r 0x12 (firstWrite r s)) ∧ exec (.routeGet r) s = .next (lpmQueue r 0x13 (firstWrite r s)) ∧
       exec (.routeMatch r) s = .next (lpmQueue r 0x14 (firstWrite r s))) ∧
  (∀ r (k : Nat) s, (s.lpmQ.findIdx? fun c => c.r == r) = some k → engUp s 0 = true →
     exec (.tblCmdComplete r ⟨lpmPage, by decide⟩) s = .next (forEach (s.lpmQ.take (k + 1)) s lpmStep)) ∧
  (∀ r (k : Nat) s, (s.lpmQ.findIdx? fun c => c.r == r) = some k →
     (s.lpmQ.take (k + 1)).any (fun c => routeOp c.op) = true → engUp s 0 = false →
     exec (.tblCmdComplete r ⟨lpmPage, by decide⟩) s = .next s)

/-- Learn queues, station moves, ageing and notifications of L2. With no update queued for the pipeline nothing happens;
otherwise its oldest update leaves the queue and is applied. An unknown station for which there is a place is stored,
visible under both parities and young, counted and reported. A station seen at the port that its entry holds only has
its age set. A static entry is not moved: STATIC_CONFLICT counts. A further move than MOVE_CFG allows in a window
freezes the entry, is counted in FLAPS, raises L2_FLAP and is reported. MOVE_TICK advances the move window counter at
its next whole multiple of 100 ms, and so AGE_TICK the age counter at that of TICK times 100 ms. A counter moves on by
1 of 16, with TICK_NOW. The age scanner reads an entry and, in the write of its visit, decides on what it read. The
write to an aged entry whose key and age still stand as read removes it, counted and reported. One that was touched
since is kept, counted in AGE_SAVED. One that was not aged when read has only its move window looked at. The read
keeps the entry, and whether it was aged and its move window passed then. A write to NOTIFY_POP, admitted, has the
effect notifyPop; of a value with bit 0 set it removes the oldest notification, and NOTIFY_CNT follows. A full
notification FIFO loses the notification: counted, with its event. (R251, R252, R253, R254, R255, R257, R258, R259,
R260, R277) -/
def Obligations.LearningAndAgeing : Prop :=
  (∀ (g : Fin 8) s, s.live l2Page = true →
     exec (.learnUpdate g) s = .next (match s.learnQ.find? fun u => u.g == g.val with
       | none => s
       | some u => l2Apply u { s with learnQ := s.learnQ.erase u })) ∧
  (∀ (u : Learn) (pos : Nat) s, l2Find s u.g u.mac u.bd = none →
     insertPos s (.l2 u.g) (entKey (.l2 u.g) (ofWords [u.mac / 65536, u.mac % 65536 * 65536 + u.bd, 3 * 2 ^ 30 + s.hn .ageNow * 2 ^ 24 + u.port])) = some pos →
     l2Apply u s = notifyPush (notifyWords 1 true u.g u.mac u.bd u.port 0) (bump (Reg.L2.LEARN_NEW u.g)
       (putEntry (.l2 u.g) pos (ofWords [u.mac / 65536, u.mac % 65536 * 65536 + u.bd, 3 * 2 ^ 30 + s.hn .ageNow * 2 ^ 24 + u.port]) s))) ∧
  (∀ (u : Learn) (pos e : Nat) s, l2Find s u.g u.mac u.bd = some (pos, e) → fld (word e 2) 30 2 = 3 →
     l2Port e = u.port →
     l2Apply u s = l2Refresh u.g pos s) ∧
  (∀ (u : Learn) (pos e : Nat) s, l2Find s u.g u.mac u.bd = some (pos, e) → fld (word e 2) 30 2 = 3 →
     l2Port e ≠ u.port → bit (word e 2) 29 = true →
     l2Apply u s = bump (Reg.L2.STATIC_CONFLICT u.g) s) ∧
  (∀ (g pos port : Nat) s, fld (word (s.tab l2Page (1 + g) pos) 2) 20 4 ≠ 0 →
     (s.hn .moveNow + 16 - fld (word (s.tab l2Page (1 + g) pos) 2) 16 4) % 16 < s.rfld Reg.L2.MOVE_CFG 8 4 →
     s.rfld Reg.L2.MOVE_CFG 0 4 < fld (word (s.tab l2Page (1 + g) pos) 2) 20 4 + 1 →
     l2Move g pos port s = (
       let e := s.tab l2Page (1 + g) pos
       notifyPush (notifyWords 5 true g (l2Mac e) (l2Bd e) port 0)
         (raise l2Page 2 (bump (Reg.L2.FLAPS g) (s.setTab l2Page (1 + g) pos (setFld e 92 1 1)))))) ∧
  (∀ s, s.live l2Page = true →
     exec .moveTick s = .next (atInstant ((s.hn .moveAt + 1) * tickUnits 1) moveTick s)) ∧
  (∀ s, s.live l2Page = true →
     exec .ageTick s = .next (atInstant ((s.hn .ageAt + 1) * tickUnits (agePeriod s)) ageTick s)) ∧
  (∀ s,
     moveTick s = (let u := (s.setH .moveNow ((s.h .moveNow + 1) % 16)).setH .moveAt (s.h .moveAt + 1)
       u.setRfld Reg.L2.TICK_NOW 4 4 (u.hn .moveNow)) ∧
       ageTick s = (let u := (s.setH .ageNow ((s.h .ageNow + 1) % 16)).setH .ageAt (s.h .ageAt + 1)
       u.setRfld Reg.L2.TICK_NOW 0 4 (u.hn .ageNow))) ∧
  (∀ (g : Fin 8) (pos : Fin 266240) s, s.live l2Page = true →
     exec (.ageScanVisit g pos .read) s = .next (scanRead g pos s)) ∧
  (∀ (g : Fin 8) (pos : Fin 266240) s, s.live l2Page = true →
     exec (.ageScanVisit g pos .write) s = .next (scanWrite g pos s)) ∧
  (∀ (g : Fin 8) (pos : Fin 266240) s, s.live l2Page = true →
     exec (.ageScanVisit g pos .visit) s = .next (scanWrite g pos (scanRead g pos s))) ∧
  (∀ (g pos seen : Nat) (mp : Bool) s, entKey (.l2 g) (s.tab l2Page (1 + g) pos) = entKey (.l2 g) seen →
     fld (word (s.tab l2Page (1 + g) pos) 2) 24 4 = fld (word seen 2) 24 4 →
     entVis (.l2 g) (s.tab l2Page (1 + g) pos) ≠ 0 →
     ageVisit g pos seen true mp s = (
       let e := s.tab l2Page (1 + g) pos
       notifyPush (notifyWords 3 true g (l2Mac e) (l2Bd e) (l2Port e) 0)
         (bump (Reg.L2.AGED g) (putEntry (.l2 g) pos (setEntVis (.l2 g) e 0) s)))) ∧
  (∀ (g pos seen : Nat) (mp : Bool) s, fld (word (s.tab l2Page (1 + g) pos) 2) 24 4 ≠ fld (word seen 2) 24 4 →
     ageVisit g pos seen true mp s = moveVisit g pos seen mp (bump (Reg.L2.AGE_SAVED g) s)) ∧
  (∀ (g pos seen : Nat) (mp : Bool) s,
     ageVisit g pos seen false mp s = moveVisit g pos seen mp s) ∧
  (∀ (g pos : Nat) s,
     scanRead g pos s = (s.setTab l2Page (16 + g) 0 (s.tab l2Page (1 + g) pos)).setH (.scanAt g)
       (4 * (pos + 1) + 2 * ofB (movePassed s (s.tab l2Page (1 + g) pos)) + ofB (l2Aged s (s.tab l2Page (1 + g) pos)) : Nat)) ∧
  (∀ r (v : W32) s, Admits s r Reg.L2.NOTIFY_POP →
     exec (.notifyPop r v) s = .next (notifyPop v.toNat (firstWrite r s))) ∧
  (∀ (v : Nat) s, bit v 0 = true →
     notifyPop v s = { s with notify := s.notify.drop 1 }.setReg Reg.L2.NOTIFY_CNT (s.notify.drop 1).length) ∧
  (∀ (n : Nat) s, 16384 ≤ s.notify.length →
     notifyPush n s = raise l2Page 1 (bump Reg.L2.NOTIFY_LOST s))

/-- Commands of the flip engine, and the scrubbing of tables. FLIP_CMD in READY starts a flip: FLIPPING, and every
pipeline will take the new parity. In any other state it is refused with code 0x10 and counted in FLIPS_REFUSED. A
disabled CAPO page refuses it with code 0x08. ARM in READY for a valid time at least 1 µs ahead gives ARMED. For a
time nearer than that it is refused with code 0x11. DISARM cancels an armed flip. In another state it is refused with
code 0x11. At its time the armed flip starts. Without an armed flip nothing happens. Admitted, FLIP_CMD, FLIP_ARM and
FLIP_DISARM have the effects stated. An entry that the scrubber finds good, or of a table that it does not read,
stays. A failing one outside L2 is counted, captured with code 0x07, reported as a fault of class 2, and marked in its
place. A failing dynamic entry of L2 is deleted and reported as PARITY_DEL. LPM_NODE_REPAIR of a node that does not
fail, or without the route agent, does nothing. A failing node is rebuilt from the route store, counted in REPAIRED.
If the store itself holds an error, the VRF is captured and reported. In live blocks, TABLE_SCRUB and LPM_NODE_REPAIR
have the effects stated. (R288, R289, R290, R306, R307, R264, R277, R280) -/
def Obligations.FlipsAndScrubbing : Prop :=
  (∀ r (v : W32) s w, Admits s r Reg.CAPO.FLIP_CMD → firstWrite r s = w → s.rbit (Reg.BLK_CTL capoPage) 0 = true →
     bit v.toNat 0 = true → w.h .capoState = 0 → w.hb .flipPending = false →
     exec (.flipCmd r v) s = .next ((w.setH .capoState 2).setHb .flipPending true)) ∧
  (∀ r (v : W32) s w, Admits s r Reg.CAPO.FLIP_CMD → firstWrite r s = w → s.rbit (Reg.BLK_CTL capoPage) 0 = true →
     bit v.toNat 0 = true → w.h .capoState ≠ 0 →
     exec (.flipCmd r v) s = .next (bump Reg.CAPO.FLIPS_REFUSED (errReq capoPage 0x10 r Reg.CAPO.FLIP_CMD v.toNat w))) ∧
  (∀ r (v : W32) s w, Admits s r Reg.CAPO.FLIP_CMD → firstWrite r s = w → s.rbit (Reg.BLK_CTL capoPage) 0 = false →
     bit v.toNat 0 = true →
     exec (.flipCmd r v) s = .next (bump Reg.CAPO.FLIPS_REFUSED (errReq capoPage 0x08 r Reg.CAPO.FLIP_CMD v.toNat w))) ∧
  (∀ r (v : W32) s w, Admits s r Reg.CAPO.FLIP_ARM → firstWrite r s = w → s.rbit (Reg.BLK_CTL capoPage) 0 = true →
     fld v.toNat 0 2 = 1 → bit v.toNat 0 = true → w.h .capoState = 0 → w.hb .flipPending = false →
     w.reg Reg.CAPO.FLIP_NS ≤ 999999999 → w.tb + 1000 * unitsNs ≤ flipTime w →
     exec (.flipArm r v) s = .next (w.setH .capoState 1)) ∧
  (∀ r (v : W32) s w, Admits s r Reg.CAPO.FLIP_ARM → firstWrite r s = w → s.rbit (Reg.BLK_CTL capoPage) 0 = true →
     fld v.toNat 0 2 = 1 → bit v.toNat 0 = true → flipTime w < w.tb + 1000 * unitsNs →
     exec (.flipArm r v) s = .next (errReq capoPage 0x11 r Reg.CAPO.FLIP_ARM v.toNat w)) ∧
  (∀ r (v : W32) s w, Admits s r Reg.CAPO.FLIP_ARM → firstWrite r s = w → s.rbit (Reg.BLK_CTL capoPage) 0 = true →
     fld v.toNat 0 2 = 2 → bit v.toNat 0 = false → w.h .capoState = 1 →
     exec (.flipDisarm r v) s = .next (w.setH .capoState 0)) ∧
  (∀ r (v : W32) s w, Admits s r Reg.CAPO.FLIP_ARM → firstWrite r s = w → s.rbit (Reg.BLK_CTL capoPage) 0 = true →
     fld v.toNat 0 2 = 2 → bit v.toNat 0 = false → w.h .capoState ≠ 1 →
     exec (.flipDisarm r v) s = .next (errReq capoPage 0x11 r Reg.CAPO.FLIP_ARM v.toNat w)) ∧
  (∀ s, s.live capoPage = true → s.h .capoState = 1 →
     exec .flipTimeReached s = .next (atInstant (flipTime s)
       (fun s => (s.setH .capoState 2).setHb .flipPending true) s)) ∧
  (∀ s, s.h .capoState ≠ 1 →
     exec .flipTimeReached s = .next s) ∧
  (∀ r (v : W32) s, Admits s r Reg.CAPO.FLIP_CMD →
     exec (.flipCmd r v) s = .next (flipCmd r v.toNat (firstWrite r s))) ∧
  (∀ r (v : W32) s, Admits s r Reg.CAPO.FLIP_ARM →
     exec (.flipArm r v) s = .next (flipArm r v.toNat (firstWrite r s))) ∧
  (∀ r (v : W32) s, Admits s r Reg.CAPO.FLIP_ARM →
     exec (.flipDisarm r v) s = .next (flipArm r v.toNat (firstWrite r s))) ∧
  (∀ (p : Fin 8192) (sel : Fin 256) (i : Nat) (ok : Bool) s, ok = true ∨ scrubbed p sel = false →
     exec (.tableScrub p sel i ok) s = .next s) ∧
  (∀ (p : Fin 8192) (sel : Fin 256) (i : Nat) s, s.live p = true → scrubbed p sel = true → p.val ≠ l2Page →
     exec (.tableScrub p sel i false) s = .next (setParBad p sel i true
       (raiseFault p (parityEvent p) 2 i (errBy p 0x07 5 sel i (bump (scrubReg p sel) s))))) ∧
  (∀ (g : Fin 8) (i : Nat) s w, s.live l2Page = true →
     w = raiseFault l2Page 3 2 i (errBy l2Page 0x07 5 (1 + g.val) i (bump (Reg.L2.SCRUB_ERR g) s)) →
     fld (word (w.tab l2Page (1 + g.val) i) 2) 30 2 = 3 → bit (word (w.tab l2Page (1 + g.val) i) 2) 29 = false →
     exec (.tableScrub (0xC4 : Fin 8192) ⟨1 + g.val, by omega⟩ i false) s = .next (
       let e := w.tab l2Page (1 + g.val) i
       notifyPush (notifyWords 7 true g (l2Mac e) (l2Bd e) (l2Port e) 0) (putEntry (.l2 g) i (setEntVis (.l2 g) e 0) w))) ∧
  (∀ (i : Nat) (ok : Bool) s, parBad s lpmPage 1 i = false ∨ engUp s 0 = false →
     exec (.lpmNodeRepair i ok) s = .next s) ∧
  (∀ (i : Nat) s, s.live lpmPage = true → parBad s lpmPage 1 i = true → engUp s 0 = true →
     exec (.lpmNodeRepair i true) s = .next (bump Reg.LPM.REPAIRED (setParBad lpmPage 1 i false s))) ∧
  (∀ (i : Nat) s, s.live lpmPage = true → parBad s lpmPage 1 i = true → engUp s 0 = true →
     exec (.lpmNodeRepair i false) s = .next (
       let v := routeVrf (s.tab lpmPage 1 i)
       raiseFault lpmPage 1 2 v (errBy lpmPage 0x07 5 1 v s))) ∧
  (∀ (p : Fin 8192) (sel : Fin 256) (idx : Nat) (ok : Bool) s, s.live p = true →
     exec (.tableScrub p sel idx ok) s = .next (if ok || !scrubbed p sel then s else scrubFail p sel idx s)) ∧
  (∀ (idx : Nat) (storeOk : Bool) s, s.live lpmPage = true →
     exec (.lpmNodeRepair idx storeOk) s = .next (if !parBad s lpmPage 1 idx || !engUp s 0 then s else if storeOk then bump Reg.LPM.REPAIRED (setParBad lpmPage 1 idx false s) else let vrf := routeVrf (s.tab lpmPage 1 idx); raiseFault lpmPage 1 2 vrf (errBy lpmPage 0x07 5 1 vrf s)))

/-- The flip, the drain of the old parity and the sweep. With no flip pending FLIP_APPLY does nothing. Otherwise the other
parity becomes current, no parse bank is an empty bank any more, the time is kept, and the flip is counted with its
event. When the old parity's count is 0 the drain settles, until SETTLE has passed from then. While frames of the old
parity are in flight it does not. At the end of that time the drain ends: counted, DRAIN_DONE, SWEEPING. Its end
counts the drain of its parity and raises DRAIN_DONE. A drain longer than the greatest age limit since the flip raises
DRAIN_TIMEOUT once and is a fault of class 14. DRAIN_FORCE after the timeout takes the count to 0 and ends the drain,
counted in FORCED_DRAINS. Before it the write is refused with code 0x13. The sweep deletes an entry visible only under
the old parity, here one of a hash table, counted in SWEPT_DEL. It makes one visible only under the current parity
visible under both, counted in SWEPT_BOTH; here one whose key the old parity does not hold. When the sweep has visited
everything, the parse banks and KSEL are copied, SWEEP_DONE is raised and the state is READY; here no swept table
holds an entry. An entry visible only under the old parity whose key another entry holds under the current one leaves
the table first. While the cycle is not SWEEPING the sweep agent does nothing. On its condition, SWEEP_CONVERSION has
the effect stated. Admitted, DRAIN_FORCE has the effect stated. (R178, R286, R287, R288, R291, R293, R294, R297) -/
def Obligations.GenerationCycle : Prop :=
  (∀ s, s.hb .flipPending = false →
     exec .flipApply s = .next s) ∧
  (∀ s, s.clocked capoPage = true → s.hb .flipPending = true →
     exec .flipApply s = .next (
       let w := (s.setH .capoParity (oldParity s : Nat)).setHb .flipPending false
       let w := w.setH .capoEver (w.h .capoEver + 1)
       let w := forEach (List.range 8) w fun g w => (w.setHb (.emptyBank g 0) false).setHb (.emptyBank g 1) false
       let w := ((w.setReg Reg.CAPO.LAST_FLIP_NS (nsOf w.tb)).setReg Reg.CAPO.LAST_FLIP_SEC (secOf w.tb % 2 ^ 32)).setH .flipAt
         (w.root : Nat)
       raise capoPage 0 (bump Reg.CAPO.FLIPS (w.setH .ageMax (w.reg Reg.CELL.AGE_LIMIT : Nat))))) ∧
  (∀ s, s.pllOk = true → s.h .capoState = 2 → s.hb .flipPending = false → s.h (.inFlight (oldParity s)) = 0 →
     exec .inFlightZero s = .next ((s.setH .capoState 3).setH .settleAt (s.root + cycUs (s.reg Reg.CAPO.SETTLE) : Nat))) ∧
  (∀ s, s.h (.inFlight (oldParity s)) ≠ 0 →
     exec .inFlightZero s = .next s) ∧
  (∀ s, s.pllOk = true → s.h .capoState = 3 →
     exec .settleExpire s = .next (drainEnd
       (waitRoot (s.hn .settleAt) s))) ∧
  (∀ s,
     drainEnd s = raise capoPage 1 (((s.setH (.drainCnt (oldParity s)) ((s.h (.drainCnt (oldParity s)) + 1) % 2 ^ 32)).setH
       .capoState 4).setH .sweepDone 0)) ∧
  (∀ s, s.pllOk = true → s.h .capoState = 2 ∨ s.h .capoState = 3 → s.hb .flipPending = false →
     s.hb .capoTimeout = false →
     exec .drainTimeout s = .next (
       let w := raise capoPage 3 ((waitRoot (s.hn .flipAt + cycUs (s.hn .ageMax)) s).setHb .capoTimeout true)
       faultRecord 14 capoPage (oldParity w) w)) ∧
  (∀ r (v : W32) s w, Admits s r Reg.CAPO.DRAIN_FORCE → firstWrite r s = w → s.rbit (Reg.BLK_CTL capoPage) 0 = true →
     bit v.toNat 0 = true → w.hb .capoTimeout = true → w.h .capoState = 2 →
     exec (.drainForce r v) s = .next (drainEnd (bump Reg.CAPO.FORCED_DRAINS (w.setH (.inFlight (oldParity w)) 0)))) ∧
  (∀ r (v : W32) s w, Admits s r Reg.CAPO.DRAIN_FORCE → firstWrite r s = w → s.rbit (Reg.BLK_CTL capoPage) 0 = true →
     bit v.toNat 0 = true → w.hb .capoTimeout = false →
     exec (.drainForce r v) s = .next (errReq capoPage 0x13 r Reg.CAPO.DRAIN_FORCE v.toNat w)) ∧
  (∀ (p : Fin 8192) (sel : Fin 256) (i : Nat) s (t : HTab) (b : Nat), sweeping s = true → sweptHere s p sel = true →
     i < 2 ^ 32 → hashTab p sel = some t → visAt p sel = some b → p.val ≠ adjPage → p.val ≠ tcamPage → p.val ≠ lpmPage →
     oldParity s ≤ 1 → fld (s.tab p sel i) b 2 = 2 ^ oldParity s →
     exec (.sweepConversion p sel i) s = .next (bump Reg.CAPO.SWEPT_DEL
       (putEntry t i (setFld (s.tab p sel i) b 2 0) (s.setH .sweepDone (s.h .sweepDone + 1))))) ∧
  (∀ (p : Fin 8192) (sel : Fin 256) (i : Nat) s (t : HTab) (b : Nat), sweeping s = true → sweptHere s p sel = true →
     i < 2 ^ 32 → hashTab p sel = some t → visAt p sel = some b → p.val ≠ adjPage → p.val ≠ tcamPage → p.val ≠ lpmPage →
     oldParity s ≤ 1 → sweepTwin s p sel i b = none → fld (s.tab p sel i) b 2 = 2 ^ (1 - oldParity s) →
     exec (.sweepConversion p sel i) s = .next (bump Reg.CAPO.SWEPT_BOTH
       (putEntry t i (setFld (s.tab p sel i) b 2 3) (s.setH .sweepDone (s.h .sweepDone + 1))))) ∧
  (∀ s, sweeping s = true → engUp s 0 = true → (∀ t ∈ sweptTables, s.tabList t.1 t.2 = []) →
     exec .sweepComplete s = .next (raise capoPage 2 (((copyBanks s).setH .capoState 0).setHb .capoTimeout false))) ∧
  (∀ (p : Fin 8192) (sel : Fin 256) (i j : Nat) s (b : Nat), sweeping s = true → sweptHere s p sel = true → i < 2 ^ 32 →
     visAt p sel = some b → p.val ≠ adjPage → p.val ≠ tcamPage → p.val ≠ lpmPage → sweepTwin s p sel i b = some j →
     fld (s.tab p sel i) b 2 = 2 ^ (1 - oldParity s) →
     exec (.sweepConversion p sel i) s = .next (sweepEntry p sel i b (2 ^ (1 - oldParity s)) (sweepEntry p sel j b (2 ^ oldParity s) s))) ∧
  (∀ (p : Fin 8192) (sel : Fin 256) (i : Nat) s, s.h .capoState ≠ 4 →
     exec (.sweepConversion p sel i) s = .next s ∧ exec .sweepComplete s = .next s) ∧
  (∀ (p : Fin 8192) (sel : Fin 256) (i : Nat) s, sweeping s = true → sweptHere s p sel = true →
     exec (.sweepConversion p sel i) s = .next (sweepOne p sel (i % 2 ^ 32) s)) ∧
  (∀ r (v : W32) s, Admits s r Reg.CAPO.DRAIN_FORCE →
     exec (.drainForce r v) s = .next (drainForce r v.toNat (firstWrite r s)))

/-- The admission test of a frame offered to a queue. With no frame offered to the queue nothing happens. A frame for a
VOQ whose system-queue entry is not valid is discarded and counted. A disabled queue manager discards the frame. The
queue may first move to DEEP; a frame that then passes the test and whose cells are granted joins the queue with its
charge counted. If its requests are carried to a later cycle, as they are while another frame's are, the charge is
counted now. A frame that fails the test is refused. A refusal with no push-out is a drop: counted by its reason and
in its partition. The charge of a complete frame is the cells that it occupies; of one that still arrives, one cell. A
shallow frame that its guaranteed minimum does not cover must fit both the free shared cells of its partition and
alpha times them less what the queue holds. In every state ADMISSION completes, with the effect stated. (R45, R319,
R320, R325, R326, R327, R328, R330, R332, R335, R355) -/
def Obligations.AdmissionTest : Prop :=
  (∀ (q : Fin 393216) (cy : Bool) s, s.firstAt (.toQ q) = none →
     exec (.admission (some q) cy) s = .next s) ∧
  (∀ (q : Fin 393216) (cy : Bool) (f : Frame) s, s.firstAt (.toQ q) = some f →
     (carriedBy s (queueReqr q)).isSome = false → s.live qmgrPage = true → isVoq q = true →
     bit (s.tab qmgrPage 2 (q.val / 8)) 31 = false →
     exec (.admission (some q) cy) s = .next (bump Reg.QMGR.NO_SYSQ (s.drop f))) ∧
  (∀ (q : Fin 393216) (cy : Bool) (f : Frame) s, s.firstAt (.toQ q) = some f → s.live qmgrPage = false →
     exec (.admission (some q) cy) s = .next (dropDisabled qmgrPage f s)) ∧
  (∀ (q : Fin 393216) (f : Frame) (g x : Nat) (js : List Nat) s w t, s.firstAt (.toQ q) = some f →
     (carriedBy s (queueReqr q)).isSome = false → s.live qmgrPage = true → isVoq q = true →
     bit (s.tab qmgrPage 2 (q.val / 8)) 31 = true → s.hb (.stuck (engineUnit q)) = false → s.live cellPage = true →
     f.pre = [] → deepEntry q (charge f) s = w → anyCarried w = false → admTest w q f = (g, x, none) →
     grantCells (queueReqr q) (ownerOf q) (g + x) w = (some js, t) →
     exec (.admission (some q) false) s = .next (enqueue q f js (takeCounts q g x t))) ∧
  (∀ (q : Fin 393216) (cy : Bool) (f : Frame) (g x : Nat) s w, s.firstAt (.toQ q) = some f →
     (carriedBy s (queueReqr q)).isSome = false → s.live qmgrPage = true → isVoq q = true →
     bit (s.tab qmgrPage 2 (q.val / 8)) 31 = true → s.hb (.stuck (engineUnit q)) = false → s.live cellPage = true →
     f.pre = [] → deepEntry q (charge f) s = w → (cy || anyCarried w) = true → admTest w q f = (g, x, none) →
     exec (.admission (some q) cy) s = .next ((takeCounts q g x w).moveFrame { f with q := q, carG := g, carE := x } (.carried q))) ∧
  (∀ (q : Fin 393216) (cy : Bool) (f : Frame) (g x : Nat) (y : Why) s w, s.firstAt (.toQ q) = some f →
     (carriedBy s (queueReqr q)).isSome = false → s.live qmgrPage = true → isVoq q = true →
     bit (s.tab qmgrPage 2 (q.val / 8)) 31 = true → s.hb (.stuck (engineUnit q)) = false → s.live cellPage = true →
     deepEntry q (charge f) s = w → admTest w q f = (g, x, some y) →
     exec (.admission (some q) cy) s = .next (refuse q f g x y w)) ∧
  (∀ (q g x : Nat) (f : Frame) (y : Why) s, y ≠ .stage → pushNeed s q f g x y = none → f.ring = 0 →
     refuse q f g x y s = queueLeft q ((fsCount (dropPair q) f.len (bump y.counter (bump (Reg.CELL.DROP_PART (partOf s q)) s))).drop f)) ∧
  (∀ (f : Frame),
     charge f = if f.full then max 1 ((f.len + 255) / 256) else 1) ∧
  (∀ (q : Nat) (f : Frame) s, s.h (.qstate q) ≠ 1 → fld (admW s q 4) 0 28 = 0 →
     ((admTest s q f).2.2 = none ↔ charge f - minPart s q (charge f) = 0 ∨
       ((charge f - minPart s q (charge f) : Nat) : Int) ≤ partFree s (partOf s q) ∧
         s.hn (.sq q) + (charge f - minPart s q (charge f)) ≤ alphaOf s q f.colour (partFree s (partOf s q)).toNat)) ∧
  (∀ (q : Option (Fin 393216)) (carry : Bool) s,
     exec (.admission q carry) s = .next (match q with | some q => (match s.firstAt (.toQ q) with | some f => offerTo carry q f s | none => s) | none => (match (s.allAt .toHost).find? (·.full) with | some f => puntAdmit f s | none => s)))

/-- Push-out, carried requests, later cells of a frame, and punted frames. An eviction takes frames from the tail of the
victim up to one that is not eligible or would exceed 64 cells. A frame evicted is counted with its cells and leaves
its queue. With no carried request BUFFER_GRANT does nothing; else it serves a waiting requester, from the one after
the last granted on, with a buffer for its oldest frame. A frame that has all its buffers joins its queue, and else
waits on. With no buffer granted it frees those it has and is refused for lack of buffer. A frame that lacks a cell
waits for the requests ahead of it; beyond the headroom of its partition it is truncated. While CELL is disabled it is
truncated, with code 0x08. Within it, a frame in a shallow queue takes the cell granted, counted as shared, and its
bytes so far are charged. With no frame that lacks a cell nothing happens. A punted frame whose reason has no ring is
dropped and counted in PUNT_UNMAPPED, and the first one raises the event. It asks for the smallest host buffer that
holds it and its metadata: of 256, 2,048, 10,240 or 65,536 bytes. In every state TAIL_CELL_ARRIVAL completes, with the
effect stated. (R319, R320, R321, R329, R331, R332, R507) -/
def Obligations.PushOutAndTails : Prop :=
  (∀ (t : Nat) (f : Frame) (fs : List Frame),
     evictList t (f :: fs) = (if evictable f ∧ t + f.cells.length ≤ 64 then
       f :: evictList (t + f.cells.length) fs else [])) ∧
  (∀ (q id : Nat) (f : Frame) s, s.frame id = some f →
     evict q id s = queueLeft q (fsCount (dropPair q) f.heldLen
       ((bumpBy Reg.CELL.PO_CELLS f.cells.length (bump Reg.CELL.PO_FRAMES s)).drop f))) ∧
  (∀ s,
     exec .bufferGrant s = .next (match firstFrom (s.hn (.poolTurn 0)) (carriers s) with
       | some rq => carryServe rq s
       | none => s)) ∧
  (∀ (rq q j : Nat) (f : Frame) s t, carriedBy s rq = some f → f.loc = .carried q →
     grantBuf rq 0 (ownerOf q) s = (some j, t) →
     carryServe rq s = (
       let f := { f with pre := f.pre ++ [j] }
       if f.carG + f.carE ≤ f.pre.length then carryDone q f (t.putFrame f) else t.putFrame f)) ∧
  (∀ (rq q : Nat) (f : Frame) s t, carriedBy s rq = some f → f.loc = .carried q →
     grantBuf rq 0 (ownerOf q) s = (none, t) →
     carryServe rq s = refuse q { f with carG := 0, carE := 0, pre := [] } f.carG f.carE .nobuf
       ((forEach f.pre (uncharge f t) fun j s => agentFree 0 j (ownerOf q) s).putFrame { f with carG := 0, carE := 0, pre := [] })) ∧
  (∀ (q : Fin 393216) (ue : Bool) (f0 f : Frame) s w, (s.frames.find? fun f => f.q == q.val && lacksCell f) = some f0 →
     s.live cellPage = true → serveAhead (queueReqr q) s = w →
     (w.frames.find? fun f => f.q == q.val && lacksCell f) = some f →
     w.reg (Reg.CELL.PART_SHARED (partOf w q)) + w.reg (Reg.CELL.PART_HEAD (partOf w q)) ≤ w.reg (Reg.CELL.PART_SH (partOf w q)) →
     exec (.tailCellArrival q ue) s = .next (truncate q f w)) ∧
  (∀ (q : Fin 393216) (ue : Bool) (f : Frame) s, (s.frames.find? fun f => f.q == q.val && lacksCell f) = some f →
     s.live cellPage = false → s.clocked cellPage = true →
     exec (.tailCellArrival q ue) s = .next (truncate q f (errDisabled cellPage s))) ∧
  (∀ (q : Fin 393216) (ue : Bool) (f0 f : Frame) (j : Nat) s w t,
     (s.frames.find? fun f => f.q == q.val && lacksCell f) = some f0 → s.live cellPage = true →
     serveAhead (queueReqr q) s = w → (w.frames.find? fun f => f.q == q.val && lacksCell f) = some f →
     w.reg (Reg.CELL.PART_SH (partOf w q)) < w.reg (Reg.CELL.PART_SHARED (partOf w q)) + w.reg (Reg.CELL.PART_HEAD (partOf w q)) →
     grantBuf (queueReqr q) 0 (ownerOf q) w = (some j, t) → f.loc = .queued q → t.h (.qstate q) = 0 →
     exec (.tailCellArrival q ue) s = .next (queueLeft q (grown f.id
       ((takeCounts q 0 1 t).putFrame { f with cells := f.cells ++ [⟨.head, j⟩], ncell := f.ncell + 1 })))) ∧
  (∀ (q : Fin 393216) (ue : Bool) s, (s.frames.find? fun f => f.q == q.val && lacksCell f) = none →
     exec (.tailCellArrival q ue) s = .next s) ∧
  (∀ (cy : Bool) (f : Frame) s, (s.allAt .toHost).find? (·.full) = some f → s.live hostPage = true →
     puntRing s f = none →
     exec (.admission none cy) s = .next (raiseFirst hostPage 5 (bump Reg.HOST.PUNT_UNMAPPED (s.drop f)))) ∧
  (∀ (cy : Bool) (f : Frame) s, (s.allAt .toHost).find? (·.full) = some f → s.live hostPage = true →
     puntRing s f ≠ none → 32 + f.bytes.length ≤ 256 →
     exec (.admission none cy) s = .next (puntAsk f 4 2 s)) ∧
  (∀ (q : Fin 393216) (ue : Bool) s,
     exec (.tailCellArrival q ue) s = .next (match s.frames.find? fun f => f.q == q.val && lacksCell f with | some f => if s.live cellPage then tailNext q ue (serveAhead (queueReqr q) s) else if s.clocked cellPage then truncate q f (errDisabled cellPage s) else truncate q f s | none => s))

/-- Grants, frees and queries of the pools, and the carve of the host pools. A grant marks the buffer with its owner and
takes one from the free count; its cells' error marks cleared; here from a pool other than D. An empty pool answers
with no buffer, and the response is counted. Pool C grants the first free cell of the lowest-numbered sub-pool that
has one. A free passes its checks in order: range, alignment, held, owner. A free that passes returns the buffer. One
that fails is counted, captured with code 0x0F plus its reason, and raises FREE_ERR. BUFFER_FREE shows an agent's
pointer to these checks. FREE of a buffer that software holds returns it. A free that fails a check is refused with
code 0x0F plus the reason. ALLOC of a buffer of the deep pool answers its number. ALLOC from an empty pool is refused
with code 0x14. QUERY of a pointer in range and aligned answers whether it is free, and its owner. HP_COUNT of an
enabled BPM refuses a write with code 0x15. With BPM disabled, no buffer of pool C or of a host pool held and the
cells a whole number of 16 within the store, the pools are carved anew from the top of the store. With a ready window
ALLOC, FREE, QUERY have the effects and answers of bpmTable. Admitted, HP_COUNT_WRITE has the effect stated. (R313,
R314, R316, R317, R320, R322, R323, R324, R352, R353) -/
def Obligations.BufferPools : Prop :=
  (∀ (rq i o j : Nat) s, s.live bpmPage = true → pickBuf s i = some j → i ≠ 1 →
     grantBuf rq i o s = (some j,
       let w := cellWipe i j (s.setH (.poolTurn i) (rq + 1 : Nat))
       setFreeCnt i (w.reg (Reg.BPM.FREE_CNT i) - 1) (setOwner i j o w))) ∧
  (∀ (rq i o : Nat) s, s.live bpmPage = true → pickBuf s i = none →
     grantBuf rq i o s = (none, bump (Reg.BPM.EMPTY_RESP i) s)) ∧
  (∀ s,
     pickBuf s 0 = ((List.range 16).map fun k => firstGap 16 k ((heldBufs s 0).filter fun j => j % 16 == k)).find?
       fun j => j < s.reg Reg.BPM.C_LIMIT) ∧
  (∀ (i p ag : Nat) s, i < 2 →
     freeCheck s i p ag = (if poolSize s i ≤ p then 1 else if bufOwner s i p = 0 then 3 else if bufOwner s i p ≠ ag then 4 else 0)) ∧
  (∀ (i p ag q : Nat) s, freeCheck s i p ag = 0 →
     freeBuf i p ag q s = (0, releaseBuf i (bufNo s i p) s)) ∧
  (∀ (i p ag q : Nat) s, freeCheck s i p ag ≠ 0 →
     freeBuf i p ag q s = (freeCheck s i p ag, freeReject (freeCheck s i p ag) i p ag q s)) ∧
  (∀ (ag : Fin 4) (i : Fin 6) (p : BitVec 28) s, s.clocked bpmPage = true →
     exec (.bufferFree ag i p) s = .next (freeBuf i p.toNat (ag + 1) 5 s).2) ∧
  (∀ r (i : Nat) s w, TableReady s r bpmPage → firstWrite r s = w → selOf s r bpmPage = i + 1 → i < 6 →
     freeCheck w i (word (winData s r bpmPage) 0) 5 = 0 →
     exec (.free r) s = .next (tableEnd r bpmPage 0 none (releaseBuf i (bufNo w i (word (winData s r bpmPage) 0)) w))) ∧
  (∀ r (i k : Nat) s w, TableReady s r bpmPage → firstWrite r s = w → selOf s r bpmPage = i + 1 → i < 6 →
     freeCheck w i (word (winData s r bpmPage) 0) 5 = k + 1 →
     exec (.free r) s = .next (tableEnd r bpmPage (0x10 + k) none (freeReject (k + 1) i (word (winData s r bpmPage) 0) 5 (reqNo r) w))) ∧
  (∀ r (j : Nat) s w t, TableReady s r bpmPage → firstWrite r s = w → selOf s r bpmPage = 1 + 1 →
     grantBuf 1 1 5 w = (some j, t) →
     exec (.alloc r) s = .next (tableEnd r bpmPage 0 (some (setWord (winData s r bpmPage) 0 j)) t)) ∧
  (∀ r (i : Nat) s w t, TableReady s r bpmPage → firstWrite r s = w → selOf s r bpmPage = i + 1 → i < 6 →
     (if i = 0 then grantBuf softReqr 0 5 (serveAhead softReqr w) else grantBuf 1 i 5 w) = (none, t) →
     exec (.alloc r) s = .next (tableEnd r bpmPage 0x14 none (errBy bpmPage 0x14 (reqNo r) (i + 1) 0 t))) ∧
  (∀ r (i : Nat) s w, TableReady s r bpmPage → firstWrite r s = w → selOf s r bpmPage = i + 1 → i < 6 →
     freeCheck w i (word (winData s r bpmPage) 0) 5 ≠ 1 → freeCheck w i (word (winData s r bpmPage) 0) 5 ≠ 2 →
     exec (.query r) s = .next (tableEnd r bpmPage 0 (some (setWord (winData s r bpmPage) 1
       (ofB (bufOwner w i (bufNo w i (word (winData s r bpmPage) 0)) == 0) * 16 + bufOwner w i (bufNo w i (word (winData s r bpmPage) 0))))) w)) ∧
  (∀ r (h : Fin 4) (v : W32) s w, Admits s r (Reg.BPM.HP_COUNT h) → firstWrite r s = w →
     w.rbit (Reg.BLK_CTL bpmPage) 0 = true →
     exec (.hpCountWrite r h v) s = .next (errReq bpmPage 0x15 r (Reg.BPM.HP_COUNT h) v.toNat w)) ∧
  (∀ r (h : Fin 4) (v : W32) s w, Admits s r (Reg.BPM.HP_COUNT h) → firstWrite r s = w →
     w.rbit (Reg.BLK_CTL bpmPage) 0 = false → hostCells w h (v.toNat % 2 ^ 16) % 16 = 0 →
     hostCells w h (v.toNat % 2 ^ 16) ≤ 524288 → (w.bufs.any fun e => e.1 / 2 ^ 32 != 1) = false →
     ∃ t, exec (.hpCountWrite r h v) s = .next t ∧ t.mem = s.mem ∧ t.frames = w.frames ∧
       t = ((List.range 4).foldl (fun (a : Nat × State) k =>
         let n := a.2.reg (Reg.BPM.HP_COUNT k)
         (a.1 + n * poolCells (k + 2), (a.2.setReg (Reg.BPM.HP_BASE k) (a.1 % 2 ^ 20)).setReg (Reg.BPM.FREE_CNT (k + 2)) n))
         (524288 - hostCells w h (v.toNat % 2 ^ 16), setFreeCnt 0 (524288 - hostCells w h (v.toNat % 2 ^ 16))
           ((w.setReg (Reg.BPM.HP_COUNT h) (v.toNat % 2 ^ 16)).setReg Reg.BPM.C_LIMIT
             (524288 - hostCells w h (v.toNat % 2 ^ 16))))).2) ∧
  (∀ r s, TableReady s r bpmPage →
     exec (.alloc r) s = .next (tableEnd r bpmPage (bpmTable 0x10 (winOf s r bpmPage) (firstWrite r s)).2.1
       (bpmTable 0x10 (winOf s r bpmPage) (firstWrite r s)).2.2 (bpmTable 0x10 (winOf s r bpmPage) (firstWrite r s)).1)) ∧
  (∀ r s, TableReady s r bpmPage →
     exec (.free r) s = .next (tableEnd r bpmPage (bpmTable 0x11 (winOf s r bpmPage) (firstWrite r s)).2.1
       (bpmTable 0x11 (winOf s r bpmPage) (firstWrite r s)).2.2 (bpmTable 0x11 (winOf s r bpmPage) (firstWrite r s)).1)) ∧
  (∀ r s, TableReady s r bpmPage →
     exec (.query r) s = .next (tableEnd r bpmPage (bpmTable 0x12 (winOf s r bpmPage) (firstWrite r s)).2.1
       (bpmTable 0x12 (winOf s r bpmPage) (firstWrite r s)).2.2 (bpmTable 0x12 (winOf s r bpmPage) (firstWrite r s)).1)) ∧
  (∀ r (h : Fin 4) (v : W32) s, Admits s r (Reg.BPM.HP_COUNT h) →
     exec (.hpCountWrite r h v) s = .next (hpCount r h v.toNat (firstWrite r s)))

/-- The spill writer, the return engine and the age sweep. With fewer than 32 cells staged, at DEEP_MAX, or for a queue
that is not DEEP, no page is written. Otherwise the oldest 32 staged cells are handed to the page granted, belong to
the spill writer, and the 16 writes of the page are asked of its channel. With no page free the cells stay staged. A
staged cell read with an uncorrectable error discards its frame whole, or ends it there once started. With no page
being written for the queue PAGE_WRITE_DONE does nothing. While a write of the page is left it does nothing. The cells
of the page whose write completes are freed and the write counted; the page is the last deep page of its queue, or is
freed where no frame uses it any more. The return engine requests nothing while the queue is shallow, its head segment
is long enough, or PREFETCH pages are ahead. Otherwise it requests the next deep page of the queue: 16 reads of its
channel. A page asked for waits while a read of it is left. A page with an uncorrectable read is lost: every frame
with a cell in it is discarded whole and counted, or ended there once started. One whose reads all end well enters
return buffers. A frame older than AGE_LIMIT is aged: counted, discarded whole, with its event at the first. A pass of
the age sweep visits the queues in order, 12 root-PLL cycles per queue number from its start, which comes 1 ms after
the last, and lasts 393,216 of them; with no queue holding a frame it only takes this time. An AGE_LIMIT of 0 or above
2,000,000 is refused with code 0x10. What follows each change of AGE_LIMIT. Any other is stored, and a frame in flight
keeps the greater of its limits; a running drain takes the greatest. In live blocks, SPILL_PAGE_WRITE,
PAGE_WRITE_DONE, RETURN_PREFETCH, PAGE_RETURNED and AGE_SWEEP_PASS have the effects stated. Admitted, AGE_LIMIT_WRITE
has the effect stated. (R312, R335, R337, R339, R341, R342, R343, R344, R345, R348) -/
def Obligations.SpillAndReturn : Prop :=
  (∀ (q : Fin 393216) s,
     s.h (.qstate q) ≠ 1 ∨ ((queueCells s q).filter CellRef.atStage).length < 32 ∨ atDeepMax s q = true →
     exec (.spillPageWrite q false) s = .next s) ∧
  (∀ (q : Fin 393216) (pg : Nat) s t, s.live spillPage = true → s.h (.qstate q) = 1 →
     32 ≤ ((queueCells s q).filter CellRef.atStage).length → atDeepMax s q = false →
     grantBuf blockReqr 1 spillOwner s = (some pg, t) →
     exec (.spillPageWrite q false) s = .next (
       let w := markQueue q CellRef.atStage (fun c => { c with part := .handed pg }) 32 t
       let cells := ((queueCells w q).filter fun c => decide (c.part = .handed pg)).map (·.ptr)
       let tag := w.hn .dramTag + 1
       pageAsk 0 true pg tag (forEach cells { w.setH .dramTag (tag : Nat) with pageWrites := w.pageWrites ++ [{ queue := q, page := pg, cells := cells, tag := tag }] }
         fun j s => setOwner 0 j spillOwner s))) ∧
  (∀ (q : Fin 393216) s t, s.live spillPage = true → s.h (.qstate q) = 1 →
     32 ≤ ((queueCells s q).filter CellRef.atStage).length → atDeepMax s q = false →
     grantBuf blockReqr 1 spillOwner s = (none, t) →
     exec (.spillPageWrite q false) s = .next t) ∧
  (∀ (q : Fin 393216) (f : Frame) s, s.live spillPage = true →
     ((s.allAt (.queued q)).find? fun f => f.cells.any CellRef.atStage) = some f →
     exec (.spillPageWrite q true) s = .next (queueLeft q (cellUe spillPage q (f.ncell - f.cells.length + (f.cells.takeWhile (!CellRef.atStage ·)).length) f.id f.started s))) ∧
  (∀ (q : Fin 393216) s, (s.pageWrites.find? fun w => w.queue == q.val) = none →
     exec (.pageWriteDone q) s = .next s) ∧
  (∀ (q : Fin 393216) (w : PageWrite) s, (s.pageWrites.find? fun w => w.queue == q.val) = some w → w.left ≠ 0 →
     exec (.pageWriteDone q) s = .next s) ∧
  (∀ (q : Fin 393216) (w : PageWrite) s, s.live spillPage = true →
     (s.pageWrites.find? fun w => w.queue == q.val) = some w → w.left = 0 →
     exec (.pageWriteDone q) s = .next (
       let t := { s with pageWrites := s.pageWrites.filter fun x => decide (x ≠ w) }
       let t := forEach w.cells t fun j s => freeCount q (agentFree 0 j spillOwner s)
       let t := t.setReg Reg.SPILL.STAGE_USED (t.reg Reg.SPILL.STAGE_USED - w.cells.length)
       queueLeft q (bump Reg.SPILL.PAGES_WR (
         if (queueCells t q).any fun c => decide (c.part = .handed w.page) then
           reparts q (fun c => decide (c.part = .handed w.page)) (fun _ => { part := .deep w.page, ptr := 0 })
             (t.setReg Reg.SPILL.PAGES_HELD (t.reg Reg.SPILL.PAGES_HELD + 1))
         else agentFree 1 w.page spillOwner t)))) ∧
  (∀ (q : Fin 393216) s,
     s.h (.qstate q) = 0 ∨ 32 * fld (admW s q 6) 16 6 < ((queueCells s q).filter CellRef.inHead).length ∨ fld (admW s q 6) 16 6 ≤ pagesAhead s q →
     exec (.returnPrefetch q) s = .next s) ∧
  (∀ (q : Fin 393216) (pg : Nat) s, s.live spillPage = true → s.h (.qstate q) ≠ 0 →
     ((queueCells s q).filter CellRef.inHead).length ≤ 32 * fld (admW s q 6) 16 6 →
     pagesAhead s q < fld (admW s q 6) 16 6 → (queueCells s q).findSome? CellRef.deepPage = some pg →
     exec (.returnPrefetch q) s = .next (
       let tag := s.hn .dramTag + 1
       let w := reparts q (fun c => decide (c.part = .deep pg)) (fun c => { c with part := .asked pg }) (s.setH .dramTag (tag : Nat))
       pageAsk 1 false pg tag { w with pageReads := w.pageReads ++ [{ tag := tag, page := pg }] })) ∧
  (∀ (q : Fin 393216) (pg : Nat) (x : PageRead) s, (queueCells s q).findSome? CellRef.askedPage = some pg →
     s.pageReads.find? (·.page == pg) = some x → x.left ≠ 0 →
     exec (.pageReturned q) s = .next s) ∧
  (∀ (q : Fin 393216) (pg : Nat) (x : PageRead) s, s.live spillPage = true →
     (queueCells s q).findSome? CellRef.askedPage = some pg → s.pageReads.find? (·.page == pg) = some x → x.left = 0 →
     x.ue = true →
     exec (.pageReturned q) s = .next (pageLost q pg s)) ∧
  (∀ (q : Fin 393216) (pg : Nat) (x : PageRead) s, s.live spillPage = true →
     (queueCells s q).findSome? CellRef.askedPage = some pg → s.pageReads.find? (·.page == pg) = some x → x.left = 0 →
     x.ue = false →
     exec (.pageReturned q) s = .next (pageReturn q pg s)) ∧
  (∀ (q base : Nat) (f : Frame) s, s.reg Reg.CELL.AGE_LIMIT * 16000 < ageOf s f →
     ageCheck q base f s = (true, voqEval q ((fsCount (dropPair q) f.heldLen (raiseFirst cellPage 0 (bump base s))).drop f))) ∧
  (∀ s, s.live cellPage = true → usedQueues (nextInterval cellPage .sweepAt (cycUs 1000) s) = [] →
     exec .ageSweepPass s = .next (
       let u := nextInterval cellPage .sweepAt (cycUs 1000) s
       let w := waitRoot (u.root + 12 * 393216) u
       w.setReg Reg.CELL.SWEEP_MAX (max (w.reg Reg.CELL.SWEEP_MAX) 40960))) ∧
  (∀ r (v : W32) s w, Admits s r Reg.CELL.AGE_LIMIT → firstWrite r s = w →
     v.toNat % 2 ^ 21 = 0 ∨ 2000000 < v.toNat % 2 ^ 21 →
     exec (.ageLimitWrite r v) s = .next (errReq cellPage 0x10 r Reg.CELL.AGE_LIMIT v.toNat w)) ∧
  (∀ s,
     ageRaise s = (
       let n := s.reg Reg.CELL.AGE_LIMIT
       let t : State := { s with frames := s.frames.map fun f => { f with limit := max f.limit n } }
       if s.h .capoState = 2 ∨ s.h .capoState = 3 then t.setH .ageMax (max (s.h .ageMax) n) else t)) ∧
  (∀ r (v : W32) s w, Admits s r Reg.CELL.AGE_LIMIT → firstWrite r s = w → 1 ≤ v.toNat % 2 ^ 21 →
     v.toNat % 2 ^ 21 ≤ 2000000 →
     exec (.ageLimitWrite r v) s = .next (ageRaise (w.setReg Reg.CELL.AGE_LIMIT (v.toNat % 2 ^ 21)))) ∧
  (∀ (q : Fin 393216) (ue : Bool) s, s.live spillPage = true →
     exec (.spillPageWrite q ue) s = .next ((if ue then spillUe q else spillWrite q) s)) ∧
  (∀ (q : Fin 393216) s, s.live spillPage = true →
     exec (.pageWriteDone q) s = .next (pageWritten q s)) ∧
  (∀ (q : Fin 393216) s, s.live spillPage = true →
     exec (.returnPrefetch q) s = .next (prefetch q s)) ∧
  (∀ (q : Fin 393216) s, s.live spillPage = true →
     exec (.pageReturned q) s = .next (match (queueCells s q).findSome? CellRef.askedPage with | none => s | some pg => (match s.pageReads.find? (·.page == pg) with | none => s | some r => if r.left ≠ 0 then s else if r.ue then pageLost q pg s else pageReturn q pg s))) ∧
  (∀ s, s.live cellPage = true →
     exec .ageSweepPass s = .next (sweepPass s)) ∧
  (∀ r (v : W32) s, Admits s r Reg.CELL.AGE_LIMIT →
     exec (.ageLimitWrite r v) s = .next (ageLimit r v.toNat (firstWrite r s)))

/-- Request states, STATUS messages and credit flows. A VOQ in request repeats its STATUS, STATUS_IVL after its last. A
STATUS goes to the device of the destination, with the request state, is counted, and its time is kept; to an
unreachable destination none goes. Out of request it sends nothing. A VOQ enters request when its bytes exceed its
credit balance, or 0 if that is negative, and sends the change at once. A STATUS in request for a disabled egress
queue is counted in STATUS_BAD. One for an enabled queue opens a flow in the first free slot while the table has room.
One out of request ends its flow. A GRANT adds 8,192 bytes to the VOQ's balance, up to CB_MAX; what exceeds it counts
as wasted, at most the grant itself. A flow not refreshed for FLOW_TIMEOUT µs is removed and counted. A slot that
holds no flow times nothing out. In live blocks, STATUS_REPEAT and CREDIT_FLOW_TIMEOUT have the effects stated. (R363,
R365, R366, R369, R387, R388, R415) -/
def Obligations.CreditRequests : Prop :=
  (∀ (q : Fin 262144) s, s.live qmgrPage = true → s.hb (.inReq q) = true →
     exec (.statusRepeat q) s = .next (sendStatus q (waitSince qmgrPage (.statusAt q) (cycUs (s.reg Reg.QMGR.STATUS_IVL)) s))) ∧
  (∀ (q : Nat) s,
     sendStatus q s = (match voqReach s q with
       | some (d, e) => credSend d (statusMsg (s.hb (.inReq q)) q e) (bump Reg.QMGR.STATUS_TX (s.setH (.statusAt q) (s.root : Nat)))
       | none => s)) ∧
  (∀ (q : Fin 262144) s, s.hb (.inReq q) = false →
     exec (.statusRepeat q) s = .next s) ∧
  (∀ (q : Nat) s, q < egqBase → s.live qmgrPage = true → max (s.h (.cb q)) 0 < (backlogBytes s q : Int) →
     s.hb (.inReq q) = false →
     voqEval q s = sendStatus q (s.setHb (.inReq q) true)) ∧
  (∀ (x q e : Nat) (req : Bool) s, entEn s e = false →
     statusIn x q e req s = raiseFirst qmgrPage 1 (bump Reg.QMGR.STATUS_BAD s)) ∧
  (∀ (x q e : Nat) s, entEn s e = true → findFlow s x q = none → s.flows.length < s.reg Reg.QMGR.CFLOW_CAP →
     statusIn x q e true s = setFlows (insFlow ⟨firstGap 1 0 (s.flows.map (·.slot)), x, q, e, s.root⟩ s.flows) s) ∧
  (∀ (x q e : Nat) s, entEn s e = true →
     statusIn x q e false s = setFlows (s.flows.filter fun f => !(f.src == x && f.voq == q)) s) ∧
  (∀ (q : Nat) s, q < 262144 → bit (s.tab qmgrPage 2 (q / 8)) 31 = true →
     grantIn q s = (
       let w := bumpBy Reg.QMGR.CRED_WASTE (min 8192 (s.h (.cb q) + 8192 - (s.reg Reg.QMGR.CB_MAX : Int)).toNat) s
       voqEval q (w.setH (.cb q) (min (s.h (.cb q) + 8192) (s.reg Reg.QMGR.CB_MAX : Int))))) ∧
  (∀ (i : Fin 262144) (f : Flow) s, s.live qmgrPage = true → (s.flows.find? fun f => f.slot == i.val) = some f →
     exec (.creditFlowTimeout i) s = .next (
       let w := waitRoot (f.since + cycUs (s.reg Reg.QMGR.FLOW_TIMEOUT)) s
       setFlows (w.flows.filter fun g => g.slot != i.val) (bump Reg.QMGR.CFLOW_TIMEOUT w))) ∧
  (∀ (i : Fin 262144) s, (s.flows.find? fun f => f.slot == i.val) = none →
     exec (.creditFlowTimeout i) s = .next s) ∧
  (∀ (q : Fin 262144) s, s.live qmgrPage = true →
     exec (.statusRepeat q) s = .next (if s.hb (.inReq q) then sendStatus q (waitSince qmgrPage (.statusAt q) (cycUs (s.reg Reg.QMGR.STATUS_IVL)) s) else s)) ∧
  (∀ (i : Fin 262144) s, s.live qmgrPage = true →
     exec (.creditFlowTimeout i) s = .next (flowTimeout i s))

/-- The credit scheduler and the VOQ engines. A port that is not UP or does not transmit grants nothing. When the pacer
allows a grant and no queue of the port is credit-eligible, only its time has passed. Otherwise the port, L1, L2 and
L3 nodes and the queue chosen are charged 8,192 bytes, the next flow of the queue takes the grant, and it is sent. A
VOQ engine with no VOQ ready starts nothing; the VOQs that wait for the deep store are counted. It starts the head
frame of the VOQ that it picks. An uncorrectable error in its first cell discards it whole; one in a later cell ends
it there. A head frame that is not aged leaves its queue for the fabric: the bytes that it holds are taken from the
balance. On their conditions, VOQ_FRAME_START and CREDIT_PACER_GRANT have the effects stated. (R312, R339, R343, R363,
R364, R366, R367, R368) -/
def Obligations.CreditGrantsAndVoqs : Prop :=
  (∀ (p : Fin 128) s, linkState s p ≠ 5 ∨ s.rbit (Reg.LPORT.MAC_CFG p) 16 = false →
     exec (.creditPacerGrant p) s = .next s) ∧
  (∀ (p : Fin 128) s w, s.live schedPage = true → s.live qmgrPage = true → linkState s p = 5 →
     s.rbit (Reg.LPORT.MAC_CFG p) 16 = true → pacerWait p s = w → -(8192 * 65536 : Int) ≤ w.h (.pacer p) →
     credQueues w p = [] →
     exec (.creditPacerGrant p) s = .next w) ∧
  (∀ (p i e : Nat) (hops : List Hop) (f : Flow) s,
     descend s (fun n kids => (pickPass s 2 n kids).map fun x => (2, x.1, x.2)) 4 (port0 + p) (levels s (fun _ => true) (credQueues s p)) = some hops →
     hops.getLast?.map (·.2.2.1) = some e →
     firstFrom (s.hn (.flowPtr e)) ((s.flows.filter fun f => f.e == e).map (·.slot)) = some i →
     (s.flows.find? fun f => f.slot == i) = some f →
     credGrant p s = (
       let elig := (levels s (fun _ => true) (credQueues s p)).flatten
       let w := forEach hops s fun h s => chargeChild h.2.1 h.1 h.2.2.1 h.2.2.2 8192 (chosen h.2.1 h.1 h.2.2.1 h.2.2.2 elig.contains s)
       let w := w.setH (.flowPtr e) (i + 1 : Nat)
       let w := w.setH (.pacer p) (w.h (.pacer p) - 8192 * 65536)
       credSend f.src (grantMsg f.voq e) (bump Reg.QMGR.GRANT_TX (bump (Reg.SCHED.GRANTS p) w)))) ∧
  (∀ (e : Fin 10) (ue : Option (Fin 64)) s w, s.live qmgrPage = true → s.live cellPage = true →
     s.hb (.stuck (16 + e)) = false → retStall (fun q => isVoq q && q % 10 == e.val) s = w → voqPick w e = none →
     exec (.voqFrameStart e ue) s = .next w) ∧
  (∀ (e : Fin 10) (q : Nat) (f : Frame) s w, s.live qmgrPage = true → s.live cellPage = true →
     s.hb (.stuck (16 + e)) = false → retStall (fun q => isVoq q && q % 10 == e.val) s = w → voqPick w e = some q →
     w.firstAt (.queued q) = some f →
     exec (.voqFrameStart e none) s = .next (voqStart q f w)) ∧
  (∀ (e : Fin 10) (q : Nat) (k : Fin 64) (f : Frame) s w, s.live qmgrPage = true → s.live cellPage = true →
     s.hb (.stuck (16 + e)) = false → retStall (fun q => isVoq q && q % 10 == e.val) s = w → voqPick w e = some q →
     w.firstAt (.queued q) = some f → k.val < f.ncell →
     exec (.voqFrameStart e (some k)) s = .next (if k = 0 then queueLeft q (cellUe qmgrPage q 0 f.id false w)
       else queueLeft q (cellUe qmgrPage q k f.id true (voqStart q f w)))) ∧
  (∀ (q d e : Nat) (f : Frame) s, agedBy s q f = 0 → voqDest s q = some (d, e) → f.bad = false →
     voqStart q f s = (
       let w := s.setH (.voqPtr (q % 10) (queueClass s q)) (q + 1 : Nat)
       let w := pfeSent f (bump Reg.QMGR.DEQ_VOQ (w.setH (.cb q) (w.h (.cb q) - f.heldLen)))
       queueLeft q (leaveQueue q { f with ctx := 8 * d + queueClass w q + 1, dq := e, sent := 0, paid := f.heldLen, started := true } w))) ∧
  (∀ (e : Fin 10) (ue : Option (Fin 64)) s, s.live qmgrPage = true → s.live cellPage = true →
     s.hb (.stuck (16 + e)) = false →
     exec (.voqFrameStart e ue) s = .next (voqServe e ue (retStall (fun q => isVoq q && q % 10 == e) s))) ∧
  (∀ (p : Fin 128) s, s.live schedPage = true → s.live qmgrPage = true → linkState s p = 5 →
     s.rbit (Reg.LPORT.MAC_CFG p) 16 = true →
     exec (.creditPacerGrant p) s = .next (let s := pacerWait p s; if s.h (.pacer p) < -(8192 * 65536 : Int) then s else credGrant p s))

/-- Selections of the egress hierarchy, charges, shapers and the Fretboard. With no eligible port a selection only counts
the queues that wait for the deep store. The selection charges the nodes on its path and the queue with the bytes that
the frame holds, charges the shapers, and the frame leaves its queue. A child's deficit falls by the bytes sent
through it; at 0 or less it gains its quantum and the pointer passes it. Above 0 the child keeps its turn. A shaper
bucket refills at its rate, rounded down, to at most its burst. A frame charges both enabled buckets of an entity with
its length plus the overhead, at least 1 byte, and the entity is filed again. FRET_RELEASE of an entity that is not
filed does nothing. At its due time a filed entity's levels are brought up to date and it is filed again or released;
here it is not late. More than one fret late it is counted in FRET_LATE, with the event at the first. The coarse wheel
advances at its boundary; with nothing filed on it only the time passes. An entry of its fret moves to the fine wheel.
The scan of the far list moves an entry due within the next revolution of the coarse wheel to it, and leaves any
other. With nothing on it the scan changes nothing. A frame selected leaves its queue with the cells at hand, is
counted, and takes its launch time, its path and its port with it. In live blocks, SCHED_SELECTION, FRET_RELEASE,
COARSE_FRET_ADVANCE and FAR_LIST_SCAN have the effects stated. (R339, R370, R371, R373, R374, R376, R377, R378, R379,
R380) -/
def Obligations.SchedulerAndShapers : Prop :=
  (∀ (full : BitVec 136) (ue : Option (Fin 64)) s w, s.live schedPage = true → s.live qmgrPage = true →
     s.live cellPage = true → retStall (fun q => decide (egqBase ≤ q)) s = w → selection w full.toNat = none →
     exec (.schedSelection full ue) s = .next w) ∧
  (∀ (full : BitVec 136) (p e : Nat) (hops : List Hop) (f : Frame) s w, s.live schedPage = true →
     s.live qmgrPage = true → s.live cellPage = true → retStall (fun q => decide (egqBase ≤ q)) s = w →
     selection w full.toNat = some (p, hops) → hops.getLast?.map (·.2.2.1) = some e →
     w.firstAt (.queued (egqBase + e)) = some f → agedBy w (egqBase + e) f = 0 →
     exec (.schedSelection full none) s = .next (
       let elig := (levels w (fun i => entEn w i && permits w i) (eligQueues w)).flatten
       let t := w.setH .portPtr (p + 1 : Nat)
       let u := forEach hops t fun h s => chargeChild h.2.1 h.1 h.2.2.1 h.2.2.2 f.heldLen
         (chosen h.2.1 h.1 h.2.2.1 h.2.2.2 (fun i => elig.contains i && (h.2.1 == 1 || committed s i)) s)
       dequeued p e (hops.map (hopStep t f.heldLen)) f (forEach (pathOf t e) u fun i u => shpCharge f.heldLen i u))) ∧
  (∀ (x n c k len : Nat) s, deficit s x c - (len : Int) ≤ 0 →
     chargeChild x n c k len s = ((s.setH (.dwrr x c) (deficit s x c - (len : Int) + quantum s c - 64)).setH (.ptr x n k) (c + 1 : Nat))) ∧
  (∀ (x n c k len : Nat) s, 0 < deficit s x c - (len : Int) →
     chargeChild x n c k len s = s.setH (.dwrr x c) (deficit s x c - (len : Int) - 64)) ∧
  (∀ (i : Nat) s, bktEn s false i = true → bktRate s false i ≠ 0 → s.h (.shpC i) ≤ (bktBurst s false i * 65536 : Nat) →
     bktUpdate false i s = s.setH (.shpC i) (min (s.h (.shpC i) + (refill (bktRate s false i) (s.root - s.hn (.shpAt i)) : Nat))
       (bktBurst s false i * 65536 : Nat))) ∧
  (∀ (len i : Nat) s, shaping s = true → bktEn (shpUpdate i s) false i = true → bktEn s false i = true →
     bktEn s true i = false →
     bktEn ((shpUpdate i s).setH (.shpC i) ((shpUpdate i s).h (.shpC i) - max 1 ((len : Int) + sgn (shpW s i 0) 7) * 65536)) true i = false →
     shpCharge len i s = refile i ((shpUpdate i s).setH (.shpC i)
       ((shpUpdate i s).h (.shpC i) - max 1 ((len : Int) + sgn (shpW s i 0) 7) * 65536))) ∧
  (∀ (i : Fin 184456) s, s.hn (.fretDue i) = 0 →
     exec (.fretRelease i) s = .next s) ∧
  (∀ (i : Fin 184456) (due : Nat) s, s.live shapePage = true → s.hn (.fretDue i) = due + 1 →
     (waitRoot due s).root ≤ due + 72 →
     exec (.fretRelease i) s = .next (refile i (shpUpdate i (waitRoot due s)))) ∧
  (∀ (i : Fin 184456) (due : Nat) s, s.live shapePage = true → s.hn (.fretDue i) = due + 1 →
     due + 72 < (waitRoot due s).root →
     exec (.fretRelease i) s = .next (refile i (shpUpdate i (raiseFirst shapePage 0 (bump Reg.SHAPE.FRET_LATE (waitRoot due s)))))) ∧
  (∀ s, s.live shapePage = true → filedAt (waitRoot ((s.root / 73728 + 1) * 73728) s) 2 = [] →
     exec .coarseFretAdvance s = .next (waitRoot ((s.root / 73728 + 1) * 73728) s)) ∧
  (∀ (i : Nat) s w, s.live shapePage = true → waitRoot ((s.root / 73728 + 1) * 73728) s = w → filedAt w 2 = [i] →
     (w.hn (.fretDue i) - 1) / 73728 ≤ w.root / 73728 →
     exec .coarseFretAdvance s = .next (setFret i (w.hn (.fretDue i)) 1 w)) ∧
  (∀ (i : Nat) s, s.live shapePage = true → filedAt s 3 = [i] →
     exec .farListScan s = .next (if s.hn (.fretDue i) - 1 ≤ s.root + 4096 * 73728 then setFret i (s.hn (.fretDue i)) 2 s else s)) ∧
  (∀ s, filedAt s 3 = [] →
     exec .farListScan s = .next s) ∧
  (∀ (p e : Nat) (hops : List Step) (f : Frame) s, f.bad = false → p < 128 →
     dequeued p e hops f s = (
       let l := (queueLaunch s (egqBase + e) p f).map launchBits
       let u := fsCount (3145728 + e) f.heldLen (bumpBy (Reg.SCHED.DEQ_BYTES p) f.heldLen
         (bump (Reg.SCHED.DEQ_FRAMES p) (bump Reg.QMGR.DEQ_EGQ s)))
       let u := if l.isNone then pfeSent f u else u
       queueLeft (egqBase + e) (leaveQueue (egqBase + e)
         { f with outPort := p, launch := l, cut := f.cut || !f.whole, hops := hops, paid := f.heldLen, started := true } u))) ∧
  (∀ (full : BitVec 136) (ue : Option (Fin 64)) s, s.live schedPage = true → s.live qmgrPage = true →
     s.live cellPage = true →
     exec (.schedSelection full ue) s = .next (schedSelect full.toNat ue (retStall (fun q => egqBase ≤ q) s))) ∧
  (∀ (i : Fin 184456) s, s.live shapePage = true →
     exec (.fretRelease i) s = .next (fretRelease i s)) ∧
  (∀ s, s.live shapePage = true →
     exec .coarseFretAdvance s = .next (coarseAdvance s)) ∧
  (∀ s, s.live shapePage = true →
     exec .farListScan s = .next (farScan s))

/-- Fabric links, and the cells that they carry for themselves. LINK_CFG of a link may not be enabled while the FAB page
is unlocked: code 0x11. With FAB locked, enabling a disabled link moves it to SIGNAL and sends the first reachability
segment and a keepalive. A write that leaves the enable as it is stores the drain and the plane, the link is evaluated
again, and an enabled one sends a changed DRAIN. Disabling a link moves it to DISABLED. Signal takes a link in SIGNAL
to HUNT. Codeword lock takes a link in HUNT to PEER, where the reasons for HELD are evaluated. Loss of lock takes a
link in PEER, UP or HELD to HUNT. Loss of signal takes any state above SIGNAL to SIGNAL. In any other state each of
these events changes nothing. A valid FIRST of a control word ends the discarding of cells, an invalid one starts it;
the word sets the far RDI and LOC bits; two words in a row with RDI take a link in UP back to PEER. After UP_HOLD with
the conditions of UP held, PEER becomes UP. While they do not hold it stays in PEER. A window of codewords is counted;
more than DEG_THR uncorrectable ones start the DEGRADE hold. The lowest reason that holds is the one reported; a
drained link is held for reason 1. Admitted, FABRIC_LINK_ENABLE and LINK_DRAIN_WRITE have the effects stated. In every
state FABRIC_SIGNAL_DETECT, CODEWORD_LOCK, CODEWORD_LOCK_LOSS, FABRIC_SIGNAL_LOSS, CONTROL_WORD_RX and LINK_DEG_WINDOW
complete, with the effects stated. Every KA_IVL a keepalive that identifies the sender leaves on a link that is not
DISABLED. A keepalive carries the device, the link and its plane. Every REACH_IVL the next segment of the device's own
reachability leaves. On a DISABLED link nothing leaves. Four intervals without a keepalive start the KA hold with its
event. A good keepalive of version 1 stores the peer and ends the KA hold. A good reachability cell replaces its
segment; destinations that it adds send STATUS, and one that it takes away raises UNREACH. A cell with a byte in an
uncorrectable codeword, or with a wrong HCRC, is discarded and counted, and after a wrong HCRC the cells up to the
next valid FIRST are discarded. A segment not received for 8 × REACH_IVL is cleared, with what that takes away and
adds. KA_IVL refuses 0 with code 0x10. Any other value is stored, and a link whose cell is now overdue sends it at
once; here no link is enabled. In every state KA_LOSS, KEEPALIVE_TX, KEEPALIVE_RX, REACH_CELL_TX and REACH_CELL_RX
complete, with the effects stated. Admitted, KA_IVL_WRITE has the effect stated. (R397, R398, R399, R400, R422, R285,
R365, R407, R408, R409) -/
def Obligations.FabricLinksAndCells : Prop :=
  (∀ r (l : Fin 192) (v : W32) s w, Admits s r (linkCfgReg l) → firstWrite r s = w →
     bit (v.toNat &&& 0xC7000000) 31 = true → s.rbit (Reg.BLK_CTL fabPage) 2 = false →
     exec (.fabricLinkEnable r l v) s = .next (errReq (fgPage l) 0x11 r (linkCfgReg l) v.toNat w)) ∧
  (∀ r (l : Fin 192) (v : W32) s w, Admits s r (linkCfgReg l) → firstWrite r s = w →
     bit (v.toNat &&& 0xC7000000) 31 = true → s.rbit (Reg.BLK_CTL fabPage) 2 = true → s.rbit (linkCfgReg l) 31 = false →
     exec (.fabricLinkEnable r l v) s = .next (
       let u := keepaliveTx l (reachTx l ((txBegins l (flinkSet l 1 (w.setReg (linkCfgReg l) (v.toNat &&& 0xC7000000)))).setH (.reachSeg l) 0))
       linkEval l (if w.rbit (linkCfgReg l) 30 = bit (v.toNat &&& 0xC7000000) 30 then u else idleTx l u))) ∧
  (∀ r (l : Fin 192) (v : W32) s w, Admits s r (linkCfgReg l) → firstWrite r s = w →
     bit (v.toNat &&& 0xC7000000) 31 = s.rbit (linkCfgReg l) 31 →
     bit (v.toNat &&& 0xC7000000) 31 = false ∨ s.rbit (Reg.BLK_CTL fabPage) 2 = true →
     exec (.linkDrainWrite r l v) s = .next (
       let u := w.setReg (linkCfgReg l) (v.toNat &&& 0xC7000000)
       linkEval l (if bit (v.toNat &&& 0xC7000000) 31 = true ∧ w.rbit (linkCfgReg l) 30 ≠ bit (v.toNat &&& 0xC7000000) 30 then idleTx l u else u))) ∧
  (∀ r (l : Fin 192) (v : W32) s w, Admits s r (linkCfgReg l) → firstWrite r s = w →
     bit (v.toNat &&& 0xC7000000) 31 = false → s.rbit (linkCfgReg l) 31 = true →
     exec (.fabricLinkEnable r l v) s = .next (linkEval l (flinkSet l 0 (w.setReg (linkCfgReg l) (v.toNat &&& 0xC7000000))))) ∧
  (∀ (l : Fin 192) s, s.live (fgPage l) = true → flinkState s l = 1 →
     exec (.fabricSignalDetect l) s = .next (flinkSet l 2 s)) ∧
  (∀ (l : Fin 192) s, s.live (fgPage l) = true → flinkState s l = 2 →
     exec (.codewordLock l) s = .next (linkEval l (flinkSet l 3 s))) ∧
  (∀ (l : Fin 192) s, s.live (fgPage l) = true → flinkState s l = 3 ∨ flinkState s l = 4 ∨ flinkState s l = 5 →
     exec (.codewordLockLoss l) s = .next (flinkSet l 2 s)) ∧
  (∀ (l : Fin 192) s, s.live (fgPage l) = true →
     flinkState s l = 2 ∨ flinkState s l = 3 ∨ flinkState s l = 4 ∨ flinkState s l = 5 →
     exec (.fabricSignalLoss l) s = .next (flinkSet l 1 s)) ∧
  (∀ (l : Fin 192) s, flinkState s l = 0 →
     exec (.fabricSignalDetect l) s = .next s ∧ exec (.codewordLock l) s = .next s ∧
       exec (.codewordLockLoss l) s = .next s ∧ exec (.fabricSignalLoss l) s = .next s) ∧
  (∀ (l : Fin 192) (x : BitVec 20) s u w, s.live (fgPage l) = true →
     flinkState s l = 3 ∨ flinkState s l = 4 ∨ flinkState s l = 5 →
     (if fld x.toNat 14 6 < 40 then s.setHb (.lnkDisc l) false else if fld x.toNat 14 6 < 63 then s.setHb (.lnkDisc l) true else s) = u →
     (u.setRbit (linkStsReg l) 8 (bit x.toNat 13)).setRbit (linkStsReg l) 9 (bit x.toNat 12) = w →
     exec (.controlWordRx l x) s = .next (
       let n := if bit x.toNat 13 then w.hn (.rdiRun l) + 1 else 0
       let t := w.setH (.rdiRun l) (min n 2 : Nat)
       linkEval l (if flinkState t l = 4 ∧ 2 ≤ n then flinkSet l 3 t else t))) ∧
  (∀ (l : Fin 192) s, s.live (fgPage l) = true → peerClean s l = true → s.h (.peerAt l) ≠ 0 →
     exec (.fabricUpHoldExpire l) s = .next (flinkSet l 4
       (waitRoot (s.hn (.peerAt l) - 1 + cycUs (s.reg (Reg.FG.UP_HOLD (l / 32)))) s))) ∧
  (∀ (l : Fin 192) s, peerClean s l = false →
     exec (.fabricUpHoldExpire l) s = .next s) ∧
  (∀ (l : Fin 192) (a b c : W32) s w, s.live (fgPage l) = true → flinkState s l = 4 →
     bumpBy (Reg.FG.CW_CORR (l / 32) (l % 32)) a.toNat (bumpBy (Reg.FG.CW_UNCORR (l / 32) (l % 32)) b.toNat
       (bumpBy (Reg.FG.SYM_CORR (l / 32) (l % 32)) c.toNat (nextInterval (fgPage l) (.degAtL l) (cycUs 1000) s))) = w →
     b.toNat ≠ 0 → w.reg (Reg.FG.DEG_THR (l / 32)) < b.toNat →
     exec (.linkDegWindow l a b c) s = .next (linkEval l ((w.setH (.degClean l) 0).setHb (.degOn l) true))) ∧
  (∀ (l : Nat) s, s.rbit (linkCfgReg l) 30 = true →
     heldWhy s l = 1) ∧
  (∀ r (l : Fin 192) (v : W32) s, Admits s r (linkCfgReg l) →
     exec (.fabricLinkEnable r l v) s = .next (flinkCfg r l v.toNat (firstWrite r s))) ∧
  (∀ r (l : Fin 192) (v : W32) s, Admits s r (linkCfgReg l) →
     exec (.linkDrainWrite r l v) s = .next (flinkCfg r l v.toNat (firstWrite r s))) ∧
  (∀ (l : Fin 192) s,
     exec (.fabricSignalDetect l) s = .next (onLink l [1] (flinkSet l 2) s)) ∧
  (∀ (l : Fin 192) s,
     exec (.codewordLock l) s = .next (onLink l [2] (fun s => linkEval l (flinkSet l 3 s)) s)) ∧
  (∀ (l : Fin 192) s,
     exec (.codewordLockLoss l) s = .next (onLink l [3, 4, 5] (flinkSet l 2) s)) ∧
  (∀ (l : Fin 192) s,
     exec (.fabricSignalLoss l) s = .next (onLink l [2, 3, 4, 5] (flinkSet l 1) s)) ∧
  (∀ (l : Fin 192) (w : BitVec 20) s,
     exec (.controlWordRx l w) s = .next (onLink l [3, 4, 5] (controlWord l w.toNat) s)) ∧
  (∀ (l : Fin 192) (corr : W32) (uncorr : W32) (sym : W32) s,
     exec (.linkDegWindow l corr uncorr sym) s = .next (onLink l [2, 3, 4, 5] (fun s => degWindow l corr.toNat uncorr.toNat sym.toNat (nextInterval (fgPage l) (.degAtL l) (cycUs 1000) s)) s)) ∧
  (∀ (l : Fin 192) s, s.live (fgPage l) = true → flinkState s l = 4 →
     exec (.keepaliveTx l) s = .next (keepaliveTx l (waitRoot (s.hn (.kaTx l) + cycUs (s.reg Reg.FAB.KA_IVL)) s))) ∧
  (∀ (l : Nat) s,
     keepaliveTx l s = cellOut l 0 (cellHeader 6 0 0 0 0 0 3 0 0 0 0 ++ ([1, 0] ++ beBytes 2 (devId s) ++ beBytes 2 l ++
       beBytes 1 (s.rfld (linkCfgReg l) 24 3)) ++ List.replicate 57 0) (s.setH (.kaTx l) (s.root : Nat))) ∧
  (∀ (l : Fin 192) s, s.live (fgPage l) = true → flinkState s l = 4 →
     exec (.reachCellTx l) s = .next (reachTx l (waitRoot (s.hn (.reachTx l) + cycUs (s.reg Reg.FAB.REACH_IVL)) s))) ∧
  (∀ (l : Fin 192) s, flinkState s l = 0 →
     exec (.keepaliveTx l) s = .next s ∧ exec (.reachCellTx l) s = .next s) ∧
  (∀ (l : Fin 192) s w, s.live (fgPage l) = true → flinkState s l = 4 →
     waitRoot (s.hn (.kaRx l) + 4 * cycUs (s.reg Reg.FAB.KA_IVL)) s = w → w.hb (.kaLost l) = false →
     exec (.kaLoss l) s = .next (linkEval l (raise (fgPage l) 3 (w.setHb (.kaLost l) true)))) ∧
  (∀ (l : Fin 192) (x : List Byte) s w, s.live (fgPage l) = true → flinkState s l = 4 → s.hb (.lnkDisc l) = false →
     hcrcOk x = true → cellType x = 6 → bump (Reg.FG.CELLS_RX (l / 32) (l % 32)) s = w → cellLen x = 3 →
     byteAt (cellPayload x) 0 = 1 → byteAt (cellPayload x) 1 ≤ 1 →
     exec (.keepaliveRx l x false) s = .next (
       let p := cellPayload x
       let far := beAt p 4 2
       let v := byteAt p 1 * 2 ^ 31 + byteAt p 6 % 8 * 2 ^ 24 + (if far < 256 then far else 0) * 2 ^ 16 + beAt p 2 2
       let t := w.setReg (Reg.FG.PEER (l / 32) (l % 32)) v
       linkEval l (((t.setHb (.kaGood l) true).setHb (.kaLost l) false).setH (.kaRx l) (t.root : Nat)))) ∧
  (∀ (l : Fin 192) (x : List Byte) s w, s.live (fgPage l) = true → flinkState s l = 4 → s.hb (.lnkDisc l) = false →
     hcrcOk x = true → cellType x = 5 → bump (Reg.FG.CELLS_RX (l / 32) (l % 32)) s = w →
     exec (.reachCellRx l x false) s = .next (reachIn l x w)) ∧
  (∀ (l : Fin 192) (x : List Byte) (err : Bool) s, s.live (fgPage l) = true → flinkState s l = 4 →
     s.hb (.lnkDisc l) = false → err = true ∨ hcrcOk x = false →
     exec (.keepaliveRx l x err) s = .next (if err then bump (Reg.FG.CELL_ERR_DISC (l / 32) (l % 32)) s
       else (bump (Reg.FG.HCRC_ERR (l / 32) (l % 32)) s).setHb (.lnkDisc l) true)) ∧
  (∀ (l : Fin 192) (g : Fin 4) s, s.live fabPage = true → s.live (fgPage l) = true →
     exec (.reachSegmentTimeout l g) s = .next (withReach l
       (fun s => (s.setTab fabPage 3 (8 * l + 2 * g) 0).setTab fabPage 3 (8 * l + 2 * g + 1) 0)
       (waitSince fabPage (.reachAt (4 * l + g)) (8 * cycUs (s.reg Reg.FAB.REACH_IVL)) s))) ∧
  (∀ r (reach : Bool) (v : W32) s w, Admits s r (if reach then Reg.FAB.REACH_IVL else Reg.FAB.KA_IVL) →
     firstWrite r s = w → v.toNat % 256 = 0 →
     exec (.kaIvlWrite r reach v) s = .next (errReq fabPage 0x10 r (if reach then Reg.FAB.REACH_IVL else Reg.FAB.KA_IVL) v.toNat w)) ∧
  (∀ r (reach : Bool) (v : W32) s w, Admits s r (if reach then Reg.FAB.REACH_IVL else Reg.FAB.KA_IVL) →
     firstWrite r s = w → v.toNat % 256 ≠ 0 →
     activeLinks (w.setReg (if reach then Reg.FAB.REACH_IVL else Reg.FAB.KA_IVL) (v.toNat % 256)) = [] →
     exec (.kaIvlWrite r reach v) s = .next (w.setReg (if reach then Reg.FAB.REACH_IVL else Reg.FAB.KA_IVL) (v.toNat % 256))) ∧
  (∀ (l : Fin 192) s,
     exec (.kaLoss l) s = .next (onLink l [3, 4, 5] (kaLoss l) s)) ∧
  (∀ (l : Fin 192) s,
     exec (.keepaliveTx l) s = .next (onLink l [1, 2, 3, 4, 5] (fun s => keepaliveTx l (waitRoot (s.hn (.kaTx l) + cycUs (s.reg Reg.FAB.KA_IVL)) s)) s)) ∧
  (∀ (l : Fin 192) (x : List Byte) (err : Bool) s,
     exec (.keepaliveRx l x err) s = .next (onCell l x err s)) ∧
  (∀ (l : Fin 192) s,
     exec (.reachCellTx l) s = .next (onLink l [1, 2, 3, 4, 5] (fun s => reachTx l (waitRoot (s.hn (.reachTx l) + cycUs (s.reg Reg.FAB.REACH_IVL)) s)) s)) ∧
  (∀ (l : Fin 192) (x : List Byte) (err : Bool) s,
     exec (.reachCellRx l x err) s = .next (onCell l x err s)) ∧
  (∀ r (reach : Bool) (v : W32) s, Admits s r (if reach then Reg.FAB.REACH_IVL else Reg.FAB.KA_IVL) →
     exec (.kaIvlWrite r reach v) s = .next (ivlWrite r reach v.toNat (firstWrite r s)))

/-- Segmentation, the choice of the link, the quiet period, and credit cells. A context with no frame sends nothing, and
none sends before the quiet period ends. The first or next cell of a frame carries its header, context, sequence
number and the next 256 bytes; here it is not the last. A frame of at most 240 bytes of S is one cell of type 3 with
its trailer; a cell holds at least 64 bytes. To the device itself a cell takes the local path. To another it leaves on
the next link of the spray set after the one last used, in ascending order, whose transmit buffer holds LINK_FILL_MAX
cells at most; it waits for one. A cell joins the transmit buffer of its link and leaves at once where the line is
free. Of the cells that wait, link and credit cells leave ahead of data cells; on a link that is not UP only link
cells leave. A full body of 640 bytes leaves as a codeword, scrambled, behind its control word: FIRST, RDI and DRAIN.
A fill unit is 16 bytes: type 0xF, every other header bit 0, the header CRC valid. SEQ_QUIET_END: the quiet period
ends SEQ_QUIET ms after it started. SEQ_QUIET takes values up to 4,000 and refuses others with code 0x10. A credit
cell with no message waiting is not sent. Messages for an unreachable device are discarded and counted. A waiting
message for a reachable device leaves in a cell of type 4 and class 7, no later than CREDIT_HOLD after it was queued.
In live blocks, DATA_CELL_TX and CREDIT_CELL_TX have the effects stated. (R403, R404, R408, R409, R410, R415, R416) -/
def Obligations.CellTransmission : Prop :=
  (∀ (d : Fin 4096) (c : Fin 8) s, segFrame s (8 * d + c) = none ∨ s.root < quietEnd s →
     exec (.dataCellTx d c) s = .next s) ∧
  (∀ (d : Fin 4096) (c : Fin 8) (f : Frame) (pay x : List Byte) (n : Nat) s, s.live fabPage = true →
     segFrame s (8 * d + c) = some f → quietEnd s ≤ s.root → f.whole = true → f.bad = false →
     nextCell f = some (pay, n, false) →
     cellHeader (if f.sent = 0 then 0 else 1) d (devId s) c (f.parity.getD 0) (s.hn (.txSeq (8 * d + c)))
       (pay.length / 16 - 1) 0 (ofB (if f.sent = 0 then false else f.cut)) f.dq (f.birth / 16 % 2 ^ 32) ++ pay = x →
     (cellSend d 2 x s).isSome = true →
     exec (.dataCellTx d c) s = .next (
       let w := (cellSend d 2 x s).getD s
       (bump Reg.FAB.DATA_TX (w.setH (.txSeq (8 * d + c))
       ((w.hn (.txSeq (8 * d + c)) + 1) % 2 ^ 24 : Nat))).putFrame { f with
         sent := f.sent + n, started := true, cut := if f.sent = 0 then false else f.cut })) ∧
  (∀ (f : Frame), f.whole = true → f.sent = 0 → f.heldBytes.length ≤ 200 →
     ∃ pay, nextCell f = some (pay, 16 + f.heldBytes.length, true) ∧ 64 ≤ pay.length ∧ pay.length % 16 = 0 ∧
       pay.take (16 + f.heldBytes.length) = prefixOf f ++ f.heldBytes) ∧
  (∀ (d k : Nat) (x : List Byte) s, d = devId s →
     cellSend d k x s = some { s with localPath := s.localPath ++ [x] }) ∧
  (∀ (d k : Nat) (x : List Byte) s w, d ≠ devId s →
     fillWait d (((spraySet s d).map fun l => (txLink s l).wait.length).sum + 1) s = w →
     cellSend d k x s = (firstFrom (w.hn (.lastLink d)) ((spraySet w d).filter fun l => (txLink w l).wait.length ≤ w.reg Reg.FAB.LINK_FILL_MAX)).map
       fun l => cellOut l k x (w.setH (.lastLink d) (l + 1 : Nat))) ∧
  (∀ (l k : Nat) (x : List Byte) s,
     cellOut l k x s = (
       let w := pumpLink l s
       bump (Reg.FG.CELLS_TX (l / 32) (l % 32)) (pump l ((txLink w l).wait.length + 1) (putTx { txLink w l with wait := (txLink w l).wait ++ [(k, x)] } w)))) ∧
  (∀ (t : TxLink) s,
     nextWait s t = (
       let ok := t.wait.filter fun x => x.1 == 0 || flinkState s t.link == 4
       (ok.find? fun x => x.1 < 2).orElse fun _ => ok.head?)) ∧
  (∀ (l n : Nat) (x y : List Byte) s, (txLink s l).body = [] → (txLink s l).first = 63 → x.length = 640 →
     scramble (txLink s l).scr x = (y, n) →
     unitsTx l x s = putTx { txLink s l with next := (txLink s l).next + 46080, scr := n, first := 63, body := [] }
       (s.emit (.codeword l (0 * 2 ^ 14 + ofB (flinkState s l < 3) * 2 ^ 13 + ofB (s.rbit (linkCfgReg l) 30) * 2 ^ 12) y))) ∧
  (fillUnit = cellHeader 15 0 0 0 0 0 0 0 0 0 0) ∧
  (∀ s, s.live fabPage = true →
     exec .seqQuietEnd s = .next (waitRoot (s.hn .quietAt + 7200000 * s.reg Reg.FAB.SEQ_QUIET) s)) ∧
  (∀ r (v : W32) s w, Admits s r Reg.FAB.SEQ_QUIET → firstWrite r s = w →
     exec (.seqQuietWrite r v) s = .next (if 4000 < v.toNat % 4096 then errReq fabPage 0x10 r Reg.FAB.SEQ_QUIET v.toNat w
       else w.setReg Reg.FAB.SEQ_QUIET (v.toNat % 4096))) ∧
  (∀ (d : Fin 4096) s, s.credQ.filter (fun m => m.dest == d.val) = [] →
     exec (.creditCellTx d) s = .next s) ∧
  (∀ (d : Fin 4096) (m : CredMsg) s w, s.live qmgrPage = true → s.credQ.filter (fun m => m.dest == d.val) = [m] →
     waitRoot (m.since + cycNs (s.reg Reg.FAB.CREDIT_HOLD)) s = w → w.live fabPage = true → reachable w d = false →
     exec (.creditCellTx d) s = .next (bump Reg.FAB.CREDIT_UNREACH
       { w with credQ := w.credQ.filter fun m => m.dest != d.val })) ∧
  (∀ (d : Fin 4096) (m : CredMsg) s w, s.live qmgrPage = true → s.credQ.filter (fun m => m.dest == d.val) = [m] →
     waitRoot (m.since + cycNs (s.reg Reg.FAB.CREDIT_HOLD)) s = w → w.live fabPage = true → reachable w d = true →
     (cellSend d 1 (cellHeader 4 d (devId w) 7 0 0 3 0 0 0 0 ++ beBytes 8 m.msg ++ List.replicate 56 0) w).isSome = true →
     exec (.creditCellTx d) s = .next (
       let t := (cellSend d 1 (cellHeader 4 d (devId w) 7 0 0 3 0 0 0 0 ++ beBytes 8 m.msg ++ List.replicate 56 0) w).getD w
       bump Reg.FAB.CREDIT_TX { t with credQ := w.credQ.filter fun m => m.dest != d.val })) ∧
  (∀ (d : Fin 4096) (c : Fin 8) s, s.live fabPage = true →
     exec (.dataCellTx d c) s = .next (dataTx (8 * d + c) s)) ∧
  (∀ (d : Fin 4096) s, s.live qmgrPage = true →
     exec (.creditCellTx d) s = .next (creditTx d s))

/-- Cells that arrive, the resequencer and its timers. A data cell for the device on a link goes to the resequencer. A
cell for another device is counted, with event MISDELIVER. With no link named the cells of the local path are
delivered in their order up to the first of the kind; with none there nothing happens. The same holds of credit cells.
A credit cell on a link is counted and its messages are delivered. In a synchronised context the cell of the expected
sequence number is released, with every held cell that follows it. A later one within 65,536 is held, an earlier one
within 65,536 is discarded as late. With all 65,536 slots taken a cell to be held is discarded, counted, with its
event. SYNC_HOLD_EXPIRE of a context that holds nothing, or is synchronised, does nothing. At the end of the hold the
context synchronises on the lowest sequence number held and releases from there. A synchronised context with no cell
for CTX_IDLE ms loses its synchronisation. One that is not synchronised stays so. RESEQ_TIMEOUT of a context that
holds nothing does nothing. Where the oldest held cell has waited RESEQ_TMO the gap before it is given up: counted,
the frame in progress discarded, and the held cells released. In every state DATA_CELL_RX and CREDIT_CELL_RX complete,
with the effects stated. In live blocks, SYNC_HOLD_EXPIRE and RESEQ_TIMEOUT have the effects stated. (R285, R402,
R411, R412, R413, R414, R415, R416) -/
def Obligations.Resequencer : Prop :=
  (∀ (l : Fin 192) (x : List Byte) s w, s.live (fgPage l) = true → flinkState s l = 4 → s.hb (.lnkDisc l) = false →
     hcrcOk x = true → cellType x ≤ 3 → bump (Reg.FG.CELLS_RX (l / 32) (l % 32)) s = w → w.live fabPage = true →
     3 ≤ cellLen x → cellDst x = devId w → w.hb (.stuck 36) = false →
     exec (.dataCellRx (some l) x false) s = .next (reseqIn x (bump Reg.FAB.DATA_RX w))) ∧
  (∀ (x : List Byte) s, s.live fabPage = true → 3 ≤ cellLen x → cellDst x ≠ devId s →
     fabIn x s = raise fabPage 4 (bump Reg.FAB.MISDELIVER s)) ∧
  (∀ (x : List Byte) (err : Bool) s, s.localPath.dropWhile (fun y => !decide (cellType y ≤ 3)) = [] →
     exec (.dataCellRx none x err) s = .next s) ∧
  (∀ (x : List Byte) (err : Bool) (y : List Byte) (r : List (List Byte)) s,
     s.localPath.dropWhile (fun y => !decide (cellType y ≤ 3)) = y :: r →
     exec (.dataCellRx none x err) s = .next (
       forEach (s.localPath.takeWhile (fun y => !decide (cellType y ≤ 3)) ++ [y]) { s with localPath := r } fabIn)) ∧
  (∀ (x : List Byte) (err : Bool) s, s.localPath.dropWhile (fun y => !(cellType y == 4)) = [] →
     exec (.creditCellRx none x err) s = .next s) ∧
  (∀ (l : Fin 192) (x : List Byte) s w, s.live (fgPage l) = true → flinkState s l = 4 → s.hb (.lnkDisc l) = false →
     hcrcOk x = true → cellType x = 4 → bump (Reg.FG.CELLS_RX (l / 32) (l % 32)) s = w → w.live fabPage = true →
     3 ≤ cellLen x → cellDst x = devId w →
     exec (.creditCellRx (some l) x false) s = .next (creditIn x w)) ∧
  (∀ (x : List Byte) s w, s.setH (.rsLast (8 * cellSrc x + cellClass x)) (s.root + 1 : Nat) = w →
     w.hb (.rsSync (8 * cellSrc x + cellClass x)) = true →
     (cellSeq x + 2 ^ 24 - w.hn (.rsE (8 * cellSrc x + cellClass x))) % 2 ^ 24 = 0 →
     reseqIn x s = (
       let c := 8 * cellSrc x + cellClass x
       let t := cellRelease c x (cellAccept x w)
       let t := t.setH (.rsE c) ((w.hn (.rsE c) + 1) % 2 ^ 24 : Nat)
       releaseRun c t.held.length t)) ∧
  (∀ (x : List Byte) (d : Nat) s w, s.setH (.rsLast (8 * cellSrc x + cellClass x)) (s.root + 1 : Nat) = w →
     w.hb (.rsSync (8 * cellSrc x + cellClass x)) = true →
     (cellSeq x + 2 ^ 24 - w.hn (.rsE (8 * cellSrc x + cellClass x))) % 2 ^ 24 = d → d ≠ 0 →
     d < 65536 ∨ (1 ≤ (w.hn (.rsE (8 * cellSrc x + cellClass x)) + 2 ^ 24 - cellSeq x) % 2 ^ 24 ∧ (w.hn (.rsE (8 * cellSrc x + cellClass x)) + 2 ^ 24 - cellSeq x) % 2 ^ 24 ≤ 65536) →
     cellSrc x ≠ devId w →
     reseqIn x s = (if d < 65536 then cellHold (8 * cellSrc x + cellClass x) x w else bump Reg.FAB.RESEQ_LATE w)) ∧
  (∀ (c : Nat) (x : List Byte) s, ((heldOf s c).any fun h => h.seq == cellSeq x) = false → 65536 ≤ s.held.length →
     cellSrc x ≠ devId s →
     cellHold c x s = raise fabPage 2 (bump Reg.FAB.RESEQ_FULL s)) ∧
  (∀ (c : Fin 32768) s, heldOf s c = [] ∨ s.hb (.rsSync c) = true →
     exec (.syncHoldExpire c) s = .next s) ∧
  (∀ (c : Fin 32768) (h : Held) (hs : List Held) (e : Nat) s w, s.live fabPage = true → heldOf s c = h :: hs →
     s.hb (.rsSync c) = false → waitRoot (h.since + cycNs (s.reg Reg.FAB.SYNC_HOLD)) s = w →
     lowestSeq ((heldOf w c).map (·.seq)) = some e →
     exec (.syncHoldExpire c) s = .next (
       let t := ((w.setHb (.rsSync c) true).setH (.rsE c) (e : Nat)).setH (.rsSkip c) 2
       releaseRun c t.held.length t)) ∧
  (∀ (c : Fin 32768) s, s.live fabPage = true → s.hb (.rsSync c) = true →
     exec (.ctxIdleExpire c) s = .next ((waitRoot (s.hn (.rsLast c) - 1 + 7200000 * s.reg Reg.FAB.CTX_IDLE) s).setHb (.rsSync c) false)) ∧
  (∀ (c : Fin 32768) s, s.hb (.rsSync c) = false →
     exec (.ctxIdleExpire c) s = .next s) ∧
  (∀ (c : Fin 32768) s, heldOf s c = [] →
     exec (.reseqTimeout c) s = .next s) ∧
  (∀ (c : Fin 32768) (h : Held) (hs : List Held) s w t, s.live fabPage = true → heldOf s c = h :: hs →
     s.hb (.rsSync c) = true → waitRoot (h.since + cycUs (s.reg Reg.FAB.RESEQ_TMO)) s = w →
     raiseFirst fabPage 0 (bump Reg.FAB.RESEQ_TIMEOUT w) = t →
     exec (.reseqTimeout c) s = .next (
       let off := sortNat ((heldOf w c).map fun k => (k.seq + 2 ^ 24 - w.hn (.rsE c)) % 2 ^ 24)
       let u := if t.hb (.rsBusy c) then bump Reg.FAB.RESEQ_FRAME_DISC (rxAbandon c t) else t
       let u := u.setH (.rsSkip c) (if t.hb (.rsBusy c) || u.h (.rsSkip c) == 1 then 1 else 2)
       let u := u.setH (.rsE c) ((w.hn (.rsE c) + off.headD 0) % 2 ^ 24 : Nat)
       releaseRun c u.held.length u)) ∧
  (∀ (l : Option (Fin 192)) (x : List Byte) (err : Bool) s,
     exec (.dataCellRx l x err) s = .next (match l with | some l => onCell l x err s | none => localIn (fun y => cellType y ≤ 3) s)) ∧
  (∀ (l : Option (Fin 192)) (x : List Byte) (err : Bool) s,
     exec (.creditCellRx l x err) s = .next (match l with | some l => onCell l x err s | none => localIn (fun y => cellType y == 4) s)) ∧
  (∀ (c : Fin 32768) s, s.live fabPage = true →
     exec (.syncHoldExpire c) s = .next (syncHold c s)) ∧
  (∀ (c : Fin 32768) s, s.live fabPage = true →
     exec (.reseqTimeout c) s = .next (reseqTimeout c s))

/-- Population, bank masks, bring-up and loss of the deep store. POP_CFG takes 0, 8 or 16 channels while every DSC page is
disabled. Another number is refused with code 0x10, any write with a page enabled with code 0x11. BMAP of an enabled
channel refuses a write with code 0x11. Of a disabled one it takes a mask of at most 8 bits that holds bit 1 + b and
no other of its lowest six, and refuses any other with code 0x12. Enabling a disabled channel of the population starts
its bring-up at step 1, with no device erased. A step from 2 to 5 that ends well is followed by the next. After the
sixth the channel is in service: its data reads 0, TRAIN_STS tells the time that it took, and CH_TRAINED is raised. A
step that fails ends the bring-up: TRAIN_STS names it, POP_STS the channel, and CH_FAIL is raised; the population is
then not ready before a new start. With no step in progress nothing ends. When every channel of the population has
trained, pool D holds its pages less those of the statistics, the totals are cleared, and the store is ready. Before
that nothing happens. A lost channel takes the whole store out of service: it is reported in POP_STS and by CH_FAIL
and DRAM_UE, folding stalls, and its operations complete as uncorrectable. Step 1 reads the module and the threshold
of refresh management; a fault of its own, a wrong shape or another number of ranks than channel 0 fails it. Admitted,
POP_CFG_WRITE, BMAP_WRITE and BRINGUP_START have the effects stated. In live blocks, TRAIN_STEP_DONE and DS_READY have
the effects stated. (R426, R427, R428, R431, R437, R438, R442, R443, R449, R454) -/
def Obligations.DeepStoreBringUp : Prop :=
  (∀ r (v : W32) s w, Admits s r (Reg.DSC.POP_CFG 0) → firstWrite r s = w →
     v.toNat % 32 = 0 ∨ v.toNat % 32 = 8 ∨ v.toNat % 32 = 16 → allDscOff w = true →
     exec (.popCfgWrite r v) s = .next (coverUpdate (w.setReg (Reg.DSC.POP_CFG 0) (v.toNat % 32)))) ∧
  (∀ r (v : W32) s w, Admits s r (Reg.DSC.POP_CFG 0) → firstWrite r s = w →
     allDscOff w = false ∨ (v.toNat % 32 ≠ 0 ∧ v.toNat % 32 ≠ 8 ∧ v.toNat % 32 ≠ 16) →
     exec (.popCfgWrite r v) s = .next (errReq (dscPage 0)
       (if v.toNat % 32 ≠ 0 ∧ v.toNat % 32 ≠ 8 ∧ v.toNat % 32 ≠ 16 then 0x10 else 0x11) r (Reg.DSC.POP_CFG 0) v.toNat w)) ∧
  (∀ r (c : Fin 16) (b : Fin 5) (v : W32) s w, Admits s r (Reg.DSC.BMAP c b) → firstWrite r s = w →
     w.rbit (Reg.BLK_CTL (dscPage c)) 0 = true →
     exec (.bmapWrite r c b v) s = .next (errReq (dscPage c) 0x11 r (Reg.DSC.BMAP c b) v.toNat w)) ∧
  (∀ r (c : Fin 16) (b : Fin 5) (v : W32) s w, Admits s r (Reg.DSC.BMAP c b) → firstWrite r s = w →
     w.rbit (Reg.BLK_CTL (dscPage c)) 0 = false →
     exec (.bmapWrite r c b v) s = .next (if bmapOk w c b v.toNat then w.setReg (Reg.DSC.BMAP c b) v.toNat
       else errReq (dscPage c) 0x12 r (Reg.DSC.BMAP c b) v.toNat w)) ∧
  (∀ r (c : Fin 16) s w, Admits s r (Reg.BLK_CTL (dscPage c)) → firstWrite r s = w →
     w.rbit (Reg.BLK_CTL (dscPage c)) 0 = false →
     (popChannels (w.setRbit (Reg.BLK_CTL (dscPage c)) 0 true)).contains c.val = true →
     (w.setRbit (Reg.BLK_CTL (dscPage c)) 0 true).clocked (dscPage c) = true →
     exec (.bringupStart r c) s = .next (
       let t := forEach (List.range 4) (popBegin c (w.setRbit (Reg.BLK_CTL (dscPage c)) 0 true)) fun k t => t.setReg (Reg.DSC.ERASED c k) 0
       trainStep c 1 (t.setH (.trainAt c) (t.root : Nat)))) ∧
  (∀ (c : Fin 16) (spd : W32) (rfm : BitVec 16) (k : Nat) s, s.live (dscPage c) = true → s.hn (.trainStep c) = k →
     2 ≤ k → k ≤ 5 →
     exec (.trainStepDone c false spd rfm) s = .next (trainStep c (k + 1) s)) ∧
  (∀ (c : Fin 16) (spd : W32) (rfm : BitVec 16) s, s.live (dscPage c) = true → s.hn (.trainStep c) = 6 →
     exec (.trainStepDone c false spd rfm) s = .next (raise (dscPage c) 0
       (((chanClear c s).setReg (Reg.DSC.TRAIN_STS c)
         (2 ^ 31 + 6 * 2 ^ 24 + (s.root - s.hn (.trainAt c)) / 7200000 % 2 ^ 16)).setH (.trainStep c) 7))) ∧
  (∀ (c : Fin 16) (spd : W32) (rfm : BitVec 16) (k : Nat) s, s.live (dscPage c) = true → s.hn (.trainStep c) = k →
     2 ≤ k → k ≤ 6 →
     exec (.trainStepDone c true spd rfm) s = .next (
       let t := (s.setH (.trainStep c) 8).setReg (Reg.DSC.TRAIN_STS c) (2 ^ 30 + k * 2 ^ 24)
       raise (dscPage c) 1 (popFail c (if t.h .popRun = 1 then t.setH .popRun 0 else t)))) ∧
  (∀ (c : Fin 16) (fail : Bool) (spd : W32) (rfm : BitVec 16) s, s.hn (.trainStep c) = 0 ∨ 6 < s.hn (.trainStep c) →
     exec (.trainStepDone c fail spd rfm) s = .next s) ∧
  (∀ s w, s.pageOn bpmPage = true → s.pageOn (dscPage 0) = true → (popChannels s).isEmpty = false → s.h .popRun = 1 →
     ((popChannels s).all fun c => s.h (.trainStep c) == 7) = true →
     { s with bufs := s.bufs.filter fun e => e.1 / 2 ^ 32 != 1, hid := s.hid.filter fun e => e.1 / 2 ^ 96 != (Hid.pgInt 0).code / 2 ^ 96 } = w →
     exec .dsReady s = .next (
       let n := popPages s - statPages
       let t := popForget ((setFreeCnt 1 n (w.setReg Reg.BPM.D_LIMIT n)).setH .cursorD 0)
       raise (dscPage 0) 2 ((t.setReg (Reg.DSC.POP_STS 0) (2 ^ 31)).setH .popRun 2))) ∧
  (∀ s, ((popChannels s).all fun c => s.h (.trainStep c) == 7) = false →
     exec .dsReady s = .next s) ∧
  (∀ (c : Nat) s,
     chanLost c s = opsLost c (foldStall (raise (dscPage c) 1 (raiseFault (dscPage c) 4 16 c
       (popFail c (((s.setH (.trainStep c) 8).setH (.retrain c) 0).setH .popRun 3)))))) ∧
  (∀ (c spd rfm : Nat) s, s.hn (.trainStep c) = 1 →
     trainDone c false spd rfm s = (
       let w := (s.setReg (Reg.DSC.DIMM_INFO c) (spdCheck s c spd)).setH (.rfmThr c) (rfm : Nat)
       let u := if w.rfld (Reg.DSC.DIMM_INFO c) 0 4 ≠ 0 then trainFail c 1 w else trainStep c 2 w
       if c = 0 ∧ firstRead u then rankCheck u else u)) ∧
  (∀ r (v : W32) s, Admits s r (Reg.DSC.POP_CFG 0) →
     exec (.popCfgWrite r v) s = .next (popCfg r v.toNat (firstWrite r s))) ∧
  (∀ r (c : Fin 16) (b : Fin 5) (v : W32) s, Admits s r (Reg.DSC.BMAP c b) →
     exec (.bmapWrite r c b v) s = .next (bmapWrite r c b v.toNat (firstWrite r s))) ∧
  (∀ r (c : Fin 16) s, Admits s r (Reg.BLK_CTL (dscPage c)) →
     exec (.bringupStart r c) s = .next (bringupStart c (firstWrite r s))) ∧
  (∀ (c : Fin 16) (fail : Bool) (spd : W32) (rfm : BitVec 16) s, s.live (dscPage c) = true →
     exec (.trainStepDone c fail spd rfm) s = .next (trainDone c fail spd.toNat rfm.toNat s)) ∧
  (∀ s, s.pageOn bpmPage = true → s.pageOn (dscPage 0) = true →
     exec .dsReady s = .next (dsReady s))

/-- Operations, errors, maintenance and scrub of the deep store. Out of service, or with 256 operations in flight, a
channel serves none. Nor with none waiting. The next uses the row of its page, is counted, has its effect in order of
arrival, and is in flight. An access of the open row, with its class's pages kept open, leaves it open. Another row is
opened first; a class that closes at once leaves the bank closed. An activate enters both subchannels' count, the
bank's rolling count and the row-hammer account. A rolling count at the devices' threshold brings refresh management.
After a run of 16 of one direction the other one that waits is served. With none of the class in flight, or an older
one to its block, a completion does nothing. Else the oldest of the class ends, and a full retrain that waits may
start. A read with an uncorrectable burst marks its block, is counted, and its requester told. A corrected burst
counts against its device; a lost channel's operation is uncorrectable. A page's read counts down the reads of its
return; the patrol counts what it finds and writes a correction back. A refresh due is issued, postponed while fewer
than 4 or 8 are, or one postponed made good. REFRESH_RATE_POLL, every 4 ms, keeps what the rank demands. ZQ
calibration, every 128 ms, and a DQS measurement within the adjustment count as retrains. DQS_OSC_MEASURE in a live
block has the effect dqsMeasure. A drift beyond it starts a full retrain where RETRAIN_CFG says so, else raises
RETRAIN_FULL. RETRAIN_NOW asks for a full retrain of a channel in service. It waits for the operations in flight and
is then counted. A failed one loses the channel. With none nothing ends. RH_WINDOW_CLEAR, every 32 ms, clears the row-
hammer account of its channel. The patrol reads only while enabled and the channel serves. With its last read done it
asks, in its turn, for the block of its position. A temperature at or above TEMP_THR, both signed, raises TEMP_HIGH.
In live blocks, DRAM_OPERATION, DRAM_OP_COMPLETE, FULL_RETRAIN_DONE and DIMM_TEMP_READ have the effects stated.
Admitted, RETRAIN_NOW has the effect stated. (R433, R434, R436, R440, R441, R442, R443, R444, R445, R448, R449, R450) -/
def Obligations.DeepStoreService : Prop :=
  (∀ (c : Fin 16) s, chanServes s c = false ∨ 256 ≤ (s.dramOps.filter fun x => x.chan == c.val).length →
     exec (.dramOperation c) s = .next s) ∧
  (∀ (c : Fin 16) s, nextOp s c = none →
     exec (.dramOperation c) s = .next s) ∧
  (∀ (c : Fin 16) (o o1 : DramOp) s t u, s.live (dscPage c) = true → chanServes s c = true →
     (s.dramOps.filter fun x => x.chan == c.val).length < 256 → nextOp s c = some o →
     bump (if o.write then Reg.DSC.WR_OPS c else Reg.DSC.RD_OPS c) (rowUse c o.page o.cls
       (!(s.dramWait.erase o).any fun x => x.chan == c.val && x.cls == o.cls && x.page == o.page) (arbStep o { s with dramWait := s.dramWait.erase o })) = t →
     opReach o t = (o1, u) →
     exec (.dramOperation c) s = .next { u with dramOps := u.dramOps ++ [o1] }) ∧
  (∀ (c p k : Nat) (last : Bool) s, rowIsOpen s c (bankOf s c p) (rowOf p) = true →
     s.rfld (Reg.DSC.PG_HINT c) (2 * k) 2 = 1 →
     rowUse c p k last s = s.setH (.openIdle c (bankOf s c p)) (s.root + 1 : Nat)) ∧
  (∀ (c p k : Nat) (last : Bool) s w, rowIsOpen s c (bankOf s c p) (rowOf p) = false →
     activate c (bankOf s c p) (rowOf p) k s = w → w.rfld (Reg.DSC.PG_HINT c) (2 * k) 2 = 0 →
     rowUse c p k last s = (w.setH (.openRow c (bankOf s c p)) 0).setH (.openIdle c (bankOf s c p)) 0) ∧
  (∀ (c b row k : Nat) s, s.hb (.thr (64 * c + b) k) = false →
     activate c b row k s = (
       let t := rollCount c b (bumpBy (Reg.DSC.ACT_CNT c) 2 ((s.setH (.thrLast (64 * c + b) k) (s.root : Nat)).setH (.openRow c b) (row + 1 : Nat)))
       if popRanks t = 2 then rhCandidate c b row k t else rhCount c b row t)) ∧
  (∀ (c b : Nat) s, 0 < s.hn (.rfmThr c) → s.hn (.rfmThr c) ≤ s.hn (.raa c b) + 1 →
     rollCount c b s = bumpBy (Reg.DSC.RFM_CNT c) 2 (s.setH (.raa c b) 0)) ∧
  (∀ (c : Nat) (ws : List DramOp) (d : Bool) s, s.hb (.runWrite c) = d → 16 ≤ s.hn (.runLen c) →
     ws.any (·.write == !d) = true →
     runWrites s c ws = !d ∨ runWrites s c ws = ws.any (·.write)) ∧
  (∀ (c : Fin 16) (k : Fin 5) (es : List (Fin 8 × Option (Fin 10))) s,
     (∀ o, s.dramOps.find? (fun o => o.chan == c.val && o.cls == k.val) = some o →
       (s.dramOps.takeWhile fun x => decide (x ≠ o)).any (·.sameBlock o) = true) →
     exec (.dramOpComplete c k es) s = .next s) ∧
  (∀ (c : Fin 16) (k : Fin 5) (es : List (Fin 8 × Option (Fin 10))) (o : DramOp) s, s.live (dscPage c) = true →
     s.dramOps.find? (fun o => o.chan == c.val && o.cls == k.val) = some o →
     (s.dramOps.takeWhile fun x => decide (x ≠ o)).any (·.sameBlock o) = false →
     exec (.dramOpComplete c k es) s = .next (retrainBegin c
       (opEnd o (es.map fun e => (e.1.val, e.2.map Fin.val)) { s with dramOps := s.dramOps.erase o }))) ∧
  (∀ (o : DramOp) (i : Fin 4) s, o.write = false → o.bad = 0 → o.stale = false →
     opEnd o [(i.val, none)] s = opDeliver o true false (dramUe o.chan o.page 0 o.cls
       (setUeMark o.chan o.page o.blk (ueMark s o.chan o.page o.blk ||| 2 ^ i.val) s))) ∧
  (∀ (o : DramOp) (i d : Nat) s, o.write = false → o.bad = 0 →
     opEnd o [(i, some d)] s = opDeliver o false true (dramCe o.chan o.page [(i / 4, d)] s) ∧
       opEnd o [] s = opDeliver o false false s ∧
       opLost o s = opDeliver o true false (dramUe o.chan o.page (s.free.1 % 2) o.cls s.free.2)) ∧
  (∀ (o : DramOp) (u k : Bool) s,
     (o.cls = 1 → opDeliver o u k s = { s with pageReads := s.pageReads.map fun r =>
         if r.tag = o.tag then { r with left := r.left - 1, ue := r.ue || u } else r }) ∧
       (o.cls = 3 → o.write = false → k = false → u = true →
         opDeliver o u k s = patrolStep o.chan (bump (Reg.DSC.SCRUB_UE o.chan) s)) ∧
       (o.cls = 3 → o.write = false → k = true → u = false → o.stale = false →
         opDeliver o u k s = patrolStep o.chan (opWait { o with write := true, bad := 0 }
           (faultRecord 7 (dscPage o.chan) o.chan (bump (Reg.DSC.SCRUB_CE o.chan) s))))) ∧
  (∀ (c : Fin 16) (k : Fin 2) (x : Fin 3) s, s.live (dscPage c) = true →
     exec (.dramRefresh c k x) s = .next (
       let w := if x.val = 2 then s else nextInterval (dscPage c) (.refAt c k) (refInterval s c k) s
       let d := w.hn (.refDebt c k)
       if x.val = 1 ∧ d < refLimit w c then w.setH (.refDebt c k) (d + 1 : Nat)
       else if x.val = 2 then w.setH (.refDebt c k) (d - 1 : Nat) else w)) ∧
  (∀ (c : Fin 16) (k : Fin 2) (half : Bool) s, s.live (dscPage c) = true →
     exec (.refreshRatePoll c k half) s = .next ((nextInterval (dscPage c) (.refPoll c k) (cycUs 4000) s).setHb (.refHalf c k) half)) ∧
  (∀ (c : Fin 16) (sr : Fin 4) s, s.live (dscPage c) = true → chanServes s c = true → hasRank s sr = true →
     exec (.zqCalibration c sr) s = .next (bump (Reg.DSC.RETRAIN_CNT c) (nextInterval (dscPage c) (.zqAt c sr) (cycUs 128000) s)) ∧
       exec (.dqsOscMeasure c sr false) s = .next (bump (Reg.DSC.RETRAIN_CNT c)
         (nextInterval (dscPage c) (.dqsAt c sr) (cycUs (1000 * s.rfld (Reg.DSC.RETRAIN_CFG c) 0 16)) s))) ∧
  (∀ (c : Fin 16) (sr : Fin 4) (far : Bool) s, s.live (dscPage c) = true → chanServes s c = true → hasRank s sr = true →
     exec (.dqsOscMeasure c sr far) s = .next (dqsMeasure c far (nextInterval (dscPage c) (.dqsAt c sr) (cycUs (1000 * s.rfld (Reg.DSC.RETRAIN_CFG c) 0 16)) s))) ∧
  (∀ (c : Nat) s,
     dqsMeasure c true s = (let w := bump (Reg.DSC.RETRAIN_CNT c) s
       if w.rbit (Reg.DSC.RETRAIN_CFG c) 31 then retrainStart c w else raise (dscPage c) 7 (w.setH (.retrain c) 2))) ∧
  (∀ r (c : Fin 16) (v : W32) s w, Admits s r (Reg.DSC.RETRAIN_NOW c) → firstWrite r s = w → bit v.toNat 0 = true →
     w.h (.trainStep c) = 7 → w.hn (.retrain c) % 2 = 0 →
     exec (.retrainNow r c v) s = .next (retrainBegin c (w.setH (.retrain c) 3))) ∧
  (∀ (c : Nat) s, s.h (.retrain c) = 3 →
     retrainBegin c s = (if s.dramOps.any (·.chan == c) then s else
       raise (dscPage c) 7 (bump (Reg.DSC.RETRAIN_FULL_CNT c) (s.setH (.retrain c) 1)))) ∧
  (∀ (c : Fin 16) (ok : Bool) s, s.live (dscPage c) = true → s.h (.retrain c) = 1 →
     exec (.fullRetrainDone c ok) s = .next (if ok then s.setH (.retrain c) 0 else chanLost c s)) ∧
  (∀ (c : Fin 16) (ok : Bool) s, s.h (.retrain c) ≠ 1 →
     exec (.fullRetrainDone c ok) s = .next s) ∧
  (∀ (c : Fin 16) s, s.live (dscPage c) = true →
     exec (.rhWindowClear c) s = .next (
       let w := nextInterval (dscPage c) (.rhAt c) (cycUs 32000) s
       let t := { w with rhRows := w.rhRows.filter fun x => x.chan != c.val, rhCands := w.rhCands.filter fun x => x.chan != c.val }
       forEach (List.range 64) t fun b t => forEach (List.range 5) t fun k t => t.setHb (.thr (64 * c + b) k) false)) ∧
  (∀ (c : Fin 16) s, s.rbit (Reg.DSC.PATROL_CFG c) 31 = false ∨ chanServes s c = false →
     exec (.patrolRead c) s = .next s) ∧
  (∀ (c : Fin 16) s w, s.live (dscPage c) = true → s.rbit (Reg.DSC.PATROL_CFG c) 31 = true → chanServes s c = true →
     ((s.dramWait ++ s.dramOps).any fun o => o.chan == c.val && o.cls == 3 && !o.write) = false →
     nextInterval (dscPage c) (.patAt c) (patrolGap s c) s = w →
     exec (.patrolRead c) s = .next (opAsk { chan := c, cls := 3, write := false, page := w.reg (Reg.DSC.PATROL_POS c), blk := w.hn (.patBlk c) } w)) ∧
  (∀ (c : Fin 16) (x : BitVec 8) s w, s.live (dscPage c) = true →
     (nextInterval (dscPage c) (.tempAt c) (cycUs 100000) s).setReg (Reg.DSC.DIMM_TEMP c) x.toNat = w →
     exec (.dimmTempRead c x) s = .next (if sgn (w.reg (Reg.DSC.TEMP_THR c)) 8 ≤ x.toInt then raise (dscPage c) 8 w else w)) ∧
  (∀ (c : Fin 16) s, s.live (dscPage c) = true →
     exec (.dramOperation c) s = .next (opServe c s)) ∧
  (∀ (c : Fin 16) (k : Fin 5) (errs : List (Fin 8 × Option (Fin 10))) s, s.live (dscPage c) = true →
     exec (.dramOpComplete c k errs) s = .next (opDone c k (errs.map fun e => (e.1.val, e.2.map Fin.val)) s)) ∧
  (∀ (c : Fin 16) (ok : Bool) s, s.live (dscPage c) = true →
     exec (.fullRetrainDone c ok) s = .next (retrainDone c ok s)) ∧
  (∀ (c : Fin 16) (t : BitVec 8) s, s.live (dscPage c) = true →
     exec (.dimmTempRead c t) s = .next (let s := (nextInterval (dscPage c) (.tempAt c) (cycUs 100000) s).setReg (Reg.DSC.DIMM_TEMP c) t.toNat; if sgn (s.reg (Reg.DSC.TEMP_THR c)) 8 ≤ t.toInt then raise (dscPage c) 8 s else s)) ∧
  (∀ r (c : Fin 16) (v : W32) s, Admits s r (Reg.DSC.RETRAIN_NOW c) →
     exec (.retrainNow r c v) s = .next (let w := (firstWrite r s); if bit v.toNat 0 then retrainStart c w else w))

/-- Loads of the processors and the redundant control cores. A processor is loaded when its load is due, the root PLL is
locked and, of the pair, the flash is at its load and CC_A before CC_B; otherwise nothing happens. A micro-engine or
the SerDes firmware without an image in the cache fails its load: FAILED, and LOAD_FAIL. With one it runs; a load
after a fault, not one at a switch-on, is measured in register 8. Its payload goes to its memory at LOAD_OFF, LOADS
counts, and the version, SVN and key index of the image are in use. A control core is loaded from its slot. An image
that passes the checks goes to its private SRAM, with its entry points, version, SVN and key; here a load after a
fault, measured in register 8. One that fails leaves the core FAILED. PROCESSOR_LOAD 7 and 8 load CC_A and CC_B. A
core that fails its self-test is FAILED. One that passes is ACTIVE, with ROLE written, if no core is and no handover
is under way, else SYNCING; its watchdog starts. A fault of a core in STANDBY: FAILED with its cause, FAULTS counts,
the fault is recorded. A fault of the ACTIVE core besides starts a handover to a core in STANDBY; with none the pair
is lost. WDT_KICK restarts the writing core's watchdog. HANDOVER of the ACTIVE core with the other in STANDBY: it goes
to OFF and the other is to take over. Otherwise it is refused with code 0x11. At TAKEOVER the new core inherits the
sources of the old one, the claimed ones pending again, becomes ACTIVE at its takeover entry, and ROLE names it. With
no handover under way nothing happens. A store of the ACTIVE core, in the mirrored region, also goes to a core in
STANDBY or SYNCING. With no core ACTIVE nothing is stored. The end of the bulk copy, in its time, makes a SYNCING core
STANDBY while the other is ACTIVE, with the mirrored region equal; else it does nothing. RELOAD of a core that is not
ACTIVE by a requester that may order it: LOADING from the slot that it names. Any other is refused with code 0x11. On
their conditions, PROCESSOR_LOAD, CORE_LOAD_DONE, CORE_FAULT, TAKEOVER and MIRROR_STORE have the effects stated.
Admitted, WDT_KICK, HANDOVER and RELOAD have the effects stated. (R459, R460, R461, R462, R463, R464, R465, R466,
R467, R468, R469, R470) -/
def Obligations.ControlPair : Prop :=
  (∀ (k : Fin 9) s, loadReady s k = false →
     exec (.processorLoad k) s = .next s) ∧
  (∀ (k : Fin 9) s w, k.val < 7 → s.h (.loadDue k) ≠ 0 → s.pllOk = true → s.setH (.loadDue k) 0 = w →
     w.pageOn pairPage = true → w.h (.cacheVer k) = 0 →
     exec (.processorLoad k) s = .next (raise pairPage 4 (w.setH (.eng k) 2))) ∧
  (∀ (k : Fin 9) s w, k.val < 7 → s.h (.loadDue k) ≠ 0 → s.pllOk = true → s.setH (.loadDue k) 0 = w →
     w.h (.cacheVer k) ≠ 0 →
     exec (.processorLoad k) s = .next (engineStart k
       (if s.h (.loadDue k) = 2 then mrExtend 8 (sha384 ((cacheHeader w k).take 416)) w else w))) ∧
  (∀ (k : Nat) s, k ≠ 2 → k ≠ 6 →
     engineStart k s = (
       let h := cacheHeader s k
       let t := s.wrMem .engine (2 ^ 32 * k + loadOff h) (s.rdMem .cache (cacheBase k + 512) (payloadLen h))
       let t := bump Reg.SEC.LOADS ((t.setH (.eng k) 1).setH (.engVer k) (beAt h 18 2 : Nat))
       (t.setH (.engSvn k) (byteAt h 15 + 1 : Nat)).setH (.engKey k) (byteAt h 14 + 1 : Nat))) ∧
  (∀ (c : Nat) s w, s.h (.loadDue 7) = 2 → (setCore 0 1 s).setH (.loadDue 7) 0 = w →
     checkImage w (s.hn (.coreSlot 0)) 0x01 (if coreState w 1 = 4 then some (w.hn (.coreVer 1) - 1) else none) = c →
     coreLoad 0 s = (match c, imageAt w (s.hn (.coreSlot 0)) 0x01 with
       | 0, some off =>
         let h := imageHeader w (s.hn (.coreSlot 0)) off
         let t := w.wrMem (coreSram 0) (loadOff h) (slotBytes w (s.hn (.coreSlot 0)) (off + 512) (payloadLen h))
         let t := (t.setH (.coreEntry 0) (beAt h 28 4 : Nat)).setH (.coreTake 0) (beAt h 32 4 : Nat)
         let t := (t.setH (.coreVer 0) (beAt h 36 2 + 1 : Nat)).setH (.coreSvn 0) (byteAt h 15 + 1 : Nat)
         let t := (t.setH (.coreKey 0) (byteAt h 14 + 1 : Nat)).setH (.coreStart 0) (beAt h 28 4 + 1 : Nat)
         mrImage 8 (s.hn (.coreSlot 0)) off (bump Reg.SEC.LOADS t)
       | c, _ => raise pairPage 4 (loadErr (s.hn (.coreSlot 0)) 0x01 c (setCore 0 5 w)))) ∧
  (∀ (x : Fin 2) (k : Fin 9) s, k.val = 7 + x → loadReady s k = true →
     exec (.processorLoad k) s = .next (flashGo (coreLoad x s))) ∧
  (∀ (x : Fin 2) s, pairRuns s = true → coreState s x = 1 → s.h (.loadDue (7 + x)) = 0 →
     exec (.coreLoadDone x false) s = .next (raise pairPage 4 (((setCore x 5 s).setH (.coreSvn x) 0).setH (.coreKey x) 0))) ∧
  (∀ (x : Fin 2) s w, pairRuns s = true → coreState s x = 1 → s.h (.loadDue (7 + x)) = 0 →
     s.setH (.wdtAt x) (s.root : Nat) = w →
     exec (.coreLoadDone x true) s = .next (if (activeCore w).isSome ∨ w.h .hoTo ≠ 0 then setCore x 2 w else (setCore x 4 w).setReg Reg.PAIR.ROLE (x + 1))) ∧
  (∀ (x : Fin 2) (k : Fin 4) s w, pairRuns s = true → coreState s x = 3 → k.val ≠ 2 → s.h .hoTo ≠ (x + 1 : Nat) →
     s.h .hoFirst ≠ (x + 1 : Nat) →
     noteFault x (bump (Reg.PAIR.FAULTS (k + 1)) (setCore x 5 (s.setReg (Reg.PAIR.CORE_STS x) ((k + 1) * 16)))) = w →
     exec (.coreFault x k) s = .next (mirrorSts (raiseFault pairPage 1 9 x ((w.setH (.coreSvn x) 0).setH (.coreKey x) 0)))) ∧
  (∀ (x k : Nat) s w, coreState s x = 4 → s.h .hoTo ≠ (x + 1 : Nat) → s.h .hoFirst ≠ (x + 1 : Nat) →
     mirrorSts (raiseFault pairPage 1 9 x (((noteFault x (bump (Reg.PAIR.FAULTS k) (setCore x 5 (s.setReg (Reg.PAIR.CORE_STS x) (k * 16))))).setH (.coreSvn x) 0).setH (.coreKey x) 0)) = w →
     coreFault x k s = (if coreState w (1 - x) = 3 then (w.setH .hoTo (2 - x : Nat)).setH .hoFrom (x + 1 : Nat)
       else pairLost [x + 1] x w)) ∧
  (∀ (x : Fin 2) (r : Req) (v : W32) s w, coreOf r = some x.val → Admits s r Reg.PAIR.WDT_KICK → firstWrite r s = w →
     bit v.toNat 0 = true →
     exec (.wdtKick r v) s = .next (w.setH (.wdtAt x) (w.root : Nat))) ∧
  (∀ (x : Fin 2) (r : Req) (v : W32) s w, coreOf r = some x.val → Admits s r Reg.PAIR.HANDOVER → firstWrite r s = w →
     bit v.toNat 0 = true → coreState w x = 4 → coreState w (1 - x) = 3 →
     exec (.handover r v) s = .next (
       let t := (setCore x 0 (w.setReg (Reg.PAIR.CORE_STS x) 0)).setH (.coreSvn x) 0
       mirrorSts (((t.setH (.coreKey x) 0).setH .hoTo (2 - x : Nat)).setH .hoFrom (x + 1 : Nat)))) ∧
  (∀ (x : Fin 2) (r : Req) (v : W32) s w, coreOf r = some x.val → Admits s r Reg.PAIR.HANDOVER → firstWrite r s = w →
     bit v.toNat 0 = true → coreState w (1 - x) ≠ 3 →
     exec (.handover r v) s = .next (errReq pairPage 0x11 r Reg.PAIR.HANDOVER v.toNat w)) ∧
  (∀ s w, pairRuns s = true → s.h .hoTo ≠ 0 → coreState s (s.hn .hoTo - 1) = 3 →
     reclaim (s.hn .hoFrom) (retarget (s.hn .hoFrom) (s.hn .hoTo - 1 + 1) s) = w →
     exec .takeover s = .next (
       let x := s.hn .hoTo - 1
       let t := ((setCore x 4 w).setReg Reg.PAIR.ROLE (x + 1)).setH (.coreStart x) (w.h (.coreTake x) + 1)
       let t := ((t.setH .hoTo 0).setH .hoFirst (x + 1 : Nat)).setH .lifeHo (t.h .lifeHo + 1)
       let t := (mirrorSts t).setH (.wdtAt x) (t.root : Nat)
       raise pairPage 0 (bump Reg.PAIR.HANDOVERS (intcUpdate t)))) ∧
  (∀ s, s.h .hoTo = 0 →
     exec .takeover s = .next s) ∧
  (∀ (a : BitVec 22) bytes s w (x : Nat), pairRuns s = true → activeCore s = some x →
     s.wrMem (coreSram x) a.toNat (bytes.take (2 ^ 22 - a.toNat)) = w →
     exec (.mirrorStore a bytes) s = .next (if coreState w (1 - x) = 2 ∨ coreState w (1 - x) = 3 then
       w.wrMem (coreSram (1 - x)) a.toNat ((bytes.take (2 ^ 22 - a.toNat)).take (mirrorSize - a.toNat)) else w)) ∧
  (∀ (a : BitVec 22) bytes s, activeCore s = none →
     exec (.mirrorStore a bytes) s = .next s) ∧
  (∀ (x : Fin 2) s, pairRuns s = true →
     exec (.syncComplete x) s = .next (
       let w := waitRoot (s.hn (.syncAt x) + 3538944) s
       if coreState s x = 2 ∧ coreState s (1 - x) = 4 then
         raise pairPage 2 (mirrorSts ((setCore x 3 (bulkCopy (1 - x) w)).setH (.wdtAt x) (w.root : Nat))) else s)) ∧
  (∀ r (v : W32) s w, Admits s r Reg.PAIR.RELOAD → firstWrite r s = w → ordersOk w r = true →
     coreState w (fld v.toNat 0 1) ≠ 4 → inRecovery w = false →
     exec (.reload r v) s = .next (requestLoad (fld v.toNat 0 1) (fld v.toNat 8 1) 2 w)) ∧
  (∀ r (v : W32) s w, Admits s r Reg.PAIR.RELOAD → firstWrite r s = w →
     ordersOk w r = false ∨ coreState w (fld v.toNat 0 1) = 4 →
     exec (.reload r v) s = .next (errReq pairPage 0x11 r Reg.PAIR.RELOAD v.toNat w)) ∧
  (∀ (k : Fin 9) s, loadReady s k = true →
     exec (.processorLoad k) s = .next (if k.val < 7 then engineLoad k s else flashGo (coreLoad (k - 7) s))) ∧
  (∀ (x : Fin 2) (ok : Bool) s, pairRuns s = true →
     exec (.coreLoadDone x ok) s = .next (coreReady x ok s)) ∧
  (∀ (x : Fin 2) (cause : Fin 4) s, pairRuns s = true →
     (coreState s x == 3 || coreState s x == 4 || (coreState s x == 2 && cause.val < 2)) = true →
     exec (.coreFault x cause) s = .next (coreFault x (cause + 1) (if cause.val = 2 then waitRoot (s.hn (.wdtAt x) + cycUs (s.reg Reg.PAIR.WDT_CFG)) s else s))) ∧
  (∀ s, pairRuns s = true →
     exec .takeover s = .next (takeover s)) ∧
  (∀ (a : BitVec 22) (bs : List Byte) s, pairRuns s = true →
     exec (.mirrorStore a bs) s = .next (mirrorStore a.toNat bs s)) ∧
  (∀ r (v : W32) s, Admits s r Reg.PAIR.WDT_KICK →
     exec (.wdtKick r v) s = .next (wdtKick r v.toNat (firstWrite r s))) ∧
  (∀ r (v : W32) s, Admits s r Reg.PAIR.HANDOVER →
     exec (.handover r v) s = .next (handover r v.toNat (firstWrite r s))) ∧
  (∀ r (v : W32) s, Admits s r Reg.PAIR.RELOAD →
     exec (.reload r v) s = .next (reload r v.toNat (firstWrite r s)))

/-- The reload of a lost pair. With no core ACTIVE the sources of its targets go to BOOT, ROLE is 0, and the core is to be
reloaded. The automatic reload loads the core from its slot unless it has faulted three times in 10 s. Three faults
within 10 s: the third last lies less than 10,000,000 µs of 7,200 cycles before the last. With none due nothing
happens. (R471, R648) -/
def Obligations.LostPair : Prop :=
  (∀ (x : Nat) (ts : List Nat) s w, forEach ts s (fun t s => retarget t 0 s) = w →
     pairLost ts x s = raiseFault pairPage 3 18 x (intcUpdate
       (((((w.setReg Reg.PAIR.ROLE 0).setHb (.autoLoad x) true).setH .hoTo 0).setH .hoFirst 0)))) ∧
  (∀ (x : Fin 2) s, pairRuns s = true → s.hb (.autoLoad x) = true →
     exec (.coreAutoReload x) s = .next (if faultedThrice s x then s.setHb (.autoLoad x) false
       else requestLoad x (s.hn (.coreSlot x)) 2 s)) ∧
  (∀ (x : Nat) s,
     (faultedThrice s x = true ↔ s.h (.coreFaultAt x 2) ≠ 0 ∧
       s.hn (.coreFaultAt x 0) - s.hn (.coreFaultAt x 2) < 10000000 * 7200)) ∧
  (∀ (x : Fin 2) s, s.hb (.autoLoad x) = false →
     exec (.coreAutoReload x) s = .next s)

/-- Doorbells, claims, ends, running priorities, pending and mask bits, hold-offs. A doorbell of source 0x001 to 0xFFE
sets its pending bit while INTC is live. One of 0x000 or 0xFFF and above sets none: DB_BAD counts, code 0x10. A claim
with no presentable source returns 0 and counts CLAIM_NONE. Else it returns the source of the highest priority with
its priority, clears its pending bit and pushes both on the stack. A claim that would make a 17th entry returns bit 31
alone and is refused. EOI of the source on top of the stack pops it. EOI of another, or on an empty stack, is refused:
EOI_BAD, event 1, code 0x11. SETPRI pushes source 0 with its priority, until the stack holds 16 entries. A 17th entry
is refused with code 0x12: STACK_OVF and its event. A write of PEND stores the bits of existing sources; LOST marks
those cleared that hardware had set unread. A write of MASK stores the bits of existing sources. Sources 0x000 and
0xFFF have no bits. The hold-off of a group for a target ends when HOLDOFF µs have passed. With none running nothing
ends. A core that runs and waits for an interrupt with an empty stack is idle; with entries it is not. Admitted,
DOORBELL and EOI have the effects stated. In every state CLAIM completes, with the effect stated. In live blocks,
HOLDOFF_EXPIRE has the effect stated. (R472, R473, R474, R475, R476, R478, R479, R480) -/
def Obligations.InterruptController : Prop :=
  (∀ r (v : W32) s w, Admits s r Reg.INTC.DOORBELL → firstWrite r s = w → w.live intcPage = true → v.toNat ≠ 0 →
     v.toNat < 0xFFF →
     exec (.doorbell r v) s = .next (intcUpdate (setPend v.toNat w))) ∧
  (∀ r (v : W32) s w, Admits s r Reg.INTC.DOORBELL → firstWrite r s = w → v.toNat = 0 ∨ 0xFFF ≤ v.toNat →
     exec (.doorbell r v) s = .next (errReq intcPage 0x10 r Reg.INTC.DOORBELL v.toNat (bump Reg.INTC.DB_BAD w))) ∧
  (∀ r (t : Fin 4) s, Admits s r (Reg.INTC.CLAIM t) → s.live intcPage = true → claimPick s t = none →
     exec (.claim r t) s = .next ((bump Reg.INTC.CLAIM_NONE s).emit (.readData r (Reg.INTC.CLAIM t) 0))) ∧
  (∀ r (t : Fin 4) (x : Nat) s w u, Admits s r (Reg.INTC.CLAIM t) → s.live intcPage = true → claimPick s t = some x →
     (stackOf s t).length < 16 → s.setRbit (Reg.INTC.PEND (x / 32)) (x % 32) false = w →
     { w with intStacks := (t.val, x, srcPrio s x) :: w.intStacks } = u →
     exec (.claim r t) s = .next ((intcUpdate (((u.setH (.msiSent x) 0).setHb (.presented x) false).setHb (.coreIdle t) false)).emit
       (.readData r (Reg.INTC.CLAIM t) (srcPrio s x * 2 ^ 24 + x)))) ∧
  (∀ r (t : Fin 4) (x : Nat) s, Admits s r (Reg.INTC.CLAIM t) → s.live intcPage = true → claimPick s t = some x →
     16 ≤ (stackOf s t).length →
     exec (.claim r t) s = .next ((stackFull r (Reg.INTC.CLAIM t) x s).emit (.readData r (Reg.INTC.CLAIM t) (2 ^ 31)))) ∧
  (∀ r (t : Fin 4) (v : W32) (x p i : Nat) (rest : List (Nat × Nat × Nat)) s w, Admits s r (Reg.INTC.EOI t) →
     firstWrite r s = w → stackOf w t = (t.val, x, p) :: rest → x = v.toNat % 2 ^ 12 →
     w.intStacks.findIdx? (fun e => e.1 == t.val) = some i →
     exec (.eoi r t v) s = .next (intcUpdate { w with intStacks := w.intStacks.eraseIdx i })) ∧
  (∀ r (t : Fin 4) (v : W32) s w, Admits s r (Reg.INTC.EOI t) → firstWrite r s = w →
     (stackOf w t).head?.map (fun e => e.2.1) ≠ some (v.toNat % 2 ^ 12) →
     exec (.eoi r t v) s = .next (raise intcPage 1 (errReq intcPage 0x11 r (Reg.INTC.EOI t) v.toNat (bump Reg.INTC.EOI_BAD w)))) ∧
  (∀ r (t : Fin 4) (v : W32) s w, Admits s r (Reg.INTC.SETPRI t) → firstWrite r s = w →
     exec (.setpri r t v) s = .next (if 16 ≤ (stackOf w t).length then stackFull r (Reg.INTC.SETPRI t) 0 w
       else intcUpdate ({ w with intStacks := (t.val, 0, v.toNat % 16) :: w.intStacks }.setHb (.coreIdle t) false))) ∧
  (∀ r (a x : Nat) s,
     stackFull r a x s = raise intcPage 0 (errReq intcPage 0x12 r a x (bump Reg.INTC.STACK_OVF s))) ∧
  (∀ r (k : Fin 128) (v : W32) s w, Admits s r (Reg.INTC.PEND k) → firstWrite r s = w →
     exec (.pendWrite r k v) s = .next (
       let n := srcBits k v.toNat
       let c := w.reg (Reg.INTC.PEND k) &&& (n ^^^ 0xFFFFFFFF)
       let t := (w.setReg (Reg.INTC.PEND k) n).setReg (Reg.INTC.LOST k) (w.reg (Reg.INTC.LOST k) ||| (c &&& w.hn (.intcUnread k)))
       let t := t.setH (.intcUnread k) (w.hn (.intcUnread k) &&& (c ^^^ 0xFFFFFFFF) : Nat)
       intcUpdate (forEach (bitsOf c 32) t fun b t => t.setHb (.presented (32 * k + b)) false))) ∧
  (∀ r (k : Fin 128) (v : W32) s w, Admits s r (Reg.INTC.MASK k) → firstWrite r s = w →
     exec (.intcMaskWrite r k v) s = .next (intcUpdate (w.setReg (Reg.INTC.MASK k) (srcBits k v.toNat)))) ∧
  (∀ (v : Nat),
     srcBits 0 v = v &&& 0xFFFFFFFE ∧ srcBits 127 v = v &&& 0x7FFFFFFF) ∧
  (∀ (k : Fin 128) (t : Fin 4) s w, s.live intcPage = true → s.hb (.holdRun k t) = true →
     waitRoot (s.hn (.holdAt k t) + cycUs (s.reg (Reg.INTC.HOLDOFF k))) s = w →
     exec (.holdoffExpire k t) s = .next (intcUpdate (w.setHb (.holdRun k t) false))) ∧
  (∀ (k : Fin 128) (t : Fin 4) s, s.hb (.holdRun k t) = false →
     exec (.holdoffExpire k t) s = .next s) ∧
  (∀ (t : Fin 3) s, s.live intcPage = true → targetRuns s t = true →
     exec (.coreIdleEnter t) s = .next (if (stackOf s t).isEmpty then intcUpdate (s.setHb (.coreIdle t) true) else s)) ∧
  (∀ r (v : W32) s, Admits s r Reg.INTC.DOORBELL →
     exec (.doorbell r v) s = .next (doorbell r v.toNat (firstWrite r s))) ∧
  (∀ r (t : Fin 4) (v : W32) s, Admits s r (Reg.INTC.EOI t) →
     exec (.eoi r t v) s = .next (eoi r t v.toNat (firstWrite r s))) ∧
  (∀ r (t : Fin 4) s,
     exec (.claim r t) s = .next (readFor r (Reg.INTC.CLAIM t) (claim r t) s)) ∧
  (∀ (w : Fin 128) (t : Fin 4) s, s.live intcPage = true →
     exec (.holdoffExpire w t) s = .next (holdoffEnd w t s))

/-- The periodic frame engine. With no enabled entry nothing is emitted. The entry due first, lowest number on ties, has
its turn at its instant, LEAD earlier with a launch time, and not before the last frame's 64 cycles; an instant whose
successor has passed is missed, its SEQ counted. Otherwise its frame is built from the template and offered to its
queue. The frame is LEN bytes of the entry's template, with SEQ placed at SEQ_OFF and advanced where the entry asks
for it, here an entry with neither SEQ nor launch time. With no frame of the entry held nothing is missed. The oldest
frame that has not started by its successor's instant is dropped and counted in MISSED. On their conditions,
PFE_EMISSION and PFE_MISSED have the effects stated. (R482, R483, R484, R485) -/
def Obligations.PeriodicFrames : Prop :=
  (∀ (carry : Bool) s, pfePick s = none →
     exec (.pfeEmission carry) s = .next s) ∧
  (∀ (carry : Bool) (i e n d : Nat) s w, s.live pfePage = true → s.timeRuns = true → pfePick s = some (i, e) →
     s.hn (.pfeNext i) - 1 = n → pfeDue s i e = d → waitRoot (s.hn .pfeFree) (advanceTo (d * 2 ^ 48) s) = w →
     d ≤ w.nowNs → n + pfePeriod e ≤ w.nowNs →
     exec (.pfeEmission carry) s = .next (pfeMiss i (pfeBuild i n (w.setH (.pfeNext i) (n + pfePeriod e + 1 : Nat))).2)) ∧
  (∀ (carry : Bool) (i e n d : Nat) (f : Frame) s w u, s.live pfePage = true → s.timeRuns = true →
     pfePick s = some (i, e) → s.hn (.pfeNext i) - 1 = n → pfeDue s i e = d →
     waitRoot (s.hn .pfeFree) (advanceTo (d * 2 ^ 48) s) = w → d ≤ w.nowNs → w.nowNs < n + pfePeriod e →
     pfeBuild i n ((w.setH (.pfeNext i) (n + pfePeriod e + 1 : Nat)).setH .pfeFree (w.root + 64 : Nat)) = (f, u) →
     (u.newFrame f).live bridgePage = true →
     exec (.pfeEmission carry) s = .next (offerTo carry (fld e 0 19) f (u.newFrame f))) ∧
  (∀ (i n e : Nat) s, s.tab pfePage 1 i = e → bit (word e 6) 31 = false → bit e 30 = false →
     pfeBuild i n s = (
       { id := s.hn .nextId, loc := .toQ (fld e 0 19), bytes := (pfeTemplate s (fld (word e 1) 18 14)).take (fld (word e 1) 0 9),
         birth := in16 s.fol, cls := queueClass s (fld e 0 19), noRw := true, osOvr := true, onestep := fld e 28 2,
         tsrc := fld e 26 2, launch := none, lsrc := 0, pfe := i + 1, pfeEnd := n + pfePeriod e }, s)) ∧
  (∀ (i : Fin 65536) s, s.frames.find? (fun f => f.pfe == i.val + 1 && pfeHeld f) = none →
     exec (.pfeMissed i) s = .next s) ∧
  (∀ (i : Fin 65536) (f : Frame) (q : Nat) s w, s.live pfePage = true → s.timeRuns = true →
     s.frames.find? (fun f => f.pfe == i.val + 1 && pfeHeld f) = some f → f.loc = .queued q →
     advanceTo (f.pfeEnd * 2 ^ 48) s = w → f.pfeEnd ≤ w.nowNs →
     exec (.pfeMissed i) s = .next (queueLeft q (pfeMiss i (w.drop f)))) ∧
  (∀ (carry : Bool) s, s.live pfePage = true → s.timeRuns = true →
     exec (.pfeEmission carry) s = .next (pfeEmit carry s)) ∧
  (∀ (i : Fin 65536) s, s.live pfePage = true → s.timeRuns = true →
     exec (.pfeMissed i) s = .next (pfeMissed i s))

/-- Requests of the host, and stopping, resetting and containing its function. A BAR0 read of one aligned DWORD is a
register read by HOST; its value is the completion. A write of one is a register write by HOST. Any request of more
than two DWORDs is an access error: ACC_ERR counts with code 0x10, a write has no other effect, and a read completes
as unsupported, which AER logs. A BAR2 request in no active window counts WIN_MISS; one that its window does not allow
counts WIN_DENY. One in a window that allows it acts on the window's target space at the window's target base. A
frozen function answers reads as unsupported and discards writes. A BAR4 read returns its DWORD; a write stores the
enabled bytes into the MSI-X table's writable bits. The expansion ROM answers reads while it is enabled, and takes no
write; a configuration read returns the register, with the bits that the spec leaves open free. In D3hot a memory read
is unsupported and a write discarded. Clearing Bus Master Enable stops requests; setting it issues the reads that
wait. FLR resets the function and holds it until FLR_DONE, which raises its event. A configuration request before the
boot, or while FLR runs, completes with Request Retry. A reset of the function stops requests, abandons reads, flushes
the rings, and returns its registers but the counters, its MSI-X table, its configuration, the stack of HOST and its
SPDM state to reset. A loss of the link raises event 6; announced it resets the function, else it freezes it with
cause 2. The link comes up with its width, x1 to x8, and speed unless a reset holds it. RELEASE ends the freeze once
the link is up; before that, or with no freeze, it is refused with code 0x13. PERST_ASSERT with isolation resets the
host function alone; without, the device as SYS_RST_N does. Its release ends the hold. A write of Interrupt Disable
stores it, and INTA follows. WIN_COMMIT makes the shadow windows active if each is valid and no two enabled ones
overlap, else it is refused with code 0x12. In every state BAR0_REQUEST, BAR2_REQUEST, BME_CLEAR, BME_SET, FLR,
PERST_ASSERT, INTERRUPT_DISABLE_WRITE and BAR4_REQUEST complete, with the effects stated. Admitted, WIN_COMMIT and
RELEASE have the effects stated. On its condition, PCIE_LINK_DOWN has the effect stated. (R495, R496, R505, R517,
R519, R521, R522, R523, R525, R526, R527) -/
def Obligations.HostFunction : Prop :=
  (∀ (a : BitVec 29) s, cfgOk s = true → s.hb .pmD3 = false → a.toNat % 4 = 0 →
     exec (.bar0Request a 1 true none) s = .next ((regRead .HOST a.toNat s).2.emit
       (.cpl false false (leBytes 4 (regRead .HOST a.toNat s).1)))) ∧
  (∀ (a : BitVec 29) (v : W32) s, cfgOk s = true → s.hb .pmD3 = false → a.toNat % 4 = 0 →
     exec (.bar0Request a 1 true (some [v])) s = .next (regWrite .HOST a.toNat v.toNat s)) ∧
  (∀ (a : BitVec 29) (d : BitVec 11) (be : Bool) (l : List W32) s, cfgOk s = true → s.hb .pmD3 = false → 2 < d.toNat →
     2 < l.length →
     exec (.bar0Request a d be (some l)) s = .next (accErr a.toNat s) ∧
       exec (.bar0Request a d be none) s = .next (cplUr (accErr a.toNat s))) ∧
  (∀ (a : W32) (n : BitVec 13) (ue : Bool) s, cfgOk s = true → s.hb .pmD3 = false → s.rbit Reg.HOST.CONTAIN 31 = false →
     s.live hostPage = true →
     (winAt s a.toNat (max n.toNat 1) = none →
       exec (.bar2Request a n none ue) s = .next (cplUr (bump Reg.HOST.WIN_MISS s))) ∧
     (∀ i, winAt s a.toNat (max n.toNat 1) = some i → bit (hostWin s true i).2.1 31 = false →
       exec (.bar2Request a n none ue) s = .next (cplUr (bump Reg.HOST.WIN_DENY s)))) ∧
  (∀ (a : W32) (n : BitVec 13) (ue : Bool) (i : Nat) s, cfgOk s = true → s.hb .pmD3 = false →
     s.rbit Reg.HOST.CONTAIN 31 = false → s.live hostPage = true → winAt s a.toNat (max n.toNat 1) = some i →
     bit (hostWin s true i).2.1 31 = true →
     exec (.bar2Request a n none ue) s = .next (
       let w := hostWin s true i
       winRead (fld w.2.1 8 3) (w.2.2 + (a.toNat - w.1)) n.toNat ue s)) ∧
  (∀ (a : W32) (n : BitVec 13) (l : List Byte) (ue : Bool) s, cfgOk s = true → s.hb .pmD3 = false →
     s.rbit Reg.HOST.CONTAIN 31 = true →
     exec (.bar2Request a n none ue) s = .next (cplUr s) ∧ exec (.bar2Request a n (some l) ue) s = .next s) ∧
  (∀ (a : Fin 4096) (be : BitVec 4) (v : W32) s, cfgOk s = true → s.hb .pmD3 = false →
     exec (.bar4Request (.bar4 a be none)) s = .next (s.emit (.cpl false false (leBytes 4 (s.reg (bank 60 (4 * a)))))) ∧
     exec (.bar4Request (.bar4 a be (some v))) s = .next (
       let m := (bitsOf be.toNat 4).foldl (fun m k => m + 255 * 2 ^ (8 * k)) 0 &&& bar4Mask a
       if m = 0 then s else s.setReg (bank 60 (4 * a)) (mergeMask (s.reg (bank 60 (4 * a))) v.toNat m))) ∧
  (∀ (o : BitVec 20) (n : BitVec 13) s, cfgOk s = true → s.hb .pmD3 = false → s.hb .romEn = true →
     exec (.bar4Request (.rom o n)) s = .next (s.emit
       (.cpl false false ((List.range n.toNat).map fun i => BitVec.ofNat 8 (byteAt romImage (o.toNat + i))))) ∧
     exec (.bar4Request (.romWrite o)) s = .next s) ∧
  (∀ (k : Fin 1024) s, s.clocked hostPage = true → s.hb .pciUp = true → s.hb .perst = false → s.h .booted ≠ 0 →
     s.hb .flr = false →
     exec (.bar4Request (.config k)) s = .next (
       let w := doeGo s
       w.free.2.emit (.cpl false false (leBytes 4 ((configWord w k).2 ||| (w.free.1 &&& (0xFFFFFFFF ^^^ (configWord w k).1))))))) ∧
  (∀ (f : State → State) s, cfgOk s = true → s.hb .pmD3 = true →
     memReq true f s = cplUr s ∧ memReq false f s = s) ∧
  (∀ s, s.clocked hostPage = true → s.hb .pciUp = true → s.hb .perst = false → s.h .booted ≠ 0 → s.hb .flr = false →
     (s.hb .bme = true → exec .bmeClear s = .next (stopRequests (s.setHb .bme false))) ∧ exec .bmeSet s = .next (issueReads (s.setHb .bme true))) ∧
  (∀ s, s.clocked hostPage = true → s.hb .pciUp = true → s.hb .perst = false → s.h .booted ≠ 0 → s.hb .flr = false →
     exec .flr s = .next (intcUpdate ((fnReset s).setHb .flr true))) ∧
  (∀ s, s.hb .flr = true →
     exec .flrDone s = .next (intcUpdate (raise hostPage 2 (s.setHb .flr false)))) ∧
  (∀ (f : State → State) s, s.clocked hostPage = true → s.hb .pciUp = true → s.hb .perst = false →
     s.h .booted = 0 ∨ s.hb .flr = true →
     configReq f s = s.emit .cplRetry) ∧
  (∀ s,
     fnReset s = (
       let t := abandonReads (stopRequests (s.setHb .bme false))
       let t := forEach (List.range 64) t puntFlush
       let t := forEach (List.range 16) t injFlush
       let t : State := { t with
         regs := t.regs.filter fun e => !(fnReg e.1 || e.1 / 2 ^ 32 == 60)
         hid := t.hid.filter fun e => e.1 / 2 ^ 96 != (Hid.msiSent 0).code / 2 ^ 96 && e.1 != (Hid.evtUnread hostPage).code &&
           !((Hid.tblOp hostPage 0).code ≤ e.1 && e.1 < (Hid.tblOp (hostPage + 1) 0).code)
         intStacks := t.intStacks.filter fun e => e.1 != 3
         doeQ := []
         spdm := t.spdm.filter fun e => e.1 != 0 }
       forEach [.msixEn, .msixMask, .intDis, .mrrs, .tags, .intaOn, .cto, .roOff, .romEn, .pmD3] t fun h t => t.setH h 0)) ∧
  (∀ (ann : Bool) s w, s.hb .pciUp = true → raise hostPage 6 ((s.setHb .pciUp false).setHb .intaOn false) = w →
     exec (.pcieLinkDown ann) s = .next (if ann then fnReset w else freeze 2 w)) ∧
  (∀ (k : Fin 4) (sp : Fin 5) s, s.pageOn hostPage = true → s.hb .perst = false → s.h .rstHold = 0 →
     exec (.pcieLinkUp k sp) s = .next (intcUpdate ((s.setHb .pciUp true).setH .linkWS (2 ^ k.val * 16 + (sp.val + 1) : Nat)))) ∧
  (∀ r (v : W32) s w, Admits s r Reg.HOST.RELEASE → firstWrite r s = w → bit v.toNat 0 = true →
     exec (.release r v) s = .next (if w.rbit Reg.HOST.CONTAIN 31 && w.hb .pciUp then issueReads (w.setReg Reg.HOST.CONTAIN 0)
       else errReq hostPage 0x13 r Reg.HOST.RELEASE v.toNat w)) ∧
  (∀ s, s.hb .perst = false →
     exec .perstAssert s = .next (if s.hb .iso then intcUpdate (fnReset (((s.setHb .perst true).setHb .pciUp false).setHb .flr false))
       else holdReset 1 true ((deviceReset 3 (s.rbit Reg.FAULT.FIRST 31) s).setHb .perst true))) ∧
  (∀ s,
     exec .perstRelease s = .next (holdReset 1 false (s.setHb .perst false))) ∧
  (∀ (dis : Bool) s, s.clocked hostPage = true → s.hb .pciUp = true → s.hb .perst = false → s.h .booted ≠ 0 →
     s.hb .flr = false →
     exec (.interruptDisableWrite dis none) s = .next (intcUpdate (s.setHb .intDis dis))) ∧
  (∀ r (v : W32) s w, Admits s r Reg.HOST.WIN_COMMIT → firstWrite r s = w → bit v.toNat 0 = true →
     exec (.winCommit r v) s = .next (if ((List.range 8).all (winOk w) && !winOverlap w) = true then
         forEach (List.range 8) w fun k t =>
           let t := t.setReg (Reg.HOST.ACT_WIN_BASE k) (t.reg (Reg.HOST.WIN_BASE k))
           let t := t.setReg (Reg.HOST.ACT_WIN_CFG k) (t.reg (Reg.HOST.WIN_CFG k))
           let t := t.setReg (Reg.HOST.ACT_TGT_BASE_LO k) (t.reg (Reg.HOST.TGT_BASE_LO k))
           t.setReg (Reg.HOST.ACT_TGT_BASE_HI k) (t.reg (Reg.HOST.TGT_BASE_HI k))
       else errReq hostPage 0x12 r Reg.HOST.WIN_COMMIT v.toNat w)) ∧
  (∀ (a : BitVec 29) (dw : BitVec 11) (be : Bool) (w : Option (List W32)) s,
     exec (.bar0Request a dw be w) s = .next (memReq w.isNone (match w with | some ws => bar0Write a.toNat be (ws.map BitVec.toNat) | none => bar0Read a.toNat dw.toNat be) s)) ∧
  (∀ (a : W32) (n : BitVec 13) (w : Option (List Byte)) (ue : Bool) s,
     exec (.bar2Request a n w ue) s = .next (memReq w.isNone (bar2 a.toNat (match w with | some bs => bs.length | none => n.toNat) w ue) s)) ∧
  (∀ s,
     exec .bmeClear s = .next (configReq (fun s => s.when (s.hb .bme) fun s => stopRequests (s.setHb .bme false)) s)) ∧
  (∀ s,
     exec .bmeSet s = .next (configReq (fun s => issueReads (s.setHb .bme true)) s)) ∧
  (∀ s,
     exec .flr s = .next (configReq (fun s => intcUpdate ((fnReset s).setHb .flr true)) s)) ∧
  (∀ s,
     exec .perstAssert s = .next (if s.hb .perst then s else if s.hb .iso then intcUpdate (fnReset (((s.setHb .perst true).setHb .pciUp false).setHb .flr false)) else holdReset 1 true ((deviceReset 3 (s.rbit Reg.FAULT.FIRST 31) s).setHb .perst true))) ∧
  (∀ (dis : Bool) (cfg : Option PciCfg) s,
     exec (.interruptDisableWrite dis cfg) s = .next (configReq (fun s => intcUpdate (match cfg with | none => s.setHb .intDis dis | some c => issueReads (pciWrite c (s.setHb .intDis dis)))) s)) ∧
  (∀ (t : HostAccess) s,
     exec (.bar4Request t) s = .next (match t with | .bar4 a be v => memReq v.isNone (bar4 a be.toNat v) s | .rom o n => memReq true (romRead o.toNat n.toNat) s | .romWrite _ => s | .config k => configReq (fun s => configRead k (doeGo s)) s | .discovery i => configReq (fun s => (doeGo s).emit (.doe (doeDiscovery i.toNat))) s)) ∧
  (∀ r (v : W32) s, Admits s r Reg.HOST.WIN_COMMIT →
     exec (.winCommit r v) s = .next (winCommitHost r v.toNat (firstWrite r s))) ∧
  (∀ r (v : W32) s, Admits s r Reg.HOST.RELEASE →
     exec (.release r v) s = .next (releaseWrite r v.toNat (firstWrite r s))) ∧
  (∀ (announced : Bool) s, s.hb .pciUp = true →
     exec (.pcieLinkDown announced) s = .next (linkDown announced s))

/-- The punt and inject rings, and messages held back. A ring with nothing waiting writes nothing. The frame at the head
of a working ring is written into the posted buffers behind its metadata; whole, it leaves, counts, and rings its
source. A part is written as far as buffers are posted, and the rest is kept for later. The frame that has waited
longest is dropped once it has waited longer than the age limit. P_TAIL and I_TAIL take an index of their ring; any
other is refused with code 0x11. So for inject rings. A write of P_CFG with BUF_SIZE or SIZE out of range, or that
changes more than EN of an enabled ring, is refused with code 0x11; enabling clears the indices and ABORTED; disabling
drops the frames that wait. So for I_CFG, which has no BUF_SIZE. The next working ring with a whole frame posted, in
round robin, is taken up from its first descriptor with SOP and its reads issued; with none nothing happens. A frame
of less than 60 or more than 12,288 bytes gets status 4 and is not read. A completion ends the oldest outstanding read
of its ring; poisoned data is an error under AER, which masked ends the read, else the frame's reads; one that matches
no read is unexpected. Any other error under AER is logged, and freezes the function unless masked. A frame that has
been read is offered to its queue, or refused with its status. Its status is 7 for a read error, 3 for a queue that
does not exist, 6 for timestamps on a queue without them. Once a frame's status is known its descriptors are written
back in ring order; with none known nothing happens. A completion timeout, CTO after the read was issued and unless
disabled, is logged, and ends the read with an error, masked or with Bus Master Enable clear, else freezes the
function. A message held back is sent at the end of the hold for the sources of its vector then presentable, and its
PBA bit cleared. A completion for a ring with no outstanding read is unexpected. PUNT_WRITE of a working ring has the
effect puntWrite, or puntUe where a buffer that it reads fails. In live blocks, PUNT_AGE_DROP and COMPLETION_TIMEOUT
have the effects stated. In every state INJECT_OFFER and INJECT_WRITEBACK complete, with the effects stated. On its
condition, MSIX_HOLD_END has the effect stated. (R504, R508, R509, R511, R513, R514, R515, R516, R517, R518, R528) -/
def Obligations.PuntAndInjectRings : Prop :=
  (∀ (k : Fin 64) (l : List W64) s, s.firstAt (.host k) = none →
     exec (.puntWrite k l false) s = .next s) ∧
  (∀ (k : Fin 64) (l : List W64) (f : Frame) (n : Nat) s w, dmaOk s = true → puntOn s k = true →
     s.firstAt (.host k) = some f → s.h (.puntPart k) = 0 →
     n = (puntChunks (256 * s.rfld (Reg.HOST.P_CFG k) 0 7) f).length → n ≤ l.length →
     n ≤ posted s (Reg.HOST.P_CFG k) (Reg.HOST.P_HEAD k) (Reg.HOST.P_TAIL k) →
     (forEach (List.range n) s fun j s => puntFill k ((w.reg (Reg.HOST.P_HEAD k) + j) % ringSize w (Reg.HOST.P_CFG k)) ((l.map BitVec.toNat).getD j 0) ((puntChunks (256 * w.rfld (Reg.HOST.P_CFG k) 0 7) f).getD j []) (j == 0) (j + 1 == n) s) = w →
     w.regs = s.regs →
     exec (.puntWrite k l false) s = .next (
       let t := w.setReg (Reg.HOST.P_HEAD k) ((s.reg (Reg.HOST.P_HEAD k) + n) % ringSize s (Reg.HOST.P_CFG k))
       let t := (t.setH (.puntPart k) 0).drop f
       ring (0xE00 + k) (bumpBy (Reg.HOST.P_BYTES k) f.bytes.length (bump (Reg.HOST.P_FRAMES k) t)))) ∧
  (∀ (k : Fin 64) (f : Frame) s, dmaOk s = true → puntOn s k = true → s.firstAt (.host k) = some f →
     s.h (.puntPart k) = 0 → s.reg (Reg.HOST.P_HEAD k) < ringSize s (Reg.HOST.P_CFG k) →
     (puntChunks (256 * s.rfld (Reg.HOST.P_CFG k) 0 7) f) ≠ [] →
     exec (.puntWrite k [] false) s = .next ((s.setReg (Reg.HOST.P_HEAD k) (s.reg (Reg.HOST.P_HEAD k))).setH (.puntPart k) 0)) ∧
  (∀ (k : Fin 64) (f : Frame) s w, s.live hostPage = true → s.firstAt (.host k) = some f →
     advanceFolTo ((f.since + f.limit * 1000 + 1) * unitsNs) s = w → f.since + f.limit * 1000 < w.folNs →
     exec (.puntAgeDrop k) s = .next (puntDrop (Reg.HOST.P_DROP_AGED k) f (w.setH (.puntPart k) 0))) ∧
  (∀ r (k : Fin 64) (v : W32) s w, Admits s r (Reg.HOST.P_TAIL k) → firstWrite r s = w →
     exec (.pTailWrite r k v) s = .next (if ringSize w (Reg.HOST.P_CFG k) ≤ v.toNat % 65536 then
       errReq hostPage 0x11 r (Reg.HOST.P_TAIL k) v.toNat w else w.setReg (Reg.HOST.P_TAIL k) (v.toNat % 65536))) ∧
  (∀ r (k : Fin 16) (v : W32) s w, Admits s r (Reg.HOST.I_TAIL k) → firstWrite r s = w →
     exec (.iTailWrite r k v) s = .next (if ringSize w (Reg.HOST.I_CFG k) ≤ v.toNat % 65536 then
       errReq hostPage 0x11 r (Reg.HOST.I_TAIL k) v.toNat w else w.setReg (Reg.HOST.I_TAIL k) (v.toNat % 65536))) ∧
  (∀ r (k : Fin 64) (j : Fin 80) (v : W32) s w, j.val = k.val → Admits s r (Reg.HOST.P_CFG k) → firstWrite r s = w →
     exec (.ringEnable r j v) s = .next (
       let n := v.toNat &&& 0x801F007F
       let o := w.reg (Reg.HOST.P_CFG k)
       if (1 ≤ fld v.toNat 0 7 && fld v.toNat 0 7 ≤ 64) = false ∨ fld n 16 5 < 6 ∨ 16 < fld n 16 5 ∨ (bit o 31 ∧ fld n 0 31 ≠ fld o 0 31) then
         errReq hostPage 0x11 r (Reg.HOST.P_CFG k) v.toNat w
       else
         let t := w.setReg (Reg.HOST.P_CFG k) n
         if bit n 31 ∧ ¬ bit o 31 then ((t.setReg (Reg.HOST.P_HEAD k) 0).setReg (Reg.HOST.P_TAIL k) 0).setReg (Reg.HOST.P_STS k) 0
         else if bit o 31 ∧ ¬ bit n 31 then puntFlush k t else t)) ∧
  (∀ r (k : Fin 16) (j : Fin 80) (v : W32) s w, j.val = 64 + k.val → Admits s r (Reg.HOST.I_CFG k) →
     firstWrite r s = w →
     exec (.ringEnable r j v) s = .next (
       let n := v.toNat &&& 0x801F0000
       let o := w.reg (Reg.HOST.I_CFG k)
       if fld n 16 5 < 6 ∨ 16 < fld n 16 5 ∨ (bit o 31 ∧ fld n 0 31 ≠ fld o 0 31) then errReq hostPage 0x11 r (Reg.HOST.I_CFG k) v.toNat w
       else
         let t := w.setReg (Reg.HOST.I_CFG k) n
         if bit n 31 ∧ ¬ bit o 31 then ((t.setReg (Reg.HOST.I_HEAD k) 0).setReg (Reg.HOST.I_TAIL k) 0).setReg (Reg.HOST.I_STS k) 0
         else if bit o 31 ∧ ¬ bit n 31 then injFlush k t else t)) ∧
  (∀ (wh : BitVec 16) (ds : List (BitVec 256)) s,
     (firstFrom (s.hn .injTurn) ((List.range 16).filter fun i => injOn s i && bit wh.toNat i && injPosted s i != 0) = none →
       exec (.injectRead wh ds) s = .next s) ∧
     (∀ i l xs k, firstFrom (s.hn .injTurn) ((List.range 16).filter fun i => injOn s i && bit wh.toNat i && injPosted s i != 0) = some i →
       (ds.take (injPosted s i)).map BitVec.toNat = xs → (xs.takeWhile fun d => !dscSop d).length = k →
       uptoEop (xs.drop k) = some l → dmaOk s = true → exec (.injectRead wh ds) s = .next (issueReads (injTake i k l s)))) ∧
  (∀ (i k : Nat) (l : List Nat) s, (l.map dscLen).sum < 60 ∨ 12288 < (l.map dscLen).sum →
     injTake i k l s = { s.setH .injTurn ((i + 1) % 16 : Nat) with injects := s.injects ++ [{
       ring := i, skip := k, desc := (s.reg (Reg.HOST.I_HEAD i) + claimed s i + k) % ringSize s (Reg.HOST.I_CFG i), descs := l.length,
       sop := l.headD 0, reads := [], bytes := [], err := false, offered := true, cells := [], status := some 4, ts := 0 }] }) ∧
  (∀ (i : Fin 16) (data : List Byte) (x : Fin 3) s, s.clocked hostPage = true → s.hb .pciUp = true →
     readPending s i = true →
     exec (.readCompletion (some i) data x none) s = .next (if x.val = 2 then
       aerError 12 (if bit (s.hn .aerMask) 12 then readEnd i data true s else readFail i s) else readEnd i data (x.val != 0) s) ∧
     exec (.readCompletion none data x none) s = .next (unexpected s)) ∧
  (∀ (i : Option (Fin 16)) (data : List Byte) (x : Fin 3) (b : Fin 32) s, s.clocked hostPage = true →
     s.hb .pciUp = true → aerBits.contains b.val = true →
     exec (.readCompletion i data x (some b)) s = .next (
       let w := aerLog b s
       if bit (w.hn .aerMask) b ∨ b.val = 16 ∨ b.val = 20 then w else freeze 1 w)) ∧
  (∀ (i : Fin 16) (carry : Bool) (j : Inj) s, s.injects.find? (fun j => j.ring == i.val && !j.offered) = some j →
     dmaOk s = true → injOn s i = true → j.reads = [] →
     exec (.injectOffer i carry) s = .next (injOffer carry j s)) ∧
  (∀ (j : Inj) s,
     injRefused s j = (if j.err then 7
       else if 393215 < dscQueue j.sop ∨ (isVoq (dscQueue j.sop) ∧ bit (s.tab qmgrPage 2 (dscQueue j.sop / 8)) 31 = false) then 3
       else if (dscTsReq j.sop ∨ dscOnestep j.sop ≠ 0) ∧ lineQueue s (dscQueue j.sop) = false then 6
       else 0)) ∧
  (∀ (i : Fin 16) (j : Inj) s, s.injects.find? (fun j => j.ring == i.val) = some j →
     (j.status = none → exec (.injectWriteback i) s = .next s) ∧
     (∀ x, j.status = some x → dmaOk s = true → injOn s i = true → exec (.injectWriteback i) s = .next (injWriteback j x s))) ∧
  (∀ (i : Fin 16) s u, s.clocked hostPage = true → readPending s i = true → bit (s.hn .cto) 4 = false →
     waitRoot (readSince s i + cycUs (ctoUs (s.hn .cto % 16))) s = u →
     exec (.completionTimeout i) s = .next (
       let w := raise hostPage 4 (bump Reg.HOST.CPL_TIMEOUT (aerLog 14 u))
       if u.hb .bme then (if bit (w.hn .aerMask) 14 then readEnd i [] true w else freeze 1 w)
       else bump Reg.HOST.ABANDONED (readEnd i [] true u))) ∧
  (∀ (v : Fin 64) s w, cfgOk s = true → s.rbit (bank 60 (0x800 + 4 * (v / 32))) (v % 32) = true → msixHeld s v = false →
     s.setRbit (bank 60 (0x800 + 4 * (v / 32))) (v % 32) false = w →
     exec (.msixHoldEnd v) s = .next (
       let l := (presentable s 3).filter fun x => s.rfld (Reg.INTC.SRC_CFG x) 16 6 == v.val
       let t := forEach ((srcsOf w 3).filter fun x => s.rfld (Reg.INTC.SRC_CFG x) 16 6 == v.val) w fun x t =>
         if t.h (.msiSent x) = 2 then t.setH (.msiSent x) 0 else t
       if l.isEmpty || !t.hb .msixEn then t else (forEach l t fun x t => t.setH (.msiSent x) 1).emit (.msix v))) ∧
  (∀ (i : Fin 16) (data : List Byte) (x : Fin 3) s, s.clocked hostPage = true → s.hb .pciUp = true →
     readPending s i = false →
     exec (.readCompletion (some i) data x none) s = .next (unexpected s)) ∧
  (∀ (k : Fin 64) (l : List W64) (ue : Bool) s, dmaOk s = true → puntOn s k = true →
     exec (.puntWrite k l ue) s = .next (if ue then puntUe k s else puntWrite k (l.map BitVec.toNat) s)) ∧
  (∀ (r : Fin 64) s, s.live hostPage = true →
     exec (.puntAgeDrop r) s = .next (puntAge r s)) ∧
  (∀ (i : Fin 16) s, s.clocked hostPage = true →
     exec (.completionTimeout i) s = .next (cplTimeout i s)) ∧
  (∀ (i : Fin 16) (carry : Bool) s,
     exec (.injectOffer i carry) s = .next (match s.injects.find? fun j => j.ring == i.val && !j.offered with | some j => s.when (dmaOk s && injOn s i && j.reads.isEmpty) (injOffer carry j) | none => s)) ∧
  (∀ (i : Fin 16) s,
     exec (.injectWriteback i) s = .next (match s.injects.find? fun j => j.ring == i.val with | some j => (match j.status with | some st => s.when (dmaOk s && injOn s i) (injWriteback j st) | none => s) | none => s)) ∧
  (∀ (v : Fin 64) s, cfgOk s = true →
     exec (.msixHoldEnd v) s = .next (holdEnd v s))

/-- The start of the device, its slots, keys and security version numbers. The boot core starts once, with the root PLL
locked and no reset held, 10 us after the reset: it enables the AON blocks, reads the Pegbox, measures the ROM, the
configuration and the directory, tries the slots, and orders the loads of processors whose domain is on. It does not
start twice. A start from a slot caches and measures its engine images, then checks its CONTROL image: RUN_SLOT names
the slot and both cores are to be loaded from it; an image that is refused is reported and discards every image
loaded. An engine image refused ends it too. The chosen slot is started from; where it fails the other is, with
FALLBACK and event 1; where that fails too the device is in recovery, with event 0. KEY_REVOKE revokes keys that no
running image uses, keeps at least one, and is recorded. SVN_COMMIT by a requester that may not order it, or for a
type that does not exist, is refused with code 0x12. With no image of the type running it orders a store of the table
of minimum SVNs unchanged. With images of the type running, the minimum of the type rises to one less than the least
of their SVNs, and never falls. ENG_RELOAD of an engine that exists, whose block is not in a flip or a snapshot, with
no other reload under way, joins the flash operations. Any other is refused with code 0x10. Its end runs the new
image, or keeps the old one where a check fails. With none under way nothing ends. RUN_SLOT asks for a full check of
the slot, by a requester that may order it; else code 0x11. A valid slot enters RUN_SLOT at the end of the check;
another is refused with code 0x11. Admitted, SVN_COMMIT and ENG_RELOAD have the effects stated. In every state
ENG_RELOAD_DONE and RUN_SLOT_CHECK_DONE complete, with the effects stated. (R538, R539, R540, R541, R545, R546) -/
def Obligations.StartAndTrust : Prop :=
  (∀ (ok : Bool) s t w u, s.h .booted = 0 → s.pllOk = true → s.h .rstHold = 0 →
     waitRoot (s.hn .resetAt + cycUs 10) s = t →
     readPegbox (mrConfig 1 [] (forEach aonPages ((t.setH .booted 1).setHb .flashBad !ok) fun p t => t.setRbit (Reg.BLK_CTL p) 0 true)) = w →
     bootSlots ((mrConfig 7 lindun (mrConfig 2 (pegData w 0 ++ [BitVec.ofNat 8 (w.reg Reg.SEC.KEY_STS)] ++ pegData w 3) w)).setHb .lifeDue true) = u →
     exec (.bootStart ok) s = .next (forEach (List.range 9) u fun k t =>
       if procDomain k ≠ 0 ∧ t.domOn (procDomain k) = true then askLoad k t else t)) ∧
  (∀ (ok : Bool) s, s.h .booted = 1 →
     exec (.bootStart ok) s = .next s) ∧
  (∀ (n c : Nat) s w, startEngines n (List.range 7) s = (none, w) → checkImage w n 0x01 none = c →
     startFrom n s = (if c = 0 then
         (true, (((w.setReg Reg.SEC.RUN_SLOT n).setH .startSlot n).setH (.coreSlot 0) n).setH (.coreSlot 1) n)
       else (false, cacheClear (loadErr n 0x01 c w)))) ∧
  (∀ (n a b : Nat) s w, startEngines n (List.range 7) s = (some (a, b), w) →
     startFrom n s = (false, cacheClear (loadErr n a b w))) ∧
  (∀ (b : Bool) s w, startFrom (chosenSlot s) s = (b, w) →
     bootSlots s = (if b then w else
       match startFrom (1 - chosenSlot s) (raise secPage 1 (w.setReg Reg.SEC.BOOT_STS (2 ^ 29))) with
       | (true, t) => t
       | (false, t) =>
         let u := (t.setReg Reg.SEC.BOOT_STS (2 ^ 30 + 2 ^ 29)).setHb .recovery true
         raise secPage 0 (u.setH .lifeRec (u.h .lifeRec + 1)))) ∧
  (∀ r (v : W32) s w, Admits s r Reg.SEC.KEY_REVOKE → firstWrite r s = w →
     exec (.keyRevoke r v) s = .next (
       let n := w.reg Reg.SEC.KEY_STS ||| (v.toNat % 16)
       if !ordersOk w r ∨ n = 15 ∨ ((runningKeys w).any fun x => x != 0 && bit (v.toNat % 16) (x - 1)) = true then
         errReq secPage 0x13 r Reg.SEC.KEY_REVOKE v.toNat w
       else mrConfig 6 [BitVec.ofNat 8 n] (w.setReg Reg.SEC.KEY_STS n))) ∧
  (∀ r (v : W32) s w, Admits s r Reg.SEC.SVN_COMMIT → firstWrite r s = w →
     ordersOk w r = false ∨ imageTypes.contains (v.toNat % 256) = false →
     exec (.svnCommit r v) s = .next (errReq secPage 0x12 r Reg.SEC.SVN_COMMIT v.toNat w)) ∧
  (∀ r (v : W32) s w, Admits s r Reg.SEC.SVN_COMMIT → firstWrite r s = w → ordersOk w r = true →
     imageTypes.contains (v.toNat % 256) = true → (runningSvn w (v.toNat % 256)).filter (· != 0) = [] →
     exec (.svnCommit r v) s = .next (pegAsk 3 ((List.range 256).map fun i => BitVec.ofNat 8 (byteAt (pegLatest w 3) i)) w)) ∧
  (∀ r (v : W32) (x : Nat) (l : List Nat) s w, Admits s r Reg.SEC.SVN_COMMIT → firstWrite r s = w →
     ordersOk w r = true → imageTypes.contains (v.toNat % 256) = true →
     (runningSvn w (v.toNat % 256)).filter (· != 0) = x :: l →
     exec (.svnCommit r v) s = .next (pegAsk 3 ((List.range 256).map fun i => BitVec.ofNat 8
       (if i = v.toNat % 256 then max (l.foldl min x - 1) (byteAt (pegLatest w 3) i) else byteAt (pegLatest w 3) i)) w)) ∧
  (∀ r (v : W32) s w, Admits s r Reg.SEC.ENG_RELOAD → firstWrite r s = w → ordersOk w r = true → fld v.toNat 0 3 ≠ 7 →
     (fld v.toNat 0 3 = 2 → w.hn .capoState < 2) → (fld v.toNat 0 3 = 3 → snapBusy w = false) → reloading w = false →
     exec (.engReload r v) s = .next (flashGo (flashAsk (.engine (fld v.toNat 0 3) (fld v.toNat 8 1)) w))) ∧
  (∀ r (v : W32) s w, Admits s r Reg.SEC.ENG_RELOAD → firstWrite r s = w →
     ordersOk w r = false ∨ fld v.toNat 0 3 = 7 ∨ reloading w = true →
     exec (.engReload r v) s = .next (errReq secPage 0x10 r Reg.SEC.ENG_RELOAD v.toNat w)) ∧
  (∀ (i n c : Nat) s w, flashHead s = some (.engine i n) →
     flashEnd ((if s.h .stopAt = 0 then s else waitRoot (s.hn .stopAt - 1) s).setH .stopAt 0) = w →
     checkImage w n (0x10 + i) none = c →
     exec .engReloadDone s = .next (flashGo (match c, imageAt w n (0x10 + i) with
       | 0, some off =>
         let t := mrImage 8 n off (cacheImage n i w)
         if t.h (.eng i) = 0 then t else engineStart i t
       | c, _ => loadErr n (0x10 + i) c w))) ∧
  (∀ s, flashHead s = none →
     exec .engReloadDone s = .next s) ∧
  (∀ r (v : W32) s w, Admits s r Reg.SEC.RUN_SLOT → firstWrite r s = w →
     exec (.runSlotWrite r v) s = .next (if ordersOk w r then flashGo (flashAsk (.check (v.toNat % 2) (reqNo r)) w)
       else errReq secPage 0x11 r Reg.SEC.RUN_SLOT v.toNat w)) ∧
  (∀ (n m : Nat) s w, flashHead s = some (.check n m) → flashEnd s = w →
     exec .runSlotCheckDone s = .next (flashGo (if slotValid w n then w.setReg Reg.SEC.RUN_SLOT n
       else errBy secPage 0x11 m (Reg.SEC.RUN_SLOT % 0x10000) n w))) ∧
  (∀ r (v : W32) s, Admits s r Reg.SEC.SVN_COMMIT →
     exec (.svnCommit r v) s = .next (svnCommit r v.toNat (firstWrite r s))) ∧
  (∀ r (v : W32) s, Admits s r Reg.SEC.ENG_RELOAD →
     exec (.engReload r v) s = .next (engReload r v.toNat (firstWrite r s))) ∧
  (∀ s,
     exec .engReloadDone s = .next (engReloadDone s)) ∧
  (∀ s,
     exec .runSlotCheckDone s = .next (slotCheckDone s))

/-- The recovery protocol, SPDM and stores to the Pegbox. An answer counts, goes from the service MAC to the requester,
and is kept with its SEQ and time. A HELLO with no peer locked, or idle for 10 s, locks the sender. Any other is a
request of the locked peer. A frame for another address or Ethertype has no effect; a malformed request is answered
with type 0xFF and status 1, another source with status 2, a repeated SEQ with the last response, or not while it
waits for its answer. SLOT_INFO joins the flash operations, or has status 1. An ERASE not permitted has its reason's
status, one of a slot to be loaded from 8; any other joins them. Completed, it leaves the slot erased, or has status
6; the operations go on. A WRITE is refused as it arrives or joins them. It is refused out of form, for a slot that
takes none or is to be loaded from, or past the slot's end. Served, it programs the flash and tells whether it reads
back; READ answers flash bytes. A request whose turn has come is answered at once, but for an ERASE. READ has status 1
or 4 out of form or past the slot, or joins them. SET_BOOT of an option above 2 has status 1; any other joins them.
Served, it orders the store of the option if a slot that it may start from is valid; else status 7. A permitted RESET
is answered, and resets the device 10 ms after; else status 3. SPDM is answered over DOE in the order of its requests,
and over Eloatal. STORE to an area that takes stores, of at most 4,032 bytes, with none in progress: STORE_STS reads
BUSY, and the staged bytes are to be stored. A second is refused with code 0x10, areas 2 to 31 with 0x11, a greater
length with 0x12. One that ends well is committed: BOOT_OPT and the minimum SVNs are measured, these with event 4. One
that fails leaves its page erased, with code 0x13. With none in progress nothing ends. The LIFETIME record adds an
hour, the recovery entries and handovers since, and keeps the highest temperature. At a start it adds the start. In
every state SPDM_REQUEST, HELLO, SLOT_INFO, ERASE, ERASE_DONE, ELOATAL_WRITE, ELOATAL_READ, SET_BOOT, ELOATAL_RESET,
STORE_DONE and LIFETIME_STORE complete, with the effects stated. Admitted, STORE has the effect stated. (R547, R548,
R549, R550, R551, R553, R556, R557) -/
def Obligations.EloatalAndPegbox : Prop :=
  (∀ (h : EloHdr) (typ sts : Nat) bytes s,
     eloAnswer h typ sts bytes s = (
       let b := eloResp (typ + 0x80) h.seq.toNat sts bytes
       let t : State := { bump Reg.SEC.ELO_RX s with eloLast := b }
       ((t.setH .eloSeq (h.seq.toNat + 1 : Nat)).setH .eloAt (t.root : Nat)).emit
         (.elo (beBytes 6 h.mac.toNat ++ beBytes 6 serviceMac ++ beBytes 2 0x88B5 ++ b)))) ∧
  (∀ (h : EloHdr) (idle : Bool) s t w, (if idle then waitRoot (s.hn .eloAt + cycUs 10000000) s else s) = t →
     eloRuns t = true → eloFor h 1 = true → eloMalformed h 0 = false →
     t.h .eloPeer = 0 ∨ (s.hn .eloAt + cycUs 10000000 ≤ t.root ∧ eloWaits t = false) →
     raise secPage 3 ((((t.setReg Reg.SEC.ELO_PEER_LO (h.mac.toNat % 2 ^ 32)).setReg Reg.SEC.ELO_PEER_HI (h.mac.toNat / 2 ^ 32)).setH .eloPeer 1).setH .eloSeq 0) = w →
     exec (.hello h idle) s = .next (eloGate h 0x01 0 (fun t => eloAnswer h 0x01 0 (helloPay t) t) w)) ∧
  (∀ (h : EloHdr) s, eloRuns s = true → s.h .eloPeer ≠ 0 → s.root < s.hn .eloAt + cycUs 10000000 →
     exec (.hello h false) s = .next (eloGate h 0x01 0 (fun t => eloAnswer h 0x01 0 (helloPay t) t) s)) ∧
  (∀ (h : EloHdr) (typ n : Nat) (f : State → State) s, eloRuns s = true →
     (eloFor h typ = false → eloGate h typ n f s = s) ∧
     (eloFor h typ = true → eloMalformed h n = true → eloGate h typ n f s = eloSend h (eloResp 0xFF h.seq.toNat 1 []) (bump Reg.SEC.ELO_BAD s)) ∧
     (eloFor h typ = true → eloMalformed h n = false → s.h .eloPeer = 0 ∨ eloMac s ≠ h.mac.toNat →
       eloGate h typ n f s = eloSend h (eloResp (typ + 0x80) h.seq.toNat 2 []) s) ∧
     (eloFor h typ = true → eloMalformed h n = false → s.h .eloPeer ≠ 0 → eloMac s = h.mac.toNat → eloOpen s h.seq = true →
       eloGate h typ n f s = s.setH .eloAt (s.root : Nat)) ∧
     (eloFor h typ = true → eloMalformed h n = false → s.h .eloPeer ≠ 0 → eloMac s = h.mac.toNat → eloOpen s h.seq = false →
       s.h .eloSeq = (h.seq.toNat + 1 : Nat) → eloGate h typ n f s = eloSend h s.eloLast (s.setH .eloAt (s.root : Nat)))) ∧
  (∀ (h : EloHdr) (x : Byte) s, EloServed s h 0x02 1 →
     exec (.slotInfo h x) s = .next (if 2 ≤ x.toNat then eloAnswer h 0x02 1 [] s
       else flashGo (flashAsk (.elo h (.slotInfo x.toNat)) (s.setH .eloAt (s.root : Nat))))) ∧
  (∀ (h : EloHdr) (x : Byte) s, EloServed s h 0x03 1 →
     exec (.erase h x) s = .next (if slotDenied s x.toNat ≠ 0 then eloAnswer h 0x03 (slotDenied s x.toNat) [] s
       else if slotLoading s x.toNat then eloAnswer h 0x03 8 [] s
       else flashGo (flashAsk (.elo h (.erase x.toNat)) (s.setH .eloAt (s.root : Nat))))) ∧
  (∀ (ok : Bool) (h : EloHdr) (n : Nat) s, flashHead s = some (.elo h (.erase n)) →
     exec (.eraseDone ok) s = .next (flashGo (eloAnswer h 0x03 (if ok then 0 else 6) []
       (flashEnd (if ok then s.eraseMem .flash (n * 2 ^ 24) (2 ^ 24) else s))))) ∧
  (∀ (h : EloHdr) (x : Byte) (o : W32) (l : List Byte) s, EloServed s h 0x04 (8 + l.length) →
     exec (.eloatalWrite h x o l) s = .next (
       let r := eloRefused (.write x.toNat o.toNat l) s
       if r = 0 then flashGo (flashAsk (.elo h (.write x.toNat o.toNat l)) (s.setH .eloAt (s.root : Nat))) else eloAnswer h 0x04 r [] s)) ∧
  (∀ (x o : Nat) (l : List Byte) s,
     eloRefused (.write x o l) s = (if slotDenied s x = 1 ∨ o % 4 ≠ 0 ∨ l.length % 4 ≠ 0 ∨ l.length < 4 ∨ 1024 < l.length then 1
       else if slotDenied s x ≠ 0 then slotDenied s x else if slotLoading s x then 8 else if 2 ^ 24 < o + l.length then 4 else 0)) ∧
  (∀ (x o n : Nat) (l b : List Byte) s, slotDenied s x = 0 → programmed (slotBytes s x o l.length) l = b →
     eloServes (.write x o l) s = (if b = l then 0 else 5, [], s.wrMem .flash (x * 2 ^ 24 + o) b) ∧
     eloServes (.read x o n) s = (0, slotBytes s x o n, s)) ∧
  (∀ (h : EloHdr) (m : EloMsg) (n : Nat) s, flashHead s = some (.elo h m) → (∀ x, m ≠ .erase x) →
     flashNext (n + 1) s = flashNext n (eloAnswer h m.no (eloServes m s).1 (eloServes m s).2.1 (flashEnd (eloServes m s).2.2))) ∧
  (∀ (h : EloHdr) (x : Byte) (o : W32) (n : BitVec 16) s, EloServed s h 0x05 10 →
     exec (.eloatalRead h x o n) s = .next (
       if 2 ≤ x.toNat ∨ n.toNat = 0 ∨ 1024 < n.toNat then eloAnswer h 0x05 1 [] s
       else if 2 ^ 24 < o.toNat + n.toNat then eloAnswer h 0x05 4 [] s
       else flashGo (flashAsk (.elo h (.read x.toNat o.toNat n.toNat)) (s.setH .eloAt (s.root : Nat))))) ∧
  (∀ (h : EloHdr) (x : Byte) s, EloServed s h 0x06 1 →
     exec (.setBoot h x) s = .next (if 2 < x.toNat then eloAnswer h 0x06 1 [] s
       else flashGo (flashAsk (.elo h (.setBoot x.toNat)) (s.setH .eloAt (s.root : Nat))))) ∧
  (∀ (x : Nat) s,
     eloServes (.setBoot x) s = (
       if (x = 2 ∧ !slotValid s 0 ∧ !slotValid s 1) ∨ (x < 2 ∧ !slotValid s x) then (7, [], s)
       else
         let d := pegLatest s 0
         (0, [], pegAsk 0 (overwrite (d ++ List.replicate (7 - d.length) 0) 0 [BitVec.ofNat 8 x]) s))) ∧
  (∀ (h : EloHdr) s, EloServed s h 0x07 0 →
     exec (.eloatalReset h) s = .next (if eloPermit s 1 then
       deviceReset 4 true (waitRoot (s.root + cycUs 10000) (eloAnswer h 0x07 0 [] s))
       else eloAnswer h 0x07 3 [] s)) ∧
  (∀ (h : EloHdr) (msg : List Byte) s, EloServed s h 0x08 msg.length →
     exec (.spdmRequest none msg) s = .next (doeRequest msg (doeGo s)) ∧
     exec (.spdmRequest (some h) msg) s = .next (eloAnswer h 0x08 0 (eloSpdm msg s).1 (eloSpdm msg s).2)) ∧
  (∀ r (v : W32) s w, Admits s r Reg.PEG.STORE → firstWrite r s = w → w.live pegPage = true → w.pegJobs = [] →
     fld v.toNat 24 6 < 2 ∨ 31 < fld v.toNat 24 6 → fld v.toNat 0 12 ≤ 4032 →
     exec (.store r v) s = .next { w.setReg (storeSts (reqNo r)) (2 ^ 31) with
       pegJobs := [{ r := reqNo r, area := fld v.toNat 24 6, fmt := fld v.toNat 12 8, data := staging w (reqNo r) (fld v.toNat 0 12) }] }) ∧
  (∀ r (v : W32) (c : Nat) s w, Admits s r Reg.PEG.STORE → firstWrite r s = w → w.live pegPage = true →
     c = (if !w.pegJobs.isEmpty then 0x10 else if 2 ≤ fld v.toNat 24 6 ∧ fld v.toNat 24 6 ≤ 31 then 0x11 else 0x12) →
     w.pegJobs ≠ [] ∨ (2 ≤ fld v.toNat 24 6 ∧ fld v.toNat 24 6 ≤ 31) ∨ 4032 < fld v.toNat 0 12 →
     exec (.store r v) s = .next (errReq pegPage c r Reg.PEG.STORE v.toNat (w.setReg (storeSts (reqNo r))
       (setFld (w.reg (storeSts (reqNo r))) 0 31 (2 ^ 30 + c))))) ∧
  (∀ (j : PegJob) (l : List PegJob) s w, s.pegJobs = j :: l → { s with pegJobs := l } = w →
     exec (.storeDone true) s = .next (
       let t := pegCommit j.area j.fmt j.data (jobSts j 0 w)
       if j.area = 3 then raise secPage 4 (mrConfig 6 j.data t) else if j.area = 0 then mrConfig 6 j.data t else t)) ∧
  (∀ (j : PegJob) (l : List PegJob) s w, s.pegJobs = j :: l → { s with pegJobs := l } = w →
     exec (.storeDone false) s = .next (
       let g := (pegCurrent w j.area).elim (2 * j.area) fun p => 4 * j.area + 1 - p
       let t := pegStatus j.area (bump Reg.PEG.STORE_FAILS (jobSts j (2 ^ 30 + 0x13) (w.eraseMem .pegbox (4096 * g) 4096)))
       let v := j.area * 2 ^ 24 + j.fmt * 2 ^ 12 + j.data.length
       raise pegPage 1 (errBy pegPage 0x13 (j.r % 5) (Reg.PEG.STORE % 0x10000) v t))) ∧
  (∀ (ok : Bool) s, s.pegJobs = [] →
     exec (.storeDone ok) s = .next s) ∧
  (∀ s t w, eloRuns s = true → waitRoot (s.hn .lifeAt + cycUs 3600000000) s = t → t.setH .lifeAt (t.root : Nat) = w →
     exec (.lifetimeStore true) s = .next (
       let f := fun i => leNat (((pegLatest w 4).drop (4 * i)).take 4)
       pegAsk 4 (leBytes 4 (f 0 + 1) ++ leBytes 4 (f 1) ++ leBytes 4 (f 2 + w.hn .lifeRec) ++
         leBytes 4 (unsgn (max (sgn (f 3) 32) ((w.hn .tjHi : Int) - 128)) 32) ++ leBytes 4 ((f 4 : Int) + w.h .lifeHo).toNat)
         ((w.setH .lifeRec 0).setH .lifeHo 0))) ∧
  (∀ s w, eloRuns s = true → s.hb .lifeDue = true → (s.setHb .lifeDue false).setH .lifeAt (s.root : Nat) = w →
     exec (.lifetimeStore false) s = .next (lifetimeStore false w)) ∧
  (∀ (elo : Option EloHdr) (msg : List Byte) s,
     exec (.spdmRequest elo msg) s = .next (match elo with | none => if !eloRuns s then s else doeRequest msg (doeGo s) | some h => eloGate h 0x08 msg.length (fun s => let (ans, s) := eloSpdm msg s; eloAnswer h 0x08 0 ans s) s)) ∧
  (∀ (h : EloHdr) (idle : Bool) s,
     exec (.hello h idle) s = .next (let due := s.hn .eloAt + cycUs 10000000; let s := if idle then waitRoot due s else s; let free := s.h .eloPeer == 0 || (due ≤ s.root && !eloWaits s); let s := if eloRuns s && eloFor h 1 && !eloMalformed h 0 && free then let s := ((s.setReg Reg.SEC.ELO_PEER_LO (h.mac.toNat % 2 ^ 32)).setReg Reg.SEC.ELO_PEER_HI (h.mac.toNat / 2 ^ 32)).setH .eloPeer 1; raise secPage 3 (s.setH .eloSeq 0) else s; eloGate h 0x01 0 (fun s => eloAnswer h 0x01 0 (helloPay s) s) s)) ∧
  (∀ (h : EloHdr) (slot : Byte) s,
     exec (.slotInfo h slot) s = .next (eloAsk h (.slotInfo slot.toNat) 1 s)) ∧
  (∀ (h : EloHdr) (slot : Byte) s,
     exec (.erase h slot) s = .next (eloAsk h (.erase slot.toNat) 1 s)) ∧
  (∀ (ok : Bool) s,
     exec (.eraseDone ok) s = .next (eraseDone ok s)) ∧
  (∀ (h : EloHdr) (slot : Byte) (off : W32) (data : List Byte) s,
     exec (.eloatalWrite h slot off data) s = .next (eloAsk h (.write slot.toNat off.toNat data) (8 + data.length) s)) ∧
  (∀ (h : EloHdr) (slot : Byte) (off : W32) (n : BitVec 16) s,
     exec (.eloatalRead h slot off n) s = .next (eloAsk h (.read slot.toNat off.toNat n.toNat) 10 s)) ∧
  (∀ (h : EloHdr) (v : Byte) s,
     exec (.setBoot h v) s = .next (eloAsk h (.setBoot v.toNat) 1 s)) ∧
  (∀ (h : EloHdr) s,
     exec (.eloatalReset h) s = .next (eloGate h 0x07 0 (fun s => if eloPermit s 1 then deviceReset 4 true (waitRoot (s.root + cycUs 10000) (eloAnswer h 0x07 0 [] s)) else eloAnswer h 0x07 3 [] s) s)) ∧
  (∀ (ok : Bool) s,
     exec (.storeDone ok) s = .next (storeDone ok s)) ∧
  (∀ (hourly : Bool) s,
     exec (.lifetimeStore hourly) s = .next (if !eloRuns s then s else if hourly then let s := waitRoot (s.hn .lifeAt + cycUs 3600000000) s; lifetimeStore true (s.setH .lifeAt (s.root : Nat)) else s.when (s.hb .lifeDue) fun s => lifetimeStore false ((s.setHb .lifeDue false).setH .lifeAt (s.root : Nat)))) ∧
  (∀ r (v : W32) s, Admits s r Reg.PEG.STORE →
     exec (.store r v) s = .next (pegStore r v.toNat (firstWrite r s)))

/-- Cycle counters, bandwidth windows and flow statistics. The next sampling counter of cycles wraps when its cycles have
passed; with no such counter they are only brought up to date. A write of BW_CFG clears the registers of the port's
windows with their latched copies; an enabled one starts at the next boundary. WIN of 0, above 1,000,000 or no divisor
of it is refused with code 0x10. At the end of a window the counts are brought up to the time. Once a window has ended
its byte counts enter BW_RX and BW_TX and their maxima, BW_SEQ advances, and a new window starts at the next multiple
of its length. With no window running nothing ends. A read of BW_SEQ brings the counts up to the time, latches the
registers for its requester, and the maxima restart. FS_CFG with RATE 0 is refused with code 0x11, enabling without
the deep store with 0x12; else it is stored, and enabling ends a stall. A visit, RATE × 1 ms after the last, or the
fold of a queued pair, asks for its totals. A fold adds the front counters to the totals and clears them. FS_READ
returns the totals of its pair with its front counters, and asks for its fold. FS_CLEAR clears a pair's totals and
front counters. With a ready window FS_READ, FS_CLEAR have the effects and answers of snapTable. On their conditions,
PERF_WRAP and BW_WINDOW_END have the effects stated. In every state BW_SEQ_READ completes, with the effect stated.
Admitted, BW_CFG_WRITE has the effect stated. (R563, R567, R568, R570, R571, R572, R573) -/
def Obligations.CountersAndFlowStatistics : Prop :=
  (∀ (p : Fin 8192) s w, (pageOf p).isSome = true → s.live p = true → perfSync p s = w →
     exec (.perfWrap p) s = .next (match nextWrap w p with
       | none => w
       | some n => perfSync p (waitRoot (w.hn (.cycBase p) + (perfCyc w p + n) * clockDiv p) w))) ∧
  (∀ r (n : Fin 128) (v : W32) (m : Nat) s w u, Admits s r (Reg.LPORT.BW_CFG n) → firstWrite r s = w →
     v.toNat % 2 ^ 20 = m → m ≠ 0 → m ≤ 1000000 → 1000000 % m = 0 →
     (forEach (bwRegs n) w fun a s => forEach [Req.BOOT, .CC_A, .CC_B, .HOST, .JTAG] (s.setReg a 0) fun q s => s.setReg (bwLatch q a) 0) = u →
     exec (.bwCfgWrite r n v) s = .next (
       let t := ((u.setReg (Reg.LPORT.BW_CFG n) (v.toNat &&& 0x800FFFFF)).setH (.bwRx n) 0).setH (.bwTx n) 0
       t.setH (.bwStart n) (if bit v.toNat 31 then bwFloor m t.nowNs + m * 1000 + 1 else 0 : Nat))) ∧
  (∀ r (n : Fin 128) (v : W32) s w, Admits s r (Reg.LPORT.BW_CFG n) → firstWrite r s = w →
     v.toNat % 2 ^ 20 = 0 ∨ 1000000 < v.toNat % 2 ^ 20 ∨ 1000000 % (v.toNat % 2 ^ 20) ≠ 0 →
     exec (.bwCfgWrite r n v) s = .next (errReq (0x10 + n) 0x10 r (Reg.LPORT.BW_CFG n) v.toNat w)) ∧
  (∀ (n : Fin 128) s w, s.live (0x10 + n) = true → s.rbit (Reg.LPORT.BW_CFG n) 31 = true → s.h (.bwStart n) ≠ 0 →
     advanceTo ((s.hn (.bwStart n) - 1 + s.rfld (Reg.LPORT.BW_CFG n) 0 20 * 1000) * unitsNs) s = w →
     exec (.bwWindowEnd n) s = .next (bwCatch n w.nowNs w)) ∧
  (∀ (n m a t : Nat) s w, s.rbit (Reg.LPORT.BW_CFG n) 31 = true → s.hn (.bwStart n) = a → a ≠ 0 →
     s.rfld (Reg.LPORT.BW_CFG n) 0 20 = m → m ≠ 0 → a + m * 1000 ≤ t + 1 → t + 1 < a + 2 * (m * 1000) →
     (s.setReg (Reg.LPORT.BW_RX n) (s.hn (.bwRx n))).setReg (Reg.LPORT.BW_RX_MAX n) (max (s.reg (Reg.LPORT.BW_RX_MAX n)) (s.hn (.bwRx n))) = w →
     bwCatch n t s = (
       let t1 := (w.setReg (Reg.LPORT.BW_TX n) (w.hn (.bwTx n))).setReg (Reg.LPORT.BW_TX_MAX n)
         (max (w.reg (Reg.LPORT.BW_TX_MAX n)) (w.hn (.bwTx n)))
       let t2 := ((t1.setH (.bwRx n) 0).setH (.bwTx n) 0).setReg (Reg.LPORT.BW_SEQ n) ((t1.reg (Reg.LPORT.BW_SEQ n) + 1) % 2 ^ 32)
       t2.setH (.bwStart n) (max (a + m * 1000) (bwFloor m t + 1) : Nat))) ∧
  (∀ (n : Fin 128) s, s.rbit (Reg.LPORT.BW_CFG n) 31 = false →
     exec (.bwWindowEnd n) s = .next s) ∧
  (∀ r (n : Fin 128) s w, Admits s r (Reg.LPORT.BW_SEQ n) →
     (forEach (bwRegs n) (s.when (s.live (0x10 + n)) (bwCatch n s.nowNs)) fun a s => s.setReg (bwLatch r a) (s.reg a)) = w →
     exec (.bwSeqRead r n) s = .next (((w.setReg (Reg.LPORT.BW_RX_MAX n) 0).setReg (Reg.LPORT.BW_TX_MAX n) 0).emit
       (.readData r (Reg.LPORT.BW_SEQ n) (w.reg (Reg.LPORT.BW_SEQ n))))) ∧
  (∀ r (v : W32) s w, Admits s r Reg.SNAP.FS_CFG → firstWrite r s = w →
     exec (.fsCfgWrite r v) s = .next (
       if fld v.toNat 16 8 = 0 then errReq snapPage 0x11 r Reg.SNAP.FS_CFG v.toNat w
       else if bit v.toNat 31 && !popReady w then errReq snapPage 0x12 r Reg.SNAP.FS_CFG v.toNat w
       else
         let t := w.setReg Reg.SNAP.FS_CFG (v.toNat &&& 0x80FF007F)
         if bit v.toNat 31 then t.setRbit Reg.SNAP.FS_STS 31 false else t)) ∧
  (∀ (i : Fin 4194304) s, foldOn s = true →
     (fsSet i ≠ 7 → exec (.fsVisit i) s = .next (foldAsk i (nextInterval snapPage (.fsAt i) (cycUs (s.rfld Reg.SNAP.FS_CFG 16 8 * 1000)) s))) ∧
       (s.hb (.foldQueued i) = true → exec (.fold i) s = .next (foldAsk i s)) ∧
       (s.hb (.foldQueued i) = false → exec (.fold i) s = .next s)) ∧
  (∀ (i : Nat) s w, fsTouch i s = w →
     foldPair i s = bump Reg.SNAP.FOLDS (unqueue i ((w.setTab snapPage 1 i (fsSum w i)).setTab snapPage 3 i 0))) ∧
  (∀ r s w, TableReady s r snapPage → firstWrite r s = w → selOf s r snapPage = 1 → idxOf s r snapPage < 3670016 →
     foldOn w = true →
     exec (.fsRead r) s = .next (tableEnd r snapPage 0 (some (fsSum w (idxOf s r snapPage)))
       (foldAsk (idxOf s r snapPage) w))) ∧
  (∀ r s w u, TableReady s r snapPage → firstWrite r s = w → selOf s r snapPage = 1 → idxOf s r snapPage < 3670016 →
     foldOn w = true → fsTouch (idxOf s r snapPage) w = u →
     exec (.fsClear r) s = .next (tableEnd r snapPage 0 none
       (unqueue (idxOf s r snapPage) ((u.setTab snapPage 1 (idxOf s r snapPage) 0).setTab snapPage 3 (idxOf s r snapPage) 0)))) ∧
  (∀ r s, TableReady s r snapPage →
     exec (.fsRead r) s = .next (tableEnd r snapPage (snapTable 1 (winOf s r snapPage) (firstWrite r s)).2.1
       (snapTable 1 (winOf s r snapPage) (firstWrite r s)).2.2 (snapTable 1 (winOf s r snapPage) (firstWrite r s)).1)) ∧
  (∀ r s, TableReady s r snapPage →
     exec (.fsClear r) s = .next (tableEnd r snapPage (snapTable 0x10 (winOf s r snapPage) (firstWrite r s)).2.1
       (snapTable 0x10 (winOf s r snapPage) (firstWrite r s)).2.2 (snapTable 0x10 (winOf s r snapPage) (firstWrite r s)).1)) ∧
  (∀ (p : Fin 8192) s, (pageOf p).isSome = true → s.live p = true →
     exec (.perfWrap p) s = .next (perfWrap p s)) ∧
  (∀ (n : Fin 128) s, s.live (0x10 + n) = true → s.rbit (Reg.LPORT.BW_CFG n) 31 = true → s.h (.bwStart n) ≠ 0 →
     exec (.bwWindowEnd n) s = .next (bwEnd n s)) ∧
  (∀ r (n : Fin 128) s,
     exec (.bwSeqRead r n) s = .next (readFor r (Reg.LPORT.BW_SEQ n) (bwSeq r n) s)) ∧
  (∀ r (n : Fin 128) (v : W32) s, Admits s r (Reg.LPORT.BW_CFG n) →
     exec (.bwCfgWrite r n v) s = .next (bwCfg r n v.toNat (firstWrite r s)))

/-- Arming, cut and completion of a snapshot. ARM in state IDLE with a time at least 1 µs ahead arms the cut. In another
state, or with another time, it is refused with code 0x10. DISARM ends an armed cut, and is refused in another state.
NOW in state IDLE orders the cut at once, and is refused in another state. An armed cut comes at its time, an ordered
one at the next tick; else nothing is cut. The cut latches its time, counts and raises event 0; 16 ns later the epoch
of every counter and flow pair changes. At the change the counts of root-PLL cycles are brought up to the instant, no
counter has passed, and each page's cycle counts are copied. The mover takes each captured counter of a page that is
on into the new epoch. Once every counter has passed, DONE_US tells the time since the cut, event 1 is raised, and the
state is IDLE if the pairs have passed too. Once every pair has, FS is cleared in STS and event 2 is raised. The state
returns to IDLE only when neither is left. Admitted, SNAP_ARM, SNAP_DISARM and SNAP_NOW have the effects stated. On
their conditions, SNAP_CUT, SNAP_DONE and FS_DONE have the effects stated. (R574, R575, R576, R577, R578) -/
def Obligations.Snapshots : Prop :=
  (∀ r s w, Admits s r Reg.SNAP.CTL → firstWrite r s = w → w.live snapPage = true → snapState w = 0 →
     w.reg Reg.SNAP.SNAP_NS ≤ 999999999 → w.tb + 1000 * unitsNs ≤ snapTime w →
     exec (.snapArm r) s = .next (setSnapState 1 w)) ∧
  (∀ r s w, Admits s r Reg.SNAP.CTL → firstWrite r s = w → w.live snapPage = true →
     snapState w ≠ 0 ∨ 999999999 < w.reg Reg.SNAP.SNAP_NS ∨ snapTime w < w.tb + 1000 * unitsNs →
     exec (.snapArm r) s = .next (errReq snapPage 0x10 r Reg.SNAP.CTL 1 w)) ∧
  (∀ r s w, Admits s r Reg.SNAP.CTL → firstWrite r s = w → w.live snapPage = true →
     exec (.snapDisarm r) s = .next (if snapState w = 1 then setSnapState 0 w else errReq snapPage 0x10 r Reg.SNAP.CTL 2 w)) ∧
  (∀ r s w, Admits s r Reg.SNAP.CTL → firstWrite r s = w → w.live snapPage = true →
     exec (.snapNow r) s = .next (if snapState w = 0 then setSnapState 2 w else errReq snapPage 0x10 r Reg.SNAP.CTL 4 w)) ∧
  (∀ s w, s.live snapPage = true → s.timeRuns = true → advanceTo (snapTime s) s = w →
     (snapState s = 1 → exec .snapCut s = .next (if snapTime s ≤ w.tb then snapCut w else w)) ∧
     (snapState s = 2 → s.hb .snapOpen = false → s.rbit Reg.SNAP.STS 30 = false → exec .snapCut s = .next (snapCut (advance 1 s))) ∧
     (snapState s = 0 → exec .snapCut s = .next s)) ∧
  (∀ s w, (s.setReg Reg.SNAP.CUT_NS (nsOf s.tb)).setReg Reg.SNAP.CUT_SEC (secOf s.tb % 2 ^ 32) = w →
     snapCut s = (
       let t := raise snapPage 0 (bump Reg.SNAP.SNAPS (w.setReg Reg.SNAP.STS (2 ^ 30 + 2 * 2 ^ 28 + (w.rfld Reg.SNAP.STS 0 16 + 1) % 2 ^ 16)))
       snapEpoch (advanceTo (t.tb + 16 * unitsNs) t))) ∧
  (∀ s u, clearMarks (forEach allPages s perfSync) = u →
     snapEpoch s = (
       let t := { u with regs := u.regs.filter fun e => !(e.1 / 2 ^ 32 == 32 && !u.pageOn (e.1 % 2 ^ 32 / 0x10000)) }
       ((forEach allPages t cycShadow).setHb .snapOpen true).setH .snapAt (t.root : Nat))) ∧
  (∀ (a : BitVec 29) s, s.live snapPage = true → engUp s 3 = true → captured a.toNat = true →
     s.pageOn (a.toNat / 0x10000) = true →
     exec (.snapMoverCopy a) s = .next (snapTouch a.toNat s)) ∧
  (∀ s w, s.live snapPage = true → s.hb .snapOpen = true → engUp s 3 = true →
     { (forEach (listedCounters s) s snapTouch).setHb .snapOpen false with regs := ((forEach (listedCounters s) s snapTouch).setHb .snapOpen false).regs.filter fun e => e.1 / 2 ^ 32 != 33 } = w →
     exec .snapDone s = .next (
       snapIdle (raise snapPage 1 (w.setReg Reg.SNAP.DONE_US (min ((w.root - w.hn .snapAt) / cycUs 1) 65535))))) ∧
  (∀ s w u, s.live snapPage = true → s.rbit Reg.SNAP.STS 30 = true →
     forEach (([1, 2, 3].flatMap fun k => (s.tabList snapPage k).map Prod.fst).eraseDups) s (fun i s => if s.tab snapPage 4 i = 0 then s.setTab snapPage 2 i (fsSum s i) else s) = w →
     { w with tabs := w.tabs.filter fun e => e.1 / 2 ^ 32 != snapPage * 256 + 4 } = u →
     exec .fsDone s = .next (snapIdle (raise snapPage 2 (u.setRbit Reg.SNAP.STS 30 false)))) ∧
  (∀ s,
     snapIdle s = if snapState s = 2 ∧ s.hb .snapOpen = false ∧ s.rbit Reg.SNAP.STS 30 = false then setSnapState 0 s else s) ∧
  (∀ r s, Admits s r Reg.SNAP.CTL →
     exec (.snapArm r) s = .next (snapCtl r 1 (firstWrite r s))) ∧
  (∀ r s, Admits s r Reg.SNAP.CTL →
     exec (.snapDisarm r) s = .next (snapCtl r 2 (firstWrite r s))) ∧
  (∀ r s, Admits s r Reg.SNAP.CTL →
     exec (.snapNow r) s = .next (snapCtl r 4 (firstWrite r s))) ∧
  (∀ s, s.live snapPage = true → s.timeRuns = true →
     exec .snapCut s = .next (if snapState s = 1 then let t := snapTime s; let s := advanceTo t s; s.when (t ≤ s.tb) snapCut else if snapState s = 2 ∧ s.hb .snapOpen = false ∧ s.rbit Reg.SNAP.STS 30 = false then snapCut (advance 1 s) else s)) ∧
  (∀ s, s.live snapPage = true → s.hb .snapOpen = true → engUp s 3 = true →
     exec .snapDone s = .next (snapDone s)) ∧
  (∀ s, s.live snapPage = true → s.rbit Reg.SNAP.STS 30 = true →
     exec .fsDone s = .next (fsDone s))

/-- Switching, ramps, drops and restarts of the power domains. A requester that may not switch the domain is refused with
code 0x10, any order while the domain ramps or waits with 0x11. On: refused with code 0x13 while a domain that it
requires is not on; done if it is on; not accepted above domain 3 in recovery; else it ramps, or is queued behind four
ramps, earlier requests, or VIN out of range. Off: refused with code 0x12 while a dependent is on or ramps; else the
domain is switched off, and event 1 raised if it was not off. An accepted switch-on stores ON and starts the ramp or
queues the request. The first queued request ramps once VIN is in range and fewer than four domains ramp. The end of a
ramp: DOM_STS reads on with the time taken, event 0, a start of every block of the domain, and what the domain brings
with it. A domain that does not ramp does not come on. A SerDes PLL that has not locked 1,070 µs into the ramp of a
LINE or FAB domain switches it off with STATE 3 and event 2. A domain switched off is isolated: its blocks stop, its
registers, tables and memories are lost, a recovered clock whose lane lost its lock is squelched, a device that lost
its last link is unreachable, and it reads its state. The loss of VAUX is the loss of domain 1. A supply that drops
while monitored switches its domain off with STATE 3, recorded as SUPPLY_DROOP; the dependents follow. The dependents
that are on or ramp are switched off, each counted in CASCADES, with one event 3. MGMT or HOST is requested on again
10 ms after it dropped, unless three restarts lie within 60 s. Admitted, DOMAIN_SWITCH_ON and DOMAIN_SWITCH_OFF have
the effects stated. In every state RAMP_START completes, with the effect stated. (R595, R599, R603, R604, R605, R606,
R607, R608, R609, R610, R611) -/
def Obligations.PowerDomains : Prop :=
  (∀ r (d : Fin 64) s w, Admits s r (Reg.GLB.DOM_CTL d) → firstWrite r s = w →
     maySwitch w r d = false ∨ w.domState d = 2 →
     exec (.domainSwitchOn r d) s = .next (domRefuse (if maySwitch w r d then 0x11 else 0x10) r d (2 ^ 31) w) ∧
     exec (.domainSwitchOff r d) s = .next (domRefuse (if maySwitch w r d then 0x11 else 0x10) r d 0 w)) ∧
  (∀ r (d : Fin 64) s w, Admits s r (Reg.GLB.DOM_CTL d) → firstWrite r s = w → maySwitch w r d = true →
     w.domState d ≠ 2 →
     exec (.domainSwitchOn r d) s = .next (
       if ((prereqs d).any fun e => w.domState e != 1) = true then domRefuse 0x13 r d (2 ^ 31) w
       else if w.domState d = 1 then w.setReg (Reg.GLB.DOM_CTL d) (2 ^ 31)
       else if (inRecovery w && decide (3 < d.val)) = true then w else acceptOn d w)) ∧
  (∀ r (d : Fin 64) s w, Admits s r (Reg.GLB.DOM_CTL d) → firstWrite r s = w → maySwitch w r d = true →
     w.domState d ≠ 2 →
     exec (.domainSwitchOff r d) s = .next (
       if ((directDependents d).any fun e => w.domState e == 1 || w.domState e == 2) = true then domRefuse 0x12 r d 0 w
       else if w.domState d = 0 then w.setReg (Reg.GLB.DOM_CTL d) 0
       else raise glbPage 1 (domainOff d 0 ((w.setReg (Reg.GLB.DOM_CTL d) 0).setH (.dropAt d) 0)))) ∧
  (∀ (d : Nat) s w, s.setReg (Reg.GLB.DOM_CTL d) (2 ^ 31) = w →
     acceptOn d s = (if w.hb .vinBad || 4 ≤ ramping w || !w.domQ.isEmpty then { setDom d 2 true w with domQ := w.domQ ++ [d] }
       else (setDom d 2 false w).setH (.rampAt d) (w.root : Nat))) ∧
  (∀ (d : Nat) (l : List Nat) s, s.domQ = d :: l →
     exec .rampStart s = .next (if s.hb .vinBad || 4 ≤ ramping s then s else startRamp d { s with domQ := l })) ∧
  (∀ (d : Fin 37) s w u, s.pllOk = true → d.val ≠ 0 → s.domState d = 2 → domQueued s d = false →
     raise glbPage 0 (bump (Reg.GLB.DOM_ON_CNT d) (s.setReg (Reg.GLB.DOM_STS d) (min ((s.root - s.hn (.rampAt d)) / 7200) 65535 * 2 ^ 16 + 1))) = w →
     (forEach (domPages d) w fun p s => let s := (s.setReg (Reg.BLK_CTL p) (startCtl p)).setH (.cycBase p) (s.root : Nat); if s.hb .snapOpen then cycShadow p s else s) = u →
     exec (.domainOn d) s = .next (coverUpdate (domStart d (
       if (domPages d).contains cellPage then ageRaise (if (domPages d).contains l2Page then l2Rebase u else u)
       else if (domPages d).contains l2Page then l2Rebase u else u)))) ∧
  (∀ (d : Fin 37) s, s.domState d ≠ 2 →
     exec (.domainOn d) s = .next s) ∧
  (∀ (d : Fin 37) s w, s.pllOk = true → 5 ≤ d.val → d.val ≤ 18 → s.domState d = 2 → domQueued s d = false →
     waitRoot (s.hn (.rampAt d) + cycUs 1070) s = w →
     exec (.serdesPllLockTimeout d) s = .next (raise glbPage 2 (domainOff d 3 w))) ∧
  (∀ (d x : Nat) s w, s.domOn d = true → d ≠ 3 → markPartial d s = w →
     domainOff d x s = (
       let off := lockChange fun t => domLost d (forEach (domPages d) t fun p t => disable p (stopBlock p t))
       let t := if 13 ≤ d ∧ d ≤ 18 then withReachAll (fgLinks (d - 13)) off w else off w
       coverUpdate (setDom d x false { t with domQ := t.domQ.filter (· != d) }))) ∧
  (∀ s,
     exec (.supplyDroop 1) s = .next (vauxLoss s)) ∧
  (∀ (d : Fin 37) s, 2 ≤ d.val →
     exec (.supplyDroop d) s = .next (if s.rbit Reg.FAULT.MON_EN 1 = true ∧ s.domOn d = true then
       dropOut d (faultRecordAt 12 d faultPage d s) else s)) ∧
  (∀ (d : Nat) s, (dependents d).filter (fun e => s.domState e == 1 || s.domState e == 2) ≠ [] →
     cascade d s = raise glbPage 3 (forEach ((dependents d).filter fun e => s.domState e == 1 || s.domState e == 2) s
       fun e t => bump Reg.GLB.CASCADES (domainOff e 0 t))) ∧
  (∀ (d : Fin 37) s w, s.pllOk = true → s.h (.dropAt d) ≠ 0 → s.domState d = 3 →
     (waitRoot (s.hn (.dropAt d) - 1 + cycUs 10000) s).setH (.dropAt d) 0 = w →
     exec (.domainRestart d) s = .next (
       let o := w.hn (.restartAt d 2)
       if o ≠ 0 ∧ w.root + 1 < o + cycUs 60000000 then w
       else
         let t := (w.setH (.restartAt d 2) (w.h (.restartAt d 1))).setH (.restartAt d 1) (w.h (.restartAt d 0))
         acceptOn d (t.setH (.restartAt d 0) (t.root + 1 : Nat)))) ∧
  (∀ r (d : Fin 64) s, Admits s r (Reg.GLB.DOM_CTL d) →
     exec (.domainSwitchOn r d) s = .next (domCtl r d (2 ^ 31) (firstWrite r s))) ∧
  (∀ r (d : Fin 64) s, Admits s r (Reg.GLB.DOM_CTL d) →
     exec (.domainSwitchOff r d) s = .next (domCtl r d 0 (firstWrite r s))) ∧
  (∀ s,
     exec .rampStart s = .next (rampNext s))

/-- The supplies, the root PLL, the monitors and the resets of the device. VIN lost: recorded, counted, event 4; the cores
fail and every VIN domain reads STATE 3. VIN in range again lets up to four queued ramps start; after a loss, once it
has been in range for 10 ms, the device is reset with cause 7. VAUX lost: the device is reset with cause 1 and held
until VAUX returns, which resets it again. The root PLL locks, and the derived clocks start. Its loss of lock counts
in PLL_LOSS, is recorded as class 10, and gates every derived clock. Locked again for 1 ms, the device is reset with
cause 6; with no loss before, nothing happens. SYS_RST_N resets the device with cause 2, the log kept if a fault is
recorded, and holds it until its release. With VAUX lost they only hold and release. DEV_RESET with KEY 0x9128 by a
requester that may order it resets the device with cause 5; else code 0x14. A reset keeps the memories of flash and
Pegbox, the revoked keys, the lock of the root PLL, its cycle count, what has left the device and the queue, and with
the log the FAULT page; the rest is as State.reset has it. A unit found stuck is recorded once, as class 11, while its
page is live. Each sample, 10 µs after the last, finds the units that hold a frame and pass none; one that has done so
for PIPE_WDT is stuck. OPEN is cleared by ones written. A junction temperature outside −5 °C to 105 °C is a fault
condition while its monitor is enabled; the highest is kept. In every state TJ_OUT_OF_RANGE, VIN_IN_RANGE,
SYS_RST_ASSERT and SYS_RST_RELEASE complete, with the effects stated. (R584, R585, R593, R594, R597, R600, R601, R612,
R616, R617, R618, R619) -/
def Obligations.SuppliesClocksAndResets : Prop :=
  (∀ s w, s.hb .vinDown = false → bit (s.hn .rstHold) 2 = false →
     coresLost (faultRecordAt 12 0 faultPage 0 (coverUpdate ((s.setHb .vinBad true).setH (.measAt 0) 0))) = w →
     exec .vinLoss s = .next (
       let t := forEach ((allDomains.drop 1).reverse) w fun d t => domainOff d 3 (t.setH (.dropAt d) 0)
       raise glbPage 4 (bump Reg.GLB.VIN_LOSS (t.setHb .vinDown true)))) ∧
  (∀ s w, (if s.hb .vinBad then s else waitRoot (s.hn .vinAt - 1 + cycUs 9000) s) = w →
     exec .vinInRange s = .next (
       rampNext (rampNext (rampNext (rampNext (coverUpdate (((s.setHb .vinBad false).setH (.measAt 0) 0).setH .vinAt (s.root + 1 : Nat))))))) ∧
     exec .vinRestart s = .next (if s.hb .vinDown then coverUpdate (deviceReset 7 true (w.setHb .vinBad false)) else s)) ∧
  (∀ s,
     exec .vauxLoss s = .next (coverUpdate (holdReset 3 false (holdReset 2 true
       (deviceReset 1 false ((s.setHb .vauxBad true).setReg Reg.GLB.PLL_STS 0))))) ∧
     exec .vauxPowerOn s = .next (coverUpdate (holdReset 2 false (deviceReset 1 false ((s.setHb .vauxBad false).setReg Reg.GLB.PLL_STS 0))))) ∧
  (∀ s, s.pllOk = false → bit (s.hn .rstHold) 2 = false →
     exec .rootPllLock s = .next ((s.setReg Reg.GLB.PLL_STS 1).setH .pllAt (s.root : Nat))) ∧
  (∀ s, s.pllOk = true →
     exec .pllUnlock s = .next (faultRecordAt 10 1 faultPage 0 ((bump Reg.GLB.PLL_LOSS (s.setReg Reg.GLB.PLL_STS 0)).setHb .pllLost true))) ∧
  (∀ s, s.pllOk = true →
     exec .pllLossReset s = .next (if s.hb .pllLost then coverUpdate (deviceReset 6 true (waitRoot (s.hn .pllAt + cycUs 1000) s)) else s)) ∧
  (∀ (m : BitVec 2) s, bit (s.hn .rstHold) 2 = false →
     exec .sysRstAssert s = .next (coverUpdate (holdReset 3 false (holdReset 0 true (deviceReset 2 (s.rbit Reg.FAULT.FIRST 31) s)))) ∧
     exec (.sysRstRelease m) s = .next (coverUpdate (holdReset 3 (m != 0) (holdReset 0 false (deviceReset 2 (s.rbit Reg.FAULT.FIRST 31) s))))) ∧
  (∀ (m : BitVec 2) s, bit (s.hn .rstHold) 2 = true →
     exec .sysRstAssert s = .next (holdReset 0 true s) ∧ exec (.sysRstRelease m) s = .next (holdReset 0 false s)) ∧
  (∀ r (v : W32) s w, Admits s r Reg.GLB.DEV_RESET → firstWrite r s = w →
     exec (.devReset r v) s = .next (if v.toNat % 65536 = 0x9128 ∧ ordersOk w r = true then coverUpdate (deviceReset 5 true w)
       else errReq glbPage 0x14 r Reg.GLB.DEV_RESET v.toNat w)) ∧
  (∀ (c : Nat) (k : Bool) s w,
     ({ State.reset with
       pending := s.pending
       regs := s.regs.filter fun e => keptReg e.1 || (k && e.1 / 0x10000 == faultPage)
       tabs := s.tabs.filter fun e => k && e.1 / 2 ^ 40 == faultPage
       mem := s.mem.filter fun e => e.1 / 2 ^ 48 ≤ 1
       hid := s.hid.filter fun e => keptHid k e.1
       root := s.root
       freeCtr := s.freeCtr
       out := s.out } : State) = w →
     deviceReset c k s = coverUpdate (((forEach [0, 2, 3, 4, 7] w fun p t => t.setH (.cycBase p) (s.root : Nat)).setReg Reg.GLB.RST_CAUSE c).setH .resetAt (s.root : Nat))) ∧
  (∀ (u : Nat) s,
     unitStuck u s = (if s.hb (.stuck u) || !s.live (unitPage u).1 then s
       else faultRecord 11 (unitPage u).1 (unitPage u).2 (s.setHb (.stuck u) true))) ∧
  (∀ (l : BitVec 37) s, s.pllOk = true →
     exec (.pipeWdtSample l) s = .next (if s.rbit Reg.FAULT.MON_EN 0 then
       forEach (List.range 37) (nextInterval faultPage .wdtSampleAt (cycUs 10) s) (fun u t =>
         let n := if bit l.toNat u then t.h (.wdtRun u) + 10 else 0
         let v := t.setH (.wdtRun u) n
         if n ≠ 0 ∧ (v.rfld Reg.FAULT.PIPE_WDT 0 7 : Int) ≤ n then unitStuck u v else v)
       else s)) ∧
  (∀ r (v : W32) s w, Admits s r Reg.FAULT.OPEN → firstWrite r s = w →
     exec (.openClear r v) s = .next (coverUpdate (w.setReg Reg.FAULT.OPEN (w.reg Reg.FAULT.OPEN &&& (v.toNat ^^^ 0xFFFFFFFF))))) ∧
  (∀ (x : BitVec 8) s w,
     (s.setH .tjHi (max (s.h .tjHi) (x.toInt + 128))).setH .tjNow (if x.toInt < -5 ∨ 105 < x.toInt then x.toInt + 129 else 0) = w →
     exec (.tjOutOfRange x) s = .next (if w.rbit Reg.FAULT.MON_EN 2 then coverUpdate (w.setHb .tjBad (x.toInt < -5 || 105 < x.toInt)) else w)) ∧
  (∀ (t : BitVec 8) s,
     exec (.tjOutOfRange t) s = .next (tjMeasured t.toInt s)) ∧
  (∀ s,
     exec .vinInRange s = .next (rampNext (rampNext (rampNext (rampNext (coverUpdate (((s.setHb .vinBad false).setH (.measAt 0) 0).setH .vinAt (s.root + 1 : Nat)))))))) ∧
  (∀ s,
     exec .sysRstAssert s = .next (if bit (s.hn .rstHold) 2 then holdReset 0 true s else coverUpdate (holdReset 3 false (holdReset 0 true (deviceReset 2 (s.rbit Reg.FAULT.FIRST 31) s))))) ∧
  (∀ (testMode : BitVec 2) s,
     exec (.sysRstRelease testMode) s = .next (if bit (s.hn .rstHold) 2 then holdReset 0 false s else coverUpdate (holdReset 3 (testMode != 0) (holdReset 0 false (deviceReset 2 (s.rbit Reg.FAULT.FIRST 31) s)))))

/-- Every command completes. Whatever the state, every command of the table is answered with a next state: an access that
the device turns away, or an event that has nothing to act on, has the effect that the rules give it.
(spec/98_reader.md, spec/01_architecture.md) -/
def Obligations.CommandsComplete : Prop :=
  ∀ (c : Instr) s,
    ∃ t, exec c s = .next t

/-- What every command leaves as it was. A command leaves the queue as it is, what has left the device stays out with
outputs only added behind it, and every area of the state that the command may not change (cmdAreas) stays as it was.
(spec/98_reader.md, spec/01_architecture.md) -/
def Obligations.CommandsKeepTheirBounds : Prop :=
  ∀ (c : Instr) s t, exec c s = .next t →
    t.pending = s.pending ∧ s.out <+: t.out ∧ ∀ a, a ∉ cmdAreas c → a.same s t

/-- The state after reset. The state after reset is sane, and no command waits. Time base and trackers stand at 0 s with
the nominal rate, the time base in FREE_RUN. Every interrupt source that exists is masked, none is pending, and every
event of a page is masked. AON is on, and every other domain is off. (R45, R62, R69, R103, R473, R475, R488, R603) -/
def Obligations.ResetIsSane : Prop :=
  (Sane State.reset ∧ State.reset.pending = []) ∧
  (State.reset.tb = 0 ∧ State.reset.trkA = 0 ∧ State.reset.trkB = 0 ∧ rateTb State.reset = 0x11C71C71C71C7 ∧
     State.reset.reg Reg.TIME.TB_CTL = 0x100) ∧
  (∀ (k : Fin 128) (p : Fin 0x110), (pageOf p).isSome = true →
     State.reset.reg (Reg.INTC.MASK k) = srcBits k 0xFFFFFFFF ∧ State.reset.reg (Reg.INTC.PEND k) = 0 ∧
       State.reset.reg (Reg.EVT_MASK p) = 0xFFFFFFFF) ∧
  (∀ (d : Fin 37),
     State.reset.domState d = if d.val = 1 then 1 else 0)

/-- Every step keeps a sane state sane. From every sane state, not only those that a run reaches, a step answers a sane
state: the maps of registers, tables, memory and hidden numbers keep their canonical form, no interrupt stack grows
above 16 entries, and the notification FIFO stays within its 16,384. (R53, R258, R474, R479) -/
def Obligations.StepKeepsSane : Prop :=
  ∀ s t, Sane s → step s = .next t →
    Sane t

/-- An event, a count, an error or a fault record changes no register of function. Raising an event, capturing an error,
counting, and recording a fault change only pending, error and counter registers, the pending bits of the INTC, and
the FAULT page. (R17, R46, R50, R51, R564) -/
def Obligations.ReportsChangeOnlyReports : Prop :=
  ∀ (p e c n x v : Nat) (f : Fin 4096) (a : Nat) s, Sane s → ¬Noisy a →
    (raise p e s).reg a = s.reg a ∧ (errBy p c n x v s).reg a = s.reg a ∧ (raiseFault p e f x s).reg a = s.reg a ∧
      (0x8000 ≤ c % 0x10000 → (bump c s).reg a = s.reg a)

/-- DEV_RESET resets the device for the ACTIVE core or BOOT. A write of 0x9128 to the 16 bits of DEV_RESET by BOOT or by
the ACTIVE core starts a device reset, with cause 5. Any other value, or a write of another requester, is refused with
code 0x14. (R618) -/
def Obligations.DeviceResetOrder : Prop :=
  (∀ r (v : W32) s w, Admits s r Reg.GLB.DEV_RESET → firstWrite r s = w → v.toNat % 65536 = 0x9128 →
     r = .BOOT ∨ (∃ x, coreOf r = some x ∧ coreState w x = 4) →
     exec (.devReset r v) s = .next (coverUpdate (deviceReset 5 true w))) ∧
  (∀ r (v : W32) s w, Admits s r Reg.GLB.DEV_RESET → firstWrite r s = w →
     v.toNat % 65536 ≠ 0x9128 ∨ (r ≠ .BOOT ∧ ∀ x, coreOf r = some x → coreState w x ≠ 4) →
     exec (.devReset r v) s = .next (errReq glbPage 0x14 r Reg.GLB.DEV_RESET v.toNat w))

/-- A doorbell sets the pending bit of its source. While INTC is live, a write of the number of a source to DOORBELL sets
its pending bit, which stays set if it is, and no other. A write of 0x000, 0xFFF or a value above 0xFFF sets none: it
is counted in DB_BAD and captured with code 0x10. (R472) -/
def Obligations.DoorbellSetsPending : Prop :=
  (∀ r (v : W32) s, Sane s → Admits s r Reg.INTC.DOORBELL → s.live intcPage = true → v.toNat ≠ 0 → v.toNat < 0xFFF →
     ∃ t, exec (.doorbell r v) s = .next t ∧
       t.rbit (Reg.INTC.PEND (v.toNat / 32)) (v.toNat % 32) = true ∧
       ∀ k b, k < 128 → b < 32 → ¬ (k = v.toNat / 32 ∧ b = v.toNat % 32) → t.rbit (Reg.INTC.PEND k) b = s.rbit (Reg.INTC.PEND k) b) ∧
  (∀ r (v : W32) s w, Admits s r Reg.INTC.DOORBELL → firstWrite r s = w → v.toNat = 0 ∨ 0xFFF ≤ v.toNat →
     exec (.doorbell r v) s = .next (errReq intcPage 0x10 r Reg.INTC.DOORBELL v.toNat (bump Reg.INTC.DB_BAD w)))

/-- EOI pops the source that it names, SETPRI pushes a priority. EOI of the source on top of a target's stack pops it, and
leaves the other stacks. EOI of another, or with an empty stack, leaves every stack; it is counted in EOI_BAD and
captured with code 0x11, with event 1. SETPRI pushes source 0 with its priority on a stack of less than 16 entries,
which EOI of source 0 pops. (R478, R479) -/
def Obligations.InterruptStackWrites : Prop :=
  (∀ r (t : Fin 4) (v : W32) (p : Nat) (rest : List (Nat × Nat × Nat)) s, Admits s r (Reg.INTC.EOI t) →
     stackOf s t = (t.val, v.toNat % 2 ^ 12, p) :: rest →
     ∃ u, exec (.eoi r t v) s = .next u ∧ stackOf u t = rest ∧ ∀ x, x ≠ t.val → stackOf u x = stackOf s x) ∧
  (∀ r (t : Fin 4) (v : W32) s w, Admits s r (Reg.INTC.EOI t) → firstWrite r s = w →
     (stackOf w t).head?.map (fun e => e.2.1) ≠ some (v.toNat % 2 ^ 12) →
     exec (.eoi r t v) s = .next (raise intcPage 1 (errReq intcPage 0x11 r (Reg.INTC.EOI t) v.toNat (bump Reg.INTC.EOI_BAD w))) ∧
       (raise intcPage 1 (errReq intcPage 0x11 r (Reg.INTC.EOI t) v.toNat (bump Reg.INTC.EOI_BAD w))).intStacks = s.intStacks) ∧
  (∀ r (t : Fin 4) (v : W32) s, Admits s r (Reg.INTC.SETPRI t) → (stackOf s t).length < 16 →
     ∃ u, exec (.setpri r t v) s = .next u ∧ stackOf u t = (t.val, 0, v.toNat % 16) :: stackOf s t ∧ ∀ x, x ≠ t.val → stackOf u x = stackOf s x)
end

