-- ==== Sys2Proof/Laws/Smap.lean ====
section
/-!
SUPPORT. The laws of the sparse maps: a read after a write to the same key gives the value written, a write leaves every
other key alone, and every operation keeps the canonical form.
-/
namespace Sys2Proof.Machine

variable {β : Type}

theorem Smap.find_put_self (d : β) (a : Nat) (v : β) (m : List (Nat × β)) : Smap.find d (Smap.put a v m) a = v := by
  induction m with
  | nil => simp [Smap.put, Smap.find]
  | cons e t ih => grind [Smap.put, Smap.find]

theorem Smap.find_below (d : β) (a : Nat) (m : List (Nat × β)) (h : ∀ e ∈ m, a < e.1) : Smap.find d m a = d := by
  cases m with
  | nil => rfl
  | cons e t => simp [Smap.find, h e (by simp)]

theorem Smap.find_put_other (d : β) {a b : Nat} (v : β) (m : List (Nat × β)) (hab : a ≠ b) :
    Smap.find d (Smap.put a v m) b = Smap.find d m b := by
  induction m with
  | nil => grind [Smap.put, Smap.find]
  | cons e t ih => grind [Smap.put, Smap.find]

theorem Smap.find_del_self (d : β) (a : Nat) (m : List (Nat × β)) (h : Smap.Sorted m) : Smap.find d (Smap.del a m) a = d := by
  induction m with
  | nil => rfl
  | cons e t ih =>
    have ⟨hk, ht⟩ := List.pairwise_cons.1 h
    have := Smap.find_below d a t
    grind [Smap.del, Smap.find]

theorem Smap.find_del_other (d : β) {a b : Nat} (m : List (Nat × β)) (hab : a ≠ b) (h : Smap.Sorted m) :
    Smap.find d (Smap.del a m) b = Smap.find d m b := by
  induction m with
  | nil => rfl
  | cons e t ih =>
    have ⟨hk, ht⟩ := List.pairwise_cons.1 h
    have := Smap.find_below d b t
    grind [Smap.del, Smap.find]

theorem Smap.mem_put {a : Nat} {v : β} {m : List (Nat × β)} {e : Nat × β} (h : e ∈ Smap.put a v m) : e = (a, v) ∨ e ∈ m := by
  induction m with
  | nil => simpa [Smap.put] using h
  | cons x t ih => grind [Smap.put]

theorem Smap.del_sublist (a : Nat) (m : List (Nat × β)) : (Smap.del a m).Sublist m := by
  induction m with
  | nil => exact .refl _
  | cons x t ih =>
    obtain ⟨k, w⟩ := x
    simp only [Smap.del]
    split
    · exact .refl _
    · split
      · exact List.sublist_cons_self _ _
      · exact ih.cons_cons _

theorem Smap.sorted_put (a : Nat) (v : β) {m : List (Nat × β)} (h : Smap.Sorted m) : Smap.Sorted (Smap.put a v m) := by
  induction m with
  | nil => simp [Smap.put, Smap.Sorted]
  | cons x t ih =>
    obtain ⟨k, w⟩ := x
    have ⟨hk, ht⟩ := List.pairwise_cons.1 h
    simp only [Smap.put]
    split
    · refine List.pairwise_cons.2 ⟨fun e he => ?_, h⟩
      rcases List.mem_cons.1 he with rfl | he
      · assumption
      · have := hk e he
        simp only at this
        omega
    · split
      · subst k
        exact List.pairwise_cons.2 ⟨hk, ht⟩
      · refine List.pairwise_cons.2 ⟨fun e he => ?_, ih ht⟩
        rcases Smap.mem_put he with rfl | he
        · simp only; omega
        · exact hk e he

theorem Smap.get_set_self [DecidableEq β] (d : Nat → β) (m : List (Nat × β)) (a : Nat) (v : β) (h : Smap.Sorted m) :
    Smap.get d (Smap.set d m a v) a = v := by
  unfold Smap.get Smap.set
  split
  · rw [Smap.find_del_self _ _ _ h]; exact Eq.symm ‹_›
  · exact Smap.find_put_self _ _ _ _

theorem Smap.get_set_other [DecidableEq β] (d : Nat → β) (m : List (Nat × β)) {a b : Nat} (v : β) (hab : a ≠ b)
    (h : Smap.Sorted m) : Smap.get d (Smap.set d m a v) b = Smap.get d m b := by
  unfold Smap.get Smap.set
  split
  · exact Smap.find_del_other _ _ hab h
  · exact Smap.find_put_other _ _ _ hab

theorem Smap.Canonical.sublist {d : Nat → β} {m m' : List (Nat × β)} (h : Smap.Canonical d m) (hs : m'.Sublist m) :
    Smap.Canonical d m' := ⟨List.Pairwise.sublist hs h.1, fun e he => h.2 e (hs.subset he)⟩

theorem Smap.Canonical.set [DecidableEq β] {d : Nat → β} {m : List (Nat × β)} (a : Nat) (v : β) (h : Smap.Canonical d m) :
    Smap.Canonical d (Smap.set d m a v) := by
  unfold Smap.set
  split
  · exact h.sublist (Smap.del_sublist a m)
  · refine ⟨Smap.sorted_put a v h.1, fun e he => ?_⟩
    rcases Smap.mem_put he with rfl | he
    · assumption
    · exact h.2 e he

theorem Smap.Canonical.filter {d : Nat → β} {m : List (Nat × β)} (p : Nat × β → Bool) (h : Smap.Canonical d m) :
    Smap.Canonical d (m.filter p) := h.sublist List.filter_sublist

theorem Smap.canonical_nil (d : Nat → β) : Smap.Canonical d [] := ⟨.nil, by simp⟩

/-- Every write of a memory keeps its canonical form. -/
theorem Memory.wf_write {m : List Host.Cell} (a : Nat) (b : Byte) (h : Memory.wf m) : Memory.wf (Memory.write m a b) :=
  Smap.Canonical.set a b h

theorem Memory.wf_writeBytes (bs : List Byte) {m : List Host.Cell} (a : Nat) (h : Memory.wf m) :
    Memory.wf (Memory.writeBytes m a bs) := by
  induction bs generalizing m a with
  | nil => exact h
  | cons b bs ih => exact ih _ (Memory.wf_write a b h)

theorem Memory.read_write_self {m : List Host.Cell} (a : Nat) (b : Byte) (h : Memory.wf m) :
    Memory.read (Memory.write m a b) a = b := Smap.get_set_self _ _ _ _ h.1

theorem Memory.read_write_other {m : List Host.Cell} {a c : Nat} (b : Byte) (hac : a ≠ c) (h : Memory.wf m) :
    Memory.read (Memory.write m a b) c = Memory.read m c := Smap.get_set_other _ _ _ hac h.1

/-- A write of consecutive bytes leaves every byte outside them as it was. -/
theorem Memory.read_writeBytes_other (bs : List Byte) {m : List Host.Cell} {a c : Nat}
    (hac : c < a ∨ a + bs.length ≤ c) (h : Memory.wf m) : Memory.read (Memory.writeBytes m a bs) c = Memory.read m c := by
  induction bs generalizing m a with
  | nil => rfl
  | cons b bs ih =>
    rw [List.length_cons] at hac
    rw [Memory.writeBytes, ih (by omega) (Memory.wf_write a b h), Memory.read_write_other b (by omega) h]

/-- A write of consecutive bytes stores each of them. -/
theorem Memory.read_writeBytes (bs : List Byte) {m : List Host.Cell} {a i : Nat} (hi : i < bs.length) (h : Memory.wf m) :
    Memory.read (Memory.writeBytes m a bs) (a + i) = bs[i] := by
  induction bs generalizing m a i with
  | nil => simp at hi
  | cons b bs ih =>
    rw [Memory.writeBytes]
    cases i with
    | zero =>
      rw [Memory.read_writeBytes_other bs (by omega) (Memory.wf_write a b h)]
      exact Memory.read_write_self a b h
    | succ i =>
      have := ih (m := Memory.write m a b) (a := a + 1) (i := i) (by simpa using hi) (Memory.wf_write a b h)
      rw [show a + (i + 1) = a + 1 + i by omega, this]
      rfl

end Sys2Proof.Machine
end

