-- ==== Sys2Proof/Laws/State.lean ====
section
/-!
SUPPORT. One lemma for each field under each operation that stores into the state, and what the reads give after the writes:
no later proof unfolds a record update.
-/
namespace Sys2Proof.Machine

@[simp] theorem State.setReg_pending (s : State) (a v : Nat) : (s.setReg a v).pending = s.pending := (rfl)
@[simp] theorem State.setReg_tabs (s : State) (a v : Nat) : (s.setReg a v).tabs = s.tabs := (rfl)
@[simp] theorem State.setReg_mem (s : State) (a v : Nat) : (s.setReg a v).mem = s.mem := (rfl)
@[simp] theorem State.setReg_hid (s : State) (a v : Nat) : (s.setReg a v).hid = s.hid := (rfl)
@[simp] theorem State.setReg_frames (s : State) (a v : Nat) : (s.setReg a v).frames = s.frames := (rfl)
@[simp] theorem State.setReg_bufs (s : State) (a v : Nat) : (s.setReg a v).bufs = s.bufs := (rfl)
@[simp] theorem State.setReg_learnQ (s : State) (a v : Nat) : (s.setReg a v).learnQ = s.learnQ := (rfl)
@[simp] theorem State.setReg_notify (s : State) (a v : Nat) : (s.setReg a v).notify = s.notify := (rfl)
@[simp] theorem State.setReg_reports (s : State) (a v : Nat) : (s.setReg a v).reports = s.reports := (rfl)
@[simp] theorem State.setReg_intStacks (s : State) (a v : Nat) : (s.setReg a v).intStacks = s.intStacks := (rfl)
@[simp] theorem State.setReg_cands (s : State) (a v : Nat) : (s.setReg a v).cands = s.cands := (rfl)
@[simp] theorem State.setReg_lpmQ (s : State) (a v : Nat) : (s.setReg a v).lpmQ = s.lpmQ := (rfl)
@[simp] theorem State.setReg_pageWrites (s : State) (a v : Nat) : (s.setReg a v).pageWrites = s.pageWrites := (rfl)
@[simp] theorem State.setReg_injects (s : State) (a v : Nat) : (s.setReg a v).injects = s.injects := (rfl)
@[simp] theorem State.setReg_pegJobs (s : State) (a v : Nat) : (s.setReg a v).pegJobs = s.pegJobs := (rfl)
@[simp] theorem State.setReg_flashQ (s : State) (a v : Nat) : (s.setReg a v).flashQ = s.flashQ := (rfl)
@[simp] theorem State.setReg_eloLast (s : State) (a v : Nat) : (s.setReg a v).eloLast = s.eloLast := (rfl)
@[simp] theorem State.setReg_doeQ (s : State) (a v : Nat) : (s.setReg a v).doeQ = s.doeQ := (rfl)
@[simp] theorem State.setReg_spdm (s : State) (a v : Nat) : (s.setReg a v).spdm = s.spdm := (rfl)
@[simp] theorem State.setReg_domQ (s : State) (a v : Nat) : (s.setReg a v).domQ = s.domQ := (rfl)
@[simp] theorem State.setReg_flows (s : State) (a v : Nat) : (s.setReg a v).flows = s.flows := (rfl)
@[simp] theorem State.setReg_credQ (s : State) (a v : Nat) : (s.setReg a v).credQ = s.credQ := (rfl)
@[simp] theorem State.setReg_localPath (s : State) (a v : Nat) : (s.setReg a v).localPath = s.localPath := (rfl)
@[simp] theorem State.setReg_txLinks (s : State) (a v : Nat) : (s.setReg a v).txLinks = s.txLinks := (rfl)
@[simp] theorem State.setReg_held (s : State) (a v : Nat) : (s.setReg a v).held = s.held := (rfl)
@[simp] theorem State.setReg_pageReads (s : State) (a v : Nat) : (s.setReg a v).pageReads = s.pageReads := (rfl)
@[simp] theorem State.setReg_dramWait (s : State) (a v : Nat) : (s.setReg a v).dramWait = s.dramWait := (rfl)
@[simp] theorem State.setReg_dramOps (s : State) (a v : Nat) : (s.setReg a v).dramOps = s.dramOps := (rfl)
@[simp] theorem State.setReg_rhRows (s : State) (a v : Nat) : (s.setReg a v).rhRows = s.rhRows := (rfl)
@[simp] theorem State.setReg_rhCands (s : State) (a v : Nat) : (s.setReg a v).rhCands = s.rhCands := (rfl)
@[simp] theorem State.setReg_tb (s : State) (a v : Nat) : (s.setReg a v).tb = s.tb := (rfl)
@[simp] theorem State.setReg_trkA (s : State) (a v : Nat) : (s.setReg a v).trkA = s.trkA := (rfl)
@[simp] theorem State.setReg_trkB (s : State) (a v : Nat) : (s.setReg a v).trkB = s.trkB := (rfl)
@[simp] theorem State.setReg_fol (s : State) (a v : Nat) : (s.setReg a v).fol = s.fol := (rfl)
@[simp] theorem State.setReg_root (s : State) (a v : Nat) : (s.setReg a v).root = s.root := (rfl)
@[simp] theorem State.setReg_freeCtr (s : State) (a v : Nat) : (s.setReg a v).freeCtr = s.freeCtr := (rfl)
@[simp] theorem State.setReg_out (s : State) (a v : Nat) : (s.setReg a v).out = s.out := (rfl)

@[simp] theorem State.setRfld_pending (s : State) (a lo w v : Nat) : (s.setRfld a lo w v).pending = s.pending := (rfl)
@[simp] theorem State.setRfld_tabs (s : State) (a lo w v : Nat) : (s.setRfld a lo w v).tabs = s.tabs := (rfl)
@[simp] theorem State.setRfld_mem (s : State) (a lo w v : Nat) : (s.setRfld a lo w v).mem = s.mem := (rfl)
@[simp] theorem State.setRfld_hid (s : State) (a lo w v : Nat) : (s.setRfld a lo w v).hid = s.hid := (rfl)
@[simp] theorem State.setRfld_frames (s : State) (a lo w v : Nat) : (s.setRfld a lo w v).frames = s.frames := (rfl)
@[simp] theorem State.setRfld_bufs (s : State) (a lo w v : Nat) : (s.setRfld a lo w v).bufs = s.bufs := (rfl)
@[simp] theorem State.setRfld_learnQ (s : State) (a lo w v : Nat) : (s.setRfld a lo w v).learnQ = s.learnQ := (rfl)
@[simp] theorem State.setRfld_notify (s : State) (a lo w v : Nat) : (s.setRfld a lo w v).notify = s.notify := (rfl)
@[simp] theorem State.setRfld_reports (s : State) (a lo w v : Nat) : (s.setRfld a lo w v).reports = s.reports := (rfl)
@[simp] theorem State.setRfld_intStacks (s : State) (a lo w v : Nat) : (s.setRfld a lo w v).intStacks = s.intStacks := (rfl)
@[simp] theorem State.setRfld_cands (s : State) (a lo w v : Nat) : (s.setRfld a lo w v).cands = s.cands := (rfl)
@[simp] theorem State.setRfld_lpmQ (s : State) (a lo w v : Nat) : (s.setRfld a lo w v).lpmQ = s.lpmQ := (rfl)
@[simp] theorem State.setRfld_pageWrites (s : State) (a lo w v : Nat) : (s.setRfld a lo w v).pageWrites = s.pageWrites := (rfl)
@[simp] theorem State.setRfld_injects (s : State) (a lo w v : Nat) : (s.setRfld a lo w v).injects = s.injects := (rfl)
@[simp] theorem State.setRfld_pegJobs (s : State) (a lo w v : Nat) : (s.setRfld a lo w v).pegJobs = s.pegJobs := (rfl)
@[simp] theorem State.setRfld_flashQ (s : State) (a lo w v : Nat) : (s.setRfld a lo w v).flashQ = s.flashQ := (rfl)
@[simp] theorem State.setRfld_eloLast (s : State) (a lo w v : Nat) : (s.setRfld a lo w v).eloLast = s.eloLast := (rfl)
@[simp] theorem State.setRfld_doeQ (s : State) (a lo w v : Nat) : (s.setRfld a lo w v).doeQ = s.doeQ := (rfl)
@[simp] theorem State.setRfld_spdm (s : State) (a lo w v : Nat) : (s.setRfld a lo w v).spdm = s.spdm := (rfl)
@[simp] theorem State.setRfld_domQ (s : State) (a lo w v : Nat) : (s.setRfld a lo w v).domQ = s.domQ := (rfl)
@[simp] theorem State.setRfld_flows (s : State) (a lo w v : Nat) : (s.setRfld a lo w v).flows = s.flows := (rfl)
@[simp] theorem State.setRfld_credQ (s : State) (a lo w v : Nat) : (s.setRfld a lo w v).credQ = s.credQ := (rfl)
@[simp] theorem State.setRfld_localPath (s : State) (a lo w v : Nat) : (s.setRfld a lo w v).localPath = s.localPath := (rfl)
@[simp] theorem State.setRfld_txLinks (s : State) (a lo w v : Nat) : (s.setRfld a lo w v).txLinks = s.txLinks := (rfl)
@[simp] theorem State.setRfld_held (s : State) (a lo w v : Nat) : (s.setRfld a lo w v).held = s.held := (rfl)
@[simp] theorem State.setRfld_pageReads (s : State) (a lo w v : Nat) : (s.setRfld a lo w v).pageReads = s.pageReads := (rfl)
@[simp] theorem State.setRfld_dramWait (s : State) (a lo w v : Nat) : (s.setRfld a lo w v).dramWait = s.dramWait := (rfl)
@[simp] theorem State.setRfld_dramOps (s : State) (a lo w v : Nat) : (s.setRfld a lo w v).dramOps = s.dramOps := (rfl)
@[simp] theorem State.setRfld_rhRows (s : State) (a lo w v : Nat) : (s.setRfld a lo w v).rhRows = s.rhRows := (rfl)
@[simp] theorem State.setRfld_rhCands (s : State) (a lo w v : Nat) : (s.setRfld a lo w v).rhCands = s.rhCands := (rfl)
@[simp] theorem State.setRfld_tb (s : State) (a lo w v : Nat) : (s.setRfld a lo w v).tb = s.tb := (rfl)
@[simp] theorem State.setRfld_trkA (s : State) (a lo w v : Nat) : (s.setRfld a lo w v).trkA = s.trkA := (rfl)
@[simp] theorem State.setRfld_trkB (s : State) (a lo w v : Nat) : (s.setRfld a lo w v).trkB = s.trkB := (rfl)
@[simp] theorem State.setRfld_fol (s : State) (a lo w v : Nat) : (s.setRfld a lo w v).fol = s.fol := (rfl)
@[simp] theorem State.setRfld_root (s : State) (a lo w v : Nat) : (s.setRfld a lo w v).root = s.root := (rfl)
@[simp] theorem State.setRfld_freeCtr (s : State) (a lo w v : Nat) : (s.setRfld a lo w v).freeCtr = s.freeCtr := (rfl)
@[simp] theorem State.setRfld_out (s : State) (a lo w v : Nat) : (s.setRfld a lo w v).out = s.out := (rfl)

@[simp] theorem State.setRbit_pending (s : State) (a i : Nat) (b : Bool) : (s.setRbit a i b).pending = s.pending := (rfl)
@[simp] theorem State.setRbit_tabs (s : State) (a i : Nat) (b : Bool) : (s.setRbit a i b).tabs = s.tabs := (rfl)
@[simp] theorem State.setRbit_mem (s : State) (a i : Nat) (b : Bool) : (s.setRbit a i b).mem = s.mem := (rfl)
@[simp] theorem State.setRbit_hid (s : State) (a i : Nat) (b : Bool) : (s.setRbit a i b).hid = s.hid := (rfl)
@[simp] theorem State.setRbit_frames (s : State) (a i : Nat) (b : Bool) : (s.setRbit a i b).frames = s.frames := (rfl)
@[simp] theorem State.setRbit_bufs (s : State) (a i : Nat) (b : Bool) : (s.setRbit a i b).bufs = s.bufs := (rfl)
@[simp] theorem State.setRbit_learnQ (s : State) (a i : Nat) (b : Bool) : (s.setRbit a i b).learnQ = s.learnQ := (rfl)
@[simp] theorem State.setRbit_notify (s : State) (a i : Nat) (b : Bool) : (s.setRbit a i b).notify = s.notify := (rfl)
@[simp] theorem State.setRbit_reports (s : State) (a i : Nat) (b : Bool) : (s.setRbit a i b).reports = s.reports := (rfl)
@[simp] theorem State.setRbit_intStacks (s : State) (a i : Nat) (b : Bool) : (s.setRbit a i b).intStacks = s.intStacks := (rfl)
@[simp] theorem State.setRbit_cands (s : State) (a i : Nat) (b : Bool) : (s.setRbit a i b).cands = s.cands := (rfl)
@[simp] theorem State.setRbit_lpmQ (s : State) (a i : Nat) (b : Bool) : (s.setRbit a i b).lpmQ = s.lpmQ := (rfl)
@[simp] theorem State.setRbit_pageWrites (s : State) (a i : Nat) (b : Bool) : (s.setRbit a i b).pageWrites = s.pageWrites := (rfl)
@[simp] theorem State.setRbit_injects (s : State) (a i : Nat) (b : Bool) : (s.setRbit a i b).injects = s.injects := (rfl)
@[simp] theorem State.setRbit_pegJobs (s : State) (a i : Nat) (b : Bool) : (s.setRbit a i b).pegJobs = s.pegJobs := (rfl)
@[simp] theorem State.setRbit_flashQ (s : State) (a i : Nat) (b : Bool) : (s.setRbit a i b).flashQ = s.flashQ := (rfl)
@[simp] theorem State.setRbit_eloLast (s : State) (a i : Nat) (b : Bool) : (s.setRbit a i b).eloLast = s.eloLast := (rfl)
@[simp] theorem State.setRbit_doeQ (s : State) (a i : Nat) (b : Bool) : (s.setRbit a i b).doeQ = s.doeQ := (rfl)
@[simp] theorem State.setRbit_spdm (s : State) (a i : Nat) (b : Bool) : (s.setRbit a i b).spdm = s.spdm := (rfl)
@[simp] theorem State.setRbit_domQ (s : State) (a i : Nat) (b : Bool) : (s.setRbit a i b).domQ = s.domQ := (rfl)
@[simp] theorem State.setRbit_flows (s : State) (a i : Nat) (b : Bool) : (s.setRbit a i b).flows = s.flows := (rfl)
@[simp] theorem State.setRbit_credQ (s : State) (a i : Nat) (b : Bool) : (s.setRbit a i b).credQ = s.credQ := (rfl)
@[simp] theorem State.setRbit_localPath (s : State) (a i : Nat) (b : Bool) : (s.setRbit a i b).localPath = s.localPath := (rfl)
@[simp] theorem State.setRbit_txLinks (s : State) (a i : Nat) (b : Bool) : (s.setRbit a i b).txLinks = s.txLinks := (rfl)
@[simp] theorem State.setRbit_held (s : State) (a i : Nat) (b : Bool) : (s.setRbit a i b).held = s.held := (rfl)
@[simp] theorem State.setRbit_pageReads (s : State) (a i : Nat) (b : Bool) : (s.setRbit a i b).pageReads = s.pageReads := (rfl)
@[simp] theorem State.setRbit_dramWait (s : State) (a i : Nat) (b : Bool) : (s.setRbit a i b).dramWait = s.dramWait := (rfl)
@[simp] theorem State.setRbit_dramOps (s : State) (a i : Nat) (b : Bool) : (s.setRbit a i b).dramOps = s.dramOps := (rfl)
@[simp] theorem State.setRbit_rhRows (s : State) (a i : Nat) (b : Bool) : (s.setRbit a i b).rhRows = s.rhRows := (rfl)
@[simp] theorem State.setRbit_rhCands (s : State) (a i : Nat) (b : Bool) : (s.setRbit a i b).rhCands = s.rhCands := (rfl)
@[simp] theorem State.setRbit_tb (s : State) (a i : Nat) (b : Bool) : (s.setRbit a i b).tb = s.tb := (rfl)
@[simp] theorem State.setRbit_trkA (s : State) (a i : Nat) (b : Bool) : (s.setRbit a i b).trkA = s.trkA := (rfl)
@[simp] theorem State.setRbit_trkB (s : State) (a i : Nat) (b : Bool) : (s.setRbit a i b).trkB = s.trkB := (rfl)
@[simp] theorem State.setRbit_fol (s : State) (a i : Nat) (b : Bool) : (s.setRbit a i b).fol = s.fol := (rfl)
@[simp] theorem State.setRbit_root (s : State) (a i : Nat) (b : Bool) : (s.setRbit a i b).root = s.root := (rfl)
@[simp] theorem State.setRbit_freeCtr (s : State) (a i : Nat) (b : Bool) : (s.setRbit a i b).freeCtr = s.freeCtr := (rfl)
@[simp] theorem State.setRbit_out (s : State) (a i : Nat) (b : Bool) : (s.setRbit a i b).out = s.out := (rfl)

@[simp] theorem State.setH_pending (s : State) (k : Hid) (v : Int) : (s.setH k v).pending = s.pending := (rfl)
@[simp] theorem State.setH_regs (s : State) (k : Hid) (v : Int) : (s.setH k v).regs = s.regs := (rfl)
@[simp] theorem State.setH_tabs (s : State) (k : Hid) (v : Int) : (s.setH k v).tabs = s.tabs := (rfl)
@[simp] theorem State.setH_mem (s : State) (k : Hid) (v : Int) : (s.setH k v).mem = s.mem := (rfl)
@[simp] theorem State.setH_frames (s : State) (k : Hid) (v : Int) : (s.setH k v).frames = s.frames := (rfl)
@[simp] theorem State.setH_bufs (s : State) (k : Hid) (v : Int) : (s.setH k v).bufs = s.bufs := (rfl)
@[simp] theorem State.setH_learnQ (s : State) (k : Hid) (v : Int) : (s.setH k v).learnQ = s.learnQ := (rfl)
@[simp] theorem State.setH_notify (s : State) (k : Hid) (v : Int) : (s.setH k v).notify = s.notify := (rfl)
@[simp] theorem State.setH_reports (s : State) (k : Hid) (v : Int) : (s.setH k v).reports = s.reports := (rfl)
@[simp] theorem State.setH_intStacks (s : State) (k : Hid) (v : Int) : (s.setH k v).intStacks = s.intStacks := (rfl)
@[simp] theorem State.setH_cands (s : State) (k : Hid) (v : Int) : (s.setH k v).cands = s.cands := (rfl)
@[simp] theorem State.setH_lpmQ (s : State) (k : Hid) (v : Int) : (s.setH k v).lpmQ = s.lpmQ := (rfl)
@[simp] theorem State.setH_pageWrites (s : State) (k : Hid) (v : Int) : (s.setH k v).pageWrites = s.pageWrites := (rfl)
@[simp] theorem State.setH_injects (s : State) (k : Hid) (v : Int) : (s.setH k v).injects = s.injects := (rfl)
@[simp] theorem State.setH_pegJobs (s : State) (k : Hid) (v : Int) : (s.setH k v).pegJobs = s.pegJobs := (rfl)
@[simp] theorem State.setH_flashQ (s : State) (k : Hid) (v : Int) : (s.setH k v).flashQ = s.flashQ := (rfl)
@[simp] theorem State.setH_eloLast (s : State) (k : Hid) (v : Int) : (s.setH k v).eloLast = s.eloLast := (rfl)
@[simp] theorem State.setH_doeQ (s : State) (k : Hid) (v : Int) : (s.setH k v).doeQ = s.doeQ := (rfl)
@[simp] theorem State.setH_spdm (s : State) (k : Hid) (v : Int) : (s.setH k v).spdm = s.spdm := (rfl)
@[simp] theorem State.setH_domQ (s : State) (k : Hid) (v : Int) : (s.setH k v).domQ = s.domQ := (rfl)
@[simp] theorem State.setH_flows (s : State) (k : Hid) (v : Int) : (s.setH k v).flows = s.flows := (rfl)
@[simp] theorem State.setH_credQ (s : State) (k : Hid) (v : Int) : (s.setH k v).credQ = s.credQ := (rfl)
@[simp] theorem State.setH_localPath (s : State) (k : Hid) (v : Int) : (s.setH k v).localPath = s.localPath := (rfl)
@[simp] theorem State.setH_txLinks (s : State) (k : Hid) (v : Int) : (s.setH k v).txLinks = s.txLinks := (rfl)
@[simp] theorem State.setH_held (s : State) (k : Hid) (v : Int) : (s.setH k v).held = s.held := (rfl)
@[simp] theorem State.setH_pageReads (s : State) (k : Hid) (v : Int) : (s.setH k v).pageReads = s.pageReads := (rfl)
@[simp] theorem State.setH_dramWait (s : State) (k : Hid) (v : Int) : (s.setH k v).dramWait = s.dramWait := (rfl)
@[simp] theorem State.setH_dramOps (s : State) (k : Hid) (v : Int) : (s.setH k v).dramOps = s.dramOps := (rfl)
@[simp] theorem State.setH_rhRows (s : State) (k : Hid) (v : Int) : (s.setH k v).rhRows = s.rhRows := (rfl)
@[simp] theorem State.setH_rhCands (s : State) (k : Hid) (v : Int) : (s.setH k v).rhCands = s.rhCands := (rfl)
@[simp] theorem State.setH_tb (s : State) (k : Hid) (v : Int) : (s.setH k v).tb = s.tb := (rfl)
@[simp] theorem State.setH_trkA (s : State) (k : Hid) (v : Int) : (s.setH k v).trkA = s.trkA := (rfl)
@[simp] theorem State.setH_trkB (s : State) (k : Hid) (v : Int) : (s.setH k v).trkB = s.trkB := (rfl)
@[simp] theorem State.setH_fol (s : State) (k : Hid) (v : Int) : (s.setH k v).fol = s.fol := (rfl)
@[simp] theorem State.setH_root (s : State) (k : Hid) (v : Int) : (s.setH k v).root = s.root := (rfl)
@[simp] theorem State.setH_freeCtr (s : State) (k : Hid) (v : Int) : (s.setH k v).freeCtr = s.freeCtr := (rfl)
@[simp] theorem State.setH_out (s : State) (k : Hid) (v : Int) : (s.setH k v).out = s.out := (rfl)

@[simp] theorem State.setHb_pending (s : State) (k : Hid) (b : Bool) : (s.setHb k b).pending = s.pending := (rfl)
@[simp] theorem State.setHb_regs (s : State) (k : Hid) (b : Bool) : (s.setHb k b).regs = s.regs := (rfl)
@[simp] theorem State.setHb_tabs (s : State) (k : Hid) (b : Bool) : (s.setHb k b).tabs = s.tabs := (rfl)
@[simp] theorem State.setHb_mem (s : State) (k : Hid) (b : Bool) : (s.setHb k b).mem = s.mem := (rfl)
@[simp] theorem State.setHb_frames (s : State) (k : Hid) (b : Bool) : (s.setHb k b).frames = s.frames := (rfl)
@[simp] theorem State.setHb_bufs (s : State) (k : Hid) (b : Bool) : (s.setHb k b).bufs = s.bufs := (rfl)
@[simp] theorem State.setHb_learnQ (s : State) (k : Hid) (b : Bool) : (s.setHb k b).learnQ = s.learnQ := (rfl)
@[simp] theorem State.setHb_notify (s : State) (k : Hid) (b : Bool) : (s.setHb k b).notify = s.notify := (rfl)
@[simp] theorem State.setHb_reports (s : State) (k : Hid) (b : Bool) : (s.setHb k b).reports = s.reports := (rfl)
@[simp] theorem State.setHb_intStacks (s : State) (k : Hid) (b : Bool) : (s.setHb k b).intStacks = s.intStacks := (rfl)
@[simp] theorem State.setHb_cands (s : State) (k : Hid) (b : Bool) : (s.setHb k b).cands = s.cands := (rfl)
@[simp] theorem State.setHb_lpmQ (s : State) (k : Hid) (b : Bool) : (s.setHb k b).lpmQ = s.lpmQ := (rfl)
@[simp] theorem State.setHb_pageWrites (s : State) (k : Hid) (b : Bool) : (s.setHb k b).pageWrites = s.pageWrites := (rfl)
@[simp] theorem State.setHb_injects (s : State) (k : Hid) (b : Bool) : (s.setHb k b).injects = s.injects := (rfl)
@[simp] theorem State.setHb_pegJobs (s : State) (k : Hid) (b : Bool) : (s.setHb k b).pegJobs = s.pegJobs := (rfl)
@[simp] theorem State.setHb_flashQ (s : State) (k : Hid) (b : Bool) : (s.setHb k b).flashQ = s.flashQ := (rfl)
@[simp] theorem State.setHb_eloLast (s : State) (k : Hid) (b : Bool) : (s.setHb k b).eloLast = s.eloLast := (rfl)
@[simp] theorem State.setHb_doeQ (s : State) (k : Hid) (b : Bool) : (s.setHb k b).doeQ = s.doeQ := (rfl)
@[simp] theorem State.setHb_spdm (s : State) (k : Hid) (b : Bool) : (s.setHb k b).spdm = s.spdm := (rfl)
@[simp] theorem State.setHb_domQ (s : State) (k : Hid) (b : Bool) : (s.setHb k b).domQ = s.domQ := (rfl)
@[simp] theorem State.setHb_flows (s : State) (k : Hid) (b : Bool) : (s.setHb k b).flows = s.flows := (rfl)
@[simp] theorem State.setHb_credQ (s : State) (k : Hid) (b : Bool) : (s.setHb k b).credQ = s.credQ := (rfl)
@[simp] theorem State.setHb_localPath (s : State) (k : Hid) (b : Bool) : (s.setHb k b).localPath = s.localPath := (rfl)
@[simp] theorem State.setHb_txLinks (s : State) (k : Hid) (b : Bool) : (s.setHb k b).txLinks = s.txLinks := (rfl)
@[simp] theorem State.setHb_held (s : State) (k : Hid) (b : Bool) : (s.setHb k b).held = s.held := (rfl)
@[simp] theorem State.setHb_pageReads (s : State) (k : Hid) (b : Bool) : (s.setHb k b).pageReads = s.pageReads := (rfl)
@[simp] theorem State.setHb_dramWait (s : State) (k : Hid) (b : Bool) : (s.setHb k b).dramWait = s.dramWait := (rfl)
@[simp] theorem State.setHb_dramOps (s : State) (k : Hid) (b : Bool) : (s.setHb k b).dramOps = s.dramOps := (rfl)
@[simp] theorem State.setHb_rhRows (s : State) (k : Hid) (b : Bool) : (s.setHb k b).rhRows = s.rhRows := (rfl)
@[simp] theorem State.setHb_rhCands (s : State) (k : Hid) (b : Bool) : (s.setHb k b).rhCands = s.rhCands := (rfl)
@[simp] theorem State.setHb_tb (s : State) (k : Hid) (b : Bool) : (s.setHb k b).tb = s.tb := (rfl)
@[simp] theorem State.setHb_trkA (s : State) (k : Hid) (b : Bool) : (s.setHb k b).trkA = s.trkA := (rfl)
@[simp] theorem State.setHb_trkB (s : State) (k : Hid) (b : Bool) : (s.setHb k b).trkB = s.trkB := (rfl)
@[simp] theorem State.setHb_fol (s : State) (k : Hid) (b : Bool) : (s.setHb k b).fol = s.fol := (rfl)
@[simp] theorem State.setHb_root (s : State) (k : Hid) (b : Bool) : (s.setHb k b).root = s.root := (rfl)
@[simp] theorem State.setHb_freeCtr (s : State) (k : Hid) (b : Bool) : (s.setHb k b).freeCtr = s.freeCtr := (rfl)
@[simp] theorem State.setHb_out (s : State) (k : Hid) (b : Bool) : (s.setHb k b).out = s.out := (rfl)

@[simp] theorem State.setTab_pending (s : State) (p sel i v : Nat) : (s.setTab p sel i v).pending = s.pending := (rfl)
@[simp] theorem State.setTab_regs (s : State) (p sel i v : Nat) : (s.setTab p sel i v).regs = s.regs := (rfl)
@[simp] theorem State.setTab_mem (s : State) (p sel i v : Nat) : (s.setTab p sel i v).mem = s.mem := (rfl)
@[simp] theorem State.setTab_hid (s : State) (p sel i v : Nat) : (s.setTab p sel i v).hid = s.hid := (rfl)
@[simp] theorem State.setTab_frames (s : State) (p sel i v : Nat) : (s.setTab p sel i v).frames = s.frames := (rfl)
@[simp] theorem State.setTab_bufs (s : State) (p sel i v : Nat) : (s.setTab p sel i v).bufs = s.bufs := (rfl)
@[simp] theorem State.setTab_learnQ (s : State) (p sel i v : Nat) : (s.setTab p sel i v).learnQ = s.learnQ := (rfl)
@[simp] theorem State.setTab_notify (s : State) (p sel i v : Nat) : (s.setTab p sel i v).notify = s.notify := (rfl)
@[simp] theorem State.setTab_reports (s : State) (p sel i v : Nat) : (s.setTab p sel i v).reports = s.reports := (rfl)
@[simp] theorem State.setTab_intStacks (s : State) (p sel i v : Nat) : (s.setTab p sel i v).intStacks = s.intStacks := (rfl)
@[simp] theorem State.setTab_cands (s : State) (p sel i v : Nat) : (s.setTab p sel i v).cands = s.cands := (rfl)
@[simp] theorem State.setTab_lpmQ (s : State) (p sel i v : Nat) : (s.setTab p sel i v).lpmQ = s.lpmQ := (rfl)
@[simp] theorem State.setTab_pageWrites (s : State) (p sel i v : Nat) : (s.setTab p sel i v).pageWrites = s.pageWrites := (rfl)
@[simp] theorem State.setTab_injects (s : State) (p sel i v : Nat) : (s.setTab p sel i v).injects = s.injects := (rfl)
@[simp] theorem State.setTab_pegJobs (s : State) (p sel i v : Nat) : (s.setTab p sel i v).pegJobs = s.pegJobs := (rfl)
@[simp] theorem State.setTab_flashQ (s : State) (p sel i v : Nat) : (s.setTab p sel i v).flashQ = s.flashQ := (rfl)
@[simp] theorem State.setTab_eloLast (s : State) (p sel i v : Nat) : (s.setTab p sel i v).eloLast = s.eloLast := (rfl)
@[simp] theorem State.setTab_doeQ (s : State) (p sel i v : Nat) : (s.setTab p sel i v).doeQ = s.doeQ := (rfl)
@[simp] theorem State.setTab_spdm (s : State) (p sel i v : Nat) : (s.setTab p sel i v).spdm = s.spdm := (rfl)
@[simp] theorem State.setTab_domQ (s : State) (p sel i v : Nat) : (s.setTab p sel i v).domQ = s.domQ := (rfl)
@[simp] theorem State.setTab_flows (s : State) (p sel i v : Nat) : (s.setTab p sel i v).flows = s.flows := (rfl)
@[simp] theorem State.setTab_credQ (s : State) (p sel i v : Nat) : (s.setTab p sel i v).credQ = s.credQ := (rfl)
@[simp] theorem State.setTab_localPath (s : State) (p sel i v : Nat) : (s.setTab p sel i v).localPath = s.localPath := (rfl)
@[simp] theorem State.setTab_txLinks (s : State) (p sel i v : Nat) : (s.setTab p sel i v).txLinks = s.txLinks := (rfl)
@[simp] theorem State.setTab_held (s : State) (p sel i v : Nat) : (s.setTab p sel i v).held = s.held := (rfl)
@[simp] theorem State.setTab_pageReads (s : State) (p sel i v : Nat) : (s.setTab p sel i v).pageReads = s.pageReads := (rfl)
@[simp] theorem State.setTab_dramWait (s : State) (p sel i v : Nat) : (s.setTab p sel i v).dramWait = s.dramWait := (rfl)
@[simp] theorem State.setTab_dramOps (s : State) (p sel i v : Nat) : (s.setTab p sel i v).dramOps = s.dramOps := (rfl)
@[simp] theorem State.setTab_rhRows (s : State) (p sel i v : Nat) : (s.setTab p sel i v).rhRows = s.rhRows := (rfl)
@[simp] theorem State.setTab_rhCands (s : State) (p sel i v : Nat) : (s.setTab p sel i v).rhCands = s.rhCands := (rfl)
@[simp] theorem State.setTab_tb (s : State) (p sel i v : Nat) : (s.setTab p sel i v).tb = s.tb := (rfl)
@[simp] theorem State.setTab_trkA (s : State) (p sel i v : Nat) : (s.setTab p sel i v).trkA = s.trkA := (rfl)
@[simp] theorem State.setTab_trkB (s : State) (p sel i v : Nat) : (s.setTab p sel i v).trkB = s.trkB := (rfl)
@[simp] theorem State.setTab_fol (s : State) (p sel i v : Nat) : (s.setTab p sel i v).fol = s.fol := (rfl)
@[simp] theorem State.setTab_root (s : State) (p sel i v : Nat) : (s.setTab p sel i v).root = s.root := (rfl)
@[simp] theorem State.setTab_freeCtr (s : State) (p sel i v : Nat) : (s.setTab p sel i v).freeCtr = s.freeCtr := (rfl)
@[simp] theorem State.setTab_out (s : State) (p sel i v : Nat) : (s.setTab p sel i v).out = s.out := (rfl)

@[simp] theorem State.emit_pending (s : State) (o : Out) : (s.emit o).pending = s.pending := (rfl)
@[simp] theorem State.emit_regs (s : State) (o : Out) : (s.emit o).regs = s.regs := (rfl)
@[simp] theorem State.emit_tabs (s : State) (o : Out) : (s.emit o).tabs = s.tabs := (rfl)
@[simp] theorem State.emit_mem (s : State) (o : Out) : (s.emit o).mem = s.mem := (rfl)
@[simp] theorem State.emit_hid (s : State) (o : Out) : (s.emit o).hid = s.hid := (rfl)
@[simp] theorem State.emit_frames (s : State) (o : Out) : (s.emit o).frames = s.frames := (rfl)
@[simp] theorem State.emit_bufs (s : State) (o : Out) : (s.emit o).bufs = s.bufs := (rfl)
@[simp] theorem State.emit_learnQ (s : State) (o : Out) : (s.emit o).learnQ = s.learnQ := (rfl)
@[simp] theorem State.emit_notify (s : State) (o : Out) : (s.emit o).notify = s.notify := (rfl)
@[simp] theorem State.emit_reports (s : State) (o : Out) : (s.emit o).reports = s.reports := (rfl)
@[simp] theorem State.emit_intStacks (s : State) (o : Out) : (s.emit o).intStacks = s.intStacks := (rfl)
@[simp] theorem State.emit_cands (s : State) (o : Out) : (s.emit o).cands = s.cands := (rfl)
@[simp] theorem State.emit_lpmQ (s : State) (o : Out) : (s.emit o).lpmQ = s.lpmQ := (rfl)
@[simp] theorem State.emit_pageWrites (s : State) (o : Out) : (s.emit o).pageWrites = s.pageWrites := (rfl)
@[simp] theorem State.emit_injects (s : State) (o : Out) : (s.emit o).injects = s.injects := (rfl)
@[simp] theorem State.emit_pegJobs (s : State) (o : Out) : (s.emit o).pegJobs = s.pegJobs := (rfl)
@[simp] theorem State.emit_flashQ (s : State) (o : Out) : (s.emit o).flashQ = s.flashQ := (rfl)
@[simp] theorem State.emit_eloLast (s : State) (o : Out) : (s.emit o).eloLast = s.eloLast := (rfl)
@[simp] theorem State.emit_doeQ (s : State) (o : Out) : (s.emit o).doeQ = s.doeQ := (rfl)
@[simp] theorem State.emit_spdm (s : State) (o : Out) : (s.emit o).spdm = s.spdm := (rfl)
@[simp] theorem State.emit_domQ (s : State) (o : Out) : (s.emit o).domQ = s.domQ := (rfl)
@[simp] theorem State.emit_flows (s : State) (o : Out) : (s.emit o).flows = s.flows := (rfl)
@[simp] theorem State.emit_credQ (s : State) (o : Out) : (s.emit o).credQ = s.credQ := (rfl)
@[simp] theorem State.emit_localPath (s : State) (o : Out) : (s.emit o).localPath = s.localPath := (rfl)
@[simp] theorem State.emit_txLinks (s : State) (o : Out) : (s.emit o).txLinks = s.txLinks := (rfl)
@[simp] theorem State.emit_held (s : State) (o : Out) : (s.emit o).held = s.held := (rfl)
@[simp] theorem State.emit_pageReads (s : State) (o : Out) : (s.emit o).pageReads = s.pageReads := (rfl)
@[simp] theorem State.emit_dramWait (s : State) (o : Out) : (s.emit o).dramWait = s.dramWait := (rfl)
@[simp] theorem State.emit_dramOps (s : State) (o : Out) : (s.emit o).dramOps = s.dramOps := (rfl)
@[simp] theorem State.emit_rhRows (s : State) (o : Out) : (s.emit o).rhRows = s.rhRows := (rfl)
@[simp] theorem State.emit_rhCands (s : State) (o : Out) : (s.emit o).rhCands = s.rhCands := (rfl)
@[simp] theorem State.emit_tb (s : State) (o : Out) : (s.emit o).tb = s.tb := (rfl)
@[simp] theorem State.emit_trkA (s : State) (o : Out) : (s.emit o).trkA = s.trkA := (rfl)
@[simp] theorem State.emit_trkB (s : State) (o : Out) : (s.emit o).trkB = s.trkB := (rfl)
@[simp] theorem State.emit_fol (s : State) (o : Out) : (s.emit o).fol = s.fol := (rfl)
@[simp] theorem State.emit_root (s : State) (o : Out) : (s.emit o).root = s.root := (rfl)
@[simp] theorem State.emit_freeCtr (s : State) (o : Out) : (s.emit o).freeCtr = s.freeCtr := (rfl)

@[simp] theorem State.wrMem_pending (s : State) (sp : Space) (a : Nat) (bs : List Byte) : (s.wrMem sp a bs).pending = s.pending := (rfl)
@[simp] theorem State.wrMem_regs (s : State) (sp : Space) (a : Nat) (bs : List Byte) : (s.wrMem sp a bs).regs = s.regs := (rfl)
@[simp] theorem State.wrMem_tabs (s : State) (sp : Space) (a : Nat) (bs : List Byte) : (s.wrMem sp a bs).tabs = s.tabs := (rfl)
@[simp] theorem State.wrMem_hid (s : State) (sp : Space) (a : Nat) (bs : List Byte) : (s.wrMem sp a bs).hid = s.hid := (rfl)
@[simp] theorem State.wrMem_frames (s : State) (sp : Space) (a : Nat) (bs : List Byte) : (s.wrMem sp a bs).frames = s.frames := (rfl)
@[simp] theorem State.wrMem_bufs (s : State) (sp : Space) (a : Nat) (bs : List Byte) : (s.wrMem sp a bs).bufs = s.bufs := (rfl)
@[simp] theorem State.wrMem_learnQ (s : State) (sp : Space) (a : Nat) (bs : List Byte) : (s.wrMem sp a bs).learnQ = s.learnQ := (rfl)
@[simp] theorem State.wrMem_notify (s : State) (sp : Space) (a : Nat) (bs : List Byte) : (s.wrMem sp a bs).notify = s.notify := (rfl)
@[simp] theorem State.wrMem_reports (s : State) (sp : Space) (a : Nat) (bs : List Byte) : (s.wrMem sp a bs).reports = s.reports := (rfl)
@[simp] theorem State.wrMem_intStacks (s : State) (sp : Space) (a : Nat) (bs : List Byte) : (s.wrMem sp a bs).intStacks = s.intStacks := (rfl)
@[simp] theorem State.wrMem_cands (s : State) (sp : Space) (a : Nat) (bs : List Byte) : (s.wrMem sp a bs).cands = s.cands := (rfl)
@[simp] theorem State.wrMem_lpmQ (s : State) (sp : Space) (a : Nat) (bs : List Byte) : (s.wrMem sp a bs).lpmQ = s.lpmQ := (rfl)
@[simp] theorem State.wrMem_pageWrites (s : State) (sp : Space) (a : Nat) (bs : List Byte) : (s.wrMem sp a bs).pageWrites = s.pageWrites := (rfl)
@[simp] theorem State.wrMem_injects (s : State) (sp : Space) (a : Nat) (bs : List Byte) : (s.wrMem sp a bs).injects = s.injects := (rfl)
@[simp] theorem State.wrMem_pegJobs (s : State) (sp : Space) (a : Nat) (bs : List Byte) : (s.wrMem sp a bs).pegJobs = s.pegJobs := (rfl)
@[simp] theorem State.wrMem_flashQ (s : State) (sp : Space) (a : Nat) (bs : List Byte) : (s.wrMem sp a bs).flashQ = s.flashQ := (rfl)
@[simp] theorem State.wrMem_eloLast (s : State) (sp : Space) (a : Nat) (bs : List Byte) : (s.wrMem sp a bs).eloLast = s.eloLast := (rfl)
@[simp] theorem State.wrMem_doeQ (s : State) (sp : Space) (a : Nat) (bs : List Byte) : (s.wrMem sp a bs).doeQ = s.doeQ := (rfl)
@[simp] theorem State.wrMem_spdm (s : State) (sp : Space) (a : Nat) (bs : List Byte) : (s.wrMem sp a bs).spdm = s.spdm := (rfl)
@[simp] theorem State.wrMem_domQ (s : State) (sp : Space) (a : Nat) (bs : List Byte) : (s.wrMem sp a bs).domQ = s.domQ := (rfl)
@[simp] theorem State.wrMem_flows (s : State) (sp : Space) (a : Nat) (bs : List Byte) : (s.wrMem sp a bs).flows = s.flows := (rfl)
@[simp] theorem State.wrMem_credQ (s : State) (sp : Space) (a : Nat) (bs : List Byte) : (s.wrMem sp a bs).credQ = s.credQ := (rfl)
@[simp] theorem State.wrMem_localPath (s : State) (sp : Space) (a : Nat) (bs : List Byte) : (s.wrMem sp a bs).localPath = s.localPath := (rfl)
@[simp] theorem State.wrMem_txLinks (s : State) (sp : Space) (a : Nat) (bs : List Byte) : (s.wrMem sp a bs).txLinks = s.txLinks := (rfl)
@[simp] theorem State.wrMem_held (s : State) (sp : Space) (a : Nat) (bs : List Byte) : (s.wrMem sp a bs).held = s.held := (rfl)
@[simp] theorem State.wrMem_pageReads (s : State) (sp : Space) (a : Nat) (bs : List Byte) : (s.wrMem sp a bs).pageReads = s.pageReads := (rfl)
@[simp] theorem State.wrMem_dramWait (s : State) (sp : Space) (a : Nat) (bs : List Byte) : (s.wrMem sp a bs).dramWait = s.dramWait := (rfl)
@[simp] theorem State.wrMem_dramOps (s : State) (sp : Space) (a : Nat) (bs : List Byte) : (s.wrMem sp a bs).dramOps = s.dramOps := (rfl)
@[simp] theorem State.wrMem_rhRows (s : State) (sp : Space) (a : Nat) (bs : List Byte) : (s.wrMem sp a bs).rhRows = s.rhRows := (rfl)
@[simp] theorem State.wrMem_rhCands (s : State) (sp : Space) (a : Nat) (bs : List Byte) : (s.wrMem sp a bs).rhCands = s.rhCands := (rfl)
@[simp] theorem State.wrMem_tb (s : State) (sp : Space) (a : Nat) (bs : List Byte) : (s.wrMem sp a bs).tb = s.tb := (rfl)
@[simp] theorem State.wrMem_trkA (s : State) (sp : Space) (a : Nat) (bs : List Byte) : (s.wrMem sp a bs).trkA = s.trkA := (rfl)
@[simp] theorem State.wrMem_trkB (s : State) (sp : Space) (a : Nat) (bs : List Byte) : (s.wrMem sp a bs).trkB = s.trkB := (rfl)
@[simp] theorem State.wrMem_fol (s : State) (sp : Space) (a : Nat) (bs : List Byte) : (s.wrMem sp a bs).fol = s.fol := (rfl)
@[simp] theorem State.wrMem_root (s : State) (sp : Space) (a : Nat) (bs : List Byte) : (s.wrMem sp a bs).root = s.root := (rfl)
@[simp] theorem State.wrMem_freeCtr (s : State) (sp : Space) (a : Nat) (bs : List Byte) : (s.wrMem sp a bs).freeCtr = s.freeCtr := (rfl)
@[simp] theorem State.wrMem_out (s : State) (sp : Space) (a : Nat) (bs : List Byte) : (s.wrMem sp a bs).out = s.out := (rfl)

@[simp] theorem State.emit_out (s : State) (o : Out) : (s.emit o).out = s.out ++ [o] := (rfl)

/-! ### Registers -/

/-- Registers are read back as they were written. -/
theorem State.reg_setReg_self {s : State} (a v : Nat) (h : Smap.Sorted s.regs) : (s.setReg a v).reg a = v % 2 ^ 64 := by
  simp [State.reg, State.setReg, Smap.get_set_self _ _ _ _ h]

theorem State.reg_setReg_other {s : State} {a b : Nat} (v : Nat) (hab : a ≠ b) (h : Smap.Sorted s.regs) :
    (s.setReg a v).reg b = s.reg b := by
  simp [State.reg, State.setReg, Smap.get_set_other _ _ _ hab h]

theorem State.sorted_setReg {s : State} (a v : Nat) (h : Smap.Canonical regDefault s.regs) :
    Smap.Canonical regDefault (s.setReg a v).regs := h.set _ _

@[simp] theorem State.reg_setH (s : State) (k : Hid) (v : Int) (a : Nat) : (s.setH k v).reg a = s.reg a := (rfl)
@[simp] theorem State.reg_setHb (s : State) (k : Hid) (b : Bool) (a : Nat) : (s.setHb k b).reg a = s.reg a := (rfl)
@[simp] theorem State.reg_setTab (s : State) (p sel i v a : Nat) : (s.setTab p sel i v).reg a = s.reg a := (rfl)
@[simp] theorem State.reg_emit (s : State) (o : Out) (a : Nat) : (s.emit o).reg a = s.reg a := (rfl)
@[simp] theorem State.reg_wrMem (s : State) (sp : Space) (x : Nat) (bs : List Byte) (a : Nat) :
    (s.wrMem sp x bs).reg a = s.reg a := (rfl)

/-! ### Hidden numbers -/

/-- Two hidden numbers whose codes differ do not share a place. -/
theorem State.h_setH_self {s : State} (k : Hid) (v : Int) (h : Smap.Sorted s.hid) : (s.setH k v).h k = v := by
  simp [State.h, State.setH, Smap.get_set_self _ _ _ _ h]

theorem State.h_setH_other {s : State} {j k : Hid} (v : Int) (hjk : k.code ≠ j.code) (h : Smap.Sorted s.hid) :
    (s.setH k v).h j = s.h j := by
  simp [State.h, State.setH, Smap.get_set_other _ _ _ hjk h]

@[simp] theorem State.h_setReg (s : State) (a v : Nat) (k : Hid) : (s.setReg a v).h k = s.h k := (rfl)
@[simp] theorem State.h_setTab (s : State) (p sel i v : Nat) (k : Hid) : (s.setTab p sel i v).h k = s.h k := (rfl)
@[simp] theorem State.h_emit (s : State) (o : Out) (k : Hid) : (s.emit o).h k = s.h k := (rfl)

/-! ### Tables -/

theorem State.tab_setTab_self {s : State} (p sel i v : Nat) (h : Smap.Sorted s.tabs) :
    (s.setTab p sel i v).tab p sel i = (BitVec.ofNat 512 v).toNat := by
  simp [State.tab, State.setTab, Smap.get_set_self _ _ _ _ h]

theorem State.tab_setTab_other {s : State} {p sel i p' sel' i' : Nat} (v : Nat)
    (hne : tabKey p sel i ≠ tabKey p' sel' i') (h : Smap.Sorted s.tabs) :
    (s.setTab p sel i v).tab p' sel' i' = s.tab p' sel' i' := by
  simp [State.tab, State.setTab, Smap.get_set_other _ _ _ hne h]

@[simp] theorem State.tab_setReg (s : State) (a v p sel i : Nat) : (s.setReg a v).tab p sel i = s.tab p sel i := (rfl)
@[simp] theorem State.tab_setH (s : State) (k : Hid) (v : Int) (p sel i : Nat) : (s.setH k v).tab p sel i = s.tab p sel i := (rfl)
@[simp] theorem State.tab_emit (s : State) (o : Out) (p sel i : Nat) : (s.emit o).tab p sel i = s.tab p sel i := (rfl)

/-! ### Folds and choices -/

@[simp] theorem forEach_nil {α : Type} (s : State) (f : α → State → State) : forEach [] s f = s := (rfl)

@[simp] theorem forEach_cons {α : Type} (x : α) (xs : List α) (s : State) (f : α → State → State) :
    forEach (x :: xs) s f = forEach xs (f x s) f := (rfl)

theorem State.ifLive_pos {s : State} {p : Nat} (f : State → State) (h : s.live p = true) : s.ifLive p f = f s := by
  simp [State.ifLive, h]

theorem State.when_pos {s : State} {c : Bool} (f : State → State) (h : c = true) : s.when c f = f s := by
  simp [State.when, h]

end Sys2Proof.Machine
end

