-- ==== Sys2Proof/Laws/Gate.lean ====
section
/-!
SUPPORT. What the register gate does with an access: one lemma for an admitted one, and what the first write of a core that
took over leaves.
-/
namespace Sys2Proof.Machine

@[simp] theorem firstWrite_reg (r : Req) (s : State) (a : Nat) : (firstWrite r s).reg a = s.reg a := by
  unfold firstWrite
  dsimp only
  split <;> rfl

@[simp] theorem firstWrite_rfld (r : Req) (s : State) (a lo w : Nat) : (firstWrite r s).rfld a lo w = s.rfld a lo w := by
  simp [State.rfld]

@[simp] theorem firstWrite_rbit (r : Req) (s : State) (a i : Nat) : (firstWrite r s).rbit a i = s.rbit a i := by
  simp [State.rbit]

@[simp] theorem firstWrite_tab (r : Req) (s : State) (p sel i : Nat) : (firstWrite r s).tab p sel i = s.tab p sel i := by
  unfold firstWrite
  dsimp only
  split <;> rfl

@[simp] theorem firstWrite_pageOn (r : Req) (s : State) (p : Nat) : (firstWrite r s).pageOn p = s.pageOn p := by
  simp [State.pageOn, State.domOn, State.domState]

@[simp] theorem firstWrite_pllOk (r : Req) (s : State) : (firstWrite r s).pllOk = s.pllOk := by simp [State.pllOk]

@[simp] theorem firstWrite_clocked (r : Req) (s : State) (p : Nat) : (firstWrite r s).clocked p = s.clocked p := by
  simp [State.clocked]

@[simp] theorem firstWrite_live (r : Req) (s : State) (p : Nat) : (firstWrite r s).live p = s.live p := by simp [State.live]

@[simp] theorem firstWrite_standbyCore (r q : Req) (s : State) : standbyCore (firstWrite r s) q = standbyCore s q := by
  cases q <;> simp [standbyCore, coreOf, coreState]

@[simp] theorem firstWrite_haltedCore (r q : Req) (s : State) : haltedCore (firstWrite r s) q = haltedCore s q := by
  cases q <;> simp [haltedCore, coreOf, coreState]

/-- A core that is ACTIVE is not halted. -/
theorem haltedCore_of_active {s : State} {r : Req} (h : standbyCore s r = false) : haltedCore s r = false := by
  cases r <;> simp_all [haltedCore, standbyCore, coreOf]

/-- The fence lets an admitted requester pass, and no write of it is left in the register fabric. -/
theorem Admits.passes {s : State} {r : Req} {a : Nat} (h : Admits s r a) :
    haltedCore s r = false ∧ fenced r a (firstWrite r s) = (false, firstWrite r s) := by
  have hh : haltedCore s r = false := by
    rcases h.2.1 with h' | h'
    · exact haltedCore_of_active h'
    · exact h'.1
  refine ⟨hh, ?_⟩
  rcases h.2.1 with h' | h' <;> simp [fenced, inFabric, hh, h']

@[simp] theorem firstWrite_tb (r : Req) (s : State) : (firstWrite r s).tb = s.tb := by
  unfold firstWrite
  dsimp only
  split <;> rfl

@[simp] theorem firstWrite_followed (r : Req) (s : State) : followed (firstWrite r s) = followed s := by simp [followed]

@[simp] theorem firstWrite_rateFollowed (r : Req) (s : State) (x : RateSel) :
    rateFollowed (firstWrite r s) x = rateFollowed s x := by simp [rateFollowed]

@[simp] theorem firstWrite_stepAllowed (r : Req) (s : State) : stepAllowed (firstWrite r s) = stepAllowed s := by
  simp [stepAllowed]

/-- An admitted write has its effect, after the write is counted as the first of a core that took over. -/
theorem gateWrite_admits {s : State} {r : Req} {a : Nat} (f : State → State) (h : Admits s r a) :
    gateWrite r a f s = f (firstWrite r s) := by
  have hp := h.passes.2
  obtain ⟨h1, _, h3, h4, h5, h6⟩ := h
  have h3' : (pageOf (a / 0x10000)).isNone = false := by simp_all
  unfold gateWrite
  simp only [h1, hp, ne_eq, not_true_eq_false, if_false, firstWrite_pageOn, firstWrite_rbit, h3', h4, h5, h6, Bool.not_true,
    Bool.false_eq_true]

/-- An admitted read returns its value and has its effect. -/
theorem gateRead_admits {s : State} {r : Req} {a : Nat} (f : State → Nat × State) (h : Admits s r a) :
    gateRead r a f s = f s := by
  obtain ⟨h1, _, h3, h4, h5, h6⟩ := h
  have h3' : (pageOf (a / 0x10000)).isNone = false := by simp_all
  unfold gateRead
  simp only [h1, ne_eq, not_true_eq_false, if_false, h3', h4, h5, h6, Bool.not_true, Bool.false_eq_true, Bool.false_and]

/-- The value of an admitted read leaves for its requester. -/
theorem readFor_admits {s : State} {r : Req} {a : Nat} (f : State → Nat × State) (h : Admits s r a) :
    readFor r a f s = (f s).2.emit (.readData r a (f s).1) := by
  simp only [readFor, h.passes.1, gateRead_admits f h, Bool.false_eq_true, if_false]

@[simp] theorem winData_firstWrite (r : Req) (s : State) (q : Req) (p : Nat) :
    winData (firstWrite r s) q p = winData s q p := by simp [winData]

@[simp] theorem winOf_firstWrite (r : Req) (s : State) (q : Req) (p : Nat) : winOf (firstWrite r s) q p = winOf s q p := by
  simp [winOf]

/-- A table command that may start executes on the requester's bank, and its bank reads BUSY. -/
theorem tblRun_ready {s : State} {r : Req} {p : Nat} (h : Win → State → TblRes)
    (hb : s.rbit (winBank r (Reg.TBL_STS p)) 31 = false) :
    tblRun r p h s = tableEnd r p (h (winOf s r p) s).2.1 (h (winOf s r p) s).2.2 (h (winOf s r p) s).1 := by
  unfold tblRun tableEnd
  simp only [hb, Bool.false_eq_true, if_false] <;> rfl

/-- The same behind the register gate. -/
theorem tblCmd_ready {s : State} {r : Req} {p : Nat} (h : Win → State → TblRes) (a : TableReady s r p) :
    tblCmd r p h s = tableEnd r p (h (winOf s r p) (firstWrite r s)).2.1 (h (winOf s r p) (firstWrite r s)).2.2
      (h (winOf s r p) (firstWrite r s)).1 := by
  unfold tblCmd
  rw [gateWrite_admits _ a.1, tblRun_ready _ (by rw [firstWrite_rbit]; exact a.2), winOf_firstWrite]

/-- A route command takes its place in the queue of the LPM page. -/
theorem routeCmd_ready {s : State} {r : Req} (op : Nat) (a : TableReady s r lpmPage) :
    routeCmd r op s = lpmQueue r op (firstWrite r s) := by
  unfold routeCmd routeRun
  rw [gateWrite_admits _ a.1, firstWrite_rbit, a.2]
  simp only [Bool.false_eq_true, if_false]

/-- An Eloatal request that executes has the effect of its type. -/
theorem eloGate_served {s : State} {h : EloHdr} {typ len : Nat} (f : State → State) (a : EloServed s h typ len) :
    eloGate h typ len f s = f s := by
  obtain ⟨h1, h2, h3, h4, h5, h6, h7⟩ := a
  simp only [eloGate, h1, h2, h3, h4, h5, h6, h7, Bool.not_true, Bool.or_self, Bool.false_eq_true, if_false, ne_eq,
    not_true_eq_false, or_self]

/-- A frame addressed to the service MAC with the service's Ethertype is for the device. -/
theorem eloFor_service {h : EloHdr} (typ : Nat) (hd : h.dst.toNat = serviceMac) (he : h.etype = 0x88B5) :
    eloFor h typ = true := by
  simp [eloFor, hd, he]

/-- The service MAC address fits its 48 bits (R547). -/
@[simp] theorem service_toNat : (BitVec.ofNat 48 serviceMac).toNat = serviceMac := by
  simp only [BitVec.toNat_ofNat, serviceMac]
  omega

end Sys2Proof.Machine
end

