-- ==== Sys2Proof/Laws/Bits.lean ====
section
/-!
SUPPORT. Bit fields read back after they are written, in numbers and in registers.
-/
namespace Sys2Proof.Machine

theorem fld_lt (v lo w : Nat) : fld v lo w < 2 ^ w := Nat.mod_lt _ (Nat.two_pow_pos w)

/-- A number is its part above a field, the field, and its part below. -/
theorem fld_split (v lo w : Nat) : v = v / 2 ^ (lo + w) * 2 ^ (lo + w) + fld v lo w * 2 ^ lo + v % 2 ^ lo := by
  have h1 := Nat.div_add_mod v (2 ^ lo)
  have h2 := Nat.div_add_mod (v / 2 ^ lo) (2 ^ w)
  rw [Nat.div_div_eq_div_mul, ← Nat.pow_add] at h2
  unfold fld
  rw [Nat.pow_add]
  calc v = 2 ^ lo * (v / 2 ^ lo) + v % 2 ^ lo := h1.symm
    _ = 2 ^ lo * (2 ^ w * (v / 2 ^ (lo + w)) + v / 2 ^ lo % 2 ^ w) + v % 2 ^ lo := by rw [h2]
    _ = _ := by rw [Nat.pow_add]; grind

theorem setFld_eq (v lo w x : Nat) :
    setFld v lo w x = v / 2 ^ (lo + w) * 2 ^ (lo + w) + x % 2 ^ w * 2 ^ lo + v % 2 ^ lo := by
  have h := fld_split v lo w
  unfold setFld
  omega

/-- What lies below the field's top, after a write of the field. -/
theorem setFld_below (v lo w x : Nat) : x % 2 ^ w * 2 ^ lo + v % 2 ^ lo < 2 ^ (lo + w) := by
  have h1 : x % 2 ^ w + 1 ≤ 2 ^ w := Nat.mod_lt _ (Nat.two_pow_pos w)
  have h2 : v % 2 ^ lo < 2 ^ lo := Nat.mod_lt _ (Nat.two_pow_pos lo)
  have h3 := Nat.mul_le_mul_right (2 ^ lo) h1
  rw [Nat.add_mul, Nat.one_mul] at h3
  rw [Nat.pow_add, Nat.mul_comm (2 ^ lo)]
  omega

theorem setFld_div (v lo w x : Nat) : setFld v lo w x / 2 ^ (lo + w) = v / 2 ^ (lo + w) := by
  rw [setFld_eq, Nat.add_assoc, Nat.mul_comm, Nat.mul_add_div (Nat.two_pow_pos _), Nat.div_eq_of_lt (setFld_below v lo w x),
    Nat.add_zero]

theorem setFld_mod (v lo w x : Nat) : setFld v lo w x % 2 ^ lo = v % 2 ^ lo := by
  rw [setFld_eq, Nat.pow_add, ← Nat.mul_assoc, Nat.mul_right_comm, ← Nat.add_mul, Nat.mul_comm, Nat.mul_add_mod,
    Nat.mod_mod]

theorem setFld_shift (v lo w x : Nat) : setFld v lo w x / 2 ^ lo = v / 2 ^ (lo + w) * 2 ^ w + x % 2 ^ w := by
  rw [setFld_eq, Nat.pow_add, ← Nat.mul_assoc, Nat.mul_right_comm, ← Nat.add_mul, Nat.mul_comm _ (2 ^ lo),
    Nat.mul_add_div (Nat.two_pow_pos _), Nat.div_eq_of_lt (Nat.mod_lt _ (Nat.two_pow_pos lo)), Nat.add_zero]

theorem fld_setFld_self (v lo w x : Nat) : fld (setFld v lo w x) lo w = x % 2 ^ w := by
  unfold fld
  rw [setFld_shift, Nat.mul_comm, Nat.mul_add_mod, Nat.mod_mod]

theorem fld_above (v lo w hi : Nat) (h : lo ≤ hi) : fld v hi w = fld (v / 2 ^ lo) (hi - lo) w := by
  unfold fld
  rw [Nat.div_div_eq_div_mul, ← Nat.pow_add, Nat.add_sub_cancel' h]

theorem fld_below (v lo w top : Nat) (h : lo + w ≤ top) : fld v lo w = fld (v % 2 ^ top) lo w := by
  unfold fld
  obtain ⟨k, rfl⟩ : ∃ k, top = lo + (w + k) := ⟨top - lo - w, by omega⟩
  rw [Nat.pow_add, Nat.mod_mul_right_div_self, Nat.pow_add, Nat.mod_mul_right_mod]

theorem fld_setFld_other (v lo w x lo' w' : Nat) (h : lo + w ≤ lo' ∨ lo' + w' ≤ lo) :
    fld (setFld v lo w x) lo' w' = fld v lo' w' := by
  rcases h with h | h
  · rw [fld_above _ _ _ _ h, fld_above v _ _ _ h, setFld_div]
  · rw [fld_below _ _ _ _ h, fld_below v _ _ _ h, setFld_mod]

theorem setFld_lt {v lo w x n : Nat} (hv : v < 2 ^ n) (h : lo + w ≤ n) : setFld v lo w x < 2 ^ n := by
  have h1 := setFld_div v lo w x
  obtain ⟨k, rfl⟩ : ∃ k, n = k + (lo + w) := ⟨n - (lo + w), by omega⟩
  rw [Nat.pow_add] at hv ⊢
  exact (Nat.div_lt_iff_lt_mul (Nat.two_pow_pos _)).1 (h1 ▸ (Nat.div_lt_iff_lt_mul (Nat.two_pow_pos _)).2 hv)

theorem bit_eq_fld (v i : Nat) : bit v i = (fld v i 1 == 1) := by simp [bit, fld]

theorem bit_setBit (v i j : Nat) (b : Bool) : bit (setBit v i b) j = if i = j then b else bit v j := by
  rw [bit_eq_fld, bit_eq_fld]
  unfold setBit
  by_cases e : i = j
  · subst e
    rw [fld_setFld_self]
    cases b <;> simp
  · rw [fld_setFld_other _ _ _ _ _ _ (by omega), if_neg e]

theorem bit_setFld (v lo w x j : Nat) (h : j < lo ∨ lo + w ≤ j) : bit (setFld v lo w x) j = bit v j := by
  rw [bit_eq_fld, bit_eq_fld, fld_setFld_other]
  omega

theorem fld_setBit (v i lo w : Nat) (b : Bool) (h : i < lo ∨ lo + w ≤ i) : fld (setBit v i b) lo w = fld v lo w := by
  unfold setBit
  rw [fld_setFld_other]
  omega

/-! ### Registers -/

theorem State.reg_lt (s : State) (a : Nat) : s.reg a < 2 ^ 64 := BitVec.isLt _

/-- A register after a write of any register. -/
theorem State.reg_setReg {s : State} (a v b : Nat) (h : Smap.Canonical regDefault s.regs) :
    (s.setReg a v).reg b = if a = b then v % 2 ^ 64 else s.reg b := by
  split
  · subst a; exact State.reg_setReg_self _ _ h.1
  · exact State.reg_setReg_other _ ‹_› h.1

theorem State.regs_setReg {s : State} (a v : Nat) (h : Smap.Canonical regDefault s.regs) :
    Smap.Canonical regDefault (s.setReg a v).regs := h.set _ _

theorem State.regs_setRfld {s : State} (a lo w v : Nat) (h : Smap.Canonical regDefault s.regs) :
    Smap.Canonical regDefault (s.setRfld a lo w v).regs := h.set _ _

theorem State.regs_setRbit {s : State} (a i : Nat) (b : Bool) (h : Smap.Canonical regDefault s.regs) :
    Smap.Canonical regDefault (s.setRbit a i b).regs := h.set _ _

theorem State.reg_setRfld {s : State} (a lo w v b : Nat) (hw : lo + w ≤ 64) (h : Smap.Canonical regDefault s.regs) :
    (s.setRfld a lo w v).reg b = if a = b then setFld (s.reg b) lo w v else s.reg b := by
  unfold State.setRfld
  rw [State.reg_setReg _ _ _ h]
  split
  · subst a
    rw [Nat.mod_eq_of_lt (setFld_lt (s.reg_lt b) hw)]
  · rfl

theorem State.reg_setRbit {s : State} (a i : Nat) (x : Bool) (b : Nat) (hi : i < 64) (h : Smap.Canonical regDefault s.regs) :
    (s.setRbit a i x).reg b = if a = b then setBit (s.reg b) i x else s.reg b :=
  State.reg_setRfld a i 1 (if x then 1 else 0) b (by omega) h

/-- A field of a register after a write of one of its bits, or of another register. -/
theorem State.rfld_setRbit {s : State} (a i : Nat) (x : Bool) (b lo w : Nat) (hi : i < 64) (ho : a ≠ b ∨ i < lo ∨ lo + w ≤ i)
    (h : Smap.Canonical regDefault s.regs) : (s.setRbit a i x).rfld b lo w = s.rfld b lo w := by
  unfold State.rfld
  rw [State.reg_setRbit _ _ _ _ hi h]
  split
  · rw [fld_setBit]; omega
  · rfl

/-- A bit of a register after a write of a bit. -/
theorem State.rbit_setRbit {s : State} (a i : Nat) (x : Bool) (b j : Nat) (hi : i < 64)
    (h : Smap.Canonical regDefault s.regs) : (s.setRbit a i x).rbit b j = if a = b ∧ i = j then x else s.rbit b j := by
  unfold State.rbit
  rw [State.reg_setRbit _ _ _ _ hi h]
  split
  · rw [bit_setBit]; simp [*]
  · simp [*]

/-- A field of a register after a write of the same field, or of a field beside it, or of another register. -/
theorem State.rfld_setRfld_self {s : State} (a lo w v : Nat) (hw : lo + w ≤ 64) (h : Smap.Canonical regDefault s.regs) :
    (s.setRfld a lo w v).rfld a lo w = v % 2 ^ w := by
  unfold State.rfld
  rw [State.reg_setRfld _ _ _ _ _ hw h, if_pos rfl, fld_setFld_self]

theorem State.rfld_setRfld_other {s : State} (a lo w v b lo' w' : Nat) (hw : lo + w ≤ 64)
    (ho : a ≠ b ∨ lo + w ≤ lo' ∨ lo' + w' ≤ lo) (h : Smap.Canonical regDefault s.regs) :
    (s.setRfld a lo w v).rfld b lo' w' = s.rfld b lo' w' := by
  unfold State.rfld
  rw [State.reg_setRfld _ _ _ _ _ hw h]
  split
  · rw [fld_setFld_other]; omega
  · rfl

theorem State.rbit_setRfld {s : State} (a lo w v b j : Nat) (hw : lo + w ≤ 64) (ho : a ≠ b ∨ j < lo ∨ lo + w ≤ j)
    (h : Smap.Canonical regDefault s.regs) : (s.setRfld a lo w v).rbit b j = s.rbit b j := by
  unfold State.rbit
  rw [State.reg_setRfld _ _ _ _ _ hw h]
  split
  · rw [bit_setFld]; omega
  · rfl

/-! ### Hidden numbers -/

theorem State.h_setH {s : State} (j k : Hid) (v : Int) (h : Smap.Canonical (fun _ => (0 : Int)) s.hid) :
    (s.setH j v).h k = if j.code = k.code then v else s.h k := by
  split
  · simp [State.h, State.setH, ← ‹j.code = k.code›, Smap.get_set_self _ _ _ _ h.1]
  · exact State.h_setH_other _ ‹_› h.1

theorem State.hid_setH {s : State} (k : Hid) (v : Int) (h : Smap.Canonical (fun _ => (0 : Int)) s.hid) :
    Smap.Canonical (fun _ => (0 : Int)) (s.setH k v).hid := h.set _ _

@[simp] theorem firstWrite_regs (r : Req) (s : State) : (firstWrite r s).regs = s.regs := by
  unfold firstWrite
  dsimp only
  split <;> rfl

theorem firstWrite_h {s : State} (r : Req) (k : Hid) (hk : k.code ≠ Hid.hoFirst.code ∧ k.code ≠ Hid.fabricUntil.code)
    (h : Smap.Canonical (fun _ => (0 : Int)) s.hid) : (firstWrite r s).h k = s.h k := by
  unfold firstWrite
  dsimp only
  split
  · rw [State.h_setH_other _ (fun e => hk.2 e.symm) (State.hid_setH _ _ h).1, State.h_setH_other _ (fun e => hk.1 e.symm) h.1]
  · rfl

theorem firstWrite_hid {s : State} (r : Req) (h : Smap.Canonical (fun _ => (0 : Int)) s.hid) :
    Smap.Canonical (fun _ => (0 : Int)) (firstWrite r s).hid := by
  unfold firstWrite
  dsimp only
  split
  · exact State.hid_setH _ _ (State.hid_setH _ _ h)
  · exact h

/-! ### Visibility of hash-table entries -/

/-- A field written with its own value. -/
theorem setFld_fld (v lo w : Nat) : setFld v lo w (fld v lo w) = v := by
  unfold setFld fld
  rw [Nat.mod_mod]
  have h1 : v / 2 ^ lo % 2 ^ w * 2 ^ lo ≤ v := by
    calc v / 2 ^ lo % 2 ^ w * 2 ^ lo ≤ v / 2 ^ lo * 2 ^ lo := Nat.mul_le_mul_right _ (Nat.mod_le _ _)
      _ ≤ v := Nat.div_mul_le_self _ _
  omega

/-- A field of a word is a field of the entry. -/
theorem fld_word (e i lo w : Nat) (h : lo + w ≤ 32) : fld (word e i) lo w = fld e (32 * i + lo) w := by
  unfold word fld
  rw [Nat.pow_add 2 (32 * i) lo, ← Nat.div_div_eq_div_mul]
  generalize e / 2 ^ (32 * i) = x
  obtain ⟨k, hk⟩ := Nat.exists_eq_add_of_le h
  rw [hk, Nat.pow_add, Nat.pow_add, Nat.mul_assoc, Nat.mod_mul_right_div_self, Nat.mod_mul_right_mod]

/-- An entry written with its own visibility. -/
@[simp] theorem setEntVis_entVis (t : HTab) (e : Nat) : setEntVis t e (entVis t e) = e := by
  cases t <;> simp only [setEntVis, entVis] <;> rw [fld_word _ _ _ _ (by decide)] <;> exact setFld_fld _ _ _

end Sys2Proof.Machine
end

