-- ==== Sys2Proof/Laws/Kept.lean ====
section
/-!
SUPPORT. `Kept K z s` is carried through every way a meaning builds its next state: the rules for choices, folds and pairs,
and one lemma for each operation that stores into the state. A
lemma asks `¬K p` of each area `p` that its operation may change. The files Laws/Kept<Module>.lean carry it through every
operation built from these, so that no later proof unfolds one.
-/
namespace Sys2Proof.Machine

variable {K : Area → Prop}

theorem Area.same_refl (s : State) (p : Area) : p.same s s := by cases p <;> simp [Area.same]

theorem Area.same_trans {a b c : State} {p : Area} (h : p.same a b) (k : p.same b c) : p.same a c := by
  cases p <;> simp_all [Area.same]

theorem Kept.refl (s : State) : Kept K s s := ⟨id, rfl, List.prefix_refl _, fun p _ => p.same_refl s⟩

theorem Kept.trans {a b c : State} (h : Kept K a b) (k : Kept K b c) : Kept K a c :=
  ⟨fun x => k.sane (h.sane x), k.pending.trans h.pending, h.out.trans k.out, fun p q => Area.same_trans (h.area p q) (k.area p q)⟩

theorem Kept.ite {α : Type} {P : α → Prop} {c : Prop} [Decidable c] {a b : α} (ha : P a) (hb : P b) :
    P (if c then a else b) := by
  split <;> assumption

theorem Kept.foldl {α β : Type} {P : α → Prop} {f : α → β → α} {i : α} {l : List β} (hi : P i)
    (hf : ∀ a b, P a → P (f a b)) : P (l.foldl f i) := by
  induction l generalizing i with
  | nil => exact hi
  | cons x l ih => exact ih (hf _ _ hi)

theorem Kept.of_eq {α : Type} {P : α → Prop} {a b : α} (h : a = b) (ha : P a) : P b := h ▸ ha

theorem Kept.snd {α : Type} {z s : State} {p : α × State} {a : α} (h : p = (a, s)) (k : Kept K z p.2) : Kept K z s := by
  subst h
  exact k

theorem Kept.none {α : Type} {P : α → Prop} : ∀ t, (Option.none : Option α) = .some t → P t := by simp

theorem Kept.some {α : Type} {P : α → Prop} {a : α} (ha : P a) : ∀ t, Option.some a = .some t → P t := by
  rintro t ⟨⟩
  exact ha

theorem Kept.map {α β : Type} {P : β → Prop} {f : α → β} {o : Option α} (h : ∀ a, P (f a)) :
    ∀ t, o.map f = .some t → P t := by
  cases o with
  | none => simp
  | some a => rintro t ⟨⟩; exact h a

/-- Entries are only removed from what the invariant reads. -/
theorem Kept.sub {z s t : State} (h : Kept K z s) (hp : t.pending = s.pending) (ho : t.out = s.out)
    (h1 : t.regs.Sublist s.regs) (h2 : t.tabs.Sublist s.tabs) (h3 : t.mem.Sublist s.mem) (h4 : t.hid.Sublist s.hid)
    (h5 : t.bufs.Sublist s.bufs) (h6 : t.intStacks.Sublist s.intStacks) (h7 : t.notify.Sublist s.notify)
    (hf : ∀ p, K p → p.same s t) : Kept K z t := by
  refine ⟨fun x => ?_, hp.trans h.pending, ho ▸ h.out, fun p q => Area.same_trans (h.area p q) (hf p q)⟩
  have k := h.sane x
  exact ⟨k.regs.sublist h1, k.tabs.sublist h2, Smap.Canonical.sublist k.mem h3, k.hid.sublist h4, k.bufs.sublist h5,
    fun t => Nat.le_trans (List.Sublist.length_le (h6.filter _)) (k.intStacks t), Nat.le_trans h7.length_le k.notify⟩

/-- A change of fields that the invariant does not read. -/
theorem Kept.same {z s t : State} (h : Kept K z s)
    (e : (t.pending, t.regs, t.tabs, t.mem, t.hid, t.bufs, t.intStacks, t.notify, t.out) =
      (s.pending, s.regs, s.tabs, s.mem, s.hid, s.bufs, s.intStacks, s.notify, s.out))
    (hf : ∀ p, K p → p.same s t) : Kept K z t := by
  simp only [Prod.mk.injEq] at e
  obtain ⟨e1, e2, e3, e4, e5, e6, e7, e8, e9⟩ := e
  exact h.sub e1 e9 (e2 ▸ .refl _) (e3 ▸ .refl _) (e4 ▸ .refl _) (e5 ▸ .refl _) (e6 ▸ .refl _) (e7 ▸ .refl _)
    (e8 ▸ .refl _) hf

/-- The areas, one by one. -/
theorem Area.each {Q : Area → Prop} (h1 : Q .frames) (h2 : Q .fabric) (h3 : Q .memory) (h4 : Q .time) (h5 : Q .learn)
    (h6 : Q .intStacks) (h7 : Q .dram) (h8 : Q .agents) : ∀ p, Q p := by
  intro p
  cases p <;> assumption

theorem Area.f3 {α β γ : Type} {a : α} {b : β} {c : γ} : a = a ∧ b = b ∧ c = c := ⟨rfl, rfl, rfl⟩

theorem Area.f4 {α β γ δ : Type} {a : α} {b : β} {c : γ} {d : δ} : a = a ∧ b = b ∧ c = c ∧ d = d := ⟨rfl, rfl, rfl, rfl⟩

theorem Area.f5 {α β γ δ ε : Type} {a : α} {b : β} {c : γ} {d : δ} {e : ε} : a = a ∧ b = b ∧ c = c ∧ d = d ∧ e = e :=
  ⟨rfl, rfl, rfl, rfl, rfl⟩

theorem Area.f8 {α β γ δ ε ζ η θ : Type} {a : α} {b : β} {c : γ} {d : δ} {e : ε} {f : ζ} {g : η} {h : θ} :
    a = a ∧ b = b ∧ c = c ∧ d = d ∧ e = e ∧ f = f ∧ g = g ∧ h = h := ⟨rfl, rfl, rfl, rfl, rfl, rfl, rfl, rfl⟩

/-- Registers, tables and hidden numbers belong to no area. -/
theorem Kept.store {z s t : State} (h : Kept K z s) (hs : Sane s → Sane t) (hp : t.pending = s.pending) (ho : s.out <+: t.out)
    (hf : ∀ p, K p → p.same s t) : Kept K z t :=
  ⟨fun x => hs (h.sane x), hp.trans h.pending, h.out.trans ho, fun p q => Area.same_trans (h.area p q) (hf p q)⟩

theorem State.setReg_kept {z a0 a1 a2} (ha0 : Kept K z a0) : Kept K z (State.setReg a0 a1 a2) :=
  ha0.store (fun k => { k with regs := k.regs.set _ _ }) rfl (List.prefix_refl _) fun p _ => p.same_refl a0

theorem State.setH_kept {z a0 a1 a2} (ha0 : Kept K z a0) : Kept K z (State.setH a0 a1 a2) :=
  ha0.store (fun k => { k with hid := k.hid.set _ _ }) rfl (List.prefix_refl _) fun p _ => p.same_refl a0

theorem State.setTab_kept {z a0 a1 a2 a3 a4} (ha0 : Kept K z a0) : Kept K z (State.setTab a0 a1 a2 a3 a4) :=
  ha0.store (fun k => { k with tabs := k.tabs.set _ _ }) rfl (List.prefix_refl _) fun p _ => p.same_refl a0

theorem State.emit_kept {z a0 a1} (ha0 : Kept K z a0) : Kept K z (State.emit a0 a1) :=
  ha0.store (fun k => { k with }) rfl (List.prefix_append _ _) fun p _ => p.same_refl a0

/-- What a change of one area leaves: every other area. -/
theorem Area.but {s t : State} (q : Area) (nq : ¬K q) (h : ∀ p, p ≠ q → p.same s t) : ∀ p, K p → p.same s t := by
  intro p hp
  refine h p ?_
  rintro rfl
  exact nq hp

theorem State.wrMem_kept {z a0 a1 a2 a3} (memory : ¬K .memory) (ha0 : Kept K z a0) :
    Kept K z (State.wrMem a0 a1 a2 a3) :=
  ha0.store (fun k => { k with mem := Memory.wf_writeBytes _ _ k.mem }) rfl (List.prefix_refl _)
    (Area.but .memory memory fun p hp => by cases p <;> simp_all [Area.same, State.wrMem])

theorem done_kept {z a0} (ha0 : Kept K z a0) : ∀ t, (done a0) = .next t → Kept K z t := by
  rintro t ⟨⟩
  exact ha0

/-- A push on a stack that has room. -/
theorem push_kept {z s : State} (intStacks : ¬K .intStacks) (h : Kept K z s) (t : Nat) (x : Nat × Nat)
    (hl : (stackOf s t).length < 16) : Kept K z { s with intStacks := (t, x) :: s.intStacks } := by
  refine h.store (fun k => { k with intStacks := fun u => ?_ }) rfl (List.prefix_refl _)
    (Area.but .intStacks intStacks fun p hp => by cases p <;> simp_all [Area.same])
  have := k.intStacks u
  unfold stackOf at *
  by_cases e : t = u
  · subst e
    simp
    omega
  · simpa [List.filter_cons, e] using this

/-- A buffer takes an owner, or loses it. -/
theorem setBuf_kept {z s : State} (frames : ¬K .frames) (h : Kept K z s) (k v : Nat) :
    Kept K z { s with bufs := Smap.set (fun _ => 0) s.bufs k v } :=
  h.store (fun x => { x with bufs := x.bufs.set _ _ }) rfl (List.prefix_refl _)
    (Area.but .frames frames fun p hp => by cases p <;> simp_all [Area.same])

/-- A notification enters a FIFO that has room. -/
theorem addNotify_kept {z s : State} (learn : ¬K .learn) (h : Kept K z s) (b : BitVec 128) (hl : s.notify.length < 16384) :
    Kept K z { s with notify := s.notify ++ [b] } :=
  h.store (fun x => { x with notify := by simp; omega }) rfl (List.prefix_refl _)
    (Area.but .learn learn fun p hp => by cases p <;> simp_all [Area.same])

end Sys2Proof.Machine
end

