-- ==== Sys2Proof/Laws/KeptOps.lean ====
section
/-!
SUPPORT. Every operation and meaning of Machine/Ops.lean keeps the state sane, its queue as it is and its outputs made.
-/
namespace Sys2Proof.Machine

variable {K : Area → Prop}

theorem State.setRfld_kept {z a0 a1 a2 a3 a4} (ha0 : Kept K z a0) : Kept K z (State.setRfld a0 a1 a2 a3 a4) :=
  (State.setReg_kept ha0)

theorem State.setRbit_kept {z a0 a1 a2 a3} (ha0 : Kept K z a0) : Kept K z (State.setRbit a0 a1 a2 a3) :=
  (State.setReg_kept ha0)

theorem State.clearPages_kept {z a0 a1} (ha0 : Kept K z a0) : Kept K z (State.clearPages a0 a1) :=
  (Kept.sub ha0 rfl rfl List.filter_sublist (.refl _) (.refl _) (.refl _) (.refl _) (.refl _) (.refl _) (Area.each
      (fun _ => Area.f5) (fun _ => Area.f5) (fun _ => rfl) (fun _ => Area.f5) (fun _ => Area.f3) (fun _ => rfl) (fun
      _ => Area.f4) (fun _ => Area.f8)))

theorem State.setHb_kept {z a0 a1 a2} (ha0 : Kept K z a0) : Kept K z (State.setHb a0 a1 a2) :=
  (State.setH_kept ha0)

theorem State.clearTabs_kept {z a0 a1} (ha0 : Kept K z a0) : Kept K z (State.clearTabs a0 a1) :=
  (Kept.sub ha0 rfl rfl (.refl _) List.filter_sublist (.refl _) (.refl _) (.refl _) (.refl _) (.refl _) (Area.each
      (fun _ => Area.f5) (fun _ => Area.f5) (fun _ => rfl) (fun _ => Area.f5) (fun _ => Area.f3) (fun _ => rfl) (fun
      _ => Area.f4) (fun _ => Area.f8)))

theorem State.eraseMem_kept {z a0 a1 a2 a3} (memory : ¬K .memory) (ha0 : Kept K z a0) : Kept K z (State.eraseMem a0
    a1 a2 a3) :=
  (Kept.sub ha0 rfl rfl (.refl _) (.refl _) List.filter_sublist (.refl _) (.refl _) (.refl _) (.refl _) (Area.each
      (fun _ => Area.f5) (fun _ => Area.f5) (absurd · memory) (fun _ => Area.f5) (fun _ => Area.f3) (fun _ => rfl)
      (fun _ => Area.f4) (fun _ => Area.f8)))

theorem State.free_kept {z a0} (ha0 : Kept K z a0) : Kept K z (State.free a0).2 := by
  unfold State.free
  try dsimp -zeta only
  exact (Kept.same ha0 rfl (Area.each (fun _ => Area.f5) (fun _ => Area.f5) (fun _ => rfl) (fun _ => Area.f5) (fun _
      => Area.f3) (fun _ => rfl) (fun _ => Area.f4) (fun _ => Area.f8)))

theorem forEach_kept {z : State} {α : Type} {l : List α} {s : State} {f : α → State → State} (hs : Kept K z s)
    (hf : ∀ x t, Kept K z t → Kept K z (f x t)) : Kept K z (forEach l s f) := Kept.foldl (P := Kept K z) hs fun _ _
        h => hf _ _ h

theorem State.ifLive_kept {z a0 a1} {a2 : State → State} (ha0 : Kept K z a0) (ha2 : ∀ y0_0, (Kept K z y0_0) → Kept K
    z (a2 y0_0)) : Kept K z (State.ifLive a0 a1 a2) :=
  (Kept.ite (P := Kept K z) (ha2 _ ha0) ha0)

theorem State.when_kept {z a0 a1} {a2 : State → State} (ha0 : Kept K z a0) (ha2 : ∀ y0_0, (Kept K z y0_0) → Kept K z
    (a2 y0_0)) : Kept K z (State.when a0 a1 a2) :=
  (Kept.ite (P := Kept K z) (ha2 _ ha0) ha0)

end Sys2Proof.Machine
end

