-- ==== Sys2Proof/Laws/KeptFlags.lean ====
section
/-!
SUPPORT. Every operation and meaning of Machine/Flags.lean keeps the state sane, its queue as it is and its outputs made.
-/
namespace Sys2Proof.Machine

variable {K : Area → Prop}

theorem snapTouch_kept {z a0 a1} (ha1 : Kept K z a1) : Kept K z (snapTouch a0 a1) :=
  (Kept.ite (P := Kept K z) (State.setReg_kept (State.setReg_kept ha1)) ha1)

theorem perfAddFrom_kept {z a0 a1 a2 a3 a4 a5 a6} (ha6 : Kept K z a6) : Kept K z (perfAddFrom a0 a1 a2 a3 a4 a5
    a6).2 := by
  induction a3 generalizing a4 a5 a6 with
  | zero => exact ha6
  | succ n ih =>
    unfold perfAddFrom
    extract_lets +onlyGivenNames c add next
    refine Kept.ite (P := fun x : _ × State => Kept K z x.2) (ih ha6) ?_
    split
    extract_lets +onlyGivenNames u
    have hu : Kept K z u := State.setReg_kept (snapTouch_kept ha6)
    split
    rename_i q
    have h := Kept.snd q (ih hu)
    exact h

theorem perfAdd_kept {z a0 a1 a2 a3} (ha3 : Kept K z a3) : Kept K z (perfAdd a0 a1 a2 a3).2 := by
  unfold perfAdd
  refine Kept.ite (P := fun x : ℕ × State => Kept K z x.2) ?_ ?_
  · exact (perfAddFrom_kept ha3)
  · try dsimp -zeta only
    exact ha3

theorem msixPresent_kept {z a0 a1} (ha1 : Kept K z a1) : Kept K z (msixPresent a0 a1) := by
  unfold msixPresent
  refine Kept.ite (P := Kept K z) ?_ ?_
  · exact ha1
  · extract_lets +onlyGivenNames -merge -useContext u0
    exact (Kept.ite (P := Kept K z) (State.setRbit_kept (State.setH_kept ha1)) (State.emit_kept (State.setH_kept
        ha1)))

theorem intaUpdate_kept {z a0} (ha0 : Kept K z a0) : Kept K z (intaUpdate a0) := by
  unfold intaUpdate
  extract_lets +onlyGivenNames -merge -useContext u0
  exact (Kept.ite (P := Kept K z) ha0 (State.emit_kept (State.setHb_kept ha0)))

theorem markPresented_kept {z a0 a1} (ha1 : Kept K z a1) : Kept K z (markPresented a0 a1) :=
  (Kept.ite (P := Kept K z) ha1 (State.setH_kept (State.setHb_kept (State.setHb_kept ha1))))

theorem intcUpdate_kept {z a0} (ha0 : Kept K z a0) : Kept K z (intcUpdate a0) := by
  unfold intcUpdate
  extract_lets +onlyGivenNames -merge -useContext u0
  have h1 : Kept K z u0 := (forEach_kept ha0 (fun _ _ h2 => (forEach_kept h2 (fun _ _ h3 => (markPresented_kept
      h3)))))
  try clear_value u0
  extract_lets +onlyGivenNames -merge -useContext u4
  have h5 : Kept K z u4 := (Kept.ite (P := Kept K z) (forEach_kept h1 (fun _ _ h6 => (msixPresent_kept h6))) h1)
  try clear_value u4
  exact (intaUpdate_kept h5)

theorem setPend_kept {z a0 a1} (ha1 : Kept K z a1) : Kept K z (setPend a0 a1) := by
  unfold setPend
  extract_lets +onlyGivenNames -merge -useContext u0
  have h1 : Kept K z u0 := (State.setRbit_kept ha1)
  try clear_value u0
  exact (State.setH_kept h1)

theorem errCapture_kept {z a0 a1 a2 a3 a4 a5} (ha5 : Kept K z a5) : Kept K z (errCapture a0 a1 a2 a3 a4 a5) := by
  unfold errCapture
  extract_lets +onlyGivenNames -merge -useContext u0
  have h1 : Kept K z u0 := (State.setReg_kept ha5)
  try clear_value u0
  exact (Kept.ite (P := Kept K z) h1 (State.setReg_kept (State.setReg_kept h1)))

theorem ring_kept {z a0 a1} (ha1 : Kept K z a1) : Kept K z (ring a0 a1) :=
  (Kept.ite (P := Kept K z) ha1 (Kept.ite (P := Kept K z) (errCapture_kept ha1) (Kept.ite (P := Kept K z)
      (intcUpdate_kept (setPend_kept ha1)) ha1)))

theorem evtSet_kept {z a0 a1 a2} (ha2 : Kept K z a2) : Kept K z (evtSet a0 a1 a2) := by
  unfold evtSet
  extract_lets +onlyGivenNames -merge -useContext u0 u1
  have h2 : Kept K z u1 := (State.setRbit_kept ha2)
  try clear_value u1
  extract_lets +onlyGivenNames -merge -useContext u3
  have h4 : Kept K z u3 := (State.setH_kept h2)
  try clear_value u3
  extract_lets +onlyGivenNames -merge -useContext u5
  have h6 : Kept K z u5 := (Kept.ite (P := Kept K z) (State.setTab_kept h4) h4)
  try clear_value u5
  exact (Kept.ite (P := Kept K z) (ring_kept h6) h6)

theorem evtSets_kept {z a0 a1 a2 a3} (ha3 : Kept K z a3) : Kept K z (evtSets a0 a1 a2 a3) := by
  unfold evtSets
  extract_lets +onlyGivenNames -merge -useContext u0
  have h1 : Kept K z u0 := (evtSet_kept ha3)
  try clear_value u0
  exact (Kept.ite (P := Kept K z) (State.setTab_kept h1) h1)

theorem perfOvf_kept {z a0 a1 a2 a3} (ha3 : Kept K z a3) : Kept K z (perfOvf a0 a1 a2 a3) := by
  induction a1 generalizing a2 a3 with
  | zero => cases a2 with
    | zero => exact ha3
    | succ n => exact evtSets_kept ha3
  | succ f ih => cases a2 with
    | zero => exact ha3
    | succ n =>
      unfold perfOvf
      extract_lets +onlyGivenNames u
      have hu : Kept K z u := evtSets_kept ha3
      split
      rename_i q
      exact ih (Kept.snd q (perfAdd_kept hu))

theorem perfCount_kept {z a0 a1 a2 a3} (ha3 : Kept K z a3) : Kept K z (perfCount a0 a1 a2 a3) := by
  unfold perfCount
  refine Kept.ite (P := Kept K z) ?_ ?_
  · split
    · rename_i m0 m1 q2
      have h3 : Kept K z m1 := Kept.of_eq (P := fun x : ℕ × State => Kept K z x.2) q2 (perfAdd_kept ha3)
      exact (perfOvf_kept h3)
  · exact ha3

theorem raise_kept {z a0 a1 a2} (ha2 : Kept K z a2) : Kept K z (raise a0 a1 a2) :=
  (Kept.ite (P := Kept K z) (perfCount_kept (evtSet_kept ha2)) ha2)

theorem raiseFirst_kept {z a0 a1 a2} (ha2 : Kept K z a2) : Kept K z (raiseFirst a0 a1 a2) :=
  (Kept.ite (P := Kept K z) ha2 (raise_kept ha2))

theorem bumpBy_kept {z a0 a1 a2} (ha2 : Kept K z a2) : Kept K z (bumpBy a0 a1 a2) := by
  unfold bumpBy
  refine Kept.ite (P := Kept K z) ?_ ?_
  · exact ha2
  · extract_lets +onlyGivenNames -merge -useContext u0
    have h1 : Kept K z u0 := (State.setReg_kept (snapTouch_kept ha2))
    try clear_value u0
    exact (perfCount_kept h1)

theorem bump_kept {z a0 a1} (ha1 : Kept K z a1) : Kept K z (bump a0 a1) :=
  (bumpBy_kept ha1)

theorem coverUpdate_kept {z a0} (ha0 : Kept K z a0) : Kept K z (coverUpdate a0) := by
  unfold coverUpdate
  extract_lets +onlyGivenNames -merge -useContext u0 u1 u2 u3
  have h4 : Kept K z u3 := (State.setReg_kept ha0)
  try clear_value u3
  exact (Kept.ite (P := Kept K z) (raise_kept h4) h4)

theorem faultLog_kept {z a0 a1 a2 a3 a4} (ha4 : Kept K z a4) : Kept K z (faultLog a0 a1 a2 a3 a4) := by
  unfold faultLog
  split
  · extract_lets +onlyGivenNames -merge -useContext u2
    extract_lets +onlyGivenNames -merge -useContext u3 u4
    have h5 : Kept K z u4 := (Kept.ite (P := Kept K z) (bump_kept ha4) ha4)
    try clear_value u4
    extract_lets +onlyGivenNames -merge -useContext u6
    have h7 : Kept K z u6 := (State.setHb_kept (State.setTab_kept h5))
    try clear_value u6
    extract_lets +onlyGivenNames -merge -useContext u8
    have h9 : Kept K z u8 := (State.setReg_kept h7)
    try clear_value u8
    exact (Kept.ite (P := Kept K z) h9 (State.setReg_kept (State.setReg_kept (State.setReg_kept h9))))

theorem faultRecordAt_kept {z a0 a1 a2 a3 a4} (ha4 : Kept K z a4) : Kept K z (faultRecordAt a0 a1 a2 a3 a4) := by
  unfold faultRecordAt
  refine Kept.ite (P := Kept K z) ?_ ?_
  · exact ha4
  · extract_lets +onlyGivenNames -merge -useContext u0
    have h1 : Kept K z u0 := (bump_kept ha4)
    try clear_value u0
    refine Kept.ite (P := Kept K z) ?_ ?_
    · extract_lets +onlyGivenNames -merge -useContext u2
      have h3 : Kept K z u2 := (faultLog_kept h1)
      try clear_value u2
      extract_lets +onlyGivenNames -merge -useContext u4
      have h5 : Kept K z u4 := (State.setRbit_kept h3)
      try clear_value u4
      exact (coverUpdate_kept (raise_kept h5))
    · exact h1

theorem faultRecord_kept {z a0 a1 a2 a3} (ha3 : Kept K z a3) : Kept K z (faultRecord a0 a1 a2 a3) :=
  (faultRecordAt_kept ha3)

theorem raiseFault_kept {z a0 a1 a2 a3 a4} (ha4 : Kept K z a4) : Kept K z (raiseFault a0 a1 a2 a3 a4) :=
  (Kept.ite (P := Kept K z) (faultRecord_kept (raise_kept ha4)) ha4)

theorem errBy_kept {z a0 a1 a2 a3 a4 a5} (ha5 : Kept K z a5) : Kept K z (errBy a0 a1 a2 a3 a4 a5) := by
  unfold errBy
  extract_lets +onlyGivenNames -merge -useContext u0 u1
  have h2 : Kept K z u1 := (errCapture_kept ha5)
  try clear_value u1
  exact (Kept.ite (P := Kept K z) (faultRecord_kept h2) h2)

theorem errReq_kept {z a0 a1 a2 a3 a4 a5} (ha5 : Kept K z a5) : Kept K z (errReq a0 a1 a2 a3 a4 a5) :=
  (errBy_kept ha5)

theorem errInt_kept {z a0 a1 a2 a3} (ha3 : Kept K z a3) : Kept K z (errInt a0 a1 a2 a3) :=
  (errBy_kept ha3)

theorem errDisabled_kept {z a0 a1} (ha1 : Kept K z a1) : Kept K z (errDisabled a0 a1) :=
  (errInt_kept ha1)

theorem fsTouch_kept {z a0 a1} (ha1 : Kept K z a1) : Kept K z (fsTouch a0 a1) :=
  (Kept.ite (P := Kept K z) (State.setTab_kept (State.setTab_kept ha1)) ha1)

theorem fsAddTo_kept {z a0 a1 a2 a3} (ha3 : Kept K z a3) : Kept K z (fsAddTo a0 a1 a2 a3) := by
  unfold fsAddTo
  refine Kept.ite (P := Kept K z) ?_ ?_
  · exact ha3
  · extract_lets +onlyGivenNames -merge -useContext u0
    have h1 : Kept K z u0 := (fsTouch_kept ha3)
    try clear_value u0
    extract_lets +onlyGivenNames -merge -useContext u2
    split
    · split
      · extract_lets +onlyGivenNames -merge -useContext u7
        have h8 : Kept K z u7 := (State.setTab_kept h1)
        try clear_value u7
        extract_lets +onlyGivenNames -merge -useContext u9
        have h10 : Kept K z u9 := (Kept.ite (P := Kept K z) (raiseFirst_kept (bumpBy_kept h8)) h8)
        try clear_value u9
        exact (Kept.ite (P := Kept K z) (State.setRfld_kept (State.setHb_kept h10)) h10)

theorem fsCount_kept {z a0 a1 a2} (ha2 : Kept K z a2) : Kept K z (fsCount a0 a1 a2) :=
  (fsAddTo_kept ha2)

theorem fsBytes_kept {z a0 a1 a2} (ha2 : Kept K z a2) : Kept K z (fsBytes a0 a1 a2) :=
  (fsAddTo_kept ha2)

end Sys2Proof.Machine
end

