-- ==== Sys2Proof/Laws/KeptGate.lean ====
section
/-!
SUPPORT. Every operation and meaning of Machine/Gate.lean keeps the state sane, its queue as it is and its outputs made.
-/
namespace Sys2Proof.Machine

variable {K : Area → Prop}

theorem fenced_kept {z a0 a1 a2} (ha2 : Kept K z a2) : Kept K z (fenced a0 a1 a2).2 := by
  unfold fenced
  refine Kept.ite (P := fun x : Bool × State => Kept K z x.2) ?_ ?_
  · split
    · rename_i m0 m1 q2
      have h3 : Kept K z m1 := Kept.of_eq (P := fun x : ℕ × State => Kept K z x.2) q2 (State.free_kept ha2)
      try dsimp -zeta only
      exact h3
  · try dsimp -zeta only
    exact ha2

theorem firstWrite_kept {z a0 a1} (ha1 : Kept K z a1) : Kept K z (firstWrite a0 a1) := by
  unfold firstWrite
  extract_lets +onlyGivenNames -merge -useContext u0
  exact (Kept.ite (P := Kept K z) (State.setH_kept (State.setH_kept ha1)) ha1)

theorem gateWrite_kept {z a0 a1} {a2 : State → State} {a3} (ha2 : ∀ y0_0, (Kept K z y0_0) → Kept K z (a2 y0_0)) (ha3
    : Kept K z a3) : Kept K z (gateWrite a0 a1 a2 a3) := by
  unfold gateWrite
  extract_lets +onlyGivenNames -merge -useContext u0
  refine Kept.ite (P := Kept K z) ?_ ?_
  · exact ha3
  · split
    · rename_i m1 m2 q3
      have h4 : Kept K z m2 := Kept.of_eq (P := fun x : Bool × State => Kept K z x.2) q3 (fenced_kept
          (firstWrite_kept ha3))
      exact (Kept.ite (P := Kept K z) (Kept.ite (P := Kept K z) (errReq_kept (bump_kept h4)) h4) (Kept.ite (P :=
          Kept K z) (errReq_kept h4) (Kept.ite (P := Kept K z) (Kept.ite (P := Kept K z) h4 (errReq_kept h4))
          (Kept.ite (P := Kept K z) (errReq_kept h4) (Kept.ite (P := Kept K z) (errReq_kept h4) (ha2 _ h4))))))

theorem gateRead_kept {z a0 a1} {a2 : State → ℕ × State} {a3} (ha2 : ∀ y0_0, (Kept K z y0_0) → Kept K z (a2 y0_0).2)
    (ha3 : Kept K z a3) : Kept K z (gateRead a0 a1 a2 a3).2 := by
  unfold gateRead
  extract_lets +onlyGivenNames -merge -useContext u0
  refine Kept.ite (P := fun x : ℕ × State => Kept K z x.2) ?_ ?_
  · try dsimp -zeta only
    exact ha3
  · refine Kept.ite (P := fun x : ℕ × State => Kept K z x.2) ?_ ?_
    · try dsimp -zeta only
      exact (errReq_kept ha3)
    · refine Kept.ite (P := fun x : ℕ × State => Kept K z x.2) ?_ ?_
      · try dsimp -zeta only
        exact (errReq_kept ha3)
      · refine Kept.ite (P := fun x : ℕ × State => Kept K z x.2) ?_ ?_
        · try dsimp -zeta only
          exact (errReq_kept ha3)
        · refine Kept.ite (P := fun x : ℕ × State => Kept K z x.2) ?_ ?_
          · try dsimp -zeta only
            exact (errReq_kept ha3)
          · exact (ha2 _ ha3)

theorem readFor_kept {z a0 a1} {a2 : State → ℕ × State} {a3} (ha2 : ∀ y0_0, (Kept K z y0_0) → Kept K z (a2 y0_0).2)
    (ha3 : Kept K z a3) : Kept K z (readFor a0 a1 a2 a3) := by
  unfold readFor
  refine Kept.ite (P := Kept K z) ?_ ?_
  · exact ha3
  · split
    · rename_i m0 m1 q2
      have h3 : Kept K z m1 := Kept.of_eq (P := fun x : ℕ × State => Kept K z x.2) q2 (gateRead_kept ha2 ha3)
      exact (State.emit_kept h3)

theorem ifUnlocked_kept {z a0 a1 a2} {a3 : State → State} {a4} (ha3 : ∀ y0_0, (Kept K z y0_0) → Kept K z (a3 y0_0))
    (ha4 : Kept K z a4) : Kept K z (ifUnlocked a0 a1 a2 a3 a4) := by
  unfold ifUnlocked
  extract_lets +onlyGivenNames -merge -useContext u0
  exact (Kept.ite (P := Kept K z) (errReq_kept ha4) (ha3 _ ha4))

theorem storeReg_kept {z a0 a1 a2} (ha2 : Kept K z a2) : Kept K z (storeReg a0 a1 a2) := by
  unfold storeReg
  split
  · exact (State.setReg_kept ha2)
  · exact ha2

end Sys2Proof.Machine
end

