-- ==== Sys2Proof/Laws/KeptImage.lean ====
section
/-!
SUPPORT. Every operation and meaning of Machine/Image.lean keeps the state sane, its queue as it is and its outputs made.
-/
namespace Sys2Proof.Machine

variable {K : Area → Prop}

theorem pegStatus_kept {z a0 a1} (ha1 : Kept K z a1) : Kept K z (pegStatus a0 a1) := by
  unfold pegStatus
  split
  · exact (State.setReg_kept (State.setReg_kept ha1))
  · extract_lets +onlyGivenNames -merge -useContext u2
    exact (State.setReg_kept (State.setReg_kept ha1))

theorem pegCommit_kept {z a0 a1 a2 a3} (memory : ¬K .memory) (ha3 : Kept K z a3) : Kept K z (pegCommit a0 a1 a2 a3)
    := by
  unfold pegCommit
  extract_lets +onlyGivenNames -merge -useContext u0 u1 u2
  have h3 : Kept K z u2 := (State.wrMem_kept memory ha3)
  try clear_value u2
  exact (pegStatus_kept (raise_kept (bump_kept h3)))

theorem mrExtend_kept {z a0 a1 a2} (ha2 : Kept K z a2) : Kept K z (mrExtend a0 a1 a2) := by
  unfold mrExtend
  extract_lets +onlyGivenNames -merge -useContext u0 u1
  have h2 : Kept K z u1 := (forEach_kept ha2 (fun _ _ h3 => (State.setReg_kept h3)))
  try clear_value u1
  exact (State.setReg_kept h2)

theorem mrImage_kept {z a0 a1 a2 a3} (ha3 : Kept K z a3) : Kept K z (mrImage a0 a1 a2 a3) :=
  (mrExtend_kept ha3)

theorem mrConfig_kept {z a0 a1 a2} (ha2 : Kept K z a2) : Kept K z (mrConfig a0 a1 a2) :=
  (mrExtend_kept ha2)

theorem loadErr_kept {z a0 a1 a2 a3} (ha3 : Kept K z a3) : Kept K z (loadErr a0 a1 a2 a3) := by
  unfold loadErr
  extract_lets +onlyGivenNames -merge -useContext u0
  have h1 : Kept K z u0 := (bump_kept ha3)
  try clear_value u0
  extract_lets +onlyGivenNames -merge -useContext u2
  have h3 : Kept K z u2 := (Kept.ite (P := Kept K z) h1 (State.setReg_kept h1))
  try clear_value u2
  exact (raise_kept h3)

theorem flashAsk_kept {z a0 a1} (agents : ¬K .agents) (ha1 : Kept K z a1) : Kept K z (flashAsk a0 a1) :=
  (Kept.same ha1 rfl (Area.each (fun _ => Area.f5) (fun _ => Area.f5) (fun _ => rfl) (fun _ => Area.f5) (fun _ =>
      Area.f3) (fun _ => rfl) (fun _ => Area.f4) (absurd · agents)))

theorem flashEnd_kept {z a0} (agents : ¬K .agents) (ha0 : Kept K z a0) : Kept K z (flashEnd a0) :=
  (Kept.same ha0 rfl (Area.each (fun _ => Area.f5) (fun _ => Area.f5) (fun _ => rfl) (fun _ => Area.f5) (fun _ =>
      Area.f3) (fun _ => rfl) (fun _ => Area.f4) (absurd · agents)))

end Sys2Proof.Machine
end

