-- ==== Sys2Proof/Laws/KeptTime.lean ====
section
/-!
SUPPORT. Every operation and meaning of Machine/Time.lean keeps the state sane, its queue as it is and its outputs made.
-/
namespace Sys2Proof.Machine

variable {K : Area → Prop}

theorem setTrk_kept {z a0 a1 a2} (time : ¬K .time) (ha2 : Kept K z a2) : Kept K z (setTrk a0 a1 a2) :=
  (Kept.ite (P := Kept K z) (Kept.same ha2 rfl (Area.each (fun _ => Area.f5) (fun _ => Area.f5) (fun _ => rfl)
      (absurd · time) (fun _ => Area.f3) (fun _ => rfl) (fun _ => Area.f4) (fun _ => Area.f8))) (Kept.same ha2 rfl
      (Area.each (fun _ => Area.f5) (fun _ => Area.f5) (fun _ => rfl) (absurd · time) (fun _ => Area.f3) (fun _ =>
      rfl) (fun _ => Area.f4) (fun _ => Area.f8))))

theorem endSlew_kept {z a0} (ha0 : Kept K z a0) : Kept K z (endSlew a0) :=
  (raise_kept (State.setRbit_kept ha0))

theorem moveTb_kept {z a0 a1} (time : ¬K .time) (ha1 : Kept K z a1) : Kept K z (moveTb a0 a1) :=
  (Kept.same ha1 rfl (Area.each (fun _ => Area.f5) (fun _ => Area.f5) (fun _ => rfl) (absurd · time) (fun _ =>
      Area.f3) (fun _ => rfl) (fun _ => Area.f4) (fun _ => Area.f8)))

theorem advance_kept {z a0 a1} (time : ¬K .time) (ha1 : Kept K z a1) : Kept K z (advance a0 a1) := by
  unfold advance
  refine Kept.ite (P := Kept K z) ?_ ?_
  · exact ha1
  · extract_lets +onlyGivenNames -merge -useContext u0
    have h1 : Kept K z u0 := (Kept.same ha1 rfl (Area.each (fun _ => Area.f5) (fun _ => Area.f5) (fun _ => rfl)
        (absurd · time) (fun _ => Area.f3) (fun _ => rfl) (fun _ => Area.f4) (fun _ => Area.f8)))
    try clear_value u0
    refine Kept.ite (P := Kept K z) ?_ ?_
    · exact h1
    · extract_lets +onlyGivenNames -merge -useContext u2
      extract_lets +onlyGivenNames -merge -useContext u3
      split
      · refine Kept.ite (P := Kept K z) ?_ ?_
        · extract_lets +onlyGivenNames -merge -useContext u5
          refine endSlew_kept ?_
          extract_lets +onlyGivenNames -merge -useContext u8
          have h9 : Kept K z u8 := (moveTb_kept time h1)
          try clear_value u8
          exact (Kept.same h9 rfl (Area.each (fun _ => Area.f5) (fun _ => Area.f5) (fun _ => rfl) (absurd · time)
              (fun _ => Area.f3) (fun _ => rfl) (fun _ => Area.f4) (fun _ => Area.f8)))
        · extract_lets +onlyGivenNames -merge -useContext u10
          have h11 : Kept K z u10 := (moveTb_kept time h1)
          try clear_value u10
          exact (Kept.same h11 rfl (Area.each (fun _ => Area.f5) (fun _ => Area.f5) (fun _ => rfl) (absurd · time)
              (fun _ => Area.f3) (fun _ => rfl) (fun _ => Area.f4) (fun _ => Area.f8)))
      · extract_lets +onlyGivenNames -merge -useContext u13
        have h14 : Kept K z u13 := (moveTb_kept time h1)
        try clear_value u13
        exact (Kept.same h14 rfl (Area.each (fun _ => Area.f5) (fun _ => Area.f5) (fun _ => rfl) (absurd · time)
            (fun _ => Area.f3) (fun _ => rfl) (fun _ => Area.f4) (fun _ => Area.f8)))

theorem waitRoot_kept {z a0 a1} (time : ¬K .time) (ha1 : Kept K z a1) : Kept K z (waitRoot a0 a1) :=
  (Kept.ite (P := Kept K z) (advance_kept time ha1) ha1)

theorem waitSince_kept {z a0 a1 a2 a3} (time : ¬K .time) (ha3 : Kept K z a3) : Kept K z (waitSince a0 a1 a2 a3) :=
  (waitRoot_kept time ha3)

theorem nextInterval_kept {z a0 a1 a2 a3} (time : ¬K .time) (ha3 : Kept K z a3) : Kept K z (nextInterval a0 a1 a2
    a3) := by
  unfold nextInterval
  extract_lets +onlyGivenNames -merge -useContext u0
  have h1 : Kept K z u0 := (waitSince_kept time ha3)
  try clear_value u0
  exact (State.setH_kept h1)

theorem advanceTo_kept {z a0 a1} (time : ¬K .time) (ha1 : Kept K z a1) : Kept K z (advanceTo a0 a1) := by
  unfold advanceTo
  refine Kept.ite (P := Kept K z) ?_ ?_
  · split
    · exact (advance_kept time ha1)
    · exact ha1
  · exact ha1

theorem advanceFolTo_kept {z a0 a1} (time : ¬K .time) (ha1 : Kept K z a1) : Kept K z (advanceFolTo a0 a1) := by
  unfold advanceFolTo
  refine Kept.ite (P := Kept K z) ?_ ?_
  · split
    · exact (advance_kept time ha1)
    · exact ha1
  · exact ha1

theorem atInstant_kept {z a0} {a1 : State → State} {a2} (time : ¬K .time) (ha1 : ∀ y0_0, (Kept K z y0_0) → Kept K z
    (a1 y0_0)) (ha2 : Kept K z a2) : Kept K z (atInstant a0 a1 a2) := by
  unfold atInstant
  refine Kept.ite (P := Kept K z) ?_ ?_
  · extract_lets +onlyGivenNames -merge -useContext u0
    have h1 : Kept K z u0 := (advanceTo_kept time ha2)
    try clear_value u0
    exact (Kept.ite (P := Kept K z) (ha1 _ h1) h1)
  · exact ha2

theorem advanceSrcTo_kept {z a0 a1 a2} (time : ¬K .time) (ha2 : Kept K z a2) : Kept K z (advanceSrcTo a0 a1 a2) := by
  unfold advanceSrcTo
  refine Kept.ite (P := Kept K z) ?_ ?_
  · exact (advanceTo_kept time ha2)
  · extract_lets +onlyGivenNames -merge -useContext u0
    extract_lets +onlyGivenNames -merge -useContext u1
    exact (Kept.ite (P := Kept K z) (advance_kept time ha2) ha2)

theorem startSlew_kept {z a0} (ha0 : Kept K z a0) : Kept K z (startSlew a0) := by
  unfold startSlew
  split
  · exact (State.setRbit_kept ha0)
  · exact (Kept.ite (P := Kept K z) (endSlew_kept ha0) (State.setRbit_kept ha0))

theorem timeErr_kept {z a0 a1 a2 a3 a4} (ha4 : Kept K z a4) : Kept K z (timeErr a0 a1 a2 a3 a4) :=
  (errReq_kept ha4)

theorem rateLo_kept {z a0 a1 a2 a3} (ha3 : Kept K z a3) : Kept K z (rateLo a0 a1 a2 a3) :=
  (Kept.ite (P := Kept K z) (timeErr_kept ha3) (State.setH_kept ha3))

theorem rateHi_kept {z a0 a1 a2 a3} (ha3 : Kept K z a3) : Kept K z (rateHi a0 a1 a2 a3) := by
  unfold rateHi
  refine Kept.ite (P := Kept K z) ?_ ?_
  · exact (timeErr_kept ha3)
  · extract_lets +onlyGivenNames -merge -useContext u0
    extract_lets +onlyGivenNames -merge -useContext u1 u2 u3
    have h4 : Kept K z u3 := (State.setH_kept ha3)
    try clear_value u3
    extract_lets +onlyGivenNames -merge -useContext u5
    have h6 : Kept K z u5 := (State.setH_kept h4)
    try clear_value u5
    exact (State.setReg_kept (State.setReg_kept h6))

theorem execRateTbLoWrite_kept {z a0 a1 a2 a3} (ha3 : Kept K z a3) : ∀ t, (execRateTbLoWrite a0 a1 a2 a3) = .next t
    → Kept K z t :=
  (done_kept (gateWrite_kept (fun _ h0 => (rateLo_kept h0)) ha3))

theorem execRateTbHiWrite_kept {z a0 a1 a2 a3} (ha3 : Kept K z a3) : ∀ t, (execRateTbHiWrite a0 a1 a2 a3) = .next t
    → Kept K z t :=
  (done_kept (gateWrite_kept (fun _ h0 => (rateHi_kept h0)) ha3))

theorem latchTime_kept {z a0 a1 a2 a3 a4 a5 a6} (ha6 : Kept K z a6) : Kept K z (latchTime a0 a1 a2 a3 a4 a5 a6) :=
  (State.setReg_kept (State.setReg_kept (State.setReg_kept (State.setReg_kept ha6))))

theorem readTbFrac_kept {z a0 a1} (ha1 : Kept K z a1) : Kept K z (readTbFrac a0 a1).2 := by
  unfold readTbFrac
  extract_lets +onlyGivenNames -merge -useContext u0 u1
  have h2 : Kept K z u1 := (latchTime_kept ha1)
  try clear_value u1
  extract_lets +onlyGivenNames -merge -useContext u3
  have h4 : Kept K z u3 := (forEach_kept h2 (fun _ _ h5 => (latchTime_kept h5)))
  try clear_value u3
  try dsimp -zeta only
  exact h4

theorem execTbFracRead_kept {z a0 a1} (ha1 : Kept K z a1) : ∀ t, (execTbFracRead a0 a1) = .next t → Kept K z t :=
  (done_kept (readFor_kept (fun _ h0 => (readTbFrac_kept h0)) ha1))

theorem ppsLevel_kept {z a0 a1 a2} (ha2 : Kept K z a2) : Kept K z (ppsLevel a0 a1 a2) :=
  (Kept.ite (P := Kept K z) ha2 (State.emit_kept (State.setHb_kept ha2)))

theorem ppsHold_kept {z a0} (ha0 : Kept K z a0) : Kept K z (ppsHold a0) :=
  (forEach_kept ha0 (fun _ _ h0 => (Kept.ite (P := Kept K z) (ppsLevel_kept h0) h0)))

theorem ppsArm_kept {z a0 a1} (ha1 : Kept K z a1) : Kept K z (ppsArm a0 a1) := by
  unfold ppsArm
  extract_lets +onlyGivenNames -merge -useContext u0
  exact (State.setH_kept ha1)

theorem ppsOutWrite_kept {z a0} {a1 : State → State} {a2} (ha1 : ∀ y0_0, (Kept K z y0_0) → Kept K z (a1 y0_0)) (ha2
    : Kept K z a2) : Kept K z (ppsOutWrite a0 a1 a2) :=
  (ppsHold_kept (ppsArm_kept (ha1 _ ha2)))

theorem tbEnter_kept {z a0 a1} (ha1 : Kept K z a1) : Kept K z (tbEnter a0 a1) := by
  unfold tbEnter
  extract_lets +onlyGivenNames -merge -useContext u0
  have h1 : Kept K z u0 := (State.setRfld_kept ha1)
  try clear_value u0
  exact (Kept.ite (P := Kept K z) (raise_kept (bump_kept (State.setRbit_kept h1))) (State.setRbit_kept h1))

theorem tbCtl_kept {z a0 a1 a2} (ha2 : Kept K z a2) : Kept K z (tbCtl a0 a1 a2) := by
  unfold tbCtl
  extract_lets +onlyGivenNames -merge -useContext u0 u1 u2
  have h3 : Kept K z u2 := (State.setRbit_kept ha2)
  try clear_value u2
  extract_lets +onlyGivenNames -merge -useContext u4
  have h5 : Kept K z u4 := (Kept.ite (P := Kept K z) h3 (Kept.ite (P := Kept K z) (tbEnter_kept h3) (timeErr_kept
      h3)))
  try clear_value u4
  extract_lets +onlyGivenNames -merge -useContext u6
  have h7 : Kept K z u6 := (ppsHold_kept h5)
  try clear_value u6
  extract_lets +onlyGivenNames -merge -useContext u8
  exact (Kept.ite (P := Kept K z) (timeErr_kept h7) (Kept.ite (P := Kept K z) h7 (startSlew_kept (State.setRfld_kept
      h7))))

theorem execTbCtlWrite_kept {z a0 a1 a2} (ha2 : Kept K z a2) : ∀ t, (execTbCtlWrite a0 a1 a2) = .next t → Kept K z t
    :=
  (done_kept (gateWrite_kept (fun _ h0 => (tbCtl_kept h0)) ha2))

theorem moveTick_kept {z a0} (ha0 : Kept K z a0) : Kept K z (moveTick a0) := by
  unfold moveTick
  extract_lets +onlyGivenNames -merge -useContext u0
  have h1 : Kept K z u0 := (State.setH_kept (State.setH_kept ha0))
  try clear_value u0
  exact (State.setRfld_kept h1)

theorem ageTick_kept {z a0} (ha0 : Kept K z a0) : Kept K z (ageTick a0) := by
  unfold ageTick
  extract_lets +onlyGivenNames -merge -useContext u0
  have h1 : Kept K z u0 := (State.setH_kept (State.setH_kept ha0))
  try clear_value u0
  exact (State.setRfld_kept h1)

theorem ageRebase_kept {z a0} (ha0 : Kept K z a0) : Kept K z (ageRebase a0) :=
  (State.setH_kept ha0)

theorem l2Rebase_kept {z a0} (ha0 : Kept K z a0) : Kept K z (l2Rebase a0) :=
  (ageRebase_kept (State.setH_kept ha0))

theorem l2Step_kept {z a0 a1} (ha1 : Kept K z a1) : Kept K z (l2Step a0 a1) := by
  unfold l2Step
  refine Kept.ite (P := Kept K z) ?_ ?_
  · exact ha1
  · extract_lets +onlyGivenNames -merge -useContext u0
    extract_lets +onlyGivenNames -merge -useContext u1
    have h2 : Kept K z u1 := (Kept.ite (P := Kept K z) (moveTick_kept ha1) ha1)
    try clear_value u1
    extract_lets +onlyGivenNames -merge -useContext u3
    have h4 : Kept K z u3 := (Kept.ite (P := Kept K z) (ageTick_kept h2) h2)
    try clear_value u3
    exact (l2Rebase_kept h4)

theorem stepCmd_kept {z a0 a1 a2} (time : ¬K .time) (ha2 : Kept K z a2) : Kept K z (stepCmd a0 a1 a2) := by
  unfold stepCmd
  extract_lets +onlyGivenNames -merge -useContext u0 u1
  refine Kept.ite (P := Kept K z) ?_ ?_
  · exact ha2
  · refine Kept.ite (P := Kept K z) ?_ ?_
    · exact (timeErr_kept ha2)
    · refine Kept.ite (P := Kept K z) ?_ ?_
      · exact (timeErr_kept ha2)
      · extract_lets +onlyGivenNames -merge -useContext u2
        extract_lets +onlyGivenNames -merge -useContext u3
        have h4 : Kept K z u3 := (l2Step_kept (Kept.same ha2 rfl (Area.each (fun _ => Area.f5) (fun _ => Area.f5)
            (fun _ => rfl) (absurd · time) (fun _ => Area.f3) (fun _ => rfl) (fun _ => Area.f4) (fun _ => Area.f8))))
        try clear_value u3
        extract_lets +onlyGivenNames -merge -useContext u5
        have h6 : Kept K z u5 := (Kept.ite (P := Kept K z) (State.setRbit_kept h4) h4)
        try clear_value u5
        extract_lets +onlyGivenNames -merge -useContext u7
        have h8 : Kept K z u7 := (raise_kept (bump_kept h6))
        try clear_value u7
        exact (Kept.ite (P := Kept K z) (startSlew_kept h8) h8)

theorem execStepCmd_kept {z a0 a1 a2} (time : ¬K .time) (ha2 : Kept K z a2) : ∀ t, (execStepCmd a0 a1 a2) = .next t
    → Kept K z t :=
  (done_kept (gateWrite_kept (fun _ h0 => (stepCmd_kept time h0)) ha2))

theorem stepRearm_kept {z a0 a1 a2} (ha2 : Kept K z a2) : Kept K z (stepRearm a0 a1 a2) :=
  (Kept.ite (P := Kept K z) ha2 (Kept.ite (P := Kept K z) (raise_kept (bump_kept (State.setRbit_kept ha2)))
      (timeErr_kept ha2)))

theorem execStepRearm_kept {z a0 a1 a2} (ha2 : Kept K z a2) : ∀ t, (execStepRearm a0 a1 a2) = .next t → Kept K z t :=
  (done_kept (gateWrite_kept (fun _ h0 => (stepRearm_kept h0)) ha2))

theorem trkStep_kept {z a0 a1 a2} (time : ¬K .time) (ha2 : Kept K z a2) : Kept K z (trkStep a0 a1 a2) := by
  unfold trkStep
  extract_lets +onlyGivenNames -merge -useContext u0 u1
  refine Kept.ite (P := Kept K z) ?_ ?_
  · exact ha2
  · extract_lets +onlyGivenNames -merge -useContext u2
    extract_lets +onlyGivenNames -merge -useContext u3
    have h4 : Kept K z u3 := (setTrk_kept time ha2)
    try clear_value u3
    extract_lets +onlyGivenNames -merge -useContext u5
    have h6 : Kept K z u5 := (State.setReg_kept h4)
    try clear_value u5
    exact (Kept.ite (P := Kept K z) (startSlew_kept h6) h6)

theorem execTrkStepCmd_kept {z a0 a1 a2 a3} (time : ¬K .time) (ha3 : Kept K z a3) : ∀ t, (execTrkStepCmd a0 a1 a2
    a3) = .next t → Kept K z t :=
  (done_kept (gateWrite_kept (fun _ h0 => (trkStep_kept time h0)) ha3))

theorem slewDone_kept {z a0} (time : ¬K .time) (ha0 : Kept K z a0) : Kept K z (slewDone a0) := by
  unfold slewDone
  split
  · exact (Kept.ite (P := Kept K z) (advance_kept time ha0) ha0)
  · exact ha0

theorem execSlewDone_kept {z a0} (time : ¬K .time) (ha0 : Kept K z a0) : ∀ t, (execSlewDone a0) = .next t → Kept K z
    t :=
  (done_kept (slewDone_kept time ha0))

theorem refLoss_kept {z a0 a1} (ha1 : Kept K z a1) : Kept K z (refLoss a0 a1) := by
  unfold refLoss
  refine Kept.ite (P := Kept K z) ?_ ?_
  · extract_lets +onlyGivenNames -merge -useContext u0
    have h1 : Kept K z u0 := (State.setRbit_kept ha1)
    try clear_value u0
    extract_lets +onlyGivenNames -merge -useContext u2
    have h3 : Kept K z u2 := (raiseFault_kept h1)
    try clear_value u2
    exact (Kept.ite (P := Kept K z) (raise_kept (tbEnter_kept h3)) h3)
  · exact ha1

theorem execRefLoss_kept {z a0 a1} (time : ¬K .time) (ha1 : Kept K z a1) : ∀ t, (execRefLoss a0 a1) = .next t → Kept
    K z t :=
  (done_kept (State.ifLive_kept ha1 (fun _ h0 => (Kept.ite (P := Kept K z) (refLoss_kept (waitSince_kept time h0))
      h0))))

theorem refSync_kept {z a0 a1 a2} (ha2 : Kept K z a2) : Kept K z (refSync a0 a1 a2) := by
  unfold refSync
  refine forEach_kept ?_ ?_
  · exact ha2
  · intro a2 a3 h4
    extract_lets +onlyGivenNames -merge -useContext u5
    exact (Kept.ite (P := Kept K z) (State.setH_kept (State.setRbit_kept h4)) h4)

theorem refCfg_kept {z a0 a1 a2} (ha2 : Kept K z a2) : Kept K z (refCfg a0 a1 a2) := by
  unfold refCfg
  extract_lets +onlyGivenNames -merge -useContext u0 u1
  have h2 : Kept K z u1 := (Kept.ite (P := Kept K z) (State.setH_kept ha2) ha2)
  try clear_value u1
  exact (storeReg_kept h2)

theorem execFollowerRealign_kept {z a0} (time : ¬K .time) (ha0 : Kept K z a0) : ∀ t, (execFollowerRealign a0) =
    .next t → Kept K z t := by
  unfold execFollowerRealign
  refine done_kept ?_
  refine State.when_kept ?_ ?_
  · exact ha0
  · intro a9 h10
    extract_lets +onlyGivenNames -merge -useContext u11
    have h12 : Kept K z u11 := (nextInterval_kept time h10)
    try clear_value u11
    exact (Kept.same h12 rfl (Area.each (fun _ => Area.f5) (fun _ => Area.f5) (fun _ => rfl) (absurd · time) (fun _
        => Area.f3) (fun _ => rfl) (fun _ => Area.f4) (fun _ => Area.f8)))

theorem stampRegs_kept {z a0 a1 a2 a3 a4 a5} (ha5 : Kept K z a5) : Kept K z (stampRegs a0 a1 a2 a3 a4 a5) :=
  (latchTime_kept ha5)

theorem ppsFastEdge_kept {z a0 a1 a2} (ha2 : Kept K z a2) : Kept K z (ppsFastEdge a0 a1 a2) := by
  unfold ppsFastEdge
  extract_lets +onlyGivenNames -merge -useContext u0
  have h1 : Kept K z u0 := (bump_kept ha2)
  try clear_value u0
  extract_lets +onlyGivenNames -merge -useContext u2
  have h3 : Kept K z u2 := (forEach_kept h1 (fun _ _ h4 => (State.setH_kept h4)))
  try clear_value u2
  extract_lets +onlyGivenNames -merge -useContext u5
  have h6 : Kept K z u5 := (State.setH_kept h3)
  try clear_value u5
  extract_lets +onlyGivenNames -merge -useContext u7
  exact (Kept.ite (P := Kept K z) (raise_kept (State.setRbit_kept h6)) h6)

theorem ppsAccept_kept {z a0 a1 a2} (ha2 : Kept K z a2) : Kept K z (ppsAccept a0 a1 a2) := by
  unfold ppsAccept
  extract_lets +onlyGivenNames -merge -useContext u0
  have h1 : Kept K z u0 := (stampRegs_kept ha2)
  try clear_value u0
  extract_lets +onlyGivenNames -merge -useContext u2
  have h3 : Kept K z u2 := (State.setH_kept (State.setH_kept h1))
  try clear_value u2
  extract_lets +onlyGivenNames -merge -useContext u4
  have h5 : Kept K z u4 := (State.setRbit_kept h3)
  try clear_value u4
  extract_lets +onlyGivenNames -merge -useContext u6
  have h7 : Kept K z u6 := (Kept.ite (P := Kept K z) (State.setHb_kept h5) h5)
  try clear_value u6
  exact (raise_kept h7)

theorem ppsEdge_kept {z a0 a1 a2} (ha2 : Kept K z a2) : Kept K z (ppsEdge a0 a1 a2) := by
  unfold ppsEdge
  extract_lets +onlyGivenNames -merge -useContext u0 u1 u2
  exact (Kept.ite (P := Kept K z) ha2 (Kept.ite (P := Kept K z) (ppsFastEdge_kept ha2) (ppsAccept_kept ha2)))

theorem execPpsInEdge_kept {z a0 a1 a2} (ha2 : Kept K z a2) : ∀ t, (execPpsInEdge a0 a1 a2) = .next t → Kept K z t :=
  (done_kept (State.ifLive_kept ha2 (fun _ h0 => (ppsEdge_kept h0))))

theorem ppsLoss_kept {z a0 a1} (ha1 : Kept K z a1) : Kept K z (ppsLoss a0 a1) :=
  (Kept.ite (P := Kept K z) (raise_kept (State.setRbit_kept ha1)) ha1)

theorem execPpsLoss_kept {z a0 a1} (time : ¬K .time) (ha1 : Kept K z a1) : ∀ t, (execPpsLoss a0 a1) = .next t → Kept
    K z t :=
  (done_kept (State.ifLive_kept ha1 (fun _ h0 => (Kept.ite (P := Kept K z) (ppsLoss_kept (waitSince_kept time h0))
      h0))))

theorem ppsInCfg_kept {z a0 a1 a2} (ha2 : Kept K z a2) : Kept K z (ppsInCfg a0 a1 a2) := by
  unfold ppsInCfg
  extract_lets +onlyGivenNames -merge -useContext u0 u1
  have h2 : Kept K z u1 := (Kept.ite (P := Kept K z) (State.setH_kept ha2) ha2)
  try clear_value u1
  exact (storeReg_kept h2)

theorem ppsRearm_kept {z a0 a1 a2} (ha2 : Kept K z a2) : Kept K z (ppsRearm a0 a1 a2) :=
  (Kept.ite (P := Kept K z) (forEach_kept (State.setRbit_kept ha2) (fun _ _ h0 => (State.setH_kept h0))) ha2)

theorem execPpsRearm_kept {z a0 a1 a2 a3} (ha3 : Kept K z a3) : ∀ t, (execPpsRearm a0 a1 a2 a3) = .next t → Kept K z
    t :=
  (done_kept (gateWrite_kept (fun _ h0 => (ppsRearm_kept h0)) ha3))

theorem todRx_kept {z a0 a1 a2} (ha2 : Kept K z a2) : Kept K z (todRx a0 a1 a2) := by
  unfold todRx
  refine Kept.ite (P := Kept K z) ?_ ?_
  · extract_lets +onlyGivenNames -merge -useContext u0
    have h1 : Kept K z u0 := (Kept.ite (P := Kept K z) (bump_kept ha2) ha2)
    try clear_value u0
    extract_lets +onlyGivenNames -merge -useContext u2
    have h3 : Kept K z u2 := (forEach_kept h1 (fun _ _ h4 => (State.setReg_kept h4)))
    try clear_value u2
    exact (State.setH_kept (State.setRbit_kept (State.setHb_kept h3)))
  · exact (bump_kept ha2)

theorem execTodRxMessage_kept {z a0 a1 a2} (ha2 : Kept K z a2) : ∀ t, (execTodRxMessage a0 a1 a2) = .next t → Kept K
    z t :=
  (done_kept (State.ifLive_kept ha2 (fun _ h0 => (todRx_kept h0))))

theorem todLoss_kept {z a0} (ha0 : Kept K z a0) : Kept K z (todLoss a0) :=
  (Kept.ite (P := Kept K z) ha0 (raise_kept (State.setRbit_kept ha0)))

theorem execTodLoss_kept {z a0} (time : ¬K .time) (ha0 : Kept K z a0) : ∀ t, (execTodLoss a0) = .next t → Kept K z t
    :=
  (done_kept (State.ifLive_kept ha0 (fun _ h0 => (todLoss_kept (waitSince_kept time h0)))))

theorem freqEdge_kept {z a0 a1} (ha1 : Kept K z a1) : Kept K z (freqEdge a0 a1) := by
  unfold freqEdge
  refine Kept.ite (P := Kept K z) ?_ ?_
  · extract_lets +onlyGivenNames -merge -useContext u0
    have h1 : Kept K z u0 := (State.setH_kept ha1)
    try clear_value u0
    extract_lets +onlyGivenNames -merge -useContext u2
    exact (Kept.ite (P := Kept K z) (State.setH_kept h1) (stampRegs_kept (State.setH_kept h1)))
  · exact ha1

theorem execFreqEdge_kept {z a0 a1} (ha1 : Kept K z a1) : ∀ t, (execFreqEdge a0 a1) = .next t → Kept K z t :=
  (done_kept (State.ifLive_kept ha1 (fun _ h0 => (freqEdge_kept h0))))

theorem freqLoss_kept {z a0} (time : ¬K .time) (ha0 : Kept K z a0) : Kept K z (freqLoss a0) := by
  unfold freqLoss
  extract_lets +onlyGivenNames -merge -useContext u0
  exact (Kept.ite (P := Kept K z) (raise_kept (State.setH_kept (waitRoot_kept time ha0))) ha0)

theorem execFreqLoss_kept {z a0} (time : ¬K .time) (ha0 : Kept K z a0) : ∀ t, (execFreqLoss a0) = .next t → Kept K z
    t :=
  (done_kept (State.ifLive_kept ha0 (fun _ h0 => (freqLoss_kept time h0))))

theorem freqCfg_kept {z a0 a1} (ha1 : Kept K z a1) : Kept K z (freqCfg a0 a1) := by
  unfold freqCfg
  extract_lets +onlyGivenNames -merge -useContext u0
  have h1 : Kept K z u0 := (Kept.ite (P := Kept K z) (State.setH_kept (State.setH_kept ha1)) ha1)
  try clear_value u0
  exact (storeReg_kept h1)

theorem ppsPulseEnd_kept {z a0 a1} (time : ¬K .time) (ha1 : Kept K z a1) : Kept K z (ppsPulseEnd a0 a1) :=
  (Kept.ite (P := Kept K z) (ppsLevel_kept (waitRoot_kept time ha1)) ha1)

theorem ppsRise_kept {z a0 a1} (ha1 : Kept K z a1) : Kept K z (ppsRise a0 a1) := by
  unfold ppsRise
  refine Kept.ite (P := Kept K z) ?_ ?_
  · exact ha1
  · extract_lets +onlyGivenNames -merge -useContext u0
    have h1 : Kept K z u0 := (State.setH_kept (ppsLevel_kept ha1))
    try clear_value u0
    exact (Kept.ite (P := Kept K z) (State.setH_kept h1) h1)

theorem ppsOutEdge_kept {z a0 a1} (time : ¬K .time) (ha1 : Kept K z a1) : Kept K z (ppsOutEdge a0 a1) := by
  unfold ppsOutEdge
  extract_lets +onlyGivenNames -merge -useContext u0 u1
  refine Kept.ite (P := Kept K z) ?_ ?_
  · exact ha1
  · extract_lets +onlyGivenNames -merge -useContext u2
    have h3 : Kept K z u2 := (advanceSrcTo_kept time (ppsPulseEnd_kept time ha1))
    try clear_value u2
    exact (Kept.ite (P := Kept K z) h3 (ppsRise_kept (ppsArm_kept h3)))

theorem execPpsOutEdge_kept {z a0 a1} (time : ¬K .time) (ha1 : Kept K z a1) : ∀ t, (execPpsOutEdge a0 a1) = .next t
    → Kept K z t :=
  (done_kept (State.ifLive_kept ha1 (fun _ h0 => (ppsOutEdge_kept time h0))))

theorem execPpsPulseEnd_kept {z a0 a1} (time : ¬K .time) (ha1 : Kept K z a1) : ∀ t, (execPpsPulseEnd a0 a1) = .next
    t → Kept K z t :=
  (done_kept (State.ifLive_kept ha1 (fun _ h0 => (ppsPulseEnd_kept time h0))))

theorem todSend_kept {z a0} (time : ¬K .time) (ha0 : Kept K z a0) : Kept K z (todSend a0) := by
  unfold todSend
  extract_lets +onlyGivenNames -merge -useContext u0
  refine Kept.ite (P := Kept K z) ?_ ?_
  · exact ha0
  · extract_lets +onlyGivenNames -merge -useContext u1
    have h2 : Kept K z u1 := (State.setH_kept (waitRoot_kept time ha0))
    try clear_value u1
    extract_lets +onlyGivenNames -merge -useContext u3
    exact (Kept.ite (P := Kept K z) h2 (State.emit_kept h2))

theorem execTodTxStart_kept {z a0} (time : ¬K .time) (ha0 : Kept K z a0) : ∀ t, (execTodTxStart a0) = .next t → Kept
    K z t :=
  (done_kept (State.ifLive_kept ha0 (fun _ h0 => (todSend_kept time h0))))

theorem timeStart_kept {z a0} (ha0 : Kept K z a0) : Kept K z (timeStart a0) :=
  (forEach_kept ha0 (fun _ _ h0 => (ppsArm_kept h0)))

theorem timeStop_kept {z a0} (ha0 : Kept K z a0) : Kept K z (timeStop a0) :=
  (forEach_kept (State.setH_kept ha0) (fun _ _ h0 => (ppsLevel_kept h0)))

end Sys2Proof.Machine
end

