-- ==== Sys2Proof/Laws/KeptFrames.lean ====
section
/-!
SUPPORT. Every operation and meaning of Machine/Frames.lean keeps the state sane, its queue as it is and its outputs made.
-/
namespace Sys2Proof.Machine

variable {K : Area → Prop}

theorem State.putFrame_kept {z a0 a1} (frames : ¬K .frames) (ha0 : Kept K z a0) : Kept K z (State.putFrame a0 a1) :=
  (Kept.same ha0 rfl (Area.each (absurd · frames) (fun _ => Area.f5) (fun _ => rfl) (fun _ => Area.f5) (fun _ =>
      Area.f3) (fun _ => rfl) (fun _ => Area.f4) (fun _ => Area.f8)))

theorem State.moveFrame_kept {z a0 a1 a2} (frames : ¬K .frames) (ha0 : Kept K z a0) : Kept K z (State.moveFrame a0
    a1 a2) :=
  (Kept.same ha0 rfl (Area.each (absurd · frames) (fun _ => Area.f5) (fun _ => rfl) (fun _ => Area.f5) (fun _ =>
      Area.f3) (fun _ => rfl) (fun _ => Area.f4) (fun _ => Area.f8)))

theorem State.newFrame_kept {z a0 a1} (frames : ¬K .frames) (ha0 : Kept K z a0) : Kept K z (State.newFrame a0 a1) :=
    by
  unfold State.newFrame
  extract_lets +onlyGivenNames -merge -useContext u0
  have h1 : Kept K z u0 := (State.setH_kept ha0)
  try clear_value u0
  exact (Kept.same h1 rfl (Area.each (absurd · frames) (fun _ => Area.f5) (fun _ => rfl) (fun _ => Area.f5) (fun _
      => Area.f3) (fun _ => rfl) (fun _ => Area.f4) (fun _ => Area.f8)))

theorem State.removeFrame_kept {z a0 a1} (frames : ¬K .frames) (ha0 : Kept K z a0) : Kept K z (State.removeFrame a0
    a1) :=
  (Kept.same ha0 rfl (Area.each (absurd · frames) (fun _ => Area.f5) (fun _ => rfl) (fun _ => Area.f5) (fun _ =>
      Area.f3) (fun _ => rfl) (fun _ => Area.f4) (fun _ => Area.f8)))

theorem infInc_kept {z a0 a1} (ha1 : Kept K z a1) : Kept K z (infInc a0 a1) := by
  unfold infInc
  extract_lets +onlyGivenNames -merge -useContext u0
  have h1 : Kept K z u0 := (State.setH_kept ha1)
  try clear_value u0
  exact (Kept.ite (P := Kept K z) (State.setH_kept h1) h1)

theorem infDec_kept {z a0 a1} (ha1 : Kept K z a1) : Kept K z (infDec a0 a1) :=
  (Kept.ite (P := Kept K z) (bump_kept ha1) (State.setH_kept ha1))

theorem stampParity_kept {z a0 a1} (ha1 : Kept K z a1) : Kept K z (stampParity a0 a1).2 := by
  unfold stampParity
  try dsimp -zeta only
  exact (infInc_kept ha1)

theorem setOwner_kept {z a0 a1 a2 a3} (frames : ¬K .frames) (ha3 : Kept K z a3) : Kept K z (setOwner a0 a1 a2 a3) :=
    setBuf_kept frames ha3 _ _

theorem lowEvent_kept {z a0 a1 a2 a3} (ha3 : Kept K z a3) : Kept K z (lowEvent a0 a1 a2 a3) := by
  unfold lowEvent
  extract_lets +onlyGivenNames -merge -useContext u0
  exact (Kept.ite (P := Kept K z) (raise_kept ha3) ha3)

theorem setFreeCnt_kept {z a0 a1 a2} (ha2 : Kept K z a2) : Kept K z (setFreeCnt a0 a1 a2) := by
  unfold setFreeCnt
  extract_lets +onlyGivenNames -merge -useContext u0
  exact (lowEvent_kept (State.setReg_kept ha2))

theorem cellWipe_kept {z a0 a1 a2} (ha2 : Kept K z a2) : Kept K z (cellWipe a0 a1 a2) :=
  (Kept.ite (P := Kept K z) ha2 (forEach_kept ha2 (fun _ _ h0 => (State.setTab_kept h0))))

theorem grantBuf_kept {z a0 a1 a2 a3} (frames : ¬K .frames) (ha3 : Kept K z a3) : Kept K z (grantBuf a0 a1 a2 a3).2
    := by
  unfold grantBuf
  refine Kept.ite (P := fun x : Option ℕ × State => Kept K z x.2) ?_ ?_
  · try dsimp -zeta only
    exact (Kept.ite (P := Kept K z) (errDisabled_kept (bump_kept ha3)) ha3)
  · split
    · try dsimp -zeta only
      exact (bump_kept ha3)
    · extract_lets +onlyGivenNames -merge -useContext u2
      have h3 : Kept K z u2 := (cellWipe_kept (State.setH_kept ha3))
      try clear_value u2
      extract_lets +onlyGivenNames -merge -useContext u4
      have h5 : Kept K z u4 := (setFreeCnt_kept (setOwner_kept frames h3))
      try clear_value u4
      extract_lets +onlyGivenNames -merge -useContext u6
      have h7 : Kept K z u6 := (Kept.ite (P := Kept K z) (State.setH_kept h5) h5)
      try clear_value u6
      try dsimp -zeta only
      exact h7

theorem releaseBuf_kept {z a0 a1 a2} (frames : ¬K .frames) (ha2 : Kept K z a2) : Kept K z (releaseBuf a0 a1 a2) :=
  (Kept.ite (P := Kept K z) ha2 (setFreeCnt_kept (setOwner_kept frames ha2)))

theorem grantCells_kept {z a0 a1 a2 a3} (frames : ¬K .frames) (ha3 : Kept K z a3) : Kept K z (grantCells a0 a1 a2
    a3).2 := by
  induction a2 generalizing a3 with
  | zero => exact ha3
  | succ n ih =>
    unfold grantCells
    split
    · rename_i q
      exact Kept.snd q (grantBuf_kept frames ha3)
    · rename_i s' q
      have h : Kept K z s' := Kept.snd q (grantBuf_kept frames ha3)
      split
      · rename_i q
        exact Kept.snd q (ih h)
      · rename_i q
        exact releaseBuf_kept frames (Kept.snd q (ih h))

theorem freeReject_kept {z a0 a1 a2 a3 a4 a5} (ha5 : Kept K z a5) : Kept K z (freeReject a0 a1 a2 a3 a4 a5) := by
  unfold freeReject
  extract_lets +onlyGivenNames -merge -useContext u0 u1
  have h2 : Kept K z u1 := (bump_kept ha5)
  try clear_value u1
  extract_lets +onlyGivenNames -merge -useContext u3
  have h4 : Kept K z u3 := (Kept.ite (P := Kept K z) h2 (State.setReg_kept (State.setReg_kept h2)))
  try clear_value u3
  exact (raise_kept (errBy_kept h4))

theorem freeBuf_kept {z a0 a1 a2 a3 a4} (frames : ¬K .frames) (ha4 : Kept K z a4) : Kept K z (freeBuf a0 a1 a2 a3
    a4).2 := by
  unfold freeBuf
  split
  · try dsimp -zeta only
    exact (releaseBuf_kept frames ha4)
  · try dsimp -zeta only
    exact (freeReject_kept ha4)

theorem agentFree_kept {z a0 a1 a2 a3} (frames : ¬K .frames) (ha3 : Kept K z a3) : Kept K z (agentFree a0 a1 a2 a3) :=
  (freeBuf_kept frames ha3)

theorem setPart_kept {z a0 a1 a2 a3} (ha3 : Kept K z a3) : Kept K z (setPart a0 a1 a2 a3) := by
  unfold setPart
  extract_lets +onlyGivenNames -merge -useContext u0
  have h1 : Kept K z u0 := (State.setReg_kept (State.setReg_kept ha3))
  try clear_value u0
  exact (State.setReg_kept h1)

theorem takeCounts_kept {z a0 a1 a2 a3} (ha3 : Kept K z a3) : Kept K z (takeCounts a0 a1 a2 a3) := by
  unfold takeCounts
  extract_lets +onlyGivenNames -merge -useContext u0 u1
  have h2 : Kept K z u1 := (State.setH_kept (State.setH_kept ha3))
  try clear_value u1
  exact (setPart_kept h2)

theorem freeCount_kept {z a0 a1} (ha1 : Kept K z a1) : Kept K z (freeCount a0 a1) := by
  unfold freeCount
  extract_lets +onlyGivenNames -merge -useContext u0 u1 u2
  exact (Kept.ite (P := Kept K z) (setPart_kept (State.setH_kept ha1)) (setPart_kept (State.setH_kept ha1)))

theorem pageFree_kept {z a0 a1} (frames : ¬K .frames) (ha1 : Kept K z a1) : Kept K z (pageFree a0 a1) := by
  unfold pageFree
  extract_lets +onlyGivenNames -merge -useContext u0
  have h1 : Kept K z u0 := (State.setReg_kept (agentFree_kept frames ha1))
  try clear_value u0
  exact (Kept.same h1 rfl (Area.each (absurd · frames) (fun _ => Area.f5) (fun _ => rfl) (fun _ => Area.f5) (fun _
      => Area.f3) (fun _ => rfl) (fun _ => Area.f4) (fun _ => Area.f8)))

theorem freeCells_kept {z a0 a1 a2} (frames : ¬K .frames) (ha2 : Kept K z a2) : Kept K z (freeCells a0 a1 a2) := by
  unfold freeCells
  extract_lets +onlyGivenNames -merge -useContext u0
  have h1 : Kept K z u0 := by
    unfold u0
    refine forEach_kept ?_ ?_
    · exact ha2
    · intro a5 a6 h7
      refine Kept.ite (P := Kept K z) ?_ ?_
      · extract_lets +onlyGivenNames -merge -useContext u8
        have h9 : Kept K z u8 := (freeCount_kept (agentFree_kept frames h7))
        try clear_value u8
        exact (Kept.ite (P := Kept K z) (State.setReg_kept h9) h9)
      · exact h7
  try clear_value u0
  exact (forEach_kept h1 (fun _ _ h10 => (Kept.ite (P := Kept K z) h10 (pageFree_kept frames h10))))

theorem injResult_kept {z a0 a1 a2 a3 a4} (frames : ¬K .frames) (ha4 : Kept K z a4) : Kept K z (injResult a0 a1 a2
    a3 a4) :=
  (Kept.same ha4 rfl (Area.each (absurd · frames) (fun _ => Area.f5) (fun _ => rfl) (fun _ => Area.f5) (fun _ =>
      Area.f3) (fun _ => rfl) (fun _ => Area.f4) (fun _ => Area.f8)))

theorem uncharge_kept {z a0 a1} (ha1 : Kept K z a1) : Kept K z (uncharge a0 a1) := by
  unfold uncharge
  refine Kept.ite (P := Kept K z) ?_ ?_
  · exact ha1
  · extract_lets +onlyGivenNames -merge -useContext u0
    extract_lets +onlyGivenNames -merge -useContext u1
    have h2 : Kept K z u1 := (State.setH_kept (State.setH_kept ha1))
    try clear_value u1
    exact (setPart_kept h2)

theorem State.drop_kept {z a0 a1} (frames : ¬K .frames) (ha0 : Kept K z a0) : Kept K z (State.drop a0 a1) := by
  unfold State.drop
  extract_lets +onlyGivenNames -merge -useContext u0
  have h1 : Kept K z u0 := by
    unfold u0
    refine Kept.ite (P := Kept K z) ?_ ?_
    · split
      · rename_i m2 m3 q4
        have h5 : Kept K z m3 := Kept.of_eq (P := fun x : ℕ × State => Kept K z x.2) q4 (State.free_kept ha0)
        exact (injResult_kept frames h5)
    · exact ha0
  try clear_value u0
  extract_lets +onlyGivenNames -merge -useContext u6
  have h7 : Kept K z u6 := (uncharge_kept (State.removeFrame_kept frames h1))
  try clear_value u6
  extract_lets +onlyGivenNames -merge -useContext u8
  have h9 : Kept K z u8 := (freeCells_kept frames h7)
  try clear_value u8
  extract_lets +onlyGivenNames -merge -useContext u10
  have h11 : Kept K z u10 := (forEach_kept h9 (fun _ _ h12 => (agentFree_kept frames h12)))
  try clear_value u10
  extract_lets +onlyGivenNames -merge -useContext u13
  have h14 : Kept K z u13 := (Kept.ite (P := Kept K z) h11 (agentFree_kept frames h11))
  try clear_value u13
  split
  · exact (Kept.ite (P := Kept K z) h14 (infDec_kept h14))
  · exact h14

theorem pfeBump_kept {z a0 a1 a2} (ha2 : Kept K z a2) : Kept K z (pfeBump a0 a1 a2) := by
  unfold pfeBump
  extract_lets +onlyGivenNames -merge -useContext u0
  exact (State.setTab_kept ha2)

theorem pfeMiss_kept {z a0 a1} (ha1 : Kept K z a1) : Kept K z (pfeMiss a0 a1) :=
  (State.ifLive_kept ha1 (fun _ h0 => (raiseFirst_kept (bump_kept (pfeBump_kept h0)))))

theorem pfeSent_kept {z a0 a1} (ha1 : Kept K z a1) : Kept K z (pfeSent a0 a1) :=
  (Kept.ite (P := Kept K z) (bump_kept (pfeBump_kept ha1)) ha1)

theorem dropWhere_kept {z a0 a1} (frames : ¬K .frames) (ha1 : Kept K z a1) : Kept K z (dropWhere a0 a1) :=
  (forEach_kept ha1 (fun _ _ h0 => (State.drop_kept frames h0)))

theorem dropDisabled_kept {z a0 a1 a2} (frames : ¬K .frames) (ha2 : Kept K z a2) : Kept K z (dropDisabled a0 a1 a2)
    := by
  unfold dropDisabled
  extract_lets +onlyGivenNames -merge -useContext u0
  have h1 : Kept K z u0 := (State.drop_kept frames ha2)
  try clear_value u0
  exact (Kept.ite (P := Kept K z) (errDisabled_kept h1) h1)

theorem bridgeTo_kept {z a0 a1 a2} (frames : ¬K .frames) (ha2 : Kept K z a2) : Kept K z (bridgeTo a0 a1 a2) :=
  (Kept.ite (P := Kept K z) (State.moveFrame_kept frames ha2) (dropDisabled_kept frames ha2))

end Sys2Proof.Machine
end

