-- ==== Sys2Proof/Laws/KeptClassify.lean ====
section
/-!
SUPPORT. Every operation and meaning of Machine/Classify.lean keeps the state sane, its queue as it is and its outputs made.
-/
namespace Sys2Proof.Machine

variable {K : Area → Prop}

theorem setParBad_kept {z a0 a1 a2 a3 a4} (ha4 : Kept K z a4) : Kept K z (setParBad a0 a1 a2 a3 a4) :=
  (State.setHb_kept ha4)

theorem classify1_kept {z a0 a1 a2 a3 a4 a5} (ha5 : Kept K z a5.2.2) : Kept K z (classify1 a0 a1 a2 a3 a4 a5).2.2 :=
    by
  unfold classify1
  split
  · rename_i m0 m1 m2
    have h4 : Kept K z m2 := ha5
    split
    · try dsimp -zeta only
      try dsimp -zeta only
      exact (bump_kept h4)
    · extract_lets +onlyGivenNames -merge -useContext u8
      have h9 : Kept K z u8 := (fsCount_kept (bump_kept h4))
      try clear_value u8
      extract_lets +onlyGivenNames -merge -useContext u10
      have h11 : Kept K z u10 := (Kept.ite (P := Kept K z) h9 (bump_kept h9))
      try clear_value u10
      try dsimp -zeta only
      try dsimp -zeta only
      exact h11

end Sys2Proof.Machine
end

