-- ==== Sys2Proof/Laws/KeptTables.lean ====
section
/-!
SUPPORT. Every operation and meaning of Machine/Tables.lean keeps the state sane, its queue as it is and its outputs made.
-/
namespace Sys2Proof.Machine

variable {K : Area → Prop}

theorem tblFail_kept {z a0 a1 a2 a3 a4 a5} (ha5 : Kept K z a5) : Kept K z (tblFail a0 a1 a2 a3 a4 a5).1 := by
  unfold tblFail
  extract_lets +onlyGivenNames -merge -useContext u0
  have h1 : Kept K z u0 := (errBy_kept ha5)
  try clear_value u0
  try dsimp -zeta only
  exact (Kept.ite (P := Kept K z) (bump_kept h1) h1)

theorem putEntry_kept {z a0 a1 a2 a3} (ha3 : Kept K z a3) : Kept K z (putEntry a0 a1 a2 a3) := by
  unfold putEntry
  extract_lets +onlyGivenNames -merge -useContext u0 u1 u2
  have h3 : Kept K z u2 := (setParBad_kept (State.setTab_kept ha3))
  try clear_value u2
  extract_lets +onlyGivenNames -merge -useContext u4
  have h5 : Kept K z u4 := (State.setReg_kept h3)
  try clear_value u4
  exact (Kept.ite (P := Kept K z) (State.setReg_kept h5) h5)

theorem hashWrite_kept {z a0 a1 a2 a3 a4} (ha4 : Kept K z a4) : Kept K z (hashWrite a0 a1 a2 a3 a4).1 := by
  unfold hashWrite
  extract_lets +onlyGivenNames -merge -useContext u0 u1 u2
  have h3 : ∀ y0_0, Kept K z (u2 y0_0).1 := (fun _ => (tblFail_kept ha4))
  try clear_value u2
  refine Kept.ite (P := fun x : State × ℕ => Kept K z x.1) ?_ ?_
  · exact (h3 _)
  · refine Kept.ite (P := fun x : State × ℕ => Kept K z x.1) ?_ ?_
    · exact (h3 _)
    · refine Kept.ite (P := fun x : State × ℕ => Kept K z x.1) ?_ ?_
      · exact (h3 _)
      · split
        · exact (h3 _)
        · refine Kept.ite (P := fun x : State × ℕ => Kept K z x.1) ?_ ?_
          · exact (h3 _)
          · extract_lets +onlyGivenNames -merge -useContext u6
            extract_lets +onlyGivenNames -merge -useContext u7
            try dsimp -zeta only
            exact (putEntry_kept ha4)

theorem evictWay_kept {z a0 a1 a2} (ha0 : Kept K z a0) : Kept K z (evictWay a0 a1 a2).2 := by
  unfold evictWay
  extract_lets +onlyGivenNames -merge -useContext u0 u1 u2 u3
  clear_value u2
  split
  · try dsimp -zeta only
    exact ha0
  · try dsimp -zeta only
    exact ha0
  · split
    · rename_i m9 m10 q11
      have h12 : Kept K z m10 := Kept.of_eq (P := fun x : ℕ × State => Kept K z x.2) q11 (State.free_kept ha0)
      try dsimp -zeta only
      exact h12
  · try dsimp -zeta only
    exact ha0

theorem notifyPush_kept {z a0 a1} (learn : ¬K .learn) (ha1 : Kept K z a1) : Kept K z (notifyPush a0 a1) := by
  unfold notifyPush
  split
  · exact raise_kept (bump_kept ha1)
  · extract_lets +onlyGivenNames b u v
    have hu : Kept K z u := addNotify_kept learn ha1 _ (by omega)
    have hv : Kept K z v := State.setReg_kept hu
    exact Kept.ite (P := fun x => Kept K z x) (raise_kept hv) hv

theorem notifyReport_kept {z a0 a1 a2} (learn : ¬K .learn) (ha2 : Kept K z a2) : Kept K z (notifyReport a0 a1 a2) :=
    by
  unfold notifyReport
  extract_lets +onlyGivenNames -merge -useContext u0
  refine Kept.ite (P := Kept K z) ?_ ?_
  · exact ha2
  · refine Kept.ite (P := Kept K z) ?_ ?_
    · exact (notifyPush_kept learn ha2)
    · extract_lets +onlyGivenNames -merge -useContext u1
      have h2 : Kept K z u1 := (notifyPush_kept learn ha2)
      try clear_value u1
      extract_lets +onlyGivenNames -merge -useContext u3
      exact (Kept.same h2 rfl (Area.each (fun _ => Area.f5) (fun _ => Area.f5) (fun _ => rfl) (fun _ => Area.f5)
          (absurd · learn) (fun _ => rfl) (fun _ => Area.f4) (fun _ => Area.f8)))

theorem placeEntry_kept {z a0 a1 a2} (learn : ¬K .learn) (ha2 : Kept K z a2) : Kept K z (placeEntry a0 a1 a2).2 := by
  unfold placeEntry
  split
  · try dsimp -zeta only
    exact (putEntry_kept ha2)
  · split
    · split
      · rename_i m3 q4
        have h5 : Kept K z m3 := Kept.of_eq (P := fun x : Option ℕ × State => Kept K z x.2) q4 (evictWay_kept ha2)
        try dsimp -zeta only
        exact h5
      · rename_i m6 m7 q8
        have h9 : Kept K z m7 := Kept.of_eq (P := fun x : Option ℕ × State => Kept K z x.2) q8 (evictWay_kept ha2)
        extract_lets +onlyGivenNames -merge -useContext u10 u11
        have h12 : Kept K z u11 := (bump_kept h9)
        try clear_value u11
        extract_lets +onlyGivenNames -merge -useContext u13
        have h14 : Kept K z u13 := (putEntry_kept h12)
        try clear_value u13
        try dsimp -zeta only
        exact (notifyPush_kept learn h14)
    · try dsimp -zeta only
      exact ha2

theorem l2LearnRej_kept {z a0 a1 a2 a3 a4} (learn : ¬K .learn) (ha4 : Kept K z a4) : Kept K z (l2LearnRej a0 a1 a2
    a3 a4) := by
  unfold l2LearnRej
  extract_lets +onlyGivenNames -merge -useContext u0
  have h1 : Kept K z u0 := (raiseFirst_kept (bump_kept ha4))
  try clear_value u0
  exact (notifyPush_kept learn h1)

theorem hashInsert_kept {z a0 a1 a2 a3 a4} (learn : ¬K .learn) (ha4 : Kept K z a4) : Kept K z (hashInsert a0 a1 a2
    a3 a4).1 := by
  unfold hashInsert
  extract_lets +onlyGivenNames -merge -useContext u0 u1
  have h2 : ∀ y0_0 y0_1, (Kept K z y0_1) → Kept K z (u1 y0_0 y0_1).1 := by
    unfold u1
    intro a5 a6 h7
    split
    · rename_i m8 m9 q10
      have h11 : Kept K z m8 := Kept.of_eq (P := fun x : State × ℕ => Kept K z x.1) q10 (tblFail_kept h7)
      try dsimp -zeta only
      exact h11
  try clear_value u1
  refine Kept.ite (P := fun x : State × ℕ × ℕ => Kept K z x.1) ?_ ?_
  · exact (h2 _ _ ha4)
  · refine Kept.ite (P := fun x : State × ℕ × ℕ => Kept K z x.1) ?_ ?_
    · exact (h2 _ _ ha4)
    · split
      · exact (h2 _ _ ha4)
      · refine Kept.ite (P := fun x : State × ℕ × ℕ => Kept K z x.1) ?_ ?_
        · exact (h2 _ _ ha4)
        · split
          · rename_i m14 m15 m16 q17
            have h18 : Kept K z m16 := Kept.of_eq (P := fun x : Option (ℕ × Bool) × State => Kept K z x.2) q17
                (placeEntry_kept learn ha4)
            refine Kept.ite (P := fun x : State × ℕ × ℕ => Kept K z x.1) ?_ ?_
            · exact (h2 _ _ ha4)
            · try dsimp -zeta only
              exact h18
          · rename_i m19 q20
            have h21 : Kept K z m19 := Kept.of_eq (P := fun x : Option (ℕ × Bool) × State => Kept K z x.2) q20
                (placeEntry_kept learn ha4)
            split
            · exact (h2 _ _ (l2LearnRej_kept learn h21))
            · exact (h2 _ _ (bump_kept h21))

theorem hashDelete_kept {z a0 a1 a2 a3 a4} (ha4 : Kept K z a4) : Kept K z (hashDelete a0 a1 a2 a3 a4).1 := by
  unfold hashDelete
  extract_lets +onlyGivenNames -merge -useContext u0 u1 u2
  have h3 : ∀ y0_0, Kept K z (u2 y0_0).1 := by
    unfold u2
    intro a4
    split
    · rename_i m5 m6 q7
      have h8 : Kept K z m5 := Kept.of_eq (P := fun x : State × ℕ => Kept K z x.1) q7 (tblFail_kept ha4)
      try dsimp -zeta only
      exact h8
  try clear_value u2
  refine Kept.ite (P := fun x : State × ℕ × ℕ => Kept K z x.1) ?_ ?_
  · exact (h3 _)
  · split
    · exact (h3 _)
    · refine Kept.ite (P := fun x : State × ℕ × ℕ => Kept K z x.1) ?_ ?_
      · exact (h3 _)
      · try dsimp -zeta only
        exact (forEach_kept ha4 (fun _ _ h13 => (putEntry_kept h13)))

theorem putRoute_kept {z a0 a1 a2} (ha2 : Kept K z a2) : Kept K z (putRoute a0 a1 a2) := by
  unfold putRoute
  extract_lets +onlyGivenNames -merge -useContext u0 u1 u2 u3 u4
  have h5 : Kept K z u4 := (setParBad_kept (State.setTab_kept ha2))
  try clear_value u4
  extract_lets +onlyGivenNames -merge -useContext u6
  have h7 : Kept K z u6 := (State.setReg_kept h5)
  try clear_value u6
  extract_lets +onlyGivenNames -merge -useContext u8
  have h9 : Kept K z u8 := (State.setReg_kept h7)
  try clear_value u8
  exact (State.setReg_kept h9)

theorem routeAdd_kept {z a0 a1 a2 a3} (ha3 : Kept K z a3) : Kept K z (routeAdd a0 a1 a2 a3).1 := by
  unfold routeAdd
  extract_lets +onlyGivenNames -merge -useContext u0 u1
  have h2 : ∀ y0_0, Kept K z (u1 y0_0).1 := (fun _ => (tblFail_kept ha3))
  try clear_value u1
  refine Kept.ite (P := fun x : State × ℕ => Kept K z x.1) ?_ ?_
  · exact (h2 _)
  · refine Kept.ite (P := fun x : State × ℕ => Kept K z x.1) ?_ ?_
    · exact (h2 _)
    · refine Kept.ite (P := fun x : State × ℕ => Kept K z x.1) ?_ ?_
      · exact (h2 _)
      · split
        · exact (h2 _)
        · refine Kept.ite (P := fun x : State × ℕ => Kept K z x.1) ?_ ?_
          · exact (h2 _)
          · extract_lets +onlyGivenNames -merge -useContext u5
            try dsimp -zeta only
            exact (putRoute_kept ha3)

theorem routeDel_kept {z a0 a1 a2 a3} (ha3 : Kept K z a3) : Kept K z (routeDel a0 a1 a2 a3).1 := by
  unfold routeDel
  extract_lets +onlyGivenNames -merge -useContext u0 u1
  have h2 : ∀ y0_0, Kept K z (u1 y0_0).1 := (fun _ => (tblFail_kept ha3))
  try clear_value u1
  refine Kept.ite (P := fun x : State × ℕ => Kept K z x.1) ?_ ?_
  · exact (h2 _)
  · split
    · exact (h2 _)
    · refine Kept.ite (P := fun x : State × ℕ => Kept K z x.1) ?_ ?_
      · exact (h2 _)
      · try dsimp -zeta only
        exact (putRoute_kept ha3)

theorem routeMod_kept {z a0 a1 a2 a3} (ha3 : Kept K z a3) : Kept K z (routeMod a0 a1 a2 a3).1 := by
  unfold routeMod
  extract_lets +onlyGivenNames -merge -useContext u0 u1 u2 u3
  have h4 : ∀ y0_0, Kept K z (u3 y0_0).1 := (fun _ => (tblFail_kept ha3))
  try clear_value u3
  refine Kept.ite (P := fun x : State × ℕ => Kept K z x.1) ?_ ?_
  · exact (h4 _)
  · split
    · exact (h4 _)
    · refine Kept.ite (P := fun x : State × ℕ => Kept K z x.1) ?_ ?_
      · exact (h4 _)
      · split
        · exact (h4 _)
        · try dsimp -zeta only
          exact (putRoute_kept ha3)
        · refine Kept.ite (P := fun x : State × ℕ => Kept K z x.1) ?_ ?_
          · exact (h4 _)
          · try dsimp -zeta only
            exact (putRoute_kept ha3)

theorem l2Refresh_kept {z a0 a1 a2} (ha2 : Kept K z a2) : Kept K z (l2Refresh a0 a1 a2) := by
  unfold l2Refresh
  extract_lets +onlyGivenNames -merge -useContext u0 u1
  exact (Kept.ite (P := Kept K z) ha2 (State.setTab_kept ha2))

theorem l2Move_kept {z a0 a1 a2 a3} (learn : ¬K .learn) (ha3 : Kept K z a3) : Kept K z (l2Move a0 a1 a2 a3) := by
  unfold l2Move
  extract_lets +onlyGivenNames -merge -useContext u0 u1 u2 u3 u4 u5 u6 u7
  refine Kept.ite (P := Kept K z) ?_ ?_
  · extract_lets +onlyGivenNames -merge -useContext u8
    have h9 : Kept K z u8 := (State.setTab_kept ha3)
    try clear_value u8
    extract_lets +onlyGivenNames -merge -useContext u10
    have h11 : Kept K z u10 := (raise_kept (bump_kept h9))
    try clear_value u10
    exact (notifyPush_kept learn h11)
  · extract_lets +onlyGivenNames -merge -useContext u12
    have h13 : Kept K z u12 := (State.setTab_kept ha3)
    try clear_value u12
    extract_lets +onlyGivenNames -merge -useContext u14
    have h15 : Kept K z u14 := (bump_kept h13)
    try clear_value u14
    exact (notifyPush_kept learn h15)

theorem l2Learn_kept {z a0 a1 a2 a3 a4} (learn : ¬K .learn) (ha4 : Kept K z a4) : Kept K z (l2Learn a0 a1 a2 a3 a4)
    := by
  unfold l2Learn
  extract_lets +onlyGivenNames -merge -useContext u0
  split
  · rename_i m1 m2 q3
    have h4 : Kept K z m2 := Kept.of_eq (P := fun x : Option (ℕ × Bool) × State => Kept K z x.2) q3 (placeEntry_kept
        learn ha4)
    exact (notifyPush_kept learn (bump_kept h4))
  · rename_i m5 q6
    have h7 : Kept K z m5 := Kept.of_eq (P := fun x : Option (ℕ × Bool) × State => Kept K z x.2) q6 (placeEntry_kept
        learn ha4)
    exact (l2LearnRej_kept learn h7)

theorem l2Apply_kept {z a0 a1} (learn : ¬K .learn) (ha1 : Kept K z a1) : Kept K z (l2Apply a0 a1) := by
  unfold l2Apply
  split
  · exact (l2Learn_kept learn ha1)
  · exact (Kept.ite (P := Kept K z) (l2LearnRej_kept learn ha1) (Kept.ite (P := Kept K z) (l2Refresh_kept ha1)
      (Kept.ite (P := Kept K z) (bump_kept ha1) (Kept.ite (P := Kept K z) (bump_kept ha1) (l2Move_kept learn ha1)))))

theorem learnPush_kept {z a0 a1} (learn : ¬K .learn) (ha1 : Kept K z a1) : Kept K z (learnPush a0 a1) :=
  (Kept.ite (P := Kept K z) (bump_kept ha1) (Kept.same ha1 rfl (Area.each (fun _ => Area.f5) (fun _ => Area.f5) (fun
      _ => rfl) (fun _ => Area.f5) (absurd · learn) (fun _ => rfl) (fun _ => Area.f4) (fun _ => Area.f8))))

theorem sourceLookup_kept {z a0 a1 a2 a3 a4 a5 a6} (learn : ¬K .learn) (ha6 : Kept K z a6) : Kept K z (sourceLookup
    a0 a1 a2 a3 a4 a5 a6) := by
  unfold sourceLookup
  refine Kept.ite (P := Kept K z) ?_ ?_
  · exact (bump_kept ha6)
  · split
    · exact (Kept.ite (P := Kept K z) (learnPush_kept learn ha6) (notifyReport_kept learn ha6))
    · extract_lets +onlyGivenNames -merge -useContext u2
      exact (Kept.ite (P := Kept K z) ha6 (Kept.ite (P := Kept K z) (learnPush_kept learn ha6) (Kept.ite (P := Kept
          K z) (bump_kept ha6) (Kept.ite (P := Kept K z) (bump_kept ha6) (Kept.ite (P := Kept K z) (learnPush_kept
          learn ha6) (notifyReport_kept learn ha6))))))

theorem execLearnUpdate_kept {z a0 a1} (learn : ¬K .learn) (ha1 : Kept K z a1) : ∀ t, (execLearnUpdate a0 a1) =
    .next t → Kept K z t := by
  unfold execLearnUpdate
  refine done_kept ?_
  refine State.ifLive_kept ?_ ?_
  · exact ha1
  · intro a9 h10
    split
    · exact h10
    · exact (l2Apply_kept learn (Kept.same h10 rfl (Area.each (fun _ => Area.f5) (fun _ => Area.f5) (fun _ => rfl)
        (fun _ => Area.f5) (absurd · learn) (fun _ => rfl) (fun _ => Area.f4) (fun _ => Area.f8))))

theorem execMoveTick_kept {z a0} (time : ¬K .time) (ha0 : Kept K z a0) : ∀ t, (execMoveTick a0) = .next t → Kept K z
    t :=
  (done_kept (State.ifLive_kept ha0 (fun _ h0 => (atInstant_kept time (fun _ h1 => (moveTick_kept h1)) h0))))

theorem execAgeTick_kept {z a0} (time : ¬K .time) (ha0 : Kept K z a0) : ∀ t, (execAgeTick a0) = .next t → Kept K z t
    :=
  (done_kept (State.ifLive_kept ha0 (fun _ h0 => (atInstant_kept time (fun _ h1 => (ageTick_kept h1)) h0))))

theorem moveVisit_kept {z a0 a1 a2 a3 a4} (ha4 : Kept K z a4) : Kept K z (moveVisit a0 a1 a2 a3 a4) := by
  unfold moveVisit
  extract_lets +onlyGivenNames -merge -useContext u0 u1
  exact (Kept.ite (P := Kept K z) (State.setTab_kept ha4) ha4)

theorem ageVisit_kept {z a0 a1 a2 a3 a4 a5} (learn : ¬K .learn) (ha5 : Kept K z a5) : Kept K z (ageVisit a0 a1 a2 a3
    a4 a5) := by
  unfold ageVisit
  extract_lets +onlyGivenNames -merge -useContext u0 u1
  refine Kept.ite (P := Kept K z) ?_ ?_
  · refine Kept.ite (P := Kept K z) ?_ ?_
    · extract_lets +onlyGivenNames -merge -useContext u2
      have h3 : Kept K z u2 := (bump_kept (putEntry_kept ha5))
      try clear_value u2
      exact (notifyPush_kept learn h3)
    · exact (moveVisit_kept (bump_kept ha5))
  · exact (moveVisit_kept ha5)

theorem scanRead_kept {z a0 a1 a2} (ha2 : Kept K z a2) : Kept K z (scanRead a0 a1 a2) := by
  unfold scanRead
  extract_lets +onlyGivenNames -merge -useContext u0
  exact (State.setH_kept (State.setTab_kept ha2))

theorem scanWrite_kept {z a0 a1 a2} (learn : ¬K .learn) (ha2 : Kept K z a2) : Kept K z (scanWrite a0 a1 a2) := by
  unfold scanWrite
  extract_lets +onlyGivenNames -merge -useContext u0
  exact (Kept.ite (P := Kept K z) (ageVisit_kept learn (State.setH_kept (State.setTab_kept ha2))) ha2)

theorem execAgeScanVisit_kept {z a0 a1 a2 a3} (learn : ¬K .learn) (ha3 : Kept K z a3) : ∀ t, (execAgeScanVisit a0 a1
    a2 a3) = .next t → Kept K z t := by
  unfold execAgeScanVisit
  refine done_kept ?_
  refine State.ifLive_kept ?_ ?_
  · exact ha3
  · intro a10 h11
    split
    · exact (scanRead_kept h11)
    · exact (scanWrite_kept learn h11)
    · exact (scanWrite_kept learn (scanRead_kept h11))

theorem notifyPop_kept {z a0 a1} (learn : ¬K .learn) (ha1 : Kept K z a1) : Kept K z (notifyPop a0 a1) := by
  unfold notifyPop
  refine Kept.ite (P := Kept K z) ?_ ?_
  · extract_lets +onlyGivenNames -merge -useContext u0
    have h1 : Kept K z u0 := by
      unfold u0
      exact (Kept.sub ha1 rfl rfl (.refl _) (.refl _) (.refl _) (.refl _) (.refl _) (.refl _) (List.drop_sublist _
          _) (Area.each (fun _ => Area.f5) (fun _ => Area.f5) (fun _ => rfl) (fun _ => Area.f5) (absurd · learn)
          (fun _ => rfl) (fun _ => Area.f4) (fun _ => Area.f8)))
    try clear_value u0
    exact (State.setReg_kept h1)
  · exact ha1

theorem execNotifyPop_kept {z a0 a1 a2} (learn : ¬K .learn) (ha2 : Kept K z a2) : ∀ t, (execNotifyPop a0 a1 a2) =
    .next t → Kept K z t :=
  (done_kept (gateWrite_kept (fun _ h0 => (notifyPop_kept learn h0)) ha2))

theorem scrubFail_kept {z a0 a1 a2 a3} (learn : ¬K .learn) (ha3 : Kept K z a3) : Kept K z (scrubFail a0 a1 a2 a3) :=
    by
  unfold scrubFail
  extract_lets +onlyGivenNames -merge -useContext u0
  have h1 : Kept K z u0 := (bump_kept ha3)
  try clear_value u0
  extract_lets +onlyGivenNames -merge -useContext u2
  have h3 : Kept K z u2 := (errBy_kept h1)
  try clear_value u2
  extract_lets +onlyGivenNames -merge -useContext u4
  have h5 : Kept K z u4 := (raiseFault_kept h3)
  try clear_value u4
  extract_lets +onlyGivenNames -merge -useContext u6
  refine Kept.ite (P := Kept K z) ?_ ?_
  · extract_lets +onlyGivenNames -merge -useContext u7
    extract_lets +onlyGivenNames -merge -useContext u8
    have h9 : Kept K z u8 := (putEntry_kept h5)
    try clear_value u8
    exact (notifyPush_kept learn h9)
  · exact (setParBad_kept h5)

theorem execTableScrub_kept {z a0 a1 a2 a3 a4} (learn : ¬K .learn) (ha4 : Kept K z a4) : ∀ t, (execTableScrub a0 a1
    a2 a3 a4) = .next t → Kept K z t :=
  (done_kept (State.ifLive_kept ha4 (fun _ h0 => (Kept.ite (P := Kept K z) h0 (scrubFail_kept learn h0)))))

theorem execLpmNodeRepair_kept {z a0 a1 a2} (ha2 : Kept K z a2) : ∀ t, (execLpmNodeRepair a0 a1 a2) = .next t → Kept
    K z t := by
  unfold execLpmNodeRepair
  refine done_kept ?_
  refine State.ifLive_kept ?_ ?_
  · exact ha2
  · intro a8 h9
    refine Kept.ite (P := Kept K z) ?_ ?_
    · exact h9
    · refine Kept.ite (P := Kept K z) ?_ ?_
      · exact (bump_kept (setParBad_kept h9))
      · extract_lets +onlyGivenNames -merge -useContext u10
        exact (raiseFault_kept (errBy_kept h9))

theorem seedWrite_kept {z a0 a1 a2 a3} (ha3 : Kept K z a3) : Kept K z (seedWrite a0 a1 a2 a3) := by
  unfold seedWrite
  extract_lets +onlyGivenNames -merge -useContext u0
  exact (Kept.ite (P := Kept K z) (errReq_kept ha3) (State.setReg_kept ha3))

theorem execSeedWrite_kept {z a0 a1 a2 a3} (ha3 : Kept K z a3) : ∀ t, (execSeedWrite a0 a1 a2 a3) = .next t → Kept K
    z t :=
  (done_kept (gateWrite_kept (fun _ h0 => (seedWrite_kept h0)) ha3))

end Sys2Proof.Machine
end

