-- ==== Sys2Proof/Laws/KeptQueue.lean ====
section
/-!
SUPPORT. Every operation and meaning of Machine/Queue.lean keeps the state sane, its queue as it is and its outputs made.
-/
namespace Sys2Proof.Machine

variable {K : Area → Prop}

theorem ageRaise_kept {z a0} (frames : ¬K .frames) (ha0 : Kept K z a0) : Kept K z (ageRaise a0) := by
  unfold ageRaise
  extract_lets +onlyGivenNames -merge -useContext u0 u1
  have h2 : Kept K z u1 := (Kept.same ha0 rfl (Area.each (absurd · frames) (fun _ => Area.f5) (fun _ => rfl) (fun _
      => Area.f5) (fun _ => Area.f3) (fun _ => rfl) (fun _ => Area.f4) (fun _ => Area.f8)))
  try clear_value u1
  exact (Kept.ite (P := Kept K z) (State.setH_kept h2) h2)

theorem onward_kept {z a0 a1 a2} (frames : ¬K .frames) (ha2 : Kept K z a2) : Kept K z (onward a0 a1 a2) := by
  unfold onward
  extract_lets +onlyGivenNames -merge -useContext u0
  exact (Kept.ite (P := Kept K z) (State.moveFrame_kept frames ha2) (bridgeTo_kept frames ha2))

theorem endStarted_kept {z a0 a1 a2} (frames : ¬K .frames) (ha2 : Kept K z a2) : Kept K z (endStarted a0 a1 a2) := by
  unfold endStarted
  extract_lets +onlyGivenNames -merge -useContext u0
  exact (Kept.ite (P := Kept K z) (State.putFrame_kept frames ha2) (State.putFrame_kept frames ha2))

theorem endQueued_kept {z a0 a1 a2 a3} (frames : ¬K .frames) (ha3 : Kept K z a3) : Kept K z (endQueued a0 a1 a2 a3)
    := by
  unfold endQueued
  split
  · exact ha3
  · extract_lets +onlyGivenNames -merge -useContext u2
    have h3 : Kept K z u2 := (Kept.ite (P := Kept K z) (onward_kept frames (freeCells_kept frames ha3)) ha3)
    try clear_value u2
    split
    · exact (endStarted_kept frames h3)
    · exact h3

theorem queueDrop_kept {z a0 a1 a2} (frames : ¬K .frames) (ha2 : Kept K z a2) : Kept K z (queueDrop a0 a1 a2) :=
  (fsCount_kept (State.drop_kept frames ha2))

theorem cellUe_kept {z a0 a1 a2 a3 a4 a5} (frames : ¬K .frames) (ha5 : Kept K z a5) : Kept K z (cellUe a0 a1 a2 a3
    a4 a5) := by
  unfold cellUe
  split
  · exact ha5
  · exact (errInt_kept (Kept.ite (P := Kept K z) (endQueued_kept frames ha5) (bump_kept (queueDrop_kept frames ha5))))

theorem retStall_kept {z a0 a1} (ha1 : Kept K z a1) : Kept K z (retStall a0 a1) := by
  unfold retStall
  extract_lets +onlyGivenNames -merge -useContext u0
  exact (Kept.ite (P := Kept K z) (bumpBy_kept ha1) ha1)

theorem credSend_kept {z a0 a1 a2} (fabric : ¬K .fabric) (ha2 : Kept K z a2) : Kept K z (credSend a0 a1 a2) :=
  (Kept.same ha2 rfl (Area.each (fun _ => Area.f5) (absurd · fabric) (fun _ => rfl) (fun _ => Area.f5) (fun _ =>
      Area.f3) (fun _ => rfl) (fun _ => Area.f4) (fun _ => Area.f8)))

theorem sendStatus_kept {z a0 a1} (fabric : ¬K .fabric) (ha1 : Kept K z a1) : Kept K z (sendStatus a0 a1) := by
  unfold sendStatus
  split
  · exact (credSend_kept fabric (bump_kept (State.setH_kept ha1)))
  · exact ha1

theorem voqEval_kept {z a0 a1} (fabric : ¬K .fabric) (ha1 : Kept K z a1) : Kept K z (voqEval a0 a1) :=
  (Kept.ite (P := Kept K z) (sendStatus_kept fabric (State.setHb_kept ha1)) ha1)

theorem reachGained_kept {z a0 a1} (fabric : ¬K .fabric) (ha0 : Kept K z a0) (ha1 : Kept K z a1) : Kept K z
    (reachGained a0 a1) :=
  (Kept.ite (P := Kept K z) ha1 (forEach_kept ha1 (fun _ _ h0 => (Kept.ite (P := Kept K z) (sendStatus_kept fabric
      h0) h0))))

theorem ageCheck_kept {z a0 a1 a2 a3} (frames : ¬K .frames) (fabric : ¬K .fabric) (ha3 : Kept K z a3) : Kept K z
    (ageCheck a0 a1 a2 a3).2 := by
  unfold ageCheck
  split
  · try dsimp -zeta only
    exact ha3
  · extract_lets +onlyGivenNames -merge -useContext u2
    have h3 : Kept K z u2 := (fsCount_kept (raiseFirst_kept (bump_kept ha3)))
    try clear_value u2
    try dsimp -zeta only
    exact (voqEval_kept fabric (State.drop_kept frames h3))

theorem reparts_kept {z a0 a1 a2 a3} (frames : ¬K .frames) (ha3 : Kept K z a3) : Kept K z (reparts a0 a1 a2 a3) :=
  (forEach_kept ha3 (fun _ _ h0 => (State.putFrame_kept frames h0)))

theorem toShallow_kept {z a0 a1} (frames : ¬K .frames) (ha1 : Kept K z a1) : Kept K z (toShallow a0 a1) := by
  unfold toShallow
  extract_lets +onlyGivenNames -merge -useContext u0 u1
  have h2 : Kept K z u1 := (State.setReg_kept ha1)
  try clear_value u1
  extract_lets +onlyGivenNames -merge -useContext u3
  have h4 : Kept K z u3 := (State.setReg_kept h2)
  try clear_value u3
  exact (bump_kept (State.setH_kept (reparts_kept frames h4)))

theorem queueUpdate_kept {z a0 a1} (frames : ¬K .frames) (ha1 : Kept K z a1) : Kept K z (queueUpdate a0 a1) := by
  unfold queueUpdate
  extract_lets +onlyGivenNames -merge -useContext u0
  have h1 : Kept K z u0 := (Kept.ite (P := Kept K z) (bump_kept (State.setH_kept ha1)) ha1)
  try clear_value u0
  extract_lets +onlyGivenNames -merge -useContext u2
  have h3 : Kept K z u2 := (Kept.ite (P := Kept K z) (bump_kept (State.setH_kept h1)) h1)
  try clear_value u2
  exact (Kept.ite (P := Kept K z) (toShallow_kept frames h3) h3)

theorem queueLeft_kept {z a0 a1} (frames : ¬K .frames) (fabric : ¬K .fabric) (ha1 : Kept K z a1) : Kept K z
    (queueLeft a0 a1) :=
  (voqEval_kept fabric (queueUpdate_kept frames ha1))

end Sys2Proof.Machine
end

