-- ==== Sys2Proof/Laws/KeptWindow.lean ====
section
/-!
SUPPORT. Every operation and meaning of Machine/Window.lean keeps the state sane, its queue as it is and its outputs made.
-/
namespace Sys2Proof.Machine

variable {K : Area → Prop}

theorem setWinData_kept {z a0 a1 a2 a3} (ha3 : Kept K z a3) : Kept K z (setWinData a0 a1 a2 a3) :=
  (forEach_kept ha3 (fun _ _ h0 => (State.setReg_kept h0)))

theorem Win.fail_kept {z a0 a1 a2} (ha2 : Kept K z a2) : Kept K z (Win.fail a0 a1 a2).1 := by
  unfold Win.fail
  split
  · rename_i m0 m1 q2
    have h3 : Kept K z m0 := Kept.of_eq (P := fun x : State × ℕ => Kept K z x.1) q2 (tblFail_kept ha2)
    try dsimp -zeta only
    exact h3

theorem Win.ok_kept {z a0 a1} (ha1 : Kept K z a1) : Kept K z (Win.ok a0 a1).1 := by
  unfold Win.ok
  try dsimp -zeta only
  exact ha1

theorem Win.read_kept {z a0 a1 a2 a3} (ha3 : Kept K z a3) : Kept K z (Win.read a0 a1 a2 a3).1 := by
  unfold Win.read
  refine Kept.ite (P := fun x : State × ℕ × Option ℕ => Kept K z x.1) ?_ ?_
  · exact (Win.ok_kept ha3)
  · exact (Win.fail_kept ha3)

theorem tblRun_kept {z a0 a1} {a2 : Win → State → TblRes} {a3} (ha2 : ∀ y0_0 y0_1, (Kept K z y0_1) → Kept K z (a2
    y0_0 y0_1).1) (ha3 : Kept K z a3) : Kept K z (tblRun a0 a1 a2 a3) := by
  unfold tblRun
  extract_lets +onlyGivenNames -merge -useContext u0 u1
  refine Kept.ite (P := Kept K z) ?_ ?_
  · exact (errBy_kept ha3)
  · split
    · rename_i m2 m3 m4 q5
      have h6 : Kept K z m2 := Kept.of_eq (P := fun x : TblRes => Kept K z x.1) q5 (ha2 _ _ ha3)
      extract_lets +onlyGivenNames -merge -useContext u7
      have h8 : Kept K z u7 := by
        unfold u7
        split
        · exact (setWinData_kept h6)
        · exact h6
      try clear_value u7
      exact (State.setH_kept (State.setReg_kept h8))

theorem tblCmd_kept {z a0 a1} {a2 : Win → State → TblRes} {a3} (ha2 : ∀ y0_0 y0_1, (Kept K z y0_1) → Kept K z (a2
    y0_0 y0_1).1) (ha3 : Kept K z a3) : Kept K z (tblCmd a0 a1 a2 a3) :=
  (gateWrite_kept (fun _ h0 => (tblRun_kept ha2 h0)) ha3)

theorem tblComplete_kept {z a0 a1 a2} (ha2 : Kept K z a2) : Kept K z (tblComplete a0 a1 a2) := by
  unfold tblComplete
  extract_lets +onlyGivenNames -merge -useContext u0 u1
  refine Kept.ite (P := Kept K z) ?_ ?_
  · exact ha2
  · extract_lets +onlyGivenNames -merge -useContext u2
    extract_lets +onlyGivenNames -merge -useContext u3
    have h4 : Kept K z u3 := (State.setH_kept ha2)
    try clear_value u3
    exact (Kept.ite (P := Kept K z) (State.setReg_kept h4) (State.setReg_kept h4))

end Sys2Proof.Machine
end

