-- ==== Sys2Proof/Laws/KeptDram.lean ====
section
/-!
SUPPORT. Every operation and meaning of Machine/Dram.lean keeps the state sane, its queue as it is and its outputs made.
-/
namespace Sys2Proof.Machine

variable {K : Area → Prop}

theorem setUeMark_kept {z a0 a1 a2 a3 a4} (ha4 : Kept K z a4) : Kept K z (setUeMark a0 a1 a2 a3 a4) :=
  (State.setTab_kept ha4)

theorem dramCe_kept {z a0 a1 a2 a3} (ha3 : Kept K z a3) : Kept K z (dramCe a0 a1 a2 a3) := by
  unfold dramCe
  extract_lets +onlyGivenNames -merge -useContext u0
  have h1 : Kept K z u0 := (raiseFirst_kept (bump_kept ha3))
  try clear_value u0
  refine forEach_kept ?_ ?_
  · exact h1
  · intro a4 a5 h6
    split
    · extract_lets +onlyGivenNames -merge -useContext u9
      extract_lets +onlyGivenNames -merge -useContext u10 u11
      have h12 : Kept K z u11 := (State.setH_kept (bump_kept h6))
      try clear_value u11
      refine Kept.ite (P := Kept K z) ?_ ?_
      · extract_lets +onlyGivenNames -merge -useContext u13
        exact (raiseFault_kept (Kept.ite (P := Kept K z) h12 (State.setReg_kept h12)))
      · exact h12

theorem dramUe_kept {z a0 a1 a2 a3 a4} (ha4 : Kept K z a4) : Kept K z (dramUe a0 a1 a2 a3 a4) := by
  unfold dramUe
  extract_lets +onlyGivenNames -merge -useContext u0
  have h1 : Kept K z u0 := (bump_kept ha4)
  try clear_value u0
  extract_lets +onlyGivenNames -merge -useContext u2
  have h3 : Kept K z u2 := (Kept.ite (P := Kept K z) h1 (State.setReg_kept (State.setReg_kept h1)))
  try clear_value u2
  exact (raiseFault_kept h3)

theorem rhCount_kept {z a0 a1 a2 a3} (dram : ¬K .dram) (ha3 : Kept K z a3) : Kept K z (rhCount a0 a1 a2 a3) := by
  unfold rhCount
  extract_lets +onlyGivenNames -merge -useContext u0 u1 u2
  split
  · extract_lets +onlyGivenNames -merge -useContext u5
    extract_lets +onlyGivenNames -merge -useContext u6
    have h7 : Kept K z u6 := (Kept.same ha3 rfl (Area.each (fun _ => Area.f5) (fun _ => Area.f5) (fun _ => rfl) (fun
        _ => Area.f5) (fun _ => Area.f3) (fun _ => rfl) (absurd · dram) (fun _ => Area.f8)))
    try clear_value u6
    exact (Kept.ite (P := Kept K z) (bumpBy_kept h7) h7)

theorem rhCandidate_kept {z a0 a1 a2 a3 a4} (dram : ¬K .dram) (ha4 : Kept K z a4) : Kept K z (rhCandidate a0 a1 a2
    a3 a4) := by
  unfold rhCandidate
  extract_lets +onlyGivenNames -merge -useContext u0 u1 u2 u3
  have h4 : Kept K z u3 := (Kept.same ha4 rfl (Area.each (fun _ => Area.f5) (fun _ => Area.f5) (fun _ => rfl) (fun _
      => Area.f5) (fun _ => Area.f3) (fun _ => rfl) (absurd · dram) (fun _ => Area.f8)))
  try clear_value u3
  exact (Kept.ite (P := Kept K z) (raise_kept (bumpBy_kept (State.setHb_kept h4))) h4)

theorem rollCount_kept {z a0 a1 a2} (ha2 : Kept K z a2) : Kept K z (rollCount a0 a1 a2) := by
  unfold rollCount
  extract_lets +onlyGivenNames -merge -useContext u0
  exact (Kept.ite (P := Kept K z) (bumpBy_kept (State.setH_kept ha2)) (State.setH_kept ha2))

theorem activate_kept {z a0 a1 a2 a3 a4} (time : ¬K .time) (dram : ¬K .dram) (ha4 : Kept K z a4) : Kept K z
    (activate a0 a1 a2 a3 a4) := by
  unfold activate
  extract_lets +onlyGivenNames -merge -useContext u0 u1
  have h2 : Kept K z u1 := (Kept.ite (P := Kept K z) (waitRoot_kept time ha4) ha4)
  try clear_value u1
  extract_lets +onlyGivenNames -merge -useContext u3
  have h4 : Kept K z u3 := (State.setH_kept (State.setH_kept h2))
  try clear_value u3
  extract_lets +onlyGivenNames -merge -useContext u5
  have h6 : Kept K z u5 := (rollCount_kept (bumpBy_kept h4))
  try clear_value u5
  exact (Kept.ite (P := Kept K z) (rhCandidate_kept dram h6) (rhCount_kept dram h6))

theorem rowUse_kept {z a0 a1 a2 a3 a4} (time : ¬K .time) (dram : ¬K .dram) (ha4 : Kept K z a4) : Kept K z (rowUse a0
    a1 a2 a3 a4) := by
  unfold rowUse
  extract_lets +onlyGivenNames -merge -useContext u0 u1
  have h2 : Kept K z u1 := (Kept.ite (P := Kept K z) ha4 (activate_kept time dram ha4))
  try clear_value u1
  extract_lets +onlyGivenNames -merge -useContext u3 u4
  have h5 : Kept K z u4 := (Kept.ite (P := Kept K z) (State.setH_kept h2) h2)
  try clear_value u4
  exact (State.setH_kept h5)

theorem foldStall_kept {z a0} (ha0 : Kept K z a0) : Kept K z (foldStall a0) :=
  (Kept.ite (P := Kept K z) (raise_kept (State.setRbit_kept ha0)) ha0)

theorem deepRead_kept {z a0 a1 a2} (ha2 : Kept K z a2) : Kept K z (deepRead a0 a1 a2).2 := by
  unfold deepRead
  split
  · try dsimp -zeta only
    exact ha2
  · refine Kept.ite (P := fun x : ℕ × State => Kept K z x.2) ?_ ?_
    · split
      · rename_i m3 m4 q5
        have h6 : Kept K z m4 := Kept.of_eq (P := fun x : List ℕ × State => Kept K z x.2) q5 (by
          refine Kept.foldl (P := fun x : List ℕ × State => Kept K z x.2) ?_ ?_
          · try dsimp -zeta only
            exact ha2
          · intro x8 y9 h7
            split
            · rename_i m10 m11 q12
              have h13 : Kept K z m11 := Kept.of_eq (P := fun x : ℕ × State => Kept K z x.2) q12 (State.free_kept h7)
              try dsimp -zeta only
              exact h13)
        try dsimp -zeta only
        exact h6
    · try dsimp -zeta only
      exact ha2

theorem deepWrite_kept {z a0 a1 a2 a3} (memory : ¬K .memory) (ha3 : Kept K z a3) : Kept K z (deepWrite a0 a1 a2 a3)
    := by
  unfold deepWrite
  extract_lets +onlyGivenNames -merge -useContext u0
  have h1 : Kept K z u0 := (setUeMark_kept ha3)
  try clear_value u0
  split
  · exact (forEach_kept h1 (fun _ _ h4 => (State.setTab_kept h4)))
  · extract_lets +onlyGivenNames -merge -useContext u6
    have h7 : Kept K z u6 := (Kept.ite (P := Kept K z) (State.setTab_kept h1) h1)
    try clear_value u6
    exact (State.wrMem_kept memory h7)

theorem unqueue_kept {z a0 a1} (ha1 : Kept K z a1) : Kept K z (unqueue a0 a1) :=
  (Kept.ite (P := Kept K z) (State.setRfld_kept (State.setHb_kept ha1)) ha1)

theorem foldPair_kept {z a0 a1} (ha1 : Kept K z a1) : Kept K z (foldPair a0 a1) := by
  unfold foldPair
  extract_lets +onlyGivenNames -merge -useContext u0
  have h1 : Kept K z u0 := (fsTouch_kept ha1)
  try clear_value u0
  exact (bump_kept (unqueue_kept (State.setTab_kept (State.setTab_kept h1))))

theorem opWait_kept {z a0 a1} (dram : ¬K .dram) (ha1 : Kept K z a1) : Kept K z (opWait a0 a1) :=
  (Kept.same ha1 rfl (Area.each (fun _ => Area.f5) (fun _ => Area.f5) (fun _ => rfl) (fun _ => Area.f5) (fun _ =>
      Area.f3) (fun _ => rfl) (absurd · dram) (fun _ => Area.f8)))

theorem patrolStep_kept {z a0 a1} (ha1 : Kept K z a1) : Kept K z (patrolStep a0 a1) := by
  unfold patrolStep
  extract_lets +onlyGivenNames -merge -useContext u0
  refine Kept.ite (P := Kept K z) ?_ ?_
  · exact (State.setH_kept ha1)
  · extract_lets +onlyGivenNames -merge -useContext u1
    have h2 : Kept K z u1 := (State.setH_kept ha1)
    try clear_value u1
    extract_lets +onlyGivenNames -merge -useContext u3 u4
    refine Kept.ite (P := Kept K z) ?_ ?_
    · exact (State.setReg_kept h2)
    · extract_lets +onlyGivenNames -merge -useContext u5
      have h6 : Kept K z u5 := (forEach_kept h2 (fun _ _ h7 => (State.setH_kept h7)))
      try clear_value u5
      exact (raise_kept (State.setReg_kept h6))

theorem swDone_kept {z a0 a1 a2} (ha2 : Kept K z a2) : Kept K z (swDone a0 a1 a2) := by
  unfold swDone
  split
  · exact ha2
  · extract_lets +onlyGivenNames -merge -useContext u2
    split
    · rename_i m3 m4 q5
      have h6 : Kept K z m3 := Kept.of_eq (P := fun x : State × ℕ => Kept K z x.1) q5 (by
        refine Kept.ite (P := fun x : State × ℕ => Kept K z x.1) ?_ ?_
        · try dsimp -zeta only
          exact ha2
        · exact (tblFail_kept ha2))
      extract_lets +onlyGivenNames -merge -useContext u7
      have h8 : Kept K z u7 := (Kept.ite (P := Kept K z) h6 (setWinData_kept h6))
      try clear_value u7
      exact (tblComplete_kept (State.setH_kept h8))

theorem opDeliver_kept {z a0 a1 a2 a3} (frames : ¬K .frames) (dram : ¬K .dram) (ha3 : Kept K z a3) : Kept K z
    (opDeliver a0 a1 a2 a3) := by
  unfold opDeliver
  split
  · exact (Kept.same ha3 rfl (Area.each (absurd · frames) (fun _ => Area.f5) (fun _ => rfl) (fun _ => Area.f5) (fun
      _ => Area.f3) (fun _ => rfl) (fun _ => Area.f4) (fun _ => Area.f8)))
  · exact (Kept.same ha3 rfl (Area.each (absurd · frames) (fun _ => Area.f5) (fun _ => rfl) (fun _ => Area.f5) (fun
      _ => Area.f3) (fun _ => rfl) (fun _ => Area.f4) (fun _ => Area.f8)))
  · exact (Kept.ite (P := Kept K z) ha3 (opWait_kept dram ha3))
  · refine Kept.ite (P := Kept K z) ?_ ?_
    · exact ha3
    · extract_lets +onlyGivenNames -merge -useContext u4
      have h5 : Kept K z u4 := (Kept.ite (P := Kept K z) (bump_kept ha3) ha3)
      try clear_value u4
      extract_lets +onlyGivenNames -merge -useContext u6
      have h7 : Kept K z u6 := (faultRecord_kept (bump_kept h5))
      try clear_value u6
      extract_lets +onlyGivenNames -merge -useContext u8
      have h9 : Kept K z u8 := (Kept.ite (P := Kept K z) h5 (Kept.ite (P := Kept K z) (bump_kept h7) (opWait_kept
          dram h7)))
      try clear_value u8
      exact (patrolStep_kept h9)
  · exact (swDone_kept ha3)

theorem opLost_kept {z a0 a1} (frames : ¬K .frames) (dram : ¬K .dram) (ha1 : Kept K z a1) : Kept K z (opLost a0 a1)
    := by
  unfold opLost
  split
  · rename_i m0 m1 q2
    have h3 : Kept K z m1 := Kept.of_eq (P := fun x : ℕ × State => Kept K z x.2) q2 (State.free_kept ha1)
    exact (opDeliver_kept frames dram (dramUe_kept h3))

theorem opAsk_kept {z a0 a1} (frames : ¬K .frames) (dram : ¬K .dram) (ha1 : Kept K z a1) : Kept K z (opAsk a0 a1) :=
  (Kept.ite (P := Kept K z) (opWait_kept dram ha1) (opLost_kept frames dram ha1))

theorem pageAsk_kept {z a0 a1 a2 a3 a4} (frames : ¬K .frames) (dram : ¬K .dram) (ha4 : Kept K z a4) : Kept K z
    (pageAsk a0 a1 a2 a3 a4) :=
  (forEach_kept ha4 (fun _ _ h0 => (opAsk_kept frames dram h0)))

theorem foldAsk_kept {z a0 a1} (frames : ¬K .frames) (dram : ¬K .dram) (ha1 : Kept K z a1) : Kept K z (foldAsk a0
    a1) := by
  unfold foldAsk
  refine Kept.ite (P := Kept K z) ?_ ?_
  · exact ha1
  · split
    · exact (opAsk_kept frames dram ha1)

theorem opReach_kept {z a0 a1} (memory : ¬K .memory) (dram : ¬K .dram) (ha1 : Kept K z a1) : Kept K z (opReach a0
    a1).2 := by
  unfold opReach
  extract_lets +onlyGivenNames -merge -useContext u0 u1 u2
  have h3 : Kept K z u2 := (bumpBy_kept ha1)
  try clear_value u2
  extract_lets +onlyGivenNames -merge -useContext u4
  have h5 : Kept K z u4 := (Kept.ite (P := Kept K z) ha1 (Kept.same h3 rfl (Area.each (fun _ => Area.f5) (fun _ =>
      Area.f5) (fun _ => rfl) (fun _ => Area.f5) (fun _ => Area.f3) (fun _ => rfl) (absurd · dram) (fun _ =>
      Area.f8))))
  try clear_value u4
  extract_lets +onlyGivenNames -merge -useContext u6
  split
  · extract_lets +onlyGivenNames -merge -useContext u8
    have h9 : Kept K z u8 := (forEach_kept (setUeMark_kept h5) (fun _ _ h10 => (State.setTab_kept h10)))
    try clear_value u8
    try dsimp -zeta only
    exact (State.setH_kept h9)
  · refine Kept.ite (P := fun x : DramOp × State => Kept K z x.2) ?_ ?_
    · try dsimp -zeta only
      exact (Kept.ite (P := Kept K z) (foldPair_kept h5) h5)
    · try dsimp -zeta only
      exact h5
  · refine Kept.ite (P := fun x : DramOp × State => Kept K z x.2) ?_ ?_
    · try dsimp -zeta only
      exact (deepWrite_kept memory h5)
    · split
      · rename_i m13 m14 q15
        have h16 : Kept K z m14 := Kept.of_eq (P := fun x : ℕ × State => Kept K z x.2) q15 (deepRead_kept h5)
        try dsimp -zeta only
        exact h16
  · try dsimp -zeta only
    exact h5

theorem arbStep_kept {z a0 a1} (ha1 : Kept K z a1) : Kept K z (arbStep a0 a1) := by
  unfold arbStep
  extract_lets +onlyGivenNames -merge -useContext u0 u1 u2
  exact (State.setH_kept (State.setHb_kept (State.setH_kept (State.setH_kept ha1))))

theorem opServe_kept {z a0 a1} (memory : ¬K .memory) (time : ¬K .time) (dram : ¬K .dram) (ha1 : Kept K z a1) : Kept
    K z (opServe a0 a1) := by
  unfold opServe
  refine Kept.ite (P := Kept K z) ?_ ?_
  · exact ha1
  · split
    · exact ha1
    · extract_lets +onlyGivenNames -merge -useContext u2
      have h3 : Kept K z u2 := (Kept.same ha1 rfl (Area.each (fun _ => Area.f5) (fun _ => Area.f5) (fun _ => rfl)
          (fun _ => Area.f5) (fun _ => Area.f3) (fun _ => rfl) (absurd · dram) (fun _ => Area.f8)))
      try clear_value u2
      extract_lets +onlyGivenNames -merge -useContext u4 u5
      have h6 : Kept K z u5 := (bump_kept (rowUse_kept time dram (arbStep_kept h3)))
      try clear_value u5
      split
      · rename_i m7 m8 q9
        have h10 : Kept K z m8 := Kept.of_eq (P := fun x : DramOp × State => Kept K z x.2) q9 (opReach_kept memory
            dram h6)
        exact (Kept.same h10 rfl (Area.each (fun _ => Area.f5) (fun _ => Area.f5) (fun _ => rfl) (fun _ => Area.f5)
            (fun _ => Area.f3) (fun _ => rfl) (absurd · dram) (fun _ => Area.f8)))

theorem execDramOperation_kept {z a0 a1} (memory : ¬K .memory) (time : ¬K .time) (dram : ¬K .dram) (ha1 : Kept K z
    a1) : ∀ t, (execDramOperation a0 a1) = .next t → Kept K z t :=
  (done_kept (State.ifLive_kept ha1 (fun _ h0 => (opServe_kept memory time dram h0))))

theorem retrainBegin_kept {z a0 a1} (ha1 : Kept K z a1) : Kept K z (retrainBegin a0 a1) :=
  (Kept.ite (P := Kept K z) (raise_kept (bump_kept (State.setH_kept ha1))) ha1)

theorem opEnd_kept {z a0 a1 a2} (frames : ¬K .frames) (dram : ¬K .dram) (ha2 : Kept K z a2) : Kept K z (opEnd a0 a1
    a2) := by
  unfold opEnd
  refine Kept.ite (P := Kept K z) ?_ ?_
  · exact (opDeliver_kept frames dram ha2)
  · extract_lets +onlyGivenNames -merge -useContext u0
    extract_lets +onlyGivenNames -merge -useContext u1
    refine Kept.ite (P := Kept K z) ?_ ?_
    · extract_lets +onlyGivenNames -merge -useContext u2
      have h3 : Kept K z u2 := (Kept.ite (P := Kept K z) ha2 (setUeMark_kept ha2))
      try clear_value u2
      exact (opDeliver_kept frames dram (dramUe_kept h3))
    · exact (Kept.ite (P := Kept K z) (opDeliver_kept frames dram ha2) (opDeliver_kept frames dram (dramCe_kept ha2)))

theorem opDone_kept {z a0 a1 a2 a3} (frames : ¬K .frames) (dram : ¬K .dram) (ha3 : Kept K z a3) : Kept K z (opDone
    a0 a1 a2 a3) := by
  unfold opDone
  split
  · exact ha3
  · exact (Kept.ite (P := Kept K z) ha3 (retrainBegin_kept (opEnd_kept frames dram (Kept.same ha3 rfl (Area.each
      (fun _ => Area.f5) (fun _ => Area.f5) (fun _ => rfl) (fun _ => Area.f5) (fun _ => Area.f3) (fun _ => rfl)
      (absurd · dram) (fun _ => Area.f8))))))

theorem execDramOpComplete_kept {z a0 a1 a2 a3} (frames : ¬K .frames) (dram : ¬K .dram) (ha3 : Kept K z a3) : ∀ t,
    (execDramOpComplete a0 a1 a2 a3) = .next t → Kept K z t :=
  (done_kept (State.ifLive_kept ha3 (fun _ h0 => (opDone_kept frames dram h0))))

theorem opsLost_kept {z a0 a1} (frames : ¬K .frames) (dram : ¬K .dram) (ha1 : Kept K z a1) : Kept K z (opsLost a0
    a1) := by
  unfold opsLost
  extract_lets +onlyGivenNames -merge -useContext u0
  exact (forEach_kept (Kept.same ha1 rfl (Area.each (fun _ => Area.f5) (fun _ => Area.f5) (fun _ => rfl) (fun _ =>
      Area.f5) (fun _ => Area.f3) (fun _ => rfl) (absurd · dram) (fun _ => Area.f8))) (fun _ _ h1 => (opLost_kept
      frames dram h1)))

theorem dscTable_kept {z a0 a1 a2} (ha2 : Kept K z a2) : Kept K z (dscTable a0 a1 a2).1 := by
  unfold dscTable
  refine Kept.ite (P := fun x : State × ℕ × Option ℕ => Kept K z x.1) ?_ ?_
  · exact (Win.fail_kept ha2)
  · exact (Win.fail_kept ha2)

theorem deepRun_kept {z a0 a1 a2 a3} (frames : ¬K .frames) (dram : ¬K .dram) (ha3 : Kept K z a3) : Kept K z (deepRun
    a0 a1 a2 a3) := by
  unfold deepRun
  extract_lets +onlyGivenNames -merge -useContext u0 u1
  refine Kept.ite (P := Kept K z) ?_ ?_
  · exact (tblRun_kept (fun _ _ h3 => (dscTable_kept h3)) ha3)
  · extract_lets +onlyGivenNames -merge -useContext u4
    extract_lets +onlyGivenNames -merge -useContext u5
    have h6 : Kept K z u5 := (State.setReg_kept ha3)
    try clear_value u5
    extract_lets +onlyGivenNames -merge -useContext u7
    split
    · rename_i m8 m9 q10
      have h11 : Kept K z m9 := Kept.of_eq (P := fun x : ℕ × State => Kept K z x.2) q10 (by
        refine Kept.ite (P := fun x : ℕ × State => Kept K z x.2) ?_ ?_
        · exact (deepRead_kept h6)
        · try dsimp -zeta only
          exact h6)
      exact (opAsk_kept frames dram h11)

theorem swTouch_kept {z a0 a1 a2 a3} (time : ¬K .time) (dram : ¬K .dram) (ha3 : Kept K z a3) : Kept K z (swTouch a0
    a1 a2 a3) :=
  (bump_kept (rowUse_kept time dram ha3))

end Sys2Proof.Machine
end

