-- ==== Sys2Proof/Laws/KeptShaper.lean ====
section
/-!
SUPPORT. Every operation and meaning of Machine/Shaper.lean keeps the state sane, its queue as it is and its outputs made.
-/
namespace Sys2Proof.Machine

variable {K : Area → Prop}

theorem chargeMore_kept {z a0 a1 a2} (ha2 : Kept K z a2) : Kept K z (chargeMore a0 a1 a2) := by
  unfold chargeMore
  extract_lets +onlyGivenNames -merge -useContext u0
  exact (Kept.ite (P := Kept K z) (State.setH_kept (State.setH_kept ha2)) (State.setH_kept ha2))

theorem bktUpdate_kept {z a0 a1 a2} (ha2 : Kept K z a2) : Kept K z (bktUpdate a0 a1 a2) := by
  unfold bktUpdate
  refine Kept.ite (P := Kept K z) ?_ ?_
  · extract_lets +onlyGivenNames -merge -useContext u0
    extract_lets +onlyGivenNames -merge -useContext u1
    exact (State.setH_kept ha2)
  · exact ha2

theorem shpUpdate_kept {z a0 a1} (ha1 : Kept K z a1) : Kept K z (shpUpdate a0 a1) :=
  (State.setH_kept (bktUpdate_kept (bktUpdate_kept ha1)))

theorem setFret_kept {z a0 a1 a2 a3} (ha3 : Kept K z a3) : Kept K z (setFret a0 a1 a2 a3) := by
  unfold setFret
  extract_lets +onlyGivenNames -merge -useContext u0 u1
  have h2 : Kept K z u1 := (State.setReg_kept ha3)
  try clear_value u1
  exact (State.setH_kept (State.setH_kept h2))

theorem refile_kept {z a0 a1} (ha1 : Kept K z a1) : Kept K z (refile a0 a1) := by
  unfold refile
  extract_lets +onlyGivenNames -merge -useContext u0
  exact (Kept.ite (P := Kept K z) (setFret_kept ha1) (setFret_kept ha1))

theorem shpTake_kept {z a0 a1 a2} (ha2 : Kept K z a2) : Kept K z (shpTake a0 a1 a2) := by
  unfold shpTake
  refine Kept.ite (P := Kept K z) ?_ ?_
  · exact ha2
  · extract_lets +onlyGivenNames -merge -useContext u0
    have h1 : Kept K z u0 := (shpUpdate_kept ha2)
    try clear_value u0
    extract_lets +onlyGivenNames -merge -useContext u2
    have h3 : Kept K z u2 := (Kept.ite (P := Kept K z) (State.setH_kept h1) h1)
    try clear_value u2
    extract_lets +onlyGivenNames -merge -useContext u4
    have h5 : Kept K z u4 := (Kept.ite (P := Kept K z) (State.setH_kept h3) h3)
    try clear_value u4
    exact (refile_kept h5)

theorem shpCharge_kept {z a0 a1 a2} (ha2 : Kept K z a2) : Kept K z (shpCharge a0 a1 a2) :=
  (shpTake_kept ha2)

theorem shpDebit_kept {z a0 a1 a2 a3} (ha3 : Kept K z a3) : Kept K z (shpDebit a0 a1 a2 a3) :=
  (shpTake_kept ha3)

theorem bktFill_kept {z a0 a1 a2} (ha2 : Kept K z a2) : Kept K z (bktFill a0 a1 a2) :=
  (State.setH_kept ha2)

theorem fretClear_kept {z a0} (ha0 : Kept K z a0) : Kept K z (fretClear a0) := by
  unfold fretClear
  extract_lets +onlyGivenNames -merge -useContext u0
  have h1 : Kept K z u0 := by
    unfold u0
    exact (Kept.sub ha0 rfl rfl (.refl _) (.refl _) (.refl _) List.filter_sublist (.refl _) (.refl _) (.refl _)
        (Area.each (fun _ => Area.f5) (fun _ => Area.f5) (fun _ => rfl) (fun _ => Area.f5) (fun _ => Area.f3) (fun _
        => rfl) (fun _ => Area.f4) (fun _ => Area.f8)))
  try clear_value u0
  exact (State.setReg_kept h1)

theorem shapeRestart_kept {z a0} (ha0 : Kept K z a0) : Kept K z (shapeRestart a0) := by
  unfold shapeRestart
  extract_lets +onlyGivenNames -merge -useContext u0
  have h1 : Kept K z u0 := (fretClear_kept ha0)
  try clear_value u0
  refine forEach_kept ?_ ?_
  · exact h1
  · intro a4 a5 h6
    split
    · extract_lets +onlyGivenNames -merge -useContext u9
      have h10 : Kept K z u9 := (State.setH_kept h6)
      try clear_value u9
      extract_lets +onlyGivenNames -merge -useContext u11
      have h12 : Kept K z u11 := (Kept.ite (P := Kept K z) (bktFill_kept h10) h10)
      try clear_value u11
      exact (Kept.ite (P := Kept K z) (bktFill_kept h12) h12)

theorem shpWrite_kept {z a0 a1} (ha1 : Kept K z a1) : Kept K z (shpWrite a0 a1).1 := by
  unfold shpWrite
  extract_lets +onlyGivenNames -merge -useContext u0 u1 u2 u3
  refine Kept.ite (P := fun x : State × ℕ × Option ℕ => Kept K z x.1) ?_ ?_
  · exact (Win.fail_kept ha1)
  · extract_lets +onlyGivenNames -merge -useContext u4
    have h5 : Kept K z u4 := (Kept.ite (P := Kept K z) (shpUpdate_kept ha1) (State.setH_kept ha1))
    try clear_value u4
    extract_lets +onlyGivenNames -merge -useContext u6 u7 u8 u9
    have h10 : Kept K z u9 := (State.setTab_kept h5)
    try clear_value u9
    extract_lets +onlyGivenNames -merge -useContext u11
    have h12 : ∀ y0_0 y0_1 y0_2, (Kept K z y0_2) → Kept K z (u11 y0_0 y0_1 y0_2) := (fun _ _ _ h13 => (Kept.ite (P
        := Kept K z) (bktFill_kept h13) (Kept.ite (P := Kept K z) (bktFill_kept h13) h13)))
    try clear_value u11
    extract_lets +onlyGivenNames -merge -useContext u14
    have h15 : Kept K z u14 := (h12 _ _ _ (h12 _ _ _ h10))
    try clear_value u14
    exact (Win.ok_kept (Kept.ite (P := Kept K z) (refile_kept h15) h15))

theorem shapeTable_kept {z a0 a1 a2} (ha2 : Kept K z a2) : Kept K z (shapeTable a0 a1 a2).1 := by
  unfold shapeTable
  refine Kept.ite (P := fun x : State × ℕ × Option ℕ => Kept K z x.1) ?_ ?_
  · exact (Win.fail_kept ha2)
  · refine Kept.ite (P := fun x : State × ℕ × Option ℕ => Kept K z x.1) ?_ ?_
    · exact (Win.fail_kept ha2)
    · refine Kept.ite (P := fun x : State × ℕ × Option ℕ => Kept K z x.1) ?_ ?_
      · exact (Win.ok_kept ha2)
      · exact (shpWrite_kept ha2)

theorem fretRelease_kept {z a0 a1} (time : ¬K .time) (ha1 : Kept K z a1) : Kept K z (fretRelease a0 a1) := by
  unfold fretRelease
  extract_lets +onlyGivenNames -merge -useContext u0
  refine Kept.ite (P := Kept K z) ?_ ?_
  · exact ha1
  · extract_lets +onlyGivenNames -merge -useContext u1
    have h2 : Kept K z u1 := (waitRoot_kept time ha1)
    try clear_value u1
    extract_lets +onlyGivenNames -merge -useContext u3
    have h4 : Kept K z u3 := (Kept.ite (P := Kept K z) (raiseFirst_kept (bump_kept h2)) h2)
    try clear_value u3
    exact (refile_kept (shpUpdate_kept h4))

theorem execFretRelease_kept {z a0 a1} (time : ¬K .time) (ha1 : Kept K z a1) : ∀ t, (execFretRelease a0 a1) = .next
    t → Kept K z t :=
  (done_kept (State.ifLive_kept ha1 (fun _ h0 => (fretRelease_kept time h0))))

theorem coarseAdvance_kept {z a0} (time : ¬K .time) (ha0 : Kept K z a0) : Kept K z (coarseAdvance a0) := by
  unfold coarseAdvance
  extract_lets +onlyGivenNames -merge -useContext u0
  have h1 : Kept K z u0 := (waitRoot_kept time ha0)
  try clear_value u0
  exact (forEach_kept h1 (fun _ _ h2 => (Kept.ite (P := Kept K z) (setFret_kept h2) h2)))

theorem execCoarseFretAdvance_kept {z a0} (time : ¬K .time) (ha0 : Kept K z a0) : ∀ t, (execCoarseFretAdvance a0) =
    .next t → Kept K z t :=
  (done_kept (State.ifLive_kept ha0 (fun _ h0 => (coarseAdvance_kept time h0))))

theorem farScan_kept {z a0} (ha0 : Kept K z a0) : Kept K z (farScan a0) :=
  (forEach_kept ha0 (fun _ _ h0 => (Kept.ite (P := Kept K z) (setFret_kept h0) h0)))

theorem execFarListScan_kept {z a0} (ha0 : Kept K z a0) : ∀ t, (execFarListScan a0) = .next t → Kept K z t :=
  (done_kept (State.ifLive_kept ha0 (fun _ h0 => (farScan_kept h0))))

end Sys2Proof.Machine
end

