-- ==== Sys2Proof/Laws/KeptBuffer.lean ====
section
/-!
SUPPORT. Every operation and meaning of Machine/Buffer.lean keeps the state sane, its queue as it is and its outputs made.
-/
namespace Sys2Proof.Machine

variable {K : Area → Prop}

theorem deepEntry_kept {z a0 a1 a2} (ha2 : Kept K z a2) : Kept K z (deepEntry a0 a1 a2) := by
  unfold deepEntry
  refine Kept.ite (P := Kept K z) ?_ ?_
  · exact ha2
  · refine Kept.ite (P := Kept K z) ?_ ?_
    · extract_lets +onlyGivenNames -merge -useContext u0
      have h1 : Kept K z u0 := (State.setReg_kept ha2)
      try clear_value u0
      exact (bump_kept (State.setH_kept h1))
    · exact (raiseFirst_kept (bump_kept ha2))

theorem admDrop_kept {z a0 a1 a2 a3} (frames : ¬K .frames) (fabric : ¬K .fabric) (ha3 : Kept K z a3) : Kept K z
    (admDrop a0 a1 a2 a3) := by
  unfold admDrop
  extract_lets +onlyGivenNames -merge -useContext u0
  have h1 : Kept K z u0 := (bump_kept (bump_kept ha3))
  try clear_value u0
  extract_lets +onlyGivenNames -merge -useContext u2
  have h3 : Kept K z u2 := (fsCount_kept h1)
  try clear_value u2
  extract_lets +onlyGivenNames -merge -useContext u4
  have h5 : Kept K z u4 := (Kept.ite (P := Kept K z) h3 (injResult_kept frames h3))
  try clear_value u4
  exact (queueLeft_kept frames fabric (State.drop_kept frames h5))

theorem enqueue_kept {z a0 a1 a2 a3} (frames : ¬K .frames) (fabric : ¬K .fabric) (ha3 : Kept K z a3) : Kept K z
    (enqueue a0 a1 a2 a3) := by
  unfold enqueue
  extract_lets +onlyGivenNames -merge -useContext u0 u1 u2 u3 u4
  split
  · rename_i m5 m6 q7
    have h8 : Kept K z m6 := Kept.of_eq (P := fun x : Frame × State => Kept K z x.2) q7 (by
      refine Kept.ite (P := fun x : Frame × State => Kept K z x.2) ?_ ?_
      · exact (stampParity_kept ha3)
      · try dsimp -zeta only
        exact ha3)
    extract_lets +onlyGivenNames -merge -useContext u9
    have h10 : Kept K z u9 := (Kept.ite (P := Kept K z) (injResult_kept frames h8) h8)
    try clear_value u9
    extract_lets +onlyGivenNames -merge -useContext u11
    have h12 : Kept K z u11 := (State.moveFrame_kept frames h10)
    try clear_value u11
    extract_lets +onlyGivenNames -merge -useContext u13
    have h14 : Kept K z u13 := (Kept.ite (P := Kept K z) h12 (State.setReg_kept h12))
    try clear_value u13
    extract_lets +onlyGivenNames -merge -useContext u15
    have h16 : Kept K z u15 := (bump_kept (bump_kept h14))
    try clear_value u15
    extract_lets +onlyGivenNames -merge -useContext u17
    have h18 : Kept K z u17 := (Kept.ite (P := Kept K z) (fsCount_kept h16) h16)
    try clear_value u17
    exact (queueLeft_kept frames fabric h18)

theorem place_kept {z a0 a1 a2 a3 a4} (frames : ¬K .frames) (fabric : ¬K .fabric) (ha4 : Kept K z a4) : (∀ t0,
    (place a0 a1 a2 a3 a4).1 = some t0 → Kept K z t0) ∧ (Kept K z (place a0 a1 a2 a3 a4).2) := by
  unfold place
  refine Kept.ite (P := fun x : Option State × State => (∀ t0, x.1 = some t0 → Kept K z t0) ∧ (Kept K z x.2)) ?_ ?_
  · refine ⟨?_, ?_⟩
    · exact (Kept.some (enqueue_kept frames fabric (takeCounts_kept ha4)))
    · exact ha4
  · split
    · rename_i m0 m1 q2
      have h3 : Kept K z m1 := Kept.of_eq (P := fun x : Option (List ℕ) × State => Kept K z x.2) q2 (grantCells_kept
          frames ha4)
      refine ⟨?_, ?_⟩
      · exact (Kept.some (enqueue_kept frames fabric (takeCounts_kept h3)))
      · exact h3
    · rename_i m4 q5
      have h6 : Kept K z m4 := Kept.of_eq (P := fun x : Option (List ℕ) × State => Kept K z x.2) q5 (grantCells_kept
          frames ha4)
      refine ⟨?_, ?_⟩
      · exact Kept.none
      · exact h6

theorem evict_kept {z a0 a1 a2} (frames : ¬K .frames) (fabric : ¬K .fabric) (ha2 : Kept K z a2) : Kept K z (evict a0
    a1 a2) := by
  unfold evict
  split
  · exact ha2
  · extract_lets +onlyGivenNames -merge -useContext u2
    have h3 : Kept K z u2 := (bumpBy_kept (bump_kept ha2))
    try clear_value u2
    exact (queueLeft_kept frames fabric (queueDrop_kept frames h3))

theorem pushPlace_kept {z a0 a1 a2 a3 a4} (frames : ¬K .frames) (fabric : ¬K .fabric) (ha4 : Kept K z a4) : Kept K z
    (pushPlace a0 a1 a2 a3 a4) := by
  unfold pushPlace
  split
  · rename_i m0 m1 q2
    have h3 : Kept K z m0 ∧ Kept K z m1 := And.imp (fun k => k _ rfl) id (Kept.of_eq (P := fun x : Option State ×
        State => (∀ t0, x.1 = some t0 → Kept K z t0) ∧ (Kept K z x.2)) q2 (place_kept frames fabric ha4))
    exact (bump_kept h3.1)
  · rename_i m4 q5
    have h6 : Kept K z m4 := (Kept.of_eq (P := fun x : Option State × State => (∀ t0, x.1 = some t0 → Kept K z t0) ∧
        (Kept K z x.2)) q5 (place_kept frames fabric ha4)).2
    exact (admDrop_kept frames fabric h6)

theorem refuse_kept {z a0 a1 a2 a3 a4 a5} (frames : ¬K .frames) (fabric : ¬K .fabric) (ha5 : Kept K z a5) : Kept K z
    (refuse a0 a1 a2 a3 a4 a5) := by
  unfold refuse
  extract_lets +onlyGivenNames -merge -useContext u0
  have h1 : Kept K z u0 := (Kept.ite (P := Kept K z) (raiseFirst_kept ha5) ha5)
  try clear_value u0
  split
  · exact (admDrop_kept frames fabric h1)
  · exact (pushPlace_kept frames fabric h1)
  · split
    · exact (admDrop_kept frames fabric h1)
    · extract_lets +onlyGivenNames -merge -useContext u7
      exact (Kept.ite (P := Kept K z) (admDrop_kept frames fabric h1) (pushPlace_kept frames fabric (forEach_kept h1
          (fun _ _ h8 => (evict_kept frames fabric h8)))))

theorem admitQueue_kept {z a0 a1 a2 a3} (frames : ¬K .frames) (fabric : ¬K .fabric) (ha3 : Kept K z a3) : Kept K z
    (admitQueue a0 a1 a2 a3) := by
  unfold admitQueue
  extract_lets +onlyGivenNames -merge -useContext u0
  have h1 : Kept K z u0 := (deepEntry_kept ha3)
  try clear_value u0
  split
  · exact (refuse_kept frames fabric h1)
  · refine Kept.ite (P := Kept K z) ?_ ?_
    · exact (State.moveFrame_kept frames (takeCounts_kept h1))
    · split
      · rename_i m7 m8 q9
        have h10 : Kept K z m7 ∧ Kept K z m8 := And.imp (fun k => k _ rfl) id (Kept.of_eq (P := fun x : Option State
            × State => (∀ t0, x.1 = some t0 → Kept K z t0) ∧ (Kept K z x.2)) q9 (place_kept frames fabric h1))
        exact h10.1
      · rename_i m11 q12
        have h13 : Kept K z m11 := (Kept.of_eq (P := fun x : Option State × State => (∀ t0, x.1 = some t0 → Kept K z
            t0) ∧ (Kept K z x.2)) q12 (place_kept frames fabric h1)).2
        exact (refuse_kept frames fabric h13)

theorem offerTo_kept {z a0 a1 a2 a3} (frames : ¬K .frames) (fabric : ¬K .fabric) (ha3 : Kept K z a3) : Kept K z
    (offerTo a0 a1 a2 a3) :=
  (Kept.ite (P := Kept K z) (Kept.ite (P := Kept K z) ha3 (State.moveFrame_kept frames ha3)) (Kept.ite (P := Kept K
      z) (dropDisabled_kept frames ha3) (Kept.ite (P := Kept K z) (bump_kept (State.drop_kept frames ha3)) (Kept.ite
      (P := Kept K z) (errInt_kept (State.drop_kept frames ha3)) (Kept.ite (P := Kept K z) (dropDisabled_kept frames
      ha3) (admitQueue_kept frames fabric ha3))))))

theorem puntDrop_kept {z a0 a1 a2} (frames : ¬K .frames) (ha2 : Kept K z a2) : Kept K z (puntDrop a0 a1 a2) :=
  (bump_kept (State.drop_kept frames ha2))

theorem puntUnmapped_kept {z a0 a1} (frames : ¬K .frames) (ha1 : Kept K z a1) : Kept K z (puntUnmapped a0 a1) :=
  (raiseFirst_kept (puntDrop_kept frames ha1))

theorem puntWait_kept {z a0 a1} (frames : ¬K .frames) (ha1 : Kept K z a1) : Kept K z (puntWait a0 a1) := by
  unfold puntWait
  split
  · exact (puntUnmapped_kept frames ha1)
  · exact (Kept.ite (P := Kept K z) (puntDrop_kept frames ha1) (Kept.ite (P := Kept K z) (puntDrop_kept frames ha1)
      (State.moveFrame_kept frames ha1)))

theorem puntAsk_kept {z a0 a1 a2 a3} (frames : ¬K .frames) (ha3 : Kept K z a3) : Kept K z (puntAsk a0 a1 a2 a3) := by
  induction a1 generalizing a2 a3 with
  | zero => exact raiseFirst_kept (bump_kept (State.drop_kept frames ha3))
  | succ n ih =>
    unfold puntAsk
    split
    · rename_i q
      exact puntWait_kept frames (State.putFrame_kept frames (Kept.snd q (grantBuf_kept frames ha3)))
    · rename_i q
      have h := Kept.snd q (grantBuf_kept frames ha3)
      exact ih (Kept.ite (P := Kept K z) h (bump_kept h))

theorem puntAdmit_kept {z a0 a1} (frames : ¬K .frames) (ha1 : Kept K z a1) : Kept K z (puntAdmit a0 a1) := by
  unfold puntAdmit
  extract_lets +onlyGivenNames -merge -useContext u0
  exact (Kept.ite (P := Kept K z) (dropDisabled_kept frames ha1) (Kept.ite (P := Kept K z) (puntUnmapped_kept frames
      ha1) (puntAsk_kept frames ha1)))

theorem execAdmission_kept {z a0 a1 a2} (frames : ¬K .frames) (fabric : ¬K .fabric) (ha2 : Kept K z a2) : ∀ t,
    (execAdmission a0 a1 a2) = .next t → Kept K z t := by
  unfold execAdmission
  refine done_kept ?_
  split
  · split
    · exact (offerTo_kept frames fabric ha2)
    · exact ha2
  · split
    · exact (puntAdmit_kept frames ha2)
    · exact ha2

theorem carryDone_kept {z a0 a1 a2} (frames : ¬K .frames) (fabric : ¬K .fabric) (ha2 : Kept K z a2) : Kept K z
    (carryDone a0 a1 a2) :=
  (enqueue_kept frames fabric ha2)

theorem carryEmpty_kept {z a0 a1 a2} (frames : ¬K .frames) (fabric : ¬K .fabric) (ha2 : Kept K z a2) : Kept K z
    (carryEmpty a0 a1 a2) := by
  unfold carryEmpty
  extract_lets +onlyGivenNames -merge -useContext u0 u1 u2
  have h3 : Kept K z u2 := (forEach_kept (uncharge_kept ha2) (fun _ _ h4 => (agentFree_kept frames h4)))
  try clear_value u2
  extract_lets +onlyGivenNames -merge -useContext u5
  exact (refuse_kept frames fabric (State.putFrame_kept frames h3))

theorem carryServe_kept {z a0 a1} (frames : ¬K .frames) (fabric : ¬K .fabric) (ha1 : Kept K z a1) : Kept K z
    (carryServe a0 a1) := by
  unfold carryServe
  split
  · exact ha1
  · split
    · split
      · rename_i m3 q4
        have h5 : Kept K z m3 := Kept.of_eq (P := fun x : Option ℕ × State => Kept K z x.2) q4 (grantBuf_kept frames
            ha1)
        exact (carryEmpty_kept frames fabric h5)
      · rename_i m6 m7 q8
        have h9 : Kept K z m7 := Kept.of_eq (P := fun x : Option ℕ × State => Kept K z x.2) q8 (grantBuf_kept frames
            ha1)
        extract_lets +onlyGivenNames -merge -useContext u10 u11
        have h12 : Kept K z u11 := (State.putFrame_kept frames h9)
        try clear_value u11
        exact (Kept.ite (P := Kept K z) (carryDone_kept frames fabric h12) h12)
    · exact ha1

theorem serveAhead_kept {z a0 a1} (frames : ¬K .frames) (fabric : ¬K .fabric) (ha1 : Kept K z a1) : Kept K z
    (serveAhead a0 a1) := by
  unfold serveAhead
  extract_lets +onlyGivenNames -merge -useContext u0 u1
  exact (forEach_kept ha1 (fun _ _ h2 => (carryServe_kept frames fabric h2)))

theorem grantTurns_kept {z a0 a1 a2 a3} (frames : ¬K .frames) (fabric : ¬K .fabric) (ha3 : Kept K z a3) : Kept K z
    (grantTurns a0 a1 a2 a3).2 := by
  induction a2 generalizing a3 with
  | zero => exact ha3
  | succ n ih =>
    unfold grantTurns
    split
    · rename_i q
      exact Kept.snd q (grantBuf_kept frames (serveAhead_kept frames fabric ha3))
    · rename_i s' q
      have h : Kept K z s' := Kept.snd q (grantBuf_kept frames (serveAhead_kept frames fabric ha3))
      split
      · rename_i q
        exact Kept.snd q (ih h)
      · rename_i q
        exact releaseBuf_kept frames (Kept.snd q (ih h))

theorem execBufferGrant_kept {z a0} (frames : ¬K .frames) (fabric : ¬K .fabric) (ha0 : Kept K z a0) : ∀ t,
    (execBufferGrant a0) = .next t → Kept K z t := by
  unfold execBufferGrant
  refine done_kept ?_
  split
  · exact (carryServe_kept frames fabric ha0)
  · exact ha0

theorem truncate_kept {z a0 a1 a2} (frames : ¬K .frames) (fabric : ¬K .fabric) (ha2 : Kept K z a2) : Kept K z
    (truncate a0 a1 a2) := by
  unfold truncate
  extract_lets +onlyGivenNames -merge -useContext u0
  exact (voqEval_kept fabric (bump_kept (State.putFrame_kept frames ha2)))

theorem chargePath_kept {z a0 a1 a2} (ha2 : Kept K z a2) : Kept K z (chargePath a0 a1 a2) := by
  unfold chargePath
  extract_lets +onlyGivenNames -merge -useContext u0 u1
  have h2 : Kept K z u1 := (State.ifLive_kept ha2 (fun _ h3 => (forEach_kept h3 (fun _ _ h4 => (chargeMore_kept
      h4)))))
  try clear_value u1
  extract_lets +onlyGivenNames -merge -useContext u5
  have h6 : Kept K z u5 := (forEach_kept h2 (fun _ _ h7 => (shpDebit_kept h7)))
  try clear_value u5
  exact (bumpBy_kept (fsBytes_kept h6))

theorem chargeLate_kept {z a0 a1} (frames : ¬K .frames) (ha1 : Kept K z a1) : Kept K z (chargeLate a0 a1) := by
  unfold chargeLate
  extract_lets +onlyGivenNames -merge -useContext u0 u1 u2 u3
  have h4 : Kept K z u3 := (State.putFrame_kept frames ha1)
  try clear_value u3
  extract_lets +onlyGivenNames -merge -useContext u5
  have h6 : Kept K z u5 := (Kept.ite (P := Kept K z) h4 (fsBytes_kept h4))
  try clear_value u5
  exact (Kept.ite (P := Kept K z) h6 (Kept.ite (P := Kept K z) (State.setH_kept h6) (chargePath_kept h6)))

theorem grown_kept {z a0 a1} (frames : ¬K .frames) (fabric : ¬K .fabric) (ha1 : Kept K z a1) : Kept K z (grown a0
    a1) := by
  unfold grown
  split
  · exact (Kept.ite (P := Kept K z) ha1 (voqEval_kept fabric (chargeLate_kept frames ha1)))
  · exact ha1

theorem tailCell_kept {z a0 a1 a2 a3} (frames : ¬K .frames) (fabric : ¬K .fabric) (ha3 : Kept K z a3) : Kept K z
    (tailCell a0 a1 a2 a3) := by
  unfold tailCell
  extract_lets +onlyGivenNames -merge -useContext u0
  refine Kept.ite (P := Kept K z) ?_ ?_
  · exact (truncate_kept frames fabric ha3)
  · split
    · rename_i m1 q2
      have h3 : Kept K z m1 := Kept.of_eq (P := fun x : Option ℕ × State => Kept K z x.2) q2 (grantBuf_kept frames
          ha3)
      exact (truncate_kept frames fabric h3)
    · rename_i m4 m5 q6
      have h7 : Kept K z m5 := Kept.of_eq (P := fun x : Option ℕ × State => Kept K z x.2) q6 (grantBuf_kept frames
          ha3)
      extract_lets +onlyGivenNames -merge -useContext u8 u9 u10 u11
      have h12 : Kept K z u11 := (takeCounts_kept h7)
      try clear_value u11
      extract_lets +onlyGivenNames -merge -useContext u13
      have h14 : Kept K z u13 := (Kept.ite (P := Kept K z) h12 (State.setReg_kept h12))
      try clear_value u13
      extract_lets +onlyGivenNames -merge -useContext u15
      have h16 : Kept K z u15 := (agentFree_kept frames h7)
      try clear_value u15
      extract_lets +onlyGivenNames -merge -useContext u17
      have h18 : Kept K z u17 := (State.putFrame_kept frames h16)
      try clear_value u17
      extract_lets +onlyGivenNames -merge -useContext u19
      have h20 : Kept K z u19 := (Kept.ite (P := Kept K z) (State.putFrame_kept frames h14) (Kept.ite (P := Kept K
          z) (cellUe_kept frames h18) h18))
      try clear_value u19
      exact (queueLeft_kept frames fabric (grown_kept frames fabric h20))

theorem tailNext_kept {z a0 a1 a2} (frames : ¬K .frames) (fabric : ¬K .fabric) (ha2 : Kept K z a2) : Kept K z
    (tailNext a0 a1 a2) := by
  unfold tailNext
  split
  · exact (tailCell_kept frames fabric ha2)
  · exact ha2

theorem execTailCellArrival_kept {z a0 a1 a2} (frames : ¬K .frames) (fabric : ¬K .fabric) (ha2 : Kept K z a2) : ∀ t,
    (execTailCellArrival a0 a1 a2) = .next t → Kept K z t := by
  unfold execTailCellArrival
  refine done_kept ?_
  split
  · exact (Kept.ite (P := Kept K z) (tailNext_kept frames fabric (serveAhead_kept frames fabric ha2)) (Kept.ite (P
      := Kept K z) (truncate_kept frames fabric (errDisabled_kept ha2)) (truncate_kept frames fabric ha2)))
  · exact ha2

theorem execBufferFree_kept {z a0 a1 a2 a3} (frames : ¬K .frames) (ha3 : Kept K z a3) : ∀ t, (execBufferFree a0 a1
    a2 a3) = .next t → Kept K z t :=
  (done_kept (State.when_kept ha3 (fun _ h0 => (freeBuf_kept frames h0))))

theorem markQueue_kept {z a0 a1 a2 a3 a4} (frames : ¬K .frames) (ha4 : Kept K z a4) : Kept K z (markQueue a0 a1 a2
    a3 a4) := by
  unfold markQueue
  refine Kept.foldl (P := fun x : ℕ × State => Kept K z x.2) ?_ ?_
  · try dsimp -zeta only
    exact ha4
  · intro x1 y2 h0
    split
    · try dsimp -zeta only
      exact (Kept.ite (P := Kept K z) h0 (State.putFrame_kept frames h0))

theorem spillWrite_kept {z a0 a1} (frames : ¬K .frames) (dram : ¬K .dram) (ha1 : Kept K z a1) : Kept K z (spillWrite
    a0 a1) := by
  unfold spillWrite
  extract_lets +onlyGivenNames -merge -useContext u0
  refine Kept.ite (P := Kept K z) ?_ ?_
  · exact ha1
  · split
    · rename_i m1 q2
      have h3 : Kept K z m1 := Kept.of_eq (P := fun x : Option ℕ × State => Kept K z x.2) q2 (grantBuf_kept frames
          ha1)
      exact h3
    · rename_i m4 m5 q6
      have h7 : Kept K z m5 := Kept.of_eq (P := fun x : Option ℕ × State => Kept K z x.2) q6 (grantBuf_kept frames
          ha1)
      extract_lets +onlyGivenNames -merge -useContext u8
      have h9 : Kept K z u8 := (markQueue_kept frames h7)
      try clear_value u8
      extract_lets +onlyGivenNames -merge -useContext u10 u11 u12
      have h13 : Kept K z u12 := (State.setH_kept h9)
      try clear_value u12
      extract_lets +onlyGivenNames -merge -useContext u14
      have h15 : Kept K z u14 := (Kept.same h13 rfl (Area.each (absurd · frames) (fun _ => Area.f5) (fun _ => rfl)
          (fun _ => Area.f5) (fun _ => Area.f3) (fun _ => rfl) (fun _ => Area.f4) (fun _ => Area.f8)))
      try clear_value u14
      exact (pageAsk_kept frames dram (forEach_kept h15 (fun _ _ h16 => (setOwner_kept frames h16))))

theorem spillUe_kept {z a0 a1} (frames : ¬K .frames) (fabric : ¬K .fabric) (ha1 : Kept K z a1) : Kept K z (spillUe
    a0 a1) := by
  unfold spillUe
  split
  · exact (queueLeft_kept frames fabric (cellUe_kept frames ha1))
  · exact ha1

theorem execSpillPageWrite_kept {z a0 a1 a2} (frames : ¬K .frames) (fabric : ¬K .fabric) (dram : ¬K .dram) (ha2 :
    Kept K z a2) : ∀ t, (execSpillPageWrite a0 a1 a2) = .next t → Kept K z t := by
  cases a1
  · exact done_kept (State.ifLive_kept ha2 fun _ h => spillWrite_kept frames dram h)
  · exact done_kept (State.ifLive_kept ha2 fun _ h => spillUe_kept frames fabric h)

theorem pageWritten_kept {z a0 a1} (frames : ¬K .frames) (fabric : ¬K .fabric) (ha1 : Kept K z a1) : Kept K z
    (pageWritten a0 a1) := by
  unfold pageWritten
  split
  · exact ha1
  · refine Kept.ite (P := Kept K z) ?_ ?_
    · exact ha1
    · extract_lets +onlyGivenNames -merge -useContext u2
      have h3 : Kept K z u2 := (Kept.same ha1 rfl (Area.each (absurd · frames) (fun _ => Area.f5) (fun _ => rfl)
          (fun _ => Area.f5) (fun _ => Area.f3) (fun _ => rfl) (fun _ => Area.f4) (fun _ => Area.f8)))
      try clear_value u2
      extract_lets +onlyGivenNames -merge -useContext u4
      have h5 : Kept K z u4 := (forEach_kept h3 (fun _ _ h6 => (freeCount_kept (agentFree_kept frames h6))))
      try clear_value u4
      extract_lets +onlyGivenNames -merge -useContext u7
      have h8 : Kept K z u7 := (State.setReg_kept h5)
      try clear_value u7
      extract_lets +onlyGivenNames -merge -useContext u9 u10
      have h11 : Kept K z u10 := (State.setReg_kept h8)
      try clear_value u10
      extract_lets +onlyGivenNames -merge -useContext u12
      have h13 : Kept K z u12 := (Kept.ite (P := Kept K z) (reparts_kept frames h11) (agentFree_kept frames h8))
      try clear_value u12
      exact (queueLeft_kept frames fabric (bump_kept h13))

theorem writesStop_kept {z a0} (frames : ¬K .frames) (ha0 : Kept K z a0) : Kept K z (writesStop a0) := by
  unfold writesStop
  refine forEach_kept ?_ ?_
  · exact (Kept.same ha0 rfl (Area.each (absurd · frames) (fun _ => Area.f5) (fun _ => rfl) (fun _ => Area.f5) (fun
      _ => Area.f3) (fun _ => rfl) (fun _ => Area.f4) (fun _ => Area.f8)))
  · intro a2 a3 h4
    extract_lets +onlyGivenNames -merge -useContext u5
    have h6 : Kept K z u5 := (forEach_kept h4 (fun _ _ h7 => (freeCount_kept (agentFree_kept frames h7))))
    try clear_value u5
    exact (agentFree_kept frames (State.setReg_kept h6))

theorem execPageWriteDone_kept {z a0 a1} (frames : ¬K .frames) (fabric : ¬K .fabric) (ha1 : Kept K z a1) : ∀ t,
    (execPageWriteDone a0 a1) = .next t → Kept K z t :=
  (done_kept (State.ifLive_kept ha1 (fun _ h0 => (pageWritten_kept frames fabric h0))))

theorem prefetch_kept {z a0 a1} (frames : ¬K .frames) (dram : ¬K .dram) (ha1 : Kept K z a1) : Kept K z (prefetch a0
    a1) := by
  unfold prefetch
  extract_lets +onlyGivenNames -merge -useContext u0
  refine Kept.ite (P := Kept K z) ?_ ?_
  · exact ha1
  · split
    · exact ha1
    · extract_lets +onlyGivenNames -merge -useContext u3
      extract_lets +onlyGivenNames -merge -useContext u4
      have h5 : Kept K z u4 := (reparts_kept frames (State.setH_kept ha1))
      try clear_value u4
      exact (pageAsk_kept frames dram (Kept.same h5 rfl (Area.each (absurd · frames) (fun _ => Area.f5) (fun _ =>
          rfl) (fun _ => Area.f5) (fun _ => Area.f3) (fun _ => rfl) (fun _ => Area.f4) (fun _ => Area.f8))))

theorem execReturnPrefetch_kept {z a0 a1} (frames : ¬K .frames) (dram : ¬K .dram) (ha1 : Kept K z a1) : ∀ t,
    (execReturnPrefetch a0 a1) = .next t → Kept K z t :=
  (done_kept (State.ifLive_kept ha1 (fun _ h0 => (prefetch_kept frames dram h0))))

theorem pageLost_kept {z a0 a1 a2} (frames : ¬K .frames) (fabric : ¬K .fabric) (ha2 : Kept K z a2) : Kept K z
    (pageLost a0 a1 a2) := by
  unfold pageLost
  extract_lets +onlyGivenNames -merge -useContext u0 u1 u2
  have h3 : Kept K z u2 := (forEach_kept ha2 (fun _ _ h4 => (bump_kept (Kept.ite (P := Kept K z) (endQueued_kept
      frames h4) (queueDrop_kept frames h4)))))
  try clear_value u2
  exact (queueLeft_kept frames fabric (raise_kept h3))

theorem toReturn_kept {z a0 a1 a2 a3} (frames : ¬K .frames) (ha3 : Kept K z a3) : Kept K z (toReturn a0 a1 a2 a3) :=
    by
  unfold toReturn
  refine Kept.foldl (P := fun x : List ℕ × State => Kept K z x.2) ?_ ?_
  · try dsimp -zeta only
    exact ha3
  · intro x1 y2 h0
    split
    · try dsimp -zeta only
      exact (Kept.ite (P := Kept K z) h0 (State.putFrame_kept frames h0))

theorem leaveQueue_kept {z a0 a1 a2} (frames : ¬K .frames) (ha2 : Kept K z a2) : Kept K z (leaveQueue a0 a1 a2) := by
  unfold leaveQueue
  extract_lets +onlyGivenNames -merge -useContext u0 u1 u2
  have h3 : Kept K z u2 := (freeCells_kept frames (State.putFrame_kept frames ha2))
  try clear_value u2
  exact (Kept.ite (P := Kept K z) h3 (onward_kept frames h3))

theorem goOn_kept {z a0 a1} (frames : ¬K .frames) (ha1 : Kept K z a1) : Kept K z (goOn a0 a1) := by
  unfold goOn
  split
  · exact (Kept.ite (P := Kept K z) (leaveQueue_kept frames ha1) ha1)
  · exact ha1

theorem freeBytes_kept {z a0 a1} (ha1 : Kept K z a1) : Kept K z (freeBytes a0 a1).2 := by
  induction a0 generalizing a1 with
  | zero => exact ha1
  | succ n ih =>
    unfold freeBytes
    split
    rename_i q
    have h := ih (Kept.snd q (State.free_kept ha1))
    split
    rename_i q'
    exact Kept.snd q' h

theorem tearFrames_kept {z a0 a1 a2} (frames : ¬K .frames) (ha2 : Kept K z a2) : Kept K z (tearFrames a0 a1 a2) := by
  unfold tearFrames
  refine forEach_kept ?_ ?_
  · exact ha2
  · intro a2 a3 h4
    split
    · rename_i m5 m6 q7
      have h8 : Kept K z m6 := Kept.of_eq (P := fun x : List Byte × State => Kept K z x.2) q7 (by
        refine Kept.foldl (P := fun x : List Byte × State => Kept K z x.2) ?_ ?_
        · try dsimp -zeta only
          exact h4
        · intro x10 y11 h9
          refine Kept.ite (P := fun x : List Byte × State => Kept K z x.2) ?_ ?_
          · extract_lets +onlyGivenNames -merge -useContext u12
            split
            · rename_i m13 m14 q15
              have h16 : Kept K z m14 := Kept.of_eq (P := fun x : List Byte × State => Kept K z x.2) q15
                  (freeBytes_kept h9)
              try dsimp -zeta only
              exact h16
          · exact h9)
      exact (Kept.ite (P := Kept K z) h8 (State.putFrame_kept frames h8))

theorem pageReturn_kept {z a0 a1 a2} (frames : ¬K .frames) (fabric : ¬K .fabric) (ha2 : Kept K z a2) : Kept K z
    (pageReturn a0 a1 a2) := by
  unfold pageReturn
  extract_lets +onlyGivenNames -merge -useContext u0
  split
  · rename_i m1 q2
    have h3 : Kept K z m1 := Kept.of_eq (P := fun x : Option (List ℕ) × State => Kept K z x.2) q2 (grantTurns_kept
        frames fabric ha2)
    exact h3
  · rename_i m4 m5 q6
    have h7 : Kept K z m5 := Kept.of_eq (P := fun x : Option (List ℕ) × State => Kept K z x.2) q6 (grantTurns_kept
        frames fabric ha2)
    extract_lets +onlyGivenNames -merge -useContext u8
    have h9 : Kept K z u8 := (Kept.ite (P := Kept K z) (tearFrames_kept frames h7) h7)
    try clear_value u8
    extract_lets +onlyGivenNames -merge -useContext u10 u11
    have h12 : Kept K z u11 := (toReturn_kept frames (takeCounts_kept h9))
    try clear_value u11
    extract_lets +onlyGivenNames -merge -useContext u13
    have h14 : Kept K z u13 := (bump_kept (pageFree_kept frames h12))
    try clear_value u13
    extract_lets +onlyGivenNames -merge -useContext u15
    have h16 : Kept K z u15 := by
      unfold u15
      refine forEach_kept ?_ ?_
      · exact h14
      · intro a20 a21 h22
        split
        · exact (Kept.ite (P := Kept K z) h22 (ageCheck_kept frames fabric h22))
        · exact h22
    try clear_value u15
    exact (queueLeft_kept frames fabric (goOn_kept frames h16))

theorem execPageReturned_kept {z a0 a1} (frames : ¬K .frames) (fabric : ¬K .fabric) (ha1 : Kept K z a1) : ∀ t,
    (execPageReturned a0 a1) = .next t → Kept K z t := by
  unfold execPageReturned
  refine done_kept ?_
  refine State.ifLive_kept ?_ ?_
  · exact ha1
  · intro a11 h12
    split
    · exact h12
    · split
      · exact h12
      · exact (Kept.ite (P := Kept K z) h12 (Kept.ite (P := Kept K z) (pageLost_kept frames fabric h12)
          (pageReturn_kept frames fabric h12)))

theorem sweepHead_kept {z a0 a1 a2} (frames : ¬K .frames) (fabric : ¬K .fabric) (ha2 : Kept K z a2) : Kept K z
    (sweepHead a0 a1 a2) := by
  induction a1 generalizing a2 with
  | zero => exact ha2
  | succ n ih =>
    unfold sweepHead
    split
    · exact ha2
    · refine Kept.ite (P := Kept K z) ha2 ?_
      split
      · rename_i q
        exact Kept.snd q (ageCheck_kept frames fabric ha2)
      · rename_i q
        exact ih (queueUpdate_kept frames (bumpBy_kept (Kept.snd q (ageCheck_kept frames fabric ha2))))

theorem sweepPass_kept {z a0} (frames : ¬K .frames) (fabric : ¬K .fabric) (time : ¬K .time) (ha0 : Kept K z a0) :
    Kept K z (sweepPass a0) := by
  unfold sweepPass
  extract_lets +onlyGivenNames -merge -useContext u0
  have h1 : Kept K z u0 := (nextInterval_kept time ha0)
  try clear_value u0
  extract_lets +onlyGivenNames -merge -useContext u2 u3
  have h4 : Kept K z u3 := (forEach_kept h1 (fun _ _ h5 => (sweepHead_kept frames fabric (waitRoot_kept time h5))))
  try clear_value u3
  extract_lets +onlyGivenNames -merge -useContext u6
  have h7 : Kept K z u6 := (waitRoot_kept time h4)
  try clear_value u6
  exact (State.setReg_kept h7)

theorem execAgeSweepPass_kept {z a0} (frames : ¬K .frames) (fabric : ¬K .fabric) (time : ¬K .time) (ha0 : Kept K z
    a0) : ∀ t, (execAgeSweepPass a0) = .next t → Kept K z t :=
  (done_kept (State.ifLive_kept ha0 (fun _ h0 => (sweepPass_kept frames fabric time h0))))

theorem hpCount_kept {z a0 a1 a2 a3} (ha3 : Kept K z a3) : Kept K z (hpCount a0 a1 a2 a3) := by
  unfold hpCount
  extract_lets +onlyGivenNames -merge -useContext u0 u1 u2
  refine Kept.ite (P := Kept K z) ?_ ?_
  · exact (errReq_kept ha3)
  · extract_lets +onlyGivenNames -merge -useContext u3
    have h4 : Kept K z u3 := (State.setReg_kept ha3)
    try clear_value u3
    extract_lets +onlyGivenNames -merge -useContext u5
    have h6 : Kept K z u5 := (setFreeCnt_kept (State.setReg_kept h4))
    try clear_value u5
    extract_lets +onlyGivenNames -merge -useContext u7
    have h8 : ∀ y0_0 y0_1, (Kept K z y0_1.2) → Kept K z (u7 y0_0 y0_1).2 := by
      unfold u7
      intro a11 a12 h13
      extract_lets +onlyGivenNames -merge -useContext u14
      try dsimp -zeta only
      exact (State.setReg_kept (State.setReg_kept h13))
    try clear_value u7
    refine h8 _ _ ?_
    refine h8 _ _ ?_
    refine h8 _ _ ?_
    refine h8 _ _ ?_
    try dsimp -zeta only
    exact h6

theorem execHpCountWrite_kept {z a0 a1 a2 a3} (ha3 : Kept K z a3) : ∀ t, (execHpCountWrite a0 a1 a2 a3) = .next t →
    Kept K z t :=
  (done_kept (gateWrite_kept (fun _ h0 => (hpCount_kept h0)) ha3))

theorem ageLimit_kept {z a0 a1 a2} (frames : ¬K .frames) (ha2 : Kept K z a2) : Kept K z (ageLimit a0 a1 a2) := by
  unfold ageLimit
  extract_lets +onlyGivenNames -merge -useContext u0
  exact (Kept.ite (P := Kept K z) (errReq_kept ha2) (ageRaise_kept frames (State.setReg_kept ha2)))

theorem execAgeLimitWrite_kept {z a0 a1 a2} (frames : ¬K .frames) (ha2 : Kept K z a2) : ∀ t, (execAgeLimitWrite a0
    a1 a2) = .next t → Kept K z t :=
  (done_kept (gateWrite_kept (fun _ h0 => (ageLimit_kept frames h0)) ha2))

theorem onPool_kept {z} {a0 : ℕ → Win → State → TblRes} {a1 a2} (ha0 : ∀ y0_0 y0_1 y0_2, (Kept K z y0_2) → Kept K z
    (a0 y0_0 y0_1 y0_2).1) (ha2 : Kept K z a2) : Kept K z (onPool a0 a1 a2).1 := by
  unfold onPool
  split
  · exact (ha0 _ _ _ ha2)
  · exact (Win.fail_kept ha2)

theorem Win.failPtr_kept {z a0 a1 a2 a3} (ha3 : Kept K z a3) : Kept K z (Win.failPtr a0 a1 a2 a3).1 := by
  unfold Win.failPtr
  try dsimp -zeta only
  exact (errBy_kept ha3)

theorem poolRead_kept {z a0 a1 a2} (ha2 : Kept K z a2) : Kept K z (poolRead a0 a1 a2).1 := by
  unfold poolRead
  refine Kept.ite (P := fun x : State × ℕ × Option ℕ => Kept K z x.1) ?_ ?_
  · exact (Win.fail_kept ha2)
  · extract_lets +onlyGivenNames -merge -useContext u0
    exact (Win.ok_kept ha2)

theorem poolAlloc_kept {z a0 a1 a2} (frames : ¬K .frames) (fabric : ¬K .fabric) (ha2 : Kept K z a2) : Kept K z
    (poolAlloc a0 a1 a2).1 := by
  unfold poolAlloc
  split
  · rename_i m0 m1 q2
    have h3 : Kept K z m1 := Kept.of_eq (P := fun x : Option ℕ × State => Kept K z x.2) q2 (by
      refine Kept.ite (P := fun x : Option ℕ × State => Kept K z x.2) ?_ ?_
      · exact (grantBuf_kept frames (serveAhead_kept frames fabric ha2))
      · exact (grantBuf_kept frames ha2))
    exact (Win.ok_kept h3)
  · rename_i m4 q5
    have h6 : Kept K z m4 := Kept.of_eq (P := fun x : Option ℕ × State => Kept K z x.2) q5 (by
      refine Kept.ite (P := fun x : Option ℕ × State => Kept K z x.2) ?_ ?_
      · exact (grantBuf_kept frames (serveAhead_kept frames fabric ha2))
      · exact (grantBuf_kept frames ha2))
    exact (Win.failPtr_kept h6)

theorem poolFree_kept {z a0 a1 a2} (frames : ¬K .frames) (ha2 : Kept K z a2) : Kept K z (poolFree a0 a1 a2).1 := by
  unfold poolFree
  split
  · rename_i q
    exact Win.ok_kept (Kept.snd q (freeBuf_kept frames ha2))
  · rename_i q
    exact Kept.snd q (freeBuf_kept frames ha2)

theorem poolQuery_kept {z a0 a1 a2} (ha2 : Kept K z a2) : Kept K z (poolQuery a0 a1 a2).1 := by
  unfold poolQuery
  extract_lets +onlyGivenNames -merge -useContext u0
  split
  · exact (Win.failPtr_kept ha2)
  · exact (Win.failPtr_kept ha2)
  · extract_lets +onlyGivenNames -merge -useContext u4
    exact (Win.ok_kept ha2)

theorem bpmTable_kept {z a0 a1 a2} (frames : ¬K .frames) (fabric : ¬K .fabric) (ha2 : Kept K z a2) : Kept K z
    (bpmTable a0 a1 a2).1 := by
  unfold bpmTable
  split
  · exact (onPool_kept (fun _ _ _ h1 => (poolRead_kept h1)) ha2)
  · exact (onPool_kept (fun _ _ _ h3 => (poolAlloc_kept frames fabric h3)) ha2)
  · exact (onPool_kept (fun _ _ _ h5 => (poolFree_kept frames h5)) ha2)
  · exact (onPool_kept (fun _ _ _ h7 => (poolQuery_kept h7)) ha2)
  · exact (Win.fail_kept ha2)

theorem execAlloc_kept {z a0 a1} (frames : ¬K .frames) (fabric : ¬K .fabric) (ha1 : Kept K z a1) : ∀ t, (execAlloc
    a0 a1) = .next t → Kept K z t :=
  (done_kept (tblCmd_kept (fun _ _ h0 => (bpmTable_kept frames fabric h0)) ha1))

theorem execFree_kept {z a0 a1} (frames : ¬K .frames) (fabric : ¬K .fabric) (ha1 : Kept K z a1) : ∀ t, (execFree a0
    a1) = .next t → Kept K z t :=
  (done_kept (tblCmd_kept (fun _ _ h0 => (bpmTable_kept frames fabric h0)) ha1))

theorem execQuery_kept {z a0 a1} (frames : ¬K .frames) (fabric : ¬K .fabric) (ha1 : Kept K z a1) : ∀ t, (execQuery
    a0 a1) = .next t → Kept K z t :=
  (done_kept (tblCmd_kept (fun _ _ h0 => (bpmTable_kept frames fabric h0)) ha1))

theorem admProfWrite_kept {z a0 a1} (ha1 : Kept K z a1) : Kept K z (admProfWrite a0 a1).1 := by
  unfold admProfWrite
  extract_lets +onlyGivenNames -merge -useContext u0 u1
  refine Kept.ite (P := fun x : State × ℕ × Option ℕ => Kept K z x.1) ?_ ?_
  · exact (Win.fail_kept ha1)
  · refine Kept.ite (P := fun x : State × ℕ × Option ℕ => Kept K z x.1) ?_ ?_
    · exact (Win.fail_kept ha1)
    · exact (Win.ok_kept (State.setTab_kept ha1))

theorem cellTable_kept {z a0 a1 a2} (ha2 : Kept K z a2) : Kept K z (cellTable a0 a1 a2).1 := by
  unfold cellTable
  refine Kept.ite (P := fun x : State × ℕ × Option ℕ => Kept K z x.1) ?_ ?_
  · exact (Win.fail_kept ha2)
  · refine Kept.ite (P := fun x : State × ℕ × Option ℕ => Kept K z x.1) ?_ ?_
    · exact (Win.fail_kept ha2)
    · refine Kept.ite (P := fun x : State × ℕ × Option ℕ => Kept K z x.1) ?_ ?_
      · exact (Win.read_kept ha2)
      · exact (admProfWrite_kept ha2)

theorem spillTable_kept {z a0 a1 a2} (ha2 : Kept K z a2) : Kept K z (spillTable a0 a1 a2).1 := by
  unfold spillTable
  refine Kept.ite (P := fun x : State × ℕ × Option ℕ => Kept K z x.1) ?_ ?_
  · exact (Win.fail_kept ha2)
  · refine Kept.ite (P := fun x : State × ℕ × Option ℕ => Kept K z x.1) ?_ ?_
    · exact (Win.fail_kept ha2)
    · exact (Win.ok_kept ha2)

theorem bufferReg_kept {z a0 a1 a2 a3} (frames : ¬K .frames) (ha3 : Kept K z a3) : ∀ t0, (bufferReg a0 a1 a2 a3) =
    some t0 → Kept K z t0 := by
  unfold bufferReg
  refine Kept.ite (P := fun x : Option State => ∀ t0, x = some t0 → Kept K z t0) ?_ ?_
  · exact (Kept.some (ageLimit_kept frames ha3))
  · refine Kept.ite (P := fun x : Option State => ∀ t0, x = some t0 → Kept K z t0) ?_ ?_
    · exact (Kept.some (Kept.ite (P := Kept K z) (errReq_kept ha3) (State.setReg_kept ha3)))
    · refine Kept.ite (P := fun x : Option State => ∀ t0, x = some t0 → Kept K z t0) ?_ ?_
      · exact (Kept.some (hpCount_kept ha3))
      · refine Kept.ite (P := fun x : Option State => ∀ t0, x = some t0 → Kept K z t0) ?_ ?_
        · extract_lets +onlyGivenNames -merge -useContext u0
          extract_lets +onlyGivenNames -merge -useContext u1
          have h2 : Kept K z u1 := (storeReg_kept ha3)
          try clear_value u1
          exact (Kept.some (setPart_kept h2))
        · exact Kept.none

end Sys2Proof.Machine
end

