-- ==== Sys2Proof/Laws/KeptLines.lean ====
section
/-!
SUPPORT. Every operation and meaning of Machine/Lines.lean keeps the state sane, its queue as it is and its outputs made.
-/
namespace Sys2Proof.Machine

variable {K : Area → Prop}

theorem tsuStamp_kept {z a0 a1 a2 a3} (ha3 : Kept K z a3) : Kept K z (tsuStamp a0 a1 a2 a3).2 := by
  unfold tsuStamp
  refine Kept.ite (P := fun x : ℕ × State => Kept K z x.2) ?_ ?_
  · try dsimp -zeta only
    exact ha3
  · exact (State.free_kept ha3)

theorem bwClose_kept {z a0 a1} (ha1 : Kept K z a1) : Kept K z (bwClose a0 a1) := by
  unfold bwClose
  extract_lets +onlyGivenNames -merge -useContext u0
  have h1 : ∀ y0_0 y0_1 y0_2 y0_3, (Kept K z y0_3) → Kept K z (u0 y0_0 y0_1 y0_2 y0_3) := (fun _ _ _ _ h2 =>
      (State.setReg_kept (State.setReg_kept h2)))
  try clear_value u0
  extract_lets +onlyGivenNames -merge -useContext u3
  have h4 : Kept K z u3 := (h1 _ _ _ _ ha1)
  try clear_value u3
  extract_lets +onlyGivenNames -merge -useContext u5
  have h6 : Kept K z u5 := (h1 _ _ _ _ h4)
  try clear_value u5
  exact (State.setReg_kept (State.setH_kept (State.setH_kept h6)))

theorem bwCatch_kept {z a0 a1 a2} (ha2 : Kept K z a2) : Kept K z (bwCatch a0 a1 a2) := by
  unfold bwCatch
  extract_lets +onlyGivenNames -merge -useContext u0 u1
  refine Kept.ite (P := Kept K z) ?_ ?_
  · exact ha2
  · extract_lets +onlyGivenNames -merge -useContext u2
    extract_lets +onlyGivenNames -merge -useContext u3
    have h4 : Kept K z u3 := (bwClose_kept ha2)
    try clear_value u3
    extract_lets +onlyGivenNames -merge -useContext u5
    have h6 : Kept K z u5 := (State.when_kept h4 (fun _ h7 => (State.setReg_kept (bwClose_kept h7))))
    try clear_value u5
    exact (State.setH_kept h6)

theorem bwCount_kept {z a0 a1 a2 a3 a4} (ha4 : Kept K z a4) : Kept K z (bwCount a0 a1 a2 a3 a4) := by
  unfold bwCount
  extract_lets +onlyGivenNames -merge -useContext u0
  have h1 : Kept K z u0 := (bwCatch_kept ha4)
  try clear_value u0
  extract_lets +onlyGivenNames -merge -useContext u2
  refine Kept.ite (P := Kept K z) ?_ ?_
  · exact h1
  · refine Kept.ite (P := Kept K z) ?_ ?_
    · split
      · refine Kept.ite (P := Kept K z) ?_ ?_
        · exact h1
        · extract_lets +onlyGivenNames -merge -useContext u5
          exact (State.setReg_kept (State.setReg_kept h1))
    · extract_lets +onlyGivenNames -merge -useContext u6
      exact (State.setH_kept h1)

theorem rxBytes_kept {z a0 a1 a2} (frames : ¬K .frames) (ha2 : Kept K z a2) : Kept K z (rxBytes a0 a1 a2) := by
  unfold rxBytes
  extract_lets +onlyGivenNames -merge -useContext u0
  refine Kept.ite (P := Kept K z) ?_ ?_
  · exact ha2
  · extract_lets +onlyGivenNames -merge -useContext u1
    extract_lets +onlyGivenNames -merge -useContext u2
    have h3 : Kept K z u2 := (State.setH_kept ha2)
    try clear_value u2
    split
    · exact h3
    · extract_lets +onlyGivenNames -merge -useContext u6
      extract_lets +onlyGivenNames -merge -useContext u7 u8
      have h9 : Kept K z u8 := (Kept.ite (P := Kept K z) (State.setHb_kept h3) h3)
      try clear_value u8
      exact (State.putFrame_kept frames h9)

theorem rxBad_kept {z a0 a1 a2} (frames : ¬K .frames) (ha2 : Kept K z a2) : Kept K z (rxBad a0 a1 a2) := by
  unfold rxBad
  refine Kept.ite (P := Kept K z) ?_ ?_
  · split
    · exact (State.drop_kept frames ha2)
    · exact ha2
  · extract_lets +onlyGivenNames -merge -useContext u2
    have h3 : Kept K z u2 := (bump_kept ha2)
    try clear_value u2
    split
    · exact (State.putFrame_kept frames h3)
    · exact h3

theorem rxDiscard_kept {z a0 a1} (frames : ¬K .frames) (ha1 : Kept K z a1) : Kept K z (rxDiscard a0 a1) := by
  unfold rxDiscard
  split
  · exact (State.drop_kept frames ha1)
  · exact ha1

theorem rxFill_kept {z a0 a1 a2} (frames : ¬K .frames) (ha2 : Kept K z a2) : Kept K z (rxFill a0 a1 a2) := by
  unfold rxFill
  split
  · refine Kept.ite (P := Kept K z) ?_ ?_
    · exact ha2
    · refine Kept.ite (P := Kept K z) ?_ ?_
      · split
        · rename_i m1 m2 q3
          have h4 : Kept K z m2 := Kept.of_eq (P := fun x : ℕ × State => Kept K z x.2) q3 (State.free_kept ha2)
          exact (State.putFrame_kept frames h4)
      · exact (State.putFrame_kept frames ha2)
  · exact ha2

theorem rxEnd_kept {z a0 a1 a2 a3} (frames : ¬K .frames) (ha3 : Kept K z a3) : Kept K z (rxEnd a0 a1 a2 a3) := by
  unfold rxEnd
  extract_lets +onlyGivenNames -merge -useContext u0
  refine Kept.ite (P := Kept K z) ?_ ?_
  · exact ha3
  · extract_lets +onlyGivenNames -merge -useContext u1
    extract_lets +onlyGivenNames -merge -useContext u2 u3 u4
    have h5 : Kept K z u4 := (bwCount_kept (State.setH_kept ha3))
    try clear_value u4
    refine Kept.ite (P := Kept K z) ?_ ?_
    · exact (rxBad_kept frames (rxFill_kept frames (bump_kept h5)))
    · refine Kept.ite (P := Kept K z) ?_ ?_
      · exact (rxBad_kept frames (rxFill_kept frames (bump_kept h5)))
      · refine Kept.ite (P := Kept K z) ?_ ?_
        · exact (rxDiscard_kept frames (bump_kept h5))
        · refine Kept.ite (P := Kept K z) ?_ ?_
          · extract_lets +onlyGivenNames -merge -useContext u6
            have h7 : Kept K z u6 := (bump_kept h5)
            try clear_value u6
            exact (Kept.ite (P := Kept K z) (rxDiscard_kept frames h7) (rxBad_kept frames h7))
          · extract_lets +onlyGivenNames -merge -useContext u8
            have h9 : Kept K z u8 := (Kept.ite (P := Kept K z) h5 (bumpBy_kept (bump_kept h5)))
            try clear_value u8
            split
            · exact (State.putFrame_kept frames h9)
            · exact h9

theorem rxStart_kept {z a0 a1 a2} (frames : ¬K .frames) (ha2 : Kept K z a2) : Kept K z (rxStart a0 a1 a2) := by
  unfold rxStart
  refine Kept.ite (P := Kept K z) ?_ ?_
  · exact ha2
  · refine Kept.ite (P := Kept K z) ?_ ?_
    · exact (Kept.ite (P := Kept K z) (errDisabled_kept ha2) ha2)
    · extract_lets +onlyGivenNames -merge -useContext u0
      have h1 : Kept K z u0 := (rxEnd_kept frames ha2)
      try clear_value u0
      split
      · rename_i m2 m3 q4
        have h5 : Kept K z m3 := Kept.of_eq (P := fun x : ℕ × State => Kept K z x.2) q4 (tsuStamp_kept h1)
        extract_lets +onlyGivenNames -merge -useContext u6 u7 u8
        have h9 : Kept K z u8 := (State.newFrame_kept frames h5)
        try clear_value u8
        extract_lets +onlyGivenNames -merge -useContext u10
        have h11 : Kept K z u10 := (State.setH_kept (State.setH_kept (State.setH_kept h9)))
        try clear_value u10
        exact (State.setHb_kept (State.setH_kept h11))

theorem loopRx_kept {z a0 a1 a2 a3} (frames : ¬K .frames) (ha3 : Kept K z a3) : Kept K z (loopRx a0 a1 a2 a3) :=
  (Kept.ite (P := Kept K z) (rxEnd_kept frames (rxBytes_kept frames (rxStart_kept frames ha3))) ha3)

theorem rclkSquelch_kept {z a0 a1} (ha1 : Kept K z a1) : Kept K z (rclkSquelch a0 a1) := by
  unfold rclkSquelch
  extract_lets +onlyGivenNames -merge -useContext u0
  exact (Kept.ite (P := Kept K z) (raise_kept (State.setRbit_kept ha1)) ha1)

theorem lockChange_kept {z} {a0 : State → State} {a1} (ha0 : ∀ y0_0, (Kept K z y0_0) → Kept K z (a0 y0_0)) (ha1 :
    Kept K z a1) : Kept K z (lockChange a0 a1) := by
  unfold lockChange
  extract_lets +onlyGivenNames -merge -useContext u0 u1 u2
  have h3 : Kept K z u2 := (ha0 _ ha1)
  try clear_value u2
  exact (forEach_kept h3 (fun _ _ h4 => (Kept.ite (P := Kept K z) h4 (rclkSquelch_kept h4))))

theorem releasePauses_kept {z a0 a1} (ha1 : Kept K z a1) : Kept K z (releasePauses a0 a1) :=
  (forEach_kept ha1 (fun _ _ h0 => (State.setH_kept h0)))

theorem remoteFault_kept {z a0 a1} (ha1 : Kept K z a1) : Kept K z (remoteFault a0 a1) := by
  unfold remoteFault
  extract_lets +onlyGivenNames -merge -useContext u0
  exact (Kept.ite (P := Kept K z) ha1 (State.emit_kept (State.setHb_kept ha1)))

theorem setLink_kept {z a0 a1 a2} (frames : ¬K .frames) (ha2 : Kept K z a2) : Kept K z (setLink a0 a1 a2) := by
  unfold setLink
  extract_lets +onlyGivenNames -merge -useContext u0 u1
  have h2 : Kept K z u1 := (State.setRfld_kept ha2)
  try clear_value u1
  extract_lets +onlyGivenNames -merge -useContext u3
  have h4 : Kept K z u3 := (Kept.ite (P := Kept K z) h2 (State.setRfld_kept h2))
  try clear_value u3
  extract_lets +onlyGivenNames -merge -useContext u5
  have h6 : Kept K z u5 := (remoteFault_kept (Kept.ite (P := Kept K z) (State.setH_kept h4) h4))
  try clear_value u5
  exact (Kept.ite (P := Kept K z) (raise_kept (releasePauses_kept (rxEnd_kept frames h6))) h6)

theorem signalDetect_kept {z a0 a1} (frames : ¬K .frames) (ha1 : Kept K z a1) : Kept K z (signalDetect a0 a1) := by
  unfold signalDetect
  extract_lets +onlyGivenNames -merge -useContext u0
  have h1 : Kept K z u0 := (forEach_kept ha1 (fun _ _ h2 => (Kept.ite (P := Kept K z) h2 (State.setH_kept h2))))
  try clear_value u0
  extract_lets +onlyGivenNames -merge -useContext u3
  have h4 : Kept K z u3 := (State.setRfld_kept h1)
  try clear_value u3
  exact (Kept.ite (P := Kept K z) (setLink_kept frames h4) h4)

theorem execSignalDetect_kept {z a0 a1} (frames : ¬K .frames) (ha1 : Kept K z a1) : ∀ t, (execSignalDetect a0 a1) =
    .next t → Kept K z t :=
  (done_kept (State.when_kept ha1 (fun _ h0 => (signalDetect_kept frames h0))))

theorem execAlignmentLock_kept {z a0 a1} (frames : ¬K .frames) (ha1 : Kept K z a1) : ∀ t, (execAlignmentLock a0 a1)
    = .next t → Kept K z t :=
  (done_kept (State.when_kept ha1 (fun _ h0 => (setLink_kept frames h0))))

theorem deskewMeasured_kept {z a0 a1 a2} (frames : ¬K .frames) (ha2 : Kept K z a2) : Kept K z (deskewMeasured a0 a1
    a2) := by
  unfold deskewMeasured
  extract_lets +onlyGivenNames -merge -useContext u0 u1 u2 u3 u4
  have h5 : Kept K z u4 := (forEach_kept ha2 (fun _ _ h6 => (State.setReg_kept h6)))
  try clear_value u4
  exact (Kept.ite (P := Kept K z) (setLink_kept frames (State.setH_kept h5)) (raise_kept (setLink_kept frames h5)))

theorem execDeskewMeasured_kept {z a0 a1 a2} (frames : ¬K .frames) (ha2 : Kept K z a2) : ∀ t, (execDeskewMeasured a0
    a1 a2) = .next t → Kept K z t :=
  (done_kept (State.when_kept ha2 (fun _ h0 => (deskewMeasured_kept frames h0))))

theorem execAlignmentLoss_kept {z a0 a1} (frames : ¬K .frames) (ha1 : Kept K z a1) : ∀ t, (execAlignmentLoss a0 a1)
    = .next t → Kept K z t :=
  (done_kept (State.when_kept ha1 (fun _ h0 => (setLink_kept frames h0))))

theorem signalLoss_kept {z a0 a1 a2} (frames : ¬K .frames) (ha2 : Kept K z a2) : Kept K z (signalLoss a0 a1 a2) := by
  unfold signalLoss
  extract_lets +onlyGivenNames -merge -useContext u0
  have h1 : Kept K z u0 := (lockChange_kept (fun _ h2 => (State.setRbit_kept h2)) ha2)
  try clear_value u0
  exact (Kept.ite (P := Kept K z) h1 (setLink_kept frames h1))

theorem execRclkResume_kept {z a0 a1} (time : ¬K .time) (ha1 : Kept K z a1) : ∀ t, (execRclkResume a0 a1) = .next t
    → Kept K z t := by
  unfold execRclkResume
  refine done_kept ?_
  refine State.ifLive_kept ?_ ?_
  · exact ha1
  · intro a8 h9
    extract_lets +onlyGivenNames -merge -useContext u10
    exact (Kept.ite (P := Kept K z) (State.setRbit_kept (waitRoot_kept time h9)) h9)

theorem faultSets_kept {z a0 a1 a2} (ha2 : Kept K z a2) : Kept K z (faultSets a0 a1 a2) := by
  unfold faultSets
  extract_lets +onlyGivenNames -merge -useContext u0 u1
  have h2 : Kept K z u1 := (State.setRfld_kept ha2)
  try clear_value u1
  extract_lets +onlyGivenNames -merge -useContext u3
  have h4 : Kept K z u3 := (Kept.ite (P := Kept K z) (raise_kept (releasePauses_kept (State.setRfld_kept h2))) h2)
  try clear_value u3
  exact (remoteFault_kept h4)

theorem remoteUpdate_kept {z a0 a1} (ha1 : Kept K z a1) : Kept K z (remoteUpdate a0 a1) := by
  unfold remoteUpdate
  extract_lets +onlyGivenNames -merge -useContext u0 u1
  have h2 : Kept K z u1 := (remoteFault_kept ha1)
  try clear_value u1
  exact (Kept.ite (P := Kept K z) (faultSets_kept h2) h2)

theorem upFaults_kept {z a0 a1} (ha1 : Kept K z a1) : Kept K z (upFaults a0 a1) :=
  (Kept.ite (P := Kept K z) (faultSets_kept ha1) (Kept.ite (P := Kept K z) (faultSets_kept ha1) ha1))

theorem upHold_kept {z a0 a1} (frames : ¬K .frames) (ha1 : Kept K z a1) : Kept K z (upHold a0 a1) := by
  unfold upHold
  extract_lets +onlyGivenNames -merge -useContext u0
  have h1 : Kept K z u0 := (State.setReg_kept ha1)
  try clear_value u0
  exact (upFaults_kept (raise_kept (bump_kept (setLink_kept frames h1))))

theorem execUpHoldExpire_kept {z a0 a1} (frames : ¬K .frames) (time : ¬K .time) (ha1 : Kept K z a1) : ∀ t,
    (execUpHoldExpire a0 a1) = .next t → Kept K z t :=
  (done_kept (State.when_kept ha1 (fun _ h0 => (upHold_kept frames (waitSince_kept time h0)))))

theorem execFaultSetsRx_kept {z a0 a1 a2} (ha2 : Kept K z a2) : ∀ t, (execFaultSetsRx a0 a1 a2) = .next t → Kept K z
    t :=
  (done_kept (State.when_kept ha2 (fun _ h0 => (faultSets_kept h0))))

theorem execFaultSetsAbsent_kept {z a0 a1} (frames : ¬K .frames) (ha1 : Kept K z a1) : ∀ t, (execFaultSetsAbsent a0
    a1) = .next t → Kept K z t :=
  (done_kept (State.when_kept ha1 (fun _ h0 => (setLink_kept frames h0))))

theorem fecWindow_kept {z a0 a1 a2 a3 a4} (ha4 : Kept K z a4) : Kept K z (fecWindow a0 a1 a2 a3 a4) := by
  unfold fecWindow
  refine Kept.ite (P := Kept K z) ?_ ?_
  · exact ha4
  · refine Kept.ite (P := Kept K z) ?_ ?_
    · exact (State.ifLive_kept ha4 (fun _ h2 => (bumpBy_kept (bumpBy_kept h2))))
    · extract_lets +onlyGivenNames -merge -useContext u3
      have h4 : Kept K z u3 := (bumpBy_kept ha4)
      try clear_value u3
      extract_lets +onlyGivenNames -merge -useContext u5
      have h6 : Kept K z u5 := (bumpBy_kept h4)
      try clear_value u5
      extract_lets +onlyGivenNames -merge -useContext u7
      have h8 : Kept K z u7 := (bumpBy_kept h6)
      try clear_value u7
      extract_lets +onlyGivenNames -merge -useContext u9 u10
      have h11 : Kept K z u10 := (State.setRbit_kept h8)
      try clear_value u10
      exact (Kept.ite (P := Kept K z) (raise_kept h11) h11)

theorem execFecWindow_kept {z a0 a1 a2 a3 a4} (time : ¬K .time) (ha4 : Kept K z a4) : ∀ t, (execFecWindow a0 a1 a2
    a3 a4) = .next t → Kept K z t := by
  unfold execFecWindow
  refine done_kept ?_
  refine State.when_kept ?_ ?_
  · exact ha4
  · intro a9 h10
    extract_lets +onlyGivenNames -merge -useContext u11
    have h12 : Kept K z u11 := (nextInterval_kept time h10)
    try clear_value u11
    exact (fecWindow_kept h12)

theorem mapCommit_kept {z a0 a1 a2 a3} (ha3 : Kept K z a3) : Kept K z (mapCommit a0 a1 a2 a3) := by
  unfold mapCommit
  extract_lets +onlyGivenNames -merge -useContext u0 u1 u2
  refine Kept.ite (P := Kept K z) ?_ ?_
  · exact ha3
  · refine Kept.ite (P := Kept K z) ?_ ?_
    · exact (errReq_kept ha3)
    · split
      · exact (errReq_kept ha3)
      · exact (State.setHb_kept (State.setReg_kept (State.setReg_kept ha3)))

theorem execMapCommit_kept {z a0 a1 a2 a3} (ha3 : Kept K z a3) : ∀ t, (execMapCommit a0 a1 a2 a3) = .next t → Kept K
    z t :=
  (done_kept (gateWrite_kept (fun _ h0 => (mapCommit_kept h0)) ha3))

theorem otnOut_kept {z a0 a1} (agents : ¬K .agents) (ha1 : Kept K z a1) : Kept K z (otnOut a0 a1) := by
  unfold otnOut
  extract_lets +onlyGivenNames -merge -useContext u0
  have h1 : Kept K z u0 := (State.setReg_kept (State.setH_kept ha1))
  try clear_value u0
  extract_lets +onlyGivenNames -merge -useContext u2
  have h3 : Kept K z u2 := (forEach_kept h1 (fun _ _ h4 => (State.setH_kept (State.setH_kept (State.setH_kept h4)))))
  try clear_value u2
  exact (Kept.same h3 rfl (Area.each (fun _ => Area.f5) (fun _ => Area.f5) (fun _ => rfl) (fun _ => Area.f5) (fun _
      => Area.f3) (fun _ => rfl) (fun _ => Area.f4) (absurd · agents)))

theorem mapApply_kept {z a0 a1} (frames : ¬K .frames) (agents : ¬K .agents) (ha1 : Kept K z a1) : Kept K z (mapApply
    a0 a1) := by
  unfold mapApply
  extract_lets +onlyGivenNames -merge -useContext u0 u1 u2 u3
  have h4 : Kept K z u3 := by
    unfold u3
    refine lockChange_kept ?_ ?_
    · intro a8 h9
      extract_lets +onlyGivenNames -merge -useContext u10
      have h11 : Kept K z u10 := (forEach_kept h9 (fun _ _ h12 => (Kept.ite (P := Kept K z) (otnOut_kept agents
          (State.setRfld_kept (setLink_kept frames h12))) h12)))
      try clear_value u10
      exact (State.setReg_kept (State.setReg_kept h11))
    · exact ha1
  try clear_value u3
  extract_lets +onlyGivenNames -merge -useContext u13
  have h14 : Kept K z u13 := (forEach_kept h4 (fun _ _ h15 => (setLink_kept frames (forEach_kept h15 (fun _ _ h16 =>
      (State.setH_kept h16))))))
  try clear_value u13
  exact (raise_kept (State.setHb_kept h14))

theorem execMapApplied_kept {z a0 a1} (frames : ¬K .frames) (agents : ¬K .agents) (ha1 : Kept K z a1) : ∀ t,
    (execMapApplied a0 a1) = .next t → Kept K z t :=
  (done_kept (State.ifLive_kept ha1 (fun _ h0 => (Kept.ite (P := Kept K z) (mapApply_kept frames agents h0) h0))))

theorem macCfg_kept {z a0 a1 a2 a3} (frames : ¬K .frames) (ha3 : Kept K z a3) : Kept K z (macCfg a0 a1 a2 a3) := by
  unfold macCfg
  extract_lets +onlyGivenNames -merge -useContext u0 u1 u2 u3 u4
  have h5 : Kept K z u4 := (Kept.ite (P := Kept K z) ha3 (errReq_kept ha3))
  try clear_value u4
  extract_lets +onlyGivenNames -merge -useContext u6
  have h7 : Kept K z u6 := (Kept.ite (P := Kept K z) h5 (errReq_kept h5))
  try clear_value u6
  extract_lets +onlyGivenNames -merge -useContext u8 u9
  have h10 : Kept K z u9 := (State.setReg_kept h7)
  try clear_value u9
  exact (remoteFault_kept (Kept.ite (P := Kept K z) h10 (Kept.ite (P := Kept K z) (Kept.ite (P := Kept K z)
      (setLink_kept frames h10) h10) (setLink_kept frames h10))))

theorem execMacCfgWrite_kept {z a0 a1 a2 a3} (frames : ¬K .frames) (ha3 : Kept K z a3) : ∀ t, (execMacCfgWrite a0 a1
    a2 a3) = .next t → Kept K z t :=
  (done_kept (gateWrite_kept (fun _ h0 => (macCfg_kept frames h0)) ha3))

theorem linkCfg_kept {z a0 a1 a2 a3} (frames : ¬K .frames) (ha3 : Kept K z a3) : Kept K z (linkCfg a0 a1 a2 a3) := by
  unfold linkCfg
  extract_lets +onlyGivenNames -merge -useContext u0
  refine Kept.ite (P := Kept K z) ?_ ?_
  · exact (errReq_kept ha3)
  · extract_lets +onlyGivenNames -merge -useContext u1
    extract_lets +onlyGivenNames -merge -useContext u2
    have h3 : Kept K z u2 := (State.setReg_kept ha3)
    try clear_value u2
    exact (Kept.ite (P := Kept K z) (setLink_kept frames h3) h3)

theorem execLoopbackWrite_kept {z a0 a1 a2 a3} (frames : ¬K .frames) (ha3 : Kept K z a3) : ∀ t, (execLoopbackWrite
    a0 a1 a2 a3) = .next t → Kept K z t :=
  (done_kept (gateWrite_kept (fun _ h0 => (linkCfg_kept frames h0)) ha3))

end Sys2Proof.Machine
end

