-- ==== Sys2Proof/Laws/KeptPorts.lean ====
section
/-!
SUPPORT. Every operation and meaning of Machine/Ports.lean keeps the state sane, its queue as it is and its outputs made.
-/
namespace Sys2Proof.Machine

variable {K : Area → Prop}

theorem execStartOfFrameRx_kept {z a0 a1 a2} (frames : ¬K .frames) (ha2 : Kept K z a2) : ∀ t, (execStartOfFrameRx a0
    a1 a2) = .next t → Kept K z t :=
  (done_kept (State.when_kept ha2 (fun _ h0 => (rxStart_kept frames h0))))

theorem execFrameTailRx_kept {z a0 a1 a2 a3 a4} (frames : ¬K .frames) (fabric : ¬K .fabric) (ha4 : Kept K z a4) : ∀
    t, (execFrameTailRx a0 a1 a2 a3 a4) = .next t → Kept K z t :=
  (done_kept (State.ifLive_kept ha4 (fun _ h0 => (grown_kept frames fabric (rxEnd_kept frames (rxBytes_kept frames
      h0))))))

theorem pipeDrop_kept {z a0 a1 a2} (frames : ¬K .frames) (ha2 : Kept K z a2) : Kept K z (pipeDrop a0 a1 a2) :=
  (raiseFirst_kept (bump_kept (State.drop_kept frames ha2)))

theorem headerHandoff_kept {z a0 a1 a2 a3} (frames : ¬K .frames) (ha3 : Kept K z a3) : Kept K z (headerHandoff a0 a1
    a2 a3) := by
  unfold headerHandoff
  extract_lets +onlyGivenNames -merge -useContext u0
  split
  · exact ha3
  · extract_lets +onlyGivenNames -merge -useContext u3
    have h4 : Kept K z u3 := (Kept.ite (P := Kept K z) ha3 (rxBytes_kept frames ha3))
    try clear_value u3
    split
    · exact h4
    · refine Kept.ite (P := Kept K z) ?_ ?_
      · exact h4
      · refine Kept.ite (P := Kept K z) ?_ ?_
        · extract_lets +onlyGivenNames -merge -useContext u7
          have h8 : Kept K z u7 := (State.drop_kept frames h4)
          try clear_value u7
          exact (Kept.ite (P := Kept K z) (errDisabled_kept h8) h8)
        · exact (Kept.ite (P := Kept K z) (pipeDrop_kept frames h4) (State.moveFrame_kept frames h4))

theorem execHeaderCellHandoff_kept {z a0 a1 a2 a3} (frames : ¬K .frames) (ha3 : Kept K z a3) : ∀ t,
    (execHeaderCellHandoff a0 a1 a2 a3) = .next t → Kept K z t :=
  (done_kept (headerHandoff_kept frames ha3))

theorem obeyPause_kept {z a0 a1 a2 a3} (ha3 : Kept K z a3) : Kept K z (obeyPause a0 a1 a2 a3) :=
  (State.setH_kept ha3)

theorem macCtl_kept {z a0 a1 a2} (ha2 : Kept K z a2) : Kept K z (macCtl a0 a1 a2) := by
  unfold macCtl
  extract_lets +onlyGivenNames -merge -useContext u0 u1 u2
  exact (Kept.ite (P := Kept K z) (bump_kept (forEach_kept ha2 (fun _ _ h3 => (obeyPause_kept h3)))) (Kept.ite (P :=
      Kept K z) (forEach_kept ha2 (fun _ _ h4 => (bump_kept (obeyPause_kept h4)))) (bump_kept ha2)))

theorem execMacCtlFrameRx_kept {z a0 a1} (frames : ¬K .frames) (ha1 : Kept K z a1) : ∀ t, (execMacCtlFrameRx a0 a1)
    = .next t → Kept K z t := by
  unfold execMacCtlFrameRx
  refine done_kept ?_
  refine State.ifLive_kept ?_ ?_
  · exact ha1
  · intro a9 h10
    split
    · exact (Kept.ite (P := Kept K z) (macCtl_kept (State.drop_kept frames h10)) h10)
    · exact h10

theorem execPauseExpire_kept {z a0 a1 a2} (time : ¬K .time) (ha2 : Kept K z a2) : ∀ t, (execPauseExpire a0 a1 a2) =
    .next t → Kept K z t := by
  unfold execPauseExpire
  refine done_kept ?_
  refine State.ifLive_kept ?_ ?_
  · exact ha2
  · intro a9 h10
    refine Kept.ite (P := Kept K z) ?_ ?_
    · extract_lets +onlyGivenNames -merge -useContext u11
      have h12 : Kept K z u11 := (Kept.ite (P := Kept K z) (advanceTo_kept time h10) h10)
      try clear_value u11
      exact (State.setH_kept h12)
    · exact h10

theorem dropLate_kept {z a0 a1 a2} (frames : ¬K .frames) (ha2 : Kept K z a2) : Kept K z (dropLate a0 a1 a2) := by
  unfold dropLate
  extract_lets +onlyGivenNames -merge -useContext u0
  have h1 : Kept K z u0 := (State.ifLive_kept ha2 (fun _ h2 => (raise_kept (bump_kept h2))))
  try clear_value u0
  extract_lets +onlyGivenNames -merge -useContext u3
  have h4 : Kept K z u3 := (Kept.ite (P := Kept K z) h1 (injResult_kept frames h1))
  try clear_value u3
  extract_lets +onlyGivenNames -merge -useContext u5
  have h6 : Kept K z u5 := (Kept.ite (P := Kept K z) h4 (pfeMiss_kept h4))
  try clear_value u5
  exact (State.drop_kept frames h6)

theorem tsuWrite_kept {z a0 a1 a2 a3} (ha3 : Kept K z a3) : Kept K z (tsuWrite a0 a1 a2 a3).2 := by
  unfold tsuWrite
  refine Kept.ite (P := fun x : Option Frame × State => Kept K z x.2) ?_ ?_
  · try dsimp -zeta only
    exact ha3
  · refine Kept.ite (P := fun x : Option Frame × State => Kept K z x.2) ?_ ?_
    · try dsimp -zeta only
      exact (Kept.ite (P := Kept K z) (errDisabled_kept ha3) ha3)
    · refine Kept.ite (P := fun x : Option Frame × State => Kept K z x.2) ?_ ?_
      · try dsimp -zeta only
        exact (errInt_kept ha3)
      · extract_lets +onlyGivenNames -merge -useContext u0
        extract_lets +onlyGivenNames -merge -useContext u1 u2
        split
        · try dsimp -zeta only
          exact ha3
        · try dsimp -zeta only
          exact (raise_kept (bump_kept ha3))

theorem txDownDrop_kept {z a0 a1 a2} (frames : ¬K .frames) (ha2 : Kept K z a2) : Kept K z (txDownDrop a0 a1 a2) := by
  unfold txDownDrop
  extract_lets +onlyGivenNames -merge -useContext u0 u1
  have h2 : Kept K z u1 := (State.drop_kept frames ha2)
  try clear_value u1
  exact (Kept.ite (P := Kept K z) h2 (Kept.ite (P := Kept K z) (errDisabled_kept h2) (bump_kept h2)))

theorem txBegin_kept {z a0 a1 a2} (ha2 : Kept K z a2) : Kept K z (txBegin a0 a1 a2) :=
  (State.setH_kept (State.setH_kept ha2))

theorem txEnd_kept {z a0 a1 a2} (ha2 : Kept K z a2) : Kept K z (txEnd a0 a1 a2) :=
  (bwCount_kept (State.setH_kept ha2))

theorem abortTx_kept {z a0 a1 a2 a3} (frames : ¬K .frames) (ha3 : Kept K z a3) : Kept K z (abortTx a0 a1 a2 a3) := by
  unfold abortTx
  extract_lets +onlyGivenNames -merge -useContext u0
  have h1 : Kept K z u0 := (txEnd_kept (Kept.ite (P := Kept K z) ha3 (txBegin_kept ha3)))
  try clear_value u0
  extract_lets +onlyGivenNames -merge -useContext u2
  have h3 : Kept K z u2 := (raise_kept (bump_kept h1))
  try clear_value u2
  extract_lets +onlyGivenNames -merge -useContext u4
  have h5 : Kept K z u4 := (loopRx_kept frames (State.emit_kept h3))
  try clear_value u4
  exact (State.drop_kept frames h5)

theorem cutTx_kept {z a0 a1 a2} (frames : ¬K .frames) (ha2 : Kept K z a2) : Kept K z (cutTx a0 a1 a2) :=
  (Kept.ite (P := Kept K z) (abortTx_kept frames (raiseFirst_kept (bump_kept ha2))) (abortTx_kept frames ha2))

theorem txFinish_kept {z a0 a1 a2} (frames : ¬K .frames) (ha2 : Kept K z a2) : Kept K z (txFinish a0 a1 a2) := by
  unfold txFinish
  refine Kept.ite (P := Kept K z) ?_ ?_
  · exact (cutTx_kept frames ha2)
  · extract_lets +onlyGivenNames -merge -useContext u0
    extract_lets +onlyGivenNames -merge -useContext u1 u2
    have h3 : Kept K z u2 := (txEnd_kept ha2)
    try clear_value u2
    extract_lets +onlyGivenNames -merge -useContext u4
    have h5 : Kept K z u4 := (Kept.ite (P := Kept K z) (bump_kept h3) (bumpBy_kept (bump_kept h3)))
    try clear_value u4
    extract_lets +onlyGivenNames -merge -useContext u6
    have h7 : Kept K z u6 := (Kept.ite (P := Kept K z) h5 (injResult_kept frames h5))
    try clear_value u6
    extract_lets +onlyGivenNames -merge -useContext u8
    have h9 : Kept K z u8 := (loopRx_kept frames (State.emit_kept h7))
    try clear_value u8
    exact (State.drop_kept frames h9)

theorem waitPlane_kept {z a0 a1 a2} (time : ¬K .time) (ha2 : Kept K z a2) : Kept K z (waitPlane a0 a1 a2) :=
  (Kept.ite (P := Kept K z) (advanceTo_kept time ha2) ha2)

theorem txStart_kept {z a0 a1 a2 a3} (frames : ¬K .frames) (time : ¬K .time) (ha3 : Kept K z a3) : Kept K z (txStart
    a0 a1 a2 a3) := by
  unfold txStart
  extract_lets +onlyGivenNames -merge -useContext u0
  have h1 : Kept K z u0 := (txBegin_kept (waitRoot_kept time ha3))
  try clear_value u0
  split
  · rename_i m2 m3 q4
    have h5 : Kept K z m3 := Kept.of_eq (P := fun x : ℕ × State => Kept K z x.2) q4 (tsuStamp_kept h1)
    split
    · rename_i m6 q7
      have h8 : Kept K z m6 := Kept.of_eq (P := fun x : Option Frame × State => Kept K z x.2) q7 (tsuWrite_kept h5)
      exact (State.drop_kept frames h8)
    · rename_i m9 m10 q11
      have h12 : Kept K z m10 := Kept.of_eq (P := fun x : Option Frame × State => Kept K z x.2) q11 (tsuWrite_kept h5)
      extract_lets +onlyGivenNames -merge -useContext u13 u14
      have h15 : Kept K z u14 := (Kept.ite (P := Kept K z) (pfeSent_kept h12) h12)
      try clear_value u14
      extract_lets +onlyGivenNames -merge -useContext u16
      have h17 : Kept K z u16 := (State.putFrame_kept frames h15)
      try clear_value u16
      exact (Kept.ite (P := Kept K z) (txFinish_kept frames h17) h17)

theorem txOne_kept {z a0 a1 a2 a3} (frames : ¬K .frames) (time : ¬K .time) (ha3 : Kept K z a3) : Kept K z (txOne a0
    a1 a2 a3) :=
  (Kept.ite (P := Kept K z) (bump_kept (State.drop_kept frames ha3)) (Kept.ite (P := Kept K z) (Kept.ite (P := Kept
      K z) ha3 (txDownDrop_kept frames ha3)) (Kept.ite (P := Kept K z) (Kept.ite (P := Kept K z) (txFinish_kept
      frames ha3) ha3) (txStart_kept frames time ha3))))

theorem fcEmit_kept {z a0 a1} (frames : ¬K .frames) (time : ¬K .time) (ha1 : Kept K z a1) : Kept K z (fcEmit a0 a1)
    := by
  unfold fcEmit
  extract_lets +onlyGivenNames -merge -useContext u0 u1 u2 u3
  have h4 : Kept K z u3 := (State.setH_kept (State.emit_kept ha1))
  try clear_value u3
  extract_lets +onlyGivenNames -merge -useContext u5
  have h6 : Kept K z u5 := (Kept.ite (P := Kept K z) (forEach_kept h4 (fun _ _ h7 => (bump_kept h7))) (bump_kept h4))
  try clear_value u5
  exact (loopRx_kept frames (txEnd_kept (txBegin_kept (waitRoot_kept time h6))))

theorem fcBoundary_kept {z a0 a1} (frames : ¬K .frames) (time : ¬K .time) (ha1 : Kept K z a1) : Kept K z (fcBoundary
    a0 a1) :=
  (Kept.ite (P := Kept K z) ha1 (Kept.ite (P := Kept K z) (State.setH_kept ha1) (Kept.ite (P := Kept K z) ha1
      (fcEmit_kept frames time (State.setH_kept ha1)))))

theorem fcSend_kept {z a0 a1} (frames : ¬K .frames) (time : ¬K .time) (ha1 : Kept K z a1) : Kept K z (fcSend a0 a1) :=
  (fcBoundary_kept frames time (State.setH_kept ha1))

theorem execFlowControlTx_kept {z a0 a1 a2} (frames : ¬K .frames) (time : ¬K .time) (ha2 : Kept K z a2) : ∀ t,
    (execFlowControlTx a0 a1 a2) = .next t → Kept K z t :=
  (done_kept (State.when_kept ha2 (fun _ h0 => (fcSend_kept frames time (State.setH_kept h0)))))

theorem execFcRefresh_kept {z a0 a1} (frames : ¬K .frames) (time : ¬K .time) (ha1 : Kept K z a1) : ∀ t,
    (execFcRefresh a0 a1) = .next t → Kept K z t :=
  (done_kept (State.when_kept ha1 (fun _ h0 => (fcSend_kept frames time (waitSince_kept time h0)))))

theorem execFrameTx_kept {z a0 a1 a2} (frames : ¬K .frames) (time : ¬K .time) (ha2 : Kept K z a2) : ∀ t,
    (execFrameTx a0 a1 a2) = .next t → Kept K z t := by
  unfold execFrameTx
  refine done_kept ?_
  refine State.when_kept ?_ ?_
  · exact ha2
  · intro a11 h12
    extract_lets +onlyGivenNames -merge -useContext u13
    have h14 : Kept K z u13 := (fcBoundary_kept frames time h12)
    try clear_value u13
    split
    · exact h14
    · exact (Kept.ite (P := Kept K z) h14 (fcBoundary_kept frames time (txOne_kept frames time h14)))

theorem abandonTx_kept {z a0 a1 a2} (frames : ¬K .frames) (ha2 : Kept K z a2) : Kept K z (abandonTx a0 a1 a2) :=
  (Kept.ite (P := Kept K z) (cutTx_kept frames ha2) (txDownDrop_kept frames ha2))

theorem execTxAbort_kept {z a0 a1} (frames : ¬K .frames) (time : ¬K .time) (ha1 : Kept K z a1) : ∀ t, (execTxAbort
    a0 a1) = .next t → Kept K z t := by
  unfold execTxAbort
  refine done_kept ?_
  refine State.when_kept ?_ ?_
  · exact ha1
  · intro a9 h10
    split
    · exact (fcBoundary_kept frames time (abandonTx_kept frames h10))
    · exact h10

theorem launchEntry_kept {z a0 a1} (frames : ¬K .frames) (ha1 : Kept K z a1) : Kept K z (launchEntry a0 a1) := by
  unfold launchEntry
  split
  · exact ha1
  · extract_lets +onlyGivenNames -merge -useContext u2
    refine Kept.ite (P := Kept K z) ?_ ?_
    · exact (dropLate_kept frames ha1)
    · refine Kept.ite (P := Kept K z) ?_ ?_
      · exact (State.drop_kept frames (bump_kept ha1))
      · refine Kept.ite (P := Kept K z) ?_ ?_
        · exact ha1
        · refine Kept.ite (P := Kept K z) ?_ ?_
          · exact ha1
          · extract_lets +onlyGivenNames -merge -useContext u3
            exact (State.moveFrame_kept frames (State.setH_kept ha1))

theorem execLaunchStageEntry_kept {z a0 a1} (frames : ¬K .frames) (ha1 : Kept K z a1) : ∀ t, (execLaunchStageEntry
    a0 a1) = .next t → Kept K z t :=
  (done_kept (State.when_kept ha1 (fun _ h0 => (launchEntry_kept frames h0))))

theorem deferHeld_kept {z a0 a1 a2} (frames : ¬K .frames) (ha2 : Kept K z a2) : Kept K z (deferHeld a0 a1 a2) :=
  (Kept.ite (P := Kept K z) ha2 (forEach_kept ha2 (fun _ _ h0 => (Kept.ite (P := Kept K z) (State.putFrame_kept
      frames (bump_kept h0)) h0))))

theorem timedStartNext_kept {z a0 a1 a2} (frames : ¬K .frames) (time : ¬K .time) (ha2 : Kept K z a2) : Kept K z
    (timedStartNext a0 a1 a2) := by
  unfold timedStartNext
  refine Kept.ite (P := Kept K z) ?_ ?_
  · exact ha2
  · split
    · exact ha2
    · extract_lets +onlyGivenNames -merge -useContext u2
      extract_lets +onlyGivenNames -merge -useContext u3
      have h4 : Kept K z u3 := (deferHeld_kept frames ha2)
      try clear_value u3
      split
      · refine Kept.ite (P := Kept K z) ?_ ?_
        · exact h4
        · extract_lets +onlyGivenNames -merge -useContext u7
          have h8 : Kept K z u7 := (waitPlane_kept time h4)
          try clear_value u7
          exact (fcBoundary_kept frames time (txOne_kept frames time h8))
      · exact h4

theorem execTimedFrameStart_kept {z a0 a1 a2} (frames : ¬K .frames) (time : ¬K .time) (ha2 : Kept K z a2) : ∀ t,
    (execTimedFrameStart a0 a1 a2) = .next t → Kept K z t :=
  (done_kept (State.when_kept ha2 (fun _ h0 => (timedStartNext_kept frames time h0))))

theorem launchDeadline_kept {z a0 a1} (frames : ¬K .frames) (time : ¬K .time) (ha1 : Kept K z a1) : Kept K z
    (launchDeadline a0 a1) := by
  unfold launchDeadline
  extract_lets +onlyGivenNames -merge -useContext u0 u1
  clear_value u1
  split
  · exact ha1
  · extract_lets +onlyGivenNames -merge -useContext u5
    extract_lets +onlyGivenNames -merge -useContext u6
    have h7 : Kept K z u6 := (deferHeld_kept frames ha1)
    try clear_value u6
    extract_lets +onlyGivenNames -merge -useContext u8
    have h9 : Kept K z u8 := (advanceTo_kept time h7)
    try clear_value u8
    exact (forEach_kept h9 (fun _ _ h10 => (dropLate_kept frames h10)))

theorem execLaunchDeadline_kept {z a0 a1} (frames : ¬K .frames) (time : ¬K .time) (ha1 : Kept K z a1) : ∀ t,
    (execLaunchDeadline a0 a1) = .next t → Kept K z t :=
  (done_kept (State.when_kept ha1 (fun _ h0 => (launchDeadline_kept frames time h0))))

theorem winCopy_kept {z a0 a1 a2 a3 a4 a5} (ha5 : Kept K z a5) : Kept K z (winCopy a0 a1 a2 a3 a4 a5) := by
  unfold winCopy
  extract_lets +onlyGivenNames -merge -useContext u0
  have h1 : Kept K z u0 := (forEach_kept ha5 (fun _ _ h2 => (State.setReg_kept h2)))
  try clear_value u0
  exact (forEach_kept h1 (fun _ _ h3 => (State.setTab_kept h3)))

theorem winArm_kept {z a0 a1} (ha1 : Kept K z a1) : Kept K z (winArm a0 a1) :=
  (State.setH_kept ha1)

theorem winCommit_kept {z a0 a1 a2 a3} (ha3 : Kept K z a3) : Kept K z (winCommit a0 a1 a2 a3) :=
  (Kept.ite (P := Kept K z) ha3 (Kept.ite (P := Kept K z) (timeErr_kept ha3) (Kept.ite (P := Kept K z) (winArm_kept
      (State.setHb_kept (State.setHb_kept (winCopy_kept ha3)))) (State.setHb_kept (winCopy_kept ha3)))))

theorem execWindowCommit_kept {z a0 a1 a2 a3} (ha3 : Kept K z a3) : ∀ t, (execWindowCommit a0 a1 a2 a3) = .next t →
    Kept K z t :=
  (done_kept (gateWrite_kept (fun _ h0 => (winCommit_kept h0)) ha3))

theorem recircEntry_kept {z a0 a1} (frames : ¬K .frames) (ha1 : Kept K z a1) : Kept K z (recircEntry a0 a1) := by
  unfold recircEntry
  split
  · exact ha1
  · refine Kept.ite (P := Kept K z) ?_ ?_
    · extract_lets +onlyGivenNames -merge -useContext u2
      have h3 : Kept K z u2 := (State.drop_kept frames ha1)
      try clear_value u2
      exact (Kept.ite (P := Kept K z) (errDisabled_kept h3) h3)
    · exact (Kept.ite (P := Kept K z) ha1 (Kept.ite (P := Kept K z) (raise_kept (bump_kept (State.drop_kept frames
        ha1))) (State.moveFrame_kept frames (bump_kept ha1))))

theorem execRecircEntry_kept {z a0 a1} (frames : ¬K .frames) (ha1 : Kept K z a1) : ∀ t, (execRecircEntry a0 a1) =
    .next t → Kept K z t :=
  (done_kept (recircEntry_kept frames ha1))

end Sys2Proof.Machine
end

