-- ==== Sys2Proof/Laws/KeptSched.lean ====
section
/-!
SUPPORT. Every operation and meaning of Machine/Sched.lean keeps the state sane, its queue as it is and its outputs made.
-/
namespace Sys2Proof.Machine

variable {K : Area → Prop}

theorem chosen_kept {z a0 a1 a2 a3 a4 a5} (ha5 : Kept K z a5) : Kept K z (chosen a0 a1 a2 a3 a4 a5) := by
  unfold chosen
  extract_lets +onlyGivenNames -merge -useContext u0 u1 u2
  have h3 : Kept K z u2 := (forEach_kept ha5 (fun _ _ h4 => (State.setH_kept h4)))
  try clear_value u2
  exact (State.setH_kept h3)

theorem chargeChild_kept {z a0 a1 a2 a3 a4 a5} (ha5 : Kept K z a5) : Kept K z (chargeChild a0 a1 a2 a3 a4 a5) := by
  unfold chargeChild
  extract_lets +onlyGivenNames -merge -useContext u0
  exact (Kept.ite (P := Kept K z) (State.setH_kept (State.setH_kept ha5)) (State.setH_kept ha5))

theorem boundaryDrop_kept {z a0 a1 a2} (frames : ¬K .frames) (fabric : ¬K .fabric) (ha2 : Kept K z a2) : Kept K z
    (boundaryDrop a0 a1 a2) := by
  unfold boundaryDrop
  split
  · exact (queueLeft_kept frames fabric (dropLate_kept frames ha2))
  · exact (dropLate_kept frames ha2)

theorem windowBoundary_kept {z a0 a1} (frames : ¬K .frames) (fabric : ¬K .fabric) (time : ¬K .time) (ha1 : Kept K z
    a1) : Kept K z (windowBoundary a0 a1) := by
  unfold windowBoundary
  extract_lets +onlyGivenNames -merge -useContext u0
  refine Kept.ite (P := Kept K z) ?_ ?_
  · exact ha1
  · extract_lets +onlyGivenNames -merge -useContext u1
    have h2 : Kept K z u1 := (advanceTo_kept time ha1)
    try clear_value u1
    refine Kept.ite (P := Kept K z) ?_ ?_
    · exact h2
    · extract_lets +onlyGivenNames -merge -useContext u3
      extract_lets +onlyGivenNames -merge -useContext u4
      have h5 : Kept K z u4 := (forEach_kept h2 (fun _ _ h6 => (boundaryDrop_kept frames fabric h6)))
      try clear_value u4
      exact (winArm_kept (Kept.ite (P := Kept K z) (State.setHb_kept (winCopy_kept h5)) h5))

theorem execWindowPeriodBoundary_kept {z a0 a1} (frames : ¬K .frames) (fabric : ¬K .fabric) (time : ¬K .time) (ha1 :
    Kept K z a1) : ∀ t, (execWindowPeriodBoundary a0 a1) = .next t → Kept K z t :=
  (done_kept (State.when_kept ha1 (fun _ h0 => (windowBoundary_kept frames fabric time h0))))

theorem dequeued_kept {z a0 a1 a2 a3 a4} (frames : ¬K .frames) (fabric : ¬K .fabric) (ha4 : Kept K z a4) : Kept K z
    (dequeued a0 a1 a2 a3 a4) := by
  unfold dequeued
  extract_lets +onlyGivenNames -merge -useContext u0 u1 u2
  have h3 : Kept K z u2 := (bump_kept ha4)
  try clear_value u2
  extract_lets +onlyGivenNames -merge -useContext u4
  have h5 : Kept K z u4 := (bumpBy_kept (bump_kept h3))
  try clear_value u4
  extract_lets +onlyGivenNames -merge -useContext u6
  have h7 : Kept K z u6 := (fsCount_kept h5)
  try clear_value u6
  extract_lets +onlyGivenNames -merge -useContext u8
  have h9 : Kept K z u8 := (Kept.ite (P := Kept K z) (pfeSent_kept h7) h7)
  try clear_value u8
  extract_lets +onlyGivenNames -merge -useContext u10 u11
  have h12 : Kept K z u11 := (Kept.ite (P := Kept K z) (bump_kept (State.drop_kept frames h9)) (leaveQueue_kept
      frames h9))
  try clear_value u11
  exact (queueLeft_kept frames fabric h12)

theorem ueAt_kept {z a0 a1 a2 a3 a4} (frames : ¬K .frames) (fabric : ¬K .fabric) (ha4 : Kept K z a4) : Kept K z
    (ueAt a0 a1 a2 a3 a4) := by
  unfold ueAt
  split
  · exact (Kept.ite (P := Kept K z) (queueLeft_kept frames fabric (cellUe_kept frames ha4)) ha4)
  · exact ha4

theorem schedSelect_kept {z a0 a1 a2} (frames : ¬K .frames) (fabric : ¬K .fabric) (ha2 : Kept K z a2) : Kept K z
    (schedSelect a0 a1 a2) := by
  unfold schedSelect
  split
  · exact ha2
  · split
    · exact ha2
    · split
      · exact ha2
      · split
        · rename_i m10 q11
          have h12 : Kept K z m10 := Kept.of_eq (P := fun x : Bool × State => Kept K z x.2) q11 (ageCheck_kept
              frames fabric ha2)
          exact (queueUpdate_kept frames h12)
        · rename_i m13 q14
          have h15 : Kept K z m13 := Kept.of_eq (P := fun x : Bool × State => Kept K z x.2) q14 (ageCheck_kept
              frames fabric ha2)
          extract_lets +onlyGivenNames -merge -useContext u16 u17 u18
          have h19 : Kept K z u18 := (State.setH_kept ha2)
          try clear_value u18
          extract_lets +onlyGivenNames -merge -useContext u20
          have h21 : Kept K z u20 := by
            unfold u20
            refine forEach_kept ?_ ?_
            · exact h19
            · intro a25 a26 h27
              split
              · exact (chargeChild_kept (chosen_kept h27))
          try clear_value u20
          extract_lets +onlyGivenNames -merge -useContext u32
          have h33 : Kept K z u32 := (forEach_kept h21 (fun _ _ h34 => (shpCharge_kept h34)))
          try clear_value u32
          extract_lets +onlyGivenNames -merge -useContext u35
          have h36 : Kept K z u35 := (dequeued_kept frames fabric h33)
          try clear_value u35
          exact (ueAt_kept frames fabric h36)

theorem execSchedSelection_kept {z a0 a1 a2} (frames : ¬K .frames) (fabric : ¬K .fabric) (ha2 : Kept K z a2) : ∀ t,
    (execSchedSelection a0 a1 a2) = .next t → Kept K z t :=
  (done_kept (State.when_kept ha2 (fun _ h0 => (schedSelect_kept frames fabric (retStall_kept h0)))))

theorem setFlows_kept {z a0 a1} (fabric : ¬K .fabric) (ha1 : Kept K z a1) : Kept K z (setFlows a0 a1) :=
  (State.setReg_kept (Kept.same ha1 rfl (Area.each (fun _ => Area.f5) (absurd · fabric) (fun _ => rfl) (fun _ =>
      Area.f5) (fun _ => Area.f3) (fun _ => rfl) (fun _ => Area.f4) (fun _ => Area.f8))))

theorem statusIn_kept {z a0 a1 a2 a3 a4} (fabric : ¬K .fabric) (ha4 : Kept K z a4) : Kept K z (statusIn a0 a1 a2 a3
    a4) := by
  unfold statusIn
  refine Kept.ite (P := Kept K z) ?_ ?_
  · exact (raiseFirst_kept (bump_kept ha4))
  · refine Kept.ite (P := Kept K z) ?_ ?_
    · exact (setFlows_kept fabric ha4)
    · split
      · exact (Kept.same ha4 rfl (Area.each (fun _ => Area.f5) (absurd · fabric) (fun _ => rfl) (fun _ => Area.f5)
          (fun _ => Area.f3) (fun _ => rfl) (fun _ => Area.f4) (fun _ => Area.f8)))
      · exact (Kept.ite (P := Kept K z) (raiseFirst_kept (bump_kept ha4)) (setFlows_kept fabric ha4))

theorem grantIn_kept {z a0 a1} (fabric : ¬K .fabric) (ha1 : Kept K z a1) : Kept K z (grantIn a0 a1) := by
  unfold grantIn
  refine Kept.ite (P := Kept K z) ?_ ?_
  · exact (bumpBy_kept ha1)
  · extract_lets +onlyGivenNames -merge -useContext u0
    extract_lets +onlyGivenNames -merge -useContext u1 u2
    have h3 : Kept K z u2 := (bumpBy_kept ha1)
    try clear_value u2
    exact (voqEval_kept fabric (State.setH_kept h3))

theorem flowTimeout_kept {z a0 a1} (fabric : ¬K .fabric) (time : ¬K .time) (ha1 : Kept K z a1) : Kept K z
    (flowTimeout a0 a1) := by
  unfold flowTimeout
  split
  · exact ha1
  · extract_lets +onlyGivenNames -merge -useContext u2
    have h3 : Kept K z u2 := (waitRoot_kept time ha1)
    try clear_value u2
    exact (setFlows_kept fabric (bump_kept h3))

theorem execCreditFlowTimeout_kept {z a0 a1} (fabric : ¬K .fabric) (time : ¬K .time) (ha1 : Kept K z a1) : ∀ t,
    (execCreditFlowTimeout a0 a1) = .next t → Kept K z t :=
  (done_kept (State.ifLive_kept ha1 (fun _ h0 => (flowTimeout_kept fabric time h0))))

theorem pacerUpdate_kept {z a0 a1} (ha1 : Kept K z a1) : Kept K z (pacerUpdate a0 a1) := by
  unfold pacerUpdate
  extract_lets +onlyGivenNames -merge -useContext u0
  exact (State.setH_kept (State.setH_kept ha1))

theorem pacerWait_kept {z a0 a1} (time : ¬K .time) (ha1 : Kept K z a1) : Kept K z (pacerWait a0 a1) := by
  unfold pacerWait
  extract_lets +onlyGivenNames -merge -useContext u0
  have h1 : Kept K z u0 := (pacerUpdate_kept ha1)
  try clear_value u0
  extract_lets +onlyGivenNames -merge -useContext u2
  exact (Kept.ite (P := Kept K z) h1 (pacerUpdate_kept (waitRoot_kept time h1)))

theorem credGrant_kept {z a0 a1} (fabric : ¬K .fabric) (ha1 : Kept K z a1) : Kept K z (credGrant a0 a1) := by
  unfold credGrant
  extract_lets +onlyGivenNames -merge -useContext u0 u1 u2
  split
  · exact ha1
  · split
    · exact ha1
    · extract_lets +onlyGivenNames -merge -useContext u10
      split
      · exact ha1
      · split
        · exact ha1
        · extract_lets +onlyGivenNames -merge -useContext u15
          extract_lets +onlyGivenNames -merge -useContext u16
          have h17 : Kept K z u16 := by
            unfold u16
            refine forEach_kept ?_ ?_
            · exact ha1
            · intro a21 a22 h23
              split
              · exact (chargeChild_kept (chosen_kept h23))
          try clear_value u16
          extract_lets +onlyGivenNames -merge -useContext u28
          have h29 : Kept K z u28 := (State.setH_kept h17)
          try clear_value u28
          extract_lets +onlyGivenNames -merge -useContext u30
          have h31 : Kept K z u30 := (State.setH_kept h29)
          try clear_value u30
          exact (credSend_kept fabric (bump_kept (bump_kept h31)))

theorem execCreditPacerGrant_kept {z a0 a1} (fabric : ¬K .fabric) (time : ¬K .time) (ha1 : Kept K z a1) : ∀ t,
    (execCreditPacerGrant a0 a1) = .next t → Kept K z t := by
  unfold execCreditPacerGrant
  refine done_kept ?_
  refine State.when_kept ?_ ?_
  · exact ha1
  · intro a9 h10
    extract_lets +onlyGivenNames -merge -useContext u11
    have h12 : Kept K z u11 := (pacerWait_kept time h10)
    try clear_value u11
    exact (Kept.ite (P := Kept K z) h12 (credGrant_kept fabric h12))

theorem execStatusRepeat_kept {z a0 a1} (fabric : ¬K .fabric) (time : ¬K .time) (ha1 : Kept K z a1) : ∀ t,
    (execStatusRepeat a0 a1) = .next t → Kept K z t :=
  (done_kept (State.ifLive_kept ha1 (fun _ h0 => (Kept.ite (P := Kept K z) (sendStatus_kept fabric (waitSince_kept
      time h0)) h0))))

theorem voqStart_kept {z a0 a1 a2} (frames : ¬K .frames) (fabric : ¬K .fabric) (ha2 : Kept K z a2) : Kept K z
    (voqStart a0 a1 a2) := by
  unfold voqStart
  split
  · rename_i m0 q1
    have h2 : Kept K z m0 := Kept.of_eq (P := fun x : Bool × State => Kept K z x.2) q1 (ageCheck_kept frames fabric
        ha2)
    exact (queueLeft_kept frames fabric h2)
  · rename_i m3 q4
    have h5 : Kept K z m3 := Kept.of_eq (P := fun x : Bool × State => Kept K z x.2) q4 (ageCheck_kept frames fabric
        ha2)
    split
    · exact h5
    · extract_lets +onlyGivenNames -merge -useContext u9
      have h10 : Kept K z u9 := (State.setH_kept h5)
      try clear_value u9
      refine Kept.ite (P := Kept K z) ?_ ?_
      · extract_lets +onlyGivenNames -merge -useContext u11
        have h12 : Kept K z u11 := (State.drop_kept frames h10)
        try clear_value u11
        refine queueLeft_kept frames fabric ?_
        split
        · exact (bump_kept h12)
        · exact h12
      · extract_lets +onlyGivenNames -merge -useContext u17
        have h18 : Kept K z u17 := (State.setH_kept h10)
        try clear_value u17
        extract_lets +onlyGivenNames -merge -useContext u19
        have h20 : Kept K z u19 := (pfeSent_kept (bump_kept h18))
        try clear_value u19
        exact (queueLeft_kept frames fabric (leaveQueue_kept frames h20))

theorem voqServe_kept {z a0 a1 a2} (frames : ¬K .frames) (fabric : ¬K .fabric) (ha2 : Kept K z a2) : Kept K z
    (voqServe a0 a1 a2) := by
  unfold voqServe
  split
  · exact ha2
  · split
    · exact (Kept.ite (P := Kept K z) (queueLeft_kept frames fabric (cellUe_kept frames ha2)) (ueAt_kept frames
        fabric (voqStart_kept frames fabric ha2)))
    · exact ha2

theorem execVoqFrameStart_kept {z a0 a1 a2} (frames : ¬K .frames) (fabric : ¬K .fabric) (ha2 : Kept K z a2) : ∀ t,
    (execVoqFrameStart a0 a1 a2) = .next t → Kept K z t :=
  (done_kept (State.when_kept ha2 (fun _ h0 => (voqServe_kept frames fabric (retStall_kept h0)))))

theorem qprofWrite_kept {z a0 a1} (ha1 : Kept K z a1) : Kept K z (qprofWrite a0 a1).1 := by
  unfold qprofWrite
  extract_lets +onlyGivenNames -merge -useContext u0 u1 u2
  refine Kept.ite (P := fun x : State × ℕ × Option ℕ => Kept K z x.1) ?_ ?_
  · exact (Win.fail_kept ha1)
  · refine Kept.ite (P := fun x : State × ℕ × Option ℕ => Kept K z x.1) ?_ ?_
    · exact (Win.fail_kept ha1)
    · exact (Win.ok_kept (State.setTab_kept ha1))

theorem sysqWrite_kept {z a0 a1} (fabric : ¬K .fabric) (ha1 : Kept K z a1) : Kept K z (sysqWrite a0 a1).1 := by
  unfold sysqWrite
  extract_lets +onlyGivenNames -merge -useContext u0 u1
  refine Kept.ite (P := fun x : State × ℕ × Option ℕ => Kept K z x.1) ?_ ?_
  · exact (Win.fail_kept ha1)
  · refine Kept.ite (P := fun x : State × ℕ × Option ℕ => Kept K z x.1) ?_ ?_
    · exact (Win.fail_kept ha1)
    · exact (Win.ok_kept (reachGained_kept fabric ha1 (State.setTab_kept ha1)))

theorem qmgrTable_kept {z a0 a1 a2} (fabric : ¬K .fabric) (ha2 : Kept K z a2) : Kept K z (qmgrTable a0 a1 a2).1 := by
  unfold qmgrTable
  split
  · exact (Win.read_kept ha2)
  · refine Kept.ite (P := fun x : State × ℕ × Option ℕ => Kept K z x.1) ?_ ?_
    · exact (qprofWrite_kept ha2)
    · exact (Win.fail_kept ha2)
  · exact (Win.read_kept ha2)
  · refine Kept.ite (P := fun x : State × ℕ × Option ℕ => Kept K z x.1) ?_ ?_
    · exact (sysqWrite_kept fabric ha2)
    · exact (Win.fail_kept ha2)
  · refine Kept.ite (P := fun x : State × ℕ × Option ℕ => Kept K z x.1) ?_ ?_
    · exact (Win.ok_kept ha2)
    · exact (Win.fail_kept ha2)
  · refine Kept.ite (P := fun x : State × ℕ × Option ℕ => Kept K z x.1) ?_ ?_
    · exact (Win.ok_kept ha2)
    · exact (Win.fail_kept ha2)
  · exact (Win.fail_kept ha2)

theorem schedWrite_kept {z a0 a1} (ha1 : Kept K z a1) : Kept K z (schedWrite a0 a1).1 := by
  unfold schedWrite
  refine Kept.ite (P := fun x : State × ℕ × Option ℕ => Kept K z x.1) ?_ ?_
  · exact (Win.ok_kept (State.setTab_kept ha1))
  · extract_lets +onlyGivenNames -merge -useContext u0
    extract_lets +onlyGivenNames -merge -useContext u1
    refine Kept.ite (P := fun x : State × ℕ × Option ℕ => Kept K z x.1) ?_ ?_
    · exact (Win.fail_kept ha1)
    · refine Kept.ite (P := fun x : State × ℕ × Option ℕ => Kept K z x.1) ?_ ?_
      · exact (Win.fail_kept ha1)
      · refine Kept.ite (P := fun x : State × ℕ × Option ℕ => Kept K z x.1) ?_ ?_
        · exact (Win.fail_kept ha1)
        · exact (Win.ok_kept (State.setTab_kept ha1))

theorem schedTable_kept {z a0 a1 a2} (ha2 : Kept K z a2) : Kept K z (schedTable a0 a1 a2).1 := by
  unfold schedTable
  refine Kept.ite (P := fun x : State × ℕ × Option ℕ => Kept K z x.1) ?_ ?_
  · exact (Win.fail_kept ha2)
  · refine Kept.ite (P := fun x : State × ℕ × Option ℕ => Kept K z x.1) ?_ ?_
    · exact (Win.fail_kept ha2)
    · refine Kept.ite (P := fun x : State × ℕ × Option ℕ => Kept K z x.1) ?_ ?_
      · exact (Win.read_kept ha2)
      · exact (schedWrite_kept ha2)

theorem queueReg_kept {z a0 a1 a2 a3} (ha3 : Kept K z a3) : ∀ t0, (queueReg a0 a1 a2 a3) = some t0 → Kept K z t0 := by
  unfold queueReg
  extract_lets +onlyGivenNames -merge -useContext u0
  have h1 : ∀ y0_0 y0_1 y0_2 y0_3, Kept K z (u0 y0_0 y0_1 y0_2 y0_3) := by
    unfold u0
    intro a2 a3 a4 a5
    extract_lets +onlyGivenNames -merge -useContext u6
    exact (Kept.ite (P := Kept K z) (errReq_kept ha3) (State.setReg_kept ha3))
  try clear_value u0
  refine Kept.ite (P := fun x : Option State => ∀ t0, x = some t0 → Kept K z t0) ?_ ?_
  · exact (Kept.some (h1 _ _ _ _))
  · refine Kept.ite (P := fun x : Option State => ∀ t0, x = some t0 → Kept K z t0) ?_ ?_
    · exact (Kept.some (h1 _ _ _ _))
    · refine Kept.ite (P := fun x : Option State => ∀ t0, x = some t0 → Kept K z t0) ?_ ?_
      · exact (Kept.some (h1 _ _ _ _))
      · refine Kept.ite (P := fun x : Option State => ∀ t0, x = some t0 → Kept K z t0) ?_ ?_
        · exact (Kept.some (h1 _ _ _ _))
        · exact Kept.none

end Sys2Proof.Machine
end

