-- ==== Sys2Proof/Laws/KeptCapo.lean ====
section
/-!
SUPPORT. Every operation and meaning of Machine/Capo.lean keeps the state sane, its queue as it is and its outputs made.
-/
namespace Sys2Proof.Machine

variable {K : Area → Prop}

theorem capoCmd_kept {z a0 a1 a2} {a3 : State → State} {a4 : State → State} {a5} (ha3 : ∀ y0_0, (Kept K z y0_0) →
    Kept K z (a3 y0_0)) (ha4 : ∀ y0_0, (Kept K z y0_0) → Kept K z (a4 y0_0)) (ha5 : Kept K z a5) : Kept K z (capoCmd
    a0 a1 a2 a3 a4 a5) :=
  (Kept.ite (P := Kept K z) (ha4 _ ha5) (ha3 _ (errReq_kept ha5)))

theorem flipCmd_kept {z a0 a1 a2} (ha2 : Kept K z a2) : Kept K z (flipCmd a0 a1 a2) := by
  unfold flipCmd
  extract_lets +onlyGivenNames -merge -useContext u0
  exact (Kept.ite (P := Kept K z) ha2 (capoCmd_kept (fun _ h1 => (bump_kept h1)) (fun _ h2 => (Kept.ite (P := Kept K
      z) (State.setHb_kept (State.setH_kept h2)) (bump_kept (errReq_kept h2)))) ha2))

theorem execFlipCmd_kept {z a0 a1 a2} (ha2 : Kept K z a2) : ∀ t, (execFlipCmd a0 a1 a2) = .next t → Kept K z t :=
  (done_kept (gateWrite_kept (fun _ h0 => (flipCmd_kept h0)) ha2))

theorem flipArm_kept {z a0 a1 a2} (ha2 : Kept K z a2) : Kept K z (flipArm a0 a1 a2) := by
  unfold flipArm
  extract_lets +onlyGivenNames -merge -useContext u0 u1
  have h2 : ∀ y0_0, (Kept K z y0_0) → Kept K z (u1 y0_0) := (fun _ h3 => (errReq_kept h3))
  try clear_value u1
  exact (Kept.ite (P := Kept K z) ha2 (capoCmd_kept (fun _ h4 => h4) (fun _ h5 => (Kept.ite (P := Kept K z) (h2 _
      h5) (Kept.ite (P := Kept K z) (Kept.ite (P := Kept K z) (State.setH_kept h5) (h2 _ h5)) (Kept.ite (P := Kept K
      z) (State.setH_kept h5) (h2 _ h5))))) ha2))

theorem execFlipArm_kept {z a0 a1 a2} (ha2 : Kept K z a2) : ∀ t, (execFlipArm a0 a1 a2) = .next t → Kept K z t :=
  (done_kept (gateWrite_kept (fun _ h0 => (flipArm_kept h0)) ha2))

theorem execFlipDisarm_kept {z a0 a1 a2} (ha2 : Kept K z a2) : ∀ t, (execFlipDisarm a0 a1 a2) = .next t → Kept K z t
    :=
  (done_kept (gateWrite_kept (fun _ h0 => (flipArm_kept h0)) ha2))

theorem execFlipTimeReached_kept {z a0} (time : ¬K .time) (ha0 : Kept K z a0) : ∀ t, (execFlipTimeReached a0) =
    .next t → Kept K z t :=
  (done_kept (State.when_kept ha0 (fun _ h0 => (atInstant_kept time (fun _ h1 => (State.setHb_kept (State.setH_kept
      h1))) h0))))

theorem flipApply_kept {z a0} (ha0 : Kept K z a0) : Kept K z (flipApply a0) := by
  unfold flipApply
  extract_lets +onlyGivenNames -merge -useContext u0
  have h1 : Kept K z u0 := (State.setHb_kept (State.setH_kept ha0))
  try clear_value u0
  extract_lets +onlyGivenNames -merge -useContext u2
  have h3 : Kept K z u2 := (State.setH_kept h1)
  try clear_value u2
  extract_lets +onlyGivenNames -merge -useContext u4
  have h5 : Kept K z u4 := (forEach_kept h3 (fun _ _ h6 => (State.setHb_kept (State.setHb_kept h6))))
  try clear_value u4
  extract_lets +onlyGivenNames -merge -useContext u7
  have h8 : Kept K z u7 := (State.setH_kept (State.setReg_kept (State.setReg_kept h5)))
  try clear_value u7
  extract_lets +onlyGivenNames -merge -useContext u9
  have h10 : Kept K z u9 := (State.setH_kept h8)
  try clear_value u9
  exact (raise_kept (bump_kept h10))

theorem execFlipApply_kept {z a0} (ha0 : Kept K z a0) : ∀ t, (execFlipApply a0) = .next t → Kept K z t :=
  (done_kept (State.when_kept ha0 (fun _ h0 => (flipApply_kept h0))))

theorem execInFlightZero_kept {z a0} (ha0 : Kept K z a0) : ∀ t, (execInFlightZero a0) = .next t → Kept K z t :=
  (done_kept (State.when_kept ha0 (fun _ h0 => (State.setH_kept (State.setH_kept h0)))))

theorem drainEnd_kept {z a0} (ha0 : Kept K z a0) : Kept K z (drainEnd a0) := by
  unfold drainEnd
  extract_lets +onlyGivenNames -merge -useContext u0 u1
  have h2 : Kept K z u1 := (State.setH_kept ha0)
  try clear_value u1
  exact (raise_kept (State.setH_kept (State.setH_kept h2)))

theorem execSettleExpire_kept {z a0} (time : ¬K .time) (ha0 : Kept K z a0) : ∀ t, (execSettleExpire a0) = .next t →
    Kept K z t :=
  (done_kept (State.when_kept ha0 (fun _ h0 => (drainEnd_kept (waitRoot_kept time h0)))))

theorem execDrainTimeout_kept {z a0} (time : ¬K .time) (ha0 : Kept K z a0) : ∀ t, (execDrainTimeout a0) = .next t →
    Kept K z t := by
  unfold execDrainTimeout
  refine done_kept ?_
  refine State.when_kept ?_ ?_
  · exact ha0
  · intro a11 h12
    extract_lets +onlyGivenNames -merge -useContext u13
    have h14 : Kept K z u13 := (waitRoot_kept time h12)
    try clear_value u13
    extract_lets +onlyGivenNames -merge -useContext u15
    have h16 : Kept K z u15 := (raise_kept (State.setHb_kept h14))
    try clear_value u15
    exact (faultRecord_kept h16)

theorem drainForce_kept {z a0 a1 a2} (ha2 : Kept K z a2) : Kept K z (drainForce a0 a1 a2) := by
  unfold drainForce
  extract_lets +onlyGivenNames -merge -useContext u0
  exact (Kept.ite (P := Kept K z) ha2 (capoCmd_kept (fun _ h1 => h1) (fun _ h2 => (Kept.ite (P := Kept K z)
      (drainEnd_kept (bump_kept (State.setH_kept h2))) (errReq_kept h2))) ha2))

theorem execDrainForce_kept {z a0 a1 a2} (ha2 : Kept K z a2) : ∀ t, (execDrainForce a0 a1 a2) = .next t → Kept K z t
    :=
  (done_kept (gateWrite_kept (fun _ h0 => (drainForce_kept h0)) ha2))

theorem putVisEntry_kept {z a0 a1 a2 a3 a4} (ha4 : Kept K z a4) : Kept K z (putVisEntry a0 a1 a2 a3 a4) := by
  unfold putVisEntry
  split
  · exact (putEntry_kept ha4)
  · exact (Kept.ite (P := Kept K z) (putRoute_kept ha4) (State.setTab_kept ha4))

theorem sweepEntry_kept {z a0 a1 a2 a3 a4 a5} (ha5 : Kept K z a5) : Kept K z (sweepEntry a0 a1 a2 a3 a4 a5) := by
  unfold sweepEntry
  extract_lets +onlyGivenNames -merge -useContext u0 u1
  have h2 : Kept K z u1 := (State.setH_kept ha5)
  try clear_value u1
  exact (Kept.ite (P := Kept K z) (bump_kept (putVisEntry_kept h2)) (Kept.ite (P := Kept K z) (bump_kept
      (putVisEntry_kept h2)) ha5))

theorem sweepOne_kept {z a0 a1 a2 a3} (ha3 : Kept K z a3) : Kept K z (sweepOne a0 a1 a2 a3) := by
  unfold sweepOne
  split
  · exact ha3
  · extract_lets +onlyGivenNames -merge -useContext u2
    refine Kept.ite (P := Kept K z) ?_ ?_
    · exact ha3
    · refine Kept.ite (P := Kept K z) ?_ ?_
      · refine sweepEntry_kept ?_
        split
        · exact (sweepEntry_kept ha3)
        · exact ha3
      · exact (sweepEntry_kept ha3)

theorem execSweepConversion_kept {z a0 a1 a2 a3} (ha3 : Kept K z a3) : ∀ t, (execSweepConversion a0 a1 a2 a3) =
    .next t → Kept K z t :=
  (done_kept (State.when_kept ha3 (fun _ h0 => (sweepOne_kept h0))))

theorem copyBank_kept {z a0 a1 a2 a3} (ha3 : Kept K z a3) : Kept K z (copyBank a0 a1 a2 a3) := by
  unfold copyBank
  extract_lets +onlyGivenNames -merge -useContext u0 u1 u2
  have h3 : Kept K z u2 := (forEach_kept ha3 (fun _ _ h4 => (State.setTab_kept h4)))
  try clear_value u2
  exact (forEach_kept h3 (fun _ _ h5 => (State.setTab_kept h5)))

theorem copyBanks_kept {z a0} (ha0 : Kept K z a0) : Kept K z (copyBanks a0) := by
  unfold copyBanks
  extract_lets +onlyGivenNames -merge -useContext u0 u1
  have h2 : Kept K z u1 := (forEach_kept ha0 (fun _ _ h3 => (Kept.ite (P := Kept K z) (forEach_kept h3 (fun _ _ h4
      => (copyBank_kept h4))) h3)))
  try clear_value u1
  exact (Kept.ite (P := Kept K z) (copyBank_kept h2) h2)

theorem sweepFinish_kept {z a0} (ha0 : Kept K z a0) : Kept K z (sweepFinish a0) := by
  unfold sweepFinish
  extract_lets +onlyGivenNames -merge -useContext u0
  have h1 : Kept K z u0 := (forEach_kept ha0 (fun _ _ h2 => (Kept.ite (P := Kept K z) (forEach_kept h2 (fun _ _ h3
      => (sweepOne_kept h3))) h2)))
  try clear_value u0
  extract_lets +onlyGivenNames -merge -useContext u4
  have h5 : Kept K z u4 := (copyBanks_kept h1)
  try clear_value u4
  exact (raise_kept (State.setHb_kept (State.setH_kept h5)))

theorem execSweepComplete_kept {z a0} (ha0 : Kept K z a0) : ∀ t, (execSweepComplete a0) = .next t → Kept K z t :=
  (done_kept (State.when_kept ha0 (fun _ h0 => (sweepFinish_kept h0))))

theorem capoDisarm_kept {z a0} (ha0 : Kept K z a0) : Kept K z (capoDisarm a0) :=
  (Kept.ite (P := Kept K z) (State.setH_kept ha0) ha0)

end Sys2Proof.Machine
end

