-- ==== Sys2Proof/Laws/KeptPipeline.lean ====
section
/-!
SUPPORT. Every operation and meaning of Machine/Pipeline.lean keeps the state sane, its queue as it is and its outputs made.
-/
namespace Sys2Proof.Machine

variable {K : Area → Prop}

theorem polUse_kept {z a0 a1 a2 a3} (ha3 : Kept K z a3) : Kept K z (polUse a0 a1 a2 a3).2 := by
  unfold polUse
  extract_lets +onlyGivenNames -merge -useContext u0
  split
  · extract_lets +onlyGivenNames -merge -useContext u3
    extract_lets +onlyGivenNames -merge -useContext u4 u5
    split
    · try dsimp -zeta only
      exact (State.setH_kept (State.setH_kept (State.setH_kept ha3)))

theorem police_kept {z a0 a1 a2 a3} (ha3 : Kept K z a3) : Kept K z (police a0 a1 a2 a3).2.2 := by
  unfold police
  extract_lets +onlyGivenNames -merge -useContext u0
  refine Kept.ite (P := fun x : ℕ × Bool × State => Kept K z x.2.2) ?_ ?_
  · try dsimp -zeta only
    try dsimp -zeta only
    exact ha3
  · split
    · rename_i m1 m2 q3
      have h4 : Kept K z m2 := Kept.of_eq (P := fun x : ℕ × State => Kept K z x.2) q3 (polUse_kept ha3)
      extract_lets +onlyGivenNames -merge -useContext u5
      have h6 : Kept K z u5 := (bump_kept h4)
      try clear_value u5
      extract_lets +onlyGivenNames -merge -useContext u7
      have h8 : Kept K z u7 := (fsCount_kept h6)
      try clear_value u7
      refine Kept.ite (P := fun x : ℕ × Bool × State => Kept K z x.2.2) ?_ ?_
      · try dsimp -zeta only
        try dsimp -zeta only
        exact (bump_kept h8)
      · try dsimp -zeta only
        try dsimp -zeta only
        exact h8

theorem needPage_kept {z a0} {a1 : State → Fwd × State} {a2 a3} (ha1 : ∀ y0_0, (Kept K z y0_0) → Kept K z (a1
    y0_0).2) (ha2 : Kept K z a2) : Kept K z (needPage a0 a1 a2 a3).2 := by
  unfold needPage
  refine Kept.ite (P := fun x : Fwd × State => Kept K z x.2) ?_ ?_
  · exact (ha1 _ ha2)
  · try dsimp -zeta only
    exact ha2

theorem parMiss_kept {z a0 a1 a2 a3} (ha3 : Kept K z a3) : Kept K z (parMiss a0 a1 a2 a3) :=
  (raiseFirst_kept (bump_kept (State.setReg_kept ha3)))

theorem hashPar_kept {z a0 a1 a2 a3} (ha3 : Kept K z a3) : Kept K z (hashPar a0 a1 a2 a3) := by
  unfold hashPar
  split
  · exact ha3
  · split
    · exact (parMiss_kept ha3)
    · exact (parMiss_kept ha3)
    · exact (parMiss_kept ha3)

theorem adjZero_kept {z a0 a1 a2 a3} (ha3 : Kept K z a3) : Kept K z (adjZero a0 a1 a2 a3).2 := by
  unfold adjZero
  extract_lets +onlyGivenNames -merge -useContext u0
  have h1 : Kept K z u0 := (fsCount_kept (bump_kept ha3))
  try clear_value u0
  try dsimp -zeta only
  exact h1

theorem adjPar_kept {z a0 a1 a2 a3} (ha3 : Kept K z a3) : Kept K z (adjPar a0 a1 a2 a3) :=
  (parMiss_kept ha3)

theorem resolveAdj_kept {z a0 a1 a2 a3 a4 a5} (ha5 : Kept K z a5) : Kept K z (resolveAdj a0 a1 a2 a3 a4 a5).2 := by
  unfold resolveAdj
  extract_lets +onlyGivenNames -merge -useContext u0
  refine Kept.ite (P := fun x : Fwd × State => Kept K z x.2) ?_ ?_
  · exact (adjZero_kept ha5)
  · refine Kept.ite (P := fun x : Fwd × State => Kept K z x.2) ?_ ?_
    · exact (adjZero_kept (adjPar_kept ha5))
    · refine Kept.ite (P := fun x : Fwd × State => Kept K z x.2) ?_ ?_
      · exact (adjZero_kept (bump_kept ha5))
      · extract_lets +onlyGivenNames -merge -useContext u1
        extract_lets +onlyGivenNames -merge -useContext u2 u3
        have h4 : ∀ y0_0 y0_1, (Kept K z y0_1) → Kept K z (u3 y0_0 y0_1).2 := by
          unfold u3
          intro a7 a8 h9
          try dsimp -zeta only
          exact (fsCount_kept h9)
        try clear_value u3
        split
        · extract_lets +onlyGivenNames -merge -useContext u11
          refine Kept.ite (P := fun x : Fwd × State => Kept K z x.2) ?_ ?_
          · exact (adjZero_kept (adjPar_kept ha5))
          · refine Kept.ite (P := fun x : Fwd × State => Kept K z x.2) ?_ ?_
            · exact (adjZero_kept ha5)
            · exact (h4 _ _ ha5)
        · exact (h4 _ _ ha5)
        · exact (h4 _ _ ha5)
        · exact (h4 _ _ (bump_kept ha5))

theorem resolveMiss_kept {z a0 a1 a2 a3 a4 a5} (ha5 : Kept K z a5) : Kept K z (resolveMiss a0 a1 a2 a3 a4 a5).2 := by
  unfold resolveMiss
  refine Kept.ite (P := fun x : Fwd × State => Kept K z x.2) ?_ ?_
  · exact (adjZero_kept ha5)
  · exact (resolveAdj_kept ha5)

theorem resolveNext_kept {z a0 a1 a2 a3 a4 a5 a6 a7} (ha7 : Kept K z a7) : Kept K z (resolveNext a0 a1 a2 a3 a4 a5
    a6 a7).2 := by
  unfold resolveNext
  refine Kept.ite (P := fun x : Fwd × State => Kept K z x.2) ?_ ?_
  · exact (resolveAdj_kept ha7)
  · extract_lets +onlyGivenNames -merge -useContext u0
    extract_lets +onlyGivenNames -merge -useContext u1
    refine Kept.ite (P := fun x : Fwd × State => Kept K z x.2) ?_ ?_
    · exact (adjZero_kept (adjPar_kept ha7))
    · refine Kept.ite (P := fun x : Fwd × State => Kept K z x.2) ?_ ?_
      · extract_lets +onlyGivenNames -merge -useContext u2
        have h3 : Kept K z u2 := (bump_kept (bump_kept ha7))
        try clear_value u2
        exact (adjZero_kept h3)
      · extract_lets +onlyGivenNames -merge -useContext u4
        extract_lets +onlyGivenNames -merge -useContext u5 u6
        refine Kept.ite (P := fun x : Fwd × State => Kept K z x.2) ?_ ?_
        · exact (adjZero_kept (adjPar_kept ha7))
        · exact (resolveAdj_kept ha7)

theorem ttlExpired_kept {z a0 a1 a2 a3 a4} (ha4 : Kept K z a4) : ∀ t0, (ttlExpired a0 a1 a2 a3 a4) = some t0 → Kept
    K z t0.2 := by
  unfold ttlExpired
  refine Kept.ite (P := fun x : Option (Fwd × State) => ∀ t0, x = some t0 → Kept K z t0.2) ?_ ?_
  · exact Kept.none
  · extract_lets +onlyGivenNames -merge -useContext u0
    have h1 : Kept K z u0 := (bump_kept ha4)
    try clear_value u0
    refine Kept.some ?_
    try dsimp -zeta only
    exact h1

theorem fwdBridge_kept {z a0 a1 a2 a3 a4 a5 a6} (learn : ¬K .learn) (ha6 : Kept K z a6) : Kept K z (fwdBridge a0 a1
    a2 a3 a4 a5 a6).2 := by
  unfold fwdBridge
  extract_lets +onlyGivenNames -merge -useContext u0 u1 u2 u3
  have h4 : Kept K z u3 := (bump_kept ha6)
  try clear_value u3
  refine needPage_kept ?_ ?_
  · intro a7 h8
    extract_lets +onlyGivenNames -merge -useContext u9 u10
    have h11 : Kept K z u10 := (hashPar_kept h8)
    try clear_value u10
    extract_lets +onlyGivenNames -merge -useContext u12 u13 u14 u15 u16
    have h17 : Kept K z u16 := (Kept.ite (P := Kept K z) (sourceLookup_kept learn (hashPar_kept h11)) h11)
    try clear_value u16
    refine needPage_kept ?_ ?_
    · intro a20 h21
      clear_value u12
      split
      · extract_lets +onlyGivenNames -merge -useContext u23
        extract_lets +onlyGivenNames -merge -useContext u24 u25
        refine Kept.ite (P := fun x : Fwd × State => Kept K z x.2) ?_ ?_
        · try dsimp -zeta only
          exact (bump_kept h21)
        · refine Kept.ite (P := fun x : Fwd × State => Kept K z x.2) ?_ ?_
          · exact (adjZero_kept (adjPar_kept h21))
          · refine Kept.ite (P := fun x : Fwd × State => Kept K z x.2) ?_ ?_
            · try dsimp -zeta only
              exact (bump_kept h21)
            · try dsimp -zeta only
              exact h21
      · exact (resolveAdj_kept (bump_kept h21))
    · exact h17
  · exact h4

theorem vrfRead_kept {z a0 a1 a2} (ha2 : Kept K z a2) : Kept K z (vrfRead a0 a1 a2).2 := by
  unfold vrfRead
  refine Kept.ite (P := fun x : ℕ × State => Kept K z x.2) ?_ ?_
  · split
    · rename_i m0 m1 q2
      have h3 : Kept K z m1 := Kept.of_eq (P := fun x : ℕ × State => Kept K z x.2) q2 (State.free_kept (parMiss_kept
          ha2))
      try dsimp -zeta only
      exact h3
  · try dsimp -zeta only
    exact ha2

theorem fwdRoute_kept {z a0 a1 a2 a3 a4 a5 a6 a7} (ha7 : Kept K z a7) : Kept K z (fwdRoute a0 a1 a2 a3 a4 a5 a6
    a7).2 := by
  unfold fwdRoute
  extract_lets +onlyGivenNames -merge -useContext u0 u1 u2 u3
  have h4 : Kept K z u3 := (bump_kept ha7)
  try clear_value u3
  refine needPage_kept ?_ ?_
  · intro a7 h8
    extract_lets +onlyGivenNames -merge -useContext u9 u10
    split
    · rename_i m11 m12 q13
      have h14 : Kept K z m12 := Kept.of_eq (P := fun x : ℕ × State => Kept K z x.2) q13 (vrfRead_kept h8)
      extract_lets +onlyGivenNames -merge -useContext u15 u16 u17
      split
      · rename_i m18 m19 q20
        have h21 : Kept K z m19 := Kept.of_eq (P := fun x : ℕ × State => Kept K z x.2) q20 (by
          refine Kept.ite (P := fun x : ℕ × State => Kept K z x.2) ?_ ?_
          · try dsimp -zeta only
            exact h14
          · clear_value u16 u15
            split
            · try dsimp -zeta only
              exact (bump_kept (parMiss_kept h14))
            · try dsimp -zeta only
              exact h14
            · try dsimp -zeta only
              exact (bump_kept h14))
        split
        · rename_i m27 q28
          have h29 : Kept K z m27.2 := Kept.of_eq (P := fun x : Option (Fwd × State) => ∀ t0, x = some t0 → Kept K z
              t0.2) q28 (ttlExpired_kept h21) _ rfl
          exact h29
        · refine needPage_kept ?_ ?_
          · intro a33 h34
            refine Kept.ite (P := fun x : Fwd × State => Kept K z x.2) ?_ ?_
            · exact (resolveMiss_kept h34)
            · exact (resolveNext_kept h34)
          · exact h21
  · exact h4

theorem fwdMpls_kept {z a0 a1 a2 a3 a4 a5 a6} (ha6 : Kept K z a6) : Kept K z (fwdMpls a0 a1 a2 a3 a4 a5 a6).2 := by
  unfold fwdMpls
  extract_lets +onlyGivenNames -merge -useContext u0 u1
  have h2 : Kept K z u1 := (bump_kept ha6)
  try clear_value u1
  extract_lets +onlyGivenNames -merge -useContext u3 u4
  have h5 : Kept K z u4 := (hashPar_kept h2)
  try clear_value u4
  split
  · extract_lets +onlyGivenNames -merge -useContext u7
    extract_lets +onlyGivenNames -merge -useContext u8 u9
    split
    · rename_i m10 q11
      have h12 : Kept K z m10.2 := Kept.of_eq (P := fun x : Option (Fwd × State) => ∀ t0, x = some t0 → Kept K z
          t0.2) q11 (ttlExpired_kept h5) _ rfl
      exact h12
    · refine Kept.ite (P := fun x : Fwd × State => Kept K z x.2) ?_ ?_
      · try dsimp -zeta only
        exact h5
      · exact (needPage_kept (fun _ h14 => (resolveNext_kept h14)) h5)
  · extract_lets +onlyGivenNames -merge -useContext u16
    have h17 : Kept K z u16 := (bump_kept h5)
    try clear_value u16
    split
    · rename_i m18 q19
      have h20 : Kept K z m18.2 := Kept.of_eq (P := fun x : Option (Fwd × State) => ∀ t0, x = some t0 → Kept K z
          t0.2) q19 (ttlExpired_kept h17) _ rfl
      exact h20
    · exact (needPage_kept (fun _ h22 => (resolveMiss_kept h22)) h17)

theorem rmacHit_kept {z a0 a1 a2 a3} (ha3 : Kept K z a3) : Kept K z (rmacHit a0 a1 a2 a3).2 := by
  unfold rmacHit
  extract_lets +onlyGivenNames -merge -useContext u0 u1
  refine Kept.ite (P := fun x : Bool × State => Kept K z x.2) ?_ ?_
  · split
    · rename_i m2 m3 q4
      have h5 : Kept K z m3 := Kept.of_eq (P := fun x : ℕ × State => Kept K z x.2) q4 (State.free_kept (adjPar_kept
          ha3))
      try dsimp -zeta only
      exact h5
  · try dsimp -zeta only
    exact ha3

theorem forward_kept {z a0 a1 a2 a3 a4 a5} (learn : ¬K .learn) (ha5 : Kept K z a5) : Kept K z (forward a0 a1 a2 a3
    a4 a5).2 := by
  unfold forward
  refine needPage_kept ?_ ?_
  · intro a2 h3
    extract_lets +onlyGivenNames -merge -useContext u4 u5
    have h6 : Kept K z u5 := (hashPar_kept h3)
    try clear_value u5
    split
    · try dsimp -zeta only
      exact (bump_kept h6)
    · extract_lets +onlyGivenNames -merge -useContext u9
      extract_lets +onlyGivenNames -merge -useContext u10 u11 u12 u13 u14
      have h15 : ∀ y0_0, (Kept K z y0_0) → Kept K z (u14 y0_0).2 := by
        unfold u14
        intro a18 h19
        refine Kept.ite (P := fun x : Fwd × State => Kept K z x.2) ?_ ?_
        · exact (fwdBridge_kept learn h19)
        · try dsimp -zeta only
          exact (bump_kept h19)
      try clear_value u14
      refine Kept.ite (P := fun x : Fwd × State => Kept K z x.2) ?_ ?_
      · exact (h15 _ h6)
      · refine needPage_kept ?_ ?_
        · intro a22 h23
          split
          · rename_i m24 m25 q26
            have h27 : Kept K z m25 := Kept.of_eq (P := fun x : Bool × State => Kept K z x.2) q26 (rmacHit_kept h23)
            refine Kept.ite (P := fun x : Fwd × State => Kept K z x.2) ?_ ?_
            · exact (h15 _ h27)
            · refine Kept.ite (P := fun x : Fwd × State => Kept K z x.2) ?_ ?_
              · exact (fwdMpls_kept h27)
              · exact (fwdRoute_kept h27)
        · exact h6
  · exact ha5

theorem route_kept {z a0 a1 a2 a3 a4} (frames : ¬K .frames) (ha4 : Kept K z a4) : Kept K z (route a0 a1 a2 a3 a4) :=
    by
  unfold route
  extract_lets +onlyGivenNames -merge -useContext u0
  split
  · exact (bridgeTo_kept frames ha4)
  · exact (Kept.ite (P := Kept K z) (raise_kept (bump_kept (State.drop_kept frames ha4))) (bridgeTo_kept frames ha4))
  · exact (bridgeTo_kept frames ha4)

theorem classify_kept {z a0 a1 a2 a3 a4 a5 a6} (frames : ¬K .frames) (ha6 : Kept K z a6) : Kept K z (classify a0 a1
    a2 a3 a4 a5 a6) := by
  unfold classify
  extract_lets +onlyGivenNames -merge -useContext u0 u1
  refine Kept.ite (P := Kept K z) ?_ ?_
  · exact (dropDisabled_kept frames ha6)
  · extract_lets +onlyGivenNames -merge -useContext u2
    have h3 : ∀ y0_0 y0_1, (Kept K z y0_1.2.2) → Kept K z (u2 y0_0 y0_1).2.2 := by
      unfold u2
      intro a6 a7 h8
      refine Kept.ite (P := fun x : Resolve × ℕ × State => Kept K z x.2.2) ?_ ?_
      · exact (classify1_kept h8)
      · exact h8
    try clear_value u2
    split
    · rename_i m9 m10 m11 q12
      have h13 : Kept K z m11 := Kept.of_eq (P := fun x : Resolve × ℕ × State => Kept K z x.2.2) q12 (by
        refine h3 _ _ ?_
        refine h3 _ _ ?_
        try dsimp -zeta only
        try dsimp -zeta only
        exact ha6)
      extract_lets +onlyGivenNames -merge -useContext u14
      refine Kept.ite (P := Kept K z) ?_ ?_
      · exact (bump_kept (State.drop_kept frames h13))
      · refine Kept.ite (P := Kept K z) ?_ ?_
        · exact (State.drop_kept frames h13)
        · refine Kept.ite (P := Kept K z) ?_ ?_
          · exact (route_kept frames h13)
          · refine Kept.ite (P := Kept K z) ?_ ?_
            · exact (dropDisabled_kept frames h13)
            · split
              · rename_i m15 m16 m17 q18
                have h19 : Kept K z m17 := Kept.of_eq (P := fun x : ℕ × Bool × State => Kept K z x.2.2) q18
                    (police_kept h13)
                exact (Kept.ite (P := Kept K z) (State.drop_kept frames h19) (route_kept frames h19))

theorem ipipePass_kept {z a0 a1 a2 a3} (frames : ¬K .frames) (learn : ¬K .learn) (ha3 : Kept K z a3) : Kept K z
    (ipipePass a0 a1 a2 a3) := by
  unfold ipipePass
  extract_lets +onlyGivenNames -merge -useContext u0 u1 u2 u3 u4
  have h5 : Kept K z u4 := (Kept.ite (P := Kept K z) (bump_kept ha3) ha3)
  try clear_value u4
  extract_lets +onlyGivenNames -merge -useContext u6
  have h7 : Kept K z u6 := (Kept.ite (P := Kept K z) (bump_kept h5) (raiseFirst_kept (bump_kept h5)))
  try clear_value u6
  extract_lets +onlyGivenNames -merge -useContext u8
  refine Kept.ite (P := Kept K z) ?_ ?_
  · exact (State.drop_kept frames h7)
  · refine Kept.ite (P := Kept K z) ?_ ?_
    · extract_lets +onlyGivenNames -merge -useContext u9
      exact (bridgeTo_kept frames h7)
    · split
      · rename_i m10 m11 q12
        have h13 : Kept K z m11 := Kept.of_eq (P := fun x : Fwd × State => Kept K z x.2) q12 (forward_kept learn h7)
        exact (Kept.ite (P := Kept K z) (dropDisabled_kept frames h13) (classify_kept frames h13))

theorem ipipeEnter_kept {z a0 a1 a2} (frames : ¬K .frames) (ha2 : Kept K z a2) : Kept K z (ipipeEnter a0 a1 a2).2 :=
    by
  unfold ipipeEnter
  split
  · extract_lets +onlyGivenNames -merge -useContext u1
    split
    · rename_i m2 m3 q4
      have h5 : Kept K z m3 := Kept.of_eq (P := fun x : Frame × State => Kept K z x.2) q4 (stampParity_kept ha2)
      try dsimp -zeta only
      exact (State.putFrame_kept frames h5)
  · extract_lets +onlyGivenNames -merge -useContext u7
    try dsimp -zeta only
    exact (State.putFrame_kept frames ha2)

theorem spanStep_kept {z a0 a1 a2} (ha2 : Kept K z a2) : Kept K z (spanStep a0 a1 a2) := by
  unfold spanStep
  extract_lets +onlyGivenNames -merge -useContext u0
  exact (Kept.ite (P := Kept K z) (State.setH_kept (State.setH_kept ha2)) (State.setH_kept (State.setH_kept ha2)))

theorem syncReport_kept {z a0 a1} (ha1 : Kept K z a1) : Kept K z (syncReport a0 a1) := by
  unfold syncReport
  split
  · exact (Kept.ite (P := Kept K z) (refSync_kept ha1) ha1)
  · exact ha1

theorem execPipelineEntry_kept {z a0 a1 a2 a3} (frames : ¬K .frames) (learn : ¬K .learn) (ha3 : Kept K z a3) : ∀ t,
    (execPipelineEntry a0 a1 a2 a3) = .next t → Kept K z t := by
  unfold execPipelineEntry
  refine done_kept ?_
  refine State.when_kept ?_ ?_
  · exact ha3
  · intro a16 h17
    extract_lets +onlyGivenNames -merge -useContext u18 u19
    have h20 : Kept K z u19 := (spanStep_kept h17)
    try clear_value u19
    split
    · exact h20
    · refine Kept.ite (P := Kept K z) ?_ ?_
      · exact (dropDisabled_kept frames h20)
      · refine Kept.ite (P := Kept K z) ?_ ?_
        · exact h20
        · split
          · rename_i m23 m24 q25
            have h26 : Kept K z m24 := Kept.of_eq (P := fun x : Frame × State => Kept K z x.2) q25 (ipipeEnter_kept
                frames h20)
            exact (ipipePass_kept frames learn (syncReport_kept h26))

theorem rwErr_kept {z a0 a1 a2} (frames : ¬K .frames) (ha2 : Kept K z a2) : Kept K z (rwErr a0 a1 a2) :=
  (raiseFirst_kept (bump_kept (State.drop_kept frames ha2)))

theorem adjErr_kept {z a0 a1 a2} (frames : ¬K .frames) (ha2 : Kept K z a2) : Kept K z (adjErr a0 a1 a2) :=
  (raiseFirst_kept (bump_kept (State.drop_kept frames ha2)))

theorem epipeHand_kept {z a0 a1 a2 a3} (frames : ¬K .frames) (ha3 : Kept K z a3) : Kept K z (epipeHand a0 a1 a2 a3)
    := by
  unfold epipeHand
  extract_lets +onlyGivenNames -merge -useContext u0
  refine Kept.ite (P := Kept K z) ?_ ?_
  · exact (raiseFirst_kept (bump_kept (State.drop_kept frames ha3)))
  · extract_lets +onlyGivenNames -merge -useContext u1
    have h2 : Kept K z u1 := (bump_kept (bump_kept ha3))
    try clear_value u1
    refine Kept.ite (P := Kept K z) ?_ ?_
    · exact (State.moveFrame_kept frames h2)
    · extract_lets +onlyGivenNames -merge -useContext u3
      exact (State.moveFrame_kept frames h2)

theorem epipePass_kept {z a0 a1 a2} (frames : ¬K .frames) (ha2 : Kept K z a2) : Kept K z (epipePass a0 a1 a2) := by
  unfold epipePass
  extract_lets +onlyGivenNames -merge -useContext u0
  refine Kept.ite (P := Kept K z) ?_ ?_
  · exact (bump_kept (State.drop_kept frames ha2))
  · refine Kept.ite (P := Kept K z) ?_ ?_
    · exact (txDownDrop_kept frames ha2)
    · extract_lets +onlyGivenNames -merge -useContext u1
      refine Kept.ite (P := Kept K z) ?_ ?_
      · exact (epipeHand_kept frames ha2)
      · refine Kept.ite (P := Kept K z) ?_ ?_
        · extract_lets +onlyGivenNames -merge -useContext u2
          split
          · exact (rwErr_kept frames ha2)
          · exact (epipeHand_kept frames ha2)
        · refine Kept.ite (P := Kept K z) ?_ ?_
          · exact (dropDisabled_kept frames ha2)
          · extract_lets +onlyGivenNames -merge -useContext u5
            extract_lets +onlyGivenNames -merge -useContext u6
            refine Kept.ite (P := Kept K z) ?_ ?_
            · exact (adjErr_kept frames ha2)
            · split
              · exact (rwErr_kept frames ha2)
              · split
                · exact (rwErr_kept frames ha2)
                · extract_lets +onlyGivenNames -merge -useContext u11
                  exact (epipeHand_kept frames ha2)

theorem execEgressPipeline_kept {z a0 a1} (frames : ¬K .frames) (ha1 : Kept K z a1) : ∀ t, (execEgressPipeline a0
    a1) = .next t → Kept K z t := by
  unfold execEgressPipeline
  refine done_kept ?_
  refine State.when_kept ?_ ?_
  · exact ha1
  · intro a9 h10
    split
    · exact h10
    · exact (Kept.ite (P := Kept K z) (dropDisabled_kept frames h10) (epipePass_kept frames h10))

end Sys2Proof.Machine
end

