-- ==== Sys2Proof/Laws/KeptSearch.lean ====
section
/-!
SUPPORT. Every operation and meaning of Machine/Search.lean keeps the state sane, its queue as it is and its outputs made.
-/
namespace Sys2Proof.Machine

variable {K : Area → Prop}

theorem Win.readPar_kept {z a0 a1 a2 a3} (ha3 : Kept K z a3) : Kept K z (Win.readPar a0 a1 a2 a3).1 := by
  unfold Win.readPar
  refine Kept.ite (P := fun x : State × ℕ × Option ℕ => Kept K z x.1) ?_ ?_
  · exact (Win.fail_kept ha3)
  · extract_lets +onlyGivenNames -merge -useContext u0
    refine Kept.ite (P := fun x : State × ℕ × Option ℕ => Kept K z x.1) ?_ ?_
    · split
      · rename_i m1 m2 m3 q4
        have h5 : Kept K z m1 := Kept.of_eq (P := fun x : TblRes => Kept K z x.1) q4 (Win.fail_kept ha3)
        try dsimp -zeta only
        exact h5
    · exact (Win.ok_kept ha3)

theorem Win.put_kept {z a0 a1 a2} (ha2 : Kept K z a2) : Kept K z (Win.put a0 a1 a2).1 :=
  (Win.ok_kept (setParBad_kept (State.setTab_kept ha2)))

theorem Win.putVis_kept {z a0 a1 a2 a3} (ha3 : Kept K z a3) : Kept K z (Win.putVis a0 a1 a2 a3).1 := by
  unfold Win.putVis
  split
  · exact (Win.fail_kept ha3)
  · exact (Win.put_kept ha3)

theorem ipipeTable_kept {z a0 a1 a2} (ha2 : Kept K z a2) : Kept K z (ipipeTable a0 a1 a2).1 := by
  unfold ipipeTable
  extract_lets +onlyGivenNames -merge -useContext u0
  refine Kept.ite (P := fun x : State × ℕ × Option ℕ => Kept K z x.1) ?_ ?_
  · exact (Win.fail_kept ha2)
  · refine Kept.ite (P := fun x : State × ℕ × Option ℕ => Kept K z x.1) ?_ ?_
    · exact (Win.read_kept ha2)
    · refine Kept.ite (P := fun x : State × ℕ × Option ℕ => Kept K z x.1) ?_ ?_
      · exact (Win.fail_kept ha2)
      · extract_lets +onlyGivenNames -merge -useContext u1
        extract_lets +onlyGivenNames -merge -useContext u2
        refine Kept.ite (P := fun x : State × ℕ × Option ℕ => Kept K z x.1) ?_ ?_
        · exact (Win.fail_kept ha2)
        · refine Kept.ite (P := fun x : State × ℕ × Option ℕ => Kept K z x.1) ?_ ?_
          · exact (Win.fail_kept ha2)
          · exact (Win.ok_kept (forEach_kept ha2 (fun _ _ h3 => (Kept.ite (P := Kept K z) (State.setTab_kept h3)
              h3))))

theorem chainEval_kept {z a0} (ha0 : Kept K z a0) : Kept K z (chainEval a0) := by
  unfold chainEval
  extract_lets +onlyGivenNames -merge -useContext u0 u1 u2
  have h3 : Kept K z u2 := (forEach_kept ha0 (fun _ _ h4 => (State.setReg_kept h4)))
  try clear_value u2
  exact (Kept.ite (P := Kept K z) (raise_kept h3) h3)

theorem lkpCfg_kept {z a0 a1 a2 a3} (ha3 : Kept K z a3) : Kept K z (lkpCfg a0 a1 a2 a3) := by
  unfold lkpCfg
  extract_lets +onlyGivenNames -merge -useContext u0 u1
  exact (Kept.ite (P := Kept K z) ha3 (Kept.ite (P := Kept K z) (errReq_kept ha3) (chainEval_kept (State.setReg_kept
      ha3))))

theorem sliceCfg_kept {z a0 a1 a2 a3} (ha3 : Kept K z a3) : Kept K z (sliceCfg a0 a1 a2 a3) := by
  unfold sliceCfg
  extract_lets +onlyGivenNames -merge -useContext u0 u1
  exact (Kept.ite (P := Kept K z) ha3 (Kept.ite (P := Kept K z) (errReq_kept ha3) (chainEval_kept (State.setReg_kept
      ha3))))

theorem execSliceCfgWrite_kept {z a0 a1 a2 a3} (ha3 : Kept K z a3) : ∀ t, (execSliceCfgWrite a0 a1 a2 a3) = .next t
    → Kept K z t :=
  (done_kept (Kept.ite (P := Kept K z) (gateWrite_kept (fun _ h0 => (sliceCfg_kept h0)) ha3) (gateWrite_kept (fun _
      h1 => (lkpCfg_kept h1)) ha3)))

theorem holeWatch_kept {z a0 a1 a2} (ha2 : Kept K z a2) : Kept K z (holeWatch a0 a1 a2) :=
  (Kept.ite (P := Kept K z) (raise_kept ha2) ha2)

theorem rowWrite_kept {z a0 a1} (ha1 : Kept K z a1) : Kept K z (rowWrite a0 a1).1 := by
  unfold rowWrite
  extract_lets +onlyGivenNames -merge -useContext u0 u1 u2 u3
  refine Kept.ite (P := fun x : State × ℕ × Option ℕ => Kept K z x.1) ?_ ?_
  · exact (Win.fail_kept ha1)
  · refine Kept.ite (P := fun x : State × ℕ × Option ℕ => Kept K z x.1) ?_ ?_
    · refine Kept.ite (P := fun x : State × ℕ × Option ℕ => Kept K z x.1) ?_ ?_
      · exact (Win.fail_kept ha1)
      · exact (Win.put_kept ha1)
    · split
      · rename_i m4 m5 m6 q7
        have h8 : Kept K z m4 := Kept.of_eq (P := fun x : TblRes => Kept K z x.1) q7 (Win.putVis_kept ha1)
        try dsimp -zeta only
        exact (Kept.ite (P := Kept K z) (holeWatch_kept h8) h8)

theorem rowMove_kept {z a0 a1} (ha1 : Kept K z a1) : Kept K z (rowMove a0 a1).1 := by
  unfold rowMove
  extract_lets +onlyGivenNames -merge -useContext u0 u1 u2 u3 u4
  refine Kept.ite (P := fun x : State × ℕ × Option ℕ => Kept K z x.1) ?_ ?_
  · exact (Win.fail_kept ha1)
  · extract_lets +onlyGivenNames -merge -useContext u5
    extract_lets +onlyGivenNames -merge -useContext u6 u7 u8 u9
    have h10 : Kept K z u9 := by
      unfold u9
      refine forEach_kept ?_ ?_
      · exact ha1
      · intro a14 a15 h16
        extract_lets +onlyGivenNames -merge -useContext u17
        exact (State.setTab_kept h16)
    try clear_value u9
    extract_lets +onlyGivenNames -merge -useContext u18
    have h19 : Kept K z u18 := (State.setTab_kept h10)
    try clear_value u18
    extract_lets +onlyGivenNames -merge -useContext u20
    have h21 : Kept K z u20 := (bump_kept h19)
    try clear_value u20
    exact (Win.ok_kept (Kept.ite (P := Kept K z) h21 (holeWatch_kept h21)))

theorem keyLoad_kept {z a0 a1} (ha1 : Kept K z a1) : Kept K z (keyLoad a0 a1).1 := by
  unfold keyLoad
  refine Kept.ite (P := fun x : State × ℕ × Option ℕ => Kept K z x.1) ?_ ?_
  · exact (Win.fail_kept ha1)
  · exact (Win.ok_kept (State.setTab_kept ha1))

theorem walkStep_kept {z a0 a1} (ha1 : Kept K z a1) : Kept K z (walkStep a0 a1).1 := by
  unfold walkStep
  refine Kept.ite (P := fun x : State × ℕ × Option ℕ => Kept K z x.1) ?_ ?_
  · exact (Win.fail_kept ha1)
  · extract_lets +onlyGivenNames -merge -useContext u0
    extract_lets +onlyGivenNames -merge -useContext u1
    clear_value u1
    split
    · exact (Win.ok_kept ha1)
    · exact (Win.ok_kept ha1)

theorem tcamTable_kept {z a0 a1 a2} (ha2 : Kept K z a2) : Kept K z (tcamTable a0 a1 a2).1 := by
  unfold tcamTable
  split
  · exact (Win.readPar_kept ha2)
  · refine Kept.ite (P := fun x : State × ℕ × Option ℕ => Kept K z x.1) ?_ ?_
    · exact (rowWrite_kept ha2)
    · exact (Win.fail_kept ha2)
  · refine Kept.ite (P := fun x : State × ℕ × Option ℕ => Kept K z x.1) ?_ ?_
    · exact (rowMove_kept ha2)
    · exact (Win.fail_kept ha2)
  · exact (Win.read_kept ha2)
  · refine Kept.ite (P := fun x : State × ℕ × Option ℕ => Kept K z x.1) ?_ ?_
    · exact (Win.fail_kept ha2)
    · refine Kept.ite (P := fun x : State × ℕ × Option ℕ => Kept K z x.1) ?_ ?_
      · exact (Win.fail_kept ha2)
      · exact (Win.put_kept ha2)
  · exact (Win.read_kept ha2)
  · refine Kept.ite (P := fun x : State × ℕ × Option ℕ => Kept K z x.1) ?_ ?_
    · exact (Win.fail_kept ha2)
    · refine Kept.ite (P := fun x : State × ℕ × Option ℕ => Kept K z x.1) ?_ ?_
      · exact (Win.fail_kept ha2)
      · refine Kept.ite (P := fun x : State × ℕ × Option ℕ => Kept K z x.1) ?_ ?_
        · exact (Win.fail_kept ha2)
        · exact (Win.put_kept ha2)
  · refine Kept.ite (P := fun x : State × ℕ × Option ℕ => Kept K z x.1) ?_ ?_
    · exact (keyLoad_kept ha2)
    · exact (Win.fail_kept ha2)
  · refine Kept.ite (P := fun x : State × ℕ × Option ℕ => Kept K z x.1) ?_ ?_
    · exact (walkStep_kept ha2)
    · exact (Win.fail_kept ha2)
  · exact (Win.fail_kept ha2)

theorem execKeyLoad_kept {z a0 a1} (ha1 : Kept K z a1) : ∀ t, (execKeyLoad a0 a1) = .next t → Kept K z t :=
  (done_kept (tblCmd_kept (fun _ _ h0 => (tcamTable_kept h0)) ha1))

theorem execWalk_kept {z a0 a1} (ha1 : Kept K z a1) : ∀ t, (execWalk a0 a1) = .next t → Kept K z t :=
  (done_kept (tblCmd_kept (fun _ _ h0 => (tcamTable_kept h0)) ha1))

theorem execRowMove_kept {z a0 a1} (ha1 : Kept K z a1) : ∀ t, (execRowMove a0 a1) = .next t → Kept K z t :=
  (done_kept (tblCmd_kept (fun _ _ h0 => (tcamTable_kept h0)) ha1))

theorem rowScrubFail_kept {z a0 a1} (ha1 : Kept K z a1) : Kept K z (rowScrubFail a0 a1) := by
  unfold rowScrubFail
  extract_lets +onlyGivenNames -merge -useContext u0 u1
  have h2 : Kept K z u1 := (State.setTab_kept ha1)
  try clear_value u1
  extract_lets +onlyGivenNames -merge -useContext u3
  have h4 : Kept K z u3 := (State.setReg_kept (bump_kept h2))
  try clear_value u3
  exact (raiseFault_kept (errBy_kept h4))

theorem execTcamScrubRow_kept {z a0 a1 a2} (ha2 : Kept K z a2) : ∀ t, (execTcamScrubRow a0 a1 a2) = .next t → Kept K
    z t :=
  (done_kept (State.ifLive_kept ha2 (fun _ h0 => (Kept.ite (P := Kept K z) h0 (rowScrubFail_kept h0)))))

theorem Win.keyed_kept {z a0 a1} (ha1 : Kept K z a1.1) : Kept K z (Win.keyed a0 a1).1 := by
  unfold Win.keyed
  try dsimp -zeta only
  exact ha1

theorem keyCmd_kept {z a0 a1 a2 a3} (learn : ¬K .learn) (ha3 : Kept K z a3) : Kept K z (keyCmd a0 a1 a2 a3).1 := by
  unfold keyCmd
  refine Kept.ite (P := fun x : State × ℕ × ℕ => Kept K z x.1) ?_ ?_
  · exact (hashDelete_kept ha3)
  · exact (hashInsert_kept learn ha3)

theorem l2All_kept {z a0 a1 a2} (learn : ¬K .learn) (ha2 : Kept K z a2) : Kept K z (l2All a0 a1 a2).1 := by
  unfold l2All
  split
  · rename_i m0 m1 m2 q3
    have h4 : Kept K z m0 := Kept.of_eq (P := fun x : State × Nat × Nat => Kept K z x.1) q3 (by
      refine Kept.foldl (P := fun x : State × Nat × Nat => Kept K z x.1) ?_ ?_
      · try dsimp -zeta only
        exact ha2
      · intro x6 y7 h5
        split
        · rename_i m8 m9 m10
          have h12 : Kept K z m8 := h5
          refine Kept.ite (P := fun x : State × Nat × Nat => Kept K z x.1) ?_ ?_
          · exact h5
          · split
            · rename_i m13 m14 q15
              have h16 : Kept K z m13 := Kept.of_eq (P := fun x : State × Nat × Nat => Kept K z x.1) q15
                  (keyCmd_kept learn h12)
              try dsimp -zeta only
              exact h16
            · exact Kept.ite (P := Kept K z) (l2LearnRej_kept learn h12) h12)
    extract_lets +onlyGivenNames -merge -useContext u22
    refine Kept.ite (P := fun x : State × Nat × Option Nat => Kept K z x.1) ?_ ?_
    · exact (Win.ok_kept h4)
    · split
      · rename_i m23 m24 m25 q26
        have h27 : Kept K z m23 := Kept.of_eq (P := fun x : TblRes => Kept K z x.1) q26 (Win.fail_kept h4)
        try dsimp -zeta only
        exact h27

theorem keyLookup_kept {z a0 a1 a2} (ha2 : Kept K z a2) : Kept K z (keyLookup a0 a1 a2).1 := by
  unfold keyLookup
  split
  · exact (Win.ok_kept ha2)
  · exact (Win.ok_kept ha2)

theorem hashTable_kept {z a0 a1 a2 a3} (learn : ¬K .learn) (ha3 : Kept K z a3) : Kept K z (hashTable a0 a1 a2 a3).1
    := by
  unfold hashTable
  split
  · exact (Win.readPar_kept ha3)
  · refine Kept.ite (P := fun x : State × ℕ × Option ℕ => Kept K z x.1) ?_ ?_
    · split
      · rename_i m2 m3 q4
        have h5 : Kept K z m2 := Kept.of_eq (P := fun x : State × ℕ => Kept K z x.1) q4 (hashWrite_kept ha3)
        try dsimp -zeta only
        exact h5
    · exact (Win.fail_kept ha3)
  · exact (Win.keyed_kept (keyCmd_kept learn ha3))
  · exact (Win.keyed_kept (keyCmd_kept learn ha3))
  · exact (keyLookup_kept ha3)
  · exact (Win.fail_kept ha3)

theorem emTable_kept {z a0 a1 a2} (learn : ¬K .learn) (ha2 : Kept K z a2) : Kept K z (emTable a0 a1 a2).1 := by
  unfold emTable
  split
  · exact (hashTable_kept learn ha2)
  · exact (hashTable_kept learn ha2)
  · exact (Win.read_kept ha2)
  · refine Kept.ite (P := fun x : State × ℕ × Option ℕ => Kept K z x.1) ?_ ?_
    · exact (Win.fail_kept ha2)
    · refine Kept.ite (P := fun x : State × ℕ × Option ℕ => Kept K z x.1) ?_ ?_
      · exact (Win.fail_kept ha2)
      · exact (Win.put_kept ha2)
  · exact (Win.fail_kept ha2)

theorem l2Table_kept {z a0 a1 a2} (learn : ¬K .learn) (ha2 : Kept K z a2) : Kept K z (l2Table a0 a1 a2).1 := by
  unfold l2Table
  refine Kept.ite (P := fun x : State × ℕ × Option ℕ => Kept K z x.1) ?_ ?_
  · exact (l2All_kept learn ha2)
  · refine Kept.ite (P := fun x : State × ℕ × Option ℕ => Kept K z x.1) ?_ ?_
    · exact (l2All_kept learn ha2)
    · refine Kept.ite (P := fun x : State × ℕ × Option ℕ => Kept K z x.1) ?_ ?_
      · exact (hashTable_kept learn ha2)
      · exact (Win.fail_kept ha2)

theorem keyedCmd_kept {z a0 a1 a2 a3} (learn : ¬K .learn) (ha3 : Kept K z a3) : Kept K z (keyedCmd a0 a1 a2 a3) :=
  (Kept.ite (P := Kept K z) (tblCmd_kept (fun _ _ h0 => (l2Table_kept learn h0)) ha3) (tblCmd_kept (fun _ _ h1 =>
      (emTable_kept learn h1)) ha3))

theorem execInsert_kept {z a0 a1 a2} (learn : ¬K .learn) (ha2 : Kept K z a2) : ∀ t, (execInsert a0 a1 a2) = .next t
    → Kept K z t :=
  (done_kept (keyedCmd_kept learn ha2))

theorem execDelete_kept {z a0 a1 a2} (learn : ¬K .learn) (ha2 : Kept K z a2) : ∀ t, (execDelete a0 a1 a2) = .next t
    → Kept K z t :=
  (done_kept (keyedCmd_kept learn ha2))

theorem execLookup_kept {z a0 a1 a2} (learn : ¬K .learn) (ha2 : Kept K z a2) : ∀ t, (execLookup a0 a1 a2) = .next t
    → Kept K z t :=
  (done_kept (keyedCmd_kept learn ha2))

theorem routeGet_kept {z a0 a1} (ha1 : Kept K z a1) : Kept K z (routeGet a0 a1).1 := by
  unfold routeGet
  extract_lets +onlyGivenNames -merge -useContext u0
  refine Kept.ite (P := fun x : State × ℕ × Option ℕ => Kept K z x.1) ?_ ?_
  · exact (Win.fail_kept ha1)
  · split
    · exact (Win.fail_kept ha1)
    · exact (Win.ok_kept ha1)

theorem routeMatchCmd_kept {z a0 a1} (ha1 : Kept K z a1) : Kept K z (routeMatchCmd a0 a1).1 := by
  unfold routeMatchCmd
  extract_lets +onlyGivenNames -merge -useContext u0 u1
  split
  · exact (Win.ok_kept ha1)
  · exact (Win.ok_kept ha1)

theorem lpmTable_kept {z a0 a1 a2} (ha2 : Kept K z a2) : Kept K z (lpmTable a0 a1 a2).1 := by
  unfold lpmTable
  extract_lets +onlyGivenNames -merge -useContext u0
  have h1 : ∀ y0_0, (Kept K z y0_0.1) → Kept K z (u0 y0_0).1 := by
    unfold u0
    intro a4 h5
    try dsimp -zeta only
    exact h5
  try clear_value u0
  split
  · exact (h1 _ (routeAdd_kept ha2))
  · exact (h1 _ (routeDel_kept ha2))
  · exact (h1 _ (routeMod_kept ha2))
  · exact (routeGet_kept ha2)
  · exact (routeMatchCmd_kept ha2)
  · exact (Win.readPar_kept ha2)
  · refine Kept.ite (P := fun x : State × ℕ × Option ℕ => Kept K z x.1) ?_ ?_
    · exact (Win.put_kept ha2)
    · exact (Win.fail_kept ha2)
  · exact (Win.fail_kept ha2)

theorem lpmQueue_kept {z a0 a1 a2} (agents : ¬K .agents) (ha2 : Kept K z a2) : Kept K z (lpmQueue a0 a1 a2) := by
  unfold lpmQueue
  extract_lets +onlyGivenNames -merge -useContext u0 u1 u2
  have h3 : Kept K z u2 := (State.setReg_kept ha2)
  try clear_value u2
  exact (Kept.same h3 rfl (Area.each (fun _ => Area.f5) (fun _ => Area.f5) (fun _ => rfl) (fun _ => Area.f5) (fun _
      => Area.f3) (fun _ => rfl) (fun _ => Area.f4) (absurd · agents)))

theorem routeRun_kept {z a0 a1 a2} (agents : ¬K .agents) (ha2 : Kept K z a2) : Kept K z (routeRun a0 a1 a2) :=
  (Kept.ite (P := Kept K z) (tblRun_kept (fun _ _ h0 => (lpmTable_kept h0)) ha2) (lpmQueue_kept agents ha2))

theorem routeCmd_kept {z a0 a1 a2} (agents : ¬K .agents) (ha2 : Kept K z a2) : Kept K z (routeCmd a0 a1 a2) :=
  (gateWrite_kept (fun _ h0 => (routeRun_kept agents h0)) ha2)

theorem execRouteAdd_kept {z a0 a1} (agents : ¬K .agents) (ha1 : Kept K z a1) : ∀ t, (execRouteAdd a0 a1) = .next t
    → Kept K z t :=
  (done_kept (routeCmd_kept agents ha1))

theorem execRouteDel_kept {z a0 a1} (agents : ¬K .agents) (ha1 : Kept K z a1) : ∀ t, (execRouteDel a0 a1) = .next t
    → Kept K z t :=
  (done_kept (routeCmd_kept agents ha1))

theorem execRouteMod_kept {z a0 a1} (agents : ¬K .agents) (ha1 : Kept K z a1) : ∀ t, (execRouteMod a0 a1) = .next t
    → Kept K z t :=
  (done_kept (routeCmd_kept agents ha1))

theorem execRouteGet_kept {z a0 a1} (agents : ¬K .agents) (ha1 : Kept K z a1) : ∀ t, (execRouteGet a0 a1) = .next t
    → Kept K z t :=
  (done_kept (routeCmd_kept agents ha1))

theorem execRouteMatch_kept {z a0 a1} (agents : ¬K .agents) (ha1 : Kept K z a1) : ∀ t, (execRouteMatch a0 a1) =
    .next t → Kept K z t :=
  (done_kept (routeCmd_kept agents ha1))

theorem adjWrite_kept {z a0 a1} (ha1 : Kept K z a1) : Kept K z (adjWrite a0 a1).1 := by
  unfold adjWrite
  extract_lets +onlyGivenNames -merge -useContext u0
  refine Kept.ite (P := fun x : State × ℕ × Option ℕ => Kept K z x.1) ?_ ?_
  · exact (Win.fail_kept ha1)
  · refine Kept.ite (P := fun x : State × ℕ × Option ℕ => Kept K z x.1) ?_ ?_
    · exact (Win.fail_kept ha1)
    · exact (Win.putVis_kept ha1)

theorem ecmpWrite_kept {z a0 a1} (ha1 : Kept K z a1) : Kept K z (ecmpWrite a0 a1).1 := by
  unfold ecmpWrite
  extract_lets +onlyGivenNames -merge -useContext u0 u1
  refine Kept.ite (P := fun x : State × ℕ × Option ℕ => Kept K z x.1) ?_ ?_
  · exact (Win.fail_kept ha1)
  · exact (Win.putVis_kept ha1)

theorem adjTable_kept {z a0 a1 a2} (fabric : ¬K .fabric) (ha2 : Kept K z a2) : Kept K z (adjTable a0 a1 a2).1 := by
  unfold adjTable
  refine Kept.ite (P := fun x : State × ℕ × Option ℕ => Kept K z x.1) ?_ ?_
  · exact (Win.fail_kept ha2)
  · split
    · refine Kept.ite (P := fun x : State × ℕ × Option ℕ => Kept K z x.1) ?_ ?_
      · exact (Win.readPar_kept ha2)
      · refine Kept.ite (P := fun x : State × ℕ × Option ℕ => Kept K z x.1) ?_ ?_
        · exact (Win.fail_kept ha2)
        · split
          · exact (adjWrite_kept ha2)
          · exact (ecmpWrite_kept ha2)
          · split
            · rename_i m6 m7 m8 q9
              have h10 : Kept K z m6 := Kept.of_eq (P := fun x : TblRes => Kept K z x.1) q9 (Win.put_kept ha2)
              try dsimp -zeta only
              exact (reachGained_kept fabric ha2 h10)
          · exact (Win.put_kept ha2)

theorem polFill_kept {z a0 a1} (ha1 : Kept K z a1) : Kept K z (polFill a0 a1) := by
  unfold polFill
  extract_lets +onlyGivenNames -merge -useContext u0
  exact (State.setH_kept (State.setH_kept (State.setH_kept ha1)))

theorem polWrite_kept {z a0 a1} (ha1 : Kept K z a1) : Kept K z (polWrite a0 a1).1 := by
  unfold polWrite
  extract_lets +onlyGivenNames -merge -useContext u0 u1 u2
  split
  · refine Kept.ite (P := fun x : State × ℕ × Option ℕ => Kept K z x.1) ?_ ?_
    · exact (Win.fail_kept ha1)
    · extract_lets +onlyGivenNames -merge -useContext u5
      have h6 : Kept K z u5 := (State.setTab_kept ha1)
      try clear_value u5
      refine Kept.ite (P := fun x : State × ℕ × Option ℕ => Kept K z x.1) ?_ ?_
      · exact (Win.ok_kept (polFill_kept h6))
      · extract_lets +onlyGivenNames -merge -useContext u7
        have h8 : Kept K z u7 := (State.setH_kept (State.setH_kept h6))
        try clear_value u7
        exact (Win.ok_kept (State.setH_kept h8))

theorem polRead_kept {z a0 a1} (ha1 : Kept K z a1) : Kept K z (polRead a0 a1).1 := by
  unfold polRead
  extract_lets +onlyGivenNames -merge -useContext u0
  exact (Win.ok_kept ha1)

theorem polTable_kept {z a0 a1 a2} (ha2 : Kept K z a2) : Kept K z (polTable a0 a1 a2).1 := by
  unfold polTable
  refine Kept.ite (P := fun x : State × ℕ × Option ℕ => Kept K z x.1) ?_ ?_
  · exact (Win.fail_kept ha2)
  · refine Kept.ite (P := fun x : State × ℕ × Option ℕ => Kept K z x.1) ?_ ?_
    · exact (Win.fail_kept ha2)
    · refine Kept.ite (P := fun x : State × ℕ × Option ℕ => Kept K z x.1) ?_ ?_
      · exact (polRead_kept ha2)
      · exact (polWrite_kept ha2)

theorem polRestart_kept {z a0} (ha0 : Kept K z a0) : Kept K z (polRestart a0) :=
  (forEach_kept ha0 (fun _ _ h0 => (polFill_kept h0)))

end Sys2Proof.Machine
end

