-- ==== Sys2Proof/Laws/KeptControl.lean ====
section
/-!
SUPPORT. Every operation and meaning of Machine/Control.lean keeps the state sane, its queue as it is and its outputs made.
-/
namespace Sys2Proof.Machine

variable {K : Area → Prop}

theorem setCore_kept {z a0 a1 a2} (ha2 : Kept K z a2) : Kept K z (setCore a0 a1 a2) := by
  unfold setCore
  extract_lets +onlyGivenNames -merge -useContext u0
  have h1 : Kept K z u0 := (State.setRfld_kept ha2)
  try clear_value u0
  extract_lets +onlyGivenNames -merge -useContext u2
  have h3 : Kept K z u2 := (Kept.ite (P := Kept K z) (State.setH_kept h1) h1)
  try clear_value u2
  exact (Kept.ite (P := Kept K z) h3 (State.setHb_kept h3))

theorem mirrorSts_kept {z a0} (ha0 : Kept K z a0) : Kept K z (mirrorSts a0) :=
  (State.setReg_kept ha0)

theorem retarget_kept {z a0 a1 a2} (ha2 : Kept K z a2) : Kept K z (retarget a0 a1 a2) :=
  (forEach_kept ha2 (fun _ _ h0 => (State.setRfld_kept h0)))

theorem reclaim_kept {z a0 a1} (intStacks : ¬K .intStacks) (ha1 : Kept K z a1) : Kept K z (reclaim a0 a1) := by
  unfold reclaim
  extract_lets +onlyGivenNames -merge -useContext u0 u1
  have h2 : Kept K z u1 := by
    unfold u1
    exact (Kept.sub ha1 rfl rfl (.refl _) (.refl _) (.refl _) (.refl _) (.refl _) List.filter_sublist (.refl _)
        (Area.each (fun _ => Area.f5) (fun _ => Area.f5) (fun _ => rfl) (fun _ => Area.f5) (fun _ => Area.f3)
        (absurd · intStacks) (fun _ => Area.f4) (fun _ => Area.f8)))
  try clear_value u1
  exact (forEach_kept h2 (fun _ _ h3 => (Kept.ite (P := Kept K z) h3 (setPend_kept h3))))

theorem engineStart_kept {z a0 a1} (memory : ¬K .memory) (ha1 : Kept K z a1) : Kept K z (engineStart a0 a1) := by
  unfold engineStart
  extract_lets +onlyGivenNames -merge -useContext u0 u1
  have h2 : Kept K z u1 := (State.wrMem_kept memory ha1)
  try clear_value u1
  extract_lets +onlyGivenNames -merge -useContext u3
  have h4 : Kept K z u3 := (bump_kept (State.setH_kept (State.setH_kept h2)))
  try clear_value u3
  extract_lets +onlyGivenNames -merge -useContext u5
  have h6 : Kept K z u5 := (State.setH_kept (State.setH_kept h4))
  try clear_value u5
  extract_lets +onlyGivenNames -merge -useContext u7
  have h8 : Kept K z u7 := (Kept.ite (P := Kept K z) (State.setH_kept h6) h6)
  try clear_value u7
  exact (Kept.ite (P := Kept K z) (forEach_kept h8 (fun _ _ h9 => (State.setH_kept h9))) h8)

theorem engineLoad_kept {z a0 a1} (memory : ¬K .memory) (ha1 : Kept K z a1) : Kept K z (engineLoad a0 a1) := by
  unfold engineLoad
  extract_lets +onlyGivenNames -merge -useContext u0 u1
  have h2 : Kept K z u1 := (State.setH_kept ha1)
  try clear_value u1
  exact (Kept.ite (P := Kept K z) (raise_kept (State.setH_kept h2)) (engineStart_kept memory (State.when_kept h2
      (fun _ h3 => (mrExtend_kept h3)))))

theorem coreLoad_kept {z a0 a1} (memory : ¬K .memory) (ha1 : Kept K z a1) : Kept K z (coreLoad a0 a1) := by
  unfold coreLoad
  extract_lets +onlyGivenNames -merge -useContext u0 u1 u2
  have h3 : Kept K z u2 := (State.setH_kept (setCore_kept ha1))
  try clear_value u2
  extract_lets +onlyGivenNames -merge -useContext u4
  have h5 : Kept K z u4 := (Kept.ite (P := Kept K z) (State.setH_kept h3) h3)
  try clear_value u4
  extract_lets +onlyGivenNames -merge -useContext u6
  split
  · extract_lets +onlyGivenNames -merge -useContext u8
    extract_lets +onlyGivenNames -merge -useContext u9
    have h10 : Kept K z u9 := (State.wrMem_kept memory h5)
    try clear_value u9
    extract_lets +onlyGivenNames -merge -useContext u11
    have h12 : Kept K z u11 := (State.setH_kept (State.setH_kept h10))
    try clear_value u11
    extract_lets +onlyGivenNames -merge -useContext u13
    have h14 : Kept K z u13 := (State.setH_kept (State.setH_kept h12))
    try clear_value u13
    extract_lets +onlyGivenNames -merge -useContext u15
    have h16 : Kept K z u15 := (State.setH_kept (State.setH_kept h14))
    try clear_value u15
    extract_lets +onlyGivenNames -merge -useContext u17
    have h18 : Kept K z u17 := (bump_kept h16)
    try clear_value u17
    extract_lets +onlyGivenNames -merge -useContext u19
    have h20 : Kept K z u19 := (Kept.ite (P := Kept K z) h18 (mrImage_kept h18))
    try clear_value u19
    exact (Kept.ite (P := Kept K z) h20 (mrImage_kept h20))
  · exact (raise_kept (loadErr_kept (setCore_kept h5)))

theorem coreReady_kept {z a0 a1 a2} (ha2 : Kept K z a2) : Kept K z (coreReady a0 a1 a2) := by
  unfold coreReady
  refine Kept.ite (P := Kept K z) ?_ ?_
  · exact ha2
  · refine Kept.ite (P := Kept K z) ?_ ?_
    · exact (raise_kept (State.setH_kept (State.setH_kept (setCore_kept ha2))))
    · extract_lets +onlyGivenNames -merge -useContext u0
      have h1 : Kept K z u0 := (State.setH_kept ha2)
      try clear_value u0
      split
      · exact (setCore_kept h1)
      · exact (Kept.ite (P := Kept K z) (setCore_kept h1) (State.setReg_kept (setCore_kept h1)))

theorem execCoreLoadDone_kept {z a0 a1 a2} (ha2 : Kept K z a2) : ∀ t, (execCoreLoadDone a0 a1 a2) = .next t → Kept K
    z t :=
  (done_kept (State.when_kept ha2 (fun _ h0 => (coreReady_kept h0))))

theorem noteFault_kept {z a0 a1} (ha1 : Kept K z a1) : Kept K z (noteFault a0 a1) := by
  unfold noteFault
  extract_lets +onlyGivenNames -merge -useContext u0
  have h1 : Kept K z u0 := (State.setH_kept ha1)
  try clear_value u0
  exact (State.setH_kept (State.setH_kept h1))

theorem pairLost_kept {z a0 a1 a2} (ha2 : Kept K z a2) : Kept K z (pairLost a0 a1 a2) := by
  unfold pairLost
  extract_lets +onlyGivenNames -merge -useContext u0
  have h1 : Kept K z u0 := (forEach_kept ha2 (fun _ _ h2 => (retarget_kept h2)))
  try clear_value u0
  extract_lets +onlyGivenNames -merge -useContext u3
  have h4 : Kept K z u3 := (State.setH_kept (State.setHb_kept (State.setReg_kept h1)))
  try clear_value u3
  exact (raiseFault_kept (intcUpdate_kept (State.setH_kept h4)))

theorem abandonHandover_kept {z a0} (intStacks : ¬K .intStacks) (ha0 : Kept K z a0) : Kept K z (abandonHandover a0)
    := by
  unfold abandonHandover
  extract_lets +onlyGivenNames -merge -useContext u0
  have h1 : Kept K z u0 := (Kept.ite (P := Kept K z) ha0 (State.setH_kept (State.setReg_kept ha0)))
  try clear_value u0
  exact (pairLost_kept (reclaim_kept intStacks (reclaim_kept intStacks h1)))

theorem coreFault_kept {z a0 a1 a2} (intStacks : ¬K .intStacks) (ha2 : Kept K z a2) : Kept K z (coreFault a0 a1 a2)
    := by
  unfold coreFault
  extract_lets +onlyGivenNames -merge -useContext u0 u1 u2
  have h3 : Kept K z u2 := (setCore_kept (State.setReg_kept ha2))
  try clear_value u2
  extract_lets +onlyGivenNames -merge -useContext u4
  have h5 : Kept K z u4 := (noteFault_kept (bump_kept h3))
  try clear_value u4
  extract_lets +onlyGivenNames -merge -useContext u6
  have h7 : Kept K z u6 := (State.setH_kept (State.setH_kept h5))
  try clear_value u6
  extract_lets +onlyGivenNames -merge -useContext u8
  have h9 : Kept K z u8 := (mirrorSts_kept (raiseFault_kept h7))
  try clear_value u8
  exact (Kept.ite (P := Kept K z) (abandonHandover_kept intStacks h9) (Kept.ite (P := Kept K z) (Kept.ite (P := Kept
      K z) (State.setH_kept (State.setH_kept h9)) (pairLost_kept h9)) h9))

theorem execCoreFault_kept {z a0 a1 a2} (time : ¬K .time) (intStacks : ¬K .intStacks) (ha2 : Kept K z a2) : ∀ t,
    (execCoreFault a0 a1 a2) = .next t → Kept K z t :=
  (done_kept (State.when_kept ha2 (fun _ h0 => (coreFault_kept intStacks (Kept.ite (P := Kept K z) (waitRoot_kept
      time h0) h0)))))

theorem wdtKick_kept {z a0 a1 a2} (ha2 : Kept K z a2) : Kept K z (wdtKick a0 a1 a2) := by
  unfold wdtKick
  split
  · exact (Kept.ite (P := Kept K z) (State.setH_kept ha2) ha2)
  · exact ha2

theorem execWdtKick_kept {z a0 a1 a2} (ha2 : Kept K z a2) : ∀ t, (execWdtKick a0 a1 a2) = .next t → Kept K z t :=
  (done_kept (gateWrite_kept (fun _ h0 => (wdtKick_kept h0)) ha2))

theorem handover_kept {z a0 a1 a2} (ha2 : Kept K z a2) : Kept K z (handover a0 a1 a2) := by
  unfold handover
  refine Kept.ite (P := Kept K z) ?_ ?_
  · exact ha2
  · split
    · refine Kept.ite (P := Kept K z) ?_ ?_
      · extract_lets +onlyGivenNames -merge -useContext u1
        have h2 : Kept K z u1 := (State.setH_kept (setCore_kept (State.setReg_kept ha2)))
        try clear_value u1
        exact (mirrorSts_kept (State.setH_kept (State.setH_kept (State.setH_kept h2))))
      · exact (errReq_kept ha2)
    · exact (errReq_kept ha2)

theorem execHandover_kept {z a0 a1 a2} (ha2 : Kept K z a2) : ∀ t, (execHandover a0 a1 a2) = .next t → Kept K z t :=
  (done_kept (gateWrite_kept (fun _ h0 => (handover_kept h0)) ha2))

theorem takeover_kept {z a0} (intStacks : ¬K .intStacks) (ha0 : Kept K z a0) : Kept K z (takeover a0) := by
  unfold takeover
  extract_lets +onlyGivenNames -merge -useContext u0
  refine Kept.ite (P := Kept K z) ?_ ?_
  · exact ha0
  · extract_lets +onlyGivenNames -merge -useContext u1
    extract_lets +onlyGivenNames -merge -useContext u2
    have h3 : Kept K z u2 := (reclaim_kept intStacks (retarget_kept ha0))
    try clear_value u2
    extract_lets +onlyGivenNames -merge -useContext u4
    have h5 : Kept K z u4 := (State.setH_kept (State.setReg_kept (setCore_kept h3)))
    try clear_value u4
    extract_lets +onlyGivenNames -merge -useContext u6
    have h7 : Kept K z u6 := (State.setH_kept (State.setH_kept (State.setH_kept h5)))
    try clear_value u6
    extract_lets +onlyGivenNames -merge -useContext u8
    have h9 : Kept K z u8 := (State.setH_kept (mirrorSts_kept h7))
    try clear_value u8
    exact (raise_kept (bump_kept (intcUpdate_kept h9)))

theorem execTakeover_kept {z a0} (intStacks : ¬K .intStacks) (ha0 : Kept K z a0) : ∀ t, (execTakeover a0) = .next t
    → Kept K z t :=
  (done_kept (State.when_kept ha0 (fun _ h0 => (takeover_kept intStacks h0))))

theorem mirrorStore_kept {z a0 a1 a2} (memory : ¬K .memory) (ha2 : Kept K z a2) : Kept K z (mirrorStore a0 a1 a2) :=
    by
  unfold mirrorStore
  split
  · exact ha2
  · extract_lets +onlyGivenNames -merge -useContext u2
    extract_lets +onlyGivenNames -merge -useContext u3
    have h4 : Kept K z u3 := (State.wrMem_kept memory ha2)
    try clear_value u3
    extract_lets +onlyGivenNames -merge -useContext u5
    exact (Kept.ite (P := Kept K z) (State.wrMem_kept memory h4) h4)

theorem execMirrorStore_kept {z a0 a1 a2} (memory : ¬K .memory) (ha2 : Kept K z a2) : ∀ t, (execMirrorStore a0 a1
    a2) = .next t → Kept K z t :=
  (done_kept (State.when_kept ha2 (fun _ h0 => (mirrorStore_kept memory h0))))

theorem bulkCopy_kept {z a0 a1} (memory : ¬K .memory) (ha1 : Kept K z a1) : Kept K z (bulkCopy a0 a1) := by
  unfold bulkCopy
  extract_lets +onlyGivenNames -merge -useContext u0 u1
  have h2 : Kept K z u1 := (State.eraseMem_kept memory ha1)
  try clear_value u1
  exact (forEach_kept h2 (fun _ _ h3 => (State.wrMem_kept memory h3)))

theorem syncDone_kept {z a0 a1} (memory : ¬K .memory) (time : ¬K .time) (ha1 : Kept K z a1) : Kept K z (syncDone a0
    a1) := by
  unfold syncDone
  refine Kept.ite (P := Kept K z) ?_ ?_
  · extract_lets +onlyGivenNames -merge -useContext u0
    have h1 : Kept K z u0 := (waitRoot_kept time ha1)
    try clear_value u0
    exact (raise_kept (mirrorSts_kept (State.setH_kept (setCore_kept (bulkCopy_kept memory h1)))))
  · exact ha1

theorem execSyncComplete_kept {z a0 a1} (memory : ¬K .memory) (time : ¬K .time) (ha1 : Kept K z a1) : ∀ t,
    (execSyncComplete a0 a1) = .next t → Kept K z t :=
  (done_kept (State.when_kept ha1 (fun _ h0 => (syncDone_kept memory time h0))))

theorem requestLoad_kept {z a0 a1 a2 a3} (agents : ¬K .agents) (ha3 : Kept K z a3) : Kept K z (requestLoad a0 a1 a2
    a3) := by
  unfold requestLoad
  extract_lets +onlyGivenNames -merge -useContext u0
  have h1 : Kept K z u0 := (flashAsk_kept agents (State.setH_kept (State.setH_kept (setCore_kept ha3))))
  try clear_value u0
  exact (mirrorSts_kept (State.setH_kept (State.setH_kept (State.setHb_kept h1))))

theorem reload_kept {z a0 a1 a2} (agents : ¬K .agents) (ha2 : Kept K z a2) : Kept K z (reload a0 a1 a2) := by
  unfold reload
  extract_lets +onlyGivenNames -merge -useContext u0
  exact (Kept.ite (P := Kept K z) (errReq_kept ha2) (Kept.ite (P := Kept K z) ha2 (requestLoad_kept agents ha2)))

theorem execReload_kept {z a0 a1 a2} (agents : ¬K .agents) (ha2 : Kept K z a2) : ∀ t, (execReload a0 a1 a2) = .next
    t → Kept K z t :=
  (done_kept (gateWrite_kept (fun _ h0 => (reload_kept agents h0)) ha2))

theorem execCoreAutoReload_kept {z a0 a1} (agents : ¬K .agents) (ha1 : Kept K z a1) : ∀ t, (execCoreAutoReload a0
    a1) = .next t → Kept K z t :=
  (done_kept (State.when_kept ha1 (fun _ h0 => (Kept.ite (P := Kept K z) (State.setHb_kept h0) (requestLoad_kept
      agents h0)))))

theorem doorbell_kept {z a0 a1 a2} (ha2 : Kept K z a2) : Kept K z (doorbell a0 a1 a2) :=
  (Kept.ite (P := Kept K z) (errReq_kept (bump_kept ha2)) (ring_kept ha2))

theorem execDoorbell_kept {z a0 a1 a2} (ha2 : Kept K z a2) : ∀ t, (execDoorbell a0 a1 a2) = .next t → Kept K z t :=
  (done_kept (gateWrite_kept (fun _ h0 => (doorbell_kept h0)) ha2))

theorem stackFull_kept {z a0 a1 a2 a3} (ha3 : Kept K z a3) : Kept K z (stackFull a0 a1 a2 a3) :=
  (raise_kept (errReq_kept (bump_kept ha3)))

theorem claim_kept {z a0 a1 a2} (intStacks : ¬K .intStacks) (ha2 : Kept K z a2) : Kept K z (claim a0 a1 a2).2 := by
  unfold claim
  split
  · exact errDisabled_kept ha2
  · split
    · exact bump_kept ha2
    · split
      · exact stackFull_kept ha2
      · refine intcUpdate_kept (State.setHb_kept (State.setHb_kept (State.setH_kept ?_)))
        exact push_kept intStacks (State.setRbit_kept ha2) _ _ (show (stackOf a2 a1).length < 16 by omega)

theorem execClaim_kept {z a0 a1 a2} (intStacks : ¬K .intStacks) (ha2 : Kept K z a2) : ∀ t, (execClaim a0 a1 a2) =
    .next t → Kept K z t :=
  (done_kept (readFor_kept (fun _ h0 => (claim_kept intStacks h0)) ha2))

theorem eoi_kept {z a0 a1 a2 a3} (intStacks : ¬K .intStacks) (ha3 : Kept K z a3) : Kept K z (eoi a0 a1 a2 a3) := by
  unfold eoi
  split
  · refine Kept.ite (P := Kept K z) ?_ ?_
    · split
      · exact (intcUpdate_kept (Kept.sub ha3 rfl rfl (.refl _) (.refl _) (.refl _) (.refl _) (.refl _)
          (List.eraseIdx_sublist _ _) (.refl _) (Area.each (fun _ => Area.f5) (fun _ => Area.f5) (fun _ => rfl) (fun
          _ => Area.f5) (fun _ => Area.f3) (absurd · intStacks) (fun _ => Area.f4) (fun _ => Area.f8))))
      · exact ha3
    · exact (raise_kept (errReq_kept (bump_kept ha3)))
  · exact (raise_kept (errReq_kept (bump_kept ha3)))

theorem execEoi_kept {z a0 a1 a2 a3} (intStacks : ¬K .intStacks) (ha3 : Kept K z a3) : ∀ t, (execEoi a0 a1 a2 a3) =
    .next t → Kept K z t :=
  (done_kept (gateWrite_kept (fun _ h0 => (eoi_kept intStacks h0)) ha3))

theorem setpri_kept {z a0 a1 a2 a3} (intStacks : ¬K .intStacks) (ha3 : Kept K z a3) : Kept K z (setpri a0 a1 a2 a3)
    := by
  unfold setpri
  split
  · exact stackFull_kept ha3
  · exact intcUpdate_kept (State.setHb_kept (push_kept intStacks ha3 _ _ (by omega)))

theorem execSetpri_kept {z a0 a1 a2 a3} (intStacks : ¬K .intStacks) (ha3 : Kept K z a3) : ∀ t, (execSetpri a0 a1 a2
    a3) = .next t → Kept K z t :=
  (done_kept (gateWrite_kept (fun _ h0 => (setpri_kept intStacks h0)) ha3))

theorem pendWrite_kept {z a0 a1 a2} (ha2 : Kept K z a2) : Kept K z (pendWrite a0 a1 a2) := by
  unfold pendWrite
  extract_lets +onlyGivenNames -merge -useContext u0 u1 u2 u3
  have h4 : Kept K z u3 := (State.setReg_kept (State.setReg_kept ha2))
  try clear_value u3
  extract_lets +onlyGivenNames -merge -useContext u5
  have h6 : Kept K z u5 := (State.setH_kept h4)
  try clear_value u5
  exact (intcUpdate_kept (forEach_kept h6 (fun _ _ h7 => (State.setHb_kept h7))))

theorem execPendWrite_kept {z a0 a1 a2 a3} (ha3 : Kept K z a3) : ∀ t, (execPendWrite a0 a1 a2 a3) = .next t → Kept K
    z t :=
  (done_kept (gateWrite_kept (fun _ h0 => (pendWrite_kept h0)) ha3))

theorem intcMask_kept {z a0 a1 a2} (ha2 : Kept K z a2) : Kept K z (intcMask a0 a1 a2) :=
  (intcUpdate_kept (State.setReg_kept ha2))

theorem execIntcMaskWrite_kept {z a0 a1 a2 a3} (ha3 : Kept K z a3) : ∀ t, (execIntcMaskWrite a0 a1 a2 a3) = .next t
    → Kept K z t :=
  (done_kept (gateWrite_kept (fun _ h0 => (intcMask_kept h0)) ha3))

theorem holdoffEnd_kept {z a0 a1 a2} (time : ¬K .time) (ha2 : Kept K z a2) : Kept K z (holdoffEnd a0 a1 a2) := by
  unfold holdoffEnd
  refine Kept.ite (P := Kept K z) ?_ ?_
  · exact ha2
  · extract_lets +onlyGivenNames -merge -useContext u0
    have h1 : Kept K z u0 := (waitRoot_kept time ha2)
    try clear_value u0
    exact (intcUpdate_kept (State.setHb_kept h1))

theorem execHoldoffExpire_kept {z a0 a1 a2} (time : ¬K .time) (ha2 : Kept K z a2) : ∀ t, (execHoldoffExpire a0 a1
    a2) = .next t → Kept K z t :=
  (done_kept (State.ifLive_kept ha2 (fun _ h0 => (holdoffEnd_kept time h0))))

theorem execCoreIdleEnter_kept {z a0 a1} (ha1 : Kept K z a1) : ∀ t, (execCoreIdleEnter a0 a1) = .next t → Kept K z t
    :=
  (done_kept (State.when_kept ha1 (fun _ h0 => (intcUpdate_kept (State.setHb_kept h0)))))

theorem pfeArm_kept {z a0 a1} (ha1 : Kept K z a1) : Kept K z (pfeArm a0 a1) := by
  unfold pfeArm
  extract_lets +onlyGivenNames -merge -useContext u0
  exact (Kept.ite (P := Kept K z) (State.setH_kept ha1) (State.setH_kept ha1))

theorem pfeRearm_kept {z a0} (ha0 : Kept K z a0) : Kept K z (pfeRearm a0) :=
  (forEach_kept ha0 (fun _ _ h0 => (pfeArm_kept h0)))

theorem pfeEntryWrite_kept {z a0 a1} (ha1 : Kept K z a1) : Kept K z (pfeEntryWrite a0 a1).1 := by
  unfold pfeEntryWrite
  extract_lets +onlyGivenNames -merge -useContext u0 u1 u2 u3
  refine Kept.ite (P := fun x : State × ℕ × Option ℕ => Kept K z x.1) ?_ ?_
  · exact (Win.fail_kept ha1)
  · extract_lets +onlyGivenNames -merge -useContext u4
    exact (Win.ok_kept (pfeArm_kept (State.setTab_kept ha1)))

theorem pfeTable_kept {z a0 a1 a2} (ha2 : Kept K z a2) : Kept K z (pfeTable a0 a1 a2).1 := by
  unfold pfeTable
  split
  · exact (Win.read_kept ha2)
  · refine Kept.ite (P := fun x : State × ℕ × Option ℕ => Kept K z x.1) ?_ ?_
    · exact (pfeEntryWrite_kept ha2)
    · exact (Win.fail_kept ha2)
  · exact (Win.read_kept ha2)
  · refine Kept.ite (P := fun x : State × ℕ × Option ℕ => Kept K z x.1) ?_ ?_
    · exact (Win.ok_kept (State.setTab_kept ha2))
    · exact (Win.fail_kept ha2)
  · exact (Win.fail_kept ha2)

theorem pfeBuild_kept {z a0 a1 a2} (ha2 : Kept K z a2) : Kept K z (pfeBuild a0 a1 a2).2 := by
  unfold pfeBuild
  extract_lets +onlyGivenNames -merge -useContext u0 u1 u2 u3 u4
  have h5 : Kept K z u4 := (Kept.ite (P := Kept K z) (State.setTab_kept ha2) ha2)
  try clear_value u4
  extract_lets +onlyGivenNames -merge -useContext u6 u7
  try dsimp -zeta only
  exact h5

theorem pfeEmit_kept {z a0 a1} (frames : ¬K .frames) (fabric : ¬K .fabric) (time : ¬K .time) (ha1 : Kept K z a1) :
    Kept K z (pfeEmit a0 a1) := by
  unfold pfeEmit
  split
  · exact ha1
  · extract_lets +onlyGivenNames -merge -useContext u3
    extract_lets +onlyGivenNames -merge -useContext u4 u5
    have h6 : Kept K z u5 := (waitRoot_kept time (advanceTo_kept time ha1))
    try clear_value u5
    refine Kept.ite (P := Kept K z) ?_ ?_
    · exact h6
    · extract_lets +onlyGivenNames -merge -useContext u7
      have h8 : Kept K z u7 := (State.setH_kept h6)
      try clear_value u7
      refine Kept.ite (P := Kept K z) ?_ ?_
      · exact (pfeMiss_kept (pfeBuild_kept h8))
      · split
        · rename_i m9 m10 q11
          have h12 : Kept K z m10 := Kept.of_eq (P := fun x : Frame × State => Kept K z x.2) q11 (pfeBuild_kept
              (State.setH_kept h8))
          extract_lets +onlyGivenNames -merge -useContext u13
          have h14 : Kept K z u13 := (State.newFrame_kept frames h12)
          try clear_value u13
          exact (Kept.ite (P := Kept K z) (offerTo_kept frames fabric h14) (dropDisabled_kept frames h14))

theorem execPfeEmission_kept {z a0 a1} (frames : ¬K .frames) (fabric : ¬K .fabric) (time : ¬K .time) (ha1 : Kept K z
    a1) : ∀ t, (execPfeEmission a0 a1) = .next t → Kept K z t :=
  (done_kept (State.when_kept ha1 (fun _ h0 => (pfeEmit_kept frames fabric time h0))))

theorem pfeMissed_kept {z a0 a1} (frames : ¬K .frames) (fabric : ¬K .fabric) (time : ¬K .time) (ha1 : Kept K z a1) :
    Kept K z (pfeMissed a0 a1) := by
  unfold pfeMissed
  split
  · exact ha1
  · extract_lets +onlyGivenNames -merge -useContext u2
    have h3 : Kept K z u2 := (advanceTo_kept time ha1)
    try clear_value u2
    refine Kept.ite (P := Kept K z) ?_ ?_
    · exact h3
    · extract_lets +onlyGivenNames -merge -useContext u4
      have h5 : Kept K z u4 := (pfeMiss_kept (State.drop_kept frames h3))
      try clear_value u4
      split
      · exact (queueLeft_kept frames fabric h5)
      · exact h5

theorem execPfeMissed_kept {z a0 a1} (frames : ¬K .frames) (fabric : ¬K .fabric) (time : ¬K .time) (ha1 : Kept K z
    a1) : ∀ t, (execPfeMissed a0 a1) = .next t → Kept K z t :=
  (done_kept (State.when_kept ha1 (fun _ h0 => (pfeMissed_kept frames fabric time h0))))

end Sys2Proof.Machine
end

