-- ==== Sys2Proof/Laws/KeptFabric.lean ====
section
/-!
SUPPORT. Every operation and meaning of Machine/Fabric.lean keeps the state sane, its queue as it is and its outputs made.
-/
namespace Sys2Proof.Machine

variable {K : Area → Prop}

theorem putTx_kept {z a0 a1} (fabric : ¬K .fabric) (ha1 : Kept K z a1) : Kept K z (putTx a0 a1) :=
  (Kept.same ha1 rfl (Area.each (fun _ => Area.f5) (absurd · fabric) (fun _ => rfl) (fun _ => Area.f5) (fun _ =>
      Area.f3) (fun _ => rfl) (fun _ => Area.f4) (fun _ => Area.f8)))

theorem unitsTx_kept {z a0 a1 a2} (fabric : ¬K .fabric) (ha2 : Kept K z a2) : Kept K z (unitsTx a0 a1 a2) := by
  unfold unitsTx
  extract_lets +onlyGivenNames -merge -useContext u0 u1 u2
  refine Kept.ite (P := Kept K z) ?_ ?_
  · exact (putTx_kept fabric ha2)
  · split
    · exact (putTx_kept fabric (State.emit_kept ha2))

theorem fillOut_kept {z a0 a1 a2} (fabric : ¬K .fabric) (ha2 : Kept K z a2) : Kept K z (fillOut a0 a1 a2) :=
  (forEach_kept ha2 (fun _ _ h0 => (unitsTx_kept fabric h0)))

theorem fillTx_kept {z a0 a1} (fabric : ¬K .fabric) (ha1 : Kept K z a1) : Kept K z (fillTx a0 a1) := by
  unfold fillTx
  extract_lets +onlyGivenNames -merge -useContext u0 u1 u2
  refine Kept.ite (P := Kept K z) ?_ ?_
  · exact (fillOut_kept fabric ha1)
  · extract_lets +onlyGivenNames -merge -useContext u3
    have h4 : Kept K z u3 := (fillOut_kept fabric ha1)
    try clear_value u3
    split
    · rename_i m5 m6 q7
      have h8 : Kept K z m6 := Kept.of_eq (P := fun x : ℕ × State => Kept K z x.2) q7 (State.free_kept h4)
      extract_lets +onlyGivenNames -merge -useContext u9 u10
      exact (fillOut_kept fabric (Kept.ite (P := Kept K z) h8 (putTx_kept fabric (State.emit_kept h8))))

theorem pump_kept {z a0 a1 a2} (fabric : ¬K .fabric) (ha2 : Kept K z a2) : Kept K z (pump a0 a1 a2) := by
  induction a1 generalizing a2 with
  | zero => exact ha2
  | succ n ih =>
    unfold pump
    extract_lets +onlyGivenNames t
    split
    · exact Kept.ite (P := Kept K z) (ih (State.emit_kept (unitsTx_kept fabric (putTx_kept fabric ha2)))) ha2
    · exact ha2

theorem pumpLink_kept {z a0 a1} (fabric : ¬K .fabric) (ha1 : Kept K z a1) : Kept K z (pumpLink a0 a1) := by
  unfold pumpLink
  extract_lets +onlyGivenNames -merge -useContext u0
  have h1 : Kept K z u0 := (pump_kept fabric ha1)
  try clear_value u0
  exact (Kept.ite (P := Kept K z) (fillTx_kept fabric h1) h1)

theorem cellOut_kept {z a0 a1 a2 a3} (fabric : ¬K .fabric) (ha3 : Kept K z a3) : Kept K z (cellOut a0 a1 a2 a3) := by
  unfold cellOut
  extract_lets +onlyGivenNames -merge -useContext u0
  have h1 : Kept K z u0 := (pumpLink_kept fabric ha3)
  try clear_value u0
  extract_lets +onlyGivenNames -merge -useContext u2
  exact (bump_kept (pump_kept fabric (putTx_kept fabric h1)))

theorem fillWait_kept {z a0 a1 a2} (fabric : ¬K .fabric) (time : ¬K .time) (ha2 : Kept K z a2) : Kept K z (fillWait
    a0 a1 a2) := by
  induction a1 generalizing a2 with
  | zero => exact ha2
  | succ n ih =>
    unfold fillWait
    extract_lets +onlyGivenNames u
    have hu : Kept K z u := forEach_kept ha2 fun _ _ h => pump_kept fabric h
    split
    · exact ih (waitRoot_kept time hu)
    · exact hu

theorem cellSend_kept {z a0 a1 a2 a3} (fabric : ¬K .fabric) (time : ¬K .time) (ha3 : Kept K z a3) : ∀ t0, (cellSend
    a0 a1 a2 a3) = some t0 → Kept K z t0 := by
  unfold cellSend
  exact Kept.ite (P := fun x => ∀ t0, x = some t0 → Kept K z t0) (Kept.some (Kept.same ha3 rfl (Area.each (fun _ =>
      Area.f5) (absurd · fabric) (fun _ => rfl) (fun _ => Area.f5)
      (fun _ => Area.f3) (fun _ => rfl) (fun _ => Area.f4) (fun _ => Area.f8))))
    (Kept.map (P := Kept K z) fun _ => cellOut_kept fabric (State.setH_kept (fillWait_kept fabric time ha3)))

theorem keepaliveTx_kept {z a0 a1} (fabric : ¬K .fabric) (ha1 : Kept K z a1) : Kept K z (keepaliveTx a0 a1) := by
  unfold keepaliveTx
  extract_lets +onlyGivenNames -merge -useContext u0 u1
  exact (cellOut_kept fabric (State.setH_kept ha1))

theorem reachTx_kept {z a0 a1} (fabric : ¬K .fabric) (ha1 : Kept K z a1) : Kept K z (reachTx a0 a1) := by
  unfold reachTx
  extract_lets +onlyGivenNames -merge -useContext u0 u1
  exact (cellOut_kept fabric (State.setH_kept (State.setH_kept ha1)))

theorem withReach_kept {z a0} {a1 : State → State} {a2} (fabric : ¬K .fabric) (ha1 : ∀ y0_0, (Kept K z y0_0) → Kept
    K z (a1 y0_0)) (ha2 : Kept K z a2) : Kept K z (withReach a0 a1 a2) := by
  unfold withReach
  extract_lets +onlyGivenNames -merge -useContext u0 u1
  have h2 : Kept K z u1 := (ha1 _ ha2)
  try clear_value u1
  extract_lets +onlyGivenNames -merge -useContext u3
  have h4 : Kept K z u3 := (forEach_kept h2 (fun _ _ h5 => (Kept.ite (P := Kept K z) h5 (raise_kept h5))))
  try clear_value u3
  exact (reachGained_kept fabric ha2 h4)

theorem reachClear_kept {z a0 a1} (ha1 : Kept K z a1) : Kept K z (reachClear a0 a1) :=
  (forEach_kept ha1 (fun _ _ h0 => (State.setTab_kept h0)))

theorem linkReport_kept {z a0 a1} (ha1 : Kept K z a1) : Kept K z (linkReport a0 a1) := by
  unfold linkReport
  extract_lets +onlyGivenNames -merge -useContext u0 u1
  have h2 : Kept K z u1 := (State.setRbit_kept ha1)
  try clear_value u1
  exact (State.setRfld_kept h2)

theorem txLost_kept {z a0 a1 a2} (fabric : ¬K .fabric) (ha2 : Kept K z a2) : Kept K z (txLost a0 a1 a2) :=
  (Kept.ite (P := Kept K z) (Kept.same ha2 rfl (Area.each (fun _ => Area.f5) (absurd · fabric) (fun _ => rfl) (fun _
      => Area.f5) (fun _ => Area.f3) (fun _ => rfl) (fun _ => Area.f4) (fun _ => Area.f8))) (putTx_kept fabric ha2))

theorem txBegins_kept {z a0 a1} (fabric : ¬K .fabric) (ha1 : Kept K z a1) : Kept K z (txBegins a0 a1) := by
  unfold txBegins
  split
  · rename_i m0 m1 q2
    have h3 : Kept K z m1 := Kept.of_eq (P := fun x : ℕ × State => Kept K z x.2) q2 (State.free_kept ha1)
    exact (putTx_kept fabric h3)

theorem idleTx_kept {z a0 a1} (fabric : ¬K .fabric) (ha1 : Kept K z a1) : Kept K z (idleTx a0 a1) := by
  unfold idleTx
  extract_lets +onlyGivenNames -merge -useContext u0
  have h1 : Kept K z u0 := (pumpLink_kept fabric ha1)
  try clear_value u0
  exact (Kept.ite (P := Kept K z) h1 (fillOut_kept fabric h1))

theorem flinkSet_kept {z a0 a1 a2} (fabric : ¬K .fabric) (ha2 : Kept K z a2) : Kept K z (flinkSet a0 a1 a2) := by
  unfold flinkSet
  extract_lets +onlyGivenNames -merge -useContext u0 u1 u2
  refine Kept.ite (P := Kept K z) ?_ ?_
  · exact (linkReport_kept ha2)
  · extract_lets +onlyGivenNames -merge -useContext u3
    have h4 : Kept K z u3 := (Kept.ite (P := Kept K z) ha2 (pumpLink_kept fabric ha2))
    try clear_value u3
    extract_lets +onlyGivenNames -merge -useContext u5
    have h6 : ∀ y0_0, (Kept K z y0_0) → Kept K z (u5 y0_0) := by
      unfold u5
      intro a9 h10
      extract_lets +onlyGivenNames -merge -useContext u11
      have h12 : Kept K z u11 := (State.setRbit_kept (State.setRfld_kept h10))
      try clear_value u11
      exact (Kept.ite (P := Kept K z) (reachClear_kept h12) h12)
    try clear_value u5
    extract_lets +onlyGivenNames -merge -useContext u13
    have h14 : Kept K z u13 := (withReach_kept fabric h6 h4)
    try clear_value u13
    extract_lets +onlyGivenNames -merge -useContext u15
    have h16 : Kept K z u15 := (State.setH_kept h14)
    try clear_value u15
    extract_lets +onlyGivenNames -merge -useContext u17
    have h18 : Kept K z u17 := (Kept.ite (P := Kept K z) (txLost_kept fabric h16) h16)
    try clear_value u17
    extract_lets +onlyGivenNames -merge -useContext u19
    have h20 : Kept K z u19 := (Kept.ite (P := Kept K z) (State.setRbit_kept (State.setRbit_kept (State.setH_kept
        (State.setHb_kept (State.setHb_kept h18))))) h18)
    try clear_value u19
    extract_lets +onlyGivenNames -merge -useContext u21
    have h22 : Kept K z u21 := (Kept.ite (P := Kept K z) (State.setHb_kept (State.setH_kept h20)) h20)
    try clear_value u21
    extract_lets +onlyGivenNames -merge -useContext u23
    have h24 : Kept K z u23 := (Kept.ite (P := Kept K z) (idleTx_kept fabric h22) h22)
    try clear_value u23
    extract_lets +onlyGivenNames -merge -useContext u25
    have h26 : Kept K z u25 := (linkReport_kept h24)
    try clear_value u25
    exact (Kept.ite (P := Kept K z) (raise_kept h26) (Kept.ite (P := Kept K z) (Kept.ite (P := Kept K z)
        (raiseFault_kept (bump_kept h26)) (Kept.ite (P := Kept K z) (raiseFault_kept h26) (raise_kept h26))) h26))

theorem linkEval_kept {z a0 a1} (fabric : ¬K .fabric) (ha1 : Kept K z a1) : Kept K z (linkEval a0 a1) := by
  unfold linkEval
  extract_lets +onlyGivenNames -merge -useContext u0 u1 u2
  have h3 : Kept K z u2 := (Kept.ite (P := Kept K z) (flinkSet_kept fabric ha1) (Kept.ite (P := Kept K z)
      (flinkSet_kept fabric ha1) (linkReport_kept ha1)))
  try clear_value u2
  exact (Kept.ite (P := Kept K z) (Kept.ite (P := Kept K z) (State.setH_kept h3) h3) (State.setH_kept h3))

theorem onLink_kept {z a0 a1} {a2 : State → State} {a3} (ha2 : ∀ y0_0, (Kept K z y0_0) → Kept K z (a2 y0_0)) (ha3 :
    Kept K z a3) : Kept K z (onLink a0 a1 a2 a3) :=
  (State.when_kept ha3 ha2)

theorem flinkCfg_kept {z a0 a1 a2 a3} (fabric : ¬K .fabric) (ha3 : Kept K z a3) : Kept K z (flinkCfg a0 a1 a2 a3) :=
    by
  unfold flinkCfg
  extract_lets +onlyGivenNames -merge -useContext u0 u1
  refine Kept.ite (P := Kept K z) ?_ ?_
  · exact (errReq_kept ha3)
  · extract_lets +onlyGivenNames -merge -useContext u2
    extract_lets +onlyGivenNames -merge -useContext u3 u4
    have h5 : Kept K z u4 := (State.setReg_kept ha3)
    try clear_value u4
    extract_lets +onlyGivenNames -merge -useContext u6
    have h7 : Kept K z u6 := (State.setH_kept (txBegins_kept fabric (flinkSet_kept fabric h5)))
    try clear_value u6
    extract_lets +onlyGivenNames -merge -useContext u8
    have h9 : Kept K z u8 := (Kept.ite (P := Kept K z) (keepaliveTx_kept fabric (reachTx_kept fabric h7)) (Kept.ite
        (P := Kept K z) (flinkSet_kept fabric h5) h5))
    try clear_value u8
    exact (linkEval_kept fabric (Kept.ite (P := Kept K z) (idleTx_kept fabric h9) h9))

theorem execFabricLinkEnable_kept {z a0 a1 a2 a3} (fabric : ¬K .fabric) (ha3 : Kept K z a3) : ∀ t,
    (execFabricLinkEnable a0 a1 a2 a3) = .next t → Kept K z t :=
  (done_kept (gateWrite_kept (fun _ h0 => (flinkCfg_kept fabric h0)) ha3))

theorem execLinkDrainWrite_kept {z a0 a1 a2 a3} (fabric : ¬K .fabric) (ha3 : Kept K z a3) : ∀ t, (execLinkDrainWrite
    a0 a1 a2 a3) = .next t → Kept K z t :=
  (done_kept (gateWrite_kept (fun _ h0 => (flinkCfg_kept fabric h0)) ha3))

theorem execFabricSignalDetect_kept {z a0 a1} (fabric : ¬K .fabric) (ha1 : Kept K z a1) : ∀ t,
    (execFabricSignalDetect a0 a1) = .next t → Kept K z t :=
  (done_kept (onLink_kept (fun _ h0 => (flinkSet_kept fabric h0)) ha1))

theorem execCodewordLock_kept {z a0 a1} (fabric : ¬K .fabric) (ha1 : Kept K z a1) : ∀ t, (execCodewordLock a0 a1) =
    .next t → Kept K z t :=
  (done_kept (onLink_kept (fun _ h0 => (linkEval_kept fabric (flinkSet_kept fabric h0))) ha1))

theorem execCodewordLockLoss_kept {z a0 a1} (fabric : ¬K .fabric) (ha1 : Kept K z a1) : ∀ t, (execCodewordLockLoss
    a0 a1) = .next t → Kept K z t :=
  (done_kept (onLink_kept (fun _ h0 => (flinkSet_kept fabric h0)) ha1))

theorem execFabricSignalLoss_kept {z a0 a1} (fabric : ¬K .fabric) (ha1 : Kept K z a1) : ∀ t, (execFabricSignalLoss
    a0 a1) = .next t → Kept K z t :=
  (done_kept (onLink_kept (fun _ h0 => (flinkSet_kept fabric h0)) ha1))

theorem controlWord_kept {z a0 a1 a2} (fabric : ¬K .fabric) (ha2 : Kept K z a2) : Kept K z (controlWord a0 a1 a2) :=
    by
  unfold controlWord
  extract_lets +onlyGivenNames -merge -useContext u0 u1 u2
  have h3 : Kept K z u2 := (Kept.ite (P := Kept K z) (State.setHb_kept ha2) (Kept.ite (P := Kept K z)
      (State.setHb_kept ha2) ha2))
  try clear_value u2
  extract_lets +onlyGivenNames -merge -useContext u4
  have h5 : Kept K z u4 := (State.setRbit_kept (State.setRbit_kept h3))
  try clear_value u4
  extract_lets +onlyGivenNames -merge -useContext u6 u7
  have h8 : Kept K z u7 := (State.setH_kept h5)
  try clear_value u7
  exact (linkEval_kept fabric (Kept.ite (P := Kept K z) (flinkSet_kept fabric h8) h8))

theorem execControlWordRx_kept {z a0 a1 a2} (fabric : ¬K .fabric) (ha2 : Kept K z a2) : ∀ t, (execControlWordRx a0
    a1 a2) = .next t → Kept K z t :=
  (done_kept (onLink_kept (fun _ h0 => (controlWord_kept fabric h0)) ha2))

theorem execFabricUpHoldExpire_kept {z a0 a1} (fabric : ¬K .fabric) (time : ¬K .time) (ha1 : Kept K z a1) : ∀ t,
    (execFabricUpHoldExpire a0 a1) = .next t → Kept K z t :=
  (done_kept (State.when_kept ha1 (fun _ h0 => (flinkSet_kept fabric (waitRoot_kept time h0)))))

theorem degWindow_kept {z a0 a1 a2 a3 a4} (fabric : ¬K .fabric) (ha4 : Kept K z a4) : Kept K z (degWindow a0 a1 a2
    a3 a4) := by
  unfold degWindow
  extract_lets +onlyGivenNames -merge -useContext u0 u1 u2
  have h3 : Kept K z u2 := (bumpBy_kept (bumpBy_kept (bumpBy_kept ha4)))
  try clear_value u2
  extract_lets +onlyGivenNames -merge -useContext u4 u5
  have h6 : Kept K z u5 := (State.setH_kept h3)
  try clear_value u5
  extract_lets +onlyGivenNames -merge -useContext u7
  have h8 : Kept K z u7 := (Kept.ite (P := Kept K z) (State.setHb_kept h6) (Kept.ite (P := Kept K z)
      (State.setHb_kept h6) h6))
  try clear_value u7
  exact (linkEval_kept fabric h8)

theorem execLinkDegWindow_kept {z a0 a1 a2 a3 a4} (fabric : ¬K .fabric) (time : ¬K .time) (ha4 : Kept K z a4) : ∀ t,
    (execLinkDegWindow a0 a1 a2 a3 a4) = .next t → Kept K z t :=
  (done_kept (onLink_kept (fun _ h0 => (degWindow_kept fabric (nextInterval_kept time h0))) ha4))

theorem kaLoss_kept {z a0 a1} (fabric : ¬K .fabric) (time : ¬K .time) (ha1 : Kept K z a1) : Kept K z (kaLoss a0 a1)
    := by
  unfold kaLoss
  extract_lets +onlyGivenNames -merge -useContext u0
  have h1 : Kept K z u0 := (waitRoot_kept time ha1)
  try clear_value u0
  exact (Kept.ite (P := Kept K z) h1 (linkEval_kept fabric (raise_kept (State.setHb_kept h1))))

theorem execKaLoss_kept {z a0 a1} (fabric : ¬K .fabric) (time : ¬K .time) (ha1 : Kept K z a1) : ∀ t, (execKaLoss a0
    a1) = .next t → Kept K z t :=
  (done_kept (onLink_kept (fun _ h0 => (kaLoss_kept fabric time h0)) ha1))

theorem execKeepaliveTx_kept {z a0 a1} (fabric : ¬K .fabric) (time : ¬K .time) (ha1 : Kept K z a1) : ∀ t,
    (execKeepaliveTx a0 a1) = .next t → Kept K z t :=
  (done_kept (onLink_kept (fun _ h0 => (keepaliveTx_kept fabric (waitRoot_kept time h0))) ha1))

theorem execReachCellTx_kept {z a0 a1} (fabric : ¬K .fabric) (time : ¬K .time) (ha1 : Kept K z a1) : ∀ t,
    (execReachCellTx a0 a1) = .next t → Kept K z t :=
  (done_kept (onLink_kept (fun _ h0 => (reachTx_kept fabric (waitRoot_kept time h0))) ha1))

theorem ivlWrite_kept {z a0 a1 a2 a3} (fabric : ¬K .fabric) (ha3 : Kept K z a3) : Kept K z (ivlWrite a0 a1 a2 a3) :=
    by
  unfold ivlWrite
  extract_lets +onlyGivenNames -merge -useContext u0 u1
  refine Kept.ite (P := Kept K z) ?_ ?_
  · exact (errReq_kept ha3)
  · extract_lets +onlyGivenNames -merge -useContext u2
    have h3 : Kept K z u2 := (State.setReg_kept ha3)
    try clear_value u2
    exact (forEach_kept h3 (fun _ _ h4 => (Kept.ite (P := Kept K z) (Kept.ite (P := Kept K z) (reachTx_kept fabric
        h4) h4) (Kept.ite (P := Kept K z) (keepaliveTx_kept fabric h4) h4))))

theorem execKaIvlWrite_kept {z a0 a1 a2 a3} (fabric : ¬K .fabric) (ha3 : Kept K z a3) : ∀ t, (execKaIvlWrite a0 a1
    a2 a3) = .next t → Kept K z t :=
  (done_kept (gateWrite_kept (fun _ h0 => (ivlWrite_kept fabric h0)) ha3))

theorem keepaliveIn_kept {z a0 a1 a2} (fabric : ¬K .fabric) (ha2 : Kept K z a2) : Kept K z (keepaliveIn a0 a1 a2) :=
    by
  unfold keepaliveIn
  extract_lets +onlyGivenNames -merge -useContext u0
  refine Kept.ite (P := Kept K z) ?_ ?_
  · exact ha2
  · extract_lets +onlyGivenNames -merge -useContext u1
    extract_lets +onlyGivenNames -merge -useContext u2 u3
    have h4 : Kept K z u3 := (State.setReg_kept ha2)
    try clear_value u3
    exact (linkEval_kept fabric (State.setH_kept (State.setHb_kept (State.setHb_kept h4))))

theorem reachIn_kept {z a0 a1 a2} (fabric : ¬K .fabric) (ha2 : Kept K z a2) : Kept K z (reachIn a0 a1 a2) := by
  unfold reachIn
  extract_lets +onlyGivenNames -merge -useContext u0 u1
  refine Kept.ite (P := Kept K z) ?_ ?_
  · exact ha2
  · extract_lets +onlyGivenNames -merge -useContext u2
    extract_lets +onlyGivenNames -merge -useContext u3
    have h4 : ∀ y0_0, (Kept K z y0_0) → Kept K z (u3 y0_0) := (fun _ h5 => (State.setTab_kept (State.setTab_kept h5)))
    try clear_value u3
    exact (State.setH_kept (withReach_kept fabric h4 ha2))

theorem segTimeout_kept {z a0 a1 a2} (fabric : ¬K .fabric) (time : ¬K .time) (ha2 : Kept K z a2) : Kept K z
    (segTimeout a0 a1 a2) := by
  unfold segTimeout
  extract_lets +onlyGivenNames -merge -useContext u0
  have h1 : Kept K z u0 := (waitSince_kept time ha2)
  try clear_value u0
  extract_lets +onlyGivenNames -merge -useContext u2
  have h3 : ∀ y0_0, (Kept K z y0_0) → Kept K z (u2 y0_0) := (fun _ h4 => (State.setTab_kept (State.setTab_kept h4)))
  try clear_value u2
  exact (withReach_kept fabric h3 h1)

theorem execReachSegmentTimeout_kept {z a0 a1 a2} (fabric : ¬K .fabric) (time : ¬K .time) (ha2 : Kept K z a2) : ∀ t,
    (execReachSegmentTimeout a0 a1 a2) = .next t → Kept K z t :=
  (done_kept (State.when_kept ha2 (fun _ h0 => (segTimeout_kept fabric time h0))))

theorem dataTx_kept {z a0 a1} (frames : ¬K .frames) (fabric : ¬K .fabric) (time : ¬K .time) (ha1 : Kept K z a1) :
    Kept K z (dataTx a0 a1) := by
  unfold dataTx
  split
  · exact ha1
  · refine Kept.ite (P := Kept K z) ?_ ?_
    · exact ha1
    · refine Kept.ite (P := Kept K z) ?_ ?_
      · split
        · exact (bump_kept (State.drop_kept frames ha1))
        · exact (State.drop_kept frames ha1)
      · refine Kept.ite (P := Kept K z) ?_ ?_
        · exact ha1
        · split
          · exact ha1
          · extract_lets +onlyGivenNames -merge -useContext u8
            extract_lets +onlyGivenNames -merge -useContext u9 u10 u11
            split
            · exact ha1
            · rename_i m13 q14
              have h15 : Kept K z m13 := Kept.of_eq (P := fun x : Option State => ∀ t0, x = some t0 → Kept K z t0)
                  q14 (cellSend_kept fabric time ha1) _ rfl
              extract_lets +onlyGivenNames -merge -useContext u16
              have h17 : Kept K z u16 := (bump_kept (State.setH_kept h15))
              try clear_value u16
              exact (Kept.ite (P := Kept K z) (State.putFrame_kept frames h17) (State.drop_kept frames h17))

theorem execDataCellTx_kept {z a0 a1 a2} (frames : ¬K .frames) (fabric : ¬K .fabric) (time : ¬K .time) (ha2 : Kept K
    z a2) : ∀ t, (execDataCellTx a0 a1 a2) = .next t → Kept K z t :=
  (done_kept (State.ifLive_kept ha2 (fun _ h0 => (dataTx_kept frames fabric time h0))))

theorem execSeqQuietEnd_kept {z a0} (time : ¬K .time) (ha0 : Kept K z a0) : ∀ t, (execSeqQuietEnd a0) = .next t →
    Kept K z t :=
  (done_kept (State.ifLive_kept ha0 (fun _ h0 => (waitRoot_kept time h0))))

theorem seqQuiet_kept {z a0 a1 a2} (ha2 : Kept K z a2) : Kept K z (seqQuiet a0 a1 a2) :=
  (Kept.ite (P := Kept K z) (errReq_kept ha2) (State.setReg_kept ha2))

theorem execSeqQuietWrite_kept {z a0 a1 a2} (ha2 : Kept K z a2) : ∀ t, (execSeqQuietWrite a0 a1 a2) = .next t → Kept
    K z t :=
  (done_kept (gateWrite_kept (fun _ h0 => (seqQuiet_kept h0)) ha2))

theorem setHeld_kept {z a0 a1} (fabric : ¬K .fabric) (ha1 : Kept K z a1) : Kept K z (setHeld a0 a1) :=
  (State.setReg_kept (Kept.same ha1 rfl (Area.each (fun _ => Area.f5) (absurd · fabric) (fun _ => rfl) (fun _ =>
      Area.f5) (fun _ => Area.f3) (fun _ => rfl) (fun _ => Area.f4) (fun _ => Area.f8))))

theorem cellLost_kept {z a0 a1} (ha1 : Kept K z a1) : Kept K z (cellLost a0 a1) :=
  (Kept.ite (P := Kept K z) (infDec_kept ha1) ha1)

theorem cellAccept_kept {z a0 a1} (ha1 : Kept K z a1) : Kept K z (cellAccept a0 a1) :=
  (Kept.ite (P := Kept K z) (infInc_kept ha1) ha1)

theorem rxAbandon_kept {z a0 a1} (frames : ¬K .frames) (fabric : ¬K .fabric) (ha1 : Kept K z a1) : Kept K z
    (rxAbandon a0 a1) := by
  unfold rxAbandon
  extract_lets +onlyGivenNames -merge -useContext u0
  have h1 : Kept K z u0 := (State.setHb_kept ha1)
  try clear_value u0
  split
  · exact h1
  · split
    · exact (Kept.ite (P := Kept K z) (State.putFrame_kept frames h1) (State.putFrame_kept frames h1))
    · exact (Kept.ite (P := Kept K z) (State.putFrame_kept frames h1) (State.putFrame_kept frames h1))
    · exact (Kept.ite (P := Kept K z) (State.putFrame_kept frames h1) (State.putFrame_kept frames h1))
    · exact (Kept.ite (P := Kept K z) (State.putFrame_kept frames h1) (State.putFrame_kept frames h1))
    · exact (queueLeft_kept frames fabric (Kept.ite (P := Kept K z) (endQueued_kept frames h1) (State.drop_kept
        frames h1)))
    · exact (State.drop_kept frames h1)

theorem rxBroken_kept {z a0 a1} (frames : ¬K .frames) (ha1 : Kept K z a1) : Kept K z (rxBroken a0 a1) := by
  unfold rxBroken
  extract_lets +onlyGivenNames -merge -useContext u0
  have h1 : Kept K z u0 := (bump_kept (State.setHb_kept ha1))
  try clear_value u0
  split
  · exact h1
  · extract_lets +onlyGivenNames -merge -useContext u4
    exact (Kept.ite (P := Kept K z) (State.moveFrame_kept frames (State.putFrame_kept frames h1))
        (State.putFrame_kept frames h1))

theorem cellJoin_kept {z a0 a1 a2 a3} (frames : ¬K .frames) (fabric : ¬K .fabric) (ha3 : Kept K z a3) : Kept K z
    (cellJoin a0 a1 a2 a3) := by
  unfold cellJoin
  extract_lets +onlyGivenNames -merge -useContext u0
  split
  · extract_lets +onlyGivenNames -merge -useContext u3
    extract_lets +onlyGivenNames -merge -useContext u4 u5
    refine Kept.ite (P := Kept K z) ?_ ?_
    · exact (grown_kept frames fabric (State.putFrame_kept frames ha3))
    · extract_lets +onlyGivenNames -merge -useContext u6
      extract_lets +onlyGivenNames -merge -useContext u7
      have h8 : Kept K z u7 := (State.setHb_kept ha3)
      try clear_value u7
      extract_lets +onlyGivenNames -merge -useContext u9
      have h10 : Kept K z u9 := (Kept.ite (P := Kept K z) h8 (bump_kept h8))
      try clear_value u9
      extract_lets +onlyGivenNames -merge -useContext u11
      have h12 : Kept K z u11 := (Kept.ite (P := Kept K z) h10 (raiseFirst_kept (bump_kept h10)))
      try clear_value u11
      extract_lets +onlyGivenNames -merge -useContext u13 u14
      have h15 : Kept K z u14 := (State.putFrame_kept frames h12)
      try clear_value u14
      exact (Kept.ite (P := Kept K z) (State.moveFrame_kept frames h15) (grown_kept frames fabric h15))

theorem frameStart_kept {z a0 a1 a2} (frames : ¬K .frames) (fabric : ¬K .fabric) (ha2 : Kept K z a2) : Kept K z
    (frameStart a0 a1 a2) := by
  unfold frameStart
  extract_lets +onlyGivenNames -merge -useContext u0 u1 u2 u3 u4
  have h5 : ∀ y0_0, (Kept K z y0_0) → Kept K z (u4 y0_0) := (fun _ h6 => (Kept.ite (P := Kept K z) h6
      (State.setH_kept h6)))
  try clear_value u4
  refine Kept.ite (P := Kept K z) ?_ ?_
  · exact (h5 _ (raiseFirst_kept (bump_kept (cellLost_kept ha2))))
  · split
    · extract_lets +onlyGivenNames -merge -useContext u8
      extract_lets +onlyGivenNames -merge -useContext u9
      have h10 : Kept K z u9 := (State.setHb_kept (State.newFrame_kept frames ha2))
      try clear_value u9
      split
      · exact h10
      · extract_lets +onlyGivenNames -merge -useContext u13
        have h14 : Kept K z u13 := (cellJoin_kept frames fabric h10)
        try clear_value u13
        split
        · exact (Kept.ite (P := Kept K z) (State.moveFrame_kept frames h14) h14)
        · exact h14
    · extract_lets +onlyGivenNames -merge -useContext u18
      have h19 : Kept K z u18 := (raiseFirst_kept (bump_kept ha2))
      try clear_value u18
      exact (h5 _ (cellLost_kept (fsCount_kept h19)))

theorem cellRelease_kept {z a0 a1 a2} (frames : ¬K .frames) (fabric : ¬K .fabric) (ha2 : Kept K z a2) : Kept K z
    (cellRelease a0 a1 a2) := by
  unfold cellRelease
  extract_lets +onlyGivenNames -merge -useContext u0
  refine Kept.ite (P := Kept K z) ?_ ?_
  · extract_lets +onlyGivenNames -merge -useContext u1
    have h2 : Kept K z u1 := (State.setH_kept ha2)
    try clear_value u1
    exact (frameStart_kept frames fabric (Kept.ite (P := Kept K z) (rxBroken_kept frames h2) h2))
  · refine Kept.ite (P := Kept K z) ?_ ?_
    · exact (State.setH_kept (bump_kept ha2))
    · refine Kept.ite (P := Kept K z) ?_ ?_
      · exact ha2
      · refine Kept.ite (P := Kept K z) ?_ ?_
        · split
          · exact (cellJoin_kept frames fabric ha2)
          · exact (Kept.ite (P := Kept K z) (State.setHb_kept ha2) ha2)
        · exact (bump_kept ha2)

theorem releaseRun_kept {z a0 a1 a2} (frames : ¬K .frames) (fabric : ¬K .fabric) (ha2 : Kept K z a2) : Kept K z
    (releaseRun a0 a1 a2) := by
  induction a1 generalizing a2 with
  | zero => exact ha2
  | succ n ih =>
    unfold releaseRun
    split
    · exact ha2
    · exact ih (State.setH_kept (cellRelease_kept frames fabric (setHeld_kept fabric ha2)))

theorem cellHold_kept {z a0 a1 a2} (fabric : ¬K .fabric) (ha2 : Kept K z a2) : Kept K z (cellHold a0 a1 a2) := by
  unfold cellHold
  extract_lets +onlyGivenNames -merge -useContext u0
  have h1 : ∀ y0_0, (Kept K z y0_0) → Kept K z (u0 y0_0) := (fun _ h2 => (Kept.ite (P := Kept K z) (cellLost_kept
      h2) h2))
  try clear_value u0
  exact (Kept.ite (P := Kept K z) (bump_kept (h1 _ ha2)) (Kept.ite (P := Kept K z) (raise_kept (bump_kept (h1 _
      ha2))) (setHeld_kept fabric (cellAccept_kept ha2))))

theorem rxAbandonAll_kept {z a0} (frames : ¬K .frames) (fabric : ¬K .fabric) (ha0 : Kept K z a0) : Kept K z
    (rxAbandonAll a0) :=
  (forEach_kept ha0 (fun _ _ h0 => (rxAbandon_kept frames fabric h0)))

theorem cellsDrop_kept {z a0} (frames : ¬K .frames) (fabric : ¬K .fabric) (ha0 : Kept K z a0) : Kept K z (cellsDrop
    a0) := by
  unfold cellsDrop
  extract_lets +onlyGivenNames -merge -useContext u0
  have h1 : Kept K z u0 := (rxAbandonAll_kept frames fabric ha0)
  try clear_value u0
  exact (forEach_kept (setHeld_kept fabric (Kept.same h1 rfl (Area.each (fun _ => Area.f5) (absurd · fabric) (fun _
      => rfl) (fun _ => Area.f5) (fun _ => Area.f3) (fun _ => rfl) (fun _ => Area.f4) (fun _ => Area.f8)))) (fun _ _
      h2 => (cellLost_kept h2)))

theorem heldDrop_kept {z a0 a1} (fabric : ¬K .fabric) (ha1 : Kept K z a1) : Kept K z (heldDrop a0 a1) := by
  unfold heldDrop
  extract_lets +onlyGivenNames -merge -useContext u0
  exact (forEach_kept (setHeld_kept fabric ha1) (fun _ _ h1 => (cellLost_kept h1)))

theorem reseqIn_kept {z a0 a1} (frames : ¬K .frames) (fabric : ¬K .fabric) (ha1 : Kept K z a1) : Kept K z (reseqIn
    a0 a1) := by
  unfold reseqIn
  extract_lets +onlyGivenNames -merge -useContext u0 u1
  have h2 : Kept K z u1 := (State.setH_kept ha1)
  try clear_value u1
  refine Kept.ite (P := Kept K z) ?_ ?_
  · exact (cellHold_kept fabric h2)
  · extract_lets +onlyGivenNames -merge -useContext u3
    extract_lets +onlyGivenNames -merge -useContext u4 u5
    refine Kept.ite (P := Kept K z) ?_ ?_
    · extract_lets +onlyGivenNames -merge -useContext u6
      have h7 : Kept K z u6 := (cellRelease_kept frames fabric (cellAccept_kept h2))
      try clear_value u6
      extract_lets +onlyGivenNames -merge -useContext u8
      have h9 : Kept K z u8 := (State.setH_kept h7)
      try clear_value u8
      exact (releaseRun_kept frames fabric h9)
    · refine Kept.ite (P := Kept K z) ?_ ?_
      · exact (cellHold_kept fabric h2)
      · refine Kept.ite (P := Kept K z) ?_ ?_
        · exact (bump_kept (Kept.ite (P := Kept K z) (cellLost_kept h2) h2))
        · extract_lets +onlyGivenNames -merge -useContext u10
          have h11 : Kept K z u10 := (rxAbandon_kept frames fabric (heldDrop_kept fabric h2))
          try clear_value u10
          extract_lets +onlyGivenNames -merge -useContext u12
          have h13 : Kept K z u12 := (raise_kept (bump_kept (State.setHb_kept h11)))
          try clear_value u12
          exact (cellHold_kept fabric h13)

theorem creditIn_kept {z a0 a1} (fabric : ¬K .fabric) (ha1 : Kept K z a1) : Kept K z (creditIn a0 a1) := by
  unfold creditIn
  extract_lets +onlyGivenNames -merge -useContext u0
  have h1 : Kept K z u0 := (bump_kept ha1)
  try clear_value u0
  extract_lets +onlyGivenNames -merge -useContext u2
  refine forEach_kept ?_ ?_
  · exact h1
  · intro a5 a6 h7
    extract_lets +onlyGivenNames -merge -useContext u8 u9
    split
    · exact h7
    · exact (bump_kept h7)
    · exact (Kept.ite (P := Kept K z) (Kept.ite (P := Kept K z) (errDisabled_kept h7) h7) (Kept.ite (P := Kept K z)
        (statusIn_kept fabric (bump_kept h7)) (grantIn_kept fabric (bump_kept h7))))

theorem fabIn_kept {z a0 a1} (frames : ¬K .frames) (fabric : ¬K .fabric) (ha1 : Kept K z a1) : Kept K z (fabIn a0
    a1) := by
  unfold fabIn
  extract_lets +onlyGivenNames -merge -useContext u0 u1
  have h2 : ∀ y0_0, (Kept K z y0_0) → Kept K z (u1 y0_0) := (fun _ h3 => (Kept.ite (P := Kept K z) (cellLost_kept
      h3) h3))
  try clear_value u1
  exact (Kept.ite (P := Kept K z) (Kept.ite (P := Kept K z) (errDisabled_kept (h2 _ ha1)) (h2 _ ha1)) (Kept.ite (P
      := Kept K z) (bump_kept (h2 _ ha1)) (Kept.ite (P := Kept K z) (raise_kept (bump_kept ha1)) (Kept.ite (P :=
      Kept K z) (creditIn_kept fabric ha1) (Kept.ite (P := Kept K z) (errInt_kept (h2 _ ha1)) (reseqIn_kept frames
      fabric (bump_kept ha1)))))))

theorem linkIn_kept {z a0 a1 a2 a3} (frames : ¬K .frames) (fabric : ¬K .fabric) (ha3 : Kept K z a3) : Kept K z
    (linkIn a0 a1 a2 a3) := by
  unfold linkIn
  extract_lets +onlyGivenNames -merge -useContext u0 u1 u2
  refine Kept.ite (P := Kept K z) ?_ ?_
  · exact ha3
  · refine Kept.ite (P := Kept K z) ?_ ?_
    · exact (bump_kept ha3)
    · refine Kept.ite (P := Kept K z) ?_ ?_
      · exact (State.setHb_kept (bump_kept ha3))
      · refine Kept.ite (P := Kept K z) ?_ ?_
        · exact ha3
        · extract_lets +onlyGivenNames -merge -useContext u3
          have h4 : Kept K z u3 := (bump_kept ha3)
          try clear_value u3
          exact (Kept.ite (P := Kept K z) (reachIn_kept fabric h4) (Kept.ite (P := Kept K z) (keepaliveIn_kept
              fabric h4) (Kept.ite (P := Kept K z) (Kept.ite (P := Kept K z) (bump_kept h4) h4) (fabIn_kept frames
              fabric h4))))

theorem localIn_kept {z a0 a1} (frames : ¬K .frames) (fabric : ¬K .fabric) (ha1 : Kept K z a1) : Kept K z (localIn
    a0 a1) := by
  unfold localIn
  split
  · exact ha1
  · exact (forEach_kept (Kept.same ha1 rfl (Area.each (fun _ => Area.f5) (absurd · fabric) (fun _ => rfl) (fun _ =>
      Area.f5) (fun _ => Area.f3) (fun _ => rfl) (fun _ => Area.f4) (fun _ => Area.f8))) (fun _ _ h3 => (fabIn_kept
      frames fabric h3)))

theorem onCell_kept {z a0 a1 a2 a3} (frames : ¬K .frames) (fabric : ¬K .fabric) (ha3 : Kept K z a3) : Kept K z
    (onCell a0 a1 a2 a3) :=
  (onLink_kept (fun _ h0 => (linkIn_kept frames fabric h0)) ha3)

theorem execDataCellRx_kept {z a0 a1 a2 a3} (frames : ¬K .frames) (fabric : ¬K .fabric) (ha3 : Kept K z a3) : ∀ t,
    (execDataCellRx a0 a1 a2 a3) = .next t → Kept K z t := by
  unfold execDataCellRx
  refine done_kept ?_
  split
  · exact (onCell_kept frames fabric ha3)
  · exact (localIn_kept frames fabric ha3)

theorem execCreditCellRx_kept {z a0 a1 a2 a3} (frames : ¬K .frames) (fabric : ¬K .fabric) (ha3 : Kept K z a3) : ∀ t,
    (execCreditCellRx a0 a1 a2 a3) = .next t → Kept K z t := by
  unfold execCreditCellRx
  refine done_kept ?_
  split
  · exact (onCell_kept frames fabric ha3)
  · exact (localIn_kept frames fabric ha3)

theorem execKeepaliveRx_kept {z a0 a1 a2 a3} (frames : ¬K .frames) (fabric : ¬K .fabric) (ha3 : Kept K z a3) : ∀ t,
    (execKeepaliveRx a0 a1 a2 a3) = .next t → Kept K z t :=
  (done_kept (onCell_kept frames fabric ha3))

theorem execReachCellRx_kept {z a0 a1 a2 a3} (frames : ¬K .frames) (fabric : ¬K .fabric) (ha3 : Kept K z a3) : ∀ t,
    (execReachCellRx a0 a1 a2 a3) = .next t → Kept K z t :=
  (done_kept (onCell_kept frames fabric ha3))

theorem syncHold_kept {z a0 a1} (frames : ¬K .frames) (fabric : ¬K .fabric) (time : ¬K .time) (ha1 : Kept K z a1) :
    Kept K z (syncHold a0 a1) := by
  unfold syncHold
  split
  · exact ha1
  · refine Kept.ite (P := Kept K z) ?_ ?_
    · exact ha1
    · extract_lets +onlyGivenNames -merge -useContext u3
      have h4 : Kept K z u3 := (waitRoot_kept time ha1)
      try clear_value u3
      split
      · exact h4
      · extract_lets +onlyGivenNames -merge -useContext u7
        have h8 : Kept K z u7 := (State.setH_kept (State.setH_kept (State.setHb_kept h4)))
        try clear_value u7
        exact (releaseRun_kept frames fabric h8)

theorem execSyncHoldExpire_kept {z a0 a1} (frames : ¬K .frames) (fabric : ¬K .fabric) (time : ¬K .time) (ha1 : Kept
    K z a1) : ∀ t, (execSyncHoldExpire a0 a1) = .next t → Kept K z t :=
  (done_kept (State.ifLive_kept ha1 (fun _ h0 => (syncHold_kept frames fabric time h0))))

theorem execCtxIdleExpire_kept {z a0 a1} (time : ¬K .time) (ha1 : Kept K z a1) : ∀ t, (execCtxIdleExpire a0 a1) =
    .next t → Kept K z t :=
  (done_kept (State.when_kept ha1 (fun _ h0 => (State.setHb_kept (waitRoot_kept time h0)))))

theorem reseqTimeout_kept {z a0 a1} (frames : ¬K .frames) (fabric : ¬K .fabric) (time : ¬K .time) (ha1 : Kept K z
    a1) : Kept K z (reseqTimeout a0 a1) := by
  unfold reseqTimeout
  split
  · exact ha1
  · refine Kept.ite (P := Kept K z) ?_ ?_
    · exact ha1
    · extract_lets +onlyGivenNames -merge -useContext u3
      have h4 : Kept K z u3 := (waitRoot_kept time ha1)
      try clear_value u3
      extract_lets +onlyGivenNames -merge -useContext u5 u6 u7
      have h8 : Kept K z u7 := (raiseFirst_kept (bump_kept h4))
      try clear_value u7
      extract_lets +onlyGivenNames -merge -useContext u9 u10
      have h11 : Kept K z u10 := (Kept.ite (P := Kept K z) (bump_kept (rxAbandon_kept frames fabric h8)) h8)
      try clear_value u10
      extract_lets +onlyGivenNames -merge -useContext u12
      have h13 : Kept K z u12 := (State.setH_kept h11)
      try clear_value u12
      extract_lets +onlyGivenNames -merge -useContext u14
      have h15 : Kept K z u14 := (State.setH_kept h13)
      try clear_value u14
      exact (releaseRun_kept frames fabric h15)

theorem execReseqTimeout_kept {z a0 a1} (frames : ¬K .frames) (fabric : ¬K .fabric) (time : ¬K .time) (ha1 : Kept K
    z a1) : ∀ t, (execReseqTimeout a0 a1) = .next t → Kept K z t :=
  (done_kept (State.ifLive_kept ha1 (fun _ h0 => (reseqTimeout_kept frames fabric time h0))))

theorem creditTx_kept {z a0 a1} (fabric : ¬K .fabric) (time : ¬K .time) (ha1 : Kept K z a1) : Kept K z (creditTx a0
    a1) := by
  unfold creditTx
  extract_lets +onlyGivenNames -merge -useContext u0
  clear_value u0
  split
  · exact ha1
  · extract_lets +onlyGivenNames -merge -useContext u4
    have h5 : Kept K z u4 := (Kept.ite (P := Kept K z) (waitRoot_kept time ha1) ha1)
    try clear_value u4
    extract_lets +onlyGivenNames -merge -useContext u6 u7 u8 u9 u10
    refine Kept.ite (P := Kept K z) ?_ ?_
    · extract_lets +onlyGivenNames -merge -useContext u11
      have h12 : Kept K z u11 := (Kept.same h5 rfl (Area.each (fun _ => Area.f5) (absurd · fabric) (fun _ => rfl)
          (fun _ => Area.f5) (fun _ => Area.f3) (fun _ => rfl) (fun _ => Area.f4) (fun _ => Area.f8)))
      try clear_value u11
      exact (Kept.ite (P := Kept K z) (errDisabled_kept h12) h12)
    · refine Kept.ite (P := Kept K z) ?_ ?_
      · exact (bump_kept (Kept.same h5 rfl (Area.each (fun _ => Area.f5) (absurd · fabric) (fun _ => rfl) (fun _ =>
          Area.f5) (fun _ => Area.f3) (fun _ => rfl) (fun _ => Area.f4) (fun _ => Area.f8))))
      · split
        · exact h5
        · rename_i m14 q15
          have h16 : Kept K z m14 := Kept.of_eq (P := fun x : Option State => ∀ t0, x = some t0 → Kept K z t0) q15
              (cellSend_kept fabric time h5) _ rfl
          exact (bump_kept (Kept.same h16 rfl (Area.each (fun _ => Area.f5) (absurd · fabric) (fun _ => rfl) (fun _
              => Area.f5) (fun _ => Area.f3) (fun _ => rfl) (fun _ => Area.f4) (fun _ => Area.f8))))

theorem execCreditCellTx_kept {z a0 a1} (fabric : ¬K .fabric) (time : ¬K .time) (ha1 : Kept K z a1) : ∀ t,
    (execCreditCellTx a0 a1) = .next t → Kept K z t :=
  (done_kept (State.ifLive_kept ha1 (fun _ h0 => (creditTx_kept fabric time h0))))

theorem fabTable_kept {z a0 a1 a2} (ha2 : Kept K z a2) : Kept K z (fabTable a0 a1 a2).1 := by
  unfold fabTable
  split
  · refine Kept.ite (P := fun x : State × ℕ × Option ℕ => Kept K z x.1) ?_ ?_
    · exact (Win.ok_kept ha2)
    · exact (Win.fail_kept ha2)
  · refine Kept.ite (P := fun x : State × ℕ × Option ℕ => Kept K z x.1) ?_ ?_
    · exact (Win.ok_kept ha2)
    · exact (Win.fail_kept ha2)
  · exact (Win.read_kept ha2)
  · exact (Win.fail_kept ha2)

theorem fabReg_kept {z a0 a1 a2 a3} (fabric : ¬K .fabric) (ha3 : Kept K z a3) : ∀ t0, (fabReg a0 a1 a2 a3) = some t0
    → Kept K z t0 := by
  unfold fabReg
  extract_lets +onlyGivenNames -merge -useContext u0
  have h1 : ∀ y0_0 y0_1 y0_2, ∀ t1, (u0 y0_0 y0_1 y0_2) = some t1 → Kept K z t1 := by
    unfold u0
    intro a2 a3 a4
    extract_lets +onlyGivenNames -merge -useContext u5
    exact (Kept.some (Kept.ite (P := Kept K z) (errReq_kept ha3) (State.setReg_kept ha3)))
  try clear_value u0
  refine Kept.ite (P := fun x : Option State => ∀ t0, x = some t0 → Kept K z t0) ?_ ?_
  · exact (h1 _ _ _)
  · refine Kept.ite (P := fun x : Option State => ∀ t0, x = some t0 → Kept K z t0) ?_ ?_
    · exact (h1 _ _ _)
    · refine Kept.ite (P := fun x : Option State => ∀ t0, x = some t0 → Kept K z t0) ?_ ?_
      · exact (h1 _ _ _)
      · refine Kept.ite (P := fun x : Option State => ∀ t0, x = some t0 → Kept K z t0) ?_ ?_
        · exact (Kept.some (seqQuiet_kept ha3))
        · refine Kept.ite (P := fun x : Option State => ∀ t0, x = some t0 → Kept K z t0) ?_ ?_
          · exact (h1 _ _ _)
          · refine Kept.ite (P := fun x : Option State => ∀ t0, x = some t0 → Kept K z t0) ?_ ?_
            · exact (h1 _ _ _)
            · refine Kept.ite (P := fun x : Option State => ∀ t0, x = some t0 → Kept K z t0) ?_ ?_
              · exact (Kept.some (ivlWrite_kept fabric ha3))
              · refine Kept.ite (P := fun x : Option State => ∀ t0, x = some t0 → Kept K z t0) ?_ ?_
                · exact (Kept.some (ivlWrite_kept fabric ha3))
                · exact Kept.none

theorem fgReg_kept {z a0 a1 a2 a3 a4} (fabric : ¬K .fabric) (ha4 : Kept K z a4) : ∀ t0, (fgReg a0 a1 a2 a3 a4) =
    some t0 → Kept K z t0 := by
  unfold fgReg
  extract_lets +onlyGivenNames -merge -useContext u0 u1 u2
  refine Kept.ite (P := fun x : Option State => ∀ t0, x = some t0 → Kept K z t0) ?_ ?_
  · exact Kept.none
  · refine Kept.ite (P := fun x : Option State => ∀ t0, x = some t0 → Kept K z t0) ?_ ?_
    · exact (Kept.some (Kept.ite (P := Kept K z) (errReq_kept ha4) (State.setReg_kept ha4)))
    · refine Kept.ite (P := fun x : Option State => ∀ t0, x = some t0 → Kept K z t0) ?_ ?_
      · exact (Kept.some (flinkCfg_kept fabric ha4))
      · refine Kept.ite (P := fun x : Option State => ∀ t0, x = some t0 → Kept K z t0) ?_ ?_
        · exact (Kept.some (Kept.ite (P := Kept K z) (errReq_kept ha4) (storeReg_kept ha4)))
        · exact Kept.none

end Sys2Proof.Machine
end

