-- ==== Sys2Proof/Laws/KeptDeep.lean ====
section
/-!
SUPPORT. Every operation and meaning of Machine/Deep.lean keeps the state sane, its queue as it is and its outputs made.
-/
namespace Sys2Proof.Machine

variable {K : Area → Prop}

theorem popCfg_kept {z a0 a1 a2} (ha2 : Kept K z a2) : Kept K z (popCfg a0 a1 a2) := by
  unfold popCfg
  extract_lets +onlyGivenNames -merge -useContext u0 u1
  exact (Kept.ite (P := Kept K z) (errReq_kept ha2) (Kept.ite (P := Kept K z) (errReq_kept ha2) (coverUpdate_kept
      (State.setReg_kept ha2))))

theorem execPopCfgWrite_kept {z a0 a1 a2} (ha2 : Kept K z a2) : ∀ t, (execPopCfgWrite a0 a1 a2) = .next t → Kept K z
    t :=
  (done_kept (gateWrite_kept (fun _ h0 => (popCfg_kept h0)) ha2))

theorem bmapWrite_kept {z a0 a1 a2 a3 a4} (ha4 : Kept K z a4) : Kept K z (bmapWrite a0 a1 a2 a3 a4) := by
  unfold bmapWrite
  extract_lets +onlyGivenNames -merge -useContext u0 u1
  exact (Kept.ite (P := Kept K z) (errReq_kept ha4) (Kept.ite (P := Kept K z) (errReq_kept ha4) (State.setReg_kept
      ha4)))

theorem execBmapWrite_kept {z a0 a1 a2 a3 a4} (ha4 : Kept K z a4) : ∀ t, (execBmapWrite a0 a1 a2 a3 a4) = .next t →
    Kept K z t :=
  (done_kept (gateWrite_kept (fun _ h0 => (bmapWrite_kept h0)) ha4))

theorem popFail_kept {z a0 a1} (ha1 : Kept K z a1) : Kept K z (popFail a0 a1) := by
  unfold popFail
  extract_lets +onlyGivenNames -merge -useContext u0
  exact (State.setReg_kept ha1)

theorem trainStep_kept {z a0 a1 a2} (ha2 : Kept K z a2) : Kept K z (trainStep a0 a1 a2) :=
  (State.setReg_kept (State.setH_kept ha2))

theorem popBegin_kept {z a0 a1} (ha1 : Kept K z a1) : Kept K z (popBegin a0 a1) :=
  (Kept.ite (P := Kept K z) ha1 (State.setReg_kept (State.setReg_kept (State.setReg_kept (State.setH_kept ha1)))))

theorem bringup_kept {z a0 a1} (ha1 : Kept K z a1) : Kept K z (bringup a0 a1) := by
  unfold bringup
  refine Kept.ite (P := Kept K z) ?_ ?_
  · exact ha1
  · extract_lets +onlyGivenNames -merge -useContext u0
    have h1 : Kept K z u0 := (popBegin_kept ha1)
    try clear_value u0
    extract_lets +onlyGivenNames -merge -useContext u2
    have h3 : Kept K z u2 := (forEach_kept h1 (fun _ _ h4 => (State.setReg_kept h4)))
    try clear_value u2
    exact (trainStep_kept (State.setH_kept h3))

theorem bringupStart_kept {z a0 a1} (ha1 : Kept K z a1) : Kept K z (bringupStart a0 a1) := by
  unfold bringupStart
  extract_lets +onlyGivenNames -merge -useContext u0
  exact (Kept.ite (P := Kept K z) ha1 (bringup_kept (State.setRbit_kept ha1)))

theorem execBringupStart_kept {z a0 a1 a2} (ha2 : Kept K z a2) : ∀ t, (execBringupStart a0 a1 a2) = .next t → Kept K
    z t :=
  (done_kept (gateWrite_kept (fun _ h0 => (bringupStart_kept h0)) ha2))

theorem chanLost_kept {z a0 a1} (frames : ¬K .frames) (dram : ¬K .dram) (ha1 : Kept K z a1) : Kept K z (chanLost a0
    a1) := by
  unfold chanLost
  extract_lets +onlyGivenNames -merge -useContext u0
  have h1 : Kept K z u0 := (State.setH_kept (State.setH_kept (State.setH_kept ha1)))
  try clear_value u0
  extract_lets +onlyGivenNames -merge -useContext u2
  have h3 : Kept K z u2 := (popFail_kept h1)
  try clear_value u2
  extract_lets +onlyGivenNames -merge -useContext u4
  have h5 : Kept K z u4 := (raise_kept (raiseFault_kept h3))
  try clear_value u4
  exact (opsLost_kept frames dram (foldStall_kept h5))

theorem trainFail_kept {z a0 a1 a2} (ha2 : Kept K z a2) : Kept K z (trainFail a0 a1 a2) := by
  unfold trainFail
  extract_lets +onlyGivenNames -merge -useContext u0
  have h1 : Kept K z u0 := (State.setReg_kept (State.setH_kept ha2))
  try clear_value u0
  exact (raise_kept (popFail_kept (Kept.ite (P := Kept K z) (State.setH_kept h1) h1)))

theorem rankCheck_kept {z a0} (ha0 : Kept K z a0) : Kept K z (rankCheck a0) :=
  (forEach_kept ha0 (fun _ _ h0 => (trainFail_kept (State.setRfld_kept h0))))

theorem chanClear_kept {z a0 a1} (memory : ¬K .memory) (ha1 : Kept K z a1) : Kept K z (chanClear a0 a1) := by
  unfold chanClear
  extract_lets +onlyGivenNames -merge -useContext u0
  have h1 : Kept K z u0 := (State.eraseMem_kept memory ha1)
  try clear_value u0
  exact (Kept.sub h1 rfl rfl (.refl _) List.filter_sublist (.refl _) (.refl _) (.refl _) (.refl _) (.refl _)
      (Area.each (fun _ => Area.f5) (fun _ => Area.f5) (fun _ => rfl) (fun _ => Area.f5) (fun _ => Area.f3) (fun _
      => rfl) (fun _ => Area.f4) (fun _ => Area.f8)))

theorem trainDone_kept {z a0 a1 a2 a3 a4} (memory : ¬K .memory) (ha4 : Kept K z a4) : Kept K z (trainDone a0 a1 a2
    a3 a4) := by
  unfold trainDone
  extract_lets +onlyGivenNames -merge -useContext u0
  refine Kept.ite (P := Kept K z) ?_ ?_
  · exact ha4
  · extract_lets +onlyGivenNames -merge -useContext u1
    have h2 : Kept K z u1 := (Kept.ite (P := Kept K z) (State.setH_kept (State.setReg_kept ha4)) ha4)
    try clear_value u1
    extract_lets +onlyGivenNames -merge -useContext u3 u4
    refine Kept.ite (P := Kept K z) ?_ ?_
    · extract_lets +onlyGivenNames -merge -useContext u5
      have h6 : Kept K z u5 := (Kept.ite (P := Kept K z) (trainFail_kept h2) (trainStep_kept h2))
      try clear_value u5
      exact (Kept.ite (P := Kept K z) (rankCheck_kept h6) h6)
    · refine Kept.ite (P := Kept K z) ?_ ?_
      · exact (trainFail_kept h2)
      · extract_lets +onlyGivenNames -merge -useContext u7
        have h8 : Kept K z u7 := (chanClear_kept memory h2)
        try clear_value u7
        extract_lets +onlyGivenNames -merge -useContext u9
        have h10 : Kept K z u9 := (State.setReg_kept h8)
        try clear_value u9
        exact (raise_kept (State.setH_kept h10))

theorem execTrainStepDone_kept {z a0 a1 a2 a3 a4} (memory : ¬K .memory) (ha4 : Kept K z a4) : ∀ t,
    (execTrainStepDone a0 a1 a2 a3 a4) = .next t → Kept K z t :=
  (done_kept (State.ifLive_kept ha4 (fun _ h0 => (trainDone_kept memory h0))))

theorem popForget_kept {z a0} (ha0 : Kept K z a0) : Kept K z (popForget a0) :=
  (Kept.sub ha0 rfl rfl (.refl _) List.filter_sublist (.refl _) (.refl _) (.refl _) (.refl _) (.refl _) (Area.each
      (fun _ => Area.f5) (fun _ => Area.f5) (fun _ => rfl) (fun _ => Area.f5) (fun _ => Area.f3) (fun _ => rfl) (fun
      _ => Area.f4) (fun _ => Area.f8)))

theorem dsReady_kept {z a0} (frames : ¬K .frames) (ha0 : Kept K z a0) : Kept K z (dsReady a0) := by
  unfold dsReady
  extract_lets +onlyGivenNames -merge -useContext u0
  refine Kept.ite (P := Kept K z) ?_ ?_
  · exact ha0
  · extract_lets +onlyGivenNames -merge -useContext u1
    extract_lets +onlyGivenNames -merge -useContext u2
    have h3 : Kept K z u2 := by
      unfold u2
      exact (Kept.sub ha0 rfl rfl (.refl _) (.refl _) (.refl _) List.filter_sublist List.filter_sublist (.refl _)
          (.refl _) (Area.each (absurd · frames) (fun _ => Area.f5) (fun _ => rfl) (fun _ => Area.f5) (fun _ =>
          Area.f3) (fun _ => rfl) (fun _ => Area.f4) (fun _ => Area.f8)))
    try clear_value u2
    extract_lets +onlyGivenNames -merge -useContext u4
    have h5 : Kept K z u4 := (State.setH_kept (setFreeCnt_kept (State.setReg_kept h3)))
    try clear_value u4
    extract_lets +onlyGivenNames -merge -useContext u6
    have h7 : Kept K z u6 := (popForget_kept h5)
    try clear_value u6
    exact (raise_kept (State.setH_kept (State.setReg_kept h7)))

theorem execDsReady_kept {z a0} (frames : ¬K .frames) (ha0 : Kept K z a0) : ∀ t, (execDsReady a0) = .next t → Kept K
    z t :=
  (done_kept (State.when_kept ha0 (fun _ h0 => (dsReady_kept frames h0))))

theorem dscDisable_kept {z a0 a1} (frames : ¬K .frames) (dram : ¬K .dram) (ha1 : Kept K z a1) : Kept K z (dscDisable
    a0 a1) := by
  unfold dscDisable
  extract_lets +onlyGivenNames -merge -useContext u0
  have h1 : Kept K z u0 := (Kept.ite (P := Kept K z) (chanLost_kept frames dram ha1) ha1)
  try clear_value u0
  extract_lets +onlyGivenNames -merge -useContext u2
  have h3 : Kept K z u2 := (Kept.ite (P := Kept K z) (State.setH_kept h1) h1)
  try clear_value u2
  extract_lets +onlyGivenNames -merge -useContext u4
  have h5 : Kept K z u4 := (Kept.same h3 rfl (Area.each (fun _ => Area.f5) (fun _ => Area.f5) (fun _ => rfl) (fun _
      => Area.f5) (fun _ => Area.f3) (fun _ => rfl) (absurd · dram) (fun _ => Area.f8)))
  try clear_value u4
  extract_lets +onlyGivenNames -merge -useContext u6
  have h7 : Kept K z u6 := (opsLost_kept frames dram (State.setH_kept (State.setH_kept h5)))
  try clear_value u6
  exact (Kept.ite (P := Kept K z) (State.setH_kept (State.setReg_kept h7)) h7)

theorem dramRefresh_kept {z a0 a1 a2 a3} (ha3 : Kept K z a3) : Kept K z (dramRefresh a0 a1 a2 a3) := by
  unfold dramRefresh
  extract_lets +onlyGivenNames -merge -useContext u0
  exact (Kept.ite (P := Kept K z) (Kept.ite (P := Kept K z) (State.setH_kept ha3) ha3) (Kept.ite (P := Kept K z)
      (State.setH_kept ha3) ha3))

theorem execDramRefresh_kept {z a0 a1 a2 a3} (time : ¬K .time) (ha3 : Kept K z a3) : ∀ t, (execDramRefresh a0 a1 a2
    a3) = .next t → Kept K z t :=
  (done_kept (State.ifLive_kept ha3 (fun _ h0 => (dramRefresh_kept (Kept.ite (P := Kept K z) h0 (nextInterval_kept
      time h0))))))

theorem execRefreshRatePoll_kept {z a0 a1 a2 a3} (time : ¬K .time) (ha3 : Kept K z a3) : ∀ t, (execRefreshRatePoll
    a0 a1 a2 a3) = .next t → Kept K z t :=
  (done_kept (State.ifLive_kept ha3 (fun _ h0 => (State.setHb_kept (nextInterval_kept time h0)))))

theorem execZqCalibration_kept {z a0 a1 a2} (time : ¬K .time) (ha2 : Kept K z a2) : ∀ t, (execZqCalibration a0 a1
    a2) = .next t → Kept K z t :=
  (done_kept (State.when_kept ha2 (fun _ h0 => (bump_kept (nextInterval_kept time h0)))))

theorem retrainStart_kept {z a0 a1} (ha1 : Kept K z a1) : Kept K z (retrainStart a0 a1) :=
  (Kept.ite (P := Kept K z) ha1 (retrainBegin_kept (State.setH_kept ha1)))

theorem dqsMeasure_kept {z a0 a1 a2} (ha2 : Kept K z a2) : Kept K z (dqsMeasure a0 a1 a2) := by
  unfold dqsMeasure
  extract_lets +onlyGivenNames -merge -useContext u0
  have h1 : Kept K z u0 := (bump_kept ha2)
  try clear_value u0
  exact (Kept.ite (P := Kept K z) h1 (Kept.ite (P := Kept K z) (retrainStart_kept h1) (raise_kept (State.setH_kept
      h1))))

theorem execDqsOscMeasure_kept {z a0 a1 a2 a3} (time : ¬K .time) (ha3 : Kept K z a3) : ∀ t, (execDqsOscMeasure a0 a1
    a2 a3) = .next t → Kept K z t :=
  (done_kept (State.when_kept ha3 (fun _ h0 => (dqsMeasure_kept (nextInterval_kept time h0)))))

theorem execRetrainNow_kept {z a0 a1 a2 a3} (ha3 : Kept K z a3) : ∀ t, (execRetrainNow a0 a1 a2 a3) = .next t → Kept
    K z t :=
  (done_kept (gateWrite_kept (fun _ h0 => (Kept.ite (P := Kept K z) (retrainStart_kept h0) h0)) ha3))

theorem retrainDone_kept {z a0 a1 a2} (frames : ¬K .frames) (dram : ¬K .dram) (ha2 : Kept K z a2) : Kept K z
    (retrainDone a0 a1 a2) :=
  (Kept.ite (P := Kept K z) ha2 (Kept.ite (P := Kept K z) (State.setH_kept ha2) (chanLost_kept frames dram ha2)))

theorem execFullRetrainDone_kept {z a0 a1 a2} (frames : ¬K .frames) (dram : ¬K .dram) (ha2 : Kept K z a2) : ∀ t,
    (execFullRetrainDone a0 a1 a2) = .next t → Kept K z t :=
  (done_kept (State.ifLive_kept ha2 (fun _ h0 => (retrainDone_kept frames dram h0))))

theorem rhClear_kept {z a0 a1} (dram : ¬K .dram) (ha1 : Kept K z a1) : Kept K z (rhClear a0 a1) := by
  unfold rhClear
  extract_lets +onlyGivenNames -merge -useContext u0
  have h1 : Kept K z u0 := (Kept.same ha1 rfl (Area.each (fun _ => Area.f5) (fun _ => Area.f5) (fun _ => rfl) (fun _
      => Area.f5) (fun _ => Area.f3) (fun _ => rfl) (absurd · dram) (fun _ => Area.f8)))
  try clear_value u0
  exact (forEach_kept h1 (fun _ _ h2 => (forEach_kept h2 (fun _ _ h3 => (State.setHb_kept h3)))))

theorem execRhWindowClear_kept {z a0 a1} (time : ¬K .time) (dram : ¬K .dram) (ha1 : Kept K z a1) : ∀ t,
    (execRhWindowClear a0 a1) = .next t → Kept K z t :=
  (done_kept (State.ifLive_kept ha1 (fun _ h0 => (rhClear_kept dram (nextInterval_kept time h0)))))

theorem patrolRead_kept {z a0 a1} (frames : ¬K .frames) (time : ¬K .time) (dram : ¬K .dram) (ha1 : Kept K z a1) :
    Kept K z (patrolRead a0 a1) := by
  unfold patrolRead
  extract_lets +onlyGivenNames -merge -useContext u0
  have h1 : Kept K z u0 := (nextInterval_kept time ha1)
  try clear_value u0
  exact (opAsk_kept frames dram h1)

theorem execPatrolRead_kept {z a0 a1} (frames : ¬K .frames) (time : ¬K .time) (dram : ¬K .dram) (ha1 : Kept K z a1)
    : ∀ t, (execPatrolRead a0 a1) = .next t → Kept K z t :=
  (done_kept (State.when_kept ha1 (fun _ h0 => (patrolRead_kept frames time dram h0))))

theorem execDimmTempRead_kept {z a0 a1 a2} (time : ¬K .time) (ha2 : Kept K z a2) : ∀ t, (execDimmTempRead a0 a1 a2)
    = .next t → Kept K z t := by
  unfold execDimmTempRead
  refine done_kept ?_
  refine State.ifLive_kept ?_ ?_
  · exact ha2
  · intro a9 h10
    extract_lets +onlyGivenNames -merge -useContext u11
    have h12 : Kept K z u11 := (State.setReg_kept (nextInterval_kept time h10))
    try clear_value u11
    exact (Kept.ite (P := Kept K z) (raise_kept h12) h12)

theorem dscReg_kept {z a0 a1 a2 a3} (ha3 : Kept K z a3) : ∀ t0, (dscReg a0 a1 a2 a3) = some t0 → Kept K z t0 := by
  unfold dscReg
  extract_lets +onlyGivenNames -merge -useContext u0
  refine Kept.ite (P := fun x : Option State => ∀ t0, x = some t0 → Kept K z t0) ?_ ?_
  · exact Kept.none
  · extract_lets +onlyGivenNames -merge -useContext u1
    extract_lets +onlyGivenNames -merge -useContext u2
    have h3 : ∀ y0_0, Kept K z (u2 y0_0) := (fun _ => (errReq_kept ha3))
    try clear_value u2
    extract_lets +onlyGivenNames -merge -useContext u4 u5
    have h6 : ∀ y0_0 y0_1, ∀ t1, (u5 y0_0 y0_1) = some t1 → Kept K z t1 := (fun _ _ => (Kept.some (Kept.ite (P :=
        Kept K z) (h3 _) (Kept.ite (P := Kept K z) (h3 _) (coverUpdate_kept (storeReg_kept ha3))))))
    try clear_value u5
    refine Kept.ite (P := fun x : Option State => ∀ t0, x = some t0 → Kept K z t0) ?_ ?_
    · exact (Kept.some (popCfg_kept ha3))
    · refine Kept.ite (P := fun x : Option State => ∀ t0, x = some t0 → Kept K z t0) ?_ ?_
      · exact (Kept.some (bmapWrite_kept ha3))
      · refine Kept.ite (P := fun x : Option State => ∀ t0, x = some t0 → Kept K z t0) ?_ ?_
        · exact (h6 _ _)
        · refine Kept.ite (P := fun x : Option State => ∀ t0, x = some t0 → Kept K z t0) ?_ ?_
          · exact (h6 _ _)
          · refine Kept.ite (P := fun x : Option State => ∀ t0, x = some t0 → Kept K z t0) ?_ ?_
            · exact (h6 _ _)
            · refine Kept.ite (P := fun x : Option State => ∀ t0, x = some t0 → Kept K z t0) ?_ ?_
              · exact (h6 _ _)
              · refine Kept.ite (P := fun x : Option State => ∀ t0, x = some t0 → Kept K z t0) ?_ ?_
                · exact (h6 _ _)
                · refine Kept.ite (P := fun x : Option State => ∀ t0, x = some t0 → Kept K z t0) ?_ ?_
                  · exact (h6 _ _)
                  · refine Kept.ite (P := fun x : Option State => ∀ t0, x = some t0 → Kept K z t0) ?_ ?_
                    · exact (h6 _ _)
                    · refine Kept.ite (P := fun x : Option State => ∀ t0, x = some t0 → Kept K z t0) ?_ ?_
                      · exact (h6 _ _)
                      · refine Kept.ite (P := fun x : Option State => ∀ t0, x = some t0 → Kept K z t0) ?_ ?_
                        · exact (h6 _ _)
                        · refine Kept.ite (P := fun x : Option State => ∀ t0, x = some t0 → Kept K z t0) ?_ ?_
                          · exact (Kept.some (Kept.ite (P := Kept K z) (retrainStart_kept ha3) ha3))
                          · exact Kept.none

end Sys2Proof.Machine
end

