-- ==== Sys2Proof/Laws/KeptReset.lean ====
section
/-!
SUPPORT. Every operation and meaning of Machine/Reset.lean keeps the state sane, its queue as it is and its outputs made.
-/
namespace Sys2Proof.Machine

variable {K : Area → Prop}

theorem deviceReset_kept {z a0 a1 a2} (frames : ¬K .frames) (fabric : ¬K .fabric) (memory : ¬K .memory) (time : ¬K
    .time) (learn : ¬K .learn) (intStacks : ¬K .intStacks) (dram : ¬K .dram) (agents : ¬K .agents) (ha2 : Kept K z
    a2) : Kept K z (deviceReset a0 a1 a2) := by
  unfold deviceReset
  refine coverUpdate_kept (State.setH_kept (State.setReg_kept (forEach_kept ?_ fun _ _ h => State.setH_kept h)))
  exact Kept.sub ha2 rfl rfl List.filter_sublist List.filter_sublist List.filter_sublist
    List.filter_sublist (List.nil_sublist _) (List.nil_sublist _) (List.nil_sublist _) (Area.each (absurd · frames)
        (absurd · fabric)
      (absurd · memory) (absurd · time) (absurd · learn) (absurd · intStacks) (absurd · dram) (absurd · agents))

theorem holdReset_kept {z a0 a1 a2} (ha2 : Kept K z a2) : Kept K z (holdReset a0 a1 a2) :=
  (State.setH_kept ha2)

end Sys2Proof.Machine
end

