-- ==== Sys2Proof/Laws/KeptSpdm.lean ====
section
/-!
SUPPORT. Every operation and meaning of Machine/Spdm.lean keeps the state sane, its queue as it is and its outputs made.
-/
namespace Sys2Proof.Machine

variable {K : Area → Prop}

theorem freeNonce_kept {z a0} (ha0 : Kept K z a0) : Kept K z (freeNonce a0).2 := by
  unfold freeNonce
  split
  · rename_i m0 m1 q2
    have h3 : Kept K z m1 := Kept.of_eq (P := fun x : ℕ × State => Kept K z x.2) q2 (State.free_kept ha0)
    split
    · rename_i m4 m5 q6
      have h7 : Kept K z m5 := Kept.of_eq (P := fun x : ℕ × State => Kept K z x.2) q6 (State.free_kept h3)
      split
      · rename_i m8 m9 q10
        have h11 : Kept K z m9 := Kept.of_eq (P := fun x : ℕ × State => Kept K z x.2) q10 (State.free_kept h7)
        split
        · rename_i m12 m13 q14
          have h15 : Kept K z m13 := Kept.of_eq (P := fun x : ℕ × State => Kept K z x.2) q14 (State.free_kept h11)
          try dsimp -zeta only
          exact h15

theorem spdmServe_kept {z a0 a1 a2} (agents : ¬K .agents) (ha2 : Kept K z a2) : Kept K z (spdmServe a0 a1 a2).2 := by
  unfold spdmServe
  extract_lets +onlyGivenNames -merge -useContext u0
  split
  · rename_i m1 m2 q3
    have h4 : Kept K z m2 := Kept.of_eq (P := fun x : List Byte × State => Kept K z x.2) q3 (freeNonce_kept ha2)
    try dsimp -zeta only
    extract_lets +onlyGivenNames -merge -useContext u5
    have h6 : Kept K z u5 := (bump_kept h4)
    try clear_value u5
    exact (Kept.same h6 rfl (Area.each (fun _ => Area.f5) (fun _ => Area.f5) (fun _ => rfl) (fun _ => Area.f5) (fun
        _ => Area.f3) (fun _ => rfl) (fun _ => Area.f4) (absurd · agents)))

theorem spdmRun_kept {z a0 a1 a2} (agents : ¬K .agents) (ha2 : Kept K z a2) : Kept K z (spdmRun a0 a1 a2).2 := by
  unfold spdmRun
  split
  · rename_i m0 m1 q2
    have h3 : Kept K z m1 := Kept.of_eq (P := fun x : ℕ × State => Kept K z x.2) q2 (State.free_kept ha2)
    exact (spdmServe_kept agents (State.setH_kept (State.setH_kept h3)))

theorem doeGo_kept {z a0} (agents : ¬K .agents) (ha0 : Kept K z a0) : Kept K z (doeGo a0) := by
  unfold doeGo
  split
  · exact ha0
  · refine Kept.ite (P := Kept K z) ?_ ?_
    · exact ha0
    · split
      · rename_i m3 m4 q5
        have h6 : Kept K z m4 := Kept.of_eq (P := fun x : List Byte × State => Kept K z x.2) q5 (spdmRun_kept agents
            (Kept.same ha0 rfl (Area.each (fun _ => Area.f5) (fun _ => Area.f5) (fun _ => rfl) (fun _ => Area.f5)
            (fun _ => Area.f3) (fun _ => rfl) (fun _ => Area.f4) (absurd · agents))))
        exact (State.emit_kept h6)

theorem doeRequest_kept {z a0 a1} (agents : ¬K .agents) (ha1 : Kept K z a1) : Kept K z (doeRequest a0 a1) :=
  (doeGo_kept agents (Kept.same ha1 rfl (Area.each (fun _ => Area.f5) (fun _ => Area.f5) (fun _ => rfl) (fun _ =>
      Area.f5) (fun _ => Area.f3) (fun _ => rfl) (fun _ => Area.f4) (absurd · agents))))

theorem eloSpdm_kept {z a0 a1} (time : ¬K .time) (agents : ¬K .agents) (ha1 : Kept K z a1) : Kept K z (eloSpdm a0
    a1).2 := by
  unfold eloSpdm
  extract_lets +onlyGivenNames -merge -useContext u0
  have h1 : Kept K z u0 := (Kept.ite (P := Kept K z) ha1 (doeGo_kept agents (waitRoot_kept time ha1)))
  try clear_value u0
  exact (spdmRun_kept agents (Kept.ite (P := Kept K z) (waitRoot_kept time h1) h1))

end Sys2Proof.Machine
end

