-- ==== Sys2Proof/Laws/KeptHostIf.lean ====
section
/-!
SUPPORT. Every operation and meaning of Machine/HostIf.lean keeps the state sane, its queue as it is and its outputs made.
-/
namespace Sys2Proof.Machine

variable {K : Area → Prop}

theorem aerLog_kept {z a0 a1} (ha1 : Kept K z a1) : Kept K z (aerLog a0 a1) := by
  unfold aerLog
  extract_lets +onlyGivenNames -merge -useContext u0
  have h1 : Kept K z u0 := (State.setH_kept ha1)
  try clear_value u0
  refine Kept.ite (P := Kept K z) ?_ ?_
  · exact h1
  · split
    · rename_i m2 m3 q4
      have h5 : Kept K z m3 := Kept.of_eq (P := fun x : ℕ × State => Kept K z x.2) q4 (State.free_kept h1)
      split
      · rename_i m6 m7 q8
        have h9 : Kept K z m7 := Kept.of_eq (P := fun x : ℕ × State => Kept K z x.2) q8 (State.free_kept h5)
        extract_lets +onlyGivenNames -merge -useContext u10
        have h11 : Kept K z u10 := (State.setH_kept (State.setH_kept h9))
        try clear_value u10
        exact (State.setH_kept (State.setH_kept (State.setH_kept h11)))

theorem cplUr_kept {z a0} (ha0 : Kept K z a0) : Kept K z (cplUr a0) :=
  (State.emit_kept (aerLog_kept ha0))

theorem issueReads_kept {z a0} (frames : ¬K .frames) (ha0 : Kept K z a0) : Kept K z (issueReads a0) :=
  (State.when_kept ha0 (fun _ h0 => (Kept.same h0 rfl (Area.each (absurd · frames) (fun _ => Area.f5) (fun _ => rfl)
      (fun _ => Area.f5) (fun _ => Area.f3) (fun _ => rfl) (fun _ => Area.f4) (fun _ => Area.f8)))))

theorem puntFlush_kept {z a0 a1} (frames : ¬K .frames) (ha1 : Kept K z a1) : Kept K z (puntFlush a0 a1) :=
  (forEach_kept (State.setH_kept ha1) (fun _ _ h0 => (puntDrop_kept frames h0)))

theorem puntAbort_kept {z a0 a1} (frames : ¬K .frames) (ha1 : Kept K z a1) : Kept K z (puntAbort a0 a1) :=
  (raise_kept (puntFlush_kept frames (State.setRbit_kept ha1)))

theorem injFlush_kept {z a0 a1} (frames : ¬K .frames) (ha1 : Kept K z a1) : Kept K z (injFlush a0 a1) := by
  unfold injFlush
  extract_lets +onlyGivenNames -merge -useContext u0 u1
  have h2 : Kept K z u1 := (Kept.same ha1 rfl (Area.each (absurd · frames) (fun _ => Area.f5) (fun _ => rfl) (fun _
      => Area.f5) (fun _ => Area.f3) (fun _ => rfl) (fun _ => Area.f4) (fun _ => Area.f8)))
  try clear_value u1
  exact (forEach_kept (State.setH_kept h2) (fun _ _ h3 => (bump_kept (forEach_kept h3 (fun _ _ h4 => (agentFree_kept
      frames h4))))))

theorem injStop_kept {z a0 a1} (frames : ¬K .frames) (ha1 : Kept K z a1) : Kept K z (injStop a0 a1) :=
  (raise_kept (injFlush_kept frames (State.setRbit_kept ha1)))

theorem injSettle_kept {z a0 a1} (frames : ¬K .frames) (ha1 : Kept K z a1) : Kept K z (injSettle a0 a1) :=
  (Kept.ite (P := Kept K z) (injStop_kept frames ha1) ha1)

theorem stopRequests_kept {z a0} (frames : ¬K .frames) (ha0 : Kept K z a0) : Kept K z (stopRequests a0) := by
  unfold stopRequests
  extract_lets +onlyGivenNames -merge -useContext u0 u1
  have h2 : Kept K z u1 := (Kept.same ha0 rfl (Area.each (absurd · frames) (fun _ => Area.f5) (fun _ => rfl) (fun _
      => Area.f5) (fun _ => Area.f3) (fun _ => rfl) (fun _ => Area.f4) (fun _ => Area.f8)))
  try clear_value u1
  extract_lets +onlyGivenNames -merge -useContext u3
  have h4 : Kept K z u3 := (forEach_kept h2 (fun _ _ h5 => (injSettle_kept frames (State.setHb_kept h5))))
  try clear_value u3
  exact (forEach_kept h4 (fun _ _ h6 => (puntAbort_kept frames h6)))

theorem abandonReads_kept {z a0} (frames : ¬K .frames) (ha0 : Kept K z a0) : Kept K z (abandonReads a0) := by
  unfold abandonReads
  extract_lets +onlyGivenNames -merge -useContext u0 u1
  have h2 : Kept K z u1 := (Kept.same ha0 rfl (Area.each (absurd · frames) (fun _ => Area.f5) (fun _ => rfl) (fun _
      => Area.f5) (fun _ => Area.f3) (fun _ => rfl) (fun _ => Area.f4) (fun _ => Area.f8)))
  try clear_value u1
  exact (bumpBy_kept (forEach_kept h2 (fun _ _ h3 => (injSettle_kept frames h3))))

theorem freeze_kept {z a0 a1} (frames : ¬K .frames) (ha1 : Kept K z a1) : Kept K z (freeze a0 a1) :=
  (Kept.ite (P := Kept K z) ha1 (abandonReads_kept frames (stopRequests_kept frames (raise_kept (State.setReg_kept
      ha1)))))

theorem puntFill_kept {z a0 a1 a2 a3 a4 a5 a6} (ha6 : Kept K z a6) : Kept K z (puntFill a0 a1 a2 a3 a4 a5 a6) := by
  unfold puntFill
  extract_lets +onlyGivenNames -merge -useContext u0 u1
  have h2 : Kept K z u1 := (State.emit_kept ha6)
  try clear_value u1
  extract_lets +onlyGivenNames -merge -useContext u3
  exact (State.emit_kept h2)

theorem puntWrite_kept {z a0 a1 a2} (frames : ¬K .frames) (ha2 : Kept K z a2) : Kept K z (puntWrite a0 a1 a2) := by
  unfold puntWrite
  split
  · exact ha2
  · extract_lets +onlyGivenNames -merge -useContext u2
    extract_lets +onlyGivenNames -merge -useContext u3 u4 u5 u6 u7
    have h8 : Kept K z u7 := (forEach_kept ha2 (fun _ _ h9 => (puntFill_kept h9)))
    try clear_value u7
    extract_lets +onlyGivenNames -merge -useContext u10
    have h11 : Kept K z u10 := (State.setReg_kept h8)
    try clear_value u10
    refine Kept.ite (P := Kept K z) ?_ ?_
    · exact (State.setH_kept h11)
    · extract_lets +onlyGivenNames -merge -useContext u12
      have h13 : Kept K z u12 := (State.drop_kept frames (State.setH_kept h11))
      try clear_value u12
      exact (ring_kept (bumpBy_kept (bump_kept h13)))

theorem puntUe_kept {z a0 a1} (frames : ¬K .frames) (ha1 : Kept K z a1) : Kept K z (puntUe a0 a1) := by
  unfold puntUe
  split
  · extract_lets +onlyGivenNames -merge -useContext u1
    have h2 : Kept K z u1 := (State.drop_kept frames (State.setH_kept ha1))
    try clear_value u1
    exact (errInt_kept (Kept.ite (P := Kept K z) h2 (bump_kept h2)))
  · exact ha1

theorem execPuntWrite_kept {z a0 a1 a2 a3} (frames : ¬K .frames) (ha3 : Kept K z a3) : ∀ t, (execPuntWrite a0 a1 a2
    a3) = .next t → Kept K z t := by
  cases a2
  · exact done_kept (State.when_kept ha3 fun _ h => puntWrite_kept frames h)
  · exact done_kept (State.when_kept ha3 fun _ h => puntUe_kept frames h)

theorem puntAge_kept {z a0 a1} (frames : ¬K .frames) (time : ¬K .time) (ha1 : Kept K z a1) : Kept K z (puntAge a0
    a1) := by
  unfold puntAge
  split
  · exact ha1
  · extract_lets +onlyGivenNames -merge -useContext u2
    have h3 : Kept K z u2 := (advanceFolTo_kept time ha1)
    try clear_value u2
    exact (Kept.ite (P := Kept K z) h3 (puntDrop_kept frames (State.setH_kept h3)))

theorem execPuntAgeDrop_kept {z a0 a1} (frames : ¬K .frames) (time : ¬K .time) (ha1 : Kept K z a1) : ∀ t,
    (execPuntAgeDrop a0 a1) = .next t → Kept K z t :=
  (done_kept (State.ifLive_kept ha1 (fun _ h0 => (puntAge_kept frames time h0))))

theorem injTake_kept {z a0 a1 a2 a3} (frames : ¬K .frames) (fabric : ¬K .fabric) (ha3 : Kept K z a3) : Kept K z
    (injTake a0 a1 a2 a3) := by
  unfold injTake
  extract_lets +onlyGivenNames -merge -useContext u0 u1 u2 u3 u4
  have h5 : ∀ y0_0, (Kept K z y0_0) → Kept K z (u4 y0_0) := (fun _ h6 => (State.setH_kept h6))
  try clear_value u4
  refine Kept.ite (P := Kept K z) ?_ ?_
  · extract_lets +onlyGivenNames -merge -useContext u7
    have h8 : Kept K z u7 := (h5 _ ha3)
    try clear_value u7
    exact (Kept.same h8 rfl (Area.each (absurd · frames) (fun _ => Area.f5) (fun _ => rfl) (fun _ => Area.f5) (fun _
        => Area.f3) (fun _ => rfl) (fun _ => Area.f4) (fun _ => Area.f8)))
  · split
    · rename_i m9 q10
      have h11 : Kept K z m9 := Kept.of_eq (P := fun x : Option (List ℕ) × State => Kept K z x.2) q10
          (grantTurns_kept frames fabric ha3)
      exact (State.setH_kept h11)
    · rename_i m12 m13 q14
      have h15 : Kept K z m13 := Kept.of_eq (P := fun x : Option (List ℕ) × State => Kept K z x.2) q14
          (grantTurns_kept frames fabric ha3)
      extract_lets +onlyGivenNames -merge -useContext u16 u17
      have h18 : Kept K z u17 := (h5 _ h15)
      try clear_value u17
      exact (Kept.same h18 rfl (Area.each (absurd · frames) (fun _ => Area.f5) (fun _ => rfl) (fun _ => Area.f5)
          (fun _ => Area.f3) (fun _ => rfl) (fun _ => Area.f4) (fun _ => Area.f8)))

theorem execInjectRead_kept {z a0 a1 a2} (frames : ¬K .frames) (fabric : ¬K .fabric) (ha2 : Kept K z a2) : ∀ t,
    (execInjectRead a0 a1 a2) = .next t → Kept K z t := by
  unfold execInjectRead
  extract_lets +onlyGivenNames -merge -useContext u0
  refine done_kept ?_
  split
  · exact ha2
  · extract_lets +onlyGivenNames -merge -useContext u10
    extract_lets +onlyGivenNames -merge -useContext u11
    split
    · exact ha2
    · exact (State.when_kept ha2 (fun _ h14 => (issueReads_kept frames (injTake_kept frames fabric h14))))

theorem readEnd_kept {z a0 a1 a2 a3} (frames : ¬K .frames) (ha3 : Kept K z a3) : Kept K z (readEnd a0 a1 a2 a3) :=
  (issueReads_kept frames (injSettle_kept frames (Kept.same ha3 rfl (Area.each (absurd · frames) (fun _ => Area.f5)
      (fun _ => rfl) (fun _ => Area.f5) (fun _ => Area.f3) (fun _ => rfl) (fun _ => Area.f4) (fun _ => Area.f8)))))

theorem readFail_kept {z a0 a1} (frames : ¬K .frames) (ha1 : Kept K z a1) : Kept K z (readFail a0 a1) := by
  unfold readFail
  split
  · exact ha1
  · extract_lets +onlyGivenNames -merge -useContext u2
    exact (bumpBy_kept (Kept.same ha1 rfl (Area.each (absurd · frames) (fun _ => Area.f5) (fun _ => rfl) (fun _ =>
        Area.f5) (fun _ => Area.f3) (fun _ => rfl) (fun _ => Area.f4) (fun _ => Area.f8))))

theorem aerError_kept {z a0 a1} (frames : ¬K .frames) (ha1 : Kept K z a1) : Kept K z (aerError a0 a1) := by
  unfold aerError
  extract_lets +onlyGivenNames -merge -useContext u0
  have h1 : Kept K z u0 := (aerLog_kept ha1)
  try clear_value u0
  exact (Kept.ite (P := Kept K z) h1 (freeze_kept frames h1))

theorem unexpected_kept {z a0} (ha0 : Kept K z a0) : Kept K z (unexpected a0) :=
  (raiseFirst_kept (bump_kept (aerLog_kept ha0)))

theorem execReadCompletion_kept {z a0 a1 a2 a3 a4} (frames : ¬K .frames) (ha4 : Kept K z a4) : ∀ t,
    (execReadCompletion a0 a1 a2 a3 a4) = .next t → Kept K z t := by
  unfold execReadCompletion
  refine done_kept ?_
  refine State.when_kept ?_ ?_
  · exact ha4
  · intro a11 h12
    split
    · exact (Kept.ite (P := Kept K z) (aerError_kept frames h12) h12)
    · exact (unexpected_kept h12)
    · exact (Kept.ite (P := Kept K z) (unexpected_kept h12) (Kept.ite (P := Kept K z) (aerError_kept frames
        (Kept.ite (P := Kept K z) (readEnd_kept frames h12) (readFail_kept frames h12))) (readEnd_kept frames h12)))

theorem injOffer_kept {z a0 a1 a2} (frames : ¬K .frames) (fabric : ¬K .fabric) (ha2 : Kept K z a2) : Kept K z
    (injOffer a0 a1 a2) := by
  unfold injOffer
  extract_lets +onlyGivenNames -merge -useContext u0 u1
  split
  · extract_lets +onlyGivenNames -merge -useContext u3
    extract_lets +onlyGivenNames -merge -useContext u4
    have h5 : Kept K z u4 := (State.newFrame_kept frames (Kept.same ha2 rfl (Area.each (absurd · frames) (fun _ =>
        Area.f5) (fun _ => rfl) (fun _ => Area.f5) (fun _ => Area.f3) (fun _ => rfl) (fun _ => Area.f4) (fun _ =>
        Area.f8))))
    try clear_value u4
    exact (offerTo_kept frames fabric h5)
  · exact (forEach_kept (Kept.same ha2 rfl (Area.each (absurd · frames) (fun _ => Area.f5) (fun _ => rfl) (fun _ =>
      Area.f5) (fun _ => Area.f3) (fun _ => rfl) (fun _ => Area.f4) (fun _ => Area.f8))) (fun _ _ h7 =>
      (agentFree_kept frames h7)))

theorem execInjectOffer_kept {z a0 a1 a2} (frames : ¬K .frames) (fabric : ¬K .fabric) (ha2 : Kept K z a2) : ∀ t,
    (execInjectOffer a0 a1 a2) = .next t → Kept K z t := by
  unfold execInjectOffer
  refine done_kept ?_
  split
  · exact (State.when_kept ha2 (fun _ h4 => (injOffer_kept frames fabric h4)))
  · exact ha2

theorem injWriteback_kept {z a0 a1 a2} (frames : ¬K .frames) (ha2 : Kept K z a2) : Kept K z (injWriteback a0 a1 a2)
    := by
  unfold injWriteback
  extract_lets +onlyGivenNames -merge -useContext u0 u1 u2 u3
  have h4 : Kept K z u3 := (forEach_kept ha2 (fun _ _ h5 => (State.emit_kept h5)))
  try clear_value u3
  extract_lets +onlyGivenNames -merge -useContext u6
  have h7 : Kept K z u6 := (Kept.same h4 rfl (Area.each (absurd · frames) (fun _ => Area.f5) (fun _ => rfl) (fun _
      => Area.f5) (fun _ => Area.f3) (fun _ => rfl) (fun _ => Area.f4) (fun _ => Area.f8)))
  try clear_value u6
  extract_lets +onlyGivenNames -merge -useContext u8
  have h9 : Kept K z u8 := (State.setReg_kept h7)
  try clear_value u8
  extract_lets +onlyGivenNames -merge -useContext u10
  have h11 : Kept K z u10 := (Kept.ite (P := Kept K z) (bumpBy_kept (bump_kept h9)) (bump_kept h9))
  try clear_value u10
  exact (ring_kept h11)

theorem execInjectWriteback_kept {z a0 a1} (frames : ¬K .frames) (ha1 : Kept K z a1) : ∀ t, (execInjectWriteback a0
    a1) = .next t → Kept K z t := by
  unfold execInjectWriteback
  refine done_kept ?_
  split
  · split
    · exact (State.when_kept ha1 (fun _ h7 => (injWriteback_kept frames h7)))
    · exact ha1
  · exact ha1

theorem cplTimeout_kept {z a0 a1} (frames : ¬K .frames) (time : ¬K .time) (ha1 : Kept K z a1) : Kept K z (cplTimeout
    a0 a1) := by
  unfold cplTimeout
  refine Kept.ite (P := Kept K z) ?_ ?_
  · exact ha1
  · extract_lets +onlyGivenNames -merge -useContext u0
    have h1 : Kept K z u0 := (waitRoot_kept time ha1)
    try clear_value u0
    refine Kept.ite (P := Kept K z) ?_ ?_
    · extract_lets +onlyGivenNames -merge -useContext u2
      have h3 : Kept K z u2 := (raise_kept (bump_kept (aerLog_kept h1)))
      try clear_value u2
      exact (Kept.ite (P := Kept K z) (readEnd_kept frames h3) (freeze_kept frames h3))
    · exact (bump_kept (readEnd_kept frames h1))

theorem execCompletionTimeout_kept {z a0 a1} (frames : ¬K .frames) (time : ¬K .time) (ha1 : Kept K z a1) : ∀ t,
    (execCompletionTimeout a0 a1) = .next t → Kept K z t :=
  (done_kept (State.when_kept ha1 (fun _ h0 => (cplTimeout_kept frames time h0))))

theorem configReq_kept {z} {a0 : State → State} {a1} (ha0 : ∀ y0_0, (Kept K z y0_0) → Kept K z (a0 y0_0)) (ha1 :
    Kept K z a1) : Kept K z (configReq a0 a1) :=
  (Kept.ite (P := Kept K z) ha1 (Kept.ite (P := Kept K z) (State.emit_kept ha1) (ha0 _ ha1)))

theorem execBmeClear_kept {z a0} (frames : ¬K .frames) (ha0 : Kept K z a0) : ∀ t, (execBmeClear a0) = .next t → Kept
    K z t :=
  (done_kept (configReq_kept (fun _ h0 => (State.when_kept h0 (fun _ h1 => (stopRequests_kept frames
      (State.setHb_kept h1))))) ha0))

theorem execBmeSet_kept {z a0} (frames : ¬K .frames) (ha0 : Kept K z a0) : ∀ t, (execBmeSet a0) = .next t → Kept K z
    t :=
  (done_kept (configReq_kept (fun _ h0 => (issueReads_kept frames (State.setHb_kept h0))) ha0))

theorem fnReset_kept {z a0} (frames : ¬K .frames) (intStacks : ¬K .intStacks) (agents : ¬K .agents) (ha0 : Kept K z
    a0) : Kept K z (fnReset a0) := by
  unfold fnReset
  extract_lets +onlyGivenNames -merge -useContext u0
  have h1 : Kept K z u0 := (abandonReads_kept frames (stopRequests_kept frames (State.setHb_kept ha0)))
  try clear_value u0
  extract_lets +onlyGivenNames -merge -useContext u2
  have h3 : Kept K z u2 := (forEach_kept h1 (fun _ _ h4 => (puntFlush_kept frames h4)))
  try clear_value u2
  extract_lets +onlyGivenNames -merge -useContext u5
  have h6 : Kept K z u5 := (forEach_kept h3 (fun _ _ h7 => (injFlush_kept frames h7)))
  try clear_value u5
  extract_lets +onlyGivenNames -merge -useContext u8
  have h9 : Kept K z u8 := by
    unfold u8
    exact (Kept.sub h6 rfl rfl List.filter_sublist (.refl _) (.refl _) List.filter_sublist (.refl _)
        List.filter_sublist (.refl _) (Area.each (fun _ => Area.f5) (fun _ => Area.f5) (fun _ => rfl) (fun _ =>
        Area.f5) (fun _ => Area.f3) (absurd · intStacks) (fun _ => Area.f4) (absurd · agents)))
  try clear_value u8
  exact (forEach_kept h9 (fun _ _ h10 => (State.setH_kept h10)))

theorem execFlr_kept {z a0} (frames : ¬K .frames) (intStacks : ¬K .intStacks) (agents : ¬K .agents) (ha0 : Kept K z
    a0) : ∀ t, (execFlr a0) = .next t → Kept K z t :=
  (done_kept (configReq_kept (fun _ h0 => (intcUpdate_kept (State.setHb_kept (fnReset_kept frames intStacks agents
      h0)))) ha0))

theorem execFlrDone_kept {z a0} (ha0 : Kept K z a0) : ∀ t, (execFlrDone a0) = .next t → Kept K z t :=
  (done_kept (State.when_kept ha0 (fun _ h0 => (intcUpdate_kept (raise_kept (State.setHb_kept h0))))))

theorem linkDown_kept {z a0 a1} (frames : ¬K .frames) (intStacks : ¬K .intStacks) (agents : ¬K .agents) (ha1 : Kept
    K z a1) : Kept K z (linkDown a0 a1) := by
  unfold linkDown
  extract_lets +onlyGivenNames -merge -useContext u0
  have h1 : Kept K z u0 := (raise_kept (State.setHb_kept (State.setHb_kept ha1)))
  try clear_value u0
  exact (Kept.ite (P := Kept K z) (fnReset_kept frames intStacks agents h1) (freeze_kept frames h1))

theorem execPcieLinkDown_kept {z a0 a1} (frames : ¬K .frames) (intStacks : ¬K .intStacks) (agents : ¬K .agents) (ha1
    : Kept K z a1) : ∀ t, (execPcieLinkDown a0 a1) = .next t → Kept K z t :=
  (done_kept (State.when_kept ha1 (fun _ h0 => (linkDown_kept frames intStacks agents h0))))

theorem execPcieLinkUp_kept {z a0 a1 a2} (ha2 : Kept K z a2) : ∀ t, (execPcieLinkUp a0 a1 a2) = .next t → Kept K z t
    :=
  (done_kept (State.when_kept ha2 (fun _ h0 => (intcUpdate_kept (State.setH_kept (State.setHb_kept h0))))))

theorem releaseWrite_kept {z a0 a1 a2} (frames : ¬K .frames) (ha2 : Kept K z a2) : Kept K z (releaseWrite a0 a1 a2) :=
  (Kept.ite (P := Kept K z) ha2 (Kept.ite (P := Kept K z) (issueReads_kept frames (State.setReg_kept ha2))
      (errReq_kept ha2)))

theorem execRelease_kept {z a0 a1 a2} (frames : ¬K .frames) (ha2 : Kept K z a2) : ∀ t, (execRelease a0 a1 a2) =
    .next t → Kept K z t :=
  (done_kept (gateWrite_kept (fun _ h0 => (releaseWrite_kept frames h0)) ha2))

theorem execPerstAssert_kept {z a0} (frames : ¬K .frames) (fabric : ¬K .fabric) (memory : ¬K .memory) (time : ¬K
    .time) (learn : ¬K .learn) (intStacks : ¬K .intStacks) (dram : ¬K .dram) (agents : ¬K .agents) (ha0 : Kept K z
    a0) : ∀ t, (execPerstAssert a0) = .next t → Kept K z t :=
  (done_kept (Kept.ite (P := Kept K z) ha0 (Kept.ite (P := Kept K z) (intcUpdate_kept (fnReset_kept frames intStacks
      agents (State.setHb_kept (State.setHb_kept (State.setHb_kept ha0))))) (holdReset_kept (State.setHb_kept
      (deviceReset_kept frames fabric memory time learn intStacks dram agents ha0))))))

theorem execPerstRelease_kept {z a0} (ha0 : Kept K z a0) : ∀ t, (execPerstRelease a0) = .next t → Kept K z t :=
  (done_kept (holdReset_kept (State.setHb_kept ha0)))

theorem holdEnd_kept {z a0 a1} (ha1 : Kept K z a1) : Kept K z (holdEnd a0 a1) := by
  unfold holdEnd
  extract_lets +onlyGivenNames -merge -useContext u0
  refine Kept.ite (P := Kept K z) ?_ ?_
  · exact ha1
  · extract_lets +onlyGivenNames -merge -useContext u1
    extract_lets +onlyGivenNames -merge -useContext u2 u3
    have h4 : Kept K z u3 := (State.setRbit_kept ha1)
    try clear_value u3
    extract_lets +onlyGivenNames -merge -useContext u5
    have h6 : Kept K z u5 := (forEach_kept h4 (fun _ _ h7 => (Kept.ite (P := Kept K z) (State.setH_kept h7) h7)))
    try clear_value u5
    exact (Kept.ite (P := Kept K z) h6 (State.emit_kept (forEach_kept h6 (fun _ _ h8 => (State.setH_kept h8)))))

theorem execMsixHoldEnd_kept {z a0 a1} (ha1 : Kept K z a1) : ∀ t, (execMsixHoldEnd a0 a1) = .next t → Kept K z t :=
  (done_kept (State.when_kept ha1 (fun _ h0 => (holdEnd_kept h0))))

theorem pciWrite_kept {z a0 a1} (ha1 : Kept K z a1) : Kept K z (pciWrite a0 a1) := by
  unfold pciWrite
  extract_lets +onlyGivenNames -merge -useContext u0
  have h1 : Kept K z u0 := (State.setH_kept (State.setHb_kept (State.setHb_kept ha1)))
  try clear_value u0
  extract_lets +onlyGivenNames -merge -useContext u2
  have h3 : Kept K z u2 := (State.setH_kept (State.setH_kept h1))
  try clear_value u2
  extract_lets +onlyGivenNames -merge -useContext u4
  have h5 : Kept K z u4 := (State.setH_kept h3)
  try clear_value u4
  extract_lets +onlyGivenNames -merge -useContext u6
  have h7 : Kept K z u6 := (Kept.ite (P := Kept K z) (State.setH_kept h5) h5)
  try clear_value u6
  extract_lets +onlyGivenNames -merge -useContext u8
  have h9 : Kept K z u8 := (State.setHb_kept (State.setH_kept h7))
  try clear_value u8
  exact (State.setHb_kept (State.setH_kept (State.setHb_kept h9)))

theorem execInterruptDisableWrite_kept {z a0 a1 a2} (frames : ¬K .frames) (ha2 : Kept K z a2) : ∀ t,
    (execInterruptDisableWrite a0 a1 a2) = .next t → Kept K z t := by
  unfold execInterruptDisableWrite
  refine done_kept ?_
  refine configReq_kept ?_ ?_
  · intro a11 h12
    refine intcUpdate_kept ?_
    split
    · exact (State.setHb_kept h12)
    · exact (issueReads_kept frames (pciWrite_kept (State.setHb_kept h12)))
  · exact ha2

theorem romRead_kept {z a0 a1 a2} (ha2 : Kept K z a2) : Kept K z (romRead a0 a1 a2) :=
  (Kept.ite (P := Kept K z) (State.emit_kept ha2) (cplUr_kept ha2))

theorem configRead_kept {z a0 a1} (ha1 : Kept K z a1) : Kept K z (configRead a0 a1) := by
  unfold configRead
  split
  · split
    · rename_i m2 m3 q4
      have h5 : Kept K z m3 := Kept.of_eq (P := fun x : ℕ × State => Kept K z x.2) q4 (State.free_kept ha1)
      exact (State.emit_kept h5)

theorem bar4_kept {z a0 a1 a2 a3} (ha3 : Kept K z a3) : Kept K z (bar4 a0 a1 a2 a3) := by
  unfold bar4
  extract_lets +onlyGivenNames -merge -useContext u0
  split
  · exact (State.emit_kept ha3)
  · extract_lets +onlyGivenNames -merge -useContext u3
    exact (Kept.ite (P := Kept K z) ha3 (State.setReg_kept ha3))

theorem memReq_kept {z a0} {a1 : State → State} {a2} (ha1 : ∀ y0_0, (Kept K z y0_0) → Kept K z (a1 y0_0)) (ha2 :
    Kept K z a2) : Kept K z (memReq a0 a1 a2) :=
  (Kept.ite (P := Kept K z) ha2 (Kept.ite (P := Kept K z) (Kept.ite (P := Kept K z) (cplUr_kept ha2) ha2) (ha1 _
      ha2)))

theorem execBar4Request_kept {z a0 a1} (agents : ¬K .agents) (ha1 : Kept K z a1) : ∀ t, (execBar4Request a0 a1) =
    .next t → Kept K z t := by
  unfold execBar4Request
  refine done_kept ?_
  split
  · exact (memReq_kept (fun _ h15 => (bar4_kept h15)) ha1)
  · exact (memReq_kept (fun _ h18 => (romRead_kept h18)) ha1)
  · exact ha1
  · exact (configReq_kept (fun _ h21 => (configRead_kept (doeGo_kept agents h21))) ha1)
  · exact (configReq_kept (fun _ h23 => (State.emit_kept (doeGo_kept agents h23))) ha1)

theorem ringBad_kept {z a0 a1 a2 a3} (ha3 : Kept K z a3) : Kept K z (ringBad a0 a1 a2 a3) :=
  (errReq_kept ha3)

theorem ringCfg_kept {z a0 a1 a2 a3 a4} {a5 : State → State} {a6 : State → State} {a7} (ha5 : ∀ y0_0, (Kept K z
    y0_0) → Kept K z (a5 y0_0)) (ha6 : ∀ y0_0, (Kept K z y0_0) → Kept K z (a6 y0_0)) (ha7 : Kept K z a7) : Kept K z
    (ringCfg a0 a1 a2 a3 a4 a5 a6 a7) := by
  unfold ringCfg
  extract_lets +onlyGivenNames -merge -useContext u0 u1
  refine Kept.ite (P := Kept K z) ?_ ?_
  · exact (ringBad_kept ha7)
  · extract_lets +onlyGivenNames -merge -useContext u2
    have h3 : Kept K z u2 := (State.setReg_kept ha7)
    try clear_value u2
    exact (Kept.ite (P := Kept K z) (ha5 _ h3) (Kept.ite (P := Kept K z) (ha6 _ h3) h3))

theorem puntCfg_kept {z a0 a1 a2 a3} (frames : ¬K .frames) (ha3 : Kept K z a3) : Kept K z (puntCfg a0 a1 a2 a3) :=
  (ringCfg_kept (fun _ h0 => (State.setReg_kept (State.setReg_kept (State.setReg_kept h0)))) (fun _ h1 =>
      (puntFlush_kept frames h1)) ha3)

theorem injCfg_kept {z a0 a1 a2 a3} (frames : ¬K .frames) (ha3 : Kept K z a3) : Kept K z (injCfg a0 a1 a2 a3) :=
  (ringCfg_kept (fun _ h0 => (State.setReg_kept (State.setReg_kept (State.setReg_kept h0)))) (fun _ h1 =>
      (injFlush_kept frames h1)) ha3)

theorem execRingEnable_kept {z a0 a1 a2 a3} (frames : ¬K .frames) (ha3 : Kept K z a3) : ∀ t, (execRingEnable a0 a1
    a2 a3) = .next t → Kept K z t :=
  (done_kept (Kept.ite (P := Kept K z) (gateWrite_kept (fun _ h0 => (puntCfg_kept frames h0)) ha3) (gateWrite_kept
      (fun _ h1 => (injCfg_kept frames h1)) ha3)))

theorem tailWrite_kept {z a0 a1 a2 a3 a4} (ha4 : Kept K z a4) : Kept K z (tailWrite a0 a1 a2 a3 a4) :=
  (Kept.ite (P := Kept K z) (ringBad_kept ha4) (State.setReg_kept ha4))

theorem execPTailWrite_kept {z a0 a1 a2 a3} (ha3 : Kept K z a3) : ∀ t, (execPTailWrite a0 a1 a2 a3) = .next t → Kept
    K z t :=
  (done_kept (gateWrite_kept (fun _ h0 => (tailWrite_kept h0)) ha3))

theorem execITailWrite_kept {z a0 a1 a2 a3} (ha3 : Kept K z a3) : ∀ t, (execITailWrite a0 a1 a2 a3) = .next t → Kept
    K z t :=
  (done_kept (gateWrite_kept (fun _ h0 => (tailWrite_kept h0)) ha3))

theorem winCommitHost_kept {z a0 a1 a2} (ha2 : Kept K z a2) : Kept K z (winCommitHost a0 a1 a2) := by
  unfold winCommitHost
  refine Kept.ite (P := Kept K z) ?_ ?_
  · exact ha2
  · refine Kept.ite (P := Kept K z) ?_ ?_
    · exact (errReq_kept ha2)
    · refine forEach_kept ?_ ?_
      · exact ha2
      · intro a4 a5 h6
        extract_lets +onlyGivenNames -merge -useContext u7
        have h8 : Kept K z u7 := (State.setReg_kept h6)
        try clear_value u7
        extract_lets +onlyGivenNames -merge -useContext u9
        have h10 : Kept K z u9 := (State.setReg_kept h8)
        try clear_value u9
        extract_lets +onlyGivenNames -merge -useContext u11
        have h12 : Kept K z u11 := (State.setReg_kept h10)
        try clear_value u11
        exact (State.setReg_kept h12)

theorem execWinCommit_kept {z a0 a1 a2} (ha2 : Kept K z a2) : ∀ t, (execWinCommit a0 a1 a2) = .next t → Kept K z t :=
  (done_kept (gateWrite_kept (fun _ h0 => (winCommitHost_kept h0)) ha2))

theorem hostReg_kept {z a0 a1 a2 a3} (frames : ¬K .frames) (ha3 : Kept K z a3) : ∀ t0, (hostReg a0 a1 a2 a3) = some
    t0 → Kept K z t0 := by
  unfold hostReg
  extract_lets +onlyGivenNames -merge -useContext u0 u1 u2
  refine Kept.ite (P := fun x : Option State => ∀ t0, x = some t0 → Kept K z t0) ?_ ?_
  · exact Kept.none
  · refine Kept.ite (P := fun x : Option State => ∀ t0, x = some t0 → Kept K z t0) ?_ ?_
    · exact (Kept.some (releaseWrite_kept frames ha3))
    · refine Kept.ite (P := fun x : Option State => ∀ t0, x = some t0 → Kept K z t0) ?_ ?_
      · exact (Kept.some (winCommitHost_kept ha3))
      · refine Kept.ite (P := fun x : Option State => ∀ t0, x = some t0 → Kept K z t0) ?_ ?_
        · refine Kept.ite (P := fun x : Option State => ∀ t0, x = some t0 → Kept K z t0) ?_ ?_
          · exact (Kept.some (Kept.ite (P := Kept K z) (ringBad_kept ha3) (storeReg_kept ha3)))
          · refine Kept.ite (P := fun x : Option State => ∀ t0, x = some t0 → Kept K z t0) ?_ ?_
            · exact (Kept.some (puntCfg_kept frames ha3))
            · refine Kept.ite (P := fun x : Option State => ∀ t0, x = some t0 → Kept K z t0) ?_ ?_
              · exact (Kept.some (tailWrite_kept ha3))
              · refine Kept.ite (P := fun x : Option State => ∀ t0, x = some t0 → Kept K z t0) ?_ ?_
                · exact (Kept.some (Kept.ite (P := Kept K z) (ringBad_kept ha3) (State.setReg_kept ha3)))
                · exact Kept.none
        · refine Kept.ite (P := fun x : Option State => ∀ t0, x = some t0 → Kept K z t0) ?_ ?_
          · extract_lets +onlyGivenNames -merge -useContext u3
            refine Kept.ite (P := fun x : Option State => ∀ t0, x = some t0 → Kept K z t0) ?_ ?_
            · exact (Kept.some (Kept.ite (P := Kept K z) (ringBad_kept ha3) (storeReg_kept ha3)))
            · refine Kept.ite (P := fun x : Option State => ∀ t0, x = some t0 → Kept K z t0) ?_ ?_
              · exact (Kept.some (injCfg_kept frames ha3))
              · refine Kept.ite (P := fun x : Option State => ∀ t0, x = some t0 → Kept K z t0) ?_ ?_
                · exact (Kept.some (tailWrite_kept ha3))
                · exact Kept.none
          · exact Kept.none

theorem hostTable_kept {z a0 a1 a2} (ha2 : Kept K z a2) : Kept K z (hostTable a0 a1 a2).1 := by
  unfold hostTable
  refine Kept.ite (P := fun x : State × ℕ × Option ℕ => Kept K z x.1) ?_ ?_
  · exact (Win.fail_kept ha2)
  · refine Kept.ite (P := fun x : State × ℕ × Option ℕ => Kept K z x.1) ?_ ?_
    · exact (Win.fail_kept ha2)
    · refine Kept.ite (P := fun x : State × ℕ × Option ℕ => Kept K z x.1) ?_ ?_
      · exact (Win.read_kept ha2)
      · refine Kept.ite (P := fun x : State × ℕ × Option ℕ => Kept K z x.1) ?_ ?_
        · try dsimp -zeta only
          exact (errBy_kept ha2)
        · exact (Win.ok_kept (State.setTab_kept ha2))

end Sys2Proof.Machine
end

