-- ==== Sys2Proof/Laws/KeptObserve.lean ====
section
/-!
SUPPORT. Every operation and meaning of Machine/Observe.lean keeps the state sane, its queue as it is and its outputs made.
-/
namespace Sys2Proof.Machine

variable {K : Area → Prop}

theorem perfSync_kept {z a0 a1} (ha1 : Kept K z a1) : Kept K z (perfSync a0 a1) := by
  unfold perfSync
  extract_lets +onlyGivenNames -merge -useContext u0 u1
  refine Kept.ite (P := Kept K z) ?_ ?_
  · exact (State.setH_kept ha1)
  · extract_lets +onlyGivenNames -merge -useContext u2
    have h3 : Kept K z u2 := (State.setH_kept ha1)
    try clear_value u2
    exact (Kept.ite (P := Kept K z) (perfCount_kept h3) h3)

theorem perfWrap_kept {z a0 a1} (time : ¬K .time) (ha1 : Kept K z a1) : Kept K z (perfWrap a0 a1) := by
  unfold perfWrap
  extract_lets +onlyGivenNames -merge -useContext u0
  have h1 : Kept K z u0 := (perfSync_kept ha1)
  try clear_value u0
  split
  · exact h1
  · exact (perfSync_kept (waitRoot_kept time h1))

theorem execPerfWrap_kept {z a0 a1} (time : ¬K .time) (ha1 : Kept K z a1) : ∀ t, (execPerfWrap a0 a1) = .next t →
    Kept K z t :=
  (done_kept (State.when_kept ha1 (fun _ h0 => (perfWrap_kept time h0))))

theorem droneTable_kept {z a0 a1 a2} (ha2 : Kept K z a2) : Kept K z (droneTable a0 a1 a2).1 := by
  unfold droneTable
  refine Kept.ite (P := fun x : State × ℕ × Option ℕ => Kept K z x.1) ?_ ?_
  · exact (Win.fail_kept ha2)
  · exact (Win.read_kept ha2)

theorem bwCfg_kept {z a0 a1 a2 a3} (ha3 : Kept K z a3) : Kept K z (bwCfg a0 a1 a2 a3) := by
  unfold bwCfg
  extract_lets +onlyGivenNames -merge -useContext u0
  refine Kept.ite (P := Kept K z) ?_ ?_
  · exact (errReq_kept ha3)
  · extract_lets +onlyGivenNames -merge -useContext u1
    have h2 : Kept K z u1 := (forEach_kept ha3 (fun _ _ h3 => (forEach_kept (State.setReg_kept h3) (fun _ _ h4 =>
        (State.setReg_kept h4)))))
    try clear_value u1
    extract_lets +onlyGivenNames -merge -useContext u5
    have h6 : Kept K z u5 := (State.setH_kept (State.setH_kept (State.setReg_kept h2)))
    try clear_value u5
    exact (State.setH_kept h6)

theorem execBwCfgWrite_kept {z a0 a1 a2 a3} (ha3 : Kept K z a3) : ∀ t, (execBwCfgWrite a0 a1 a2 a3) = .next t → Kept
    K z t :=
  (done_kept (gateWrite_kept (fun _ h0 => (bwCfg_kept h0)) ha3))

theorem bwEnd_kept {z a0 a1} (time : ¬K .time) (ha1 : Kept K z a1) : Kept K z (bwEnd a0 a1) := by
  unfold bwEnd
  extract_lets +onlyGivenNames -merge -useContext u0
  have h1 : Kept K z u0 := (advanceTo_kept time ha1)
  try clear_value u0
  exact (bwCatch_kept h1)

theorem execBwWindowEnd_kept {z a0 a1} (time : ¬K .time) (ha1 : Kept K z a1) : ∀ t, (execBwWindowEnd a0 a1) = .next
    t → Kept K z t :=
  (done_kept (State.when_kept ha1 (fun _ h0 => (bwEnd_kept time h0))))

theorem bwSeq_kept {z a0 a1 a2} (ha2 : Kept K z a2) : Kept K z (bwSeq a0 a1 a2).2 := by
  unfold bwSeq
  extract_lets +onlyGivenNames -merge -useContext u0
  have h1 : Kept K z u0 := (State.when_kept ha2 (fun _ h2 => (bwCatch_kept h2)))
  try clear_value u0
  extract_lets +onlyGivenNames -merge -useContext u3
  have h4 : Kept K z u3 := (forEach_kept h1 (fun _ _ h5 => (State.setReg_kept h5)))
  try clear_value u3
  try dsimp -zeta only
  exact (State.setReg_kept (State.setReg_kept h4))

theorem execBwSeqRead_kept {z a0 a1 a2} (ha2 : Kept K z a2) : ∀ t, (execBwSeqRead a0 a1 a2) = .next t → Kept K z t :=
  (done_kept (readFor_kept (fun _ h0 => (bwSeq_kept h0)) ha2))

theorem fsCfg_kept {z a0 a1 a2} (ha2 : Kept K z a2) : Kept K z (fsCfg a0 a1 a2) := by
  unfold fsCfg
  refine Kept.ite (P := Kept K z) ?_ ?_
  · exact (errReq_kept ha2)
  · refine Kept.ite (P := Kept K z) ?_ ?_
    · exact (errReq_kept ha2)
    · extract_lets +onlyGivenNames -merge -useContext u0
      have h1 : Kept K z u0 := (State.setReg_kept ha2)
      try clear_value u0
      exact (Kept.ite (P := Kept K z) (State.setRbit_kept h1) h1)

theorem execFsCfgWrite_kept {z a0 a1 a2} (ha2 : Kept K z a2) : ∀ t, (execFsCfgWrite a0 a1 a2) = .next t → Kept K z t
    :=
  (done_kept (gateWrite_kept (fun _ h0 => (fsCfg_kept h0)) ha2))

theorem execFold_kept {z a0 a1} (frames : ¬K .frames) (dram : ¬K .dram) (ha1 : Kept K z a1) : ∀ t, (execFold a0 a1)
    = .next t → Kept K z t :=
  (done_kept (State.when_kept ha1 (fun _ h0 => (foldAsk_kept frames dram h0))))

theorem execFsVisit_kept {z a0 a1} (frames : ¬K .frames) (time : ¬K .time) (dram : ¬K .dram) (ha1 : Kept K z a1) : ∀
    t, (execFsVisit a0 a1) = .next t → Kept K z t :=
  (done_kept (State.when_kept ha1 (fun _ h0 => (foldAsk_kept frames dram (nextInterval_kept time h0)))))

theorem snapTable_kept {z a0 a1 a2} (frames : ¬K .frames) (dram : ¬K .dram) (ha2 : Kept K z a2) : Kept K z
    (snapTable a0 a1 a2).1 := by
  unfold snapTable
  refine Kept.ite (P := fun x : State × ℕ × Option ℕ => Kept K z x.1) ?_ ?_
  · exact (Win.fail_kept ha2)
  · refine Kept.ite (P := fun x : State × ℕ × Option ℕ => Kept K z x.1) ?_ ?_
    · exact (Win.fail_kept ha2)
    · refine Kept.ite (P := fun x : State × ℕ × Option ℕ => Kept K z x.1) ?_ ?_
      · exact (Win.fail_kept ha2)
      · refine Kept.ite (P := fun x : State × ℕ × Option ℕ => Kept K z x.1) ?_ ?_
        · exact (Win.ok_kept ha2)
        · refine Kept.ite (P := fun x : State × ℕ × Option ℕ => Kept K z x.1) ?_ ?_
          · exact (Win.ok_kept (foldAsk_kept frames dram ha2))
          · extract_lets +onlyGivenNames -merge -useContext u0
            have h1 : Kept K z u0 := (fsTouch_kept ha2)
            try clear_value u0
            exact (Win.ok_kept (unqueue_kept (State.setTab_kept (State.setTab_kept h1))))

theorem execFsRead_kept {z a0 a1} (frames : ¬K .frames) (dram : ¬K .dram) (ha1 : Kept K z a1) : ∀ t, (execFsRead a0
    a1) = .next t → Kept K z t :=
  (done_kept (tblCmd_kept (fun _ _ h0 => (snapTable_kept frames dram h0)) ha1))

theorem execFsClear_kept {z a0 a1} (frames : ¬K .frames) (dram : ¬K .dram) (ha1 : Kept K z a1) : ∀ t, (execFsClear
    a0 a1) = .next t → Kept K z t :=
  (done_kept (tblCmd_kept (fun _ _ h0 => (snapTable_kept frames dram h0)) ha1))

theorem setSnapState_kept {z a0 a1} (ha1 : Kept K z a1) : Kept K z (setSnapState a0 a1) :=
  (State.setRfld_kept ha1)

theorem snapRefuse_kept {z a0 a1 a2 a3} (ha3 : Kept K z a3) : Kept K z (snapRefuse a0 a1 a2 a3) :=
  (errReq_kept ha3)

theorem snapArm_kept {z a0 a1 a2} (ha2 : Kept K z a2) : Kept K z (snapArm a0 a1 a2) :=
  (Kept.ite (P := Kept K z) (setSnapState_kept ha2) (snapRefuse_kept ha2))

theorem snapDisarm_kept {z a0 a1 a2} (ha2 : Kept K z a2) : Kept K z (snapDisarm a0 a1 a2) :=
  (Kept.ite (P := Kept K z) (setSnapState_kept ha2) (snapRefuse_kept ha2))

theorem snapNow_kept {z a0 a1 a2} (ha2 : Kept K z a2) : Kept K z (snapNow a0 a1 a2) :=
  (Kept.ite (P := Kept K z) (setSnapState_kept ha2) (snapRefuse_kept ha2))

theorem snapCtl_kept {z a0 a1 a2} (ha2 : Kept K z a2) : Kept K z (snapCtl a0 a1 a2) := by
  unfold snapCtl
  refine Kept.ite (P := Kept K z) ?_ ?_
  · exact ha2
  · refine Kept.ite (P := Kept K z) ?_ ?_
    · exact (errReq_kept ha2)
    · extract_lets +onlyGivenNames -merge -useContext u0
      have h1 : Kept K z u0 := (Kept.ite (P := Kept K z) (snapArm_kept ha2) ha2)
      try clear_value u0
      extract_lets +onlyGivenNames -merge -useContext u2
      have h3 : Kept K z u2 := (Kept.ite (P := Kept K z) (snapDisarm_kept h1) h1)
      try clear_value u2
      exact (Kept.ite (P := Kept K z) (snapNow_kept h3) h3)

theorem execSnapArm_kept {z a0 a1} (ha1 : Kept K z a1) : ∀ t, (execSnapArm a0 a1) = .next t → Kept K z t :=
  (done_kept (gateWrite_kept (fun _ h0 => (snapCtl_kept h0)) ha1))

theorem execSnapDisarm_kept {z a0 a1} (ha1 : Kept K z a1) : ∀ t, (execSnapDisarm a0 a1) = .next t → Kept K z t :=
  (done_kept (gateWrite_kept (fun _ h0 => (snapCtl_kept h0)) ha1))

theorem execSnapNow_kept {z a0 a1} (ha1 : Kept K z a1) : ∀ t, (execSnapNow a0 a1) = .next t → Kept K z t :=
  (done_kept (gateWrite_kept (fun _ h0 => (snapCtl_kept h0)) ha1))

theorem clearMarks_kept {z a0} (ha0 : Kept K z a0) : Kept K z (clearMarks a0) :=
  (Kept.sub ha0 rfl rfl List.filter_sublist List.filter_sublist (.refl _) (.refl _) (.refl _) (.refl _) (.refl _)
      (Area.each (fun _ => Area.f5) (fun _ => Area.f5) (fun _ => rfl) (fun _ => Area.f5) (fun _ => Area.f3) (fun _
      => rfl) (fun _ => Area.f4) (fun _ => Area.f8)))

theorem cycShadow_kept {z a0 a1} (ha1 : Kept K z a1) : Kept K z (cycShadow a0 a1) :=
  (State.setReg_kept (State.setReg_kept ha1))

theorem snapLatch_kept {z a0} (ha0 : Kept K z a0) : Kept K z (snapLatch a0) := by
  unfold snapLatch
  extract_lets +onlyGivenNames -merge -useContext u0
  have h1 : Kept K z u0 := (State.setReg_kept (State.setReg_kept ha0))
  try clear_value u0
  extract_lets +onlyGivenNames -merge -useContext u2
  have h3 : Kept K z u2 := (State.setReg_kept h1)
  try clear_value u2
  exact (raise_kept (bump_kept h3))

theorem snapEpoch_kept {z a0} (ha0 : Kept K z a0) : Kept K z (snapEpoch a0) := by
  unfold snapEpoch
  extract_lets +onlyGivenNames -merge -useContext u0
  have h1 : Kept K z u0 := (forEach_kept ha0 (fun _ _ h2 => (perfSync_kept h2)))
  try clear_value u0
  extract_lets +onlyGivenNames -merge -useContext u3
  have h4 : Kept K z u3 := (clearMarks_kept h1)
  try clear_value u3
  extract_lets +onlyGivenNames -merge -useContext u5
  have h6 : Kept K z u5 := by
    unfold u5
    exact (Kept.sub h4 rfl rfl List.filter_sublist (.refl _) (.refl _) (.refl _) (.refl _) (.refl _) (.refl _)
        (Area.each (fun _ => Area.f5) (fun _ => Area.f5) (fun _ => rfl) (fun _ => Area.f5) (fun _ => Area.f3) (fun _
        => rfl) (fun _ => Area.f4) (fun _ => Area.f8)))
  try clear_value u5
  exact (State.setH_kept (State.setHb_kept (forEach_kept h6 (fun _ _ h7 => (cycShadow_kept h7)))))

theorem snapCut_kept {z a0} (time : ¬K .time) (ha0 : Kept K z a0) : Kept K z (snapCut a0) := by
  unfold snapCut
  extract_lets +onlyGivenNames -merge -useContext u0
  have h1 : Kept K z u0 := (snapLatch_kept ha0)
  try clear_value u0
  exact (snapEpoch_kept (advanceTo_kept time h1))

theorem execSnapCut_kept {z a0} (time : ¬K .time) (ha0 : Kept K z a0) : ∀ t, (execSnapCut a0) = .next t → Kept K z t
    := by
  unfold execSnapCut
  refine done_kept ?_
  refine State.when_kept ?_ ?_
  · exact ha0
  · intro a11 h12
    refine Kept.ite (P := Kept K z) ?_ ?_
    · extract_lets +onlyGivenNames -merge -useContext u13
      extract_lets +onlyGivenNames -merge -useContext u14
      have h15 : Kept K z u14 := (advanceTo_kept time h12)
      try clear_value u14
      exact (State.when_kept h15 (fun _ h16 => (snapCut_kept time h16)))
    · exact (Kept.ite (P := Kept K z) (snapCut_kept time (advance_kept time h12)) h12)

theorem execSnapMoverCopy_kept {z a0 a1} (ha1 : Kept K z a1) : ∀ t, (execSnapMoverCopy a0 a1) = .next t → Kept K z t
    :=
  (done_kept (State.when_kept ha1 (fun _ h0 => (snapTouch_kept h0))))

theorem snapIdle_kept {z a0} (ha0 : Kept K z a0) : Kept K z (snapIdle a0) :=
  (Kept.ite (P := Kept K z) (setSnapState_kept ha0) ha0)

theorem snapDone_kept {z a0} (ha0 : Kept K z a0) : Kept K z (snapDone a0) := by
  unfold snapDone
  extract_lets +onlyGivenNames -merge -useContext u0
  have h1 : Kept K z u0 := (forEach_kept ha0 (fun _ _ h2 => (snapTouch_kept h2)))
  try clear_value u0
  extract_lets +onlyGivenNames -merge -useContext u3
  have h4 : Kept K z u3 := (State.setHb_kept h1)
  try clear_value u3
  extract_lets +onlyGivenNames -merge -useContext u5
  have h6 : Kept K z u5 := by
    unfold u5
    exact (Kept.sub h4 rfl rfl List.filter_sublist (.refl _) (.refl _) (.refl _) (.refl _) (.refl _) (.refl _)
        (Area.each (fun _ => Area.f5) (fun _ => Area.f5) (fun _ => rfl) (fun _ => Area.f5) (fun _ => Area.f3) (fun _
        => rfl) (fun _ => Area.f4) (fun _ => Area.f8)))
  try clear_value u5
  extract_lets +onlyGivenNames -merge -useContext u7
  exact (snapIdle_kept (raise_kept (State.setReg_kept h6)))

theorem execSnapDone_kept {z a0} (ha0 : Kept K z a0) : ∀ t, (execSnapDone a0) = .next t → Kept K z t :=
  (done_kept (State.when_kept ha0 (fun _ h0 => (snapDone_kept h0))))

theorem fsDone_kept {z a0} (ha0 : Kept K z a0) : Kept K z (fsDone a0) := by
  unfold fsDone
  extract_lets +onlyGivenNames -merge -useContext u0 u1
  have h2 : Kept K z u1 := (forEach_kept ha0 (fun _ _ h3 => (Kept.ite (P := Kept K z) (State.setTab_kept h3) h3)))
  try clear_value u1
  extract_lets +onlyGivenNames -merge -useContext u4
  have h5 : Kept K z u4 := by
    unfold u4
    exact (Kept.sub h2 rfl rfl (.refl _) List.filter_sublist (.refl _) (.refl _) (.refl _) (.refl _) (.refl _)
        (Area.each (fun _ => Area.f5) (fun _ => Area.f5) (fun _ => rfl) (fun _ => Area.f5) (fun _ => Area.f3) (fun _
        => rfl) (fun _ => Area.f4) (fun _ => Area.f8)))
  try clear_value u4
  exact (snapIdle_kept (raise_kept (State.setRbit_kept h5)))

theorem execFsDone_kept {z a0} (ha0 : Kept K z a0) : ∀ t, (execFsDone a0) = .next t → Kept K z t :=
  (done_kept (State.when_kept ha0 (fun _ h0 => (fsDone_kept h0))))

theorem snapReg_kept {z a0 a1 a2 a3} (ha3 : Kept K z a3) : ∀ t0, (snapReg a0 a1 a2 a3) = some t0 → Kept K z t0 := by
  unfold snapReg
  refine Kept.ite (P := fun x : Option State => ∀ t0, x = some t0 → Kept K z t0) ?_ ?_
  · exact (Kept.some (snapCtl_kept ha3))
  · refine Kept.ite (P := fun x : Option State => ∀ t0, x = some t0 → Kept K z t0) ?_ ?_
    · exact (Kept.some (fsCfg_kept ha3))
    · refine Kept.ite (P := fun x : Option State => ∀ t0, x = some t0 → Kept K z t0) ?_ ?_
      · exact (Kept.some (snapRefuse_kept ha3))
      · exact Kept.none

end Sys2Proof.Machine
end

