-- ==== Sys2Proof/Laws/KeptOtn.lean ====
section
/-!
SUPPORT. Every operation and meaning of Machine/Otn.lean keeps the state sane, its queue as it is and its outputs made.
-/
namespace Sys2Proof.Machine

variable {K : Area → Prop}

theorem detect_kept {z a0 a1 a2 a3} (ha3 : Kept K z a3) : Kept K z (detect a0 a1 a2 a3) := by
  unfold detect
  extract_lets +onlyGivenNames -merge -useContext u0
  exact (State.setH_kept ha3)

theorem forget_kept {z a0 a1 a2 a3} (ha3 : Kept K z a3) : Kept K z (forget a0 a1 a2 a3) :=
  (forEach_kept (forEach_kept ha3 (fun _ _ h0 => (forEach_kept h0 (fun _ _ h1 => (State.setH_kept h1))))) (fun _ _
      h2 => (State.setH_kept h2)))

theorem ttiRx_kept {z a0 a1 a2 a3 a4} (ha4 : Kept K z a4) : Kept K z (ttiRx a0 a1 a2 a3 a4) := by
  unfold ttiRx
  extract_lets +onlyGivenNames -merge -useContext u0 u1 u2 u3 u4
  have h5 : Kept K z u4 := (State.setTab_kept ha4)
  try clear_value u4
  extract_lets +onlyGivenNames -merge -useContext u6 u7
  have h8 : Kept K z u7 := (State.setH_kept h5)
  try clear_value u7
  refine Kept.ite (P := Kept K z) ?_ ?_
  · exact h8
  · extract_lets +onlyGivenNames -merge -useContext u9
    extract_lets +onlyGivenNames -merge -useContext u10
    have h11 : Kept K z u10 := (State.setH_kept (State.setTab_kept h8))
    try clear_value u10
    exact (Kept.ite (P := Kept K z) (raise_kept (State.setTab_kept h11)) h11)

theorem defUpdate_kept {z a0 a1 a2 a3} (ha3 : Kept K z a3) : Kept K z (defUpdate a0 a1 a2 a3) := by
  unfold defUpdate
  extract_lets +onlyGivenNames -merge -useContext u0
  split
  · extract_lets +onlyGivenNames -merge -useContext u4
    extract_lets +onlyGivenNames -merge -useContext u5 u6
    have h7 : Kept K z u6 := (State.setH_kept (State.setReg_kept (State.setReg_kept ha3)))
    try clear_value u6
    extract_lets +onlyGivenNames -merge -useContext u8
    have h9 : Kept K z u8 := (Kept.ite (P := Kept K z) (forget_kept h7) h7)
    try clear_value u8
    extract_lets +onlyGivenNames -merge -useContext u10
    have h11 : Kept K z u10 := (Kept.ite (P := Kept K z) (forget_kept h9) h9)
    try clear_value u10
    extract_lets +onlyGivenNames -merge -useContext u12
    have h13 : Kept K z u12 := (Kept.ite (P := Kept K z) (forget_kept h11) h11)
    try clear_value u12
    refine Kept.ite (P := Kept K z) ?_ ?_
    · exact h13
    · extract_lets +onlyGivenNames -merge -useContext u14
      exact (raise_kept (State.setReg_kept h13))

theorem defRefresh_kept {z a0 a1} (ha1 : Kept K z a1) : Kept K z (defRefresh a0 a1) :=
  (defUpdate_kept ha1)

theorem latchC_kept {z a0 a1} (ha1 : Kept K z a1) : Kept K z (latchC a0 a1) :=
  (defRefresh_kept (State.setH_kept ha1))

theorem latchF_kept {z a0 a1} (ha1 : Kept K z a1) : Kept K z (latchF a0 a1) :=
  (defRefresh_kept (State.setH_kept ha1))

theorem setDefect_kept {z a0 a1 a2 a3} (ha3 : Kept K z a3) : Kept K z (setDefect a0 a1 a2 a3) :=
  (defUpdate_kept ha3)

theorem oof_kept {z a0 a1 a2} (agents : ¬K .agents) (ha2 : Kept K z a2) : Kept K z (oof a0 a1 a2) := by
  unfold oof
  extract_lets +onlyGivenNames -merge -useContext u0
  have h1 : Kept K z u0 := (Kept.ite (P := Kept K z) (bump_kept ha2) ha2)
  try clear_value u0
  extract_lets +onlyGivenNames -merge -useContext u2
  have h3 : Kept K z u2 := (State.setRbit_kept (State.setRbit_kept h1))
  try clear_value u2
  extract_lets +onlyGivenNames -merge -useContext u4
  have h5 : Kept K z u4 := (State.setH_kept h3)
  try clear_value u4
  exact (Kept.same h5 rfl (Area.each (fun _ => Area.f5) (fun _ => Area.f5) (fun _ => rfl) (fun _ => Area.f5) (fun _
      => Area.f3) (fun _ => rfl) (fun _ => Area.f4) (absurd · agents)))

theorem withPersist_kept {z a0} {a1 : State → State} {a2} (ha1 : ∀ y0_0, (Kept K z y0_0) → Kept K z (a1 y0_0)) (ha2
    : Kept K z a2) : Kept K z (withPersist a0 a1 a2) := by
  unfold withPersist
  extract_lets +onlyGivenNames -merge -useContext u0
  have h1 : Kept K z u0 := (ha1 _ ha2)
  try clear_value u0
  exact (forEach_kept h1 (fun _ _ h2 => (Kept.ite (P := Kept K z) h2 (State.setH_kept h2))))

theorem execFlexoLock_kept {z a0 a1 a2 a3} (agents : ¬K .agents) (ha3 : Kept K z a3) : ∀ t, (execFlexoLock a0 a1 a2
    a3) = .next t → Kept K z t := by
  unfold execFlexoLock
  refine done_kept ?_
  refine State.when_kept ?_ ?_
  · exact ha3
  · intro a30 h31
    refine withPersist_kept ?_ ?_
    · intro a34 h35
      extract_lets +onlyGivenNames -merge -useContext u36 u37
      have h38 : Kept K z u37 := (State.setReg_kept h35)
      try clear_value u37
      extract_lets +onlyGivenNames -merge -useContext u39
      have h40 : Kept K z u39 := by
        unfold u39
        refine forEach_kept ?_ ?_
        · exact h38
        · intro a44 a45 h46
          split
          · exact (State.setH_kept h46)
      try clear_value u39
      exact (Kept.ite (P := Kept K z) (State.setH_kept h40) (forEach_kept (State.setH_kept h40) (fun _ _ h49 =>
          (oof_kept agents h49))))
    · exact h31

theorem execFlexoLockLoss_kept {z a0 a1 a2} (agents : ¬K .agents) (ha2 : Kept K z a2) : ∀ t, (execFlexoLockLoss a0
    a1 a2) = .next t → Kept K z t := by
  unfold execFlexoLockLoss
  refine done_kept ?_
  refine State.when_kept ?_ ?_
  · exact ha2
  · intro a17 h18
    refine withPersist_kept ?_ ?_
    · intro a21 h22
      extract_lets +onlyGivenNames -merge -useContext u23
      exact (oof_kept agents (State.setH_kept h22))
    · exact h18

theorem execFasSighting_kept {z a0 a1 a2 a3 a4} (agents : ¬K .agents) (ha4 : Kept K z a4) : ∀ t, (execFasSighting a0
    a1 a2 a3 a4) = .next t → Kept K z t :=
  (done_kept (State.when_kept ha4 (fun _ h0 => (Kept.same h0 rfl (Area.each (fun _ => Area.f5) (fun _ => Area.f5)
      (fun _ => rfl) (fun _ => Area.f5) (fun _ => Area.f3) (fun _ => rfl) (fun _ => Area.f4) (absurd · agents))))))

theorem confirm_kept {z a0 a1 a2 a3} (agents : ¬K .agents) (ha3 : Kept K z a3) : Kept K z (confirm a0 a1 a2 a3) := by
  unfold confirm
  extract_lets +onlyGivenNames -merge -useContext u0
  have h1 : Kept K z u0 := (Kept.same ha3 rfl (Area.each (fun _ => Area.f5) (fun _ => Area.f5) (fun _ => rfl) (fun _
      => Area.f5) (fun _ => Area.f3) (fun _ => rfl) (fun _ => Area.f4) (absurd · agents)))
  try clear_value u0
  extract_lets +onlyGivenNames -merge -useContext u2
  have h3 : Kept K z u2 := (State.setRbit_kept (State.setRbit_kept h1))
  try clear_value u2
  extract_lets +onlyGivenNames -merge -useContext u4
  have h5 : Kept K z u4 := (State.setH_kept (State.setH_kept (State.setH_kept h3)))
  try clear_value u4
  exact (Kept.ite (P := Kept K z) (State.setRfld_kept h5) h5)

theorem candCheck_kept {z a0 a1 a2 a3} (agents : ¬K .agents) (ha3 : Kept K z a3) : Kept K z (candCheck a0 a1 a2 a3)
    := by
  unfold candCheck
  extract_lets +onlyGivenNames -merge -useContext u0 u1 u2 u3
  have h4 : Kept K z u3 := (bumpBy_kept ha3)
  try clear_value u3
  extract_lets +onlyGivenNames -merge -useContext u5 u6
  have h7 : Kept K z u6 := (Kept.same h4 rfl (Area.each (fun _ => Area.f5) (fun _ => Area.f5) (fun _ => rfl) (fun _
      => Area.f5) (fun _ => Area.f3) (fun _ => rfl) (fun _ => Area.f4) (absurd · agents)))
  try clear_value u6
  split
  · exact h7
  · exact (confirm_kept agents h7)
  · extract_lets +onlyGivenNames -merge -useContext u11
    have h12 : Kept K z u11 := (Kept.same h7 rfl (Area.each (fun _ => Area.f5) (fun _ => Area.f5) (fun _ => rfl)
        (fun _ => Area.f5) (fun _ => Area.f3) (fun _ => rfl) (fun _ => Area.f4) (absurd · agents)))
    try clear_value u11
    exact (raise_kept (bump_kept h12))

theorem execCandidateCheck_kept {z a0 a1 a2 a3} (agents : ¬K .agents) (ha3 : Kept K z a3) : ∀ t, (execCandidateCheck
    a0 a1 a2 a3) = .next t → Kept K z t :=
  (done_kept (State.when_kept ha3 (fun _ h0 => (withPersist_kept (fun _ h1 => (candCheck_kept agents h1)) h0))))

theorem fasCheck_kept {z a0 a1 a2 a3} (agents : ¬K .agents) (ha3 : Kept K z a3) : Kept K z (fasCheck a0 a1 a2 a3) :=
  (Kept.ite (P := Kept K z) (State.setH_kept ha3) (Kept.ite (P := Kept K z) (oof_kept agents ha3) (State.setH_kept
      ha3)))

theorem mfasCheck_kept {z a0 a1 a2 a3} (ha3 : Kept K z a3) : Kept K z (mfasCheck a0 a1 a2 a3) := by
  unfold mfasCheck
  refine Kept.ite (P := Kept K z) ?_ ?_
  · exact ha3
  · extract_lets +onlyGivenNames -merge -useContext u0
    extract_lets +onlyGivenNames -merge -useContext u1 u2 u3
    have h4 : Kept K z u3 := (State.setH_kept (State.setH_kept ha3))
    try clear_value u3
    extract_lets +onlyGivenNames -merge -useContext u5
    have h6 : Kept K z u5 := (Kept.ite (P := Kept K z) (State.setRfld_kept h4) h4)
    try clear_value u5
    exact (Kept.ite (P := Kept K z) (State.setRbit_kept h6) (Kept.ite (P := Kept K z) (State.setRbit_kept h6) h6))

theorem lastBip_kept {z a0 a1 a2 a3 a4} (ha4 : Kept K z a4) : Kept K z (lastBip a0 a1 a2 a3 a4) :=
  (State.setH_kept ha4)

theorem bipCount_kept {z a0 a1 a2 a3 a4 a5} (ha5 : Kept K z a5) : Kept K z (bipCount a0 a1 a2 a3 a4 a5) := by
  unfold bipCount
  extract_lets +onlyGivenNames -merge -useContext u0
  have h1 : Kept K z u0 := (bumpBy_kept ha5)
  try clear_value u0
  extract_lets +onlyGivenNames -merge -useContext u2
  have h3 : Kept K z u2 := (Kept.ite (P := Kept K z) h1 (State.setH_kept h1))
  try clear_value u2
  split
  · extract_lets +onlyGivenNames -merge -useContext u5
    exact (Kept.ite (P := Kept K z) (bumpBy_kept h3) h3)
  · exact h3

theorem rxOtuc_kept {z a0 a1 a2 a3 a4 a5 a6} (agents : ¬K .agents) (ha6 : Kept K z a6) : Kept K z (rxOtuc a0 a1 a2
    a3 a4 a5 a6) := by
  unfold rxOtuc
  refine Kept.ite (P := Kept K z) ?_ ?_
  · exact ha6
  · extract_lets +onlyGivenNames -merge -useContext u0
    have h1 : Kept K z u0 := (latchC_kept ha6)
    try clear_value u0
    extract_lets +onlyGivenNames -merge -useContext u2
    have h3 : Kept K z u2 := (mfasCheck_kept (fasCheck_kept agents h1))
    try clear_value u2
    extract_lets +onlyGivenNames -merge -useContext u4
    have h5 : Kept K z u4 := (lastBip_kept (lastBip_kept h3))
    try clear_value u4
    extract_lets +onlyGivenNames -merge -useContext u6 u7 u8 u9
    have h10 : Kept K z u9 := (bipCount_kept h5)
    try clear_value u9
    extract_lets +onlyGivenNames -merge -useContext u11
    have h12 : Kept K z u11 := (detect_kept h10)
    try clear_value u11
    extract_lets +onlyGivenNames -merge -useContext u13
    have h14 : Kept K z u13 := (detect_kept h12)
    try clear_value u13
    extract_lets +onlyGivenNames -merge -useContext u15
    have h16 : Kept K z u15 := (Kept.ite (P := Kept K z) h5 (detect_kept h14))
    try clear_value u15
    extract_lets +onlyGivenNames -merge -useContext u17
    have h18 : Kept K z u17 := (Kept.ite (P := Kept K z) (ttiRx_kept h16) h16)
    try clear_value u17
    extract_lets +onlyGivenNames -merge -useContext u19
    have h20 : Kept K z u19 := (bipCount_kept h18)
    try clear_value u19
    extract_lets +onlyGivenNames -merge -useContext u21
    have h22 : Kept K z u21 := (detect_kept h20)
    try clear_value u21
    extract_lets +onlyGivenNames -merge -useContext u23
    have h24 : Kept K z u23 := (Kept.ite (P := Kept K z) h18 (Kept.ite (P := Kept K z) (ttiRx_kept h22) h22))
    try clear_value u23
    exact (defRefresh_kept h24)

theorem detectStat_kept {z a0 a1 a2 a3} (ha3 : Kept K z a3) : Kept K z (detectStat a0 a1 a2 a3) := by
  unfold detectStat
  refine forEach_kept ?_ ?_
  · exact ha3
  · intro a2 a3 h4
    split
    · exact (detect_kept h4)

theorem tcmStat_kept {z a0 a1 a2 a3} (ha3 : Kept K z a3) : Kept K z (tcmStat a0 a1 a2 a3) := by
  unfold tcmStat
  extract_lets +onlyGivenNames -merge -useContext u0 u1 u2
  have h3 : Kept K z u2 := (State.setH_kept ha3)
  try clear_value u2
  exact (Kept.ite (P := Kept K z) (State.setRfld_kept h3) h3)

theorem rxTcm_kept {z a0 a1 a2 a3 a4} (ha4 : Kept K z a4) : Kept K z (rxTcm a0 a1 a2 a3 a4) := by
  unfold rxTcm
  refine Kept.ite (P := Kept K z) ?_ ?_
  · exact ha4
  · extract_lets +onlyGivenNames -merge -useContext u0
    extract_lets +onlyGivenNames -merge -useContext u1 u2
    have h3 : Kept K z u2 := (Kept.ite (P := Kept K z) ha4 (bipCount_kept ha4))
    try clear_value u2
    extract_lets +onlyGivenNames -merge -useContext u4
    have h5 : Kept K z u4 := (detect_kept h3)
    try clear_value u4
    extract_lets +onlyGivenNames -merge -useContext u6
    have h7 : Kept K z u6 := (detectStat_kept h5)
    try clear_value u6
    extract_lets +onlyGivenNames -merge -useContext u8
    have h9 : Kept K z u8 := (detect_kept h7)
    try clear_value u8
    exact (ttiRx_kept (tcmStat_kept h9))

theorem rxOduflex_kept {z a0 a1 a2 a3 a4} (ha4 : Kept K z a4) : Kept K z (rxOduflex a0 a1 a2 a3 a4) := by
  unfold rxOduflex
  extract_lets +onlyGivenNames -merge -useContext u0
  have h1 : Kept K z u0 := (lastBip_kept (latchF_kept ha4))
  try clear_value u0
  extract_lets +onlyGivenNames -merge -useContext u2
  refine Kept.ite (P := Kept K z) ?_ ?_
  · exact h1
  · extract_lets +onlyGivenNames -merge -useContext u3
    extract_lets +onlyGivenNames -merge -useContext u4
    have h5 : Kept K z u4 := (Kept.ite (P := Kept K z) h1 (bipCount_kept h1))
    try clear_value u4
    extract_lets +onlyGivenNames -merge -useContext u6
    have h7 : Kept K z u6 := (detect_kept h5)
    try clear_value u6
    extract_lets +onlyGivenNames -merge -useContext u8
    have h9 : Kept K z u8 := (detectStat_kept h7)
    try clear_value u8
    extract_lets +onlyGivenNames -merge -useContext u10
    have h11 : Kept K z u10 := (ttiRx_kept h9)
    try clear_value u10
    extract_lets +onlyGivenNames -merge -useContext u12
    have h13 : Kept K z u12 := by
      unfold u12
      refine forEach_kept ?_ ?_
      · exact h11
      · intro a17 a18 h19
        split
        · exact (Kept.ite (P := Kept K z) (rxTcm_kept h19) (rxTcm_kept h19))
    try clear_value u12
    exact (defRefresh_kept h13)

theorem ptRx_kept {z a0 a1 a2 a3} (ha3 : Kept K z a3) : Kept K z (ptRx a0 a1 a2 a3) := by
  unfold ptRx
  extract_lets +onlyGivenNames -merge -useContext u0 u1 u2
  have h3 : Kept K z u2 := (State.setH_kept ha3)
  try clear_value u2
  extract_lets +onlyGivenNames -merge -useContext u4 u5
  exact (Kept.ite (P := Kept K z) (raise_kept (State.setRfld_kept h3)) h3)

theorem otnRx_kept {z a0 a1 a2} (agents : ¬K .agents) (ha2 : Kept K z a2) : Kept K z (otnRx a0 a1 a2) := by
  unfold otnRx
  split
  · extract_lets +onlyGivenNames -merge -useContext u4
    have h5 : Kept K z u4 := (detect_kept ha2)
    try clear_value u4
    extract_lets +onlyGivenNames -merge -useContext u6
    have h7 : Kept K z u6 := (detect_kept h5)
    try clear_value u6
    exact (defRefresh_kept (detect_kept h7))
  · exact (Kept.ite (P := Kept K z) (rxOtuc_kept agents ha2) ha2)
  · exact (rxOduflex_kept ha2)
  · exact (defRefresh_kept (State.setHb_kept (ptRx_kept (latchC_kept ha2))))
  · exact (defRefresh_kept (detect_kept (ptRx_kept (latchF_kept ha2))))

theorem execOtnFrameRx_kept {z a0 a1 a2} (agents : ¬K .agents) (ha2 : Kept K z a2) : ∀ t, (execOtnFrameRx a0 a1 a2)
    = .next t → Kept K z t :=
  (done_kept (State.when_kept ha2 (fun _ h0 => (withPersist_kept (fun _ h1 => (otnRx_kept agents h1)) h0))))

theorem defectTimer_kept {z a0 a1 a2} (time : ¬K .time) (ha2 : Kept K z a2) : Kept K z (defectTimer a0 a1 a2) := by
  unfold defectTimer
  extract_lets +onlyGivenNames -merge -useContext u0 u1
  refine Kept.ite (P := Kept K z) ?_ ?_
  · exact (Kept.ite (P := Kept K z) (setDefect_kept (waitRoot_kept time ha2)) ha2)
  · extract_lets +onlyGivenNames -merge -useContext u2
    extract_lets +onlyGivenNames -merge -useContext u3
    exact (Kept.ite (P := Kept K z) ha2 (setDefect_kept (waitSince_kept time ha2)))

theorem execDefectPersistTimer_kept {z a0 a1 a2} (time : ¬K .time) (ha2 : Kept K z a2) : ∀ t,
    (execDefectPersistTimer a0 a1 a2) = .next t → Kept K z t :=
  (done_kept (State.when_kept ha2 (fun _ h0 => (defectTimer_kept time h0))))

theorem execSignalLoss_kept {z a0 a1 a2} (frames : ¬K .frames) (ha2 : Kept K z a2) : ∀ t, (execSignalLoss a0 a1 a2)
    = .next t → Kept K z t := by
  unfold execSignalLoss
  extract_lets +onlyGivenNames -merge -useContext u0
  have h1 : Kept K z u0 := (State.when_kept ha2 (fun _ h2 => (signalLoss_kept frames h2)))
  try clear_value u0
  exact (done_kept (State.when_kept h1 (fun _ h3 => (setDefect_kept h3))))

theorem degLayer_kept {z a0 a1 a2 a3 a4 a5} (ha5 : Kept K z a5) : Kept K z (degLayer a0 a1 a2 a3 a4 a5).2 := by
  unfold degLayer
  extract_lets +onlyGivenNames -merge -useContext u0 u1 u2
  have h3 : Kept K z u2 := (State.setH_kept ha5)
  try clear_value u2
  refine Kept.ite (P := fun x : Bool × State => Kept K z x.2) ?_ ?_
  · try dsimp -zeta only
    exact (State.setH_kept h3)
  · refine Kept.ite (P := fun x : Bool × State => Kept K z x.2) ?_ ?_
    · try dsimp -zeta only
      exact (State.setH_kept h3)
    · extract_lets +onlyGivenNames -merge -useContext u4
      try dsimp -zeta only
      exact (State.setH_kept h3)

theorem degInterval_kept {z a0 a1} (ha1 : Kept K z a1) : Kept K z (degInterval a0 a1) := by
  unfold degInterval
  extract_lets +onlyGivenNames -merge -useContext u0 u1 u2
  split
  · rename_i m3 m4 q5
    have h6 : Kept K z m4 := Kept.of_eq (P := fun x : Bool × State => Kept K z x.2) q5 (degLayer_kept ha1)
    split
    · rename_i m7 m8 q9
      have h10 : Kept K z m8 := Kept.of_eq (P := fun x : Bool × State => Kept K z x.2) q9 (degLayer_kept h6)
      split
      · rename_i m11 m12 q13
        have h14 : Kept K z m12 := Kept.of_eq (P := fun x : Bool × State => Kept K z x.2) q13 (degLayer_kept h10)
        split
        · rename_i m15 m16 q17
          have h18 : Kept K z m16 := Kept.of_eq (P := fun x : ℕ × State => Kept K z x.2) q17 (by
            refine Kept.foldl (P := fun x : ℕ × State => Kept K z x.2) ?_ ?_
            · try dsimp -zeta only
              exact h14
            · intro x20 y21 h19
              split
              · rename_i m22 m23
                have h25 : Kept K z m23 := h19
                extract_lets +onlyGivenNames -merge -useContext u26
                split
                · rename_i m27 m28 q29
                  have h30 : Kept K z m28 := Kept.of_eq (P := fun x : Bool × State => Kept K z x.2) q29
                      (degLayer_kept h25)
                  try dsimp -zeta only
                  exact h30)
          exact (defUpdate_kept h18)

theorem execDegInterval_kept {z a0 a1} (time : ¬K .time) (ha1 : Kept K z a1) : ∀ t, (execDegInterval a0 a1) = .next
    t → Kept K z t :=
  (done_kept (State.when_kept ha1 (fun _ h0 => (atInstant_kept time (fun _ h1 => (State.setH_kept (degInterval_kept
      h1))) h0))))

theorem caStart_kept {z a0 a1 a2} (ha2 : Kept K z a2) : Kept K z (caStart a0 a1 a2) := by
  unfold caStart
  extract_lets +onlyGivenNames -merge -useContext u0 u1 u2
  have h3 : Kept K z u2 := (State.setH_kept ha2)
  try clear_value u2
  extract_lets +onlyGivenNames -merge -useContext u4
  have h5 : Kept K z u4 := (Kept.ite (P := Kept K z) (faultSets_kept h3) h3)
  try clear_value u4
  exact (Kept.ite (P := Kept K z) (remoteUpdate_kept h5) h5)

theorem ohpCfgWrite_kept {z a0 a1 a2 a3} (ha3 : Kept K z a3) : Kept K z (ohpCfgWrite a0 a1 a2 a3) := by
  unfold ohpCfgWrite
  extract_lets +onlyGivenNames -merge -useContext u0 u1 u2
  refine Kept.ite (P := Kept K z) ?_ ?_
  · exact (errReq_kept ha3)
  · extract_lets +onlyGivenNames -merge -useContext u3
    extract_lets +onlyGivenNames -merge -useContext u4
    have h5 : Kept K z u4 := (storeReg_kept ha3)
    try clear_value u4
    exact (Kept.ite (P := Kept K z) (State.setHb_kept h5) h5)

theorem execOhpCfgWrite_kept {z a0 a1 a2 a3} (ha3 : Kept K z a3) : ∀ t, (execOhpCfgWrite a0 a1 a2 a3) = .next t →
    Kept K z t :=
  (done_kept (gateWrite_kept (fun _ h0 => (ohpCfgWrite_kept h0)) ha3))

theorem execRecentre_kept {z a0 a1 a2 a3} (ha3 : Kept K z a3) : ∀ t, (execRecentre a0 a1 a2 a3) = .next t → Kept K z
    t :=
  (done_kept (gateWrite_kept (fun _ h0 => (Kept.ite (P := Kept K z) (State.setHb_kept h0) h0)) ha3))

theorem setOhpFill_kept {z a0 a1 a2 a3} (ha3 : Kept K z a3) : Kept K z (setOhpFill a0 a1 a2 a3) :=
  (State.setRfld_kept ha3)

theorem recentre_kept {z a0 a1} (ha1 : Kept K z a1) : Kept K z (recentre a0 a1) := by
  unfold recentre
  extract_lets +onlyGivenNames -merge -useContext u0
  have h1 : Kept K z u0 := by
    unfold u0
    refine forEach_kept ?_ ?_
    · exact ha1
    · intro a5 a6 h7
      extract_lets +onlyGivenNames -merge -useContext u8 u9
      split
      · rename_i m10 m11 q12
        have h13 : Kept K z m11 := Kept.of_eq (P := fun x : ℕ × State => Kept K z x.2) q12 (State.free_kept h7)
        extract_lets +onlyGivenNames -merge -useContext u14
        exact (setOhpFill_kept (State.setH_kept h13))
  try clear_value u0
  exact (State.setHb_kept h1)

theorem ohpSlip_kept {z a0 a1 a2} (ha2 : Kept K z a2) : Kept K z (ohpSlip a0 a1 a2) :=
  (raiseFirst_kept (bump_kept ha2))

theorem ohpWrite_kept {z a0 a1 a2 a3} (ha3 : Kept K z a3) : Kept K z (ohpWrite a0 a1 a2 a3) := by
  unfold ohpWrite
  extract_lets +onlyGivenNames -merge -useContext u0
  exact (Kept.ite (P := Kept K z) (ohpSlip_kept ha3) (setOhpFill_kept (State.setH_kept ha3)))

theorem ohpRead_kept {z a0 a1 a2} (ha2 : Kept K z a2) : Kept K z (ohpRead a0 a1 a2).2 := by
  unfold ohpRead
  extract_lets +onlyGivenNames -merge -useContext u0 u1 u2
  refine Kept.ite (P := fun x : ℕ × State => Kept K z x.2) ?_ ?_
  · try dsimp -zeta only
    exact (ohpSlip_kept ha2)
  · try dsimp -zeta only
    exact (setOhpFill_kept (State.setH_kept (State.setH_kept ha2)))

theorem ohpFrame_kept {z a0 a1 a2} (ha2 : Kept K z a2) : Kept K z (ohpFrame a0 a1 a2) := by
  unfold ohpFrame
  extract_lets +onlyGivenNames -merge -useContext u0
  have h1 : Kept K z u0 := (Kept.ite (P := Kept K z) (recentre_kept ha2) ha2)
  try clear_value u0
  extract_lets +onlyGivenNames -merge -useContext u2 u3
  split
  · exact (Kept.ite (P := Kept K z) (ohpWrite_kept h1) h1)
  · refine Kept.ite (P := Kept K z) ?_ ?_
    · split
      · rename_i m6 m7 q8
        have h9 : Kept K z m7 := Kept.of_eq (P := fun x : ℕ × State => Kept K z x.2) q8 (ohpRead_kept h1)
        exact (State.emit_kept (bump_kept h9))
    · exact (State.emit_kept h1)
  · exact (Kept.ite (P := Kept K z) (ohpWrite_kept h1) h1)
  · refine Kept.ite (P := Kept K z) ?_ ?_
    · split
      · rename_i m12 m13 q14
        have h15 : Kept K z m13 := Kept.of_eq (P := fun x : ℕ × State => Kept K z x.2) q14 (ohpRead_kept h1)
        exact (State.setH_kept (State.emit_kept (bump_kept h15)))
    · exact (State.emit_kept h1)

theorem ohpEdge_kept {z a0 a1} (ha1 : Kept K z a1) : Kept K z (ohpEdge a0 a1) := by
  unfold ohpEdge
  extract_lets +onlyGivenNames -merge -useContext u0
  have h1 : Kept K z u0 := (State.setH_kept ha1)
  try clear_value u0
  exact (Kept.ite (P := Kept K z) (State.setHb_kept (State.setRbit_kept h1)) h1)

theorem execOhpFrameBoundary_kept {z a0 a1 a2} (ha2 : Kept K z a2) : ∀ t, (execOhpFrameBoundary a0 a1 a2) = .next t
    → Kept K z t := by
  unfold execOhpFrameBoundary
  refine done_kept ?_
  refine State.ifLive_kept ?_ ?_
  · exact ha2
  · intro a14 h15
    extract_lets +onlyGivenNames -merge -useContext u16
    have h17 : Kept K z u16 := by
      unfold u16
      split
      · exact (ohpEdge_kept h15)
      · exact (ohpEdge_kept h15)
      · exact h15
      · exact h15
    try clear_value u16
    exact (State.when_kept h17 (fun _ h22 => (ohpFrame_kept h22)))

theorem execClkLoss_kept {z a0 a1} (time : ¬K .time) (ha1 : Kept K z a1) : ∀ t, (execClkLoss a0 a1) = .next t → Kept
    K z t :=
  (done_kept (State.when_kept ha1 (fun _ h0 => (raise_kept (State.setRbit_kept (waitSince_kept time h0))))))

theorem execOhpClkReturn_kept {z a0 a1} (ha1 : Kept K z a1) : ∀ t, (execOhpClkReturn a0 a1) = .next t → Kept K z t :=
  (done_kept (State.ifLive_kept ha1 (fun _ h0 => (ohpEdge_kept h0))))

theorem clkMeas_kept {z a0 a1} (ha1 : Kept K z a1) : Kept K z (clkMeas a0 a1).2 := by
  unfold clkMeas
  extract_lets +onlyGivenNames -merge -useContext u0
  refine Kept.ite (P := fun x : ℕ × State => Kept K z x.2) ?_ ?_
  · try dsimp -zeta only
    exact ha1
  · split
    · rename_i m1 m2 q3
      have h4 : Kept K z m2 := Kept.of_eq (P := fun x : ℕ × State => Kept K z x.2) q3 (State.free_kept ha1)
      try dsimp -zeta only
      exact (State.setH_kept (State.setReg_kept h4))

theorem ohpTake_kept {z a0 a1 a2 a3} (ha3 : Kept K z a3) : Kept K z (ohpTake a0 a1 a2 a3).2 := by
  unfold ohpTake
  refine Kept.ite (P := fun x : ℕ × State => Kept K z x.2) ?_ ?_
  · extract_lets +onlyGivenNames -merge -useContext u0
    have h1 : Kept K z u0 := (Kept.ite (P := Kept K z) (ohpFrame_kept ha3) ha3)
    try clear_value u0
    extract_lets +onlyGivenNames -merge -useContext u2
    try dsimp -zeta only
    exact (State.setH_kept h1)
  · try dsimp -zeta only
    exact ha3

theorem gccTx_kept {z a0 a1 a2} (ha2 : Kept K z a2) : Kept K z (gccTx a0 a1 a2).2 := by
  unfold gccTx
  split
  · rename_i m0 m1 q2
    have h3 : Kept K z m1 := Kept.of_eq (P := fun x : ℕ × State => Kept K z x.2) q2 (ohpTake_kept ha2)
    split
    · rename_i m4 m5 q6
      have h7 : Kept K z m5 := Kept.of_eq (P := fun x : ℕ × State => Kept K z x.2) q6 (ohpTake_kept h3)
      try dsimp -zeta only
      exact h7

theorem ttiTake_kept {z a0 a1 a2 a3} (ha3 : Kept K z a3) : Kept K z (ttiTake a0 a1 a2 a3).2 := by
  unfold ttiTake
  extract_lets +onlyGivenNames -merge -useContext u0 u1
  have h2 : Kept K z u1 := (Kept.ite (P := Kept K z) (State.setTab_kept ha3) ha3)
  try clear_value u1
  try dsimp -zeta only
  exact h2

theorem monBytes_kept {z a0 a1 a2 a3 a4} (ha4 : Kept K z a4) : Kept K z (monBytes a0 a1 a2 a3 a4).2 := by
  unfold monBytes
  split
  · rename_i m0 m1 q2
    have h3 : Kept K z m1 := Kept.of_eq (P := fun x : ℕ × State => Kept K z x.2) q2 (State.free_kept ha4)
    try dsimp -zeta only
    exact h3

theorem otucSlice_kept {z a0 a1 a2 a3 a4 a5 a6} (ha6 : Kept K z a6) : Kept K z (otucSlice a0 a1 a2 a3 a4 a5 a6) := by
  unfold otucSlice
  extract_lets +onlyGivenNames -merge -useContext u0
  split
  · rename_i m1 m2 q3
    have h4 : Kept K z m2 := Kept.of_eq (P := fun x : List Byte × State => Kept K z x.2) q3 (monBytes_kept ha6)
    split
    · rename_i m5 m6 q7
      have h8 : Kept K z m6 := Kept.of_eq (P := fun x : List Byte × State => Kept K z x.2) q7 (monBytes_kept h4)
      extract_lets +onlyGivenNames -merge -useContext u9 u10 u11
      split
      · rename_i m12 m13 q14
        have h15 : Kept K z m13 := Kept.of_eq (P := fun x : ℕ × State => Kept K z x.2) q14 (State.free_kept h8)
        exact (State.emit_kept h15)

theorem otucTx_kept {z a0 a1} (ha1 : Kept K z a1) : Kept K z (otucTx a0 a1) := by
  unfold otucTx
  extract_lets +onlyGivenNames -merge -useContext u0
  split
  · rename_i m1 m2 q3
    have h4 : Kept K z m2 := Kept.of_eq (P := fun x : ℕ × State => Kept K z x.2) q3 (ttiTake_kept ha1)
    split
    · rename_i m5 m6 q7
      have h8 : Kept K z m6 := Kept.of_eq (P := fun x : ℕ × State => Kept K z x.2) q7 (ttiTake_kept h4)
      split
      · rename_i m9 m10 q11
        have h12 : Kept K z m10 := Kept.of_eq (P := fun x : ℕ × State => Kept K z x.2) q11 (gccTx_kept h8)
        exact (State.setH_kept (forEach_kept h12 (fun _ _ h13 => (otucSlice_kept h13))))

theorem oduflexTx_kept {z a0 a1} (ha1 : Kept K z a1) : Kept K z (oduflexTx a0 a1) := by
  unfold oduflexTx
  extract_lets +onlyGivenNames -merge -useContext u0 u1
  have h2 : Kept K z u1 := (State.setH_kept ha1)
  try clear_value u1
  extract_lets +onlyGivenNames -merge -useContext u3
  split
  · rename_i m4 m5 q6
    have h7 : Kept K z m5 := Kept.of_eq (P := fun x : ℕ × State => Kept K z x.2) q6 (ttiTake_kept h2)
    split
    · rename_i m8 m9 q10
      have h11 : Kept K z m9 := Kept.of_eq (P := fun x : ℕ × State => Kept K z x.2) q10 (gccTx_kept h7)
      extract_lets +onlyGivenNames -merge -useContext u12
      split
      · rename_i m13 m14 q15
        have h16 : Kept K z m14 := Kept.of_eq (P := fun x : List Byte × State => Kept K z x.2) q15 (monBytes_kept h11)
        extract_lets +onlyGivenNames -merge -useContext u17 u18 u19 u20 u21 u22 u23
        exact (State.setH_kept (State.emit_kept h16))

theorem flexoTx_kept {z a0 a1} (ha1 : Kept K z a1) : Kept K z (flexoTx a0 a1) :=
  (forEach_kept ha1 (fun _ _ h0 => (State.emit_kept h0)))

theorem otnSend_kept {z a0} {a1 : State → State} {a2} (ha1 : ∀ y0_0, (Kept K z y0_0) → Kept K z (a1 y0_0)) (ha2 :
    Kept K z a2) : Kept K z (otnSend a0 a1 a2) :=
  (Kept.ite (P := Kept K z) ha2 (ha1 _ ha2))

theorem caBoundary_kept {z a0 a1 a2} (ha2 : Kept K z a2) : Kept K z (caBoundary a0 a1 a2) := by
  unfold caBoundary
  split
  · exact (caStart_kept (latchC_kept ha2))
  · exact (caStart_kept (latchF_kept ha2))
  · exact (otnSend_kept (fun _ h3 => (flexoTx_kept h3)) (caStart_kept ha2))
  · exact (otnSend_kept (fun _ h5 => (otucTx_kept h5)) (caStart_kept ha2))
  · exact (otnSend_kept (fun _ h7 => (oduflexTx_kept h7)) (caStart_kept ha2))

theorem execConsequentActionBoundary_kept {z a0 a1 a2} (ha2 : Kept K z a2) : ∀ t, (execConsequentActionBoundary a0
    a1 a2) = .next t → Kept K z t :=
  (done_kept (State.when_kept ha2 (fun _ h0 => (caBoundary_kept h0))))

theorem execTxForceApply_kept {z a0 a1} (ha1 : Kept K z a1) : ∀ t, (execTxForceApply a0 a1) = .next t → Kept K z t :=
  (done_kept (State.when_kept ha1 (fun _ h0 => (caBoundary_kept h0))))

end Sys2Proof.Machine
end

