-- ==== Sys2Proof/Laws/KeptBlock.lean ====
section
/-!
SUPPORT. Every operation and meaning of Machine/Block.lean keeps the state sane, its queue as it is and its outputs made.
-/
namespace Sys2Proof.Machine

variable {K : Area → Prop}

theorem dropHeld_kept {z a0 a1} (frames : ¬K .frames) (fabric : ¬K .fabric) (ha1 : Kept K z a1) : Kept K z (dropHeld
    a0 a1) := by
  unfold dropHeld
  split
  · exact (queueLeft_kept frames fabric (State.drop_kept frames ha1))
  · exact (State.drop_kept frames ha1)

theorem dropPage_kept {z a0 a1} (frames : ¬K .frames) (fabric : ¬K .fabric) (ha1 : Kept K z a1) : Kept K z (dropPage
    a0 a1) :=
  (forEach_kept ha1 (fun _ _ h0 => (dropHeld_kept frames fabric h0)))

theorem rxStop_kept {z a0 a1} (frames : ¬K .frames) (ha1 : Kept K z a1) : Kept K z (rxStop a0 a1) := by
  unfold rxStop
  extract_lets +onlyGivenNames -merge -useContext u0
  refine Kept.ite (P := Kept K z) ?_ ?_
  · exact ha1
  · extract_lets +onlyGivenNames -merge -useContext u1
    have h2 : Kept K z u1 := (State.setH_kept ha1)
    try clear_value u1
    split
    · exact (Kept.ite (P := Kept K z) (State.drop_kept frames h2) (State.putFrame_kept frames h2))
    · exact h2

theorem withReachAll_kept {z a0} {a1 : State → State} {a2} (fabric : ¬K .fabric) (ha1 : ∀ y0_0, (Kept K z y0_0) →
    Kept K z (a1 y0_0)) (ha2 : Kept K z a2) : Kept K z (withReachAll a0 a1 a2) := by
  unfold withReachAll
  extract_lets +onlyGivenNames -merge -useContext u0 u1
  have h2 : Kept K z u1 := (ha1 _ ha2)
  try clear_value u1
  extract_lets +onlyGivenNames -merge -useContext u3
  have h4 : Kept K z u3 := (forEach_kept h2 (fun _ _ h5 => (Kept.ite (P := Kept K z) h5 (raise_kept h5))))
  try clear_value u3
  exact (reachGained_kept fabric ha2 h4)

theorem hostStop_kept {z a0} (frames : ¬K .frames) (ha0 : Kept K z a0) : Kept K z (hostStop a0) := by
  unfold hostStop
  extract_lets +onlyGivenNames -merge -useContext u0
  have h1 : Kept K z u0 := (forEach_kept (abandonReads_kept frames (stopRequests_kept frames ha0)) (fun _ _ h2 =>
      (State.setH_kept h2)))
  try clear_value u0
  exact (forEach_kept h1 (fun _ _ h3 => (injFlush_kept frames h3)))

theorem stopBlock_kept {z a0 a1} (frames : ¬K .frames) (fabric : ¬K .fabric) (dram : ¬K .dram) (ha1 : Kept K z a1) :
    Kept K z (stopBlock a0 a1) := by
  unfold stopBlock
  split
  · exact (dropPage_kept frames fabric (rxStop_kept frames ha1))
  · exact (cellsDrop_kept frames fabric (dropPage_kept frames fabric ha1))
  · exact (forEach_kept (dropPage_kept frames fabric ha1) (fun _ _ h3 => (txLost_kept fabric (reachClear_kept h3))))
  · exact (dscDisable_kept frames dram ha1)
  · exact (State.setH_kept (capoDisarm_kept ha1))
  · exact (forEach_kept (dropPage_kept frames fabric ha1) (fun _ _ h7 => (State.setH_kept h7)))
  · exact (timeStop_kept ha1)
  · exact (dropPage_kept frames fabric (hostStop_kept frames ha1))
  · extract_lets +onlyGivenNames -merge -useContext u11
    have h12 : Kept K z u11 := (forEach_kept ha1 (fun _ _ h13 => (forEach_kept h13 (fun _ _ h14 => (agentFree_kept
        frames h14)))))
    try clear_value u11
    extract_lets +onlyGivenNames -merge -useContext u15
    have h16 : Kept K z u15 := (forEach_kept (dropPage_kept frames fabric h12) (fun _ _ h17 => (State.setH_kept h17)))
    try clear_value u15
    exact (Kept.same h16 rfl (Area.each (absurd · frames) (fun _ => Area.f5) (fun _ => rfl) (fun _ => Area.f5) (fun
        _ => Area.f3) (fun _ => rfl) (fun _ => Area.f4) (fun _ => Area.f8)))
  · exact (fretClear_kept ha1)
  · exact (writesStop_kept frames (dropPage_kept frames fabric ha1))
  · exact (dropPage_kept frames fabric ha1)

theorem clearLists_kept {z a0 a1 a2} (frames : ¬K .frames) (fabric : ¬K .fabric) (learn : ¬K .learn) (intStacks : ¬K
    .intStacks) (agents : ¬K .agents) (ha2 : Kept K z a2) : Kept K z (clearLists a0 a1 a2) := by
  unfold clearLists
  split
  · exact (Kept.sub ha2 rfl rfl (.refl _) (.refl _) (.refl _) (.refl _) (.refl _) (.refl _) (List.nil_sublist _)
      (Area.each (fun _ => Area.f5) (fun _ => Area.f5) (fun _ => rfl) (fun _ => Area.f5) (absurd · learn) (fun _ =>
      rfl) (fun _ => Area.f4) (fun _ => Area.f8)))
  · exact (Kept.sub ha2 rfl rfl (.refl _) (.refl _) (.refl _) (.refl _) (.refl _) (List.nil_sublist _) (.refl _)
      (Area.each (fun _ => Area.f5) (fun _ => Area.f5) (fun _ => rfl) (fun _ => Area.f5) (fun _ => Area.f3) (absurd
      · intStacks) (fun _ => Area.f4) (fun _ => Area.f8)))
  · exact (Kept.same ha2 rfl (Area.each (fun _ => Area.f5) (fun _ => Area.f5) (fun _ => rfl) (fun _ => Area.f5) (fun
      _ => Area.f3) (fun _ => rfl) (fun _ => Area.f4) (absurd · agents)))
  · exact (Kept.same ha2 rfl (Area.each (fun _ => Area.f5) (absurd · fabric) (fun _ => rfl) (fun _ => Area.f5) (fun
      _ => Area.f3) (fun _ => rfl) (fun _ => Area.f4) (fun _ => Area.f8)))
  · exact (Kept.sub ha2 rfl rfl (.refl _) (.refl _) (.refl _) (.refl _) (List.nil_sublist _) (.refl _) (.refl _)
      (Area.each (absurd · frames) (fun _ => Area.f5) (fun _ => rfl) (fun _ => Area.f5) (fun _ => Area.f3) (fun _ =>
      rfl) (fun _ => Area.f4) (fun _ => Area.f8)))
  · exact (Kept.same ha2 rfl (Area.each (fun _ => Area.f5) (fun _ => Area.f5) (fun _ => rfl) (fun _ => Area.f5) (fun
      _ => Area.f3) (fun _ => rfl) (fun _ => Area.f4) (absurd · agents)))
  · exact (Kept.same ha2 rfl (Area.each (absurd · frames) (fun _ => Area.f5) (fun _ => rfl) (fun _ => Area.f5) (fun
      _ => Area.f3) (fun _ => rfl) (fun _ => Area.f4) (fun _ => Area.f8)))
  · exact (Kept.same ha2 rfl (Area.each (fun _ => Area.f5) (fun _ => Area.f5) (fun _ => rfl) (fun _ => Area.f5) (fun
      _ => Area.f3) (fun _ => rfl) (fun _ => Area.f4) (absurd · agents)))
  · exact (Kept.same ha2 rfl (Area.each (fun _ => Area.f5) (fun _ => Area.f5) (fun _ => rfl) (fun _ => Area.f5) (fun
      _ => Area.f3) (fun _ => rfl) (fun _ => Area.f4) (absurd · agents)))
  · exact ha2

theorem clearWork_kept {z a0 a1} (frames : ¬K .frames) (fabric : ¬K .fabric) (learn : ¬K .learn) (intStacks : ¬K
    .intStacks) (agents : ¬K .agents) (ha1 : Kept K z a1) : Kept K z (clearWork a0 a1) := by
  unfold clearWork
  split
  · exact (clearLists_kept frames fabric learn intStacks agents (Kept.sub ha1 rfl rfl (.refl _) (.refl _) (.refl _)
      List.filter_sublist (.refl _) (.refl _) (.refl _) (Area.each (fun _ => Area.f5) (fun _ => Area.f5) (fun _ =>
      rfl) (fun _ => Area.f5) (fun _ => Area.f3) (fun _ => rfl) (fun _ => Area.f4) (fun _ => Area.f8))))
  · exact ha1

theorem restart_kept {z a0 a1} (frames : ¬K .frames) (ha1 : Kept K z a1) : Kept K z (restart a0 a1) := by
  unfold restart
  split
  · exact (shapeRestart_kept ha1)
  · exact (polRestart_kept ha1)
  · exact (pfeRearm_kept ha1)
  · exact (forEach_kept ha1 (fun _ _ h4 => (forEach_kept h4 (fun _ _ h5 => (State.setH_kept h5)))))
  · exact (l2Rebase_kept ha1)
  · exact (State.setH_kept ha1)
  · exact (ageRaise_kept frames ha1)
  · exact (coverUpdate_kept ha1)
  · exact (coverUpdate_kept ha1)
  · exact (intcUpdate_kept ha1)
  · exact (clearMarks_kept ha1)
  · exact (mirrorSts_kept ha1)
  · exact (State.when_kept ha1 (fun _ h15 => (State.setReg_kept (State.setReg_kept h15))))
  · exact (State.when_kept ha1 (fun _ h17 => (forEach_kept h17 (fun _ _ h18 => (pegStatus_kept h18)))))
  · exact ha1

theorem lgStop_kept {z a0 a1} (frames : ¬K .frames) (ha1 : Kept K z a1) : Kept K z (lgStop a0 a1) :=
  (forEach_kept ha1 (fun _ _ h0 => (Kept.ite (P := Kept K z) (setLink_kept frames h0) h0)))

theorem beforeReset_kept {z a0 a1} (frames : ¬K .frames) (ha1 : Kept K z a1) : Kept K z (beforeReset a0 a1) := by
  unfold beforeReset
  split
  · exact (lgStop_kept frames ha1)
  · exact ha1

theorem State.clearSchedules_kept {z a0} (ha0 : Kept K z a0) : Kept K z (State.clearSchedules a0) :=
  (Kept.sub ha0 rfl rfl (.refl _) List.filter_sublist (.refl _) (.refl _) (.refl _) (.refl _) (.refl _) (Area.each
      (fun _ => Area.f5) (fun _ => Area.f5) (fun _ => rfl) (fun _ => Area.f5) (fun _ => Area.f3) (fun _ => rfl) (fun
      _ => Area.f4) (fun _ => Area.f8)))

theorem softReset_kept {z a0 a1} (frames : ¬K .frames) (fabric : ¬K .fabric) (learn : ¬K .learn) (intStacks : ¬K
    .intStacks) (dram : ¬K .dram) (agents : ¬K .agents) (ha1 : Kept K z a1) : Kept K z (softReset a0 a1) := by
  unfold softReset
  extract_lets +onlyGivenNames -merge -useContext u0 u1
  have h2 : ∀ y0_0, (Kept K z y0_0) → Kept K z (u1 y0_0) := by
    unfold u1
    intro a5 h6
    extract_lets +onlyGivenNames -merge -useContext u7
    have h8 : Kept K z u7 := (perfSync_kept h6)
    try clear_value u7
    extract_lets +onlyGivenNames -merge -useContext u9
    have h10 : Kept K z u9 := (forEach_kept h8 (fun _ _ h11 => (snapTouch_kept h11)))
    try clear_value u9
    extract_lets +onlyGivenNames -merge -useContext u12
    have h13 : Kept K z u12 := (clearWork_kept frames fabric learn intStacks agents (stopBlock_kept frames fabric
        dram (beforeReset_kept frames h10)))
    try clear_value u12
    extract_lets +onlyGivenNames -merge -useContext u14
    have h15 : Kept K z u14 := by
      unfold u14
      exact (Kept.sub h13 rfl rfl List.filter_sublist (.refl _) (.refl _) (.refl _) (.refl _) (.refl _) (.refl _)
          (Area.each (fun _ => Area.f5) (fun _ => Area.f5) (fun _ => rfl) (fun _ => Area.f5) (fun _ => Area.f3) (fun
          _ => rfl) (fun _ => Area.f4) (fun _ => Area.f8)))
    try clear_value u14
    extract_lets +onlyGivenNames -merge -useContext u16
    have h17 : Kept K z u16 := (State.setH_kept (State.setReg_kept h15))
    try clear_value u16
    exact (restart_kept frames (Kept.ite (P := Kept K z) (State.clearSchedules_kept h17) h17))
  try clear_value u1
  split
  · exact (withReachAll_kept fabric h2 ha1)
  · exact (lockChange_kept h2 ha1)
  · exact (lockChange_kept h2 ha1)
  · exact (h2 _ ha1)

theorem enable_kept {z a0 a1} (fabric : ¬K .fabric) (ha1 : Kept K z a1) : Kept K z (enable a0 a1) := by
  unfold enable
  refine Kept.ite (P := Kept K z) ?_ ?_
  · exact ha1
  · extract_lets +onlyGivenNames -merge -useContext u0
    have h1 : ∀ y0_0, (Kept K z y0_0) → Kept K z (u0 y0_0) := (fun _ h2 => (State.setRbit_kept (perfSync_kept h2)))
    try clear_value u0
    split
    · exact (shapeRestart_kept (h1 _ ha1))
    · exact (pfeRearm_kept (h1 _ ha1))
    · exact (timeStart_kept (h1 _ ha1))
    · exact (l2Rebase_kept (h1 _ ha1))
    · exact (bringupStart_kept (perfSync_kept ha1))
    · exact (withReachAll_kept fabric h1 ha1)
    · exact (intcUpdate_kept (h1 _ ha1))
    · exact (h1 _ ha1)

theorem disable_kept {z a0 a1} (frames : ¬K .frames) (fabric : ¬K .fabric) (dram : ¬K .dram) (ha1 : Kept K z a1) :
    Kept K z (disable a0 a1) := by
  unfold disable
  refine Kept.ite (P := Kept K z) ?_ ?_
  · exact ha1
  · extract_lets +onlyGivenNames -merge -useContext u0
    have h1 : ∀ y0_0, (Kept K z y0_0) → Kept K z (u0 y0_0) := (fun _ h2 => (State.setRbit_kept (stopBlock_kept
        frames fabric dram (perfSync_kept h2))))
    try clear_value u0
    split
    · exact (dscDisable_kept frames dram (State.setRbit_kept (perfSync_kept ha1)))
    · exact (withReachAll_kept fabric h1 ha1)
    · exact (intcUpdate_kept (h1 _ ha1))
    · exact (h1 _ ha1)

end Sys2Proof.Machine
end

