-- ==== Sys2Proof/Laws/KeptFirmware.lean ====
section
/-!
SUPPORT. Every operation and meaning of Machine/Firmware.lean keeps the state sane, its queue as it is and its outputs made.
-/
namespace Sys2Proof.Machine

variable {K : Area → Prop}

theorem cacheImage_kept {z a0 a1 a2} (memory : ¬K .memory) (ha2 : Kept K z a2) : Kept K z (cacheImage a0 a1 a2) := by
  unfold cacheImage
  split
  · exact ha2
  · extract_lets +onlyGivenNames -merge -useContext u2
    exact (State.setH_kept (State.wrMem_kept memory ha2))

theorem cacheClear_kept {z a0} (memory : ¬K .memory) (ha0 : Kept K z a0) : Kept K z (cacheClear a0) :=
  (forEach_kept (State.eraseMem_kept memory ha0) (fun _ _ h0 => (State.setH_kept h0)))

theorem pegCheck_kept {z a0 a1} (ha1 : Kept K z a1) : Kept K z (pegCheck a0 a1) := by
  unfold pegCheck
  extract_lets +onlyGivenNames -merge -useContext u0 u1
  have h2 : Kept K z u1 := (pegStatus_kept (bumpBy_kept ha1))
  try clear_value u1
  exact (Kept.ite (P := Kept K z) (raise_kept h2) h2)

theorem readPegbox_kept {z a0} (ha0 : Kept K z a0) : Kept K z (readPegbox a0) := by
  unfold readPegbox
  extract_lets +onlyGivenNames -merge -useContext u0
  have h1 : Kept K z u0 := (forEach_kept ha0 (fun _ _ h2 => (pegCheck_kept h2)))
  try clear_value u0
  extract_lets +onlyGivenNames -merge -useContext u3
  have h4 : Kept K z u3 := (State.setReg_kept h1)
  try clear_value u3
  extract_lets +onlyGivenNames -merge -useContext u5
  exact (State.setH_kept (State.setH_kept h4))

theorem startEngines_kept {z a0 a1 a2} (memory : ¬K .memory) (ha2 : Kept K z a2) : Kept K z (startEngines a0 a1
    a2).2 := by
  induction a1 generalizing a2 with
  | nil => exact ha2
  | cons i is ih =>
    unfold startEngines
    split
    · exact ih (mrImage_kept (cacheImage_kept memory ha2))
    · exact ha2

theorem startFrom_kept {z a0 a1} (memory : ¬K .memory) (ha1 : Kept K z a1) : Kept K z (startFrom a0 a1).2 := by
  unfold startFrom
  extract_lets +onlyGivenNames -merge -useContext u0
  have h1 : ∀ y0_0 y0_1 y0_2, (Kept K z y0_2) → Kept K z (u0 y0_0 y0_1 y0_2).2 := by
    unfold u0
    intro a4 a5 a6 h7
    try dsimp -zeta only
    exact (cacheClear_kept memory (loadErr_kept h7))
  try clear_value u0
  split
  · rename_i m8 m9 m10 q11
    have h12 : Kept K z m10 := Kept.of_eq (P := fun x : Option (ℕ × ℕ) × State => Kept K z x.2) q11
        (startEngines_kept memory ha1)
    exact (h1 _ _ _ h12)
  · rename_i m13 q14
    have h15 : Kept K z m13 := Kept.of_eq (P := fun x : Option (ℕ × ℕ) × State => Kept K z x.2) q14
        (startEngines_kept memory ha1)
    split
    · extract_lets +onlyGivenNames -merge -useContext u17
      have h18 : Kept K z u17 := (State.setH_kept (State.setH_kept (State.setReg_kept h15)))
      try clear_value u17
      try dsimp -zeta only
      exact (State.setH_kept h18)
    · exact (h1 _ _ _ h15)

theorem askLoad_kept {z a0 a1} (agents : ¬K .agents) (ha1 : Kept K z a1) : Kept K z (askLoad a0 a1) := by
  unfold askLoad
  refine Kept.ite (P := Kept K z) ?_ ?_
  · exact ha1
  · extract_lets +onlyGivenNames -merge -useContext u0
    have h1 : Kept K z u0 := (State.setH_kept ha1)
    try clear_value u0
    exact (Kept.ite (P := Kept K z) h1 (flashAsk_kept agents h1))

theorem bootSlots_kept {z a0} (memory : ¬K .memory) (ha0 : Kept K z a0) : Kept K z (bootSlots a0) := by
  unfold bootSlots
  extract_lets +onlyGivenNames -merge -useContext u0
  split
  · rename_i m1 q2
    have h3 : Kept K z m1 := Kept.of_eq (P := fun x : Bool × State => Kept K z x.2) q2 (startFrom_kept memory ha0)
    exact h3
  · rename_i m4 q5
    have h6 : Kept K z m4 := Kept.of_eq (P := fun x : Bool × State => Kept K z x.2) q5 (startFrom_kept memory ha0)
    extract_lets +onlyGivenNames -merge -useContext u7
    have h8 : Kept K z u7 := (raise_kept (State.setReg_kept h6))
    try clear_value u7
    split
    · rename_i m9 q10
      have h11 : Kept K z m9 := Kept.of_eq (P := fun x : Bool × State => Kept K z x.2) q10 (startFrom_kept memory h8)
      exact h11
    · rename_i m12 q13
      have h14 : Kept K z m12 := Kept.of_eq (P := fun x : Bool × State => Kept K z x.2) q13 (startFrom_kept memory h8)
      extract_lets +onlyGivenNames -merge -useContext u15
      have h16 : Kept K z u15 := (State.setHb_kept (State.setReg_kept h14))
      try clear_value u15
      exact (raise_kept (State.setH_kept h16))

theorem bootStart_kept {z a0 a1} (memory : ¬K .memory) (agents : ¬K .agents) (ha1 : Kept K z a1) : Kept K z
    (bootStart a0 a1) := by
  unfold bootStart
  extract_lets +onlyGivenNames -merge -useContext u0
  have h1 : Kept K z u0 := (State.setHb_kept (State.setH_kept ha1))
  try clear_value u0
  extract_lets +onlyGivenNames -merge -useContext u2
  have h3 : Kept K z u2 := (forEach_kept h1 (fun _ _ h4 => (State.setRbit_kept h4)))
  try clear_value u2
  extract_lets +onlyGivenNames -merge -useContext u5
  have h6 : Kept K z u5 := (readPegbox_kept (mrConfig_kept h3))
  try clear_value u5
  extract_lets +onlyGivenNames -merge -useContext u7 u8
  have h9 : Kept K z u8 := (State.setHb_kept (mrConfig_kept (mrConfig_kept h6)))
  try clear_value u8
  extract_lets +onlyGivenNames -merge -useContext u10
  have h11 : Kept K z u10 := (bootSlots_kept memory h9)
  try clear_value u10
  refine forEach_kept ?_ ?_
  · exact h11
  · intro a14 a15 h16
    extract_lets +onlyGivenNames -merge -useContext u17
    exact (Kept.ite (P := Kept K z) (askLoad_kept agents h16) h16)

theorem execBootStart_kept {z a0 a1} (memory : ¬K .memory) (time : ¬K .time) (agents : ¬K .agents) (ha1 : Kept K z
    a1) : ∀ t, (execBootStart a0 a1) = .next t → Kept K z t :=
  (done_kept (State.when_kept ha1 (fun _ h0 => (bootStart_kept memory agents (waitRoot_kept time h0)))))

theorem eloSend_kept {z a0 a1 a2} (ha2 : Kept K z a2) : Kept K z (eloSend a0 a1 a2) :=
  (State.emit_kept ha2)

theorem eloAnswer_kept {z a0 a1 a2 a3 a4} (agents : ¬K .agents) (ha4 : Kept K z a4) : Kept K z (eloAnswer a0 a1 a2
    a3 a4) := by
  unfold eloAnswer
  extract_lets +onlyGivenNames -merge -useContext u0 u1
  have h2 : Kept K z u1 := (bump_kept ha4)
  try clear_value u1
  extract_lets +onlyGivenNames -merge -useContext u3
  have h4 : Kept K z u3 := (Kept.same h2 rfl (Area.each (fun _ => Area.f5) (fun _ => Area.f5) (fun _ => rfl) (fun _
      => Area.f5) (fun _ => Area.f3) (fun _ => rfl) (fun _ => Area.f4) (absurd · agents)))
  try clear_value u3
  exact (eloSend_kept (State.setH_kept (State.setH_kept h4)))

theorem eloBad_kept {z a0 a1} (ha1 : Kept K z a1) : Kept K z (eloBad a0 a1) :=
  (eloSend_kept (bump_kept ha1))

theorem pegAsk_kept {z a0 a1 a2} (agents : ¬K .agents) (ha2 : Kept K z a2) : Kept K z (pegAsk a0 a1 a2) :=
  (Kept.same ha2 rfl (Area.each (fun _ => Area.f5) (fun _ => Area.f5) (fun _ => rfl) (fun _ => Area.f5) (fun _ =>
      Area.f3) (fun _ => rfl) (fun _ => Area.f4) (absurd · agents)))

theorem setBoot_kept {z a0 a1} (agents : ¬K .agents) (ha1 : Kept K z a1) : Kept K z (setBoot a0 a1).2.2 := by
  unfold setBoot
  refine Kept.ite (P := fun x : ℕ × List Byte × State => Kept K z x.2.2) ?_ ?_
  · try dsimp -zeta only
    try dsimp -zeta only
    exact ha1
  · extract_lets +onlyGivenNames -merge -useContext u0
    try dsimp -zeta only
    try dsimp -zeta only
    exact (pegAsk_kept agents ha1)

theorem eloServes_kept {z a0 a1} (memory : ¬K .memory) (agents : ¬K .agents) (ha1 : Kept K z a1) : Kept K z
    (eloServes a0 a1).2.2 := by
  unfold eloServes
  split
  · try dsimp -zeta only
    try dsimp -zeta only
    exact ha1
  · try dsimp -zeta only
    try dsimp -zeta only
    exact ha1
  · refine Kept.ite (P := fun x : ℕ × List Byte × State => Kept K z x.2.2) ?_ ?_
    · try dsimp -zeta only
      try dsimp -zeta only
      exact ha1
    · extract_lets +onlyGivenNames -merge -useContext u5
      try dsimp -zeta only
      try dsimp -zeta only
      exact (State.wrMem_kept memory ha1)
  · try dsimp -zeta only
    try dsimp -zeta only
    exact ha1
  · exact (setBoot_kept agents ha1)

theorem flashNext_kept {z a0 a1} (memory : ¬K .memory) (agents : ¬K .agents) (ha1 : Kept K z a1) : Kept K z
    (flashNext a0 a1) := by
  induction a0 generalizing a1 with
  | zero => exact ha1
  | succ n ih =>
    unfold flashNext
    split
    · split
      · exact ha1
      · rename_i q
        exact ih (eloAnswer_kept agents (flashEnd_kept agents (Kept.of_eq (P := fun x : Nat × List Byte × State =>
            Kept K z x.2.2) q
          (eloServes_kept memory agents ha1))))
    · refine Kept.ite (P := Kept K z) ?_ ha1
      split
      rename_i q
      exact State.setH_kept (Kept.snd q (State.free_kept ha1))
    · exact ha1

theorem flashGo_kept {z a0} (memory : ¬K .memory) (agents : ¬K .agents) (ha0 : Kept K z a0) : Kept K z (flashGo a0) :=
  (flashNext_kept memory agents ha0)

theorem execProcessorLoad_kept {z a0 a1} (memory : ¬K .memory) (agents : ¬K .agents) (ha1 : Kept K z a1) : ∀ t,
    (execProcessorLoad a0 a1) = .next t → Kept K z t :=
  (done_kept (State.when_kept ha1 (fun _ h0 => (Kept.ite (P := Kept K z) (engineLoad_kept memory h0) (flashGo_kept
      memory agents (coreLoad_kept memory h0))))))

theorem keyRevoke_kept {z a0 a1 a2} (ha2 : Kept K z a2) : Kept K z (keyRevoke a0 a1 a2) := by
  unfold keyRevoke
  extract_lets +onlyGivenNames -merge -useContext u0 u1
  exact (Kept.ite (P := Kept K z) (errReq_kept ha2) (mrConfig_kept (State.setReg_kept ha2)))

theorem execKeyRevoke_kept {z a0 a1 a2} (ha2 : Kept K z a2) : ∀ t, (execKeyRevoke a0 a1 a2) = .next t → Kept K z t :=
  (done_kept (gateWrite_kept (fun _ h0 => (keyRevoke_kept h0)) ha2))

theorem svnCommit_kept {z a0 a1 a2} (agents : ¬K .agents) (ha2 : Kept K z a2) : Kept K z (svnCommit a0 a1 a2) := by
  unfold svnCommit
  extract_lets +onlyGivenNames -merge -useContext u0
  refine Kept.ite (P := Kept K z) ?_ ?_
  · exact (errReq_kept ha2)
  · extract_lets +onlyGivenNames -merge -useContext u1
    extract_lets +onlyGivenNames -merge -useContext u2 u3
    exact (pegAsk_kept agents ha2)

theorem execSvnCommit_kept {z a0 a1 a2} (agents : ¬K .agents) (ha2 : Kept K z a2) : ∀ t, (execSvnCommit a0 a1 a2) =
    .next t → Kept K z t :=
  (done_kept (gateWrite_kept (fun _ h0 => (svnCommit_kept agents h0)) ha2))

theorem engReload_kept {z a0 a1 a2} (memory : ¬K .memory) (agents : ¬K .agents) (ha2 : Kept K z a2) : Kept K z
    (engReload a0 a1 a2) := by
  unfold engReload
  extract_lets +onlyGivenNames -merge -useContext u0 u1
  exact (Kept.ite (P := Kept K z) (errReq_kept ha2) (flashGo_kept memory agents (flashAsk_kept agents ha2)))

theorem execEngReload_kept {z a0 a1 a2} (memory : ¬K .memory) (agents : ¬K .agents) (ha2 : Kept K z a2) : ∀ t,
    (execEngReload a0 a1 a2) = .next t → Kept K z t :=
  (done_kept (gateWrite_kept (fun _ h0 => (engReload_kept memory agents h0)) ha2))

theorem engReloadDone_kept {z a0} (memory : ¬K .memory) (time : ¬K .time) (agents : ¬K .agents) (ha0 : Kept K z a0)
    : Kept K z (engReloadDone a0) := by
  unfold engReloadDone
  split
  · extract_lets +onlyGivenNames -merge -useContext u2
    have h3 : Kept K z u2 := (Kept.ite (P := Kept K z) ha0 (waitRoot_kept time ha0))
    try clear_value u2
    extract_lets +onlyGivenNames -merge -useContext u4
    have h5 : Kept K z u4 := (flashEnd_kept agents (State.setH_kept h3))
    try clear_value u4
    refine flashGo_kept memory agents ?_
    split
    · extract_lets +onlyGivenNames -merge -useContext u12
      have h13 : Kept K z u12 := (mrImage_kept (cacheImage_kept memory h5))
      try clear_value u12
      exact (Kept.ite (P := Kept K z) h13 (engineStart_kept memory h13))
    · exact (loadErr_kept h5)
  · exact ha0

theorem execEngReloadDone_kept {z a0} (memory : ¬K .memory) (time : ¬K .time) (agents : ¬K .agents) (ha0 : Kept K z
    a0) : ∀ t, (execEngReloadDone a0) = .next t → Kept K z t :=
  (done_kept (engReloadDone_kept memory time agents ha0))

theorem slotCheckDone_kept {z a0} (memory : ¬K .memory) (agents : ¬K .agents) (ha0 : Kept K z a0) : Kept K z
    (slotCheckDone a0) := by
  unfold slotCheckDone
  split
  · extract_lets +onlyGivenNames -merge -useContext u2
    have h3 : Kept K z u2 := (flashEnd_kept agents ha0)
    try clear_value u2
    exact (flashGo_kept memory agents (Kept.ite (P := Kept K z) (State.setReg_kept h3) (errBy_kept h3)))
  · exact ha0

theorem execRunSlotCheckDone_kept {z a0} (memory : ¬K .memory) (agents : ¬K .agents) (ha0 : Kept K z a0) : ∀ t,
    (execRunSlotCheckDone a0) = .next t → Kept K z t :=
  (done_kept (slotCheckDone_kept memory agents ha0))

theorem runSlot_kept {z a0 a1 a2} (memory : ¬K .memory) (agents : ¬K .agents) (ha2 : Kept K z a2) : Kept K z
    (runSlot a0 a1 a2) :=
  (Kept.ite (P := Kept K z) (errReq_kept ha2) (flashGo_kept memory agents (flashAsk_kept agents ha2)))

theorem execRunSlotWrite_kept {z a0 a1 a2} (memory : ¬K .memory) (agents : ¬K .agents) (ha2 : Kept K z a2) : ∀ t,
    (execRunSlotWrite a0 a1 a2) = .next t → Kept K z t :=
  (done_kept (gateWrite_kept (fun _ h0 => (runSlot_kept memory agents h0)) ha2))

theorem eloGate_kept {z a0 a1 a2} {a3 : State → State} {a4} (ha3 : ∀ y0_0, (Kept K z y0_0) → Kept K z (a3 y0_0))
    (ha4 : Kept K z a4) : Kept K z (eloGate a0 a1 a2 a3 a4) :=
  (Kept.ite (P := Kept K z) ha4 (Kept.ite (P := Kept K z) (eloBad_kept ha4) (Kept.ite (P := Kept K z) (eloSend_kept
      ha4) (Kept.ite (P := Kept K z) (State.setH_kept ha4) (Kept.ite (P := Kept K z) (eloSend_kept (State.setH_kept
      ha4)) (ha3 _ ha4))))))

theorem eloAsk_kept {z a0 a1 a2 a3} (memory : ¬K .memory) (agents : ¬K .agents) (ha3 : Kept K z a3) : Kept K z
    (eloAsk a0 a1 a2 a3) := by
  unfold eloAsk
  refine eloGate_kept ?_ ?_
  · intro a2 h3
    split
    · exact (flashGo_kept memory agents (flashAsk_kept agents (State.setH_kept h3)))
    · exact (eloAnswer_kept agents h3)
  · exact ha3

theorem execHello_kept {z a0 a1 a2} (time : ¬K .time) (agents : ¬K .agents) (ha2 : Kept K z a2) : ∀ t, (execHello a0
    a1 a2) = .next t → Kept K z t := by
  unfold execHello
  extract_lets +onlyGivenNames -merge -useContext u0 u1
  have h2 : Kept K z u1 := (Kept.ite (P := Kept K z) (waitRoot_kept time ha2) ha2)
  try clear_value u1
  extract_lets +onlyGivenNames -merge -useContext u3 u4
  have h5 : Kept K z u4 := (State.setH_kept (State.setReg_kept (State.setReg_kept h2)))
  try clear_value u4
  extract_lets +onlyGivenNames -merge -useContext u6
  have h7 : Kept K z u6 := (Kept.ite (P := Kept K z) (raise_kept (State.setH_kept h5)) h2)
  try clear_value u6
  exact (done_kept (eloGate_kept (fun _ h8 => (eloAnswer_kept agents h8)) h7))

theorem execSlotInfo_kept {z a0 a1 a2} (memory : ¬K .memory) (agents : ¬K .agents) (ha2 : Kept K z a2) : ∀ t,
    (execSlotInfo a0 a1 a2) = .next t → Kept K z t :=
  (done_kept (eloAsk_kept memory agents ha2))

theorem execErase_kept {z a0 a1 a2} (memory : ¬K .memory) (agents : ¬K .agents) (ha2 : Kept K z a2) : ∀ t,
    (execErase a0 a1 a2) = .next t → Kept K z t :=
  (done_kept (eloAsk_kept memory agents ha2))

theorem eraseDone_kept {z a0 a1} (memory : ¬K .memory) (agents : ¬K .agents) (ha1 : Kept K z a1) : Kept K z
    (eraseDone a0 a1) := by
  unfold eraseDone
  split
  · extract_lets +onlyGivenNames -merge -useContext u2
    have h3 : Kept K z u2 := (Kept.ite (P := Kept K z) (State.eraseMem_kept memory ha1) ha1)
    try clear_value u2
    exact (flashGo_kept memory agents (eloAnswer_kept agents (flashEnd_kept agents h3)))
  · exact ha1

theorem execEraseDone_kept {z a0 a1} (memory : ¬K .memory) (agents : ¬K .agents) (ha1 : Kept K z a1) : ∀ t,
    (execEraseDone a0 a1) = .next t → Kept K z t :=
  (done_kept (eraseDone_kept memory agents ha1))

theorem execEloatalWrite_kept {z a0 a1 a2 a3 a4} (memory : ¬K .memory) (agents : ¬K .agents) (ha4 : Kept K z a4) : ∀
    t, (execEloatalWrite a0 a1 a2 a3 a4) = .next t → Kept K z t :=
  (done_kept (eloAsk_kept memory agents ha4))

theorem execEloatalRead_kept {z a0 a1 a2 a3 a4} (memory : ¬K .memory) (agents : ¬K .agents) (ha4 : Kept K z a4) : ∀
    t, (execEloatalRead a0 a1 a2 a3 a4) = .next t → Kept K z t :=
  (done_kept (eloAsk_kept memory agents ha4))

theorem execSetBoot_kept {z a0 a1 a2} (memory : ¬K .memory) (agents : ¬K .agents) (ha2 : Kept K z a2) : ∀ t,
    (execSetBoot a0 a1 a2) = .next t → Kept K z t :=
  (done_kept (eloAsk_kept memory agents ha2))

theorem execEloatalReset_kept {z a0 a1} (frames : ¬K .frames) (fabric : ¬K .fabric) (memory : ¬K .memory) (time : ¬K
    .time) (learn : ¬K .learn) (intStacks : ¬K .intStacks) (dram : ¬K .dram) (agents : ¬K .agents) (ha1 : Kept K z
    a1) : ∀ t, (execEloatalReset a0 a1) = .next t → Kept K z t :=
  (done_kept (eloGate_kept (fun _ h0 => (Kept.ite (P := Kept K z) (deviceReset_kept frames fabric memory time learn
      intStacks dram agents (waitRoot_kept time (eloAnswer_kept agents h0))) (eloAnswer_kept agents h0))) ha1))

theorem execSpdmRequest_kept {z a0 a1 a2} (time : ¬K .time) (agents : ¬K .agents) (ha2 : Kept K z a2) : ∀ t,
    (execSpdmRequest a0 a1 a2) = .next t → Kept K z t := by
  unfold execSpdmRequest
  refine done_kept ?_
  split
  · exact (Kept.ite (P := Kept K z) ha2 (doeRequest_kept agents (doeGo_kept agents ha2)))
  · refine eloGate_kept ?_ ?_
    · intro a14 h15
      split
      · rename_i m16 m17 q18
        have h19 : Kept K z m17 := Kept.of_eq (P := fun x : List Byte × State => Kept K z x.2) q18 (eloSpdm_kept
            time agents h15)
        exact (eloAnswer_kept agents h19)
    · exact ha2

theorem pegStore_kept {z a0 a1 a2} (agents : ¬K .agents) (ha2 : Kept K z a2) : Kept K z (pegStore a0 a1 a2) := by
  unfold pegStore
  extract_lets +onlyGivenNames -merge -useContext u0 u1 u2
  have h3 : ∀ y0_0, Kept K z (u2 y0_0) := (fun _ => (errReq_kept (State.setReg_kept ha2)))
  try clear_value u2
  refine Kept.ite (P := Kept K z) ?_ ?_
  · exact (h3 _)
  · refine Kept.ite (P := Kept K z) ?_ ?_
    · exact (h3 _)
    · refine Kept.ite (P := Kept K z) ?_ ?_
      · exact (h3 _)
      · refine Kept.ite (P := Kept K z) ?_ ?_
        · exact (h3 _)
        · extract_lets +onlyGivenNames -merge -useContext u4
          have h5 : Kept K z u4 := (State.setReg_kept ha2)
          try clear_value u4
          exact (Kept.same h5 rfl (Area.each (fun _ => Area.f5) (fun _ => Area.f5) (fun _ => rfl) (fun _ => Area.f5)
              (fun _ => Area.f3) (fun _ => rfl) (fun _ => Area.f4) (absurd · agents)))

theorem execStore_kept {z a0 a1 a2} (agents : ¬K .agents) (ha2 : Kept K z a2) : ∀ t, (execStore a0 a1 a2) = .next t
    → Kept K z t :=
  (done_kept (gateWrite_kept (fun _ h0 => (pegStore_kept agents h0)) ha2))

theorem jobSts_kept {z a0 a1 a2} (ha2 : Kept K z a2) : Kept K z (jobSts a0 a1 a2) :=
  (Kept.ite (P := Kept K z) (State.setReg_kept ha2) ha2)

theorem storeGood_kept {z a0 a1} (memory : ¬K .memory) (ha1 : Kept K z a1) : Kept K z (storeGood a0 a1) := by
  unfold storeGood
  extract_lets +onlyGivenNames -merge -useContext u0
  have h1 : Kept K z u0 := (pegCommit_kept memory (jobSts_kept ha1))
  try clear_value u0
  exact (Kept.ite (P := Kept K z) (raise_kept (mrConfig_kept h1)) (Kept.ite (P := Kept K z) (mrConfig_kept h1) h1))

theorem storeBad_kept {z a0 a1} (memory : ¬K .memory) (ha1 : Kept K z a1) : Kept K z (storeBad a0 a1) := by
  unfold storeBad
  extract_lets +onlyGivenNames -merge -useContext u0 u1
  have h2 : Kept K z u1 := (State.eraseMem_kept memory ha1)
  try clear_value u1
  extract_lets +onlyGivenNames -merge -useContext u3
  have h4 : Kept K z u3 := (pegStatus_kept (bump_kept (jobSts_kept h2)))
  try clear_value u3
  exact (raise_kept (errBy_kept h4))

theorem storeDone_kept {z a0 a1} (memory : ¬K .memory) (agents : ¬K .agents) (ha1 : Kept K z a1) : Kept K z
    (storeDone a0 a1) := by
  unfold storeDone
  split
  · exact ha1
  · extract_lets +onlyGivenNames -merge -useContext u3
    have h4 : Kept K z u3 := (Kept.same ha1 rfl (Area.each (fun _ => Area.f5) (fun _ => Area.f5) (fun _ => rfl) (fun
        _ => Area.f5) (fun _ => Area.f3) (fun _ => rfl) (fun _ => Area.f4) (absurd · agents)))
    try clear_value u3
    exact (Kept.ite (P := Kept K z) (storeGood_kept memory h4) (storeBad_kept memory h4))

theorem execStoreDone_kept {z a0 a1} (memory : ¬K .memory) (agents : ¬K .agents) (ha1 : Kept K z a1) : ∀ t,
    (execStoreDone a0 a1) = .next t → Kept K z t :=
  (done_kept (storeDone_kept memory agents ha1))

theorem lifetimeStore_kept {z a0 a1} (agents : ¬K .agents) (ha1 : Kept K z a1) : Kept K z (lifetimeStore a0 a1) := by
  unfold lifetimeStore
  extract_lets +onlyGivenNames -merge -useContext u0 u1 u2 u3
  exact (pegAsk_kept agents (State.setH_kept (State.setH_kept ha1)))

theorem execLifetimeStore_kept {z a0 a1} (time : ¬K .time) (agents : ¬K .agents) (ha1 : Kept K z a1) : ∀ t,
    (execLifetimeStore a0 a1) = .next t → Kept K z t := by
  unfold execLifetimeStore
  refine done_kept ?_
  refine Kept.ite (P := Kept K z) ?_ ?_
  · exact ha1
  · refine Kept.ite (P := Kept K z) ?_ ?_
    · extract_lets +onlyGivenNames -merge -useContext u3
      have h4 : Kept K z u3 := (waitRoot_kept time ha1)
      try clear_value u3
      exact (lifetimeStore_kept agents (State.setH_kept h4))
    · exact (State.when_kept ha1 (fun _ h5 => (lifetimeStore_kept agents (State.setH_kept (State.setHb_kept h5)))))

theorem pegTable_kept {z a0 a1 a2} (memory : ¬K .memory) (ha2 : Kept K z a2) : Kept K z (pegTable a0 a1 a2).1 := by
  unfold pegTable
  split
  · refine Kept.ite (P := fun x : State × ℕ × Option ℕ => Kept K z x.1) ?_ ?_
    · exact (Win.ok_kept ha2)
    · exact (Win.fail_kept ha2)
  · refine Kept.ite (P := fun x : State × ℕ × Option ℕ => Kept K z x.1) ?_ ?_
    · exact (Win.ok_kept (State.wrMem_kept memory ha2))
    · exact (Win.fail_kept ha2)
  · refine Kept.ite (P := fun x : State × ℕ × Option ℕ => Kept K z x.1) ?_ ?_
    · exact (Win.ok_kept (pegCheck_kept ha2))
    · exact (Win.fail_kept ha2)
  · exact (Win.fail_kept ha2)

end Sys2Proof.Machine
end

