-- ==== Sys2Proof/Laws/KeptPower.lean ====
section
/-!
SUPPORT. Every operation and meaning of Machine/Power.lean keeps the state sane, its queue as it is and its outputs made.
-/
namespace Sys2Proof.Machine

variable {K : Area → Prop}

theorem setDom_kept {z a0 a1 a2 a3} (ha3 : Kept K z a3) : Kept K z (setDom a0 a1 a2 a3) :=
  (State.setReg_kept ha3)

theorem markPartial_kept {z a0 a1} (ha1 : Kept K z a1) : Kept K z (markPartial a0 a1) :=
  (Kept.ite (P := Kept K z) (raise_kept (State.setRbit_kept ha1)) ha1)

theorem domLost_kept {z a0 a1} (frames : ¬K .frames) (fabric : ¬K .fabric) (memory : ¬K .memory) (time : ¬K .time)
    (learn : ¬K .learn) (intStacks : ¬K .intStacks) (agents : ¬K .agents) (ha1 : Kept K z a1) : Kept K z (domLost a0
    a1) := by
  unfold domLost
  extract_lets +onlyGivenNames -merge -useContext u0 u1
  have h2 : Kept K z u1 := (forEach_kept ha1 (fun _ _ h3 => (clearWork_kept frames fabric learn intStacks agents h3)))
  try clear_value u1
  extract_lets +onlyGivenNames -merge -useContext u4
  have h5 : Kept K z u4 := (State.clearPages_kept h2)
  try clear_value u4
  extract_lets +onlyGivenNames -merge -useContext u6
  have h7 : Kept K z u6 := by
    unfold u6
    exact (Kept.sub h5 rfl rfl (.refl _) List.filter_sublist (.refl _) List.filter_sublist (.refl _) (.refl _)
        (.refl _) (Area.each (fun _ => Area.f5) (fun _ => Area.f5) (fun _ => rfl) (fun _ => Area.f5) (fun _ =>
        Area.f3) (fun _ => rfl) (fun _ => Area.f4) (fun _ => Area.f8)))
  try clear_value u6
  extract_lets +onlyGivenNames -merge -useContext u8
  have h9 : Kept K z u8 := (forEach_kept h7 (fun _ _ h10 => (State.eraseMem_kept memory h10)))
  try clear_value u8
  exact (Kept.ite (P := Kept K z) (flashGo_kept memory agents (State.eraseMem_kept memory (State.eraseMem_kept
      memory h9))) (Kept.ite (P := Kept K z) (l2Rebase_kept (Kept.same h9 rfl (Area.each (fun _ => Area.f5) (fun _
      => Area.f5) (fun _ => rfl) (absurd · time) (fun _ => Area.f3) (fun _ => rfl) (fun _ => Area.f4) (fun _ =>
      Area.f8)))) h9))

theorem coresLost_kept {z a0} (intStacks : ¬K .intStacks) (ha0 : Kept K z a0) : Kept K z (coresLost a0) :=
  (Kept.ite (P := Kept K z) (abandonHandover_kept intStacks ha0) (Kept.ite (P := Kept K z) (pairLost_kept ha0) ha0))

theorem hostOff_kept {z a0} (frames : ¬K .frames) (intStacks : ¬K .intStacks) (agents : ¬K .agents) (ha0 : Kept K z
    a0) : Kept K z (hostOff a0) :=
  (intcUpdate_kept (fnReset_kept frames intStacks agents (State.setHb_kept (State.setHb_kept ha0))))

theorem domainOff_kept {z a0 a1 a2} (frames : ¬K .frames) (fabric : ¬K .fabric) (memory : ¬K .memory) (time : ¬K
    .time) (learn : ¬K .learn) (intStacks : ¬K .intStacks) (dram : ¬K .dram) (agents : ¬K .agents) (ha2 : Kept K z
    a2) : Kept K z (domainOff a0 a1 a2) := by
  unfold domainOff
  extract_lets +onlyGivenNames -merge -useContext u0
  have h1 : Kept K z u0 := (markPartial_kept ha2)
  try clear_value u0
  extract_lets +onlyGivenNames -merge -useContext u2
  have h3 : Kept K z u2 := (Kept.ite (P := Kept K z) (hostOff_kept frames intStacks agents h1) h1)
  try clear_value u2
  extract_lets +onlyGivenNames -merge -useContext u4
  have h5 : ∀ y0_0, (Kept K z y0_0) → Kept K z (u4 y0_0) := (fun _ h6 => (lockChange_kept (fun _ h7 => (domLost_kept
      frames fabric memory time learn intStacks agents (forEach_kept h7 (fun _ _ h8 => (disable_kept frames fabric
      dram (stopBlock_kept frames fabric dram h8)))))) h6))
  try clear_value u4
  extract_lets +onlyGivenNames -merge -useContext u9
  have h10 : Kept K z u9 := (Kept.ite (P := Kept K z) (Kept.ite (P := Kept K z) (withReachAll_kept fabric h5 h3) (h5
      _ h3)) ha2)
  try clear_value u9
  extract_lets +onlyGivenNames -merge -useContext u11
  have h12 : Kept K z u11 := (Kept.same h10 rfl (Area.each (fun _ => Area.f5) (fun _ => Area.f5) (fun _ => rfl) (fun
      _ => Area.f5) (fun _ => Area.f3) (fun _ => rfl) (fun _ => Area.f4) (absurd · agents)))
  try clear_value u11
  exact (coverUpdate_kept (setDom_kept h12))

theorem startRamp_kept {z a0 a1} (ha1 : Kept K z a1) : Kept K z (startRamp a0 a1) :=
  (State.setH_kept (setDom_kept ha1))

theorem acceptOn_kept {z a0 a1} (agents : ¬K .agents) (ha1 : Kept K z a1) : Kept K z (acceptOn a0 a1) := by
  unfold acceptOn
  extract_lets +onlyGivenNames -merge -useContext u0
  have h1 : Kept K z u0 := (State.setReg_kept ha1)
  try clear_value u0
  refine Kept.ite (P := Kept K z) ?_ ?_
  · extract_lets +onlyGivenNames -merge -useContext u2
    have h3 : Kept K z u2 := (setDom_kept h1)
    try clear_value u2
    exact (Kept.same h3 rfl (Area.each (fun _ => Area.f5) (fun _ => Area.f5) (fun _ => rfl) (fun _ => Area.f5) (fun
        _ => Area.f3) (fun _ => rfl) (fun _ => Area.f4) (absurd · agents)))
  · exact (startRamp_kept h1)

theorem rampNext_kept {z a0} (agents : ¬K .agents) (ha0 : Kept K z a0) : Kept K z (rampNext a0) := by
  unfold rampNext
  split
  · exact ha0
  · exact (Kept.ite (P := Kept K z) ha0 (startRamp_kept (Kept.same ha0 rfl (Area.each (fun _ => Area.f5) (fun _ =>
      Area.f5) (fun _ => rfl) (fun _ => Area.f5) (fun _ => Area.f3) (fun _ => rfl) (fun _ => Area.f4) (absurd ·
      agents)))))

theorem domRefuse_kept {z a0 a1 a2 a3 a4} (ha4 : Kept K z a4) : Kept K z (domRefuse a0 a1 a2 a3 a4) :=
  (errReq_kept ha4)

theorem domCtl_kept {z a0 a1 a2 a3} (frames : ¬K .frames) (fabric : ¬K .fabric) (memory : ¬K .memory) (time : ¬K
    .time) (learn : ¬K .learn) (intStacks : ¬K .intStacks) (dram : ¬K .dram) (agents : ¬K .agents) (ha3 : Kept K z
    a3) : Kept K z (domCtl a0 a1 a2 a3) := by
  unfold domCtl
  extract_lets +onlyGivenNames -merge -useContext u0 u1
  refine Kept.ite (P := Kept K z) ?_ ?_
  · exact (domRefuse_kept ha3)
  · refine Kept.ite (P := Kept K z) ?_ ?_
    · exact (domRefuse_kept ha3)
    · refine Kept.ite (P := Kept K z) ?_ ?_
      · exact (domRefuse_kept ha3)
      · refine Kept.ite (P := Kept K z) ?_ ?_
        · exact (domRefuse_kept ha3)
        · refine Kept.ite (P := Kept K z) ?_ ?_
          · exact (Kept.ite (P := Kept K z) (State.setReg_kept ha3) (Kept.ite (P := Kept K z) ha3 (acceptOn_kept
              agents ha3)))
          · extract_lets +onlyGivenNames -merge -useContext u2
            have h3 : Kept K z u2 := (State.setReg_kept ha3)
            try clear_value u2
            exact (Kept.ite (P := Kept K z) h3 (raise_kept (domainOff_kept frames fabric memory time learn intStacks
                dram agents (State.setH_kept h3))))

theorem execDomainSwitchOn_kept {z a0 a1 a2} (frames : ¬K .frames) (fabric : ¬K .fabric) (memory : ¬K .memory) (time
    : ¬K .time) (learn : ¬K .learn) (intStacks : ¬K .intStacks) (dram : ¬K .dram) (agents : ¬K .agents) (ha2 : Kept
    K z a2) : ∀ t, (execDomainSwitchOn a0 a1 a2) = .next t → Kept K z t :=
  (done_kept (gateWrite_kept (fun _ h0 => (domCtl_kept frames fabric memory time learn intStacks dram agents h0))
      ha2))

theorem execDomainSwitchOff_kept {z a0 a1 a2} (frames : ¬K .frames) (fabric : ¬K .fabric) (memory : ¬K .memory)
    (time : ¬K .time) (learn : ¬K .learn) (intStacks : ¬K .intStacks) (dram : ¬K .dram) (agents : ¬K .agents) (ha2 :
    Kept K z a2) : ∀ t, (execDomainSwitchOff a0 a1 a2) = .next t → Kept K z t :=
  (done_kept (gateWrite_kept (fun _ h0 => (domCtl_kept frames fabric memory time learn intStacks dram agents h0))
      ha2))

theorem execRampStart_kept {z a0} (agents : ¬K .agents) (ha0 : Kept K z a0) : ∀ t, (execRampStart a0) = .next t →
    Kept K z t :=
  (done_kept (rampNext_kept agents ha0))

theorem loadTrims_kept {z a0 a1} (ha1 : Kept K z a1) : Kept K z (loadTrims a0 a1) := by
  unfold loadTrims
  extract_lets +onlyGivenNames -merge -useContext u0 u1
  have h2 : ∀ y0_0 y0_1 y0_2, (Kept K z y0_2) → Kept K z (u1 y0_0 y0_1 y0_2) := by
    unfold u1
    intro a5 a6 a7 h8
    extract_lets +onlyGivenNames -merge -useContext u9
    exact (Kept.ite (P := Kept K z) (errInt_kept (State.setReg_kept h8)) (State.setReg_kept h8))
  try clear_value u1
  exact (h2 _ _ _ (h2 _ _ _ ha1))

theorem pipeOn_kept {z a0 a1} (learn : ¬K .learn) (ha1 : Kept K z a1) : Kept K z (pipeOn a0 a1) := by
  unfold pipeOn
  extract_lets +onlyGivenNames -merge -useContext u0 u1
  have h2 : Kept K z u1 := by
    unfold u1
    split
    · extract_lets +onlyGivenNames -merge -useContext u4
      have h5 : Kept K z u4 := (forEach_kept ha1 (fun _ _ h6 => (forEach_kept h6 (fun _ _ h7 => (State.setTab_kept
          h7)))))
      try clear_value u4
      exact (forEach_kept h5 (fun _ _ h8 => (State.setHb_kept h8)))
    · exact (forEach_kept ha1 (fun _ _ h10 => (State.setHb_kept h10)))
  try clear_value u1
  extract_lets +onlyGivenNames -merge -useContext u11
  have h12 : Kept K z u11 := by
    unfold u11
    exact (Kept.sub h2 rfl rfl (.refl _) List.filter_sublist (.refl _) List.filter_sublist (.refl _) (.refl _)
        (.refl _) (Area.each (fun _ => Area.f5) (fun _ => Area.f5) (fun _ => rfl) (fun _ => Area.f5) (absurd ·
        learn) (fun _ => rfl) (fun _ => Area.f4) (fun _ => Area.f8)))
  try clear_value u11
  exact (State.setReg_kept (State.setReg_kept (State.setH_kept h12)))

theorem domStart_kept {z a0 a1} (learn : ¬K .learn) (agents : ¬K .agents) (ha1 : Kept K z a1) : Kept K z (domStart
    a0 a1) := by
  unfold domStart
  refine Kept.ite (P := Kept K z) ?_ ?_
  · exact (askLoad_kept agents (forEach_kept ha1 (fun _ _ h1 => (loadTrims_kept h1))))
  · refine Kept.ite (P := Kept K z) ?_ ?_
    · extract_lets +onlyGivenNames -merge -useContext u2
      have h3 : Kept K z u2 := (askLoad_kept agents ha1)
      try clear_value u2
      exact (State.setH_kept (Kept.sub h3 rfl rfl (.refl _) (.refl _) (.refl _) List.filter_sublist (.refl _) (.refl
          _) (.refl _) (Area.each (fun _ => Area.f5) (fun _ => Area.f5) (fun _ => rfl) (fun _ => Area.f5) (fun _ =>
          Area.f3) (fun _ => rfl) (fun _ => Area.f4) (fun _ => Area.f8))))
    · refine Kept.ite (P := Kept K z) ?_ ?_
      · exact (pipeOn_kept learn ha1)
      · refine Kept.ite (P := Kept K z) ?_ ?_
        · exact (forEach_kept ha1 (fun _ _ h6 => (askLoad_kept agents h6)))
        · refine Kept.ite (P := Kept K z) ?_ ?_
          · exact (State.setH_kept ha1)
          · refine Kept.ite (P := Kept K z) ?_ ?_
            · extract_lets +onlyGivenNames -merge -useContext u7
              exact (forEach_kept (State.setH_kept (State.setH_kept ha1)) (fun _ _ h8 => (askLoad_kept agents h8)))
            · exact ha1

theorem domainOn_kept {z a0 a1} (frames : ¬K .frames) (learn : ¬K .learn) (agents : ¬K .agents) (ha1 : Kept K z a1)
    : Kept K z (domainOn a0 a1) := by
  unfold domainOn
  extract_lets +onlyGivenNames -merge -useContext u0 u1
  have h2 : Kept K z u1 := (State.setReg_kept ha1)
  try clear_value u1
  extract_lets +onlyGivenNames -merge -useContext u3
  have h4 : Kept K z u3 := (raise_kept (bump_kept h2))
  try clear_value u3
  extract_lets +onlyGivenNames -merge -useContext u5
  have h6 : Kept K z u5 := by
    unfold u5
    refine forEach_kept ?_ ?_
    · exact h4
    · intro a10 a11 h12
      extract_lets +onlyGivenNames -merge -useContext u13
      have h14 : Kept K z u13 := (State.setH_kept (State.setReg_kept h12))
      try clear_value u13
      exact (Kept.ite (P := Kept K z) (cycShadow_kept h14) h14)
  try clear_value u5
  extract_lets +onlyGivenNames -merge -useContext u15
  have h16 : Kept K z u15 := (Kept.ite (P := Kept K z) (l2Rebase_kept h6) h6)
  try clear_value u15
  extract_lets +onlyGivenNames -merge -useContext u17
  have h18 : Kept K z u17 := (Kept.ite (P := Kept K z) (ageRaise_kept frames h16) h16)
  try clear_value u17
  exact (coverUpdate_kept (domStart_kept learn agents h18))

theorem execDomainOn_kept {z a0 a1} (frames : ¬K .frames) (learn : ¬K .learn) (agents : ¬K .agents) (ha1 : Kept K z
    a1) : ∀ t, (execDomainOn a0 a1) = .next t → Kept K z t :=
  (done_kept (State.when_kept ha1 (fun _ h0 => (domainOn_kept frames learn agents h0))))

theorem execSerdesPllLockTimeout_kept {z a0 a1} (frames : ¬K .frames) (fabric : ¬K .fabric) (memory : ¬K .memory)
    (time : ¬K .time) (learn : ¬K .learn) (intStacks : ¬K .intStacks) (dram : ¬K .dram) (agents : ¬K .agents) (ha1 :
    Kept K z a1) : ∀ t, (execSerdesPllLockTimeout a0 a1) = .next t → Kept K z t :=
  (done_kept (State.when_kept ha1 (fun _ h0 => (raise_kept (domainOff_kept frames fabric memory time learn intStacks
      dram agents (waitRoot_kept time h0))))))

theorem cascade_kept {z a0 a1} (frames : ¬K .frames) (fabric : ¬K .fabric) (memory : ¬K .memory) (time : ¬K .time)
    (learn : ¬K .learn) (intStacks : ¬K .intStacks) (dram : ¬K .dram) (agents : ¬K .agents) (ha1 : Kept K z a1) :
    Kept K z (cascade a0 a1) := by
  unfold cascade
  extract_lets +onlyGivenNames -merge -useContext u0
  exact (Kept.ite (P := Kept K z) ha1 (raise_kept (forEach_kept ha1 (fun _ _ h1 => (bump_kept (domainOff_kept frames
      fabric memory time learn intStacks dram agents h1))))))

theorem dropOut_kept {z a0 a1} (frames : ¬K .frames) (fabric : ¬K .fabric) (memory : ¬K .memory) (time : ¬K .time)
    (learn : ¬K .learn) (intStacks : ¬K .intStacks) (dram : ¬K .dram) (agents : ¬K .agents) (ha1 : Kept K z a1) :
    Kept K z (dropOut a0 a1) := by
  unfold dropOut
  extract_lets +onlyGivenNames -merge -useContext u0
  have h1 : Kept K z u0 := (domainOff_kept frames fabric memory time learn intStacks dram agents (Kept.ite (P :=
      Kept K z) (coresLost_kept intStacks ha1) ha1))
  try clear_value u0
  extract_lets +onlyGivenNames -merge -useContext u2
  have h3 : Kept K z u2 := (Kept.ite (P := Kept K z) (State.setH_kept h1) h1)
  try clear_value u2
  exact (cascade_kept frames fabric memory time learn intStacks dram agents h3)

theorem domRestart_kept {z a0 a1} (time : ¬K .time) (agents : ¬K .agents) (ha1 : Kept K z a1) : Kept K z (domRestart
    a0 a1) := by
  unfold domRestart
  extract_lets +onlyGivenNames -merge -useContext u0
  have h1 : Kept K z u0 := (waitRoot_kept time ha1)
  try clear_value u0
  extract_lets +onlyGivenNames -merge -useContext u2
  have h3 : Kept K z u2 := (State.setH_kept h1)
  try clear_value u2
  extract_lets +onlyGivenNames -merge -useContext u4
  refine Kept.ite (P := Kept K z) ?_ ?_
  · exact h3
  · extract_lets +onlyGivenNames -merge -useContext u5
    have h6 : Kept K z u5 := (State.setH_kept (State.setH_kept h3))
    try clear_value u5
    exact (acceptOn_kept agents (State.setH_kept h6))

theorem execDomainRestart_kept {z a0 a1} (time : ¬K .time) (agents : ¬K .agents) (ha1 : Kept K z a1) : ∀ t,
    (execDomainRestart a0 a1) = .next t → Kept K z t :=
  (done_kept (State.when_kept ha1 (fun _ h0 => (domRestart_kept time agents h0))))

theorem vinLoss_kept {z a0} (frames : ¬K .frames) (fabric : ¬K .fabric) (memory : ¬K .memory) (time : ¬K .time)
    (learn : ¬K .learn) (intStacks : ¬K .intStacks) (dram : ¬K .dram) (agents : ¬K .agents) (ha0 : Kept K z a0) :
    Kept K z (vinLoss a0) := by
  unfold vinLoss
  extract_lets +onlyGivenNames -merge -useContext u0
  have h1 : Kept K z u0 := (coverUpdate_kept (State.setH_kept (State.setHb_kept ha0)))
  try clear_value u0
  extract_lets +onlyGivenNames -merge -useContext u2
  have h3 : Kept K z u2 := (faultRecordAt_kept h1)
  try clear_value u2
  extract_lets +onlyGivenNames -merge -useContext u4
  have h5 : Kept K z u4 := (coresLost_kept intStacks h3)
  try clear_value u4
  extract_lets +onlyGivenNames -merge -useContext u6
  have h7 : Kept K z u6 := (forEach_kept h5 (fun _ _ h8 => (domainOff_kept frames fabric memory time learn intStacks
      dram agents (State.setH_kept h8))))
  try clear_value u6
  exact (raise_kept (bump_kept (State.setHb_kept h7)))

theorem execVinLoss_kept {z a0} (frames : ¬K .frames) (fabric : ¬K .fabric) (memory : ¬K .memory) (time : ¬K .time)
    (learn : ¬K .learn) (intStacks : ¬K .intStacks) (dram : ¬K .dram) (agents : ¬K .agents) (ha0 : Kept K z a0) : ∀
    t, (execVinLoss a0) = .next t → Kept K z t :=
  (done_kept (State.when_kept ha0 (fun _ h0 => (vinLoss_kept frames fabric memory time learn intStacks dram agents
      h0))))

theorem execVinInRange_kept {z a0} (agents : ¬K .agents) (ha0 : Kept K z a0) : ∀ t, (execVinInRange a0) = .next t →
    Kept K z t :=
  (done_kept (rampNext_kept agents (rampNext_kept agents (rampNext_kept agents (rampNext_kept agents
      (coverUpdate_kept (State.setH_kept (State.setH_kept (State.setHb_kept ha0)))))))))

theorem execVinRestart_kept {z a0} (frames : ¬K .frames) (fabric : ¬K .fabric) (memory : ¬K .memory) (time : ¬K
    .time) (learn : ¬K .learn) (intStacks : ¬K .intStacks) (dram : ¬K .dram) (agents : ¬K .agents) (ha0 : Kept K z
    a0) : ∀ t, (execVinRestart a0) = .next t → Kept K z t := by
  unfold execVinRestart
  refine done_kept ?_
  refine State.when_kept ?_ ?_
  · exact ha0
  · intro a10 h11
    extract_lets +onlyGivenNames -merge -useContext u12
    have h13 : Kept K z u12 := (State.when_kept h11 (fun _ h14 => (waitRoot_kept time h14)))
    try clear_value u12
    exact (coverUpdate_kept (deviceReset_kept frames fabric memory time learn intStacks dram agents
        (State.setHb_kept h13)))

theorem vauxLoss_kept {z a0} (frames : ¬K .frames) (fabric : ¬K .fabric) (memory : ¬K .memory) (time : ¬K .time)
    (learn : ¬K .learn) (intStacks : ¬K .intStacks) (dram : ¬K .dram) (agents : ¬K .agents) (ha0 : Kept K z a0) :
    Kept K z (vauxLoss a0) := by
  unfold vauxLoss
  extract_lets +onlyGivenNames -merge -useContext u0
  have h1 : Kept K z u0 := (deviceReset_kept frames fabric memory time learn intStacks dram agents
      (State.setReg_kept (State.setHb_kept ha0)))
  try clear_value u0
  exact (coverUpdate_kept (holdReset_kept (holdReset_kept h1)))

theorem execVauxLoss_kept {z a0} (frames : ¬K .frames) (fabric : ¬K .fabric) (memory : ¬K .memory) (time : ¬K .time)
    (learn : ¬K .learn) (intStacks : ¬K .intStacks) (dram : ¬K .dram) (agents : ¬K .agents) (ha0 : Kept K z a0) : ∀
    t, (execVauxLoss a0) = .next t → Kept K z t :=
  (done_kept (vauxLoss_kept frames fabric memory time learn intStacks dram agents ha0))

theorem execVauxPowerOn_kept {z a0} (frames : ¬K .frames) (fabric : ¬K .fabric) (memory : ¬K .memory) (time : ¬K
    .time) (learn : ¬K .learn) (intStacks : ¬K .intStacks) (dram : ¬K .dram) (agents : ¬K .agents) (ha0 : Kept K z
    a0) : ∀ t, (execVauxPowerOn a0) = .next t → Kept K z t :=
  (done_kept (coverUpdate_kept (holdReset_kept (deviceReset_kept frames fabric memory time learn intStacks dram
      agents (State.setReg_kept (State.setHb_kept ha0))))))

theorem execRootPllLock_kept {z a0} (ha0 : Kept K z a0) : ∀ t, (execRootPllLock a0) = .next t → Kept K z t :=
  (done_kept (State.when_kept ha0 (fun _ h0 => (State.setH_kept (State.setReg_kept h0)))))

theorem execPllLossReset_kept {z a0} (frames : ¬K .frames) (fabric : ¬K .fabric) (memory : ¬K .memory) (time : ¬K
    .time) (learn : ¬K .learn) (intStacks : ¬K .intStacks) (dram : ¬K .dram) (agents : ¬K .agents) (ha0 : Kept K z
    a0) : ∀ t, (execPllLossReset a0) = .next t → Kept K z t :=
  (done_kept (State.when_kept ha0 (fun _ h0 => (coverUpdate_kept (deviceReset_kept frames fabric memory time learn
      intStacks dram agents (waitRoot_kept time h0))))))

theorem execSysRstAssert_kept {z a0} (frames : ¬K .frames) (fabric : ¬K .fabric) (memory : ¬K .memory) (time : ¬K
    .time) (learn : ¬K .learn) (intStacks : ¬K .intStacks) (dram : ¬K .dram) (agents : ¬K .agents) (ha0 : Kept K z
    a0) : ∀ t, (execSysRstAssert a0) = .next t → Kept K z t :=
  (done_kept (Kept.ite (P := Kept K z) (holdReset_kept ha0) (coverUpdate_kept (holdReset_kept (holdReset_kept
      (deviceReset_kept frames fabric memory time learn intStacks dram agents ha0))))))

theorem execSysRstRelease_kept {z a0 a1} (frames : ¬K .frames) (fabric : ¬K .fabric) (memory : ¬K .memory) (time :
    ¬K .time) (learn : ¬K .learn) (intStacks : ¬K .intStacks) (dram : ¬K .dram) (agents : ¬K .agents) (ha1 : Kept K
    z a1) : ∀ t, (execSysRstRelease a0 a1) = .next t → Kept K z t :=
  (done_kept (Kept.ite (P := Kept K z) (holdReset_kept ha1) (coverUpdate_kept (holdReset_kept (holdReset_kept
      (deviceReset_kept frames fabric memory time learn intStacks dram agents ha1))))))

theorem devReset_kept {z a0 a1 a2} (frames : ¬K .frames) (fabric : ¬K .fabric) (memory : ¬K .memory) (time : ¬K
    .time) (learn : ¬K .learn) (intStacks : ¬K .intStacks) (dram : ¬K .dram) (agents : ¬K .agents) (ha2 : Kept K z
    a2) : Kept K z (devReset a0 a1 a2) :=
  (Kept.ite (P := Kept K z) (coverUpdate_kept (deviceReset_kept frames fabric memory time learn intStacks dram
      agents ha2)) (errReq_kept ha2))

theorem execDevReset_kept {z a0 a1 a2} (frames : ¬K .frames) (fabric : ¬K .fabric) (memory : ¬K .memory) (time : ¬K
    .time) (learn : ¬K .learn) (intStacks : ¬K .intStacks) (dram : ¬K .dram) (agents : ¬K .agents) (ha2 : Kept K z
    a2) : ∀ t, (execDevReset a0 a1 a2) = .next t → Kept K z t :=
  (done_kept (gateWrite_kept (fun _ h0 => (devReset_kept frames fabric memory time learn intStacks dram agents h0))
      ha2))

end Sys2Proof.Machine
end

