-- ==== Sys2Proof/Laws/KeptReliab.lean ====
section
/-!
SUPPORT. Every operation and meaning of Machine/Reliab.lean keeps the state sane, its queue as it is and its outputs made.
-/
namespace Sys2Proof.Machine

variable {K : Area → Prop}

theorem openClear_kept {z a0 a1} (ha1 : Kept K z a1) : Kept K z (openClear a0 a1) :=
  (coverUpdate_kept (State.setReg_kept ha1))

theorem execOpenClear_kept {z a0 a1 a2} (ha2 : Kept K z a2) : ∀ t, (execOpenClear a0 a1 a2) = .next t → Kept K z t :=
  (done_kept (gateWrite_kept (fun _ h0 => (openClear_kept h0)) ha2))

theorem pllUnlock_kept {z a0} (ha0 : Kept K z a0) : Kept K z (pllUnlock a0) := by
  unfold pllUnlock
  extract_lets +onlyGivenNames -merge -useContext u0
  have h1 : Kept K z u0 := (bump_kept (State.setReg_kept ha0))
  try clear_value u0
  exact (faultRecordAt_kept (State.setHb_kept h1))

theorem execPllUnlock_kept {z a0} (ha0 : Kept K z a0) : ∀ t, (execPllUnlock a0) = .next t → Kept K z t :=
  (done_kept (State.when_kept ha0 (fun _ h0 => (pllUnlock_kept h0))))

theorem unitStuck_kept {z a0 a1} (ha1 : Kept K z a1) : Kept K z (unitStuck a0 a1) := by
  unfold unitStuck
  split
  · exact (Kept.ite (P := Kept K z) ha1 (faultRecord_kept (State.setHb_kept ha1)))

theorem wdtSample_kept {z a0 a1} (time : ¬K .time) (ha1 : Kept K z a1) : Kept K z (wdtSample a0 a1) := by
  unfold wdtSample
  refine forEach_kept ?_ ?_
  · exact (nextInterval_kept time ha1)
  · intro a2 a3 h4
    extract_lets +onlyGivenNames -merge -useContext u5 u6
    have h7 : Kept K z u6 := (State.setH_kept h4)
    try clear_value u6
    exact (Kept.ite (P := Kept K z) (unitStuck_kept h7) h7)

theorem execPipeWdtSample_kept {z a0 a1} (time : ¬K .time) (ha1 : Kept K z a1) : ∀ t, (execPipeWdtSample a0 a1) =
    .next t → Kept K z t :=
  (done_kept (State.when_kept ha1 (fun _ h0 => (wdtSample_kept time h0))))

theorem supplyDroop_kept {z a0 a1} (frames : ¬K .frames) (fabric : ¬K .fabric) (memory : ¬K .memory) (time : ¬K
    .time) (learn : ¬K .learn) (intStacks : ¬K .intStacks) (dram : ¬K .dram) (agents : ¬K .agents) (ha1 : Kept K z
    a1) : Kept K z (supplyDroop a0 a1) :=
  (Kept.ite (P := Kept K z) (vauxLoss_kept frames fabric memory time learn intStacks dram agents ha1) (Kept.ite (P
      := Kept K z) (dropOut_kept frames fabric memory time learn intStacks dram agents (faultRecordAt_kept ha1)) ha1))

theorem execSupplyDroop_kept {z a0 a1} (frames : ¬K .frames) (fabric : ¬K .fabric) (memory : ¬K .memory) (time : ¬K
    .time) (learn : ¬K .learn) (intStacks : ¬K .intStacks) (dram : ¬K .dram) (agents : ¬K .agents) (ha1 : Kept K z
    a1) : ∀ t, (execSupplyDroop a0 a1) = .next t → Kept K z t :=
  (done_kept (supplyDroop_kept frames fabric memory time learn intStacks dram agents ha1))

theorem tjMeasured_kept {z a0 a1} (ha1 : Kept K z a1) : Kept K z (tjMeasured a0 a1) := by
  unfold tjMeasured
  extract_lets +onlyGivenNames -merge -useContext u0
  have h1 : Kept K z u0 := (State.setH_kept ha1)
  try clear_value u0
  extract_lets +onlyGivenNames -merge -useContext u2
  have h3 : Kept K z u2 := (State.setH_kept h1)
  try clear_value u2
  exact (Kept.ite (P := Kept K z) (coverUpdate_kept (State.setHb_kept h3)) h3)

theorem execTjOutOfRange_kept {z a0 a1} (ha1 : Kept K z a1) : ∀ t, (execTjOutOfRange a0 a1) = .next t → Kept K z t :=
  (done_kept (tjMeasured_kept ha1))

end Sys2Proof.Machine
end

