-- ==== Sys2Proof/Laws/KeptAccess.lean ====
section
/-!
SUPPORT. Every operation and meaning of Machine/Access.lean keeps the state sane, its queue as it is and its outputs made.
-/
namespace Sys2Proof.Machine

variable {K : Area → Prop}

theorem timeTable_kept {z a0 a1 a2} (ha2 : Kept K z a2) : Kept K z (timeTable a0 a1 a2).1 := by
  unfold timeTable
  refine Kept.ite (P := fun x : State × ℕ × Option ℕ => Kept K z x.1) ?_ ?_
  · exact (Win.fail_kept ha2)
  · refine Kept.ite (P := fun x : State × ℕ × Option ℕ => Kept K z x.1) ?_ ?_
    · exact (Win.read_kept ha2)
    · refine Kept.ite (P := fun x : State × ℕ × Option ℕ => Kept K z x.1) ?_ ?_
      · exact (Win.fail_kept ha2)
      · exact (Win.ok_kept (State.setTab_kept ha2))

theorem otnTable_kept {z a0 a1 a2} (ha2 : Kept K z a2) : Kept K z (otnTable a0 a1 a2).1 := by
  unfold otnTable
  refine Kept.ite (P := fun x : State × ℕ × Option ℕ => Kept K z x.1) ?_ ?_
  · exact (Win.fail_kept ha2)
  · refine Kept.ite (P := fun x : State × ℕ × Option ℕ => Kept K z x.1) ?_ ?_
    · exact (Win.fail_kept ha2)
    · refine Kept.ite (P := fun x : State × ℕ × Option ℕ => Kept K z x.1) ?_ ?_
      · exact (Win.fail_kept ha2)
      · refine Kept.ite (P := fun x : State × ℕ × Option ℕ => Kept K z x.1) ?_ ?_
        · exact (Win.read_kept ha2)
        · exact (Win.ok_kept (State.setTab_kept ha2))

theorem faultTable_kept {z a0 a1 a2} (ha2 : Kept K z a2) : Kept K z (faultTable a0 a1 a2).1 := by
  unfold faultTable
  refine Kept.ite (P := fun x : State × ℕ × Option ℕ => Kept K z x.1) ?_ ?_
  · exact (Win.fail_kept ha2)
  · exact (Win.read_kept (Kept.ite (P := Kept K z) (State.setHb_kept ha2) ha2))

theorem pageTable_kept {z a0 a1 a2} (frames : ¬K .frames) (fabric : ¬K .fabric) (memory : ¬K .memory) (learn : ¬K
    .learn) (dram : ¬K .dram) (ha2 : Kept K z a2) : Kept K z (pageTable a0 a1 a2).1 := by
  unfold pageTable
  refine Kept.ite (P := fun x : State × ℕ × Option ℕ => Kept K z x.1) ?_ ?_
  · exact (droneTable_kept ha2)
  · split
    · exact (timeTable_kept ha2)
    · exact (pegTable_kept memory ha2)
    · exact (hostTable_kept ha2)
    · exact (snapTable_kept frames dram ha2)
    · exact (faultTable_kept ha2)
    · exact (pfeTable_kept ha2)
    · exact (bpmTable_kept frames fabric ha2)
    · exact (otnTable_kept ha2)
    · exact (ipipeTable_kept ha2)
    · exact (lpmTable_kept ha2)
    · exact (emTable_kept learn ha2)
    · exact (tcamTable_kept ha2)
    · exact (adjTable_kept fabric ha2)
    · exact (l2Table_kept learn ha2)
    · exact (polTable_kept ha2)
    · exact (qmgrTable_kept fabric ha2)
    · exact (schedTable_kept ha2)
    · exact (shapeTable_kept ha2)
    · exact (cellTable_kept ha2)
    · exact (spillTable_kept ha2)
    · exact (fabTable_kept ha2)
    · exact (dscTable_kept ha2)
    · exact (Win.fail_kept ha2)

theorem cmdWrite_kept {z a0 a1 a2 a3} (frames : ¬K .frames) (fabric : ¬K .fabric) (memory : ¬K .memory) (learn : ¬K
    .learn) (dram : ¬K .dram) (agents : ¬K .agents) (ha3 : Kept K z a3) : Kept K z (cmdWrite a0 a1 a2 a3) :=
  (Kept.ite (P := Kept K z) (routeRun_kept agents ha3) (Kept.ite (P := Kept K z) (deepRun_kept frames dram ha3)
      (tblRun_kept (fun _ _ h0 => (pageTable_kept frames fabric memory learn dram h0)) ha3)))

theorem lpmStep_kept {z a0 a1} (frames : ¬K .frames) (fabric : ¬K .fabric) (memory : ¬K .memory) (learn : ¬K .learn)
    (dram : ¬K .dram) (agents : ¬K .agents) (ha1 : Kept K z a1) : Kept K z (lpmStep a0 a1) := by
  unfold lpmStep
  extract_lets +onlyGivenNames -merge -useContext u0
  split
  · rename_i m1 m2 m3 q4
    have h5 : Kept K z m1 := Kept.of_eq (P := fun x : TblRes => Kept K z x.1) q4 (pageTable_kept frames fabric
        memory learn dram (Kept.same ha1 rfl (Area.each (fun _ => Area.f5) (fun _ => Area.f5) (fun _ => rfl) (fun _
        => Area.f5) (fun _ => Area.f3) (fun _ => rfl) (fun _ => Area.f4) (absurd · agents))))
    extract_lets +onlyGivenNames -merge -useContext u6
    have h7 : Kept K z u6 := by
      unfold u6
      split
      · exact (setWinData_kept h5)
      · exact h5
    try clear_value u6
    exact (tblComplete_kept (State.setH_kept h7))

theorem lpmComplete_kept {z a0 a1} (frames : ¬K .frames) (fabric : ¬K .fabric) (memory : ¬K .memory) (learn : ¬K
    .learn) (dram : ¬K .dram) (agents : ¬K .agents) (ha1 : Kept K z a1) : Kept K z (lpmComplete a0 a1) := by
  unfold lpmComplete
  split
  · exact (tblComplete_kept ha1)
  · extract_lets +onlyGivenNames -merge -useContext u2
    exact (Kept.ite (P := Kept K z) ha1 (forEach_kept ha1 (fun _ _ h3 => (lpmStep_kept frames fabric memory learn
        dram agents h3))))

theorem execTblCmdComplete_kept {z a0 a1 a2} (frames : ¬K .frames) (fabric : ¬K .fabric) (memory : ¬K .memory)
    (learn : ¬K .learn) (dram : ¬K .dram) (agents : ¬K .agents) (ha2 : Kept K z a2) : ∀ t, (execTblCmdComplete a0 a1
    a2) = .next t → Kept K z t :=
  (done_kept (Kept.ite (P := Kept K z) (lpmComplete_kept frames fabric memory learn dram agents ha2)
      (tblComplete_kept ha2)))

theorem droneOn_kept {z a0 a1} (ha1 : Kept K z a1) : Kept K z (droneOn a0 a1) :=
  (Kept.ite (P := Kept K z) ha1 (State.setRbit_kept (Kept.sub ha1 rfl rfl (.refl _) List.filter_sublist (.refl _)
      (.refl _) (.refl _) (.refl _) (.refl _) (Area.each (fun _ => Area.f5) (fun _ => Area.f5) (fun _ => rfl) (fun _
      => Area.f5) (fun _ => Area.f3) (fun _ => rfl) (fun _ => Area.f4) (fun _ => Area.f8)))))

theorem blkCtl_kept {z a0 a1 a2} (frames : ¬K .frames) (fabric : ¬K .fabric) (learn : ¬K .learn) (intStacks : ¬K
    .intStacks) (dram : ¬K .dram) (agents : ¬K .agents) (ha2 : Kept K z a2) : Kept K z (blkCtl a0 a1 a2) := by
  unfold blkCtl
  extract_lets +onlyGivenNames -merge -useContext u0
  have h1 : Kept K z u0 := (Kept.ite (P := Kept K z) (droneOn_kept ha2) (State.setRbit_kept ha2))
  try clear_value u0
  extract_lets +onlyGivenNames -merge -useContext u2
  have h3 : Kept K z u2 := (Kept.ite (P := Kept K z) (State.setRbit_kept h1) h1)
  try clear_value u2
  extract_lets +onlyGivenNames -merge -useContext u4
  have h5 : Kept K z u4 := (Kept.ite (P := Kept K z) (enable_kept fabric h3) (disable_kept frames fabric dram h3))
  try clear_value u4
  exact (Kept.ite (P := Kept K z) (softReset_kept frames fabric learn intStacks dram agents h5) h5)

theorem ringAgain_kept {z a0 a1} (ha1 : Kept K z a1) : Kept K z (ringAgain a0 a1) :=
  (Kept.ite (P := Kept K z) ha1 (ring_kept ha1))

theorem evtPend_kept {z a0 a1 a2} (ha2 : Kept K z a2) : Kept K z (evtPend a0 a1 a2) := by
  unfold evtPend
  extract_lets +onlyGivenNames -merge -useContext u0 u1 u2
  have h3 : Kept K z u2 := (State.setReg_kept ha2)
  try clear_value u2
  extract_lets +onlyGivenNames -merge -useContext u4
  have h5 : Kept K z u4 := (State.setH_kept (State.setReg_kept h3))
  try clear_value u4
  exact (ringAgain_kept h5)

theorem evtMask_kept {z a0 a1 a2} (ha2 : Kept K z a2) : Kept K z (evtMask a0 a1 a2) :=
  (ringAgain_kept (State.setReg_kept ha2))

theorem perfWrite_kept {z a0 a1 a2} (ha2 : Kept K z a2) : Kept K z (perfWrite a0 a1 a2) := by
  unfold perfWrite
  extract_lets +onlyGivenNames -merge -useContext u0
  have h1 : Kept K z u0 := (perfSync_kept ha2)
  try clear_value u0
  exact (storeReg_kept (Kept.ite (P := Kept K z) (snapTouch_kept h1) h1))

theorem headerWrite_kept {z a0 a1 a2 a3 a4} (frames : ¬K .frames) (fabric : ¬K .fabric) (memory : ¬K .memory) (learn
    : ¬K .learn) (intStacks : ¬K .intStacks) (dram : ¬K .dram) (agents : ¬K .agents) (ha4 : Kept K z a4) : ∀ t0,
    (headerWrite a0 a1 a2 a3 a4) = some t0 → Kept K z t0 := by
  unfold headerWrite
  extract_lets +onlyGivenNames -merge -useContext u0
  refine Kept.ite (P := fun x : Option State => ∀ t0, x = some t0 → Kept K z t0) ?_ ?_
  · exact (Kept.some (blkCtl_kept frames fabric learn intStacks dram agents ha4))
  · refine Kept.ite (P := fun x : Option State => ∀ t0, x = some t0 → Kept K z t0) ?_ ?_
    · exact (Kept.some (evtPend_kept ha4))
    · refine Kept.ite (P := fun x : Option State => ∀ t0, x = some t0 → Kept K z t0) ?_ ?_
      · exact (Kept.some (evtMask_kept ha4))
      · refine Kept.ite (P := fun x : Option State => ∀ t0, x = some t0 → Kept K z t0) ?_ ?_
        · exact (Kept.some (ifUnlocked_kept (fun _ h1 => (Kept.ite (P := Kept K z) h1 (State.setReg_kept h1))) ha4))
        · refine Kept.ite (P := fun x : Option State => ∀ t0, x = some t0 → Kept K z t0) ?_ ?_
          · exact (Kept.some (Kept.ite (P := Kept K z) (State.setReg_kept ha4) ha4))
          · refine Kept.ite (P := fun x : Option State => ∀ t0, x = some t0 → Kept K z t0) ?_ ?_
            · exact (Kept.some (perfWrite_kept ha4))
            · refine Kept.ite (P := fun x : Option State => ∀ t0, x = some t0 → Kept K z t0) ?_ ?_
              · exact (Kept.some (cmdWrite_kept frames fabric memory learn dram agents ha4))
              · refine Kept.ite (P := fun x : Option State => ∀ t0, x = some t0 → Kept K z t0) ?_ ?_
                · exact (Kept.some (Kept.ite (P := Kept K z) ha4 (State.setReg_kept ha4)))
                · exact Kept.none

theorem ranged_kept {z a0 a1 a2 a3 a4 a5} (ha5 : Kept K z a5) : Kept K z (ranged a0 a1 a2 a3 a4 a5) :=
  (Kept.ite (P := Kept K z) (storeReg_kept ha5) (errReq_kept ha5))

theorem profileSel_kept {z a0 a1 a2} (ha2 : Kept K z a2) : Kept K z (profileSel a0 a1 a2) := by
  unfold profileSel
  extract_lets +onlyGivenNames -merge -useContext u0
  exact (ifUnlocked_kept (fun _ h1 => (ranged_kept h1)) ha2)

theorem timeReg_kept {z a0 a1 a2 a3 a4} (time : ¬K .time) (ha4 : Kept K z a4) : ∀ t0, (timeReg a0 a1 a2 a3 a4) =
    some t0 → Kept K z t0 := by
  unfold timeReg
  refine Kept.ite (P := fun x : Option State => ∀ t0, x = some t0 → Kept K z t0) ?_ ?_
  · exact (Kept.some (rateLo_kept ha4))
  · refine Kept.ite (P := fun x : Option State => ∀ t0, x = some t0 → Kept K z t0) ?_ ?_
    · exact (Kept.some (rateHi_kept ha4))
    · refine Kept.ite (P := fun x : Option State => ∀ t0, x = some t0 → Kept K z t0) ?_ ?_
      · exact (Kept.some (rateLo_kept ha4))
      · refine Kept.ite (P := fun x : Option State => ∀ t0, x = some t0 → Kept K z t0) ?_ ?_
        · exact (Kept.some (rateHi_kept ha4))
        · refine Kept.ite (P := fun x : Option State => ∀ t0, x = some t0 → Kept K z t0) ?_ ?_
          · exact (Kept.some (stepCmd_kept time ha4))
          · refine Kept.ite (P := fun x : Option State => ∀ t0, x = some t0 → Kept K z t0) ?_ ?_
            · exact (Kept.some (stepRearm_kept ha4))
            · refine Kept.ite (P := fun x : Option State => ∀ t0, x = some t0 → Kept K z t0) ?_ ?_
              · exact (Kept.some (tbCtl_kept ha4))
              · refine Kept.ite (P := fun x : Option State => ∀ t0, x = some t0 → Kept K z t0) ?_ ?_
                · exact (Kept.some (ranged_kept ha4))
                · refine Kept.ite (P := fun x : Option State => ∀ t0, x = some t0 → Kept K z t0) ?_ ?_
                  · exact (Kept.some (trkStep_kept time ha4))
                  · refine Kept.ite (P := fun x : Option State => ∀ t0, x = some t0 → Kept K z t0) ?_ ?_
                    · exact (Kept.some (ppsRearm_kept ha4))
                    · refine Kept.ite (P := fun x : Option State => ∀ t0, x = some t0 → Kept K z t0) ?_ ?_
                      · exact (Kept.some (refCfg_kept ha4))
                      · refine Kept.ite (P := fun x : Option State => ∀ t0, x = some t0 → Kept K z t0) ?_ ?_
                        · exact (Kept.some (ppsInCfg_kept ha4))
                        · refine Kept.ite (P := fun x : Option State => ∀ t0, x = some t0 → Kept K z t0) ?_ ?_
                          · exact (Kept.some (ppsOutWrite_kept (fun _ h0 => (storeReg_kept h0)) ha4))
                          · refine Kept.ite (P := fun x : Option State => ∀ t0, x = some t0 → Kept K z t0) ?_ ?_
                            · exact (Kept.some (freqCfg_kept ha4))
                            · refine Kept.ite (P := fun x : Option State => ∀ t0, x = some t0 → Kept K z t0) ?_ ?_
                              · exact (Kept.some (winCommit_kept ha4))
                              · exact Kept.none

theorem intcReg_kept {z a0 a1 a2 a3 a4} (intStacks : ¬K .intStacks) (ha4 : Kept K z a4) : ∀ t0, (intcReg a0 a1 a2 a3
    a4) = some t0 → Kept K z t0 := by
  unfold intcReg
  refine Kept.ite (P := fun x : Option State => ∀ t0, x = some t0 → Kept K z t0) ?_ ?_
  · exact (Kept.some (doorbell_kept ha4))
  · refine Kept.ite (P := fun x : Option State => ∀ t0, x = some t0 → Kept K z t0) ?_ ?_
    · exact (Kept.some (eoi_kept intStacks ha4))
    · refine Kept.ite (P := fun x : Option State => ∀ t0, x = some t0 → Kept K z t0) ?_ ?_
      · exact (Kept.some (setpri_kept intStacks ha4))
      · refine Kept.ite (P := fun x : Option State => ∀ t0, x = some t0 → Kept K z t0) ?_ ?_
        · exact (Kept.some (pendWrite_kept ha4))
        · refine Kept.ite (P := fun x : Option State => ∀ t0, x = some t0 → Kept K z t0) ?_ ?_
          · exact (Kept.some (intcMask_kept ha4))
          · refine Kept.ite (P := fun x : Option State => ∀ t0, x = some t0 → Kept K z t0) ?_ ?_
            · exact (Kept.some ha4)
            · refine Kept.ite (P := fun x : Option State => ∀ t0, x = some t0 → Kept K z t0) ?_ ?_
              · exact (Kept.some (intcUpdate_kept (storeReg_kept ha4)))
              · exact Kept.none

theorem secReg_kept {z a0 a1 a2 a3} (memory : ¬K .memory) (agents : ¬K .agents) (ha3 : Kept K z a3) : ∀ t0, (secReg
    a0 a1 a2 a3) = some t0 → Kept K z t0 := by
  unfold secReg
  refine Kept.ite (P := fun x : Option State => ∀ t0, x = some t0 → Kept K z t0) ?_ ?_
  · exact (Kept.some (runSlot_kept memory agents ha3))
  · refine Kept.ite (P := fun x : Option State => ∀ t0, x = some t0 → Kept K z t0) ?_ ?_
    · exact (Kept.some (keyRevoke_kept ha3))
    · refine Kept.ite (P := fun x : Option State => ∀ t0, x = some t0 → Kept K z t0) ?_ ?_
      · exact (Kept.some (svnCommit_kept agents ha3))
      · refine Kept.ite (P := fun x : Option State => ∀ t0, x = some t0 → Kept K z t0) ?_ ?_
        · exact (Kept.some (engReload_kept memory agents ha3))
        · refine Kept.ite (P := fun x : Option State => ∀ t0, x = some t0 → Kept K z t0) ?_ ?_
          · exact (Kept.some (ranged_kept ha3))
          · exact Kept.none

theorem faultReg_kept {z a0 a1 a2 a3} (ha3 : Kept K z a3) : ∀ t0, (faultReg a0 a1 a2 a3) = some t0 → Kept K z t0 := by
  unfold faultReg
  refine Kept.ite (P := fun x : Option State => ∀ t0, x = some t0 → Kept K z t0) ?_ ?_
  · exact (Kept.some (openClear_kept ha3))
  · refine Kept.ite (P := fun x : Option State => ∀ t0, x = some t0 → Kept K z t0) ?_ ?_
    · exact (Kept.some (ranged_kept ha3))
    · refine Kept.ite (P := fun x : Option State => ∀ t0, x = some t0 → Kept K z t0) ?_ ?_
      · exact (Kept.some (coverUpdate_kept (storeReg_kept ha3)))
      · exact Kept.none

theorem capoReg_kept {z a0 a1 a2 a3} (ha3 : Kept K z a3) : ∀ t0, (capoReg a0 a1 a2 a3) = some t0 → Kept K z t0 := by
  unfold capoReg
  refine Kept.ite (P := fun x : Option State => ∀ t0, x = some t0 → Kept K z t0) ?_ ?_
  · exact (Kept.some (flipCmd_kept ha3))
  · refine Kept.ite (P := fun x : Option State => ∀ t0, x = some t0 → Kept K z t0) ?_ ?_
    · exact (Kept.some (flipArm_kept ha3))
    · refine Kept.ite (P := fun x : Option State => ∀ t0, x = some t0 → Kept K z t0) ?_ ?_
      · exact (Kept.some (drainForce_kept ha3))
      · refine Kept.ite (P := fun x : Option State => ∀ t0, x = some t0 → Kept K z t0) ?_ ?_
        · exact (Kept.some (ranged_kept ha3))
        · refine Kept.ite (P := fun x : Option State => ∀ t0, x = some t0 → Kept K z t0) ?_ ?_
          · exact (Kept.some (ranged_kept ha3))
          · exact Kept.none

theorem pairReg_kept {z a0 a1 a2 a3} (agents : ¬K .agents) (ha3 : Kept K z a3) : ∀ t0, (pairReg a0 a1 a2 a3) = some
    t0 → Kept K z t0 := by
  unfold pairReg
  refine Kept.ite (P := fun x : Option State => ∀ t0, x = some t0 → Kept K z t0) ?_ ?_
  · exact (Kept.some (handover_kept ha3))
  · refine Kept.ite (P := fun x : Option State => ∀ t0, x = some t0 → Kept K z t0) ?_ ?_
    · exact (Kept.some (reload_kept agents ha3))
    · refine Kept.ite (P := fun x : Option State => ∀ t0, x = some t0 → Kept K z t0) ?_ ?_
      · exact (Kept.some (ranged_kept ha3))
      · refine Kept.ite (P := fun x : Option State => ∀ t0, x = some t0 → Kept K z t0) ?_ ?_
        · exact (Kept.some (wdtKick_kept ha3))
        · exact Kept.none

theorem lineReg_kept {z a0 a1 a2 a3 a4} (ha4 : Kept K z a4) : ∀ t0, (lineReg a0 a1 a2 a3 a4) = some t0 → Kept K z t0
    := by
  unfold lineReg
  split
  · refine Kept.ite (P := fun x : Option State => ∀ t0, x = some t0 → Kept K z t0) ?_ ?_
    · exact (Kept.some (mapCommit_kept ha4))
    · refine Kept.ite (P := fun x : Option State => ∀ t0, x = some t0 → Kept K z t0) ?_ ?_
      · exact (Kept.some (ranged_kept ha4))
      · refine Kept.ite (P := fun x : Option State => ∀ t0, x = some t0 → Kept K z t0) ?_ ?_
        · exact (Kept.some (ranged_kept ha4))
        · exact Kept.none
  · refine Kept.ite (P := fun x : Option State => ∀ t0, x = some t0 → Kept K z t0) ?_ ?_
    · exact (Kept.some (ohpCfgWrite_kept ha4))
    · refine Kept.ite (P := fun x : Option State => ∀ t0, x = some t0 → Kept K z t0) ?_ ?_
      · exact (Kept.some (Kept.ite (P := Kept K z) (State.setHb_kept ha4) ha4))
      · exact Kept.none
  · exact Kept.none

theorem l2Reg_kept {z a0 a1 a2 a3} (learn : ¬K .learn) (ha3 : Kept K z a3) : ∀ t0, (l2Reg a0 a1 a2 a3) = some t0 →
    Kept K z t0 := by
  unfold l2Reg
  refine Kept.ite (P := fun x : Option State => ∀ t0, x = some t0 → Kept K z t0) ?_ ?_
  · exact (Kept.some (ranged_kept ha3))
  · refine Kept.ite (P := fun x : Option State => ∀ t0, x = some t0 → Kept K z t0) ?_ ?_
    · exact (Kept.some (ageRebase_kept (ranged_kept ha3)))
    · refine Kept.ite (P := fun x : Option State => ∀ t0, x = some t0 → Kept K z t0) ?_ ?_
      · exact (Kept.some (ranged_kept ha3))
      · refine Kept.ite (P := fun x : Option State => ∀ t0, x = some t0 → Kept K z t0) ?_ ?_
        · exact (Kept.some (seedWrite_kept ha3))
        · refine Kept.ite (P := fun x : Option State => ∀ t0, x = some t0 → Kept K z t0) ?_ ?_
          · exact (Kept.some (notifyPop_kept learn ha3))
          · exact Kept.none

theorem blockWrite_kept {z a0 a1 a2 a3 a4} (frames : ¬K .frames) (fabric : ¬K .fabric) (memory : ¬K .memory) (time :
    ¬K .time) (learn : ¬K .learn) (intStacks : ¬K .intStacks) (dram : ¬K .dram) (agents : ¬K .agents) (ha4 : Kept K
    z a4) : ∀ t0, (blockWrite a0 a1 a2 a3 a4) = some t0 → Kept K z t0 := by
  unfold blockWrite
  split
  · refine Kept.ite (P := fun x : Option State => ∀ t0, x = some t0 → Kept K z t0) ?_ ?_
    · exact (Kept.some (profileSel_kept ha4))
    · refine Kept.ite (P := fun x : Option State => ∀ t0, x = some t0 → Kept K z t0) ?_ ?_
      · exact (Kept.some (devReset_kept frames fabric memory time learn intStacks dram agents ha4))
      · refine Kept.ite (P := fun x : Option State => ∀ t0, x = some t0 → Kept K z t0) ?_ ?_
        · exact (Kept.some (domCtl_kept frames fabric memory time learn intStacks dram agents ha4))
        · exact Kept.none
  · exact (timeReg_kept time ha4)
  · exact (intcReg_kept intStacks ha4)
  · refine Kept.ite (P := fun x : Option State => ∀ t0, x = some t0 → Kept K z t0) ?_ ?_
    · exact (Kept.some (pegStore_kept agents ha4))
    · exact Kept.none
  · exact (secReg_kept memory agents ha4)
  · exact (hostReg_kept frames ha4)
  · exact (snapReg_kept ha4)
  · exact (faultReg_kept ha4)
  · exact (capoReg_kept ha4)
  · exact (pairReg_kept agents ha4)
  · refine Kept.ite (P := fun x : Option State => ∀ t0, x = some t0 → Kept K z t0) ?_ ?_
    · exact (Kept.some (Kept.ite (P := Kept K z) (storeReg_kept ha4) (errReq_kept ha4)))
    · exact Kept.none
  · exact (bufferReg_kept frames ha4)
  · exact (bufferReg_kept frames ha4)
  · exact (bufferReg_kept frames ha4)
  · refine Kept.ite (P := fun x : Option State => ∀ t0, x = some t0 → Kept K z t0) ?_ ?_
    · exact (Kept.some (macCfg_kept frames ha4))
    · refine Kept.ite (P := fun x : Option State => ∀ t0, x = some t0 → Kept K z t0) ?_ ?_
      · exact (Kept.some (linkCfg_kept frames ha4))
      · refine Kept.ite (P := fun x : Option State => ∀ t0, x = some t0 → Kept K z t0) ?_ ?_
        · exact (Kept.some (bwCfg_kept ha4))
        · exact Kept.none
  · exact (lineReg_kept ha4)
  · exact (lineReg_kept ha4)
  · refine Kept.ite (P := fun x : Option State => ∀ t0, x = some t0 → Kept K z t0) ?_ ?_
    · exact (Kept.some (ranged_kept ha4))
    · exact Kept.none
  · refine Kept.ite (P := fun x : Option State => ∀ t0, x = some t0 → Kept K z t0) ?_ ?_
    · exact (Kept.some (ranged_kept ha4))
    · exact Kept.none
  · refine Kept.ite (P := fun x : Option State => ∀ t0, x = some t0 → Kept K z t0) ?_ ?_
    · exact (Kept.some (ranged_kept ha4))
    · exact Kept.none
  · refine Kept.ite (P := fun x : Option State => ∀ t0, x = some t0 → Kept K z t0) ?_ ?_
    · exact (Kept.some (seedWrite_kept ha4))
    · exact Kept.none
  · refine Kept.ite (P := fun x : Option State => ∀ t0, x = some t0 → Kept K z t0) ?_ ?_
    · exact (Kept.some (lkpCfg_kept ha4))
    · refine Kept.ite (P := fun x : Option State => ∀ t0, x = some t0 → Kept K z t0) ?_ ?_
      · exact (Kept.some (sliceCfg_kept ha4))
      · exact Kept.none
  · exact (l2Reg_kept learn ha4)
  · exact (queueReg_kept ha4)
  · exact (queueReg_kept ha4)
  · exact (queueReg_kept ha4)
  · exact (fgReg_kept fabric ha4)
  · exact (fabReg_kept fabric ha4)
  · exact (dscReg_kept ha4)
  · exact Kept.none
  · exact Kept.none
  · exact Kept.none
  · exact Kept.none

theorem plainWrite_kept {z a0 a1 a2 a3 a4} (ha4 : Kept K z a4) : Kept K z (plainWrite a0 a1 a2 a3 a4) := by
  unfold plainWrite
  split
  · exact (storeReg_kept ha4)
  · exact (ifUnlocked_kept (fun _ h2 => (storeReg_kept h2)) ha4)
  · exact (State.setReg_kept ha4)
  · exact ha4
  · exact ha4
  · exact ha4

theorem writeEffect_kept {z a0 a1 a2 a3} (frames : ¬K .frames) (fabric : ¬K .fabric) (memory : ¬K .memory) (time :
    ¬K .time) (learn : ¬K .learn) (intStacks : ¬K .intStacks) (dram : ¬K .dram) (agents : ¬K .agents) (ha3 : Kept K
    z a3) : Kept K z (writeEffect a0 a1 a2 a3) := by
  unfold writeEffect
  split
  · exact ha3
  · refine Kept.ite (P := Kept K z) ?_ ?_
    · exact (errReq_kept ha3)
    · split
      · rename_i m2 q3
        have h4 : Kept K z m2 := Kept.of_eq (P := fun x : Option State => ∀ t0, x = some t0 → Kept K z t0) q3 (by
          refine Kept.ite (P := fun x : Option State => ∀ t0, x = some t0 → Kept K z t0) ?_ ?_
          · exact (headerWrite_kept frames fabric memory learn intStacks dram agents ha3)
          · exact (blockWrite_kept frames fabric memory time learn intStacks dram agents ha3)) _ rfl
        exact h4
      · exact (plainWrite_kept ha3)

theorem regWrite_kept {z a0 a1 a2 a3} (frames : ¬K .frames) (fabric : ¬K .fabric) (memory : ¬K .memory) (time : ¬K
    .time) (learn : ¬K .learn) (intStacks : ¬K .intStacks) (dram : ¬K .dram) (agents : ¬K .agents) (ha3 : Kept K z
    a3) : Kept K z (regWrite a0 a1 a2 a3) :=
  (gateWrite_kept (fun _ h0 => (writeEffect_kept frames fabric memory time learn intStacks dram agents h0)) ha3)

theorem readHalf_kept {z a0 a1 a2 a3 a4} (ha4 : Kept K z a4) : Kept K z (readHalf a0 a1 a2 a3 a4).2 := by
  unfold readHalf
  extract_lets +onlyGivenNames -merge -useContext u0
  refine Kept.ite (P := fun x : ℕ × State => Kept K z x.2) ?_ ?_
  · try dsimp -zeta only
    exact ha4
  · try dsimp -zeta only
    exact (State.setReg_kept ha4)

theorem readShadow_kept {z a0 a1 a2} (ha2 : Kept K z a2) : Kept K z (readShadow a0 a1 a2).2 := by
  unfold readShadow
  extract_lets +onlyGivenNames -merge -useContext u0 u1 u2
  have h3 : Kept K z u2 := (perfSync_kept ha2)
  try clear_value u2
  refine Kept.ite (P := fun x : ℕ × State => Kept K z x.2) ?_ ?_
  · try dsimp -zeta only
    exact h3
  · extract_lets +onlyGivenNames -merge -useContext u4
    exact (readHalf_kept h3)

theorem headerRead_kept {z a0 a1 a2 a3} (ha3 : Kept K z a3) : ∀ t0, (headerRead a0 a1 a2 a3) = some t0 → Kept K z
    t0.2 := by
  unfold headerRead
  extract_lets +onlyGivenNames -merge -useContext u0
  refine Kept.ite (P := fun x : Option (ℕ × State) => ∀ t0, x = some t0 → Kept K z t0.2) ?_ ?_
  · refine Kept.some ?_
    try dsimp -zeta only
    exact ha3
  · refine Kept.ite (P := fun x : Option (ℕ × State) => ∀ t0, x = some t0 → Kept K z t0.2) ?_ ?_
    · refine Kept.some ?_
      try dsimp -zeta only
      exact ha3
    · refine Kept.ite (P := fun x : Option (ℕ × State) => ∀ t0, x = some t0 → Kept K z t0.2) ?_ ?_
      · refine Kept.some ?_
        try dsimp -zeta only
        exact ha3
      · refine Kept.ite (P := fun x : Option (ℕ × State) => ∀ t0, x = some t0 → Kept K z t0.2) ?_ ?_
        · refine Kept.some ?_
          try dsimp -zeta only
          exact ha3
        · refine Kept.ite (P := fun x : Option (ℕ × State) => ∀ t0, x = some t0 → Kept K z t0.2) ?_ ?_
          · refine Kept.some ?_
            try dsimp -zeta only
            exact ha3
          · refine Kept.ite (P := fun x : Option (ℕ × State) => ∀ t0, x = some t0 → Kept K z t0.2) ?_ ?_
            · refine Kept.some ?_
              try dsimp -zeta only
              exact (State.setH_kept ha3)
            · refine Kept.ite (P := fun x : Option (ℕ × State) => ∀ t0, x = some t0 → Kept K z t0.2) ?_ ?_
              · exact (Kept.some (readHalf_kept ha3))
              · refine Kept.ite (P := fun x : Option (ℕ × State) => ∀ t0, x = some t0 → Kept K z t0.2) ?_ ?_
                · extract_lets +onlyGivenNames -merge -useContext u1
                  have h2 : Kept K z u1 := (perfSync_kept ha3)
                  try clear_value u1
                  refine Kept.some ?_
                  try dsimp -zeta only
                  exact h2
                · refine Kept.ite (P := fun x : Option (ℕ × State) => ∀ t0, x = some t0 → Kept K z t0.2) ?_ ?_
                  · refine Kept.some ?_
                    try dsimp -zeta only
                    exact ha3
                  · exact Kept.none

theorem latchStamp_kept {z a0 a1 a2 a3} (ha3 : Kept K z a3) : Kept K z (latchStamp a0 a1 a2 a3).2 := by
  unfold latchStamp
  try dsimp -zeta only
  exact (forEach_kept ha3 (fun _ _ h0 => (State.setReg_kept h0)))

theorem timeRead_kept {z a0 a1 a2 a3} (ha3 : Kept K z a3) : ∀ t0, (timeRead a0 a1 a2 a3) = some t0 → Kept K z t0.2
    := by
  unfold timeRead
  extract_lets +onlyGivenNames -merge -useContext u0 u1
  have h2 : ∀ t0, u1 = some t0 → Kept K z t0.2 := by
    unfold u1
    refine Kept.some ?_
    try dsimp -zeta only
    exact ha3
  try clear_value u1
  refine Kept.ite (P := fun x : Option (ℕ × State) => ∀ t0, x = some t0 → Kept K z t0.2) ?_ ?_
  · exact (Kept.some (readTbFrac_kept ha3))
  · refine Kept.ite (P := fun x : Option (ℕ × State) => ∀ t0, x = some t0 → Kept K z t0.2) ?_ ?_
    · refine Kept.some ?_
      try dsimp -zeta only
      exact ha3
    · refine Kept.ite (P := fun x : Option (ℕ × State) => ∀ t0, x = some t0 → Kept K z t0.2) ?_ ?_
      · refine Kept.some ?_
        try dsimp -zeta only
        exact ha3
      · refine Kept.ite (P := fun x : Option (ℕ × State) => ∀ t0, x = some t0 → Kept K z t0.2) ?_ ?_
        · exact h2
        · refine Kept.ite (P := fun x : Option (ℕ × State) => ∀ t0, x = some t0 → Kept K z t0.2) ?_ ?_
          · exact h2
          · refine Kept.ite (P := fun x : Option (ℕ × State) => ∀ t0, x = some t0 → Kept K z t0.2) ?_ ?_
            · exact (Kept.some (latchStamp_kept ha3))
            · refine Kept.ite (P := fun x : Option (ℕ × State) => ∀ t0, x = some t0 → Kept K z t0.2) ?_ ?_
              · exact h2
              · refine Kept.ite (P := fun x : Option (ℕ × State) => ∀ t0, x = some t0 → Kept K z t0.2) ?_ ?_
                · exact (Kept.some (latchStamp_kept ha3))
                · refine Kept.ite (P := fun x : Option (ℕ × State) => ∀ t0, x = some t0 → Kept K z t0.2) ?_ ?_
                  · exact h2
                  · refine Kept.ite (P := fun x : Option (ℕ × State) => ∀ t0, x = some t0 → Kept K z t0.2) ?_ ?_
                    · refine Kept.some ?_
                      try dsimp -zeta only
                      exact ha3
                    · refine Kept.ite (P := fun x : Option (ℕ × State) => ∀ t0, x = some t0 → Kept K z t0.2) ?_ ?_
                      · refine Kept.some ?_
                        try dsimp -zeta only
                        exact ha3
                      · exact Kept.none

theorem measured_kept {z a0 a1 a2 a3 a4} (ha4 : Kept K z a4) : ∀ t0, (measured a0 a1 a2 a3 a4) = some t0 → Kept K z
    t0.2 := by
  unfold measured
  extract_lets +onlyGivenNames -merge -useContext u0
  refine Kept.ite (P := fun x : Option (ℕ × State) => ∀ t0, x = some t0 → Kept K z t0.2) ?_ ?_
  · refine Kept.some ?_
    try dsimp -zeta only
    exact ha4
  · split
    · rename_i m1 m2 q3
      have h4 : Kept K z m2 := Kept.of_eq (P := fun x : ℕ × State => Kept K z x.2) q3 (State.free_kept ha4)
      refine Kept.some ?_
      try dsimp -zeta only
      exact (State.setH_kept (State.setReg_kept h4))

theorem tjRead_kept {z a0} (ha0 : Kept K z a0) : Kept K z (tjRead a0).2 := by
  unfold tjRead
  refine Kept.ite (P := fun x : ℕ × State => Kept K z x.2) ?_ ?_
  · try dsimp -zeta only
    exact ha0
  · split
    · rename_i m0 m1 q2
      have h3 : Kept K z m1 := Kept.of_eq (P := fun x : ℕ × State => Kept K z x.2) q2 (State.free_kept ha0)
      try dsimp -zeta only
      exact h3

theorem blockRead_kept {z a0 a1 a2 a3} (intStacks : ¬K .intStacks) (ha3 : Kept K z a3) : ∀ t0, (blockRead a0 a1 a2
    a3) = some t0 → Kept K z t0.2 := by
  unfold blockRead
  split
  · refine Kept.ite (P := fun x : Option (ℕ × State) => ∀ t0, x = some t0 → Kept K z t0.2) ?_ ?_
    · exact (measured_kept ha3)
    · refine Kept.ite (P := fun x : Option (ℕ × State) => ∀ t0, x = some t0 → Kept K z t0.2) ?_ ?_
      · exact (measured_kept ha3)
      · refine Kept.ite (P := fun x : Option (ℕ × State) => ∀ t0, x = some t0 → Kept K z t0.2) ?_ ?_
        · exact (measured_kept ha3)
        · refine Kept.ite (P := fun x : Option (ℕ × State) => ∀ t0, x = some t0 → Kept K z t0.2) ?_ ?_
          · exact (Kept.some (tjRead_kept ha3))
          · exact Kept.none
  · exact (timeRead_kept ha3)
  · refine Kept.ite (P := fun x : Option (ℕ × State) => ∀ t0, x = some t0 → Kept K z t0.2) ?_ ?_
    · exact (Kept.some (claim_kept intStacks ha3))
    · refine Kept.ite (P := fun x : Option (ℕ × State) => ∀ t0, x = some t0 → Kept K z t0.2) ?_ ?_
      · refine Kept.some ?_
        try dsimp -zeta only
        exact ha3
      · refine Kept.ite (P := fun x : Option (ℕ × State) => ∀ t0, x = some t0 → Kept K z t0.2) ?_ ?_
        · refine Kept.some ?_
          try dsimp -zeta only
          exact (State.setH_kept ha3)
        · exact Kept.none
  · refine Kept.ite (P := fun x : Option (ℕ × State) => ∀ t0, x = some t0 → Kept K z t0.2) ?_ ?_
    · refine Kept.some ?_
      try dsimp -zeta only
      exact ha3
    · exact Kept.none
  · refine Kept.ite (P := fun x : Option (ℕ × State) => ∀ t0, x = some t0 → Kept K z t0.2) ?_ ?_
    · refine Kept.some ?_
      try dsimp -zeta only
      exact ha3
    · exact Kept.none
  · refine Kept.ite (P := fun x : Option (ℕ × State) => ∀ t0, x = some t0 → Kept K z t0.2) ?_ ?_
    · refine Kept.some ?_
      try dsimp -zeta only
      exact ha3
    · exact Kept.none
  · refine Kept.ite (P := fun x : Option (ℕ × State) => ∀ t0, x = some t0 → Kept K z t0.2) ?_ ?_
    · refine Kept.some ?_
      try dsimp -zeta only
      exact ha3
    · refine Kept.ite (P := fun x : Option (ℕ × State) => ∀ t0, x = some t0 → Kept K z t0.2) ?_ ?_
      · refine Kept.some ?_
        try dsimp -zeta only
        exact ha3
      · exact Kept.none
  · refine Kept.ite (P := fun x : Option (ℕ × State) => ∀ t0, x = some t0 → Kept K z t0.2) ?_ ?_
    · refine Kept.some ?_
      try dsimp -zeta only
      exact ha3
    · refine Kept.ite (P := fun x : Option (ℕ × State) => ∀ t0, x = some t0 → Kept K z t0.2) ?_ ?_
      · refine Kept.some ?_
        try dsimp -zeta only
        exact ha3
      · refine Kept.ite (P := fun x : Option (ℕ × State) => ∀ t0, x = some t0 → Kept K z t0.2) ?_ ?_
        · refine Kept.some ?_
          try dsimp -zeta only
          exact ha3
        · refine Kept.ite (P := fun x : Option (ℕ × State) => ∀ t0, x = some t0 → Kept K z t0.2) ?_ ?_
          · refine Kept.some ?_
            try dsimp -zeta only
            exact ha3
          · exact Kept.none
  · refine Kept.ite (P := fun x : Option (ℕ × State) => ∀ t0, x = some t0 → Kept K z t0.2) ?_ ?_
    · refine Kept.some ?_
      try dsimp -zeta only
      exact ha3
    · exact Kept.none
  · refine Kept.ite (P := fun x : Option (ℕ × State) => ∀ t0, x = some t0 → Kept K z t0.2) ?_ ?_
    · exact (Kept.some (bwSeq_kept ha3))
    · refine Kept.ite (P := fun x : Option (ℕ × State) => ∀ t0, x = some t0 → Kept K z t0.2) ?_ ?_
      · extract_lets +onlyGivenNames -merge -useContext u10
        refine Kept.some ?_
        try dsimp -zeta only
        exact ha3
      · exact Kept.none
  · refine Kept.ite (P := fun x : Option (ℕ × State) => ∀ t0, x = some t0 → Kept K z t0.2) ?_ ?_
    · exact (Kept.some (clkMeas_kept ha3))
    · refine Kept.ite (P := fun x : Option (ℕ × State) => ∀ t0, x = some t0 → Kept K z t0.2) ?_ ?_
      · refine Kept.some ?_
        try dsimp -zeta only
        exact ha3
      · exact Kept.none
  · refine Kept.ite (P := fun x : Option (ℕ × State) => ∀ t0, x = some t0 → Kept K z t0.2) ?_ ?_
    · refine Kept.some ?_
      try dsimp -zeta only
      exact ha3
    · refine Kept.ite (P := fun x : Option (ℕ × State) => ∀ t0, x = some t0 → Kept K z t0.2) ?_ ?_
      · refine Kept.some ?_
        try dsimp -zeta only
        exact ha3
      · exact Kept.none
  · refine Kept.ite (P := fun x : Option (ℕ × State) => ∀ t0, x = some t0 → Kept K z t0.2) ?_ ?_
    · refine Kept.some ?_
      try dsimp -zeta only
      exact ha3
    · exact Kept.none
  · refine Kept.ite (P := fun x : Option (ℕ × State) => ∀ t0, x = some t0 → Kept K z t0.2) ?_ ?_
    · refine Kept.some ?_
      try dsimp -zeta only
      exact ha3
    · exact Kept.none
  · exact Kept.none

theorem plainRead_kept {z a0 a1 a2 a3} (ha3 : Kept K z a3) : Kept K z (plainRead a0 a1 a2 a3).2 := by
  unfold plainRead
  split
  · try dsimp -zeta only
    exact ha3
  · try dsimp -zeta only
    exact (State.setReg_kept ha3)
  · refine Kept.ite (P := fun x : ℕ × State => Kept K z x.2) ?_ ?_
    · exact (readHalf_kept ha3)
    · try dsimp -zeta only
      exact ha3

theorem readEffect_kept {z a0 a1 a2} (intStacks : ¬K .intStacks) (ha2 : Kept K z a2) : Kept K z (readEffect a0 a1
    a2).2 := by
  unfold readEffect
  split
  · exact (readShadow_kept ha2)
  · refine Kept.ite (P := fun x : ℕ × State => Kept K z x.2) ?_ ?_
    · try dsimp -zeta only
      exact ha2
    · split
      · rename_i m2 q3
        have h4 : Kept K z m2.2 := Kept.of_eq (P := fun x : Option (ℕ × State) => ∀ t0, x = some t0 → Kept K z t0.2)
            q3 (by
          refine Kept.ite (P := fun x : Option (ℕ × State) => ∀ t0, x = some t0 → Kept K z t0.2) ?_ ?_
          · exact (headerRead_kept ha2)
          · exact (blockRead_kept intStacks ha2)) _ rfl
        exact h4
      · exact (plainRead_kept ha2)

theorem regRead_kept {z a0 a1 a2} (intStacks : ¬K .intStacks) (ha2 : Kept K z a2) : Kept K z (regRead a0 a1 a2).2 :=
  (gateRead_kept (fun _ h0 => (readEffect_kept intStacks h0)) ha2)

theorem readOut_kept {z a0 a1 a2} (intStacks : ¬K .intStacks) (ha2 : Kept K z a2) : Kept K z (readOut a0 a1 a2) :=
  (readFor_kept (fun _ h0 => (readEffect_kept intStacks h0)) ha2)

theorem execRegisterWrite_kept {z a0 a1 a2 a3} (frames : ¬K .frames) (fabric : ¬K .fabric) (memory : ¬K .memory)
    (time : ¬K .time) (learn : ¬K .learn) (intStacks : ¬K .intStacks) (dram : ¬K .dram) (agents : ¬K .agents) (ha3 :
    Kept K z a3) : ∀ t, (execRegisterWrite a0 a1 a2 a3) = .next t → Kept K z t :=
  (done_kept (regWrite_kept frames fabric memory time learn intStacks dram agents ha3))

theorem execReadLowHalf_kept {z a0 a1 a2} (intStacks : ¬K .intStacks) (ha2 : Kept K z a2) : ∀ t, (execReadLowHalf a0
    a1 a2) = .next t → Kept K z t :=
  (done_kept (readOut_kept intStacks ha2))

theorem execReadClear_kept {z a0 a1 a2} (intStacks : ¬K .intStacks) (ha2 : Kept K z a2) : ∀ t, (execReadClear a0 a1
    a2) = .next t → Kept K z t :=
  (done_kept (readOut_kept intStacks ha2))

theorem ctlWrite_kept {z a0 a1} {a2 : State → State} {a3} (ha2 : ∀ y0_0, (Kept K z y0_0) → Kept K z (a2 y0_0)) (ha3
    : Kept K z a3) : Kept K z (ctlWrite a0 a1 a2 a3) :=
  (gateWrite_kept ha2 ha3)

theorem execSoftReset_kept {z a0 a1 a2} (frames : ¬K .frames) (fabric : ¬K .fabric) (learn : ¬K .learn) (intStacks :
    ¬K .intStacks) (dram : ¬K .dram) (agents : ¬K .agents) (ha2 : Kept K z a2) : ∀ t, (execSoftReset a0 a1 a2) =
    .next t → Kept K z t :=
  (done_kept (ctlWrite_kept (fun _ h0 => (softReset_kept frames fabric learn intStacks dram agents h0)) ha2))

theorem execSoftResetDone_kept {z a0 a1} (ha1 : Kept K z a1) : ∀ t, (execSoftResetDone a0 a1) = .next t → Kept K z t
    :=
  (done_kept (State.when_kept ha1 (fun _ h0 => (State.setRbit_kept h0))))

theorem execBlockEnable_kept {z a0 a1 a2} (fabric : ¬K .fabric) (ha2 : Kept K z a2) : ∀ t, (execBlockEnable a0 a1
    a2) = .next t → Kept K z t :=
  (done_kept (ctlWrite_kept (fun _ h0 => (enable_kept fabric h0)) ha2))

theorem execBlockDisable_kept {z a0 a1 a2} (frames : ¬K .frames) (fabric : ¬K .fabric) (dram : ¬K .dram) (ha2 : Kept
    K z a2) : ∀ t, (execBlockDisable a0 a1 a2) = .next t → Kept K z t :=
  (done_kept (ctlWrite_kept (fun _ h0 => (disable_kept frames fabric dram h0)) ha2))

theorem execBlockLock_kept {z a0 a1 a2} (ha2 : Kept K z a2) : ∀ t, (execBlockLock a0 a1 a2) = .next t → Kept K z t :=
  (done_kept (ctlWrite_kept (fun _ h0 => (State.setRbit_kept h0)) ha2))

theorem execDroneEnable_kept {z a0 a1 a2} (ha2 : Kept K z a2) : ∀ t, (execDroneEnable a0 a1 a2) = .next t → Kept K z
    t :=
  (done_kept (ctlWrite_kept (fun _ h0 => (droneOn_kept h0)) ha2))

theorem execEvtPendWrite_kept {z a0 a1 a2 a3} (ha3 : Kept K z a3) : ∀ t, (execEvtPendWrite a0 a1 a2 a3) = .next t →
    Kept K z t :=
  (done_kept (gateWrite_kept (fun _ h0 => (evtPend_kept h0)) ha3))

theorem execEvtMaskWrite_kept {z a0 a1 a2 a3} (ha3 : Kept K z a3) : ∀ t, (execEvtMaskWrite a0 a1 a2 a3) = .next t →
    Kept K z t :=
  (done_kept (gateWrite_kept (fun _ h0 => (evtMask_kept h0)) ha3))

theorem execProfileSelect_kept {z a0 a1 a2} (ha2 : Kept K z a2) : ∀ t, (execProfileSelect a0 a1 a2) = .next t → Kept
    K z t :=
  (done_kept (gateWrite_kept (fun _ h0 => (profileSel_kept h0)) ha2))

theorem execTblRead_kept {z a0 a1 a2} (frames : ¬K .frames) (fabric : ¬K .fabric) (memory : ¬K .memory) (learn : ¬K
    .learn) (dram : ¬K .dram) (agents : ¬K .agents) (ha2 : Kept K z a2) : ∀ t, (execTblRead a0 a1 a2) = .next t →
    Kept K z t :=
  (done_kept (gateWrite_kept (fun _ h0 => (cmdWrite_kept frames fabric memory learn dram agents h0)) ha2))

theorem execTblWrite_kept {z a0 a1 a2} (frames : ¬K .frames) (fabric : ¬K .fabric) (memory : ¬K .memory) (learn : ¬K
    .learn) (dram : ¬K .dram) (agents : ¬K .agents) (ha2 : Kept K z a2) : ∀ t, (execTblWrite a0 a1 a2) = .next t →
    Kept K z t :=
  (done_kept (gateWrite_kept (fun _ h0 => (cmdWrite_kept frames fabric memory learn dram agents h0)) ha2))

theorem accErr_kept {z a0 a1} (ha1 : Kept K z a1) : Kept K z (accErr a0 a1) :=
  (errReq_kept (bump_kept ha1))

theorem bar0Read_kept {z a0 a1 a2 a3} (intStacks : ¬K .intStacks) (ha3 : Kept K z a3) : Kept K z (bar0Read a0 a1 a2
    a3) := by
  unfold bar0Read
  refine Kept.ite (P := Kept K z) ?_ ?_
  · split
    · rename_i m0 m1 q2
      have h3 : Kept K z m1 := Kept.of_eq (P := fun x : ℕ × State => Kept K z x.2) q2 (regRead_kept intStacks ha3)
      exact (State.emit_kept h3)
  · refine Kept.ite (P := Kept K z) ?_ ?_
    · split
      · rename_i m4 m5 q6
        have h7 : Kept K z m5 := Kept.of_eq (P := fun x : ℕ × State => Kept K z x.2) q6 (regRead_kept intStacks ha3)
        split
        · rename_i m8 m9 q10
          have h11 : Kept K z m9 := Kept.of_eq (P := fun x : ℕ × State => Kept K z x.2) q10 (regRead_kept intStacks
              h7)
          exact (State.emit_kept h11)
    · exact (Kept.ite (P := Kept K z) (State.emit_kept (accErr_kept ha3)) (cplUr_kept (accErr_kept ha3)))

theorem bar0Write_kept {z a0 a1 a2 a3} (frames : ¬K .frames) (fabric : ¬K .fabric) (memory : ¬K .memory) (time : ¬K
    .time) (learn : ¬K .learn) (intStacks : ¬K .intStacks) (dram : ¬K .dram) (agents : ¬K .agents) (ha3 : Kept K z
    a3) : Kept K z (bar0Write a0 a1 a2 a3) := by
  unfold bar0Write
  split
  · exact (Kept.ite (P := Kept K z) (regWrite_kept frames fabric memory time learn intStacks dram agents ha3)
      (accErr_kept ha3))
  · exact (Kept.ite (P := Kept K z) (regWrite_kept frames fabric memory time learn intStacks dram agents
      (regWrite_kept frames fabric memory time learn intStacks dram agents ha3)) (accErr_kept ha3))
  · exact (accErr_kept ha3)

theorem execBar0Request_kept {z a0 a1 a2 a3 a4} (frames : ¬K .frames) (fabric : ¬K .fabric) (memory : ¬K .memory)
    (time : ¬K .time) (learn : ¬K .learn) (intStacks : ¬K .intStacks) (dram : ¬K .dram) (agents : ¬K .agents) (ha4 :
    Kept K z a4) : ∀ t, (execBar0Request a0 a1 a2 a3 a4) = .next t → Kept K z t := by
  unfold execBar0Request
  refine done_kept ?_
  refine memReq_kept ?_ ?_
  · intro a9 h10
    split
    · exact (bar0Write_kept frames fabric memory time learn intStacks dram agents h10)
    · exact (bar0Read_kept intStacks h10)
  · exact ha4

theorem cellByte_kept {z a0 a1} (ha1 : Kept K z a1) : Kept K z (cellByte a0 a1).2 := by
  unfold cellByte
  split
  · try dsimp -zeta only
    exact ha1
  · refine Kept.ite (P := fun x : Byte × State => Kept K z x.2) ?_ ?_
    · try dsimp -zeta only
      exact ha1
    · split
      · rename_i m2 m3 q4
        have h5 : Kept K z m3 := Kept.of_eq (P := fun x : ℕ × State => Kept K z x.2) q4 (State.free_kept ha1)
        try dsimp -zeta only
        exact h5

theorem setCellByte_kept {z a0 a1 a2} (frames : ¬K .frames) (memory : ¬K .memory) (ha2 : Kept K z a2) : Kept K z
    (setCellByte a0 a1 a2) := by
  unfold setCellByte
  refine Kept.ite (P := Kept K z) ?_ ?_
  · exact (State.setTab_kept (State.wrMem_kept memory ha2))
  · split
    · exact (Kept.same ha2 rfl (Area.each (absurd · frames) (fun _ => Area.f5) (fun _ => rfl) (fun _ => Area.f5)
        (fun _ => Area.f3) (fun _ => rfl) (fun _ => Area.f4) (fun _ => Area.f8)))
    · exact (Kept.same ha2 rfl (Area.each (absurd · frames) (fun _ => Area.f5) (fun _ => rfl) (fun _ => Area.f5)
        (fun _ => Area.f3) (fun _ => rfl) (fun _ => Area.f4) (fun _ => Area.f8)))
    · exact (Kept.same ha2 rfl (Area.each (absurd · frames) (fun _ => Area.f5) (fun _ => rfl) (fun _ => Area.f5)
        (fun _ => Area.f3) (fun _ => rfl) (fun _ => Area.f4) (fun _ => Area.f8)))
    · exact ha2

theorem deepBlock_kept {z a0 a1 a2} (ha2 : Kept K z a2) : Kept K z (deepBlock a0 a1 a2).2 := by
  unfold deepBlock
  extract_lets +onlyGivenNames -merge -useContext u0
  have h1 : Kept K z u0.2 := (deepRead_kept ha2)
  try clear_value u0
  try dsimp -zeta only
  exact h1

theorem deepBytes_kept {z a0 a1 a2} (time : ¬K .time) (dram : ¬K .dram) (ha2 : Kept K z a2) : Kept K z (deepBytes a0
    a1 a2).2.2 := by
  unfold deepBytes
  extract_lets +onlyGivenNames -merge -useContext u0 u1
  have h2 : Kept K z u1.2.2 := by
    unfold u1
    refine Kept.foldl (P := fun x : List Byte × Bool × State => Kept K z x.2.2) ?_ ?_
    · try dsimp -zeta only
      try dsimp -zeta only
      exact ha2
    · intro x4 y5 h3
      extract_lets +onlyGivenNames -merge -useContext u6 u7
      have h8 : Kept K z u7.2 := (deepBlock_kept (Kept.ite (P := Kept K z) (swTouch_kept time dram h3) h3))
      try clear_value u7
      try dsimp -zeta only
      try dsimp -zeta only
      exact h8
  try clear_value u1
  try dsimp -zeta only
  try dsimp -zeta only
  exact h2

theorem setDeepBytes_kept {z a0 a1 a2} (memory : ¬K .memory) (time : ¬K .time) (dram : ¬K .dram) (ha2 : Kept K z a2)
    : Kept K z (setDeepBytes a0 a1 a2) := by
  unfold setDeepBytes
  extract_lets +onlyGivenNames -merge -useContext u0
  refine forEach_kept ?_ ?_
  · exact ha2
  · intro a3 a4 h5
    extract_lets +onlyGivenNames -merge -useContext u6
    refine Kept.ite (P := Kept K z) ?_ ?_
    · exact h5
    · extract_lets +onlyGivenNames -merge -useContext u7
      have h8 : Kept K z u7.2 := (deepBlock_kept h5)
      try clear_value u7
      extract_lets +onlyGivenNames -merge -useContext u9
      exact (deepWrite_kept memory (swTouch_kept time dram h8))

theorem winRead_kept {z a0 a1 a2 a3 a4} (time : ¬K .time) (intStacks : ¬K .intStacks) (dram : ¬K .dram) (ha4 : Kept
    K z a4) : Kept K z (winRead a0 a1 a2 a3 a4) := by
  unfold winRead
  refine Kept.ite (P := Kept K z) ?_ ?_
  · exact (bar0Read_kept intStacks ha4)
  · refine Kept.ite (P := Kept K z) ?_ ?_
    · split
      · rename_i m0 m1 q2
        have h3 : Kept K z m1 := Kept.of_eq (P := fun x : List Byte × State => Kept K z x.2) q2 (by
          refine Kept.foldl (P := fun x : List Byte × State => Kept K z x.2) ?_ ?_
          · try dsimp -zeta only
            exact ha4
          · intro x5 y6 h4
            split
            · rename_i m7 m8 q9
              have h10 : Kept K z m8 := Kept.of_eq (P := fun x : Byte × State => Kept K z x.2) q9 (cellByte_kept h4)
              try dsimp -zeta only
              exact h10)
        exact (State.emit_kept h3)
    · extract_lets +onlyGivenNames -merge -useContext u11
      have h12 : Kept K z u11.2.2 := (deepBytes_kept time dram ha4)
      try clear_value u11
      exact (State.emit_kept h12)

theorem winWrite_kept {z a0 a1 a2 a3} (frames : ¬K .frames) (fabric : ¬K .fabric) (memory : ¬K .memory) (time : ¬K
    .time) (learn : ¬K .learn) (intStacks : ¬K .intStacks) (dram : ¬K .dram) (agents : ¬K .agents) (ha3 : Kept K z
    a3) : Kept K z (winWrite a0 a1 a2 a3) := by
  unfold winWrite
  extract_lets +onlyGivenNames -merge -useContext u0
  refine Kept.ite (P := Kept K z) ?_ ?_
  · exact (bar0Write_kept frames fabric memory time learn intStacks dram agents ha3)
  · refine Kept.ite (P := Kept K z) ?_ ?_
    · refine forEach_kept ?_ ?_
      · exact ha3
      · intro a5 a6 h7
        split
        · exact (setCellByte_kept frames memory h7)
    · exact (setDeepBytes_kept memory time dram ha3)

theorem bar2_kept {z a0 a1 a2 a3 a4} (frames : ¬K .frames) (fabric : ¬K .fabric) (memory : ¬K .memory) (time : ¬K
    .time) (learn : ¬K .learn) (intStacks : ¬K .intStacks) (dram : ¬K .dram) (agents : ¬K .agents) (ha4 : Kept K z
    a4) : Kept K z (bar2 a0 a1 a2 a3 a4) := by
  unfold bar2
  extract_lets +onlyGivenNames -merge -useContext u0
  have h1 : ∀ y0_0, (Kept K z y0_0) → Kept K z (u0 y0_0) := (fun _ h2 => (Kept.ite (P := Kept K z) (cplUr_kept h2)
      h2))
  try clear_value u0
  refine Kept.ite (P := Kept K z) ?_ ?_
  · exact (h1 _ ha4)
  · split
    · exact (h1 _ (bump_kept ha4))
    · split
      · refine Kept.ite (P := Kept K z) ?_ ?_
        · exact (h1 _ (bump_kept ha4))
        · split
          · exact (winWrite_kept frames fabric memory time learn intStacks dram agents ha4)
          · exact (winRead_kept time intStacks dram ha4)

theorem execBar2Request_kept {z a0 a1 a2 a3 a4} (frames : ¬K .frames) (fabric : ¬K .fabric) (memory : ¬K .memory)
    (time : ¬K .time) (learn : ¬K .learn) (intStacks : ¬K .intStacks) (dram : ¬K .dram) (agents : ¬K .agents) (ha4 :
    Kept K z a4) : ∀ t, (execBar2Request a0 a1 a2 a3 a4) = .next t → Kept K z t :=
  (done_kept (memReq_kept (fun _ h0 => (bar2_kept frames fabric memory time learn intStacks dram agents h0)) ha4))

end Sys2Proof.Machine
end

