-- ==== Sys2Proof/Laws/KeptBridge.lean ====
section
/-!
SUPPORT. Every operation and meaning of Machine/Bridge.lean keeps the state sane, its queue as it is and its outputs made.
-/
namespace Sys2Proof.Machine

variable {K : Area → Prop}

theorem bridgeCrcFail_kept {z a0 a1 a2} (ha2 : Kept K z a2) : Kept K z (bridgeCrcFail a0 a1 a2) := by
  unfold bridgeCrcFail
  refine Kept.ite (P := Kept K z) ?_ ?_
  · exact ha2
  · extract_lets +onlyGivenNames -merge -useContext u0
    have h1 : Kept K z u0 := (faultRecord_kept (bump_kept (bump_kept ha2)))
    try clear_value u0
    exact (State.setH_kept h1)

theorem execBridgeCrcFail_kept {z a0 a1 a2 a3} (ha3 : Kept K z a3) : ∀ t, (execBridgeCrcFail a0 a1 a2 a3) = .next t
    → Kept K z t :=
  (done_kept (State.ifLive_kept ha3 (fun _ h0 => (bridgeCrcFail_kept h0))))

theorem bundleTakeDown_kept {z a0 a1} (ha1 : Kept K z a1) : Kept K z (bundleTakeDown a0 a1) := by
  unfold bundleTakeDown
  extract_lets +onlyGivenNames -merge -useContext u0 u1
  have h2 : Kept K z u1 := (State.setReg_kept (State.setRbit_kept ha1))
  try clear_value u1
  exact (raiseFault_kept (State.setH_kept h2))

theorem laneMarked_kept {z a0 a1} (ha1 : Kept K z a1) : Kept K z (laneMarked a0 a1) :=
  (Kept.ite (P := Kept K z) ha1 (Kept.ite (P := Kept K z) (State.setH_kept ha1) (bundleTakeDown_kept ha1)))

theorem laneErrWindow_kept {z a0} (ha0 : Kept K z a0) : Kept K z (laneErrWindow a0) := by
  unfold laneErrWindow
  extract_lets +onlyGivenNames -merge -useContext u0
  refine forEach_kept ?_ ?_
  · exact ha0
  · intro a3 a4 h5
    split
    · extract_lets +onlyGivenNames -merge -useContext u8
      have h9 : Kept K z u8 := (State.setH_kept h5)
      try clear_value u8
      exact (Kept.ite (P := Kept K z) (laneMarked_kept h9) h9)

theorem execLaneErrWindow_kept {z a0} (time : ¬K .time) (ha0 : Kept K z a0) : ∀ t, (execLaneErrWindow a0) = .next t
    → Kept K z t :=
  (done_kept (State.ifLive_kept ha0 (fun _ h0 => (laneErrWindow_kept (nextInterval_kept time h0)))))

theorem laneSpared_kept {z a0 a1} (ha1 : Kept K z a1) : Kept K z (laneSpared a0 a1) := by
  unfold laneSpared
  refine Kept.ite (P := Kept K z) ?_ ?_
  · exact ha1
  · extract_lets +onlyGivenNames -merge -useContext u0
    have h1 : Kept K z u0 := (State.setH_kept ha1)
    try clear_value u0
    extract_lets +onlyGivenNames -merge -useContext u2
    have h3 : Kept K z u2 := (State.setReg_kept h1)
    try clear_value u2
    extract_lets +onlyGivenNames -merge -useContext u4
    have h5 : Kept K z u4 := (raiseFault_kept (bump_kept h3))
    try clear_value u4
    exact (Kept.ite (P := Kept K z) (raise_kept h5) h5)

theorem execLaneSpared_kept {z a0 a1 a2} (ha2 : Kept K z a2) : ∀ t, (execLaneSpared a0 a1 a2) = .next t → Kept K z t
    :=
  (done_kept (State.ifLive_kept ha2 (fun _ h0 => (laneSpared_kept h0))))

end Sys2Proof.Machine
end

