-- ==== Sys2Proof/Laws/Quiet.lean ====
section
/-!
SUPPORT. Which registers an event, a count, an error or a fault record can change: the pending and error registers and the
counters of a header, the counters of a page, the pending bits of the INTC, the FAULT page and the copies kept beside
registers. Every other register stays as it was.
-/
namespace Sys2Proof.Machine

/-- From `z` to `s` only noisy registers change. -/
structure Quiet (z s : State) : Prop where
  regs : Smap.Canonical regDefault z.regs → Smap.Canonical regDefault s.regs
  reg : Smap.Canonical regDefault z.regs → ∀ a, ¬Noisy a → s.reg a = z.reg a

theorem Quiet.refl (s : State) : Quiet s s := ⟨id, fun _ _ _ => rfl⟩

theorem Quiet.trans {a b c : State} (h : Quiet a b) (k : Quiet b c) : Quiet a c :=
  ⟨fun x => k.regs (h.regs x), fun x y n => (k.reg (h.regs x) y n).trans (h.reg x y n)⟩

theorem Quiet.snd {α : Type} {z s : State} {p : α × State} {a : α} (h : p = (a, s)) (k : Quiet z p.2) : Quiet z s := by
  subst h
  exact k

/-- A change that leaves the registers. -/
theorem Quiet.same {z s t : State} (h : Quiet z s) (e : t.regs = s.regs) : Quiet z t :=
  h.trans ⟨fun x => e ▸ x, fun _ a _ => by simp [State.reg, e]⟩

theorem forEach_quiet {α : Type} {z s : State} {xs : List α} {f : α → State → State} (h : Quiet z s)
    (hf : ∀ x t, Quiet z t → Quiet z (f x t)) : Quiet z (forEach xs s f) := by
  unfold forEach
  exact Kept.foldl (P := Quiet z) h fun t x k => hf x t k

theorem State.setReg_quiet {z s : State} {a v : Nat} (h : Quiet z s) (n : Noisy a := by
    simp only [Noisy, bank, Reg.at_, Reg.EVT_PEND, Reg.ERR_CNT, Reg.ERR_FIRST, Reg.ERR_INFO, Reg.FAULT.STS,
      Reg.FAULT.LOG_WR, Reg.FAULT.FIRST, Reg.FAULT.FIRST_NS, Reg.FAULT.FIRST_SEC, Reg.FAULT.OPEN]; omega) :
    Quiet z (s.setReg a v) :=
  h.trans ⟨fun x => x.set _ _, fun x b nb => by
    rw [State.reg_setReg _ _ _ x, if_neg]
    rintro rfl
    exact nb n⟩

theorem State.setRbit_quiet {z s : State} {a i : Nat} {b : Bool} (h : Quiet z s) (n : Noisy a := by
    simp only [Noisy, bank, Reg.at_, Reg.EVT_PEND, Reg.FAULT.OPEN]; omega) : Quiet z (s.setRbit a i b) :=
  State.setReg_quiet h n

theorem State.setH_quiet {z s : State} {k : Hid} {v : Int} (h : Quiet z s) : Quiet z (s.setH k v) := h.same rfl

theorem State.setHb_quiet {z s : State} {k : Hid} {v : Bool} (h : Quiet z s) : Quiet z (s.setHb k v) := h.same rfl

theorem State.setTab_quiet {z s : State} {p sel i v : Nat} (h : Quiet z s) : Quiet z (s.setTab p sel i v) := h.same rfl

theorem State.emit_quiet {z s : State} {o : Out} (h : Quiet z s) : Quiet z (s.emit o) := h.same rfl

theorem snapTouch_quiet {z a0 a1} (ha1 : Quiet z a1) : Quiet z (snapTouch a0 a1) :=
  (Kept.ite (P := Quiet z) (State.setReg_quiet (State.setReg_quiet ha1)) ha1)

theorem perfAddFrom_quiet {z a0 a1 a2 a3 a4 a5 a6} (hn : a4 + a3 ≤ 8) (ha6 : Quiet z a6) :
    Quiet z (perfAddFrom a0 a1 a2 a3 a4 a5 a6).2 := by
  induction a3 generalizing a4 a5 a6 with
  | zero => exact ha6
  | succ n ih =>
    unfold perfAddFrom
    extract_lets +onlyGivenNames c add next
    refine Kept.ite (P := fun x : _ × State => Quiet z x.2) (ih (by omega) ha6) ?_
    split
    extract_lets +onlyGivenNames u
    have hu : Quiet z u := State.setReg_quiet (snapTouch_quiet ha6) (by
      simp only [Noisy, Reg.PERF_CNT, Reg.at_]; omega)
    split
    rename_i q
    have h := Quiet.snd q (ih (by omega) hu)
    exact h

theorem perfAdd_quiet {z a0 a1 a2 a3} (ha3 : Quiet z a3) : Quiet z (perfAdd a0 a1 a2 a3).2 := by
  unfold perfAdd
  refine Kept.ite (P := fun x : Nat × State => Quiet z x.2) ?_ ?_
  · exact (perfAddFrom_quiet (by omega) ha3)
  · try dsimp -zeta only
    exact ha3

theorem msixPresent_quiet {z a0 a1} (ha1 : Quiet z a1) : Quiet z (msixPresent a0 a1) := by
  unfold msixPresent
  refine Kept.ite (P := Quiet z) ?_ ?_
  · exact ha1
  · extract_lets +onlyGivenNames -merge -useContext u0
    exact (Kept.ite (P := Quiet z) (State.setRbit_quiet (State.setH_quiet ha1)) (State.emit_quiet (State.setH_quiet
        ha1)))

theorem intaUpdate_quiet {z a0} (ha0 : Quiet z a0) : Quiet z (intaUpdate a0) := by
  unfold intaUpdate
  extract_lets +onlyGivenNames -merge -useContext u0
  exact (Kept.ite (P := Quiet z) ha0 (State.emit_quiet (State.setHb_quiet ha0)))

theorem markPresented_quiet {z a0 a1} (ha1 : Quiet z a1) : Quiet z (markPresented a0 a1) :=
  (Kept.ite (P := Quiet z) ha1 (State.setH_quiet (State.setHb_quiet (State.setHb_quiet ha1))))

theorem intcUpdate_quiet {z a0} (ha0 : Quiet z a0) : Quiet z (intcUpdate a0) := by
  unfold intcUpdate
  extract_lets +onlyGivenNames -merge -useContext u0
  have h1 : Quiet z u0 := (forEach_quiet ha0 (fun _ _ h2 => (forEach_quiet h2 (fun _ _ h3 => (markPresented_quiet
      h3)))))
  try clear_value u0
  extract_lets +onlyGivenNames -merge -useContext u4
  have h5 : Quiet z u4 := (Kept.ite (P := Quiet z) (forEach_quiet h1 (fun _ _ h6 => (msixPresent_quiet h6))) h1)
  try clear_value u4
  exact (intaUpdate_quiet h5)

theorem setPend_quiet {z a0 a1} (hs : srcOk a0 = true) (ha1 : Quiet z a1) : Quiet z (setPend a0 a1) := by
  unfold setPend
  extract_lets +onlyGivenNames -merge -useContext u0
  have h1 : Quiet z u0 := State.setRbit_quiet ha1 (by
    simp only [srcOk, Bool.and_eq_true, decide_eq_true_eq] at hs
    simp only [Noisy, Reg.INTC.PEND]
    omega)
  exact (State.setH_quiet h1)

theorem errCapture_quiet {z a0 a1 a2 a3 a4 a5} (ha5 : Quiet z a5) : Quiet z (errCapture a0 a1 a2 a3 a4 a5) := by
  unfold errCapture
  extract_lets +onlyGivenNames -merge -useContext u0
  have h1 : Quiet z u0 := (State.setReg_quiet ha5)
  try clear_value u0
  exact (Kept.ite (P := Quiet z) h1 (State.setReg_quiet (State.setReg_quiet h1)))

theorem ring_quiet {z a0 a1} (ha1 : Quiet z a1) : Quiet z (ring a0 a1) := by
  unfold ring
  refine Kept.ite (P := Quiet z) ha1 (Kept.ite (P := Quiet z) (errCapture_quiet ha1) ?_)
  split
  · exact intcUpdate_quiet (setPend_quiet ‹_› ha1)
  · exact ha1

theorem evtSet_quiet {z a0 a1 a2} (ha2 : Quiet z a2) : Quiet z (evtSet a0 a1 a2) := by
  unfold evtSet
  extract_lets +onlyGivenNames -merge -useContext u0 u1
  have h2 : Quiet z u1 := (State.setRbit_quiet ha2)
  try clear_value u1
  extract_lets +onlyGivenNames -merge -useContext u3
  have h4 : Quiet z u3 := (State.setH_quiet h2)
  try clear_value u3
  extract_lets +onlyGivenNames -merge -useContext u5
  have h6 : Quiet z u5 := (Kept.ite (P := Quiet z) (State.setTab_quiet h4) h4)
  try clear_value u5
  exact (Kept.ite (P := Quiet z) (ring_quiet h6) h6)

theorem evtSets_quiet {z a0 a1 a2 a3} (ha3 : Quiet z a3) : Quiet z (evtSets a0 a1 a2 a3) := by
  unfold evtSets
  extract_lets +onlyGivenNames u
  have hu : Quiet z u := evtSet_quiet ha3
  exact Kept.ite (P := Quiet z) (State.setTab_quiet hu) hu

theorem perfOvf_quiet {z a0 a1 a2 a3} (ha3 : Quiet z a3) : Quiet z (perfOvf a0 a1 a2 a3) := by
  induction a1 generalizing a2 a3 with
  | zero => cases a2 with
    | zero => exact ha3
    | succ n => exact evtSets_quiet ha3
  | succ f ih => cases a2 with
    | zero => exact ha3
    | succ n =>
      unfold perfOvf
      extract_lets +onlyGivenNames u
      have hu : Quiet z u := evtSets_quiet ha3
      split
      rename_i q
      exact ih (Quiet.snd q (perfAdd_quiet hu))

theorem perfCount_quiet {z a0 a1 a2 a3} (ha3 : Quiet z a3) : Quiet z (perfCount a0 a1 a2 a3) := by
  unfold perfCount
  refine Kept.ite (P := Quiet z) ?_ ?_
  · split
    · rename_i m0 m1 q2
      have h3 : Quiet z m1 := Kept.of_eq (P := fun x : Nat × State => Quiet z x.2) q2 (perfAdd_quiet ha3)
      exact (perfOvf_quiet h3)
  · exact ha3

theorem raise_quiet {z a0 a1 a2} (ha2 : Quiet z a2) : Quiet z (raise a0 a1 a2) :=
  (Kept.ite (P := Quiet z) (perfCount_quiet (evtSet_quiet ha2)) ha2)

theorem raiseFirst_quiet {z a0 a1 a2} (ha2 : Quiet z a2) : Quiet z (raiseFirst a0 a1 a2) :=
  (Kept.ite (P := Quiet z) ha2 (raise_quiet ha2))

theorem bumpBy_quiet {z a0 a1 a2} (hc : 0x8000 ≤ a0 % 0x10000) (ha2 : Quiet z a2) : Quiet z (bumpBy a0 a1 a2) := by
  unfold bumpBy
  refine Kept.ite (P := Quiet z) ?_ ?_
  · exact ha2
  · extract_lets +onlyGivenNames -merge -useContext u0
    have h1 : Quiet z u0 := (State.setReg_quiet (snapTouch_quiet ha2) (by unfold Noisy; omega))
    try clear_value u0
    exact (perfCount_quiet h1)

theorem bump_quiet {z a0 a1} (hc : 0x8000 ≤ a0 % 0x10000) (ha1 : Quiet z a1) : Quiet z (bump a0 a1) :=
  (bumpBy_quiet hc ha1)

theorem coverUpdate_quiet {z a0} (ha0 : Quiet z a0) : Quiet z (coverUpdate a0) := by
  unfold coverUpdate
  extract_lets +onlyGivenNames -merge -useContext u0 u1 u2 u3
  have h4 : Quiet z u3 := (State.setReg_quiet ha0)
  try clear_value u3
  exact (Kept.ite (P := Quiet z) (raise_quiet h4) h4)

theorem faultLog_quiet {z a0 a1 a2 a3 a4} (ha4 : Quiet z a4) : Quiet z (faultLog a0 a1 a2 a3 a4) := by
  unfold faultLog
  split
  · extract_lets +onlyGivenNames -merge -useContext u2
    extract_lets +onlyGivenNames -merge -useContext u3 u4
    have h5 : Quiet z u4 := (Kept.ite (P := Quiet z) (bump_quiet (by decide) ha4) ha4)
    try clear_value u4
    extract_lets +onlyGivenNames -merge -useContext u6
    have h7 : Quiet z u6 := (State.setHb_quiet (State.setTab_quiet h5))
    try clear_value u6
    extract_lets +onlyGivenNames -merge -useContext u8
    have h9 : Quiet z u8 := (State.setReg_quiet h7)
    try clear_value u8
    exact (Kept.ite (P := Quiet z) h9 (State.setReg_quiet (State.setReg_quiet (State.setReg_quiet h9))))

theorem faultRecordAt_quiet {z a0 a1 a2 a3 a4} (hc : a0 < 4096) (ha4 : Quiet z a4) : Quiet z (faultRecordAt a0 a1 a2 a3 a4) := by
  unfold faultRecordAt
  refine Kept.ite (P := Quiet z) ha4 ?_
  extract_lets +onlyGivenNames -merge -useContext u0
  have h1 : Quiet z u0 := bump_quiet (by simp only [Reg.FAULT.CLASS_CNT]; omega) ha4
  try clear_value u0
  refine Kept.ite (P := Quiet z) ?_ ?_
  · extract_lets +onlyGivenNames -merge -useContext u2
    have h3 : Quiet z u2 := (faultLog_quiet h1)
    try clear_value u2
    extract_lets +onlyGivenNames -merge -useContext u4
    have h5 : Quiet z u4 := (State.setRbit_quiet h3)
    try clear_value u4
    exact (coverUpdate_quiet (raise_quiet h5))
  · exact h1

theorem faultRecord_quiet {z a0 a1 a2 a3} (hc : a0 < 4096) (ha3 : Quiet z a3) : Quiet z (faultRecord a0 a1 a2 a3) :=
  (faultRecordAt_quiet hc ha3)

theorem raiseFault_quiet {z a0 a1 a2 a3 a4} (hc : a2 < 4096) (ha4 : Quiet z a4) : Quiet z (raiseFault a0 a1 a2 a3 a4) :=
  (Kept.ite (P := Quiet z) (faultRecord_quiet hc (raise_quiet ha4)) ha4)

theorem errBy_quiet {z a0 a1 a2 a3 a4 a5} (ha5 : Quiet z a5) : Quiet z (errBy a0 a1 a2 a3 a4 a5) := by
  unfold errBy
  extract_lets +onlyGivenNames -merge -useContext u0 u1
  have h2 : Quiet z u1 := (errCapture_quiet ha5)
  try clear_value u1
  exact (Kept.ite (P := Quiet z) (faultRecord_quiet (by decide) h2) h2)

theorem errReq_quiet {z a0 a1 a2 a3 a4 a5} (ha5 : Quiet z a5) : Quiet z (errReq a0 a1 a2 a3 a4 a5) :=
  (errBy_quiet ha5)

theorem errInt_quiet {z a0 a1 a2 a3} (ha3 : Quiet z a3) : Quiet z (errInt a0 a1 a2 a3) :=
  (errBy_quiet ha3)

theorem errDisabled_quiet {z a0 a1} (ha1 : Quiet z a1) : Quiet z (errDisabled a0 a1) :=
  (errInt_quiet ha1)


/-! ### Registers that they leave -/

theorem Quiet.rfld {z s : State} (h : Quiet z s) (k : Smap.Canonical regDefault z.regs) {a : Nat} (n : ¬Noisy a) (lo w : Nat) :
    s.rfld a lo w = z.rfld a lo w := by
  unfold State.rfld
  rw [h.reg k a n]

theorem Quiet.rbit {z s : State} (h : Quiet z s) (k : Smap.Canonical regDefault z.regs) {a : Nat} (n : ¬Noisy a) (i : Nat) :
    s.rbit a i = z.rbit a i := by
  unfold State.rbit
  rw [h.reg k a n]

theorem raise_reg {s : State} (p e : Nat) {a : Nat} (n : ¬Noisy a) (h : Smap.Canonical regDefault s.regs) :
    (raise p e s).reg a = s.reg a := (raise_quiet (.refl s)).reg h a n

theorem raise_regs {s : State} (p e : Nat) (h : Smap.Canonical regDefault s.regs) :
    Smap.Canonical regDefault (raise p e s).regs := (raise_quiet (.refl s)).regs h

theorem errReq_reg {s : State} (p c : Nat) (r : Req) (x v : Nat) {a : Nat} (n : ¬Noisy a)
    (h : Smap.Canonical regDefault s.regs) : (errReq p c r x v s).reg a = s.reg a := (errReq_quiet (.refl s)).reg h a n

theorem errReq_regs {s : State} (p c : Nat) (r : Req) (x v : Nat) (h : Smap.Canonical regDefault s.regs) :
    Smap.Canonical regDefault (errReq p c r x v s).regs := (errReq_quiet (.refl s)).regs h

theorem bump_reg {s : State} {c : Nat} (hc : 0x8000 ≤ c % 0x10000) {a : Nat} (n : ¬Noisy a)
    (h : Smap.Canonical regDefault s.regs) : (bump c s).reg a = s.reg a := (bump_quiet hc (.refl s)).reg h a n

theorem bump_regs {s : State} {c : Nat} (hc : 0x8000 ≤ c % 0x10000) (h : Smap.Canonical regDefault s.regs) :
    Smap.Canonical regDefault (bump c s).regs := (bump_quiet hc (.refl s)).regs h

end Sys2Proof.Machine
end

