-- ==== Sys2Proof/Laws/Stacks.lean ====
section
/-!
SUPPORT. The interrupt stacks and the registers of the INTC: what popping an entry leaves, and what presenting a source
changes.
-/
namespace Sys2Proof.Machine

@[simp] theorem firstWrite_stacks (r : Req) (s : State) : (firstWrite r s).intStacks = s.intStacks := by
  unfold firstWrite
  dsimp only
  split <;> rfl

@[simp] theorem intcUpdate_stacks (s : State) : (intcUpdate s).intStacks = s.intStacks :=
  (intcUpdate_kept (K := fun p => p = .intStacks) (Kept.refl s)).area .intStacks rfl

/-- Taking the first entry of a target out of the list of all stacks pops that target's stack and leaves the others. -/
theorem stack_pop {l : List (Nat × Nat × Nat)} {t : Nat} {i : Nat} (h : l.findIdx? (fun e => e.1 == t) = some i) :
    (l.eraseIdx i).filter (fun e => e.1 == t) = (l.filter fun e => e.1 == t).tail ∧
    ∀ x, x ≠ t → (l.eraseIdx i).filter (fun e => e.1 == x) = l.filter fun e => e.1 == x := by
  induction l generalizing i with
  | nil => simp at h
  | cons a l ih =>
    rw [List.findIdx?_cons] at h
    by_cases q : (a.1 == t) = true
    · simp only [q, if_true, Option.some.injEq] at h
      subst h
      simp only [beq_iff_eq] at q
      refine ⟨by simp [q], fun x hx => ?_⟩
      simp [q, Ne.symm hx]
    · simp only [q] at h
      simp only [Bool.false_eq_true, if_false, Option.map_eq_some_iff] at h
      obtain ⟨j, hj, rfl⟩ := h
      obtain ⟨h1, h2⟩ := ih hj
      refine ⟨by simp [q, h1], fun x hx => ?_⟩
      simp only [List.eraseIdx_cons_succ, List.filter_cons, h2 x hx]

/-- From `z` to `s` no register below the copies changes. -/
structure RegsStay (z s : State) : Prop where
  regs : Smap.Canonical regDefault z.regs → Smap.Canonical regDefault s.regs
  reg : Smap.Canonical regDefault z.regs → ∀ a, a < 2 ^ 32 → s.reg a = z.reg a

theorem RegsStay.refl (s : State) : RegsStay s s := ⟨id, fun _ _ _ => rfl⟩

theorem RegsStay.trans {a b c : State} (h : RegsStay a b) (k : RegsStay b c) : RegsStay a c :=
  ⟨fun x => k.regs (h.regs x), fun x y n => (k.reg (h.regs x) y n).trans (h.reg x y n)⟩

theorem RegsStay.same {s t : State} (e : t.regs = s.regs) : RegsStay s t :=
  ⟨fun x => e ▸ x, fun _ a _ => by simp [State.reg, e]⟩

theorem RegsStay.forEach {α : Type} {f : α → State → State} (hf : ∀ x t, RegsStay t (f x t)) (xs : List α) (s : State) :
    RegsStay s (forEach xs s f) := by
  induction xs generalizing s with
  | nil => exact .refl s
  | cons x xs ih => exact (hf x s).trans (ih (f x s))

theorem markPresented_stays (x : Nat) (s : State) : RegsStay s (markPresented x s) := by
  unfold markPresented
  split
  · exact .refl s
  · exact .same rfl

theorem msixPresent_stays (x : Nat) (s : State) : RegsStay s (msixPresent x s) := by
  unfold msixPresent
  dsimp only
  split
  · exact .refl s
  · split
    · refine ⟨fun h => h.set _ _, fun h a n => ?_⟩
      have e : Smap.Canonical regDefault (s.setH (.msiSent x) 2).regs := h
      rw [State.setRbit, State.reg_setReg _ _ _ e, if_neg]
      · rfl
      · simp only [bank]
        omega
    · exact .same rfl

/-- Presenting sources changes no register but the PBA of the MSI-X table. -/
theorem intcUpdate_reg {s : State} (h : Smap.Canonical regDefault s.regs) {a : Nat} (n : a < 2 ^ 32) :
    (intcUpdate s).reg a = s.reg a := by
  have h1 := RegsStay.forEach (f := fun t s => forEach (presentable s t) s markPresented)
    (fun t s => RegsStay.forEach markPresented_stays (presentable s t) s) [0, 1, 2, 3] s
  have h2 : ∀ u : State, RegsStay u (if u.hb .msixEn then forEach (presentable u 3) u msixPresent else u) := fun u => by
    split
    · exact RegsStay.forEach msixPresent_stays _ u
    · exact .refl u
  have h3 : ∀ u : State, RegsStay u (intaUpdate u) := fun u => by
    unfold intaUpdate
    dsimp only
    split
    · exact .refl u
    · exact .same rfl
  exact ((h1.trans (h2 _)).trans (h3 _)).reg h a n

end Sys2Proof.Machine
end

