-- ==== Sys2Proof/Laws/Time.lean ====
section
/-!
SUPPORT. What latching a time and the passing of ticks do.
-/
namespace Sys2Proof.Machine

theorem fracOf_lt (t : Nat) : fracOf t < 2 ^ 64 := by unfold fracOf; omega

theorem nsOf_lt (t : Nat) : nsOf t < 2 ^ 64 := by unfold nsOf; omega

theorem secOf_lt (t : Nat) : secOf t < 2 ^ 48 := Nat.mod_lt _ (by decide)

theorem latchTime_regs {s : State} (b fr ns lo hi t : Nat) (h : Smap.Canonical regDefault s.regs) :
    Smap.Canonical regDefault (latchTime b fr ns lo hi t s).regs :=
  State.regs_setReg _ _ (State.regs_setReg _ _ (State.regs_setReg _ _ (State.regs_setReg _ _ h)))

/-- A register that is none of the four latched. -/
theorem latchTime_other {s : State} {b fr ns lo hi c : Nat} (t : Nat) (h : Smap.Canonical regDefault s.regs)
    (h1 : bank b fr ≠ c) (h2 : bank b ns ≠ c) (h3 : bank b lo ≠ c) (h4 : bank b hi ≠ c) :
    (latchTime b fr ns lo hi t s).reg c = s.reg c := by
  have k1 := State.regs_setReg (bank b fr) (fracOf t) h
  have k2 := State.regs_setReg (bank b ns) (nsOf t) k1
  have k3 := State.regs_setReg (bank b lo) (secOf t % 2 ^ 32) k2
  unfold latchTime
  rw [State.reg_setReg _ _ _ k3, if_neg h4, State.reg_setReg _ _ _ k2, if_neg h3, State.reg_setReg _ _ _ k1, if_neg h2,
    State.reg_setReg _ _ _ h, if_neg h1]

/-- The four registers latched hold the time. -/
theorem latchTime_holds {s : State} {b fr ns lo hi : Nat} (t : Nat) (h : Smap.Canonical regDefault s.regs)
    (d : [fr, ns, lo, hi].Nodup) :
    (latchTime b fr ns lo hi t s).reg (bank b fr) = fracOf t ∧ (latchTime b fr ns lo hi t s).reg (bank b ns) = nsOf t ∧
      (latchTime b fr ns lo hi t s).reg (bank b lo) = secOf t % 2 ^ 32 ∧
      (latchTime b fr ns lo hi t s).reg (bank b hi) = secOf t / 2 ^ 32 := by
  have e : ∀ x y, (bank b x = bank b y) = (x = y) := fun x y => by simp [bank]
  have k1 := State.regs_setReg (bank b fr) (fracOf t) h
  have k2 := State.regs_setReg (bank b ns) (nsOf t) k1
  have k3 := State.regs_setReg (bank b lo) (secOf t % 2 ^ 32) k2
  have l := secOf_lt t
  simp only [List.nodup_cons, List.mem_cons, List.not_mem_nil, or_false, not_or] at d
  unfold latchTime
  simp only [State.reg_setReg _ _ _ k3, State.reg_setReg _ _ _ k2, State.reg_setReg _ _ _ k1, State.reg_setReg _ _ _ h, e]
  refine ⟨?_, ?_, ?_, ?_⟩
  · rw [if_neg (by omega), if_neg (by omega), if_neg (by omega), if_pos trivial, Nat.mod_eq_of_lt (fracOf_lt t)]
  · rw [if_neg (by omega), if_neg (by omega), if_pos trivial, Nat.mod_eq_of_lt (nsOf_lt t)]
  · rw [if_neg (by omega), if_pos trivial, Nat.mod_eq_of_lt (by omega)]
  · rw [if_pos trivial, Nat.mod_eq_of_lt (by omega)]

end Sys2Proof.Machine
end

