-- ==== Sys2Proof/Machine/Pins.lean ====
section
/-!
DEFINITION. The levels of the output balls that the state gives (R592, R632, R633, R639, spec/18_package_pins_electrical.md).
-/
namespace Sys2Proof.Machine

/-- The CMOS, open-drain and LVDS outputs (R632). -/
inductive OutPin where
  | pwrGood | faultN | alarmN
  | ppsOut (i : Fin 2)
  | todOut
  | rclkOut (x : Fin 4)
  | ohpFs (k : Fin 16)
  | ohpDo (k : Fin 16)
  | uartTxd | qspiClk | qspiCsN | qspiRstN | tdo
  deriving DecidableEq, Repr

/-- The power domain whose logic drives an output (R632). -/
def OutPin.domain : OutPin → Nat
  | .ppsOut _ | .todOut | .rclkOut _ => 4
  | .ohpFs k | .ohpDo k => 5 + k.val / 2
  | _ => 1

/-- What an output is driven to while SYS_RST_N is low and while its domain is off (R633): none when it is not driven; an LVDS
output stands for its P ball against its N ball. -/
def OutPin.idle : OutPin → Option Bool
  | .uartTxd | .todOut | .qspiCsN => some true
  | .faultN | .alarmN | .tdo => none
  | _ => some false

/-- `PWR_GOOD` (R632, R639): VIN and VAUX are in range and no domain reads STATE 3. -/
def railsGood (s : State) : Bool := !s.hb .vinBad && !s.hb .vauxBad && !allDomains.any fun d => s.domState d == 3

/-- The level at which the state holds an output: none where it is released, or carries its block's clock, data or messages. -/
def OutPin.level (p : OutPin) (s : State) : Option Bool :=
  if bit (s.hn .rstHold) 0 || (p.domain != 1 && !s.domOn p.domain) then p.idle
  else
    match p with
    | .pwrGood => some (railsGood s)
    | .faultN => if s.reg Reg.FAULT.OPEN &&& s.reg Reg.FAULT.PIN_FAULT != 0 then some false else none
    | .alarmN => if s.reg Reg.FAULT.OPEN &&& s.reg Reg.FAULT.PIN_ALARM != 0 then some false else none
    | .ppsOut i => some (s.hb (.ppsOut i))
    | .rclkOut x => if s.rbit (Reg.TIME.RCLK x) 14 then some false else none
    | _ => none

end Sys2Proof.Machine
end

