-- ==== Sys2Proof/Tests/States.lean ====
section
/-!
SUPPORT. Small states for the tests and the witnesses, and a decidable test of `Sane`.
-/
namespace Sys2Proof.Machine

/-- A small state is sane if its maps are in their canonical forms. -/
theorem sane_of {s : State} (h : Smap.Canonical regDefault s.regs ∧ Smap.Canonical tabDefault s.tabs ∧ Memory.wf s.mem ∧
    Smap.Canonical (fun _ => (0 : Int)) s.hid ∧ Smap.Canonical (fun _ => (0 : Nat)) s.bufs ∧ s.intStacks.length ≤ 16 ∧
    s.notify.length ≤ 16384) : Sane s :=
  ⟨h.1, h.2.1, h.2.2.1, h.2.2.2.1, h.2.2.2.2.1, fun _ => Nat.le_trans (List.length_filter_le _ _) h.2.2.2.2.2.1,
    h.2.2.2.2.2.2⟩

/-- The state after reset with registers set. -/
def State.regsSet (l : List (Nat × Nat)) (s : State) : State := l.foldl (fun t e => t.setReg e.1 e.2) s

/-- Hidden numbers set. -/
def State.hidSet (l : List (Hid × Int)) (s : State) : State := l.foldl (fun t e => t.setH e.1 e.2) s

/-- The state after reset with the root PLL locked, the domains of pages `ps` on and their blocks enabled. -/
def up (ps : List Nat) : State :=
  State.regsSet (ps.flatMap fun p => [(Reg.GLB.DOM_STS (pageDomain p), 1), (Reg.BLK_CTL p, 1)])
    (State.reset.setReg Reg.GLB.PLL_STS 1)

end Sys2Proof.Machine
end

