-- ==== Sys2Proof/WellFormed.lean ====
section
/-!
DEFINITION. Which command terms are well formed: the lengths of lists and the ranges of indexes that the operand types leave
open. Every other operand is bounded by its type.
-/
namespace Sys2Proof

/-- A cell: a 16-byte header and 64 to 256 bytes of payload in steps of 16 (R401). -/
def cellWf (x : List Byte) : Bool := decide (x.length % 16 = 0) && decide (80 ≤ x.length) && decide (x.length ≤ 272)

/-- The received overhead of an ODUflex frame has at most six TCM layers (R149); the others are fixed by their type. -/
def otnWf : OtnRx → Bool
  | .oduflex _ _ tcm => decide (tcm.length ≤ 6)
  | .flexo .. | .otuc .. | .opuc .. | .opuflex .. => true

/-- A write carries exactly `n` units; a read carries none. -/
def listLen {α : Type} (w : Option (List α)) (n : Nat) : Bool :=
  match w with
  | some l => decide (l.length = n)
  | none => true

/-- A TYPE that no message has (R549) is none of the types 0x01 to 0x08. -/
def eloWf (h : EloHdr) : Bool :=
  match h.typ with
  | some t => t == 0 || decide (8 < t.toNat)
  | none => true

/-- The well-formed commands. -/
def Instr.wf : Instr → Bool
  | .headerCellHandoff _ bytes _ => decide (bytes.length ≤ 256)
  | .dataCellRx _ x _ => cellWf x
  | .deskewMeasured _ skews => decide (skews.length ≤ 8)
  | .flexoLock _ _ nums => decide (nums.length = 8)
  | .otnFrameRx _ x => otnWf x
  | .tableScrub _ _ idx _ => decide (idx < 2 ^ 32)
  | .lpmNodeRepair idx _ => decide (idx < 2 ^ 32)
  | .sweepConversion _ _ i => decide (i < 2 ^ 32)
  | .creditCellRx _ x _ => cellWf x
  | .keepaliveRx _ x _ => cellWf x
  | .reachCellRx _ x _ => cellWf x
  | .mirrorStore a bs => decide (a.toNat + bs.length ≤ 2 ^ 22)
  | .bar0Request _ dw _ w => decide (1 ≤ dw.toNat) && listLen w dw.toNat && decide (dw.toNat ≤ if w.isSome then 128 else 1024)
  | .bar2Request _ n w _ => listLen w n.toNat && decide (n.toNat ≤ if w.isSome then 512 else 4096)
  | .readCompletion _ data _ _ => decide (data.length ≤ 4096)
  | .hello h _ | .slotInfo h _ | .erase h _ | .eloatalWrite h _ _ _ | .eloatalRead h _ _ _ | .setBoot h _
  | .eloatalReset h | .spdmRequest (some h) _ => eloWf h
  | .spdmRequest none _ | .registerWrite .. | .readLowHalf .. | .readClear .. | .softReset .. | .softResetDone .. | .blockEnable ..
  | .blockDisable .. | .blockLock .. | .droneEnable .. | .evtPendWrite .. | .evtMaskWrite .. | .profileSelect ..
  | .tblRead .. | .tblWrite .. | .tblCmdComplete .. | .bridgeCrcFail .. | .laneErrWindow | .laneSpared ..
  | .startOfFrameRx .. | .pipelineEntry .. | .frameTailRx .. | .macCtlFrameRx .. | .pauseExpire ..
  | .flowControlTx .. | .fcRefresh .. | .admission .. | .bufferGrant .. | .tailCellArrival .. | .bufferFree ..
  | .spillPageWrite .. | .pageWriteDone .. | .returnPrefetch .. | .pageReturned .. | .ageSweepPass
  | .voqFrameStart .. | .dataCellTx .. | .syncHoldExpire .. | .ctxIdleExpire .. | .reseqTimeout .. | .seqQuietEnd
  | .seqQuietWrite .. | .schedSelection .. | .egressPipeline .. | .frameTx .. | .txAbort .. | .recircEntry ..
  | .mapCommit .. | .mapApplied .. | .macCfgWrite .. | .loopbackWrite .. | .signalDetect .. | .alignmentLock ..
  | .upHoldExpire .. | .alignmentLoss .. | .signalLoss .. | .rclkResume .. | .faultSetsRx .. | .faultSetsAbsent ..
  | .fecWindow .. | .flexoLockLoss .. | .fasSighting .. | .candidateCheck .. | .defectPersistTimer ..
  | .degInterval .. | .consequentActionBoundary .. | .txForceApply .. | .ohpCfgWrite .. | .ohpFrameBoundary ..
  | .recentre .. | .clkLoss .. | .ohpClkReturn .. | .keyLoad .. | .walk .. | .rowMove .. | .tcamScrubRow ..
  | .sliceCfgWrite .. | .insert .. | .delete .. | .lookup .. | .routeAdd .. | .routeDel .. | .routeMod ..
  | .routeGet .. | .routeMatch .. | .seedWrite .. | .learnUpdate .. | .moveTick | .ageTick | .ageScanVisit ..
  | .notifyPop .. | .flipCmd .. | .flipArm .. | .flipDisarm .. | .flipTimeReached | .flipApply | .inFlightZero
  | .settleExpire | .sweepComplete | .drainTimeout | .drainForce .. | .hpCountWrite .. | .alloc .. | .free ..
  | .query .. | .ageLimitWrite .. | .statusRepeat .. | .creditCellTx .. | .creditFlowTimeout ..
  | .creditPacerGrant .. | .fretRelease .. | .coarseFretAdvance | .farListScan | .fabricLinkEnable ..
  | .linkDrainWrite .. | .fabricSignalDetect .. | .codewordLock .. | .codewordLockLoss .. | .fabricSignalLoss ..
  | .controlWordRx .. | .fabricUpHoldExpire .. | .linkDegWindow .. | .kaLoss .. | .keepaliveTx .. | .kaIvlWrite ..
  | .reachCellTx .. | .reachSegmentTimeout .. | .popCfgWrite .. | .bmapWrite .. | .bringupStart ..
  | .trainStepDone .. | .dsReady | .dramOperation .. | .dramOpComplete .. | .dramRefresh .. | .refreshRatePoll ..
  | .zqCalibration .. | .dqsOscMeasure .. | .retrainNow .. | .fullRetrainDone .. | .rhWindowClear ..
  | .patrolRead .. | .dimmTempRead .. | .processorLoad .. | .coreLoadDone .. | .coreFault .. | .wdtKick ..
  | .handover .. | .takeover | .syncComplete .. | .reload .. | .coreAutoReload .. | .doorbell .. | .claim ..
  | .eoi .. | .setpri .. | .pendWrite .. | .intcMaskWrite .. | .holdoffExpire .. | .coreIdleEnter ..
  | .pfeEmission .. | .pfeMissed .. | .winCommit .. | .puntWrite .. | .puntAgeDrop .. | .pTailWrite ..
  | .iTailWrite .. | .injectRead .. | .injectOffer .. | .injectWriteback .. | .completionTimeout .. | .bmeClear
  | .bmeSet | .ringEnable .. | .msixHoldEnd .. | .flr | .flrDone | .pcieLinkDown .. | .release .. | .perstAssert
  | .bootStart .. | .keyRevoke .. | .svnCommit .. | .engReload .. | .engReloadDone
  | .runSlotWrite .. | .eraseDone ..
  | .store .. | .storeDone .. | .lifetimeStore .. | .perfWrap .. | .bwWindowEnd ..
  | .bwSeqRead .. | .bwCfgWrite .. | .fsCfgWrite .. | .fold .. | .fsVisit .. | .fsRead .. | .fsClear ..
  | .snapArm .. | .snapDisarm .. | .snapNow .. | .snapCut | .snapMoverCopy .. | .snapDone | .fsDone | .openClear ..
  | .pllUnlock | .pipeWdtSample .. | .supplyDroop .. | .tjOutOfRange .. | .vauxPowerOn | .vauxLoss | .vinLoss
  | .vinRestart | .vinInRange | .domainSwitchOn .. | .rampStart | .domainOn .. | .domainSwitchOff ..
  | .domainRestart .. | .serdesPllLockTimeout .. | .rootPllLock | .pllLossReset | .sysRstAssert | .sysRstRelease ..
  | .devReset .. | .rateTbLoWrite .. | .rateTbHiWrite .. | .tbFracRead .. | .tbCtlWrite .. | .stepCmd ..
  | .stepRearm .. | .trkStepCmd .. | .slewDone | .refLoss .. | .followerRealign | .ppsInEdge .. | .ppsLoss ..
  | .ppsRearm .. | .ppsOutEdge .. | .ppsPulseEnd .. | .todTxStart | .todRxMessage .. | .todLoss | .freqEdge ..
  | .freqLoss | .launchStageEntry .. | .timedFrameStart .. | .launchDeadline .. | .windowCommit ..
  | .windowPeriodBoundary .. | .pcieLinkUp .. | .perstRelease | .interruptDisableWrite .. | .bar4Request ..
  | .runSlotCheckDone => true

end Sys2Proof
end

