-- ==== Sys2Proof/Tests/Slice0.lean ====
section
/-!
SUPPORT. Tests: the checks of WellFormed refuse an ill-formed term each; worked examples of the specification, their expected
values taken from its text; and for every statement with hypotheses a state and operands that meet those of each clause.
-/
namespace Sys2Proof.Tests
set_option Elab.async false
set_option linter.unusedVariables false
open Sys2Proof Sys2Proof.Machine

/-! ### WellFormed: what each check refuses -/

theorem test_wf_header_cell : (Instr.headerCellHandoff 0 (List.replicate 257 0) false).wf = false := by decide +kernel
theorem test_wf_data_cell : (Instr.dataCellRx none (List.replicate 79 0) false).wf = false := by decide +kernel
theorem test_wf_credit_cell : (Instr.creditCellRx none (List.replicate 288 0) false).wf = false := by decide +kernel
theorem test_wf_keepalive_cell : (Instr.keepaliveRx 0 [] false).wf = false := by decide +kernel
theorem test_wf_reach_cell : (Instr.reachCellRx 0 (List.replicate 81 0) false).wf = false := by decide +kernel
theorem test_wf_skews : (Instr.deskewMeasured 0 (List.replicate 9 0)).wf = false := by decide +kernel
theorem test_wf_mirror_store : (Instr.mirrorStore 0x3FFFFF [1, 2]).wf = false := by decide +kernel
theorem test_wf_bar0_empty : (Instr.bar0Request 0 0 true none).wf = false := by decide +kernel
theorem test_wf_bar0_write : (Instr.bar0Request 0 2 true (some [1])).wf = false := by decide +kernel
theorem test_wf_bar2_read : (Instr.bar2Request 0 4097 none false).wf = false := by decide +kernel
theorem test_wf_completion : (Instr.readCompletion none (List.replicate 4097 0) 0 none).wf = false := by decide +kernel
theorem test_wf_flexo_lock : (Instr.flexoLock 0 0 [1, 2]).wf = false := by decide +kernel
theorem test_wf_scrub : (Instr.tableScrub 0 0 (2 ^ 32) true).wf = false := by decide +kernel
theorem test_wf_node : (Instr.lpmNodeRepair (2 ^ 32) true).wf = false := by decide +kernel
theorem test_wf_sweep : (Instr.sweepConversion 0 0 (2 ^ 32)).wf = false := by decide +kernel
theorem test_wf_eloatal : (Instr.hello ⟨0, 0, 0x88B5, 1, some 5, 0, 0, 0, 0⟩ true).wf = false := by decide +kernel
theorem test_wf_tcm : (Instr.otnFrameRx 0 (.oduflex 0 ⟨0, 0, 0⟩ (List.replicate 7 ⟨0, 0, 0⟩))).wf = false := by decide +kernel
theorem test_wf_good : (Instr.bar0Request 0 2 true (some [1, 2])).wf = true := by decide +kernel

/-! ### The queue -/

/-- R472 read as a command: a step takes the front command and leaves the rest. -/
theorem test_step_takes_the_front :
    (match step { up [2] with pending := [.doorbell .HOST 5, .todLoss] } with
      | .next t => decide (t.pending = [.todLoss]) && t.rbit (Reg.INTC.PEND 0) 5
      | _ => false) = true := by decide +kernel

/-! ### Worked examples -/

/-- The state that a command leaves. -/
def after (o : Host.Outcome State Fault Refusal) : State :=
  match o with
  | .next t => t
  | _ => State.reset

/-- Commands one after another. -/
def runs (cs : List Instr) (s : State) : State := cs.foldl (fun t c => after (exec c t)) s

/-- spec/02_time.md, after R60: +12.5 ppb is RATE_TB_LO 0xC758_18C6, then RATE_TB_HI 0x0001_1C71. -/
theorem test_rate_word :
    rateTb (runs [.rateTbLoWrite .JTAG .tb 0xC75818C6, .rateTbHiWrite .JTAG .tb 0x00011C71] (up [1])) = 312749974122951 + 3909375 := by
  decide +kernel

/-- spec/02_time.md, after R72: SLEW_MAX of 50 ppb is a slew term of 15,637,499 units. -/
theorem test_slew_term : slewTerm ((up [1]).setReg Reg.TIME.SLEW_MAX 50) = 15637499 := by decide +kernel

/-- spec/03_line_ports.md, after R111: the lane map of LG[3]. -/
theorem test_lane_map :
    let s := (State.reset.setReg (Reg.LG.ACT_LO 3) 0x00000004).setReg (Reg.LG.ACT_HI 3) 0x06020003
    [48, 49, 56, 60, 62, 63].map (portMode s) = [4, 0, 3, 2, 6, 0] ∧ portOfLane s 59 = some 56 ∧ portLanes s 60 = 2 := by
  decide +kernel

/-- spec/03_line_ports.md, after R129: skews of 8.5, 0, 47.25 and 30.125 ns delay lane 0 by 620 sixteenths of a ns. -/
theorem test_deskew :
    let s := (((up [1, 0x10 + 36, 0x92]).setReg (Reg.LG.ACT_LO 2) (3 * 2 ^ 16)).setReg (Reg.LPORT.MAC_CFG 36) 0x185EE).setReg
      (Reg.LPORT.LINK_STS 36) 3
    let t := after (exec (.deskewMeasured 36 [136, 0, 756, 482]) s)
    linkState t 36 = 4 ∧ t.hn (.deskew 36) = 620 ∧ t.reg (Reg.LPORT.LANE_SKEW 36 2) = 756 := by decide +kernel

/-- spec/08_buffering.md, after R329: 40,000 free cells give a green threshold of 20,000 and a yellow one of 5,000. -/
theorem test_thresholds :
    let s := State.reset.setTab cellPage 1 0 (7 * 2 ^ 12 + 5 * 2 ^ 8)
    alphaOf s 0 0 40000 = 20000 ∧ alphaOf s 0 1 40000 = 5000 := by decide +kernel

/-- spec/08_buffering.md: a frame of 1,500 bytes is charged 6 cells. -/
theorem test_charge : charge { id := 0, loc := .toQ 0, bytes := List.replicate 1496 0, fcs := true, full := true } = 6 := by
  decide +kernel

/-- spec/11_deep_store.md, after R432: deep page 0x123_4567 with 16 channels. -/
theorem test_deep_page :
    let s := (State.reset.setReg (Reg.DSC.POP_CFG 0) 16).setReg (Reg.DSC.DIMM_INFO 0) 0x81000000
    chanOf s 0x1234567 = 5 ∧ rowOf 0x123567 = 0x48D5 ∧ bankOf s 5 0x123567 % 32 = 3 ∧ pageAt s 5 0x123567 = 0x1234567 := by
  decide +kernel

/-- spec/10_fabric.md, after R406: a frame of 1,500 bytes is cut into five cells of 256 bytes and a last one whose payload of
256 bytes carries 232. -/
theorem test_segmentation :
    let f : Frame := { id := 0, loc := .fabricTx, bytes := List.replicate 1496 0, full := true, fcs := true }
    (nextCell { f with sent := 1024 }).map (fun x => (x.1.length, x.2)) = some (256, 256, false) ∧
      (nextCell { f with sent := 1280 }).map (fun x => (x.1.length, x.2)) = some (256, 232, true) := by decide +kernel

/-- The same: a frame of 64 bytes is one cell with a payload of 96 bytes. -/
theorem test_segmentation_short :
    (nextCell { id := 0, loc := .fabricTx, bytes := List.replicate 60 0, full := true, fcs := true }).map (fun x => x.1.length) =
      some 96 := by decide +kernel

/-- spec/12_control_complex.md, after R479: source 0x0B3 of priority 9 over 0x021 of priority 5, for CC_A. -/
def nested : State :=
  { ((up [2, 9]).regsSet [(Reg.PAIR.ROLE, 1), (Reg.PAIR.CORE_STS 0, 4), (Reg.INTC.MASK 5, 0), (Reg.INTC.MASK 10, 0),
      (Reg.INTC.SRC_CFG 0xB3, 0x49000000), (Reg.INTC.SRC_CFG 0x150, 0x47000000)]) with intStacks := [(1, 0x21, 5)] }

/-- Steps 1 to 3: masked again before the claim, the source stays pending and the claim returns 0. -/
theorem test_claim_masked :
    let t := runs [.doorbell .JTAG 0xB3, .intcMaskWrite .CC_A 5 (1 <<< 19), .claim .CC_A 1] nested
    t.out = [.readData .CC_A (Reg.INTC.CLAIM 1) 0] ∧ t.rbit (Reg.INTC.PEND 5) 19 = true := by decide +kernel

/-- Steps 4 to 8: the claim returns 0x0B3 and nests above 0x021; 0x150 waits, and is claimed after the EOI. -/
theorem test_claim_nests :
    let t := runs [.doorbell .JTAG 0xB3, .claim .CC_A 1, .doorbell .JTAG 0x150] nested
    let u := runs [.eoi .CC_A 1 0xB3] t
    stackOf t 1 = [(1, 0xB3, 9), (1, 0x21, 5)] ∧ claimPick t 1 = none ∧ runPrio u 1 = 5 ∧ claimPick u 1 = some 0x150 := by
  decide +kernel

/-- spec/12_control_complex.md, after R469: CC_A faults by lockstep, CC_B takes over with its sources. -/
theorem test_handover :
    let s := (up [2, 9]).regsSet [(Reg.PAIR.ROLE, 1), (Reg.PAIR.CORE_STS 0, 4), (Reg.PAIR.CORE_STS 1, 3), (Reg.INTC.SRC_CFG 7, 0x40000000)]
    let t := runs [.coreFault 0 0, .takeover] s
    t.reg (Reg.PAIR.CORE_STS 0) = 0x15 ∧ coreState t 1 = 4 ∧ t.reg Reg.PAIR.ROLE = 2 ∧ srcTarget t 7 = 2 ∧
      t.reg Reg.PAIR.HANDOVERS = 1 := by decide +kernel

/-- spec/13_host_interface.md, after R522: a frame of 9,000 bytes at 4,096 bytes a read takes reads of 4,096, 4,096 and 808. -/
theorem test_split_reads : splitReads 4096 128 0x10000 9000 = [4096, 4096, 808] := by decide +kernel

/-- The same: clearing Bus Master Enable lets ring 3 end its reads, then ABORTs it. -/
theorem test_bme_clear :
    let j : Inj := { ring := 3, skip := 0, desc := 0, descs := 1, sop := 0, reads := [(4096, some 0), (808, some 0)], bytes := [], err := false, offered := false,
                     cells := [], status := none, ts := 0 }
    let s := { ((up [5]).hidSet [(Hid.pciUp, 1), (Hid.bme, 1), (Hid.booted, 1)]).setReg (Reg.HOST.I_CFG 3) 0x80060000 with injects := [j] }
    let t := runs [.bmeClear, .completionTimeout 3] s
    let u := runs [.completionTimeout 3] t
    t.rbit (Reg.HOST.I_STS 3) 31 = false ∧ u.rbit (Reg.HOST.I_STS 3) 31 = true ∧ u.reg Reg.HOST.ABANDONED = 2 := by decide +kernel

/-- spec/16_reliability.md, after R597: IPIPE[5] stuck is class 11 of domain 24 and page 0x0B5. -/
theorem test_pipe_stuck :
    let t := runs [.pipeWdtSample 0x20] ((up [7, 0xB5]).setReg Reg.FAULT.PIPE_WDT 10)
    t.rbit Reg.FAULT.OPEN 11 = true ∧ t.reg (Reg.FAULT.CLASS_CNT 11) = 1 ∧ t.hb (.stuck 5) = true := by decide +kernel

/-- spec/17_power_clocks_reset.md, R605: of five requests four ramp, and the fifth waits. -/
theorem test_four_ramps :
    let s := (State.reset.setReg Reg.GLB.PLL_STS 1).regsSet [(Reg.GLB.DOM_STS 36, 1), (Reg.GLB.DOM_STS 4, 1), (Reg.BLK_CTL 0, 1)]
    let t := runs [.domainSwitchOn .HOST 5, .domainSwitchOn .HOST 6, .domainSwitchOn .HOST 7, .domainSwitchOn .HOST 8, .domainSwitchOn .HOST 9] s
    ramping t = 4 ∧ t.domQ = [9] ∧ domQueued t 9 = true ∧ ramping (runs [.domainOn 5, .rampStart] t) = 4 := by decide +kernel

/-- R616, R618, R620: a device reset records its cause, keeps the queue and switches every domain but AON off. -/
theorem test_device_reset :
    let t := runs [.devReset .BOOT 0x9128] { up [0, 5] with pending := [.todLoss] }
    t.reg Reg.GLB.RST_CAUSE = 5 ∧ t.domState 3 = 0 ∧ t.domState 1 = 1 ∧ t.pending = [.todLoss] := by decide +kernel

/-! ### States that meet the hypotheses of the statements, clause by clause -/

/-- Every page supports profile 1 (R41). -/
theorem blkVersion_pos (p : Nat) : 1 ≤ fld (blkVersion p) 0 8 := by
  have h : fld (blkVersion p) 0 8 = max 1 (fld (Config.blkVer p).toNat 0 8) % 2 ^ 8 := fld_setFld_self _ _ _ _
  have h' : fld (Config.blkVer p).toNat 0 8 < 2 ^ 8 := Nat.mod_lt _ (by decide)
  rw [h, Nat.mod_eq_of_lt (by omega)]
  omega

theorem meets_StepRunsTheFrontCommand :
    ∃ (c : Instr) (cs : List Instr) (s : State),
    (s.pending = c :: cs) :=
  ⟨(.todLoss), [.freqLoss], { State.reset with pending := [.todLoss, .freqLoss] },
    by decide +kernel⟩

theorem meets_EmptyQueueTicks :
    (∃ (s : State),
    (s.pending = [])) ∧
    (∃ (s : State),
    (s.pllOk = true) ∧
    (s.domOn 4 = true) ∧
    (followed s = none)) ∧
    (∃ (s : State),
    (s.pllOk = false)) ∧
    (∃ (s : State),
    (s.pllOk = true) ∧
    (s.domOn 4 = false)) :=
  ⟨⟨State.reset,
    by decide +kernel⟩,
   ⟨(up [1]),
    by decide +kernel⟩,
   ⟨State.reset,
    by decide +kernel⟩,
   ⟨(up [0]),
    by decide +kernel⟩⟩

theorem meets_WritesTurnedAway :
    (∃ (c : Instr) (r : Req) (a : Nat) (s : State),
    (s.h .rstHold ≠ 0) ∧
    (writeTarget c = some (r, a))) ∧
    (∃ (c : Instr) (r : Req) (a : Nat) (s : State),
    (s.h .rstHold = 0) ∧
    (writeTarget c = some (r, a)) ∧
    (inFabric (firstWrite r s) r = false) ∧
    (standbyCore s r = true) ∧
    ((haltedCore s r = true ∨ fenceExempt r a = false)) ∧
    (s.pageOn pairPage = true)) ∧
    (∃ (c : Instr) (r : Req) (a : Nat) (s : State),
    (s.h .rstHold = 0) ∧
    (writeTarget c = some (r, a)) ∧
    (inFabric (firstWrite r s) r = true) ∧
    (s.pageOn pairPage = true)) ∧
    (∃ (c : Instr) (r : Req) (a : Nat) (s : State),
    (s.h .rstHold = 0) ∧
    (writeTarget c = some (r, a)) ∧
    ((standbyCore s r = false ∨ (haltedCore s r = false ∧ fenceExempt r a = true))) ∧
    (pageOf (a / 0x10000) = none)) ∧
    (∃ (c : Instr) (r : Req) (a : Nat) (s : State),
    (s.h .rstHold = 0) ∧
    (writeTarget c = some (r, a)) ∧
    ((standbyCore s r = false ∨ (haltedCore s r = false ∧ fenceExempt r a = true))) ∧
    ((pageOf (a / 0x10000)).isSome = true) ∧
    (s.pageOn (a / 0x10000) = false) ∧
    (offReadable a = false)) ∧
    (∃ (c : Instr) (r : Req) (a : Nat) (s : State),
    (s.h .rstHold = 0) ∧
    (writeTarget c = some (r, a)) ∧
    ((standbyCore s r = false ∨ (haltedCore s r = false ∧ fenceExempt r a = true))) ∧
    ((pageOf (a / 0x10000)).isSome = true) ∧
    (s.pageOn (a / 0x10000) = false) ∧
    (offReadable a = true)) ∧
    (∃ (c : Instr) (r : Req) (a : Nat) (s : State),
    (s.h .rstHold = 0) ∧
    (writeTarget c = some (r, a)) ∧
    ((standbyCore s r = false ∨ (haltedCore s r = false ∧ fenceExempt r a = true))) ∧
    ((pageOf (a / 0x10000)).isSome = true) ∧
    (s.pageOn (a / 0x10000) = true) ∧
    (s.rbit (Reg.BLK_CTL (a / 0x10000)) 1 = true)) ∧
    (∃ (c : Instr) (r : Req) (a : Nat) (s : State),
    (s.h .rstHold = 0) ∧
    (writeTarget c = some (r, a)) ∧
    ((standbyCore s r = false ∨ (haltedCore s r = false ∧ fenceExempt r a = true))) ∧
    ((pageOf (a / 0x10000)).isSome = true) ∧
    (s.pageOn (a / 0x10000) = true) ∧
    (s.rbit (Reg.BLK_CTL (a / 0x10000)) 1 = false) ∧
    (occupied a = false)) :=
  ⟨⟨(.doorbell .HOST 1), .HOST, Reg.INTC.DOORBELL, State.reset.setH .rstHold 1,
    by decide +kernel⟩,
   ⟨(.doorbell .CC_B 1), .CC_B, Reg.INTC.DOORBELL, (up [2, 9]).setReg (Reg.PAIR.CORE_STS 1) 3,
    by decide +kernel⟩,
   ⟨(.doorbell .CC_B 1), .CC_B, Reg.INTC.DOORBELL, (((up [2, 9]).setH .hoFrom 2).setH .hoTo 1),
    by decide +kernel⟩,
   ⟨(.registerWrite .HOST 0x1FFF0000 1), .HOST, 0x1FFF0000, up [0],
    by decide +kernel⟩,
   ⟨(.seqQuietWrite .HOST 1), .HOST, Reg.FAB.SEQ_QUIET, State.reset,
    by decide +kernel⟩,
   ⟨(.registerWrite .HOST 0xE80000 1), .HOST, 0xE80000, State.reset,
    by decide +kernel⟩,
   ⟨(.doorbell .HOST 1), .HOST, Reg.INTC.DOORBELL, (up [2]).setReg (Reg.BLK_CTL 2) 3,
    by decide +kernel⟩,
   ⟨(.registerWrite .HOST 0x23FFC 1), .HOST, 0x23FFC, up [2],
    by decide +kernel⟩⟩

theorem meets_EventsNeedTheirBlock :
    ∃ (c : Instr) (p : Nat) (s : State),
    (eventPage c = some p) ∧
    (s.live p = false) :=
  ⟨.todLoss, 1, State.reset,
    by decide +kernel⟩

theorem meets_RegisterAccessCodes :
    (∃ (r : Req) (a : BitVec 29) (v : W32) (f : RegRef) (s : State),
    (Admits s r a.toNat) ∧
    (lookupReg a.toNat = some f) ∧
    (otnLane s f = true) ∧
    (ownRule r f a.toNat v.toNat (firstWrite r s) = none) ∧
    (f.row.acc = .rw)) ∧
    (∃ (r : Req) (a : BitVec 29) (v : W32) (f : RegRef) (s : State),
    (Admits s r a.toNat) ∧
    (lookupReg a.toNat = some f) ∧
    (otnLane s f = true) ∧
    (ownRule r f a.toNat v.toNat (firstWrite r s) = none) ∧
    (f.row.acc = .rwl) ∧
    (s.rbit (Reg.BLK_CTL (a.toNat / 0x10000)) 2 = false)) ∧
    (∃ (r : Req) (a : BitVec 29) (v : W32) (f : RegRef) (s : State),
    (Admits s r a.toNat) ∧
    (lookupReg a.toNat = some f) ∧
    (otnLane s f = true) ∧
    (ownRule r f a.toNat v.toNat (firstWrite r s) = none) ∧
    (f.row.acc = .rwl) ∧
    (s.rbit (Reg.BLK_CTL (a.toNat / 0x10000)) 2 = true)) ∧
    (∃ (r : Req) (a : BitVec 29) (v : W32) (f : RegRef) (s : State),
    (Admits s r a.toNat) ∧
    (lookupReg a.toNat = some f) ∧
    (otnLane s f = true) ∧
    (ownRule r f a.toNat v.toNat (firstWrite r s) = none) ∧
    (f.row.acc = .w1c)) ∧
    (∃ (r : Req) (a : BitVec 29) (v : W32) (f : RegRef) (s : State),
    (Admits s r a.toNat) ∧
    (lookupReg a.toNat = some f) ∧
    (otnLane s f = true) ∧
    (ownRule r f a.toNat v.toNat (firstWrite r s) = none) ∧
    (f.row.acc = .ro)) ∧
    (∃ (r : Req) (p : Fin 8192) (j : Fin 16) (v : W32) (s : State),
    (Admits s r (Reg.TBL_DATA p j))) ∧
    (∃ (r : Req) (a : BitVec 29) (v : W32) (f : RegRef) (s : State) (t : State),
    (Admits s r a.toNat) ∧
    (lookupReg a.toNat = some f) ∧
    (otnLane (firstWrite r s) f = true) ∧
    (ownRule r f a.toNat v.toNat (firstWrite r s) = some t)) ∧
    (∃ (r : Req) (a : BitVec 29) (f : RegRef) (s : State),
    (Admits s r a.toNat) ∧
    (lookupReg a.toNat = some f) ∧
    (otnLane s f = true) ∧
    (ownRead r f a.toNat s = none) ∧
    (f.row.acc = .rc)) ∧
    (∃ (r : Req) (a : BitVec 29) (f : RegRef) (s : State),
    (Admits s r a.toNat) ∧
    (lookupReg a.toNat = some f) ∧
    (otnLane s f = true) ∧
    (ownRead r f a.toNat s = none) ∧
    (f.row.acc = .ro) ∧
    (f.row.wide = true) ∧
    (f.word = 0) ∧
    (a.toNat % 8 = 0)) ∧
    (∃ (r : Req) (a : BitVec 29) (f : RegRef) (s : State),
    (Admits s r a.toNat) ∧
    (lookupReg a.toNat = some f) ∧
    (otnLane s f = true) ∧
    (ownRead r f a.toNat s = none) ∧
    (f.row.acc = .ro) ∧
    (f.row.wide = true) ∧
    (f.word = 1) ∧
    (a.toNat % 8 = 4)) ∧
    (∃ (r : Req) (a : BitVec 29) (f : RegRef) (s : State),
    (Admits s r a.toNat) ∧
    (lookupReg a.toNat = some f) ∧
    (otnLane s f = true) ∧
    (ownRead r f a.toNat s = none) ∧
    (f.row.acc = .wo)) ∧
    (∃ (r : Req) (a : BitVec 29) (f : RegRef) (s : State),
    (Admits s r a.toNat) ∧
    (lookupReg a.toNat = some f) ∧
    (otnLane s f = true) ∧
    (ownRead r f a.toNat s = none) ∧
    (f.row.acc = .rw) ∧
    (f.row.wide = false)) ∧
    (∃ (r : Req) (a : BitVec 29) (s : State),
    (haltedCore s r = false) ∧
    (s.h .rstHold = 0) ∧
    ((pageOf (a.toNat / 0x10000)).isSome = true) ∧
    (s.pageOn (a.toNat / 0x10000) = false) ∧
    (offReadable a.toNat = false)) ∧
    (∃ (r : Req) (a : BitVec 29) (s : State),
    (haltedCore s r = true)) ∧
    (∃ (r : Req) (a : BitVec 29) (s : State),
    (Admits s r a.toNat)) :=
  ⟨⟨.JTAG, 0x10420, 0xFFFFFFFF, ((lookupReg 0x10420).get (by decide +kernel)), up [1],
    by decide +kernel⟩,
   ⟨.JTAG, 0xE80400, 5, ((lookupReg 0xE80400).get (by decide +kernel)), up [0xE8],
    by decide +kernel⟩,
   ⟨.JTAG, 0xE80400, 5, ((lookupReg 0xE80400).get (by decide +kernel)), (up [0xE8]).setReg (Reg.BLK_CTL 0xE8) 5,
    by decide +kernel⟩,
   ⟨.JTAG, 0x10028, 5, ((lookupReg 0x10028).get (by decide +kernel)), (up [1]).setReg (Reg.EVT_LOST 1) 7,
    by decide +kernel⟩,
   ⟨.JTAG, 0x10400, 5, ((lookupReg 0x10400).get (by decide +kernel)), up [1],
    by decide +kernel⟩,
   ⟨.HOST, 1, 3, 7, up [1],
    by decide +kernel⟩,
   ⟨.HOST, 0x1002C, 7, ((lookupReg 0x1002C).get (by decide +kernel)), up [1], ((ownRule .HOST ((lookupReg 0x1002C).get (by decide +kernel)) 0x1002C 7 (firstWrite .HOST (up [1]))).get (by decide +kernel)),
    by decide +kernel⟩,
   ⟨.HOST, 0x10048, ((lookupReg 0x10048).get (by decide +kernel)), (up [1]).setReg (Reg.ERR_CNT 1) 7,
    by decide +kernel⟩,
   ⟨.HOST, 0x18000, ((lookupReg 0x18000).get (by decide +kernel)), (up [1]).setReg 0x18000 0x700000005,
    by decide +kernel⟩,
   ⟨.HOST, 0x18004, ((lookupReg 0x18004).get (by decide +kernel)), (up [1]).setReg (bank 19 0x18000) 0x7,
    by decide +kernel⟩,
   ⟨.HOST, 0x10424, ((lookupReg 0x10424).get (by decide +kernel)), up [1],
    by decide +kernel⟩,
   ⟨.HOST, 0x10434, ((lookupReg 0x10434).get (by decide +kernel)), up [1],
    by decide +kernel⟩,
   ⟨.HOST, 0xE80400, up [1],
    by decide +kernel⟩,
   ⟨.CC_B, 0x10048, up [1, 9],
    by decide +kernel⟩,
   ⟨.HOST, 0x10048, up [1],
    by decide +kernel⟩⟩

theorem meets_BlockHeader :
    (∃ (r : Req) (p : Fin 8192) (s : State),
    (Admits s r (Reg.BLK_CTL p))) ∧
    (∃ (r : Req) (p : Fin 8192) (s : State),
    (Admits s r (Reg.BLK_CTL p))) ∧
    (∃ (r : Req) (p : Fin 8192) (s : State),
    (Admits s r (Reg.BLK_CTL p)) ∧
    (s.rbit (Reg.BLK_CTL p) 0 = true)) ∧
    (∃ (r : Req) (p : Fin 8192) (s : State) (k : PageKind) (i : Nat),
    (Admits s r (Reg.BLK_CTL p)) ∧
    (pageOf p = some (k, i)) ∧
    (k ∉ [.SHAPE, .PFE, .TIME, .L2, .DSC, .FG, .INTC]) ∧
    (s.rbit (Reg.BLK_CTL p) 0 = false)) ∧
    (∃ (r : Req) (p : Fin 8192) (s : State) (k : PageKind) (i : Nat),
    (Admits s r (Reg.BLK_CTL p)) ∧
    (pageOf p = some (k, i)) ∧
    (k ∉ [.DSC, .FG, .INTC]) ∧
    (s.rbit (Reg.BLK_CTL p) 0 = true)) ∧
    (∃ (r : Req) (p : Fin 8192) (s : State) (k : PageKind) (i : Nat),
    (Sane s) ∧
    (Admits s r (Reg.BLK_CTL p)) ∧
    (pageOf p = some (k, i)) ∧
    (k ∈ [.EM, .TCAM, .ADJ])) ∧
    (∃ (p : Fin 8192) (s : State),
    (s.rbit (Reg.BLK_CTL p) 1 = true)) ∧
    (∃ (r : Req) (v : W32) (s : State),
    (Admits s r Reg.GLB.PROFILE_SEL) ∧
    (s.rbit (Reg.BLK_CTL 0) 2 = false) ∧
    (1 ≤ fld v.toNat 0 8) ∧
    ((∀ p ∈ allPages, fld v.toNat 0 8 ≤ fld (blkVersion p) 0 8))) ∧
    (∃ (r : Req) (v : W32) (s : State),
    (Admits s r Reg.GLB.PROFILE_SEL) ∧
    ((s.rbit (Reg.BLK_CTL 0) 2 = true ∨ fld v.toNat 0 8 = 0))) ∧
    (∃ (r : Req) (p : Fin 8192) (s : State),
    (Admits s r (Reg.BLK_CTL p))) ∧
    (∃ (r : Req) (p : Fin 8192) (s : State),
    (Admits s r (Reg.BLK_CTL p))) ∧
    (∃ (r : Req) (p : Fin 8192) (s : State),
    (Admits s r (Reg.BLK_CTL p))) ∧
    (∃ (r : Req) (v : W32) (s : State),
    (Admits s r Reg.GLB.PROFILE_SEL)) ∧
    (∃ (r : Req) (p : Fin 8192) (v : W32) (s : State),
    (Admits s r (Reg.EVT_PEND p))) ∧
    (∃ (r : Req) (p : Fin 8192) (v : W32) (s : State),
    (Admits s r (Reg.EVT_MASK p))) ∧
    (∃ (p e : Nat) (s : State),
    (Sane s) ∧
    (p < 8192) ∧
    (p ≠ 2) ∧
    (e < 32) ∧
    (s.pageOn p = true)) :=
  ⟨⟨.HOST, 1, up [1],
    by decide +kernel⟩,
   ⟨.HOST, 1, (up [1]).setTab 1 0xFF 3 9,
    by decide +kernel⟩,
   ⟨.HOST, 1, up [1],
    by decide +kernel⟩,
   ⟨.HOST, 0xC1, (up [0xC1]).setReg (Reg.BLK_CTL 0xC1) 0, .EM, 0,
    by decide +kernel⟩,
   ⟨.HOST, 1, up [1], .TIME, 0,
    by decide +kernel⟩,
   ⟨.HOST, 0xC1, up [0xC1], .EM, 0,
    sane_of (by decide +kernel), by decide +kernel⟩,
   ⟨1, (up [1]).setReg (Reg.BLK_CTL 1) 3,
    by decide +kernel⟩,
   ⟨.HOST, 1, up [0],
    by decide +kernel, by decide +kernel, by decide +kernel, fun p _ => blkVersion_pos p⟩,
   ⟨.HOST, 0, up [0],
    by decide +kernel⟩,
   ⟨.HOST, 1, up [1],
    by decide +kernel⟩,
   ⟨.HOST, 1, (up [1]).setReg (Reg.BLK_CTL 1) 0,
    by decide +kernel⟩,
   ⟨.HOST, 1, up [1],
    by decide +kernel⟩,
   ⟨.HOST, 1, up [0],
    by decide +kernel⟩,
   ⟨.HOST, 1, 1, ((up [1, 2]).setReg (Reg.EVT_PEND 1) 7).setReg (Reg.EVT_MASK 1) 0,
    by decide +kernel⟩,
   ⟨.HOST, 1, 1, ((up [1, 2]).setReg (Reg.EVT_PEND 1) 7).setReg (Reg.EVT_MASK 1) 0,
    by decide +kernel⟩,
   ⟨1, 3, up [1],
    sane_of (by decide +kernel), by decide +kernel⟩⟩

theorem meets_TableCommands :
    (∃ (r : Req) (p : Fin 8192) (s : State),
    (Admits s r (Reg.TBL_CMD p)) ∧
    (p.val ≠ lpmPage) ∧
    (s.rbit (winBank r (Reg.TBL_STS p)) 31 = true)) ∧
    (∃ (r : Req) (s : State),
    (Admits s r (Reg.TBL_CMD 1)) ∧
    (s.rbit (winBank r (Reg.TBL_STS 1)) 31 = false) ∧
    (s.reg (winBank r (Reg.TBL_SEL 1)) = 1) ∧
    (s.reg (winBank r (Reg.TBL_IDX 1)) < 1024)) ∧
    (∃ (r : Req) (s : State),
    (Admits s r (Reg.TBL_CMD 1)) ∧
    (s.rbit (winBank r (Reg.TBL_STS 1)) 31 = false) ∧
    (s.reg (winBank r (Reg.TBL_SEL 1)) = 1) ∧
    (s.reg (winBank r (Reg.TBL_IDX 1)) < 1024)) ∧
    (∃ (r : Req) (p : Fin 8192) (s : State),
    (s.hn (.tblOp p (reqNo r)) = 1) ∧
    (p.val ≠ lpmPage)) ∧
    (∃ (r : Req) (p : Fin 8192) (n : Nat) (s : State),
    (s.hn (.tblOp p (reqNo r)) = 1 + 256 * n) ∧
    (0 < n) ∧
    (p.val ≠ lpmPage)) ∧
    (∃ (r : Req) (p : Fin 8192) (s : State),
    (Admits s r (Reg.TBL_CMD p))) ∧
    (∃ (r : Req) (p : Fin 8192) (s : State),
    (Admits s r (Reg.TBL_CMD p))) :=
  ⟨⟨.HOST, 1, (up [1]).setReg (winBank .HOST (Reg.TBL_STS 1)) 0x80000000,
    by decide +kernel⟩,
   ⟨.HOST, (up [1]).setReg (winBank .HOST (Reg.TBL_SEL 1)) 1,
    by decide +kernel⟩,
   ⟨.HOST, ((up [1]).setReg (winBank .HOST (Reg.TBL_SEL 1)) 1).setReg (winBank .HOST (Reg.TBL_DATA 1 0)) 77,
    by decide +kernel⟩,
   ⟨.HOST, 1, (up [1]).setH (.tblOp 1 3) 1,
    by decide +kernel⟩,
   ⟨.HOST, 1, 4, (up [1]).setH (.tblOp 1 3) 1025,
    by decide +kernel⟩,
   ⟨.HOST, 1, up [1],
    by decide +kernel⟩,
   ⟨.HOST, 1, up [1],
    by decide +kernel⟩⟩

theorem meets_RateWordHalves :
    (∃ (r : Req) (x : RateSel) (v : W32) (s : State),
    (Admits s r (rateLoAddr x)) ∧
    (rateFollowed s x = false)) ∧
    (∃ (r : Req) (x : RateSel) (v : W32) (s : State),
    (Sane s) ∧
    (Admits s r (rateHiAddr x)) ∧
    (rateFollowed s x = false)) ∧
    (∃ (r : Req) (v : W32) (s : State),
    ((followed s).isSome = true) ∧
    (Admits s r Reg.TIME.RATE_TB_LO)) ∧
    (∃ (r : Req) (v : W32) (s : State),
    ((followed s).isSome = true) ∧
    (Admits s r Reg.TIME.RATE_TB_HI)) ∧
    (∃ (r : Req) (x : RateSel) (v : W32) (s : State),
    (Admits s r (rateLoAddr x))) ∧
    (∃ (r : Req) (x : RateSel) (v : W32) (s : State),
    (Admits s r (rateHiAddr x))) :=
  ⟨⟨.JTAG, .trkB, 5, (up [1]),
    by decide +kernel⟩,
   ⟨.JTAG, .tb, 5, (up [1]),
    sane_of (by decide +kernel), by decide +kernel⟩,
   ⟨.JTAG, 5, (up [1]).setReg Reg.TIME.TB_CTL 1,
    by decide +kernel⟩,
   ⟨.JTAG, 5, (up [1]).setReg Reg.TIME.TB_CTL 2,
    by decide +kernel⟩,
   ⟨.JTAG, .trkB, 5, (up [1]),
    by decide +kernel⟩,
   ⟨.JTAG, .trkB, 5, (up [1]),
    by decide +kernel⟩⟩

theorem meets_TimeBaseRead :
    ∃ (r : Req) (s : State),
    (Sane s) ∧
    (Admits s r Reg.TIME.TB_FRAC) :=
  ⟨.HOST, (up [1]),
    sane_of (by decide +kernel), by decide +kernel⟩

theorem meets_TimeControlAndSteps :
    (∃ (r : Req) (v : W32) (s : State),
    (Sane s) ∧
    (Admits s r Reg.TIME.TB_CTL) ∧
    (fld v.toNat 4 2 = s.rfld Reg.TIME.TB_CTL 4 2) ∧
    (fld v.toNat 0 2 = s.rfld Reg.TIME.TB_CTL 0 2) ∧
    (fld v.toNat 0 2 ≠ 3)) ∧
    (∃ (r : Req) (v : W32) (s : State),
    (Sane s) ∧
    (Admits s r Reg.TIME.TB_CTL) ∧
    (fld v.toNat 4 2 ≠ s.rfld Reg.TIME.TB_CTL 4 2) ∧
    (tbTransition (s.rfld Reg.TIME.TB_CTL 4 2) (fld v.toNat 4 2) = true) ∧
    (fld v.toNat 0 2 = s.rfld Reg.TIME.TB_CTL 0 2) ∧
    (fld v.toNat 0 2 ≠ 3)) ∧
    (∃ (r : Req) (v : W32) (s : State),
    (Sane s) ∧
    (Admits s r Reg.TIME.TB_CTL) ∧
    (fld v.toNat 4 2 ≠ s.rfld Reg.TIME.TB_CTL 4 2) ∧
    (tbTransition (s.rfld Reg.TIME.TB_CTL 4 2) (fld v.toNat 4 2) = false) ∧
    (fld v.toNat 0 2 = s.rfld Reg.TIME.TB_CTL 0 2) ∧
    (fld v.toNat 0 2 ≠ 3)) ∧
    (∃ (r : Req) (v : W32) (s : State),
    (Admits s r Reg.TIME.TB_CTL)) ∧
    (∃ (r : Req) (v : W32) (s : State),
    (Sane s) ∧
    (Admits s r Reg.TIME.STEP_CMD) ∧
    (bit v.toNat 0 = true) ∧
    (stepAllowed s = true) ∧
    (followed s = none) ∧
    (-999999999 ≤ sgn (s.reg Reg.TIME.STEP_NS) 32) ∧
    (sgn (s.reg Reg.TIME.STEP_NS) 32 ≤ 999999999)) ∧
    (∃ (r : Req) (v : W32) (s : State),
    (Admits s r Reg.TIME.STEP_CMD) ∧
    (bit v.toNat 0 = false)) ∧
    (∃ (r : Req) (v : W32) (s : State),
    (Admits s r Reg.TIME.STEP_CMD) ∧
    (bit v.toNat 0 = true) ∧
    (stepAllowed s = false)) ∧
    (∃ (r : Req) (v : W32) (s : State),
    (Admits s r Reg.TIME.STEP_CMD) ∧
    (bit v.toNat 0 = true) ∧
    (stepAllowed s = true) ∧
    ((sgn (s.reg Reg.TIME.STEP_NS) 32 < -999999999 ∨ 999999999 < sgn (s.reg Reg.TIME.STEP_NS) 32))) ∧
    (∃ (r : Req) (v : W32) (s : State),
    (Admits s r Reg.TIME.STEP_REARM) ∧
    (bit v.toNat 0 = true)) ∧
    (∃ (r : Req) (x : Fin 2) (v : W32) (s : State),
    (Sane s) ∧
    (Admits s r (Reg.TIME.TRK_STEP_CMD x)) ∧
    (followed s = none) ∧
    (fld v.toNat 0 16 ≠ s.rfld (Reg.TIME.TRK_STEP_CMD x) 16 16)) ∧
    (∃ (r : Req) (x : Fin 2) (v : W32) (s : State),
    (Admits s r (Reg.TIME.TRK_STEP_CMD x)) ∧
    (fld v.toNat 0 16 = s.rfld (Reg.TIME.TRK_STEP_CMD x) 16 16)) ∧
    (∃ (r : Req) (v : W32) (s : State),
    (Admits s r Reg.TIME.STEP_CMD)) ∧
    (∃ (r : Req) (v : W32) (s : State),
    (Admits s r Reg.TIME.STEP_REARM)) ∧
    (∃ (r : Req) (x : Fin 2) (v : W32) (s : State),
    (Admits s r (Reg.TIME.TRK_STEP_CMD x))) :=
  ⟨⟨.JTAG, 0x100, (up [1]),
    sane_of (by decide +kernel), by decide +kernel⟩,
   ⟨.JTAG, 0x20, (up [1]).setReg Reg.TIME.TB_CTL 0x10,
    sane_of (by decide +kernel), by decide +kernel⟩,
   ⟨.JTAG, 0x20, (up [1]),
    sane_of (by decide +kernel), by decide +kernel⟩,
   ⟨.JTAG, 0x100, (up [1]),
    by decide +kernel⟩,
   ⟨.JTAG, 1, ((up [1]).setReg Reg.TIME.STEP_NS 7).setReg Reg.TIME.TB_CTL 0x420,
    sane_of (by decide +kernel), by decide +kernel⟩,
   ⟨.JTAG, 2, (up [1]),
    by decide +kernel⟩,
   ⟨.JTAG, 1, (up [1]).setReg Reg.TIME.TB_CTL 0x10,
    by decide +kernel⟩,
   ⟨.JTAG, 1, (up [1]).setReg Reg.TIME.STEP_NS 1000000000,
    by decide +kernel⟩,
   ⟨.JTAG, 1, (up [1]).setReg Reg.TIME.TB_CTL 0x20,
    by decide +kernel⟩,
   ⟨.JTAG, 1, 3, (up [1]).setReg (Reg.TIME.TRK_STEP_NS 1) 9,
    sane_of (by decide +kernel), by decide +kernel⟩,
   ⟨.JTAG, 1, 0, (up [1]),
    by decide +kernel⟩,
   ⟨.JTAG, 1, (up [1]),
    by decide +kernel⟩,
   ⟨.JTAG, 1, (up [1]),
    by decide +kernel⟩,
   ⟨.JTAG, 1, 3, (up [1]),
    by decide +kernel⟩⟩

theorem meets_TimeFollowing :
    (∃ (s : State) (x : Nat),
    (followed s = some x) ∧
    (s.rbit Reg.TIME.TB_CTL 11 = true)) ∧
    (∃ (s : State),
    (followed s = none)) ∧
    (∃ (x : Fin 2) (s : State) (u : State),
    (s.live timePage = true) ∧
    (s.rbit (Reg.TIME.TRK_REF_CFG x) 31 = true) ∧
    (waitSince timePage (.refSince x) (syncCycles s x) s = u) ∧
    (u.rbit (Reg.TIME.TRK_REF_CFG x) 31 = true) ∧
    (u.rbit (Reg.TIME.TRK_REF_STS x) 0 = false)) ∧
    (∃ (s : State) (u : State),
    (s.timeRuns = true) ∧
    (s.live 0x100 = true) ∧
    (nextInterval 0x100 .folAt (cycUs 1) s = u)) ∧
    (∃ (x : Fin 2) (s : State),
    (s.live timePage = true)) ∧
    (∃ (s : State),
    (s.timeRuns = true) ∧
    (s.live 0x100 = true)) :=
  ⟨⟨((up [1]).setReg Reg.TIME.TB_CTL 0x801), 0,
    by decide +kernel⟩,
   ⟨(up [1]),
    by decide +kernel⟩,
   ⟨0, ((up [1]).setReg (Reg.TIME.TRK_REF_CFG 0) 0x80000000).setReg Reg.TIME.TB_CTL 0x121, (waitSince timePage (.refSince 0) (syncCycles (((up [1]).setReg (Reg.TIME.TRK_REF_CFG 0) 0x80000000).setReg Reg.TIME.TB_CTL 0x121) 0) (((up [1]).setReg (Reg.TIME.TRK_REF_CFG 0) 0x80000000).setReg Reg.TIME.TB_CTL 0x121)),
    by decide +kernel⟩,
   ⟨(up [1, 0x100]), (nextInterval 0x100 .folAt (cycUs 1) (up [1, 0x100])),
    by decide +kernel⟩,
   ⟨0, (up [1]),
    by decide +kernel⟩,
   ⟨(up [1, 0x100]),
    by decide +kernel⟩⟩

theorem meets_TimeInputsAndOutputs :
    (∃ (i : Fin 2) (dt : Fin 18) (s : State),
    (s.live timePage = true) ∧
    (s.rbit (Reg.TIME.PPS_IN_CFG i) 31 = true) ∧
    (s.rbit (Reg.TIME.PPS_IN_STS i) 1 = false) ∧
    ((s.hn (.ppsLast i) = 0 ∨ s.hn (.ppsLast i) + s.rfld (Reg.TIME.PPS_IN_CFG i) 0 11 * 1000000 * 16 ≤ stamp s dt + 1))) ∧
    (∃ (i : Fin 2) (dt : Fin 18) (s : State),
    (s.live timePage = true) ∧
    (s.rbit (Reg.TIME.PPS_IN_CFG i) 31 = true) ∧
    (s.rbit (Reg.TIME.PPS_IN_STS i) 1 = false) ∧
    (s.hn (.ppsLast i) ≠ 0) ∧
    (stamp s dt + 1 < s.hn (.ppsLast i) + s.rfld (Reg.TIME.PPS_IN_CFG i) 0 11 * 1000000 * 16)) ∧
    (∃ (i : Fin 2) (s : State) (u : State),
    (s.live timePage = true) ∧
    (s.rbit (Reg.TIME.PPS_IN_CFG i) 31 = true) ∧
    (waitSince timePage (.ppsSince i) (cycUs 1200000) s = u) ∧
    (u.rbit (Reg.TIME.PPS_IN_CFG i) 31 = true) ∧
    (u.rbit (Reg.TIME.PPS_IN_STS i) 0 = false)) ∧
    (∃ (r : Req) (i : Fin 2) (v : W32) (s : State),
    (Admits s r (Reg.TIME.PPS_IN_REARM i)) ∧
    (bit v.toNat 0 = true)) ∧
    (∃ (msg : List Byte) (fr : Bool) (s : State),
    (s.live timePage = true) ∧
    (todValid msg fr = true)) ∧
    (∃ (msg : List Byte) (fr : Bool) (s : State),
    (s.live timePage = true) ∧
    (todValid msg fr = false)) ∧
    (∃ (s : State) (u : State),
    (s.live timePage = true) ∧
    (waitSince timePage .todSince (cycUs 2000000) s = u)) ∧
    (∃ (dt : Fin 18) (s : State),
    (s.live timePage = true) ∧
    (s.rbit Reg.TIME.FREQ_CFG 31 = true)) ∧
    (∃ (s : State),
    (s.live timePage = true) ∧
    (s.rbit Reg.TIME.FREQ_CFG 31 = true) ∧
    (s.hn .freqSince ≠ 0)) ∧
    (∃ (i : Fin 2) (s : State),
    (s.live timePage = true)) ∧
    (∃ (r : Req) (i : Fin 2) (v : W32) (s : State),
    (Admits s r (Reg.TIME.PPS_IN_REARM i))) ∧
    (∃ (i : Fin 2) (dt : Fin 18) (s : State),
    (s.live timePage = true)) ∧
    (∃ (msg : List Byte) (framing : Bool) (s : State),
    (s.live timePage = true)) ∧
    (∃ (dt : Fin 18) (s : State),
    (s.live timePage = true)) ∧
    (∃ (s : State),
    (s.live timePage = true)) ∧
    (∃ (s : State),
    (s.live timePage = true)) ∧
    (∃ (i : Fin 2) (t : Nat) (s : State) (u : State),
    (s.live timePage = true) ∧
    (s.hn (.ppsNext i) = t + 1) ∧
    (advanceSrcTo (s.rfld (Reg.TIME.PPS_OUT_CFG i) 0 2) t (ppsPulseEnd i s) = u) ∧
    (t ≤ srcTime u (s.rfld (Reg.TIME.PPS_OUT_CFG i) 0 2))) ∧
    (∃ (i : Fin 2) (s : State),
    (s.live timePage = true) ∧
    (s.hn (.ppsNext i) = 0)) ∧
    (∃ (i : Fin 2) (s : State) (u : State),
    (s.live timePage = true) ∧
    (s.hb (.ppsOut i) = true) ∧
    (waitRoot (s.hn (.ppsRise i) + cycUs (s.reg (Reg.TIME.PPS_OUT_WIDTH i))) s = u) ∧
    (u.hb (.ppsOut i) = true)) ∧
    (∃ (due : Nat) (s : State) (u : State),
    (s.live timePage = true) ∧
    (s.hn .todDue = due + 1) ∧
    ((waitRoot due s).setH .todDue 0 = u)) ∧
    (∃ (s : State),
    (s.live timePage = true) ∧
    (s.hn .todDue = 0)) ∧
    (∃ (i : Fin 2) (s : State),
    (s.live timePage = true)) ∧
    (∃ (i : Fin 2) (s : State),
    (s.live timePage = true)) ∧
    (∃ (s : State),
    (s.live timePage = true)) :=
  ⟨⟨0, 5, (up [1]).setReg (Reg.TIME.PPS_IN_CFG 0) 0x80000000,
    by decide +kernel⟩,
   ⟨1, 5, ((up [1]).setReg (Reg.TIME.PPS_IN_CFG 1) 0x80000005).setH (.ppsLast 1) 1,
    by decide +kernel⟩,
   ⟨1, (up [1]).setReg (Reg.TIME.PPS_IN_CFG 1) 0x80000000, (waitSince timePage (.ppsSince 1) (cycUs 1200000) ((up [1]).setReg (Reg.TIME.PPS_IN_CFG 1) 0x80000000)),
    by decide +kernel⟩,
   ⟨.JTAG, 1, 1, (up [1]).setReg (Reg.TIME.PPS_IN_STS 1) 2,
    by decide +kernel⟩,
   ⟨(todMessage (up [1]) 7), false, (up [1]),
    by decide +kernel⟩,
   ⟨(todMessage (up [1]) 7), true, (up [1]),
    by decide +kernel⟩,
   ⟨(up [1]), (waitSince timePage .todSince (cycUs 2000000) (up [1])),
    by decide +kernel⟩,
   ⟨3, (up [1]).setReg Reg.TIME.FREQ_CFG 0x80000000,
    by decide +kernel⟩,
   ⟨(up [1]).setReg Reg.TIME.FREQ_CFG 0x80000000 |>.setH .freqSince 1,
    by decide +kernel⟩,
   ⟨0, (up [1]),
    by decide +kernel⟩,
   ⟨.JTAG, 1, 1, (up [1]),
    by decide +kernel⟩,
   ⟨0, 5, (up [1]),
    by decide +kernel⟩,
   ⟨[], true, (up [1]),
    by decide +kernel⟩,
   ⟨3, (up [1]),
    by decide +kernel⟩,
   ⟨(up [1]),
    by decide +kernel⟩,
   ⟨(up [1]),
    by decide +kernel⟩,
   ⟨0, 0, (up [1]).setH (.ppsNext 0) 1, (up [1]).setH (.ppsNext 0) 1,
    by decide +kernel⟩,
   ⟨0, (up [1]),
    by decide +kernel⟩,
   ⟨1, (up [1]).setHb (.ppsOut 1) true, (waitRoot (((up [1]).setHb (.ppsOut 1) true).hn (.ppsRise 1) + cycUs (((up [1]).setHb (.ppsOut 1) true).reg (Reg.TIME.PPS_OUT_WIDTH 1))) ((up [1]).setHb (.ppsOut 1) true)),
    by decide +kernel⟩,
   ⟨0, (up [1]).setH .todDue 1, ((up [1]).setH .todDue 1).setH .todDue 0,
    by decide +kernel⟩,
   ⟨(up [1]),
    by decide +kernel⟩,
   ⟨0, (up [1]),
    by decide +kernel⟩,
   ⟨0, (up [1]),
    by decide +kernel⟩,
   ⟨(up [1]),
    by decide +kernel⟩⟩

theorem meets_LineLinks :
    (∃ (n : Fin 128) (s : State),
    (s.clocked (lportPage n) = true)) ∧
    (∃ (n : Fin 128) (s : State),
    (linkRuns s n = true) ∧
    (linkState s n = 2)) ∧
    (∃ (n : Fin 128) (s : State),
    (linkState s n ≠ 2) ∧
    (linkState s n ≠ 1 ∨ loopback s n ≠ 1)) ∧
    (∃ (n : Fin 128) (s : State),
    (linkRuns s n = true) ∧
    (linkState s n = 1) ∧
    (loopback s n = 1)) ∧
    (∃ (n : Fin 128) (skews : List (BitVec 16)) (s : State),
    (Sane s) ∧
    (linkRuns s n = true) ∧
    (linkState s n = 3) ∧
    (loopback s n ≠ 1) ∧
    (portLanes s n = skews.length) ∧
    ((∀ x ∈ skews, x.toNat ≤ 2880))) ∧
    (∃ (n : Fin 128) (skews : List (BitVec 16)) (s : State),
    (Sane s) ∧
    (linkRuns s n = true) ∧
    (linkState s n = 3) ∧
    (loopback s n ≠ 1) ∧
    (portLanes s n = skews.length) ∧
    ((∃ x ∈ skews, 2880 < x.toNat))) ∧
    (∃ (n : Fin 128) (s : State),
    (linkRuns s n = true) ∧
    (linkState s n = 4)) ∧
    (∃ (n : Fin 128) (s : State),
    (linkRuns s n = true) ∧
    (4 ≤ linkState s n)) ∧
    (∃ (n : Fin 128) (k : Fin 8) (s : State) (u : State),
    (s.clocked (lportPage n) = true) ∧
    (k.val < portLanes s n) ∧
    (lockChange (fun w => w.setRbit (Reg.LPORT.LINK_STS n) (16 + k) false) s = u) ∧
    (u.live (lportPage n) = true) ∧
    (linkState u n ≠ 0) ∧
    (loopback u n ≠ 1) ∧
    (otnRuns (setLink n 1 u) n = false)) ∧
    (∃ (n : Fin 128) (remote : Bool) (s : State),
    (linkRuns s n = true) ∧
    (5 ≤ linkState s n) ∧
    (loopback s n ≠ 1)) ∧
    (∃ (n : Fin 128) (s : State),
    (clientFails s n = true)) ∧
    (∃ (n : Fin 128) (s : State),
    (linkRuns s n = true) ∧
    (linkState s n = 6) ∧
    (clientFails s n = false)) ∧
    (∃ (n : Fin 128) (corr uncorr sym : W32) (s : State) (u : State),
    (linkRuns s n = true) ∧
    (isOtn s n = false) ∧
    (nextInterval (lportPage n) (.fecAt n) (cycUs 1000) s = u) ∧
    (loopback u n ≠ 1) ∧
    (isOtn u n = false)) ∧
    (∃ (k : Fin 4) (s : State),
    (s.live timePage = true) ∧
    (s.rbit (Reg.TIME.RCLK k) 14 = true) ∧
    (laneLocked s (s.rfld (Reg.TIME.RCLK k) 0 7) = true)) ∧
    (∃ (k : Fin 4) (s : State),
    (s.rbit (Reg.TIME.RCLK k) 14 = false ∨ laneLocked s (s.rfld (Reg.TIME.RCLK k) 0 7) = false)) ∧
    (∃ (n : Fin 128) (s : State),
    (linkRuns s n = true) ∧
    ((linkState s n == 2 || (linkState s n == 1 && loopback s n == 1)) = true)) ∧
    (∃ (n : Fin 128) (skews : List (BitVec 16)) (s : State),
    (linkRuns s n = true) ∧
    (linkState s n = 3)) ∧
    (∃ (n : Fin 128) (remote : Bool) (s : State),
    (linkRuns s n = true) ∧
    (5 ≤ linkState s n) ∧
    (loopback s n ≠ 1)) ∧
    (∃ (n : Fin 128) (corr uncorr sym : W32) (s : State),
    ((if isOtn s n then s.live (otnPage (n.val / 16)) else linkRuns s n) = true)) ∧
    (∃ (r : Fin 4) (s : State),
    (s.live timePage = true)) :=
  ⟨⟨0, ((((up [1, 0x10, 0x90]).setReg (Reg.LG.ACT_LO 0) 1).setReg (Reg.LPORT.MAC_CFG 0) (0x18000 + 1518)).setReg (Reg.LPORT.LINK_STS 0) 1),
    by decide +kernel⟩,
   ⟨0, ((((up [1, 0x10, 0x90]).setReg (Reg.LG.ACT_LO 0) 1).setReg (Reg.LPORT.MAC_CFG 0) (0x18000 + 1518)).setReg (Reg.LPORT.LINK_STS 0) 2),
    by decide +kernel⟩,
   ⟨0, ((((up [1, 0x10, 0x90]).setReg (Reg.LG.ACT_LO 0) 1).setReg (Reg.LPORT.MAC_CFG 0) (0x18000 + 1518)).setReg (Reg.LPORT.LINK_STS 0) 5),
    by decide +kernel⟩,
   ⟨0, ((((up [1, 0x10, 0x90]).setReg (Reg.LG.ACT_LO 0) 1).setReg (Reg.LPORT.MAC_CFG 0) (0x18000 + 1518)).setReg (Reg.LPORT.LINK_STS 0) 1).setReg (Reg.LPORT.LINK_CFG 0) 0x110,
    by decide +kernel⟩,
   ⟨0, [5], ((((up [1, 0x10, 0x90]).setReg (Reg.LG.ACT_LO 0) 1).setReg (Reg.LPORT.MAC_CFG 0) (0x18000 + 1518)).setReg (Reg.LPORT.LINK_STS 0) 3),
    sane_of (by decide +kernel), by decide +kernel, by decide +kernel, by decide +kernel, by decide +kernel, by simp⟩,
   ⟨0, [2881], ((((up [1, 0x10, 0x90]).setReg (Reg.LG.ACT_LO 0) 1).setReg (Reg.LPORT.MAC_CFG 0) (0x18000 + 1518)).setReg (Reg.LPORT.LINK_STS 0) 3),
    sane_of (by decide +kernel), by decide +kernel, by decide +kernel, by decide +kernel, by decide +kernel, by simp⟩,
   ⟨0, ((((up [1, 0x10, 0x90]).setReg (Reg.LG.ACT_LO 0) 1).setReg (Reg.LPORT.MAC_CFG 0) (0x18000 + 1518)).setReg (Reg.LPORT.LINK_STS 0) 4),
    by decide +kernel⟩,
   ⟨0, ((((up [1, 0x10, 0x90]).setReg (Reg.LG.ACT_LO 0) 1).setReg (Reg.LPORT.MAC_CFG 0) (0x18000 + 1518)).setReg (Reg.LPORT.LINK_STS 0) 4),
    by decide +kernel⟩,
   ⟨0, 0, ((((up [1, 0x10, 0x90]).setReg (Reg.LG.ACT_LO 0) 1).setReg (Reg.LPORT.MAC_CFG 0) (0x18000 + 1518)).setReg (Reg.LPORT.LINK_STS 0) 4), (lockChange (fun w => w.setRbit (Reg.LPORT.LINK_STS 0) (16 + (0 : Fin 8)) false) (((((up [1, 0x10, 0x90]).setReg (Reg.LG.ACT_LO 0) 1).setReg (Reg.LPORT.MAC_CFG 0) (0x18000 + 1518)).setReg (Reg.LPORT.LINK_STS 0) 4))),
    by decide +kernel⟩,
   ⟨0, true, ((((up [1, 0x10, 0x90]).setReg (Reg.LG.ACT_LO 0) 1).setReg (Reg.LPORT.MAC_CFG 0) (0x18000 + 1518)).setReg (Reg.LPORT.LINK_STS 0) 5),
    by decide +kernel⟩,
   ⟨0, ((((up [1, 0x10, 0x90]).setReg (Reg.LG.ACT_LO 0) 5).setH (.caEff 0) 4).setReg (Reg.LPORT.LINK_STS 0) 6),
    by decide +kernel⟩,
   ⟨0, ((((up [1, 0x10, 0x90]).setReg (Reg.LG.ACT_LO 0) 1).setReg (Reg.LPORT.MAC_CFG 0) (0x18000 + 1518)).setReg (Reg.LPORT.LINK_STS 0) 6),
    by decide +kernel⟩,
   ⟨0, 3, 0, 9, ((((up [1, 0x10, 0x90]).setReg (Reg.LG.ACT_LO 0) 1).setReg (Reg.LPORT.MAC_CFG 0) (0x18000 + 1518)).setReg (Reg.LPORT.LINK_STS 0) 5), (nextInterval (lportPage 0) (.fecAt 0) (cycUs 1000) (((((up [1, 0x10, 0x90]).setReg (Reg.LG.ACT_LO 0) 1).setReg (Reg.LPORT.MAC_CFG 0) (0x18000 + 1518)).setReg (Reg.LPORT.LINK_STS 0) 5))),
    by decide +kernel⟩,
   ⟨1, ((((up [1, 0x10, 0x90]).setReg (Reg.LG.ACT_LO 0) 1).setReg (Reg.LPORT.MAC_CFG 0) (0x18000 + 1518)).setReg (Reg.LPORT.LINK_STS 0) 65541).setReg (Reg.TIME.RCLK 1) 0xC000,
    by decide +kernel⟩,
   ⟨1, ((((up [1, 0x10, 0x90]).setReg (Reg.LG.ACT_LO 0) 1).setReg (Reg.LPORT.MAC_CFG 0) (0x18000 + 1518)).setReg (Reg.LPORT.LINK_STS 0) 5),
    by decide +kernel⟩,
   ⟨0, ((((up [1, 0x10, 0x90]).setReg (Reg.LG.ACT_LO 0) 1).setReg (Reg.LPORT.MAC_CFG 0) (0x18000 + 1518)).setReg (Reg.LPORT.LINK_STS 0) 2),
    by decide +kernel⟩,
   ⟨0, [], ((((up [1, 0x10, 0x90]).setReg (Reg.LG.ACT_LO 0) 1).setReg (Reg.LPORT.MAC_CFG 0) (0x18000 + 1518)).setReg (Reg.LPORT.LINK_STS 0) 3),
    by decide +kernel⟩,
   ⟨0, true, ((((up [1, 0x10, 0x90]).setReg (Reg.LG.ACT_LO 0) 1).setReg (Reg.LPORT.MAC_CFG 0) (0x18000 + 1518)).setReg (Reg.LPORT.LINK_STS 0) 5),
    by decide +kernel⟩,
   ⟨0, 3, 0, 9, ((((up [1, 0x10, 0x90]).setReg (Reg.LG.ACT_LO 0) 1).setReg (Reg.LPORT.MAC_CFG 0) (0x18000 + 1518)).setReg (Reg.LPORT.LINK_STS 0) 5),
    by decide +kernel⟩,
   ⟨1, ((((up [1, 0x10, 0x90]).setReg (Reg.LG.ACT_LO 0) 1).setReg (Reg.LPORT.MAC_CFG 0) (0x18000 + 1518)).setReg (Reg.LPORT.LINK_STS 0) 65541).setReg (Reg.TIME.RCLK 1) 0xC000,
    by decide +kernel⟩⟩

theorem meets_PortSettings :
    (∃ (r : Req) (g : Fin 8) (v : W32) (s : State),
    (Admits s r (Reg.LG.MAP_COMMIT g)) ∧
    (bit v.toNat 0 = true) ∧
    (s.hb (.mapBusy g) = false) ∧
    ((List.range 16).find? (laneOffends (s.reg (Reg.LG.MAP_LO g)) (s.reg (Reg.LG.MAP_HI g))) = none)) ∧
    (∃ (r : Req) (g : Fin 8) (v : W32) (s : State) (l : Nat),
    (Admits s r (Reg.LG.MAP_COMMIT g)) ∧
    (bit v.toNat 0 = true) ∧
    (s.hb (.mapBusy g) = false) ∧
    ((List.range 16).find? (laneOffends (s.reg (Reg.LG.MAP_LO g)) (s.reg (Reg.LG.MAP_HI g))) = some l)) ∧
    (∃ (r : Req) (g : Fin 8) (v : W32) (s : State),
    (Sane s) ∧
    (Admits s r (Reg.LG.MAP_COMMIT g)) ∧
    (bit v.toNat 0 = true) ∧
    (s.hb (.mapBusy g) = true)) ∧
    (∃ (g : Fin 8) (s : State),
    (s.live (lgPage g) = true) ∧
    (s.hb (.mapBusy g) = true)) ∧
    (∃ (g : Fin 8) (s : State),
    (s.hb (.mapBusy g) = false)) ∧
    (∃ (r : Req) (g : Fin 8) (v : W32) (s : State),
    (Admits s r (Reg.LG.MAP_COMMIT g))) ∧
    (∃ (g : Fin 8) (s : State),
    (s.live (lgPage g) = true)) ∧
    (∃ (r : Req) (n : Fin 128) (v : W32) (s : State),
    (Admits s r (Reg.LPORT.MAC_CFG n)) ∧
    (64 ≤ fld v.toNat 0 14) ∧
    (fld v.toNat 0 14 ≤ 12288) ∧
    (fld v.toNat 18 2 ≠ 3) ∧
    (bit v.toNat 15 = s.rbit (Reg.LPORT.MAC_CFG n) 15)) ∧
    (∃ (r : Req) (n : Fin 128) (v : W32) (s : State),
    (Admits s r (Reg.LPORT.MAC_CFG n)) ∧
    ((fld v.toNat 0 14 < 64 ∨ 12288 < fld v.toNat 0 14)) ∧
    (fld v.toNat 18 2 ≠ 3) ∧
    (bit v.toNat 15 = s.rbit (Reg.LPORT.MAC_CFG n) 15)) ∧
    (∃ (r : Req) (n : Fin 128) (v : W32) (s : State),
    (Admits s r (Reg.LPORT.LINK_CFG n)) ∧
    ((fld v.toNat 8 2 = 3 ∨ fld v.toNat 0 8 = 0))) ∧
    (∃ (r : Req) (n : Fin 128) (v : W32) (s : State),
    (Admits s r (Reg.LPORT.LINK_CFG n)) ∧
    (fld v.toNat 8 2 ≠ 3) ∧
    (fld v.toNat 0 8 ≠ 0)) ∧
    (∃ (r : Req) (n : Fin 128) (v : W32) (s : State),
    (Admits s r (Reg.LPORT.MAC_CFG n))) ∧
    (∃ (r : Req) (n : Fin 128) (v : W32) (s : State),
    (Admits s r (Reg.LPORT.MAC_CFG n)) ∧
    (64 ≤ fld v.toNat 0 14) ∧
    (fld v.toNat 0 14 ≤ 12288) ∧
    (fld v.toNat 18 2 ≠ 3) ∧
    (bit v.toNat 15 ≠ s.rbit (Reg.LPORT.MAC_CFG n) 15)) ∧
    (∃ (r : Req) (n : Fin 128) (v : W32) (s : State),
    (Admits s r (Reg.LPORT.LINK_CFG n))) :=
  ⟨⟨.HOST, 0, 1, (up [0x90]).setReg (Reg.LG.MAP_LO 0) 1,
    by decide +kernel⟩,
   ⟨.HOST, 0, 1, (up [0x90]).setReg (Reg.LG.MAP_LO 0) 9, 0,
    by decide +kernel⟩,
   ⟨.HOST, 0, 1, (up [0x90]).setHb (.mapBusy 0) true,
    sane_of (by decide +kernel), by decide +kernel⟩,
   ⟨0, ((up [0x90]).setHb (.mapBusy 0) true).setReg (bank 61 (Reg.LG.ACT_LO 0)) 1,
    by decide +kernel⟩,
   ⟨0, up [0x90],
    by decide +kernel⟩,
   ⟨.HOST, 0, 1, up [0x90],
    by decide +kernel⟩,
   ⟨0, ((up [0x90]).setHb (.mapBusy 0) true).setReg (bank 61 (Reg.LG.ACT_LO 0)) 1,
    by decide +kernel⟩,
   ⟨.HOST, 0, 1518, up [0x10],
    by decide +kernel⟩,
   ⟨.HOST, 0, 63, up [0x10],
    by decide +kernel⟩,
   ⟨.HOST, 0, 0x310, up [0x10],
    by decide +kernel⟩,
   ⟨.HOST, 0, 0x110, ((((up [1, 0x10, 0x90]).setReg (Reg.LG.ACT_LO 0) 1).setReg (Reg.LPORT.MAC_CFG 0) (0x18000 + 1518)).setReg (Reg.LPORT.LINK_STS 0) 5),
    by decide +kernel⟩,
   ⟨.HOST, 0, 1518, up [0x10],
    by decide +kernel⟩,
   ⟨.HOST, 0, (1518 + 0x8000), up [0x10],
    by decide +kernel⟩,
   ⟨.HOST, 0, 0x310, up [0x10],
    by decide +kernel⟩⟩

theorem meets_Reception :
    (∃ (n : Fin 128) (dt : Fin 18) (s : State),
    (loopback s n ≠ 1) ∧
    ((linkState s n = 5 ∨ linkState s n = 6)) ∧
    (s.live (lportPage n) = true) ∧
    (s.hn (.rxOn n) = 0) ∧
    (s.live timePage = true) ∧
    (s.rbit (Reg.TIME.TSU_TS_CTL n) 0 = true)) ∧
    (∃ (n : Fin 128) (dt : Fin 18) (s : State),
    (loopback s n ≠ 1) ∧
    ((linkState s n = 5 ∨ linkState s n = 6)) ∧
    (s.live (lportPage n) = false) ∧
    (s.clocked (lportPage n) = true)) ∧
    (∃ (n : Fin 128) (dt : Fin 18) (s : State),
    (loopback s n ≠ 1)) ∧
    (∃ (n : Fin 128) (bytes : List Byte) (good err : Bool) (s : State),
    (s.live (lportPage n) = true)) ∧
    (∃ (n : Fin 128) (bytes : List Byte) (absorb : Bool) (f g : Frame) (s : State) (u : State),
    (s.firstAt (.rx n) = some f) ∧
    ((if f.full = true then s else rxBytes n bytes s) = u) ∧
    (u.frame f.id = some g) ∧
    (isMacCtl g.bytes = true ∨ headerComplete g = false)) ∧
    (∃ (n : Fin 128) (bytes : List Byte) (good err : Bool) (s : State),
    (s.live (lportPage n) = true) ∧
    (s.hn (.rxOn n) ≠ 0) ∧
    ((rxBytes n bytes s).hn (.rxOn n) = s.hn (.rxOn n))) ∧
    (∃ (n : Fin 128) (f : Frame) (bytes : List Byte) (s : State),
    (s.firstAt (.rx n) = some f) ∧
    (s.frame f.id = some f) ∧
    (f.full = true) ∧
    (isMacCtl f.bytes = false) ∧
    (s.live (lgPage (n / 16)) = true) ∧
    (s.clocked (ipipePage (n / 16)) = true) ∧
    (s.hb (.stuck (n / 16)) = false)) ∧
    (∃ (n : Fin 128) (f : Frame) (bytes : List Byte) (s : State),
    (s.firstAt (.rx n) = some f) ∧
    (s.frame f.id = some f) ∧
    (f.full = true) ∧
    (isMacCtl f.bytes = false) ∧
    (s.live (lgPage (n / 16)) = true)) ∧
    (∃ (n : Fin 128) (f : Frame) (s : State),
    (s.live (lportPage n) = true) ∧
    (s.firstAt (.rx n) = some f) ∧
    (f.full = true) ∧
    (isMacCtl f.bytes = true) ∧
    ((s.drop f).rfld (Reg.LPORT.MAC_CFG n) 18 2 = 1) ∧
    (beAt f.bytes 14 2 = 1)) ∧
    (∃ (n : Fin 128) (f : Frame) (s : State),
    (s.live (lportPage n) = true) ∧
    (s.firstAt (.rx n) = some f) ∧
    (f.full = true) ∧
    (isMacCtl f.bytes = true) ∧
    ((s.drop f).rfld (Reg.LPORT.MAC_CFG n) 18 2 = 0)) ∧
    (∃ (n : Fin 128) (c : Fin 8) (s : State),
    (s.live (lportPage n) = true) ∧
    (s.hb (.paused n c) = true) ∧
    (s.timeRuns = true)) ∧
    (∃ (n : Fin 128) (s : State),
    (s.live (lportPage n) = true)) ∧
    (∃ (n : Fin 128) (c : Fin 8) (s : State),
    (s.live (lportPage n) = true)) :=
  ⟨⟨0, 3, ((((up [1, 0x10, 0x90]).setReg (Reg.LG.ACT_LO 0) 1).setReg (Reg.LPORT.MAC_CFG 0) (0x18000 + 1518)).setReg (Reg.LPORT.LINK_STS 0) 5).setReg (Reg.TIME.TSU_TS_CTL 0) 1,
    by decide +kernel⟩,
   ⟨0, 3, ((((up [1, 0x10, 0x90]).setReg (Reg.LG.ACT_LO 0) 1).setReg (Reg.LPORT.MAC_CFG 0) (0x18000 + 1518)).setReg (Reg.LPORT.LINK_STS 0) 5).setReg (Reg.BLK_CTL 0x10) 0,
    by decide +kernel⟩,
   ⟨0, 3, ((((up [1, 0x10, 0x90]).setReg (Reg.LG.ACT_LO 0) 1).setReg (Reg.LPORT.MAC_CFG 0) (0x18000 + 1518)).setReg (Reg.LPORT.LINK_STS 0) 5),
    by decide +kernel⟩,
   ⟨0, [], true, false, ((((up [1, 0x10, 0x90]).setReg (Reg.LG.ACT_LO 0) 1).setReg (Reg.LPORT.MAC_CFG 0) (0x18000 + 1518)).setReg (Reg.LPORT.LINK_STS 0) 5),
    by decide +kernel⟩,
   ⟨0, [], true, { id := 1, loc := .rx 0, full := true, bytes := [1, 0x80, 0xC2, 0, 0, 1, 0, 0, 0, 0, 0, 0, 0x88, 0x08, 0, 1, 0, 9] }, { id := 1, loc := .rx 0, full := true, bytes := [1, 0x80, 0xC2, 0, 0, 1, 0, 0, 0, 0, 0, 0, 0x88, 0x08, 0, 1, 0, 9] }, { (((((up [1, 0x10, 0x90]).setReg (Reg.LG.ACT_LO 0) 1).setReg (Reg.LPORT.MAC_CFG 0) (0x18000 + 1518)).setReg (Reg.LPORT.LINK_STS 0) 5)) with frames := [{ id := 1, loc := .rx 0, full := true, bytes := [1, 0x80, 0xC2, 0, 0, 1, 0, 0, 0, 0, 0, 0, 0x88, 0x08, 0, 1, 0, 9] }] }, { (((((up [1, 0x10, 0x90]).setReg (Reg.LG.ACT_LO 0) 1).setReg (Reg.LPORT.MAC_CFG 0) (0x18000 + 1518)).setReg (Reg.LPORT.LINK_STS 0) 5)) with frames := [{ id := 1, loc := .rx 0, full := true, bytes := [1, 0x80, 0xC2, 0, 0, 1, 0, 0, 0, 0, 0, 0, 0x88, 0x08, 0, 1, 0, 9] }] },
    by decide +kernel, rfl, by decide +kernel⟩,
   ⟨0, (List.replicate 60 7), true, false, { ((((((up [1, 0x10, 0x90]).setReg (Reg.LG.ACT_LO 0) 1).setReg (Reg.LPORT.MAC_CFG 0) (0x18000 + 1518)).setReg (Reg.LPORT.LINK_STS 0) 5).setH (.rxOn 0) 2).setH (.rxMtu 0) 1518) with frames := [{ id := 1, loc := .rx 0, full := false }] },
    by decide +kernel⟩,
   ⟨0, { id := 1, loc := .rx 0, full := true, bytes := List.replicate 60 7, recv := none }, [], { ((up [0x10, 0x90, 0xB0])) with frames := [{ id := 1, loc := .rx 0, full := true, bytes := List.replicate 60 7, recv := none }] },
    by decide +kernel⟩,
   ⟨0, { id := 1, loc := .rx 0, full := true, bytes := List.replicate 60 7, recv := none }, [], { ((up [0x10, 0x90, 0xB0])) with frames := [{ id := 1, loc := .rx 0, full := true, bytes := List.replicate 60 7, recv := none }] },
    by decide +kernel⟩,
   ⟨0, { id := 1, loc := .rx 0, full := true, bytes := [1, 0x80, 0xC2, 0, 0, 1, 0, 0, 0, 0, 0, 0, 0x88, 0x08, 0, 1, 0, 9] }, { (((((up [1, 0x10, 0x90]).setReg (Reg.LG.ACT_LO 0) 1).setReg (Reg.LPORT.MAC_CFG 0) (0x58000 + 1518)).setReg (Reg.LPORT.LINK_STS 0) 5)) with frames := [{ id := 1, loc := .rx 0, full := true, bytes := [1, 0x80, 0xC2, 0, 0, 1, 0, 0, 0, 0, 0, 0, 0x88, 0x08, 0, 1, 0, 9] }] },
    by decide +kernel⟩,
   ⟨0, { id := 1, loc := .rx 0, full := true, bytes := [1, 0x80, 0xC2, 0, 0, 1, 0, 0, 0, 0, 0, 0, 0x88, 0x08, 0, 1, 0, 9] }, { (((((up [1, 0x10, 0x90]).setReg (Reg.LG.ACT_LO 0) 1).setReg (Reg.LPORT.MAC_CFG 0) (0x18000 + 1518)).setReg (Reg.LPORT.LINK_STS 0) 5)) with frames := [{ id := 1, loc := .rx 0, full := true, bytes := [1, 0x80, 0xC2, 0, 0, 1, 0, 0, 0, 0, 0, 0, 0x88, 0x08, 0, 1, 0, 9] }] },
    by decide +kernel⟩,
   ⟨0, 3, ((((up [1, 0x10, 0x90]).setReg (Reg.LG.ACT_LO 0) 1).setReg (Reg.LPORT.MAC_CFG 0) (0x18000 + 1518)).setReg (Reg.LPORT.LINK_STS 0) 5).setH (.paused 0 3) 9,
    by decide +kernel⟩,
   ⟨0, { (((((up [1, 0x10, 0x90]).setReg (Reg.LG.ACT_LO 0) 1).setReg (Reg.LPORT.MAC_CFG 0) (0x58000 + 1518)).setReg (Reg.LPORT.LINK_STS 0) 5)) with frames := [{ id := 1, loc := .rx 0, full := true, bytes := [1, 0x80, 0xC2, 0, 0, 1, 0, 0, 0, 0, 0, 0, 0x88, 0x08, 0, 1, 0, 9] }] },
    by decide +kernel⟩,
   ⟨0, 3, ((((up [1, 0x10, 0x90]).setReg (Reg.LG.ACT_LO 0) 1).setReg (Reg.LPORT.MAC_CFG 0) (0x18000 + 1518)).setReg (Reg.LPORT.LINK_STS 0) 5).setH (.paused 0 3) 9,
    by decide +kernel⟩⟩

theorem meets_Transmission :
    (∃ (n : Fin 128) (dt : Fin 18) (f : Frame) (s : State),
    (s.live (lportPage n) = true) ∧
    (s.hb (.fcPend n) = false) ∧
    ((txDownDrop n f s).hb (.fcPend n) = false) ∧
    (txNext s n = some f) ∧
    (f.started = false) ∧
    (guardHolds s n f.len (idleAt s n) = false) ∧
    (portSends s n = false) ∧
    ((f.markKnown && f.bad) = false)) ∧
    (∃ (n : Fin 128) (dt : Fin 18) (f : Frame) (s : State),
    (s.clocked (lportPage n) = true) ∧
    (s.hb (.fcPend n) = false) ∧
    (txNext s n = some f) ∧
    (f.started = false) ∧
    (guardHolds s n f.len (idleAt s n) = false) ∧
    (f.markKnown = true) ∧
    (f.bad = true) ∧
    ((bump (Reg.LPORT.TX_BAD_DISC n) (s.drop f)).hb (.fcPend n) = false)) ∧
    (∃ (n : Fin 128) (dt : Fin 18) (s : State),
    (s.clocked (lportPage n) = true)) ∧
    (∃ (n : Fin 128) (dt : Fin 18) (f : Frame) (s : State),
    (Sane s) ∧
    (portSends s n = true) ∧
    (txNext s n = some f) ∧
    (s.frames = [f]) ∧
    (f.started = false) ∧
    (s.hb (.fcPend n) = false) ∧
    (s.live timePage = true) ∧
    (s.hn (.bwStart n) = 0) ∧
    (guardHolds s n f.len (idleAt s n) = false) ∧
    (f.full = true) ∧
    (f.bad = false) ∧
    (f.onestep = 0) ∧
    (f.launch = none) ∧
    (f.ring = 0) ∧
    (f.cells = []) ∧
    (f.pre = []) ∧
    (f.hbuf = 0) ∧
    (loopback s n = 0) ∧
    (s.rbit (Reg.TIME.TSU_TS_CTL n) 0 = true) ∧
    (f.len ≤ txMtu s n) ∧
    (64 ≤ txMtu s n)) ∧
    (∃ (n : Fin 128) (f : Frame) (s : State),
    (s.clocked (lportPage n) = true) ∧
    ((s.allAt (.mac n) ++ s.allAt (.launch n)).find? (·.gone) = some f)) ∧
    (∃ (n : Fin 128) (s : State),
    ((s.allAt (.mac n) ++ s.allAt (.launch n)).find? (·.gone) = none)) ∧
    (∃ (n : Nat) (f : Frame) (s : State),
    (overMtu s n f = false)) ∧
    (∃ (n : Nat) (s : State) (u : State),
    (s.hb (.fcPend n) = true) ∧
    (inTx s n = none) ∧
    (portSends s n = true) ∧
    (s.rfld (Reg.LPORT.MAC_CFG n) 18 2 ≠ 0) ∧
    (guardHolds s n 64 (idleAt s n) = false) ∧
    (s.setH (.fcPend n) 0 = u)) ∧
    (∃ (n : Fin 128) (s : State),
    (s.hb (.fcSet n) = true) ∧
    (s.clocked (lportPage n) = true)) ∧
    (∃ (n : Fin 128) (s : State),
    (s.hb (.fcSet n) = false)) ∧
    (∃ (g : Fin 8) (f : Frame) (s : State),
    (s.firstAt (.recirc g) = some f) ∧
    (s.live (lgPage g) = true) ∧
    (f.whole = true) ∧
    (f.bad = false)) ∧
    (∃ (g : Fin 8) (f : Frame) (s : State),
    (s.firstAt (.recirc g) = some f) ∧
    (s.live (lgPage g) = true) ∧
    (f.whole = true) ∧
    (f.bad = true)) ∧
    (∃ (n : Fin 128) (s : State),
    (s.clocked (lportPage n) = true)) :=
  ⟨⟨0, 1, { id := 1, loc := .mac 0, bytes := List.replicate 60 7 }, { (((((up [1, 0x10, 0x90]).setReg (Reg.LG.ACT_LO 0) 1).setReg (Reg.LPORT.MAC_CFG 0) (0x18000 + 1518)).setReg (Reg.LPORT.LINK_STS 0) 1)) with frames := [{ id := 1, loc := .mac 0, bytes := List.replicate 60 7 }] },
    by decide +kernel⟩,
   ⟨0, 1, { id := 1, loc := .mac 0, bytes := List.replicate 60 7, bad := true }, { (((((up [1, 0x10, 0x90]).setReg (Reg.LG.ACT_LO 0) 1).setReg (Reg.LPORT.MAC_CFG 0) (0x18000 + 1518)).setReg (Reg.LPORT.LINK_STS 0) 5)) with frames := [{ id := 1, loc := .mac 0, bytes := List.replicate 60 7, bad := true }] },
    by decide +kernel⟩,
   ⟨0, 1, { (((((up [1, 0x10, 0x90]).setReg (Reg.LG.ACT_LO 0) 1).setReg (Reg.LPORT.MAC_CFG 0) (0x18000 + 1518)).setReg (Reg.LPORT.LINK_STS 0) 5)) with frames := [{ id := 1, loc := .mac 0, bytes := List.replicate 60 7 }] },
    by decide +kernel⟩,
   ⟨0, 1, { id := 1, loc := .mac 0, bytes := List.replicate 60 7 }, { (((((up [1, 0x10, 0x90]).setReg (Reg.LG.ACT_LO 0) 1).setReg (Reg.LPORT.MAC_CFG 0) (0x18000 + 1518)).setReg (Reg.LPORT.LINK_STS 0) 5).setReg (Reg.TIME.TSU_TS_CTL 0) 1) with frames := [{ id := 1, loc := .mac 0, bytes := List.replicate 60 7 }] },
    sane_of (by decide +kernel), by decide +kernel⟩,
   ⟨0, { id := 1, loc := .mac 0, bytes := List.replicate 60 7, started := true, gone := true }, { (((((up [1, 0x10, 0x90]).setReg (Reg.LG.ACT_LO 0) 1).setReg (Reg.LPORT.MAC_CFG 0) (0x18000 + 1518)).setReg (Reg.LPORT.LINK_STS 0) 5)) with frames := [{ id := 1, loc := .mac 0, bytes := List.replicate 60 7, started := true, gone := true }] },
    by decide +kernel⟩,
   ⟨0, ((((up [1, 0x10, 0x90]).setReg (Reg.LG.ACT_LO 0) 1).setReg (Reg.LPORT.MAC_CFG 0) (0x18000 + 1518)).setReg (Reg.LPORT.LINK_STS 0) 5),
    by decide +kernel⟩,
   ⟨0, { id := 1, loc := .mac 0, bytes := List.replicate 60 7 }, ((((up [1, 0x10, 0x90]).setReg (Reg.LG.ACT_LO 0) 1).setReg (Reg.LPORT.MAC_CFG 0) (0x18000 + 1518)).setReg (Reg.LPORT.LINK_STS 0) 5),
    by decide +kernel⟩,
   ⟨0, ((((((up [1, 0x10, 0x90]).setReg (Reg.LG.ACT_LO 0) 1).setReg (Reg.LPORT.MAC_CFG 0) (0x98000 + 1518)).setReg (Reg.LPORT.LINK_STS 0) 5)).setH (.fcPend 0) 1), (((((((up [1, 0x10, 0x90]).setReg (Reg.LG.ACT_LO 0) 1).setReg (Reg.LPORT.MAC_CFG 0) (0x98000 + 1518)).setReg (Reg.LPORT.LINK_STS 0) 5)).setH (.fcPend 0) 1).setH (.fcPend 0) 0),
    by decide +kernel, by decide +kernel, by decide +kernel, by decide +kernel, by decide +kernel, rfl⟩,
   ⟨0, ((((up [1, 0x10, 0x90]).setReg (Reg.LG.ACT_LO 0) 1).setReg (Reg.LPORT.MAC_CFG 0) (0x58000 + 1518)).setReg (Reg.LPORT.LINK_STS 0) 5).setH (.fcSet 0) 5,
    by decide +kernel⟩,
   ⟨0, ((((up [1, 0x10, 0x90]).setReg (Reg.LG.ACT_LO 0) 1).setReg (Reg.LPORT.MAC_CFG 0) (0x18000 + 1518)).setReg (Reg.LPORT.LINK_STS 0) 5),
    by decide +kernel⟩,
   ⟨0, { id := 1, loc := .recirc 0 }, { ((up [0x90])) with frames := [{ id := 1, loc := .recirc 0 }] },
    by decide +kernel⟩,
   ⟨0, { id := 1, loc := .recirc 0, bad := true }, { ((up [0x90])) with frames := [{ id := 1, loc := .recirc 0, bad := true }] },
    by decide +kernel⟩,
   ⟨0, { (((((up [1, 0x10, 0x90]).setReg (Reg.LG.ACT_LO 0) 1).setReg (Reg.LPORT.MAC_CFG 0) (0x18000 + 1518)).setReg (Reg.LPORT.LINK_STS 0) 5)) with frames := [{ id := 1, loc := .mac 0, bytes := List.replicate 60 7, started := true, gone := true }] },
    by decide +kernel⟩⟩

theorem meets_TimedLaunch :
    (∃ (n : Fin 128) (f : Frame) (l : Nat) (s : State),
    (s.timeRuns = true) ∧
    (s.live timePage = true) ∧
    ((s.allAt (.mac n)).find? (fun f => f.launch.isSome && !f.started) = some f) ∧
    (f.launch = some l) ∧
    (now16 s ≤ deadline s n l) ∧
    (launchAt s l ≤ now16 s + 32000000000) ∧
    (launchAt s l - s.reg (Reg.TIME.TSU_TL_LEAD n) * 16 ≤ now16 s) ∧
    ((s.allAt (.launch n)).length < 32)) ∧
    (∃ (n : Fin 128) (f : Frame) (l : Nat) (s : State),
    (s.timeRuns = true) ∧
    (s.live timePage = true) ∧
    ((s.allAt (.mac n)).find? (fun f => f.launch.isSome && !f.started) = some f) ∧
    (f.launch = some l) ∧
    (deadline s n l < now16 s)) ∧
    (∃ (n : Fin 128) (f : Frame) (l : Nat) (s : State),
    (s.timeRuns = true) ∧
    (s.live timePage = true) ∧
    ((s.allAt (.mac n)).find? (fun f => f.launch.isSome && !f.started) = some f) ∧
    (f.launch = some l) ∧
    (now16 s ≤ deadline s n l) ∧
    (now16 s + 32000000000 < launchAt s l)) ∧
    (∃ (n : Fin 128) (dt : Fin 18) (f g : Frame) (l : Nat) (at_ : Int) (s : State) (u : State) (w : State),
    (s.timeRuns = true) ∧
    (s.live timePage = true) ∧
    (inTx s n = none) ∧
    ((launchOrder s n).find? (fun f => !s.hb (.paused n (pauseClass s f))) = some f) ∧
    (f.launch = some l) ∧
    (deferHeld n (readyAt s n l) s = u) ∧
    (timedStart u n l f.len = some at_) ∧
    (u.frame f.id = some g) ∧
    (at_ ≤ deadline u n l) ∧
    (waitPlane n at_ u = w)) ∧
    (∃ (n : Fin 128) (dt : Fin 18) (s : State),
    ((inTx s n).isSome = true)) ∧
    (∃ (n : Fin 128) (d : Int) (ds : List Int) (s : State) (u : State),
    (s.timeRuns = true) ∧
    (s.live timePage = true) ∧
    (((s.allAt (.launch n)).map fun f => deadline s n (f.launch.getD 0)) = d :: ds) ∧
    (advanceTo ((ds.foldl min d).toNat * 2 ^ 44) (deferHeld n (ds.foldl min d) s) = u)) ∧
    (∃ (n : Nat) (f : Frame) (s : State),
    (f.ring = 0) ∧
    (f.pfe = 0)) ∧
    (∃ (r : Req) (n : Fin 128) (v : W32) (s : State),
    (Admits s r (Reg.TIME.TSU_WIN_COMMIT n)) ∧
    (bit v.toNat 0 = true) ∧
    (winValid s n = false)) ∧
    (∃ (r : Req) (n : Fin 128) (v : W32) (s : State),
    (Admits s r (Reg.TIME.TSU_WIN_COMMIT n)) ∧
    (bit v.toNat 0 = true) ∧
    (winValid s n = true)) ∧
    (∃ (n : Fin 128) (b : Int) (s : State) (u : State),
    (s.timeRuns = true) ∧
    (s.live timePage = true) ∧
    (s.hb (.winIn n) = true) ∧
    (s.h (.winAt n) = b + 1) ∧
    (0 ≤ b) ∧
    (advanceTo (b.toNat * 2 ^ 44) s = u) ∧
    (b ≤ now16 u)) ∧
    (∃ (n : Fin 128) (s : State),
    (s.timeRuns = true) ∧
    (s.live timePage = true)) ∧
    (∃ (n : Fin 128) (dt : Fin 18) (s : State),
    (s.timeRuns = true) ∧
    (s.live timePage = true)) ∧
    (∃ (n : Fin 128) (s : State),
    (s.timeRuns = true) ∧
    (s.live timePage = true)) ∧
    (∃ (n : Fin 128) (s : State),
    (s.timeRuns = true) ∧
    (s.live timePage = true)) ∧
    (∃ (r : Req) (n : Fin 128) (v : W32) (s : State),
    (Admits s r (Reg.TIME.TSU_WIN_COMMIT n))) ∧
    (∃ (n : Fin 128) (s : State),
    (s.hb (.winIn n) = false)) :=
  ⟨⟨0, { id := 1, loc := .mac 0, bytes := List.replicate 60 7, launch := some 5 }, 5, { (((((up [1, 0x10, 0x90]).setReg (Reg.LG.ACT_LO 0) 1).setReg (Reg.LPORT.MAC_CFG 0) (0x18000 + 1518)).setReg (Reg.LPORT.LINK_STS 0) 5)) with frames := [{ id := 1, loc := .mac 0, bytes := List.replicate 60 7, launch := some 5 }] },
    by decide +kernel⟩,
   ⟨0, { id := 1, loc := .mac 0, bytes := List.replicate 60 7, launch := some 5 }, 5, { (((((up [1, 0x10, 0x90]).setReg (Reg.LG.ACT_LO 0) 1).setReg (Reg.LPORT.MAC_CFG 0) (0x18000 + 1518)).setReg (Reg.LPORT.LINK_STS 0) 5)) with frames := [{ id := 1, loc := .mac 0, bytes := List.replicate 60 7, launch := some 5 }], tb := 9000 * unitsNs },
    by decide +kernel⟩,
   ⟨0, { id := 1, loc := .mac 0, bytes := List.replicate 60 7, launch := some (3 * 2 ^ 32) }, 3 * 2 ^ 32, { (((((up [1, 0x10, 0x90]).setReg (Reg.LG.ACT_LO 0) 1).setReg (Reg.LPORT.MAC_CFG 0) (0x18000 + 1518)).setReg (Reg.LPORT.LINK_STS 0) 5)) with frames := [{ id := 1, loc := .mac 0, bytes := List.replicate 60 7, launch := some (3 * 2 ^ 32) }] },
    by decide +kernel⟩,
   ⟨0, 3, { id := 1, loc := .launch 0, bytes := List.replicate 60 7, launch := some 5 }, { id := 1, loc := .launch 0, bytes := List.replicate 60 7, launch := some 5 }, 5, (readyAt ({ (((((up [1, 0x10, 0x90]).setReg (Reg.LG.ACT_LO 0) 1).setReg (Reg.LPORT.MAC_CFG 0) (0x18000 + 1518)).setReg (Reg.LPORT.LINK_STS 0) 5)) with frames := [{ id := 1, loc := .launch 0, bytes := List.replicate 60 7, launch := some 5 }] }) 0 5), { (((((up [1, 0x10, 0x90]).setReg (Reg.LG.ACT_LO 0) 1).setReg (Reg.LPORT.MAC_CFG 0) (0x18000 + 1518)).setReg (Reg.LPORT.LINK_STS 0) 5)) with frames := [{ id := 1, loc := .launch 0, bytes := List.replicate 60 7, launch := some 5 }] }, { (((((up [1, 0x10, 0x90]).setReg (Reg.LG.ACT_LO 0) 1).setReg (Reg.LPORT.MAC_CFG 0) (0x18000 + 1518)).setReg (Reg.LPORT.LINK_STS 0) 5)) with frames := [{ id := 1, loc := .launch 0, bytes := List.replicate 60 7, launch := some 5 }] }, (waitPlane 0 (readyAt ({ (((((up [1, 0x10, 0x90]).setReg (Reg.LG.ACT_LO 0) 1).setReg (Reg.LPORT.MAC_CFG 0) (0x18000 + 1518)).setReg (Reg.LPORT.LINK_STS 0) 5)) with frames := [{ id := 1, loc := .launch 0, bytes := List.replicate 60 7, launch := some 5 }] }) 0 5) { (((((up [1, 0x10, 0x90]).setReg (Reg.LG.ACT_LO 0) 1).setReg (Reg.LPORT.MAC_CFG 0) (0x18000 + 1518)).setReg (Reg.LPORT.LINK_STS 0) 5)) with frames := [{ id := 1, loc := .launch 0, bytes := List.replicate 60 7, launch := some 5 }] }),
    by decide +kernel⟩,
   ⟨0, 3, { (((((up [1, 0x10, 0x90]).setReg (Reg.LG.ACT_LO 0) 1).setReg (Reg.LPORT.MAC_CFG 0) (0x18000 + 1518)).setReg (Reg.LPORT.LINK_STS 0) 5)) with frames := [{ id := 1, loc := .mac 0, started := true }] },
    by decide +kernel⟩,
   ⟨0, (deadline (((((up [1, 0x10, 0x90]).setReg (Reg.LG.ACT_LO 0) 1).setReg (Reg.LPORT.MAC_CFG 0) (0x18000 + 1518)).setReg (Reg.LPORT.LINK_STS 0) 5)) 0 5), [], { (((((up [1, 0x10, 0x90]).setReg (Reg.LG.ACT_LO 0) 1).setReg (Reg.LPORT.MAC_CFG 0) (0x18000 + 1518)).setReg (Reg.LPORT.LINK_STS 0) 5)) with frames := [{ id := 1, loc := .launch 0, bytes := List.replicate 60 7, launch := some 5 }] }, (advanceTo ((deadline (((((up [1, 0x10, 0x90]).setReg (Reg.LG.ACT_LO 0) 1).setReg (Reg.LPORT.MAC_CFG 0) (0x18000 + 1518)).setReg (Reg.LPORT.LINK_STS 0) 5)) 0 5).toNat * 2 ^ 44) (deferHeld 0 (deadline (((((up [1, 0x10, 0x90]).setReg (Reg.LG.ACT_LO 0) 1).setReg (Reg.LPORT.MAC_CFG 0) (0x18000 + 1518)).setReg (Reg.LPORT.LINK_STS 0) 5)) 0 5) { (((((up [1, 0x10, 0x90]).setReg (Reg.LG.ACT_LO 0) 1).setReg (Reg.LPORT.MAC_CFG 0) (0x18000 + 1518)).setReg (Reg.LPORT.LINK_STS 0) 5)) with frames := [{ id := 1, loc := .launch 0, bytes := List.replicate 60 7, launch := some 5 }] })),
    by decide +kernel⟩,
   ⟨0, { id := 1, loc := .launch 0, bytes := List.replicate 60 7, launch := some 5 }, State.reset,
    by decide +kernel⟩,
   ⟨.HOST, 0, 1, up [1],
    by decide +kernel⟩,
   ⟨.HOST, 0, 1, (up [1]).setReg (Reg.TIME.TSU_WIN_PERIOD 0) 1000,
    by decide +kernel⟩,
   ⟨0, 0, ((((up [1, 0x10, 0x90])).setHb (.winIn 0) true).setH (.winAt 0) 1), ((((up [1, 0x10, 0x90])).setHb (.winIn 0) true).setH (.winAt 0) 1),
    by decide +kernel, by decide +kernel, by decide +kernel, by decide +kernel, by decide +kernel, rfl, by decide +kernel⟩,
   ⟨0, ((((up [1, 0x10, 0x90]).setReg (Reg.LG.ACT_LO 0) 1).setReg (Reg.LPORT.MAC_CFG 0) (0x18000 + 1518)).setReg (Reg.LPORT.LINK_STS 0) 5),
    by decide +kernel⟩,
   ⟨0, 3, ((((up [1, 0x10, 0x90]).setReg (Reg.LG.ACT_LO 0) 1).setReg (Reg.LPORT.MAC_CFG 0) (0x18000 + 1518)).setReg (Reg.LPORT.LINK_STS 0) 5),
    by decide +kernel⟩,
   ⟨0, ((((up [1, 0x10, 0x90]).setReg (Reg.LG.ACT_LO 0) 1).setReg (Reg.LPORT.MAC_CFG 0) (0x18000 + 1518)).setReg (Reg.LPORT.LINK_STS 0) 5),
    by decide +kernel⟩,
   ⟨0, ((((up [1, 0x10, 0x90]).setReg (Reg.LG.ACT_LO 0) 1).setReg (Reg.LPORT.MAC_CFG 0) (0x18000 + 1518)).setReg (Reg.LPORT.LINK_STS 0) 5),
    by decide +kernel⟩,
   ⟨.HOST, 0, 1, up [1],
    by decide +kernel⟩,
   ⟨0, (up [1, 0x10, 0x90]),
    by decide +kernel⟩⟩

theorem meets_OtnAlignmentAndOverhead :
    (∃ (n : Fin 128) (skew : BitVec 16) (nums : List Byte) (s : State),
    (otnRuns s n = true)) ∧
    (∃ (n : Fin 128) (i : Fin 8) (s : State),
    (otnRuns s n = true) ∧
    (i.val < otnSlices s n)) ∧
    (∃ (n : Fin 128) (i : Fin 8) (pos : Fin 15296) (mfas : Byte) (s : State),
    (hunting s n i = true) ∧
    ((candsOf s n i).length < 4) ∧
    (((candsOf s n i).all fun c => c.pos != pos.val) = true)) ∧
    (∃ (n : Fin 128) (i : Fin 8) (pos : Fin 15296) (mfas : Byte) (s : State),
    (4 ≤ (candsOf s n i).length ∨ ((candsOf s n i).all fun c => c.pos != pos.val) = false)) ∧
    (∃ (n : Fin 128) (i : Fin 8) (c : Cand) (m : Byte) (p : Fin 15296) (s : State),
    (hunting s n i = true) ∧
    (s.cands = [c]) ∧
    (c.port = n.val) ∧
    (c.slice = i.val) ∧
    (c.pos = p.val)) ∧
    (∃ (n : Fin 128) (i : Fin 8) (c : Cand) (m : Byte) (p : Fin 15296) (s : State),
    (hunting s n i = true) ∧
    (s.cands = [c]) ∧
    (c.port = n.val) ∧
    (c.slice = i.val) ∧
    (c.pos = p.val) ∧
    (c.hits = 2) ∧
    (m.toNat = (c.mfas + 1) % 256)) ∧
    (∃ (n : Fin 128) (i : Fin 8) (a b : Cand) (m : Byte) (p q : Fin 15296) (s : State),
    (hunting s n i = true) ∧
    (s.cands = [a, b]) ∧
    (a.port = n.val) ∧
    (b.port = n.val) ∧
    (a.slice = i.val) ∧
    (b.slice = i.val) ∧
    (a.pos = p.val) ∧
    (b.pos = q.val) ∧
    (p ≠ q) ∧
    (a.hits = 2) ∧
    (b.hits = 2) ∧
    (m.toNat = (a.mfas + 1) % 256) ∧
    (b.mfas = a.mfas)) ∧
    (∃ (n : Fin 128) (i : Fin 8) (checks : List (Fin 15296 × Bool × Byte)) (s : State),
    (hunting s n i = true)) ∧
    (∃ (r : Req) (k : Fin 16) (v : W32) (s : State),
    (Admits s r (Reg.OHP.CFG k)) ∧
    (bit v.toNat 31 = true) ∧
    (isOtn s (16 * (k.val / 2) + fld v.toNat 0 4) = false)) ∧
    (∃ (r : Req) (k : Fin 16) (v : W32) (s : State),
    (Admits s r (Reg.OHP.CFG k)) ∧
    (bit v.toNat 31 = false)) ∧
    (∃ (r : Req) (k : Fin 16) (v : W32) (s : State),
    (Admits s r (Reg.OHP.RECENTRE k)) ∧
    (bit v.toNat 0 = true)) ∧
    (∃ (k : Fin 16) (d : W32) (s : State),
    (s.hb (.ohpCentre k) = false) ∧
    (isOtn s (ohpPort s k) = true)) ∧
    (∃ (k : Fin 16) (s : State),
    (s.hb (.ohpCentre k) = false) ∧
    (isOtn s (ohpPort s k) = true)) ∧
    (∃ (k : Fin 16) (s : State),
    (s.hb (.ohpCentre k) = false) ∧
    (isOtn s (ohpPort s k) = false)) ∧
    (∃ (k d data : Nat) (s : State),
    (ohpFill s k d = 4)) ∧
    (∃ (k : Fin 16) (s : State),
    (s.live (ohpPage k) = true) ∧
    (s.rbit (Reg.OHP.STS k) 0 = false)) ∧
    (∃ (k : Fin 16) (s : State),
    (s.rbit (Reg.OHP.STS k) 0 = true)) ∧
    (∃ (k : Fin 16) (s : State),
    (s.live (ohpPage k) = true)) ∧
    (∃ (k : Fin 16) (e : OhpEnd) (s : State),
    (s.live (ohpPage k) = true)) ∧
    (∃ (r : Req) (k : Fin 16) (v : W32) (s : State),
    (Admits s r (Reg.OHP.CFG k))) ∧
    (∃ (r : Req) (k : Fin 16) (v : W32) (s : State),
    (Admits s r (Reg.OHP.RECENTRE k)) ∧
    (bit v.toNat 0 = false)) ∧
    (∃ (r : Req) (k : Fin 16) (v : W32) (s : State),
    (Admits s r (Reg.OHP.RECENTRE k))) :=
  ⟨⟨0, 4800, [], ((up [1, 0x10, 0x90, 0x98, 0xA0]).setReg (Reg.LG.ACT_LO 0) 5),
    by decide +kernel⟩,
   ⟨0, 0, ((up [1, 0x10, 0x90, 0x98, 0xA0]).setReg (Reg.LG.ACT_LO 0) 5).setReg (alignSts 0) 0x10100,
    by decide +kernel⟩,
   ⟨0, 0, 7, 9, ((up [1, 0x10, 0x90, 0x98, 0xA0]).setReg (Reg.LG.ACT_LO 0) 5).setH (.fxLock 0) 1,
    by decide +kernel⟩,
   ⟨0, 0, 7, 9, { ((up [1, 0x10, 0x90, 0x98, 0xA0]).setReg (Reg.LG.ACT_LO 0) 5) with cands := List.replicate 4 ⟨0, 0, 1, 2, 0⟩ },
    by decide +kernel⟩,
   ⟨0, 0, ⟨0, 0, 7, 9, 2⟩, 10, 7, { ((up [1, 0x10, 0x90, 0x98, 0xA0]).setReg (Reg.LG.ACT_LO 0) 5).setH (.fxLock 0) 1 with cands := [⟨0, 0, 7, 9, 2⟩] },
    by decide +kernel⟩,
   ⟨0, 0, ⟨0, 0, 7, 9, 2⟩, 10, 7, { ((up [1, 0x10, 0x90, 0x98, 0xA0]).setReg (Reg.LG.ACT_LO 0) 5).setH (.fxLock 0) 1 with cands := [⟨0, 0, 7, 9, 2⟩] },
    by decide +kernel⟩,
   ⟨0, 0, ⟨0, 0, 7, 9, 2⟩, ⟨0, 0, 8, 9, 2⟩, 10, 7, 8, { ((up [1, 0x10, 0x90, 0x98, 0xA0]).setReg (Reg.LG.ACT_LO 0) 5).setH (.fxLock 0) 1 with cands := [⟨0, 0, 7, 9, 2⟩, ⟨0, 0, 8, 9, 2⟩] },
    by decide +kernel⟩,
   ⟨0, 0, [], ((up [1, 0x10, 0x90, 0x98, 0xA0]).setReg (Reg.LG.ACT_LO 0) 5).setH (.fxLock 0) 1,
    by decide +kernel⟩,
   ⟨.HOST, 0, 0x80000001, ((up [1, 0x10, 0x90, 0x98, 0xA0]).setReg (Reg.LG.ACT_LO 0) 5),
    by decide +kernel⟩,
   ⟨.HOST, 0, 1, (((up [1, 0x10, 0x90, 0x98, 0xA0]).setReg (Reg.LG.ACT_LO 0) 5).setReg (Reg.OHP.CFG 0) 0xC0000000),
    by decide +kernel⟩,
   ⟨.HOST, 0, 1, (((up [1, 0x10, 0x90, 0x98, 0xA0]).setReg (Reg.LG.ACT_LO 0) 5).setReg (Reg.OHP.CFG 0) 0xC0000000),
    by decide +kernel⟩,
   ⟨0, 7, (((up [1, 0x10, 0x90, 0x98, 0xA0]).setReg (Reg.LG.ACT_LO 0) 5).setReg (Reg.OHP.CFG 0) 0xC0000000),
    by decide +kernel⟩,
   ⟨0, (((up [1, 0x10, 0x90, 0x98, 0xA0]).setReg (Reg.LG.ACT_LO 0) 5).setReg (Reg.OHP.CFG 0) 0xC0000000).setRfld (Reg.OHP.STS 0) 4 3 2,
    by decide +kernel⟩,
   ⟨0, ((((up [1, 0x10, 0x90, 0x98, 0xA0]).setReg (Reg.LG.ACT_LO 0) 5).setReg (Reg.OHP.CFG 0) 0xC0000000)).setReg (Reg.LG.ACT_LO 0) 0,
    by decide +kernel⟩,
   ⟨0, 1, 5, (((up [1, 0x10, 0x90, 0x98, 0xA0]).setReg (Reg.LG.ACT_LO 0) 5).setReg (Reg.OHP.CFG 0) 0xC0000000).setRfld (Reg.OHP.STS 0) 7 3 4,
    by decide +kernel⟩,
   ⟨0, (((up [1, 0x10, 0x90, 0x98, 0xA0]).setReg (Reg.LG.ACT_LO 0) 5).setReg (Reg.OHP.CFG 0) 0xC0000000),
    by decide +kernel⟩,
   ⟨0, (((up [1, 0x10, 0x90, 0x98, 0xA0]).setReg (Reg.LG.ACT_LO 0) 5).setReg (Reg.OHP.CFG 0) 0xC0000000).setReg (Reg.OHP.STS 0) 1,
    by decide +kernel⟩,
   ⟨0, (((up [1, 0x10, 0x90, 0x98, 0xA0]).setReg (Reg.LG.ACT_LO 0) 5).setReg (Reg.OHP.CFG 0) 0xC0000000).setReg (Reg.OHP.STS 0) 1,
    by decide +kernel⟩,
   ⟨0, .toBoard, (((up [1, 0x10, 0x90, 0x98, 0xA0]).setReg (Reg.LG.ACT_LO 0) 5).setReg (Reg.OHP.CFG 0) 0xC0000000),
    by decide +kernel⟩,
   ⟨.HOST, 0, 0x80000000, ((up [1, 0x10, 0x90, 0x98, 0xA0]).setReg (Reg.LG.ACT_LO 0) 5),
    by decide +kernel⟩,
   ⟨.HOST, 0, 2, (((up [1, 0x10, 0x90, 0x98, 0xA0]).setReg (Reg.LG.ACT_LO 0) 5).setReg (Reg.OHP.CFG 0) 0xC0000000),
    by decide +kernel⟩,
   ⟨.HOST, 0, 1, (((up [1, 0x10, 0x90, 0x98, 0xA0]).setReg (Reg.LG.ACT_LO 0) 5).setReg (Reg.OHP.CFG 0) 0xC0000000),
    by decide +kernel⟩⟩

theorem meets_OtnDefects :
    (∃ (n : Fin 128) (x : OtnRx) (s : State),
    (otnRuns s n = true)) ∧
    (∃ (n : Fin 128) (i : Fin 8) (fas : Bool) (m : Byte) (sm pmc : OtnOh) (s : State),
    (slIF s n i = false)) ∧
    (∃ (n d t d1 t1 m1 : Nat) (s : State),
    (defEval s n d t = (d1, t1, m1)) ∧
    (ssfLine d1 = false) ∧
    (bit d1 25 = false) ∧
    (bit d1 26 = false)) ∧
    (∃ (n : Fin 128) (k : Fin 8) (s : State) (u : State),
    (s.when (s.clocked (lportPage n) && k.val < portLanes s n) (Machine.signalLoss n k) = u) ∧
    (otnRuns u n = true) ∧
    (k.val < portLanes u n)) ∧
    (∃ (n : Fin 128) (s : State),
    (otnRuns s n = true) ∧
    (bit (s.reg (defSts n)) 0 = true) ∧
    (((List.range (otnSlices s n)).all fun i => laneLocked s (n + i)) = true)) ∧
    (∃ (n : Fin 128) (k : Fin 4) (s : State),
    (otnRuns s n = true) ∧
    (k ≠ 0)) ∧
    (∃ (n : Fin 128) (s : State),
    (bit (s.reg (defSts n)) 0 = false ∨ ((List.range (otnSlices s n)).all fun i => laneLocked s (n + i)) = false)) ∧
    (∃ (n : Fin 128) (s : State),
    (otnRuns s n = true)) ∧
    (∃ (n : Fin 128) (s : State),
    (bit (s.reg (defSts n)) 25 = true) ∧
    (bit (s.reg (defSts n)) 26 = true)) ∧
    (∃ (n : Fin 128) (e : OtnFrame) (s : State),
    (otnRuns s n = true)) ∧
    (∃ (n : Nat) (e : OtnFrame) (s : State) (u : State),
    (s.setH (.caEff n) (mergeMask (s.hn (.caEff n)) (caWanted s n) (caMask e) : Nat) = u) ∧
    (clientFails u n = true) ∧
    (bit (s.hn (.caEff n)) 2 = false) ∧
    (linkRuns u n = true) ∧
    (5 ≤ linkState u n) ∧
    (linkRuns (faultSets n false u) n = true)) ∧
    (∃ (n : Nat) (s : State) (w : State),
    (s.setH (.txForce n) (fld (otnCfg s n) 30 2 : Nat) = w)) ∧
    (∃ (n : Fin 128) (k : Fin 4) (s : State),
    (otnRuns s n = true)) :=
  ⟨⟨0, (.opuc 0x22 false), ((up [1, 0x10, 0x90, 0x98, 0xA0]).setReg (Reg.LG.ACT_LO 0) 5),
    by decide +kernel⟩,
   ⟨0, 0, true, 1, ⟨0, 0, 0⟩, ⟨0, 0, 0⟩, ((up [1, 0x10, 0x90, 0x98, 0xA0]).setReg (Reg.LG.ACT_LO 0) 5),
    by decide +kernel⟩,
   ⟨0, 0, 0, 0, 0, 0, ((up [1, 0x10, 0x90, 0x98, 0xA0]).setReg (Reg.LG.ACT_LO 0) 5),
    by decide +kernel⟩,
   ⟨0, 0, ((up [1, 0x10, 0x90, 0x98, 0xA0]).setReg (Reg.LG.ACT_LO 0) 5), (State.when (((up [1, 0x10, 0x90, 0x98, 0xA0]).setReg (Reg.LG.ACT_LO 0) 5)) ((((up [1, 0x10, 0x90, 0x98, 0xA0]).setReg (Reg.LG.ACT_LO 0) 5)).clocked (lportPage 0) && (0 : Fin 8).val < portLanes (((up [1, 0x10, 0x90, 0x98, 0xA0]).setReg (Reg.LG.ACT_LO 0) 5)) 0) (Machine.signalLoss 0 0)),
    rfl, by decide +kernel⟩,
   ⟨0, ((up [1, 0x10, 0x90, 0x98, 0xA0]).setReg (Reg.LG.ACT_LO 0) 5).setReg (Reg.LPORT.LINK_STS 0) 0x10000 |>.setReg (defSts 0) 1,
    by decide +kernel⟩,
   ⟨0, 1, ((up [1, 0x10, 0x90, 0x98, 0xA0]).setReg (Reg.LG.ACT_LO 0) 5),
    by decide +kernel⟩,
   ⟨0, ((up [1, 0x10, 0x90, 0x98, 0xA0]).setReg (Reg.LG.ACT_LO 0) 5),
    by decide +kernel⟩,
   ⟨0, ((up [1, 0x10, 0x90, 0x98, 0xA0]).setReg (Reg.LG.ACT_LO 0) 5),
    by decide +kernel⟩,
   ⟨0, ((up [1, 0x10, 0x90, 0x98, 0xA0]).setReg (Reg.LG.ACT_LO 0) 5).setReg (defSts 0) 0x6000001,
    by decide +kernel⟩,
   ⟨0, .txFlexo, ((up [1, 0x10, 0x90, 0x98, 0xA0]).setReg (Reg.LG.ACT_LO 0) 5),
    by decide +kernel⟩,
   ⟨0, .rxOduflex, ((((up [1, 0x10, 0x90, 0x98, 0xA0]).setReg (Reg.LG.ACT_LO 0) 5)).setReg (defSts 0) 0x8000000).setReg (Reg.LPORT.LINK_STS 0) 5, ((((((up [1, 0x10, 0x90, 0x98, 0xA0]).setReg (Reg.LG.ACT_LO 0) 5)).setReg (defSts 0) 0x8000000).setReg (Reg.LPORT.LINK_STS 0) 5).setH (.caEff 0) (mergeMask ((((((up [1, 0x10, 0x90, 0x98, 0xA0]).setReg (Reg.LG.ACT_LO 0) 5)).setReg (defSts 0) 0x8000000).setReg (Reg.LPORT.LINK_STS 0) 5).hn (.caEff 0)) (caWanted (((((up [1, 0x10, 0x90, 0x98, 0xA0]).setReg (Reg.LG.ACT_LO 0) 5)).setReg (defSts 0) 0x8000000).setReg (Reg.LPORT.LINK_STS 0) 5) 0) (caMask .rxOduflex) : Nat)),
    rfl, by decide +kernel⟩,
   ⟨0, ((up [1, 0x10, 0x90, 0x98, 0xA0]).setReg (Reg.LG.ACT_LO 0) 5), ((((up [1, 0x10, 0x90, 0x98, 0xA0]).setReg (Reg.LG.ACT_LO 0) 5)).setH (.txForce 0) (fld (otnCfg (((up [1, 0x10, 0x90, 0x98, 0xA0]).setReg (Reg.LG.ACT_LO 0) 5)) 0) 30 2 : Nat)),
    rfl⟩,
   ⟨0, 0, ((up [1, 0x10, 0x90, 0x98, 0xA0]).setReg (Reg.LG.ACT_LO 0) 5).setReg (Reg.LPORT.LINK_STS 0) 0x10000 |>.setReg (defSts 0) 1,
    by decide +kernel⟩⟩

theorem meets_BridgeLanes :
    (∃ (qf : Bool) (b : Fin 100) (lane : Fin 68) (s : State),
    (s.live bridgePage = true) ∧
    (bundleOut s (100 * ofB qf + b) = false)) ∧
    (∃ (qf : Bool) (b : Fin 100) (lane : Fin 68) (s : State),
    (bundleOut s (100 * ofB qf + b) = true)) ∧
    (∃ (s : State) (u : State),
    (s.live bridgePage = true) ∧
    (nextInterval bridgePage .laneWin (cycUs 1000) s = u)) ∧
    (∃ (k : Nat) (s : State),
    (bundleOut s k = false) ∧
    (s.reg (bndSts k) + s.hn (.laneMark k) < 4)) ∧
    (∃ (k : Nat) (s : State),
    (k < 100) ∧
    (bundleOut s k = false) ∧
    (4 ≤ s.reg (bndSts k) + s.hn (.laneMark k))) ∧
    (∃ (qf : Bool) (b : Fin 100) (s : State),
    (s.live bridgePage = true) ∧
    (0 < s.h (.laneMark (100 * ofB qf + b)))) ∧
    (∃ (qf : Bool) (b : Fin 100) (s : State),
    (s.h (.laneMark (100 * ofB qf + b)) ≤ 0)) ∧
    (∃ (qf : Bool) (b : Fin 100) (lane : Fin 68) (s : State),
    (s.live bridgePage = true)) ∧
    (∃ (qf : Bool) (b : Fin 100) (s : State),
    (s.live bridgePage = true)) ∧
    (∃ (s : State),
    (s.live bridgePage = true)) :=
  ⟨⟨true, 3, 5, (up [0x100, 7]),
    by decide +kernel⟩,
   ⟨true, 3, 5, (up [0x100, 7]).setReg (Reg.BRIDGE.BND_DOWN_QF 0) 8,
    by decide +kernel⟩,
   ⟨(up [0x100, 7]).setH (.laneErr 70) 1000, (nextInterval bridgePage .laneWin (cycUs 1000) ((up [0x100, 7]).setH (.laneErr 70) 1000)),
    by decide +kernel⟩,
   ⟨3, (up [0x100, 7]),
    by decide +kernel⟩,
   ⟨3, (up [0x100, 7]).setReg (Reg.BRIDGE.BND_STS_FQ 3) 4,
    by decide +kernel⟩,
   ⟨false, 3, ((up [0x100, 7]).setReg (Reg.BRIDGE.BND_STS_FQ 3) 3).setH (.laneMark 3) 1,
    by decide +kernel⟩,
   ⟨false, 3, (up [0x100, 7]),
    by decide +kernel⟩,
   ⟨true, 3, 5, (up [0x100, 7]),
    by decide +kernel⟩,
   ⟨false, 3, (up [0x100, 7]),
    by decide +kernel⟩,
   ⟨(up [0x100, 7]).setH (.laneErr 70) 1000,
    by decide +kernel⟩⟩

theorem meets_IngressPipeline :
    (∃ (g : Fin 8) (rc : Bool) (node : Option W32) (s : State),
    (s.clocked (ipipePage g) = true) ∧
    (s.hb (.stuck g) = false)) ∧
    (∃ (g : Nat) (f : Frame) (s : State),
    (Sane s) ∧
    (s.hn .capoParity ≤ 1) ∧
    (f.parity = none) ∧
    (s.h .capoState ≠ 3)) ∧
    (∃ (g : Nat) (f : Frame) (s : State),
    (f.parity.isSome = true)) ∧
    (∃ (g c : Nat) (node : Option Nat) (f : Frame) (r : Parse) (s : State),
    (parseFrame s g (f.parity.getD 0) (fld (s.reg (Reg.IPIPE.PORT_CFG g (portSlot f.port))) 0 8) f true = r) ∧
    (r.code = c + 1) ∧
    (r.frag = false) ∧
    (fld (s.reg (Reg.IPIPE.PORT_CFG g (portSlot f.port))) 22 2 = 0)) ∧
    (∃ (g c : Nat) (node : Option Nat) (f : Frame) (r : Parse) (s : State),
    (parseFrame s g (f.parity.getD 0) (fld (s.reg (Reg.IPIPE.PORT_CFG g (portSlot f.port))) 0 8) f true = r) ∧
    (r.code = c + 1) ∧
    (r.frag = false) ∧
    (fld (s.reg (Reg.IPIPE.PORT_CFG g (portSlot f.port))) 22 2 = 2)) ∧
    (∃ (g : Nat) (f : Frame) (w : Fwd) (res : Resolve) (s : State),
    (w.punt = none) ∧
    (w.rpipe = none) ∧
    (res.qsel ≠ 2)) ∧
    (∃ (g : Nat) (f : Frame) (w : Fwd) (res : Resolve) (s : State),
    (w.punt = none) ∧
    (w.rpipe = none) ∧
    (res.qsel = 2)) ∧
    (∃ (g h : Nat) (f : Frame) (w : Fwd) (res : Resolve) (s : State),
    (w.punt = none) ∧
    (w.rpipe = some h) ∧
    (3 ≤ f.passes)) ∧
    (∃ (g p i len : Nat) (w : Fwd) (s : State),
    (i ≠ 0) ∧
    (parBad s adjPage 1 i = false) ∧
    (bit (fld (s.tab adjPage 1 i) 30 2) p = false)) :=
  ⟨⟨0, true, none, ({ (up [1, 7, 8, 0xB0, 0xB8, 0xC0, 0xC1, 0xC2, 0xC3, 0xC4, 0xC5, 0x10]) with frames := [{ id := 1, loc := .entry 0 }] }),
    by decide +kernel⟩,
   ⟨0, { id := 1, loc := .entry 0 }, ({ (up [1, 7, 8, 0xB0, 0xB8, 0xC0, 0xC1, 0xC2, 0xC3, 0xC4, 0xC5, 0x10]) with frames := [{ id := 1, loc := .entry 0 }] }),
    sane_of (by decide +kernel), by decide +kernel⟩,
   ⟨0, { id := 1, loc := .rentry 0, parity := some 0 }, ({ (up [1, 7, 8, 0xB0, 0xB8, 0xC0, 0xC1, 0xC2, 0xC3, 0xC4, 0xC5, 0x10]) with frames := [{ id := 1, loc := .rentry 0, parity := some 0 }] }),
    by decide +kernel⟩,
   ⟨0, 1, none, { id := 1, loc := .entry 0 }, (parseFrame (({ (up [1, 7, 8, 0xB0, 0xB8, 0xC0, 0xC1, 0xC2, 0xC3, 0xC4, 0xC5, 0x10]) with frames := [{ id := 1, loc := .entry 0 }] })) 0 0 (fld ((({ (up [1, 7, 8, 0xB0, 0xB8, 0xC0, 0xC1, 0xC2, 0xC3, 0xC4, 0xC5, 0x10]) with frames := [{ id := 1, loc := .entry 0 }] })).reg (Reg.IPIPE.PORT_CFG 0 (portSlot 0))) 0 8) { id := 1, loc := .entry 0 } true), ({ (up [1, 7, 8, 0xB0, 0xB8, 0xC0, 0xC1, 0xC2, 0xC3, 0xC4, 0xC5, 0x10]) with frames := [{ id := 1, loc := .entry 0 }] }),
    by decide +kernel⟩,
   ⟨0, 1, none, { id := 1, loc := .entry 0 }, (parseFrame ((({ (up [1, 7, 8, 0xB0, 0xB8, 0xC0, 0xC1, 0xC2, 0xC3, 0xC4, 0xC5, 0x10]) with frames := [{ id := 1, loc := .entry 0 }] })).setReg (Reg.IPIPE.PORT_CFG 0 0) 0x800000) 0 0 (fld (((({ (up [1, 7, 8, 0xB0, 0xB8, 0xC0, 0xC1, 0xC2, 0xC3, 0xC4, 0xC5, 0x10]) with frames := [{ id := 1, loc := .entry 0 }] })).setReg (Reg.IPIPE.PORT_CFG 0 0) 0x800000).reg (Reg.IPIPE.PORT_CFG 0 (portSlot 0))) 0 8) { id := 1, loc := .entry 0 } true), (({ (up [1, 7, 8, 0xB0, 0xB8, 0xC0, 0xC1, 0xC2, 0xC3, 0xC4, 0xC5, 0x10]) with frames := [{ id := 1, loc := .entry 0 }] })).setReg (Reg.IPIPE.PORT_CFG 0 0) 0x800000,
    by decide +kernel⟩,
   ⟨0, { id := 1, loc := .entry 0 }, { dst := 5 }, { cls := 3, colour := 0 }, ({ (up [1, 7, 8, 0xB0, 0xB8, 0xC0, 0xC1, 0xC2, 0xC3, 0xC4, 0xC5, 0x10]) with frames := [{ id := 1, loc := .entry 0 }] }),
    by decide +kernel⟩,
   ⟨0, { id := 1, loc := .entry 0 }, { dst := 5 }, { cls := 3, colour := 0, qsel := 2, qoff := 7 }, ({ (up [1, 7, 8, 0xB0, 0xB8, 0xC0, 0xC1, 0xC2, 0xC3, 0xC4, 0xC5, 0x10]) with frames := [{ id := 1, loc := .entry 0 }] }),
    by decide +kernel⟩,
   ⟨0, 1, { id := 1, loc := .rentry 0, passes := 3 }, { rpipe := some 1 }, { cls := 3, colour := 0 }, ({ (up [1, 7, 8, 0xB0, 0xB8, 0xC0, 0xC1, 0xC2, 0xC3, 0xC4, 0xC5, 0x10]) with frames := [{ id := 1, loc := .rentry 0, passes := 3 }] }),
    by decide +kernel⟩,
   ⟨0, 0, 5, 64, {}, (up [1, 7, 8, 0xB0, 0xB8, 0xC0, 0xC1, 0xC2, 0xC3, 0xC4, 0xC5, 0x10]),
    by decide +kernel⟩⟩

theorem meets_EgressPipeline :
    (∃ (g : Fin 8) (s : State),
    (s.firstAt (.epipe g) = none)) ∧
    (∃ (g : Fin 8) (f : Frame) (s : State),
    (s.clocked (epipePage g) = true) ∧
    (s.hb (.stuck (8 + g)) = false) ∧
    (s.firstAt (.epipe g) = some f) ∧
    (s.live (epipePage g) = true)) ∧
    (∃ (g : Fin 8) (f : Frame) (s : State),
    (s.clocked (epipePage g) = true) ∧
    (s.hb (.stuck (8 + g)) = false) ∧
    (s.firstAt (.epipe g) = some f) ∧
    (s.live (epipePage g) = false)) ∧
    (∃ (g : Nat) (f : Frame) (s : State),
    (f.outPort < 128) ∧
    (f.markKnown = true) ∧
    (f.bad = true)) ∧
    (∃ (g : Nat) (f : Frame) (s : State),
    (f.outPort < 128) ∧
    (f.bad = false) ∧
    (portSends s f.outPort = false)) ∧
    (∃ (g : Nat) (f : Frame) (s : State),
    (128 ≤ f.outPort) ∧
    (f.noRw = true)) ∧
    (∃ (g : Nat) (f : Frame) (s : State),
    (128 ≤ f.outPort) ∧
    (f.noRw = false) ∧
    (f.mplsOp ≠ 3) ∧
    (s.live adjPage = true) ∧
    (bit (fld (s.tab adjPage 1 f.adj) 30 2) (f.parity.getD 0) = false ∨ parBad s adjPage 1 f.adj = true)) ∧
    (∃ (g : Nat) (rw : Bool) (f : Frame) (s : State),
    (f.outPort < 128) ∧
    (f.full = true) ∧
    (txMtu s f.outPort < f.len)) ∧
    (∃ (g : Nat) (rw : Bool) (f : Frame) (s : State),
    (f.outPort < 128) ∧
    (f.len ≤ txMtu s f.outPort)) ∧
    (∃ (g : Nat) (rw : Bool) (f : Frame) (s : State),
    (128 ≤ f.outPort)) ∧
    (∃ (g : Fin 8) (s : State),
    (s.clocked (epipePage g) = true) ∧
    (s.hb (.stuck (8 + g)) = false)) :=
  ⟨⟨0, (up [1, 7, 8, 0xB0, 0xB8, 0xC0, 0xC1, 0xC2, 0xC3, 0xC4, 0xC5, 0x10]),
    by decide +kernel⟩,
   ⟨0, { id := 1, loc := .epipe 0, bytes := List.replicate 60 0, parity := some 0, outPort := 0 }, ({ (up [1, 7, 8, 0xB0, 0xB8, 0xC0, 0xC1, 0xC2, 0xC3, 0xC4, 0xC5, 0x10]) with frames := [{ id := 1, loc := .epipe 0, bytes := List.replicate 60 0, parity := some 0, outPort := 0 }] }),
    by decide +kernel⟩,
   ⟨0, { id := 1, loc := .epipe 0, bytes := List.replicate 60 0, parity := some 0, outPort := 0 }, (({ (up [1, 7, 8, 0xB0, 0xB8, 0xC0, 0xC1, 0xC2, 0xC3, 0xC4, 0xC5, 0x10]) with frames := [{ id := 1, loc := .epipe 0, bytes := List.replicate 60 0, parity := some 0, outPort := 0 }] })).setReg (Reg.BLK_CTL 0xB8) 0,
    by decide +kernel⟩,
   ⟨0, { id := 1, loc := .epipe 0, bytes := List.replicate 60 0, parity := some 0, outPort := 0, bad := true }, ({ (up [1, 7, 8, 0xB0, 0xB8, 0xC0, 0xC1, 0xC2, 0xC3, 0xC4, 0xC5, 0x10]) with frames := [{ id := 1, loc := .epipe 0, bytes := List.replicate 60 0, parity := some 0, outPort := 0 }] }),
    by decide +kernel⟩,
   ⟨0, { id := 1, loc := .epipe 0, bytes := List.replicate 60 0, parity := some 0, outPort := 0 }, ({ (up [1, 7, 8, 0xB0, 0xB8, 0xC0, 0xC1, 0xC2, 0xC3, 0xC4, 0xC5, 0x10]) with frames := [{ id := 1, loc := .epipe 0, bytes := List.replicate 60 0, parity := some 0, outPort := 0 }] }),
    by decide +kernel⟩,
   ⟨0, { id := 1, loc := .epipe 0, bytes := List.replicate 60 0, parity := some 0, outPort := 128, noRw := true }, ({ (up [1, 7, 8, 0xB0, 0xB8, 0xC0, 0xC1, 0xC2, 0xC3, 0xC4, 0xC5, 0x10]) with frames := [{ id := 1, loc := .epipe 0, bytes := List.replicate 60 0, parity := some 0, outPort := 0 }] }),
    by decide +kernel⟩,
   ⟨0, { id := 1, loc := .epipe 0, bytes := List.replicate 60 0, parity := some 0, outPort := 128, adj := 1 }, ({ (up [1, 7, 8, 0xB0, 0xB8, 0xC0, 0xC1, 0xC2, 0xC3, 0xC4, 0xC5, 0x10]) with frames := [{ id := 1, loc := .epipe 0, bytes := List.replicate 60 0, parity := some 0, outPort := 0 }] }),
    by decide +kernel⟩,
   ⟨0, true, { id := 1, loc := .epipe 0, bytes := List.replicate 60 0, parity := some 0, outPort := 0 }, (({ (up [1, 7, 8, 0xB0, 0xB8, 0xC0, 0xC1, 0xC2, 0xC3, 0xC4, 0xC5, 0x10]) with frames := [{ id := 1, loc := .epipe 0, bytes := List.replicate 60 0, parity := some 0, outPort := 0 }] })).setReg (Reg.EPIPE.PORT_CFG 0 0) 60,
    by decide +kernel⟩,
   ⟨0, true, { id := 1, loc := .epipe 0, bytes := List.replicate 60 0, parity := some 0, outPort := 0 }, ({ (up [1, 7, 8, 0xB0, 0xB8, 0xC0, 0xC1, 0xC2, 0xC3, 0xC4, 0xC5, 0x10]) with frames := [{ id := 1, loc := .epipe 0, bytes := List.replicate 60 0, parity := some 0, outPort := 0 }] }),
    by decide +kernel⟩,
   ⟨0, true, { id := 1, loc := .epipe 0, bytes := List.replicate 60 0, parity := some 0, outPort := 128 }, ({ (up [1, 7, 8, 0xB0, 0xB8, 0xC0, 0xC1, 0xC2, 0xC3, 0xC4, 0xC5, 0x10]) with frames := [{ id := 1, loc := .epipe 0, bytes := List.replicate 60 0, parity := some 0, outPort := 0 }] }),
    by decide +kernel⟩,
   ⟨0, ({ (up [1, 7, 8, 0xB0, 0xB8, 0xC0, 0xC1, 0xC2, 0xC3, 0xC4, 0xC5, 0x10]) with frames := [{ id := 1, loc := .epipe 0, bytes := List.replicate 60 0, parity := some 0, outPort := 0 }] }),
    by decide +kernel⟩⟩

theorem meets_TcamAndSeeds :
    (∃ (r : Req) (s : State) (w : State),
    (TableReady s r tcamPage) ∧
    (firstWrite r s = w) ∧
    (0x10 ≤ selOf s r tcamPage) ∧
    (selOf s r tcamPage ≤ 0x13) ∧
    (idxOf s r tcamPage ≤ 1)) ∧
    (∃ (r : Req) (s : State) (w : State),
    (TableReady s r tcamPage) ∧
    (firstWrite r s = w) ∧
    (0x10 ≤ selOf s r tcamPage) ∧
    (selOf s r tcamPage ≤ 0x13) ∧
    (idxOf s r tcamPage < 262144) ∧
    (((tcamMatches w ((selOf s r tcamPage - 0x10) / 2) (walkKey w r) (selOf s r tcamPage % 2)).filter fun pos => decide (idxOf s r tcamPage ≤ pos)) = [])) ∧
    (∃ (r : Req) (pos : Nat) (rest : List Nat) (s : State) (w : State),
    (TableReady s r tcamPage) ∧
    (firstWrite r s = w) ∧
    (0x10 ≤ selOf s r tcamPage) ∧
    (selOf s r tcamPage ≤ 0x13) ∧
    (idxOf s r tcamPage < 262144) ∧
    (((tcamMatches w ((selOf s r tcamPage - 0x10) / 2) (walkKey w r) (selOf s r tcamPage % 2)).filter fun x => decide (idxOf s r tcamPage ≤ x)) = pos :: rest)) ∧
    (∃ (r : Req) (s : State) (w : State),
    (TableReady s r tcamPage) ∧
    (firstWrite r s = w) ∧
    (selOf s r tcamPage = 1) ∧
    (idxOf s r tcamPage < 262144) ∧
    (rowVis w (idxOf s r tcamPage) = 0)) ∧
    (∃ (r : Req) (x : Nat) (s : State) (w : State),
    (TableReady s r tcamPage) ∧
    (firstWrite r s = w) ∧
    (selOf s r tcamPage = 1) ∧
    (idxOf s r tcamPage < 262144) ∧
    (w.h .capoState ≠ 4) ∧
    (chainLen w (w.rfld (Reg.TCAM.SLICE_CFG (idxOf s r tcamPage / 2048)) 1 1) = 1) ∧
    (idxOf s r tcamPage / 2048 * 2048 + fld (winData s r tcamPage) 0 11 = x) ∧
    (idxOf s r tcamPage / 16 = x / 16) ∧
    (x ≠ idxOf s r tcamPage) ∧
    (rowVis w (idxOf s r tcamPage) ≠ 0) ∧
    (rowVis w x = 0) ∧
    (((w.tabList tcamPage 1).any fun e => min (idxOf s r tcamPage) x < e.1 && e.1 < max (idxOf s r tcamPage) x && fld (word e.2 10) 0 2 != 0) = false)) ∧
    (∃ (pos : Fin 262144) (s : State),
    (s.live tcamPage = true)) ∧
    (∃ (r : Req) (s : State),
    (TableReady s r tcamPage)) ∧
    (∃ (r : Req) (s : State),
    (TableReady s r tcamPage)) ∧
    (∃ (r : Req) (s : State),
    (TableReady s r tcamPage)) ∧
    (∃ (r : Req) (k : Fin 130) (v : W32) (s : State) (w : State),
    (k.val < 128) ∧
    (Admits s r (Reg.TCAM.SLICE_CFG k)) ∧
    (firstWrite r s = w) ∧
    (v.toNat % 4 ≠ s.reg (Reg.TCAM.SLICE_CFG k)) ∧
    (validRows w k = 0)) ∧
    (∃ (r : Req) (k : Fin 130) (v : W32) (s : State) (w : State),
    (k.val < 128) ∧
    (Admits s r (Reg.TCAM.SLICE_CFG k)) ∧
    (firstWrite r s = w) ∧
    (v.toNat % 4 ≠ s.reg (Reg.TCAM.SLICE_CFG k)) ∧
    (validRows w k ≠ 0)) ∧
    (∃ (r : Req) (k : Fin 130) (v : W32) (s : State) (w : State),
    (k.val < 128) ∧
    (Admits s r (Reg.TCAM.SLICE_CFG k)) ∧
    (firstWrite r s = w) ∧
    (v.toNat % 4 = s.reg (Reg.TCAM.SLICE_CFG k))) ∧
    (∃ (r : Req) (k : Fin 130) (v : W32) (s : State) (w : State),
    (128 ≤ k.val) ∧
    (Admits s r (Reg.TCAM.LKP_CFG (k.val - 128))) ∧
    (firstWrite r s = w) ∧
    (3 ≠ s.reg (Reg.TCAM.LKP_CFG (k.val - 128))) ∧
    (v.toNat % 4 = 3)) ∧
    (∃ (r : Req) (k : Fin 130) (v : W32) (s : State) (w : State),
    (128 ≤ k.val) ∧
    (Admits s r (Reg.TCAM.LKP_CFG (k.val - 128))) ∧
    (firstWrite r s = w) ∧
    (v.toNat % 4 ≠ s.reg (Reg.TCAM.LKP_CFG (k.val - 128))) ∧
    (v.toNat % 4 ≠ 3) ∧
    (w.tabList tcamPage 1 = [])) ∧
    (∃ (r : Req) (v : W32) (s : State),
    (Admits s r Reg.EM.MPLS_SEED) ∧
    (s.reg Reg.EM.MPLS_ENT = 0)) ∧
    (∃ (r : Req) (v : W32) (s : State),
    (Admits s r Reg.EM.MPLS_SEED) ∧
    (s.reg Reg.EM.MPLS_ENT ≠ 0)) ∧
    (∃ (r : Req) (v : W32) (s : State),
    (Admits s r Reg.EM.IFT_SEED)) ∧
    (∃ (r : Req) (v : W32) (s : State),
    (Admits s r Reg.L2.HASH_SEED)) ∧
    (∃ (r : Req) (k : Fin 130) (v : W32) (s : State),
    (k.val < 128) ∧
    (Admits s r (Reg.TCAM.SLICE_CFG k))) ∧
    (∃ (r : Req) (k : Fin 130) (v : W32) (s : State),
    (128 ≤ k.val) ∧
    (Admits s r (Reg.TCAM.LKP_CFG (k.val - 128)))) ∧
    (∃ (r : Req) (k : Fin 3) (v : W32) (s : State),
    (Admits s r (seedAddr k))) :=
  ⟨⟨.HOST, ((up [1, 7, 8, 0xC0, 0xC1, 0xC2, 0xC3, 0xC4, 0xC5]).regsSet [(winBank .HOST (Reg.TBL_SEL tcamPage), 0x10), (winBank .HOST (Reg.TBL_IDX tcamPage), 0x1), (winBank .HOST (Reg.TBL_DATA tcamPage 0), 0x5)]), (firstWrite .HOST ((up [1, 7, 8, 0xC0, 0xC1, 0xC2, 0xC3, 0xC4, 0xC5]).regsSet [(winBank .HOST (Reg.TBL_SEL tcamPage), 0x10), (winBank .HOST (Reg.TBL_IDX tcamPage), 0x1), (winBank .HOST (Reg.TBL_DATA tcamPage 0), 0x5)])),
    by decide +kernel⟩,
   ⟨.HOST, ((up [1, 7, 8, 0xC0, 0xC1, 0xC2, 0xC3, 0xC4, 0xC5]).regsSet [(winBank .HOST (Reg.TBL_SEL tcamPage), 0x10), (winBank .HOST (Reg.TBL_IDX tcamPage), 0x5)]), (firstWrite .HOST ((up [1, 7, 8, 0xC0, 0xC1, 0xC2, 0xC3, 0xC4, 0xC5]).regsSet [(winBank .HOST (Reg.TBL_SEL tcamPage), 0x10), (winBank .HOST (Reg.TBL_IDX tcamPage), 0x5)])),
    by decide +kernel⟩,
   ⟨.HOST, 7, [], ((((up [1, 7, 8, 0xC0, 0xC1, 0xC2, 0xC3, 0xC4, 0xC5]).setReg (Reg.TCAM.SLICE_CFG 0) 1).setTab tcamPage 1 7 (2 ^ 320 + 5 * 2 ^ 352)).regsSet [(winBank .HOST (Reg.TBL_SEL tcamPage), 0x10), (winBank .HOST (Reg.TBL_IDX tcamPage), 0x5)]), (firstWrite .HOST ((((up [1, 7, 8, 0xC0, 0xC1, 0xC2, 0xC3, 0xC4, 0xC5]).setReg (Reg.TCAM.SLICE_CFG 0) 1).setTab tcamPage 1 7 (2 ^ 320 + 5 * 2 ^ 352)).regsSet [(winBank .HOST (Reg.TBL_SEL tcamPage), 0x10), (winBank .HOST (Reg.TBL_IDX tcamPage), 0x5)])),
    by decide +kernel⟩,
   ⟨.HOST, ((up [1, 7, 8, 0xC0, 0xC1, 0xC2, 0xC3, 0xC4, 0xC5]).regsSet [(winBank .HOST (Reg.TBL_SEL tcamPage), 0x1), (winBank .HOST (Reg.TBL_IDX tcamPage), 0x5), (winBank .HOST (Reg.TBL_DATA tcamPage 0), 0x6)]), (firstWrite .HOST ((up [1, 7, 8, 0xC0, 0xC1, 0xC2, 0xC3, 0xC4, 0xC5]).regsSet [(winBank .HOST (Reg.TBL_SEL tcamPage), 0x1), (winBank .HOST (Reg.TBL_IDX tcamPage), 0x5), (winBank .HOST (Reg.TBL_DATA tcamPage 0), 0x6)])),
    by decide +kernel⟩,
   ⟨.HOST, 6, (((up [1, 7, 8, 0xC0, 0xC1, 0xC2, 0xC3, 0xC4, 0xC5]).setTab tcamPage 1 5 (2 ^ 320 + 5)).regsSet [(winBank .HOST (Reg.TBL_SEL tcamPage), 0x1), (winBank .HOST (Reg.TBL_IDX tcamPage), 0x5), (winBank .HOST (Reg.TBL_DATA tcamPage 0), 0x6)]), (firstWrite .HOST (((up [1, 7, 8, 0xC0, 0xC1, 0xC2, 0xC3, 0xC4, 0xC5]).setTab tcamPage 1 5 (2 ^ 320 + 5)).regsSet [(winBank .HOST (Reg.TBL_SEL tcamPage), 0x1), (winBank .HOST (Reg.TBL_IDX tcamPage), 0x5), (winBank .HOST (Reg.TBL_DATA tcamPage 0), 0x6)])),
    by decide +kernel⟩,
   ⟨5, (up [1, 7, 8, 0xC0, 0xC1, 0xC2, 0xC3, 0xC4, 0xC5]).setTab tcamPage 1 5 (2 ^ 320 + 5),
    by decide +kernel⟩,
   ⟨.HOST, (up [1, 7, 8, 0xC0, 0xC1, 0xC2, 0xC3, 0xC4, 0xC5]),
    by decide +kernel⟩,
   ⟨.HOST, (up [1, 7, 8, 0xC0, 0xC1, 0xC2, 0xC3, 0xC4, 0xC5]),
    by decide +kernel⟩,
   ⟨.HOST, (up [1, 7, 8, 0xC0, 0xC1, 0xC2, 0xC3, 0xC4, 0xC5]),
    by decide +kernel⟩,
   ⟨.HOST, 5, 1, (up [1, 7, 8, 0xC0, 0xC1, 0xC2, 0xC3, 0xC4, 0xC5]), (firstWrite .HOST (up [1, 7, 8, 0xC0, 0xC1, 0xC2, 0xC3, 0xC4, 0xC5])),
    by decide +kernel⟩,
   ⟨.HOST, 0, 1, ((up [1, 7, 8, 0xC0, 0xC1, 0xC2, 0xC3, 0xC4, 0xC5]).setTab tcamPage 1 5 (2 ^ 320 + 5)), (firstWrite .HOST ((up [1, 7, 8, 0xC0, 0xC1, 0xC2, 0xC3, 0xC4, 0xC5]).setTab tcamPage 1 5 (2 ^ 320 + 5))),
    by decide +kernel⟩,
   ⟨.HOST, 0, 4, (up [1, 7, 8, 0xC0, 0xC1, 0xC2, 0xC3, 0xC4, 0xC5]), (firstWrite .HOST (up [1, 7, 8, 0xC0, 0xC1, 0xC2, 0xC3, 0xC4, 0xC5])),
    by decide +kernel⟩,
   ⟨.HOST, 128, 3, (up [1, 7, 8, 0xC0, 0xC1, 0xC2, 0xC3, 0xC4, 0xC5]), (firstWrite .HOST (up [1, 7, 8, 0xC0, 0xC1, 0xC2, 0xC3, 0xC4, 0xC5])),
    by decide +kernel⟩,
   ⟨.HOST, 128, 1, (up [1, 7, 8, 0xC0, 0xC1, 0xC2, 0xC3, 0xC4, 0xC5]), (firstWrite .HOST (up [1, 7, 8, 0xC0, 0xC1, 0xC2, 0xC3, 0xC4, 0xC5])),
    by decide +kernel⟩,
   ⟨.HOST, 9, (up [1, 7, 8, 0xC0, 0xC1, 0xC2, 0xC3, 0xC4, 0xC5]),
    by decide +kernel⟩,
   ⟨.HOST, 9, (up [1, 7, 8, 0xC0, 0xC1, 0xC2, 0xC3, 0xC4, 0xC5]).setReg Reg.EM.MPLS_ENT 1,
    by decide +kernel⟩,
   ⟨.HOST, 9, (up [1, 7, 8, 0xC0, 0xC1, 0xC2, 0xC3, 0xC4, 0xC5]),
    by decide +kernel⟩,
   ⟨.HOST, 9, (up [1, 7, 8, 0xC0, 0xC1, 0xC2, 0xC3, 0xC4, 0xC5]),
    by decide +kernel⟩,
   ⟨.HOST, 5, 1, (up [1, 7, 8, 0xC0, 0xC1, 0xC2, 0xC3, 0xC4, 0xC5]),
    by decide +kernel⟩,
   ⟨.HOST, 128, 1, (up [1, 7, 8, 0xC0, 0xC1, 0xC2, 0xC3, 0xC4, 0xC5]),
    by decide +kernel⟩,
   ⟨.HOST, 1, 1, (up [1, 7, 8, 0xC0, 0xC1, 0xC2, 0xC3, 0xC4, 0xC5]),
    by decide +kernel⟩⟩

theorem meets_ExactMatchCommands :
    (∃ (r : Req) (e pos : Nat) (s : State) (w : State),
    (TableReady s r emPage) ∧
    (firstWrite r s = w) ∧
    (selOf s r emPage = 1) ∧
    (winData s r emPage % 2 ^ 128 &&& entMask .mpls = e) ∧
    (entRange .mpls e = false) ∧
    (entVis .mpls e ≠ 0) ∧
    (clashes w .mpls (entKey .mpls e) (2 ^ 40) (entVis .mpls e) = false) ∧
    (w.h .capoState = 0) ∧
    (insertPos w .mpls (entKey .mpls e) = some pos)) ∧
    (∃ (r : Req) (e : Nat) (s : State) (w : State),
    (TableReady s r emPage) ∧
    (firstWrite r s = w) ∧
    (selOf s r emPage = 1) ∧
    (winData s r emPage % 2 ^ 128 &&& entMask .mpls = e) ∧
    (entRange .mpls e = false) ∧
    (entVis .mpls e ≠ 0) ∧
    (clashes w .mpls (entKey .mpls e) (2 ^ 40) (entVis .mpls e) = true)) ∧
    (∃ (r : Req) (e : Nat) (s : State) (w : State),
    (TableReady s r emPage) ∧
    (firstWrite r s = w) ∧
    (selOf s r emPage = 1) ∧
    (winData s r emPage % 2 ^ 128 &&& entMask .mpls = e) ∧
    (entRange .mpls e = true ∨ entVis .mpls e = 0)) ∧
    (∃ (r : Req) (g : Fin 8) (s : State) (w : State),
    (TableReady s r l2Page) ∧
    (firstWrite r s = w) ∧
    (selOf s r l2Page = 1 + g.val)) ∧
    (∃ (r : Req) (s : State) (w : State),
    (TableReady s r emPage) ∧
    (firstWrite r s = w) ∧
    (selOf s r emPage = 1) ∧
    (fld (word (winData s r emPage) 14) 0 2 = 0 ∨ (sameKey w .mpls (entKey .mpls (winData s r emPage)) (2 ^ 40)).filter (fun x => entVis .mpls x.2 &&& fld (word (winData s r emPage) 14) 0 2 != 0) = [])) ∧
    (∃ (r : Req) (x : Nat × Nat) (s : State) (w : State),
    (TableReady s r emPage) ∧
    (firstWrite r s = w) ∧
    (selOf s r emPage = 1) ∧
    (fld (word (winData s r emPage) 14) 0 2 ≠ 0) ∧
    ((sameKey w .mpls (entKey .mpls (winData s r emPage)) (2 ^ 40)).filter (fun x => entVis .mpls x.2 &&& fld (word (winData s r emPage) 14) 0 2 != 0) = [x]) ∧
    (w.h .capoState = 0)) ∧
    (∃ (r : Req) (pos : Nat) (s : State) (w : State),
    (TableReady s r emPage) ∧
    (firstWrite r s = w) ∧
    (selOf s r emPage = 1) ∧
    (hashFind w .mpls (entKey .mpls (winData s r emPage)) (fld (word (winData s r emPage) 14) 0 1) = some pos)) ∧
    (∃ (r : Req) (s : State) (w : State),
    (TableReady s r emPage) ∧
    (firstWrite r s = w) ∧
    (selOf s r emPage = 1) ∧
    (hashFind w .mpls (entKey .mpls (winData s r emPage)) (fld (word (winData s r emPage) 14) 0 1) = none)) ∧
    (∃ (r : Req) (g : Fin 8) (s : State) (w : State),
    (TableReady s r l2Page) ∧
    (firstWrite r s = w) ∧
    (selOf s r l2Page = 1 + g.val)) ∧
    (∃ (r : Req) (s : State),
    (TableReady s r l2Page)) ∧
    (∃ (r : Req) (s : State),
    (TableReady s r l2Page)) ∧
    (∃ (r : Req) (s : State),
    (TableReady s r l2Page)) ∧
    (∃ (r : Req) (s : State),
    (TableReady s r emPage)) ∧
    (∃ (r : Req) (s : State),
    (TableReady s r emPage)) ∧
    (∃ (r : Req) (s : State),
    (TableReady s r emPage)) :=
  ⟨⟨.HOST, (77 + 2 ^ 63 + 2 ^ 62), 119592, ((up [1, 7, 8, 0xC0, 0xC1, 0xC2, 0xC3, 0xC4, 0xC5]).regsSet [(winBank .HOST (Reg.TBL_SEL emPage), 0x1), (winBank .HOST (Reg.TBL_IDX emPage), 0x0), (winBank .HOST (Reg.TBL_DATA emPage 0), 0x4d), (winBank .HOST (Reg.TBL_DATA emPage 1), 0xc0000000)]), (firstWrite .HOST ((up [1, 7, 8, 0xC0, 0xC1, 0xC2, 0xC3, 0xC4, 0xC5]).regsSet [(winBank .HOST (Reg.TBL_SEL emPage), 0x1), (winBank .HOST (Reg.TBL_IDX emPage), 0x0), (winBank .HOST (Reg.TBL_DATA emPage 0), 0x4d), (winBank .HOST (Reg.TBL_DATA emPage 1), 0xc0000000)])),
    by decide +kernel⟩,
   ⟨.HOST, (77 + 2 ^ 63 + 2 ^ 62), (((up [1, 7, 8, 0xC0, 0xC1, 0xC2, 0xC3, 0xC4, 0xC5]).setTab emPage 1 1048576 (77 + 2 ^ 62)).regsSet [(winBank .HOST (Reg.TBL_SEL emPage), 0x1), (winBank .HOST (Reg.TBL_IDX emPage), 0x0), (winBank .HOST (Reg.TBL_DATA emPage 0), 0x4d), (winBank .HOST (Reg.TBL_DATA emPage 1), 0xc0000000)]), (firstWrite .HOST (((up [1, 7, 8, 0xC0, 0xC1, 0xC2, 0xC3, 0xC4, 0xC5]).setTab emPage 1 1048576 (77 + 2 ^ 62)).regsSet [(winBank .HOST (Reg.TBL_SEL emPage), 0x1), (winBank .HOST (Reg.TBL_IDX emPage), 0x0), (winBank .HOST (Reg.TBL_DATA emPage 0), 0x4d), (winBank .HOST (Reg.TBL_DATA emPage 1), 0xc0000000)])),
    by decide +kernel⟩,
   ⟨.HOST, 77, ((up [1, 7, 8, 0xC0, 0xC1, 0xC2, 0xC3, 0xC4, 0xC5]).regsSet [(winBank .HOST (Reg.TBL_SEL emPage), 0x1), (winBank .HOST (Reg.TBL_IDX emPage), 0x0), (winBank .HOST (Reg.TBL_DATA emPage 0), 0x4d), (winBank .HOST (Reg.TBL_DATA emPage 1), 0x0)]), (firstWrite .HOST ((up [1, 7, 8, 0xC0, 0xC1, 0xC2, 0xC3, 0xC4, 0xC5]).regsSet [(winBank .HOST (Reg.TBL_SEL emPage), 0x1), (winBank .HOST (Reg.TBL_IDX emPage), 0x0), (winBank .HOST (Reg.TBL_DATA emPage 0), 0x4d), (winBank .HOST (Reg.TBL_DATA emPage 1), 0x0)])),
    by decide +kernel⟩,
   ⟨.HOST, 2, ((up [1, 7, 8, 0xC0, 0xC1, 0xC2, 0xC3, 0xC4, 0xC5]).regsSet [(winBank .HOST (Reg.TBL_SEL l2Page), 0x3), (winBank .HOST (Reg.TBL_IDX l2Page), 0x0), (winBank .HOST (Reg.TBL_DATA l2Page 0), 0x5), (winBank .HOST (Reg.TBL_DATA l2Page 1), 0x7), (winBank .HOST (Reg.TBL_DATA l2Page 2), 0xc0000000)]), (firstWrite .HOST ((up [1, 7, 8, 0xC0, 0xC1, 0xC2, 0xC3, 0xC4, 0xC5]).regsSet [(winBank .HOST (Reg.TBL_SEL l2Page), 0x3), (winBank .HOST (Reg.TBL_IDX l2Page), 0x0), (winBank .HOST (Reg.TBL_DATA l2Page 0), 0x5), (winBank .HOST (Reg.TBL_DATA l2Page 1), 0x7), (winBank .HOST (Reg.TBL_DATA l2Page 2), 0xc0000000)])),
    by decide +kernel⟩,
   ⟨.HOST, ((up [1, 7, 8, 0xC0, 0xC1, 0xC2, 0xC3, 0xC4, 0xC5]).regsSet [(winBank .HOST (Reg.TBL_SEL emPage), 0x1), (winBank .HOST (Reg.TBL_IDX emPage), 0x0), (winBank .HOST (Reg.TBL_DATA emPage 0), 0x4d), (winBank .HOST (Reg.TBL_DATA emPage 1), 0x0), (winBank .HOST (Reg.TBL_DATA emPage 14), 0x1)]), (firstWrite .HOST ((up [1, 7, 8, 0xC0, 0xC1, 0xC2, 0xC3, 0xC4, 0xC5]).regsSet [(winBank .HOST (Reg.TBL_SEL emPage), 0x1), (winBank .HOST (Reg.TBL_IDX emPage), 0x0), (winBank .HOST (Reg.TBL_DATA emPage 0), 0x4d), (winBank .HOST (Reg.TBL_DATA emPage 1), 0x0), (winBank .HOST (Reg.TBL_DATA emPage 14), 0x1)])),
    by decide +kernel⟩,
   ⟨.HOST, (1048576, 77 + 2 ^ 62), (((up [1, 7, 8, 0xC0, 0xC1, 0xC2, 0xC3, 0xC4, 0xC5]).setTab emPage 1 1048576 (77 + 2 ^ 62)).regsSet [(winBank .HOST (Reg.TBL_SEL emPage), 0x1), (winBank .HOST (Reg.TBL_IDX emPage), 0x0), (winBank .HOST (Reg.TBL_DATA emPage 0), 0x4d), (winBank .HOST (Reg.TBL_DATA emPage 1), 0x0), (winBank .HOST (Reg.TBL_DATA emPage 14), 0x1)]), (firstWrite .HOST (((up [1, 7, 8, 0xC0, 0xC1, 0xC2, 0xC3, 0xC4, 0xC5]).setTab emPage 1 1048576 (77 + 2 ^ 62)).regsSet [(winBank .HOST (Reg.TBL_SEL emPage), 0x1), (winBank .HOST (Reg.TBL_IDX emPage), 0x0), (winBank .HOST (Reg.TBL_DATA emPage 0), 0x4d), (winBank .HOST (Reg.TBL_DATA emPage 1), 0x0), (winBank .HOST (Reg.TBL_DATA emPage 14), 0x1)])),
    by decide +kernel⟩,
   ⟨.HOST, 1048576, (((up [1, 7, 8, 0xC0, 0xC1, 0xC2, 0xC3, 0xC4, 0xC5]).setTab emPage 1 1048576 (77 + 2 ^ 62)).regsSet [(winBank .HOST (Reg.TBL_SEL emPage), 0x1), (winBank .HOST (Reg.TBL_IDX emPage), 0x0), (winBank .HOST (Reg.TBL_DATA emPage 0), 0x4d), (winBank .HOST (Reg.TBL_DATA emPage 1), 0x0), (winBank .HOST (Reg.TBL_DATA emPage 14), 0x0)]), (firstWrite .HOST (((up [1, 7, 8, 0xC0, 0xC1, 0xC2, 0xC3, 0xC4, 0xC5]).setTab emPage 1 1048576 (77 + 2 ^ 62)).regsSet [(winBank .HOST (Reg.TBL_SEL emPage), 0x1), (winBank .HOST (Reg.TBL_IDX emPage), 0x0), (winBank .HOST (Reg.TBL_DATA emPage 0), 0x4d), (winBank .HOST (Reg.TBL_DATA emPage 1), 0x0), (winBank .HOST (Reg.TBL_DATA emPage 14), 0x0)])),
    by decide +kernel⟩,
   ⟨.HOST, (((up [1, 7, 8, 0xC0, 0xC1, 0xC2, 0xC3, 0xC4, 0xC5]).setTab emPage 1 1048576 (77 + 2 ^ 62)).regsSet [(winBank .HOST (Reg.TBL_SEL emPage), 0x1), (winBank .HOST (Reg.TBL_IDX emPage), 0x0), (winBank .HOST (Reg.TBL_DATA emPage 0), 0x4d), (winBank .HOST (Reg.TBL_DATA emPage 1), 0x0), (winBank .HOST (Reg.TBL_DATA emPage 14), 0x1)]), (firstWrite .HOST (((up [1, 7, 8, 0xC0, 0xC1, 0xC2, 0xC3, 0xC4, 0xC5]).setTab emPage 1 1048576 (77 + 2 ^ 62)).regsSet [(winBank .HOST (Reg.TBL_SEL emPage), 0x1), (winBank .HOST (Reg.TBL_IDX emPage), 0x0), (winBank .HOST (Reg.TBL_DATA emPage 0), 0x4d), (winBank .HOST (Reg.TBL_DATA emPage 1), 0x0), (winBank .HOST (Reg.TBL_DATA emPage 14), 0x1)])),
    by decide +kernel⟩,
   ⟨.HOST, 2, ((up [1, 7, 8, 0xC0, 0xC1, 0xC2, 0xC3, 0xC4, 0xC5]).regsSet [(winBank .HOST (Reg.TBL_SEL l2Page), 0x3), (winBank .HOST (Reg.TBL_IDX l2Page), 0x0), (winBank .HOST (Reg.TBL_DATA l2Page 0), 0x5), (winBank .HOST (Reg.TBL_DATA l2Page 1), 0x7), (winBank .HOST (Reg.TBL_DATA l2Page 2), 0xc0000000), (winBank .HOST (Reg.TBL_DATA l2Page 14), 0x3)]), (firstWrite .HOST ((up [1, 7, 8, 0xC0, 0xC1, 0xC2, 0xC3, 0xC4, 0xC5]).regsSet [(winBank .HOST (Reg.TBL_SEL l2Page), 0x3), (winBank .HOST (Reg.TBL_IDX l2Page), 0x0), (winBank .HOST (Reg.TBL_DATA l2Page 0), 0x5), (winBank .HOST (Reg.TBL_DATA l2Page 1), 0x7), (winBank .HOST (Reg.TBL_DATA l2Page 2), 0xc0000000), (winBank .HOST (Reg.TBL_DATA l2Page 14), 0x3)])),
    by decide +kernel⟩,
   ⟨.HOST, (up [1, 7, 8, 0xC0, 0xC1, 0xC2, 0xC3, 0xC4, 0xC5]),
    by decide +kernel⟩,
   ⟨.HOST, (up [1, 7, 8, 0xC0, 0xC1, 0xC2, 0xC3, 0xC4, 0xC5]),
    by decide +kernel⟩,
   ⟨.HOST, (up [1, 7, 8, 0xC0, 0xC1, 0xC2, 0xC3, 0xC4, 0xC5]),
    by decide +kernel⟩,
   ⟨.HOST, (up [1, 7, 8, 0xC0, 0xC1, 0xC2, 0xC3, 0xC4, 0xC5]),
    by decide +kernel⟩,
   ⟨.HOST, (up [1, 7, 8, 0xC0, 0xC1, 0xC2, 0xC3, 0xC4, 0xC5]),
    by decide +kernel⟩,
   ⟨.HOST, (up [1, 7, 8, 0xC0, 0xC1, 0xC2, 0xC3, 0xC4, 0xC5]),
    by decide +kernel⟩⟩

theorem meets_RouteCommands :
    (∃ (w : Win) (d : Nat) (s : State),
    (w.sel = 1) ∧
    (w.data &&& routeMask = d) ∧
    (routeRange d = false) ∧
    (routeVis d ≠ 0) ∧
    (nextRange (word d 5) = false) ∧
    (((routeList s).any fun x => samePrefix x.2 d && (routeVis x.2 &&& routeVis d) != 0) = false) ∧
    (s.reg Reg.LPM.UNITS_USED + routeUnits d ≤ s.reg Reg.LPM.UNITS_CAP) ∧
    (s.h .capoState = 0)) ∧
    (∃ (w : Win) (d : Nat) (s : State),
    (w.sel = 1) ∧
    (w.data &&& routeMask = d) ∧
    (routeRange d = true ∨ routeVis d = 0)) ∧
    (∃ (reqn idx d : Nat) (s : State),
    (routeRange (d &&& routeMask) = false) ∧
    (routeVis (d &&& routeMask) ≠ 0) ∧
    (nextRange (word (d &&& routeMask) 5) = false) ∧
    (((routeList s).any fun x => samePrefix x.2 (d &&& routeMask) && (routeVis x.2 &&& routeVis (d &&& routeMask)) != 0) = false) ∧
    (s.reg Reg.LPM.UNITS_CAP < s.reg Reg.LPM.UNITS_USED + routeUnits (d &&& routeMask))) ∧
    (∃ (w : Win) (slot e : Nat) (s : State),
    (w.sel = 1) ∧
    (routeRange (w.data &&& routeMask) = false) ∧
    (findRoute s (w.data &&& routeMask) = some (slot, e)) ∧
    (s.h .capoState = 0)) ∧
    (∃ (w : Win) (s : State),
    (w.sel = 1) ∧
    (routeRange (w.data &&& routeMask) = false) ∧
    (findRoute s (w.data &&& routeMask) = none)) ∧
    (∃ (w : Win) (slot e m : Nat) (s : State),
    (w.sel = 1) ∧
    (word (w.data) 6 &&& 0xC01FFFFF = m) ∧
    (routeRange (w.data &&& routeMask) = false) ∧
    (nextRange m = false) ∧
    (findRoute s (w.data &&& routeMask) = some (slot, e)) ∧
    (((routeList s).any fun x => x.1 != slot && samePrefix x.2 (w.data &&& routeMask) && (routeVis x.2 &&& fld m 30 2) != 0) = false) ∧
    (s.h .capoState = 0)) ∧
    (∃ (w : Win) (slot e : Nat) (s : State),
    (w.sel = 1) ∧
    (routeRange (w.data &&& routeMask) = false) ∧
    (findRoute s (w.data &&& routeMask) = some (slot, e))) ∧
    (∃ (w : Win) (x : Nat × Nat) (s : State),
    (w.sel = 1) ∧
    (routeV6 (w.data) = false) ∧
    (routeMatch s (routeVrf (w.data)) false (word (w.data) 4) (fld (word (w.data) 6) 0 1) = some x)) ∧
    (∃ (w : Win) (s : State),
    (w.sel = 1) ∧
    (routeV6 (w.data) = false) ∧
    (routeMatch s (routeVrf (w.data)) false (word (w.data) 4) (fld (word (w.data) 6) 0 1) = none)) ∧
    (∃ (r : Req) (s : State),
    (TableReady s r lpmPage)) ∧
    (∃ (r : Req) (k : Nat) (s : State),
    ((s.lpmQ.findIdx? fun c => c.r == r) = some k) ∧
    (engUp s 0 = true)) ∧
    (∃ (r : Req) (k : Nat) (s : State),
    ((s.lpmQ.findIdx? fun c => c.r == r) = some k) ∧
    ((s.lpmQ.take (k + 1)).any (fun c => routeOp c.op) = true) ∧
    (engUp s 0 = false)) :=
  ⟨⟨{ r := .HOST, p := lpmPage, sel := 1, idx := 0, data := 0xc00000070a00000000000000000000000000000000010018 }, (ofWords [0x00010018, 0, 0, 0, 0x0A000000, 0xC0000007]), ((up [1, 7, 8, 0xC0, 0xC1, 0xC2, 0xC3, 0xC4, 0xC5]).setH (.eng 0) 1),
    by decide +kernel⟩,
   ⟨{ r := .HOST, p := lpmPage, sel := 1, idx := 0, data := 0xc00000070a00000100000000000000000000000000010018 }, (ofWords [0x00010018, 0, 0, 0, 0x0A000001, 0xC0000007]), ((up [1, 7, 8, 0xC0, 0xC1, 0xC2, 0xC3, 0xC4, 0xC5]).setH (.eng 0) 1),
    by decide +kernel⟩,
   ⟨0, 0, (ofWords [0x00010018, 0, 0, 0, 0x0A000000, 0xC0000007]), (((up [1, 7, 8, 0xC0, 0xC1, 0xC2, 0xC3, 0xC4, 0xC5]).setH (.eng 0) 1).setReg Reg.LPM.UNITS_USED (((up [1, 7, 8, 0xC0, 0xC1, 0xC2, 0xC3, 0xC4, 0xC5]).setH (.eng 0) 1).reg Reg.LPM.UNITS_CAP)),
    by decide +kernel⟩,
   ⟨{ r := .HOST, p := lpmPage, sel := 1, idx := 0, data := 0xc00000070a00000000000000000000000000000000010018 }, 0, (ofWords [0x00010118, 0, 0, 0, 0x0A000000, 0xC0000007]), ((((up [1, 7, 8, 0xC0, 0xC1, 0xC2, 0xC3, 0xC4, 0xC5]).setH (.eng 0) 1).setTab lpmPage 1 0 (ofWords [0x00010118, 0, 0, 0, 0x0A000000, 0xC0000007])).regsSet [(Reg.LPM.UNITS_USED, 1), (Reg.LPM.ROUTES_V4, 1)]),
    by decide +kernel⟩,
   ⟨{ r := .HOST, p := lpmPage, sel := 1, idx := 0, data := 0xc00000070a00000000000000000000000000000000010018 }, ((up [1, 7, 8, 0xC0, 0xC1, 0xC2, 0xC3, 0xC4, 0xC5]).setH (.eng 0) 1),
    by decide +kernel⟩,
   ⟨{ r := .HOST, p := lpmPage, sel := 1, idx := 0, data := 0x80000009c00000070a00000000000000000000000000000000010018 }, 0, (ofWords [0x00010118, 0, 0, 0, 0x0A000000, 0xC0000007]), 0x80000009, ((((up [1, 7, 8, 0xC0, 0xC1, 0xC2, 0xC3, 0xC4, 0xC5]).setH (.eng 0) 1).setTab lpmPage 1 0 (ofWords [0x00010118, 0, 0, 0, 0x0A000000, 0xC0000007])).regsSet [(Reg.LPM.UNITS_USED, 1), (Reg.LPM.ROUTES_V4, 1)]),
    by decide +kernel⟩,
   ⟨{ r := .HOST, p := lpmPage, sel := 1, idx := 0, data := 0xc00000070a00000000000000000000000000000000010018 }, 0, (ofWords [0x00010118, 0, 0, 0, 0x0A000000, 0xC0000007]), ((((up [1, 7, 8, 0xC0, 0xC1, 0xC2, 0xC3, 0xC4, 0xC5]).setH (.eng 0) 1).setTab lpmPage 1 0 (ofWords [0x00010118, 0, 0, 0, 0x0A000000, 0xC0000007])).regsSet [(Reg.LPM.UNITS_USED, 1), (Reg.LPM.ROUTES_V4, 1)]),
    by decide +kernel⟩,
   ⟨{ r := .HOST, p := lpmPage, sel := 1, idx := 0, data := 0xa00005500000000000000000000000000010000 }, (0, (ofWords [0x00010118, 0, 0, 0, 0x0A000000, 0xC0000007])), ((((up [1, 7, 8, 0xC0, 0xC1, 0xC2, 0xC3, 0xC4, 0xC5]).setH (.eng 0) 1).setTab lpmPage 1 0 (ofWords [0x00010118, 0, 0, 0, 0x0A000000, 0xC0000007])).regsSet [(Reg.LPM.UNITS_USED, 1), (Reg.LPM.ROUTES_V4, 1)]),
    by decide +kernel⟩,
   ⟨{ r := .HOST, p := lpmPage, sel := 1, idx := 0, data := 0xb00005500000000000000000000000000010000 }, ((((up [1, 7, 8, 0xC0, 0xC1, 0xC2, 0xC3, 0xC4, 0xC5]).setH (.eng 0) 1).setTab lpmPage 1 0 (ofWords [0x00010118, 0, 0, 0, 0x0A000000, 0xC0000007])).regsSet [(Reg.LPM.UNITS_USED, 1), (Reg.LPM.ROUTES_V4, 1)]),
    by decide +kernel⟩,
   ⟨.HOST, (up [1, 7, 8, 0xC0, 0xC1, 0xC2, 0xC3, 0xC4, 0xC5]),
    by decide +kernel⟩,
   ⟨.HOST, 0, { ((up [1, 7, 8, 0xC0, 0xC1, 0xC2, 0xC3, 0xC4, 0xC5]).setH (.eng 0) 1) with lpmQ := [{ r := .HOST, op := 0x13, sel := 1, idx := 0, data := 0 }] },
    by decide +kernel⟩,
   ⟨.HOST, 0, { (up [1, 7, 8, 0xC0, 0xC1, 0xC2, 0xC3, 0xC4, 0xC5]) with lpmQ := [{ r := .HOST, op := 0x13, sel := 1, idx := 0, data := 0 }] },
    by decide +kernel⟩⟩

theorem meets_LearningAndAgeing :
    (∃ (g : Fin 8) (s : State),
    (s.live l2Page = true)) ∧
    (∃ (u : Learn) (pos : Nat) (s : State),
    (l2Find s u.g u.mac u.bd = none) ∧
    (insertPos s (.l2 u.g) (entKey (.l2 u.g) (ofWords [u.mac / 65536, u.mac % 65536 * 65536 + u.bd, 3 * 2 ^ 30 + s.hn .ageNow * 2 ^ 24 + u.port])) = some pos)) ∧
    (∃ (u : Learn) (pos e : Nat) (s : State),
    (l2Find s u.g u.mac u.bd = some (pos, e)) ∧
    (fld (word e 2) 30 2 = 3) ∧
    (l2Port e = u.port)) ∧
    (∃ (u : Learn) (pos e : Nat) (s : State),
    (l2Find s u.g u.mac u.bd = some (pos, e)) ∧
    (fld (word e 2) 30 2 = 3) ∧
    (l2Port e ≠ u.port) ∧
    (bit (word e 2) 29 = true)) ∧
    (∃ (g pos port : Nat) (s : State),
    (fld (word (s.tab l2Page (1 + g) pos) 2) 20 4 ≠ 0) ∧
    ((s.hn .moveNow + 16 - fld (word (s.tab l2Page (1 + g) pos) 2) 16 4) % 16 < s.rfld Reg.L2.MOVE_CFG 8 4) ∧
    (s.rfld Reg.L2.MOVE_CFG 0 4 < fld (word (s.tab l2Page (1 + g) pos) 2) 20 4 + 1)) ∧
    (∃ (s : State),
    (s.live l2Page = true)) ∧
    (∃ (s : State),
    (s.live l2Page = true)) ∧
    (∃ (g : Fin 8) (pos : Fin 266240) (s : State),
    (s.live l2Page = true)) ∧
    (∃ (g : Fin 8) (pos : Fin 266240) (s : State),
    (s.live l2Page = true)) ∧
    (∃ (g : Fin 8) (pos : Fin 266240) (s : State),
    (s.live l2Page = true)) ∧
    (∃ (g pos seen : Nat) (mp : Bool) (s : State),
    (entKey (.l2 g) (s.tab l2Page (1 + g) pos) = entKey (.l2 g) seen) ∧
    (fld (word (s.tab l2Page (1 + g) pos) 2) 24 4 = fld (word seen 2) 24 4) ∧
    (entVis (.l2 g) (s.tab l2Page (1 + g) pos) ≠ 0)) ∧
    (∃ (g pos seen : Nat) (mp : Bool) (s : State),
    (fld (word (s.tab l2Page (1 + g) pos) 2) 24 4 ≠ fld (word seen 2) 24 4)) ∧
    (∃ (r : Req) (v : W32) (s : State),
    (Admits s r Reg.L2.NOTIFY_POP)) ∧
    (∃ (v : Nat) (s : State),
    (bit v 0 = true)) ∧
    (∃ (n : Nat) (s : State),
    (16384 ≤ s.notify.length)) :=
  ⟨⟨0, { (up [1, 7, 8, 0xC0, 0xC1, 0xC2, 0xC3, 0xC4, 0xC5]) with learnQ := [⟨0, .insert, 5, 7, 9⟩] },
    by decide +kernel⟩,
   ⟨⟨0, .insert, 5, 7, 9⟩, ((insertPos (up [0xC4]) (.l2 0) (7 * 2 ^ 48 + 5)).getD 0), (up [0xC4]),
    by decide +kernel⟩,
   ⟨⟨0, .refresh, 0x1122334455, 7, 9⟩, 262144, (ofWords [0x00112233, 0x44550007, 3 * 2 ^ 30 + 9]), (up [0xC4]).setTab l2Page 1 262144 (ofWords [0x00112233, 0x44550007, 3 * 2 ^ 30 + 9]),
    by decide +kernel⟩,
   ⟨⟨0, .move, 0x1122334455, 7, 8⟩, 262144, (ofWords [0x00112233, 0x44550007, 3 * 2 ^ 30 + 2 ^ 29 + 9]), (up [0xC4]).setTab l2Page 1 262144 (ofWords [0x00112233, 0x44550007, 3 * 2 ^ 30 + 2 ^ 29 + 9]),
    by decide +kernel⟩,
   ⟨0, 262144, 8, ((up [0xC4]).setTab l2Page 1 262144 (ofWords [0x00112233, 0x44550007, 3 * 2 ^ 30 + 5 * 2 ^ 20 + 9])).setReg Reg.L2.MOVE_CFG 0x405,
    by decide +kernel⟩,
   ⟨(up [1, 0xC4]),
    by decide +kernel⟩,
   ⟨(up [1, 0xC4]),
    by decide +kernel⟩,
   ⟨0, 262144, (up [1, 7, 8, 0xC0, 0xC1, 0xC2, 0xC3, 0xC4, 0xC5]),
    by decide +kernel⟩,
   ⟨0, 262144, (up [1, 7, 8, 0xC0, 0xC1, 0xC2, 0xC3, 0xC4, 0xC5]),
    by decide +kernel⟩,
   ⟨0, 262144, (up [1, 7, 8, 0xC0, 0xC1, 0xC2, 0xC3, 0xC4, 0xC5]),
    by decide +kernel⟩,
   ⟨0, 262144, (ofWords [0x00112233, 0x44550007, 3 * 2 ^ 30 + 9]), false, (((up [0xC4]).setTab l2Page 1 262144 (ofWords [0x00112233, 0x44550007, 3 * 2 ^ 30 + 9])).setReg Reg.L2.AGE_CFG 0x30003).setH .ageNow 3,
    by decide +kernel⟩,
   ⟨0, 262144, (ofWords [0x00112233, 0x44550007, 3 * 2 ^ 30 + 9]), false, (((up [0xC4]).setTab l2Page 1 262144 ((ofWords [0x00112233, 0x44550007, 3 * 2 ^ 30 + 9]) + 2 ^ 88)).setReg Reg.L2.AGE_CFG 0x30003).setH .ageNow 3,
    by decide +kernel⟩,
   ⟨.HOST, 1, { (up [1, 7, 8, 0xC0, 0xC1, 0xC2, 0xC3, 0xC4, 0xC5]) with notify := [5, 6] },
    by decide +kernel⟩,
   ⟨1, { (up [1, 7, 8, 0xC0, 0xC1, 0xC2, 0xC3, 0xC4, 0xC5]) with notify := [5, 6] },
    by decide +kernel⟩,
   ⟨5, { (up [1, 7, 8, 0xC0, 0xC1, 0xC2, 0xC3, 0xC4, 0xC5]) with notify := List.replicate 16384 0 },
    by decide +kernel⟩⟩

theorem meets_FlipsAndScrubbing :
    (∃ (r : Req) (v : W32) (s : State) (w : State),
    (Admits s r Reg.CAPO.FLIP_CMD) ∧
    (firstWrite r s = w) ∧
    (s.rbit (Reg.BLK_CTL capoPage) 0 = true) ∧
    (bit v.toNat 0 = true) ∧
    (w.h .capoState = 0) ∧
    (w.hb .flipPending = false)) ∧
    (∃ (r : Req) (v : W32) (s : State) (w : State),
    (Admits s r Reg.CAPO.FLIP_CMD) ∧
    (firstWrite r s = w) ∧
    (s.rbit (Reg.BLK_CTL capoPage) 0 = true) ∧
    (bit v.toNat 0 = true) ∧
    (w.h .capoState ≠ 0)) ∧
    (∃ (r : Req) (v : W32) (s : State) (w : State),
    (Admits s r Reg.CAPO.FLIP_CMD) ∧
    (firstWrite r s = w) ∧
    (s.rbit (Reg.BLK_CTL capoPage) 0 = false) ∧
    (bit v.toNat 0 = true)) ∧
    (∃ (r : Req) (v : W32) (s : State) (w : State),
    (Admits s r Reg.CAPO.FLIP_ARM) ∧
    (firstWrite r s = w) ∧
    (s.rbit (Reg.BLK_CTL capoPage) 0 = true) ∧
    (fld v.toNat 0 2 = 1) ∧
    (bit v.toNat 0 = true) ∧
    (w.h .capoState = 0) ∧
    (w.hb .flipPending = false) ∧
    (w.reg Reg.CAPO.FLIP_NS ≤ 999999999) ∧
    (w.tb + 1000 * unitsNs ≤ flipTime w)) ∧
    (∃ (r : Req) (v : W32) (s : State) (w : State),
    (Admits s r Reg.CAPO.FLIP_ARM) ∧
    (firstWrite r s = w) ∧
    (s.rbit (Reg.BLK_CTL capoPage) 0 = true) ∧
    (fld v.toNat 0 2 = 1) ∧
    (bit v.toNat 0 = true) ∧
    (flipTime w < w.tb + 1000 * unitsNs)) ∧
    (∃ (r : Req) (v : W32) (s : State) (w : State),
    (Admits s r Reg.CAPO.FLIP_ARM) ∧
    (firstWrite r s = w) ∧
    (s.rbit (Reg.BLK_CTL capoPage) 0 = true) ∧
    (fld v.toNat 0 2 = 2) ∧
    (bit v.toNat 0 = false) ∧
    (w.h .capoState = 1)) ∧
    (∃ (r : Req) (v : W32) (s : State) (w : State),
    (Admits s r Reg.CAPO.FLIP_ARM) ∧
    (firstWrite r s = w) ∧
    (s.rbit (Reg.BLK_CTL capoPage) 0 = true) ∧
    (fld v.toNat 0 2 = 2) ∧
    (bit v.toNat 0 = false) ∧
    (w.h .capoState ≠ 1)) ∧
    (∃ (s : State),
    (s.live capoPage = true) ∧
    (s.h .capoState = 1)) ∧
    (∃ (s : State),
    (s.h .capoState ≠ 1)) ∧
    (∃ (r : Req) (v : W32) (s : State),
    (Admits s r Reg.CAPO.FLIP_CMD)) ∧
    (∃ (r : Req) (v : W32) (s : State),
    (Admits s r Reg.CAPO.FLIP_ARM)) ∧
    (∃ (r : Req) (v : W32) (s : State),
    (Admits s r Reg.CAPO.FLIP_ARM)) ∧
    (∃ (p : Fin 8192) (sel : Fin 256) (i : Nat) (ok : Bool) (s : State),
    (ok = true ∨ scrubbed p sel = false)) ∧
    (∃ (p : Fin 8192) (sel : Fin 256) (i : Nat) (s : State),
    (s.live p = true) ∧
    (scrubbed p sel = true) ∧
    (p.val ≠ l2Page)) ∧
    (∃ (g : Fin 8) (i : Nat) (s : State) (w : State),
    (s.live l2Page = true) ∧
    (w = raiseFault l2Page 3 2 i (errBy l2Page 0x07 5 (1 + g.val) i (bump (Reg.L2.SCRUB_ERR g) s))) ∧
    (fld (word (w.tab l2Page (1 + g.val) i) 2) 30 2 = 3) ∧
    (bit (word (w.tab l2Page (1 + g.val) i) 2) 29 = false)) ∧
    (∃ (i : Nat) (ok : Bool) (s : State),
    (parBad s lpmPage 1 i = false ∨ engUp s 0 = false)) ∧
    (∃ (i : Nat) (s : State),
    (s.live lpmPage = true) ∧
    (parBad s lpmPage 1 i = true) ∧
    (engUp s 0 = true)) ∧
    (∃ (i : Nat) (s : State),
    (s.live lpmPage = true) ∧
    (parBad s lpmPage 1 i = true) ∧
    (engUp s 0 = true)) ∧
    (∃ (p : Fin 8192) (sel : Fin 256) (idx : Nat) (ok : Bool) (s : State),
    (s.live p = true)) ∧
    (∃ (idx : Nat) (storeOk : Bool) (s : State),
    (s.live lpmPage = true)) :=
  ⟨⟨.HOST, 1, (up [1, 7, 8, 0xB0, 0xC0, 0xC1, 0xC2, 0xC3, 0xC4]), (firstWrite .HOST ((up [1, 7, 8, 0xB0, 0xC0, 0xC1, 0xC2, 0xC3, 0xC4]))),
    by decide +kernel⟩,
   ⟨.HOST, 1, (up [1, 7, 8, 0xB0, 0xC0, 0xC1, 0xC2, 0xC3, 0xC4]).setH .capoState 4, (firstWrite .HOST ((up [1, 7, 8, 0xB0, 0xC0, 0xC1, 0xC2, 0xC3, 0xC4]).setH .capoState 4)),
    by decide +kernel⟩,
   ⟨.HOST, 1, (up [1, 7, 8, 0xB0, 0xC0, 0xC1, 0xC2, 0xC3, 0xC4]).setReg (Reg.BLK_CTL 8) 0, (firstWrite .HOST ((up [1, 7, 8, 0xB0, 0xC0, 0xC1, 0xC2, 0xC3, 0xC4]).setReg (Reg.BLK_CTL 8) 0)),
    by decide +kernel⟩,
   ⟨.HOST, 1, (up [1, 7, 8, 0xB0, 0xC0, 0xC1, 0xC2, 0xC3, 0xC4]).setReg Reg.CAPO.FLIP_SEC_LO 1, (firstWrite .HOST ((up [1, 7, 8, 0xB0, 0xC0, 0xC1, 0xC2, 0xC3, 0xC4]).setReg Reg.CAPO.FLIP_SEC_LO 1)),
    by decide +kernel⟩,
   ⟨.HOST, 1, (up [1, 7, 8, 0xB0, 0xC0, 0xC1, 0xC2, 0xC3, 0xC4]), (firstWrite .HOST ((up [1, 7, 8, 0xB0, 0xC0, 0xC1, 0xC2, 0xC3, 0xC4]))),
    by decide +kernel⟩,
   ⟨.HOST, 2, (up [1, 7, 8, 0xB0, 0xC0, 0xC1, 0xC2, 0xC3, 0xC4]).setH .capoState 1, (firstWrite .HOST ((up [1, 7, 8, 0xB0, 0xC0, 0xC1, 0xC2, 0xC3, 0xC4]).setH .capoState 1)),
    by decide +kernel⟩,
   ⟨.HOST, 2, (up [1, 7, 8, 0xB0, 0xC0, 0xC1, 0xC2, 0xC3, 0xC4]), (firstWrite .HOST ((up [1, 7, 8, 0xB0, 0xC0, 0xC1, 0xC2, 0xC3, 0xC4]))),
    by decide +kernel⟩,
   ⟨((up [1, 7, 8, 0xB0, 0xC0, 0xC1, 0xC2, 0xC3, 0xC4]).setH .capoState 1).setReg Reg.CAPO.FLIP_SEC_LO 1,
    by decide +kernel⟩,
   ⟨(up [1, 7, 8, 0xB0, 0xC0, 0xC1, 0xC2, 0xC3, 0xC4]),
    by decide +kernel⟩,
   ⟨.HOST, 1, (up [1, 7, 8, 0xB0, 0xC0, 0xC1, 0xC2, 0xC3, 0xC4]),
    by decide +kernel⟩,
   ⟨.HOST, 1, (up [1, 7, 8, 0xB0, 0xC0, 0xC1, 0xC2, 0xC3, 0xC4]).setReg Reg.CAPO.FLIP_SEC_LO 1,
    by decide +kernel⟩,
   ⟨.HOST, 2, (up [1, 7, 8, 0xB0, 0xC0, 0xC1, 0xC2, 0xC3, 0xC4]).setH .capoState 1,
    by decide +kernel⟩,
   ⟨0xC1, 1, 5, true, (up [1, 7, 8, 0xB0, 0xC0, 0xC1, 0xC2, 0xC3, 0xC4]),
    by decide +kernel⟩,
   ⟨0xC1, 1, 5, (up [1, 7, 8, 0xB0, 0xC0, 0xC1, 0xC2, 0xC3, 0xC4]),
    by decide +kernel⟩,
   ⟨0, 262144, ((up [1, 7, 8, 0xB0, 0xC0, 0xC1, 0xC2, 0xC3, 0xC4]).setTab l2Page 1 262144 (ofWords [0x00112233, 0x44550007, 3 * 2 ^ 30 + 9])), (raiseFault l2Page 3 2 262144 (errBy l2Page 0x07 5 1 262144 (bump (Reg.L2.SCRUB_ERR 0) ((up [1, 7, 8, 0xB0, 0xC0, 0xC1, 0xC2, 0xC3, 0xC4]).setTab l2Page 1 262144 (ofWords [0x00112233, 0x44550007, 3 * 2 ^ 30 + 9]))))),
    by decide +kernel⟩,
   ⟨5, true, (up [1, 7, 8, 0xB0, 0xC0, 0xC1, 0xC2, 0xC3, 0xC4]),
    by decide +kernel⟩,
   ⟨5, (setParBad lpmPage 1 5 true (up [1, 7, 8, 0xB0, 0xC0, 0xC1, 0xC2, 0xC3, 0xC4])).setH (.eng 0) 1,
    by decide +kernel⟩,
   ⟨5, (setParBad lpmPage 1 5 true (up [1, 7, 8, 0xB0, 0xC0, 0xC1, 0xC2, 0xC3, 0xC4])).setH (.eng 0) 1,
    by decide +kernel⟩,
   ⟨0xC1, 1, 5, false, (up [1, 7, 8, 0xB0, 0xC0, 0xC1, 0xC2, 0xC3, 0xC4]),
    by decide +kernel⟩,
   ⟨5, true, (setParBad lpmPage 1 5 true (up [1, 7, 8, 0xB0, 0xC0, 0xC1, 0xC2, 0xC3, 0xC4])).setH (.eng 0) 1,
    by decide +kernel⟩⟩

theorem meets_GenerationCycle :
    (∃ (s : State),
    (s.hb .flipPending = false)) ∧
    (∃ (s : State),
    (s.clocked capoPage = true) ∧
    (s.hb .flipPending = true)) ∧
    (∃ (s : State),
    (s.pllOk = true) ∧
    (s.h .capoState = 2) ∧
    (s.hb .flipPending = false) ∧
    (s.h (.inFlight (oldParity s)) = 0)) ∧
    (∃ (s : State),
    (s.h (.inFlight (oldParity s)) ≠ 0)) ∧
    (∃ (s : State),
    (s.pllOk = true) ∧
    (s.h .capoState = 3)) ∧
    (∃ (s : State),
    (s.pllOk = true) ∧
    (s.h .capoState = 2 ∨ s.h .capoState = 3) ∧
    (s.hb .flipPending = false) ∧
    (s.hb .capoTimeout = false)) ∧
    (∃ (r : Req) (v : W32) (s : State) (w : State),
    (Admits s r Reg.CAPO.DRAIN_FORCE) ∧
    (firstWrite r s = w) ∧
    (s.rbit (Reg.BLK_CTL capoPage) 0 = true) ∧
    (bit v.toNat 0 = true) ∧
    (w.hb .capoTimeout = true) ∧
    (w.h .capoState = 2)) ∧
    (∃ (r : Req) (v : W32) (s : State) (w : State),
    (Admits s r Reg.CAPO.DRAIN_FORCE) ∧
    (firstWrite r s = w) ∧
    (s.rbit (Reg.BLK_CTL capoPage) 0 = true) ∧
    (bit v.toNat 0 = true) ∧
    (w.hb .capoTimeout = false)) ∧
    (∃ (p : Fin 8192) (sel : Fin 256) (i : Nat) (s : State) (t : HTab) (b : Nat),
    (sweeping s = true) ∧
    (sweptHere s p sel = true) ∧
    (i < 2 ^ 32) ∧
    (hashTab p sel = some t) ∧
    (visAt p sel = some b) ∧
    (p.val ≠ adjPage) ∧
    (p.val ≠ tcamPage) ∧
    (p.val ≠ lpmPage) ∧
    (oldParity s ≤ 1) ∧
    (fld (s.tab p sel i) b 2 = 2 ^ oldParity s)) ∧
    (∃ (p : Fin 8192) (sel : Fin 256) (i : Nat) (s : State) (t : HTab) (b : Nat),
    (sweeping s = true) ∧
    (sweptHere s p sel = true) ∧
    (i < 2 ^ 32) ∧
    (hashTab p sel = some t) ∧
    (visAt p sel = some b) ∧
    (p.val ≠ adjPage) ∧
    (p.val ≠ tcamPage) ∧
    (p.val ≠ lpmPage) ∧
    (oldParity s ≤ 1) ∧
    (sweepTwin s p sel i b = none) ∧
    (fld (s.tab p sel i) b 2 = 2 ^ (1 - oldParity s))) ∧
    (∃ (s : State),
    (sweeping s = true) ∧
    (engUp s 0 = true) ∧
    ((∀ t ∈ sweptTables, s.tabList t.1 t.2 = []))) ∧
    (∃ (p : Fin 8192) (sel : Fin 256) (i j : Nat) (s : State) (b : Nat),
    (sweeping s = true) ∧
    (sweptHere s p sel = true) ∧
    (i < 2 ^ 32) ∧
    (visAt p sel = some b) ∧
    (p.val ≠ adjPage) ∧
    (p.val ≠ tcamPage) ∧
    (p.val ≠ lpmPage) ∧
    (sweepTwin s p sel i b = some j) ∧
    (fld (s.tab p sel i) b 2 = 2 ^ (1 - oldParity s))) ∧
    (∃ (p : Fin 8192) (sel : Fin 256) (i : Nat) (s : State),
    (s.h .capoState ≠ 4)) ∧
    (∃ (p : Fin 8192) (sel : Fin 256) (i : Nat) (s : State),
    (sweeping s = true) ∧
    (sweptHere s p sel = true)) ∧
    (∃ (r : Req) (v : W32) (s : State),
    (Admits s r Reg.CAPO.DRAIN_FORCE)) :=
  ⟨⟨(up [1, 7, 8, 0xB0, 0xC0, 0xC1, 0xC2, 0xC3, 0xC4]),
    by decide +kernel⟩,
   ⟨((up [1, 7, 8, 0xB0, 0xC0, 0xC1, 0xC2, 0xC3, 0xC4]).setH .capoState 2).setH .flipPending 1,
    by decide +kernel⟩,
   ⟨(up [1, 7, 8, 0xB0, 0xC0, 0xC1, 0xC2, 0xC3, 0xC4]).setH .capoState 2,
    by decide +kernel⟩,
   ⟨((up [1, 7, 8, 0xB0, 0xC0, 0xC1, 0xC2, 0xC3, 0xC4]).setH .capoState 2).setH (.inFlight 1) 3,
    by decide +kernel⟩,
   ⟨(up [1, 7, 8, 0xB0, 0xC0, 0xC1, 0xC2, 0xC3, 0xC4]).setH .capoState 3,
    by decide +kernel⟩,
   ⟨(up [1, 7, 8, 0xB0, 0xC0, 0xC1, 0xC2, 0xC3, 0xC4]).setH .capoState 2,
    by decide +kernel⟩,
   ⟨.HOST, 1, (((up [1, 7, 8, 0xB0, 0xC0, 0xC1, 0xC2, 0xC3, 0xC4]).setH .capoState 2).setH .capoTimeout 1).setH (.inFlight 1) 3, (firstWrite .HOST ((((up [1, 7, 8, 0xB0, 0xC0, 0xC1, 0xC2, 0xC3, 0xC4]).setH .capoState 2).setH .capoTimeout 1).setH (.inFlight 1) 3)),
    by decide +kernel⟩,
   ⟨.HOST, 1, (up [1, 7, 8, 0xB0, 0xC0, 0xC1, 0xC2, 0xC3, 0xC4]).setH .capoState 2, (firstWrite .HOST ((up [1, 7, 8, 0xB0, 0xC0, 0xC1, 0xC2, 0xC3, 0xC4]).setH .capoState 2)),
    by decide +kernel⟩,
   ⟨0xC1, 1, 5, ((((up [1, 7, 8, 0xB0, 0xC0, 0xC1, 0xC2, 0xC3, 0xC4]).setH .capoState 4).setH (.eng 2) 1).setTab 0xC1 1 5 (2 ^ 63)), .mpls, 62,
    by decide +kernel⟩,
   ⟨0xC1, 1, 5, ((((up [1, 7, 8, 0xB0, 0xC0, 0xC1, 0xC2, 0xC3, 0xC4]).setH .capoState 4).setH (.eng 2) 1).setTab 0xC1 1 5 (2 ^ 62)), .mpls, 62,
    by decide +kernel⟩,
   ⟨((((up [1, 7, 8, 0xB0, 0xC0, 0xC1, 0xC2, 0xC3, 0xC4]).setH .capoState 4).setH (.eng 2) 1).setH (.eng 0) 1),
    by decide +kernel⟩,
   ⟨0xC1, 1, 5, 0, (((((up [1, 7, 8, 0xB0, 0xC0, 0xC1, 0xC2, 0xC3, 0xC4]).setH .capoState 4).setH (.eng 2) 1).setTab 0xC1 1 5 (2 ^ 62)).setTab 0xC1 1 0 (2 ^ 63)), 62,
    by decide +kernel⟩,
   ⟨0xC1, 1, 5, (up [1, 7, 8, 0xB0, 0xC0, 0xC1, 0xC2, 0xC3, 0xC4]),
    by decide +kernel⟩,
   ⟨0xC1, 1, 5, ((((up [1, 7, 8, 0xB0, 0xC0, 0xC1, 0xC2, 0xC3, 0xC4]).setH .capoState 4).setH (.eng 2) 1).setTab 0xC1 1 5 (2 ^ 63)),
    by decide +kernel⟩,
   ⟨.HOST, 1, (((up [1, 7, 8, 0xB0, 0xC0, 0xC1, 0xC2, 0xC3, 0xC4]).setH .capoState 2).setH .capoTimeout 1).setH (.inFlight 1) 3,
    by decide +kernel⟩⟩

theorem meets_AdmissionTest :
    (∃ (q : Fin 393216) (cy : Bool) (s : State),
    (s.firstAt (.toQ q) = none)) ∧
    (∃ (q : Fin 393216) (cy : Bool) (f : Frame) (s : State),
    (s.firstAt (.toQ q) = some f) ∧
    ((carriedBy s (queueReqr q)).isSome = false) ∧
    (s.live qmgrPage = true) ∧
    (isVoq q = true) ∧
    (bit (s.tab qmgrPage 2 (q.val / 8)) 31 = false)) ∧
    (∃ (q : Fin 393216) (cy : Bool) (f : Frame) (s : State),
    (s.firstAt (.toQ q) = some f) ∧
    (s.live qmgrPage = false)) ∧
    (∃ (q : Fin 393216) (f : Frame) (g x : Nat) (js : List Nat) (s : State) (w : State) (t : State),
    (s.firstAt (.toQ q) = some f) ∧
    ((carriedBy s (queueReqr q)).isSome = false) ∧
    (s.live qmgrPage = true) ∧
    (isVoq q = true) ∧
    (bit (s.tab qmgrPage 2 (q.val / 8)) 31 = true) ∧
    (s.hb (.stuck (engineUnit q)) = false) ∧
    (s.live cellPage = true) ∧
    (f.pre = []) ∧
    (deepEntry q (charge f) s = w) ∧
    (anyCarried w = false) ∧
    (admTest w q f = (g, x, none)) ∧
    (grantCells (queueReqr q) (ownerOf q) (g + x) w = (some js, t))) ∧
    (∃ (q : Fin 393216) (cy : Bool) (f : Frame) (g x : Nat) (s : State) (w : State),
    (s.firstAt (.toQ q) = some f) ∧
    ((carriedBy s (queueReqr q)).isSome = false) ∧
    (s.live qmgrPage = true) ∧
    (isVoq q = true) ∧
    (bit (s.tab qmgrPage 2 (q.val / 8)) 31 = true) ∧
    (s.hb (.stuck (engineUnit q)) = false) ∧
    (s.live cellPage = true) ∧
    (f.pre = []) ∧
    (deepEntry q (charge f) s = w) ∧
    ((cy || anyCarried w) = true) ∧
    (admTest w q f = (g, x, none))) ∧
    (∃ (q : Fin 393216) (cy : Bool) (f : Frame) (g x : Nat) (y : Why) (s : State) (w : State),
    (s.firstAt (.toQ q) = some f) ∧
    ((carriedBy s (queueReqr q)).isSome = false) ∧
    (s.live qmgrPage = true) ∧
    (isVoq q = true) ∧
    (bit (s.tab qmgrPage 2 (q.val / 8)) 31 = true) ∧
    (s.hb (.stuck (engineUnit q)) = false) ∧
    (s.live cellPage = true) ∧
    (deepEntry q (charge f) s = w) ∧
    (admTest w q f = (g, x, some y))) ∧
    (∃ (q g x : Nat) (f : Frame) (y : Why) (s : State),
    (y ≠ .stage) ∧
    (pushNeed s q f g x y = none) ∧
    (f.ring = 0)) ∧
    (∃ (q : Nat) (f : Frame) (s : State),
    (s.h (.qstate q) ≠ 1) ∧
    (fld (admW s q 4) 0 28 = 0)) :=
  ⟨⟨3, false, (up [1, 7, 8, 11, 0xC3, 0xD0, 0xD4, 0xD5]),
    by decide +kernel⟩,
   ⟨3, false, { id := 1, loc := .toQ 3, bytes := List.replicate 60 0, cls := 3 }, { (up [1, 7, 8, 11, 0xC3, 0xD0, 0xD4, 0xD5]) with frames := [{ id := 1, loc := .toQ 3, bytes := List.replicate 60 0, cls := 3 }] },
    by decide +kernel⟩,
   ⟨3, false, { id := 1, loc := .toQ 3, bytes := List.replicate 60 0, cls := 3 }, ({ (up [1, 7, 8, 11, 0xC3, 0xD0, 0xD4, 0xD5]) with frames := [{ id := 1, loc := .toQ 3, bytes := List.replicate 60 0, cls := 3 }] }).setReg (Reg.BLK_CTL 0xD0) 0,
    by decide +kernel⟩,
   ⟨3, { id := 1, loc := .toQ 3, bytes := List.replicate 60 0, cls := 3 }, 0, 1, [0], { (((up [1, 7, 8, 11, 0xC3, 0xD0, 0xD4, 0xD5]).setTab qmgrPage 2 0 (2 ^ 31)).regsSet [(Reg.CELL.PART_SHARED 0, 1000), (Reg.CELL.PART_HEAD 0, 10)]) with frames := [{ id := 1, loc := .toQ 3, bytes := List.replicate 60 0, cls := 3 }] }, { (((up [1, 7, 8, 11, 0xC3, 0xD0, 0xD4, 0xD5]).setTab qmgrPage 2 0 (2 ^ 31)).regsSet [(Reg.CELL.PART_SHARED 0, 1000), (Reg.CELL.PART_HEAD 0, 10)]) with frames := [{ id := 1, loc := .toQ 3, bytes := List.replicate 60 0, cls := 3 }] }, ((grantCells (queueReqr 3) 1 1 { (((up [1, 7, 8, 11, 0xC3, 0xD0, 0xD4, 0xD5]).setTab qmgrPage 2 0 (2 ^ 31)).regsSet [(Reg.CELL.PART_SHARED 0, 1000), (Reg.CELL.PART_HEAD 0, 10)]) with frames := [{ id := 1, loc := .toQ 3, bytes := List.replicate 60 0, cls := 3 }] }).2),
    by decide +kernel⟩,
   ⟨3, true, { id := 1, loc := .toQ 3, bytes := List.replicate 60 0, cls := 3 }, 0, 1, { (((up [1, 7, 8, 11, 0xC3, 0xD0, 0xD4, 0xD5]).setTab qmgrPage 2 0 (2 ^ 31)).regsSet [(Reg.CELL.PART_SHARED 0, 1000), (Reg.CELL.PART_HEAD 0, 10)]) with frames := [{ id := 1, loc := .toQ 3, bytes := List.replicate 60 0, cls := 3 }] }, { (((up [1, 7, 8, 11, 0xC3, 0xD0, 0xD4, 0xD5]).setTab qmgrPage 2 0 (2 ^ 31)).regsSet [(Reg.CELL.PART_SHARED 0, 1000), (Reg.CELL.PART_HEAD 0, 10)]) with frames := [{ id := 1, loc := .toQ 3, bytes := List.replicate 60 0, cls := 3 }] },
    by decide +kernel⟩,
   ⟨3, false, { id := 1, loc := .toQ 3, bytes := List.replicate 60 0, cls := 3 }, 0, 1, .shared, { (((up [1, 7, 8, 11, 0xC3, 0xD0, 0xD4, 0xD5]).setTab qmgrPage 2 0 (2 ^ 31)).regsSet [(Reg.CELL.PART_SHARED 0, 1000), (Reg.CELL.PART_HEAD 0, 10)]).setReg (Reg.CELL.PART_SHARED 0) 0 with frames := [{ id := 1, loc := .toQ 3, bytes := List.replicate 60 0, cls := 3 }] }, { (((up [1, 7, 8, 11, 0xC3, 0xD0, 0xD4, 0xD5]).setTab qmgrPage 2 0 (2 ^ 31)).regsSet [(Reg.CELL.PART_SHARED 0, 1000), (Reg.CELL.PART_HEAD 0, 10)]).setReg (Reg.CELL.PART_SHARED 0) 0 with frames := [{ id := 1, loc := .toQ 3, bytes := List.replicate 60 0, cls := 3 }] },
    by decide +kernel⟩,
   ⟨3, 0, 1, { id := 1, loc := .toQ 3, bytes := List.replicate 60 0, cls := 3 }, .shared, { (((up [1, 7, 8, 11, 0xC3, 0xD0, 0xD4, 0xD5]).setTab qmgrPage 2 0 (2 ^ 31)).regsSet [(Reg.CELL.PART_SHARED 0, 1000), (Reg.CELL.PART_HEAD 0, 10)]) with frames := [{ id := 1, loc := .toQ 3, bytes := List.replicate 60 0, cls := 3 }] },
    by decide +kernel⟩,
   ⟨3, { id := 1, loc := .toQ 3, bytes := List.replicate 60 0, cls := 3 }, (up [1, 7, 8, 11, 0xC3, 0xD0, 0xD4, 0xD5]),
    by decide +kernel⟩⟩

theorem meets_PushOutAndTails :
    (∃ (q id : Nat) (f : Frame) (s : State),
    (s.frame id = some f)) ∧
    (∃ (rq q j : Nat) (f : Frame) (s : State) (t : State),
    (carriedBy s rq = some f) ∧
    (f.loc = .carried q) ∧
    (grantBuf rq 0 (ownerOf q) s = (some j, t))) ∧
    (∃ (rq q : Nat) (f : Frame) (s : State) (t : State),
    (carriedBy s rq = some f) ∧
    (f.loc = .carried q) ∧
    (grantBuf rq 0 (ownerOf q) s = (none, t))) ∧
    (∃ (q : Fin 393216) (ue : Bool) (f0 f : Frame) (s : State) (w : State),
    ((s.frames.find? fun f => f.q == q.val && lacksCell f) = some f0) ∧
    (s.live cellPage = true) ∧
    (serveAhead (queueReqr q) s = w) ∧
    ((w.frames.find? fun f => f.q == q.val && lacksCell f) = some f) ∧
    (w.reg (Reg.CELL.PART_SHARED (partOf w q)) + w.reg (Reg.CELL.PART_HEAD (partOf w q)) ≤ w.reg (Reg.CELL.PART_SH (partOf w q)))) ∧
    (∃ (q : Fin 393216) (ue : Bool) (f : Frame) (s : State),
    ((s.frames.find? fun f => f.q == q.val && lacksCell f) = some f) ∧
    (s.live cellPage = false) ∧
    (s.clocked cellPage = true)) ∧
    (∃ (q : Fin 393216) (ue : Bool) (f0 f : Frame) (j : Nat) (s : State) (w : State) (t : State),
    ((s.frames.find? fun f => f.q == q.val && lacksCell f) = some f0) ∧
    (s.live cellPage = true) ∧
    (serveAhead (queueReqr q) s = w) ∧
    ((w.frames.find? fun f => f.q == q.val && lacksCell f) = some f) ∧
    (w.reg (Reg.CELL.PART_SH (partOf w q)) < w.reg (Reg.CELL.PART_SHARED (partOf w q)) + w.reg (Reg.CELL.PART_HEAD (partOf w q))) ∧
    (grantBuf (queueReqr q) 0 (ownerOf q) w = (some j, t)) ∧
    (f.loc = .queued q) ∧
    (t.h (.qstate q) = 0)) ∧
    (∃ (q : Fin 393216) (ue : Bool) (s : State),
    ((s.frames.find? fun f => f.q == q.val && lacksCell f) = none)) ∧
    (∃ (cy : Bool) (f : Frame) (s : State),
    ((s.allAt .toHost).find? (·.full) = some f) ∧
    (s.live hostPage = true) ∧
    (puntRing s f = none)) ∧
    (∃ (cy : Bool) (f : Frame) (s : State),
    ((s.allAt .toHost).find? (·.full) = some f) ∧
    (s.live hostPage = true) ∧
    (puntRing s f ≠ none) ∧
    (32 + f.bytes.length ≤ 256)) :=
  ⟨⟨3, 1, { id := 1, loc := .queued 3, q := 3, cells := [⟨.head, 0⟩], ncell := 1 }, { (((up [1, 7, 8, 11, 0xC3, 0xD0, 0xD4, 0xD5]).setTab qmgrPage 2 0 (2 ^ 31)).regsSet [(Reg.CELL.PART_SHARED 0, 1000), (Reg.CELL.PART_HEAD 0, 10)]) with frames := [{ id := 1, loc := .queued 3, q := 3, cells := [⟨.head, 0⟩], ncell := 1 }] },
    by decide +kernel⟩,
   ⟨queueReqr 3, 3, 0, ({ id := 1, loc := .carried 3, q := 3, bytes := List.replicate 60 0, carE := 1 } : Frame), ({ (takeCounts 3 0 1 (((up [1, 7, 8, 11, 0xC3, 0xD0, 0xD4, 0xD5]).setTab qmgrPage 2 0 (2 ^ 31)).regsSet [(Reg.CELL.PART_SHARED 0, 1000), (Reg.CELL.PART_HEAD 0, 10)])) with frames := [{ id := 1, loc := .carried 3, q := 3, bytes := List.replicate 60 0, carE := 1 }] }), ((grantBuf (queueReqr 3) 0 1 ({ (takeCounts 3 0 1 (((up [1, 7, 8, 11, 0xC3, 0xD0, 0xD4, 0xD5]).setTab qmgrPage 2 0 (2 ^ 31)).regsSet [(Reg.CELL.PART_SHARED 0, 1000), (Reg.CELL.PART_HEAD 0, 10)])) with frames := [{ id := 1, loc := .carried 3, q := 3, bytes := List.replicate 60 0, carE := 1 }] })).2),
    by decide +kernel⟩,
   ⟨queueReqr 3, 3, ({ id := 1, loc := .carried 3, q := 3, bytes := List.replicate 60 0, carE := 1 } : Frame), ({ ((takeCounts 3 0 1 (((up [1, 7, 8, 11, 0xC3, 0xD0, 0xD4, 0xD5]).setTab qmgrPage 2 0 (2 ^ 31)).regsSet [(Reg.CELL.PART_SHARED 0, 1000), (Reg.CELL.PART_HEAD 0, 10)])).setReg (Reg.BLK_CTL 11) 0) with frames := [{ id := 1, loc := .carried 3, q := 3, bytes := List.replicate 60 0, carE := 1 }] }), ((grantBuf (queueReqr 3) 0 1 ({ ((takeCounts 3 0 1 (((up [1, 7, 8, 11, 0xC3, 0xD0, 0xD4, 0xD5]).setTab qmgrPage 2 0 (2 ^ 31)).regsSet [(Reg.CELL.PART_SHARED 0, 1000), (Reg.CELL.PART_HEAD 0, 10)])).setReg (Reg.BLK_CTL 11) 0) with frames := [{ id := 1, loc := .carried 3, q := 3, bytes := List.replicate 60 0, carE := 1 }] })).2),
    by decide +kernel⟩,
   ⟨3, false, { id := 1, loc := .queued 3, q := 3, bytes := List.replicate 600 0, cells := [⟨.head, 0⟩], ncell := 1 }, { id := 1, loc := .queued 3, q := 3, bytes := List.replicate 600 0, cells := [⟨.head, 0⟩], ncell := 1 }, { (up [1, 7, 8, 11, 0xC3, 0xD0, 0xD4, 0xD5]).setReg (Reg.CELL.PART_SHARED 0) 0 with frames := [{ id := 1, loc := .queued 3, q := 3, bytes := List.replicate 600 0, cells := [⟨.head, 0⟩], ncell := 1 }] }, (serveAhead (queueReqr 3) { (up [1, 7, 8, 11, 0xC3, 0xD0, 0xD4, 0xD5]).setReg (Reg.CELL.PART_SHARED 0) 0 with frames := [{ id := 1, loc := .queued 3, q := 3, bytes := List.replicate 600 0, cells := [⟨.head, 0⟩], ncell := 1 }] }),
    by decide +kernel⟩,
   ⟨3, false, { id := 1, loc := .queued 3, q := 3, bytes := List.replicate 600 0, cells := [⟨.head, 0⟩], ncell := 1 }, { (((up [1, 7, 8, 11, 0xC3, 0xD0, 0xD4, 0xD5])).setReg (Reg.BLK_CTL 0xD4) 0) with frames := [{ id := 1, loc := .queued 3, q := 3, bytes := List.replicate 600 0, cells := [⟨.head, 0⟩], ncell := 1 }] },
    by decide +kernel⟩,
   ⟨3, false, { id := 1, loc := .queued 3, q := 3, bytes := List.replicate 600 0, cells := [⟨.head, 0⟩], ncell := 1 }, { id := 1, loc := .queued 3, q := 3, bytes := List.replicate 600 0, cells := [⟨.head, 0⟩], ncell := 1 }, 0, { (((up [1, 7, 8, 11, 0xC3, 0xD0, 0xD4, 0xD5]).setTab qmgrPage 2 0 (2 ^ 31)).regsSet [(Reg.CELL.PART_SHARED 0, 1000), (Reg.CELL.PART_HEAD 0, 10)]) with frames := [{ id := 1, loc := .queued 3, q := 3, bytes := List.replicate 600 0, cells := [⟨.head, 0⟩], ncell := 1 }] }, (serveAhead (queueReqr 3) { (((up [1, 7, 8, 11, 0xC3, 0xD0, 0xD4, 0xD5]).setTab qmgrPage 2 0 (2 ^ 31)).regsSet [(Reg.CELL.PART_SHARED 0, 1000), (Reg.CELL.PART_HEAD 0, 10)]) with frames := [{ id := 1, loc := .queued 3, q := 3, bytes := List.replicate 600 0, cells := [⟨.head, 0⟩], ncell := 1 }] }), ((grantBuf (queueReqr 3) 0 1 (serveAhead (queueReqr 3) { (((up [1, 7, 8, 11, 0xC3, 0xD0, 0xD4, 0xD5]).setTab qmgrPage 2 0 (2 ^ 31)).regsSet [(Reg.CELL.PART_SHARED 0, 1000), (Reg.CELL.PART_HEAD 0, 10)]) with frames := [{ id := 1, loc := .queued 3, q := 3, bytes := List.replicate 600 0, cells := [⟨.head, 0⟩], ncell := 1 }] })).2),
    by decide +kernel⟩,
   ⟨3, false, (up [1, 7, 8, 11, 0xC3, 0xD0, 0xD4, 0xD5]),
    by decide +kernel⟩,
   ⟨false, { id := 1, loc := .toHost, reason := some 0xF1 }, { (up [5, 11]) with frames := [{ id := 1, loc := .toHost, reason := some 0xF1 }] },
    by decide +kernel⟩,
   ⟨false, { id := 1, loc := .toHost, reason := some 0xF1 }, { ((up [5, 11]).setTab hostPage 1 0xF1 (2 ^ 31)) with frames := [{ id := 1, loc := .toHost, reason := some 0xF1 }] },
    by decide +kernel⟩⟩

theorem meets_BufferPools :
    (∃ (rq i o j : Nat) (s : State),
    (s.live bpmPage = true) ∧
    (pickBuf s i = some j) ∧
    (i ≠ 1)) ∧
    (∃ (rq i o : Nat) (s : State),
    (s.live bpmPage = true) ∧
    (pickBuf s i = none)) ∧
    (∃ (i p ag : Nat) (s : State),
    (i < 2)) ∧
    (∃ (i p ag q : Nat) (s : State),
    (freeCheck s i p ag = 0)) ∧
    (∃ (i p ag q : Nat) (s : State),
    (freeCheck s i p ag ≠ 0)) ∧
    (∃ (ag : Fin 4) (i : Fin 6) (p : BitVec 28) (s : State),
    (s.clocked bpmPage = true)) ∧
    (∃ (r : Req) (i : Nat) (s : State) (w : State),
    (TableReady s r bpmPage) ∧
    (firstWrite r s = w) ∧
    (selOf s r bpmPage = i + 1) ∧
    (i < 6) ∧
    (freeCheck w i (word (winData s r bpmPage) 0) 5 = 0)) ∧
    (∃ (r : Req) (i k : Nat) (s : State) (w : State),
    (TableReady s r bpmPage) ∧
    (firstWrite r s = w) ∧
    (selOf s r bpmPage = i + 1) ∧
    (i < 6) ∧
    (freeCheck w i (word (winData s r bpmPage) 0) 5 = k + 1)) ∧
    (∃ (r : Req) (j : Nat) (s : State) (w : State) (t : State),
    (TableReady s r bpmPage) ∧
    (firstWrite r s = w) ∧
    (selOf s r bpmPage = 1 + 1) ∧
    (grantBuf 1 1 5 w = (some j, t))) ∧
    (∃ (r : Req) (i : Nat) (s : State) (w : State) (t : State),
    (TableReady s r bpmPage) ∧
    (firstWrite r s = w) ∧
    (selOf s r bpmPage = i + 1) ∧
    (i < 6) ∧
    ((if i = 0 then grantBuf softReqr 0 5 (serveAhead softReqr w) else grantBuf 1 i 5 w) = (none, t))) ∧
    (∃ (r : Req) (i : Nat) (s : State) (w : State),
    (TableReady s r bpmPage) ∧
    (firstWrite r s = w) ∧
    (selOf s r bpmPage = i + 1) ∧
    (i < 6) ∧
    (freeCheck w i (word (winData s r bpmPage) 0) 5 ≠ 1) ∧
    (freeCheck w i (word (winData s r bpmPage) 0) 5 ≠ 2)) ∧
    (∃ (r : Req) (h : Fin 4) (v : W32) (s : State) (w : State),
    (Admits s r (Reg.BPM.HP_COUNT h)) ∧
    (firstWrite r s = w) ∧
    (w.rbit (Reg.BLK_CTL bpmPage) 0 = true)) ∧
    (∃ (r : Req) (h : Fin 4) (v : W32) (s : State) (w : State),
    (Admits s r (Reg.BPM.HP_COUNT h)) ∧
    (firstWrite r s = w) ∧
    (w.rbit (Reg.BLK_CTL bpmPage) 0 = false) ∧
    (hostCells w h (v.toNat % 2 ^ 16) % 16 = 0) ∧
    (hostCells w h (v.toNat % 2 ^ 16) ≤ 524288) ∧
    ((w.bufs.any fun e => e.1 / 2 ^ 32 != 1) = false)) ∧
    (∃ (r : Req) (s : State),
    (TableReady s r bpmPage)) ∧
    (∃ (r : Req) (s : State),
    (TableReady s r bpmPage)) ∧
    (∃ (r : Req) (s : State),
    (TableReady s r bpmPage)) ∧
    (∃ (r : Req) (h : Fin 4) (v : W32) (s : State),
    (Admits s r (Reg.BPM.HP_COUNT h))) :=
  ⟨⟨0, 0, 1, 0, (up [1, 7, 8, 11, 0xC3, 0xD0, 0xD4, 0xD5]),
    by decide +kernel⟩,
   ⟨0, 1, 1, (up [1, 7, 8, 11, 0xC3, 0xD0, 0xD4, 0xD5]),
    by decide +kernel⟩,
   ⟨0, 5, 1, (up [1, 7, 8, 11, 0xC3, 0xD0, 0xD4, 0xD5]),
    by decide +kernel⟩,
   ⟨0, 5, 1, 5, (setOwner 0 5 1 (up [1, 7, 8, 11, 0xC3, 0xD0, 0xD4, 0xD5])),
    by decide +kernel⟩,
   ⟨0, 5, 1, 5, (up [1, 7, 8, 11, 0xC3, 0xD0, 0xD4, 0xD5]),
    by decide +kernel⟩,
   ⟨0, 0, 5, (up [1, 7, 8, 11, 0xC3, 0xD0, 0xD4, 0xD5]),
    by decide +kernel⟩,
   ⟨.HOST, 0, ((setOwner 0 5 5 (up [1, 7, 8, 11, 0xC3, 0xD0, 0xD4, 0xD5])).regsSet [(winBank .HOST (Reg.TBL_SEL bpmPage), 0x1), (winBank .HOST (Reg.TBL_IDX bpmPage), 0x0), (winBank .HOST (Reg.TBL_DATA bpmPage 0), 0x5)]), (firstWrite .HOST ((setOwner 0 5 5 (up [1, 7, 8, 11, 0xC3, 0xD0, 0xD4, 0xD5])).regsSet [(winBank .HOST (Reg.TBL_SEL bpmPage), 0x1), (winBank .HOST (Reg.TBL_IDX bpmPage), 0x0), (winBank .HOST (Reg.TBL_DATA bpmPage 0), 0x5)])),
    by decide +kernel⟩,
   ⟨.HOST, 0, 2, ((up [1, 7, 8, 11, 0xC3, 0xD0, 0xD4, 0xD5]).regsSet [(winBank .HOST (Reg.TBL_SEL bpmPage), 0x1), (winBank .HOST (Reg.TBL_IDX bpmPage), 0x0), (winBank .HOST (Reg.TBL_DATA bpmPage 0), 0x5)]), (firstWrite .HOST ((up [1, 7, 8, 11, 0xC3, 0xD0, 0xD4, 0xD5]).regsSet [(winBank .HOST (Reg.TBL_SEL bpmPage), 0x1), (winBank .HOST (Reg.TBL_IDX bpmPage), 0x0), (winBank .HOST (Reg.TBL_DATA bpmPage 0), 0x5)])),
    by decide +kernel⟩,
   ⟨.HOST, 0, ((((up [1, 7, 8, 11, 0xC3, 0xD0, 0xD4, 0xD5]).regsSet [(Reg.BPM.D_LIMIT, 1024), (Reg.BPM.FREE_CNT 1, 1024), (Reg.DSC.POP_CFG 0, 8), (Reg.DSC.POP_STS 0, 2 ^ 31)]).hidSet ((List.range 8).map fun c => (Hid.trainStep c, 7))).regsSet [(winBank .HOST (Reg.TBL_SEL bpmPage), 0x2), (winBank .HOST (Reg.TBL_IDX bpmPage), 0x0)]), (firstWrite .HOST ((((up [1, 7, 8, 11, 0xC3, 0xD0, 0xD4, 0xD5]).regsSet [(Reg.BPM.D_LIMIT, 1024), (Reg.BPM.FREE_CNT 1, 1024), (Reg.DSC.POP_CFG 0, 8), (Reg.DSC.POP_STS 0, 2 ^ 31)]).hidSet ((List.range 8).map fun c => (Hid.trainStep c, 7))).regsSet [(winBank .HOST (Reg.TBL_SEL bpmPage), 0x2), (winBank .HOST (Reg.TBL_IDX bpmPage), 0x0)])), ((grantBuf 1 1 5 ((((up [1, 7, 8, 11, 0xC3, 0xD0, 0xD4, 0xD5]).regsSet [(Reg.BPM.D_LIMIT, 1024), (Reg.BPM.FREE_CNT 1, 1024), (Reg.DSC.POP_CFG 0, 8), (Reg.DSC.POP_STS 0, 2 ^ 31)]).hidSet ((List.range 8).map fun c => (Hid.trainStep c, 7))).regsSet [(winBank .HOST (Reg.TBL_SEL bpmPage), 0x2), (winBank .HOST (Reg.TBL_IDX bpmPage), 0x0)])).2),
    by decide +kernel⟩,
   ⟨.HOST, 1, ((up [1, 7, 8, 11, 0xC3, 0xD0, 0xD4, 0xD5]).regsSet [(winBank .HOST (Reg.TBL_SEL bpmPage), 0x2), (winBank .HOST (Reg.TBL_IDX bpmPage), 0x0)]), (firstWrite .HOST ((up [1, 7, 8, 11, 0xC3, 0xD0, 0xD4, 0xD5]).regsSet [(winBank .HOST (Reg.TBL_SEL bpmPage), 0x2), (winBank .HOST (Reg.TBL_IDX bpmPage), 0x0)])), ((grantBuf 1 1 5 (firstWrite .HOST ((up [1, 7, 8, 11, 0xC3, 0xD0, 0xD4, 0xD5]).regsSet [(winBank .HOST (Reg.TBL_SEL bpmPage), 0x2), (winBank .HOST (Reg.TBL_IDX bpmPage), 0x0)]))).2),
    by decide +kernel⟩,
   ⟨.HOST, 0, ((setOwner 0 5 5 (up [1, 7, 8, 11, 0xC3, 0xD0, 0xD4, 0xD5])).regsSet [(winBank .HOST (Reg.TBL_SEL bpmPage), 0x1), (winBank .HOST (Reg.TBL_IDX bpmPage), 0x0), (winBank .HOST (Reg.TBL_DATA bpmPage 0), 0x5)]), (firstWrite .HOST ((setOwner 0 5 5 (up [1, 7, 8, 11, 0xC3, 0xD0, 0xD4, 0xD5])).regsSet [(winBank .HOST (Reg.TBL_SEL bpmPage), 0x1), (winBank .HOST (Reg.TBL_IDX bpmPage), 0x0), (winBank .HOST (Reg.TBL_DATA bpmPage 0), 0x5)])),
    by decide +kernel⟩,
   ⟨.HOST, 0, 16, (up [1, 7, 8, 11, 0xC3, 0xD0, 0xD4, 0xD5]), (firstWrite .HOST ((up [1, 7, 8, 11, 0xC3, 0xD0, 0xD4, 0xD5]))),
    by decide +kernel⟩,
   ⟨.HOST, 0, 16, ((up [1, 7, 8, 11, 0xC3, 0xD0, 0xD4, 0xD5]).setReg (Reg.BLK_CTL 11) 0), (firstWrite .HOST (((up [1, 7, 8, 11, 0xC3, 0xD0, 0xD4, 0xD5]).setReg (Reg.BLK_CTL 11) 0))),
    by decide +kernel⟩,
   ⟨.HOST, (up [1, 7, 8, 11, 0xC3, 0xD0, 0xD4, 0xD5]),
    by decide +kernel⟩,
   ⟨.HOST, (up [1, 7, 8, 11, 0xC3, 0xD0, 0xD4, 0xD5]),
    by decide +kernel⟩,
   ⟨.HOST, (up [1, 7, 8, 11, 0xC3, 0xD0, 0xD4, 0xD5]),
    by decide +kernel⟩,
   ⟨.HOST, 0, 16, (up [1, 7, 8, 11, 0xC3, 0xD0, 0xD4, 0xD5]),
    by decide +kernel⟩⟩

theorem meets_SpillAndReturn :
    (∃ (q : Fin 393216) (s : State),
    (s.h (.qstate q) ≠ 1 ∨ ((queueCells s q).filter CellRef.atStage).length < 32 ∨ atDeepMax s q = true)) ∧
    (∃ (q : Fin 393216) (pg : Nat) (s : State) (t : State),
    (s.live spillPage = true) ∧
    (s.h (.qstate q) = 1) ∧
    (32 ≤ ((queueCells s q).filter CellRef.atStage).length) ∧
    (atDeepMax s q = false) ∧
    (grantBuf blockReqr 1 spillOwner s = (some pg, t))) ∧
    (∃ (q : Fin 393216) (s : State) (t : State),
    (s.live spillPage = true) ∧
    (s.h (.qstate q) = 1) ∧
    (32 ≤ ((queueCells s q).filter CellRef.atStage).length) ∧
    (atDeepMax s q = false) ∧
    (grantBuf blockReqr 1 spillOwner s = (none, t))) ∧
    (∃ (q : Fin 393216) (f : Frame) (s : State),
    (s.live spillPage = true) ∧
    (((s.allAt (.queued q)).find? fun f => f.cells.any CellRef.atStage) = some f)) ∧
    (∃ (q : Fin 393216) (s : State),
    ((s.pageWrites.find? fun w => w.queue == q.val) = none)) ∧
    (∃ (q : Fin 393216) (w : PageWrite) (s : State),
    ((s.pageWrites.find? fun w => w.queue == q.val) = some w) ∧
    (w.left ≠ 0)) ∧
    (∃ (q : Fin 393216) (w : PageWrite) (s : State),
    (s.live spillPage = true) ∧
    ((s.pageWrites.find? fun w => w.queue == q.val) = some w) ∧
    (w.left = 0)) ∧
    (∃ (q : Fin 393216) (s : State),
    (s.h (.qstate q) = 0 ∨ 32 * fld (admW s q 6) 16 6 < ((queueCells s q).filter CellRef.inHead).length ∨ fld (admW s q 6) 16 6 ≤ pagesAhead s q)) ∧
    (∃ (q : Fin 393216) (pg : Nat) (s : State),
    (s.live spillPage = true) ∧
    (s.h (.qstate q) ≠ 0) ∧
    (((queueCells s q).filter CellRef.inHead).length ≤ 32 * fld (admW s q 6) 16 6) ∧
    (pagesAhead s q < fld (admW s q 6) 16 6) ∧
    ((queueCells s q).findSome? CellRef.deepPage = some pg)) ∧
    (∃ (q : Fin 393216) (pg : Nat) (x : PageRead) (s : State),
    ((queueCells s q).findSome? CellRef.askedPage = some pg) ∧
    (s.pageReads.find? (·.page == pg) = some x) ∧
    (x.left ≠ 0)) ∧
    (∃ (q : Fin 393216) (pg : Nat) (x : PageRead) (s : State),
    (s.live spillPage = true) ∧
    ((queueCells s q).findSome? CellRef.askedPage = some pg) ∧
    (s.pageReads.find? (·.page == pg) = some x) ∧
    (x.left = 0) ∧
    (x.ue = true)) ∧
    (∃ (q : Fin 393216) (pg : Nat) (x : PageRead) (s : State),
    (s.live spillPage = true) ∧
    ((queueCells s q).findSome? CellRef.askedPage = some pg) ∧
    (s.pageReads.find? (·.page == pg) = some x) ∧
    (x.left = 0) ∧
    (x.ue = false)) ∧
    (∃ (q base : Nat) (f : Frame) (s : State),
    (s.reg Reg.CELL.AGE_LIMIT * 16000 < ageOf s f)) ∧
    (∃ (s : State),
    (s.live cellPage = true) ∧
    (usedQueues (nextInterval cellPage .sweepAt (cycUs 1000) s) = [])) ∧
    (∃ (r : Req) (v : W32) (s : State) (w : State),
    (Admits s r Reg.CELL.AGE_LIMIT) ∧
    (firstWrite r s = w) ∧
    (v.toNat % 2 ^ 21 = 0 ∨ 2000000 < v.toNat % 2 ^ 21)) ∧
    (∃ (r : Req) (v : W32) (s : State) (w : State),
    (Admits s r Reg.CELL.AGE_LIMIT) ∧
    (firstWrite r s = w) ∧
    (1 ≤ v.toNat % 2 ^ 21) ∧
    (v.toNat % 2 ^ 21 ≤ 2000000)) ∧
    (∃ (q : Fin 393216) (ue : Bool) (s : State),
    (s.live spillPage = true)) ∧
    (∃ (q : Fin 393216) (s : State),
    (s.live spillPage = true)) ∧
    (∃ (q : Fin 393216) (s : State),
    (s.live spillPage = true)) ∧
    (∃ (q : Fin 393216) (s : State),
    (s.live spillPage = true)) ∧
    (∃ (s : State),
    (s.live cellPage = true)) ∧
    (∃ (r : Req) (v : W32) (s : State),
    (Admits s r Reg.CELL.AGE_LIMIT)) :=
  ⟨⟨3, (up [1, 7, 8, 11, 0xC3, 0xD0, 0xD4, 0xD5]),
    by decide +kernel⟩,
   ⟨3, 0, ({ ((((up [1, 7, 8, 11, 0xC3, 0xD0, 0xD4, 0xD5]).regsSet [(Reg.BPM.D_LIMIT, 1024), (Reg.BPM.FREE_CNT 1, 1024), (Reg.DSC.POP_CFG 0, 8), (Reg.DSC.POP_STS 0, 2 ^ 31)]).hidSet ((List.range 8).map fun c => (Hid.trainStep c, 7)))).setH (.qstate 3) 1 with frames := [{ id := 1, loc := .queued 3, q := 3, cells := (List.range 32).map fun j => ⟨.stage, j⟩, ncell := 32 }] }), ((grantBuf blockReqr 1 3 ({ ((((up [1, 7, 8, 11, 0xC3, 0xD0, 0xD4, 0xD5]).regsSet [(Reg.BPM.D_LIMIT, 1024), (Reg.BPM.FREE_CNT 1, 1024), (Reg.DSC.POP_CFG 0, 8), (Reg.DSC.POP_STS 0, 2 ^ 31)]).hidSet ((List.range 8).map fun c => (Hid.trainStep c, 7)))).setH (.qstate 3) 1 with frames := [{ id := 1, loc := .queued 3, q := 3, cells := (List.range 32).map fun j => ⟨.stage, j⟩, ncell := 32 }] })).2),
    by decide +kernel⟩,
   ⟨3, ({ (up [1, 7, 8, 11, 0xC3, 0xD0, 0xD4, 0xD5]).setH (.qstate 3) 1 with frames := [{ id := 1, loc := .queued 3, q := 3, cells := (List.range 32).map fun j => ⟨.stage, j⟩, ncell := 32 }] }), ((grantBuf blockReqr 1 3 ({ (up [1, 7, 8, 11, 0xC3, 0xD0, 0xD4, 0xD5]).setH (.qstate 3) 1 with frames := [{ id := 1, loc := .queued 3, q := 3, cells := (List.range 32).map fun j => ⟨.stage, j⟩, ncell := 32 }] })).2),
    by decide +kernel⟩,
   ⟨3, { id := 1, loc := .queued 3, q := 3, cells := [⟨.stage, 0⟩], ncell := 1 }, { (up [1, 7, 8, 11, 0xC3, 0xD0, 0xD4, 0xD5]) with frames := [{ id := 1, loc := .queued 3, q := 3, cells := [⟨.stage, 0⟩], ncell := 1 }] },
    by decide +kernel⟩,
   ⟨3, (up [1, 7, 8, 11, 0xC3, 0xD0, 0xD4, 0xD5]),
    by decide +kernel⟩,
   ⟨3, { queue := 3, page := 7, cells := [0] }, { (up [1, 7, 8, 11, 0xC3, 0xD0, 0xD4, 0xD5]) with pageWrites := [{ queue := 3, page := 7, cells := [0] }] },
    by decide +kernel⟩,
   ⟨3, { queue := 3, page := 7, cells := [0], left := 0 }, { { (setOwner 0 0 3 (up [1, 7, 8, 11, 0xC3, 0xD0, 0xD4, 0xD5])) with frames := [{ id := 1, loc := .queued 3, q := 3, cells := [⟨.handed 7, 0⟩], ncell := 1 }] } with pageWrites := [{ queue := 3, page := 7, cells := [0], left := 0 }] },
    by decide +kernel⟩,
   ⟨3, (up [1, 7, 8, 11, 0xC3, 0xD0, 0xD4, 0xD5]),
    by decide +kernel⟩,
   ⟨3, 7, { ((up [1, 7, 8, 11, 0xC3, 0xD0, 0xD4, 0xD5]).setH (.qstate 3) 1) with frames := [{ id := 1, loc := .queued 3, q := 3, cells := [⟨.deep 7, 0⟩], ncell := 1 }] },
    by decide +kernel⟩,
   ⟨3, 7, { tag := 1, page := 7 }, { { ((up [1, 7, 8, 11, 0xC3, 0xD0, 0xD4, 0xD5]).setH (.qstate 3) 1) with frames := [{ id := 1, loc := .queued 3, q := 3, cells := [⟨.asked 7, 0⟩], ncell := 1 }] } with pageReads := [{ tag := 1, page := 7 }] },
    by decide +kernel⟩,
   ⟨3, 7, { tag := 1, page := 7, left := 0, ue := true }, { { ((up [1, 7, 8, 11, 0xC3, 0xD0, 0xD4, 0xD5]).setH (.qstate 3) 1) with frames := [{ id := 1, loc := .queued 3, q := 3, cells := [⟨.asked 7, 0⟩], ncell := 1 }] } with pageReads := [{ tag := 1, page := 7, left := 0, ue := true }] },
    by decide +kernel⟩,
   ⟨3, 7, { tag := 1, page := 7, left := 0 }, { { ((up [1, 7, 8, 11, 0xC3, 0xD0, 0xD4, 0xD5]).setH (.qstate 3) 1) with frames := [{ id := 1, loc := .queued 3, q := 3, cells := [⟨.asked 7, 0⟩], ncell := 1 }] } with pageReads := [{ tag := 1, page := 7, left := 0 }] },
    by decide +kernel⟩,
   ⟨3, Reg.CELL.AGED_SWEEP_G, { id := 1, loc := .queued 3 }, { (up [1, 7, 8, 11, 0xC3, 0xD0, 0xD4, 0xD5]) with fol := 3 * unitsSec },
    by decide +kernel⟩,
   ⟨(up [1, 7, 8, 11, 0xC3, 0xD0, 0xD4, 0xD5]),
    by decide +kernel⟩,
   ⟨.HOST, 0, (up [1, 7, 8, 11, 0xC3, 0xD0, 0xD4, 0xD5]), (firstWrite .HOST ((up [1, 7, 8, 11, 0xC3, 0xD0, 0xD4, 0xD5]))),
    by decide +kernel⟩,
   ⟨.HOST, 1000, (up [1, 7, 8, 11, 0xC3, 0xD0, 0xD4, 0xD5]), (firstWrite .HOST ((up [1, 7, 8, 11, 0xC3, 0xD0, 0xD4, 0xD5]))),
    by decide +kernel⟩,
   ⟨3, false, ({ ((((up [1, 7, 8, 11, 0xC3, 0xD0, 0xD4, 0xD5]).regsSet [(Reg.BPM.D_LIMIT, 1024), (Reg.BPM.FREE_CNT 1, 1024), (Reg.DSC.POP_CFG 0, 8), (Reg.DSC.POP_STS 0, 2 ^ 31)]).hidSet ((List.range 8).map fun c => (Hid.trainStep c, 7)))).setH (.qstate 3) 1 with frames := [{ id := 1, loc := .queued 3, q := 3, cells := (List.range 32).map fun j => ⟨.stage, j⟩, ncell := 32 }] }),
    by decide +kernel⟩,
   ⟨3, { { (setOwner 0 0 3 (up [1, 7, 8, 11, 0xC3, 0xD0, 0xD4, 0xD5])) with frames := [{ id := 1, loc := .queued 3, q := 3, cells := [⟨.handed 7, 0⟩], ncell := 1 }] } with pageWrites := [{ queue := 3, page := 7, cells := [0], left := 0 }] },
    by decide +kernel⟩,
   ⟨3, { ((up [1, 7, 8, 11, 0xC3, 0xD0, 0xD4, 0xD5]).setH (.qstate 3) 1) with frames := [{ id := 1, loc := .queued 3, q := 3, cells := [⟨.deep 7, 0⟩], ncell := 1 }] },
    by decide +kernel⟩,
   ⟨3, { { ((up [1, 7, 8, 11, 0xC3, 0xD0, 0xD4, 0xD5]).setH (.qstate 3) 1) with frames := [{ id := 1, loc := .queued 3, q := 3, cells := [⟨.asked 7, 0⟩], ncell := 1 }] } with pageReads := [{ tag := 1, page := 7, left := 0, ue := true }] },
    by decide +kernel⟩,
   ⟨(up [1, 7, 8, 11, 0xC3, 0xD0, 0xD4, 0xD5]),
    by decide +kernel⟩,
   ⟨.HOST, 0, (up [1, 7, 8, 11, 0xC3, 0xD0, 0xD4, 0xD5]),
    by decide +kernel⟩⟩

theorem meets_CreditRequests :
    (∃ (q : Fin 262144) (s : State),
    (s.live qmgrPage = true) ∧
    (s.hb (.inReq q) = true)) ∧
    (∃ (q : Fin 262144) (s : State),
    (s.hb (.inReq q) = false)) ∧
    (∃ (q : Nat) (s : State),
    (q < egqBase) ∧
    (s.live qmgrPage = true) ∧
    (max (s.h (.cb q)) 0 < (backlogBytes s q : Int)) ∧
    (s.hb (.inReq q) = false)) ∧
    (∃ (x q e : Nat) (req : Bool) (s : State),
    (entEn s e = false)) ∧
    (∃ (x q e : Nat) (s : State),
    (entEn s e = true) ∧
    (findFlow s x q = none) ∧
    (s.flows.length < s.reg Reg.QMGR.CFLOW_CAP)) ∧
    (∃ (x q e : Nat) (s : State),
    (entEn s e = true)) ∧
    (∃ (q : Nat) (s : State),
    (q < 262144) ∧
    (bit (s.tab qmgrPage 2 (q / 8)) 31 = true)) ∧
    (∃ (i : Fin 262144) (f : Flow) (s : State),
    (s.live qmgrPage = true) ∧
    ((s.flows.find? fun f => f.slot == i.val) = some f)) ∧
    (∃ (i : Fin 262144) (s : State),
    ((s.flows.find? fun f => f.slot == i.val) = none)) ∧
    (∃ (q : Fin 262144) (s : State),
    (s.live qmgrPage = true)) ∧
    (∃ (i : Fin 262144) (s : State),
    (s.live qmgrPage = true)) :=
  ⟨⟨3, ((((((up [1, 7, 8, 11, 0x10, 0xC3, 0xD0, 0xD1, 0xD2, 0xD4, 0xD5, 0xE8]).regsSet []).setTab qmgrPage 2 0 (2 ^ 31 + 8)).setTab adjPage 4 0 (2 ^ 31 + 5)).setReg Reg.FAB.DEV_ID 5).setH (.inReq 3) 1),
    by decide +kernel⟩,
   ⟨3, ((up [1, 7, 8, 11, 0x10, 0xC3, 0xD0, 0xD1, 0xD2, 0xD4, 0xD5, 0xE8]).regsSet []).setTab qmgrPage 2 0 (2 ^ 31 + 8),
    by decide +kernel⟩,
   ⟨3, ({ ((up [1, 7, 8, 11, 0x10, 0xC3, 0xD0, 0xD1, 0xD2, 0xD4, 0xD5, 0xE8]).regsSet []).setTab qmgrPage 2 0 (2 ^ 31 + 8) with frames := [{ id := 1, loc := .queued 3, bytes := [1, 2] }] }),
    by decide +kernel⟩,
   ⟨5, 3, 11, true, (up [1, 7, 8, 11, 0x10, 0xC3, 0xD0, 0xD1, 0xD2, 0xD4, 0xD5, 0xE8]),
    by decide +kernel⟩,
   ⟨5, 3, 11, ((up [1, 7, 8, 11, 0x10, 0xC3, 0xD0, 0xD1, 0xD2, 0xD4, 0xD5, 0xE8]).setTab schedPage 1 11 (2 ^ 31 + 0x10000)),
    by decide +kernel⟩,
   ⟨5, 3, 11, ((up [1, 7, 8, 11, 0x10, 0xC3, 0xD0, 0xD1, 0xD2, 0xD4, 0xD5, 0xE8]).setTab schedPage 1 11 (2 ^ 31 + 0x10000)),
    by decide +kernel⟩,
   ⟨3, ((up [1, 7, 8, 11, 0x10, 0xC3, 0xD0, 0xD1, 0xD2, 0xD4, 0xD5, 0xE8]).regsSet []).setTab qmgrPage 2 0 (2 ^ 31 + 8),
    by decide +kernel⟩,
   ⟨0, ⟨0, 5, 3, 11, 0⟩, ({ (up [1, 7, 8, 11, 0x10, 0xC3, 0xD0, 0xD1, 0xD2, 0xD4, 0xD5, 0xE8]) with flows := [⟨0, 5, 3, 11, 0⟩] }),
    by decide +kernel⟩,
   ⟨0, (up [1, 7, 8, 11, 0x10, 0xC3, 0xD0, 0xD1, 0xD2, 0xD4, 0xD5, 0xE8]),
    by decide +kernel⟩,
   ⟨3, ((((((up [1, 7, 8, 11, 0x10, 0xC3, 0xD0, 0xD1, 0xD2, 0xD4, 0xD5, 0xE8]).regsSet []).setTab qmgrPage 2 0 (2 ^ 31 + 8)).setTab adjPage 4 0 (2 ^ 31 + 5)).setReg Reg.FAB.DEV_ID 5).setH (.inReq 3) 1),
    by decide +kernel⟩,
   ⟨0, ({ (up [1, 7, 8, 11, 0x10, 0xC3, 0xD0, 0xD1, 0xD2, 0xD4, 0xD5, 0xE8]) with flows := [⟨0, 5, 3, 11, 0⟩] }),
    by decide +kernel⟩⟩

theorem meets_CreditGrantsAndVoqs :
    (∃ (p : Fin 128) (s : State),
    (linkState s p ≠ 5 ∨ s.rbit (Reg.LPORT.MAC_CFG p) 16 = false)) ∧
    (∃ (p : Fin 128) (s : State) (w : State),
    (s.live schedPage = true) ∧
    (s.live qmgrPage = true) ∧
    (linkState s p = 5) ∧
    (s.rbit (Reg.LPORT.MAC_CFG p) 16 = true) ∧
    (pacerWait p s = w) ∧
    (-(8192 * 65536 : Int) ≤ w.h (.pacer p)) ∧
    (credQueues w p = [])) ∧
    (∃ (p i e : Nat) (hops : List Hop) (f : Flow) (s : State),
    (descend s (fun n kids => (pickPass s 2 n kids).map fun x => (2, x.1, x.2)) 4 (port0 + p) (levels s (fun _ => true) (credQueues s p)) = some hops) ∧
    (hops.getLast?.map (·.2.2.1) = some e) ∧
    (firstFrom (s.hn (.flowPtr e)) ((s.flows.filter fun f => f.e == e).map (·.slot)) = some i) ∧
    ((s.flows.find? fun f => f.slot == i) = some f)) ∧
    (∃ (e : Fin 10) (ue : Option (Fin 64)) (s : State) (w : State),
    (s.live qmgrPage = true) ∧
    (s.live cellPage = true) ∧
    (s.hb (.stuck (16 + e)) = false) ∧
    (retStall (fun q => isVoq q && q % 10 == e.val) s = w) ∧
    (voqPick w e = none)) ∧
    (∃ (e : Fin 10) (q : Nat) (f : Frame) (s : State) (w : State),
    (s.live qmgrPage = true) ∧
    (s.live cellPage = true) ∧
    (s.hb (.stuck (16 + e)) = false) ∧
    (retStall (fun q => isVoq q && q % 10 == e.val) s = w) ∧
    (voqPick w e = some q) ∧
    (w.firstAt (.queued q) = some f)) ∧
    (∃ (e : Fin 10) (q : Nat) (k : Fin 64) (f : Frame) (s : State) (w : State),
    (s.live qmgrPage = true) ∧
    (s.live cellPage = true) ∧
    (s.hb (.stuck (16 + e)) = false) ∧
    (retStall (fun q => isVoq q && q % 10 == e.val) s = w) ∧
    (voqPick w e = some q) ∧
    (w.firstAt (.queued q) = some f) ∧
    (k.val < f.ncell)) ∧
    (∃ (q d e : Nat) (f : Frame) (s : State),
    (agedBy s q f = 0) ∧
    (voqDest s q = some (d, e)) ∧
    (f.bad = false)) ∧
    (∃ (e : Fin 10) (ue : Option (Fin 64)) (s : State),
    (s.live qmgrPage = true) ∧
    (s.live cellPage = true) ∧
    (s.hb (.stuck (16 + e)) = false)) ∧
    (∃ (p : Fin 128) (s : State),
    (s.live schedPage = true) ∧
    (s.live qmgrPage = true) ∧
    (linkState s p = 5) ∧
    (s.rbit (Reg.LPORT.MAC_CFG p) 16 = true)) :=
  ⟨⟨0, (up [1, 7, 8, 11, 0x10, 0xC3, 0xD0, 0xD1, 0xD2, 0xD4, 0xD5, 0xE8]),
    by decide +kernel⟩,
   ⟨0, (((up [1, 7, 8, 11, 0x10, 0xC3, 0xD0, 0xD1, 0xD2, 0xD4, 0xD5, 0xE8]).setReg (Reg.LPORT.LINK_STS 0) 5).setReg (Reg.LPORT.MAC_CFG 0) 0x10000), (pacerWait 0 (((up [1, 7, 8, 11, 0x10, 0xC3, 0xD0, 0xD1, 0xD2, 0xD4, 0xD5, 0xE8]).setReg (Reg.LPORT.LINK_STS 0) 5).setReg (Reg.LPORT.MAC_CFG 0) 0x10000)),
    by decide +kernel⟩,
   ⟨0, 0, 0, [(184320, 2, 180224, 0), (180224, 2, 163840, 0), (163840, 2, 131072, 0), (131072, 2, 0, 0)], ⟨0, 5, 3, 0, 0⟩, ({ (((((((((up [1, 7, 8, 11, 0x10, 0xC3, 0xD0, 0xD1, 0xD2, 0xD4, 0xD5, 0xE8]).setReg (Reg.LPORT.LINK_STS 0) 5).setReg (Reg.LPORT.MAC_CFG 0) 0x10000).setTab schedPage 1 0 (2 ^ 31 + 0x10000)).setTab schedPage 2 0 (2 ^ 31 + 0x10000)).setTab schedPage 3 0 (2 ^ 31 + 0x10000)).setTab schedPage 4 0 (2 ^ 31 + 0x10000)).setTab schedPage 5 0 (2 ^ 31)).setTab qmgrPage 1 0 (2 ^ 96 * 0x100000)) with flows := [⟨0, 5, 3, 0, 0⟩] }),
    by decide +kernel⟩,
   ⟨0, none, (up [1, 7, 8, 11, 0x10, 0xC3, 0xD0, 0xD1, 0xD2, 0xD4, 0xD5, 0xE8]), (up [1, 7, 8, 11, 0x10, 0xC3, 0xD0, 0xD1, 0xD2, 0xD4, 0xD5, 0xE8]),
    by decide +kernel⟩,
   ⟨3, 3, { id := 1, loc := .queued 3, bytes := [1, 2] }, ({ ((((((up [1, 7, 8, 11, 0x10, 0xC3, 0xD0, 0xD1, 0xD2, 0xD4, 0xD5, 0xE8]).regsSet []).setTab qmgrPage 2 0 (2 ^ 31 + 8)).setTab adjPage 4 0 (2 ^ 31 + 5)).setReg Reg.FAB.DEV_ID 5).setH (.inReq 3) 1).setH (.cb 3) 100 with frames := [{ id := 1, loc := .queued 3, bytes := [1, 2] }] }), ({ ((((((up [1, 7, 8, 11, 0x10, 0xC3, 0xD0, 0xD1, 0xD2, 0xD4, 0xD5, 0xE8]).regsSet []).setTab qmgrPage 2 0 (2 ^ 31 + 8)).setTab adjPage 4 0 (2 ^ 31 + 5)).setReg Reg.FAB.DEV_ID 5).setH (.inReq 3) 1).setH (.cb 3) 100 with frames := [{ id := 1, loc := .queued 3, bytes := [1, 2] }] }),
    by decide +kernel⟩,
   ⟨3, 3, 1, { id := 1, loc := .queued 3, bytes := [1, 2], ncell := 2 }, ({ ((((((up [1, 7, 8, 11, 0x10, 0xC3, 0xD0, 0xD1, 0xD2, 0xD4, 0xD5, 0xE8]).regsSet []).setTab qmgrPage 2 0 (2 ^ 31 + 8)).setTab adjPage 4 0 (2 ^ 31 + 5)).setReg Reg.FAB.DEV_ID 5).setH (.inReq 3) 1).setH (.cb 3) 100 with frames := [{ id := 1, loc := .queued 3, bytes := [1, 2], ncell := 2 }] }), ({ ((((((up [1, 7, 8, 11, 0x10, 0xC3, 0xD0, 0xD1, 0xD2, 0xD4, 0xD5, 0xE8]).regsSet []).setTab qmgrPage 2 0 (2 ^ 31 + 8)).setTab adjPage 4 0 (2 ^ 31 + 5)).setReg Reg.FAB.DEV_ID 5).setH (.inReq 3) 1).setH (.cb 3) 100 with frames := [{ id := 1, loc := .queued 3, bytes := [1, 2], ncell := 2 }] }),
    by decide +kernel⟩,
   ⟨3, 5, 11, { id := 1, loc := .queued 3, bytes := [1, 2] }, ({ ((((((up [1, 7, 8, 11, 0x10, 0xC3, 0xD0, 0xD1, 0xD2, 0xD4, 0xD5, 0xE8]).regsSet []).setTab qmgrPage 2 0 (2 ^ 31 + 8)).setTab adjPage 4 0 (2 ^ 31 + 5)).setReg Reg.FAB.DEV_ID 5).setH (.inReq 3) 1).setH (.cb 3) 100 with frames := [{ id := 1, loc := .queued 3, bytes := [1, 2] }] }),
    by decide +kernel⟩,
   ⟨0, none, (up [1, 7, 8, 11, 0x10, 0xC3, 0xD0, 0xD1, 0xD2, 0xD4, 0xD5, 0xE8]),
    by decide +kernel⟩,
   ⟨0, (((up [1, 7, 8, 11, 0x10, 0xC3, 0xD0, 0xD1, 0xD2, 0xD4, 0xD5, 0xE8]).setReg (Reg.LPORT.LINK_STS 0) 5).setReg (Reg.LPORT.MAC_CFG 0) 0x10000),
    by decide +kernel⟩⟩

theorem meets_SchedulerAndShapers :
    (∃ (full : BitVec 136) (ue : Option (Fin 64)) (s : State) (w : State),
    (s.live schedPage = true) ∧
    (s.live qmgrPage = true) ∧
    (s.live cellPage = true) ∧
    (retStall (fun q => decide (egqBase ≤ q)) s = w) ∧
    (selection w full.toNat = none)) ∧
    (∃ (full : BitVec 136) (p e : Nat) (hops : List Hop) (f : Frame) (s : State) (w : State),
    (s.live schedPage = true) ∧
    (s.live qmgrPage = true) ∧
    (s.live cellPage = true) ∧
    (retStall (fun q => decide (egqBase ≤ q)) s = w) ∧
    (selection w full.toNat = some (p, hops)) ∧
    (hops.getLast?.map (·.2.2.1) = some e) ∧
    (w.firstAt (.queued (egqBase + e)) = some f) ∧
    (agedBy w (egqBase + e) f = 0)) ∧
    (∃ (x n c k len : Nat) (s : State),
    (deficit s x c - (len : Int) ≤ 0)) ∧
    (∃ (x n c k len : Nat) (s : State),
    (0 < deficit s x c - (len : Int))) ∧
    (∃ (i : Nat) (s : State),
    (bktEn s false i = true) ∧
    (bktRate s false i ≠ 0) ∧
    (s.h (.shpC i) ≤ (bktBurst s false i * 65536 : Nat))) ∧
    (∃ (len i : Nat) (s : State),
    (shaping s = true) ∧
    (bktEn (shpUpdate i s) false i = true) ∧
    (bktEn s false i = true) ∧
    (bktEn s true i = false) ∧
    (bktEn ((shpUpdate i s).setH (.shpC i) ((shpUpdate i s).h (.shpC i) - max 1 ((len : Int) + sgn (shpW s i 0) 7) * 65536)) true i = false)) ∧
    (∃ (i : Fin 184456) (s : State),
    (s.hn (.fretDue i) = 0)) ∧
    (∃ (i : Fin 184456) (due : Nat) (s : State),
    (s.live shapePage = true) ∧
    (s.hn (.fretDue i) = due + 1) ∧
    ((waitRoot due s).root ≤ due + 72)) ∧
    (∃ (i : Fin 184456) (due : Nat) (s : State),
    (s.live shapePage = true) ∧
    (s.hn (.fretDue i) = due + 1) ∧
    (due + 72 < (waitRoot due s).root)) ∧
    (∃ (s : State),
    (s.live shapePage = true) ∧
    (filedAt (waitRoot ((s.root / 73728 + 1) * 73728) s) 2 = [])) ∧
    (∃ (i : Nat) (s : State) (w : State),
    (s.live shapePage = true) ∧
    (waitRoot ((s.root / 73728 + 1) * 73728) s = w) ∧
    (filedAt w 2 = [i]) ∧
    ((w.hn (.fretDue i) - 1) / 73728 ≤ w.root / 73728)) ∧
    (∃ (i : Nat) (s : State),
    (s.live shapePage = true) ∧
    (filedAt s 3 = [i])) ∧
    (∃ (s : State),
    (filedAt s 3 = [])) ∧
    (∃ (p e : Nat) (hops : List Step) (f : Frame) (s : State),
    (f.bad = false) ∧
    (p < 128)) ∧
    (∃ (full : BitVec 136) (ue : Option (Fin 64)) (s : State),
    (s.live schedPage = true) ∧
    (s.live qmgrPage = true) ∧
    (s.live cellPage = true)) ∧
    (∃ (i : Fin 184456) (s : State),
    (s.live shapePage = true)) ∧
    (∃ (s : State),
    (s.live shapePage = true)) ∧
    (∃ (s : State),
    (s.live shapePage = true)) :=
  ⟨⟨0, none, (up [1, 7, 8, 11, 0x10, 0xC3, 0xD0, 0xD1, 0xD2, 0xD4, 0xD5, 0xE8]), (up [1, 7, 8, 11, 0x10, 0xC3, 0xD0, 0xD1, 0xD2, 0xD4, 0xD5, 0xE8]),
    by decide +kernel⟩,
   ⟨0, 0, 0, [(184320, 1, 180224, 0), (180224, 1, 163840, 0), (163840, 1, 131072, 0), (131072, 1, 0, 0)], { id := 1, loc := .queued 262144, bytes := List.replicate 60 0 }, ({ (((((((up [1, 7, 8, 11, 0x10, 0xC3, 0xD0, 0xD1, 0xD2, 0xD4, 0xD5, 0xE8])).setTab schedPage 1 0 (2 ^ 31 + 0x10000)).setTab schedPage 2 0 (2 ^ 31 + 0x10000)).setTab schedPage 3 0 (2 ^ 31 + 0x10000)).setTab schedPage 4 0 (2 ^ 31 + 0x10000)).setTab schedPage 5 0 (2 ^ 31)) with frames := [{ id := 1, loc := .queued 262144, bytes := List.replicate 60 0 }] }), ({ (((((((up [1, 7, 8, 11, 0x10, 0xC3, 0xD0, 0xD1, 0xD2, 0xD4, 0xD5, 0xE8])).setTab schedPage 1 0 (2 ^ 31 + 0x10000)).setTab schedPage 2 0 (2 ^ 31 + 0x10000)).setTab schedPage 3 0 (2 ^ 31 + 0x10000)).setTab schedPage 4 0 (2 ^ 31 + 0x10000)).setTab schedPage 5 0 (2 ^ 31)) with frames := [{ id := 1, loc := .queued 262144, bytes := List.replicate 60 0 }] }),
    by decide +kernel⟩,
   ⟨1, 131072, 0, 0, 100, ({ (((((((up [1, 7, 8, 11, 0x10, 0xC3, 0xD0, 0xD1, 0xD2, 0xD4, 0xD5, 0xE8])).setTab schedPage 1 0 (2 ^ 31 + 0x10000)).setTab schedPage 2 0 (2 ^ 31 + 0x10000)).setTab schedPage 3 0 (2 ^ 31 + 0x10000)).setTab schedPage 4 0 (2 ^ 31 + 0x10000)).setTab schedPage 5 0 (2 ^ 31)) with frames := [{ id := 1, loc := .queued 262144, bytes := List.replicate 60 0 }] }),
    by decide +kernel⟩,
   ⟨1, 131072, 0, 0, 10, ({ (((((((up [1, 7, 8, 11, 0x10, 0xC3, 0xD0, 0xD1, 0xD2, 0xD4, 0xD5, 0xE8])).setTab schedPage 1 0 (2 ^ 31 + 0x10000)).setTab schedPage 2 0 (2 ^ 31 + 0x10000)).setTab schedPage 3 0 (2 ^ 31 + 0x10000)).setTab schedPage 4 0 (2 ^ 31 + 0x10000)).setTab schedPage 5 0 (2 ^ 31)) with frames := [{ id := 1, loc := .queued 262144, bytes := List.replicate 60 0 }] }),
    by decide +kernel⟩,
   ⟨5, ((up [1, 7, 8, 11, 0x10, 0xC3, 0xD0, 0xD1, 0xD2, 0xD4, 0xD5, 0xE8]).setTab shapePage 1 5 (ofWords [0x80000000, 1000, 5000, 0, 1])),
    by decide +kernel⟩,
   ⟨64, 5, ((up [1, 7, 8, 11, 0x10, 0xC3, 0xD0, 0xD1, 0xD2, 0xD4, 0xD5, 0xE8]).setTab shapePage 1 5 (ofWords [0x80000000, 1000, 5000, 0, 1])),
    by decide +kernel⟩,
   ⟨5, (up [1, 7, 8, 11, 0x10, 0xC3, 0xD0, 0xD1, 0xD2, 0xD4, 0xD5, 0xE8]),
    by decide +kernel⟩,
   ⟨5, 720, ((up [1, 7, 8, 11, 0x10, 0xC3, 0xD0, 0xD1, 0xD2, 0xD4, 0xD5, 0xE8]).setH (.fretDue 5) 721).setH (.fretAt 5) 1,
    by decide +kernel⟩,
   ⟨5, 720, { ((up [1, 7, 8, 11, 0x10, 0xC3, 0xD0, 0xD1, 0xD2, 0xD4, 0xD5, 0xE8]).setH (.fretDue 5) 721).setH (.fretAt 5) 1 with root := 2000 },
    by decide +kernel⟩,
   ⟨(up [1, 7, 8, 11, 0x10, 0xC3, 0xD0, 0xD1, 0xD2, 0xD4, 0xD5, 0xE8]),
    by decide +kernel⟩,
   ⟨5, ((up [1, 7, 8, 11, 0x10, 0xC3, 0xD0, 0xD1, 0xD2, 0xD4, 0xD5, 0xE8]).setH (.fretDue 5) 100001).setH (.fretAt 5) 2, (waitRoot 73728 (((up [1, 7, 8, 11, 0x10, 0xC3, 0xD0, 0xD1, 0xD2, 0xD4, 0xD5, 0xE8]).setH (.fretDue 5) 100001).setH (.fretAt 5) 2)),
    by decide +kernel⟩,
   ⟨5, ((up [1, 7, 8, 11, 0x10, 0xC3, 0xD0, 0xD1, 0xD2, 0xD4, 0xD5, 0xE8]).setH (.fretDue 5) 100001).setH (.fretAt 5) 3,
    by decide +kernel⟩,
   ⟨(up [1, 7, 8, 11, 0x10, 0xC3, 0xD0, 0xD1, 0xD2, 0xD4, 0xD5, 0xE8]),
    by decide +kernel⟩,
   ⟨0, 0, [], { id := 1, loc := .queued 262144, bytes := List.replicate 60 0 }, ({ (((((((up [1, 7, 8, 11, 0x10, 0xC3, 0xD0, 0xD1, 0xD2, 0xD4, 0xD5, 0xE8])).setTab schedPage 1 0 (2 ^ 31 + 0x10000)).setTab schedPage 2 0 (2 ^ 31 + 0x10000)).setTab schedPage 3 0 (2 ^ 31 + 0x10000)).setTab schedPage 4 0 (2 ^ 31 + 0x10000)).setTab schedPage 5 0 (2 ^ 31)) with frames := [{ id := 1, loc := .queued 262144, bytes := List.replicate 60 0 }] }),
    by decide +kernel⟩,
   ⟨0, none, (up [1, 7, 8, 11, 0x10, 0xC3, 0xD0, 0xD1, 0xD2, 0xD4, 0xD5, 0xE8]),
    by decide +kernel⟩,
   ⟨5, ((up [1, 7, 8, 11, 0x10, 0xC3, 0xD0, 0xD1, 0xD2, 0xD4, 0xD5, 0xE8]).setH (.fretDue 5) 721).setH (.fretAt 5) 1,
    by decide +kernel⟩,
   ⟨(up [1, 7, 8, 11, 0x10, 0xC3, 0xD0, 0xD1, 0xD2, 0xD4, 0xD5, 0xE8]),
    by decide +kernel⟩,
   ⟨((up [1, 7, 8, 11, 0x10, 0xC3, 0xD0, 0xD1, 0xD2, 0xD4, 0xD5, 0xE8]).setH (.fretDue 5) 100001).setH (.fretAt 5) 3,
    by decide +kernel⟩⟩

theorem meets_FabricLinksAndCells :
    (∃ (r : Req) (l : Fin 192) (v : W32) (s : State) (w : State),
    (Admits s r (linkCfgReg l)) ∧
    (firstWrite r s = w) ∧
    (bit (v.toNat &&& 0xC7000000) 31 = true) ∧
    (s.rbit (Reg.BLK_CTL fabPage) 2 = false)) ∧
    (∃ (r : Req) (l : Fin 192) (v : W32) (s : State) (w : State),
    (Admits s r (linkCfgReg l)) ∧
    (firstWrite r s = w) ∧
    (bit (v.toNat &&& 0xC7000000) 31 = true) ∧
    (s.rbit (Reg.BLK_CTL fabPage) 2 = true) ∧
    (s.rbit (linkCfgReg l) 31 = false)) ∧
    (∃ (r : Req) (l : Fin 192) (v : W32) (s : State) (w : State),
    (Admits s r (linkCfgReg l)) ∧
    (firstWrite r s = w) ∧
    (bit (v.toNat &&& 0xC7000000) 31 = s.rbit (linkCfgReg l) 31) ∧
    (bit (v.toNat &&& 0xC7000000) 31 = false ∨ s.rbit (Reg.BLK_CTL fabPage) 2 = true)) ∧
    (∃ (r : Req) (l : Fin 192) (v : W32) (s : State) (w : State),
    (Admits s r (linkCfgReg l)) ∧
    (firstWrite r s = w) ∧
    (bit (v.toNat &&& 0xC7000000) 31 = false) ∧
    (s.rbit (linkCfgReg l) 31 = true)) ∧
    (∃ (l : Fin 192) (s : State),
    (s.live (fgPage l) = true) ∧
    (flinkState s l = 1)) ∧
    (∃ (l : Fin 192) (s : State),
    (s.live (fgPage l) = true) ∧
    (flinkState s l = 2)) ∧
    (∃ (l : Fin 192) (s : State),
    (s.live (fgPage l) = true) ∧
    (flinkState s l = 3 ∨ flinkState s l = 4 ∨ flinkState s l = 5)) ∧
    (∃ (l : Fin 192) (s : State),
    (s.live (fgPage l) = true) ∧
    (flinkState s l = 2 ∨ flinkState s l = 3 ∨ flinkState s l = 4 ∨ flinkState s l = 5)) ∧
    (∃ (l : Fin 192) (s : State),
    (flinkState s l = 0)) ∧
    (∃ (l : Fin 192) (x : BitVec 20) (s : State) (u : State) (w : State),
    (s.live (fgPage l) = true) ∧
    (flinkState s l = 3 ∨ flinkState s l = 4 ∨ flinkState s l = 5) ∧
    ((if fld x.toNat 14 6 < 40 then s.setHb (.lnkDisc l) false else if fld x.toNat 14 6 < 63 then s.setHb (.lnkDisc l) true else s) = u) ∧
    ((u.setRbit (linkStsReg l) 8 (bit x.toNat 13)).setRbit (linkStsReg l) 9 (bit x.toNat 12) = w)) ∧
    (∃ (l : Fin 192) (s : State),
    (s.live (fgPage l) = true) ∧
    (peerClean s l = true) ∧
    (s.h (.peerAt l) ≠ 0)) ∧
    (∃ (l : Fin 192) (s : State),
    (peerClean s l = false)) ∧
    (∃ (l : Fin 192) (a b c : W32) (s : State) (w : State),
    (s.live (fgPage l) = true) ∧
    (flinkState s l = 4) ∧
    (bumpBy (Reg.FG.CW_CORR (l / 32) (l % 32)) a.toNat (bumpBy (Reg.FG.CW_UNCORR (l / 32) (l % 32)) b.toNat (bumpBy (Reg.FG.SYM_CORR (l / 32) (l % 32)) c.toNat (nextInterval (fgPage l) (.degAtL l) (cycUs 1000) s))) = w) ∧
    (b.toNat ≠ 0) ∧
    (w.reg (Reg.FG.DEG_THR (l / 32)) < b.toNat)) ∧
    (∃ (l : Nat) (s : State),
    (s.rbit (linkCfgReg l) 30 = true)) ∧
    (∃ (r : Req) (l : Fin 192) (v : W32) (s : State),
    (Admits s r (linkCfgReg l))) ∧
    (∃ (r : Req) (l : Fin 192) (v : W32) (s : State),
    (Admits s r (linkCfgReg l))) ∧
    (∃ (l : Fin 192) (s : State),
    (s.live (fgPage l) = true) ∧
    (flinkState s l = 4)) ∧
    (∃ (l : Fin 192) (s : State),
    (s.live (fgPage l) = true) ∧
    (flinkState s l = 4)) ∧
    (∃ (l : Fin 192) (s : State),
    (flinkState s l = 0)) ∧
    (∃ (l : Fin 192) (s : State) (w : State),
    (s.live (fgPage l) = true) ∧
    (flinkState s l = 4) ∧
    (waitRoot (s.hn (.kaRx l) + 4 * cycUs (s.reg Reg.FAB.KA_IVL)) s = w) ∧
    (w.hb (.kaLost l) = false)) ∧
    (∃ (l : Fin 192) (x : List Byte) (s : State) (w : State),
    (s.live (fgPage l) = true) ∧
    (flinkState s l = 4) ∧
    (s.hb (.lnkDisc l) = false) ∧
    (hcrcOk x = true) ∧
    (cellType x = 6) ∧
    (bump (Reg.FG.CELLS_RX (l / 32) (l % 32)) s = w) ∧
    (cellLen x = 3) ∧
    (byteAt (cellPayload x) 0 = 1) ∧
    (byteAt (cellPayload x) 1 ≤ 1)) ∧
    (∃ (l : Fin 192) (x : List Byte) (s : State) (w : State),
    (s.live (fgPage l) = true) ∧
    (flinkState s l = 4) ∧
    (s.hb (.lnkDisc l) = false) ∧
    (hcrcOk x = true) ∧
    (cellType x = 5) ∧
    (bump (Reg.FG.CELLS_RX (l / 32) (l % 32)) s = w)) ∧
    (∃ (l : Fin 192) (x : List Byte) (err : Bool) (s : State),
    (s.live (fgPage l) = true) ∧
    (flinkState s l = 4) ∧
    (s.hb (.lnkDisc l) = false) ∧
    (err = true ∨ hcrcOk x = false)) ∧
    (∃ (l : Fin 192) (g : Fin 4) (s : State),
    (s.live fabPage = true) ∧
    (s.live (fgPage l) = true)) ∧
    (∃ (r : Req) (reach : Bool) (v : W32) (s : State) (w : State),
    (Admits s r (if reach then Reg.FAB.REACH_IVL else Reg.FAB.KA_IVL)) ∧
    (firstWrite r s = w) ∧
    (v.toNat % 256 = 0)) ∧
    (∃ (r : Req) (reach : Bool) (v : W32) (s : State) (w : State),
    (Admits s r (if reach then Reg.FAB.REACH_IVL else Reg.FAB.KA_IVL)) ∧
    (firstWrite r s = w) ∧
    (v.toNat % 256 ≠ 0) ∧
    (activeLinks (w.setReg (if reach then Reg.FAB.REACH_IVL else Reg.FAB.KA_IVL) (v.toNat % 256)) = [])) ∧
    (∃ (r : Req) (reach : Bool) (v : W32) (s : State),
    (Admits s r (if reach then Reg.FAB.REACH_IVL else Reg.FAB.KA_IVL))) :=
  ⟨⟨.HOST, 0, 0x80000000, (up [1, 2, 7, 8, 0xC3, 0xD0, 0xD4, 0xE0, 0xE8]), (firstWrite .HOST ((up [1, 2, 7, 8, 0xC3, 0xD0, 0xD4, 0xE0, 0xE8]))),
    by decide +kernel⟩,
   ⟨.HOST, 0, 0x80000000, (up [1, 2, 7, 8, 0xC3, 0xD0, 0xD4, 0xE0, 0xE8]).setReg (Reg.BLK_CTL 0xE8) 5, (firstWrite .HOST ((up [1, 2, 7, 8, 0xC3, 0xD0, 0xD4, 0xE0, 0xE8]).setReg (Reg.BLK_CTL 0xE8) 5)),
    by decide +kernel⟩,
   ⟨.HOST, 0, 0x40000000, (up [1, 2, 7, 8, 0xC3, 0xD0, 0xD4, 0xE0, 0xE8]), (firstWrite .HOST ((up [1, 2, 7, 8, 0xC3, 0xD0, 0xD4, 0xE0, 0xE8]))),
    by decide +kernel⟩,
   ⟨.HOST, 0, 0, (up [1, 2, 7, 8, 0xC3, 0xD0, 0xD4, 0xE0, 0xE8]).setReg (linkCfgReg 0) 0x80000000, (firstWrite .HOST ((up [1, 2, 7, 8, 0xC3, 0xD0, 0xD4, 0xE0, 0xE8]).setReg (linkCfgReg 0) 0x80000000)),
    by decide +kernel⟩,
   ⟨0, ((up [1, 2, 7, 8, 0xC3, 0xD0, 0xD4, 0xE0, 0xE8]).setReg (linkStsReg 0) 1),
    by decide +kernel⟩,
   ⟨0, ((up [1, 2, 7, 8, 0xC3, 0xD0, 0xD4, 0xE0, 0xE8]).setReg (linkStsReg 0) 2),
    by decide +kernel⟩,
   ⟨0, ((up [1, 2, 7, 8, 0xC3, 0xD0, 0xD4, 0xE0, 0xE8]).setReg (linkStsReg 0) 4),
    by decide +kernel⟩,
   ⟨0, ((up [1, 2, 7, 8, 0xC3, 0xD0, 0xD4, 0xE0, 0xE8]).setReg (linkStsReg 0) 4),
    by decide +kernel⟩,
   ⟨0, (up [1, 2, 7, 8, 0xC3, 0xD0, 0xD4, 0xE0, 0xE8]),
    by decide +kernel⟩,
   ⟨0, 0x2000, (((up [1, 2, 7, 8, 0xC3, 0xD0, 0xD4, 0xE0, 0xE8]).setReg (linkStsReg 0) 4).setHb (.lnkDisc 0) false), (((up [1, 2, 7, 8, 0xC3, 0xD0, 0xD4, 0xE0, 0xE8]).setReg (linkStsReg 0) 4).setHb (.lnkDisc 0) false), (((((up [1, 2, 7, 8, 0xC3, 0xD0, 0xD4, 0xE0, 0xE8]).setReg (linkStsReg 0) 4).setHb (.lnkDisc 0) false).setRbit (linkStsReg 0) 8 true).setRbit (linkStsReg 0) 9 false),
    by decide +kernel⟩,
   ⟨0, ((((up [1, 2, 7, 8, 0xC3, 0xD0, 0xD4, 0xE0, 0xE8]).setReg (linkStsReg 0) 3).setH (.kaGood 0) 1).setH (.peerAt 0) 1).setReg (Reg.FG.PEER 0 0) 5,
    by decide +kernel⟩,
   ⟨0, ((up [1, 2, 7, 8, 0xC3, 0xD0, 0xD4, 0xE0, 0xE8]).setReg (linkStsReg 0) 3),
    by decide +kernel⟩,
   ⟨0, 5, 1000000, 7, ((up [1, 2, 7, 8, 0xC3, 0xD0, 0xD4, 0xE0, 0xE8]).setReg (linkStsReg 0) 4), (bumpBy (Reg.FG.CW_CORR 0 0) 5 (bumpBy (Reg.FG.CW_UNCORR 0 0) 1000000 (bumpBy (Reg.FG.SYM_CORR 0 0) 7 (nextInterval (fgPage 0) (.degAtL 0) (cycUs 1000) ((up [1, 2, 7, 8, 0xC3, 0xD0, 0xD4, 0xE0, 0xE8]).setReg (linkStsReg 0) 4))))),
    by decide +kernel⟩,
   ⟨0, (up [1, 2, 7, 8, 0xC3, 0xD0, 0xD4, 0xE0, 0xE8]).setReg (linkCfgReg 0) 0x40000000,
    by decide +kernel⟩,
   ⟨.HOST, 0, 0x80000000, (up [1, 2, 7, 8, 0xC3, 0xD0, 0xD4, 0xE0, 0xE8]),
    by decide +kernel⟩,
   ⟨.HOST, 0, 0x40000000, (up [1, 2, 7, 8, 0xC3, 0xD0, 0xD4, 0xE0, 0xE8]),
    by decide +kernel⟩,
   ⟨0, ((up [1, 2, 7, 8, 0xC3, 0xD0, 0xD4, 0xE0, 0xE8]).setReg (linkStsReg 0) 4),
    by decide +kernel⟩,
   ⟨0, ((up [1, 2, 7, 8, 0xC3, 0xD0, 0xD4, 0xE0, 0xE8]).setReg (linkStsReg 0) 4),
    by decide +kernel⟩,
   ⟨0, (up [1, 2, 7, 8, 0xC3, 0xD0, 0xD4, 0xE0, 0xE8]),
    by decide +kernel⟩,
   ⟨0, ((up [1, 2, 7, 8, 0xC3, 0xD0, 0xD4, 0xE0, 0xE8]).setReg (linkStsReg 0) 4), (waitRoot (0 + 4 * cycUs ((up [1, 2, 7, 8, 0xC3, 0xD0, 0xD4, 0xE0, 0xE8]).reg Reg.FAB.KA_IVL)) ((up [1, 2, 7, 8, 0xC3, 0xD0, 0xD4, 0xE0, 0xE8]).setReg (linkStsReg 0) 4)),
    by decide +kernel⟩,
   ⟨0, (cellHeader 6 0 0 0 0 0 3 0 0 0 0 ++ [1, 0, 0, 7, 0, 3, 2] ++ List.replicate 57 0), ((up [1, 2, 7, 8, 0xC3, 0xD0, 0xD4, 0xE0, 0xE8]).setReg (linkStsReg 0) 4), (bump (Reg.FG.CELLS_RX 0 0) ((up [1, 2, 7, 8, 0xC3, 0xD0, 0xD4, 0xE0, 0xE8]).setReg (linkStsReg 0) 4)),
    by decide +kernel⟩,
   ⟨0, (cellHeader 5 0 0 0 0 0 8 0 0 0 0 ++ [1, 0] ++ List.replicate 142 0), ((up [1, 2, 7, 8, 0xC3, 0xD0, 0xD4, 0xE0, 0xE8]).setReg (linkStsReg 0) 4), (bump (Reg.FG.CELLS_RX 0 0) ((up [1, 2, 7, 8, 0xC3, 0xD0, 0xD4, 0xE0, 0xE8]).setReg (linkStsReg 0) 4)),
    by decide +kernel⟩,
   ⟨0, [], true, ((up [1, 2, 7, 8, 0xC3, 0xD0, 0xD4, 0xE0, 0xE8]).setReg (linkStsReg 0) 4),
    by decide +kernel⟩,
   ⟨0, 1, ((up [1, 2, 7, 8, 0xC3, 0xD0, 0xD4, 0xE0, 0xE8]).setReg (linkStsReg 0) 4).setH (.reachAt 1) 5,
    by decide +kernel⟩,
   ⟨.HOST, false, 0, (up [1, 2, 7, 8, 0xC3, 0xD0, 0xD4, 0xE0, 0xE8]), (firstWrite .HOST ((up [1, 2, 7, 8, 0xC3, 0xD0, 0xD4, 0xE0, 0xE8]))),
    by decide +kernel⟩,
   ⟨.HOST, false, 5, (up [1, 2, 7, 8, 0xC3, 0xD0, 0xD4, 0xE0, 0xE8]), (firstWrite .HOST ((up [1, 2, 7, 8, 0xC3, 0xD0, 0xD4, 0xE0, 0xE8]))),
    by decide +kernel⟩,
   ⟨.HOST, false, 0, (up [1, 2, 7, 8, 0xC3, 0xD0, 0xD4, 0xE0, 0xE8]),
    by decide +kernel⟩⟩

theorem meets_CellTransmission :
    (∃ (d : Fin 4096) (c : Fin 8) (s : State),
    (segFrame s (8 * d + c) = none ∨ s.root < quietEnd s)) ∧
    (∃ (d : Fin 4096) (c : Fin 8) (f : Frame) (pay x : List Byte) (n : Nat) (s : State),
    (s.live fabPage = true) ∧
    (segFrame s (8 * d + c) = some f) ∧
    (quietEnd s ≤ s.root) ∧
    (f.whole = true) ∧
    (f.bad = false) ∧
    (nextCell f = some (pay, n, false)) ∧
    (cellHeader (if f.sent = 0 then 0 else 1) d (devId s) c (f.parity.getD 0) (s.hn (.txSeq (8 * d + c))) (pay.length / 16 - 1) 0 (ofB (if f.sent = 0 then false else f.cut)) f.dq (f.birth / 16 % 2 ^ 32) ++ pay = x) ∧
    ((cellSend d 2 x s).isSome = true)) ∧
    (∃ (f : Frame),
    (f.whole = true) ∧
    (f.sent = 0) ∧
    (f.heldBytes.length ≤ 200)) ∧
    (∃ (d k : Nat) (x : List Byte) (s : State),
    (d = devId s)) ∧
    (∃ (d k : Nat) (x : List Byte) (s : State) (w : State),
    (d ≠ devId s) ∧
    (fillWait d (((spraySet s d).map fun l => (txLink s l).wait.length).sum + 1) s = w)) ∧
    (∃ (l n : Nat) (x y : List Byte) (s : State),
    ((txLink s l).body = []) ∧
    ((txLink s l).first = 63) ∧
    (x.length = 640) ∧
    (scramble (txLink s l).scr x = (y, n))) ∧
    (∃ (s : State),
    (s.live fabPage = true)) ∧
    (∃ (r : Req) (v : W32) (s : State) (w : State),
    (Admits s r Reg.FAB.SEQ_QUIET) ∧
    (firstWrite r s = w)) ∧
    (∃ (d : Fin 4096) (s : State),
    (s.credQ.filter (fun m => m.dest == d.val) = [])) ∧
    (∃ (d : Fin 4096) (m : CredMsg) (s : State) (w : State),
    (s.live qmgrPage = true) ∧
    (s.credQ.filter (fun m => m.dest == d.val) = [m]) ∧
    (waitRoot (m.since + cycNs (s.reg Reg.FAB.CREDIT_HOLD)) s = w) ∧
    (w.live fabPage = true) ∧
    (reachable w d = false)) ∧
    (∃ (d : Fin 4096) (m : CredMsg) (s : State) (w : State),
    (s.live qmgrPage = true) ∧
    (s.credQ.filter (fun m => m.dest == d.val) = [m]) ∧
    (waitRoot (m.since + cycNs (s.reg Reg.FAB.CREDIT_HOLD)) s = w) ∧
    (w.live fabPage = true) ∧
    (reachable w d = true) ∧
    ((cellSend d 1 (cellHeader 4 d (devId w) 7 0 0 3 0 0 0 0 ++ beBytes 8 m.msg ++ List.replicate 56 0) w).isSome = true)) ∧
    (∃ (d : Fin 4096) (c : Fin 8) (s : State),
    (s.live fabPage = true)) ∧
    (∃ (d : Fin 4096) (s : State),
    (s.live qmgrPage = true)) :=
  ⟨⟨5, 0, (up [1, 2, 7, 8, 0xC3, 0xD0, 0xD4, 0xE0, 0xE8]),
    by decide +kernel⟩,
   ⟨5, 0, ({ id := 1, loc := .fabricTx, ctx := 41, bytes := List.replicate 600 0, dq := 3 } : Frame), ((nextCell ({ id := 1, loc := .fabricTx, ctx := 41, bytes := List.replicate 600 0, dq := 3 } : Frame)).map (·.1)).getD [], (cellHeader 0 5 9 0 0 0 15 0 0 3 0 ++ ((nextCell ({ id := 1, loc := .fabricTx, ctx := 41, bytes := List.replicate 600 0, dq := 3 } : Frame)).map (·.1)).getD []), 256, ({ (((up [1, 2, 7, 8, 0xC3, 0xD0, 0xD4, 0xE0, 0xE8]).setTab fabPage 3 0 (2 ^ 26)).regsSet [(linkStsReg 0, 4), (Reg.FAB.DEV_ID, 9), (Reg.FAB.SEQ_QUIET, 0)]) with frames := [{ id := 1, loc := .fabricTx, ctx := 41, bytes := List.replicate 600 0, dq := 3 }] }),
    by decide +kernel⟩,
   ⟨{ id := 1, loc := .fabricTx, bytes := [1, 2] },
    by decide +kernel⟩,
   ⟨9, 0, [], ((up [1, 2, 7, 8, 0xC3, 0xD0, 0xD4, 0xE0, 0xE8]).setReg Reg.FAB.DEV_ID 9),
    by decide +kernel⟩,
   ⟨5, 2, [], (((up [1, 2, 7, 8, 0xC3, 0xD0, 0xD4, 0xE0, 0xE8]).setTab fabPage 3 0 (2 ^ 26)).regsSet [(linkStsReg 0, 4), (Reg.FAB.DEV_ID, 9), (Reg.FAB.SEQ_QUIET, 0)]), (fillWait 5 (((spraySet (((up [1, 2, 7, 8, 0xC3, 0xD0, 0xD4, 0xE0, 0xE8]).setTab fabPage 3 0 (2 ^ 26)).regsSet [(linkStsReg 0, 4), (Reg.FAB.DEV_ID, 9), (Reg.FAB.SEQ_QUIET, 0)]) 5).map fun l => (txLink (((up [1, 2, 7, 8, 0xC3, 0xD0, 0xD4, 0xE0, 0xE8]).setTab fabPage 3 0 (2 ^ 26)).regsSet [(linkStsReg 0, 4), (Reg.FAB.DEV_ID, 9), (Reg.FAB.SEQ_QUIET, 0)]) l).wait.length).sum + 1) (((up [1, 2, 7, 8, 0xC3, 0xD0, 0xD4, 0xE0, 0xE8]).setTab fabPage 3 0 (2 ^ 26)).regsSet [(linkStsReg 0, 4), (Reg.FAB.DEV_ID, 9), (Reg.FAB.SEQ_QUIET, 0)])),
    by decide +kernel⟩,
   ⟨0, ((scramble 0 (List.replicate 640 0)).2), (List.replicate 640 0), ((scramble 0 (List.replicate 640 0)).1), (((up [1, 2, 7, 8, 0xC3, 0xD0, 0xD4, 0xE0, 0xE8]).setTab fabPage 3 0 (2 ^ 26)).regsSet [(linkStsReg 0, 4), (Reg.FAB.DEV_ID, 9), (Reg.FAB.SEQ_QUIET, 0)]),
    by decide +kernel⟩,
   ⟨(up [1, 2, 7, 8, 0xC3, 0xD0, 0xD4, 0xE0, 0xE8]),
    by decide +kernel⟩,
   ⟨.HOST, 5, (up [1, 2, 7, 8, 0xC3, 0xD0, 0xD4, 0xE0, 0xE8]), (firstWrite .HOST ((up [1, 2, 7, 8, 0xC3, 0xD0, 0xD4, 0xE0, 0xE8]))),
    by decide +kernel⟩,
   ⟨5, (up [1, 2, 7, 8, 0xC3, 0xD0, 0xD4, 0xE0, 0xE8]),
    by decide +kernel⟩,
   ⟨5, ⟨5, 0, 7⟩, ({ (up [1, 2, 7, 8, 0xC3, 0xD0, 0xD4, 0xE0, 0xE8]) with credQ := [⟨5, 0, 7⟩] }), (waitRoot (0 + cycNs (({ (up [1, 2, 7, 8, 0xC3, 0xD0, 0xD4, 0xE0, 0xE8]) with credQ := [⟨5, 0, 7⟩] }).reg Reg.FAB.CREDIT_HOLD)) ({ (up [1, 2, 7, 8, 0xC3, 0xD0, 0xD4, 0xE0, 0xE8]) with credQ := [⟨5, 0, 7⟩] })),
    by decide +kernel⟩,
   ⟨5, ⟨5, 0, 7⟩, ({ (((up [1, 2, 7, 8, 0xC3, 0xD0, 0xD4, 0xE0, 0xE8]).setTab fabPage 3 0 (2 ^ 26)).regsSet [(linkStsReg 0, 4), (Reg.FAB.DEV_ID, 9), (Reg.FAB.SEQ_QUIET, 0)]) with credQ := [⟨5, 0, 7⟩] }), (waitRoot (0 + cycNs (({ (((up [1, 2, 7, 8, 0xC3, 0xD0, 0xD4, 0xE0, 0xE8]).setTab fabPage 3 0 (2 ^ 26)).regsSet [(linkStsReg 0, 4), (Reg.FAB.DEV_ID, 9), (Reg.FAB.SEQ_QUIET, 0)]) with credQ := [⟨5, 0, 7⟩] }).reg Reg.FAB.CREDIT_HOLD)) ({ (((up [1, 2, 7, 8, 0xC3, 0xD0, 0xD4, 0xE0, 0xE8]).setTab fabPage 3 0 (2 ^ 26)).regsSet [(linkStsReg 0, 4), (Reg.FAB.DEV_ID, 9), (Reg.FAB.SEQ_QUIET, 0)]) with credQ := [⟨5, 0, 7⟩] })),
    by decide +kernel⟩,
   ⟨5, 0, ({ (((up [1, 2, 7, 8, 0xC3, 0xD0, 0xD4, 0xE0, 0xE8]).setTab fabPage 3 0 (2 ^ 26)).regsSet [(linkStsReg 0, 4), (Reg.FAB.DEV_ID, 9), (Reg.FAB.SEQ_QUIET, 0)]) with frames := [{ id := 1, loc := .fabricTx, ctx := 41, bytes := List.replicate 600 0, dq := 3 }] }),
    by decide +kernel⟩,
   ⟨5, ({ (up [1, 2, 7, 8, 0xC3, 0xD0, 0xD4, 0xE0, 0xE8]) with credQ := [⟨5, 0, 7⟩] }),
    by decide +kernel⟩⟩

theorem meets_Resequencer :
    (∃ (l : Fin 192) (x : List Byte) (s : State) (w : State),
    (s.live (fgPage l) = true) ∧
    (flinkState s l = 4) ∧
    (s.hb (.lnkDisc l) = false) ∧
    (hcrcOk x = true) ∧
    (cellType x ≤ 3) ∧
    (bump (Reg.FG.CELLS_RX (l / 32) (l % 32)) s = w) ∧
    (w.live fabPage = true) ∧
    (3 ≤ cellLen x) ∧
    (cellDst x = devId w) ∧
    (w.hb (.stuck 36) = false)) ∧
    (∃ (x : List Byte) (s : State),
    (s.live fabPage = true) ∧
    (3 ≤ cellLen x) ∧
    (cellDst x ≠ devId s)) ∧
    (∃ (x : List Byte) (err : Bool) (s : State),
    (s.localPath.dropWhile (fun y => !decide (cellType y ≤ 3)) = [])) ∧
    (∃ (x : List Byte) (err : Bool) (y : List Byte) (r : List (List Byte)) (s : State),
    (s.localPath.dropWhile (fun y => !decide (cellType y ≤ 3)) = y :: r)) ∧
    (∃ (x : List Byte) (err : Bool) (s : State),
    (s.localPath.dropWhile (fun y => !(cellType y == 4)) = [])) ∧
    (∃ (l : Fin 192) (x : List Byte) (s : State) (w : State),
    (s.live (fgPage l) = true) ∧
    (flinkState s l = 4) ∧
    (s.hb (.lnkDisc l) = false) ∧
    (hcrcOk x = true) ∧
    (cellType x = 4) ∧
    (bump (Reg.FG.CELLS_RX (l / 32) (l % 32)) s = w) ∧
    (w.live fabPage = true) ∧
    (3 ≤ cellLen x) ∧
    (cellDst x = devId w)) ∧
    (∃ (x : List Byte) (s : State) (w : State),
    (s.setH (.rsLast (8 * cellSrc x + cellClass x)) (s.root + 1 : Nat) = w) ∧
    (w.hb (.rsSync (8 * cellSrc x + cellClass x)) = true) ∧
    ((cellSeq x + 2 ^ 24 - w.hn (.rsE (8 * cellSrc x + cellClass x))) % 2 ^ 24 = 0)) ∧
    (∃ (x : List Byte) (d : Nat) (s : State) (w : State),
    (s.setH (.rsLast (8 * cellSrc x + cellClass x)) (s.root + 1 : Nat) = w) ∧
    (w.hb (.rsSync (8 * cellSrc x + cellClass x)) = true) ∧
    ((cellSeq x + 2 ^ 24 - w.hn (.rsE (8 * cellSrc x + cellClass x))) % 2 ^ 24 = d) ∧
    (d ≠ 0) ∧
    (d < 65536 ∨ (1 ≤ (w.hn (.rsE (8 * cellSrc x + cellClass x)) + 2 ^ 24 - cellSeq x) % 2 ^ 24 ∧ (w.hn (.rsE (8 * cellSrc x + cellClass x)) + 2 ^ 24 - cellSeq x) % 2 ^ 24 ≤ 65536)) ∧
    (cellSrc x ≠ devId w)) ∧
    (∃ (c : Fin 32768) (s : State),
    (heldOf s c = [] ∨ s.hb (.rsSync c) = true)) ∧
    (∃ (c : Fin 32768) (h : Held) (hs : List Held) (e : Nat) (s : State) (w : State),
    (s.live fabPage = true) ∧
    (heldOf s c = h :: hs) ∧
    (s.hb (.rsSync c) = false) ∧
    (waitRoot (h.since + cycNs (s.reg Reg.FAB.SYNC_HOLD)) s = w) ∧
    (lowestSeq ((heldOf w c).map (·.seq)) = some e)) ∧
    (∃ (c : Fin 32768) (s : State),
    (s.live fabPage = true) ∧
    (s.hb (.rsSync c) = true)) ∧
    (∃ (c : Fin 32768) (s : State),
    (s.hb (.rsSync c) = false)) ∧
    (∃ (c : Fin 32768) (s : State),
    (heldOf s c = [])) ∧
    (∃ (c : Fin 32768) (h : Held) (hs : List Held) (s : State) (w : State) (t : State),
    (s.live fabPage = true) ∧
    (heldOf s c = h :: hs) ∧
    (s.hb (.rsSync c) = true) ∧
    (waitRoot (h.since + cycUs (s.reg Reg.FAB.RESEQ_TMO)) s = w) ∧
    (raiseFirst fabPage 0 (bump Reg.FAB.RESEQ_TIMEOUT w) = t)) ∧
    (∃ (c : Fin 32768) (s : State),
    (s.live fabPage = true)) ∧
    (∃ (c : Fin 32768) (s : State),
    (s.live fabPage = true)) :=
  ⟨⟨0, (cellHeader 3 9 5 0 0 7 15 0 0 3 0 ++ List.replicate 256 0), (((up [1, 2, 7, 8, 0xC3, 0xD0, 0xD4, 0xE0, 0xE8]).setReg Reg.FAB.DEV_ID 9).setReg (linkStsReg 0) 4), (bump (Reg.FG.CELLS_RX 0 0) (((up [1, 2, 7, 8, 0xC3, 0xD0, 0xD4, 0xE0, 0xE8]).setReg Reg.FAB.DEV_ID 9).setReg (linkStsReg 0) 4)),
    by decide +kernel⟩,
   ⟨(cellHeader 3 9 5 0 0 7 15 0 0 3 0 ++ List.replicate 256 0), (up [1, 2, 7, 8, 0xC3, 0xD0, 0xD4, 0xE0, 0xE8]),
    by decide +kernel⟩,
   ⟨[], false, (up [1, 2, 7, 8, 0xC3, 0xD0, 0xD4, 0xE0, 0xE8]),
    by decide +kernel⟩,
   ⟨[], false, (cellHeader 3 9 5 0 0 7 15 0 0 3 0 ++ List.replicate 256 0), [], { ((up [1, 2, 7, 8, 0xC3, 0xD0, 0xD4, 0xE0, 0xE8]).setReg Reg.FAB.DEV_ID 9) with localPath := [(cellHeader 3 9 5 0 0 7 15 0 0 3 0 ++ List.replicate 256 0)] },
    by decide +kernel⟩,
   ⟨[], false, (up [1, 2, 7, 8, 0xC3, 0xD0, 0xD4, 0xE0, 0xE8]),
    by decide +kernel⟩,
   ⟨0, (cellHeader 4 9 5 7 0 0 3 0 0 0 0 ++ List.replicate 64 0), (((up [1, 2, 7, 8, 0xC3, 0xD0, 0xD4, 0xE0, 0xE8]).setReg Reg.FAB.DEV_ID 9).setReg (linkStsReg 0) 4), (bump (Reg.FG.CELLS_RX 0 0) (((up [1, 2, 7, 8, 0xC3, 0xD0, 0xD4, 0xE0, 0xE8]).setReg Reg.FAB.DEV_ID 9).setReg (linkStsReg 0) 4)),
    by decide +kernel⟩,
   ⟨(cellHeader 3 9 5 0 0 7 15 0 0 3 0 ++ List.replicate 256 0), ((((up [1, 2, 7, 8, 0xC3, 0xD0, 0xD4, 0xE0, 0xE8]).setReg Reg.FAB.DEV_ID 9).setH (.rsSync 40) 1).setH (.rsE 40) 7), (((((up [1, 2, 7, 8, 0xC3, 0xD0, 0xD4, 0xE0, 0xE8]).setReg Reg.FAB.DEV_ID 9).setH (.rsSync 40) 1).setH (.rsE 40) 7).setH (.rsLast 40) 1),
    by decide +kernel⟩,
   ⟨(cellHeader 3 9 5 0 0 7 15 0 0 3 0 ++ List.replicate 256 0), 4, ((((up [1, 2, 7, 8, 0xC3, 0xD0, 0xD4, 0xE0, 0xE8]).setReg Reg.FAB.DEV_ID 9).setH (.rsSync 40) 1).setH (.rsE 40) 3), (((((up [1, 2, 7, 8, 0xC3, 0xD0, 0xD4, 0xE0, 0xE8]).setReg Reg.FAB.DEV_ID 9).setH (.rsSync 40) 1).setH (.rsE 40) 3).setH (.rsLast 40) 1),
    by decide +kernel⟩,
   ⟨40, (up [1, 2, 7, 8, 0xC3, 0xD0, 0xD4, 0xE0, 0xE8]),
    by decide +kernel⟩,
   ⟨40, ⟨40, 7, 0, (cellHeader 3 9 5 0 0 7 15 0 0 3 0 ++ List.replicate 256 0)⟩, [], 7, ({ ((up [1, 2, 7, 8, 0xC3, 0xD0, 0xD4, 0xE0, 0xE8]).setReg Reg.FAB.DEV_ID 9) with held := [⟨40, 7, 0, (cellHeader 3 9 5 0 0 7 15 0 0 3 0 ++ List.replicate 256 0)⟩] }), (waitRoot (0 + cycNs (({ ((up [1, 2, 7, 8, 0xC3, 0xD0, 0xD4, 0xE0, 0xE8]).setReg Reg.FAB.DEV_ID 9) with held := [⟨40, 7, 0, (cellHeader 3 9 5 0 0 7 15 0 0 3 0 ++ List.replicate 256 0)⟩] }).reg Reg.FAB.SYNC_HOLD)) ({ ((up [1, 2, 7, 8, 0xC3, 0xD0, 0xD4, 0xE0, 0xE8]).setReg Reg.FAB.DEV_ID 9) with held := [⟨40, 7, 0, (cellHeader 3 9 5 0 0 7 15 0 0 3 0 ++ List.replicate 256 0)⟩] })),
    by decide +kernel⟩,
   ⟨40, ((up [1, 2, 7, 8, 0xC3, 0xD0, 0xD4, 0xE0, 0xE8]).setReg Reg.FAB.DEV_ID 9).setH (.rsSync 40) 1,
    by decide +kernel⟩,
   ⟨40, ((up [1, 2, 7, 8, 0xC3, 0xD0, 0xD4, 0xE0, 0xE8]).setReg Reg.FAB.DEV_ID 9),
    by decide +kernel⟩,
   ⟨40, ((up [1, 2, 7, 8, 0xC3, 0xD0, 0xD4, 0xE0, 0xE8]).setReg Reg.FAB.DEV_ID 9),
    by decide +kernel⟩,
   ⟨40, ⟨40, 7, 0, (cellHeader 3 9 5 0 0 7 15 0 0 3 0 ++ List.replicate 256 0)⟩, [], ({ ((up [1, 2, 7, 8, 0xC3, 0xD0, 0xD4, 0xE0, 0xE8]).setReg Reg.FAB.DEV_ID 9).setH (.rsSync 40) 1 with held := [⟨40, 7, 0, (cellHeader 3 9 5 0 0 7 15 0 0 3 0 ++ List.replicate 256 0)⟩] }), (waitRoot (0 + cycUs (({ ((up [1, 2, 7, 8, 0xC3, 0xD0, 0xD4, 0xE0, 0xE8]).setReg Reg.FAB.DEV_ID 9).setH (.rsSync 40) 1 with held := [⟨40, 7, 0, (cellHeader 3 9 5 0 0 7 15 0 0 3 0 ++ List.replicate 256 0)⟩] }).reg Reg.FAB.RESEQ_TMO)) ({ ((up [1, 2, 7, 8, 0xC3, 0xD0, 0xD4, 0xE0, 0xE8]).setReg Reg.FAB.DEV_ID 9).setH (.rsSync 40) 1 with held := [⟨40, 7, 0, (cellHeader 3 9 5 0 0 7 15 0 0 3 0 ++ List.replicate 256 0)⟩] })), (raiseFirst fabPage 0 (bump Reg.FAB.RESEQ_TIMEOUT (waitRoot (0 + cycUs (({ ((up [1, 2, 7, 8, 0xC3, 0xD0, 0xD4, 0xE0, 0xE8]).setReg Reg.FAB.DEV_ID 9).setH (.rsSync 40) 1 with held := [⟨40, 7, 0, (cellHeader 3 9 5 0 0 7 15 0 0 3 0 ++ List.replicate 256 0)⟩] }).reg Reg.FAB.RESEQ_TMO)) ({ ((up [1, 2, 7, 8, 0xC3, 0xD0, 0xD4, 0xE0, 0xE8]).setReg Reg.FAB.DEV_ID 9).setH (.rsSync 40) 1 with held := [⟨40, 7, 0, (cellHeader 3 9 5 0 0 7 15 0 0 3 0 ++ List.replicate 256 0)⟩] })))),
    by decide +kernel⟩,
   ⟨40, ({ ((up [1, 2, 7, 8, 0xC3, 0xD0, 0xD4, 0xE0, 0xE8]).setReg Reg.FAB.DEV_ID 9) with held := [⟨40, 7, 0, (cellHeader 3 9 5 0 0 7 15 0 0 3 0 ++ List.replicate 256 0)⟩] }),
    by decide +kernel⟩,
   ⟨40, ({ ((up [1, 2, 7, 8, 0xC3, 0xD0, 0xD4, 0xE0, 0xE8]).setReg Reg.FAB.DEV_ID 9).setH (.rsSync 40) 1 with held := [⟨40, 7, 0, (cellHeader 3 9 5 0 0 7 15 0 0 3 0 ++ List.replicate 256 0)⟩] }),
    by decide +kernel⟩⟩

theorem meets_DeepStoreBringUp :
    (∃ (r : Req) (v : W32) (s : State) (w : State),
    (Admits s r (Reg.DSC.POP_CFG 0)) ∧
    (firstWrite r s = w) ∧
    (v.toNat % 32 = 0 ∨ v.toNat % 32 = 8 ∨ v.toNat % 32 = 16) ∧
    (allDscOff w = true)) ∧
    (∃ (r : Req) (v : W32) (s : State) (w : State),
    (Admits s r (Reg.DSC.POP_CFG 0)) ∧
    (firstWrite r s = w) ∧
    (allDscOff w = false ∨ (v.toNat % 32 ≠ 0 ∧ v.toNat % 32 ≠ 8 ∧ v.toNat % 32 ≠ 16))) ∧
    (∃ (r : Req) (c : Fin 16) (b : Fin 5) (v : W32) (s : State) (w : State),
    (Admits s r (Reg.DSC.BMAP c b)) ∧
    (firstWrite r s = w) ∧
    (w.rbit (Reg.BLK_CTL (dscPage c)) 0 = true)) ∧
    (∃ (r : Req) (c : Fin 16) (b : Fin 5) (v : W32) (s : State) (w : State),
    (Admits s r (Reg.DSC.BMAP c b)) ∧
    (firstWrite r s = w) ∧
    (w.rbit (Reg.BLK_CTL (dscPage c)) 0 = false)) ∧
    (∃ (r : Req) (c : Fin 16) (s : State) (w : State),
    (Admits s r (Reg.BLK_CTL (dscPage c))) ∧
    (firstWrite r s = w) ∧
    (w.rbit (Reg.BLK_CTL (dscPage c)) 0 = false) ∧
    ((popChannels (w.setRbit (Reg.BLK_CTL (dscPage c)) 0 true)).contains c.val = true) ∧
    ((w.setRbit (Reg.BLK_CTL (dscPage c)) 0 true).clocked (dscPage c) = true)) ∧
    (∃ (c : Fin 16) (spd : W32) (rfm : BitVec 16) (k : Nat) (s : State),
    (s.live (dscPage c) = true) ∧
    (s.hn (.trainStep c) = k) ∧
    (2 ≤ k) ∧
    (k ≤ 5)) ∧
    (∃ (c : Fin 16) (spd : W32) (rfm : BitVec 16) (s : State),
    (s.live (dscPage c) = true) ∧
    (s.hn (.trainStep c) = 6)) ∧
    (∃ (c : Fin 16) (spd : W32) (rfm : BitVec 16) (k : Nat) (s : State),
    (s.live (dscPage c) = true) ∧
    (s.hn (.trainStep c) = k) ∧
    (2 ≤ k) ∧
    (k ≤ 6)) ∧
    (∃ (c : Fin 16) (fail : Bool) (spd : W32) (rfm : BitVec 16) (s : State),
    (s.hn (.trainStep c) = 0 ∨ 6 < s.hn (.trainStep c))) ∧
    (∃ (s : State) (w : State),
    (s.pageOn bpmPage = true) ∧
    (s.pageOn (dscPage 0) = true) ∧
    ((popChannels s).isEmpty = false) ∧
    (s.h .popRun = 1) ∧
    (((popChannels s).all fun c => s.h (.trainStep c) == 7) = true) ∧
    ({ s with bufs := s.bufs.filter fun e => e.1 / 2 ^ 32 != 1, hid := s.hid.filter fun e => e.1 / 2 ^ 96 != (Hid.pgInt 0).code / 2 ^ 96 } = w)) ∧
    (∃ (s : State),
    (((popChannels s).all fun c => s.h (.trainStep c) == 7) = false)) ∧
    (∃ (c spd rfm : Nat) (s : State),
    (s.hn (.trainStep c) = 1)) ∧
    (∃ (r : Req) (v : W32) (s : State),
    (Admits s r (Reg.DSC.POP_CFG 0))) ∧
    (∃ (r : Req) (c : Fin 16) (b : Fin 5) (v : W32) (s : State),
    (Admits s r (Reg.DSC.BMAP c b))) ∧
    (∃ (r : Req) (c : Fin 16) (s : State),
    (Admits s r (Reg.BLK_CTL (dscPage c)))) ∧
    (∃ (c : Fin 16) (fail : Bool) (spd : W32) (rfm : BitVec 16) (s : State),
    (s.live (dscPage c) = true)) ∧
    (∃ (s : State),
    (s.pageOn bpmPage = true) ∧
    (s.pageOn (dscPage 0) = true)) :=
  ⟨⟨.HOST, 16, ((((up (1 :: 6 :: 7 :: 11 :: (List.range 16).map (0xF0 + ·))).regsSet [(Reg.DSC.POP_CFG 0, 8)])).regsSet ((List.range 16).map fun c => (Reg.BLK_CTL (0xF0 + c), 0))), (firstWrite .HOST (((((up (1 :: 6 :: 7 :: 11 :: (List.range 16).map (0xF0 + ·))).regsSet [(Reg.DSC.POP_CFG 0, 8)])).regsSet ((List.range 16).map fun c => (Reg.BLK_CTL (0xF0 + c), 0))))),
    by decide +kernel⟩,
   ⟨.HOST, 8, ((up (1 :: 6 :: 7 :: 11 :: (List.range 16).map (0xF0 + ·))).regsSet [(Reg.DSC.POP_CFG 0, 8)]), (firstWrite .HOST (((up (1 :: 6 :: 7 :: 11 :: (List.range 16).map (0xF0 + ·))).regsSet [(Reg.DSC.POP_CFG 0, 8)]))),
    by decide +kernel⟩,
   ⟨.HOST, 0, 0, 2, ((up (1 :: 6 :: 7 :: 11 :: (List.range 16).map (0xF0 + ·))).regsSet [(Reg.DSC.POP_CFG 0, 8)]), (firstWrite .HOST (((up (1 :: 6 :: 7 :: 11 :: (List.range 16).map (0xF0 + ·))).regsSet [(Reg.DSC.POP_CFG 0, 8)]))),
    by decide +kernel⟩,
   ⟨.HOST, 0, 0, 2, ((((up (1 :: 6 :: 7 :: 11 :: (List.range 16).map (0xF0 + ·))).regsSet [(Reg.DSC.POP_CFG 0, 8)])).regsSet ((List.range 16).map fun c => (Reg.BLK_CTL (0xF0 + c), 0))), (firstWrite .HOST (((((up (1 :: 6 :: 7 :: 11 :: (List.range 16).map (0xF0 + ·))).regsSet [(Reg.DSC.POP_CFG 0, 8)])).regsSet ((List.range 16).map fun c => (Reg.BLK_CTL (0xF0 + c), 0))))),
    by decide +kernel⟩,
   ⟨.HOST, 0, ((((up (1 :: 6 :: 7 :: 11 :: (List.range 16).map (0xF0 + ·))).regsSet [(Reg.DSC.POP_CFG 0, 8)])).regsSet ((List.range 16).map fun c => (Reg.BLK_CTL (0xF0 + c), 0))), (firstWrite .HOST (((((up (1 :: 6 :: 7 :: 11 :: (List.range 16).map (0xF0 + ·))).regsSet [(Reg.DSC.POP_CFG 0, 8)])).regsSet ((List.range 16).map fun c => (Reg.BLK_CTL (0xF0 + c), 0))))),
    by decide +kernel⟩,
   ⟨0, 0, 0, 3, ((up (1 :: 6 :: 7 :: 11 :: (List.range 16).map (0xF0 + ·))).regsSet [(Reg.DSC.POP_CFG 0, 8)]).setH (.trainStep 0) 3,
    by decide +kernel⟩,
   ⟨0, 0, 0, ((up (1 :: 6 :: 7 :: 11 :: (List.range 16).map (0xF0 + ·))).regsSet [(Reg.DSC.POP_CFG 0, 8)]).setH (.trainStep 0) 6,
    by decide +kernel⟩,
   ⟨0, 0, 0, 3, ((up (1 :: 6 :: 7 :: 11 :: (List.range 16).map (0xF0 + ·))).regsSet [(Reg.DSC.POP_CFG 0, 8)]).setH (.trainStep 0) 3,
    by decide +kernel⟩,
   ⟨0, true, 0, 0, (((up (1 :: 6 :: 7 :: 11 :: (List.range 16).map (0xF0 + ·))).regsSet [(Reg.DSC.POP_CFG 0, 8)]).hidSet ((List.range 8).map fun c => (Hid.trainStep c, 7))),
    by decide +kernel⟩,
   ⟨((((up (1 :: 6 :: 7 :: 11 :: (List.range 16).map (0xF0 + ·))).regsSet [(Reg.DSC.POP_CFG 0, 8)]).hidSet ((List.range 8).map fun c => (Hid.trainStep c, 7))).setH .popRun 1), ({ ((((up (1 :: 6 :: 7 :: 11 :: (List.range 16).map (0xF0 + ·))).regsSet [(Reg.DSC.POP_CFG 0, 8)]).hidSet ((List.range 8).map fun c => (Hid.trainStep c, 7))).setH .popRun 1) with bufs := (((((up (1 :: 6 :: 7 :: 11 :: (List.range 16).map (0xF0 + ·))).regsSet [(Reg.DSC.POP_CFG 0, 8)]).hidSet ((List.range 8).map fun c => (Hid.trainStep c, 7))).setH .popRun 1)).bufs.filter (fun e => e.1 / 2 ^ 32 != 1), hid := (((((up (1 :: 6 :: 7 :: 11 :: (List.range 16).map (0xF0 + ·))).regsSet [(Reg.DSC.POP_CFG 0, 8)]).hidSet ((List.range 8).map fun c => (Hid.trainStep c, 7))).setH .popRun 1)).hid.filter (fun e => e.1 / 2 ^ 96 != (Hid.pgInt 0).code / 2 ^ 96) }),
    by decide +kernel⟩,
   ⟨((up (1 :: 6 :: 7 :: 11 :: (List.range 16).map (0xF0 + ·))).regsSet [(Reg.DSC.POP_CFG 0, 8)]),
    by decide +kernel⟩,
   ⟨0, 0, 9, ((up (1 :: 6 :: 7 :: 11 :: (List.range 16).map (0xF0 + ·))).regsSet [(Reg.DSC.POP_CFG 0, 8)]).setH (.trainStep 0) 1,
    by decide +kernel⟩,
   ⟨.HOST, 16, ((((up (1 :: 6 :: 7 :: 11 :: (List.range 16).map (0xF0 + ·))).regsSet [(Reg.DSC.POP_CFG 0, 8)])).regsSet ((List.range 16).map fun c => (Reg.BLK_CTL (0xF0 + c), 0))),
    by decide +kernel⟩,
   ⟨.HOST, 0, 0, 2, ((up (1 :: 6 :: 7 :: 11 :: (List.range 16).map (0xF0 + ·))).regsSet [(Reg.DSC.POP_CFG 0, 8)]),
    by decide +kernel⟩,
   ⟨.HOST, 0, ((((up (1 :: 6 :: 7 :: 11 :: (List.range 16).map (0xF0 + ·))).regsSet [(Reg.DSC.POP_CFG 0, 8)])).regsSet ((List.range 16).map fun c => (Reg.BLK_CTL (0xF0 + c), 0))),
    by decide +kernel⟩,
   ⟨0, false, 0, 0, ((up (1 :: 6 :: 7 :: 11 :: (List.range 16).map (0xF0 + ·))).regsSet [(Reg.DSC.POP_CFG 0, 8)]).setH (.trainStep 0) 3,
    by decide +kernel⟩,
   ⟨((((up (1 :: 6 :: 7 :: 11 :: (List.range 16).map (0xF0 + ·))).regsSet [(Reg.DSC.POP_CFG 0, 8)]).hidSet ((List.range 8).map fun c => (Hid.trainStep c, 7))).setH .popRun 1),
    by decide +kernel⟩⟩

theorem meets_DeepStoreService :
    (∃ (c : Fin 16) (s : State),
    (chanServes s c = false ∨ 256 ≤ (s.dramOps.filter fun x => x.chan == c.val).length)) ∧
    (∃ (c : Fin 16) (s : State),
    (nextOp s c = none)) ∧
    (∃ (c : Fin 16) (o o1 : DramOp) (s : State) (t : State) (u : State),
    (s.live (dscPage c) = true) ∧
    (chanServes s c = true) ∧
    ((s.dramOps.filter fun x => x.chan == c.val).length < 256) ∧
    (nextOp s c = some o) ∧
    (bump (if o.write then Reg.DSC.WR_OPS c else Reg.DSC.RD_OPS c) (rowUse c o.page o.cls (!(s.dramWait.erase o).any fun x => x.chan == c.val && x.cls == o.cls && x.page == o.page) (arbStep o { s with dramWait := s.dramWait.erase o })) = t) ∧
    (opReach o t = (o1, u))) ∧
    (∃ (c p k : Nat) (last : Bool) (s : State),
    (rowIsOpen s c (bankOf s c p) (rowOf p) = true) ∧
    (s.rfld (Reg.DSC.PG_HINT c) (2 * k) 2 = 1)) ∧
    (∃ (c p k : Nat) (last : Bool) (s : State) (w : State),
    (rowIsOpen s c (bankOf s c p) (rowOf p) = false) ∧
    (activate c (bankOf s c p) (rowOf p) k s = w) ∧
    (w.rfld (Reg.DSC.PG_HINT c) (2 * k) 2 = 0)) ∧
    (∃ (c b row k : Nat) (s : State),
    (s.hb (.thr (64 * c + b) k) = false)) ∧
    (∃ (c b : Nat) (s : State),
    (0 < s.hn (.rfmThr c)) ∧
    (s.hn (.rfmThr c) ≤ s.hn (.raa c b) + 1)) ∧
    (∃ (c : Fin 16) (k : Fin 5) (es : List (Fin 8 × Option (Fin 10))) (s : State),
    ((∀ o, s.dramOps.find? (fun o => o.chan == c.val && o.cls == k.val) = some o → (s.dramOps.takeWhile fun x => decide (x ≠ o)).any (·.sameBlock o) = true))) ∧
    (∃ (c : Fin 16) (k : Fin 5) (es : List (Fin 8 × Option (Fin 10))) (o : DramOp) (s : State),
    (s.live (dscPage c) = true) ∧
    (s.dramOps.find? (fun o => o.chan == c.val && o.cls == k.val) = some o) ∧
    ((s.dramOps.takeWhile fun x => decide (x ≠ o)).any (·.sameBlock o) = false)) ∧
    (∃ (o : DramOp) (i : Fin 4) (s : State),
    (o.write = false) ∧
    (o.bad = 0) ∧
    (o.stale = false)) ∧
    (∃ (o : DramOp) (i d : Nat) (s : State),
    (o.write = false) ∧
    (o.bad = 0)) ∧
    (∃ (c : Fin 16) (k : Fin 2) (x : Fin 3) (s : State),
    (s.live (dscPage c) = true)) ∧
    (∃ (c : Fin 16) (k : Fin 2) (half : Bool) (s : State),
    (s.live (dscPage c) = true)) ∧
    (∃ (c : Fin 16) (sr : Fin 4) (s : State),
    (s.live (dscPage c) = true) ∧
    (chanServes s c = true) ∧
    (hasRank s sr = true)) ∧
    (∃ (c : Fin 16) (sr : Fin 4) (far : Bool) (s : State),
    (s.live (dscPage c) = true) ∧
    (chanServes s c = true) ∧
    (hasRank s sr = true)) ∧
    (∃ (r : Req) (c : Fin 16) (v : W32) (s : State) (w : State),
    (Admits s r (Reg.DSC.RETRAIN_NOW c)) ∧
    (firstWrite r s = w) ∧
    (bit v.toNat 0 = true) ∧
    (w.h (.trainStep c) = 7) ∧
    (w.hn (.retrain c) % 2 = 0)) ∧
    (∃ (c : Nat) (s : State),
    (s.h (.retrain c) = 3)) ∧
    (∃ (c : Fin 16) (ok : Bool) (s : State),
    (s.live (dscPage c) = true) ∧
    (s.h (.retrain c) = 1)) ∧
    (∃ (c : Fin 16) (ok : Bool) (s : State),
    (s.h (.retrain c) ≠ 1)) ∧
    (∃ (c : Fin 16) (s : State),
    (s.live (dscPage c) = true)) ∧
    (∃ (c : Fin 16) (s : State),
    (s.rbit (Reg.DSC.PATROL_CFG c) 31 = false ∨ chanServes s c = false)) ∧
    (∃ (c : Fin 16) (s : State) (w : State),
    (s.live (dscPage c) = true) ∧
    (s.rbit (Reg.DSC.PATROL_CFG c) 31 = true) ∧
    (chanServes s c = true) ∧
    (((s.dramWait ++ s.dramOps).any fun o => o.chan == c.val && o.cls == 3 && !o.write) = false) ∧
    (nextInterval (dscPage c) (.patAt c) (patrolGap s c) s = w)) ∧
    (∃ (c : Fin 16) (x : BitVec 8) (s : State) (w : State),
    (s.live (dscPage c) = true) ∧
    ((nextInterval (dscPage c) (.tempAt c) (cycUs 100000) s).setReg (Reg.DSC.DIMM_TEMP c) x.toNat = w)) ∧
    (∃ (c : Fin 16) (s : State),
    (s.live (dscPage c) = true)) ∧
    (∃ (c : Fin 16) (k : Fin 5) (errs : List (Fin 8 × Option (Fin 10))) (s : State),
    (s.live (dscPage c) = true)) ∧
    (∃ (c : Fin 16) (ok : Bool) (s : State),
    (s.live (dscPage c) = true)) ∧
    (∃ (c : Fin 16) (t : BitVec 8) (s : State),
    (s.live (dscPage c) = true)) ∧
    (∃ (r : Req) (c : Fin 16) (v : W32) (s : State),
    (Admits s r (Reg.DSC.RETRAIN_NOW c))) :=
  ⟨⟨0, ((up (1 :: 6 :: 7 :: 11 :: (List.range 16).map (0xF0 + ·))).regsSet [(Reg.DSC.POP_CFG 0, 8)]),
    by decide +kernel⟩,
   ⟨0, (((((up (1 :: 6 :: 7 :: 11 :: (List.range 16).map (0xF0 + ·))).regsSet [(Reg.DSC.POP_CFG 0, 8)]).hidSet ((List.range 8).map fun c => (Hid.trainStep c, 7)))).regsSet [(Reg.DSC.DIMM_INFO 0, 0x81000000)]),
    by decide +kernel⟩,
   ⟨0, { chan := 0, cls := 3, write := false, page := 7, blk := 3 }, { chan := 0, cls := 3, write := false, page := 7, blk := 3 }, ({ (((((up (1 :: 6 :: 7 :: 11 :: (List.range 16).map (0xF0 + ·))).regsSet [(Reg.DSC.POP_CFG 0, 8)]).hidSet ((List.range 8).map fun c => (Hid.trainStep c, 7)))).regsSet [(Reg.DSC.DIMM_INFO 0, 0x81000000)]) with dramWait := [{ chan := 0, cls := 3, write := false, page := 7, blk := 3 }] }), (bump (Reg.DSC.RD_OPS 0) (rowUse 0 7 3 true (arbStep { chan := 0, cls := 3, write := false, page := 7, blk := 3 } { ({ (((((up (1 :: 6 :: 7 :: 11 :: (List.range 16).map (0xF0 + ·))).regsSet [(Reg.DSC.POP_CFG 0, 8)]).hidSet ((List.range 8).map fun c => (Hid.trainStep c, 7)))).regsSet [(Reg.DSC.DIMM_INFO 0, 0x81000000)]) with dramWait := [{ chan := 0, cls := 3, write := false, page := 7, blk := 3 }] }) with dramWait := [] }))), (bump (Reg.DSC.RD_OPS 0) (rowUse 0 7 3 true (arbStep { chan := 0, cls := 3, write := false, page := 7, blk := 3 } { ({ (((((up (1 :: 6 :: 7 :: 11 :: (List.range 16).map (0xF0 + ·))).regsSet [(Reg.DSC.POP_CFG 0, 8)]).hidSet ((List.range 8).map fun c => (Hid.trainStep c, 7)))).regsSet [(Reg.DSC.DIMM_INFO 0, 0x81000000)]) with dramWait := [{ chan := 0, cls := 3, write := false, page := 7, blk := 3 }] }) with dramWait := [] }))),
    by decide +kernel⟩,
   ⟨0, 7, 2, true, (((((((up (1 :: 6 :: 7 :: 11 :: (List.range 16).map (0xF0 + ·))).regsSet [(Reg.DSC.POP_CFG 0, 8)]).hidSet ((List.range 8).map fun c => (Hid.trainStep c, 7)))).regsSet [(Reg.DSC.DIMM_INFO 0, 0x81000000)]).setReg (Reg.DSC.PG_HINT 0) 0x155).setH (.openRow 0 (bankOf (((((up (1 :: 6 :: 7 :: 11 :: (List.range 16).map (0xF0 + ·))).regsSet [(Reg.DSC.POP_CFG 0, 8)]).hidSet ((List.range 8).map fun c => (Hid.trainStep c, 7)))).regsSet [(Reg.DSC.DIMM_INFO 0, 0x81000000)]) 0 7)) 1),
    by decide +kernel⟩,
   ⟨0, 7, 2, true, ((((((up (1 :: 6 :: 7 :: 11 :: (List.range 16).map (0xF0 + ·))).regsSet [(Reg.DSC.POP_CFG 0, 8)]).hidSet ((List.range 8).map fun c => (Hid.trainStep c, 7)))).regsSet [(Reg.DSC.DIMM_INFO 0, 0x81000000)]).setReg (Reg.DSC.PG_HINT 0) 0), (activate 0 (bankOf (((((up (1 :: 6 :: 7 :: 11 :: (List.range 16).map (0xF0 + ·))).regsSet [(Reg.DSC.POP_CFG 0, 8)]).hidSet ((List.range 8).map fun c => (Hid.trainStep c, 7)))).regsSet [(Reg.DSC.DIMM_INFO 0, 0x81000000)]) 0 7) 0 2 ((((((up (1 :: 6 :: 7 :: 11 :: (List.range 16).map (0xF0 + ·))).regsSet [(Reg.DSC.POP_CFG 0, 8)]).hidSet ((List.range 8).map fun c => (Hid.trainStep c, 7)))).regsSet [(Reg.DSC.DIMM_INFO 0, 0x81000000)]).setReg (Reg.DSC.PG_HINT 0) 0)),
    by decide +kernel⟩,
   ⟨0, 3, 5, 2, (((((up (1 :: 6 :: 7 :: 11 :: (List.range 16).map (0xF0 + ·))).regsSet [(Reg.DSC.POP_CFG 0, 8)]).hidSet ((List.range 8).map fun c => (Hid.trainStep c, 7)))).regsSet [(Reg.DSC.DIMM_INFO 0, 0x81000000)]),
    by decide +kernel⟩,
   ⟨0, 3, ((((((up (1 :: 6 :: 7 :: 11 :: (List.range 16).map (0xF0 + ·))).regsSet [(Reg.DSC.POP_CFG 0, 8)]).hidSet ((List.range 8).map fun c => (Hid.trainStep c, 7)))).regsSet [(Reg.DSC.DIMM_INFO 0, 0x81000000)]).setH (.rfmThr 0) 1),
    by decide +kernel⟩,
   ⟨0, 2, [], (((((up (1 :: 6 :: 7 :: 11 :: (List.range 16).map (0xF0 + ·))).regsSet [(Reg.DSC.POP_CFG 0, 8)]).hidSet ((List.range 8).map fun c => (Hid.trainStep c, 7)))).regsSet [(Reg.DSC.DIMM_INFO 0, 0x81000000)]),
    by decide +kernel⟩,
   ⟨0, 3, [], { chan := 0, cls := 3, write := false, page := 7, blk := 3 }, ({ (((((up (1 :: 6 :: 7 :: 11 :: (List.range 16).map (0xF0 + ·))).regsSet [(Reg.DSC.POP_CFG 0, 8)]).hidSet ((List.range 8).map fun c => (Hid.trainStep c, 7)))).regsSet [(Reg.DSC.DIMM_INFO 0, 0x81000000)]) with dramOps := [{ chan := 0, cls := 3, write := false, page := 7, blk := 3 }] }),
    by decide +kernel⟩,
   ⟨{ chan := 0, cls := 3, write := false, page := 7, blk := 3 }, 2, (((((up (1 :: 6 :: 7 :: 11 :: (List.range 16).map (0xF0 + ·))).regsSet [(Reg.DSC.POP_CFG 0, 8)]).hidSet ((List.range 8).map fun c => (Hid.trainStep c, 7)))).regsSet [(Reg.DSC.DIMM_INFO 0, 0x81000000)]),
    by decide +kernel⟩,
   ⟨{ chan := 0, cls := 3, write := false, page := 7, blk := 3 }, 1, 3, (((((up (1 :: 6 :: 7 :: 11 :: (List.range 16).map (0xF0 + ·))).regsSet [(Reg.DSC.POP_CFG 0, 8)]).hidSet ((List.range 8).map fun c => (Hid.trainStep c, 7)))).regsSet [(Reg.DSC.DIMM_INFO 0, 0x81000000)]),
    by decide +kernel⟩,
   ⟨0, 1, 1, (((((up (1 :: 6 :: 7 :: 11 :: (List.range 16).map (0xF0 + ·))).regsSet [(Reg.DSC.POP_CFG 0, 8)]).hidSet ((List.range 8).map fun c => (Hid.trainStep c, 7)))).regsSet [(Reg.DSC.DIMM_INFO 0, 0x81000000)]),
    by decide +kernel⟩,
   ⟨0, 1, true, (((((up (1 :: 6 :: 7 :: 11 :: (List.range 16).map (0xF0 + ·))).regsSet [(Reg.DSC.POP_CFG 0, 8)]).hidSet ((List.range 8).map fun c => (Hid.trainStep c, 7)))).regsSet [(Reg.DSC.DIMM_INFO 0, 0x81000000)]),
    by decide +kernel⟩,
   ⟨0, 0, (((((up (1 :: 6 :: 7 :: 11 :: (List.range 16).map (0xF0 + ·))).regsSet [(Reg.DSC.POP_CFG 0, 8)]).hidSet ((List.range 8).map fun c => (Hid.trainStep c, 7)))).regsSet [(Reg.DSC.DIMM_INFO 0, 0x81000000)]),
    by decide +kernel⟩,
   ⟨0, 0, true, (((((up (1 :: 6 :: 7 :: 11 :: (List.range 16).map (0xF0 + ·))).regsSet [(Reg.DSC.POP_CFG 0, 8)]).hidSet ((List.range 8).map fun c => (Hid.trainStep c, 7)))).regsSet [(Reg.DSC.DIMM_INFO 0, 0x81000000)]),
    by decide +kernel⟩,
   ⟨.HOST, 0, 1, (((((up (1 :: 6 :: 7 :: 11 :: (List.range 16).map (0xF0 + ·))).regsSet [(Reg.DSC.POP_CFG 0, 8)]).hidSet ((List.range 8).map fun c => (Hid.trainStep c, 7)))).regsSet [(Reg.DSC.DIMM_INFO 0, 0x81000000)]), (firstWrite .HOST ((((((up (1 :: 6 :: 7 :: 11 :: (List.range 16).map (0xF0 + ·))).regsSet [(Reg.DSC.POP_CFG 0, 8)]).hidSet ((List.range 8).map fun c => (Hid.trainStep c, 7)))).regsSet [(Reg.DSC.DIMM_INFO 0, 0x81000000)]))),
    by decide +kernel⟩,
   ⟨0, ((((((up (1 :: 6 :: 7 :: 11 :: (List.range 16).map (0xF0 + ·))).regsSet [(Reg.DSC.POP_CFG 0, 8)]).hidSet ((List.range 8).map fun c => (Hid.trainStep c, 7)))).regsSet [(Reg.DSC.DIMM_INFO 0, 0x81000000)]).setH (.retrain 0) 3),
    by decide +kernel⟩,
   ⟨0, false, (((((up (1 :: 6 :: 7 :: 11 :: (List.range 16).map (0xF0 + ·))).regsSet [(Reg.DSC.POP_CFG 0, 8)]).hidSet ((List.range 8).map fun c => (Hid.trainStep c, 7)))).regsSet [(Reg.DSC.DIMM_INFO 0, 0x81000000)]).setH (.retrain 0) 1,
    by decide +kernel⟩,
   ⟨0, false, (((((up (1 :: 6 :: 7 :: 11 :: (List.range 16).map (0xF0 + ·))).regsSet [(Reg.DSC.POP_CFG 0, 8)]).hidSet ((List.range 8).map fun c => (Hid.trainStep c, 7)))).regsSet [(Reg.DSC.DIMM_INFO 0, 0x81000000)]),
    by decide +kernel⟩,
   ⟨0, { (((((up (1 :: 6 :: 7 :: 11 :: (List.range 16).map (0xF0 + ·))).regsSet [(Reg.DSC.POP_CFG 0, 8)]).hidSet ((List.range 8).map fun c => (Hid.trainStep c, 7)))).regsSet [(Reg.DSC.DIMM_INFO 0, 0x81000000)]) with rhRows := [⟨0, 1, 2, 3⟩] },
    by decide +kernel⟩,
   ⟨0, (((((up (1 :: 6 :: 7 :: 11 :: (List.range 16).map (0xF0 + ·))).regsSet [(Reg.DSC.POP_CFG 0, 8)]).hidSet ((List.range 8).map fun c => (Hid.trainStep c, 7)))).regsSet [(Reg.DSC.DIMM_INFO 0, 0x81000000)]).setReg (Reg.DSC.PATROL_CFG 0) 1,
    by decide +kernel⟩,
   ⟨0, ((((((up (1 :: 6 :: 7 :: 11 :: (List.range 16).map (0xF0 + ·))).regsSet [(Reg.DSC.POP_CFG 0, 8)]).hidSet ((List.range 8).map fun c => (Hid.trainStep c, 7)))).regsSet [(Reg.DSC.DIMM_INFO 0, 0x81000000)]).setReg (Reg.DSC.PATROL_CFG 0) 0x80000001), (nextInterval (dscPage 0) (.patAt 0) (patrolGap ((((((up (1 :: 6 :: 7 :: 11 :: (List.range 16).map (0xF0 + ·))).regsSet [(Reg.DSC.POP_CFG 0, 8)]).hidSet ((List.range 8).map fun c => (Hid.trainStep c, 7)))).regsSet [(Reg.DSC.DIMM_INFO 0, 0x81000000)]).setReg (Reg.DSC.PATROL_CFG 0) 0x80000001) 0) ((((((up (1 :: 6 :: 7 :: 11 :: (List.range 16).map (0xF0 + ·))).regsSet [(Reg.DSC.POP_CFG 0, 8)]).hidSet ((List.range 8).map fun c => (Hid.trainStep c, 7)))).regsSet [(Reg.DSC.DIMM_INFO 0, 0x81000000)]).setReg (Reg.DSC.PATROL_CFG 0) 0x80000001)),
    by decide +kernel⟩,
   ⟨0, 0x7F, (((((up (1 :: 6 :: 7 :: 11 :: (List.range 16).map (0xF0 + ·))).regsSet [(Reg.DSC.POP_CFG 0, 8)]).hidSet ((List.range 8).map fun c => (Hid.trainStep c, 7)))).regsSet [(Reg.DSC.DIMM_INFO 0, 0x81000000)]), ((nextInterval (dscPage 0) (.tempAt 0) (cycUs 100000) (((((up (1 :: 6 :: 7 :: 11 :: (List.range 16).map (0xF0 + ·))).regsSet [(Reg.DSC.POP_CFG 0, 8)]).hidSet ((List.range 8).map fun c => (Hid.trainStep c, 7)))).regsSet [(Reg.DSC.DIMM_INFO 0, 0x81000000)])).setReg (Reg.DSC.DIMM_TEMP 0) 0x7F),
    by decide +kernel⟩,
   ⟨0, ({ (((((up (1 :: 6 :: 7 :: 11 :: (List.range 16).map (0xF0 + ·))).regsSet [(Reg.DSC.POP_CFG 0, 8)]).hidSet ((List.range 8).map fun c => (Hid.trainStep c, 7)))).regsSet [(Reg.DSC.DIMM_INFO 0, 0x81000000)]) with dramWait := [{ chan := 0, cls := 3, write := false, page := 7, blk := 3 }] }),
    by decide +kernel⟩,
   ⟨0, 3, [], ({ (((((up (1 :: 6 :: 7 :: 11 :: (List.range 16).map (0xF0 + ·))).regsSet [(Reg.DSC.POP_CFG 0, 8)]).hidSet ((List.range 8).map fun c => (Hid.trainStep c, 7)))).regsSet [(Reg.DSC.DIMM_INFO 0, 0x81000000)]) with dramOps := [{ chan := 0, cls := 3, write := false, page := 7, blk := 3 }] }),
    by decide +kernel⟩,
   ⟨0, false, (((((up (1 :: 6 :: 7 :: 11 :: (List.range 16).map (0xF0 + ·))).regsSet [(Reg.DSC.POP_CFG 0, 8)]).hidSet ((List.range 8).map fun c => (Hid.trainStep c, 7)))).regsSet [(Reg.DSC.DIMM_INFO 0, 0x81000000)]).setH (.retrain 0) 1,
    by decide +kernel⟩,
   ⟨0, 0x7F, (((((up (1 :: 6 :: 7 :: 11 :: (List.range 16).map (0xF0 + ·))).regsSet [(Reg.DSC.POP_CFG 0, 8)]).hidSet ((List.range 8).map fun c => (Hid.trainStep c, 7)))).regsSet [(Reg.DSC.DIMM_INFO 0, 0x81000000)]),
    by decide +kernel⟩,
   ⟨.HOST, 0, 1, (((((up (1 :: 6 :: 7 :: 11 :: (List.range 16).map (0xF0 + ·))).regsSet [(Reg.DSC.POP_CFG 0, 8)]).hidSet ((List.range 8).map fun c => (Hid.trainStep c, 7)))).regsSet [(Reg.DSC.DIMM_INFO 0, 0x81000000)]),
    by decide +kernel⟩⟩

theorem meets_ControlPair :
    (∃ (k : Fin 9) (s : State),
    (loadReady s k = false)) ∧
    (∃ (k : Fin 9) (s : State) (w : State),
    (k.val < 7) ∧
    (s.h (.loadDue k) ≠ 0) ∧
    (s.pllOk = true) ∧
    (s.setH (.loadDue k) 0 = w) ∧
    (w.pageOn pairPage = true) ∧
    (w.h (.cacheVer k) = 0)) ∧
    (∃ (k : Fin 9) (s : State) (w : State),
    (k.val < 7) ∧
    (s.h (.loadDue k) ≠ 0) ∧
    (s.pllOk = true) ∧
    (s.setH (.loadDue k) 0 = w) ∧
    (w.h (.cacheVer k) ≠ 0)) ∧
    (∃ (k : Nat) (s : State),
    (k ≠ 2) ∧
    (k ≠ 6)) ∧
    (∃ (c : Nat) (s : State) (w : State),
    (s.h (.loadDue 7) = 2) ∧
    ((setCore 0 1 s).setH (.loadDue 7) 0 = w) ∧
    (checkImage w (s.hn (.coreSlot 0)) 0x01 (if coreState w 1 = 4 then some (w.hn (.coreVer 1) - 1) else none) = c)) ∧
    (∃ (x : Fin 2) (k : Fin 9) (s : State),
    (k.val = 7 + x) ∧
    (loadReady s k = true)) ∧
    (∃ (x : Fin 2) (s : State),
    (pairRuns s = true) ∧
    (coreState s x = 1) ∧
    (s.h (.loadDue (7 + x)) = 0)) ∧
    (∃ (x : Fin 2) (s : State) (w : State),
    (pairRuns s = true) ∧
    (coreState s x = 1) ∧
    (s.h (.loadDue (7 + x)) = 0) ∧
    (s.setH (.wdtAt x) (s.root : Nat) = w)) ∧
    (∃ (x : Fin 2) (k : Fin 4) (s : State) (w : State),
    (pairRuns s = true) ∧
    (coreState s x = 3) ∧
    (k.val ≠ 2) ∧
    (s.h .hoTo ≠ (x + 1 : Nat)) ∧
    (s.h .hoFirst ≠ (x + 1 : Nat)) ∧
    (noteFault x (bump (Reg.PAIR.FAULTS (k + 1)) (setCore x 5 (s.setReg (Reg.PAIR.CORE_STS x) ((k + 1) * 16)))) = w)) ∧
    (∃ (x : Fin 2) (r : Req) (v : W32) (s : State) (w : State),
    (coreOf r = some x.val) ∧
    (Admits s r Reg.PAIR.WDT_KICK) ∧
    (firstWrite r s = w) ∧
    (bit v.toNat 0 = true)) ∧
    (∃ (x : Fin 2) (r : Req) (v : W32) (s : State) (w : State),
    (coreOf r = some x.val) ∧
    (Admits s r Reg.PAIR.HANDOVER) ∧
    (firstWrite r s = w) ∧
    (bit v.toNat 0 = true) ∧
    (coreState w x = 4) ∧
    (coreState w (1 - x) = 3)) ∧
    (∃ (x : Fin 2) (r : Req) (v : W32) (s : State) (w : State),
    (coreOf r = some x.val) ∧
    (Admits s r Reg.PAIR.HANDOVER) ∧
    (firstWrite r s = w) ∧
    (bit v.toNat 0 = true) ∧
    (coreState w (1 - x) ≠ 3)) ∧
    (∃ (s : State) (w : State),
    (pairRuns s = true) ∧
    (s.h .hoTo ≠ 0) ∧
    (coreState s (s.hn .hoTo - 1) = 3) ∧
    (reclaim (s.hn .hoFrom) (retarget (s.hn .hoFrom) (s.hn .hoTo - 1 + 1) s) = w)) ∧
    (∃ (s : State),
    (s.h .hoTo = 0)) ∧
    (∃ (a : BitVec 22) (bytes : List Byte) (s : State) (w : State) (x : Nat),
    (pairRuns s = true) ∧
    (activeCore s = some x) ∧
    (s.wrMem (coreSram x) a.toNat (bytes.take (2 ^ 22 - a.toNat)) = w)) ∧
    (∃ (a : BitVec 22) (bytes : List Byte) (s : State),
    (activeCore s = none)) ∧
    (∃ (x : Fin 2) (s : State),
    (pairRuns s = true)) ∧
    (∃ (r : Req) (v : W32) (s : State) (w : State),
    (Admits s r Reg.PAIR.RELOAD) ∧
    (firstWrite r s = w) ∧
    (ordersOk w r = true) ∧
    (coreState w (fld v.toNat 0 1) ≠ 4) ∧
    (inRecovery w = false)) ∧
    (∃ (r : Req) (v : W32) (s : State) (w : State),
    (Admits s r Reg.PAIR.RELOAD) ∧
    (firstWrite r s = w) ∧
    (ordersOk w r = false ∨ coreState w (fld v.toNat 0 1) = 4)) ∧
    (∃ (k : Fin 9) (s : State),
    (loadReady s k = true)) ∧
    (∃ (x : Fin 2) (ok : Bool) (s : State),
    (pairRuns s = true)) ∧
    (∃ (x : Fin 2) (cause : Fin 4) (s : State),
    (pairRuns s = true) ∧
    ((coreState s x == 3 || coreState s x == 4 || (coreState s x == 2 && cause.val < 2)) = true)) ∧
    (∃ (s : State),
    (pairRuns s = true)) ∧
    (∃ (a : BitVec 22) (bs : List Byte) (s : State),
    (pairRuns s = true)) ∧
    (∃ (r : Req) (v : W32) (s : State),
    (Admits s r Reg.PAIR.WDT_KICK)) ∧
    (∃ (r : Req) (v : W32) (s : State),
    (Admits s r Reg.PAIR.HANDOVER)) ∧
    (∃ (r : Req) (v : W32) (s : State),
    (Admits s r Reg.PAIR.RELOAD)) :=
  ⟨⟨0, State.reset,
    by decide +kernel⟩,
   ⟨1, ((up [9]).setH (.loadDue 1) 1), (((up [9]).setH (.loadDue 1) 1).setH (.loadDue 1) 0),
    by decide +kernel⟩,
   ⟨1, (up [9]).hidSet [(Hid.loadDue 1, 1), (Hid.cacheVer 1, 5)], (((up [9]).hidSet [(Hid.loadDue 1, 1), (Hid.cacheVer 1, 5)]).setH (.loadDue 1) 0),
    by decide +kernel⟩,
   ⟨1, State.reset,
    by decide +kernel⟩,
   ⟨(checkImage ((setCore 0 1 ((up [9]).setH (.loadDue 7) 2)).setH (.loadDue 7) 0) 0 0x01 none), ((up [9]).setH (.loadDue 7) 2), ((setCore 0 1 ((up [9]).setH (.loadDue 7) 2)).setH (.loadDue 7) 0),
    by decide +kernel⟩,
   ⟨0, 7, { (up [9]).setH (.loadDue 7) 1 with flashQ := [.core 0] },
    by decide +kernel⟩,
   ⟨0, ((up [9]).regsSet [(Reg.PAIR.CORE_STS 0, 1)]),
    by decide +kernel⟩,
   ⟨0, ((up [9]).regsSet [(Reg.PAIR.CORE_STS 0, 1)]), (((up [9]).regsSet [(Reg.PAIR.CORE_STS 0, 1)]).setH (.wdtAt 0) 0),
    by decide +kernel⟩,
   ⟨1, 1, ((up [9]).regsSet [(Reg.PAIR.CORE_STS 0, 4), (Reg.PAIR.CORE_STS 1, 3), (Reg.PAIR.ROLE, 1)]), (noteFault 1 (bump (Reg.PAIR.FAULTS 2) (setCore 1 5 (((up [9]).regsSet [(Reg.PAIR.CORE_STS 0, 4), (Reg.PAIR.CORE_STS 1, 3), (Reg.PAIR.ROLE, 1)]).setReg (Reg.PAIR.CORE_STS 1) 32)))),
    by decide +kernel⟩,
   ⟨1, .CC_B, 1, ((up [9]).regsSet [(Reg.PAIR.CORE_STS 0, 4), (Reg.PAIR.CORE_STS 1, 3), (Reg.PAIR.ROLE, 1)]), (firstWrite .CC_B ((up [9]).regsSet [(Reg.PAIR.CORE_STS 0, 4), (Reg.PAIR.CORE_STS 1, 3), (Reg.PAIR.ROLE, 1)])),
    by decide +kernel⟩,
   ⟨0, .CC_A, 1, ((up [9]).regsSet [(Reg.PAIR.CORE_STS 0, 4), (Reg.PAIR.CORE_STS 1, 3), (Reg.PAIR.ROLE, 1)]), (firstWrite .CC_A ((up [9]).regsSet [(Reg.PAIR.CORE_STS 0, 4), (Reg.PAIR.CORE_STS 1, 3), (Reg.PAIR.ROLE, 1)])),
    by decide +kernel⟩,
   ⟨0, .CC_A, 1, (((up [9]).regsSet [(Reg.PAIR.CORE_STS 0, 4), (Reg.PAIR.CORE_STS 1, 3), (Reg.PAIR.ROLE, 1)]).setReg (Reg.PAIR.CORE_STS 1) 5), (firstWrite .CC_A (((up [9]).regsSet [(Reg.PAIR.CORE_STS 0, 4), (Reg.PAIR.CORE_STS 1, 3), (Reg.PAIR.ROLE, 1)]).setReg (Reg.PAIR.CORE_STS 1) 5)),
    by decide +kernel⟩,
   ⟨((((up [9]).regsSet [(Reg.PAIR.CORE_STS 0, 4), (Reg.PAIR.CORE_STS 1, 3), (Reg.PAIR.ROLE, 1)]).regsSet [(Reg.PAIR.CORE_STS 0, 21)]).hidSet [(Hid.hoTo, 2), (Hid.hoFrom, 1)]), (reclaim 1 (retarget 1 2 ((((up [9]).regsSet [(Reg.PAIR.CORE_STS 0, 4), (Reg.PAIR.CORE_STS 1, 3), (Reg.PAIR.ROLE, 1)]).regsSet [(Reg.PAIR.CORE_STS 0, 21)]).hidSet [(Hid.hoTo, 2), (Hid.hoFrom, 1)]))),
    by decide +kernel⟩,
   ⟨((up [9]).regsSet [(Reg.PAIR.CORE_STS 0, 4), (Reg.PAIR.CORE_STS 1, 3), (Reg.PAIR.ROLE, 1)]),
    by decide +kernel⟩,
   ⟨5, [7, 9], ((up [9]).regsSet [(Reg.PAIR.CORE_STS 0, 4), (Reg.PAIR.CORE_STS 1, 3), (Reg.PAIR.ROLE, 1)]), (((up [9]).regsSet [(Reg.PAIR.CORE_STS 0, 4), (Reg.PAIR.CORE_STS 1, 3), (Reg.PAIR.ROLE, 1)]).wrMem .sramA 5 [7, 9]), 0,
    by decide +kernel⟩,
   ⟨5, [7], up [9],
    by decide +kernel⟩,
   ⟨1, (((up [9]).regsSet [(Reg.PAIR.CORE_STS 0, 4), (Reg.PAIR.CORE_STS 1, 3), (Reg.PAIR.ROLE, 1)]).setReg (Reg.PAIR.CORE_STS 1) 2),
    by decide +kernel⟩,
   ⟨.CC_A, 1, ((up [9]).regsSet [(Reg.PAIR.CORE_STS 0, 4), (Reg.PAIR.CORE_STS 1, 3), (Reg.PAIR.ROLE, 1)]), (firstWrite .CC_A ((up [9]).regsSet [(Reg.PAIR.CORE_STS 0, 4), (Reg.PAIR.CORE_STS 1, 3), (Reg.PAIR.ROLE, 1)])),
    by decide +kernel⟩,
   ⟨.CC_A, 0, ((up [9]).regsSet [(Reg.PAIR.CORE_STS 0, 4), (Reg.PAIR.CORE_STS 1, 3), (Reg.PAIR.ROLE, 1)]), (firstWrite .CC_A ((up [9]).regsSet [(Reg.PAIR.CORE_STS 0, 4), (Reg.PAIR.CORE_STS 1, 3), (Reg.PAIR.ROLE, 1)])),
    by decide +kernel⟩,
   ⟨7, { (up [9]).setH (.loadDue 7) 1 with flashQ := [.core 0] },
    by decide +kernel⟩,
   ⟨0, false, ((up [9]).regsSet [(Reg.PAIR.CORE_STS 0, 1)]),
    by decide +kernel⟩,
   ⟨0, 1, ((up [9]).regsSet [(Reg.PAIR.CORE_STS 0, 4), (Reg.PAIR.CORE_STS 1, 3), (Reg.PAIR.ROLE, 1)]),
    by decide +kernel⟩,
   ⟨((((up [9]).regsSet [(Reg.PAIR.CORE_STS 0, 4), (Reg.PAIR.CORE_STS 1, 3), (Reg.PAIR.ROLE, 1)]).regsSet [(Reg.PAIR.CORE_STS 0, 21)]).hidSet [(Hid.hoTo, 2), (Hid.hoFrom, 1)]),
    by decide +kernel⟩,
   ⟨5, [7, 9], ((up [9]).regsSet [(Reg.PAIR.CORE_STS 0, 4), (Reg.PAIR.CORE_STS 1, 3), (Reg.PAIR.ROLE, 1)]),
    by decide +kernel⟩,
   ⟨.CC_B, 1, ((up [9]).regsSet [(Reg.PAIR.CORE_STS 0, 4), (Reg.PAIR.CORE_STS 1, 3), (Reg.PAIR.ROLE, 1)]),
    by decide +kernel⟩,
   ⟨.CC_A, 1, ((up [9]).regsSet [(Reg.PAIR.CORE_STS 0, 4), (Reg.PAIR.CORE_STS 1, 3), (Reg.PAIR.ROLE, 1)]),
    by decide +kernel⟩,
   ⟨.CC_A, 1, ((up [9]).regsSet [(Reg.PAIR.CORE_STS 0, 4), (Reg.PAIR.CORE_STS 1, 3), (Reg.PAIR.ROLE, 1)]),
    by decide +kernel⟩⟩

theorem meets_LostPair :
    (∃ (x : Fin 2) (s : State),
    (pairRuns s = true) ∧
    (s.hb (.autoLoad x) = true)) ∧
    (∃ (x : Fin 2) (s : State),
    (s.hb (.autoLoad x) = false)) :=
  ⟨⟨0, ((up [9]).regsSet [(Reg.PAIR.CORE_STS 0, 4), (Reg.PAIR.CORE_STS 1, 3), (Reg.PAIR.ROLE, 1)]).setHb (.autoLoad 0) true,
    by decide +kernel⟩,
   ⟨0, ((up [9]).regsSet [(Reg.PAIR.CORE_STS 0, 4), (Reg.PAIR.CORE_STS 1, 3), (Reg.PAIR.ROLE, 1)]),
    by decide +kernel⟩⟩

theorem meets_InterruptController :
    (∃ (r : Req) (v : W32) (s : State) (w : State),
    (Admits s r Reg.INTC.DOORBELL) ∧
    (firstWrite r s = w) ∧
    (w.live intcPage = true) ∧
    (v.toNat ≠ 0) ∧
    (v.toNat < 0xFFF)) ∧
    (∃ (r : Req) (v : W32) (s : State) (w : State),
    (Admits s r Reg.INTC.DOORBELL) ∧
    (firstWrite r s = w) ∧
    (v.toNat = 0 ∨ 0xFFF ≤ v.toNat)) ∧
    (∃ (r : Req) (t : Fin 4) (s : State),
    (Admits s r (Reg.INTC.CLAIM t)) ∧
    (s.live intcPage = true) ∧
    (claimPick s t = none)) ∧
    (∃ (r : Req) (t : Fin 4) (x : Nat) (s : State) (w : State) (u : State),
    (Admits s r (Reg.INTC.CLAIM t)) ∧
    (s.live intcPage = true) ∧
    (claimPick s t = some x) ∧
    ((stackOf s t).length < 16) ∧
    (s.setRbit (Reg.INTC.PEND (x / 32)) (x % 32) false = w) ∧
    ({ w with intStacks := (t.val, x, srcPrio s x) :: w.intStacks } = u)) ∧
    (∃ (r : Req) (t : Fin 4) (x : Nat) (s : State),
    (Admits s r (Reg.INTC.CLAIM t)) ∧
    (s.live intcPage = true) ∧
    (claimPick s t = some x) ∧
    (16 ≤ (stackOf s t).length)) ∧
    (∃ (r : Req) (t : Fin 4) (v : W32) (x p i : Nat) (rest : List (Nat × Nat × Nat)) (s : State) (w : State),
    (Admits s r (Reg.INTC.EOI t)) ∧
    (firstWrite r s = w) ∧
    (stackOf w t = (t.val, x, p) :: rest) ∧
    (x = v.toNat % 2 ^ 12) ∧
    (w.intStacks.findIdx? (fun e => e.1 == t.val) = some i)) ∧
    (∃ (r : Req) (t : Fin 4) (v : W32) (s : State) (w : State),
    (Admits s r (Reg.INTC.EOI t)) ∧
    (firstWrite r s = w) ∧
    ((stackOf w t).head?.map (fun e => e.2.1) ≠ some (v.toNat % 2 ^ 12))) ∧
    (∃ (r : Req) (t : Fin 4) (v : W32) (s : State) (w : State),
    (Admits s r (Reg.INTC.SETPRI t)) ∧
    (firstWrite r s = w)) ∧
    (∃ (r : Req) (k : Fin 128) (v : W32) (s : State) (w : State),
    (Admits s r (Reg.INTC.PEND k)) ∧
    (firstWrite r s = w)) ∧
    (∃ (r : Req) (k : Fin 128) (v : W32) (s : State) (w : State),
    (Admits s r (Reg.INTC.MASK k)) ∧
    (firstWrite r s = w)) ∧
    (∃ (k : Fin 128) (t : Fin 4) (s : State) (w : State),
    (s.live intcPage = true) ∧
    (s.hb (.holdRun k t) = true) ∧
    (waitRoot (s.hn (.holdAt k t) + cycUs (s.reg (Reg.INTC.HOLDOFF k))) s = w)) ∧
    (∃ (k : Fin 128) (t : Fin 4) (s : State),
    (s.hb (.holdRun k t) = false)) ∧
    (∃ (t : Fin 3) (s : State),
    (s.live intcPage = true) ∧
    (targetRuns s t = true)) ∧
    (∃ (r : Req) (v : W32) (s : State),
    (Admits s r Reg.INTC.DOORBELL)) ∧
    (∃ (r : Req) (t : Fin 4) (v : W32) (s : State),
    (Admits s r (Reg.INTC.EOI t))) ∧
    (∃ (w : Fin 128) (t : Fin 4) (s : State),
    (s.live intcPage = true)) :=
  ⟨⟨.HOST, 5, (up [2]), (firstWrite .HOST ((up [2]))),
    by decide +kernel⟩,
   ⟨.HOST, 0xFFF, (up [2]), (firstWrite .HOST ((up [2]))),
    by decide +kernel⟩,
   ⟨.HOST, 3, (up [2]),
    by decide +kernel⟩,
   ⟨.HOST, 3, 5, (((up [2])).regsSet [(Reg.INTC.PEND 0, 0x20), (Reg.INTC.MASK 0, 0), (Reg.INTC.SRC_CFG 5, 0xC6000000)]), ((((up [2])).regsSet [(Reg.INTC.PEND 0, 0x20), (Reg.INTC.MASK 0, 0), (Reg.INTC.SRC_CFG 5, 0xC6000000)]).setRbit (Reg.INTC.PEND 0) 5 false), ({ ((((up [2])).regsSet [(Reg.INTC.PEND 0, 0x20), (Reg.INTC.MASK 0, 0), (Reg.INTC.SRC_CFG 5, 0xC6000000)]).setRbit (Reg.INTC.PEND 0) 5 false) with intStacks := [(3, 5, 6)] }),
    by decide +kernel⟩,
   ⟨.HOST, 3, 5, ({ (((((up [2])).regsSet [(Reg.INTC.PEND 0, 0x20), (Reg.INTC.MASK 0, 0), (Reg.INTC.SRC_CFG 5, 0xC6000000)])).regsSet [(Reg.INTC.SRC_CFG 5, 0xCF000000)]) with intStacks := List.replicate 16 (3, 7, 1) }),
    by decide +kernel⟩,
   ⟨.HOST, 3, 7, 7, 1, 0, [], ({ (up [2]) with intStacks := [(3, 7, 1)] }), (firstWrite .HOST (({ (up [2]) with intStacks := [(3, 7, 1)] }))),
    by decide +kernel⟩,
   ⟨.HOST, 3, 7, (up [2]), (firstWrite .HOST ((up [2]))),
    by decide +kernel⟩,
   ⟨.HOST, 3, 7, (up [2]), (firstWrite .HOST ((up [2]))),
    by decide +kernel⟩,
   ⟨.HOST, 0, 1, (((up [2])).regsSet [(Reg.INTC.PEND 0, 0x20), (Reg.INTC.MASK 0, 0), (Reg.INTC.SRC_CFG 5, 0xC6000000)]), (firstWrite .HOST ((((up [2])).regsSet [(Reg.INTC.PEND 0, 0x20), (Reg.INTC.MASK 0, 0), (Reg.INTC.SRC_CFG 5, 0xC6000000)]))),
    by decide +kernel⟩,
   ⟨.HOST, 127, 0xFFFFFFFF, (up [2]), (firstWrite .HOST ((up [2]))),
    by decide +kernel⟩,
   ⟨0, 1, ((((up [2])).regsSet [(Reg.INTC.HOLDOFF 0, 3)]).setHb (.holdRun 0 1) true), (waitRoot 21600 ((((up [2])).regsSet [(Reg.INTC.HOLDOFF 0, 3)]).setHb (.holdRun 0 1) true)),
    by decide +kernel⟩,
   ⟨0, 1, (up [2]),
    by decide +kernel⟩,
   ⟨0, (up [2]),
    by decide +kernel⟩,
   ⟨.HOST, 5, (up [2]),
    by decide +kernel⟩,
   ⟨.HOST, 3, 7, ({ (up [2]) with intStacks := [(3, 7, 1)] }),
    by decide +kernel⟩,
   ⟨0, 1, ((((up [2])).regsSet [(Reg.INTC.HOLDOFF 0, 3)]).setHb (.holdRun 0 1) true),
    by decide +kernel⟩⟩

theorem meets_PeriodicFrames :
    (∃ (carry : Bool) (s : State),
    (pfePick s = none)) ∧
    (∃ (carry : Bool) (i e n d : Nat) (s : State) (w : State),
    (s.live pfePage = true) ∧
    (s.timeRuns = true) ∧
    (pfePick s = some (i, e)) ∧
    (s.hn (.pfeNext i) - 1 = n) ∧
    (pfeDue s i e = d) ∧
    (waitRoot (s.hn .pfeFree) (advanceTo (d * 2 ^ 48) s) = w) ∧
    (d ≤ w.nowNs) ∧
    (n + pfePeriod e ≤ w.nowNs)) ∧
    (∃ (carry : Bool) (i e n d : Nat) (f : Frame) (s : State) (w : State) (u : State),
    (s.live pfePage = true) ∧
    (s.timeRuns = true) ∧
    (pfePick s = some (i, e)) ∧
    (s.hn (.pfeNext i) - 1 = n) ∧
    (pfeDue s i e = d) ∧
    (waitRoot (s.hn .pfeFree) (advanceTo (d * 2 ^ 48) s) = w) ∧
    (d ≤ w.nowNs) ∧
    (w.nowNs < n + pfePeriod e) ∧
    (pfeBuild i n ((w.setH (.pfeNext i) (n + pfePeriod e + 1 : Nat)).setH .pfeFree (w.root + 64 : Nat)) = (f, u)) ∧
    ((u.newFrame f).live bridgePage = true)) ∧
    (∃ (i n e : Nat) (s : State),
    (s.tab pfePage 1 i = e) ∧
    (bit (word e 6) 31 = false) ∧
    (bit e 30 = false)) ∧
    (∃ (i : Fin 65536) (s : State),
    (s.frames.find? (fun f => f.pfe == i.val + 1 && pfeHeld f) = none)) ∧
    (∃ (i : Fin 65536) (f : Frame) (q : Nat) (s : State) (w : State),
    (s.live pfePage = true) ∧
    (s.timeRuns = true) ∧
    (s.frames.find? (fun f => f.pfe == i.val + 1 && pfeHeld f) = some f) ∧
    (f.loc = .queued q) ∧
    (advanceTo (f.pfeEnd * 2 ^ 48) s = w) ∧
    (f.pfeEnd ≤ w.nowNs)) ∧
    (∃ (carry : Bool) (s : State),
    (s.live pfePage = true) ∧
    (s.timeRuns = true)) ∧
    (∃ (i : Fin 65536) (s : State),
    (s.live pfePage = true) ∧
    (s.timeRuns = true)) :=
  ⟨⟨false, (up [1, 10, 0x100]),
    by decide +kernel⟩,
   ⟨false, 3, ((((up [1, 10, 0x100]).setTab pfePage 1 3 (2 ^ 31 + 64 * 2 ^ 32 + 1000 * 2 ^ 64)).setH (.pfeNext 3) 1).tab pfePage 1 3), 0, 0, ({ (((up [1, 10, 0x100]).setTab pfePage 1 3 (2 ^ 31 + 64 * 2 ^ 32 + 1000 * 2 ^ 64)).setH (.pfeNext 3) 1) with tb := 2000 * unitsNs }), ({ (((up [1, 10, 0x100]).setTab pfePage 1 3 (2 ^ 31 + 64 * 2 ^ 32 + 1000 * 2 ^ 64)).setH (.pfeNext 3) 1) with tb := 2000 * unitsNs }),
    by decide +kernel⟩,
   ⟨false, 3, ((((up [1, 10, 0x100]).setTab pfePage 1 3 (2 ^ 31 + 64 * 2 ^ 32 + 1000 * 2 ^ 64)).setH (.pfeNext 3) 1).tab pfePage 1 3), 0, 0, (pfeBuild 3 0 (((((up [1, 10, 0x100]).setTab pfePage 1 3 (2 ^ 31 + 64 * 2 ^ 32 + 1000 * 2 ^ 64)).setH (.pfeNext 3) 1).setH (.pfeNext 3) 1001).setH .pfeFree 64)).1, (((up [1, 10, 0x100]).setTab pfePage 1 3 (2 ^ 31 + 64 * 2 ^ 32 + 1000 * 2 ^ 64)).setH (.pfeNext 3) 1), (((up [1, 10, 0x100]).setTab pfePage 1 3 (2 ^ 31 + 64 * 2 ^ 32 + 1000 * 2 ^ 64)).setH (.pfeNext 3) 1), (pfeBuild 3 0 (((((up [1, 10, 0x100]).setTab pfePage 1 3 (2 ^ 31 + 64 * 2 ^ 32 + 1000 * 2 ^ 64)).setH (.pfeNext 3) 1).setH (.pfeNext 3) 1001).setH .pfeFree 64)).2,
    by decide +kernel⟩,
   ⟨3, 0, ((((up [1, 10, 0x100]).setTab pfePage 1 3 (2 ^ 31 + 64 * 2 ^ 32 + 1000 * 2 ^ 64)).setH (.pfeNext 3) 1).tab pfePage 1 3), (((up [1, 10, 0x100]).setTab pfePage 1 3 (2 ^ 31 + 64 * 2 ^ 32 + 1000 * 2 ^ 64)).setH (.pfeNext 3) 1),
    by decide +kernel⟩,
   ⟨3, (up [1, 10, 0x100]),
    by decide +kernel⟩,
   ⟨3, ({ id := 9, loc := .queued 7, bytes := [], birth := 0, pfe := 4, pfeEnd := 0 } : Frame), 7, ({ (up [1, 10, 0x100]) with frames := [({ id := 9, loc := .queued 7, bytes := [], birth := 0, pfe := 4, pfeEnd := 0 } : Frame)] }), ({ (up [1, 10, 0x100]) with frames := [({ id := 9, loc := .queued 7, bytes := [], birth := 0, pfe := 4, pfeEnd := 0 } : Frame)] }),
    by decide +kernel⟩,
   ⟨false, ({ (((up [1, 10, 0x100]).setTab pfePage 1 3 (2 ^ 31 + 64 * 2 ^ 32 + 1000 * 2 ^ 64)).setH (.pfeNext 3) 1) with tb := 2000 * unitsNs }),
    by decide +kernel⟩,
   ⟨3, ({ (up [1, 10, 0x100]) with frames := [({ id := 9, loc := .queued 7, bytes := [], birth := 0, pfe := 4, pfeEnd := 0 } : Frame)] }),
    by decide +kernel⟩⟩

theorem meets_HostFunction :
    (∃ (a : BitVec 29) (s : State),
    (cfgOk s = true) ∧
    (s.hb .pmD3 = false) ∧
    (a.toNat % 4 = 0)) ∧
    (∃ (a : BitVec 29) (v : W32) (s : State),
    (cfgOk s = true) ∧
    (s.hb .pmD3 = false) ∧
    (a.toNat % 4 = 0)) ∧
    (∃ (a : BitVec 29) (d : BitVec 11) (be : Bool) (l : List W32) (s : State),
    (cfgOk s = true) ∧
    (s.hb .pmD3 = false) ∧
    (2 < d.toNat) ∧
    (2 < l.length)) ∧
    (∃ (a : W32) (n : BitVec 13) (ue : Bool) (s : State),
    (cfgOk s = true) ∧
    (s.hb .pmD3 = false) ∧
    (s.rbit Reg.HOST.CONTAIN 31 = false) ∧
    (s.live hostPage = true)) ∧
    (∃ (a : W32) (n : BitVec 13) (ue : Bool) (i : Nat) (s : State),
    (cfgOk s = true) ∧
    (s.hb .pmD3 = false) ∧
    (s.rbit Reg.HOST.CONTAIN 31 = false) ∧
    (s.live hostPage = true) ∧
    (winAt s a.toNat (max n.toNat 1) = some i) ∧
    (bit (hostWin s true i).2.1 31 = true)) ∧
    (∃ (a : W32) (n : BitVec 13) (l : List Byte) (ue : Bool) (s : State),
    (cfgOk s = true) ∧
    (s.hb .pmD3 = false) ∧
    (s.rbit Reg.HOST.CONTAIN 31 = true)) ∧
    (∃ (a : Fin 4096) (be : BitVec 4) (v : W32) (s : State),
    (cfgOk s = true) ∧
    (s.hb .pmD3 = false)) ∧
    (∃ (o : BitVec 20) (n : BitVec 13) (s : State),
    (cfgOk s = true) ∧
    (s.hb .pmD3 = false) ∧
    (s.hb .romEn = true)) ∧
    (∃ (k : Fin 1024) (s : State),
    (s.clocked hostPage = true) ∧
    (s.hb .pciUp = true) ∧
    (s.hb .perst = false) ∧
    (s.h .booted ≠ 0) ∧
    (s.hb .flr = false)) ∧
    (∃ (s : State),
    (s.clocked hostPage = true) ∧
    (s.hb .pciUp = true) ∧
    (s.hb .perst = false) ∧
    (s.h .booted ≠ 0) ∧
    (s.hb .flr = false)) ∧
    (∃ (s : State),
    (s.clocked hostPage = true) ∧
    (s.hb .pciUp = true) ∧
    (s.hb .perst = false) ∧
    (s.h .booted ≠ 0) ∧
    (s.hb .flr = false)) ∧
    (∃ (s : State),
    (s.hb .flr = true)) ∧
    (∃ (ann : Bool) (s : State) (w : State),
    (s.hb .pciUp = true) ∧
    (raise hostPage 6 ((s.setHb .pciUp false).setHb .intaOn false) = w)) ∧
    (∃ (k : Fin 4) (sp : Fin 5) (s : State),
    (s.pageOn hostPage = true) ∧
    (s.hb .perst = false) ∧
    (s.h .rstHold = 0)) ∧
    (∃ (r : Req) (v : W32) (s : State) (w : State),
    (Admits s r Reg.HOST.RELEASE) ∧
    (firstWrite r s = w) ∧
    (bit v.toNat 0 = true)) ∧
    (∃ (s : State),
    (s.hb .perst = false)) ∧
    (∃ (dis : Bool) (s : State),
    (s.clocked hostPage = true) ∧
    (s.hb .pciUp = true) ∧
    (s.hb .perst = false) ∧
    (s.h .booted ≠ 0) ∧
    (s.hb .flr = false)) ∧
    (∃ (r : Req) (v : W32) (s : State) (w : State),
    (Admits s r Reg.HOST.WIN_COMMIT) ∧
    (firstWrite r s = w) ∧
    (bit v.toNat 0 = true)) ∧
    (∃ (r : Req) (v : W32) (s : State),
    (Admits s r Reg.HOST.WIN_COMMIT)) ∧
    (∃ (r : Req) (v : W32) (s : State),
    (Admits s r Reg.HOST.RELEASE)) ∧
    (∃ (announced : Bool) (s : State),
    (s.hb .pciUp = true)) :=
  ⟨⟨0x50000, ((up [2, 5, 0xD1, 0xD4]).hidSet [(Hid.pciUp, 1), (Hid.bme, 1), (Hid.booted, 1)]),
    by decide +kernel⟩,
   ⟨0x50008, 1, ((up [2, 5, 0xD1, 0xD4]).hidSet [(Hid.pciUp, 1), (Hid.bme, 1), (Hid.booted, 1)]),
    by decide +kernel⟩,
   ⟨0x50000, 3, true, [1, 2, 3], ((up [2, 5, 0xD1, 0xD4]).hidSet [(Hid.pciUp, 1), (Hid.bme, 1), (Hid.booted, 1)]),
    by decide +kernel⟩,
   ⟨0x10, 4, false, ((((up [2, 5, 0xD1, 0xD4]).hidSet [(Hid.pciUp, 1), (Hid.bme, 1), (Hid.booted, 1)])).regsSet [(Reg.HOST.ACT_WIN_CFG 0, 0x40000114)]),
    by decide +kernel⟩,
   ⟨0x50000, 4, false, 0, ((((up [2, 5, 0xD1, 0xD4]).hidSet [(Hid.pciUp, 1), (Hid.bme, 1), (Hid.booted, 1)])).regsSet [(Reg.HOST.ACT_WIN_CFG 0, 0xC0000114)]),
    by decide +kernel⟩,
   ⟨0x50000, 4, [1], false, ((((up [2, 5, 0xD1, 0xD4]).hidSet [(Hid.pciUp, 1), (Hid.bme, 1), (Hid.booted, 1)])).regsSet [(Reg.HOST.CONTAIN, 0x80000002)]),
    by decide +kernel⟩,
   ⟨3, 1, 0xFF, ((up [2, 5, 0xD1, 0xD4]).hidSet [(Hid.pciUp, 1), (Hid.bme, 1), (Hid.booted, 1)]),
    by decide +kernel⟩,
   ⟨0, 4, (((up [2, 5, 0xD1, 0xD4]).hidSet [(Hid.pciUp, 1), (Hid.bme, 1), (Hid.booted, 1)]).setHb .romEn true),
    by decide +kernel⟩,
   ⟨0, ((up [2, 5, 0xD1, 0xD4]).hidSet [(Hid.pciUp, 1), (Hid.bme, 1), (Hid.booted, 1)]),
    by decide +kernel⟩,
   ⟨((up [2, 5, 0xD1, 0xD4]).hidSet [(Hid.pciUp, 1), (Hid.bme, 1), (Hid.booted, 1)]),
    by decide +kernel⟩,
   ⟨((up [2, 5, 0xD1, 0xD4]).hidSet [(Hid.pciUp, 1), (Hid.bme, 1), (Hid.booted, 1)]),
    by decide +kernel⟩,
   ⟨(((up [2, 5, 0xD1, 0xD4]).hidSet [(Hid.pciUp, 1), (Hid.bme, 1), (Hid.booted, 1)]).setHb .flr true),
    by decide +kernel⟩,
   ⟨false, ((up [2, 5, 0xD1, 0xD4]).hidSet [(Hid.pciUp, 1), (Hid.bme, 1), (Hid.booted, 1)]), (raise hostPage 6 ((((up [2, 5, 0xD1, 0xD4]).hidSet [(Hid.pciUp, 1), (Hid.bme, 1), (Hid.booted, 1)]).setHb .pciUp false).setHb .intaOn false)),
    by decide +kernel⟩,
   ⟨3, 4, ((up [2, 5, 0xD1, 0xD4]).hidSet [(Hid.pciUp, 1), (Hid.bme, 1), (Hid.booted, 1)]),
    by decide +kernel⟩,
   ⟨.CC_A, 1, (((((up [2, 5, 0xD1, 0xD4]).hidSet [(Hid.pciUp, 1), (Hid.bme, 1), (Hid.booted, 1)])).regsSet [(Reg.HOST.CONTAIN, 0x80000002)]).setReg (Reg.PAIR.CORE_STS 0) 4), (firstWrite .CC_A (((((up [2, 5, 0xD1, 0xD4]).hidSet [(Hid.pciUp, 1), (Hid.bme, 1), (Hid.booted, 1)])).regsSet [(Reg.HOST.CONTAIN, 0x80000002)]).setReg (Reg.PAIR.CORE_STS 0) 4)),
    by decide +kernel⟩,
   ⟨(((up [2, 5, 0xD1, 0xD4]).hidSet [(Hid.pciUp, 1), (Hid.bme, 1), (Hid.booted, 1)]).setHb .iso true),
    by decide +kernel⟩,
   ⟨true, ((up [2, 5, 0xD1, 0xD4]).hidSet [(Hid.pciUp, 1), (Hid.bme, 1), (Hid.booted, 1)]),
    by decide +kernel⟩,
   ⟨.HOST, 1, ((up [2, 5, 0xD1, 0xD4]).hidSet [(Hid.pciUp, 1), (Hid.bme, 1), (Hid.booted, 1)]), (firstWrite .HOST (((up [2, 5, 0xD1, 0xD4]).hidSet [(Hid.pciUp, 1), (Hid.bme, 1), (Hid.booted, 1)]))),
    by decide +kernel⟩,
   ⟨.HOST, 1, ((up [2, 5, 0xD1, 0xD4]).hidSet [(Hid.pciUp, 1), (Hid.bme, 1), (Hid.booted, 1)]),
    by decide +kernel⟩,
   ⟨.CC_A, 1, (((((up [2, 5, 0xD1, 0xD4]).hidSet [(Hid.pciUp, 1), (Hid.bme, 1), (Hid.booted, 1)])).regsSet [(Reg.HOST.CONTAIN, 0x80000002)]).setReg (Reg.PAIR.CORE_STS 0) 4),
    by decide +kernel⟩,
   ⟨false, ((up [2, 5, 0xD1, 0xD4]).hidSet [(Hid.pciUp, 1), (Hid.bme, 1), (Hid.booted, 1)]),
    by decide +kernel⟩⟩

theorem meets_PuntAndInjectRings :
    (∃ (k : Fin 64) (l : List W64) (s : State),
    (s.firstAt (.host k) = none)) ∧
    (∃ (k : Fin 64) (l : List W64) (f : Frame) (n : Nat) (s : State) (w : State),
    (dmaOk s = true) ∧
    (puntOn s k = true) ∧
    (s.firstAt (.host k) = some f) ∧
    (s.h (.puntPart k) = 0) ∧
    (n = (puntChunks (256 * s.rfld (Reg.HOST.P_CFG k) 0 7) f).length) ∧
    (n ≤ l.length) ∧
    (n ≤ posted s (Reg.HOST.P_CFG k) (Reg.HOST.P_HEAD k) (Reg.HOST.P_TAIL k)) ∧
    ((forEach (List.range n) s fun j s => puntFill k ((w.reg (Reg.HOST.P_HEAD k) + j) % ringSize w (Reg.HOST.P_CFG k)) ((l.map BitVec.toNat).getD j 0) ((puntChunks (256 * w.rfld (Reg.HOST.P_CFG k) 0 7) f).getD j []) (j == 0) (j + 1 == n) s) = w) ∧
    (w.regs = s.regs)) ∧
    (∃ (k : Fin 64) (f : Frame) (s : State),
    (dmaOk s = true) ∧
    (puntOn s k = true) ∧
    (s.firstAt (.host k) = some f) ∧
    (s.h (.puntPart k) = 0) ∧
    (s.reg (Reg.HOST.P_HEAD k) < ringSize s (Reg.HOST.P_CFG k)) ∧
    ((puntChunks (256 * s.rfld (Reg.HOST.P_CFG k) 0 7) f) ≠ [])) ∧
    (∃ (k : Fin 64) (f : Frame) (s : State) (w : State),
    (s.live hostPage = true) ∧
    (s.firstAt (.host k) = some f) ∧
    (advanceFolTo ((f.since + f.limit * 1000 + 1) * unitsNs) s = w) ∧
    (f.since + f.limit * 1000 < w.folNs)) ∧
    (∃ (r : Req) (k : Fin 64) (v : W32) (s : State) (w : State),
    (Admits s r (Reg.HOST.P_TAIL k)) ∧
    (firstWrite r s = w)) ∧
    (∃ (r : Req) (k : Fin 16) (v : W32) (s : State) (w : State),
    (Admits s r (Reg.HOST.I_TAIL k)) ∧
    (firstWrite r s = w)) ∧
    (∃ (r : Req) (k : Fin 64) (j : Fin 80) (v : W32) (s : State) (w : State),
    (j.val = k.val) ∧
    (Admits s r (Reg.HOST.P_CFG k)) ∧
    (firstWrite r s = w)) ∧
    (∃ (r : Req) (k : Fin 16) (j : Fin 80) (v : W32) (s : State) (w : State),
    (j.val = 64 + k.val) ∧
    (Admits s r (Reg.HOST.I_CFG k)) ∧
    (firstWrite r s = w)) ∧
    (∃ (i k : Nat) (l : List Nat) (s : State),
    ((l.map dscLen).sum < 60 ∨ 12288 < (l.map dscLen).sum)) ∧
    (∃ (i : Fin 16) (data : List Byte) (x : Fin 3) (s : State),
    (s.clocked hostPage = true) ∧
    (s.hb .pciUp = true) ∧
    (readPending s i = true)) ∧
    (∃ (i : Option (Fin 16)) (data : List Byte) (x : Fin 3) (b : Fin 32) (s : State),
    (s.clocked hostPage = true) ∧
    (s.hb .pciUp = true) ∧
    (aerBits.contains b.val = true)) ∧
    (∃ (i : Fin 16) (carry : Bool) (j : Inj) (s : State),
    (s.injects.find? (fun j => j.ring == i.val && !j.offered) = some j) ∧
    (dmaOk s = true) ∧
    (injOn s i = true) ∧
    (j.reads = [])) ∧
    (∃ (i : Fin 16) (j : Inj) (s : State),
    (s.injects.find? (fun j => j.ring == i.val) = some j)) ∧
    (∃ (i : Fin 16) (s : State) (u : State),
    (s.clocked hostPage = true) ∧
    (readPending s i = true) ∧
    (bit (s.hn .cto) 4 = false) ∧
    (waitRoot (readSince s i + cycUs (ctoUs (s.hn .cto % 16))) s = u)) ∧
    (∃ (v : Fin 64) (s : State) (w : State),
    (cfgOk s = true) ∧
    (s.rbit (bank 60 (0x800 + 4 * (v / 32))) (v % 32) = true) ∧
    (msixHeld s v = false) ∧
    (s.setRbit (bank 60 (0x800 + 4 * (v / 32))) (v % 32) false = w)) ∧
    (∃ (i : Fin 16) (data : List Byte) (x : Fin 3) (s : State),
    (s.clocked hostPage = true) ∧
    (s.hb .pciUp = true) ∧
    (readPending s i = false)) ∧
    (∃ (k : Fin 64) (l : List W64) (ue : Bool) (s : State),
    (dmaOk s = true) ∧
    (puntOn s k = true)) ∧
    (∃ (r : Fin 64) (s : State),
    (s.live hostPage = true)) ∧
    (∃ (i : Fin 16) (s : State),
    (s.clocked hostPage = true)) ∧
    (∃ (v : Fin 64) (s : State),
    (cfgOk s = true)) :=
  ⟨⟨3, [0x2000], ((up [2, 5, 0xD1, 0xD4]).hidSet [(Hid.pciUp, 1), (Hid.bme, 1), (Hid.booted, 1)]),
    by decide +kernel⟩,
   ⟨3, [0x2000], ({ id := 4, loc := .host 3, bytes := [1, 2, 3], since := 0, limit := 0 } : Frame), 1, ({ ((((up [2, 5, 0xD1, 0xD4]).hidSet [(Hid.pciUp, 1), (Hid.bme, 1), (Hid.booted, 1)])).regsSet [(Reg.HOST.P_CFG 3, 0x80060001), (Reg.HOST.P_TAIL 3, 5), (Reg.HOST.P_BASE_LO 3, 0x1000)]) with frames := [({ id := 4, loc := .host 3, bytes := [1, 2, 3], since := 0, limit := 0 } : Frame)] }), (puntFill 3 0 0x2000 (puntMeta ({ id := 4, loc := .host 3, bytes := [1, 2, 3], since := 0, limit := 0 } : Frame) ++ [1, 2, 3]) true true ({ ((((up [2, 5, 0xD1, 0xD4]).hidSet [(Hid.pciUp, 1), (Hid.bme, 1), (Hid.booted, 1)])).regsSet [(Reg.HOST.P_CFG 3, 0x80060001), (Reg.HOST.P_TAIL 3, 5), (Reg.HOST.P_BASE_LO 3, 0x1000)]) with frames := [({ id := 4, loc := .host 3, bytes := [1, 2, 3], since := 0, limit := 0 } : Frame)] })),
    by decide +kernel⟩,
   ⟨3, ({ id := 4, loc := .host 3, bytes := [1, 2, 3], since := 0, limit := 0 } : Frame), ({ ((((up [2, 5, 0xD1, 0xD4]).hidSet [(Hid.pciUp, 1), (Hid.bme, 1), (Hid.booted, 1)])).regsSet [(Reg.HOST.P_CFG 3, 0x80060001), (Reg.HOST.P_TAIL 3, 5), (Reg.HOST.P_BASE_LO 3, 0x1000)]) with frames := [({ id := 4, loc := .host 3, bytes := [1, 2, 3], since := 0, limit := 0 } : Frame)] }),
    by decide +kernel⟩,
   ⟨3, ({ id := 4, loc := .host 3, bytes := [1, 2, 3], since := 0, limit := 0 } : Frame), ({ ({ ((((up [2, 5, 0xD1, 0xD4]).hidSet [(Hid.pciUp, 1), (Hid.bme, 1), (Hid.booted, 1)])).regsSet [(Reg.HOST.P_CFG 3, 0x80060001), (Reg.HOST.P_TAIL 3, 5), (Reg.HOST.P_BASE_LO 3, 0x1000)]) with frames := [({ id := 4, loc := .host 3, bytes := [1, 2, 3], since := 0, limit := 0 } : Frame)] }) with fol := 5 * unitsNs }), ({ ({ ((((up [2, 5, 0xD1, 0xD4]).hidSet [(Hid.pciUp, 1), (Hid.bme, 1), (Hid.booted, 1)])).regsSet [(Reg.HOST.P_CFG 3, 0x80060001), (Reg.HOST.P_TAIL 3, 5), (Reg.HOST.P_BASE_LO 3, 0x1000)]) with frames := [({ id := 4, loc := .host 3, bytes := [1, 2, 3], since := 0, limit := 0 } : Frame)] }) with fol := 5 * unitsNs }),
    by decide +kernel⟩,
   ⟨.HOST, 3, 7, ((((up [2, 5, 0xD1, 0xD4]).hidSet [(Hid.pciUp, 1), (Hid.bme, 1), (Hid.booted, 1)])).regsSet [(Reg.HOST.P_CFG 3, 0x80060001), (Reg.HOST.P_TAIL 3, 5), (Reg.HOST.P_BASE_LO 3, 0x1000)]), (firstWrite .HOST (((((up [2, 5, 0xD1, 0xD4]).hidSet [(Hid.pciUp, 1), (Hid.bme, 1), (Hid.booted, 1)])).regsSet [(Reg.HOST.P_CFG 3, 0x80060001), (Reg.HOST.P_TAIL 3, 5), (Reg.HOST.P_BASE_LO 3, 0x1000)]))),
    by decide +kernel⟩,
   ⟨.HOST, 2, 7, ((((up [2, 5, 0xD1, 0xD4]).hidSet [(Hid.pciUp, 1), (Hid.bme, 1), (Hid.booted, 1)])).regsSet [(Reg.HOST.I_CFG 2, 0x80060000), (Reg.HOST.I_TAIL 2, 1)]), (firstWrite .HOST (((((up [2, 5, 0xD1, 0xD4]).hidSet [(Hid.pciUp, 1), (Hid.bme, 1), (Hid.booted, 1)])).regsSet [(Reg.HOST.I_CFG 2, 0x80060000), (Reg.HOST.I_TAIL 2, 1)]))),
    by decide +kernel⟩,
   ⟨.HOST, 3, 3, 0x80060001, ((up [2, 5, 0xD1, 0xD4]).hidSet [(Hid.pciUp, 1), (Hid.bme, 1), (Hid.booted, 1)]), (firstWrite .HOST (((up [2, 5, 0xD1, 0xD4]).hidSet [(Hid.pciUp, 1), (Hid.bme, 1), (Hid.booted, 1)]))),
    by decide +kernel⟩,
   ⟨.HOST, 2, 66, 0x80060000, ((up [2, 5, 0xD1, 0xD4]).hidSet [(Hid.pciUp, 1), (Hid.bme, 1), (Hid.booted, 1)]), (firstWrite .HOST (((up [2, 5, 0xD1, 0xD4]).hidSet [(Hid.pciUp, 1), (Hid.bme, 1), (Hid.booted, 1)]))),
    by decide +kernel⟩,
   ⟨2, 0, [1], ((((up [2, 5, 0xD1, 0xD4]).hidSet [(Hid.pciUp, 1), (Hid.bme, 1), (Hid.booted, 1)])).regsSet [(Reg.HOST.I_CFG 2, 0x80060000), (Reg.HOST.I_TAIL 2, 1)]),
    by decide +kernel⟩,
   ⟨2, [7], 1, ({ ((((up [2, 5, 0xD1, 0xD4]).hidSet [(Hid.pciUp, 1), (Hid.bme, 1), (Hid.booted, 1)])).regsSet [(Reg.HOST.I_CFG 2, 0x80060000), (Reg.HOST.I_TAIL 2, 1)]) with injects := [({ ring := 2, skip := 0, desc := 0, descs := 1, sop := 0, reads := [(64, some 0)], bytes := [], err := false, offered := false, cells := [], status := none, ts := 0 } : Inj)] }),
    by decide +kernel⟩,
   ⟨none, [], 0, 4, ({ ((((up [2, 5, 0xD1, 0xD4]).hidSet [(Hid.pciUp, 1), (Hid.bme, 1), (Hid.booted, 1)])).regsSet [(Reg.HOST.I_CFG 2, 0x80060000), (Reg.HOST.I_TAIL 2, 1)]) with injects := [({ ring := 2, skip := 0, desc := 0, descs := 1, sop := 0, reads := [(64, some 0)], bytes := [], err := false, offered := false, cells := [], status := none, ts := 0 } : Inj)] }),
    by decide +kernel⟩,
   ⟨2, false, ({ ring := 2, skip := 0, desc := 0, descs := 1, sop := 0, reads := [], bytes := [], err := false, offered := false, cells := [], status := none, ts := 0 } : Inj), ({ ((((up [2, 5, 0xD1, 0xD4]).hidSet [(Hid.pciUp, 1), (Hid.bme, 1), (Hid.booted, 1)])).regsSet [(Reg.HOST.I_CFG 2, 0x80060000), (Reg.HOST.I_TAIL 2, 1)]) with injects := [({ ring := 2, skip := 0, desc := 0, descs := 1, sop := 0, reads := [], bytes := [], err := false, offered := false, cells := [], status := none, ts := 0 } : Inj)] }),
    by decide +kernel⟩,
   ⟨2, ({ ring := 2, skip := 0, desc := 0, descs := 1, sop := 0, reads := [], bytes := [], err := false, offered := false, cells := [], status := some 3, ts := 0 } : Inj), ({ ((((up [2, 5, 0xD1, 0xD4]).hidSet [(Hid.pciUp, 1), (Hid.bme, 1), (Hid.booted, 1)])).regsSet [(Reg.HOST.I_CFG 2, 0x80060000), (Reg.HOST.I_TAIL 2, 1)]) with injects := [({ ring := 2, skip := 0, desc := 0, descs := 1, sop := 0, reads := [], bytes := [], err := false, offered := false, cells := [], status := some 3, ts := 0 } : Inj)] }),
    by decide +kernel⟩,
   ⟨2, ({ ((((up [2, 5, 0xD1, 0xD4]).hidSet [(Hid.pciUp, 1), (Hid.bme, 1), (Hid.booted, 1)])).regsSet [(Reg.HOST.I_CFG 2, 0x80060000), (Reg.HOST.I_TAIL 2, 1)]) with injects := [({ ring := 2, skip := 0, desc := 0, descs := 1, sop := 0, reads := [(64, some 0)], bytes := [], err := false, offered := false, cells := [], status := none, ts := 0 } : Inj)] }), (waitRoot (0 + cycUs (ctoUs 0)) ({ ((((up [2, 5, 0xD1, 0xD4]).hidSet [(Hid.pciUp, 1), (Hid.bme, 1), (Hid.booted, 1)])).regsSet [(Reg.HOST.I_CFG 2, 0x80060000), (Reg.HOST.I_TAIL 2, 1)]) with injects := [({ ring := 2, skip := 0, desc := 0, descs := 1, sop := 0, reads := [(64, some 0)], bytes := [], err := false, offered := false, cells := [], status := none, ts := 0 } : Inj)] })),
    by decide +kernel⟩,
   ⟨3, ((up [2, 5, 0xD1, 0xD4]).hidSet [(Hid.pciUp, 1), (Hid.bme, 1), (Hid.booted, 1)]).regsSet [(bank 60 0x800, 8), (bank 60 0x3C, 0)] |>.setHb .msixEn true, (((up [2, 5, 0xD1, 0xD4]).hidSet [(Hid.pciUp, 1), (Hid.bme, 1), (Hid.booted, 1)]).regsSet [(bank 60 0x800, 8), (bank 60 0x3C, 0)] |>.setHb .msixEn true).setRbit (bank 60 0x800) 3 false,
    by decide +kernel⟩,
   ⟨3, [7], 1, ({ ((((up [2, 5, 0xD1, 0xD4]).hidSet [(Hid.pciUp, 1), (Hid.bme, 1), (Hid.booted, 1)])).regsSet [(Reg.HOST.I_CFG 2, 0x80060000), (Reg.HOST.I_TAIL 2, 1)]) with injects := [({ ring := 2, skip := 0, desc := 0, descs := 1, sop := 0, reads := [(64, some 0)], bytes := [], err := false, offered := false, cells := [], status := none, ts := 0 } : Inj)] }),
    by decide +kernel⟩,
   ⟨3, [], false, ({ ((((up [2, 5, 0xD1, 0xD4]).hidSet [(Hid.pciUp, 1), (Hid.bme, 1), (Hid.booted, 1)])).regsSet [(Reg.HOST.P_CFG 3, 0x80060001), (Reg.HOST.P_TAIL 3, 5), (Reg.HOST.P_BASE_LO 3, 0x1000)]) with frames := [({ id := 4, loc := .host 3, bytes := [1, 2, 3], since := 0, limit := 0 } : Frame)] }),
    by decide +kernel⟩,
   ⟨3, ({ ({ ((((up [2, 5, 0xD1, 0xD4]).hidSet [(Hid.pciUp, 1), (Hid.bme, 1), (Hid.booted, 1)])).regsSet [(Reg.HOST.P_CFG 3, 0x80060001), (Reg.HOST.P_TAIL 3, 5), (Reg.HOST.P_BASE_LO 3, 0x1000)]) with frames := [({ id := 4, loc := .host 3, bytes := [1, 2, 3], since := 0, limit := 0 } : Frame)] }) with fol := 5 * unitsNs }),
    by decide +kernel⟩,
   ⟨2, ({ ((((up [2, 5, 0xD1, 0xD4]).hidSet [(Hid.pciUp, 1), (Hid.bme, 1), (Hid.booted, 1)])).regsSet [(Reg.HOST.I_CFG 2, 0x80060000), (Reg.HOST.I_TAIL 2, 1)]) with injects := [({ ring := 2, skip := 0, desc := 0, descs := 1, sop := 0, reads := [(64, some 0)], bytes := [], err := false, offered := false, cells := [], status := none, ts := 0 } : Inj)] }),
    by decide +kernel⟩,
   ⟨3, ((up [2, 5, 0xD1, 0xD4]).hidSet [(Hid.pciUp, 1), (Hid.bme, 1), (Hid.booted, 1)]).regsSet [(bank 60 0x800, 8), (bank 60 0x3C, 0)] |>.setHb .msixEn true,
    by decide +kernel⟩⟩

theorem meets_StartAndTrust :
    (∃ (ok : Bool) (s : State) (t : State) (w : State) (u : State),
    (s.h .booted = 0) ∧
    (s.pllOk = true) ∧
    (s.h .rstHold = 0) ∧
    (waitRoot (s.hn .resetAt + cycUs 10) s = t) ∧
    (readPegbox (mrConfig 1 [] (forEach aonPages ((t.setH .booted 1).setHb .flashBad !ok) fun p t => t.setRbit (Reg.BLK_CTL p) 0 true)) = w) ∧
    (bootSlots ((mrConfig 7 lindun (mrConfig 2 (pegData w 0 ++ [BitVec.ofNat 8 (w.reg Reg.SEC.KEY_STS)] ++ pegData w 3) w)).setHb .lifeDue true) = u)) ∧
    (∃ (ok : Bool) (s : State),
    (s.h .booted = 1)) ∧
    (∃ (n a b : Nat) (s : State) (w : State),
    (startEngines n (List.range 7) s = (some (a, b), w))) ∧
    (∃ (b : Bool) (s : State) (w : State),
    (startFrom (chosenSlot s) s = (b, w))) ∧
    (∃ (r : Req) (v : W32) (s : State) (w : State),
    (Admits s r Reg.SEC.KEY_REVOKE) ∧
    (firstWrite r s = w)) ∧
    (∃ (r : Req) (v : W32) (s : State) (w : State),
    (Admits s r Reg.SEC.SVN_COMMIT) ∧
    (firstWrite r s = w) ∧
    (ordersOk w r = false ∨ imageTypes.contains (v.toNat % 256) = false)) ∧
    (∃ (r : Req) (v : W32) (s : State) (w : State),
    (Admits s r Reg.SEC.SVN_COMMIT) ∧
    (firstWrite r s = w) ∧
    (ordersOk w r = true) ∧
    (imageTypes.contains (v.toNat % 256) = true) ∧
    ((runningSvn w (v.toNat % 256)).filter (· != 0) = [])) ∧
    (∃ (r : Req) (v : W32) (x : Nat) (l : List Nat) (s : State) (w : State),
    (Admits s r Reg.SEC.SVN_COMMIT) ∧
    (firstWrite r s = w) ∧
    (ordersOk w r = true) ∧
    (imageTypes.contains (v.toNat % 256) = true) ∧
    ((runningSvn w (v.toNat % 256)).filter (· != 0) = x :: l)) ∧
    (∃ (r : Req) (v : W32) (s : State) (w : State),
    (Admits s r Reg.SEC.ENG_RELOAD) ∧
    (firstWrite r s = w) ∧
    (ordersOk w r = true) ∧
    (fld v.toNat 0 3 ≠ 7) ∧
    ((fld v.toNat 0 3 = 2 → w.hn .capoState < 2)) ∧
    ((fld v.toNat 0 3 = 3 → snapBusy w = false)) ∧
    (reloading w = false)) ∧
    (∃ (r : Req) (v : W32) (s : State) (w : State),
    (Admits s r Reg.SEC.ENG_RELOAD) ∧
    (firstWrite r s = w) ∧
    (ordersOk w r = false ∨ fld v.toNat 0 3 = 7 ∨ reloading w = true)) ∧
    (∃ (i n c : Nat) (s : State) (w : State),
    (flashHead s = some (.engine i n)) ∧
    (flashEnd ((if s.h .stopAt = 0 then s else waitRoot (s.hn .stopAt - 1) s).setH .stopAt 0) = w) ∧
    (checkImage w n (0x10 + i) none = c)) ∧
    (∃ (s : State),
    (flashHead s = none)) ∧
    (∃ (r : Req) (v : W32) (s : State) (w : State),
    (Admits s r Reg.SEC.RUN_SLOT) ∧
    (firstWrite r s = w)) ∧
    (∃ (n m : Nat) (s : State) (w : State),
    (flashHead s = some (.check n m)) ∧
    (flashEnd s = w)) ∧
    (∃ (r : Req) (v : W32) (s : State),
    (Admits s r Reg.SEC.SVN_COMMIT)) ∧
    (∃ (r : Req) (v : W32) (s : State),
    (Admits s r Reg.SEC.ENG_RELOAD)) :=
  ⟨⟨false, ({ (up [2, 3, 4]) with root := 1000000 }), ({ (up [2, 3, 4]) with root := 1000000 }), (readPegbox (mrConfig 1 [] (forEach aonPages (State.setHb (State.setH ({ (up [2, 3, 4]) with root := 1000000 }) .booted 1) .flashBad true) fun p t => t.setRbit (Reg.BLK_CTL p) 0 true))), (bootSlots ((mrConfig 7 lindun (mrConfig 2 (pegData (readPegbox (mrConfig 1 [] (forEach aonPages (State.setHb (State.setH ({ (up [2, 3, 4]) with root := 1000000 }) .booted 1) .flashBad true) fun p t => t.setRbit (Reg.BLK_CTL p) 0 true))) 0 ++ [BitVec.ofNat 8 ((readPegbox (mrConfig 1 [] (forEach aonPages (State.setHb (State.setH ({ (up [2, 3, 4]) with root := 1000000 }) .booted 1) .flashBad true) fun p t => t.setRbit (Reg.BLK_CTL p) 0 true))).reg Reg.SEC.KEY_STS)] ++ pegData (readPegbox (mrConfig 1 [] (forEach aonPages (State.setHb (State.setH ({ (up [2, 3, 4]) with root := 1000000 }) .booted 1) .flashBad true) fun p t => t.setRbit (Reg.BLK_CTL p) 0 true))) 3) (readPegbox (mrConfig 1 [] (forEach aonPages (State.setHb (State.setH ({ (up [2, 3, 4]) with root := 1000000 }) .booted 1) .flashBad true) fun p t => t.setRbit (Reg.BLK_CTL p) 0 true))))).setHb .lifeDue true)),
    by decide +kernel, by decide +kernel, by decide +kernel, by decide +kernel, rfl, rfl⟩,
   ⟨true, (up [2, 3, 4]).setH .booted 1,
    by decide +kernel⟩,
   ⟨0, 0x10, (checkImage (up [2, 3, 4]) 0 0x10 none), (up [2, 3, 4]), (up [2, 3, 4]),
    by decide +kernel⟩,
   ⟨false, (up [2, 3, 4]), ((startFrom (chosenSlot (up [2, 3, 4])) (up [2, 3, 4])).2),
    by decide +kernel⟩,
   ⟨.BOOT, 2, ((up [2, 3, 4])), (firstWrite .BOOT ((up [2, 3, 4]))),
    by decide +kernel⟩,
   ⟨.HOST, 1, (up [2, 3, 4]), (firstWrite .HOST ((up [2, 3, 4]))),
    by decide +kernel⟩,
   ⟨.BOOT, 1, ((up [2, 3, 4])), (firstWrite .BOOT ((up [2, 3, 4]))),
    by decide +kernel⟩,
   ⟨.BOOT, 0x10, 7, [], (((up [2, 3, 4]).setH (.engSvn 0) 7)), (firstWrite .BOOT (((up [2, 3, 4]).setH (.engSvn 0) 7))),
    by decide +kernel⟩,
   ⟨.BOOT, 1, ((up [2, 3, 4])), (firstWrite .BOOT ((up [2, 3, 4]))),
    by decide +kernel⟩,
   ⟨.BOOT, 7, ((up [2, 3, 4])), (firstWrite .BOOT ((up [2, 3, 4]))),
    by decide +kernel⟩,
   ⟨1, 0, (checkImage (flashEnd (({ (up [2, 3, 4]) with flashQ := [.engine 1 0] } : State).setH .stopAt 0)) 0 0x11 none), ({ (up [2, 3, 4]) with flashQ := [.engine 1 0] } : State), (flashEnd (({ (up [2, 3, 4]) with flashQ := [.engine 1 0] } : State).setH .stopAt 0)),
    by decide +kernel⟩,
   ⟨(up [2, 3, 4]),
    by decide +kernel⟩,
   ⟨.BOOT, 1, ((up [2, 3, 4])), (firstWrite .BOOT ((up [2, 3, 4]))),
    by decide +kernel⟩,
   ⟨1, 0, ({ (up [2, 3, 4]) with flashQ := [.check 1 0] }), (flashEnd { (up [2, 3, 4]) with flashQ := [.check 1 0] }),
    by decide +kernel⟩,
   ⟨.HOST, 1, (up [2, 3, 4]),
    by decide +kernel⟩,
   ⟨.BOOT, 1, ((up [2, 3, 4])),
    by decide +kernel⟩⟩

theorem meets_EloatalAndPegbox :
    (∃ (h : EloHdr) (idle : Bool) (s : State) (t : State) (w : State),
    ((if idle then waitRoot (s.hn .eloAt + cycUs 10000000) s else s) = t) ∧
    (eloRuns t = true) ∧
    (eloFor h 1 = true) ∧
    (eloMalformed h 0 = false) ∧
    (t.h .eloPeer = 0 ∨ (s.hn .eloAt + cycUs 10000000 ≤ t.root ∧ eloWaits t = false)) ∧
    (raise secPage 3 ((((t.setReg Reg.SEC.ELO_PEER_LO (h.mac.toNat % 2 ^ 32)).setReg Reg.SEC.ELO_PEER_HI (h.mac.toNat / 2 ^ 32)).setH .eloPeer 1).setH .eloSeq 0) = w)) ∧
    (∃ (h : EloHdr) (s : State),
    (eloRuns s = true) ∧
    (s.h .eloPeer ≠ 0) ∧
    (s.root < s.hn .eloAt + cycUs 10000000)) ∧
    (∃ (h : EloHdr) (x : Byte) (s : State),
    (EloServed s h 0x02 1)) ∧
    (∃ (h : EloHdr) (x : Byte) (s : State),
    (EloServed s h 0x03 1)) ∧
    (∃ (ok : Bool) (h : EloHdr) (n : Nat) (s : State),
    (flashHead s = some (.elo h (.erase n)))) ∧
    (∃ (h : EloHdr) (x : Byte) (o : W32) (l : List Byte) (s : State),
    (EloServed s h 0x04 (8 + l.length))) ∧
    (∃ (x o n : Nat) (l b : List Byte) (s : State),
    (slotDenied s x = 0) ∧
    (programmed (slotBytes s x o l.length) l = b)) ∧
    (∃ (h : EloHdr) (x : Byte) (o : W32) (n : BitVec 16) (s : State),
    (EloServed s h 0x05 10)) ∧
    (∃ (h : EloHdr) (x : Byte) (s : State),
    (EloServed s h 0x06 1)) ∧
    (∃ (h : EloHdr) (s : State),
    (EloServed s h 0x07 0)) ∧
    (∃ (h : EloHdr) (msg : List Byte) (s : State),
    (EloServed s h 0x08 msg.length)) ∧
    (∃ (r : Req) (v : W32) (s : State) (w : State),
    (Admits s r Reg.PEG.STORE) ∧
    (firstWrite r s = w) ∧
    (w.live pegPage = true) ∧
    (w.pegJobs = []) ∧
    (fld v.toNat 24 6 < 2 ∨ 31 < fld v.toNat 24 6) ∧
    (fld v.toNat 0 12 ≤ 4032)) ∧
    (∃ (r : Req) (v : W32) (c : Nat) (s : State) (w : State),
    (Admits s r Reg.PEG.STORE) ∧
    (firstWrite r s = w) ∧
    (w.live pegPage = true) ∧
    (c = (if !w.pegJobs.isEmpty then 0x10 else if 2 ≤ fld v.toNat 24 6 ∧ fld v.toNat 24 6 ≤ 31 then 0x11 else 0x12)) ∧
    (w.pegJobs ≠ [] ∨ (2 ≤ fld v.toNat 24 6 ∧ fld v.toNat 24 6 ≤ 31) ∨ 4032 < fld v.toNat 0 12)) ∧
    (∃ (j : PegJob) (l : List PegJob) (s : State) (w : State),
    (s.pegJobs = j :: l) ∧
    ({ s with pegJobs := l } = w)) ∧
    (∃ (j : PegJob) (l : List PegJob) (s : State) (w : State),
    (s.pegJobs = j :: l) ∧
    ({ s with pegJobs := l } = w)) ∧
    (∃ (ok : Bool) (s : State),
    (s.pegJobs = [])) ∧
    (∃ (s : State) (t : State) (w : State),
    (eloRuns s = true) ∧
    (waitRoot (s.hn .lifeAt + cycUs 3600000000) s = t) ∧
    (t.setH .lifeAt (t.root : Nat) = w)) ∧
    (∃ (s : State) (w : State),
    (eloRuns s = true) ∧
    (s.hb .lifeDue = true) ∧
    ((s.setHb .lifeDue false).setH .lifeAt (s.root : Nat) = w)) ∧
    (∃ (r : Req) (v : W32) (s : State),
    (Admits s r Reg.PEG.STORE)) :=
  ⟨⟨⟨BitVec.ofNat 48 serviceMac, 9, 0x88B5, 1, none, 5, 0, 0, 0⟩, false, ((up [2, 3, 4]).setH .booted 1), ((up [2, 3, 4]).setH .booted 1), (raise secPage 3 ((((((up [2, 3, 4]).setH .booted 1).setReg Reg.SEC.ELO_PEER_LO 9).setReg Reg.SEC.ELO_PEER_HI 0).setH .eloPeer 1).setH .eloSeq 0)),
    by decide +kernel, by decide +kernel, eloFor_service _ service_toNat rfl, by decide +kernel⟩,
   ⟨⟨0, 9, 0x88B5, 1, none, 5, 0, 0, 0⟩, ((((up [2, 3, 4]).setReg Reg.SEC.ELO_PEER_LO 9).hidSet [(Hid.booted, 1), (Hid.eloPeer, 1)]).setH .eloAt 100),
    by decide +kernel⟩,
   ⟨⟨BitVec.ofNat 48 serviceMac, 9, 0x88B5, 1, none, 5, 1, 0, 0⟩, 0, (((up [2, 3, 4]).setReg Reg.SEC.ELO_PEER_LO 9).hidSet [(Hid.booted, 1), (Hid.eloPeer, 1)]),
    ⟨by decide +kernel, eloFor_service _ service_toNat rfl, by decide +kernel, by decide +kernel, by decide +kernel, by decide +kernel, by decide +kernel⟩⟩,
   ⟨⟨BitVec.ofNat 48 serviceMac, 9, 0x88B5, 1, none, 5, 1, 0, 0⟩, 1, ((((up [2, 3, 4]).setReg Reg.SEC.ELO_PEER_LO 9).hidSet [(Hid.booted, 1), (Hid.eloPeer, 1)]).setReg Reg.SEC.ELO_CFG 3),
    ⟨by decide +kernel, eloFor_service _ service_toNat rfl, by decide +kernel, by decide +kernel, by decide +kernel, by decide +kernel, by decide +kernel⟩⟩,
   ⟨true, ⟨0, 9, 0x88B5, 1, none, 5, 1, 0, 0⟩, 1, ({ (((up [2, 3, 4]).setReg Reg.SEC.ELO_PEER_LO 9).hidSet [(Hid.booted, 1), (Hid.eloPeer, 1)]) with flashQ := [.elo ⟨0, 9, 0x88B5, 1, none, 5, 1, 0, 0⟩ (.erase 1)] }),
    by decide +kernel⟩,
   ⟨⟨BitVec.ofNat 48 serviceMac, 9, 0x88B5, 1, none, 5, 12, 0, 0⟩, 1, 4, [1, 2, 3, 4], ((((up [2, 3, 4]).setReg Reg.SEC.ELO_PEER_LO 9).hidSet [(Hid.booted, 1), (Hid.eloPeer, 1)]).setReg Reg.SEC.ELO_CFG 3),
    ⟨by decide +kernel, eloFor_service _ service_toNat rfl, by decide +kernel, by decide +kernel, by decide +kernel, by decide +kernel, by decide +kernel⟩⟩,
   ⟨1, 4, 4, [1, 2, 3, 4], [1, 2, 3, 4], ((((up [2, 3, 4]).setReg Reg.SEC.ELO_PEER_LO 9).hidSet [(Hid.booted, 1), (Hid.eloPeer, 1)]).setReg Reg.SEC.ELO_CFG 3),
    by decide +kernel⟩,
   ⟨⟨BitVec.ofNat 48 serviceMac, 9, 0x88B5, 1, none, 5, 10, 0, 0⟩, 0, 4, 4, (((up [2, 3, 4]).setReg Reg.SEC.ELO_PEER_LO 9).hidSet [(Hid.booted, 1), (Hid.eloPeer, 1)]),
    ⟨by decide +kernel, eloFor_service _ service_toNat rfl, by decide +kernel, by decide +kernel, by decide +kernel, by decide +kernel, by decide +kernel⟩⟩,
   ⟨⟨BitVec.ofNat 48 serviceMac, 9, 0x88B5, 1, none, 5, 1, 0, 0⟩, 3, (((up [2, 3, 4]).setReg Reg.SEC.ELO_PEER_LO 9).hidSet [(Hid.booted, 1), (Hid.eloPeer, 1)]),
    ⟨by decide +kernel, eloFor_service _ service_toNat rfl, by decide +kernel, by decide +kernel, by decide +kernel, by decide +kernel, by decide +kernel⟩⟩,
   ⟨⟨BitVec.ofNat 48 serviceMac, 9, 0x88B5, 1, none, 5, 0, 0, 0⟩, (((up [2, 3, 4]).setReg Reg.SEC.ELO_PEER_LO 9).hidSet [(Hid.booted, 1), (Hid.eloPeer, 1)]),
    ⟨by decide +kernel, eloFor_service _ service_toNat rfl, by decide +kernel, by decide +kernel, by decide +kernel, by decide +kernel, by decide +kernel⟩⟩,
   ⟨⟨BitVec.ofNat 48 serviceMac, 9, 0x88B5, 1, none, 5, 1, 0, 0⟩, [1], (((up [2, 3, 4]).setReg Reg.SEC.ELO_PEER_LO 9).hidSet [(Hid.booted, 1), (Hid.eloPeer, 1)]),
    ⟨by decide +kernel, eloFor_service _ service_toNat rfl, by decide +kernel, by decide +kernel, by decide +kernel, by decide +kernel, by decide +kernel⟩⟩,
   ⟨.HOST, 0x28000010, (up [2, 3, 4]), (firstWrite .HOST ((up [2, 3, 4]))),
    by decide +kernel⟩,
   ⟨.HOST, 0x02000010, 0x11, (up [2, 3, 4]), (firstWrite .HOST ((up [2, 3, 4]))),
    by decide +kernel⟩,
   ⟨{ r := 1, area := 40, fmt := 2, data := [1] }, [], ({ (((up [2, 3, 4]).setReg Reg.SEC.ELO_PEER_LO 9).hidSet [(Hid.booted, 1), (Hid.eloPeer, 1)]) with pegJobs := [{ r := 1, area := 40, fmt := 2, data := [1] }] }), ({ ({ (((up [2, 3, 4]).setReg Reg.SEC.ELO_PEER_LO 9).hidSet [(Hid.booted, 1), (Hid.eloPeer, 1)]) with pegJobs := [{ r := 1, area := 40, fmt := 2, data := [1] }] }) with pegJobs := [] }),
    by decide +kernel⟩,
   ⟨{ r := 1, area := 40, fmt := 2, data := [1] }, [], ({ (((up [2, 3, 4]).setReg Reg.SEC.ELO_PEER_LO 9).hidSet [(Hid.booted, 1), (Hid.eloPeer, 1)]) with pegJobs := [{ r := 1, area := 40, fmt := 2, data := [1] }] }), ({ ({ (((up [2, 3, 4]).setReg Reg.SEC.ELO_PEER_LO 9).hidSet [(Hid.booted, 1), (Hid.eloPeer, 1)]) with pegJobs := [{ r := 1, area := 40, fmt := 2, data := [1] }] }) with pegJobs := [] }),
    by decide +kernel⟩,
   ⟨true, (((up [2, 3, 4]).setReg Reg.SEC.ELO_PEER_LO 9).hidSet [(Hid.booted, 1), (Hid.eloPeer, 1)]),
    by decide +kernel⟩,
   ⟨({ (((up [2, 3, 4]).setReg Reg.SEC.ELO_PEER_LO 9).hidSet [(Hid.booted, 1), (Hid.eloPeer, 1)]) with root := 10000000000000000 }), ({ (((up [2, 3, 4]).setReg Reg.SEC.ELO_PEER_LO 9).hidSet [(Hid.booted, 1), (Hid.eloPeer, 1)]) with root := 10000000000000000 }), (State.setH ({ (((up [2, 3, 4]).setReg Reg.SEC.ELO_PEER_LO 9).hidSet [(Hid.booted, 1), (Hid.eloPeer, 1)]) with root := 10000000000000000 }) .lifeAt 10000000000000000),
    by decide +kernel⟩,
   ⟨((((up [2, 3, 4]).setReg Reg.SEC.ELO_PEER_LO 9).hidSet [(Hid.booted, 1), (Hid.eloPeer, 1)]).setHb .lifeDue true), ((((((up [2, 3, 4]).setReg Reg.SEC.ELO_PEER_LO 9).hidSet [(Hid.booted, 1), (Hid.eloPeer, 1)]).setHb .lifeDue true).setHb .lifeDue false).setH .lifeAt 0),
    by decide +kernel⟩,
   ⟨.HOST, 0x28000010, (up [2, 3, 4]),
    by decide +kernel⟩⟩

theorem meets_CountersAndFlowStatistics :
    (∃ (p : Fin 8192) (s : State) (w : State),
    ((pageOf p).isSome = true) ∧
    (s.live p = true) ∧
    (perfSync p s = w)) ∧
    (∃ (r : Req) (n : Fin 128) (v : W32) (m : Nat) (s : State) (w : State) (u : State),
    (Admits s r (Reg.LPORT.BW_CFG n)) ∧
    (firstWrite r s = w) ∧
    (v.toNat % 2 ^ 20 = m) ∧
    (m ≠ 0) ∧
    (m ≤ 1000000) ∧
    (1000000 % m = 0) ∧
    ((forEach (bwRegs n) w fun a s => forEach [Req.BOOT, .CC_A, .CC_B, .HOST, .JTAG] (s.setReg a 0) fun q s => s.setReg (bwLatch q a) 0) = u)) ∧
    (∃ (r : Req) (n : Fin 128) (v : W32) (s : State) (w : State),
    (Admits s r (Reg.LPORT.BW_CFG n)) ∧
    (firstWrite r s = w) ∧
    (v.toNat % 2 ^ 20 = 0 ∨ 1000000 < v.toNat % 2 ^ 20 ∨ 1000000 % (v.toNat % 2 ^ 20) ≠ 0)) ∧
    (∃ (n : Fin 128) (s : State) (w : State),
    (s.live (0x10 + n) = true) ∧
    (s.rbit (Reg.LPORT.BW_CFG n) 31 = true) ∧
    (s.h (.bwStart n) ≠ 0) ∧
    (advanceTo ((s.hn (.bwStart n) - 1 + s.rfld (Reg.LPORT.BW_CFG n) 0 20 * 1000) * unitsNs) s = w)) ∧
    (∃ (n m a t : Nat) (s : State) (w : State),
    (s.rbit (Reg.LPORT.BW_CFG n) 31 = true) ∧
    (s.hn (.bwStart n) = a) ∧
    (a ≠ 0) ∧
    (s.rfld (Reg.LPORT.BW_CFG n) 0 20 = m) ∧
    (m ≠ 0) ∧
    (a + m * 1000 ≤ t + 1) ∧
    (t + 1 < a + 2 * (m * 1000)) ∧
    ((s.setReg (Reg.LPORT.BW_RX n) (s.hn (.bwRx n))).setReg (Reg.LPORT.BW_RX_MAX n) (max (s.reg (Reg.LPORT.BW_RX_MAX n)) (s.hn (.bwRx n))) = w)) ∧
    (∃ (n : Fin 128) (s : State),
    (s.rbit (Reg.LPORT.BW_CFG n) 31 = false)) ∧
    (∃ (r : Req) (n : Fin 128) (s : State) (w : State),
    (Admits s r (Reg.LPORT.BW_SEQ n)) ∧
    ((forEach (bwRegs n) (s.when (s.live (0x10 + n)) (bwCatch n s.nowNs)) fun a s => s.setReg (bwLatch r a) (s.reg a)) = w)) ∧
    (∃ (r : Req) (v : W32) (s : State) (w : State),
    (Admits s r Reg.SNAP.FS_CFG) ∧
    (firstWrite r s = w)) ∧
    (∃ (i : Fin 4194304) (s : State),
    (foldOn s = true)) ∧
    (∃ (i : Nat) (s : State) (w : State),
    (fsTouch i s = w)) ∧
    (∃ (r : Req) (s : State) (w : State),
    (TableReady s r snapPage) ∧
    (firstWrite r s = w) ∧
    (selOf s r snapPage = 1) ∧
    (idxOf s r snapPage < 3670016) ∧
    (foldOn w = true)) ∧
    (∃ (r : Req) (s : State) (w : State) (u : State),
    (TableReady s r snapPage) ∧
    (firstWrite r s = w) ∧
    (selOf s r snapPage = 1) ∧
    (idxOf s r snapPage < 3670016) ∧
    (foldOn w = true) ∧
    (fsTouch (idxOf s r snapPage) w = u)) ∧
    (∃ (r : Req) (s : State),
    (TableReady s r snapPage)) ∧
    (∃ (r : Req) (s : State),
    (TableReady s r snapPage)) ∧
    (∃ (p : Fin 8192) (s : State),
    ((pageOf p).isSome = true) ∧
    (s.live p = true)) ∧
    (∃ (n : Fin 128) (s : State),
    (s.live (0x10 + n) = true) ∧
    (s.rbit (Reg.LPORT.BW_CFG n) 31 = true) ∧
    (s.h (.bwStart n) ≠ 0)) ∧
    (∃ (r : Req) (n : Fin 128) (v : W32) (s : State),
    (Admits s r (Reg.LPORT.BW_CFG n))) :=
  ⟨⟨6, ((up [1, 6, 7, 0x15]).hidSet [(Hid.eng 3, 1)]), (perfSync 6 ((up [1, 6, 7, 0x15]).hidSet [(Hid.eng 3, 1)])),
    by decide +kernel⟩,
   ⟨.HOST, 5, 0x800003E8, 1000, ((up [1, 6, 7, 0x15]).hidSet [(Hid.eng 3, 1)]), (firstWrite .HOST (((up [1, 6, 7, 0x15]).hidSet [(Hid.eng 3, 1)]))), (forEach (bwRegs 5) (firstWrite .HOST (((up [1, 6, 7, 0x15]).hidSet [(Hid.eng 3, 1)]))) fun a s => forEach [Req.BOOT, .CC_A, .CC_B, .HOST, .JTAG] (s.setReg a 0) fun q s => s.setReg (bwLatch q a) 0),
    by decide +kernel, by decide +kernel, by decide +kernel, by decide +kernel, by decide +kernel, by decide +kernel, rfl⟩,
   ⟨.HOST, 5, 7, ((up [1, 6, 7, 0x15]).hidSet [(Hid.eng 3, 1)]), (firstWrite .HOST (((up [1, 6, 7, 0x15]).hidSet [(Hid.eng 3, 1)]))),
    by decide +kernel⟩,
   ⟨5, (((up [1, 6, 7, 0x15]).hidSet [(Hid.eng 3, 1)]).regsSet [(Reg.LPORT.BW_CFG 5, 0x80000000)]).setH (.bwStart 5) 1, (((up [1, 6, 7, 0x15]).hidSet [(Hid.eng 3, 1)]).regsSet [(Reg.LPORT.BW_CFG 5, 0x80000000)]).setH (.bwStart 5) 1,
    by decide +kernel⟩,
   ⟨5, 1, 1, 1000, ((((up [1, 6, 7, 0x15]).hidSet [(Hid.eng 3, 1)]).regsSet [(Reg.LPORT.BW_CFG 5, 0x80000001)]).setH (.bwStart 5) 1), (State.setReg (State.setReg ((((up [1, 6, 7, 0x15]).hidSet [(Hid.eng 3, 1)]).regsSet [(Reg.LPORT.BW_CFG 5, 0x80000001)]).setH (.bwStart 5) 1) (Reg.LPORT.BW_RX 5) 0) (Reg.LPORT.BW_RX_MAX 5) 0),
    by decide +kernel⟩,
   ⟨5, ((up [1, 6, 7, 0x15]).hidSet [(Hid.eng 3, 1)]),
    by decide +kernel⟩,
   ⟨.HOST, 5, ((up [1, 6, 7, 0x15]).hidSet [(Hid.eng 3, 1)]), (forEach (bwRegs 5) (((up [1, 6, 7, 0x15]).hidSet [(Hid.eng 3, 1)]).when (((up [1, 6, 7, 0x15]).hidSet [(Hid.eng 3, 1)]).live (0x10 + 5)) (bwCatch 5 (State.nowNs ((up [1, 6, 7, 0x15]).hidSet [(Hid.eng 3, 1)])))) fun a s => s.setReg (bwLatch .HOST a) (s.reg a)),
    by decide +kernel, rfl⟩,
   ⟨.HOST, 0x80010000, ((up [1, 6, 7, 0x15]).hidSet [(Hid.eng 3, 1)]), (firstWrite .HOST (((up [1, 6, 7, 0x15]).hidSet [(Hid.eng 3, 1)]))),
    by decide +kernel⟩,
   ⟨5, ((((up [1, 6, 7, 0x15]).hidSet [(Hid.eng 3, 1)])).setReg Reg.SNAP.FS_CFG 0x80010000),
    by decide +kernel⟩,
   ⟨5, ((((up [1, 6, 7, 0x15]).hidSet [(Hid.eng 3, 1)])).setReg Reg.SNAP.FS_CFG 0x80010000), (fsTouch 5 ((((up [1, 6, 7, 0x15]).hidSet [(Hid.eng 3, 1)])).setReg Reg.SNAP.FS_CFG 0x80010000)),
    by decide +kernel⟩,
   ⟨.HOST, ((((((up [1, 6, 7, 0x15]).hidSet [(Hid.eng 3, 1)])).setReg Reg.SNAP.FS_CFG 0x80010000)).regsSet [(winBank .HOST (Reg.TBL_SEL 6), 1), (winBank .HOST (Reg.TBL_IDX 6), 5)]), (firstWrite .HOST (((((((up [1, 6, 7, 0x15]).hidSet [(Hid.eng 3, 1)])).setReg Reg.SNAP.FS_CFG 0x80010000)).regsSet [(winBank .HOST (Reg.TBL_SEL 6), 1), (winBank .HOST (Reg.TBL_IDX 6), 5)]))),
    by decide +kernel⟩,
   ⟨.HOST, ((((((up [1, 6, 7, 0x15]).hidSet [(Hid.eng 3, 1)])).setReg Reg.SNAP.FS_CFG 0x80010000)).regsSet [(winBank .HOST (Reg.TBL_SEL 6), 1), (winBank .HOST (Reg.TBL_IDX 6), 5)]), (firstWrite .HOST (((((((up [1, 6, 7, 0x15]).hidSet [(Hid.eng 3, 1)])).setReg Reg.SNAP.FS_CFG 0x80010000)).regsSet [(winBank .HOST (Reg.TBL_SEL 6), 1), (winBank .HOST (Reg.TBL_IDX 6), 5)]))), (fsTouch 5 (firstWrite .HOST ((((((up [1, 6, 7, 0x15]).hidSet [(Hid.eng 3, 1)])).setReg Reg.SNAP.FS_CFG 0x80010000)).regsSet [(winBank .HOST (Reg.TBL_SEL 6), 1), (winBank .HOST (Reg.TBL_IDX 6), 5)]))),
    by decide +kernel⟩,
   ⟨.HOST, ((((((up [1, 6, 7, 0x15]).hidSet [(Hid.eng 3, 1)])).setReg Reg.SNAP.FS_CFG 0x80010000)).regsSet [(winBank .HOST (Reg.TBL_SEL 6), 1), (winBank .HOST (Reg.TBL_IDX 6), 5)]),
    by decide +kernel⟩,
   ⟨.HOST, ((((((up [1, 6, 7, 0x15]).hidSet [(Hid.eng 3, 1)])).setReg Reg.SNAP.FS_CFG 0x80010000)).regsSet [(winBank .HOST (Reg.TBL_SEL 6), 1), (winBank .HOST (Reg.TBL_IDX 6), 5)]),
    by decide +kernel⟩,
   ⟨6, ((up [1, 6, 7, 0x15]).hidSet [(Hid.eng 3, 1)]),
    by decide +kernel⟩,
   ⟨5, (((up [1, 6, 7, 0x15]).hidSet [(Hid.eng 3, 1)]).regsSet [(Reg.LPORT.BW_CFG 5, 0x80000000)]).setH (.bwStart 5) 1,
    by decide +kernel⟩,
   ⟨.HOST, 5, 7, ((up [1, 6, 7, 0x15]).hidSet [(Hid.eng 3, 1)]),
    by decide +kernel⟩⟩

theorem meets_Snapshots :
    (∃ (r : Req) (s : State) (w : State),
    (Admits s r Reg.SNAP.CTL) ∧
    (firstWrite r s = w) ∧
    (w.live snapPage = true) ∧
    (snapState w = 0) ∧
    (w.reg Reg.SNAP.SNAP_NS ≤ 999999999) ∧
    (w.tb + 1000 * unitsNs ≤ snapTime w)) ∧
    (∃ (r : Req) (s : State) (w : State),
    (Admits s r Reg.SNAP.CTL) ∧
    (firstWrite r s = w) ∧
    (w.live snapPage = true) ∧
    (snapState w ≠ 0 ∨ 999999999 < w.reg Reg.SNAP.SNAP_NS ∨ snapTime w < w.tb + 1000 * unitsNs)) ∧
    (∃ (r : Req) (s : State) (w : State),
    (Admits s r Reg.SNAP.CTL) ∧
    (firstWrite r s = w) ∧
    (w.live snapPage = true)) ∧
    (∃ (r : Req) (s : State) (w : State),
    (Admits s r Reg.SNAP.CTL) ∧
    (firstWrite r s = w) ∧
    (w.live snapPage = true)) ∧
    (∃ (s : State) (w : State),
    (s.live snapPage = true) ∧
    (s.timeRuns = true) ∧
    (advanceTo (snapTime s) s = w)) ∧
    (∃ (a : BitVec 29) (s : State),
    (s.live snapPage = true) ∧
    (engUp s 3 = true) ∧
    (captured a.toNat = true) ∧
    (s.pageOn (a.toNat / 0x10000) = true)) ∧
    (∃ (s : State) (w : State),
    (s.live snapPage = true) ∧
    (s.hb .snapOpen = true) ∧
    (engUp s 3 = true) ∧
    ({ (forEach (listedCounters s) s snapTouch).setHb .snapOpen false with regs := ((forEach (listedCounters s) s snapTouch).setHb .snapOpen false).regs.filter fun e => e.1 / 2 ^ 32 != 33 } = w)) ∧
    (∃ (s : State) (w : State) (u : State),
    (s.live snapPage = true) ∧
    (s.rbit Reg.SNAP.STS 30 = true) ∧
    (forEach (([1, 2, 3].flatMap fun k => (s.tabList snapPage k).map Prod.fst).eraseDups) s (fun i s => if s.tab snapPage 4 i = 0 then s.setTab snapPage 2 i (fsSum s i) else s) = w) ∧
    ({ w with tabs := w.tabs.filter fun e => e.1 / 2 ^ 32 != snapPage * 256 + 4 } = u)) ∧
    (∃ (r : Req) (s : State),
    (Admits s r Reg.SNAP.CTL)) ∧
    (∃ (r : Req) (s : State),
    (Admits s r Reg.SNAP.CTL)) ∧
    (∃ (r : Req) (s : State),
    (Admits s r Reg.SNAP.CTL)) ∧
    (∃ (s : State),
    (s.live snapPage = true) ∧
    (s.timeRuns = true)) ∧
    (∃ (s : State),
    (s.live snapPage = true) ∧
    (s.hb .snapOpen = true) ∧
    (engUp s 3 = true)) ∧
    (∃ (s : State),
    (s.live snapPage = true) ∧
    (s.rbit Reg.SNAP.STS 30 = true)) :=
  ⟨⟨.HOST, ((((up [1, 6, 7, 0x15]).hidSet [(Hid.eng 3, 1)])).setReg Reg.SNAP.SNAP_NS 2000), (firstWrite .HOST (((((up [1, 6, 7, 0x15]).hidSet [(Hid.eng 3, 1)])).setReg Reg.SNAP.SNAP_NS 2000))),
    by decide +kernel⟩,
   ⟨.HOST, ((up [1, 6, 7, 0x15]).hidSet [(Hid.eng 3, 1)]), (firstWrite .HOST (((up [1, 6, 7, 0x15]).hidSet [(Hid.eng 3, 1)]))),
    by decide +kernel⟩,
   ⟨.HOST, ((up [1, 6, 7, 0x15]).hidSet [(Hid.eng 3, 1)]), (firstWrite .HOST (((up [1, 6, 7, 0x15]).hidSet [(Hid.eng 3, 1)]))),
    by decide +kernel⟩,
   ⟨.HOST, ((up [1, 6, 7, 0x15]).hidSet [(Hid.eng 3, 1)]), (firstWrite .HOST (((up [1, 6, 7, 0x15]).hidSet [(Hid.eng 3, 1)]))),
    by decide +kernel⟩,
   ⟨((up [1, 6, 7, 0x15]).hidSet [(Hid.eng 3, 1)]), (advanceTo 0 ((up [1, 6, 7, 0x15]).hidSet [(Hid.eng 3, 1)])),
    by decide +kernel⟩,
   ⟨0x68000, ((up [1, 6, 7, 0x15]).hidSet [(Hid.eng 3, 1)]),
    by decide +kernel⟩,
   ⟨(((up [1, 6, 7, 0x15]).hidSet [(Hid.eng 3, 1)]).setHb .snapOpen true), (let u := (forEach (listedCounters (((up [1, 6, 7, 0x15]).hidSet [(Hid.eng 3, 1)]).setHb .snapOpen true)) (((up [1, 6, 7, 0x15]).hidSet [(Hid.eng 3, 1)]).setHb .snapOpen true) snapTouch).setHb .snapOpen false; { u with regs := u.regs.filter fun e => e.1 / 2 ^ 32 != 33 }),
    by decide +kernel⟩,
   ⟨(((up [1, 6, 7, 0x15]).hidSet [(Hid.eng 3, 1)]).setReg Reg.SNAP.STS 0x60000000), (((up [1, 6, 7, 0x15]).hidSet [(Hid.eng 3, 1)]).setReg Reg.SNAP.STS 0x60000000), (((up [1, 6, 7, 0x15]).hidSet [(Hid.eng 3, 1)]).setReg Reg.SNAP.STS 0x60000000),
    by decide +kernel⟩,
   ⟨.HOST, ((((up [1, 6, 7, 0x15]).hidSet [(Hid.eng 3, 1)])).setReg Reg.SNAP.SNAP_NS 2000),
    by decide +kernel⟩,
   ⟨.HOST, ((up [1, 6, 7, 0x15]).hidSet [(Hid.eng 3, 1)]),
    by decide +kernel⟩,
   ⟨.HOST, ((up [1, 6, 7, 0x15]).hidSet [(Hid.eng 3, 1)]),
    by decide +kernel⟩,
   ⟨((up [1, 6, 7, 0x15]).hidSet [(Hid.eng 3, 1)]),
    by decide +kernel⟩,
   ⟨(((up [1, 6, 7, 0x15]).hidSet [(Hid.eng 3, 1)]).setHb .snapOpen true),
    by decide +kernel⟩,
   ⟨(((up [1, 6, 7, 0x15]).hidSet [(Hid.eng 3, 1)]).setReg Reg.SNAP.STS 0x60000000),
    by decide +kernel⟩⟩

theorem meets_PowerDomains :
    (∃ (r : Req) (d : Fin 64) (s : State) (w : State),
    (Admits s r (Reg.GLB.DOM_CTL d)) ∧
    (firstWrite r s = w) ∧
    (maySwitch w r d = false ∨ w.domState d = 2)) ∧
    (∃ (r : Req) (d : Fin 64) (s : State) (w : State),
    (Admits s r (Reg.GLB.DOM_CTL d)) ∧
    (firstWrite r s = w) ∧
    (maySwitch w r d = true) ∧
    (w.domState d ≠ 2)) ∧
    (∃ (r : Req) (d : Fin 64) (s : State) (w : State),
    (Admits s r (Reg.GLB.DOM_CTL d)) ∧
    (firstWrite r s = w) ∧
    (maySwitch w r d = true) ∧
    (w.domState d ≠ 2)) ∧
    (∃ (d : Nat) (s : State) (w : State),
    (s.setReg (Reg.GLB.DOM_CTL d) (2 ^ 31) = w)) ∧
    (∃ (d : Nat) (l : List Nat) (s : State),
    (s.domQ = d :: l)) ∧
    (∃ (d : Fin 37) (s : State) (w : State) (u : State),
    (s.pllOk = true) ∧
    (d.val ≠ 0) ∧
    (s.domState d = 2) ∧
    (domQueued s d = false) ∧
    (raise glbPage 0 (bump (Reg.GLB.DOM_ON_CNT d) (s.setReg (Reg.GLB.DOM_STS d) (min ((s.root - s.hn (.rampAt d)) / 7200) 65535 * 2 ^ 16 + 1))) = w) ∧
    ((forEach (domPages d) w fun p s => let s := (s.setReg (Reg.BLK_CTL p) (startCtl p)).setH (.cycBase p) (s.root : Nat); if s.hb .snapOpen then cycShadow p s else s) = u)) ∧
    (∃ (d : Fin 37) (s : State),
    (s.domState d ≠ 2)) ∧
    (∃ (d : Fin 37) (s : State) (w : State),
    (s.pllOk = true) ∧
    (5 ≤ d.val) ∧
    (d.val ≤ 18) ∧
    (s.domState d = 2) ∧
    (domQueued s d = false) ∧
    (waitRoot (s.hn (.rampAt d) + cycUs 1070) s = w)) ∧
    (∃ (d x : Nat) (s : State) (w : State),
    (s.domOn d = true) ∧
    (d ≠ 3) ∧
    (markPartial d s = w)) ∧
    (∃ (d : Fin 37) (s : State),
    (2 ≤ d.val)) ∧
    (∃ (d : Nat) (s : State),
    ((dependents d).filter (fun e => s.domState e == 1 || s.domState e == 2) ≠ [])) ∧
    (∃ (d : Fin 37) (s : State) (w : State),
    (s.pllOk = true) ∧
    (s.h (.dropAt d) ≠ 0) ∧
    (s.domState d = 3) ∧
    ((waitRoot (s.hn (.dropAt d) - 1 + cycUs 10000) s).setH (.dropAt d) 0 = w)) ∧
    (∃ (r : Req) (d : Fin 64) (s : State),
    (Admits s r (Reg.GLB.DOM_CTL d))) ∧
    (∃ (r : Req) (d : Fin 64) (s : State),
    (Admits s r (Reg.GLB.DOM_CTL d))) :=
  ⟨⟨.HOST, 2, ((up []).regsSet [(Reg.GLB.DOM_STS 36, 1), (Reg.GLB.DOM_STS 1, 1), (Reg.BLK_CTL 0, 1)]), (firstWrite .HOST (((up []).regsSet [(Reg.GLB.DOM_STS 36, 1), (Reg.GLB.DOM_STS 1, 1), (Reg.BLK_CTL 0, 1)]))),
    by decide +kernel⟩,
   ⟨.HOST, 28, ((up []).regsSet [(Reg.GLB.DOM_STS 36, 1), (Reg.GLB.DOM_STS 1, 1), (Reg.BLK_CTL 0, 1)]), (firstWrite .HOST (((up []).regsSet [(Reg.GLB.DOM_STS 36, 1), (Reg.GLB.DOM_STS 1, 1), (Reg.BLK_CTL 0, 1)]))),
    by decide +kernel⟩,
   ⟨.HOST, 28, ((up []).regsSet [(Reg.GLB.DOM_STS 36, 1), (Reg.GLB.DOM_STS 1, 1), (Reg.BLK_CTL 0, 1)]), (firstWrite .HOST (((up []).regsSet [(Reg.GLB.DOM_STS 36, 1), (Reg.GLB.DOM_STS 1, 1), (Reg.BLK_CTL 0, 1)]))),
    by decide +kernel⟩,
   ⟨4, ((up []).regsSet [(Reg.GLB.DOM_STS 36, 1), (Reg.GLB.DOM_STS 1, 1), (Reg.BLK_CTL 0, 1)]), (((up []).regsSet [(Reg.GLB.DOM_STS 36, 1), (Reg.GLB.DOM_STS 1, 1), (Reg.BLK_CTL 0, 1)]).setReg (Reg.GLB.DOM_CTL 4) (2 ^ 31)),
    by decide +kernel⟩,
   ⟨4, [], { ((up []).regsSet [(Reg.GLB.DOM_STS 36, 1), (Reg.GLB.DOM_STS 1, 1), (Reg.BLK_CTL 0, 1)]) with domQ := [4] },
    by decide +kernel⟩,
   ⟨4, ((((up []).regsSet [(Reg.GLB.DOM_STS 36, 1), (Reg.GLB.DOM_STS 1, 1), (Reg.BLK_CTL 0, 1)])).regsSet [(Reg.GLB.DOM_STS 4, 2)]), (raise glbPage 0 (bump (Reg.GLB.DOM_ON_CNT 4) ((((((up []).regsSet [(Reg.GLB.DOM_STS 36, 1), (Reg.GLB.DOM_STS 1, 1), (Reg.BLK_CTL 0, 1)])).regsSet [(Reg.GLB.DOM_STS 4, 2)])).setReg (Reg.GLB.DOM_STS 4) 1))), (forEach (domPages 4) (raise glbPage 0 (bump (Reg.GLB.DOM_ON_CNT 4) ((((((up []).regsSet [(Reg.GLB.DOM_STS 36, 1), (Reg.GLB.DOM_STS 1, 1), (Reg.BLK_CTL 0, 1)])).regsSet [(Reg.GLB.DOM_STS 4, 2)])).setReg (Reg.GLB.DOM_STS 4) 1))) fun p s => let s := (s.setReg (Reg.BLK_CTL p) (startCtl p)).setH (.cycBase p) (s.root : Nat); if s.hb .snapOpen then cycShadow p s else s),
    by decide +kernel, by decide +kernel, by decide +kernel, by decide +kernel, by decide +kernel, rfl⟩,
   ⟨4, ((up []).regsSet [(Reg.GLB.DOM_STS 36, 1), (Reg.GLB.DOM_STS 1, 1), (Reg.BLK_CTL 0, 1)]),
    by decide +kernel⟩,
   ⟨5, ((((up []).regsSet [(Reg.GLB.DOM_STS 36, 1), (Reg.GLB.DOM_STS 1, 1), (Reg.BLK_CTL 0, 1)])).regsSet [(Reg.GLB.DOM_STS 5, 2)]), (waitRoot 7704000 ((((up []).regsSet [(Reg.GLB.DOM_STS 36, 1), (Reg.GLB.DOM_STS 1, 1), (Reg.BLK_CTL 0, 1)])).regsSet [(Reg.GLB.DOM_STS 5, 2)])),
    by decide +kernel⟩,
   ⟨36, 0, ((up []).regsSet [(Reg.GLB.DOM_STS 36, 1), (Reg.GLB.DOM_STS 1, 1), (Reg.BLK_CTL 0, 1)]), ((up []).regsSet [(Reg.GLB.DOM_STS 36, 1), (Reg.GLB.DOM_STS 1, 1), (Reg.BLK_CTL 0, 1)]),
    by decide +kernel⟩,
   ⟨4, ((up []).regsSet [(Reg.GLB.DOM_STS 36, 1), (Reg.GLB.DOM_STS 1, 1), (Reg.BLK_CTL 0, 1)]),
    by decide +kernel⟩,
   ⟨36, ((((up []).regsSet [(Reg.GLB.DOM_STS 36, 1), (Reg.GLB.DOM_STS 1, 1), (Reg.BLK_CTL 0, 1)])).regsSet [(Reg.GLB.DOM_STS 4, 1)]),
    by decide +kernel⟩,
   ⟨2, (((((up []).regsSet [(Reg.GLB.DOM_STS 36, 1), (Reg.GLB.DOM_STS 1, 1), (Reg.BLK_CTL 0, 1)])).regsSet [(Reg.GLB.DOM_STS 2, 3)]).setH (.dropAt 2) 1), ((waitRoot 72000000 (((((up []).regsSet [(Reg.GLB.DOM_STS 36, 1), (Reg.GLB.DOM_STS 1, 1), (Reg.BLK_CTL 0, 1)])).regsSet [(Reg.GLB.DOM_STS 2, 3)]).setH (.dropAt 2) 1)).setH (.dropAt 2) 0),
    by decide +kernel⟩,
   ⟨.HOST, 2, ((up []).regsSet [(Reg.GLB.DOM_STS 36, 1), (Reg.GLB.DOM_STS 1, 1), (Reg.BLK_CTL 0, 1)]),
    by decide +kernel⟩,
   ⟨.HOST, 2, ((up []).regsSet [(Reg.GLB.DOM_STS 36, 1), (Reg.GLB.DOM_STS 1, 1), (Reg.BLK_CTL 0, 1)]),
    by decide +kernel⟩⟩

theorem meets_SuppliesClocksAndResets :
    (∃ (s : State) (w : State),
    (s.hb .vinDown = false) ∧
    (bit (s.hn .rstHold) 2 = false) ∧
    (coresLost (faultRecordAt 12 0 faultPage 0 (coverUpdate ((s.setHb .vinBad true).setH (.measAt 0) 0))) = w)) ∧
    (∃ (s : State) (w : State),
    ((if s.hb .vinBad then s else waitRoot (s.hn .vinAt - 1 + cycUs 9000) s) = w)) ∧
    (∃ (s : State),
    (s.pllOk = false) ∧
    (bit (s.hn .rstHold) 2 = false)) ∧
    (∃ (s : State),
    (s.pllOk = true)) ∧
    (∃ (s : State),
    (s.pllOk = true)) ∧
    (∃ (m : BitVec 2) (s : State),
    (bit (s.hn .rstHold) 2 = false)) ∧
    (∃ (m : BitVec 2) (s : State),
    (bit (s.hn .rstHold) 2 = true)) ∧
    (∃ (r : Req) (v : W32) (s : State) (w : State),
    (Admits s r Reg.GLB.DEV_RESET) ∧
    (firstWrite r s = w)) ∧
    (∃ (l : BitVec 37) (s : State),
    (s.pllOk = true)) ∧
    (∃ (r : Req) (v : W32) (s : State) (w : State),
    (Admits s r Reg.FAULT.OPEN) ∧
    (firstWrite r s = w)) ∧
    (∃ (x : BitVec 8) (s : State) (w : State),
    ((s.setH .tjHi (max (s.h .tjHi) (x.toInt + 128))).setH .tjNow (if x.toInt < -5 ∨ 105 < x.toInt then x.toInt + 129 else 0) = w)) :=
  ⟨⟨((up []).regsSet [(Reg.GLB.DOM_STS 36, 1), (Reg.GLB.DOM_STS 1, 1), (Reg.BLK_CTL 0, 1)]), (coresLost (faultRecordAt 12 0 faultPage 0 (coverUpdate ((((up []).regsSet [(Reg.GLB.DOM_STS 36, 1), (Reg.GLB.DOM_STS 1, 1), (Reg.BLK_CTL 0, 1)]).setHb .vinBad true).setH (.measAt 0) 0)))),
    by decide +kernel, by decide +kernel, rfl⟩,
   ⟨State.reset, (waitRoot (cycUs 9000 - 1) State.reset),
    by decide +kernel⟩,
   ⟨State.reset,
    by decide +kernel⟩,
   ⟨((up []).regsSet [(Reg.GLB.DOM_STS 36, 1), (Reg.GLB.DOM_STS 1, 1), (Reg.BLK_CTL 0, 1)]),
    by decide +kernel⟩,
   ⟨(((up []).regsSet [(Reg.GLB.DOM_STS 36, 1), (Reg.GLB.DOM_STS 1, 1), (Reg.BLK_CTL 0, 1)]).setHb .pllLost true),
    by decide +kernel⟩,
   ⟨0, ((up []).regsSet [(Reg.GLB.DOM_STS 36, 1), (Reg.GLB.DOM_STS 1, 1), (Reg.BLK_CTL 0, 1)]),
    by decide +kernel⟩,
   ⟨0, State.reset.setH .rstHold 4,
    by decide +kernel⟩,
   ⟨.BOOT, 0x9128, (((up []).regsSet [(Reg.GLB.DOM_STS 36, 1), (Reg.GLB.DOM_STS 1, 1), (Reg.BLK_CTL 0, 1)])), (firstWrite .BOOT ((up []).regsSet [(Reg.GLB.DOM_STS 36, 1), (Reg.GLB.DOM_STS 1, 1), (Reg.BLK_CTL 0, 1)])),
    by decide +kernel⟩,
   ⟨3, ((up []).regsSet [(Reg.GLB.DOM_STS 36, 1), (Reg.GLB.DOM_STS 1, 1), (Reg.BLK_CTL 0, 1)]),
    by decide +kernel⟩,
   ⟨.HOST, 7, (up [7]), (firstWrite .HOST ((up [7]))),
    by decide +kernel⟩,
   ⟨120, ((up []).regsSet [(Reg.GLB.DOM_STS 36, 1), (Reg.GLB.DOM_STS 1, 1), (Reg.BLK_CTL 0, 1)]), ((((up []).regsSet [(Reg.GLB.DOM_STS 36, 1), (Reg.GLB.DOM_STS 1, 1), (Reg.BLK_CTL 0, 1)]).setH .tjHi 248).setH .tjNow 249),
    by decide +kernel⟩⟩

theorem meets_CommandsKeepTheirBounds :
    ∃ (c : Instr) (s : State) (t : State),
    (exec c s = .next t) :=
  ⟨.todLoss, State.reset, State.reset,
    rfl⟩

theorem meets_ResetIsSane :
    ∃ (k : Fin 128) (p : Fin 0x110),
    ((pageOf p).isSome = true) :=
  ⟨3, 5,
    by decide +kernel⟩

theorem meets_StepKeepsSane :
    ∃ (s : State) (t : State),
    (Sane s) ∧
    (step s = .next t) :=
  ⟨State.reset, State.reset,
    sane_of (by decide +kernel), rfl⟩

theorem meets_ReportsChangeOnlyReports :
    ∃ (p e c n x v : Nat) (f : Fin 4096) (a : Nat) (s : State),
    (Sane s) ∧
    (¬Noisy a) :=
  ⟨5, 1, 0x58000, 2, 3, 4, 6, 0x50414, State.reset,
    sane_of (by decide +kernel), by decide +kernel⟩

theorem meets_DeviceResetOrder :
    (∃ (r : Req) (v : W32) (s : State) (w : State),
    (Admits s r Reg.GLB.DEV_RESET) ∧
    (firstWrite r s = w) ∧
    (v.toNat % 65536 = 0x9128) ∧
    (r = .BOOT ∨ (∃ x, coreOf r = some x ∧ coreState w x = 4))) ∧
    (∃ (r : Req) (v : W32) (s : State) (w : State),
    (Admits s r Reg.GLB.DEV_RESET) ∧
    (firstWrite r s = w) ∧
    (v.toNat % 65536 ≠ 0x9128 ∨ (r ≠ .BOOT ∧ ∀ x, coreOf r = some x → coreState w x ≠ 4))) :=
  ⟨⟨.BOOT, 0x9128, (up [0]), (firstWrite .BOOT (up [0])),
    by decide +kernel⟩,
   ⟨.HOST, 0x9128, (up [0]), (firstWrite .HOST (up [0])),
    by decide +kernel⟩⟩

theorem meets_DoorbellSetsPending :
    (∃ (r : Req) (v : W32) (s : State),
    (Sane s) ∧
    (Admits s r Reg.INTC.DOORBELL) ∧
    (s.live intcPage = true) ∧
    (v.toNat ≠ 0) ∧
    (v.toNat < 0xFFF)) ∧
    (∃ (r : Req) (v : W32) (s : State) (w : State),
    (Admits s r Reg.INTC.DOORBELL) ∧
    (firstWrite r s = w) ∧
    (v.toNat = 0 ∨ 0xFFF ≤ v.toNat)) :=
  ⟨⟨.HOST, 5, (up [2]),
    sane_of (by decide +kernel), by decide +kernel⟩,
   ⟨.HOST, 0xFFF, (up [2]), (firstWrite .HOST ((up [2]))),
    by decide +kernel⟩⟩

theorem meets_InterruptStackWrites :
    (∃ (r : Req) (t : Fin 4) (v : W32) (p : Nat) (rest : List (Nat × Nat × Nat)) (s : State),
    (Admits s r (Reg.INTC.EOI t)) ∧
    (stackOf s t = (t.val, v.toNat % 2 ^ 12, p) :: rest)) ∧
    (∃ (r : Req) (t : Fin 4) (v : W32) (s : State) (w : State),
    (Admits s r (Reg.INTC.EOI t)) ∧
    (firstWrite r s = w) ∧
    ((stackOf w t).head?.map (fun e => e.2.1) ≠ some (v.toNat % 2 ^ 12))) ∧
    (∃ (r : Req) (t : Fin 4) (v : W32) (s : State),
    (Admits s r (Reg.INTC.SETPRI t)) ∧
    ((stackOf s t).length < 16)) :=
  ⟨⟨.HOST, 3, 7, 1, [], ({ (up [2]) with intStacks := [(3, 7, 1)] }),
    by decide +kernel⟩,
   ⟨.HOST, 3, 7, (up [2]), (firstWrite .HOST ((up [2]))),
    by decide +kernel⟩,
   ⟨.HOST, 3, 7, (up [2]),
    by decide +kernel⟩⟩

end Sys2Proof.Tests
end

section
/-!
PROOFS. The statements of spec/00_scope.md: the tick on an empty queue, what a register write and a register read do by the
access code of the register, and that reports change no register of function.
-/
namespace Sys2Proof.Machine

/-! ### The passing of ticks (R12, R58, R59) -/

/-- While the root PLL is unlocked no time passes (R614). -/
theorem advance_of_unlocked {s : State} (n : Nat) (h : s.pllOk = false) : advance n s = s := by
  simp [advance, h]

/-- While the TIME domain is off only the root PLL counts. -/
theorem advance_of_timeOff {s : State} (n : Nat) (hp : s.pllOk = true) (ht : s.domOn 4 = false) :
    advance n s = { s with root := s.root + 8 * n } := by
  have ht' : State.domOn { s with root := s.root + 8 * n } 4 = false := ht
  simp [advance, hp, ht']

/-- A time base that follows no tracker moves by the rate word that software applied. -/
theorem effectiveRate_of_free {s : State} (hf : followed s = none) : effectiveRate s = rateTb s := by
  simp [effectiveRate, hf]

theorem moveTb_natCast (d : Nat) (s : State) :
    moveTb d s = { s with tb := (s.tb + d) % timeWrap, fol := (s.fol + d) % timeWrap } := by
  have h (x : Nat) : (((x : Int) + d) % timeWrap).toNat = (x + d) % timeWrap := by
    rw [← Int.natCast_add, ← Int.natCast_emod, Int.toNat_natCast]
  simp only [moveTb, h]

/-- `n` ticks of a time base that follows no tracker. -/
theorem moveTb_of_free {s : State} (n : Nat) (hf : followed s = none) :
    moveTb (n * effectiveRate s) s =
      { s with tb := (s.tb + n * rateTb s) % timeWrap, fol := (s.fol + n * rateTb s) % timeWrap } := by
  rw [effectiveRate_of_free hf, ← Int.natCast_mul, moveTb_natCast]

/-- While every clock runs, a free-running time base and its follower move by the rate word, the trackers by theirs. -/
theorem advance_of_free {s : State} (n : Nat) (hp : s.pllOk = true) (ht : s.domOn 4 = true) (hf : followed s = none) :
    advance n s = { s with
      root := s.root + 8 * n
      trkA := (s.trkA + n * rateTrk s 0) % timeWrap
      trkB := (s.trkB + n * rateTrk s 1) % timeWrap
      tb := (s.tb + n * rateTb s) % timeWrap
      fol := (s.fol + n * rateTb s) % timeWrap } := by
  have ht' : State.domOn { s with root := s.root + 8 * n } 4 = true := ht
  have hf' : followed { s with root := s.root + 8 * n } = none := hf
  simp only [advance, hp, ht', hf', moveTb_of_free n hf', Bool.not_true, Bool.false_eq_true, if_false]
  rfl

/-- Settles O2: the three cases of one tick, by the state of the root PLL and of the TIME domain. -/
theorem emptyQueueTicks : Obligations.EmptyQueueTicks := by
  unfold Obligations.EmptyQueueTicks
  refine ⟨fun s hq => ?_, fun s hp ht hf => ?_, fun s hp => advance_of_unlocked 1 hp, fun s hp ht => advance_of_timeOff 1 hp ht⟩
  · simp only [step, hq, done]
  · simpa only [Nat.one_mul] using advance_of_free 1 hp ht hf

/-! ### Reports (R17, R46, R50, R51, R564) -/

/-- Settles O57: a raised event, a captured error, a recorded fault and a count are quiet steps. -/
theorem reportsChangeOnlyReports : Obligations.ReportsChangeOnlyReports := by
  unfold Obligations.ReportsChangeOnlyReports
  intro p e c n x v f a s hs ha
  have hr := hs.regs
  refine ⟨raise_reg p e ha hr, ?_, ?_, fun hc => bump_reg hc ha hr⟩
  · exact (errBy_quiet (.refl s)).reg hr a ha
  · exact (raiseFault_quiet f.isLt (.refl s)).reg hr a ha

/-! ### Which register lies at an address (R36, R37, R168, R574) -/

theorem RegRow.off_le_of_hit {r : RegRow} {o : Nat} {x : Nat × Nat} (h : r.hit o = some x) : r.off ≤ o := by
  by_contra hlt
  simp [RegRow.hit, Nat.lt_of_not_le hlt] at h

theorem off_le_of_findRow {rs : List RegRow} {o : Nat} {r : RegRow} {x : Nat × Nat} (h : findRow rs o = some (r, x)) :
    r.off ≤ o := by
  induction rs with
  | nil => simp [findRow] at h
  | cons q rs ih =>
    cases hq : q.hit o with
    | none => exact ih (by simpa only [findRow, hq] using h)
    | some y =>
      obtain ⟨rfl, -⟩ : q = r ∧ y = x := by simpa [findRow, hq] using h
      exact RegRow.off_le_of_hit hq

/-- The register found at an address is on the page of the address, and its row starts at or below the offset. -/
theorem page_and_off_of_lookupReg {a : Nat} {f : RegRef} (h : lookupReg a = some f) :
    f.page = a / 0x10000 ∧ f.row.off ≤ a % 0x10000 := by
  simp only [lookupReg] at h
  split at h
  · cases h
  · split at h
    · cases h
    · split at h
      · rename_i hrow
        cases h
        exact ⟨rfl, off_le_of_findRow hrow⟩
      · cases h

/-- Below the lane arrays of an OTN page every register belongs to a lane that is there (R168). -/
theorem otnLane_of_low {s : State} {a : Nat} {f : RegRef} (h : lookupReg a = some f) (ha : a % 0x10000 < 0x4000) :
    otnLane s f = true := by
  have hoff := (page_and_off_of_lookupReg h).2
  have hlow : f.row.off < 0x4000 := by omega
  simp [otnLane, hlow]

/-- No shadow lies below the shadow region of a page (R574). -/
theorem isShadow_of_low {a : Nat} (ha : a % 0x10000 < 0xC000) : isShadow a = false := by
  unfold isShadow
  dsimp only
  rw [if_neg (c := _ ∨ _) (by omega), if_neg (c := _ ∧ _) (by omega), ite_self]

/-- An address below the shadow region that is occupied holds a register. -/
theorem exists_lookupReg_of_occupied {a : Nat} (h : occupied a = true) (ha : a % 0x10000 < 0xC000) :
    ∃ f, lookupReg a = some f := by
  simpa only [occupied, isShadow_of_low ha, Bool.or_false, Option.isSome_iff_exists] using h

/-- A register lies at the address of an admitted access. -/
theorem Admits.occupied {s : State} {r : Req} {a : Nat} (h : Admits s r a) : occupied a = true := by
  obtain ⟨-, -, -, -, -, hocc⟩ := h
  exact hocc

/-! ### A register write (R18, R52, R53) -/

@[simp] theorem firstWrite_portMode (r : Req) (s : State) (n : Nat) : portMode (firstWrite r s) n = portMode s n := by
  simp only [portMode, firstWrite_rfld]

@[simp] theorem firstWrite_isOtn (r : Req) (s : State) (n : Nat) : isOtn (firstWrite r s) n = isOtn s n := by
  rw [isOtn, isOtn, firstWrite_portMode]

@[simp] theorem firstWrite_otnLane (r : Req) (s : State) (f : RegRef) : otnLane (firstWrite r s) f = otnLane s f := by
  simp [otnLane]

theorem ifUnlocked_of_unlocked {s : State} {a : Nat} (r : Req) (v : Nat) (g : State → State)
    (h : s.rbit (Reg.BLK_CTL (a / 0x10000)) 2 = false) : ifUnlocked r a v g s = g s := by
  simp [ifUnlocked, h]

theorem ifUnlocked_of_locked {s : State} {a : Nat} (r : Req) (v : Nat) (g : State → State)
    (h : s.rbit (Reg.BLK_CTL (a / 0x10000)) 2 = true) :
    ifUnlocked r a v g s = errReq (a / 0x10000) 0x01 r a v s := by
  simp [ifUnlocked, h]

/-- A register with a rule of its own takes the write as that rule says. -/
theorem writeEffect_of_ownRule {s t : State} {r : Req} {f : RegRef} {a v : Nat} (hl : lookupReg a = some f)
    (hn : otnLane s f = true) (ho : ownRule r f a v s = some t) : writeEffect r a v s = t := by
  unfold ownRule at ho
  simp only [writeEffect, hl, hn, ho, Bool.not_true, Bool.false_eq_true, if_false]

/-- A register without a rule of its own takes the write by its access code. -/
theorem writeEffect_of_no_ownRule {s : State} {r : Req} {f : RegRef} {a v : Nat} (hl : lookupReg a = some f)
    (hn : otnLane s f = true) (ho : ownRule r f a v s = none) : writeEffect r a v s = plainWrite r f a v s := by
  unfold ownRule at ho
  simp only [writeEffect, hl, hn, ho, Bool.not_true, Bool.false_eq_true, if_false]

theorem exec_registerWrite (r : Req) (a : BitVec 29) (v : W32) (s : State) :
    exec (.registerWrite r a v) s = .next (regWrite r a.toNat v.toNat s) := rfl

/-- An admitted write has the effect of its register. -/
theorem exec_registerWrite_of_admits {s : State} {r : Req} {a : BitVec 29} (v : W32) (h : Admits s r a.toNat) :
    exec (.registerWrite r a v) s = .next (writeEffect r a.toNat v.toNat (firstWrite r s)) := by
  rw [exec_registerWrite, regWrite, gateWrite_admits _ h]

/-- An admitted write of a register without a rule of its own has the effect of its access code. -/
theorem exec_registerWrite_plain {s : State} {r : Req} {a : BitVec 29} {v : W32} {f : RegRef} (h : Admits s r a.toNat)
    (hl : lookupReg a.toNat = some f) (hn : otnLane s f = true)
    (ho : ownRule r f a.toNat v.toNat (firstWrite r s) = none) :
    exec (.registerWrite r a v) s = .next (plainWrite r f a.toNat v.toNat (firstWrite r s)) := by
  rw [exec_registerWrite_of_admits v h, writeEffect_of_no_ownRule hl (by rw [firstWrite_otnLane]; exact hn) ho]

/-- A data register of the table window is written in the bank of the requester (R53). -/
theorem headerWrite_tblData (r : Req) (p j v : Nat) (hj : j < 16) (s : State) :
    headerWrite r p (0x140 + 4 * j) v s = some (s.setReg (winBank r (Reg.TBL_DATA p j)) v) := by
  have ha : 0x10000 * p + (0x140 + 4 * j) = Reg.TBL_DATA p j := by
    simp only [Reg.TBL_DATA, Reg.at_]
    omega
  unfold headerWrite
  dsimp only
  rw [ha, if_neg (by omega), if_neg (by omega), if_neg (by omega), if_neg (by omega), if_neg (by omega),
    if_neg (by omega), if_neg (by omega), if_pos (by omega), if_neg (by omega)]

theorem tblData_div (p j : Nat) (hj : j < 16) : Reg.TBL_DATA p j / 0x10000 = p := by
  simp only [Reg.TBL_DATA, Reg.at_]
  omega

theorem tblData_mod (p j : Nat) (hj : j < 16) : Reg.TBL_DATA p j % 0x10000 = 0x140 + 4 * j := by
  simp only [Reg.TBL_DATA, Reg.at_]
  omega

theorem writeEffect_tblData {s : State} {p j : Nat} (r : Req) (v : Nat) (hj : j < 16)
    (h : occupied (Reg.TBL_DATA p j) = true) :
    writeEffect r (Reg.TBL_DATA p j) v s = s.setReg (winBank r (Reg.TBL_DATA p j)) v := by
  have hm := tblData_mod p j hj
  obtain ⟨f, hl⟩ := exists_lookupReg_of_occupied h (by omega)
  have hp : f.page = p := (page_and_off_of_lookupReg hl).1.trans (tblData_div p j hj)
  refine writeEffect_of_ownRule hl (otnLane_of_low hl (by omega)) ?_
  rw [ownRule, if_pos (by omega), hm, hp, headerWrite_tblData r p j v hj]

theorem exec_registerWrite_tblData {s : State} {r : Req} (p : Fin 8192) (j : Fin 16) (v : W32)
    (h : Admits s r (Reg.TBL_DATA p j)) :
    exec (.registerWrite r (BitVec.ofNat 29 (Reg.TBL_DATA p j)) v) s =
      .next ((firstWrite r s).setReg (winBank r (Reg.TBL_DATA p j)) v.toNat) := by
  have ha : (BitVec.ofNat 29 (Reg.TBL_DATA p j)).toNat = Reg.TBL_DATA p j := by
    rw [BitVec.toNat_ofNat, Nat.mod_eq_of_lt]
    simp only [Reg.TBL_DATA, Reg.at_]
    omega
  rw [exec_registerWrite_of_admits v (ha.symm ▸ h), ha, writeEffect_tblData r v.toNat j.isLt h.occupied]

/-! ### A register read (R17, R18, R38, R465) -/

theorem exec_readLowHalf (r : Req) (a : BitVec 29) (s : State) :
    exec (.readLowHalf r a) s = .next (readOut r a.toNat s) := rfl

theorem exec_readClear (r : Req) (a : BitVec 29) (s : State) :
    exec (.readClear r a) s = .next (readOut r a.toNat s) := rfl

/-- A core in OFF or FAILED issues no read. -/
theorem readOut_of_halted {s : State} {r : Req} (a : Nat) (h : haltedCore s r = true) : readOut r a s = s := by
  simp only [readOut, readFor, h, if_true]

/-- A read of a page whose domain is off returns 0 and is reported on page 0. -/
theorem readOut_of_pageOff {s : State} {r : Req} {a : Nat} (hh : haltedCore s r = false) (hr : s.h .rstHold = 0)
    (hp : (pageOf (a / 0x10000)).isSome = true) (hoff : s.pageOn (a / 0x10000) = false) (hra : offReadable a = false) :
    readOut r a s = (errReq 0 0x05 r a a s).emit (.readData r a 0) := by
  have hp' : (pageOf (a / 0x10000)).isNone = false := by simp_all
  simp only [readOut, readFor, gateRead, hh, hr, hp', hoff, hra, ne_eq, not_true_eq_false, Bool.not_false, Bool.and_self,
    Bool.false_eq_true, if_false, if_true]

/-- An admitted read returns what its register says, with its effect. -/
theorem readOut_of_admits {s : State} {r : Req} {a : Nat} (h : Admits s r a) :
    readOut r a s = (readEffect r a s).2.emit (.readData r a (readEffect r a s).1) := readFor_admits _ h

/-- A register without a rule of its own is read by its access code. -/
theorem readEffect_of_no_ownRead {s : State} {r : Req} {f : RegRef} {a : Nat} (hl : lookupReg a = some f)
    (hn : otnLane s f = true) (ho : ownRead r f a s = none) : readEffect r a s = plainRead r f a s := by
  unfold ownRead at ho
  simp only [readEffect, hl, hn, ho, Bool.not_true, Bool.false_eq_true, if_false]

/-- An admitted read of a register without a rule of its own answers the value `x` and the state `t` of its access code. -/
theorem readOut_plain {s t : State} {r : Req} {f : RegRef} {a x : Nat} (h : Admits s r a) (hl : lookupReg a = some f)
    (hn : otnLane s f = true) (ho : ownRead r f a s = none) (hx : plainRead r f a s = (x, t)) :
    readOut r a s = t.emit (.readData r a x) := by
  rw [readOut_of_admits h, readEffect_of_no_ownRead hl hn ho, hx]

theorem plainRead_rc (r : Req) {f : RegRef} (a : Nat) (s : State) (hacc : f.row.acc = .rc) :
    plainRead r f a s = (s.reg a, s.setReg a 0) := by
  simp only [plainRead, hacc]

theorem plainRead_wo (r : Req) {f : RegRef} (a : Nat) (s : State) (hacc : f.row.acc = .wo) :
    plainRead r f a s = (0, s) := by
  simp only [plainRead, hacc]

theorem plainRead_narrow (r : Req) {f : RegRef} (a : Nat) (s : State) (hacc : f.row.acc = .rw)
    (hwide : f.row.wide = false) : plainRead r f a s = (s.reg a, s) := by
  simp only [plainRead, hacc, hwide, Bool.false_eq_true, if_false]

theorem plainRead_low (r : Req) {f : RegRef} {a : Nat} (s : State) (hacc : f.row.acc = .ro) (hwide : f.row.wide = true)
    (hw : f.word = 0) (ha : a % 8 = 0) :
    plainRead r f a s = (s.reg a % 2 ^ 32, s.setReg (bank (16 + reqNo r) a) (s.reg a / 2 ^ 32)) := by
  have hlo : a / 8 * 8 = a := by omega
  simp [plainRead, readHalf, hacc, hwide, hw, hlo]

theorem plainRead_high (r : Req) {f : RegRef} {a : Nat} (s : State) (hacc : f.row.acc = .ro) (hwide : f.row.wide = true)
    (hw : f.word = 1) (ha : a % 8 = 4) :
    plainRead r f a s = (s.reg (bank (16 + reqNo r) (a - 4)), s) := by
  have hlo : a / 8 * 8 = a - 4 := by omega
  simp [plainRead, readHalf, hacc, hwide, hw, hlo]

/-- Settles O5: the writes by access code, the window, the registers with rules of their own, and the reads. -/
theorem registerAccessCodes : Obligations.RegisterAccessCodes := by
  unfold Obligations.RegisterAccessCodes
  refine ⟨?rw, ?rwlOpen, ?rwlLocked, ?w1c, ?ro, ?window, ?own, exec_registerWrite, ?rc, ?low, ?high, ?wo, ?narrow, ?off,
    ?halted, ?admitted, exec_readLowHalf, exec_readClear⟩
  case rw =>
    intro r a v f s h hl hn ho hacc
    simp only [exec_registerWrite_plain h hl hn ho, plainWrite, hacc]
  case rwlOpen =>
    intro r a v f s h hl hn ho hacc hlock
    have hlock' := (firstWrite_rbit r s (Reg.BLK_CTL (a.toNat / 0x10000)) 2).trans hlock
    simp only [exec_registerWrite_plain h hl hn ho, plainWrite, hacc, ifUnlocked_of_unlocked r v.toNat _ hlock']
  case rwlLocked =>
    intro r a v f s h hl hn ho hacc hlock
    have hlock' := (firstWrite_rbit r s (Reg.BLK_CTL (a.toNat / 0x10000)) 2).trans hlock
    simp only [exec_registerWrite_plain h hl hn ho, plainWrite, hacc, ifUnlocked_of_locked r v.toNat _ hlock']
  case w1c =>
    intro r a v f s h hl hn ho hacc
    simp only [exec_registerWrite_plain h hl hn ho, plainWrite, hacc, firstWrite_reg]
  case ro =>
    intro r a v f s h hl hn ho hacc
    simp only [exec_registerWrite_plain h hl hn ho, plainWrite, hacc]
  case window =>
    intro r p j v s h
    exact exec_registerWrite_tblData p j v h
  case own =>
    intro r a v f s t h hl hn ho
    rw [exec_registerWrite_of_admits v h, writeEffect_of_ownRule hl hn ho]
  case rc =>
    intro r a f s h hl hn ho hacc
    rw [exec_readClear, readOut_plain h hl hn ho (plainRead_rc r _ s hacc)]
  case low =>
    intro r a f s h hl hn ho hacc hwide hw ha
    rw [exec_readLowHalf, readOut_plain h hl hn ho (plainRead_low r s hacc hwide hw ha)]
  case high =>
    intro r a f s h hl hn ho hacc hwide hw ha
    rw [exec_readLowHalf, readOut_plain h hl hn ho (plainRead_high r s hacc hwide hw ha)]
  case wo =>
    intro r a f s h hl hn ho hacc
    rw [exec_readClear, readOut_plain h hl hn ho (plainRead_wo r _ s hacc)]
  case narrow =>
    intro r a f s h hl hn ho hacc hwide
    rw [exec_readClear, readOut_plain h hl hn ho (plainRead_narrow r _ s hacc hwide)]
  case off =>
    intro r a s hh hr hp hoff hra
    rw [exec_readClear, readOut_of_pageOff hh hr hp hoff hra]
  case halted =>
    intro r a s hh
    rw [exec_readClear, exec_readLowHalf, readOut_of_halted _ hh]
    exact ⟨rfl, rfl⟩
  case admitted =>
    intro r a s h
    rw [exec_readClear, exec_readLowHalf, readOut_of_admits h]
    exact ⟨rfl, rfl⟩

end Sys2Proof.Machine
end

section
/-!
PROOFS. The statements of spec/01_architecture.md. First what every command keeps, and that a step keeps a sane state sane.
-/
namespace Sys2Proof.Machine

/-- An area that the command may change is none of those outside `cmdAreas`. -/
theorem mayChange {c : Instr} {a : Area} (h : a ∈ cmdAreas c := by simp [cmdAreas]) : ¬a ∉ cmdAreas c := not_not_intro h

/-- Every command keeps the state sane, its queue, its outputs and each area outside `cmdAreas`: one law for each meaning. -/
theorem exec_kept (c : Instr) (s : State) : ∀ t, exec c s = .next t → Kept (· ∉ cmdAreas c) s t :=
  match c with
  | .registerWrite .. => execRegisterWrite_kept mayChange mayChange mayChange mayChange mayChange mayChange mayChange
      mayChange (.refl s)
  | .readLowHalf .. => execReadLowHalf_kept mayChange (.refl s)
  | .readClear .. => execReadClear_kept mayChange (.refl s)
  | .softReset .. => execSoftReset_kept mayChange mayChange mayChange mayChange mayChange mayChange (.refl s)
  | .softResetDone .. => execSoftResetDone_kept (.refl s)
  | .blockEnable .. => execBlockEnable_kept mayChange (.refl s)
  | .blockDisable .. => execBlockDisable_kept mayChange mayChange mayChange (.refl s)
  | .blockLock .. => execBlockLock_kept (.refl s)
  | .droneEnable .. => execDroneEnable_kept (.refl s)
  | .evtPendWrite .. => execEvtPendWrite_kept (.refl s)
  | .evtMaskWrite .. => execEvtMaskWrite_kept (.refl s)
  | .profileSelect .. => execProfileSelect_kept (.refl s)
  | .tblRead .. => execTblRead_kept mayChange mayChange mayChange mayChange mayChange mayChange (.refl s)
  | .tblWrite .. => execTblWrite_kept mayChange mayChange mayChange mayChange mayChange mayChange (.refl s)
  | .tblCmdComplete .. => execTblCmdComplete_kept mayChange mayChange mayChange mayChange mayChange mayChange (.refl s)
  | .bridgeCrcFail .. => execBridgeCrcFail_kept (.refl s)
  | .laneErrWindow => execLaneErrWindow_kept mayChange (.refl s)
  | .laneSpared .. => execLaneSpared_kept (.refl s)
  | .startOfFrameRx .. => execStartOfFrameRx_kept mayChange (.refl s)
  | .headerCellHandoff .. => execHeaderCellHandoff_kept mayChange (.refl s)
  | .pipelineEntry .. => execPipelineEntry_kept mayChange mayChange (.refl s)
  | .frameTailRx .. => execFrameTailRx_kept mayChange mayChange (.refl s)
  | .macCtlFrameRx .. => execMacCtlFrameRx_kept mayChange (.refl s)
  | .pauseExpire .. => execPauseExpire_kept mayChange (.refl s)
  | .flowControlTx .. => execFlowControlTx_kept mayChange mayChange (.refl s)
  | .fcRefresh .. => execFcRefresh_kept mayChange mayChange (.refl s)
  | .admission .. => execAdmission_kept mayChange mayChange (.refl s)
  | .bufferGrant => execBufferGrant_kept mayChange mayChange (.refl s)
  | .tailCellArrival .. => execTailCellArrival_kept mayChange mayChange (.refl s)
  | .bufferFree .. => execBufferFree_kept mayChange (.refl s)
  | .spillPageWrite .. => execSpillPageWrite_kept mayChange mayChange mayChange (.refl s)
  | .pageWriteDone .. => execPageWriteDone_kept mayChange mayChange (.refl s)
  | .returnPrefetch .. => execReturnPrefetch_kept mayChange mayChange (.refl s)
  | .pageReturned .. => execPageReturned_kept mayChange mayChange (.refl s)
  | .ageSweepPass => execAgeSweepPass_kept mayChange mayChange mayChange (.refl s)
  | .voqFrameStart .. => execVoqFrameStart_kept mayChange mayChange (.refl s)
  | .dataCellTx .. => execDataCellTx_kept mayChange mayChange mayChange (.refl s)
  | .dataCellRx .. => execDataCellRx_kept mayChange mayChange (.refl s)
  | .syncHoldExpire .. => execSyncHoldExpire_kept mayChange mayChange mayChange (.refl s)
  | .ctxIdleExpire .. => execCtxIdleExpire_kept mayChange (.refl s)
  | .reseqTimeout .. => execReseqTimeout_kept mayChange mayChange mayChange (.refl s)
  | .seqQuietEnd => execSeqQuietEnd_kept mayChange (.refl s)
  | .seqQuietWrite .. => execSeqQuietWrite_kept (.refl s)
  | .schedSelection .. => execSchedSelection_kept mayChange mayChange (.refl s)
  | .egressPipeline .. => execEgressPipeline_kept mayChange (.refl s)
  | .frameTx .. => execFrameTx_kept mayChange mayChange (.refl s)
  | .txAbort .. => execTxAbort_kept mayChange mayChange (.refl s)
  | .recircEntry .. => execRecircEntry_kept mayChange (.refl s)
  | .mapCommit .. => execMapCommit_kept (.refl s)
  | .mapApplied .. => execMapApplied_kept mayChange mayChange (.refl s)
  | .macCfgWrite .. => execMacCfgWrite_kept mayChange (.refl s)
  | .loopbackWrite .. => execLoopbackWrite_kept mayChange (.refl s)
  | .signalDetect .. => execSignalDetect_kept mayChange (.refl s)
  | .alignmentLock .. => execAlignmentLock_kept mayChange (.refl s)
  | .deskewMeasured .. => execDeskewMeasured_kept mayChange (.refl s)
  | .upHoldExpire .. => execUpHoldExpire_kept mayChange mayChange (.refl s)
  | .alignmentLoss .. => execAlignmentLoss_kept mayChange (.refl s)
  | .signalLoss .. => execSignalLoss_kept mayChange (.refl s)
  | .rclkResume .. => execRclkResume_kept mayChange (.refl s)
  | .faultSetsRx .. => execFaultSetsRx_kept (.refl s)
  | .faultSetsAbsent .. => execFaultSetsAbsent_kept mayChange (.refl s)
  | .fecWindow .. => execFecWindow_kept mayChange (.refl s)
  | .flexoLock .. => execFlexoLock_kept mayChange (.refl s)
  | .flexoLockLoss .. => execFlexoLockLoss_kept mayChange (.refl s)
  | .fasSighting .. => execFasSighting_kept mayChange (.refl s)
  | .candidateCheck .. => execCandidateCheck_kept mayChange (.refl s)
  | .otnFrameRx .. => execOtnFrameRx_kept mayChange (.refl s)
  | .defectPersistTimer .. => execDefectPersistTimer_kept mayChange (.refl s)
  | .degInterval .. => execDegInterval_kept mayChange (.refl s)
  | .consequentActionBoundary .. => execConsequentActionBoundary_kept (.refl s)
  | .txForceApply .. => execTxForceApply_kept (.refl s)
  | .ohpCfgWrite .. => execOhpCfgWrite_kept (.refl s)
  | .ohpFrameBoundary .. => execOhpFrameBoundary_kept (.refl s)
  | .recentre .. => execRecentre_kept (.refl s)
  | .clkLoss .. => execClkLoss_kept mayChange (.refl s)
  | .ohpClkReturn .. => execOhpClkReturn_kept (.refl s)
  | .keyLoad .. => execKeyLoad_kept (.refl s)
  | .walk .. => execWalk_kept (.refl s)
  | .rowMove .. => execRowMove_kept (.refl s)
  | .tcamScrubRow .. => execTcamScrubRow_kept (.refl s)
  | .sliceCfgWrite .. => execSliceCfgWrite_kept (.refl s)
  | .insert .. => execInsert_kept mayChange (.refl s)
  | .delete .. => execDelete_kept mayChange (.refl s)
  | .lookup .. => execLookup_kept mayChange (.refl s)
  | .routeAdd .. => execRouteAdd_kept mayChange (.refl s)
  | .routeDel .. => execRouteDel_kept mayChange (.refl s)
  | .routeMod .. => execRouteMod_kept mayChange (.refl s)
  | .routeGet .. => execRouteGet_kept mayChange (.refl s)
  | .routeMatch .. => execRouteMatch_kept mayChange (.refl s)
  | .seedWrite .. => execSeedWrite_kept (.refl s)
  | .learnUpdate .. => execLearnUpdate_kept mayChange (.refl s)
  | .moveTick => execMoveTick_kept mayChange (.refl s)
  | .ageTick => execAgeTick_kept mayChange (.refl s)
  | .ageScanVisit .. => execAgeScanVisit_kept mayChange (.refl s)
  | .notifyPop .. => execNotifyPop_kept mayChange (.refl s)
  | .tableScrub .. => execTableScrub_kept mayChange (.refl s)
  | .lpmNodeRepair .. => execLpmNodeRepair_kept (.refl s)
  | .flipCmd .. => execFlipCmd_kept (.refl s)
  | .flipArm .. => execFlipArm_kept (.refl s)
  | .flipDisarm .. => execFlipDisarm_kept (.refl s)
  | .flipTimeReached => execFlipTimeReached_kept mayChange (.refl s)
  | .flipApply => execFlipApply_kept (.refl s)
  | .inFlightZero => execInFlightZero_kept (.refl s)
  | .settleExpire => execSettleExpire_kept mayChange (.refl s)
  | .sweepConversion .. => execSweepConversion_kept (.refl s)
  | .sweepComplete => execSweepComplete_kept (.refl s)
  | .drainTimeout => execDrainTimeout_kept mayChange (.refl s)
  | .drainForce .. => execDrainForce_kept (.refl s)
  | .hpCountWrite .. => execHpCountWrite_kept (.refl s)
  | .alloc .. => execAlloc_kept mayChange mayChange (.refl s)
  | .free .. => execFree_kept mayChange mayChange (.refl s)
  | .query .. => execQuery_kept mayChange mayChange (.refl s)
  | .ageLimitWrite .. => execAgeLimitWrite_kept mayChange (.refl s)
  | .statusRepeat .. => execStatusRepeat_kept mayChange mayChange (.refl s)
  | .creditCellTx .. => execCreditCellTx_kept mayChange mayChange (.refl s)
  | .creditCellRx .. => execCreditCellRx_kept mayChange mayChange (.refl s)
  | .creditFlowTimeout .. => execCreditFlowTimeout_kept mayChange mayChange (.refl s)
  | .creditPacerGrant .. => execCreditPacerGrant_kept mayChange mayChange (.refl s)
  | .fretRelease .. => execFretRelease_kept mayChange (.refl s)
  | .coarseFretAdvance => execCoarseFretAdvance_kept mayChange (.refl s)
  | .farListScan => execFarListScan_kept (.refl s)
  | .fabricLinkEnable .. => execFabricLinkEnable_kept mayChange (.refl s)
  | .linkDrainWrite .. => execLinkDrainWrite_kept mayChange (.refl s)
  | .fabricSignalDetect .. => execFabricSignalDetect_kept mayChange (.refl s)
  | .codewordLock .. => execCodewordLock_kept mayChange (.refl s)
  | .codewordLockLoss .. => execCodewordLockLoss_kept mayChange (.refl s)
  | .fabricSignalLoss .. => execFabricSignalLoss_kept mayChange (.refl s)
  | .controlWordRx .. => execControlWordRx_kept mayChange (.refl s)
  | .fabricUpHoldExpire .. => execFabricUpHoldExpire_kept mayChange mayChange (.refl s)
  | .linkDegWindow .. => execLinkDegWindow_kept mayChange mayChange (.refl s)
  | .kaLoss .. => execKaLoss_kept mayChange mayChange (.refl s)
  | .keepaliveTx .. => execKeepaliveTx_kept mayChange mayChange (.refl s)
  | .keepaliveRx .. => execKeepaliveRx_kept mayChange mayChange (.refl s)
  | .kaIvlWrite .. => execKaIvlWrite_kept mayChange (.refl s)
  | .reachCellTx .. => execReachCellTx_kept mayChange mayChange (.refl s)
  | .reachCellRx .. => execReachCellRx_kept mayChange mayChange (.refl s)
  | .reachSegmentTimeout .. => execReachSegmentTimeout_kept mayChange mayChange (.refl s)
  | .popCfgWrite .. => execPopCfgWrite_kept (.refl s)
  | .bmapWrite .. => execBmapWrite_kept (.refl s)
  | .bringupStart .. => execBringupStart_kept (.refl s)
  | .trainStepDone .. => execTrainStepDone_kept mayChange (.refl s)
  | .dsReady => execDsReady_kept mayChange (.refl s)
  | .dramOperation .. => execDramOperation_kept mayChange mayChange mayChange (.refl s)
  | .dramOpComplete .. => execDramOpComplete_kept mayChange mayChange (.refl s)
  | .dramRefresh .. => execDramRefresh_kept mayChange (.refl s)
  | .refreshRatePoll .. => execRefreshRatePoll_kept mayChange (.refl s)
  | .zqCalibration .. => execZqCalibration_kept mayChange (.refl s)
  | .dqsOscMeasure .. => execDqsOscMeasure_kept mayChange (.refl s)
  | .retrainNow .. => execRetrainNow_kept (.refl s)
  | .fullRetrainDone .. => execFullRetrainDone_kept mayChange mayChange (.refl s)
  | .rhWindowClear .. => execRhWindowClear_kept mayChange mayChange (.refl s)
  | .patrolRead .. => execPatrolRead_kept mayChange mayChange mayChange (.refl s)
  | .dimmTempRead .. => execDimmTempRead_kept mayChange (.refl s)
  | .processorLoad .. => execProcessorLoad_kept mayChange mayChange (.refl s)
  | .coreLoadDone .. => execCoreLoadDone_kept (.refl s)
  | .coreFault .. => execCoreFault_kept mayChange mayChange (.refl s)
  | .wdtKick .. => execWdtKick_kept (.refl s)
  | .handover .. => execHandover_kept (.refl s)
  | .takeover => execTakeover_kept mayChange (.refl s)
  | .mirrorStore .. => execMirrorStore_kept mayChange (.refl s)
  | .syncComplete .. => execSyncComplete_kept mayChange mayChange (.refl s)
  | .reload .. => execReload_kept mayChange (.refl s)
  | .coreAutoReload .. => execCoreAutoReload_kept mayChange (.refl s)
  | .doorbell .. => execDoorbell_kept (.refl s)
  | .claim .. => execClaim_kept mayChange (.refl s)
  | .eoi .. => execEoi_kept mayChange (.refl s)
  | .setpri .. => execSetpri_kept mayChange (.refl s)
  | .pendWrite .. => execPendWrite_kept (.refl s)
  | .intcMaskWrite .. => execIntcMaskWrite_kept (.refl s)
  | .holdoffExpire .. => execHoldoffExpire_kept mayChange (.refl s)
  | .coreIdleEnter .. => execCoreIdleEnter_kept (.refl s)
  | .pfeEmission .. => execPfeEmission_kept mayChange mayChange mayChange (.refl s)
  | .pfeMissed .. => execPfeMissed_kept mayChange mayChange mayChange (.refl s)
  | .bar0Request .. => execBar0Request_kept mayChange mayChange mayChange mayChange mayChange mayChange mayChange
      mayChange (.refl s)
  | .bar2Request .. => execBar2Request_kept mayChange mayChange mayChange mayChange mayChange mayChange mayChange
      mayChange (.refl s)
  | .winCommit .. => execWinCommit_kept (.refl s)
  | .puntWrite .. => execPuntWrite_kept mayChange (.refl s)
  | .puntAgeDrop .. => execPuntAgeDrop_kept mayChange mayChange (.refl s)
  | .pTailWrite .. => execPTailWrite_kept (.refl s)
  | .iTailWrite .. => execITailWrite_kept (.refl s)
  | .injectRead .. => execInjectRead_kept mayChange mayChange (.refl s)
  | .readCompletion .. => execReadCompletion_kept mayChange (.refl s)
  | .injectOffer .. => execInjectOffer_kept mayChange mayChange (.refl s)
  | .injectWriteback .. => execInjectWriteback_kept mayChange (.refl s)
  | .completionTimeout .. => execCompletionTimeout_kept mayChange mayChange (.refl s)
  | .bmeClear => execBmeClear_kept mayChange (.refl s)
  | .bmeSet => execBmeSet_kept mayChange (.refl s)
  | .ringEnable .. => execRingEnable_kept mayChange (.refl s)
  | .msixHoldEnd .. => execMsixHoldEnd_kept (.refl s)
  | .flr => execFlr_kept mayChange mayChange mayChange (.refl s)
  | .flrDone => execFlrDone_kept (.refl s)
  | .pcieLinkDown .. => execPcieLinkDown_kept mayChange mayChange mayChange (.refl s)
  | .release .. => execRelease_kept mayChange (.refl s)
  | .perstAssert => execPerstAssert_kept mayChange mayChange mayChange mayChange mayChange mayChange mayChange
      mayChange (.refl s)
  | .spdmRequest .. => execSpdmRequest_kept mayChange mayChange (.refl s)
  | .bootStart .. => execBootStart_kept mayChange mayChange mayChange (.refl s)
  | .keyRevoke .. => execKeyRevoke_kept (.refl s)
  | .svnCommit .. => execSvnCommit_kept mayChange (.refl s)
  | .engReload .. => execEngReload_kept mayChange mayChange (.refl s)
  | .engReloadDone => execEngReloadDone_kept mayChange mayChange mayChange (.refl s)
  | .runSlotWrite .. => execRunSlotWrite_kept mayChange mayChange (.refl s)
  | .hello .. => execHello_kept mayChange mayChange (.refl s)
  | .slotInfo .. => execSlotInfo_kept mayChange mayChange (.refl s)
  | .erase .. => execErase_kept mayChange mayChange (.refl s)
  | .eraseDone .. => execEraseDone_kept mayChange mayChange (.refl s)
  | .eloatalWrite .. => execEloatalWrite_kept mayChange mayChange (.refl s)
  | .eloatalRead .. => execEloatalRead_kept mayChange mayChange (.refl s)
  | .setBoot .. => execSetBoot_kept mayChange mayChange (.refl s)
  | .eloatalReset .. => execEloatalReset_kept mayChange mayChange mayChange mayChange mayChange mayChange mayChange
      mayChange (.refl s)
  | .store .. => execStore_kept mayChange (.refl s)
  | .storeDone .. => execStoreDone_kept mayChange mayChange (.refl s)
  | .lifetimeStore .. => execLifetimeStore_kept mayChange mayChange (.refl s)
  | .perfWrap .. => execPerfWrap_kept mayChange (.refl s)
  | .bwWindowEnd .. => execBwWindowEnd_kept mayChange (.refl s)
  | .bwSeqRead .. => execBwSeqRead_kept (.refl s)
  | .bwCfgWrite .. => execBwCfgWrite_kept (.refl s)
  | .fsCfgWrite .. => execFsCfgWrite_kept (.refl s)
  | .fold .. => execFold_kept mayChange mayChange (.refl s)
  | .fsVisit .. => execFsVisit_kept mayChange mayChange mayChange (.refl s)
  | .fsRead .. => execFsRead_kept mayChange mayChange (.refl s)
  | .fsClear .. => execFsClear_kept mayChange mayChange (.refl s)
  | .snapArm .. => execSnapArm_kept (.refl s)
  | .snapDisarm .. => execSnapDisarm_kept (.refl s)
  | .snapNow .. => execSnapNow_kept (.refl s)
  | .snapCut => execSnapCut_kept mayChange (.refl s)
  | .snapMoverCopy .. => execSnapMoverCopy_kept (.refl s)
  | .snapDone => execSnapDone_kept (.refl s)
  | .fsDone => execFsDone_kept (.refl s)
  | .openClear .. => execOpenClear_kept (.refl s)
  | .pllUnlock => execPllUnlock_kept (.refl s)
  | .pipeWdtSample .. => execPipeWdtSample_kept mayChange (.refl s)
  | .supplyDroop .. => execSupplyDroop_kept mayChange mayChange mayChange mayChange mayChange mayChange mayChange
      mayChange (.refl s)
  | .tjOutOfRange .. => execTjOutOfRange_kept (.refl s)
  | .vauxPowerOn => execVauxPowerOn_kept mayChange mayChange mayChange mayChange mayChange mayChange mayChange
      mayChange (.refl s)
  | .vauxLoss => execVauxLoss_kept mayChange mayChange mayChange mayChange mayChange mayChange mayChange mayChange
      (.refl s)
  | .vinLoss => execVinLoss_kept mayChange mayChange mayChange mayChange mayChange mayChange mayChange mayChange
      (.refl s)
  | .vinRestart => execVinRestart_kept mayChange mayChange mayChange mayChange mayChange mayChange mayChange mayChange
      (.refl s)
  | .vinInRange => execVinInRange_kept mayChange (.refl s)
  | .domainSwitchOn .. => execDomainSwitchOn_kept mayChange mayChange mayChange mayChange mayChange mayChange
      mayChange mayChange (.refl s)
  | .rampStart => execRampStart_kept mayChange (.refl s)
  | .domainOn .. => execDomainOn_kept mayChange mayChange mayChange (.refl s)
  | .domainSwitchOff .. => execDomainSwitchOff_kept mayChange mayChange mayChange mayChange mayChange mayChange
      mayChange mayChange (.refl s)
  | .domainRestart .. => execDomainRestart_kept mayChange mayChange (.refl s)
  | .serdesPllLockTimeout .. => execSerdesPllLockTimeout_kept mayChange mayChange mayChange mayChange mayChange
      mayChange mayChange mayChange (.refl s)
  | .rootPllLock => execRootPllLock_kept (.refl s)
  | .pllLossReset => execPllLossReset_kept mayChange mayChange mayChange mayChange mayChange mayChange mayChange
      mayChange (.refl s)
  | .sysRstAssert => execSysRstAssert_kept mayChange mayChange mayChange mayChange mayChange mayChange mayChange
      mayChange (.refl s)
  | .sysRstRelease .. => execSysRstRelease_kept mayChange mayChange mayChange mayChange mayChange mayChange mayChange
      mayChange (.refl s)
  | .devReset .. => execDevReset_kept mayChange mayChange mayChange mayChange mayChange mayChange mayChange mayChange
      (.refl s)
  | .rateTbLoWrite .. => execRateTbLoWrite_kept (.refl s)
  | .rateTbHiWrite .. => execRateTbHiWrite_kept (.refl s)
  | .tbFracRead .. => execTbFracRead_kept (.refl s)
  | .tbCtlWrite .. => execTbCtlWrite_kept (.refl s)
  | .stepCmd .. => execStepCmd_kept mayChange (.refl s)
  | .stepRearm .. => execStepRearm_kept (.refl s)
  | .trkStepCmd .. => execTrkStepCmd_kept mayChange (.refl s)
  | .slewDone => execSlewDone_kept mayChange (.refl s)
  | .refLoss .. => execRefLoss_kept mayChange (.refl s)
  | .followerRealign => execFollowerRealign_kept mayChange (.refl s)
  | .ppsInEdge .. => execPpsInEdge_kept (.refl s)
  | .ppsLoss .. => execPpsLoss_kept mayChange (.refl s)
  | .ppsRearm .. => execPpsRearm_kept (.refl s)
  | .ppsOutEdge .. => execPpsOutEdge_kept mayChange (.refl s)
  | .ppsPulseEnd .. => execPpsPulseEnd_kept mayChange (.refl s)
  | .todTxStart => execTodTxStart_kept mayChange (.refl s)
  | .todRxMessage .. => execTodRxMessage_kept (.refl s)
  | .todLoss => execTodLoss_kept mayChange (.refl s)
  | .freqEdge .. => execFreqEdge_kept (.refl s)
  | .freqLoss => execFreqLoss_kept mayChange (.refl s)
  | .launchStageEntry .. => execLaunchStageEntry_kept mayChange (.refl s)
  | .timedFrameStart .. => execTimedFrameStart_kept mayChange mayChange (.refl s)
  | .launchDeadline .. => execLaunchDeadline_kept mayChange mayChange (.refl s)
  | .windowCommit .. => execWindowCommit_kept (.refl s)
  | .windowPeriodBoundary .. => execWindowPeriodBoundary_kept mayChange mayChange mayChange (.refl s)
  | .pcieLinkUp .. => execPcieLinkUp_kept (.refl s)
  | .perstRelease => execPerstRelease_kept (.refl s)
  | .interruptDisableWrite .. => execInterruptDisableWrite_kept mayChange (.refl s)
  | .bar4Request .. => execBar4Request_kept mayChange (.refl s)
  | .runSlotCheckDone => execRunSlotCheckDone_kept mayChange mayChange (.refl s)

/-- The queue is no part of what makes a state sane. -/
theorem Sane.withPending {s : State} (h : Sane s) (cs : List Instr) : Sane { s with pending := cs } :=
  ⟨h.regs, h.tabs, h.mem, h.hid, h.bufs, h.intStacks, h.notify⟩

/-- The passing of ticks keeps a state sane. -/
theorem Sane.advance {s : State} (h : Sane s) (n : Nat) : Sane (advance n s) :=
  (advance_kept (K := (· ≠ .time)) (not_not_intro rfl) (.refl s)).sane h

/-- Settles O56: an empty queue lets a tick pass, else the front command executes on the state with the rest of the queue. -/
theorem stepKeepsSane : Obligations.StepKeepsSane := by
  unfold Obligations.StepKeepsSane
  intro s t hs ht
  unfold step at ht
  split at ht
  case h_1 =>
    cases ht
    exact hs.advance 1
  case h_2 c cs _ => exact (exec_kept c _ t ht).sane (hs.withPending cs)

end Sys2Proof.Machine
end

section
/-!
PROOFS. What turns an access away, and what an event of a block that does not perform its function does
(spec/01_architecture.md).
-/
namespace Sys2Proof.Machine

/-! ### The fence of the control cores (R463, R468) -/

@[simp] theorem State.free_pageOn (s : State) (p : Nat) : s.free.2.pageOn p = s.pageOn p := rfl

/-- The fence lets a core that is ACTIVE pass, and any core at the registers that it leaves to it. -/
theorem fenced_of_passes {s : State} {r : Req} {a : Nat}
    (h : standbyCore s r = false ∨ (haltedCore s r = false ∧ fenceExempt r a = true)) :
    fenced r a (firstWrite r s) = (false, firstWrite r s) := by
  have hh : haltedCore s r = false := h.elim haltedCore_of_active And.left
  rcases h with h | ⟨-, h⟩ <;> simp [fenced, inFabric, hh, h]

/-- It stops every write of a halted core, and of another core that is not ACTIVE all but those that it leaves to it. -/
theorem fenced_of_standby {s : State} {r : Req} {a : Nat} (hf : inFabric (firstWrite r s) r = false)
    (hs : standbyCore s r = true) (h : haltedCore s r = true ∨ fenceExempt r a = false) :
    fenced r a (firstWrite r s) = (true, firstWrite r s) := by
  simpa [fenced, hf, hs] using h

/-- A write still in the register fabric is stopped where the free choice says so. -/
theorem fenced_of_inFabric {s : State} {r : Req} (a : Nat) (hf : inFabric s r = true) (hc : s.free.1 % 2 = 0) :
    fenced r a s = (true, s.free.2) := by
  simp [fenced, hf, hc]

/-! ### The register gate (R37, R38, R43, R463, R617) -/

/-- While the device is held in reset no write has an effect. -/
theorem gateWrite_of_held {s : State} (r : Req) (a : Nat) (f : State → State) (h : s.h .rstHold ≠ 0) :
    gateWrite r a f s = s := by
  simp only [gateWrite, h, ne_eq, not_false_eq_true, if_true]

/-- A write that the fence stops is counted and reported. -/
theorem gateWrite_of_stopped {s t : State} {r : Req} {a : Nat} (f : State → State) (h0 : s.h .rstHold = 0)
    (hf : fenced r a (firstWrite r s) = (true, t)) (hp : t.pageOn pairPage = true) :
    gateWrite r a f s = errReq pairPage 0x10 r a a (bump Reg.PAIR.STBY_WR_DISC t) := by
  simp only [gateWrite, h0, hf, hp, ne_eq, not_true_eq_false, if_false, if_true]

section
variable {s : State} {r : Req} {a : Nat} (f : State → State) (h0 : s.h .rstHold = 0)
  (hc : standbyCore s r = false ∨ (haltedCore s r = false ∧ fenceExempt r a = true))
include h0 hc

/-- A write that passes the fence meets the page, its power and reset state, and the register. -/
theorem gateWrite_of_passes : gateWrite r a f s =
    if (pageOf (a / 0x10000)).isNone then errReq 0 0x06 r a a (firstWrite r s)
    else if !s.pageOn (a / 0x10000) then
      if offReadable a then firstWrite r s else errReq 0 0x05 r a a (firstWrite r s)
    else if s.rbit (Reg.BLK_CTL (a / 0x10000)) 1 then errReq 0 0x05 r a a (firstWrite r s)
    else if !occupied a then errReq (a / 0x10000) 0x06 r a a (firstWrite r s)
    else f (firstWrite r s) := by
  simp only [gateWrite, h0, fenced_of_passes hc, firstWrite_pageOn, firstWrite_rbit, ne_eq, not_true_eq_false, if_false,
    Bool.false_eq_true]

theorem gateWrite_of_unassigned (hp : pageOf (a / 0x10000) = none) :
    gateWrite r a f s = errReq 0 0x06 r a a (firstWrite r s) := by
  simp [gateWrite_of_passes f h0 hc, hp]

theorem gateWrite_of_off (hp : (pageOf (a / 0x10000)).isSome = true) (hoff : s.pageOn (a / 0x10000) = false) :
    gateWrite r a f s = if offReadable a then firstWrite r s else errReq 0 0x05 r a a (firstWrite r s) := by
  have hp' : (pageOf (a / 0x10000)).isNone = false := by simp_all
  simp [gateWrite_of_passes f h0 hc, hp', hoff]

theorem gateWrite_of_softReset (hp : (pageOf (a / 0x10000)).isSome = true) (hon : s.pageOn (a / 0x10000) = true)
    (hr : s.rbit (Reg.BLK_CTL (a / 0x10000)) 1 = true) :
    gateWrite r a f s = errReq 0 0x05 r a a (firstWrite r s) := by
  have hp' : (pageOf (a / 0x10000)).isNone = false := by simp_all
  simp [gateWrite_of_passes f h0 hc, hp', hon, hr]

theorem gateWrite_of_unoccupied (hp : (pageOf (a / 0x10000)).isSome = true) (hon : s.pageOn (a / 0x10000) = true)
    (hr : s.rbit (Reg.BLK_CTL (a / 0x10000)) 1 = false) (ho : occupied a = false) :
    gateWrite r a f s = errReq (a / 0x10000) 0x06 r a a (firstWrite r s) := by
  have hp' : (pageOf (a / 0x10000)).isNone = false := by simp_all
  simp [gateWrite_of_passes f h0 hc, hp', hon, hr, ho]

end

/-- The table of a keyed command is that of the page it names. -/
theorem keyedCmd_eq_gateWrite (r : Req) (l2 : Bool) (op : Nat) (s : State) :
    keyedCmd r l2 op s = gateWrite r (Reg.TBL_CMD (if l2 then l2Page else emPage))
      (if l2 then tblRun r l2Page (l2Table op) else tblRun r emPage (emTable op)) s := by
  cases l2 <;> simp only [keyedCmd, tblCmd, if_true, if_false, Bool.false_eq_true]

theorem exec_sliceCfgWrite_slice (r : Req) {k : Fin 130} (v : W32) (hk : k.val < 128) (s : State) :
    exec (.sliceCfgWrite r k v) s = .next (gateWrite r (Reg.TCAM.SLICE_CFG k) (sliceCfg r k v.toNat) s) :=
  congrArg done (if_pos hk)

theorem exec_sliceCfgWrite_lookup (r : Req) {k : Fin 130} (v : W32) (hk : ¬k.val < 128) (s : State) :
    exec (.sliceCfgWrite r k v) s = .next (gateWrite r (Reg.TCAM.LKP_CFG (k - 128)) (lkpCfg r (k - 128) v.toNat) s) :=
  congrArg done (if_neg hk)

theorem exec_ringEnable_punt (r : Req) {k : Fin 80} (v : W32) (hk : k.val < 64) (s : State) :
    exec (.ringEnable r k v) s = .next (gateWrite r (Reg.HOST.P_CFG k) (puntCfg r k v.toNat) s) :=
  congrArg done (if_pos hk)

theorem exec_ringEnable_inject (r : Req) {k : Fin 80} (v : W32) (hk : ¬k.val < 64) (s : State) :
    exec (.ringEnable r k v) s = .next (gateWrite r (Reg.HOST.I_CFG (k - 64)) (injCfg r (k - 64) v.toNat) s) :=
  congrArg done (if_neg hk)

/-- A command that writes a register is a gated write of it. -/
theorem exec_of_writeTarget {c : Instr} {r : Req} {a : Nat} (h : writeTarget c = some (r, a)) :
    ∃ f : State → State, ∀ s, exec c s = .next (gateWrite r a f s) := by
  cases c
  case sliceCfgWrite q k v =>
    cases h
    by_cases hk : k.val < 128
    · rw [if_pos hk]
      exact ⟨_, exec_sliceCfgWrite_slice r v hk⟩
    · rw [if_neg hk]
      exact ⟨_, exec_sliceCfgWrite_lookup r v hk⟩
  case ringEnable q k v =>
    cases h
    by_cases hk : k.val < 64
    · rw [if_pos hk]
      exact ⟨_, exec_ringEnable_punt r v hk⟩
    · rw [if_neg hk]
      exact ⟨_, exec_ringEnable_inject r v hk⟩
  case insert q l2 => cases h; exact ⟨_, fun s => congrArg done (keyedCmd_eq_gateWrite r l2 _ s)⟩
  case delete q l2 => cases h; exact ⟨_, fun s => congrArg done (keyedCmd_eq_gateWrite r l2 _ s)⟩
  case lookup q l2 => cases h; exact ⟨_, fun s => congrArg done (keyedCmd_eq_gateWrite r l2 _ s)⟩
  all_goals cases h <;> exact ⟨_, fun _ => rfl⟩

/-- Settles O3: every command with a register to write passes the one gate, which has a case for each refusal. -/
theorem writesTurnedAway : Obligations.WritesTurnedAway := by
  unfold Obligations.WritesTurnedAway
  refine ⟨?held, ?fenced, ?inFabric, ?unassigned, ?off, ?served, ?softReset, ?unoccupied⟩ <;> intro c r a s h0 hw <;>
    obtain ⟨f, hf⟩ := exec_of_writeTarget hw <;> rw [hf s]
  case held => rw [gateWrite_of_held r a f h0]
  case fenced =>
    intro hn hs h hp
    rw [gateWrite_of_stopped f h0 (fenced_of_standby hn hs h) (by rwa [firstWrite_pageOn])]
  case inFabric =>
    intro hi hp hfree
    rw [gateWrite_of_stopped f h0 (fenced_of_inFabric a hi hfree) (by rwa [State.free_pageOn, firstWrite_pageOn])]
  case unassigned =>
    intro hc hp
    rw [gateWrite_of_unassigned f h0 hc hp]
  case off =>
    intro hc hp hoff hr
    rw [gateWrite_of_off f h0 hc hp hoff, hr, if_neg Bool.false_ne_true]
  case served =>
    intro hc hp hoff hr
    rw [gateWrite_of_off f h0 hc hp hoff, hr, if_pos rfl]
  case softReset =>
    intro hc hp hon hr
    rw [gateWrite_of_softReset f h0 hc hp hon hr]
  case unoccupied =>
    intro hc hp hon hr ho
    rw [gateWrite_of_unoccupied f h0 hc hp hon hr ho]

/-! ### Events (R43, R45) -/

theorem State.ifLive_of_dead {s : State} {p : Nat} (f : State → State) (h : s.live p = false) : s.ifLive p f = s := by
  simp [State.ifLive, h]

/-- An event of a block is applied only while the block performs its function. -/
theorem exec_of_eventPage {c : Instr} {p : Nat} (h : eventPage c = some p) :
    ∃ f : State → State, ∀ s, exec c s = .next (s.ifLive p f) := by
  cases c <;> cases h <;> exact ⟨_, fun _ => rfl⟩

/-- Settles O4: an event is applied behind the one test of its block. -/
theorem eventsNeedTheirBlock : Obligations.EventsNeedTheirBlock := by
  unfold Obligations.EventsNeedTheirBlock
  intro c p s hp hl
  obtain ⟨f, hf⟩ := exec_of_eventPage hp
  rw [hf s, s.ifLive_of_dead f hl]

end Sys2Proof.Machine
end

section
/-!
PROOFS. The table window: what a write of `TBL_CMD` starts, and how a table command completes (R53 to R57).
-/
namespace Sys2Proof.Machine

/-! ### The start of a table command -/

/-- A bank that is busy discards the command. -/
theorem tblRun_of_busy {s : State} {r : Req} {p : Nat} (h : Win → State → TblRes)
    (hb : s.rbit (winBank r (Reg.TBL_STS p)) 31 = true) :
    tblRun r p h s =
      errBy p 0x02 (reqNo r) (s.reg (winBank r (Reg.TBL_SEL p))) (s.reg (winBank r (Reg.TBL_IDX p))) s := by
  simp only [tblRun, winOf, hb, if_true]

theorem deepRun_of_busy {s : State} {r : Req} {p : Nat} (op : Nat) (hb : s.rbit (winBank r (Reg.TBL_STS p)) 31 = true) :
    deepRun r p op s = tblRun r p (dscTable op) s := by
  simp only [deepRun, hb, true_or, if_true]

/-- Off the LPM page a busy bank discards every command. -/
theorem cmdWrite_of_busy {s : State} {r : Req} {p : Nat} (op : Nat) (hp : p ≠ lpmPage)
    (hb : s.rbit (winBank r (Reg.TBL_STS p)) 31 = true) :
    cmdWrite r p op s =
      errBy p 0x02 (reqNo r) (s.reg (winBank r (Reg.TBL_SEL p))) (s.reg (winBank r (Reg.TBL_IDX p))) s := by
  simp only [cmdWrite, hp, false_and, if_false, deepRun_of_busy op hb, tblRun_of_busy _ hb, ite_self]

/-- Off the LPM page and the pages of the deep store, a command executes at the table port. -/
theorem cmdWrite_of_plain {p : Nat} (r : Req) (op : Nat) (s : State) (hp : p ≠ lpmPage) (hd : ¬(0xF0 ≤ p ∧ p < 0x100)) :
    cmdWrite r p op s = tblRun r p (pageTable op) s := by
  simp only [cmdWrite, hp, false_and, if_false, hd]

theorem exec_tblRead {s : State} {r : Req} {p : Fin 8192} (h : Admits s r (Reg.TBL_CMD p)) :
    exec (.tblRead r p) s = .next (cmdWrite r p 1 (firstWrite r s)) := congrArg done (gateWrite_admits _ h)

theorem exec_tblWrite {s : State} {r : Req} {p : Fin 8192} (h : Admits s r (Reg.TBL_CMD p)) :
    exec (.tblWrite r p) s = .next (cmdWrite r p 2 (firstWrite r s)) := congrArg done (gateWrite_admits _ h)

/-! ### The launch windows (R105) -/

theorem pageTable_time {w : Win} (op : Nat) (s : State) (hp : w.p = 1) (hs : w.sel = 1) :
    pageTable op w s = timeTable op w s := by
  have hk : (pageOf 1).map Prod.fst = some .TIME := by decide
  simp [pageTable, hp, hs, hk]

theorem timeTable_read {w : Win} (s : State) (hs : w.sel = 1) (hi : w.idx < 1024) :
    timeTable 1 w s = Win.ok (some (cutWords (s.tab w.p 1 w.idx) 2)) s := by
  simp [timeTable, Win.read, hs, hi]

theorem timeTable_write {w : Win} (s : State) (hs : w.sel = 1) (hi : w.idx < 1024) :
    timeTable 2 w s = Win.ok none (s.setTab timePage 1 w.idx (w.data &&& ofWords [0x3FFFFFFF, 0xBFFFFFFF])) := by
  simp [timeTable, hs, Nat.not_le.2 hi]

/-- A command of the TIME page whose bank is free executes on its table. -/
theorem cmdWrite_time {s : State} {r : Req} (op : Nat) (hb : s.rbit (winBank r (Reg.TBL_STS 1)) 31 = false)
    (hs : s.reg (winBank r (Reg.TBL_SEL 1)) = 1) :
    cmdWrite r 1 op s = tableEnd r 1 (timeTable op (winOf s r 1) s).2.1 (timeTable op (winOf s r 1) s).2.2
      (timeTable op (winOf s r 1) s).1 := by
  rw [cmdWrite_of_plain r op s (by decide) (by decide), tblRun_ready _ hb,
    pageTable_time op s (w := winOf s r 1) rfl hs]

/-! ### The completion (R54) -/

theorem tblComplete_of_ok {s : State} {r : Req} {p : Nat} (h : s.hn (.tblOp p (reqNo r)) = 1) :
    tblComplete r p s = (s.setH (.tblOp p (reqNo r)) 0).setReg (winBank r (Reg.TBL_STS p))
      (fld (s.reg (winBank r (Reg.TBL_STS p))) 0 7) := by
  simp [tblComplete, h]

theorem tblComplete_of_failed {s : State} {r : Req} {p n : Nat} (h : s.hn (.tblOp p (reqNo r)) = 1 + 256 * n)
    (hn : 0 < n) :
    tblComplete r p s = (s.setH (.tblOp p (reqNo r)) 0).setReg (winBank r (Reg.TBL_STS p)) (2 ^ 30 + n) := by
  have hc : (1 + 256 * n) / 256 = n := by omega
  simp only [tblComplete, h, hc, Nat.ne_of_gt hn, if_false, show 1 + 256 * n ≠ 0 by omega]

theorem exec_tblCmdComplete (r : Req) (p : Fin 8192) (s : State) :
    exec (.tblCmdComplete r p) s = .next (if p.val = lpmPage then lpmComplete r s else tblComplete r p s) := rfl

theorem exec_tblCmdComplete_of_ne {p : Fin 8192} (r : Req) (s : State) (hp : p.val ≠ lpmPage) :
    exec (.tblCmdComplete r p) s = .next (tblComplete r p s) := by
  rw [exec_tblCmdComplete, if_neg hp]

/-- Settles O7: the start of a command by the state of its bank, the two operations on the launch windows, the completion. -/
theorem tableCommands : Obligations.TableCommands := by
  unfold Obligations.TableCommands
  refine ⟨?busy, ?read, ?write, ?ok, ?failed, fun r p s h => exec_tblRead h, fun r p s h => exec_tblWrite h,
    exec_tblCmdComplete⟩
  case busy =>
    intro r p s h hp hb
    rw [exec_tblRead h, cmdWrite_of_busy 1 hp (by rwa [firstWrite_rbit]), firstWrite_reg, firstWrite_reg]
  case read =>
    intro r s h hb hs hi
    have hs' : (winOf s r 1).sel = 1 := hs
    have hi' : (winOf s r 1).idx < 1024 := hi
    rw [exec_tblRead (p := 1) h]
    refine congrArg _ ((cmdWrite_time 1 (by rwa [firstWrite_rbit]) (by rwa [firstWrite_reg])).trans ?_)
    rw [winOf_firstWrite, timeTable_read _ hs' hi', firstWrite_tab]
    rfl
  case write =>
    intro r s h hb hs hi
    have hs' : (winOf s r 1).sel = 1 := hs
    have hi' : (winOf s r 1).idx < 1024 := hi
    rw [exec_tblWrite (p := 1) h]
    refine congrArg _ ((cmdWrite_time 2 (by rwa [firstWrite_rbit]) (by rwa [firstWrite_reg])).trans ?_)
    rw [winOf_firstWrite, timeTable_write _ hs' hi']
    simp only [Win.ok, tableEnd, State.reg_setTab, firstWrite_reg]
    rfl
  case ok =>
    intro r p s h hp
    rw [exec_tblCmdComplete_of_ne r s hp, tblComplete_of_ok h]
  case failed =>
    intro r p n s h hn hp
    rw [exec_tblCmdComplete_of_ne r s hp, tblComplete_of_failed h hn]

end Sys2Proof.Machine
end

section
/-!
PROOFS. The state after reset; what ends a slew, a lost reference and the realignment of the follower (R22, R66, R72, R73);
the lanes of the Bridge (R30 to R33).
-/
namespace Sys2Proof.Machine

/-! ### The state after reset -/

/-- Every sparse map is empty after reset, every stack and FIFO too. -/
theorem reset_sane : Sane State.reset where
  regs := Smap.canonical_nil _
  tabs := Smap.canonical_nil _
  mem := Smap.canonical_nil _
  hid := Smap.canonical_nil _
  bufs := Smap.canonical_nil _
  intStacks _ := Nat.zero_le 16
  notify := Nat.zero_le 16384

/-- Every source that exists is masked and not pending (R473, R475). -/
theorem reset_intc : ∀ k : Fin 128,
    State.reset.reg (Reg.INTC.MASK k) = srcBits k 0xFFFFFFFF ∧ State.reset.reg (Reg.INTC.PEND k) = 0 := by
  decide +kernel

/-- Every event of an assigned page is masked (R39). -/
theorem reset_evtMask : ∀ p : Fin 0x110, (pageOf p).isSome = true → State.reset.reg (Reg.EVT_MASK p) = 0xFFFFFFFF := by
  decide +kernel

/-- Of the power domains only AON is on (R603, R621). -/
theorem reset_domState : ∀ d : Fin 37, State.reset.domState d = if d.val = 1 then 1 else 0 := by
  decide +kernel

/-- Settles O55: the maps are empty, so every register reads its reset value. -/
theorem resetIsSane : Obligations.ResetIsSane := by
  unfold Obligations.ResetIsSane
  refine ⟨⟨reset_sane, rfl⟩, ⟨rfl, rfl, rfl, rfl, by decide⟩, fun k p hp => ?_, reset_domState⟩
  obtain ⟨hmask, hpend⟩ := reset_intc k
  exact ⟨hmask, hpend, reset_evtMask p hp⟩

/-! ### The time base follows a tracker (R22, R66, R72, R73) -/

theorem exec_slewDone (s : State) : exec .slewDone s = .next (slewDone s) := rfl

theorem slewDone_of_slewing {s : State} {x : Nat} (hf : followed s = some x) (hs : s.rbit Reg.TIME.TB_CTL 11 = true) :
    slewDone s = advance (slewTicks s x) s := by
  simp only [slewDone, hf, hs, if_true]

theorem slewDone_of_free {s : State} (hf : followed s = none) : slewDone s = s := by
  simp only [slewDone, hf]

theorem exec_refLoss {s : State} (x : Fin 2) (hl : s.live timePage = true) :
    exec (.refLoss x) s = .next (if s.rbit (Reg.TIME.TRK_REF_CFG x) 31 = true
      then refLoss x (waitSince timePage (.refSince x) (syncCycles s x) s) else s) :=
  congrArg done (s.ifLive_pos _ hl)

/-- A reference in use that is found lost for the first time. -/
theorem refLoss_of_first {s : State} {x : Nat} (hu : s.rbit (Reg.TIME.TRK_REF_CFG x) 31 = true)
    (hn : s.rbit (Reg.TIME.TRK_REF_STS x) 0 = false) :
    refLoss x s =
      let w := raiseFault timePage (3 + x) 13 x (s.setRbit (Reg.TIME.TRK_REF_STS x) 0 true)
      if followed w = some x ∧ w.rfld Reg.TIME.TB_CTL 4 2 = 2 ∧ w.rbit Reg.TIME.TB_CTL 8 = true
      then raise timePage 5 (tbEnter 3 w) else w :=
  if_pos ⟨hu, hn⟩

theorem exec_followerRealign {s : State} (hr : s.timeRuns = true) (hl : s.live 0x100 = true) :
    exec .followerRealign s =
      .next { nextInterval 0x100 .folAt (cycUs 1) s with fol := (nextInterval 0x100 .folAt (cycUs 1) s).tb } :=
  congrArg done (s.when_pos _ (by rw [hr, hl]; rfl))

/-- Settles O11: a slew in progress or none, a reference in use or not, and the realignment while both blocks run. -/
theorem timeFollowing : Obligations.TimeFollowing := by
  unfold Obligations.TimeFollowing
  refine ⟨?slewing, ?free, ?lost, ?realign, exec_slewDone, fun x s hl => exec_refLoss x hl,
    fun s hr hl => exec_followerRealign hr hl⟩
  case slewing =>
    intro s x hf hs
    rw [exec_slewDone, slewDone_of_slewing hf hs]
  case free =>
    intro s hf
    rw [exec_slewDone, slewDone_of_free hf]
  case lost =>
    rintro x s u hl hc rfl hu hn
    rw [exec_refLoss x hl, if_pos hc, refLoss_of_first hu hn]
  case realign =>
    rintro s u hr hl rfl
    exact exec_followerRealign hr hl

/-- An event with nothing to do leaves the state, whether its block performs its function or not. -/
theorem State.ifLive_of_fixed {f : State → State} (s : State) {p : Nat} (h : f s = s) : s.ifLive p f = s := by
  simp only [State.ifLive, h, ite_self]

/-! ### The lanes of the Bridge (R30 to R33) -/

theorem exec_bridgeCrcFail {s : State} (qf : Bool) (b : Fin 100) (lane : Fin 68) (hl : s.live bridgePage = true) :
    exec (.bridgeCrcFail qf b lane) s = .next (bridgeCrcFail (100 * ofB qf + b) lane s) :=
  congrArg done (s.ifLive_pos _ hl)

theorem exec_laneErrWindow {s : State} (hl : s.live bridgePage = true) :
    exec .laneErrWindow s = .next (laneErrWindow (nextInterval bridgePage .laneWin (cycUs 1000) s)) :=
  congrArg done (s.ifLive_pos _ hl)

theorem exec_laneSpared {s : State} (qf : Bool) (b : Fin 100) (hl : s.live bridgePage = true) :
    exec (.laneSpared qf b) s = .next (laneSpared (100 * ofB qf + b) s) :=
  congrArg done (s.ifLive_pos _ hl)

theorem bridgeCrcFail_of_out {s : State} {k : Nat} (lane : Nat) (h : bundleOut s k = true) :
    bridgeCrcFail k lane s = s := if_pos h

theorem bridgeCrcFail_of_inService {s : State} {k : Nat} (lane : Nat) (h : bundleOut s k = false) :
    bridgeCrcFail k lane s =
      let w := faultRecord 4 bridgePage k (bump Reg.BRIDGE.REPLAY_CNT (bump Reg.BRIDGE.CRC_ERR_CNT s))
      w.setH (.laneErr (68 * k + lane)) (w.h (.laneErr (68 * k + lane)) + 1) := by
  simp only [bridgeCrcFail, h, Bool.false_eq_true, if_false]

/-- A lane is marked while a spare is left for it. -/
theorem laneMarked_of_spare {s : State} {k : Nat} (ho : bundleOut s k = false)
    (hk : s.reg (bndSts k) + s.hn (.laneMark k) < 4) :
    laneMarked k s = s.setH (.laneMark k) (s.h (.laneMark k) + 1) := by
  simp only [laneMarked, ho, hk, Bool.false_eq_true, if_false, if_true]

/-- The fifth takes the bundle out of service. -/
theorem laneMarked_of_noSpare {s : State} {k : Nat} (ho : bundleOut s k = false)
    (hk : 4 ≤ s.reg (bndSts k) + s.hn (.laneMark k)) : laneMarked k s = bundleTakeDown k s := by
  simp only [laneMarked, ho, Nat.not_lt.2 hk, Bool.false_eq_true, if_false]

theorem bundleTakeDown_fq {k : Nat} (s : State) (hk : k < 100) :
    bundleTakeDown k s = raiseFault bridgePage 2 17 k (((s.setRbit (Reg.BRIDGE.BND_DOWN_FQ (k / 32)) (k % 32) true).setReg
      Reg.BRIDGE.CAP_FQ (s.reg Reg.BRIDGE.CAP_FQ - 1)).setH (.laneMark k) 0) := by
  simp only [bundleTakeDown, bndDown, hk, if_true]

theorem laneSpared_of_unmarked {s : State} {k : Nat} (h : s.h (.laneMark k) ≤ 0) : laneSpared k s = s := if_pos h

theorem laneSpared_of_marked {s : State} {k : Nat} (h : 0 < s.h (.laneMark k)) :
    laneSpared k s =
      let w := s.setH (.laneMark k) (s.h (.laneMark k) - 1)
      let w := raiseFault bridgePage 0 5 k (bump Reg.BRIDGE.SPARED_CNT (w.setReg (bndSts k) (w.reg (bndSts k) + 1)))
      if w.reg (bndSts k) = 4 then raise bridgePage 1 w else w :=
  if_neg (Int.not_le.2 h)

/-- Settles O20: transfers by the state of their bundle, the window, the marks by the spares left, the substitutions. -/
theorem bridgeLanes : Obligations.BridgeLanes := by
  unfold Obligations.BridgeLanes
  refine ⟨?crc, ?out, ?window, ?marked, ?down, ?spared, ?unmarked, fun qf b lane s hl => exec_bridgeCrcFail qf b lane hl,
    fun qf b s hl => exec_laneSpared qf b hl, fun s hl => exec_laneErrWindow hl⟩
  case crc =>
    intro qf b lane s hl ho
    rw [exec_bridgeCrcFail qf b lane hl, bridgeCrcFail_of_inService lane ho]
  case out =>
    intro qf b lane s ho
    exact congrArg done (s.ifLive_of_fixed (bridgeCrcFail_of_out lane ho))
  case window =>
    rintro s u hl rfl
    rw [exec_laneErrWindow hl]
    rfl
  case marked => exact fun k s ho hk => laneMarked_of_spare ho hk
  case down =>
    intro k s hk ho h
    rw [laneMarked_of_noSpare ho h, bundleTakeDown_fq s hk]
  case spared =>
    intro qf b s hl h
    rw [exec_laneSpared qf b hl, laneSpared_of_marked h]
  case unmarked =>
    intro qf b s h
    exact congrArg done (s.ifLive_of_fixed (laneSpared_of_unmarked h))

end Sys2Proof.Machine
end

section
/-!
PROOFS. The commands of the TCAM, its slice configurations and the seeds of the hash tables (R197 to R207, R227).
-/
namespace Sys2Proof.Machine

/-! ### The commands of a ready window -/

theorem exec_keyLoad {s : State} {r : Req} (h : TableReady s r tcamPage) :
    exec (.keyLoad r) s = .next (tableEnd r tcamPage (tcamTable 0x11 (winOf s r tcamPage) (firstWrite r s)).2.1
      (tcamTable 0x11 (winOf s r tcamPage) (firstWrite r s)).2.2 (tcamTable 0x11 (winOf s r tcamPage) (firstWrite r s)).1) :=
  congrArg done (tblCmd_ready (tcamTable 0x11) h)

theorem exec_walk {s : State} {r : Req} (h : TableReady s r tcamPage) :
    exec (.walk r) s = .next (tableEnd r tcamPage (tcamTable 0x12 (winOf s r tcamPage) (firstWrite r s)).2.1
      (tcamTable 0x12 (winOf s r tcamPage) (firstWrite r s)).2.2 (tcamTable 0x12 (winOf s r tcamPage) (firstWrite r s)).1) :=
  congrArg done (tblCmd_ready (tcamTable 0x12) h)

theorem exec_rowMove {s : State} {r : Req} (h : TableReady s r tcamPage) :
    exec (.rowMove r) s = .next (tableEnd r tcamPage (tcamTable 0x10 (winOf s r tcamPage) (firstWrite r s)).2.1
      (tcamTable 0x10 (winOf s r tcamPage) (firstWrite r s)).2.2 (tcamTable 0x10 (winOf s r tcamPage) (firstWrite r s)).1) :=
  congrArg done (tblCmd_ready (tcamTable 0x10) h)

theorem tcamTable_keyLoad {w : Win} (s : State) (h : 0x10 ≤ w.sel) (h' : w.sel ≤ 0x13) :
    tcamTable 0x11 w s = keyLoad w s := by
  unfold tcamTable
  split <;> simp_all

theorem tcamTable_walk {w : Win} (s : State) (h : 0x10 ≤ w.sel) (h' : w.sel ≤ 0x13) :
    tcamTable 0x12 w s = walkStep w s := by
  unfold tcamTable
  split <;> simp_all

theorem tcamTable_rowMove {w : Win} (s : State) (h : w.sel = 1) (hi : w.idx < 262144) :
    tcamTable 0x10 w s = rowMove w s := by
  simp only [tcamTable, h, hi, if_true]

/-! ### Match walks (R203) -/

theorem keyLoad_half {w : Win} (s : State) (hi : w.idx ≤ 1) :
    keyLoad w s = Win.ok none (s.setTab tcamPage walkSel (2 * reqNo w.r + w.idx) (cutWords w.data 10)) :=
  if_neg (Nat.not_lt.2 hi)

/-- The positions at or after the index of a walk whose rows match its key. -/
def walkHits (w : Win) (s : State) : List Nat :=
  (tcamMatches s ((w.sel - 0x10) / 2) (walkKey s w.r) (w.sel % 2)).filter fun pos => decide (w.idx ≤ pos)

theorem walkStep_miss {w : Win} {s : State} (hi : w.idx < 262144) (h : walkHits w s = []) :
    walkStep w s = Win.ok (some (setWord (setWord w.data 0 0) 1 0)) s := by
  unfold walkHits at h
  simp only [walkStep, Nat.not_le.2 hi, if_false, h]

theorem walkStep_hit {w : Win} {s : State} {pos : Nat} {rest : List Nat} (hi : w.idx < 262144)
    (h : walkHits w s = pos :: rest) :
    walkStep w s = Win.ok (some (setWord (setWord w.data 0 (2 ^ 31 + ofB (!rest.isEmpty) * 2 ^ 30 + pos)) 1
      (tcamAction s pos))) s := by
  unfold walkHits at h
  simp only [walkStep, Nat.not_le.2 hi, if_false, h]

/-! ### Row moves (R205) -/

/-- A refusal other than GEN_LOCKED counts on the page only. -/
theorem Win.fail_of_ne {w : Win} {c : Nat} (s : State) (hc : c ≠ 0x1F) :
    w.fail c s = (errBy w.p c (reqNo w.r) w.sel w.idx s, c, none) := by
  simp only [Win.fail, tblFail, hc, if_false]

theorem rowMove_of_invalid {w : Win} {s : State} (h : rowVis s w.idx = 0) : rowMove w s = w.fail 0x10 s := by
  simp only [rowMove, h, true_or, or_true, if_true]

/-- A slice whose lookup chains one slice heads itself. -/
theorem headSlice_of_single {s : State} {sl : Nat} (h : chainLen s (s.rfld (Reg.TCAM.SLICE_CFG sl) 1 1) = 1) :
    headSlice s sl = sl := by
  rw [headSlice, h, Nat.mod_one, Nat.sub_zero]

/-- Outside a sweep, a row of a one-slice chain moves within its group to a free row with no valid row in between. -/
theorem rowMove_within_group {w : Win} {s : State} {x : Nat} (hc : s.h .capoState ≠ 4)
    (hk : chainLen s (s.rfld (Reg.TCAM.SLICE_CFG (w.idx / 2048)) 1 1) = 1)
    (hx : w.idx / 2048 * 2048 + fld w.data 0 11 = x) (hg : w.idx / 16 = x / 16) (hne : x ≠ w.idx)
    (hv : rowVis s w.idx ≠ 0) (hf : rowVis s x = 0)
    (hb : ((s.tabList tcamPage 1).any fun e => min w.idx x < e.1 && e.1 < max w.idx x && fld (word e.2 10) 0 2 != 0)
      = false) :
    rowMove w s = Win.ok none (
      let t := s.setTab tcamPage 1 x (setFld (s.tab tcamPage 1 w.idx) 320 2 (rowVis s w.idx))
      bump Reg.TCAM.ROW_MOVES (t.setTab tcamPage 1 w.idx (setFld (t.tab tcamPage 1 w.idx) 320 2 0))) := by
  subst hx
  simp only [rowMove, headSlice_of_single hk, hv, hf, hb, hne, hk, hc, ← hg, ne_eq, not_true_eq_false, Bool.false_eq_true,
    or_self, if_false, if_true, List.range_one, forEach_cons, forEach_nil, Nat.mul_zero, Nat.add_zero]

/-! ### The scrubber (R207) -/

theorem exec_tcamScrubRow_bad {s : State} (pos : Fin 262144) (hl : s.live tcamPage = true) :
    exec (.tcamScrubRow pos false) s = .next (rowScrubFail pos s) := congrArg done (s.ifLive_pos _ hl)

/-! ### Slice configurations (R197, R198) -/

theorem exec_sliceCfgWrite_of_slice {s : State} {r : Req} {k : Fin 130} (v : W32) (hk : k.val < 128)
    (h : Admits s r (Reg.TCAM.SLICE_CFG k)) :
    exec (.sliceCfgWrite r k v) s = .next (sliceCfg r k v.toNat (firstWrite r s)) := by
  rw [exec_sliceCfgWrite_slice r v hk, gateWrite_admits _ h]

theorem exec_sliceCfgWrite_of_lookup {s : State} {r : Req} {k : Fin 130} (v : W32) (hk : 128 ≤ k.val)
    (h : Admits s r (Reg.TCAM.LKP_CFG (k.val - 128))) :
    exec (.sliceCfgWrite r k v) s = .next (lkpCfg r (k.val - 128) v.toNat (firstWrite r s)) := by
  rw [exec_sliceCfgWrite_lookup r v (Nat.not_lt.2 hk), gateWrite_admits _ h]

section
variable {s : State} {i v : Nat} (r : Req)

theorem sliceCfg_same (h : v % 4 = s.reg (Reg.TCAM.SLICE_CFG i)) : sliceCfg r i v s = s := if_pos h

theorem sliceCfg_free (h : v % 4 ≠ s.reg (Reg.TCAM.SLICE_CFG i)) (hv : validRows s i = 0) :
    sliceCfg r i v s = chainEval (s.setReg (Reg.TCAM.SLICE_CFG i) (v % 4)) := by
  simp only [sliceCfg, h, hv, ne_eq, not_true_eq_false, if_false]

theorem sliceCfg_held (h : v % 4 ≠ s.reg (Reg.TCAM.SLICE_CFG i)) (hv : validRows s i ≠ 0) :
    sliceCfg r i v s = errReq tcamPage 0x12 r (Reg.TCAM.SLICE_CFG i) v s := by
  simp only [sliceCfg, h, hv, ne_eq, not_false_eq_true, if_false, if_true]

theorem lkpCfg_three (h : 3 ≠ s.reg (Reg.TCAM.LKP_CFG i)) (hv : v % 4 = 3) :
    lkpCfg r i v s = errReq tcamPage 0x12 r (Reg.TCAM.LKP_CFG i) v s := by
  simp only [lkpCfg, hv, h, true_or, if_false, if_true]

theorem lkpCfg_empty (h : v % 4 ≠ s.reg (Reg.TCAM.LKP_CFG i)) (hv : v % 4 ≠ 3) (ht : s.tabList tcamPage 1 = []) :
    lkpCfg r i v s = chainEval (s.setReg (Reg.TCAM.LKP_CFG i) (v % 4)) := by
  simp only [lkpCfg, h, hv, ht, List.any_nil, Bool.false_eq_true, or_self, if_false]

end

/-! ### Hash seeds (R227) -/

theorem exec_seedWrite {s : State} {r : Req} {k : Fin 3} (v : W32) (h : Admits s r (seedAddr k)) :
    exec (.seedWrite r k v) s = .next (seedWrite r (seedAddr k) v.toNat (firstWrite r s)) :=
  congrArg done (gateWrite_admits _ h)

/-- A seed of the exact-match page: its table is empty if its count is 0. -/
theorem seedWrite_mpls (r : Req) (v : Nat) (s : State) :
    seedWrite r Reg.EM.MPLS_SEED v s = if s.reg Reg.EM.MPLS_ENT = 0 then s.setReg Reg.EM.MPLS_SEED v
      else errReq 0xC1 0x16 r Reg.EM.MPLS_SEED v s := by
  by_cases h : s.reg Reg.EM.MPLS_ENT = 0 <;> simp [seedWrite, h, Reg.EM.MPLS_SEED]

theorem seedWrite_ift (r : Req) (v : Nat) (s : State) :
    seedWrite r Reg.EM.IFT_SEED v s = if s.reg Reg.EM.IFT_ENT = 0 then s.setReg Reg.EM.IFT_SEED v
      else errReq 0xC1 0x16 r Reg.EM.IFT_SEED v s := by
  by_cases h : s.reg Reg.EM.IFT_ENT = 0 <;> simp [seedWrite, h, Reg.EM.MPLS_SEED, Reg.EM.IFT_SEED]

theorem seedWrite_l2 (r : Req) (v : Nat) (s : State) :
    seedWrite r Reg.L2.HASH_SEED v s =
      if (List.range 8).any fun g => s.reg (Reg.L2.ENT_CNT g) != 0 then errReq 0xC4 0x16 r Reg.L2.HASH_SEED v s
      else s.setReg Reg.L2.HASH_SEED v := by
  simp only [seedWrite, Reg.EM.MPLS_SEED, Reg.EM.IFT_SEED, Reg.L2.HASH_SEED, Nat.reduceEqDiff, if_false, Nat.reduceDiv]

/-- Settles O23: the three TCAM commands, the scrubber, the writes of a slice and of a lookup, the three seeds. -/
theorem tcamAndSeeds : Obligations.TcamAndSeeds := by
  unfold Obligations.TcamAndSeeds
  refine ⟨?keyLoad, ?miss, ?hit, ?invalid, ?move, ?good, fun pos s hl => exec_tcamScrubRow_bad pos hl,
    fun r s h => exec_keyLoad h, fun r s h => exec_walk h, fun r s h => exec_rowMove h, ?sliceFree, ?sliceHeld, ?sliceSame,
    ?three, ?lkpFree, ?seedFree, ?seedHeld, ?ift, ?l2, fun r k v s hk h => exec_sliceCfgWrite_of_slice v hk h,
    fun r k v s hk h => exec_sliceCfgWrite_of_lookup v hk h, fun r k v s h => exec_seedWrite v h⟩
  case keyLoad =>
    rintro r s w h rfl h1 h2 hi
    rw [exec_keyLoad h, tcamTable_keyLoad (w := winOf s r tcamPage) _ h1 h2, keyLoad_half (w := winOf s r tcamPage) _ hi]
    rfl
  case miss =>
    rintro r s w h rfl h1 h2 hi hm
    rw [exec_walk h, tcamTable_walk (w := winOf s r tcamPage) _ h1 h2,
      walkStep_miss (w := winOf s r tcamPage) hi hm]
    rfl
  case hit =>
    rintro r pos rest s w h rfl h1 h2 hi hm
    rw [exec_walk h, tcamTable_walk (w := winOf s r tcamPage) _ h1 h2,
      walkStep_hit (w := winOf s r tcamPage) hi hm]
    rfl
  case invalid =>
    rintro r s w h rfl hs hi hv
    rw [exec_rowMove h, tcamTable_rowMove (w := winOf s r tcamPage) _ hs hi,
      rowMove_of_invalid (w := winOf s r tcamPage) hv, Win.fail_of_ne _ (by decide),
      show (winOf s r tcamPage).sel = 1 from hs]
    rfl
  case move =>
    rintro r x s w h rfl hs hi hc hk hx hg hne hv hf hb
    rw [exec_rowMove h, tcamTable_rowMove (w := winOf s r tcamPage) _ hs hi,
      rowMove_within_group (w := winOf s r tcamPage) hc hk hx hg hne hv hf hb]
    rfl
  case good => exact fun pos s => congrArg done (s.ifLive_of_fixed (if_pos rfl))
  case sliceFree =>
    rintro r k v s w hk h rfl hne hv
    rw [exec_sliceCfgWrite_of_slice v hk h, sliceCfg_free r (by rwa [firstWrite_reg]) hv]
  case sliceHeld =>
    rintro r k v s w hk h rfl hne hv
    rw [exec_sliceCfgWrite_of_slice v hk h, sliceCfg_held r (by rwa [firstWrite_reg]) hv]
  case sliceSame =>
    rintro r k v s w hk h rfl he
    rw [exec_sliceCfgWrite_of_slice v hk h, sliceCfg_same r (by rwa [firstWrite_reg])]
  case three =>
    rintro r k v s w hk h rfl hne hv
    rw [exec_sliceCfgWrite_of_lookup v hk h, lkpCfg_three r (by rwa [firstWrite_reg]) hv]
  case lkpFree =>
    rintro r k v s w hk h rfl hne hv ht
    rw [exec_sliceCfgWrite_of_lookup v hk h, lkpCfg_empty r (by rwa [firstWrite_reg]) hv ht]
  case seedFree =>
    intro r v s h he
    rw [exec_seedWrite (k := 0) v h]
    exact congrArg _ ((seedWrite_mpls r _ _).trans (if_pos (by rwa [firstWrite_reg])))
  case seedHeld =>
    intro r v s h he
    rw [exec_seedWrite (k := 0) v h]
    exact congrArg _ ((seedWrite_mpls r _ _).trans (if_neg (by rwa [firstWrite_reg])))
  case ift =>
    intro r v s h
    rw [exec_seedWrite (k := 1) v h, ← firstWrite_reg r s]
    exact congrArg _ (seedWrite_ift r _ _)
  case l2 =>
    intro r v s h
    rw [exec_seedWrite (k := 2) v h]
    refine congrArg _ ((seedWrite_l2 r _ _).trans ?_)
    simp only [firstWrite_reg]

end Sys2Proof.Machine
end

section
/-!
PROOFS. A frame enters an ingress pipeline, and what a pass does with it (R132, R191, R209, R225, R247, R265 to R267, R283).
-/
namespace Sys2Proof.Machine

/-! ### The calls of the two sides (R132) -/

/-- Where the share of the span is used up, the line side has first call. -/
theorem recircCall_of_used {s : State} {g : Nat} (want : Bool) (h : s.reg (Reg.LG.RECIRC_SHARE g) ≤ s.hn (.spanRec g)) :
    recircCall s g want = false := if_pos h

/-- Where only calls of the share are left, the recirculation side has it. -/
theorem recircCall_of_left {s : State} {g : Nat} (want : Bool) (h : s.hn (.spanRec g) < s.reg (Reg.LG.RECIRC_SHARE g))
    (hl : 16 - s.reg (Reg.LG.RECIRC_SHARE g) ≤ s.hn (.spanCnt g) - s.hn (.spanRec g)) : recircCall s g want = true :=
  (if_neg (Nat.not_le.2 h)).trans (if_pos hl)

/-- A call of a running pipeline. -/
theorem exec_pipelineEntry {s : State} {g : Fin 8} (rc : Bool) (node : Option W32) (hc : s.clocked (ipipePage g) = true)
    (hs : s.hb (.stuck g) = false) :
    exec (.pipelineEntry g rc node) s = .next (
      let call := recircCall s g rc
      let u := spanStep g call s
      match ipipeNext u g call with
      | none => u
      | some f => if u.live (ipipePage g) = false then dropDisabled (ipipePage g) f u
        else if parseOpen u g f = true then u
        else ipipePass g (node.map BitVec.toNat) (ipipeEnter g f u).1
          (syncReport (ipipeEnter g f u).1 (ipipeEnter g f u).2)) := by
  refine congrArg done ((s.when_pos _ (by rw [hc, hs]; rfl)).trans ?_)
  dsimp only
  cases ipipeNext (spanStep g (recircCall s g rc) s) g (recircCall s g rc) with
  | none => rfl
  | some f => simp only [Bool.not_eq_true']

/-! ### The entry (R266, R267, R283) -/

/-- Outside SETTLING a count of frames in flight rises and nothing else changes. -/
theorem infInc_of_unsettled {s : State} {p : Nat} (hs : Sane s) (hp : p ≤ 1) (hc : s.h .capoState ≠ 3) :
    infInc p s = s.setH (.inFlight p) (s.h (.inFlight p) + 1) := by
  have hcode : (Hid.inFlight p).code ≠ Hid.capoState.code := by
    simp only [Hid.code, hidKey]
    omega
  unfold infInc
  dsimp only
  rw [State.h_setH_other _ hcode hs.hid.1]
  exact if_neg fun h => hc h.1

theorem ipipeEnter_first {s : State} {f : Frame} (g : Nat) (hs : Sane s) (hp : s.hn .capoParity ≤ 1)
    (hf : f.parity = none) (hc : s.h .capoState ≠ 3) :
    ipipeEnter g f s =
      let h := { f with srcSys := s.reg (Reg.IPIPE.SYSPORT g (f.port % 16)), parity := some (s.hn .capoParity) }
      (h, (s.setH (.inFlight (s.hn .capoParity)) (s.h (.inFlight (s.hn .capoParity)) + 1)).putFrame h) := by
  simp only [ipipeEnter, hf, stampParity, infInc_of_unsettled hs hp hc]

theorem ipipeEnter_again {f : Frame} (g : Nat) (s : State) (hf : f.parity.isSome = true) :
    (ipipeEnter g f s).1.parity = f.parity ∧ (ipipeEnter g f s).1.srcSys = f.srcSys ∧
      (ipipeEnter g f s).1.passes = f.passes + 1 ∧ (ipipeEnter g f s).2.hid = s.hid := by
  obtain ⟨p, hp⟩ := Option.isSome_iff_exists.1 hf
  unfold ipipeEnter
  rw [hp]
  exact ⟨rfl, rfl, rfl, rfl⟩

/-! ### The parse (R191, R209) -/

section
variable {g c : Nat} {f : Frame} {s : State} (node : Option Nat)
  (hc : (parseFrame s g (f.parity.getD 0) (fld (s.reg (Reg.IPIPE.PORT_CFG g (portSlot f.port))) 0 8) f true).code = c + 1)
  (hg : (parseFrame s g (f.parity.getD 0) (fld (s.reg (Reg.IPIPE.PORT_CFG g (portSlot f.port))) 0 8) f true).frag = false)
include hc hg

/-- A frame whose parse fails is discarded where the port's action is DROP. -/
theorem ipipePass_of_parseDrop (ha : fld (s.reg (Reg.IPIPE.PORT_CFG g (portSlot f.port))) 22 2 = 0) :
    ipipePass g node f s =
      (raiseFirst (ipipePage g) 0 (bump (Reg.IPIPE.PARSE_FAIL g c) s)).drop { f with fail := c + 1 } := by
  simp only [ipipePass, hc, hg, ha, Nat.add_sub_cancel, Nat.succ_ne_zero, Bool.false_eq_true, ne_eq, not_false_eq_true,
    and_self, if_false, if_true]

/-- It goes to the host where the action is PUNT. -/
theorem ipipePass_of_parsePunt (ha : fld (s.reg (Reg.IPIPE.PORT_CFG g (portSlot f.port))) 22 2 = 2) :
    ipipePass g node f s = bridgeTo { f with
      fail := c + 1, cls := 0, colour := 0, qoff := 0, useOff := false, l3if := 0, vrf := 0, adj := 0, dstSys := 0
      multi := 0, reason := some 0xF1 } .toHost (raiseFirst (ipipePage g) 0 (bump (Reg.IPIPE.PARSE_FAIL g c) s)) := by
  simp only [ipipePass, hc, hg, ha, Nat.add_sub_cancel, Nat.succ_ne_zero, OfNat.ofNat_ne_zero, Bool.false_eq_true, ne_eq,
    not_false_eq_true, and_false, and_self, if_false, if_true]

end

/-! ### The routing of a classified frame (R209, R265) -/

section
variable {f : Frame} {w : Fwd} {res : Resolve} (g : Nat) (s : State)

theorem route_to_class (hp : w.punt = none) (hr : w.rpipe = none) (hq : res.qsel ≠ 2) :
    route g f w res s = bridgeTo f (.toQ (8 * w.dst + res.cls)) s := by
  simp only [route, hp, hr, hq, if_false]

theorem route_to_offset (hp : w.punt = none) (hr : w.rpipe = none) (hq : res.qsel = 2) :
    route g f w res s = bridgeTo f (.toQ (8 * w.dst + res.qoff)) s := by
  simp only [route, hp, hr, hq, if_true]

theorem route_of_limit {h : Nat} (hp : w.punt = none) (hr : w.rpipe = some h) (hl : 3 ≤ f.passes) :
    route g f w res s = raise (ipipePage g) 1 (bump (Reg.IPIPE.RECIRC_LIMIT g) (s.drop f)) := by
  simp only [route, hp, hr, hl, if_true]

end

/-! ### The adjacency (R225, R247, R300) -/

theorem resolveAdj_zero (g p len : Nat) (w : Fwd) (s : State) :
    resolveAdj g p 0 len w s =
      ({ w with adj := 0, discard := true }, fsCount 1572864 len (bump (Reg.IPIPE.ADJ_DROP g) s)) := by
  simp only [resolveAdj, adjZero, if_true]

/-- A reference to an adjacency that the frame's parity does not see takes adjacency 0. -/
theorem resolveAdj_invisible {s : State} {p i : Nat} (g len : Nat) (w : Fwd) (hi : i ≠ 0)
    (hb : parBad s adjPage 1 i = false) (hv : bit (fld (s.tab adjPage 1 i) 30 2) p = false) :
    resolveAdj g p i len w s = adjZero g len w (bump Reg.CAPO.INVIS_REF s) := by
  simp only [resolveAdj, hi, hb, hv, Bool.false_eq_true, Bool.not_false, if_false, if_true]

/-- Settles O21: the call, the entry, the parse, the routing and the adjacency, each by its own cases. -/
theorem ingressPipeline : Obligations.IngressPipeline := by
  unfold Obligations.IngressPipeline
  refine ⟨fun g rc node s hc hs => exec_pipelineEntry rc node hc hs,
    fun g want s => ⟨recircCall_of_used want, recircCall_of_left want⟩, fun g call s => rfl,
    fun g f s hs hp hf hc => ipipeEnter_first g hs hp hf hc, fun g f s hf => ipipeEnter_again g s hf, ?drop, ?punt,
    fun f l s => rfl, fun g f w res s hp hr hq => route_to_class g s hp hr hq,
    fun g f w res s hp hr hq => route_to_offset g s hp hr hq, fun g h f w res s hp hr hl => route_of_limit g s hp hr hl,
    resolveAdj_zero, fun g p i len w s hi hb hv => resolveAdj_invisible g len w hi hb hv⟩
  case drop =>
    rintro g c node f r s rfl hc hg ha
    exact ipipePass_of_parseDrop node hc hg ha
  case punt =>
    rintro g c node f r s rfl hc hg ha
    exact ipipePass_of_parsePunt node hc hg ha

end Sys2Proof.Machine
end

section
/-!
PROOFS. A pass of an egress pipeline (R268 to R274).
-/
namespace Sys2Proof.Machine

/-! ### EGRESS_PIPELINE -/

/-- The oldest frame waiting passes a running pipeline; a disabled one discards it. -/
theorem exec_egressPipeline {s : State} {g : Fin 8} (hc : s.clocked (epipePage g) = true)
    (hs : s.hb (.stuck (8 + g)) = false) :
    exec (.egressPipeline g) s = .next (match s.firstAt (.epipe g) with
      | none => s
      | some f => if s.live (epipePage g) = false then dropDisabled (epipePage g) f s else epipePass g f s) := by
  refine congrArg done ((s.when_pos _ (by rw [hc, hs]; rfl)).trans ?_)
  cases s.firstAt (.epipe g) with
  | none => rfl
  | some f => simp only [Bool.not_eq_true']

theorem exec_egressPipeline_of_frame {s : State} {g : Fin 8} {f : Frame} (hc : s.clocked (epipePage g) = true)
    (hs : s.hb (.stuck (8 + g)) = false) (hf : s.firstAt (.epipe g) = some f) :
    exec (.egressPipeline g) s =
      .next (if s.live (epipePage g) = false then dropDisabled (epipePage g) f s else epipePass g f s) := by
  rw [exec_egressPipeline hc hs, hf]

/-- With no frame waiting a pass has nothing to do. -/
theorem exec_egressPipeline_of_empty {s : State} {g : Fin 8} (hf : s.firstAt (.epipe g) = none) :
    exec (.egressPipeline g) s = .next s := by
  refine congrArg done ?_
  simp only [hf, State.when, ite_self]

/-! ### One pass (R118, R268 to R271) -/

section
variable {f : Frame} (g : Nat) (s : State)

theorem epipePass_of_knownBad (hp : f.outPort < 128) (hk : f.markKnown = true) (hb : f.bad = true) :
    epipePass g f s = bump (Reg.LPORT.TX_BAD_DISC f.outPort) (s.drop f) := if_pos ⟨hp, hk, hb⟩

theorem epipePass_of_down (hp : f.outPort < 128) (hb : f.bad = false) (hd : portSends s f.outPort = false) :
    epipePass g f s = txDownDrop f.outPort f s := by
  simp only [epipePass, hp, hb, hd, Bool.false_eq_true, and_false, and_self, if_false, if_true]

/-- A frame for a recirculation port meets the rewrite alone. -/
theorem epipePass_of_noRewrite (hp : 128 ≤ f.outPort) (hr : f.noRw = true) :
    epipePass g f s = epipeHand g false (if f.osOvr then { f with grew := f.grew - f.len }
      else { f with grew := f.grew - f.len, onestep := 0 }) s := by
  simp only [epipePass, Nat.not_lt.2 hp, hr, false_and, if_false, if_true]

theorem epipePass_of_adjErr (hp : 128 ≤ f.outPort) (hr : f.noRw = false) (ho : f.mplsOp ≠ 3)
    (hl : s.live adjPage = true)
    (ha : bit (fld (s.tab adjPage 1 f.adj) 30 2) (f.parity.getD 0) = false ∨ parBad s adjPage 1 f.adj = true) :
    epipePass g f s = adjErr g { f with grew := f.grew - f.len } s := by
  have ha' : (!bit (fld (s.tab adjPage 1 f.adj) 30 2) (f.parity.getD 0)) = true ∨ parBad s adjPage 1 f.adj = true ∨
      (fld (s.tab adjPage 1 f.adj) 27 3 ≠ 1 ∧ fld (s.tab adjPage 1 f.adj) 27 3 ≠ 3) :=
    ha.elim (fun h => .inl (by rw [h]; rfl)) fun h => .inr (.inl h)
  simp only [epipePass, Nat.not_lt.2 hp, hr, ho, hl, ha', false_and, Bool.false_eq_true, Bool.not_true, if_false, if_true]

end

/-! ### The hand-over (R272 to R274) -/

section
variable {f : Frame} {s : State} (g : Nat) (rw : Bool)

theorem epipeHand_of_long (hp : f.outPort < 128) (hf : f.full = true) (hl : txMtu s f.outPort < f.len) :
    epipeHand g rw f s = raiseFirst (epipePage g) 1 (bump (Reg.EPIPE.MTU_DROP g) (s.drop f)) := if_pos ⟨hp, hf, hl⟩

theorem epipeHand_to_line (hp : f.outPort < 128) (hl : f.len ≤ txMtu s f.outPort) :
    epipeHand g rw f s = (bump (if rw then Reg.EPIPE.RW_FRAMES g else Reg.EPIPE.PASS_FRAMES g)
      (bump (Reg.EPIPE.FRAMES g) s)).moveFrame { f with chk := f.full, grew := f.grew + f.len } (.mac f.outPort) := by
  simp only [epipeHand, hp, Nat.not_lt.2 hl, and_false, if_false, if_true]

theorem epipeHand_to_recirc (hp : 128 ≤ f.outPort) :
    epipeHand g rw f s =
      let h := { f with onestep := 0, fcs := false }
      (bump (if rw then Reg.EPIPE.RW_FRAMES g else Reg.EPIPE.PASS_FRAMES g) (bump (Reg.EPIPE.FRAMES g) s)).moveFrame
        { h with grew := h.grew + h.len } (.recirc (f.outPort - 128)) := by
  simp only [epipeHand, Nat.not_lt.2 hp, false_and, if_false]

end

/-- Settles O22: the command by the frame that waits, the pass by the checks in order, the hand-over by the kind of port. -/
theorem egressPipeline : Obligations.EgressPipeline := by
  unfold Obligations.EgressPipeline
  refine ⟨fun g s hf => exec_egressPipeline_of_empty hf, ?pass, ?disabled,
    fun g f s hp hk hb => epipePass_of_knownBad g s hp hk hb, fun g f s hp hb hd => epipePass_of_down g s hp hb hd,
    fun g f s hp hr => epipePass_of_noRewrite g s hp hr, fun g f s hp hr ho hl ha => epipePass_of_adjErr g s hp hr ho hl ha,
    fun g rw f s hp hf hl => epipeHand_of_long g rw hp hf hl, fun g rw f s hp hl => epipeHand_to_line g rw hp hl,
    fun g rw f s hp => epipeHand_to_recirc g rw hp, fun g s hc hs => exec_egressPipeline hc hs⟩
  case pass =>
    intro g f s hc hs hf hl
    rw [exec_egressPipeline_of_frame hc hs hf, hl, if_neg (by decide)]
  case disabled =>
    intro g f s hc hs hf hl
    rw [exec_egressPipeline_of_frame hc hs hf, if_pos hl]

end Sys2Proof.Machine
end

section
/-!
PROOFS. The admission test of a frame offered to a queue (R325 to R335, R355).
-/
namespace Sys2Proof.Machine

/-! ### ADMISSION -/

theorem exec_admission (q : Option (Fin 393216)) (carry : Bool) (s : State) :
    exec (.admission q carry) s = .next (match q with
      | some q => (match s.firstAt (.toQ q) with | some f => offerTo carry q f s | none => s)
      | none => (match (s.allAt .toHost).find? (·.full) with | some f => puntAdmit f s | none => s)) := rfl

theorem exec_admission_of_none {s : State} {q : Fin 393216} (carry : Bool) (hf : s.firstAt (.toQ q) = none) :
    exec (.admission (some q) carry) s = .next s := by
  rw [exec_admission]
  simp only [hf]

theorem exec_admission_of_frame {s : State} {q : Fin 393216} {f : Frame} (carry : Bool)
    (hf : s.firstAt (.toQ q) = some f) :
    exec (.admission (some q) carry) s = .next (offerTo carry q f s) := by
  rw [exec_admission]
  simp only [hf]

/-! ### The offer (R45, R319, R355) -/

section
variable {s : State} {q : Nat} {f : Frame} (carry : Bool)

/-- A disabled queue manager discards the frame. -/
theorem offerTo_of_disabled (hl : s.live qmgrPage = false) : offerTo carry q f s = dropDisabled qmgrPage f s := by
  simp only [offerTo, hl, Bool.false_and, Bool.not_false, Bool.false_eq_true, if_false, if_true]

/-- A VOQ needs a valid entry of its system queue. -/
theorem offerTo_of_noSysq (hc : (carriedBy s (queueReqr q)).isSome = false) (hl : s.live qmgrPage = true)
    (hq : isVoq q = true) (hv : bit (s.tab qmgrPage 2 (q / 8)) 31 = false) :
    offerTo carry q f s = bump Reg.QMGR.NO_SYSQ (s.drop f) := by
  simp only [offerTo, hc, hl, hq, hv, Bool.and_false, Bool.not_true, Bool.not_false, Bool.and_true, Bool.false_eq_true,
    if_false, if_true]

/-- A frame whose queue, engine and cells are there is tested. -/
theorem offerTo_of_ready (hc : (carriedBy s (queueReqr q)).isSome = false) (hl : s.live qmgrPage = true)
    (hv : bit (s.tab qmgrPage 2 (q / 8)) 31 = true) (hs : s.hb (.stuck (engineUnit q)) = false)
    (hb : s.live cellPage = true) : offerTo carry q f s = admitQueue carry q f s := by
  simp only [offerTo, hc, hl, hv, hs, hb, Bool.and_false, Bool.not_true, Bool.false_eq_true, if_false]

end

/-! ### The outcome of the test (R319, R320, R327, R328) -/

section
variable {s : State} {q g x : Nat} {f : Frame}

/-- A frame that passes joins its queue with the cells granted. -/
theorem admitQueue_of_granted {t : State} {js : List Nat} (hp : f.pre = [])
    (ha : anyCarried (deepEntry q (charge f) s) = false) (ht : admTest (deepEntry q (charge f) s) q f = (g, x, none))
    (hg : grantCells (queueReqr q) (ownerOf q) (g + x) (deepEntry q (charge f) s) = (some js, t)) :
    admitQueue false q f s = enqueue q f js (takeCounts q g x t) := by
  simp only [admitQueue, place, ht, ha, hp, hg, Bool.or_self, Bool.false_and, Bool.false_eq_true, ne_eq,
    not_true_eq_false, if_false]

/-- While its request is carried, its charge is counted. -/
theorem admitQueue_of_carried {carry : Bool} (hp : f.pre = [])
    (ha : (carry || anyCarried (deepEntry q (charge f) s)) = true)
    (ht : admTest (deepEntry q (charge f) s) q f = (g, x, none)) :
    admitQueue carry q f s =
      (takeCounts q g x (deepEntry q (charge f) s)).moveFrame { f with q := q, carG := g, carE := x } (.carried q) := by
  simp only [admitQueue, ht, ha, hp, List.isEmpty_nil, Bool.and_self, if_true]

theorem admitQueue_of_failed (carry : Bool) {y : Why} (ht : admTest (deepEntry q (charge f) s) q f = (g, x, some y)) :
    admitQueue carry q f s = refuse q f g x y (deepEntry q (charge f) s) := by
  simp only [admitQueue, ht]

/-- A refusal with no push-out drops the frame, by its reason and in its partition. -/
theorem refuse_of_noPushOut {y : Why} (hy : y ≠ .stage) (hn : pushNeed s q f g x y = none) (hr : f.ring = 0) :
    refuse q f g x y s =
      queueLeft q ((fsCount (dropPair q) f.len (bump y.counter (bump (Reg.CELL.DROP_PART (partOf s q)) s))).drop f) := by
  simp only [refuse, admDrop, hy, hn, hr, if_false, if_true]

end

/-- In a shallow queue without a limit, what the minimum does not cover fits the free shared cells and alpha. -/
theorem admTest_passes_iff {s : State} {q : Nat} {f : Frame} (hd : s.h (.qstate q) ≠ 1) (hm : fld (admW s q 4) 0 28 = 0) :
    (admTest s q f).2.2 = none ↔ charge f - minPart s q (charge f) = 0 ∨
      ((charge f - minPart s q (charge f) : Nat) : Int) ≤ partFree s (partOf s q) ∧
        s.hn (.sq q) + (charge f - minPart s q (charge f)) ≤ alphaOf s q f.colour (partFree s (partOf s q)).toNat := by
  have hd' : (s.h (.qstate q) == 1) = false := beq_false_of_ne hd
  simp only [admTest, hd', hm, ne_eq, not_true_eq_false, false_and, Bool.false_eq_true, if_false]
  generalize charge f - minPart s q (charge f) = e
  by_cases he : e = 0
  · simp only [he, if_true, true_or]
  · simp only [he, if_false, false_or]
    split
    · exact iff_of_true rfl ‹_›
    · exact iff_of_false nofun ‹_›

/-- Settles O29: what is offered, to what queue, the outcome of the test, and the test itself. -/
theorem admissionTest : Obligations.AdmissionTest := by
  unfold Obligations.AdmissionTest
  refine ⟨fun q cy s hf => exec_admission_of_none cy hf, ?noSysq, ?disabled, ?granted, ?carried, ?failed,
    fun q g x f y s hy hn hr => refuse_of_noPushOut hy hn hr, fun f => rfl,
    fun q f s hd hm => admTest_passes_iff hd hm, exec_admission⟩
  case noSysq =>
    intro q cy f s hf hc hl hq hv
    rw [exec_admission_of_frame cy hf, offerTo_of_noSysq cy hc hl hq hv]
  case disabled =>
    intro q cy f s hf hl
    rw [exec_admission_of_frame cy hf, offerTo_of_disabled cy hl]
  case granted =>
    rintro q f g x js s w t hf hc hl _ hv hs hb hp rfl ha ht hg
    rw [exec_admission_of_frame false hf, offerTo_of_ready false hc hl hv hs hb, admitQueue_of_granted hp ha ht hg]
  case carried =>
    rintro q cy f g x s w hf hc hl _ hv hs hb hp rfl ha ht
    rw [exec_admission_of_frame cy hf, offerTo_of_ready cy hc hl hv hs hb, admitQueue_of_carried hp ha ht]
  case failed =>
    rintro q cy f g x y s w hf hc hl _ hv hs hb rfl ht
    rw [exec_admission_of_frame cy hf, offerTo_of_ready cy hc hl hv hs hb, admitQueue_of_failed cy ht]

end Sys2Proof.Machine
end

section
/-!
PROOFS. The registers of the time base: rate words, the latched read, and a step that the L2 tables notice
(spec/02_time.md).
-/
namespace Sys2Proof.Machine

/-! ### Rate words (R60, R69, R71) -/

section
variable {s : State} {r : Req} {x : RateSel}

theorem exec_rateTbLoWrite (v : W32) (h : Admits s r (rateLoAddr x)) :
    exec (.rateTbLoWrite r x v) s = .next (rateLo r x v.toNat (firstWrite r s)) := congrArg done (gateWrite_admits _ h)

theorem exec_rateTbHiWrite (v : W32) (h : Admits s r (rateHiAddr x)) :
    exec (.rateTbHiWrite r x v) s = .next (rateHi r x v.toNat (firstWrite r s)) := congrArg done (gateWrite_admits _ h)

theorem rateLo_of_followed (v : Nat) (h : rateFollowed s x = true) :
    rateLo r x v s = errReq timePage 0x11 r (rateLoAddr x) v s := if_pos h

theorem rateLo_of_free (v : Nat) (h : rateFollowed s x = false) :
    rateLo r x v s = s.setH (.rateHeld (rateNo x)) (v + 1) := if_neg (Bool.not_eq_true _ ▸ h)

theorem rateHi_of_followed (v : Nat) (h : rateFollowed s x = true) :
    rateHi r x v s = errReq timePage 0x11 r (rateHiAddr x) v s := if_pos h

/-- While the time base follows a tracker, its own rate word is closed to software (R71). -/
theorem rateFollowed_tb (h : (followed s).isSome = true) : rateFollowed s .tb = true := h

/-- The low half that a write of the high half applies: the one held, or the one last applied (R60). -/
def lowHalf (s : State) (x : RateSel) : Nat :=
  if s.hn (.rateHeld (rateNo x)) = 0 then (s.h (rateHid x) + nominalRate).toNat % 2 ^ 32
  else s.hn (.rateHeld (rateNo x)) - 1

theorem rateHi_of_free (v : Nat) (h : rateFollowed s x = false) :
    rateHi r x v s = ((((s.setH (.rateHeld (rateNo x)) 0).setH (rateHid x)
      ((v * 2 ^ 32 + lowHalf s x : Nat) - nominalRate)).setReg (rateLoAddr x) (lowHalf s x)).setReg (rateHiAddr x) v) :=
  if_neg (Bool.not_eq_true _ ▸ h)

/-- The applied words and the held halves lie apart. -/
theorem rateHid_code_ne (x : RateSel) : (rateHid x).code ≠ (Hid.rateHeld (rateNo x)).code := by
  cases x <;> decide

/-- The first write of a core that took over leaves the rate words as they are. -/
theorem firstWrite_rate (hs : Sane s) :
    (firstWrite r s).h (rateHid x) = s.h (rateHid x) ∧
      (firstWrite r s).hn (.rateHeld (rateNo x)) = s.hn (.rateHeld (rateNo x)) := by
  have hword : (firstWrite r s).h (rateHid x) = s.h (rateHid x) :=
    firstWrite_h r _ (by cases x <;> decide) hs.hid
  have hheld : (firstWrite r s).h (.rateHeld (rateNo x)) = s.h (.rateHeld (rateNo x)) :=
    firstWrite_h r _ (by cases x <;> decide) hs.hid
  exact ⟨hword, congrArg Int.toNat hheld⟩

theorem firstWrite_lowHalf (hs : Sane s) : lowHalf (firstWrite r s) x = lowHalf s x := by
  obtain ⟨hword, hheld⟩ := firstWrite_rate (r := r) (x := x) hs
  simp only [lowHalf, hword, hheld]

/-- The high half leaves no half held, and both halves in the word applied. -/
theorem rateHi_applies (v : Nat) (hh : Smap.Canonical (fun _ => (0 : Int)) s.hid) (hf : rateFollowed s x = false) :
    (rateHi r x v s).h (.rateHeld (rateNo x)) = 0 ∧
      (rateHi r x v s).h (rateHid x) + nominalRate = (v * 2 ^ 32 + lowHalf s x : Nat) := by
  have hh' := State.hid_setH (.rateHeld (rateNo x)) 0 hh
  rw [rateHi_of_free v hf]
  simp only [State.h_setReg, State.h_setH _ _ _ hh', State.h_setH _ _ _ hh, if_neg (rateHid_code_ne x), if_true]
  exact ⟨trivial, Int.sub_add_cancel _ _⟩

end

/-- Settles O8: each half by whether the time base follows a tracker. -/
theorem rateWordHalves : Obligations.RateWordHalves := by
  unfold Obligations.RateWordHalves
  refine ⟨?held, ?applied, ?loRefused, ?hiRefused, fun r x v s h => exec_rateTbLoWrite v h,
    fun r x v s h => exec_rateTbHiWrite v h⟩
  case held =>
    intro r x v s h hf
    rw [exec_rateTbLoWrite v h, rateLo_of_free _ (by rwa [firstWrite_rateFollowed])]
  case applied =>
    intro r x v s hs h hf
    have hf' : rateFollowed (firstWrite r s) x = false := by rwa [firstWrite_rateFollowed]
    obtain ⟨hheld, hword⟩ := rateHi_applies (r := r) v.toNat (firstWrite_hid r hs.hid) hf'
    rw [firstWrite_lowHalf hs] at hword
    refine ⟨_, exec_rateTbHiWrite v h, ?_, hheld, hword⟩
    rw [rateHi_of_free _ hf', State.setReg_tb, State.setReg_tb, State.setH_tb, State.setH_tb, firstWrite_tb]
  case loRefused =>
    intro r v s hf h
    rw [exec_rateTbLoWrite (x := .tb) v h, rateLo_of_followed _ (rateFollowed_tb (by rwa [firstWrite_followed]))]
    rfl
  case hiRefused =>
    intro r v s hf h
    rw [exec_rateTbHiWrite (x := .tb) v h, rateHi_of_followed _ (rateFollowed_tb (by rwa [firstWrite_followed]))]
    rfl

/-! ### The latched read (R61) -/

/-- The copies of bank `b` of four time registers hold the time `t`. -/
def Latched (s : State) (b fr ns lo hi t : Nat) : Prop :=
  s.reg (bank b fr) = fracOf t ∧ s.reg (bank b ns) = nsOf t ∧ s.reg (bank b lo) = secOf t % 2 ^ 32 ∧
    s.reg (bank b hi) = secOf t / 2 ^ 32

theorem bank_ne_of_ne (b : Nat) {x y : Nat} (h : x ≠ y) : bank b x ≠ bank b y := fun e => h (Nat.add_left_cancel e)

/-- A time latched into other registers leaves the copies as they are. -/
theorem Latched.latchTime {s : State} {b fr ns lo hi t fr' ns' lo' hi' : Nat} (h : Latched s b fr ns lo hi t) (t' : Nat)
    (hs : Smap.Canonical regDefault s.regs) (hd : ∀ a ∈ [fr, ns, lo, hi], a ∉ [fr', ns', lo', hi']) :
    Latched (latchTime b fr' ns' lo' hi' t' s) b fr ns lo hi t := by
  have keep : ∀ a ∈ [fr, ns, lo, hi], (Machine.latchTime b fr' ns' lo' hi' t' s).reg (bank b a) = s.reg (bank b a) := by
    intro a ha
    have hne := hd a ha
    simp only [List.mem_cons, List.not_mem_nil, or_false, not_or] at hne
    obtain ⟨hfr, hns, hlo, hhi⟩ := hne
    exact latchTime_other t' hs (bank_ne_of_ne b (Ne.symm hfr)) (bank_ne_of_ne b (Ne.symm hns))
      (bank_ne_of_ne b (Ne.symm hlo)) (bank_ne_of_ne b (Ne.symm hhi))
  simpa only [Latched, keep fr (by simp), keep ns (by simp), keep lo (by simp), keep hi (by simp)] using h

section
variable (b fr ns lo hi t : Nat) (s : State)

@[simp] theorem latchTime_tb : (latchTime b fr ns lo hi t s).tb = s.tb := by simp only [latchTime, State.setReg_tb]
@[simp] theorem latchTime_trkA : (latchTime b fr ns lo hi t s).trkA = s.trkA := by simp only [latchTime, State.setReg_trkA]
@[simp] theorem latchTime_trkB : (latchTime b fr ns lo hi t s).trkB = s.trkB := by simp only [latchTime, State.setReg_trkB]
@[simp] theorem latchTime_out : (latchTime b fr ns lo hi t s).out = s.out := by simp only [latchTime, State.setReg_out]
@[simp] theorem latchTime_trk (x : Nat) : trk (latchTime b fr ns lo hi t s) x = trk s x := by
  simp only [trk, latchTime_trkA, latchTime_trkB]

end

/-- The state after a read of `TB_FRAC` with bank `b`: the time base and both trackers are latched. -/
def latchAll (b : Nat) (s : State) : State :=
  latchTime b (Reg.TIME.TRK_FRAC 1) (Reg.TIME.TRK_NS 1) (Reg.TIME.TRK_SEC_LO 1) (Reg.TIME.TRK_SEC_HI 1) (trk s 1)
    (latchTime b (Reg.TIME.TRK_FRAC 0) (Reg.TIME.TRK_NS 0) (Reg.TIME.TRK_SEC_LO 0) (Reg.TIME.TRK_SEC_HI 0) (trk s 0)
      (latchTime b Reg.TIME.TB_FRAC Reg.TIME.TB_NS Reg.TIME.TB_SEC_LO Reg.TIME.TB_SEC_HI s.tb s))

theorem readTbFrac_eq (r : Req) (s : State) : readTbFrac r s = (fracOf s.tb, latchAll (40 + reqNo r) s) := by
  simp only [readTbFrac, latchAll, forEach_cons, forEach_nil, latchTime_tb, latchTime_trk]

theorem latchAll_latched {s : State} (b : Nat) (hs : Smap.Canonical regDefault s.regs) :
    Latched (latchAll b s) b Reg.TIME.TB_FRAC Reg.TIME.TB_NS Reg.TIME.TB_SEC_LO Reg.TIME.TB_SEC_HI s.tb ∧
      ∀ x, x < 2 → Latched (latchAll b s) b (Reg.TIME.TRK_FRAC x) (Reg.TIME.TRK_NS x) (Reg.TIME.TRK_SEC_LO x)
        (Reg.TIME.TRK_SEC_HI x) (trk s x) := by
  have htb := latchTime_regs b Reg.TIME.TB_FRAC Reg.TIME.TB_NS Reg.TIME.TB_SEC_LO Reg.TIME.TB_SEC_HI s.tb hs
  have htrk := latchTime_regs b (Reg.TIME.TRK_FRAC 0) (Reg.TIME.TRK_NS 0) (Reg.TIME.TRK_SEC_LO 0) (Reg.TIME.TRK_SEC_HI 0)
    (trk s 0) htb
  refine ⟨?timeBase, fun x hx => ?trackers⟩
  case timeBase =>
    have h : Latched _ b Reg.TIME.TB_FRAC Reg.TIME.TB_NS Reg.TIME.TB_SEC_LO Reg.TIME.TB_SEC_HI s.tb :=
      latchTime_holds s.tb hs (by decide)
    exact (h.latchTime _ htb (by decide)).latchTime _ htrk (by decide)
  case trackers =>
    obtain rfl | rfl : x = 0 ∨ x = 1 := by omega
    · have h : Latched _ b (Reg.TIME.TRK_FRAC 0) (Reg.TIME.TRK_NS 0) (Reg.TIME.TRK_SEC_LO 0) (Reg.TIME.TRK_SEC_HI 0)
        (trk s 0) := latchTime_holds (trk s 0) htb (by decide)
      exact h.latchTime _ htrk (by decide)
    · exact latchTime_holds (trk s 1) htrk (by decide)

/-- Settles O9: an admitted read latches three times, each into registers of its own. -/
theorem timeBaseRead : Obligations.TimeBaseRead := by
  unfold Obligations.TimeBaseRead
  refine ⟨fun r s hs h => ?_, fun r s => rfl⟩
  have hexec : exec (.tbFracRead r) s =
      .next ((latchAll (40 + reqNo r) s).emit (.readData r Reg.TIME.TB_FRAC (fracOf s.tb))) := by
    refine congrArg done ((readFor_admits _ h).trans ?_)
    rw [readTbFrac_eq]
  obtain ⟨⟨-, hns, hlo, hhi⟩, htrk⟩ := latchAll_latched (40 + reqNo r) hs.regs
  refine ⟨_, hexec, ?_⟩
  simp only [State.emit_out, State.reg_emit, State.emit_tb, State.emit_trkA, State.emit_trkB, latchAll, latchTime_tb,
    latchTime_trkA, latchTime_trkB, latchTime_out] at hns hlo hhi htrk ⊢
  exact ⟨trivial, hns, hlo, hhi, htrk, trivial, trivial, trivial⟩

/-! ### A step of the time base with the L2 tables running (R65, R254) -/

theorem exec_stepCmd {s : State} {r : Req} (v : W32) (h : Admits s r Reg.TIME.STEP_CMD) :
    exec (.stepCmd r v) s = .next (stepCmd r v.toNat (firstWrite r s)) := congrArg done (gateWrite_admits _ h)

/-- The time base at 0 s in FREE_RUN, a step of 1 s prepared, and the L2 block running. -/
def l2AtStep : State := (up [1, 0xC4]).setReg Reg.TIME.STEP_SEC 1

/-- Refutes O10: a step onto a whole multiple of 100 ms also advances the move tick of a running L2 block (R254), where
the statement of STEP_CMD leaves it as it was. -/
theorem not_timeControlAndSteps : ¬ Obligations.TimeControlAndSteps := by
  unfold Obligations.TimeControlAndSteps
  rintro ⟨-, -, -, -, hstep, -⟩
  have hadm : Admits l2AtStep .JTAG Reg.TIME.STEP_CMD := by decide +kernel
  have hexec := hstep .JTAG 1 l2AtStep (sane_of (by decide +kernel)) hadm (by decide) (by decide +kernel)
    (by decide +kernel) (by decide +kernel) (by decide +kernel)
  rw [exec_stepCmd 1 hadm] at hexec
  have hmove := congrArg (State.h · .moveNow) (Host.Outcome.next.inj hexec)
  exact absurd hmove (by decide +kernel)

end Sys2Proof.Machine
end

section
/-!
PROOFS. The PPS, time-of-day and frequency inputs and outputs (R93 to R101, spec/02_time.md).
-/
namespace Sys2Proof.Machine

/-! ### The commands -/

section
variable {s : State} (h : s.live timePage = true)
include h

theorem exec_ppsInEdge (i : Fin 2) (dt : Fin 18) : exec (.ppsInEdge i dt) s = .next (ppsEdge i dt s) :=
  congrArg done (s.ifLive_pos _ h)

theorem exec_ppsLoss (i : Fin 2) :
    exec (.ppsLoss i) s = .next (if s.rbit (Reg.TIME.PPS_IN_CFG i) 31 = true
      then ppsLoss i (waitSince timePage (.ppsSince i) (cycUs 1200000) s) else s) :=
  congrArg done (s.ifLive_pos _ h)

theorem exec_todRxMessage (msg : List Byte) (framing : Bool) :
    exec (.todRxMessage msg framing) s = .next (todRx msg framing s) := congrArg done (s.ifLive_pos _ h)

theorem exec_todLoss : exec .todLoss s = .next (todLoss (waitSince timePage .todSince (cycUs 2000000) s)) :=
  congrArg done (s.ifLive_pos _ h)

theorem exec_freqEdge (dt : Fin 18) : exec (.freqEdge dt) s = .next (freqEdge dt s) := congrArg done (s.ifLive_pos _ h)

theorem exec_freqLoss : exec .freqLoss s = .next (freqLoss s) := congrArg done (s.ifLive_pos _ h)

theorem exec_ppsOutEdge (i : Fin 2) : exec (.ppsOutEdge i) s = .next (ppsOutEdge i s) :=
  congrArg done (s.ifLive_pos _ h)

theorem exec_ppsPulseEnd (i : Fin 2) : exec (.ppsPulseEnd i) s = .next (ppsPulseEnd i s) :=
  congrArg done (s.ifLive_pos _ h)

theorem exec_todTxStart : exec .todTxStart s = .next (todSend s) := congrArg done (s.ifLive_pos _ h)

end

theorem exec_ppsRearm {s : State} {r : Req} {i : Fin 2} (v : W32) (h : Admits s r (Reg.TIME.PPS_IN_REARM i)) :
    exec (.ppsRearm r i v) s = .next (ppsRearm i v.toNat (firstWrite r s)) := congrArg done (gateWrite_admits _ h)

/-! ### The inputs (R93 to R95, R99, R101) -/

section
variable {s : State} {i dt : Nat} (he : s.rbit (Reg.TIME.PPS_IN_CFG i) 31 = true)
  (hq : s.rbit (Reg.TIME.PPS_IN_STS i) 1 = false)
include he hq

/-- An edge of an enabled input outside quarantine is accepted unless it comes before the least interval. -/
theorem ppsEdge_of_active : ppsEdge i dt s =
    if s.hn (.ppsLast i) ≠ 0 ∧ stamp s dt + 1 < s.hn (.ppsLast i) + s.rfld (Reg.TIME.PPS_IN_CFG i) 0 11 * 1000000 * 16
    then ppsFastEdge i (stamp s dt) s else ppsAccept i (stamp s dt) s := by
  simp only [ppsEdge, he, hq, Bool.true_eq_false, Bool.false_eq_true, or_self, if_false]

theorem ppsEdge_of_accepted (ht : s.hn (.ppsLast i) = 0 ∨
      s.hn (.ppsLast i) + s.rfld (Reg.TIME.PPS_IN_CFG i) 0 11 * 1000000 * 16 ≤ stamp s dt + 1) :
    ppsEdge i dt s = ppsAccept i (stamp s dt) s := by
  rw [ppsEdge_of_active he hq, if_neg (by omega)]

theorem ppsEdge_of_fast (hn : s.hn (.ppsLast i) ≠ 0)
    (ht : stamp s dt + 1 < s.hn (.ppsLast i) + s.rfld (Reg.TIME.PPS_IN_CFG i) 0 11 * 1000000 * 16) :
    ppsEdge i dt s = ppsFastEdge i (stamp s dt) s := by
  rw [ppsEdge_of_active he hq, if_pos ⟨hn, ht⟩]

end

/-- The loss of an enabled input is reported once. -/
theorem ppsLoss_of_first {s : State} {i : Nat} (he : s.rbit (Reg.TIME.PPS_IN_CFG i) 31 = true)
    (hn : s.rbit (Reg.TIME.PPS_IN_STS i) 0 = false) :
    ppsLoss i s = raise timePage (9 + i) (s.setRbit (Reg.TIME.PPS_IN_STS i) 0 true) := if_pos ⟨he, hn⟩

theorem ppsRearm_of_set {v : Nat} (i : Nat) (s : State) (h : bit v 0 = true) :
    ppsRearm i v s =
      forEach [0, 1, 2, 3, 4] (s.setRbit (Reg.TIME.PPS_IN_STS i) 1 false) fun k t => t.setH (.ppsFast i k) 0 := if_pos h

theorem todRx_of_invalid {msg : List Byte} {framing : Bool} (s : State) (h : todValid msg framing = false) :
    todRx msg framing s = bump Reg.TIME.TOD_BAD_CNT s := by
  simp only [todRx, h, Bool.false_eq_true, if_false]

/-- The loss of the edges is reported once, at the end of its 10 µs. -/
theorem freqLoss_of_due {s : State} (he : s.rbit Reg.TIME.FREQ_CFG 31 = true) (hn : s.hn .freqSince ≠ 0) :
    freqLoss s = raise timePage 14 ((waitRoot (s.hn .freqSince - 1 + cycUs 10) s).setH .freqSince 0) := if_pos ⟨he, hn⟩

/-! ### The outputs (R96 to R98) -/

theorem ppsLevel_root (i : Nat) (on : Bool) (s : State) : (ppsLevel i on s).root = s.root := by
  unfold ppsLevel
  split <;> rfl

/-- An output with no edge to come stays as it is. -/
theorem ppsOutEdge_of_none {s : State} {i : Nat} (h : s.hn (.ppsNext i) = 0) : ppsOutEdge i s = s := if_pos h

/-- The edge at count `t` of the output's source, once its source has come that far. -/
theorem ppsOutEdge_of_reached {s : State} {i t : Nat} (hn : s.hn (.ppsNext i) = t + 1)
    (ht : t ≤ srcTime (advanceSrcTo (s.rfld (Reg.TIME.PPS_OUT_CFG i) 0 2) t (ppsPulseEnd i s))
      (s.rfld (Reg.TIME.PPS_OUT_CFG i) 0 2)) :
    ppsOutEdge i s =
      ppsRise i (ppsArm i (advanceSrcTo (s.rfld (Reg.TIME.PPS_OUT_CFG i) 0 2) t (ppsPulseEnd i s))) := by
  simp only [ppsOutEdge, hn, Nat.add_one_ne_zero, Nat.add_sub_cancel, if_false, if_neg (Nat.not_lt.2 ht)]

theorem ppsLevel_of_low {s : State} {i : Nat} (h : s.hb (.ppsOut i) = true) :
    ppsLevel i false s = (s.setHb (.ppsOut i) false).emit (.pps i false) := if_neg (by rw [h]; decide)

/-- A pulse ends after its width. -/
theorem ppsPulseEnd_of_high {s : State} {i : Nat} (h : s.hb (.ppsOut i) = true)
    (hu : (waitRoot (s.hn (.ppsRise i) + cycUs (s.reg (Reg.TIME.PPS_OUT_WIDTH i))) s).hb (.ppsOut i) = true) :
    ppsPulseEnd i s = ((waitRoot (s.hn (.ppsRise i) + cycUs (s.reg (Reg.TIME.PPS_OUT_WIDTH i))) s).setHb (.ppsOut i)
      false).emit (.pps i false) :=
  (if_pos h).trans (ppsLevel_of_low hu)

theorem todSend_of_none {s : State} (h : s.hn .todDue = 0) : todSend s = s := if_pos h

/-- The message that is due at cycle `due` is decided at that cycle. -/
theorem todSend_of_due {s : State} {due : Nat} (h : s.hn .todDue = due + 1) :
    todSend s =
      let u := (waitRoot due s).setH .todDue 0
      if u.hn (.ppsNext 0) = 0 ∨ squelched u 0 = true then u
      else u.emit (.tod (todMessage u (u.hn (.ppsNext 0) - 1))) := by
  simp only [todSend, h, Nat.add_one_ne_zero, Nat.add_sub_cancel, if_false]

/-- Settles O12: each input and output by the conditions of its rule. -/
theorem timeInputsAndOutputs : Obligations.TimeInputsAndOutputs := by
  unfold Obligations.TimeInputsAndOutputs
  refine ⟨?accepted, ?fast, ?ppsLost, ?rearmed, ?todValid, ?todInvalid, ?todLost, ?freqEdge, ?freqLost,
    fun i s h => exec_ppsLoss h i, fun r i v s h => exec_ppsRearm v h, fun i dt s h => exec_ppsInEdge h i dt,
    fun msg fr s h => exec_todRxMessage h msg fr, fun dt s h => exec_freqEdge h dt, fun s h => exec_freqLoss h,
    fun s h => exec_todLoss h, ?outEdge, ?noEdge, ?rise, ?pulseEnd, ?todDue, ?todNone,
    fun i s h => exec_ppsOutEdge h i, fun i s h => exec_ppsPulseEnd h i, fun s h => exec_todTxStart h⟩
  case accepted =>
    intro i dt s h he hq ht
    rw [exec_ppsInEdge h, ppsEdge_of_accepted he hq ht]
    simp only [ppsAccept, Nat.cast_add, Nat.cast_one]
  case fast =>
    intro i dt s h he hq hn ht
    rw [exec_ppsInEdge h, ppsEdge_of_fast he hq hn ht]
  case ppsLost =>
    rintro i s u h he rfl he' hn
    rw [exec_ppsLoss h, if_pos he, ppsLoss_of_first he' hn]
  case rearmed =>
    intro r i v s h hb
    rw [exec_ppsRearm v h, ppsRearm_of_set i _ hb]
  case todValid =>
    intro msg fr s h hv
    rw [exec_todRxMessage h]
    simp only [todRx, hv, if_true]
  case todInvalid =>
    intro msg fr s h hv
    rw [exec_todRxMessage h, todRx_of_invalid s hv]
  case todLost =>
    rintro s u h rfl
    exact exec_todLoss h
  case freqEdge =>
    intro dt s h he
    rw [exec_freqEdge h]
    simp only [Machine.freqEdge, he, if_true, Nat.cast_add, Nat.cast_one]
  case freqLost =>
    intro s h he hn
    rw [exec_freqLoss h, freqLoss_of_due he hn]
  case outEdge =>
    rintro i t s u h hn rfl ht
    rw [exec_ppsOutEdge h, ppsOutEdge_of_reached hn ht]
  case noEdge =>
    intro i s h hn
    rw [exec_ppsOutEdge h, ppsOutEdge_of_none hn]
  case rise =>
    intro i s
    simp only [ppsRise, State.setH_root, ppsLevel_root]
    rfl
  case pulseEnd =>
    rintro i s u h ho rfl hu
    rw [exec_ppsPulseEnd h, ppsPulseEnd_of_high ho hu]
  case todDue =>
    rintro due s u h hd rfl
    rw [exec_todTxStart h, todSend_of_due hd]
  case todNone =>
    intro s h hn
    rw [exec_todTxStart h, todSend_of_none hn]

end Sys2Proof.Machine
end

section
/-!
PROOFS. The timed launch and its window schedules (R84 to R92, R105, spec/02_time.md).
-/
namespace Sys2Proof.Machine

/-! ### The commands -/

/-- An event that needs the time base and a live TIME page. -/
theorem State.when_timed {s : State} (f : State → State) (hr : s.timeRuns = true) (hl : s.live timePage = true) :
    s.when (s.timeRuns && s.live timePage) f = f s := s.when_pos f (by rw [hr, hl]; rfl)

/-- An event with nothing to do leaves the state, whether its condition holds or not. -/
theorem State.when_of_fixed {f : State → State} (s : State) (c : Bool) (h : f s = s) : s.when c f = s := by
  simp only [State.when, h, ite_self]

section
variable {s : State} (hr : s.timeRuns = true) (hl : s.live timePage = true)
include hr hl

theorem exec_launchStageEntry (n : Fin 128) : exec (.launchStageEntry n) s = .next (launchEntry n s) :=
  congrArg done (State.when_timed _ hr hl)

theorem exec_timedFrameStart (n : Fin 128) (dt : Fin 18) :
    exec (.timedFrameStart n dt) s = .next (timedStartNext n dt s) := congrArg done (State.when_timed _ hr hl)

theorem exec_launchDeadline (n : Fin 128) : exec (.launchDeadline n) s = .next (launchDeadline n s) :=
  congrArg done (State.when_timed _ hr hl)

theorem exec_windowPeriodBoundary (n : Fin 128) :
    exec (.windowPeriodBoundary n) s = .next (windowBoundary n s) := congrArg done (State.when_timed _ hr hl)

end

theorem exec_windowCommit {s : State} {r : Req} {n : Fin 128} (v : W32)
    (h : Admits s r (Reg.TIME.TSU_WIN_COMMIT n)) :
    exec (.windowCommit r n v) s = .next (winCommit r n v.toNat (firstWrite r s)) := congrArg done (gateWrite_admits _ h)

/-! ### The entry of the launch stage (R85, R86) -/

section
variable {s : State} {n l : Nat} {f : Frame}
  (hf : (s.allAt (.mac n)).find? (fun f => f.launch.isSome && !f.started) = some f) (hlaunch : f.launch = some l)
include hf hlaunch

/-- The first timed frame at a port, by its deadline, its range, its lead time and the room of the stage. -/
theorem launchEntry_of_timed : launchEntry n s =
    if deadline s n l < now16 s then dropLate n f s
    else if now16 s + 32000000000 < launchAt s l then (bump (Reg.TIME.RANGE_DROP n) s).drop f
    else if now16 s < launchAt s l - s.reg (Reg.TIME.TSU_TL_LEAD n) * 16 then s
    else if 32 ≤ (s.allAt (.launch n)).length then s
    else (s.setH .tlOrder (s.hn .tlOrder + 1 : Nat)).moveFrame { f with lorder := s.hn .tlOrder } (.launch n) := by
  simp only [launchEntry, hf, hlaunch, Option.getD_some]

theorem launchEntry_of_late (hd : deadline s n l < now16 s) : launchEntry n s = dropLate n f s := by
  rw [launchEntry_of_timed hf hlaunch, if_pos hd]

theorem launchEntry_of_outOfRange (hd : now16 s ≤ deadline s n l) (hfar : now16 s + 32000000000 < launchAt s l) :
    launchEntry n s = (bump (Reg.TIME.RANGE_DROP n) s).drop f := by
  rw [launchEntry_of_timed hf hlaunch, if_neg (Int.not_lt.2 hd), if_pos hfar]

theorem launchEntry_of_inLead (hd : now16 s ≤ deadline s n l) (hnear : launchAt s l ≤ now16 s + 32000000000)
    (hlead : launchAt s l - s.reg (Reg.TIME.TSU_TL_LEAD n) * 16 ≤ now16 s) (hroom : (s.allAt (.launch n)).length < 32) :
    launchEntry n s =
      (s.setH .tlOrder (s.hn .tlOrder + 1 : Nat)).moveFrame { f with lorder := s.hn .tlOrder } (.launch n) := by
  rw [launchEntry_of_timed hf hlaunch, if_neg (Int.not_lt.2 hd), if_neg (Int.not_lt.2 hnear),
    if_neg (Int.not_lt.2 hlead), if_neg (Nat.not_le.2 hroom)]

end

/-! ### The start of a timed frame and the deadlines (R85, R88, R90) -/

theorem timedStartNext_of_inTx {s : State} {n : Nat} (dt : Nat) (h : (inTx s n).isSome = true) :
    timedStartNext n dt s = s := if_pos h

/-- The first held frame whose class is not paused starts at its instant, if its deadline permits. -/
theorem timedStartNext_of_start {s : State} {n l : Nat} {f g : Frame} {t : Int} (dt : Nat) (hi : inTx s n = none)
    (hf : (launchOrder s n).find? (fun f => !s.hb (.paused n (pauseClass s f))) = some f) (hlaunch : f.launch = some l)
    (ht : timedStart (deferHeld n (readyAt s n l) s) n l f.len = some t)
    (hg : (deferHeld n (readyAt s n l) s).frame f.id = some g)
    (hd : t ≤ deadline (deferHeld n (readyAt s n l) s) n l) :
    timedStartNext n dt s =
      let w := waitPlane n t (deferHeld n (readyAt s n l) s)
      fcBoundary n (txOne n (launchDt w n dt t) g w) := by
  simp only [timedStartNext, hi, hf, hlaunch, ht, hg, Option.isSome_none, Option.getD_some, Bool.false_eq_true, if_false,
    if_neg (Int.not_lt.2 hd)]

/-- The earliest deadline among the held frames passes. -/
theorem launchDeadline_of_held {s : State} {n : Nat} {d : Int} {ds : List Int}
    (h : ((s.allAt (.launch n)).map fun f => deadline s n (f.launch.getD 0)) = d :: ds) :
    launchDeadline n s =
      let u := advanceTo ((ds.foldl min d).toNat * 2 ^ 44) (deferHeld n (ds.foldl min d) s)
      forEach ((u.allAt (.launch n)).filter fun f => deadline u n (f.launch.getD 0) ≤ now16 u) u (dropLate n) := by
  simp only [launchDeadline, h]

/-- A late frame that neither the host nor the frame engine sent. -/
theorem dropLate_of_forwarded {f : Frame} (n : Nat) (s : State) (hr : f.ring = 0) (hp : f.pfe = 0) :
    dropLate n f s =
      (if s.live timePage = true then raise timePage 16 (bump (Reg.TIME.LATE_DROP n) s) else s).drop f := by
  simp only [dropLate, hr, hp, if_true, State.ifLive]

/-! ### The window schedules (R87, R91, R105) -/

@[simp] theorem firstWrite_winValid (r : Req) (s : State) (n : Nat) : winValid (firstWrite r s) n = winValid s n := by
  simp only [winValid, firstWrite_reg, firstWrite_tab]

theorem winCommit_of_invalid {s : State} {n v : Nat} (r : Req) (hb : bit v 0 = true) (hv : winValid s n = false) :
    winCommit r n v s = errReq timePage 0x14 r (Reg.TIME.TSU_WIN_COMMIT n) v s := by
  simp only [winCommit, hb, hv, Bool.not_true, Bool.not_false, Bool.false_eq_true, if_false, if_true, timeErr]

/-- A valid schedule takes effect at once where no other one is in force, else it waits for the boundary. -/
theorem winCommit_of_valid {s : State} {n v : Nat} (r : Req) (hb : bit v 0 = true) (hv : winValid s n = true) :
    winCommit r n v s =
      if s.rbit (Reg.TIME.TSU_TS_CTL n) 2 = false ∨ winForce s n = []
      then winArm n (((winCopy n 0 62 1 2 s).setHb (.winIn n) true).setHb (.winNext n) false)
      else (winCopy n 0 63 1 3 s).setHb (.winNext n) true := by
  simp only [winCommit, hb, hv, Bool.not_true, Bool.false_eq_true, if_false, Bool.or_eq_true, Bool.not_eq_true',
    List.isEmpty_iff]

theorem windowBoundary_of_none {s : State} {n : Nat} (h : s.hb (.winIn n) = false) : windowBoundary n s = s := by
  simp only [windowBoundary, h, Bool.not_false, Bool.true_or, if_true]

/-- The boundary at instant `b`, once the time base has come that far. -/
theorem windowBoundary_of_reached {s : State} {n : Nat} {b : Int} (hin : s.hb (.winIn n) = true)
    (hat : s.h (.winAt n) = b + 1) (hb : 0 ≤ b) (hu : b ≤ now16 (advanceTo (b.toNat * 2 ^ 44) s)) :
    windowBoundary n s =
      let u := advanceTo (b.toNat * 2 ^ 44) s
      let w := forEach (u.frames.filter (timedBefore u n (now16 u - (winPos u n (now16 u) : Nat)))) u (boundaryDrop n)
      winArm n (if w.hb (.winNext n) = true then (winCopy n 63 62 3 2 w).setHb (.winNext n) false else w) := by
  simp only [windowBoundary, hin, hat, Int.add_sub_cancel, Bool.not_true, Bool.false_or, decide_eq_true_eq,
    if_neg (Int.not_lt.2 hb), if_neg (Int.not_lt.2 hu)]

/-- Settles O17: the entry, the start, the deadlines, the commit and the boundary, each by the cases of its rule. -/
theorem timedLaunch : Obligations.TimedLaunch := by
  unfold Obligations.TimedLaunch
  refine ⟨?enters, ?late, ?outOfRange, ?starts, ?busy, ?deadline, fun n f s hr hp => dropLate_of_forwarded n s hr hp,
    ?invalid, ?valid, ?boundary, fun n s hr hl => exec_launchStageEntry hr hl n,
    fun n dt s hr hl => exec_timedFrameStart hr hl n dt, fun n s hr hl => exec_launchDeadline hr hl n,
    fun n s hr hl => exec_windowPeriodBoundary hr hl n, fun r n v s h => exec_windowCommit v h, ?noSchedule⟩
  case enters =>
    intro n f l s hr hl hf hlaunch hd hnear hlead hroom
    rw [exec_launchStageEntry hr hl, launchEntry_of_inLead hf hlaunch hd hnear hlead hroom]
  case late =>
    intro n f l s hr hl hf hlaunch hd
    rw [exec_launchStageEntry hr hl, launchEntry_of_late hf hlaunch hd]
  case outOfRange =>
    intro n f l s hr hl hf hlaunch hd hfar
    rw [exec_launchStageEntry hr hl, launchEntry_of_outOfRange hf hlaunch hd hfar]
  case starts =>
    rintro n dt f g l t s u w hr hl hi hf hlaunch rfl ht hg hd rfl
    rw [exec_timedFrameStart hr hl, timedStartNext_of_start dt hi hf hlaunch ht hg hd]
  case busy =>
    intro n dt s h
    exact congrArg done (s.when_of_fixed _ (timedStartNext_of_inTx dt h))
  case deadline =>
    rintro n d ds s u hr hl h rfl
    rw [exec_launchDeadline hr hl, launchDeadline_of_held h]
  case invalid =>
    intro r n v s h hb hv
    rw [exec_windowCommit v h, winCommit_of_invalid r hb (by rwa [firstWrite_winValid])]
  case valid =>
    intro r n v s h hb hv
    rw [exec_windowCommit v h, winCommit_of_valid r hb (by rwa [firstWrite_winValid])]
  case boundary =>
    rintro n b s u hr hl hin hat hb rfl hu
    rw [exec_windowPeriodBoundary hr hl, windowBoundary_of_reached hin hat hb hu]
  case noSchedule =>
    intro n s h
    exact congrArg done (s.when_of_fixed _ (windowBoundary_of_none h))

end Sys2Proof.Machine
end

section
/-!
PROOFS. What the statements of reception and transmission leave out: the receive timestamp that a start of frame keeps for
the bandwidth window (R75, R568), and the buffer cells that the bytes of a complete frame still lack (R119, R329).
-/
namespace Sys2Proof.Machine

/-- Line port 0 in UP, with its timestamps on. -/
def portUp : State :=
  State.regsSet [(Reg.LG.ACT_LO 0, 1), (Reg.LPORT.MAC_CFG 0, 0x18000 + 1518), (Reg.LPORT.LINK_STS 0, 5),
    (Reg.TIME.TSU_TS_CTL 0, 1)] (up [1, 0x10, 0x90])

theorem exec_startOfFrameRx {n : Fin 128} {s : State} (dt : Fin 18) (h : loopback s n ≠ 1) :
    exec (.startOfFrameRx n dt) s = .next (rxStart n dt s) := congrArg done (s.when_pos _ (bne_iff_ne.2 h))

/-- Refutes O15: a start of frame also keeps its receive timestamp for the bandwidth window of the port (R568), where the
statement leaves the number that was there before, here 0. -/
theorem not_reception : ¬ Obligations.Reception := by
  unfold Obligations.Reception
  rintro ⟨hstart, -⟩
  have hloop : loopback portUp 0 ≠ 1 := by decide +kernel
  have hexec := hstart 0 3 portUp hloop (by decide +kernel) (by decide +kernel) (by decide +kernel) (by decide +kernel)
    (by decide +kernel)
  rw [exec_startOfFrameRx (n := 0) 3 hloop] at hexec
  have hts := congrArg (State.h · (.rxTs 0)) (Host.Outcome.next.inj hexec)
  exact absurd hts (by decide +kernel)

/-- A good frame of 304 bytes, received whole, of which one of two buffer cells has been taken. -/
def lackingFrame : Frame := { id := 1, loc := .mac 0, bytes := List.replicate 300 7, ncell := 1 }

/-- It waits alone at the port. -/
def lackingAtPort : State := { portUp with frames := [lackingFrame] }

theorem fcBoundary_of_notDue {s : State} {n : Nat} (h : s.hb (.fcPend n) = false) : fcBoundary n s = s := by
  simp only [fcBoundary, h, Bool.not_false, Bool.true_or, if_true]

/-- With no flow-control frame due and no guard in the way, the next frame of the port has its turn. -/
theorem exec_frameTx_of_clear {n : Fin 128} {f : Frame} {s : State} (dt : Fin 18) (hc : s.clocked (lportPage n) = true)
    (hp : s.hb (.fcPend n) = false) (hf : txNext s n = some f) (hg : guardHolds s n f.len (idleAt s n) = false) :
    exec (.frameTx n dt) s = .next (fcBoundary n (txOne n dt f s)) := by
  refine congrArg done ((s.when_pos _ hc).trans ?_)
  simp only [fcBoundary_of_notDue hp, hf, hg, Bool.and_false, Bool.false_eq_true, if_false]

/-- Refutes O16: a frame whose last bytes still wait for a buffer cell starts, and its end is not sent before the cell is
taken (R119, R329), so that the frame is still at the port. -/
theorem not_transmission : ¬ Obligations.Transmission := by
  unfold Obligations.Transmission
  rintro ⟨-, -, -, hsent, -⟩
  have hp : lackingAtPort.hb (.fcPend 0) = false := by decide +kernel
  have hf : txNext lackingAtPort 0 = some lackingFrame := by decide +kernel
  have hg : guardHolds lackingAtPort 0 lackingFrame.len (idleAt lackingAtPort 0) = false := by decide +kernel
  obtain ⟨t, o, hexec, -, -, hnone⟩ := hsent 0 1 lackingFrame lackingAtPort (sane_of (by decide +kernel))
    (by decide +kernel) hf rfl rfl hp (by decide +kernel) (by decide +kernel) hg rfl rfl rfl rfl rfl rfl rfl rfl
    (by decide +kernel) (by decide +kernel) (by decide +kernel) (by decide +kernel)
  rw [exec_frameTx_of_clear (n := 0) 1 (by decide +kernel) hp hf hg] at hexec
  rw [← Host.Outcome.next.inj hexec] at hnone
  exact absurd hnone (by decide +kernel)

end Sys2Proof.Machine
end

section
/-!
PROOFS. Bring-up and faults of a line link (R127 to R131), and what the statement of the port settings leaves out: the remote
fault that a write of `MAC_CFG` starts or stops (R127, R160).
-/
namespace Sys2Proof.Machine

theorem State.when_neg {s : State} {c : Bool} (f : State → State) (h : c = false) : s.when c f = s := by
  simp [State.when, h]

/-! ### Signal and alignment (R127, R131) -/

theorem signalDetect_eq (n : Nat) (s : State) :
    signalDetect n s =
      let u := forEach (List.range (portLanes s n)) s fun k w =>
        if w.rbit (Reg.LPORT.LINK_STS n) (16 + k) = true then w else w.setH (.laneLockAt (n + k)) (w.root : Nat)
      let u := u.setRfld (Reg.LPORT.LINK_STS n) 16 8 (2 ^ portLanes u n - 1)
      if linkRuns u n = true ∧ linkState u n = 1 then setLink n 2 u else u := by
  simp only [signalDetect, Bool.and_eq_true, beq_iff_eq]

theorem exec_signalDetect {n : Fin 128} {s : State} (hc : s.clocked (lportPage n) = true) :
    exec (.signalDetect n) s = .next (signalDetect n s) := congrArg done (s.when_pos _ hc)

theorem exec_alignmentLock {n : Fin 128} {s : State} (hr : linkRuns s n = true)
    (hst : (linkState s n == 2 || (linkState s n == 1 && loopback s n == 1)) = true) :
    exec (.alignmentLock n) s = .next (setLink n 3 s) :=
  congrArg done (s.when_pos _ (by rw [hr, hst]; rfl))

/-- A port in neither LOCK nor the looped SIGNAL does not look for alignment. -/
theorem exec_alignmentLock_ignored {n : Fin 128} {s : State} (h2 : linkState s n ≠ 2)
    (h1 : linkState s n ≠ 1 ∨ loopback s n ≠ 1) : exec (.alignmentLock n) s = .next s := by
  have hst : (linkState s n == 2 || (linkState s n == 1 && loopback s n == 1)) = false := by
    simpa [h2, imp_iff_not_or] using h1
  exact congrArg done (State.when_neg _ (by rw [hst, Bool.and_false]))

theorem exec_alignmentLoss {n : Fin 128} {s : State} (hr : linkRuns s n = true) (hst : 4 ≤ linkState s n) :
    exec (.alignmentLoss n) s = .next (setLink n 2 s) :=
  congrArg done (s.when_pos _ (by simp [hr, hst]))

/-- The loss of a lane returns a live port to SIGNAL that is neither DISABLED nor looped back at its PCS. -/
theorem signalLoss_of_line {n k : Nat} {s u : State}
    (hu : lockChange (fun w => w.setRbit (Reg.LPORT.LINK_STS n) (16 + k) false) s = u)
    (hlive : u.live (lportPage n) = true) (hst : linkState u n ≠ 0) (hl : loopback u n ≠ 1) :
    signalLoss n k s = setLink n 1 u := by
  simp only [signalLoss, hu, hlive, hst, hl, Bool.not_true, Bool.false_eq_true, or_self, if_false]

/-! ### Deskew (R129) -/

/-- The greatest of a list of skews is within a bound if each of them is. -/
theorem foldl_max_le_iff (b : Nat) (l : List Nat) (a : Nat) : l.foldl max a ≤ b ↔ a ≤ b ∧ ∀ x ∈ l, x ≤ b := by
  induction l generalizing a with
  | nil => simp
  | cons x l ih => simp [ih, and_assoc]

/-- The measured skews stand in the registers of the lanes of port `n`. -/
def skewsStored (n : Nat) (sk : List Nat) (s : State) : State :=
  forEach (List.range (portLanes s n)) s fun i t => t.setReg (Reg.LPORT.LANE_SKEW n i) ((sk.drop i).headD 0)

/-- The measurement of a port that is not looped back at its PCS, with one skew for each lane. -/
theorem deskewMeasured_of_line {n : Nat} {sk : List Nat} {s : State} (hl : loopback s n ≠ 1)
    (hk : portLanes s n = sk.length) :
    deskewMeasured n sk s =
      if sk.foldl max 0 ≤ 2880 then
        setLink n 4 ((skewsStored n sk s).setH (.deskew n) (sk.foldl max 0 - sk.headD 0 : Nat))
      else raise (lportPage n) 2 (setLink n 2 (skewsStored n sk s)) := by
  have htake : (sk ++ List.replicate sk.length 0).take sk.length = sk := List.take_left
  simp only [deskewMeasured, skewsStored, hl, hk, htake, if_false]

theorem deskewMeasured_within {n : Nat} {sk : List Nat} {s : State} (hl : loopback s n ≠ 1)
    (hk : portLanes s n = sk.length) (hmax : ∀ x ∈ sk, x ≤ 2880) :
    deskewMeasured n sk s =
      setLink n 4 ((skewsStored n sk s).setH (.deskew n) (sk.foldl max 0 - sk.headD 0 : Nat)) := by
  rw [deskewMeasured_of_line hl hk, if_pos ((foldl_max_le_iff 2880 sk 0).2 ⟨Nat.zero_le _, hmax⟩)]

theorem deskewMeasured_beyond {n : Nat} {sk : List Nat} {s : State} (hl : loopback s n ≠ 1)
    (hk : portLanes s n = sk.length) (hmax : ∃ x ∈ sk, 2880 < x) :
    deskewMeasured n sk s = raise (lportPage n) 2 (setLink n 2 (skewsStored n sk s)) := by
  obtain ⟨x, hx, hlt⟩ := hmax
  rw [deskewMeasured_of_line hl hk,
    if_neg fun h => Nat.not_le.2 hlt (((foldl_max_le_iff 2880 sk 0).1 h).2 x hx)]

theorem exec_deskewMeasured {n : Fin 128} {s : State} (skews : List (BitVec 16)) (hr : linkRuns s n = true)
    (hst : linkState s n = 3) :
    exec (.deskewMeasured n skews) s = .next (deskewMeasured n (skews.map BitVec.toNat) s) :=
  congrArg done (s.when_pos _ (by rw [hr, hst]; rfl))

/-! ### UP and FAULT (R127, R130, R159) -/

theorem upFaults_eq (n : Nat) (w : State) :
    upFaults n w = if clientFails w n = true then faultSets n false w
      else if w.hb (.txRf n) = true ∧ loopback w n = 1 then faultSets n true w else w := by
  simp only [upFaults, Bool.and_eq_true, beq_iff_eq]

theorem exec_upHoldExpire {n : Fin 128} {s : State} (hr : linkRuns s n = true) (hst : linkState s n = 4) :
    exec (.upHoldExpire n) s = .next (upHold n
      (waitSince (lportPage n) (.upAt n) (cycUs (1000 * s.rfld (Reg.LPORT.LINK_CFG n) 0 8)) s)) :=
  congrArg done (s.when_pos _ (by rw [hr, hst]; rfl))

theorem exec_faultSetsRx {n : Fin 128} {s : State} (remote : Bool) (hr : linkRuns s n = true) (hst : 5 ≤ linkState s n)
    (hl : loopback s n ≠ 1) : exec (.faultSetsRx n remote) s = .next (faultSets n remote s) :=
  congrArg done (s.when_pos _ (by simp [hr, hst, hl]))

/-- While a client fails, its local fault ordered sets do not end. -/
theorem exec_faultSetsAbsent_of_clientFail {n : Fin 128} {s : State} (hc : clientFails s n = true) :
    exec (.faultSetsAbsent n) s = .next s :=
  congrArg done (State.when_neg _ (by simp [hc]))

theorem exec_faultSetsAbsent {n : Fin 128} {s : State} (hr : linkRuns s n = true) (hst : linkState s n = 6)
    (hc : clientFails s n = false) : exec (.faultSetsAbsent n) s = .next (setLink n 5 s) :=
  congrArg done (s.when_pos _ (by rw [hr, hst, hc]; rfl))

/-! ### FEC windows (R135) -/

theorem exec_fecWindow {n : Fin 128} {s : State} (corr uncorr sym : W32)
    (h : (if isOtn s n then s.live (otnPage (n.val / 16)) else linkRuns s n) = true) :
    exec (.fecWindow n corr uncorr sym) s = .next (fecWindow n corr.toNat uncorr.toNat sym.toNat
      (nextInterval (if isOtn s n then otnPage (n.val / 16) else lportPage n) (.fecAt n) (cycUs 1000) s)) :=
  congrArg done (s.when_pos _ h)

/-- The window of an Ethernet port on the line adds its counts and shows whether the symbols exceed the threshold. -/
theorem fecWindow_of_ethernet {n : Nat} {u : State} (corr uncorr sym : Nat) (hl : loopback u n ≠ 1)
    (ho : isOtn u n = false) :
    fecWindow n corr uncorr sym u =
      let w := bumpBy (Reg.LPORT.FEC_SYM_CORR n) sym (bumpBy (Reg.LPORT.FEC_CW_UNCORR n) uncorr
        (bumpBy (Reg.LPORT.FEC_CW_CORR n) corr u))
      if w.reg (Reg.LPORT.FEC_DEG_THR n) < sym then raise (lportPage n) 5 (w.setRbit (Reg.LPORT.LINK_STS n) 9 true)
      else w.setRbit (Reg.LPORT.LINK_STS n) 9 false := by
  simp only [fecWindow, hl, ho, Bool.false_eq_true, if_false, decide_eq_true_eq]
  split
  case isTrue h => rw [decide_eq_true h]
  case isFalse h => rw [decide_eq_false h]

/-! ### Recovered clocks (R100) -/

/-- Recovered-clock output `r`, squelched while its lane is locked again, resumes 10 ms after the lane has locked. -/
def rclkResumed (r : Nat) (s : State) : State :=
  let l := s.rfld (Reg.TIME.RCLK r) 0 7
  if s.rbit (Reg.TIME.RCLK r) 14 && laneLocked s l then
    (waitRoot (s.hn (.laneLockAt l) + cycUs 10000) s).setRbit (Reg.TIME.RCLK r) 14 false
  else s

theorem exec_rclkResume {s : State} (r : Fin 4) (hl : s.live timePage = true) :
    exec (.rclkResume r) s = .next (rclkResumed r s) := congrArg done (s.ifLive_pos _ hl)

theorem rclkResumed_of_locked {r : Nat} {s : State} (hq : s.rbit (Reg.TIME.RCLK r) 14 = true)
    (hk : laneLocked s (s.rfld (Reg.TIME.RCLK r) 0 7) = true) :
    rclkResumed r s =
      (waitRoot (s.hn (.laneLockAt (s.rfld (Reg.TIME.RCLK r) 0 7)) + cycUs 10000) s).setRbit (Reg.TIME.RCLK r) 14 false :=
  if_pos (by rw [hq, hk]; rfl)

theorem rclkResumed_of_not {r : Nat} {s : State}
    (h : s.rbit (Reg.TIME.RCLK r) 14 = false ∨ laneLocked s (s.rfld (Reg.TIME.RCLK r) 0 7) = false) :
    rclkResumed r s = s :=
  if_neg (by simpa [imp_iff_not_or] using h)

/-- Settles O13: each event of a link by the state that takes it, and what it does there. -/
theorem lineLinks : Obligations.LineLinks := by
  unfold Obligations.LineLinks
  refine ⟨?detect, fun n st s => rfl, ?lock, fun n s h2 h1 => exec_alignmentLock_ignored h2 h1, ?looped, ?within, ?beyond,
    ?up, fun n s hr hst => exec_alignmentLoss hr hst, ?loss, fun n k s => rfl,
    fun n remote s hr hst hl => exec_faultSetsRx remote hr hst hl, fun n s hc => exec_faultSetsAbsent_of_clientFail hc,
    fun n s hr hst hc => exec_faultSetsAbsent hr hst hc, ?fec, ?resume, ?noResume,
    fun n s hr hst => exec_alignmentLock hr hst, fun n skews s hr hst => exec_deskewMeasured skews hr hst,
    fun n remote s hr hst hl => exec_faultSetsRx remote hr hst hl, fun n corr uncorr sym s h => exec_fecWindow corr uncorr sym h,
    fun r s hl => exec_rclkResume r hl⟩
  case detect =>
    intro n s hc
    rw [exec_signalDetect hc, signalDetect_eq]
  case lock =>
    intro n s hr hst
    exact exec_alignmentLock hr (by rw [hst]; rfl)
  case looped =>
    intro n s hr hst hl
    exact exec_alignmentLock hr (by rw [hst, hl]; rfl)
  case within =>
    intro n skews s _ hr hst hl hk hmax
    rw [exec_deskewMeasured skews hr hst, deskewMeasured_within hl (by simpa using hk) (by simpa using hmax)]
    rfl
  case beyond =>
    intro n skews s _ hr hst hl hk hmax
    rw [exec_deskewMeasured skews hr hst, deskewMeasured_beyond hl (by simpa using hk) (by simpa using hmax)]
    rfl
  case up =>
    intro n s hr hst
    rw [exec_upHoldExpire hr hst, upHold, upFaults_eq]
  case loss =>
    intro n k s u hc hk hu hlive hst hl ho
    refine congrArg done ?_
    rw [s.when_pos _ (by simp [hc, hk]), signalLoss_of_line hu hlive hst hl, State.when_neg _ (by rw [ho]; rfl)]
  case fec =>
    rintro n corr uncorr sym s u hr ho rfl hl ho'
    have hexec := exec_fecWindow (s := s) corr uncorr sym (by rw [ho]; exact hr)
    simp only [ho, Bool.false_eq_true, if_false] at hexec
    rw [hexec, fecWindow_of_ethernet _ _ _ hl ho']
  case resume =>
    intro k s hl hq hk
    rw [exec_rclkResume k hl, rclkResumed_of_locked hq hk]
  case noResume =>
    intro k s h
    exact congrArg done (s.ifLive_of_fixed (rclkResumed_of_not h))

/-! ### Writes of `MAC_CFG` (R136) -/

theorem exec_macCfgWrite {s : State} {r : Req} {n : Fin 128} (v : W32) (h : Admits s r (Reg.LPORT.MAC_CFG n)) :
    exec (.macCfgWrite r n v) s = .next (macCfg r n v.toNat (firstWrite r s)) := congrArg done (gateWrite_admits _ h)

/-- Line port 0, an OTN-mode port that receives and does not send, in FAULT with local fault received. -/
def otnPortInFault : State :=
  State.regsSet [(Reg.LG.ACT_LO 0, 5), (Reg.LPORT.MAC_CFG 0, 0x8000 + 1518), (Reg.LPORT.LINK_STS 0, 0x46)]
    (up [0x10, 0x90])

/-- Refutes O14: a write of `MAC_CFG` that sets `TX_EN` of an OTN-mode port in FAULT with local fault received also starts
its remote fault (R127, R160), where the statement has the write store its fields and nothing else. -/
theorem not_portSettings : ¬ Obligations.PortSettings := by
  unfold Obligations.PortSettings
  rintro ⟨-, -, -, -, -, -, -, hstores, -⟩
  have hadm : Admits otnPortInFault .HOST (Reg.LPORT.MAC_CFG 0) := by decide +kernel
  have hexec := hstores .HOST 0 (0x18000 + 1518) otnPortInFault hadm (by decide +kernel) (by decide +kernel)
    (by decide +kernel) (by decide +kernel)
  rw [exec_macCfgWrite (n := 0) _ hadm] at hexec
  have hout := congrArg State.out (Host.Outcome.next.inj hexec)
  exact absurd hout (by decide +kernel)

end Sys2Proof.Machine
end

section
/-!
PROOFS. The alignment of OTN ports (R143 to R148) and the overhead ports (R162 to R167), spec/04_otn_framing.md.
-/
namespace Sys2Proof.Machine

/-! ### The lock of the FlexO group (R144, R147) -/

/-- FLEXO_LOCK with a skew and the received numbers of the FlexO group, by lane. -/
def flexoLocked (n skew : Nat) (nums : List Nat) (s : State) : State :=
  let w := otnSlices s n
  let u := s.setReg (Reg.OTN.FX_SKEW (otnG n) (otnL n)) skew
  let u := forEach ((List.range w).zip (instPlaces w (nums.take w))) u fun (l, p) u => u.setH (.fxPos n l) ((p : Int) - (l : Int))
  if skew ≤ 4800 then u.setH (.fxLock n) (2 ^ w - 1 : Nat)
  else forEach (List.range w) (u.setH (.fxLock n) 0) fun i u => oof n i u

theorem exec_flexoLock {n : Fin 128} {s : State} (skew : BitVec 16) (nums : List Byte) (hr : otnRuns s n = true) :
    exec (.flexoLock n skew nums) s =
      .next (withPersist n (flexoLocked n skew.toNat (nums.map BitVec.toNat)) s) := congrArg done (s.when_pos _ hr)

theorem exec_flexoLockLoss {n : Fin 128} {i : Fin 8} {s : State} (hr : otnRuns s n = true) (hi : i.val < otnSlices s n) :
    exec (.flexoLockLoss n i) s = .next (withPersist n (fun s =>
      oof n (fxPlace s n i) (s.setH (.fxLock n) (setBit (s.hn (.fxLock n)) (fxPlace s n i) false : Nat))) s) :=
  congrArg done (s.when_pos _ (by simp [hr, hi]))

/-! ### Sightings (R145) -/

theorem exec_fasSighting {n : Fin 128} {i : Fin 8} {pos : Fin 15296} {s : State} (mfas : Byte)
    (hh : hunting s n i = true) (hroom : (candsOf s n i).length < 4)
    (hnew : ((candsOf s n i).all fun c => c.pos != pos.val) = true) :
    exec (.fasSighting n i pos mfas) s = .next { s with cands := s.cands ++ [⟨n, i, pos, mfas.toNat, 0⟩] } :=
  congrArg done (s.when_pos _ (by rw [hh, hnew, decide_eq_true hroom]; rfl))

/-- A sighting with four candidates open, or at the position of one of them. -/
theorem exec_fasSighting_ignored {n : Fin 128} {i : Fin 8} {pos : Fin 15296} {s : State} (mfas : Byte)
    (h : 4 ≤ (candsOf s n i).length ∨ ((candsOf s n i).all fun c => c.pos != pos.val) = false) :
    exec (.fasSighting n i pos mfas) s = .next s := by
  refine congrArg done (State.when_neg _ ?_)
  rcases h with hfull | hold
  · rw [decide_eq_false (Nat.not_lt.2 hfull), Bool.and_false, Bool.false_and]
  · rw [hold, Bool.and_false]

/-! ### The checks of candidates (R145) -/

/-- Whether candidate `c` passes the checks of one frame. -/
def candGood (checks : List (Nat × Bool × Nat)) (c : Cand) : Bool :=
  match checks.find? fun x => x.1 == c.pos with
  | some (_, ok, m) => ok && m == (c.mfas + 1) % 256
  | none => true

/-- Candidate `c` after a check that it passes; one that was not checked stays as it is. -/
def candNext (checks : List (Nat × Bool × Nat)) (c : Cand) : Cand :=
  match checks.find? fun x => x.1 == c.pos with
  | some (_, _, m) => { c with mfas := m, hits := c.hits + 1 }
  | none => c

/-- The candidates of a slice after the checks of one frame. -/
def candsNext (checks : List (Nat × Bool × Nat)) (s : State) (n i : Nat) : List Cand :=
  ((candsOf s n i).filter (candGood checks)).map (candNext checks)

/-- The candidates that fail are dropped and counted. -/
def candsChecked (n i : Nat) (checks : List (Nat × Bool × Nat)) (s : State) : State :=
  let u := bumpBy (Reg.OTN.CAND_DROP (otnG n) (otnL n)) ((candsOf s n i).filter (!candGood checks ·)).length s
  { u with cands := u.cands.filter (fun c => !(c.port == n && c.slice == i)) ++ candsNext checks s n i }

/-- The candidates of slice `i` of port `n` are cleared. -/
def candsCleared (n i : Nat) (s : State) : State :=
  { s with cands := s.cands.filter fun c => !(c.port == n && c.slice == i) }

/-- After the checks, the candidates that have passed three decide: none, one, or more than one. -/
theorem candCheck_eq (n i : Nat) (checks : List (Nat × Bool × Nat)) (s : State) :
    candCheck n i checks s =
      match (candsNext checks s n i).filter (·.hits == 3) with
      | [] => candsChecked n i checks s
      | [c] => confirm n i c (candsChecked n i checks s)
      | _ => raise (otnPage (otnG n)) 2
          (bump (Reg.OTN.ALIGN_AMBIG (otnG n) (otnL n)) (candsCleared n i (candsChecked n i checks s))) := rfl

section
variable {n i : Nat} {checks : List (Nat × Bool × Nat)} {s : State}

/-- No candidate has passed three checks. -/
theorem candCheck_of_none (h : (candsNext checks s n i).filter (·.hits == 3) = []) :
    candCheck n i checks s = candsChecked n i checks s := by
  rw [candCheck_eq, h]

/-- One candidate has passed three checks. -/
theorem candCheck_of_one {c : Cand} (h : (candsNext checks s n i).filter (·.hits == 3) = [c]) :
    candCheck n i checks s = confirm n i c (candsChecked n i checks s) := by
  rw [candCheck_eq, h]

/-- Two candidates have passed three checks. -/
theorem candCheck_of_two {a b : Cand} (h : (candsNext checks s n i).filter (·.hits == 3) = [a, b]) :
    candCheck n i checks s = raise (otnPage (otnG n)) 2
      (bump (Reg.OTN.ALIGN_AMBIG (otnG n) (otnL n)) (candsCleared n i (candsChecked n i checks s))) := by
  rw [candCheck_eq, h]

end

theorem exec_candidateCheck {n : Fin 128} {i : Fin 8} {s : State} (checks : List (Fin 15296 × Bool × Byte))
    (hh : hunting s n i = true) :
    exec (.candidateCheck n i checks) s =
      .next (withPersist n (candCheck n i (checks.map fun x => (x.1.val, x.2.1, x.2.2.toNat))) s) :=
  congrArg done (s.when_pos _ hh)

theorem bumpBy_zero (a : Nat) (s : State) : bumpBy a 0 s = s := if_pos rfl

theorem bumpBy_cands (a amount : Nat) (s : State) : (bumpBy a amount s).cands = s.cands := by
  obtain ⟨-, -, -, -, -, -, -, hcands⟩ := (bumpBy_kept (K := (· = .agents)) (Kept.refl s)).area .agents rfl
  exact hcands

section
variable {n i : Nat} {s : State} (hall : ∀ c ∈ s.cands, c.port = n ∧ c.slice = i)
include hall

theorem candsOf_of_all : candsOf s n i = s.cands :=
  List.filter_eq_self.2 fun c hc => by simp [hall c hc]

theorem candsCleared_of_all : candsCleared n i s = { s with cands := [] } := by
  have hnone : s.cands.filter (fun c => !(c.port == n && c.slice == i)) = [] :=
    List.filter_eq_nil_iff.2 fun c hc => by simp [hall c hc]
  simp only [candsCleared, hnone]

theorem candsNext_of_all (checks : List (Nat × Bool × Nat)) :
    candsNext checks s n i = (s.cands.filter (candGood checks)).map (candNext checks) := by
  rw [candsNext, candsOf_of_all hall]

theorem candsChecked_of_all (checks : List (Nat × Bool × Nat)) :
    candsChecked n i checks s =
      { bumpBy (Reg.OTN.CAND_DROP (otnG n) (otnL n)) (s.cands.filter (!candGood checks ·)).length s with
        cands := (s.cands.filter (candGood checks)).map (candNext checks) } := by
  have hnone : s.cands.filter (fun c => !(c.port == n && c.slice == i)) = [] :=
    List.filter_eq_nil_iff.2 fun c hc => by simp [hall c hc]
  simp only [candsChecked, bumpBy_cands, candsOf_of_all hall, candsNext_of_all hall, hnone, List.nil_append]

/-- Checks that every candidate passes keep all of them. -/
theorem candsNext_of_good {checks : List (Nat × Bool × Nat)} (hg : ∀ c ∈ s.cands, candGood checks c = true) :
    candsNext checks s n i = s.cands.map (candNext checks) := by
  rw [candsNext_of_all hall, List.filter_eq_self.2 hg]

/-- Checks that every candidate passes drop none. -/
theorem candsChecked_of_good {checks : List (Nat × Bool × Nat)} (hg : ∀ c ∈ s.cands, candGood checks c = true) :
    candsChecked n i checks s = { s with cands := s.cands.map (candNext checks) } := by
  have hdrop : s.cands.filter (!candGood checks ·) = [] :=
    List.filter_eq_nil_iff.2 fun c hc => by simp [hg c hc]
  rw [candsChecked_of_all hall, hdrop, List.length_nil, bumpBy_zero, List.filter_eq_self.2 hg]

end

/-- The slice is in frame and in multiframe at a position with an MFAS. -/
def sliceAligned (n i pos mfas : Nat) (s : State) : State :=
  let w := (s.setRbit (alignSts n) (8 + i) true).setRbit (alignSts n) (16 + i) true
  let w := ((w.setH (.slPos n i) pos).setH (.slMfas n i) mfas).setH (.mfasRun n i) 0
  if i = 0 then w.setRfld (alignSts n) 0 8 mfas else w

theorem confirm_eq (n i : Nat) (c : Cand) (s : State) :
    confirm n i c s = sliceAligned n i c.pos c.mfas (candsCleared n i s) := rfl

/-- The only candidate fails its check. -/
theorem candCheck_of_failed {n i m : Nat} {c : Cand} {s : State} (hs : s.cands = [c]) (hp : c.port = n) (hi : c.slice = i) :
    candCheck n i [(c.pos, false, m)] s = { bumpBy (Reg.OTN.CAND_DROP (otnG n) (otnL n)) 1 s with cands := [] } := by
  have hall : ∀ x ∈ s.cands, x.port = n ∧ x.slice = i := by simp [hs, hp, hi]
  have hbad : candGood [(c.pos, false, m)] c = false := by simp [candGood]
  have hnone : s.cands.filter (candGood [(c.pos, false, m)]) = [] := by simp [hs, hbad]
  have hone : s.cands.filter (!candGood [(c.pos, false, m)] ·) = [c] := by simp [hs, hbad]
  rw [candCheck_of_none (by rw [candsNext_of_all hall, hnone]; rfl), candsChecked_of_all hall, hnone, hone]
  rfl

/-- The only candidate passes its third check. -/
theorem candCheck_of_confirmed {n i m : Nat} {c : Cand} {s : State} (hs : s.cands = [c]) (hp : c.port = n)
    (hi : c.slice = i) (hh : c.hits = 2) (hm : m = (c.mfas + 1) % 256) :
    candCheck n i [(c.pos, true, m)] s = sliceAligned n i c.pos m { s with cands := [] } := by
  have hall : ∀ x ∈ s.cands, x.port = n ∧ x.slice = i := by simp [hs, hp, hi]
  have hgood : ∀ x ∈ s.cands, candGood [(c.pos, true, m)] x = true := by simp [hs, candGood, hm]
  have hnext : s.cands.map (candNext [(c.pos, true, m)]) = [{ c with mfas := m, hits := 3 }] := by
    simp [hs, candNext, hh]
  rw [candCheck_of_one (by rw [candsNext_of_good hall hgood, hnext]; rfl), candsChecked_of_good hall hgood, hnext,
    confirm_eq, candsCleared_of_all (by simp [hp, hi])]

/-- Two candidates pass their third checks in one frame. -/
theorem candCheck_of_ambiguous {n i m : Nat} {a b : Cand} {s : State} (hs : s.cands = [a, b]) (hpa : a.port = n)
    (hpb : b.port = n) (hia : a.slice = i) (hib : b.slice = i) (hne : a.pos ≠ b.pos) (hha : a.hits = 2) (hhb : b.hits = 2)
    (hm : m = (a.mfas + 1) % 256) (hab : b.mfas = a.mfas) :
    candCheck n i [(a.pos, true, m), (b.pos, true, m)] s =
      raise (otnPage (otnG n)) 2 (bump (Reg.OTN.ALIGN_AMBIG (otnG n) (otnL n)) { s with cands := [] }) := by
  have hall : ∀ x ∈ s.cands, x.port = n ∧ x.slice = i := by simp [hs, hpa, hpb, hia, hib]
  have hgood : ∀ x ∈ s.cands, candGood [(a.pos, true, m), (b.pos, true, m)] x = true := by
    simp [hs, candGood, hne, hm, hab]
  have hnext : s.cands.map (candNext [(a.pos, true, m), (b.pos, true, m)]) =
      [{ a with mfas := m, hits := 3 }, { b with mfas := m, hits := 3 }] := by
    simp [hs, candNext, hne, hha, hhb]
  rw [candCheck_of_two (by rw [candsNext_of_good hall hgood, hnext]; rfl), candsChecked_of_good hall hgood, hnext,
    candsCleared_of_all (by simp [hpa, hpb, hia, hib])]

/-! ### Writes of the overhead ports (R162, R165) -/

section
variable {s : State} {r : Req} {k : Fin 16} (v : W32)

theorem exec_ohpCfgWrite (h : Admits s r (Reg.OHP.CFG k)) :
    exec (.ohpCfgWrite r k v) s = .next (ohpCfgWrite r k v.toNat (firstWrite r s)) := congrArg done (gateWrite_admits _ h)

theorem exec_recentre (h : Admits s r (Reg.OHP.RECENTRE k)) :
    exec (.recentre r k v) s =
      .next (if bit v.toNat 0 then (firstWrite r s).setHb (.ohpCentre k) true else firstWrite r s) :=
  congrArg done (gateWrite_admits _ h)

end

section
variable {k v : Nat} {s : State} (r : Req)

/-- A binding to a port that is no OTN port. -/
theorem ohpCfgWrite_of_notOtn (he : bit v 31 = true) (ho : isOtn s (16 * (k / 2) + fld v 0 4) = false) :
    ohpCfgWrite r k v s = errReq (ohpPage k) 0x10 r (Reg.OHP.CFG k) v s := if_pos (by rw [he, ho]; rfl)

/-- A write that disables the port. -/
theorem ohpCfgWrite_of_disable (he : bit v 31 = false) : ohpCfgWrite r k v s = storeReg (Reg.OHP.CFG k) v s := by
  simp only [ohpCfgWrite, he, Bool.false_and, Bool.false_eq_true, if_false]

end

/-! ### Frames of the overhead ports (R163 to R165) -/

section
variable {k : Nat} {s : State} (hc : s.hb (.ohpCentre k) = false)
include hc

theorem ohpFrame_extract (d : W32) (hb : isOtn s (ohpPort s k) = true) :
    ohpFrame k (.extract d) s = ohpWrite k 0 (if ohpAis s k then ohpOnes s k else d.toNat) s := by
  simp only [ohpFrame, hc, hb, Bool.false_eq_true, if_false, if_true]

theorem ohpFrame_toBoard (hb : isOtn s (ohpPort s k) = true) :
    ohpFrame k .toBoard s = (bump (Reg.OHP.DO_FRAMES k) (ohpRead k 0 s).2).emit
      (.ohpDo k (ohpBits (ohpLen (ohpRead k 0 s).2 k) (ohpRead k 0 s).1)) := by
  simp only [ohpFrame, hc, hb, Bool.false_eq_true, if_false, if_true]

theorem ohpFrame_toBoard_of_unbound (hb : isOtn s (ohpPort s k) = false) :
    ohpFrame k .toBoard s = s.emit (.ohpDo k (ohpBits (ohpLen s k) (ohpOnes s k))) := by
  simp only [ohpFrame, hc, hb, Bool.false_eq_true, if_false]

end

/-- A frame that finds its slip buffer full. -/
theorem ohpWrite_of_full {k d : Nat} {s : State} (data : Nat) (h : ohpFill s k d = 4) :
    ohpWrite k d data s = raiseFirst (ohpPage k) 1 (bump (if d = 0 then Reg.OHP.DO_DROP k else Reg.OHP.DI_DROP k) s) :=
  if_pos h

/-! ### The clock of an overhead port (R165, R166) -/

theorem exec_clkLoss {k : Fin 16} {s : State} (hl : s.live (ohpPage k) = true) (hc : s.rbit (Reg.OHP.STS k) 0 = false) :
    exec (.clkLoss k) s =
      .next (raise (ohpPage k) 0 ((waitSince (ohpPage k) (.ohpEdge k) (cycUs 10) s).setRbit (Reg.OHP.STS k) 0 true)) :=
  congrArg done (s.when_pos _ (by rw [hl, hc]; rfl))

/-- A clock that is already lost is not lost again. -/
theorem exec_clkLoss_of_lost {k : Fin 16} {s : State} (hc : s.rbit (Reg.OHP.STS k) 0 = true) :
    exec (.clkLoss k) s = .next s :=
  congrArg done (State.when_neg _ (by rw [hc, Bool.not_true, Bool.and_false]))

theorem exec_ohpClkReturn {k : Fin 16} {s : State} (hl : s.live (ohpPage k) = true) :
    exec (.ohpClkReturn k) s = .next (ohpEdge k s) := congrArg done (s.ifLive_pos _ hl)

/-- An edge of the clock at the board's end of a slip buffer. -/
def ohpBoardEdge (k : Nat) (e : OhpEnd) (s : State) : State :=
  match e with
  | .toBoard | .fromBoard _ => ohpEdge k s
  | .extract _ | .insert => s

theorem exec_ohpFrameBoundary {k : Fin 16} {s : State} (e : OhpEnd) (hl : s.live (ohpPage k) = true) :
    exec (.ohpFrameBoundary k e) s = .next ((ohpBoardEdge k e s).when (ohpRuns (ohpBoardEdge k e s) k) (ohpFrame k e)) :=
  congrArg done (s.ifLive_pos _ hl)

/-- Settles O18: each event of the alignment by the state of its slice, and each of an overhead port by its binding, its slip
buffers and its clock. -/
theorem otnAlignmentAndOverhead : Obligations.OtnAlignmentAndOverhead := by
  unfold Obligations.OtnAlignmentAndOverhead
  refine ⟨fun n skew nums s hr => exec_flexoLock skew nums hr, fun n i s hr hi => exec_flexoLockLoss hr hi, fun n i s => rfl,
    fun n i pos mfas s hh hroom hnew => exec_fasSighting mfas hh hroom hnew,
    fun n i pos mfas s h => exec_fasSighting_ignored mfas h, ?failed, ?confirmed, ?ambiguous,
    fun n i checks s hh => exec_candidateCheck checks hh, ?notOtn, ?disable, ?recentre,
    fun k d s hc hb => ohpFrame_extract hc d hb, fun k s hc hb => ohpFrame_toBoard hc hb,
    fun k s hc hb => ohpFrame_toBoard_of_unbound hc hb, fun k d data s h => ohpWrite_of_full data h,
    fun k s hl hc => exec_clkLoss hl hc, fun k s hc => exec_clkLoss_of_lost hc, fun k s hl => exec_ohpClkReturn hl,
    fun k e s hl => exec_ohpFrameBoundary e hl,
    fun r k v s h => exec_ohpCfgWrite v h, ?noRecentre, fun r k v s h => exec_recentre v h⟩
  case failed =>
    intro n i c m p s _ hs hp hi hpos
    rw [← hpos]
    exact candCheck_of_failed hs hp hi
  case confirmed =>
    intro n i c m p s _ hs hp hi hpos hh hm
    rw [← hpos]
    exact candCheck_of_confirmed hs hp hi hh hm
  case ambiguous =>
    intro n i a b m p q s _ hs hpa hpb hia hib hap hbq hpq hha hhb hm hab
    rw [← hap, ← hbq]
    exact candCheck_of_ambiguous hs hpa hpb hia hib (by rw [hap, hbq]; exact Fin.val_ne_of_ne hpq) hha hhb hm hab
  case notOtn =>
    intro r k v s h he ho
    rw [exec_ohpCfgWrite v h, ohpCfgWrite_of_notOtn r he (by rw [firstWrite_isOtn]; exact ho)]
  case disable =>
    intro r k v s h he
    rw [exec_ohpCfgWrite v h, ohpCfgWrite_of_disable r he]
  case recentre =>
    intro r k v s h hb
    rw [exec_recentre v h, if_pos hb]
  case noRecentre =>
    intro r k v s h hb
    rw [exec_recentre v h, if_neg (by rw [hb]; exact Bool.false_ne_true)]

end Sys2Proof.Machine
end

section
/-!
PROOFS. The frames that an OTN port receives and sends, its defects and its consequent actions (R147 to R161,
spec/04_otn_framing.md).
-/
namespace Sys2Proof.Machine

/-! ### The commands -/

section
variable {n : Fin 128} {s : State} (hr : otnRuns s n = true)
include hr

theorem exec_otnFrameRx (x : OtnRx) : exec (.otnFrameRx n x) s = .next (withPersist n (otnRx n x) s) :=
  congrArg done (s.when_pos _ hr)

theorem exec_defectPersistTimer (k : Fin 4) : exec (.defectPersistTimer n k) s = .next (defectTimer n k s) :=
  congrArg done (s.when_pos _ hr)

theorem exec_degInterval : exec (.degInterval n) s = .next (atInstant (degNext s n)
    (fun s => (degInterval n s).setH (.degAt n) (s.tb / unitsSec + 1 : Nat)) s) := congrArg done (s.when_pos _ hr)

theorem exec_consequentActionBoundary (e : OtnFrame) :
    exec (.consequentActionBoundary n e) s = .next (caBoundary n e s) := congrArg done (s.when_pos _ hr)

theorem exec_txForceApply : exec (.txForceApply n) s = .next (caBoundary n .txOduflex s) :=
  congrArg done (s.when_pos _ hr)

end

/-- The loss of a lane's signal declares dLOS of a running OTN port, after what it does to the link. -/
theorem exec_signalLoss_of_otn {n : Fin 128} {k : Fin 8} {s u : State}
    (hu : s.when (s.clocked (lportPage n) && k.val < portLanes s n) (signalLoss n k) = u) (hr : otnRuns u n = true)
    (hk : k.val < portLanes u n) : exec (.signalLoss n k) s = .next (setDefect n 0 true u) := by
  subst hu
  exact congrArg done (State.when_pos _ (by simp [hr, hk]))

/-! ### Received frames (R147) -/

theorem rxOtuc_of_outOfFrame {n i : Nat} {s : State} (m : Nat) (fas : Bool) (sm pmc : OtnOh) (h : slIF s n i = false) :
    rxOtuc n i fas m sm pmc s = s := if_pos (by rw [h]; rfl)

theorem otnRx_otuc_of_outOfFrame {n : Nat} {i : Fin 8} {s : State} (fas : Bool) (m : Byte) (sm pmc : OtnOh)
    (h : slIF s n i = false) : otnRx n (.otuc i fas m sm pmc) s = s := by
  simp only [otnRx, rxOtuc_of_outOfFrame m.toNat fas sm pmc h, ite_self]

/-! ### The evaluation of the defects (R154 to R156) -/

/-- An evaluation that fails no layer forgets nothing. -/
theorem defUpdate_of_unfailed {n d t d1 t1 m1 : Nat} {s : State} (he : defEval s n d t = (d1, t1, m1))
    (hline : ssfLine d1 = false) (hc : bit d1 25 = false) (hf : bit d1 26 = false) :
    defUpdate n d t s =
      let w := ((s.setReg (defSts n) d1).setReg (tcmSts n) t1).setH (.tcmHeld n) (m1 : Nat)
      let tcm := if t1 != s.reg (tcmSts n) || m1 != s.hn (.tcmHeld n) then 2 ^ 28 else 0
      if (s.reg (defSts n) ^^^ d1) ||| tcm = 0 then w
      else raise (otnPage (otnG n)) 0 (w.setReg (Reg.OTN.DEF_CHG (otnG n) (otnL n))
        (w.reg (Reg.OTN.DEF_CHG (otnG n) (otnL n)) ||| ((s.reg (defSts n) ^^^ d1) ||| tcm))) := by
  simp only [defUpdate, he, hline, hc, hf, Bool.false_eq_true, if_false]

/-! ### Persistence (R154) -/

/-- dLOS clears 1 ms after the last lane has locked. -/
theorem defectTimer_of_lanesLocked {n : Nat} {s : State} (hd : bit (s.reg (defSts n)) 0 = true)
    (hk : ((List.range (otnSlices s n)).all fun i => laneLocked s (n + i)) = true) :
    defectTimer n 0 s = setDefect n 0 false (waitRoot ((List.range (otnSlices s n)).foldl
      (fun t i => max t (sinceOf s (otnPage (otnG n)) (.laneLockAt (n + i)))) 0 + cycUs 1000) s) :=
  if_pos (by rw [hd, hk]; rfl)

theorem defectTimer_of_lanesIdle {n : Nat} {s : State}
    (h : bit (s.reg (defSts n)) 0 = false ∨ ((List.range (otnSlices s n)).all fun i => laneLocked s (n + i)) = false) :
    defectTimer n 0 s = s := by
  refine if_neg fun hboth => ?_
  obtain ⟨hd, hk⟩ := Bool.and_eq_true_iff.1 hboth
  rcases h with h | h
  · exact Bool.false_ne_true (h.symm.trans hd)
  · exact Bool.false_ne_true (h.symm.trans hk)

/-- dLOF_FX, dLOF and dLOM follow their conditions after 3 ms. -/
theorem defectTimer_of_condition {n : Nat} {k : Fin 4} (s : State) (hk : k ≠ 0) :
    defectTimer n k s =
      let b := if k = 1 then 1 else 3 + k.val
      if perCond s n k = bit (s.reg (defSts n)) b then s
      else setDefect n b (perCond s n k) (waitSince (otnPage (otnG n)) (.perSince n k) (cycUs 3000) s) := if_neg hk

/-! ### Degrade (R154) -/

/-- The errored blocks and the degraded seconds of layer `l` start again. -/
def degCleared (n l : Nat) (s : State) : State := (s.setH (.errBlocks n l) 0).setH (.degRun n l) 0

/-- A failed layer is not degraded. -/
theorem degLayer_of_failed (n l : Nat) (inh old : Bool) (s : State) :
    degLayer n l true inh old s = (false, degCleared n l s) := (rfl)

theorem degCleared_keeps (n : Nat) (ls : List Nat) (s : State) :
    (forEach ls s (degCleared n)).regs = s.regs ∧ (forEach ls s (degCleared n)).tb = s.tb := by
  induction ls generalizing s with
  | nil => exact ⟨rfl, rfl⟩
  | cons l ls ih => exact ih (degCleared n l s)

/-- With SSF_C and SSF_F every one of the nine layers is failed, so the second that ends degrades none. -/
theorem degInterval_of_failed {n : Nat} {s : State} (hc : bit (s.reg (defSts n)) 25 = true)
    (hf : bit (s.reg (defSts n)) 26 = true) :
    degInterval n s = defUpdate n (setBit (setBit (setBit (s.reg (defSts n)) 11 false) 14 false) 22 false)
      ((List.range 6).foldl (fun t i => setBit t (5 * i + 4) false) (s.reg (tcmSts n)))
      (forEach (List.range 9) s (degCleared n)) := by
  simp only [degInterval, hc, hf, Bool.true_or, degLayer_of_failed]
  rw [List.foldl_hom₂ (f := Prod.mk) (op₁ := fun t i => setBit t (5 * i + 4) false)
    (op₂ := fun s i => degCleared n (3 + i) s) (h := fun _ _ _ => rfl)]
  rfl

/-! ### Consequent actions (R157 to R159) -/

/-- The start of client fail delivers local fault ordered sets to the MAC. -/
theorem caStart_of_clientFail {n : Nat} {e : OtnFrame} {s u : State}
    (hu : s.setH (.caEff n) (mergeMask (s.hn (.caEff n)) (caWanted s n) (caMask e) : Nat) = u)
    (hfail : clientFails u n = true) (hnew : bit (s.hn (.caEff n)) 2 = false) (hr : linkRuns u n = true)
    (hst : 5 ≤ linkState u n) (hr' : linkRuns (faultSets n false u) n = true) :
    caStart n e s = remoteUpdate n (faultSets n false u) := by
  simp only [caStart, hu, hfail, hnew, hr, hr', decide_eq_true hst, Bool.not_false, Bool.and_self, if_true]

/-! ### The transmitted ODUflex (R149, R161) -/

/-- What replaces the payload of the ODUflex under `TX_FORCE`: nothing, all-ones, or 0x55. -/
def forceFill (force : Nat) : Option Byte :=
  if force = 0 then none else some (if force = 1 then ohByte 255 else ohByte 0x55)

/-- The frame sent carries the MFAS and the payload that `TX_FORCE` calls for, and the PSI byte lies beside it; `u` is the
state once its overhead `oh` is formed. -/
theorem oduflexTx_sends {n : Nat} {s w : State} (hw : s.setH (.txForce n) (fld (otnCfg s n) 30 2 : Nat) = w) :
    ∃ (u : State) (oh : List Byte), oduflexTx n s =
      (u.emit (.otn n (.oduflex (w.hn (.txMfasF n)) oh
        ((forceFill (fld (otnCfg s n) 30 2)).getD
          (if w.hn (.txMfasF n) = 0 then ohByte (u.rfld (Reg.OTN.PT (otnG n) (otnL n)) 0 8) else 0))
        (forceFill (fld (otnCfg s n) 30 2))))).setH (.txMfasF n) ((w.hn (.txMfasF n) + 1) % 256 : Nat) := by
  subst hw
  exact ⟨_, _, rfl⟩

/-- Settles O19: each received frame, timer and boundary by what the port holds there; the evaluation of the defects by what
has changed. -/
theorem otnDefects : Obligations.OtnDefects := by
  unfold Obligations.OtnDefects
  refine ⟨fun n x s hr => exec_otnFrameRx hr x, fun n i fas m sm pmc s h => otnRx_otuc_of_outOfFrame fas m sm pmc h,
    fun n i gid num rdi s => rfl, fun n pt good s => rfl,
    fun n d t d1 t1 m1 s he hline hc hf => defUpdate_of_unfailed he hline hc hf,
    fun n k s u hu hr hk => exec_signalLoss_of_otn hu hr hk, ?dlos, ?timers, ?idle, fun n s hr => exec_degInterval hr, ?degrade,
    fun n e s hr => ⟨exec_consequentActionBoundary hr e, exec_txForceApply hr⟩, fun n s => ⟨rfl, rfl, rfl, rfl, rfl⟩,
    fun n e s u hu hfail hnew hr hst hr' => caStart_of_clientFail hu hfail hnew hr hst hr', fun n s w hw => oduflexTx_sends hw,
    fun n k s hr => exec_defectPersistTimer hr k⟩
  case dlos =>
    intro n s hr hd hk
    rw [exec_defectPersistTimer hr, defectTimer_of_lanesLocked hd hk]
  case timers =>
    intro n k s hr hk
    rw [exec_defectPersistTimer hr, defectTimer_of_condition s hk]
  case idle =>
    intro n s h
    exact congrArg done (s.when_of_fixed _ (defectTimer_of_lanesIdle h))
  case degrade =>
    intro n s hc hf
    exact ⟨_, degInterval_of_failed hc hf, degCleared_keeps n (List.range 9) s⟩

end Sys2Proof.Machine
end

section
/-!
PROOFS. The generation cycle: the flip, the drain of the old parity and the sweep (R178, R286 to R297,
spec/07_table_generations.md).
-/
namespace Sys2Proof.Machine

/-! ### The flip and the drain (R286, R288, R291, R293) -/

theorem exec_flipApply_of_pending {s : State} (hc : s.clocked capoPage = true) (hp : s.hb .flipPending = true) :
    exec .flipApply s = .next (flipApply s) := congrArg done (s.when_pos _ (by rw [hc, hp]; rfl))

theorem exec_flipApply_of_noFlip {s : State} (hp : s.hb .flipPending = false) : exec .flipApply s = .next s :=
  congrArg done (s.when_neg _ (by rw [hp, Bool.and_false]))

/-- A count of 0 in the drain starts the hold of `SETTLE` µs. -/
theorem exec_inFlightZero_of_zero {s : State} (hpll : s.pllOk = true) (hst : s.h .capoState = 2)
    (hp : s.hb .flipPending = false) (hz : s.h (.inFlight (oldParity s)) = 0) :
    exec .inFlightZero s =
      .next ((s.setH .capoState 3).setH .settleAt (s.root + cycUs (s.reg Reg.CAPO.SETTLE) : Nat)) :=
  congrArg done (s.when_pos _ (by rw [hpll, hst, hp, hz]; rfl))

theorem exec_inFlightZero_of_inFlight {s : State} (h : s.h (.inFlight (oldParity s)) ≠ 0) :
    exec .inFlightZero s = .next s := congrArg done (s.when_neg _ (by rw [beq_false_of_ne h, Bool.and_false]))

theorem exec_settleExpire {s : State} (hpll : s.pllOk = true) (hst : s.h .capoState = 3) :
    exec .settleExpire s = .next (drainEnd (waitRoot (s.hn .settleAt) s)) :=
  congrArg done (s.when_pos _ (by rw [hpll, hst]; rfl))

/-- DRAIN_TIMEOUT, once for a drain: at the greatest age limit after the flip, while draining or settling. -/
theorem exec_drainTimeout {s : State} (hpll : s.pllOk = true) (hst : s.h .capoState = 2 ∨ s.h .capoState = 3)
    (hp : s.hb .flipPending = false) (ht : s.hb .capoTimeout = false) :
    exec .drainTimeout s = .next (
      let w := raise capoPage 3 ((waitRoot (s.hn .flipAt + cycUs (s.hn .ageMax)) s).setHb .capoTimeout true)
      faultRecord 14 capoPage (oldParity w) w) := by
  refine congrArg done (s.when_pos _ ?_)
  have hd : (s.h .capoState == 2 || s.h .capoState == 3) = true := by simpa using hst
  rw [hpll, hd, hp, ht]
  rfl

/-! ### Writes of `DRAIN_FORCE` (R294) -/

section
variable {r : Req} {v : Nat} {s : State} (he : s.rbit (Reg.BLK_CTL capoPage) 0 = true) (hv : bit v 0 = true)
include he hv

/-- The refusal looks at the timeout and at the state of the drain. -/
theorem drainForce_of_set : drainForce r v s =
    if s.hb .capoTimeout ∧ (s.h .capoState = 2 ∨ s.h .capoState = 3) then
      drainEnd (bump Reg.CAPO.FORCED_DRAINS (s.setH (.inFlight (oldParity s)) 0))
    else errReq capoPage 0x13 r Reg.CAPO.DRAIN_FORCE v s := by
  simp only [drainForce, capoCmd, he, hv, Bool.not_true, Bool.false_eq_true, if_false, if_true]

theorem drainForce_of_timeout (ht : s.hb .capoTimeout = true) (hst : s.h .capoState = 2) :
    drainForce r v s = drainEnd (bump Reg.CAPO.FORCED_DRAINS (s.setH (.inFlight (oldParity s)) 0)) :=
  (drainForce_of_set he hv).trans (if_pos ⟨ht, .inl hst⟩)

theorem drainForce_of_noTimeout (ht : s.hb .capoTimeout = false) :
    drainForce r v s = errReq capoPage 0x13 r Reg.CAPO.DRAIN_FORCE v s :=
  (drainForce_of_set he hv).trans (if_neg fun h => Bool.false_ne_true (ht.symm.trans h.1))

end

theorem exec_drainForce {s : State} {r : Req} (v : W32) (h : Admits s r Reg.CAPO.DRAIN_FORCE) :
    exec (.drainForce r v) s = .next (drainForce r v.toNat (firstWrite r s)) := congrArg done (gateWrite_admits _ h)

/-! ### The visit of one entry (R297) -/

/-- No entry is visible under one parity alone and under the other parity alone. -/
theorem two_pow_oldParity_ne (s : State) : 2 ^ oldParity s ≠ 2 ^ (1 - oldParity s) := by
  have ho : oldParity s ≤ 1 := Nat.sub_le 1 _
  exact fun h => absurd (Nat.pow_right_injective (le_refl 2) h) (by omega)

theorem putVisEntry_of_hash {p sel : Nat} {t : HTab} (i e : Nat) (s : State) (ht : hashTab p sel = some t) :
    putVisEntry p sel i e s = putEntry t i e s := by
  simp only [putVisEntry, ht]

section
variable {p sel i b : Nat} {t : HTab} {s : State} (ht : hashTab p sel = some t)
include ht

/-- An entry of a hash table that only the old parity sees is deleted. -/
theorem sweepEntry_of_old : sweepEntry p sel i b (2 ^ oldParity s) s = bump Reg.CAPO.SWEPT_DEL
    (putEntry t i (setFld (s.tab p sel i) b 2 0) (s.setH .sweepDone (s.h .sweepDone + 1))) := by
  rw [sweepEntry, if_pos rfl, putVisEntry_of_hash _ _ _ ht]

/-- One that only the current parity sees becomes visible under both. -/
theorem sweepEntry_of_current : sweepEntry p sel i b (2 ^ (1 - oldParity s)) s = bump Reg.CAPO.SWEPT_BOTH
    (putEntry t i (setFld (s.tab p sel i) b 2 3) (s.setH .sweepDone (s.h .sweepDone + 1))) := by
  rw [sweepEntry, if_neg (two_pow_oldParity_ne s).symm, if_pos rfl, putVisEntry_of_hash _ _ _ ht]

end

section
variable {p sel i b : Nat} {s : State} (hb : visAt p sel = some b) (ha : p ≠ adjPage) (ht : p ≠ tcamPage) (hl : p ≠ lpmPage)
include hb ha ht hl

/-- Outside ADJ, TCAM and LPM the agent passes over no entry. -/
theorem sweepOne_of_table : sweepOne p sel i s =
    if fld (s.tab p sel i) b 2 = 2 ^ (1 - oldParity s) then
      sweepEntry p sel i b (fld (s.tab p sel i) b 2)
        ((sweepTwin s p sel i b).elim s fun j => sweepEntry p sel j b (2 ^ oldParity s) s)
    else sweepEntry p sel i b (fld (s.tab p sel i) b 2) s := by
  simp only [sweepOne, hb, ha, ht, hl, false_and, or_self, if_false]
  cases sweepTwin s p sel i b <;> rfl

theorem sweepOne_of_old (hv : fld (s.tab p sel i) b 2 = 2 ^ oldParity s) :
    sweepOne p sel i s = sweepEntry p sel i b (2 ^ oldParity s) s := by
  rw [sweepOne_of_table hb ha ht hl, hv, if_neg (two_pow_oldParity_ne s)]

theorem sweepOne_of_current (hv : fld (s.tab p sel i) b 2 = 2 ^ (1 - oldParity s)) (hw : sweepTwin s p sel i b = none) :
    sweepOne p sel i s = sweepEntry p sel i b (2 ^ (1 - oldParity s)) s := by
  rw [sweepOne_of_table hb ha ht hl, hv, if_pos rfl, hw, Option.elim_none]

/-- The twin of the old parity leaves the table first. -/
theorem sweepOne_of_twin {j : Nat} (hv : fld (s.tab p sel i) b 2 = 2 ^ (1 - oldParity s))
    (hw : sweepTwin s p sel i b = some j) :
    sweepOne p sel i s = sweepEntry p sel i b (2 ^ (1 - oldParity s)) (sweepEntry p sel j b (2 ^ oldParity s) s) := by
  rw [sweepOne_of_table hb ha ht hl, hv, if_pos rfl, hw, Option.elim_some]

end

/-! ### The commands of the sweep (R287, R297) -/

theorem sweeping_of_other {s : State} (h : s.h .capoState ≠ 4) : sweeping s = false := by
  rw [sweeping, beq_false_of_ne h, Bool.and_false, Bool.false_and]

theorem exec_sweepConversion {p : Fin 8192} {sel : Fin 256} {s : State} (i : Nat) (hs : sweeping s = true)
    (hh : sweptHere s p sel = true) : exec (.sweepConversion p sel i) s = .next (sweepOne p sel (i % 2 ^ 32) s) :=
  congrArg done (s.when_pos _ (by rw [hs, hh]; rfl))

theorem exec_sweepConversion_of_index {p : Fin 8192} {sel : Fin 256} {i : Nat} {s : State} (hs : sweeping s = true)
    (hh : sweptHere s p sel = true) (hi : i < 2 ^ 32) :
    exec (.sweepConversion p sel i) s = .next (sweepOne p sel i s) := by
  rw [exec_sweepConversion i hs hh, Nat.mod_eq_of_lt hi]

theorem exec_sweepConversion_of_idle {s : State} (p : Fin 8192) (sel : Fin 256) (i : Nat) (hs : sweeping s = false) :
    exec (.sweepConversion p sel i) s = .next s := congrArg done (s.when_neg _ (by rw [hs, Bool.false_and]))

theorem exec_sweepComplete {s : State} (hs : sweeping s = true) (he : engUp s 0 = true) :
    exec .sweepComplete s = .next (sweepFinish s) := congrArg done (s.when_pos _ (by rw [hs, he]; rfl))

theorem exec_sweepComplete_of_idle {s : State} (hs : sweeping s = false) : exec .sweepComplete s = .next s :=
  congrArg done (s.when_neg _ (by rw [hs, Bool.false_and]))

theorem forEach_of_fixed {α : Type} {xs : List α} {s : State} {f : α → State → State} (h : ∀ x ∈ xs, f x s = s) :
    forEach xs s f = s := by
  induction xs with
  | nil => rfl
  | cons x xs ih =>
    obtain ⟨hx, hxs⟩ := List.forall_mem_cons.1 h
    rw [forEach_cons, hx, ih hxs]

/-- With every swept table empty, what is left is to copy the banks and to report. -/
theorem sweepFinish_of_empty {s : State} (h : ∀ t ∈ sweptTables, s.tabList t.1 t.2 = []) :
    sweepFinish s = raise capoPage 2 (((copyBanks s).setH .capoState 0).setHb .capoTimeout false) := by
  rw [sweepFinish, forEach_of_fixed fun t ht => by rw [h t ht, forEach_nil, ite_self]]

/-- Settles O28: the flip and the drain by the conditions of their commands, the sweep by the visibility of the entry it
comes to. -/
theorem generationCycle : Obligations.GenerationCycle := by
  unfold Obligations.GenerationCycle
  refine ⟨fun s hp => exec_flipApply_of_noFlip hp, fun s hc hp => exec_flipApply_of_pending hc hp,
    fun s hpll hst hp hz => exec_inFlightZero_of_zero hpll hst hp hz, fun s h => exec_inFlightZero_of_inFlight h,
    fun s hpll hst => exec_settleExpire hpll hst, fun s => rfl,
    fun s hpll hst hp ht => exec_drainTimeout hpll hst hp ht, ?forced, ?refused, ?deleted, ?both,
    ?complete, ?twin, ?idle, fun p sel i s hs hh => exec_sweepConversion i hs hh, fun r v s h => exec_drainForce v h⟩
  case forced =>
    rintro r v s w h rfl he hv ht hst
    rw [exec_drainForce v h, drainForce_of_timeout (by rwa [firstWrite_rbit]) hv ht hst]
  case refused =>
    rintro r v s w h rfl he hv ht
    rw [exec_drainForce v h, drainForce_of_noTimeout (by rwa [firstWrite_rbit]) hv ht]
  case deleted =>
    intro p sel i s t b hs hh hi ht hb hadj htcam hlpm _ hv
    rw [exec_sweepConversion_of_index hs hh hi, sweepOne_of_old hb hadj htcam hlpm hv, sweepEntry_of_old ht]
  case both =>
    intro p sel i s t b hs hh hi ht hb hadj htcam hlpm _ hw hv
    rw [exec_sweepConversion_of_index hs hh hi, sweepOne_of_current hb hadj htcam hlpm hv hw, sweepEntry_of_current ht]
  case complete =>
    intro s hs he h
    rw [exec_sweepComplete hs he, sweepFinish_of_empty h]
  case twin =>
    intro p sel i j s b hs hh hi hb hadj htcam hlpm hw hv
    rw [exec_sweepConversion_of_index hs hh hi, sweepOne_of_twin hb hadj htcam hlpm hv hw]
  case idle =>
    intro p sel i s h
    have hs := sweeping_of_other h
    exact ⟨exec_sweepConversion_of_idle p sel i hs, exec_sweepComplete_of_idle hs⟩

end Sys2Proof.Machine
end

section
/-!
PROOFS. The commands of the route table and the route agent (R238 to R242, R295, R296, R460, R545,
spec/06_forwarding_tables.md).
-/
namespace Sys2Proof.Machine

/-! ### Refusals and generation rules (R54, R281, R295, R296) -/

/-- While no generation cycle runs, a software command stores the visibility that it names. -/
theorem genVis_of_idle {s : State} (old new : Nat) (h : s.h .capoState = 0) : genVis s old new = some new := by
  simp [genVis, State.hn, h]

/-- A refusal other than GEN_LOCKED counts on the page only. -/
theorem tblFail_of_ne {c : Nat} (p reqn sel idx : Nat) (s : State) (hc : c ≠ 0x1F) :
    tblFail p c reqn sel idx s = (errBy p c reqn sel idx s, c) := by
  simp only [tblFail, hc, if_false]

/-! ### The operations on routes (R238 to R240) -/

/-- Whether a route that names the same addresses as `d` shares a visibility with `v` (R240). -/
def prefixTaken (s : State) (d v : Nat) : Bool :=
  (routeList s).any fun x => samePrefix x.2 d && (routeVis x.2 &&& v) != 0

/-- The same of the routes in places other than `slot`. -/
def prefixTakenElsewhere (s : State) (slot d v : Nat) : Bool :=
  (routeList s).any fun x => x.1 != slot && samePrefix x.2 d && (routeVis x.2 &&& v) != 0

section
variable (reqn idx data : Nat) (s : State)

/-- The checks of ROUTE_ADD in their order, and the place that the route takes. -/
theorem routeAdd_eq : routeAdd reqn idx data s =
    let d := data &&& routeMask
    let fail := fun c => tblFail lpmPage c reqn 1 idx s
    if routeRange d ∨ routeVis d = 0 ∨ nextRange (word d 5) then fail 0x12
    else if prefixTaken s d (routeVis d) then fail 0x10
    else if s.reg Reg.LPM.UNITS_CAP < s.reg Reg.LPM.UNITS_USED + routeUnits d then fail 0x11
    else (genVis s 0 (routeVis d)).elim (fail 0x1F) fun v =>
      if prefixTaken s d v then fail 0x10
      else (putRoute (firstGap 1 0 ((routeList s).map (·.1))) (setFld d 190 2 v + 2 ^ 8) s, 0) := by
  simp only [routeAdd]
  cases genVis s 0 (routeVis (data &&& routeMask)) <;> rfl

/-- ROUTE_MOD of a route that exists: the new next hop and visibility are word 6 of the window. -/
theorem routeMod_eq {slot e : Nat} (hf : findRoute s (data &&& routeMask) = some (slot, e)) :
    routeMod reqn idx data s =
    let d := data &&& routeMask
    let m := word data 6 &&& 0xC01FFFFF
    let fail := fun c => tblFail lpmPage c reqn 1 idx s
    if routeRange d ∨ nextRange m then fail 0x12
    else if prefixTakenElsewhere s slot d (fld m 30 2) then fail 0x10
    else (genVis s (routeVis e) (fld m 30 2)).elim (fail 0x1F) fun v =>
      if v = 0 then (putRoute slot 0 s, 0)
      else if prefixTakenElsewhere s slot d v then fail 0x10
      else (putRoute slot (setWord e 5 (setFld m 30 2 v)) s, 0) := by
  simp only [routeMod, hf]
  rcases genVis s (routeVis e) (fld (word data 6 &&& 0xC01FFFFF) 30 2) with _ | _ | v <;> rfl

end

section
variable {reqn idx data d : Nat} {s : State}

theorem routeAdd_of_free (hd : data &&& routeMask = d) (hr : routeRange d = false) (hv : routeVis d ≠ 0)
    (hn : nextRange (word d 5) = false) (ht : prefixTaken s d (routeVis d) = false)
    (hu : s.reg Reg.LPM.UNITS_USED + routeUnits d ≤ s.reg Reg.LPM.UNITS_CAP) (hc : s.h .capoState = 0) :
    routeAdd reqn idx data s =
      (putRoute (firstGap 1 0 ((routeList s).map (·.1))) (setFld d 190 2 (routeVis d) + 2 ^ 8) s, 0) := by
  simp only [routeAdd_eq, hd, hr, hv, hn, ht, Nat.not_lt.2 hu, genVis_of_idle _ _ hc, Option.elim_some, Bool.false_eq_true,
    or_self, if_false]

theorem routeAdd_of_badRoute (hd : data &&& routeMask = d) (h : routeRange d = true ∨ routeVis d = 0) :
    routeAdd reqn idx data s = (errBy lpmPage 0x12 reqn 1 idx s, 0x12) := by
  have hbad : routeRange d = true ∨ routeVis d = 0 ∨ nextRange (word d 5) = true := h.imp_right .inl
  simp only [routeAdd_eq, hd, hbad, if_true]
  exact tblFail_of_ne _ _ _ _ _ (by decide)

theorem routeAdd_of_full (hd : data &&& routeMask = d) (hr : routeRange d = false) (hv : routeVis d ≠ 0)
    (hn : nextRange (word d 5) = false) (ht : prefixTaken s d (routeVis d) = false)
    (hu : s.reg Reg.LPM.UNITS_CAP < s.reg Reg.LPM.UNITS_USED + routeUnits d) :
    routeAdd reqn idx data s = (errBy lpmPage 0x11 reqn 1 idx s, 0x11) := by
  simp only [routeAdd_eq, hd, hr, hv, hn, ht, hu, Bool.false_eq_true, or_self, if_false, if_true]
  exact tblFail_of_ne _ _ _ _ _ (by decide)

theorem routeDel_of_found {slot e : Nat} (hr : routeRange (data &&& routeMask) = false)
    (hf : findRoute s (data &&& routeMask) = some (slot, e)) (hc : s.h .capoState = 0) :
    routeDel reqn idx data s = (putRoute slot 0 s, 0) := by
  simp only [routeDel, hr, hf, genVis_of_idle _ _ hc, Option.isNone_some, Bool.false_eq_true, if_false]

theorem routeDel_of_unknown (hr : routeRange (data &&& routeMask) = false)
    (hf : findRoute s (data &&& routeMask) = none) :
    routeDel reqn idx data s = (errBy lpmPage 0x14 reqn 1 idx s, 0x14) := by
  simp only [routeDel, hr, hf, Bool.false_eq_true, if_false]
  exact tblFail_of_ne _ _ _ _ _ (by decide)

/-- Outside a generation cycle the new word is stored as it stands, and a visibility of 00 removes the route. -/
theorem routeMod_of_found {slot e m : Nat} (hm : word data 6 &&& 0xC01FFFFF = m)
    (hr : routeRange (data &&& routeMask) = false) (hn : nextRange m = false)
    (hf : findRoute s (data &&& routeMask) = some (slot, e))
    (ht : prefixTakenElsewhere s slot (data &&& routeMask) (fld m 30 2) = false) (hc : s.h .capoState = 0) :
    routeMod reqn idx data s = (if fld m 30 2 = 0 then putRoute slot 0 s else putRoute slot (setWord e 5 m) s, 0) := by
  simp only [routeMod_eq _ _ _ _ hf, hm, hr, hn, ht, genVis_of_idle _ _ hc, Option.elim_some, setFld_fld,
    Bool.false_eq_true, or_self, if_false]
  split <;> rfl

end

/-! ### The table commands of the LPM page (R239, R242) -/

section
variable {w : Win} (s : State) (h : w.sel = 1)
include h

theorem lpmTable_routeAdd : lpmTable 0x10 w s =
    ((routeAdd (reqNo w.r) w.idx w.data s).1, (routeAdd (reqNo w.r) w.idx w.data s).2, none) := by
  simp only [lpmTable, h]

theorem lpmTable_routeDel : lpmTable 0x11 w s =
    ((routeDel (reqNo w.r) w.idx w.data s).1, (routeDel (reqNo w.r) w.idx w.data s).2, none) := by
  simp only [lpmTable, h]

theorem lpmTable_routeMod : lpmTable 0x12 w s =
    ((routeMod (reqNo w.r) w.idx w.data s).1, (routeMod (reqNo w.r) w.idx w.data s).2, none) := by
  simp only [lpmTable, h]

theorem lpmTable_routeGet : lpmTable 0x13 w s = routeGet w s := by simp only [lpmTable, h]

theorem lpmTable_routeMatch : lpmTable 0x14 w s = routeMatchCmd w s := by simp only [lpmTable, h]

end

theorem routeGet_of_found {w : Win} {s : State} {slot e : Nat} (hr : routeRange (w.data &&& routeMask) = false)
    (hf : findRoute s (w.data &&& routeMask) = some (slot, e)) :
    routeGet w s = Win.ok (some (setWord (setWord w.data 5 (word e 5)) 15 (2 ^ 31))) s := by
  simp only [routeGet, hr, hf, Bool.false_eq_true, if_false]

/-! An IPv4 address of ROUTE_MATCH stands in word 4. -/

section
variable {w : Win} {s : State} (hv : routeV6 w.data = false)
include hv

theorem routeMatchCmd_of_route {slot e : Nat}
    (hm : routeMatch s (routeVrf w.data) false (word w.data 4) (fld (word w.data 6) 0 1) = some (slot, e)) :
    routeMatchCmd w s = Win.ok (some (setWord (setFld w.data 0 192 (e &&& routeMask)) 15 (2 ^ 31))) s := by
  simp only [routeMatchCmd, hv, hm, Bool.false_eq_true, if_false]

theorem routeMatchCmd_of_noRoute
    (hm : routeMatch s (routeVrf w.data) false (word w.data 4) (fld (word w.data 6) 0 1) = none) :
    routeMatchCmd w s = Win.ok (some (setWord w.data 15 0)) s := by
  simp only [routeMatchCmd, hv, hm, Bool.false_eq_true, if_false]

end

/-! ### The queue of the route agent (R53, R241, R460, R545) -/

/-- The completion of a queued command finds those queued up to it; they wait while the agent that a route command among
them needs does not run. -/
theorem exec_tblCmdComplete_lpm {s : State} {r : Req} {k : Nat} (h : (s.lpmQ.findIdx? fun c => c.r == r) = some k) :
    exec (.tblCmdComplete r ⟨lpmPage, by decide⟩) s = .next
      (if (s.lpmQ.take (k + 1)).any (fun c => routeOp c.op) && !engUp s 0 then s
        else forEach (s.lpmQ.take (k + 1)) s lpmStep) := by
  rw [exec_tblCmdComplete, if_pos rfl]
  simp only [lpmComplete, h]

/-- Settles O25: each route command by the first check that decides it, the queueing at the write, and the completion by
whether the route agent runs. -/
theorem routeCommands : Obligations.RouteCommands := by
  unfold Obligations.RouteCommands
  refine ⟨?add, ?addBad, fun reqn idx d s hr hv hn ht hu => routeAdd_of_full rfl hr hv hn ht hu, ?del, ?delUnknown, ?mod,
    ?get, ?matched, ?unmatched, ?queued, ?completed, ?waits⟩
  case add =>
    intro w d s hs hd hr hv hn ht hu hc
    rw [lpmTable_routeAdd s hs, routeAdd_of_free hd hr hv hn ht hu hc]
  case addBad =>
    intro w d s hs hd h
    rw [lpmTable_routeAdd s hs, routeAdd_of_badRoute hd h]
  case del =>
    intro w slot e s hs hr hf hc
    rw [lpmTable_routeDel s hs, routeDel_of_found hr hf hc]
  case delUnknown =>
    intro w s hs hr hf
    rw [lpmTable_routeDel s hs, routeDel_of_unknown hr hf]
  case mod =>
    intro w slot e m s hs hm hr hn hf ht hc
    rw [lpmTable_routeMod s hs, routeMod_of_found hm hr hn hf ht hc]
  case get =>
    intro w slot e s hs hr hf
    rw [lpmTable_routeGet s hs, routeGet_of_found hr hf, Win.ok]
  case matched =>
    intro w x s hs hv hm
    rw [lpmTable_routeMatch s hs, routeMatchCmd_of_route hv hm, Win.ok]
  case unmatched =>
    intro w s hs hv hm
    rw [lpmTable_routeMatch s hs, routeMatchCmd_of_noRoute hv hm, Win.ok]
  case queued =>
    intro r s h
    exact ⟨congrArg done (routeCmd_ready 0x10 h), congrArg done (routeCmd_ready 0x11 h),
      congrArg done (routeCmd_ready 0x12 h), congrArg done (routeCmd_ready 0x13 h), congrArg done (routeCmd_ready 0x14 h)⟩
  case completed =>
    intro r k s hk he
    rw [exec_tblCmdComplete_lpm hk, he, Bool.not_true, Bool.and_false, if_neg Bool.false_ne_true]
  case waits =>
    intro r k s hk ho he
    rw [exec_tblCmdComplete_lpm hk, ho, he, Bool.not_false, Bool.and_self, if_pos rfl]

end Sys2Proof.Machine
end

section
/-!
PROOFS. Learning, station moves, ageing and notifications of L2 (R251 to R260, spec/06_forwarding_tables.md).
-/
namespace Sys2Proof.Machine

/-! ### Learn updates (R251 to R255) -/

theorem placeEntry_of_insertPos {t : HTab} {e pos : Nat} {s : State} (h : insertPos s t (entKey t e) = some pos) :
    placeEntry t e s = (some (pos, false), putEntry t pos e s) := by
  simp only [placeEntry, h]

/-- The entry that learning stores: visible under both parities, and seen in the present age tick. -/
def learnedEntry (s : State) (mac bd port : Nat) : Nat :=
  ofWords [mac / 65536, mac % 65536 * 65536 + bd, 3 * 2 ^ 30 + s.hn .ageNow * 2 ^ 24 + port]

theorem l2Learn_of_insertPos {g mac bd port pos : Nat} {s : State}
    (h : insertPos s (.l2 g) (entKey (.l2 g) (learnedEntry s mac bd port)) = some pos) :
    l2Learn g mac bd port s = notifyPush (notifyWords 1 true g mac bd port 0)
      (bump (Reg.L2.LEARN_NEW g) (putEntry (.l2 g) pos (learnedEntry s mac bd port) s)) := by
  have hplace := placeEntry_of_insertPos h
  unfold learnedEntry at hplace ⊢
  simp only [l2Learn, hplace]

section
variable {u : Learn} {pos e : Nat} {s : State}

theorem l2Apply_of_unknown (h : l2Find s u.g u.mac u.bd = none) :
    l2Apply u s = l2Learn u.g u.mac u.bd u.port s := by
  simp only [l2Apply, h]

section
variable (h : l2Find s u.g u.mac u.bd = some (pos, e)) (hv : fld (word e 2) 30 2 = 3)
include h hv

theorem l2Apply_of_samePort (hp : l2Port e = u.port) : l2Apply u s = l2Refresh u.g pos s := by
  simp only [l2Apply, h, hv, hp, ne_eq, not_true_eq_false, if_false, if_true]

theorem l2Apply_of_static (hp : l2Port e ≠ u.port) (hs : bit (word e 2) 29 = true) :
    l2Apply u s = bump (Reg.L2.STATIC_CONFLICT u.g) s := by
  simp only [l2Apply, h, hv, hp, hs, ne_eq, not_true_eq_false, if_false, if_true]

end
end

/-- One move too many within the move window freezes the entry (R254). -/
theorem l2Move_of_flapping {g pos : Nat} {s : State} (port : Nat)
    (hm : fld (word (s.tab l2Page (1 + g) pos) 2) 20 4 ≠ 0)
    (hw : (s.hn .moveNow + 16 - fld (word (s.tab l2Page (1 + g) pos) 2) 16 4) % 16 < s.rfld Reg.L2.MOVE_CFG 8 4)
    (hl : s.rfld Reg.L2.MOVE_CFG 0 4 < fld (word (s.tab l2Page (1 + g) pos) 2) 20 4 + 1) :
    l2Move g pos port s =
      let e := s.tab l2Page (1 + g) pos
      notifyPush (notifyWords 5 true g (l2Mac e) (l2Bd e) port 0)
        (raise l2Page 2 (bump (Reg.L2.FLAPS g) (s.setTab l2Page (1 + g) pos (setFld e 92 1 1)))) := by
  simp only [l2Move, HTab.page, HTab.sel, hm, Nat.not_le.2 hw, hl, or_self, if_false, if_true]

/-! ### The write of an age scan visit (R260) -/

section
variable {g pos seen : Nat} {s : State} (mp : Bool)

/-- An entry that was aged when read, and that still has the key and age read, leaves the table. -/
theorem ageVisit_of_aged (hk : entKey (.l2 g) (s.tab l2Page (1 + g) pos) = entKey (.l2 g) seen)
    (ha : fld (word (s.tab l2Page (1 + g) pos) 2) 24 4 = fld (word seen 2) 24 4)
    (hv : entVis (.l2 g) (s.tab l2Page (1 + g) pos) ≠ 0) :
    ageVisit g pos seen true mp s =
      let e := s.tab l2Page (1 + g) pos
      notifyPush (notifyWords 3 true g (l2Mac e) (l2Bd e) (l2Port e) 0)
        (bump (Reg.L2.AGED g) (putEntry (.l2 g) pos (setEntVis (.l2 g) e 0) s)) := by
  unfold ageVisit
  exact (if_pos rfl).trans (if_pos ⟨hk, ha, hv⟩)

theorem ageVisit_of_touched (ha : fld (word (s.tab l2Page (1 + g) pos) 2) 24 4 ≠ fld (word seen 2) 24 4) :
    ageVisit g pos seen true mp s = moveVisit g pos seen mp (bump (Reg.L2.AGE_SAVED g) s) := by
  unfold ageVisit
  exact (if_pos rfl).trans (if_neg fun h => ha h.2.1)

theorem ageVisit_of_young : ageVisit g pos seen false mp s = moveVisit g pos seen mp s := by
  unfold ageVisit
  exact if_neg Bool.false_ne_true

end

/-! ### Notifications (R258) -/

theorem exec_notifyPop {s : State} {r : Req} (v : W32) (h : Admits s r Reg.L2.NOTIFY_POP) :
    exec (.notifyPop r v) s = .next (notifyPop v.toNat (firstWrite r s)) := congrArg done (gateWrite_admits _ h)

theorem notifyPush_of_full {s : State} (n : Nat) (h : 16384 ≤ s.notify.length) :
    notifyPush n s = raise l2Page 1 (bump Reg.L2.NOTIFY_LOST s) := if_pos h

/-- Settles O26: the update by the entry that its station has, the ticks and the visits behind the test of the block, the
write of a visit by what was read and what stands, the FIFO by its fill. -/
theorem learningAndAgeing : Obligations.LearningAndAgeing := by
  unfold Obligations.LearningAndAgeing
  refine ⟨fun g s hl => congrArg done (s.ifLive_pos _ hl), ?learned, fun u pos e s h hv hp => l2Apply_of_samePort h hv hp,
    fun u pos e s h hv hp hs => l2Apply_of_static h hv hp hs, fun g pos port s hm hw hl => l2Move_of_flapping port hm hw hl,
    fun s hl => congrArg done (s.ifLive_pos _ hl), fun s hl => congrArg done (s.ifLive_pos _ hl), fun s => ⟨rfl, rfl⟩,
    fun g pos s hl => congrArg done (s.ifLive_pos _ hl), fun g pos s hl => congrArg done (s.ifLive_pos _ hl),
    fun g pos s hl => congrArg done (s.ifLive_pos _ hl), fun g pos seen mp s hk ha hv => ageVisit_of_aged mp hk ha hv,
    fun g pos seen mp s ha => ageVisit_of_touched mp ha, fun g pos seen mp s => ageVisit_of_young mp, fun g pos s => rfl,
    fun r v s h => exec_notifyPop v h, fun v s hv => if_pos hv, fun n s h => notifyPush_of_full n h⟩
  case learned =>
    intro u pos s hu hp
    rw [l2Apply_of_unknown hu]
    exact l2Learn_of_insertPos hp

end Sys2Proof.Machine
end

section
/-!
PROOFS. The commands of the flip engine (R289, R290, R306) and the scrubbing of tables (R264, R277, R280),
spec/07_table_generations.md and spec/06_forwarding_tables.md.
-/
namespace Sys2Proof.Machine

/-! ### Writes of `FLIP_CMD` and `FLIP_ARM` (R289, R290) -/

theorem exec_flipCmd {s : State} {r : Req} (v : W32) (h : Admits s r Reg.CAPO.FLIP_CMD) :
    exec (.flipCmd r v) s = .next (flipCmd r v.toNat (firstWrite r s)) := congrArg done (gateWrite_admits _ h)

theorem exec_flipArm {s : State} {r : Req} (v : W32) (h : Admits s r Reg.CAPO.FLIP_ARM) :
    exec (.flipArm r v) s = .next (flipArm r v.toNat (firstWrite r s)) := congrArg done (gateWrite_admits _ h)

theorem exec_flipDisarm {s : State} {r : Req} (v : W32) (h : Admits s r Reg.CAPO.FLIP_ARM) :
    exec (.flipDisarm r v) s = .next (flipArm r v.toNat (firstWrite r s)) := congrArg done (gateWrite_admits _ h)

theorem flipCmd_of_disabled {r : Req} {v : Nat} {s : State} (he : s.rbit (Reg.BLK_CTL capoPage) 0 = false)
    (hv : bit v 0 = true) :
    flipCmd r v s = bump Reg.CAPO.FLIPS_REFUSED (errReq capoPage 0x08 r Reg.CAPO.FLIP_CMD v s) := by
  simp only [flipCmd, capoCmd, he, hv, Bool.not_true, Bool.false_eq_true, if_false]

section
variable {r : Req} {v : Nat} {s : State} (he : s.rbit (Reg.BLK_CTL capoPage) 0 = true)
include he

section
variable (hv : bit v 0 = true)
include hv

/-- A flip starts in READY, with none still to apply; else the command is refused. -/
theorem flipCmd_of_set : flipCmd r v s =
    if s.h .capoState = 0 ∧ s.hb .flipPending = false then (s.setH .capoState 2).setHb .flipPending true
    else bump Reg.CAPO.FLIPS_REFUSED (errReq capoPage 0x10 r Reg.CAPO.FLIP_CMD v s) := by
  simp only [flipCmd, capoCmd, he, hv, Bool.not_true, Bool.false_eq_true, if_false, if_true]

theorem flipCmd_of_ready (hst : s.h .capoState = 0) (hp : s.hb .flipPending = false) :
    flipCmd r v s = (s.setH .capoState 2).setHb .flipPending true :=
  (flipCmd_of_set he hv).trans (if_pos ⟨hst, hp⟩)

theorem flipCmd_of_notReady (hst : s.h .capoState ≠ 0) :
    flipCmd r v s = bump Reg.CAPO.FLIPS_REFUSED (errReq capoPage 0x10 r Reg.CAPO.FLIP_CMD v s) :=
  (flipCmd_of_set he hv).trans (if_neg fun h => hst h.1)

end

section
variable (hc : fld v 0 2 = 1) (hv : bit v 0 = true)
include hc hv

/-- ARM looks at the state, at the pending flip, and at the time: valid, and at least 1 µs ahead. -/
theorem flipArm_of_arm : flipArm r v s =
    if s.h .capoState = 0 ∧ s.hb .flipPending = false ∧ s.reg Reg.CAPO.FLIP_NS ≤ 999999999 ∧
        s.tb + 1000 * unitsNs ≤ flipTime s then s.setH .capoState 1
    else errReq capoPage 0x11 r Reg.CAPO.FLIP_ARM v s := by
  simp only [flipArm, capoCmd, he, hc, hv, Nat.one_ne_zero, Nat.reduceEqDiff, if_false, if_true]

theorem flipArm_of_ready (hst : s.h .capoState = 0) (hp : s.hb .flipPending = false)
    (hn : s.reg Reg.CAPO.FLIP_NS ≤ 999999999) (ht : s.tb + 1000 * unitsNs ≤ flipTime s) :
    flipArm r v s = s.setH .capoState 1 := (flipArm_of_arm he hc hv).trans (if_pos ⟨hst, hp, hn, ht⟩)

theorem flipArm_of_near (ht : flipTime s < s.tb + 1000 * unitsNs) :
    flipArm r v s = errReq capoPage 0x11 r Reg.CAPO.FLIP_ARM v s :=
  (flipArm_of_arm he hc hv).trans (if_neg fun ⟨_, _, _, hle⟩ => Nat.not_le.2 ht hle)

end

section
variable (hc : fld v 0 2 = 2) (hv : bit v 0 = false)
include hc hv

/-- DISARM looks at the state alone. -/
theorem flipArm_of_disarm : flipArm r v s =
    if s.h .capoState = 1 then s.setH .capoState 0 else errReq capoPage 0x11 r Reg.CAPO.FLIP_ARM v s := by
  simp only [flipArm, capoCmd, he, hc, hv, OfNat.ofNat_ne_zero, Nat.reduceEqDiff, Bool.false_eq_true, if_false, if_true]

theorem flipArm_of_armed (hst : s.h .capoState = 1) : flipArm r v s = s.setH .capoState 0 :=
  (flipArm_of_disarm he hc hv).trans (if_pos hst)

theorem flipArm_of_notArmed (hst : s.h .capoState ≠ 1) :
    flipArm r v s = errReq capoPage 0x11 r Reg.CAPO.FLIP_ARM v s := (flipArm_of_disarm he hc hv).trans (if_neg hst)

end
end

/-! ### The time of an armed flip (R288, R306) -/

theorem exec_flipTimeReached_of_armed {s : State} (hl : s.live capoPage = true) (hst : s.h .capoState = 1) :
    exec .flipTimeReached s = .next (atInstant (flipTime s)
      (fun s => (s.setH .capoState 2).setHb .flipPending true) s) :=
  congrArg done (s.when_pos _ (by rw [hl, hst]; rfl))

theorem exec_flipTimeReached_of_notArmed {s : State} (hst : s.h .capoState ≠ 1) :
    exec .flipTimeReached s = .next s :=
  congrArg done (s.when_neg _ (by rw [beq_false_of_ne hst, Bool.and_false]))

/-! ### The scrubber (R264, R277) -/

theorem exec_tableScrub {p : Fin 8192} {s : State} (sel : Fin 256) (i : Nat) (ok : Bool) (hl : s.live p = true) :
    exec (.tableScrub p sel i ok) s = .next (if ok || !scrubbed p sel then s else scrubFail p sel i s) :=
  congrArg done (s.ifLive_pos _ hl)

/-- A good entry, and one of a table that the scrubber does not read, stays. -/
theorem exec_tableScrub_of_kept {p : Fin 8192} {sel : Fin 256} {ok : Bool} (i : Nat) (s : State)
    (h : ok = true ∨ scrubbed p sel = false) : exec (.tableScrub p sel i ok) s = .next s :=
  congrArg done (s.ifLive_of_fixed (if_pos (by simpa using h)))

theorem exec_tableScrub_of_failing {p : Fin 8192} {sel : Fin 256} {s : State} (i : Nat) (hl : s.live p = true)
    (hs : scrubbed p sel = true) : exec (.tableScrub p sel i false) s = .next (scrubFail p sel i s) := by
  rw [exec_tableScrub sel i false hl, hs, Bool.not_true, Bool.or_false, if_neg Bool.false_ne_true]

theorem scrubFail_of_notL2 {p : Nat} (sel i : Nat) (s : State) (hp : p ≠ l2Page) : scrubFail p sel i s =
    setParBad p sel i true
      (raiseFault p (parityEvent p) 2 i (errBy p 0x07 5 sel i (bump (scrubReg p sel) s))) := by
  rw [scrubFail, if_neg fun h => hp h.1]

/-- The eight tables of L2 are among those that the scrubber reads. -/
theorem scrubbed_l2 (g : Fin 8) : scrubbed l2Page (1 + g) = true := by
  revert g
  decide

theorem exec_tableScrub_l2 {s : State} (g : Fin 8) (i : Nat) (hl : s.live l2Page = true) :
    exec (.tableScrub (0xC4 : Fin 8192) ⟨1 + g.val, by omega⟩ i false) s = .next (scrubFail l2Page (1 + g) i s) :=
  exec_tableScrub_of_failing (p := 0xC4) (sel := ⟨1 + g.val, by omega⟩) i hl (scrubbed_l2 g)

/-- Each table of L2 has its own counter. -/
theorem scrubReg_l2 (g : Nat) : scrubReg l2Page (1 + g) = Reg.L2.SCRUB_ERR g := by
  rw [scrubReg, if_neg (by decide), if_neg (by decide), if_neg (by decide), Nat.add_sub_cancel_left]

/-- A failing entry of L2 that learning made leaves the table with a notification. -/
theorem scrubFail_of_dynamic {g i : Nat} {s w : State}
    (hw : w = raiseFault l2Page 3 2 i (errBy l2Page 0x07 5 (1 + g) i (bump (Reg.L2.SCRUB_ERR g) s)))
    (hv : fld (word (w.tab l2Page (1 + g) i) 2) 30 2 = 3) (hs : bit (word (w.tab l2Page (1 + g) i) 2) 29 = false) :
    scrubFail l2Page (1 + g) i s =
      let e := w.tab l2Page (1 + g) i
      notifyPush (notifyWords 7 true g (l2Mac e) (l2Bd e) (l2Port e) 0)
        (putEntry (.l2 g) i (setEntVis (.l2 g) e 0) w) := by
  have hev : parityEvent l2Page = 3 := rfl
  simp only [scrubFail, scrubReg_l2, hev, ← hw, hv, hs, Nat.add_sub_cancel_left, Bool.false_eq_true, not_false_eq_true,
    and_self, if_true]

/-! ### The repair of a node (R264) -/

theorem exec_lpmNodeRepair {s : State} (i : Nat) (ok : Bool) (hl : s.live lpmPage = true) :
    exec (.lpmNodeRepair i ok) s = .next (
      if !parBad s lpmPage 1 i || !engUp s 0 then s
      else if ok then bump Reg.LPM.REPAIRED (setParBad lpmPage 1 i false s)
      else
        let vrf := routeVrf (s.tab lpmPage 1 i)
        raiseFault lpmPage 1 2 vrf (errBy lpmPage 0x07 5 1 vrf s)) :=
  congrArg done (s.ifLive_pos _ hl)

theorem exec_lpmNodeRepair_of_idle {i : Nat} {s : State} (ok : Bool) (h : parBad s lpmPage 1 i = false ∨ engUp s 0 = false) :
    exec (.lpmNodeRepair i ok) s = .next s :=
  congrArg done (s.ifLive_of_fixed (if_pos (by simpa using h)))

/-- A failing node is rebuilt, or its VRF reported, by what the route store holds. -/
theorem exec_lpmNodeRepair_of_failing {i : Nat} {s : State} (ok : Bool) (hl : s.live lpmPage = true)
    (hb : parBad s lpmPage 1 i = true) (he : engUp s 0 = true) :
    exec (.lpmNodeRepair i ok) s = .next (
      if ok then bump Reg.LPM.REPAIRED (setParBad lpmPage 1 i false s)
      else
        let vrf := routeVrf (s.tab lpmPage 1 i)
        raiseFault lpmPage 1 2 vrf (errBy lpmPage 0x07 5 1 vrf s)) := by
  rw [exec_lpmNodeRepair i ok hl, hb, he, Bool.not_true, Bool.or_self, if_neg Bool.false_ne_true]

/-- Settles O27: each write by the enable of the page, the operation and the state of the cycle, the scrubber by the table of
the entry, the repair by the mark of the node and the state of its store. -/
theorem flipsAndScrubbing : Obligations.FlipsAndScrubbing := by
  unfold Obligations.FlipsAndScrubbing
  refine ⟨?flip, ?flipRefused, ?flipDisabled, ?arm, ?armRefused, ?disarm, ?disarmRefused,
    fun s hl hst => exec_flipTimeReached_of_armed hl hst, fun s hst => exec_flipTimeReached_of_notArmed hst,
    fun r v s h => exec_flipCmd v h, fun r v s h => exec_flipArm v h, fun r v s h => exec_flipDisarm v h,
    fun p sel i ok s h => exec_tableScrub_of_kept i s h, ?marked, ?dynamic,
    fun i ok s h => exec_lpmNodeRepair_of_idle ok h, ?repaired, ?unrepairable,
    fun p sel i ok s hl => exec_tableScrub sel i ok hl, fun i ok s hl => exec_lpmNodeRepair i ok hl⟩
  case flip =>
    rintro r v s w h rfl he hv hst hp
    rw [exec_flipCmd v h, flipCmd_of_ready (by rwa [firstWrite_rbit]) hv hst hp]
  case flipRefused =>
    rintro r v s w h rfl he hv hst
    rw [exec_flipCmd v h, flipCmd_of_notReady (by rwa [firstWrite_rbit]) hv hst]
  case flipDisabled =>
    rintro r v s w h rfl he hv
    rw [exec_flipCmd v h, flipCmd_of_disabled (by rwa [firstWrite_rbit]) hv]
  case arm =>
    rintro r v s w h rfl he hc hv hst hp hn ht
    rw [exec_flipArm v h, flipArm_of_ready (by rwa [firstWrite_rbit]) hc hv hst hp hn ht]
  case armRefused =>
    rintro r v s w h rfl he hc hv ht
    rw [exec_flipArm v h, flipArm_of_near (by rwa [firstWrite_rbit]) hc hv ht]
  case disarm =>
    rintro r v s w h rfl he hc hv hst
    rw [exec_flipDisarm v h, flipArm_of_armed (by rwa [firstWrite_rbit]) hc hv hst]
  case disarmRefused =>
    rintro r v s w h rfl he hc hv hst
    rw [exec_flipDisarm v h, flipArm_of_notArmed (by rwa [firstWrite_rbit]) hc hv hst]
  case marked =>
    intro p sel i s hl hs hp
    rw [exec_tableScrub_of_failing i hl hs, scrubFail_of_notL2 sel i s hp]
  case dynamic =>
    intro g i s w hl hw hv hs
    rw [exec_tableScrub_l2 g i hl, scrubFail_of_dynamic hw hv hs]
  case repaired =>
    intro i s hl hb he
    rw [exec_lpmNodeRepair_of_failing true hl hb he, if_pos rfl]
  case unrepairable =>
    intro i s hl hb he
    rw [exec_lpmNodeRepair_of_failing false hl hb he, if_neg Bool.false_ne_true]

end Sys2Proof.Machine
end

section
/-!
PROOFS. Cells that arrive, the resequencer and its timers (R402, R411 to R416, spec/10_fabric.md; R285).
-/
namespace Sys2Proof.Machine

/-! ### A cell that arrives on a link (R396, R402, R415) -/

theorem onCell_of_locked {l : Nat} {s : State} (x : List Byte) (err : Bool) (hl : s.live (fgPage l) = true)
    (hst : flinkState s l = 4) : onCell l x err s = linkIn l x err s :=
  s.when_pos _ (by rw [hl, hst]; rfl)

/-- A sound cell of data or of credit is counted on its link and goes to FAB. -/
theorem linkIn_of_fab {l : Nat} {x : List Byte} {s : State} (hd : s.hb (.lnkDisc l) = false) (hh : hcrcOk x = true)
    (ht : cellType x ≤ 4) :
    linkIn l x false s = fabIn x (bump (Reg.FG.CELLS_RX (l / 32) (l % 32)) s) := by
  have h15 : cellType x ≠ 15 := by omega
  have h5 : cellType x ≠ 5 := by omega
  have h6 : cellType x ≠ 6 := by omega
  have h7 : ¬ 7 ≤ cellType x := by omega
  simp only [linkIn, hd, hh, h15, h5, h6, h7, Bool.not_true, Bool.false_eq_true, if_false]

section
variable {x : List Byte} {s : State} (hl : s.live fabPage = true) (hn : 3 ≤ cellLen x)
include hl hn

theorem fabIn_of_misdelivered (hd : cellDst x ≠ devId s) :
    fabIn x s = raise fabPage 4 (bump Reg.FAB.MISDELIVER s) := by
  simp only [fabIn, hl, Nat.not_lt.2 hn, hd, Bool.not_true, Bool.false_eq_true, ne_eq, not_false_eq_true, if_false, if_true]

theorem fabIn_of_credit (hd : cellDst x = devId s) (ht : cellType x = 4) : fabIn x s = creditIn x s := by
  simp only [fabIn, hl, Nat.not_lt.2 hn, hd, ht, Bool.not_true, Bool.false_eq_true, ne_eq, not_true_eq_false, if_false,
    if_true]

theorem fabIn_of_data (hd : cellDst x = devId s) (ht : cellType x ≤ 3) (hk : s.hb (.stuck 36) = false) :
    fabIn x s = reseqIn x (bump Reg.FAB.DATA_RX s) := by
  have h4 : cellType x ≠ 4 := by omega
  simp only [fabIn, hl, Nat.not_lt.2 hn, hd, h4, hk, Bool.not_true, Bool.false_eq_true, ne_eq, not_true_eq_false, if_false]

end

/-! ### The local path (R416) -/

theorem localIn_of_none {p : List Byte → Bool} {s : State} (h : s.localPath.dropWhile (fun y => !p y) = []) :
    localIn p s = s := by
  simp only [localIn, h]

/-- The path is in order: the cells before the first of the kind go with it. -/
theorem localIn_of_first {p : List Byte → Bool} {y : List Byte} {r : List (List Byte)} {s : State}
    (h : s.localPath.dropWhile (fun y => !p y) = y :: r) :
    localIn p s = forEach (s.localPath.takeWhile (fun y => !p y) ++ [y]) { s with localPath := r } fabIn := by
  simp only [localIn, h]

/-! ### A data cell in its context (R411, R412) -/

section
variable {x : List Byte} {d : Nat} {s w : State}
  (hw : s.setH (.rsLast (8 * cellSrc x + cellClass x)) (s.root + 1 : Nat) = w)
  (hs : w.hb (.rsSync (8 * cellSrc x + cellClass x)) = true)
  (hd : (cellSeq x + 2 ^ 24 - w.hn (.rsE (8 * cellSrc x + cellClass x))) % 2 ^ 24 = d)
include hw hs hd

theorem reseqIn_of_expected (h0 : d = 0) : reseqIn x s =
    let c := 8 * cellSrc x + cellClass x
    let t := cellRelease c x (cellAccept x w)
    let t := t.setH (.rsE c) ((w.hn (.rsE c) + 1) % 2 ^ 24 : Nat)
    releaseRun c t.held.length t := by
  simp only [reseqIn, hw, hs, hd, h0, Bool.not_true, Bool.false_eq_true, if_false, if_true]

section
variable (h0 : d ≠ 0)
include h0

theorem reseqIn_of_later (hlt : d < 65536) : reseqIn x s = cellHold (8 * cellSrc x + cellClass x) x w := by
  simp only [reseqIn, hw, hs, hd, h0, hlt, Bool.not_true, Bool.false_eq_true, if_false, if_true]

theorem reseqIn_of_earlier (hge : ¬ d < 65536)
    (hb : 1 ≤ (w.hn (.rsE (8 * cellSrc x + cellClass x)) + 2 ^ 24 - cellSeq x) % 2 ^ 24 ∧
      (w.hn (.rsE (8 * cellSrc x + cellClass x)) + 2 ^ 24 - cellSeq x) % 2 ^ 24 ≤ 65536)
    (hsrc : cellSrc x ≠ devId w) : reseqIn x s = bump Reg.FAB.RESEQ_LATE w := by
  simp only [reseqIn, hw, hs, hd, h0, hge, hb, hsrc, Bool.not_true, Bool.false_eq_true, and_self, if_false, if_true]

end
end

theorem cellHold_of_full {c : Nat} {x : List Byte} {s : State}
    (hq : ((heldOf s c).any fun h => h.seq == cellSeq x) = false) (hf : 65536 ≤ s.held.length)
    (hsrc : cellSrc x ≠ devId s) : cellHold c x s = raise fabPage 2 (bump Reg.FAB.RESEQ_FULL s) := by
  simp only [cellHold, hq, hf, hsrc, Bool.false_eq_true, if_false, if_true]

/-! ### The timers of a context (R411, R413) -/

theorem syncHold_of_idle {c : Nat} {s : State} (h : heldOf s c = [] ∨ s.hb (.rsSync c) = true) : syncHold c s = s := by
  unfold syncHold
  cases hh : heldOf s c with
  | nil => rfl
  | cons k ks =>
    have hs : s.hb (.rsSync c) = true := h.resolve_left (by simp [hh])
    exact if_pos hs

/-- At the end of the hold the context synchronises on the lowest sequence number that it holds. -/
theorem syncHold_of_held {c e : Nat} {h : Held} {hs : List Held} {s w : State} (hh : heldOf s c = h :: hs)
    (hn : s.hb (.rsSync c) = false) (hw : waitRoot (h.since + cycNs (s.reg Reg.FAB.SYNC_HOLD)) s = w)
    (he : lowestSeq ((heldOf w c).map (·.seq)) = some e) :
    syncHold c s =
      let t := ((w.setHb (.rsSync c) true).setH (.rsE c) (e : Nat)).setH (.rsSkip c) 2
      releaseRun c t.held.length t := by
  simp only [syncHold, hh, hn, hw, he, Bool.false_eq_true, if_false]

theorem exec_ctxIdleExpire_of_synced {c : Fin 32768} {s : State} (hl : s.live fabPage = true)
    (hs : s.hb (.rsSync c) = true) :
    exec (.ctxIdleExpire c) s = .next
      ((waitRoot (s.hn (.rsLast c) - 1 + 7200000 * s.reg Reg.FAB.CTX_IDLE) s).setHb (.rsSync c) false) :=
  congrArg done (s.when_pos _ (by rw [hl, hs]; rfl))

theorem exec_ctxIdleExpire_of_unsynced {c : Fin 32768} {s : State} (hs : s.hb (.rsSync c) = false) :
    exec (.ctxIdleExpire c) s = .next s := congrArg done (s.when_neg _ (by rw [hs, Bool.and_false]))

theorem reseqTimeout_of_none {c : Nat} {s : State} (h : heldOf s c = []) : reseqTimeout c s = s := by
  simp only [reseqTimeout, h]

/-- The gap before the oldest held cell is given up, and with it the frame in progress. -/
theorem reseqTimeout_of_held {c : Nat} {h : Held} {hs : List Held} {s w t : State} (hh : heldOf s c = h :: hs)
    (hsync : s.hb (.rsSync c) = true) (hw : waitRoot (h.since + cycUs (s.reg Reg.FAB.RESEQ_TMO)) s = w)
    (ht : raiseFirst fabPage 0 (bump Reg.FAB.RESEQ_TIMEOUT w) = t) :
    reseqTimeout c s =
      let off := sortNat ((heldOf w c).map fun k => (k.seq + 2 ^ 24 - w.hn (.rsE c)) % 2 ^ 24)
      let u := if t.hb (.rsBusy c) then bump Reg.FAB.RESEQ_FRAME_DISC (rxAbandon c t) else t
      let u := u.setH (.rsSkip c) (if t.hb (.rsBusy c) || u.h (.rsSkip c) == 1 then 1 else 2)
      let u := u.setH (.rsE c) ((w.hn (.rsE c) + off.headD 0) % 2 ^ 24 : Nat)
      releaseRun c u.held.length u := by
  simp only [reseqTimeout, hh, hsync, hw, ht, Bool.not_true, Bool.false_eq_true, if_false]

/-! ### The commands -/

theorem exec_dataCellRx_link (l : Fin 192) (x : List Byte) (err : Bool) (s : State) :
    exec (.dataCellRx (some l) x err) s = .next (onCell l x err s) := rfl

theorem exec_creditCellRx_link (l : Fin 192) (x : List Byte) (err : Bool) (s : State) :
    exec (.creditCellRx (some l) x err) s = .next (onCell l x err s) := rfl

theorem exec_syncHoldExpire {c : Fin 32768} {s : State} (hl : s.live fabPage = true) :
    exec (.syncHoldExpire c) s = .next (syncHold c s) := congrArg done (s.ifLive_pos _ hl)

theorem exec_reseqTimeout {c : Fin 32768} {s : State} (hl : s.live fabPage = true) :
    exec (.reseqTimeout c) s = .next (reseqTimeout c s) := congrArg done (s.ifLive_pos _ hl)

/-- Settles O38: a cell by its type and destination, then by its distance from the expected sequence number; each timer by
what its context holds and whether it is synchronised. -/
theorem resequencer : Obligations.Resequencer := by
  unfold Obligations.Resequencer
  refine ⟨?data, fun x s hl hn hd => fabIn_of_misdelivered hl hn hd, fun x err s h => congrArg done (localIn_of_none h),
    fun x err y r s h => congrArg done (localIn_of_first h), fun x err s h => congrArg done (localIn_of_none h), ?credit,
    fun x s w hw hs hd => reseqIn_of_expected hw hs hd rfl, ?outOfOrder,
    fun c x s hq hf hsrc => cellHold_of_full hq hf hsrc,
    fun c s h => congrArg done (s.ifLive_of_fixed (syncHold_of_idle h)), ?syncs,
    fun c s hl hs => exec_ctxIdleExpire_of_synced hl hs, fun c s hs => exec_ctxIdleExpire_of_unsynced hs,
    fun c s h => congrArg done (s.ifLive_of_fixed (reseqTimeout_of_none h)), ?timesOut,
    fun l x err s => rfl, fun l x err s => rfl, fun c s hl => exec_syncHoldExpire hl, fun c s hl => exec_reseqTimeout hl⟩
  case data =>
    rintro l x s w hl hst hd hh ht rfl hlw hn hdst hk
    rw [exec_dataCellRx_link, onCell_of_locked x false hl hst, linkIn_of_fab hd hh (by omega),
      fabIn_of_data hlw hn hdst ht hk]
  case credit =>
    rintro l x s w hl hst hd hh ht rfl hlw hn hdst
    rw [exec_creditCellRx_link, onCell_of_locked x false hl hst, linkIn_of_fab hd hh (by omega),
      fabIn_of_credit hlw hn hdst ht]
  case outOfOrder =>
    intro x d s w hw hs hd h0 hr hsrc
    by_cases hlt : d < 65536
    · rw [if_pos hlt, reseqIn_of_later hw hs hd h0 hlt]
    · rw [if_neg hlt, reseqIn_of_earlier hw hs hd h0 hlt (hr.resolve_left hlt) hsrc]
  case syncs =>
    intro c h hs e s w hl hh hn hw he
    rw [exec_syncHoldExpire hl, syncHold_of_held hh hn hw he]
  case timesOut =>
    intro c h hs s w t hl hh hsync hw ht
    rw [exec_reseqTimeout hl, reseqTimeout_of_held hh hsync hw ht]

end Sys2Proof.Machine
end

section
/-!
PROOFS. The spill writer, the return engine and the frame age (R312, R335 to R348, spec/08_buffering.md).
-/
namespace Sys2Proof.Machine

/-! ### The age of a frame (R343) -/

/-- A frame within both limits passes the age check. -/
theorem ageCheck_of_young {q : Nat} {f : Frame} {s : State} (base : Nat) (h : agedBy s q f = 0) :
    ageCheck q base f s = (false, s) := by
  rw [ageCheck, h]
  rfl

theorem agedBy_of_global {s : State} {f : Frame} (q : Nat) (h : s.reg Reg.CELL.AGE_LIMIT * 16000 < ageOf s f) :
    agedBy s q f = 1 := if_pos (by exact_mod_cast h)

/-- The global limit comes first, and counts in the first counter of its point. -/
theorem ageCheck_of_global {f : Frame} {s : State} (q base : Nat) (h : s.reg Reg.CELL.AGE_LIMIT * 16000 < ageOf s f) :
    ageCheck q base f s = (true,
      voqEval q ((fsCount (dropPair q) f.heldLen (raiseFirst cellPage 0 (bump base s))).drop f)) := by
  rw [ageCheck, agedBy_of_global q h]
  rfl

/-! ### The spill writer (R312, R337) -/

theorem exec_spillPageWrite {s : State} (q : Fin 393216) (ue : Bool) (hl : s.live spillPage = true) :
    exec (.spillPageWrite q ue) s = .next ((if ue then spillUe q else spillWrite q) s) :=
  congrArg done (s.ifLive_pos _ hl)

theorem spillWrite_of_idle {q : Nat} {s : State}
    (h : s.h (.qstate q) ≠ 1 ∨ ((queueCells s q).filter CellRef.atStage).length < 32 ∨ atDeepMax s q = true) :
    spillWrite q s = s := if_pos h

section
variable {q : Nat} {s t : State} (hst : s.h (.qstate q) = 1)
  (hn : 32 ≤ ((queueCells s q).filter CellRef.atStage).length) (hm : atDeepMax s q = false)
include hst hn hm

/-- A DEEP queue with 32 staged cells and a page to spare has no reason to wait. -/
theorem not_spillIdle :
    ¬(s.h (.qstate q) ≠ 1 ∨ ((queueCells s q).filter CellRef.atStage).length < 32 ∨ atDeepMax s q = true) :=
  not_or.2 ⟨not_not.2 hst, not_or.2 ⟨Nat.not_lt.2 hn, Bool.eq_false_iff.1 hm⟩⟩

theorem spillWrite_of_noPage (hg : grantBuf blockReqr 1 spillOwner s = (none, t)) : spillWrite q s = t :=
  (if_neg (not_spillIdle hst hn hm)).trans (by rw [hg])

theorem spillWrite_of_granted {pg : Nat} (hg : grantBuf blockReqr 1 spillOwner s = (some pg, t)) :
    spillWrite q s = (
      let w := markQueue q CellRef.atStage (fun c => { c with part := .handed pg }) 32 t
      let cells := ((queueCells w q).filter fun c => decide (c.part = .handed pg)).map (·.ptr)
      let tag := w.hn .dramTag + 1
      pageAsk 0 true pg tag (forEach cells { w.setH .dramTag (tag : Nat) with
          pageWrites := w.pageWrites ++ [{ queue := q, page := pg, cells := cells, tag := tag }] }
        fun j s => setOwner 0 j spillOwner s)) :=
  (if_neg (not_spillIdle hst hn hm)).trans (by rw [hg])

end

/-- The first staged cell lies after those of its frame that have left and those before it that are not staged. -/
theorem spillUe_of_staged {q : Nat} {f : Frame} {s : State}
    (h : ((s.allAt (.queued q)).find? fun f => f.cells.any CellRef.atStage) = some f) :
    spillUe q s = queueLeft q (cellUe spillPage q
      (f.ncell - f.cells.length + (f.cells.takeWhile (!CellRef.atStage ·)).length) f.id f.started s) := by
  rw [spillUe, h]

/-! ### The completion of a page write (R337) -/

theorem exec_pageWriteDone {s : State} (q : Fin 393216) (hl : s.live spillPage = true) :
    exec (.pageWriteDone q) s = .next (pageWritten q s) := congrArg done (s.ifLive_pos _ hl)

theorem pageWritten_of_none {q : Nat} {s : State} (h : (s.pageWrites.find? fun w => w.queue == q) = none) :
    pageWritten q s = s := by
  rw [pageWritten, h]

section
variable {q : Nat} {w : PageWrite} {s : State} (hw : (s.pageWrites.find? fun w => w.queue == q) = some w)
include hw

theorem pageWritten_of_left (h : w.left ≠ 0) : pageWritten q s = s := by
  simp only [pageWritten, hw, if_pos h]

theorem pageWritten_of_complete (h : w.left = 0) :
    pageWritten q s = (
      let t := { s with pageWrites := s.pageWrites.filter fun x => decide (x ≠ w) }
      let t := forEach w.cells t fun j s => freeCount q (agentFree 0 j spillOwner s)
      let t := t.setReg Reg.SPILL.STAGE_USED (t.reg Reg.SPILL.STAGE_USED - w.cells.length)
      queueLeft q (bump Reg.SPILL.PAGES_WR (
        if (queueCells t q).any fun c => decide (c.part = .handed w.page) then
          reparts q (fun c => decide (c.part = .handed w.page)) (fun _ => { part := .deep w.page, ptr := 0 })
            (t.setReg Reg.SPILL.PAGES_HELD (t.reg Reg.SPILL.PAGES_HELD + 1))
        else agentFree 1 w.page spillOwner t))) := by
  rw [pageWritten, hw]
  exact if_neg (not_not.2 h)

end

/-! ### The return engine (R339, R341) -/

theorem exec_returnPrefetch {s : State} (q : Fin 393216) (hl : s.live spillPage = true) :
    exec (.returnPrefetch q) s = .next (prefetch q s) := congrArg done (s.ifLive_pos _ hl)

theorem prefetch_of_idle {q : Nat} {s : State}
    (h : s.h (.qstate q) = 0 ∨ 32 * fld (admW s q 6) 16 6 < ((queueCells s q).filter CellRef.inHead).length ∨
      fld (admW s q 6) 16 6 ≤ pagesAhead s q) : prefetch q s = s := if_pos h

theorem prefetch_of_deep {q pg : Nat} {s : State} (hst : s.h (.qstate q) ≠ 0)
    (hh : ((queueCells s q).filter CellRef.inHead).length ≤ 32 * fld (admW s q 6) 16 6)
    (ha : pagesAhead s q < fld (admW s q 6) 16 6) (hp : (queueCells s q).findSome? CellRef.deepPage = some pg) :
    prefetch q s = (
      let tag := s.hn .dramTag + 1
      let w := reparts q (fun c => decide (c.part = .deep pg)) (fun c => { c with part := .asked pg })
        (s.setH .dramTag (tag : Nat))
      pageAsk 1 false pg tag { w with pageReads := w.pageReads ++ [{ tag := tag, page := pg }] }) :=
  (if_neg (not_or.2 ⟨hst, not_or.2 ⟨Nat.not_lt.2 hh, Nat.not_le.2 ha⟩⟩)).trans (by rw [hp])

/-- The oldest page that was asked for returns once no read of it is left, and is lost with an uncorrectable one. -/
theorem exec_pageReturned_of_asked {q : Fin 393216} {pg : Nat} {x : PageRead} {s : State} (hl : s.live spillPage = true)
    (hp : (queueCells s q).findSome? CellRef.askedPage = some pg) (hr : s.pageReads.find? (·.page == pg) = some x) :
    exec (.pageReturned q) s =
      .next (if x.left ≠ 0 then s else if x.ue then pageLost q pg s else pageReturn q pg s) :=
  congrArg done ((s.ifLive_pos _ hl).trans (by simp only [hp, hr]))

theorem exec_pageReturned_of_left {q : Fin 393216} {pg : Nat} {x : PageRead} {s : State}
    (hp : (queueCells s q).findSome? CellRef.askedPage = some pg) (hr : s.pageReads.find? (·.page == pg) = some x)
    (h : x.left ≠ 0) : exec (.pageReturned q) s = .next s :=
  congrArg done (s.ifLive_of_fixed (by simp only [hp, hr, if_pos h]))

/-! ### The age sweep and the age limit (R344, R345, R348) -/

theorem exec_ageSweepPass {s : State} (hl : s.live cellPage = true) :
    exec .ageSweepPass s = .next (sweepPass s) := congrArg done (s.ifLive_pos _ hl)

/-- A pass that finds no frame in a queue only takes its time. -/
theorem sweepPass_of_empty {s : State} (h : usedQueues (nextInterval cellPage .sweepAt (cycUs 1000) s) = []) :
    sweepPass s = (
      let u := nextInterval cellPage .sweepAt (cycUs 1000) s
      let w := waitRoot (u.root + 12 * 393216) u
      w.setReg Reg.CELL.SWEEP_MAX (max (w.reg Reg.CELL.SWEEP_MAX) 40960)) := by
  simp only [sweepPass, h, forEach_nil]

theorem exec_ageLimitWrite {s : State} {r : Req} (v : W32) (h : Admits s r Reg.CELL.AGE_LIMIT) :
    exec (.ageLimitWrite r v) s = .next (ageLimit r v.toNat (firstWrite r s)) := congrArg done (gateWrite_admits _ h)

theorem ageLimit_of_bad {r : Req} {v : Nat} {s : State} (h : v % 2 ^ 21 = 0 ∨ 2000000 < v % 2 ^ 21) :
    ageLimit r v s = errReq cellPage 0x10 r Reg.CELL.AGE_LIMIT v s := if_pos h

theorem ageLimit_of_good {v : Nat} (r : Req) (s : State) (h1 : 1 ≤ v % 2 ^ 21) (h2 : v % 2 ^ 21 ≤ 2000000) :
    ageLimit r v s = ageRaise (s.setReg Reg.CELL.AGE_LIMIT (v % 2 ^ 21)) :=
  if_neg (not_or.2 ⟨Nat.ne_of_gt h1, Nat.not_lt.2 h2⟩)

/-- Settles O32: the writer by what is staged and what the pool grants, a page write by what is left of it, the return engine
by what is ahead and by how the reads end, the age by its limit. -/
theorem spillAndReturn : Obligations.SpillAndReturn := by
  unfold Obligations.SpillAndReturn
  refine ⟨fun q s h => congrArg done (s.ifLive_of_fixed (spillWrite_of_idle h)), ?granted, ?noPage, ?staged,
    fun q s h => congrArg done (s.ifLive_of_fixed (pageWritten_of_none h)),
    fun q w s hw h => congrArg done (s.ifLive_of_fixed (pageWritten_of_left hw h)), ?written,
    fun q s h => congrArg done (s.ifLive_of_fixed (prefetch_of_idle h)), ?asked,
    fun q pg x s hp hr h => exec_pageReturned_of_left hp hr h, ?lost, ?returned,
    fun q base f s h => ageCheck_of_global q base h, ?empty, ?refused, fun s => rfl, ?stored,
    fun q ue s hl => exec_spillPageWrite q ue hl, fun q s hl => exec_pageWriteDone q hl,
    fun q s hl => exec_returnPrefetch q hl, fun q s hl => congrArg done (s.ifLive_pos _ hl),
    fun s hl => exec_ageSweepPass hl, fun r v s h => exec_ageLimitWrite v h⟩
  case granted =>
    intro q pg s t hl hst hn hm hg
    rw [exec_spillPageWrite q false hl, if_neg Bool.false_ne_true, spillWrite_of_granted hst hn hm hg]
  case noPage =>
    intro q s t hl hst hn hm hg
    rw [exec_spillPageWrite q false hl, if_neg Bool.false_ne_true, spillWrite_of_noPage hst hn hm hg]
  case staged =>
    intro q f s hl hf
    rw [exec_spillPageWrite q true hl, if_pos rfl, spillUe_of_staged hf]
  case written =>
    intro q w s hl hw h
    rw [exec_pageWriteDone q hl, pageWritten_of_complete hw h]
  case asked =>
    intro q pg s hl hst hh ha hp
    rw [exec_returnPrefetch q hl, prefetch_of_deep hst hh ha hp]
  case lost =>
    intro q pg x s hl hp hr h hue
    rw [exec_pageReturned_of_asked hl hp hr, if_neg (not_not.2 h), if_pos hue]
  case returned =>
    intro q pg x s hl hp hr h hue
    rw [exec_pageReturned_of_asked hl hp hr, if_neg (not_not.2 h), if_neg (Bool.eq_false_iff.1 hue)]
  case empty =>
    intro s hl h
    rw [exec_ageSweepPass hl, sweepPass_of_empty h]
  case refused =>
    rintro r v s w h rfl hv
    rw [exec_ageLimitWrite v h, ageLimit_of_bad hv]
  case stored =>
    rintro r v s w h rfl h1 h2
    rw [exec_ageLimitWrite v h, ageLimit_of_good r _ h1 h2]

end Sys2Proof.Machine
end

section
/-!
PROOFS. The credit scheduler and the VOQ engines (R312, R339, R343, R363 to R368, spec/09_queueing_scheduling.md).
-/
namespace Sys2Proof.Machine

/-! ### The choice of a child (R373) -/

theorem firstFrom_nil (p : Nat) : firstFrom p [] = none := rfl

theorem sortNat_nil : sortNat [] = [] := rfl

/-- Among no children there is none to choose. -/
theorem pickPass_nil (s : State) (x n : Nat) : pickPass s x n [] = none :=
  List.findSome?_eq_none_iff.2 fun k _ => by rw [List.filter_nil, sortNat_nil, firstFrom_nil, Option.map_none]

theorem levels_nil (s : State) (node : Nat → Bool) : levels s node [] = [[], [], [], []] := rfl

/-! ### The credit scheduler (R367, R368) -/

/-- The credit scheduler picks in a set of deficits of its own, which it numbers 2. -/
def credPick (s : State) (n : Nat) (kids : List Nat) : Option (Nat × Nat × Nat) :=
  (pickPass s 2 n kids).map fun x => (2, x.1, x.2)

theorem credPick_eq (s : State) :
    credPick s = fun n kids => (pickPass s 2 n kids).map fun x => (2, x.1, x.2) := rfl

theorem credPick_nil (s : State) (n : Nat) : credPick s n [] = none := by
  rw [credPick, pickPass_nil, Option.map_none]

/-- The descent from a node ends there where no child is eligible. -/
theorem descend_of_noKids {s : State} {pick : Nat → List Nat → Option (Nat × Nat × Nat)} (k n : Nat)
    (rest : List (List Nat)) (h : pick n [] = none) : descend s pick (k + 1) n ([] :: rest) = none := by
  rw [descend, List.filter_nil, h]

theorem credGrant_of_noQueue {p : Nat} {s : State} (h : credQueues s p = []) : credGrant p s = s := by
  have hd : descend s (credPick s) 4 (port0 + p) (levels s (fun _ => true) (credQueues s p)) = none := by
    rw [h, levels_nil, descend_of_noKids _ _ _ (credPick_nil s _)]
  rw [credPick_eq] at hd
  simp only [credGrant, hd]

/-- Each step of the descent is charged the bytes of a grant, and the grant goes to the source of the flow. -/
theorem credGrant_of_flow {p i e : Nat} {hops : List Hop} {f : Flow} {s : State}
    (hd : descend s (credPick s) 4 (port0 + p) (levels s (fun _ => true) (credQueues s p)) = some hops)
    (he : hops.getLast?.map (·.2.2.1) = some e)
    (hi : firstFrom (s.hn (.flowPtr e)) ((s.flows.filter fun f => f.e == e).map (·.slot)) = some i)
    (hf : (s.flows.find? fun f => f.slot == i) = some f) :
    credGrant p s = (
      let elig := (levels s (fun _ => true) (credQueues s p)).flatten
      let w := forEach hops s fun h s =>
        chargeChild h.2.1 h.1 h.2.2.1 h.2.2.2 8192 (chosen h.2.1 h.1 h.2.2.1 h.2.2.2 elig.contains s)
      let w := w.setH (.flowPtr e) (i + 1 : Nat)
      let w := w.setH (.pacer p) (w.h (.pacer p) - 8192 * 65536)
      credSend f.src (grantMsg f.voq e) (bump Reg.QMGR.GRANT_TX (bump (Reg.SCHED.GRANTS p) w))) := by
  obtain ⟨⟨n, x, c, k⟩, hl, rfl⟩ := Option.map_eq_some_iff.1 he
  rw [credPick_eq] at hd
  simp only [credGrant, hd, hl, hi, hf]

theorem exec_creditPacerGrant_of_off {p : Fin 128} {s : State}
    (h : linkState s p ≠ 5 ∨ s.rbit (Reg.LPORT.MAC_CFG p) 16 = false) : exec (.creditPacerGrant p) s = .next s := by
  refine congrArg done (s.when_neg _ ?_)
  rcases h with h | h
  · rw [beq_false_of_ne h, Bool.and_false, Bool.false_and]
  · rw [h, Bool.and_false]

/-- The port lets the time of its pacer pass; a pacer that stands still below the level of a grant allows none. -/
theorem exec_creditPacerGrant {p : Fin 128} {s : State} (hs : s.live schedPage = true) (hq : s.live qmgrPage = true)
    (hu : linkState s p = 5) (ht : s.rbit (Reg.LPORT.MAC_CFG p) 16 = true) :
    exec (.creditPacerGrant p) s = .next (
      let s := pacerWait p s
      if s.h (.pacer p) < -(8192 * 65536 : Int) then s else credGrant p s) :=
  congrArg done (s.when_pos _ (by rw [hs, hq, hu, ht]; rfl))

/-! ### The start of a VOQ frame (R312, R343, R363) -/

theorem exec_voqFrameStart {e : Fin 10} {s : State} (ue : Option (Fin 64)) (hq : s.live qmgrPage = true)
    (hc : s.live cellPage = true) (he : s.hb (.stuck (16 + e)) = false) :
    exec (.voqFrameStart e ue) s = .next (voqServe e ue (retStall (fun q => isVoq q && q % 10 == e.val) s)) :=
  congrArg done (s.when_pos _ (by rw [hq, hc, he]; rfl))

theorem voqServe_of_none {e : Nat} {s : State} (ue : Option (Fin 64)) (h : voqPick s e = none) :
    voqServe e ue s = s := by
  rw [voqServe, h]

section
variable {e q : Nat} {f : Frame} {s : State} (hp : voqPick s e = some q) (hf : s.firstAt (.queued q) = some f)
include hp hf

/-- The engine starts the head frame of the VOQ that it picks; only an error in the first cell keeps it from starting. -/
theorem voqServe_of_picked (ue : Option (Fin 64)) : voqServe e ue s =
    if ue = some 0 then queueLeft q (cellUe qmgrPage q 0 f.id false s) else ueAt qmgrPage q ue f (voqStart q f s) := by
  simp only [voqServe, hp, hf]

theorem voqServe_of_good : voqServe e none s = voqStart q f s :=
  (voqServe_of_picked hp hf none).trans (if_neg nofun)

theorem voqServe_of_uncorrectable {k : Fin 64} (hk : k.val < f.ncell) : voqServe e (some k) s =
    if k = 0 then queueLeft q (cellUe qmgrPage q 0 f.id false s)
    else queueLeft q (cellUe qmgrPage q k f.id true (voqStart q f s)) := by
  rw [voqServe_of_picked hp hf]
  by_cases h0 : k = 0
  · rw [if_pos h0, if_pos (congrArg some h0)]
  · have hne : (k.val != 0) = true := bne_iff_ne.2 fun h => h0 (Fin.ext h)
    rw [if_neg h0, if_neg fun h => h0 (Option.some.inj h), ueAt, if_pos hk, hne]

end

theorem voqStart_of_good {q d e : Nat} {f : Frame} {s : State} (ha : agedBy s q f = 0) (hd : voqDest s q = some (d, e))
    (hb : f.bad = false) :
    voqStart q f s = (
      let w := s.setH (.voqPtr (q % 10) (queueClass s q)) (q + 1 : Nat)
      let w := pfeSent f (bump Reg.QMGR.DEQ_VOQ (w.setH (.cb q) (w.h (.cb q) - f.heldLen)))
      queueLeft q (leaveQueue q
        { f with ctx := 8 * d + queueClass w q + 1, dq := e, sent := 0, paid := f.heldLen, started := true } w)) := by
  simp only [voqStart, ageCheck_of_young _ ha, hd, hb, Bool.and_false, Bool.false_and, Bool.false_eq_true, if_false]

/-- Settles O34: a grant by the port, its pacer and its queues; the start of a frame by the VOQ picked and the cell in error. -/
theorem creditGrantsAndVoqs : Obligations.CreditGrantsAndVoqs := by
  unfold Obligations.CreditGrantsAndVoqs
  refine ⟨fun p s h => exec_creditPacerGrant_of_off h, ?noQueue,
    fun p i e hops f s hd he hi hf => credGrant_of_flow hd he hi hf, ?noVoq, ?starts, ?uncorrectable,
    fun q d e f s ha hd hb => voqStart_of_good ha hd hb, fun e ue s hq hc he => exec_voqFrameStart ue hq hc he,
    fun p s hs hq hu ht => exec_creditPacerGrant hs hq hu ht⟩
  case noQueue =>
    rintro p s w hs hq hu ht rfl hv h
    rw [exec_creditPacerGrant hs hq hu ht]
    simp only [if_neg (Int.not_lt.2 hv), credGrant_of_noQueue h]
  case noVoq =>
    rintro e ue s w hq hc he rfl h
    rw [exec_voqFrameStart ue hq hc he, voqServe_of_none ue h]
  case starts =>
    rintro e q f s w hq hc he rfl hp hf
    rw [exec_voqFrameStart none hq hc he, voqServe_of_good hp hf]
  case uncorrectable =>
    rintro e q k f s w hq hc he rfl hp hf hk
    rw [exec_voqFrameStart (some k) hq hc he, voqServe_of_uncorrectable hp hf hk]

end Sys2Proof.Machine
end

section
/-!
PROOFS. The egress hierarchy: selections, shapers and the Fretboard (R339, R370 to R380, spec/09_queueing_scheduling.md).
-/
namespace Sys2Proof.Machine

/-! ### Charges of the hierarchy (R373) -/

section
variable {x c len : Nat} {s : State} (n k : Nat)

/-- A child whose deficit is used up gains its quantum, and the pointer passes it. -/
theorem chargeChild_of_used (h : deficit s x c - (len : Int) ≤ 0) : chargeChild x n c k len s =
    (s.setH (.dwrr x c) (deficit s x c - (len : Int) + quantum s c - 64)).setH (.ptr x n k) (c + 1 : Nat) := if_pos h

theorem chargeChild_of_left (h : 0 < deficit s x c - (len : Int)) :
    chargeChild x n c k len s = s.setH (.dwrr x c) (deficit s x c - (len : Int) - 64) := if_neg (Int.not_le.2 h)

end

/-! ### Shaper buckets (R377, R378) -/

/-- A bucket that refills, and holds no more than its burst, holds at most its burst afterwards. -/
theorem bktUpdate_of_committed {i : Nat} {s : State} (he : bktEn s false i = true) (hr : bktRate s false i ≠ 0)
    (hb : s.h (.shpC i) ≤ (bktBurst s false i * 65536 : Nat)) :
    bktUpdate false i s = s.setH (.shpC i)
      (min (s.h (.shpC i) + (refill (bktRate s false i) (s.root - s.hn (.shpAt i)) : Nat))
        (bktBurst s false i * 65536 : Nat)) := by
  have hc : (bktEn s false i && bktRate s false i != 0) = true := by rw [he, bne_iff_ne.2 hr, Bool.and_self]
  rw [← max_eq_left hb]
  exact (if_pos hc).trans (by push_cast; rfl)

/-- An entity with its committed bucket alone pays from that one. -/
theorem shpCharge_of_committed {len i : Nat} {s : State} (hs : shaping s = true)
    (hu : bktEn (shpUpdate i s) false i = true) (hc : bktEn s false i = true)
    (hp : bktEn ((shpUpdate i s).setH (.shpC i)
      ((shpUpdate i s).h (.shpC i) - max 1 ((len : Int) + sgn (shpW s i 0) 7) * 65536)) true i = false) :
    shpCharge len i s = refile i ((shpUpdate i s).setH (.shpC i)
      ((shpUpdate i s).h (.shpC i) - max 1 ((len : Int) + sgn (shpW s i 0) 7) * 65536)) := by
  simp only [shpCharge, shpTake, shpLen, hs, hc, hu, hp, Bool.not_true, Bool.true_or, Bool.or_self, Bool.false_eq_true,
    if_false, if_true]

/-! ### The Fretboard (R379, R380) -/

theorem exec_fretRelease {s : State} (i : Fin 184456) (hl : s.live shapePage = true) :
    exec (.fretRelease i) s = .next (fretRelease i s) := congrArg done (s.ifLive_pos _ hl)

theorem fretRelease_of_unfiled {i : Nat} {s : State} (h : s.hn (.fretDue i) = 0) : fretRelease i s = s := if_pos h

/-- A filed entity waits for its due time; more than one fret after it, it is late. -/
theorem fretRelease_of_filed {i due : Nat} {s : State} (h : s.hn (.fretDue i) = due + 1) :
    fretRelease i s = refile i (shpUpdate i (
      if due + 72 < (waitRoot due s).root then
        raiseFirst shapePage 0 (bump Reg.SHAPE.FRET_LATE (waitRoot due s))
      else waitRoot due s)) := by
  simp only [fretRelease, h, Nat.succ_ne_zero, Nat.add_sub_cancel, if_false]

theorem exec_coarseFretAdvance {s : State} (hl : s.live shapePage = true) :
    exec .coarseFretAdvance s = .next (coarseAdvance s) := congrArg done (s.ifLive_pos _ hl)

section
variable {s w : State} (hw : waitRoot ((s.root / 73728 + 1) * 73728) s = w)
include hw

theorem coarseAdvance_of_empty (h : filedAt w 2 = []) : coarseAdvance s = w := by
  simp only [coarseAdvance, hw, h, forEach_nil]

theorem coarseAdvance_of_one {i : Nat} (h : filedAt w 2 = [i])
    (hd : (w.hn (.fretDue i) - 1) / 73728 ≤ w.root / 73728) :
    coarseAdvance s = setFret i (w.hn (.fretDue i)) 1 w := by
  simp only [coarseAdvance, hw, h, forEach_cons, forEach_nil, if_pos hd]

end

theorem exec_farListScan {s : State} (hl : s.live shapePage = true) :
    exec .farListScan s = .next (farScan s) := congrArg done (s.ifLive_pos _ hl)

theorem farScan_of_empty {s : State} (h : filedAt s 3 = []) : farScan s = s := by
  rw [farScan, h, forEach_nil]

theorem farScan_of_one {i : Nat} {s : State} (h : filedAt s 3 = [i]) :
    farScan s =
      if s.hn (.fretDue i) - 1 ≤ s.root + 4096 * 73728 then setFret i (s.hn (.fretDue i)) 2 s else s := by
  rw [farScan, h, forEach_cons, forEach_nil]

/-! ### The selection (R118, R360, R374) -/

theorem exec_schedSelection {s : State} (full : BitVec 136) (ue : Option (Fin 64)) (hs : s.live schedPage = true)
    (hq : s.live qmgrPage = true) (hc : s.live cellPage = true) :
    exec (.schedSelection full ue) s = .next (schedSelect full.toNat ue (retStall (fun q => decide (egqBase ≤ q)) s)) :=
  congrArg done (s.when_pos _ (by rw [hs, hq, hc]; rfl))

theorem schedSelect_of_none {full : Nat} {s : State} (ue : Option (Fin 64)) (h : selection s full = none) :
    schedSelect full ue s = s := by
  rw [schedSelect, h]

/-- A head frame that is not aged is charged along the descent, then to the shapers of its path, and leaves. -/
theorem schedSelect_of_selected {full p e : Nat} {hops : List Hop} {f : Frame} {s : State}
    (hsel : selection s full = some (p, hops)) (he : hops.getLast?.map (·.2.2.1) = some e)
    (hf : s.firstAt (.queued (egqBase + e)) = some f) (ha : agedBy s (egqBase + e) f = 0) :
    schedSelect full none s = (
      let elig := (levels s (fun i => entEn s i && permits s i) (eligQueues s)).flatten
      let t := s.setH .portPtr (p + 1 : Nat)
      let u := forEach hops t fun h s => chargeChild h.2.1 h.1 h.2.2.1 h.2.2.2 f.heldLen
        (chosen h.2.1 h.1 h.2.2.1 h.2.2.2 (fun i => elig.contains i && (h.2.1 == 1 || committed s i)) s)
      dequeued p e (hops.map (hopStep t f.heldLen)) f (forEach (pathOf t e) u fun i u => shpCharge f.heldLen i u)) := by
  obtain ⟨⟨n, x, c, k⟩, hl, rfl⟩ := Option.map_eq_some_iff.1 he
  simp only [schedSelect, hsel, hl, hf, ageCheck_of_young _ ha, ueAt]

/-- A frame whose end is not known to be bad leaves for its port; without a launch time it has been sent as a PFE frame. -/
theorem dequeued_of_good {p : Nat} {f : Frame} (e : Nat) (hops : List Step) (s : State) (hb : f.bad = false)
    (hp : p < 128) :
    dequeued p e hops f s = (
      let l := (queueLaunch s (egqBase + e) p f).map launchBits
      let u := fsCount (3145728 + e) f.heldLen (bumpBy (Reg.SCHED.DEQ_BYTES p) f.heldLen
        (bump (Reg.SCHED.DEQ_FRAMES p) (bump Reg.QMGR.DEQ_EGQ s)))
      let u := if l.isNone then pfeSent f u else u
      queueLeft (egqBase + e) (leaveQueue (egqBase + e)
        { f with outPort := p, launch := l, cut := f.cut || !f.whole, hops := hops, paid := f.heldLen, started := true }
        u)) := by
  simp only [dequeued, hp, hb, Bool.false_and, Bool.false_eq_true, if_false, if_true]

/-- Settles O35: the selection by what it finds, charges and buckets by their levels, the Fretboard by what is filed where
and when it is due. -/
theorem schedulerAndShapers : Obligations.SchedulerAndShapers := by
  unfold Obligations.SchedulerAndShapers
  refine ⟨?noPort, ?selected, fun x n c k len s h => chargeChild_of_used n k h,
    fun x n c k len s h => chargeChild_of_left n k h, fun i s he hr hb => bktUpdate_of_committed he hr hb,
    fun len i s hs hu hc _ hp => shpCharge_of_committed hs hu hc hp,
    fun i s h => congrArg done (s.ifLive_of_fixed (fretRelease_of_unfiled h)), ?inTime, ?late, ?coarseEmpty, ?coarseOne,
    ?farOne, fun s h => congrArg done (s.ifLive_of_fixed (farScan_of_empty h)),
    fun p e hops f s hb hp => dequeued_of_good e hops s hb hp,
    fun full ue s hs hq hc => exec_schedSelection full ue hs hq hc, fun i s hl => exec_fretRelease i hl,
    fun s hl => exec_coarseFretAdvance hl, fun s hl => exec_farListScan hl⟩
  case noPort =>
    rintro full ue s w hs hq hc rfl h
    rw [exec_schedSelection full ue hs hq hc, schedSelect_of_none ue h]
  case selected =>
    rintro full p e hops f s w hs hq hc rfl hsel he hf ha
    rw [exec_schedSelection full none hs hq hc, schedSelect_of_selected hsel he hf ha]
  case inTime =>
    intro i due s hl h ht
    rw [exec_fretRelease i hl, fretRelease_of_filed h, if_neg (Nat.not_lt.2 ht)]
  case late =>
    intro i due s hl h ht
    rw [exec_fretRelease i hl, fretRelease_of_filed h, if_pos ht]
  case coarseEmpty =>
    intro s hl h
    rw [exec_coarseFretAdvance hl, coarseAdvance_of_empty rfl h]
  case coarseOne =>
    intro i s w hl hw h hd
    rw [exec_coarseFretAdvance hl, coarseAdvance_of_one hw h hd]
  case farOne =>
    intro i s hl h
    rw [exec_farListScan hl, farScan_of_one h]

end Sys2Proof.Machine
end

section
/-!
PROOFS. Request states, STATUS and GRANT messages and credit flows (R363 to R369, R415,
spec/09_queueing_scheduling.md).
-/
namespace Sys2Proof.Machine

/-! ### The request state of a VOQ (R365) -/

theorem wantsCredit_of_backlog {q : Nat} {s : State} (h : max (s.h (.cb q)) 0 < (backlogBytes s q : Int)) :
    wantsCredit s q = true := decide_eq_true h

theorem isVoq_of_lt {q : Nat} (h : q < egqBase) : isVoq q = true := decide_eq_true h

/-- A request state that differs from what the backlog asks for changes, and the change is sent. -/
theorem voqEval_of_change {q : Nat} {s : State} (hq : isVoq q = true) (hl : s.live qmgrPage = true)
    (h : wantsCredit s q ≠ s.hb (.inReq q)) :
    voqEval q s = sendStatus q (s.setHb (.inReq q) (wantsCredit s q)) :=
  if_pos (by rw [hq, hl, bne_iff_ne.2 h]; rfl)

theorem voqEval_of_request {q : Nat} {s : State} (hq : q < egqBase) (hl : s.live qmgrPage = true)
    (hb : max (s.h (.cb q)) 0 < (backlogBytes s q : Int)) (hr : s.hb (.inReq q) = false) :
    voqEval q s = sendStatus q (s.setHb (.inReq q) true) := by
  have hw := wantsCredit_of_backlog hb
  have hne : wantsCredit s q ≠ s.hb (.inReq q) := by rw [hw, hr]; exact Bool.noConfusion
  rw [voqEval_of_change (isVoq_of_lt hq) hl hne, hw]

/-- The repetition that STATUS_REPEAT makes while its block performs its function. -/
def statusRepeated (q : Nat) (s : State) : State :=
  if s.hb (.inReq q) then
    sendStatus q (waitSince qmgrPage (.statusAt q) (cycUs (s.reg Reg.QMGR.STATUS_IVL)) s)
  else s

theorem exec_statusRepeat {s : State} (q : Fin 262144) (hl : s.live qmgrPage = true) :
    exec (.statusRepeat q) s = .next (statusRepeated q s) := congrArg done (s.ifLive_pos _ hl)

theorem statusRepeated_of_request {q : Nat} {s : State} (h : s.hb (.inReq q) = true) :
    statusRepeated q s = sendStatus q (waitSince qmgrPage (.statusAt q) (cycUs (s.reg Reg.QMGR.STATUS_IVL)) s) :=
  if_pos h

theorem statusRepeated_of_noRequest {q : Nat} {s : State} (h : s.hb (.inReq q) = false) : statusRepeated q s = s :=
  if_neg (Bool.eq_false_iff.1 h)

/-- Out of request the command leaves the state, whether its block performs its function or not. -/
theorem exec_statusRepeat_of_noRequest {q : Fin 262144} {s : State} (h : s.hb (.inReq q) = false) :
    exec (.statusRepeat q) s = .next s :=
  congrArg done (s.ifLive_of_fixed (statusRepeated_of_noRequest h))

/-! ### STATUS and GRANT messages that arrive (R366, R369) -/

theorem statusIn_of_disabled {e : Nat} {s : State} (x q : Nat) (req : Bool) (h : entEn s e = false) :
    statusIn x q e req s = raiseFirst qmgrPage 1 (bump Reg.QMGR.STATUS_BAD s) := if_pos (by rw [h]; rfl)

section
variable {x q e : Nat} {s : State} (he : entEn s e = true)
include he

theorem statusIn_of_noRequest :
    statusIn x q e false s = setFlows (s.flows.filter fun f => !(f.src == x && f.voq == q)) s := by
  simp only [statusIn, he, Bool.not_true, Bool.not_false, Bool.false_eq_true, if_false, if_true]

/-- The first STATUS in request of a VOQ opens a flow in the first free slot. -/
theorem statusIn_of_newFlow (hf : findFlow s x q = none) (hc : s.flows.length < s.reg Reg.QMGR.CFLOW_CAP) :
    statusIn x q e true s = setFlows (insFlow ⟨firstGap 1 0 (s.flows.map (·.slot)), x, q, e, s.root⟩ s.flows) s := by
  simp only [statusIn, he, hf, Nat.not_le.2 hc, Bool.not_true, Bool.false_eq_true, if_false]

end

theorem grantIn_of_valid {q : Nat} {s : State} (hq : q < 262144) (hv : bit (s.tab qmgrPage 2 (q / 8)) 31 = true) :
    grantIn q s = (
      let w := bumpBy Reg.QMGR.CRED_WASTE (min 8192 (s.h (.cb q) + 8192 - (s.reg Reg.QMGR.CB_MAX : Int)).toNat) s
      voqEval q (w.setH (.cb q) (min (s.h (.cb q) + 8192) (s.reg Reg.QMGR.CB_MAX : Int)))) := by
  refine if_neg ?_
  rintro (h | h)
  · exact absurd hq (Nat.not_lt.2 h)
  · rw [hv] at h
    exact absurd h Bool.false_ne_true

/-! ### The timeout of a credit flow (R366) -/

theorem flowTimeout_of_free {i : Nat} {s : State} (h : (s.flows.find? fun f => f.slot == i) = none) :
    flowTimeout i s = s := by
  simp only [flowTimeout, h]

/-- The flow's time passes, and then the flow goes and is counted. -/
theorem flowTimeout_of_flow {i : Nat} {f : Flow} {s : State} (h : (s.flows.find? fun f => f.slot == i) = some f) :
    flowTimeout i s = (
      let w := waitRoot (f.since + cycUs (s.reg Reg.QMGR.FLOW_TIMEOUT)) s
      setFlows (w.flows.filter fun g => g.slot != i) (bump Reg.QMGR.CFLOW_TIMEOUT w)) := by
  simp only [flowTimeout, h]

theorem exec_creditFlowTimeout {s : State} (i : Fin 262144) (hl : s.live qmgrPage = true) :
    exec (.creditFlowTimeout i) s = .next (flowTimeout i s) := congrArg done (s.ifLive_pos _ hl)

/-- Settles O33: the request state by the backlog and the balance, a STATUS by its egress queue and its request state, a
GRANT by the balance it meets, and a timeout by the flow of its slot. -/
theorem creditRequests : Obligations.CreditRequests := by
  unfold Obligations.CreditRequests
  refine ⟨?repeats, fun q s => rfl, fun q s h => exec_statusRepeat_of_noRequest h,
    fun q s hq hl hb hr => voqEval_of_request hq hl hb hr, fun x q e req s h => statusIn_of_disabled x q req h,
    fun x q e s he hf hc => statusIn_of_newFlow he hf hc, fun x q e s he => statusIn_of_noRequest he,
    fun q s hq hv => grantIn_of_valid hq hv, ?timesOut, ?freeSlot, fun q s hl => exec_statusRepeat q hl,
    fun i s hl => exec_creditFlowTimeout i hl⟩
  case repeats =>
    intro q s hl h
    rw [exec_statusRepeat q hl, statusRepeated_of_request h]
  case timesOut =>
    intro i f s hl h
    rw [exec_creditFlowTimeout i hl, flowTimeout_of_flow h]
  case freeSlot =>
    intro i s h
    exact congrArg done (s.ifLive_of_fixed (flowTimeout_of_free h))

end Sys2Proof.Machine
end

section
/-!
PROOFS. Fabric links, and the cells that they carry for themselves (R397 to R400, R407 to R409, R422,
spec/10_fabric.md; R285, R365).
-/
namespace Sys2Proof.Machine

/-! ### Events of a link by its state (R398) -/

theorem onLink_of_mem {l : Nat} {sts : List Nat} {s : State} (f : State → State) (hl : s.live (fgPage l) = true)
    (hst : flinkState s l ∈ sts) : onLink l sts f s = f s :=
  s.when_pos f (by rw [hl, List.contains_iff_mem.2 hst]; rfl)

theorem onLink_of_not_mem {l : Nat} {sts : List Nat} {s : State} (f : State → State) (hst : flinkState s l ∉ sts) :
    onLink l sts f s = s :=
  State.when_neg f (by simp [hst])

/-- No event of a link acts on one that is DISABLED. -/
theorem onLink_of_disabled {l : Nat} {sts : List Nat} {s : State} (f : State → State) (hd : flinkState s l = 0)
    (h0 : 0 ∉ sts) : onLink l sts f s = s :=
  onLink_of_not_mem f (hd ▸ h0)

/-! ### Writes of `LINK_CFG` (R398, R400) -/

theorem exec_fabricLinkEnable {s : State} {r : Req} {l : Fin 192} (v : W32) (h : Admits s r (linkCfgReg l)) :
    exec (.fabricLinkEnable r l v) s = .next (flinkCfg r l v.toNat (firstWrite r s)) := congrArg done (gateWrite_admits _ h)

theorem exec_linkDrainWrite {s : State} {r : Req} {l : Fin 192} (v : W32) (h : Admits s r (linkCfgReg l)) :
    exec (.linkDrainWrite r l v) s = .next (flinkCfg r l v.toNat (firstWrite r s)) := congrArg done (gateWrite_admits _ h)

section
variable {r : Req} {l v : Nat} {s : State}

theorem flinkCfg_of_unlocked (hen : bit (v &&& 0xC7000000) 31 = true) (hfab : s.rbit (Reg.BLK_CTL fabPage) 2 = false) :
    flinkCfg r l v s = errReq (fgPage l) 0x11 r (linkCfgReg l) v s := by
  simp only [flinkCfg, hen, hfab, Bool.not_false, Bool.and_self, if_true]

/-- A disabled link that is enabled starts its stream with a reachability segment and a keepalive. -/
theorem flinkCfg_of_enable (hen : bit (v &&& 0xC7000000) 31 = true) (hfab : s.rbit (Reg.BLK_CTL fabPage) 2 = true)
    (hwas : s.rbit (linkCfgReg l) 31 = false) :
    flinkCfg r l v s =
      let u := keepaliveTx l (reachTx l
        ((txBegins l (flinkSet l 1 (s.setReg (linkCfgReg l) (v &&& 0xC7000000)))).setH (.reachSeg l) 0))
      linkEval l (if s.rbit (linkCfgReg l) 30 = bit (v &&& 0xC7000000) 30 then u else idleTx l u) := by
  simp only [flinkCfg, hen, hfab, hwas, Bool.not_true, Bool.not_false, Bool.and_false, Bool.true_and, Bool.false_eq_true,
    if_false, if_true, bne_iff_ne, ne_eq, ite_not]

/-- A write that leaves the enable as it is stores the drain and the plane. -/
theorem flinkCfg_of_sameEnable (hsame : bit (v &&& 0xC7000000) 31 = s.rbit (linkCfgReg l) 31)
    (hfab : bit (v &&& 0xC7000000) 31 = false ∨ s.rbit (Reg.BLK_CTL fabPage) 2 = true) :
    flinkCfg r l v s =
      let u := s.setReg (linkCfgReg l) (v &&& 0xC7000000)
      linkEval l (if bit (v &&& 0xC7000000) 31 = true ∧ s.rbit (linkCfgReg l) 30 ≠ bit (v &&& 0xC7000000) 30
        then idleTx l u else u) := by
  have haccepted : (bit (v &&& 0xC7000000) 31 && !s.rbit (Reg.BLK_CTL fabPage) 2) = false := by
    rcases hfab with h | h <;> simp [h]
  simp only [flinkCfg, haccepted, ← hsame, Bool.not_and_self, Bool.and_not_self, Bool.false_eq_true, if_false,
    Bool.and_eq_true, bne_iff_ne]

theorem flinkCfg_of_disable (hen : bit (v &&& 0xC7000000) 31 = false) (hwas : s.rbit (linkCfgReg l) 31 = true) :
    flinkCfg r l v s = linkEval l (flinkSet l 0 (s.setReg (linkCfgReg l) (v &&& 0xC7000000))) := by
  simp only [flinkCfg, hen, hwas, Bool.not_true, Bool.not_false, Bool.and_self, Bool.false_and,
    Bool.false_eq_true, if_false, if_true]

end

/-! ### The receiver of a link (R397, R398) -/

theorem exec_controlWordRx {l : Fin 192} {s : State} (x : BitVec 20) (hl : s.live (fgPage l) = true)
    (hst : flinkState s l ∈ [3, 4, 5]) : exec (.controlWordRx l x) s = .next (controlWord l x.toNat s) :=
  congrArg done (onLink_of_mem _ hl hst)

theorem exec_fabricUpHoldExpire_of_clean {l : Fin 192} {s : State} (hl : s.live (fgPage l) = true)
    (hc : peerClean s l = true) (hat : s.h (.peerAt l) ≠ 0) :
    exec (.fabricUpHoldExpire l) s = .next (flinkSet l 4
      (waitRoot (s.hn (.peerAt l) - 1 + cycUs (s.reg (Reg.FG.UP_HOLD (l / 32)))) s)) :=
  congrArg done (s.when_pos _ (by rw [hl, hc, bne_iff_ne.2 hat]; rfl))

theorem exec_fabricUpHoldExpire_of_unclean {l : Fin 192} {s : State} (hc : peerClean s l = false) :
    exec (.fabricUpHoldExpire l) s = .next s :=
  congrArg done (State.when_neg _ (by rw [hc, Bool.and_false, Bool.false_and]))

/-! ### The reasons for HELD (R400) -/

theorem heldWhy_of_drained {s : State} {l : Nat} (h : s.rbit (linkCfgReg l) 30 = true) : heldWhy s l = 1 := if_pos h

/-- A window with more uncorrectable codewords than the threshold starts the DEGRADE hold. -/
theorem degWindow_of_degraded {l a b c : Nat} {s w : State}
    (hw : bumpBy (Reg.FG.CW_CORR (l / 32) (l % 32)) a (bumpBy (Reg.FG.CW_UNCORR (l / 32) (l % 32)) b
      (bumpBy (Reg.FG.SYM_CORR (l / 32) (l % 32)) c s)) = w)
    (hb : b ≠ 0) (hthr : w.reg (Reg.FG.DEG_THR (l / 32)) < b) :
    degWindow l a b c s = linkEval l ((w.setH (.degClean l) 0).setHb (.degOn l) true) := by
  simp only [degWindow, hw, hb, State.reg_setH, hthr, Nat.zero_min, Nat.cast_zero, if_false, if_true]

theorem kaLoss_of_new {l : Nat} {s w : State} (hw : waitRoot (s.hn (.kaRx l) + 4 * cycUs (s.reg Reg.FAB.KA_IVL)) s = w)
    (hk : w.hb (.kaLost l) = false) :
    kaLoss l s = linkEval l (raise (fgPage l) 3 (w.setHb (.kaLost l) true)) := by
  simp only [kaLoss, hw, hk, Bool.false_eq_true, if_false]

/-! ### Link cells that arrive (R396, R407 to R409) -/

theorem exec_keepaliveRx_of_up {l : Fin 192} {s : State} (x : List Byte) (err : Bool) (hl : s.live (fgPage l) = true)
    (hst : flinkState s l = 4) : exec (.keepaliveRx l x err) s = .next (linkIn l x err s) :=
  congrArg done (onCell_of_locked x err hl hst)

theorem exec_reachCellRx_of_up {l : Fin 192} {s : State} (x : List Byte) (err : Bool) (hl : s.live (fgPage l) = true)
    (hst : flinkState s l = 4) : exec (.reachCellRx l x err) s = .next (linkIn l x err s) :=
  congrArg done (onCell_of_locked x err hl hst)

section
variable {l : Nat} {x : List Byte} {s : State} (hd : s.hb (.lnkDisc l) = false)
include hd

theorem linkIn_of_keepalive (hh : hcrcOk x = true) (ht : cellType x = 6) :
    linkIn l x false s = keepaliveIn l x (bump (Reg.FG.CELLS_RX (l / 32) (l % 32)) s) := by
  have h15 : (6 : Nat) ≠ 15 := by decide
  have h5 : (6 : Nat) ≠ 5 := by decide
  simp only [linkIn, hd, hh, ht, h15, h5, Bool.not_true, Bool.false_eq_true, if_false, if_true]

theorem linkIn_of_reach (hh : hcrcOk x = true) (ht : cellType x = 5) :
    linkIn l x false s = reachIn l x (bump (Reg.FG.CELLS_RX (l / 32) (l % 32)) s) := by
  have h15 : (5 : Nat) ≠ 15 := by decide
  simp only [linkIn, hd, hh, ht, h15, Bool.not_true, Bool.false_eq_true, if_false, if_true]

/-- A cell in error is counted; one with a wrong HCRC takes the stream after it along. -/
theorem linkIn_of_bad {err : Bool} (h : err = true ∨ hcrcOk x = false) :
    linkIn l x err s =
      if err then bump (Reg.FG.CELL_ERR_DISC (l / 32) (l % 32)) s
      else (bump (Reg.FG.HCRC_ERR (l / 32) (l % 32)) s).setHb (.lnkDisc l) true := by
  cases err with
  | true => simp only [linkIn, hd, Bool.false_eq_true, if_false, if_true]
  | false =>
    have hh : hcrcOk x = false := h.resolve_left Bool.false_ne_true
    simp only [linkIn, hd, hh, Bool.not_false, Bool.false_eq_true, if_false, if_true]

end

/-- A keepalive of version 1 stores the peer and ends the KA hold. -/
theorem keepaliveIn_of_good {l : Nat} {x : List Byte} {w : State} (hn : cellLen x = 3)
    (hv : byteAt (cellPayload x) 0 = 1) (hr : byteAt (cellPayload x) 1 ≤ 1) :
    keepaliveIn l x w =
      let p := cellPayload x
      let far := beAt p 4 2
      let v := byteAt p 1 * 2 ^ 31 + byteAt p 6 % 8 * 2 ^ 24 + (if far < 256 then far else 0) * 2 ^ 16 + beAt p 2 2
      let t := w.setReg (Reg.FG.PEER (l / 32) (l % 32)) v
      linkEval l (((t.setHb (.kaGood l) true).setHb (.kaLost l) false).setH (.kaRx l) (t.root : Nat)) :=
  if_neg (by rintro (h | h | h) <;> omega)

theorem exec_reachSegmentTimeout {l : Fin 192} {s : State} (g : Fin 4) (hf : s.live fabPage = true)
    (hl : s.live (fgPage l) = true) : exec (.reachSegmentTimeout l g) s = .next (segTimeout l g s) :=
  congrArg done (s.when_pos _ (by rw [hf, hl]; rfl))

/-! ### Writes of `KA_IVL` and `REACH_IVL` (R409) -/

theorem exec_kaIvlWrite {s : State} {r : Req} {reach : Bool} (v : W32)
    (h : Admits s r (if reach then Reg.FAB.REACH_IVL else Reg.FAB.KA_IVL)) :
    exec (.kaIvlWrite r reach v) s = .next (ivlWrite r reach v.toNat (firstWrite r s)) :=
  congrArg done (gateWrite_admits _ h)

theorem ivlWrite_of_zero {r : Req} {reach : Bool} {v : Nat} {s : State} (h : v % 256 = 0) :
    ivlWrite r reach v s = errReq fabPage 0x10 r (if reach then Reg.FAB.REACH_IVL else Reg.FAB.KA_IVL) v s := if_pos h

/-- With every link DISABLED no cell can be overdue. -/
theorem ivlWrite_of_noLink {r : Req} {reach : Bool} {v : Nat} {s : State} (h : v % 256 ≠ 0)
    (hn : activeLinks (s.setReg (if reach then Reg.FAB.REACH_IVL else Reg.FAB.KA_IVL) (v % 256)) = []) :
    ivlWrite r reach v s = s.setReg (if reach then Reg.FAB.REACH_IVL else Reg.FAB.KA_IVL) (v % 256) := by
  simp only [ivlWrite, h, hn, forEach_nil, if_false]

/-- Settles O36: a write of a link by its enable before and after it, an event by the state of its link, a cell by its type
and whether it is sound, an interval by whether it is zero. -/
theorem fabricLinksAndCells : Obligations.FabricLinksAndCells := by
  unfold Obligations.FabricLinksAndCells
  refine ⟨?unlocked, ?enable, ?sameEnable, ?disable, ?signal, ?lock, ?lockLoss, ?signalLoss, ?disabled, ?control,
    fun l s hl hc hat => exec_fabricUpHoldExpire_of_clean hl hc hat, fun l s hc => exec_fabricUpHoldExpire_of_unclean hc,
    ?degraded, fun l s h => heldWhy_of_drained h, fun r l v s h => exec_fabricLinkEnable v h,
    fun r l v s h => exec_linkDrainWrite v h, fun l s => rfl, fun l s => rfl, fun l s => rfl, fun l s => rfl,
    fun l w s => rfl, fun l corr uncorr sym s => rfl, ?keepaliveSent, fun l s => rfl, ?reachSent, ?noneSent, ?kaLost,
    ?keepalive, ?reach, ?bad, fun l g s hf hl => exec_reachSegmentTimeout g hf hl, ?zero, ?stored, fun l s => rfl,
    fun l s => rfl, fun l x err s => rfl, fun l s => rfl, fun l x err s => rfl, fun r reach v s h => exec_kaIvlWrite v h⟩
  case unlocked =>
    rintro r l v s w h rfl hen hfab
    rw [exec_fabricLinkEnable v h, flinkCfg_of_unlocked hen (by rwa [firstWrite_rbit])]
  case enable =>
    rintro r l v s w h rfl hen hfab hwas
    rw [exec_fabricLinkEnable v h, flinkCfg_of_enable hen (by rwa [firstWrite_rbit]) (by rwa [firstWrite_rbit])]
  case sameEnable =>
    rintro r l v s w h rfl hsame hfab
    rw [exec_linkDrainWrite v h, flinkCfg_of_sameEnable (by rwa [firstWrite_rbit]) (by rwa [firstWrite_rbit])]
  case disable =>
    rintro r l v s w h rfl hen hwas
    rw [exec_fabricLinkEnable v h, flinkCfg_of_disable hen (by rwa [firstWrite_rbit])]
  case signal | lock | keepaliveSent | reachSent =>
    intro l s hl hst
    exact congrArg done (onLink_of_mem _ hl (by simp [hst]))
  case lockLoss | signalLoss =>
    intro l s hl hst
    exact congrArg done (onLink_of_mem _ hl (by simpa using hst))
  case disabled =>
    intro l s hd
    exact ⟨congrArg done (onLink_of_disabled _ hd (by decide)), congrArg done (onLink_of_disabled _ hd (by decide)),
      congrArg done (onLink_of_disabled _ hd (by decide)), congrArg done (onLink_of_disabled _ hd (by decide))⟩
  case control =>
    rintro l x s u w hl hst rfl rfl
    exact exec_controlWordRx x hl (by simpa using hst)
  case degraded =>
    intro l a b c s w hl hst hw hb hthr
    refine congrArg done ?_
    rw [onLink_of_mem _ hl (by simp [hst]), degWindow_of_degraded hw hb hthr]
  case noneSent =>
    intro l s hd
    exact ⟨congrArg done (onLink_of_disabled _ hd (by decide)), congrArg done (onLink_of_disabled _ hd (by decide))⟩
  case kaLost =>
    intro l s w hl hst hw hk
    refine congrArg done ?_
    rw [onLink_of_mem _ hl (by simp [hst]), kaLoss_of_new hw hk]
  case keepalive =>
    rintro l x s w hl hst hd hh ht rfl hn hv hr
    rw [exec_keepaliveRx_of_up x false hl hst, linkIn_of_keepalive hd hh ht, keepaliveIn_of_good hn hv hr]
  case reach =>
    rintro l x s w hl hst hd hh ht rfl
    rw [exec_reachCellRx_of_up x false hl hst, linkIn_of_reach hd hh ht]
  case bad =>
    intro l x err s hl hst hd h
    rw [exec_keepaliveRx_of_up x err hl hst, linkIn_of_bad hd h]
  case zero =>
    rintro r reach v s w h rfl hv
    rw [exec_kaIvlWrite v h, ivlWrite_of_zero hv]
  case stored =>
    rintro r reach v s w h rfl hv hn
    rw [exec_kaIvlWrite v h, ivlWrite_of_noLink hv hn]

end Sys2Proof.Machine
end

section
/-!
PROOFS. The step, and what every command leaves as it was (spec/98_reader.md, spec/01_architecture.md).
-/
namespace Sys2Proof.Machine

/-- Settles O1: the step takes the front command off the queue. -/
theorem stepRunsTheFrontCommand : Obligations.StepRunsTheFrontCommand := by
  unfold Obligations.StepRunsTheFrontCommand
  intro c cs s hq
  simp only [step, hq]

/-- Settles O54: the law of each meaning holds with all the areas outside `cmdAreas`. -/
theorem commandsKeepTheirBounds : Obligations.CommandsKeepTheirBounds := by
  unfold Obligations.CommandsKeepTheirBounds
  intro c s t ht
  have hk : Kept (· ∉ cmdAreas c) s t := exec_kept c s t ht
  exact ⟨hk.pending, hk.out, hk.area⟩

end Sys2Proof.Machine
end

section
/-!
PROOFS. The interrupt controller and the reload of a lost pair (R471 to R480, R648, spec/12_control_complex.md).
-/
namespace Sys2Proof.Machine

@[simp] theorem stackOf_firstWrite (r : Req) (s : State) (t : Nat) : stackOf (firstWrite r s) t = stackOf s t := by
  rw [stackOf, stackOf, firstWrite_stacks]

/-! ### The reload of a lost pair (R471, R648) -/

theorem exec_coreAutoReload_of_due {x : Fin 2} {s : State} (hp : pairRuns s = true) (ha : s.hb (.autoLoad x) = true) :
    exec (.coreAutoReload x) s = .next (if faultedThrice s x then s.setHb (.autoLoad x) false
      else requestLoad x (s.hn (.coreSlot x)) 2 s) :=
  congrArg done (s.when_pos _ (by rw [hp, ha]; rfl))

theorem exec_coreAutoReload_of_notDue {x : Fin 2} {s : State} (ha : s.hb (.autoLoad x) = false) :
    exec (.coreAutoReload x) s = .next s :=
  congrArg done (State.when_neg _ (by rw [ha, Bool.and_false]))

theorem faultedThrice_iff (x : Nat) (s : State) :
    faultedThrice s x = true ↔ s.h (.coreFaultAt x 2) ≠ 0 ∧
      s.hn (.coreFaultAt x 0) - s.hn (.coreFaultAt x 2) < 10000000 * 7200 := by
  rw [faultedThrice, Bool.and_eq_true, bne_iff_ne, decide_eq_true_eq]

/-- Settles O42: the loss itself, and the automatic reload by whether one is due and how often the core has faulted. -/
theorem lostPair : Obligations.LostPair := by
  unfold Obligations.LostPair
  refine ⟨?lost, fun x s hp ha => exec_coreAutoReload_of_due hp ha, fun x s => faultedThrice_iff x s,
    fun x s ha => exec_coreAutoReload_of_notDue ha⟩
  case lost =>
    rintro x ts s w rfl
    rfl

/-! ### Doorbells (R472) -/

theorem exec_doorbell {s : State} {r : Req} (v : W32) (h : Admits s r Reg.INTC.DOORBELL) :
    exec (.doorbell r v) s = .next (doorbell r v.toNat (firstWrite r s)) := congrArg done (gateWrite_admits _ h)

/-- A running INTC sets the pending bit of a source that exists. -/
theorem ring_of_live {s : State} {x : Nat} (hl : s.live intcPage = true) (hx : srcOk x = true) :
    ring x s = intcUpdate (setPend x s) := by
  have hc : s.clocked intcPage = true := by
    simp only [State.live, Bool.and_eq_true] at hl
    exact hl.1.1
  simp only [ring, hc, hl, hx, Bool.not_true, Bool.false_eq_true, if_false, if_true]

theorem doorbell_of_source {r : Req} {v : Nat} {s : State} (hl : s.live intcPage = true) (h0 : v ≠ 0) (h1 : v < 0xFFF) :
    doorbell r v s = intcUpdate (setPend v s) := by
  rw [doorbell, if_neg (by omega), ring_of_live hl (by simp only [srcOk, h1, Nat.pos_of_ne_zero h0, decide_true, Bool.and_self])]

theorem doorbell_of_noSource {r : Req} {v : Nat} {s : State} (h : v = 0 ∨ 0xFFF ≤ v) :
    doorbell r v s = errReq intcPage 0x10 r Reg.INTC.DOORBELL v (bump Reg.INTC.DB_BAD s) := if_pos h

/-- Two pending words share no address, and none is a copy. -/
theorem pendReg_inj {j k : Nat} : Reg.INTC.PEND j = Reg.INTC.PEND k ↔ j = k := by
  simp only [Reg.INTC.PEND]
  omega

theorem rbit_setPend {s : State} (x k b : Nat) (h : Smap.Canonical regDefault s.regs) :
    (setPend x s).rbit (Reg.INTC.PEND k) b =
      if x / 32 = k ∧ x % 32 = b then true else s.rbit (Reg.INTC.PEND k) b := by
  have hset : (setPend x s).rbit (Reg.INTC.PEND k) b =
      (s.setRbit (Reg.INTC.PEND (x / 32)) (x % 32) true).rbit (Reg.INTC.PEND k) b := rfl
  rw [hset, State.rbit_setRbit _ _ _ _ _ (by omega) h]
  simp only [pendReg_inj]

theorem rbit_intcUpdate {s : State} (h : Smap.Canonical regDefault s.regs) {a : Nat} (ha : a < 2 ^ 32) (i : Nat) :
    (intcUpdate s).rbit a i = s.rbit a i := by
  rw [State.rbit, State.rbit, intcUpdate_reg h ha]

theorem setPend_regs {s : State} (x : Nat) (h : Smap.Canonical regDefault s.regs) :
    Smap.Canonical regDefault (setPend x s).regs := State.regs_setRbit _ _ _ h

/-- Settles O59: a pending bit after the doorbell, through the presentation that follows it. -/
theorem doorbellSetsPending : Obligations.DoorbellSetsPending := by
  unfold Obligations.DoorbellSetsPending
  refine ⟨?source, ?noSource⟩
  case source =>
    intro r v s hs h hl h0 h1
    have hregs : Smap.Canonical regDefault (firstWrite r s).regs := by rw [firstWrite_regs]; exact hs.regs
    have hpend (k b : Nat) (hk : k < 128) : (intcUpdate (setPend v.toNat (firstWrite r s))).rbit (Reg.INTC.PEND k) b =
        if v.toNat / 32 = k ∧ v.toNat % 32 = b then true else s.rbit (Reg.INTC.PEND k) b := by
      rw [rbit_intcUpdate (setPend_regs _ hregs) (by simp only [Reg.INTC.PEND]; omega), rbit_setPend _ _ _ hregs,
        firstWrite_rbit]
    refine ⟨_, exec_doorbell v h, ?_⟩
    rw [doorbell_of_source (by rwa [firstWrite_live]) h0 h1]
    refine ⟨by rw [hpend _ _ (by omega), if_pos ⟨rfl, rfl⟩], fun k b hk _ hne => ?_⟩
    rw [hpend _ _ hk, if_neg fun e => hne ⟨e.1.symm, e.2.symm⟩]
  case noSource =>
    rintro r v s w h rfl hv
    rw [exec_doorbell v h, doorbell_of_noSource hv]

/-! ### Claims (R476, R479) -/

section
variable {s : State} {r : Req} {t : Fin 4}

theorem exec_claim (h : Admits s r (Reg.INTC.CLAIM t)) :
    exec (.claim r t) s = .next ((claim r t s).2.emit (.readData r (Reg.INTC.CLAIM t) (claim r t s).1)) :=
  congrArg done (readFor_admits _ h)

theorem claim_of_none (hl : s.live intcPage = true) (hp : claimPick s t = none) :
    claim r t s = (0, bump Reg.INTC.CLAIM_NONE s) := by
  simp only [claim, hl, hp, Bool.not_true, Bool.false_eq_true, if_false]

theorem claim_of_room {x : Nat} (hl : s.live intcPage = true) (hp : claimPick s t = some x) (hn : (stackOf s t).length < 16) :
    claim r t s = (srcPrio s x * 2 ^ 24 + x,
      let w := s.setRbit (Reg.INTC.PEND (x / 32)) (x % 32) false
      let u := { w with intStacks := (t.val, x, srcPrio s x) :: w.intStacks }
      intcUpdate (((u.setH (.msiSent x) 0).setHb (.presented x) false).setHb (.coreIdle t) false)) := by
  simp only [claim, hl, hp, Nat.not_le_of_lt hn, Bool.not_true, Bool.false_eq_true, if_false]

theorem claim_of_full {x : Nat} (hl : s.live intcPage = true) (hp : claimPick s t = some x) (hn : 16 ≤ (stackOf s t).length) :
    claim r t s = (2 ^ 31, stackFull r (Reg.INTC.CLAIM t) x s) := by
  simp only [claim, hl, hp, hn, Bool.not_true, Bool.false_eq_true, if_false, if_true]

end

/-! ### Ends of interrupts and running priorities (R478, R479) -/

theorem exec_eoi {s : State} {r : Req} {t : Fin 4} (v : W32) (h : Admits s r (Reg.INTC.EOI t)) :
    exec (.eoi r t v) s = .next (eoi r t v.toNat (firstWrite r s)) := congrArg done (gateWrite_admits _ h)

theorem exec_setpri {s : State} {r : Req} {t : Fin 4} (v : W32) (h : Admits s r (Reg.INTC.SETPRI t)) :
    exec (.setpri r t v) s = .next (setpri r t v.toNat (firstWrite r s)) := congrArg done (gateWrite_admits _ h)

section
variable {s : State} {r : Req} {t v : Nat}

/-- The end of the source on top of the stack pops it. -/
theorem eoi_of_top {x p i : Nat} {rest : List (Nat × Nat × Nat)} (hs : stackOf s t = (t, x, p) :: rest) (hx : x = v % 2 ^ 12)
    (hi : s.intStacks.findIdx? (fun e => e.1 == t) = some i) :
    eoi r t v s = intcUpdate { s with intStacks := s.intStacks.eraseIdx i } := by
  simp only [eoi, hs, hx, hi, if_true]

/-- The end of another source, or on an empty stack, is refused. -/
theorem eoi_of_other (h : (stackOf s t).head?.map (fun e => e.2.1) ≠ some (v % 2 ^ 12)) :
    eoi r t v s = raise intcPage 1 (errReq intcPage 0x11 r (Reg.INTC.EOI t) v (bump Reg.INTC.EOI_BAD s)) := by
  unfold eoi
  split
  next e x p l hs =>
    have hx : x ≠ v % 2 ^ 12 := by simpa [hs] using h
    rw [if_neg hx]
  next => rfl

/-- The entry on top of a stack has a place in the list of all stacks. -/
theorem findIdx?_of_stackOf {e : Nat × Nat × Nat} {rest : List (Nat × Nat × Nat)} (hs : stackOf s t = e :: rest) :
    ∃ i, s.intStacks.findIdx? (fun e => e.1 == t) = some i := by
  have he : e ∈ s.intStacks ∧ (e.1 == t) = true := List.mem_filter.1 (by rw [← stackOf, hs]; exact List.mem_cons_self)
  rw [← Option.isSome_iff_exists, List.findIdx?_isSome, List.any_eq_true]
  exact ⟨e, he⟩

theorem setpri_of_room (hn : (stackOf s t).length < 16) :
    setpri r t v s = intcUpdate ({ s with intStacks := (t, 0, v % 16) :: s.intStacks }.setHb (.coreIdle t) false) :=
  if_neg (Nat.not_le_of_lt hn)

/-- A refused access leaves the interrupt stacks. -/
theorem refused_intStacks (p e c a x b : Nat) :
    (raise p e (errReq p c r a x (bump b s))).intStacks = s.intStacks :=
  (raise_kept (errReq_kept (bump_kept (.refl s)))).area (K := (· = .intStacks)) .intStacks rfl

end

/-- Settles O60: the end of an interrupt by the top of its stack, and the push on a stack with room. -/
theorem interruptStackWrites : Obligations.InterruptStackWrites := by
  unfold Obligations.InterruptStackWrites
  refine ⟨?pop, ?refused, ?push⟩
  case pop =>
    intro r t v p rest s h hs
    have hw : stackOf (firstWrite r s) t = (t.val, v.toNat % 2 ^ 12, p) :: rest := by rw [stackOf_firstWrite, hs]
    obtain ⟨i, hi⟩ := findIdx?_of_stackOf hw
    obtain ⟨hpop, hothers⟩ := stack_pop hi
    refine ⟨_, exec_eoi v h, ?_⟩
    rw [eoi_of_top hw rfl hi]
    simp only [stackOf, intcUpdate_stacks]
    refine ⟨?_, fun x hx => ?_⟩
    · rw [hpop, ← stackOf, hw, List.tail_cons]
    · rw [hothers x hx, firstWrite_stacks]
  case refused =>
    rintro r t v s w h rfl hv
    rw [exec_eoi v h, eoi_of_other hv]
    exact ⟨rfl, (refused_intStacks ..).trans (firstWrite_stacks r s)⟩
  case push =>
    intro r t v s h hn
    refine ⟨_, exec_setpri v h, ?_⟩
    rw [setpri_of_room (by rwa [stackOf_firstWrite])]
    simp only [stackOf, intcUpdate_stacks, State.setHb_intStacks, firstWrite_stacks]
    refine ⟨by rw [List.filter_cons_of_pos (by simp)], fun x hx => ?_⟩
    rw [List.filter_cons_of_neg (by simpa using Ne.symm hx)]

/-! ### Pending and mask bits, hold-offs, idle cores (R473, R476, R480) -/

theorem exec_pendWrite {s : State} {r : Req} {k : Fin 128} (v : W32) (h : Admits s r (Reg.INTC.PEND k)) :
    exec (.pendWrite r k v) s = .next (pendWrite k v.toNat (firstWrite r s)) := congrArg done (gateWrite_admits _ h)

theorem exec_intcMaskWrite {s : State} {r : Req} {k : Fin 128} (v : W32) (h : Admits s r (Reg.INTC.MASK k)) :
    exec (.intcMaskWrite r k v) s = .next (intcMask k v.toNat (firstWrite r s)) := congrArg done (gateWrite_admits _ h)

theorem exec_holdoffExpire {s : State} (k : Fin 128) (t : Fin 4) (hl : s.live intcPage = true) :
    exec (.holdoffExpire k t) s = .next (holdoffEnd k t s) := congrArg done (s.ifLive_pos _ hl)

theorem holdoffEnd_of_running {k t : Nat} {s : State} (hr : s.hb (.holdRun k t) = true) :
    holdoffEnd k t s = intcUpdate ((waitRoot (s.hn (.holdAt k t) + cycUs (s.reg (Reg.INTC.HOLDOFF k))) s).setHb (.holdRun k t) false) := by
  simp only [holdoffEnd, hr, Bool.not_true, Bool.false_eq_true, if_false]

theorem holdoffEnd_of_none {k t : Nat} {s : State} (hr : s.hb (.holdRun k t) = false) : holdoffEnd k t s = s := by
  simp only [holdoffEnd, hr, Bool.not_false, if_true]

theorem State.ifLive_of_same {s : State} {p : Nat} {f : State → State} (h : f s = s) : s.ifLive p f = s := by
  rw [State.ifLive, h, ite_self]

theorem State.when_of_same {s : State} {c : Bool} {f : State → State} (h : f s = s) : s.when c f = s := by
  rw [State.when, h, ite_self]

theorem exec_coreIdleEnter_of_running {s : State} {t : Fin 3} (hl : s.live intcPage = true) (hr : targetRuns s t = true) :
    exec (.coreIdleEnter t) s =
      .next (if (stackOf s t).isEmpty then intcUpdate (s.setHb (.coreIdle t) true) else s) := by
  refine congrArg done ?_
  rw [hl, hr, Bool.and_true, Bool.and_true, State.when]

/-- Settles O43: a doorbell by its number, a claim by what is presentable and the room on the stack, an end by the top of the
stack, a hold-off by whether it runs. -/
theorem interruptController : Obligations.InterruptController := by
  unfold Obligations.InterruptController
  refine ⟨?source, ?noSource, ?claimNone, ?claimed, ?claimFull, ?popped, ?notPopped, ?pushed, fun r a x s => rfl, ?pend, ?mask,
    fun v => ⟨rfl, rfl⟩, ?holdoff, fun k t s hr => congrArg done (State.ifLive_of_same (holdoffEnd_of_none hr)),
    fun t s hl hr => exec_coreIdleEnter_of_running hl hr, fun r v s h => exec_doorbell v h, fun r t v s h => exec_eoi v h,
    fun r t s => rfl, fun k t s hl => exec_holdoffExpire k t hl⟩
  case source =>
    rintro r v s w h rfl hl h0 h1
    rw [exec_doorbell v h, doorbell_of_source hl h0 h1]
  case noSource =>
    rintro r v s w h rfl hv
    rw [exec_doorbell v h, doorbell_of_noSource hv]
  case claimNone =>
    intro r t s h hl hp
    rw [exec_claim h, claim_of_none hl hp]
  case claimed =>
    rintro r t x s w u h hl hp hn rfl rfl
    rw [exec_claim h, claim_of_room hl hp hn]
  case claimFull =>
    intro r t x s h hl hp hn
    rw [exec_claim h, claim_of_full hl hp hn]
  case popped =>
    rintro r t v x p i rest s w h rfl hs hx hi
    rw [exec_eoi v h, eoi_of_top hs hx hi]
  case notPopped =>
    rintro r t v s w h rfl hv
    rw [exec_eoi v h, eoi_of_other hv]
  case pushed =>
    rintro r t v s w h rfl
    exact exec_setpri v h
  case pend =>
    rintro r k v s w h rfl
    exact exec_pendWrite v h
  case mask =>
    rintro r k v s w h rfl
    exact exec_intcMaskWrite v h
  case holdoff =>
    rintro k t s w hl hr rfl
    rw [exec_holdoffExpire k t hl, holdoffEnd_of_running hr]

end Sys2Proof.Machine
end

section
/-!
PROOFS. The periodic frame engine (R482 to R485, spec/12_control_complex.md).
-/
namespace Sys2Proof.Machine

section
variable {s : State} (hl : s.live pfePage = true) (ht : s.timeRuns = true)
include hl ht

theorem exec_pfeEmission (carry : Bool) : exec (.pfeEmission carry) s = .next (pfeEmit carry s) :=
  congrArg done (s.when_pos _ (by rw [hl, ht]; rfl))

theorem exec_pfeMissed (i : Fin 65536) : exec (.pfeMissed i) s = .next (pfeMissed i s) :=
  congrArg done (s.when_pos _ (by rw [hl, ht]; rfl))

end

theorem pfeEmit_of_none {carry : Bool} {s : State} (hp : pfePick s = none) : pfeEmit carry s = s := by
  simp only [pfeEmit, hp]

section
variable {i e n d : Nat} {s w : State} (hp : pfePick s = some (i, e)) (hn : s.hn (.pfeNext i) - 1 = n) (hd : pfeDue s i e = d)
  (hw : waitRoot (s.hn .pfeFree) (advanceTo (d * 2 ^ 48) s) = w) (hdue : d ≤ w.nowNs)
include hp hn hd hw hdue

/-- An instant whose successor has passed is missed. -/
theorem pfeEmit_of_passed (carry : Bool) (h : n + pfePeriod e ≤ w.nowNs) :
    pfeEmit carry s = pfeMiss i (pfeBuild i n (w.setH (.pfeNext i) (n + pfePeriod e + 1 : Nat))).2 := by
  have hnow : (w.setH (.pfeNext i) (n + pfePeriod e + 1 : Nat)).nowNs = w.nowNs := rfl
  simp only [pfeEmit, hp, hn, hd, hw, hnow, h, Nat.not_lt_of_le hdue, if_false, if_true]

/-- The frame of an instant is built and offered to its queue. -/
theorem pfeEmit_of_due {f : Frame} {u : State} (carry : Bool) (h : w.nowNs < n + pfePeriod e)
    (hb : pfeBuild i n ((w.setH (.pfeNext i) (n + pfePeriod e + 1 : Nat)).setH .pfeFree (w.root + 64 : Nat)) = (f, u))
    (hl : (u.newFrame f).live bridgePage = true) :
    pfeEmit carry s = offerTo carry (fld e 0 19) f (u.newFrame f) := by
  have hnow : (w.setH (.pfeNext i) (n + pfePeriod e + 1 : Nat)).nowNs = w.nowNs := rfl
  simp only [pfeEmit, hp, hn, hd, hw, hnow, Nat.not_lt_of_le hdue, Nat.not_le_of_lt h, State.setH_root, hb, hl, if_false, if_true]

end

/-- The frame of an entry with neither SEQ nor launch time is its template's bytes. -/
theorem pfeBuild_of_plain {i n e : Nat} {s : State} (he : s.tab pfePage 1 i = e) (hseq : bit (word e 6) 31 = false)
    (hlaunch : bit e 30 = false) :
    pfeBuild i n s =
      ({ id := s.hn .nextId, loc := .toQ (fld e 0 19), bytes := (pfeTemplate s (fld (word e 1) 18 14)).take (fld (word e 1) 0 9),
         birth := in16 s.fol, cls := queueClass s (fld e 0 19), noRw := true, osOvr := true, onestep := fld e 28 2,
         tsrc := fld e 26 2, launch := none, lsrc := 0, pfe := i + 1, pfeEnd := n + pfePeriod e }, s) := by
  simp only [pfeBuild, he, hseq, hlaunch, Bool.false_eq_true, if_false]

theorem pfeMissed_of_none {i : Nat} {s : State} (hf : s.frames.find? (fun f => f.pfe == i + 1 && pfeHeld f) = none) :
    pfeMissed i s = s := by
  simp only [pfeMissed, hf]

/-- A frame that still waits in its queue at its successor's instant leaves it. -/
theorem pfeMissed_of_queued {i q : Nat} {f : Frame} {s w : State}
    (hf : s.frames.find? (fun f => f.pfe == i + 1 && pfeHeld f) = some f) (hq : f.loc = .queued q)
    (hw : advanceTo (f.pfeEnd * 2 ^ 48) s = w) (hend : f.pfeEnd ≤ w.nowNs) :
    pfeMissed i s = queueLeft q (pfeMiss i (w.drop f)) := by
  simp only [pfeMissed, hf, hw, hq, Nat.not_lt_of_le hend, if_false]

/-- Settles O44: an instant by whether its successor has passed, a held frame by where it waits. -/
theorem periodicFrames : Obligations.PeriodicFrames := by
  unfold Obligations.PeriodicFrames
  refine ⟨fun carry s hp => congrArg done (State.when_of_same (pfeEmit_of_none hp)), ?passed, ?due,
    fun i n e s he hseq hl => pfeBuild_of_plain he hseq hl,
    fun i s hf => congrArg done (State.when_of_same (pfeMissed_of_none hf)), ?missed,
    fun carry s hl ht => exec_pfeEmission hl ht carry, fun i s hl ht => exec_pfeMissed hl ht i⟩
  case passed =>
    intro carry i e n d s w hl ht hp hn hd hw hdue h
    rw [exec_pfeEmission hl ht, pfeEmit_of_passed hp hn hd hw hdue carry h]
  case due =>
    intro carry i e n d f s w u hl ht hp hn hd hw hdue h hb hlive
    rw [exec_pfeEmission hl ht, pfeEmit_of_due hp hn hd hw hdue carry h hb hlive]
  case missed =>
    intro i f q s w hl ht hf hq hw hend
    rw [exec_pfeMissed hl ht, pfeMissed_of_queued hf hq hw hend]

end Sys2Proof.Machine
end

section
/-!
PROOFS. Population, bank masks and bring-up of the deep store (R426 to R431, R437 to R454, spec/11_deep_store.md).
-/
namespace Sys2Proof.Machine

/-! ### Population and bank masks (R426, R431) -/

theorem exec_popCfgWrite {s : State} {r : Req} (v : W32) (h : Admits s r (Reg.DSC.POP_CFG 0)) :
    exec (.popCfgWrite r v) s = .next (popCfg r v.toNat (firstWrite r s)) := congrArg done (gateWrite_admits _ h)

theorem exec_bmapWrite {s : State} {r : Req} {c : Fin 16} {b : Fin 5} (v : W32) (h : Admits s r (Reg.DSC.BMAP c b)) :
    exec (.bmapWrite r c b v) s = .next (bmapWrite r c b v.toNat (firstWrite r s)) := congrArg done (gateWrite_admits _ h)

theorem popCfg_of_good {r : Req} {v : Nat} {s : State} (hv : v % 32 = 0 ∨ v % 32 = 8 ∨ v % 32 = 16) (hoff : allDscOff s = true) :
    popCfg r v s = coverUpdate (s.setReg (Reg.DSC.POP_CFG 0) (v % 32)) := by
  have hnum : ¬(v % 32 ≠ 0 ∧ v % 32 ≠ 8 ∧ v % 32 ≠ 16) := by omega
  simp only [popCfg, hnum, hoff, Bool.not_true, Bool.false_eq_true, if_false]

/-- A wrong number is refused before an enabled page is. -/
theorem popCfg_of_bad {r : Req} {v : Nat} {s : State}
    (h : allDscOff s = false ∨ (v % 32 ≠ 0 ∧ v % 32 ≠ 8 ∧ v % 32 ≠ 16)) :
    popCfg r v s = errReq (dscPage 0) (if v % 32 ≠ 0 ∧ v % 32 ≠ 8 ∧ v % 32 ≠ 16 then 0x10 else 0x11) r (Reg.DSC.POP_CFG 0) v s := by
  by_cases hnum : v % 32 ≠ 0 ∧ v % 32 ≠ 8 ∧ v % 32 ≠ 16
  · simp only [popCfg, hnum, if_true, ne_eq, not_false_eq_true, and_self]
  · have hoff : allDscOff s = false := h.resolve_right hnum
    simp only [popCfg, hnum, hoff, Bool.not_false, if_false, if_true]

theorem bmapWrite_of_enabled {r : Req} {c b v : Nat} {s : State} (h : s.rbit (Reg.BLK_CTL (dscPage c)) 0 = true) :
    bmapWrite r c b v s = errReq (dscPage c) 0x11 r (Reg.DSC.BMAP c b) v s := if_pos h

theorem bmapWrite_of_disabled {r : Req} {c b v : Nat} {s : State} (hv : v < 2 ^ 32)
    (h : s.rbit (Reg.BLK_CTL (dscPage c)) 0 = false) :
    bmapWrite r c b v s = if bmapOk s c b v then s.setReg (Reg.DSC.BMAP c b) v
      else errReq (dscPage c) 0x12 r (Reg.DSC.BMAP c b) v s := by
  simp only [bmapWrite, h, Nat.mod_eq_of_lt hv, Bool.not_eq_true', Bool.false_eq_true, if_false]
  cases bmapOk s c b v <;> rfl

/-! ### Bring-up (R437, R438) -/

theorem exec_bringupStart {s : State} {r : Req} {c : Fin 16} (h : Admits s r (Reg.BLK_CTL (dscPage c))) :
    exec (.bringupStart r c) s = .next (bringupStart c (firstWrite r s)) := congrArg done (gateWrite_admits _ h)

theorem exec_trainStepDone {s : State} {c : Fin 16} (fail : Bool) (spd : W32) (rfm : BitVec 16)
    (hl : s.live (dscPage c) = true) :
    exec (.trainStepDone c fail spd rfm) s = .next (trainDone c fail spd.toNat rfm.toNat s) :=
  congrArg done (s.ifLive_pos _ hl)

/-- Enabling a disabled channel of the population starts step 1. -/
theorem bringupStart_of_member {c : Nat} {s u : State} (hoff : s.rbit (Reg.BLK_CTL (dscPage c)) 0 = false)
    (hu : s.setRbit (Reg.BLK_CTL (dscPage c)) 0 true = u) (hm : (popChannels u).contains c = true)
    (hc : u.clocked (dscPage c) = true) :
    bringupStart c s =
      let t := forEach (List.range 4) (popBegin c u) fun k t => t.setReg (Reg.DSC.ERASED c k) 0
      trainStep c 1 (t.setH (.trainAt c) (t.root : Nat)) := by
  simp only [bringupStart, bringup, hoff, hu, hm, hc, Bool.not_true, Bool.or_self, Bool.false_eq_true, if_false]

section
variable {c k spd rfm : Nat} {s : State} (hk : s.hn (.trainStep c) = k)
include hk

/-- The end of step 1 reads the module. -/
theorem trainDone_of_first (h1 : k = 1) :
    trainDone c false spd rfm s =
      let w := (s.setReg (Reg.DSC.DIMM_INFO c) (spdCheck s c spd)).setH (.rfmThr c) (rfm : Nat)
      let u := if w.rfld (Reg.DSC.DIMM_INFO c) 0 4 ≠ 0 then trainFail c 1 w else trainStep c 2 w
      if c = 0 ∧ firstRead u then rankCheck u else u := by
  subst h1
  simp only [trainDone, hk, one_ne_zero, Nat.reduceLT, or_self, if_false, if_true, beq_self_eq_true, Bool.false_or, Bool.true_and,
    bne_iff_ne, true_and]

theorem trainDone_of_middle (h2 : 2 ≤ k) (h5 : k ≤ 5) : trainDone c false spd rfm s = trainStep c (k + 1) s := by
  have hrun : ¬(k = 0 ∨ 6 < k) := by omega
  have h1 : k ≠ 1 := by omega
  have h6 : k < 6 := by omega
  simp only [trainDone, hk, hrun, h1, h6, beq_eq_false_iff_ne.2 h1, Bool.false_and, Bool.or_self, Bool.false_eq_true, if_false,
    if_true, false_and, and_false]

/-- The end of the last step puts the channel in service. -/
theorem trainDone_of_last (h6 : k = 6) :
    trainDone c false spd rfm s = raise (dscPage c) 0
      (((chanClear c s).setReg (Reg.DSC.TRAIN_STS c)
        (2 ^ 31 + 6 * 2 ^ 24 + (s.root - s.hn (.trainAt c)) / 7200000 % 2 ^ 16)).setH (.trainStep c) 7) := by
  subst h6
  have h1 : (6 == 1) = false := rfl
  simp only [trainDone, hk, h1, OfNat.ofNat_ne_zero, OfNat.ofNat_ne_one, Nat.lt_irrefl, or_self, Bool.false_and,
    Bool.or_self, Bool.false_eq_true, if_false]

theorem trainDone_of_failed (h2 : 2 ≤ k) (h6 : k ≤ 6) : trainDone c true spd rfm s = trainFail c k s := by
  have hrun : ¬(k = 0 ∨ 6 < k) := by omega
  have h1 : k ≠ 1 := by omega
  simp only [trainDone, hk, hrun, h1, Bool.true_or, if_false, if_true, false_and, and_false, ite_self]

end

theorem trainDone_of_idle {c spd rfm : Nat} {fail : Bool} {s : State}
    (h : s.hn (.trainStep c) = 0 ∨ 6 < s.hn (.trainStep c)) : trainDone c fail spd rfm s = s := if_pos h

/-! ### The population is ready (R428, R438) -/

theorem exec_dsReady {s : State} (hb : s.pageOn bpmPage = true) (hd : s.pageOn (dscPage 0) = true) :
    exec .dsReady s = .next (dsReady s) := congrArg done (s.when_pos _ (by rw [hb, hd]; rfl))

theorem dsReady_of_untrained {s : State} (h : ((popChannels s).all fun c => s.h (.trainStep c) == 7) = false) :
    dsReady s = s := by
  simp only [dsReady, h, Bool.not_false, Bool.or_true, if_true]

/-- The last channel of a population has trained: pool D and the totals start empty. -/
theorem dsReady_of_trained {s w : State} (hne : (popChannels s).isEmpty = false) (hrun : s.h .popRun = 1)
    (hall : ((popChannels s).all fun c => s.h (.trainStep c) == 7) = true)
    (hw : { s with bufs := s.bufs.filter fun e => e.1 / 2 ^ 32 != 1, hid := s.hid.filter fun e => e.1 / 2 ^ 96 != (Hid.pgInt 0).code / 2 ^ 96 } = w) :
    dsReady s =
      let n := popPages s - statPages
      let t := popForget ((setFreeCnt 1 n (w.setReg Reg.BPM.D_LIMIT n)).setH .cursorD 0)
      raise (dscPage 0) 2 ((t.setReg (Reg.DSC.POP_STS 0) (2 ^ 31)).setH .popRun 2) := by
  simp only [dsReady, hne, hrun, hall, hw, bne_self_eq_false, Bool.not_true, Bool.or_self, Bool.false_eq_true, if_false]

/-- Settles O39: the writes by what they name and whether the channel is enabled, the end of a step by the step, the store by
whether every channel has trained. -/
theorem deepStoreBringUp : Obligations.DeepStoreBringUp := by
  unfold Obligations.DeepStoreBringUp
  refine ⟨?popGood, ?popBad, ?bmapEnabled, ?bmapDisabled, ?enabled, ?middle, ?last, ?failed,
    fun c fail spd rfm s h => congrArg done (State.ifLive_of_same (trainDone_of_idle h)), ?ready,
    fun s h => congrArg done (State.when_of_same (dsReady_of_untrained h)), fun c s => rfl,
    fun c spd rfm s hk => trainDone_of_first hk rfl, fun r v s h => exec_popCfgWrite v h, fun r c b v s h => exec_bmapWrite v h,
    fun r c s h => exec_bringupStart h, fun c fail spd rfm s hl => exec_trainStepDone fail spd rfm hl,
    fun s hb hd => exec_dsReady hb hd⟩
  case popGood =>
    rintro r v s w h rfl hv hoff
    rw [exec_popCfgWrite v h, popCfg_of_good hv hoff]
  case popBad =>
    rintro r v s w h rfl hbad
    rw [exec_popCfgWrite v h, popCfg_of_bad hbad]
  case bmapEnabled =>
    rintro r c b v s w h rfl hen
    rw [exec_bmapWrite v h, bmapWrite_of_enabled hen]
  case bmapDisabled =>
    rintro r c b v s w h rfl hen
    rw [exec_bmapWrite v h, bmapWrite_of_disabled v.isLt hen]
  case enabled =>
    rintro r c s w h rfl hen hm hc
    rw [exec_bringupStart h, bringupStart_of_member hen rfl hm hc]
  case middle =>
    intro c spd rfm k s hl hk h2 h5
    rw [exec_trainStepDone _ _ _ hl, trainDone_of_middle hk h2 h5]
  case last =>
    intro c spd rfm s hl hk
    rw [exec_trainStepDone _ _ _ hl, trainDone_of_last hk rfl]
  case failed =>
    intro c spd rfm k s hl hk h2 h6
    rw [exec_trainStepDone _ _ _ hl, trainDone_of_failed hk h2 h6]
    rfl
  case ready =>
    intro s w hb hd hne hrun hall hw
    rw [exec_dsReady hb hd, dsReady_of_trained hne hrun hall hw]

end Sys2Proof.Machine
end

section
/-!
PROOFS. Supplies, the root PLL, the monitors and the resets of the device (R584 to R619, spec/16_reliability.md,
spec/17_power_clocks_reset.md).
-/
namespace Sys2Proof.Machine

/-! ### The order of a device reset (R618) -/

theorem exec_devReset {s : State} {r : Req} (v : W32) (h : Admits s r Reg.GLB.DEV_RESET) :
    exec (.devReset r v) s = .next (devReset r v.toNat (firstWrite r s)) := congrArg done (gateWrite_admits _ h)

/-- BOOT and the ACTIVE core may give the orders of the pair. -/
theorem ordersOk_iff {s : State} {r : Req} :
    ordersOk s r = true ↔ r = .BOOT ∨ ∃ x, coreOf r = some x ∧ coreState s x = 4 := by
  cases r <;> simp [ordersOk, coreOf, coreState]

theorem devReset_of_ordered {r : Req} {v : Nat} {s : State} (hv : v % 65536 = 0x9128) (h : ordersOk s r = true) :
    devReset r v s = coverUpdate (deviceReset 5 true s) := if_pos ⟨hv, h⟩

theorem devReset_of_refused {r : Req} {v : Nat} {s : State} (h : v % 65536 ≠ 0x9128 ∨ ordersOk s r = false) :
    devReset r v s = errReq glbPage 0x14 r Reg.GLB.DEV_RESET v s :=
  if_neg (by rintro ⟨hv, ho⟩; exact h.elim (· hv) (by simp [ho]))

/-- Settles O58: the key and the requester decide. -/
theorem deviceResetOrder : Obligations.DeviceResetOrder := by
  unfold Obligations.DeviceResetOrder
  refine ⟨?ordered, ?refused⟩
  case ordered =>
    rintro r v s w h rfl hv hr
    rw [exec_devReset v h, devReset_of_ordered hv (ordersOk_iff.2 hr)]
  case refused =>
    rintro r v s w h rfl hbad
    have hno : v.toNat % 65536 ≠ 0x9128 ∨ ordersOk (firstWrite r s) r = false := by
      refine hbad.imp_right fun ⟨hboot, hcore⟩ => ?_
      rw [← Bool.not_eq_true, ordersOk_iff]
      rintro (hr | ⟨x, hx, hst⟩)
      · exact hboot hr
      · exact hcore x hx hst
    rw [exec_devReset v h, devReset_of_refused hno]

/-! ### The supplies (R599 to R601) -/

theorem exec_vinLoss {s : State} (hd : s.hb .vinDown = false) (hh : bit (s.hn .rstHold) 2 = false) :
    exec .vinLoss s = .next (vinLoss s) := congrArg done (s.when_pos _ (by rw [hd, hh]; rfl))

theorem exec_vinRestart {s w : State} (hw : (if s.hb .vinBad then s else waitRoot (s.hn .vinAt - 1 + cycUs 9000) s) = w) :
    exec .vinRestart s = .next (if s.hb .vinDown then coverUpdate (deviceReset 7 true (w.setHb .vinBad false)) else s) := by
  subst hw
  refine congrArg done ?_
  cases hb : s.hb .vinBad <;> simp only [State.when, hb, Bool.not_true, Bool.not_false, Bool.false_eq_true, if_false, if_true]

/-! ### The root PLL (R593, R612, R619) -/

theorem exec_rootPllLock {s : State} (hp : s.pllOk = false) (hh : bit (s.hn .rstHold) 2 = false) :
    exec .rootPllLock s = .next ((s.setReg Reg.GLB.PLL_STS 1).setH .pllAt (s.root : Nat)) :=
  congrArg done (s.when_pos _ (by rw [hp, hh]; rfl))

theorem exec_pllUnlock {s : State} (hp : s.pllOk = true) : exec .pllUnlock s = .next (pllUnlock s) :=
  congrArg done (s.when_pos _ hp)

theorem exec_pllLossReset {s : State} (hp : s.pllOk = true) :
    exec .pllLossReset s = .next (if s.hb .pllLost
      then coverUpdate (deviceReset 6 true (waitRoot (s.hn .pllAt + cycUs 1000) s)) else s) := by
  refine congrArg done ?_
  rw [hp, Bool.and_true, State.when]

/-! ### Resets from outside (R616, R617) -/

section
variable {s : State}

theorem exec_sysRst_of_powered (m : BitVec 2) (h : bit (s.hn .rstHold) 2 = false) :
    exec .sysRstAssert s = .next (coverUpdate (holdReset 3 false (holdReset 0 true (deviceReset 2 (s.rbit Reg.FAULT.FIRST 31) s)))) ∧
    exec (.sysRstRelease m) s =
      .next (coverUpdate (holdReset 3 (m != 0) (holdReset 0 false (deviceReset 2 (s.rbit Reg.FAULT.FIRST 31) s)))) :=
  ⟨congrArg done (if_neg (by simp [h])), congrArg done (if_neg (by simp [h]))⟩

/-- With VAUX lost the pin only holds and releases. -/
theorem exec_sysRst_of_unpowered (m : BitVec 2) (h : bit (s.hn .rstHold) 2 = true) :
    exec .sysRstAssert s = .next (holdReset 0 true s) ∧ exec (.sysRstRelease m) s = .next (holdReset 0 false s) :=
  ⟨congrArg done (if_pos h), congrArg done (if_pos h)⟩

end

/-! ### The monitors (R584, R585, R594) -/

theorem exec_openClear {s : State} {r : Req} (v : W32) (h : Admits s r Reg.FAULT.OPEN) :
    exec (.openClear r v) s = .next (openClear v.toNat (firstWrite r s)) := congrArg done (gateWrite_admits _ h)

theorem openClear_of_lt {v : Nat} {s : State} (hv : v < 2 ^ 32) :
    openClear v s = coverUpdate (s.setReg Reg.FAULT.OPEN (s.reg Reg.FAULT.OPEN &&& (v ^^^ 0xFFFFFFFF))) := by
  rw [openClear, Nat.mod_eq_of_lt hv]

theorem exec_pipeWdtSample {s : State} (l : BitVec 37) (hp : s.pllOk = true) :
    exec (.pipeWdtSample l) s = .next (if s.rbit Reg.FAULT.MON_EN 0 then wdtSample l.toNat s else s) := by
  refine congrArg done ?_
  rw [hp, Bool.true_and, State.when]

/-- Settles O52: each supply, clock and reset event by the state that takes it; the reset itself and the monitors by what they
test. -/
theorem suppliesClocksAndResets : Obligations.SuppliesClocksAndResets := by
  unfold Obligations.SuppliesClocksAndResets
  refine ⟨?vinLoss, fun s w hw => ⟨rfl, exec_vinRestart hw⟩, fun s => ⟨rfl, rfl⟩, fun s hp hh => exec_rootPllLock hp hh,
    fun s hp => exec_pllUnlock hp, fun s hp => exec_pllLossReset hp, fun m s h => exec_sysRst_of_powered m h,
    fun m s h => exec_sysRst_of_unpowered m h, ?devReset, ?reset, fun u s => rfl, fun l s hp => exec_pipeWdtSample l hp,
    ?openClear, ?junction, fun t s => rfl, fun s => rfl, fun s => rfl, fun m s => rfl⟩
  case vinLoss =>
    rintro s w hd hh rfl
    exact exec_vinLoss hd hh
  case devReset =>
    rintro r v s w h rfl
    exact exec_devReset v h
  case reset =>
    rintro c k s w rfl
    rfl
  case openClear =>
    rintro r v s w h rfl
    rw [exec_openClear v h, openClear_of_lt v.isLt]
  case junction =>
    rintro x s w rfl
    rfl

end Sys2Proof.Machine
end

section
/-!
PROOFS. The power domains (R595 to R611, spec/17_power_clocks_reset.md).
-/
namespace Sys2Proof.Machine

/-! ### Orders of a domain (R604, R607, R608) -/

section
variable {s : State} {r : Req} {d : Fin 64} (h : Admits s r (Reg.GLB.DOM_CTL d))
include h

theorem exec_domainSwitchOn : exec (.domainSwitchOn r d) s = .next (domCtl r d (2 ^ 31) (firstWrite r s)) :=
  congrArg done (gateWrite_admits _ h)

theorem exec_domainSwitchOff : exec (.domainSwitchOff r d) s = .next (domCtl r d 0 (firstWrite r s)) :=
  congrArg done (gateWrite_admits _ h)

end

section
variable {r : Req} {d : Nat} {s : State}

/-- Any order is refused to a requester that may not switch the domain, and while the domain ramps or waits. -/
theorem domCtl_of_barred (v : Nat) (h : maySwitch s r d = false ∨ s.domState d = 2) :
    domCtl r d v s = domRefuse (if maySwitch s r d then 0x11 else 0x10) r d v s := by
  cases hm : maySwitch s r d with
  | false => simp only [domCtl, hm, Bool.not_false, Bool.false_eq_true, if_false, if_true]
  | true =>
    have h2 : s.domState d = 2 := h.resolve_left (by simp [hm])
    simp only [domCtl, hm, h2, Bool.not_true, Bool.false_eq_true, if_false, if_true]

variable (hm : maySwitch s r d = true) (h2 : s.domState d ≠ 2)
include hm h2

theorem domCtl_on : domCtl r d (2 ^ 31) s =
    if ((prereqs d).any fun e => s.domState e != 1) = true then domRefuse 0x13 r d (2 ^ 31) s
    else if s.domState d = 1 then s.setReg (Reg.GLB.DOM_CTL d) (2 ^ 31)
    else if (inRecovery s && decide (3 < d)) = true then s else acceptOn d s := by
  have hon : bit (2 ^ 31) 31 = true := by decide
  simp only [domCtl, hm, h2, hon, Bool.not_true, Bool.false_and, Bool.true_and, Bool.false_eq_true, if_false, if_true]

theorem domCtl_off : domCtl r d 0 s =
    if ((directDependents d).any fun e => s.domState e == 1 || s.domState e == 2) = true then domRefuse 0x12 r d 0 s
    else if s.domState d = 0 then s.setReg (Reg.GLB.DOM_CTL d) 0
    else raise glbPage 1 (domainOff d 0 ((s.setReg (Reg.GLB.DOM_CTL d) 0).setH (.dropAt d) 0)) := by
  have hoff : bit 0 31 = false := by decide
  simp only [domCtl, hm, h2, hoff, Bool.not_true, Bool.not_false, Bool.false_and, Bool.true_and, Bool.false_eq_true, if_false]

end

/-! ### Ramps (R599, R604 to R606, R611) -/

theorem rampNext_of_queued {d : Nat} {l : List Nat} {s : State} (h : s.domQ = d :: l) :
    rampNext s = if s.hb .vinBad || 4 ≤ ramping s then s else startRamp d { s with domQ := l } := by
  simp only [rampNext, h]

theorem exec_domainOn {d : Fin 37} {s : State} (hp : s.pllOk = true) (h0 : d.val ≠ 0) (hst : s.domState d = 2)
    (hq : domQueued s d = false) : exec (.domainOn d) s = .next (domainOn d s) :=
  congrArg done (s.when_pos _ (by rw [hp, hst, hq, bne_iff_ne.2 h0]; rfl))

theorem exec_domainOn_of_notRamping {d : Fin 37} {s : State} (hst : s.domState d ≠ 2) : exec (.domainOn d) s = .next s :=
  congrArg done (State.when_neg _ (by rw [beq_eq_false_iff_ne.2 hst, Bool.and_false, Bool.false_and]))

/-- The L2 table and the ages of the cell store start anew with their pages, in this order. -/
theorem domainOn_eq {d : Nat} {s w u : State}
    (hw : raise glbPage 0 (bump (Reg.GLB.DOM_ON_CNT d)
      (s.setReg (Reg.GLB.DOM_STS d) (min ((s.root - s.hn (.rampAt d)) / 7200) 65535 * 2 ^ 16 + 1))) = w)
    (hu : (forEach (domPages d) w fun p s =>
      let s := (s.setReg (Reg.BLK_CTL p) (startCtl p)).setH (.cycBase p) (s.root : Nat)
      if s.hb .snapOpen then cycShadow p s else s) = u) :
    domainOn d s = coverUpdate (domStart d (
      if (domPages d).contains cellPage then ageRaise (if (domPages d).contains l2Page then l2Rebase u else u)
      else if (domPages d).contains l2Page then l2Rebase u else u)) := by
  subst hw hu
  rfl

theorem exec_serdesPllLockTimeout {d : Fin 37} {s : State} (hp : s.pllOk = true) (h5 : 5 ≤ d.val) (h18 : d.val ≤ 18)
    (hst : s.domState d = 2) (hq : domQueued s d = false) :
    exec (.serdesPllLockTimeout d) s =
      .next (raise glbPage 2 (domainOff d 3 (waitRoot (s.hn (.rampAt d) + cycUs 1070) s))) :=
  congrArg done (s.when_pos _ (by rw [hp, hst, hq, decide_eq_true h5, decide_eq_true h18]; rfl))

/-! ### Isolation, drops and restarts (R595, R607, R609, R610) -/

/-- A domain without the host function that is switched off is isolated, and reads its state. -/
theorem domainOff_of_on {d : Nat} {s w : State} (x : Nat) (hon : s.domOn d = true) (h3 : d ≠ 3) (hw : markPartial d s = w) :
    domainOff d x s =
      let off := lockChange fun t => domLost d (forEach (domPages d) t fun p t => disable p (stopBlock p t))
      let t := if 13 ≤ d ∧ d ≤ 18 then withReachAll (fgLinks (d - 13)) off w else off w
      coverUpdate (setDom d x false { t with domQ := t.domQ.filter (· != d) }) := by
  simp only [domainOff, hon, h3, hw, if_false, if_true]

theorem exec_supplyDroop_of_vin {d : Fin 37} (s : State) (h2 : 2 ≤ d.val) :
    exec (.supplyDroop d) s = .next (if s.rbit Reg.FAULT.MON_EN 1 = true ∧ s.domOn d = true then
      dropOut d (faultRecordAt 12 d faultPage d s) else s) := by
  refine congrArg done ?_
  have h1 : d.val ≠ 1 := by omega
  simp only [supplyDroop, h1, h2, true_and, if_false]

theorem cascade_of_dependents {d : Nat} {s : State}
    (h : (dependents d).filter (fun e => s.domState e == 1 || s.domState e == 2) ≠ []) :
    cascade d s = raise glbPage 3 (forEach ((dependents d).filter fun e => s.domState e == 1 || s.domState e == 2) s
      fun e t => bump Reg.GLB.CASCADES (domainOff e 0 t)) :=
  if_neg (by rwa [List.isEmpty_iff])

theorem exec_domainRestart {d : Fin 37} {s : State} (hp : s.pllOk = true) (hd : s.h (.dropAt d) ≠ 0)
    (hst : s.domState d = 3) : exec (.domainRestart d) s = .next (domRestart d s) :=
  congrArg done (s.when_pos _ (by rw [hp, hst, bne_iff_ne.2 hd]; rfl))

/-- Settles O51: an order by who gives it and the state of the domain and of its neighbours, a ramp by its end, a loss by the
domain that it takes. -/
theorem powerDomains : Obligations.PowerDomains := by
  unfold Obligations.PowerDomains
  refine ⟨?barred, ?on, ?off, ?accepted, fun d l s h => congrArg done (rampNext_of_queued h), ?ramped,
    fun d s hst => exec_domainOn_of_notRamping hst, ?noLock, fun d x s w hon h3 hw => domainOff_of_on x hon h3 hw, fun s => rfl,
    fun d s h2 => exec_supplyDroop_of_vin s h2, fun d s h => cascade_of_dependents h, ?restart,
    fun r d s h => exec_domainSwitchOn h, fun r d s h => exec_domainSwitchOff h, fun s => rfl⟩
  case barred =>
    rintro r d s w h rfl hbar
    rw [exec_domainSwitchOn h, exec_domainSwitchOff h, domCtl_of_barred _ hbar, domCtl_of_barred _ hbar]
    exact ⟨rfl, rfl⟩
  case on =>
    rintro r d s w h rfl hm h2
    rw [exec_domainSwitchOn h, domCtl_on hm h2]
  case off =>
    rintro r d s w h rfl hm h2
    rw [exec_domainSwitchOff h, domCtl_off hm h2]
  case accepted =>
    rintro d s w rfl
    rfl
  case ramped =>
    intro d s w u hp h0 hst hq hw hu
    rw [exec_domainOn hp h0 hst hq, domainOn_eq hw hu]
  case noLock =>
    rintro d s w hp h5 h18 hst hq rfl
    exact exec_serdesPllLockTimeout hp h5 h18 hst hq
  case restart =>
    rintro d s w hp hd hst rfl
    exact exec_domainRestart hp hd hst

end Sys2Proof.Machine
end

section
/-!
PROOFS. Cycle counters, bandwidth windows, flow statistics and snapshots (R563 to R578, spec/15_observability.md).
-/
namespace Sys2Proof.Machine

/-! ### Bandwidth windows (R567, R568) -/

theorem exec_bwCfgWrite {s : State} {r : Req} {n : Fin 128} (v : W32) (h : Admits s r (Reg.LPORT.BW_CFG n)) :
    exec (.bwCfgWrite r n v) s = .next (bwCfg r n v.toNat (firstWrite r s)) := congrArg done (gateWrite_admits _ h)

/-- A window that divides a second starts at its next boundary, with the registers and their latched copies cleared. -/
theorem bwCfg_of_good {r : Req} {n v m : Nat} {s u : State} (hm : v % 2 ^ 20 = m) (h0 : m ≠ 0) (hmax : m ≤ 1000000)
    (hdiv : 1000000 % m = 0)
    (hu : (forEach (bwRegs n) s fun a s =>
      forEach [Req.BOOT, .CC_A, .CC_B, .HOST, .JTAG] (s.setReg a 0) fun q s => s.setReg (bwLatch q a) 0) = u) :
    bwCfg r n v s =
      let t := ((u.setReg (Reg.LPORT.BW_CFG n) (v &&& 0x800FFFFF)).setH (.bwRx n) 0).setH (.bwTx n) 0
      t.setH (.bwStart n) (if bit v 31 then bwFloor m t.nowNs + m * 1000 + 1 else 0 : Nat) := by
  simp only [bwCfg, hm, h0, Nat.not_lt_of_le hmax, hdiv, hu, ne_eq, not_true_eq_false, or_self, if_false]

theorem bwCfg_of_bad {r : Req} {n v : Nat} {s : State}
    (h : v % 2 ^ 20 = 0 ∨ 1000000 < v % 2 ^ 20 ∨ 1000000 % (v % 2 ^ 20) ≠ 0) :
    bwCfg r n v s = errReq (0x10 + n) 0x10 r (Reg.LPORT.BW_CFG n) v s := if_pos h

theorem exec_bwWindowEnd {n : Fin 128} {s : State} (hl : s.live (0x10 + n) = true)
    (hen : s.rbit (Reg.LPORT.BW_CFG n) 31 = true) (hst : s.h (.bwStart n) ≠ 0) :
    exec (.bwWindowEnd n) s = .next (bwEnd n s) :=
  congrArg done (s.when_pos _ (by rw [hl, hen, bne_iff_ne.2 hst]; rfl))

theorem exec_bwWindowEnd_of_off {n : Fin 128} {s : State} (hen : s.rbit (Reg.LPORT.BW_CFG n) 31 = false) :
    exec (.bwWindowEnd n) s = .next s :=
  congrArg done (State.when_neg _ (by rw [hen, Bool.and_false, Bool.false_and]))

/-- One window has ended by the time `t`, and not a second one. -/
theorem bwCatch_of_ended {n m a t : Nat} {s : State} (hen : s.rbit (Reg.LPORT.BW_CFG n) 31 = true)
    (ha : s.hn (.bwStart n) = a) (ha0 : a ≠ 0) (hm : s.rfld (Reg.LPORT.BW_CFG n) 0 20 = m) (hm0 : m ≠ 0)
    (hend : a + m * 1000 ≤ t + 1) (hone : t + 1 < a + 2 * (m * 1000)) :
    bwCatch n t s = (bwClose n s).setH (.bwStart n) (max (a + m * 1000) (bwFloor m t + 1) : Nat) := by
  have hempty : (t + 1 - a - m * 1000) / (m * 1000) = 0 := Nat.div_eq_of_lt (by omega)
  have hwin : m * 1000 ≠ 0 := Nat.mul_ne_zero hm0 (by decide)
  have hnot : ¬t + 1 < a + m * 1000 := by omega
  have hback : m * 1000 / 1000 = m := Nat.mul_div_cancel m (by decide)
  simp only [bwCatch, hen, ha, hm, beq_eq_false_iff_ne.2 ha0, beq_eq_false_iff_ne.2 hwin, hnot, hempty, hback,
    State.when_neg _ (bne_self_eq_false 0), decide_false, Bool.not_true, Bool.or_self, Bool.false_eq_true, if_false]

theorem exec_bwSeqRead {s : State} {r : Req} {n : Fin 128} (h : Admits s r (Reg.LPORT.BW_SEQ n)) :
    exec (.bwSeqRead r n) s = .next ((bwSeq r n s).2.emit (.readData r (Reg.LPORT.BW_SEQ n) (bwSeq r n s).1)) :=
  congrArg done (readFor_admits _ h)

/-- A read of `BW_SEQ` latches the registers as the count up to now leaves them. -/
theorem bwSeq_eq {r : Req} {n : Nat} {s w : State}
    (hw : (forEach (bwRegs n) (s.when (s.live (0x10 + n)) (bwCatch n s.nowNs)) fun a s => s.setReg (bwLatch r a) (s.reg a)) = w) :
    bwSeq r n s = (w.reg (Reg.LPORT.BW_SEQ n), (w.setReg (Reg.LPORT.BW_RX_MAX n) 0).setReg (Reg.LPORT.BW_TX_MAX n) 0) := by
  simp only [bwSeq, hw]

/-! ### Flow statistics (R570 to R573) -/

theorem exec_fsCfgWrite {s : State} {r : Req} (v : W32) (h : Admits s r Reg.SNAP.FS_CFG) :
    exec (.fsCfgWrite r v) s = .next (fsCfg r v.toNat (firstWrite r s)) := congrArg done (gateWrite_admits _ h)

section
variable {i : Fin 4194304} {s : State} (hon : foldOn s = true)
include hon

theorem exec_fsVisit (hset : fsSet i ≠ 7) :
    exec (.fsVisit i) s =
      .next (foldAsk i (nextInterval snapPage (.fsAt i) (cycUs (s.rfld Reg.SNAP.FS_CFG 16 8 * 1000)) s)) :=
  congrArg done (s.when_pos _ (by rw [hon, bne_iff_ne.2 hset]; rfl))

theorem exec_fold_of_queued (hq : s.hb (.foldQueued i) = true) : exec (.fold i) s = .next (foldAsk i s) :=
  congrArg done (s.when_pos _ (by rw [hon, hq]; rfl))

end

theorem exec_fold_of_notQueued {i : Fin 4194304} {s : State} (hq : s.hb (.foldQueued i) = false) :
    exec (.fold i) s = .next s :=
  congrArg done (State.when_neg _ (by rw [hq, Bool.and_false]))

theorem exec_fsRead {s : State} {r : Req} (h : TableReady s r snapPage) :
    exec (.fsRead r) s = .next (tableEnd r snapPage (snapTable 1 (winOf s r snapPage) (firstWrite r s)).2.1
      (snapTable 1 (winOf s r snapPage) (firstWrite r s)).2.2 (snapTable 1 (winOf s r snapPage) (firstWrite r s)).1) :=
  congrArg done (tblCmd_ready _ h)

theorem exec_fsClear {s : State} {r : Req} (h : TableReady s r snapPage) :
    exec (.fsClear r) s = .next (tableEnd r snapPage (snapTable 0x10 (winOf s r snapPage) (firstWrite r s)).2.1
      (snapTable 0x10 (winOf s r snapPage) (firstWrite r s)).2.2 (snapTable 0x10 (winOf s r snapPage) (firstWrite r s)).1) :=
  congrArg done (tblCmd_ready _ h)

section
variable {w : Win} {s : State} (hsel : w.sel = 1) (hidx : w.idx < 3670016) (hon : foldOn s = true)
include hsel hidx hon

/-- A read returns the totals with the front counters, and asks for the fold of its pair. -/
theorem snapTable_read : snapTable 1 w s = Win.ok (some (fsSum s w.idx)) (foldAsk w.idx s) := by
  simp only [snapTable, hsel, Nat.not_le_of_lt hidx, hon, ne_eq, not_true_eq_false, false_or, false_and, OfNat.one_ne_ofNat,
    Bool.not_true, Bool.false_eq_true, if_false, if_true]

/-- A clear takes totals and front counters of its pair. -/
theorem snapTable_clear : snapTable 0x10 w s = Win.ok none
    (unqueue w.idx (((fsTouch w.idx s).setTab snapPage 1 w.idx 0).setTab snapPage 3 w.idx 0)) := by
  simp only [snapTable, hsel, Nat.not_le_of_lt hidx, hon, ne_eq, not_true_eq_false, and_false, false_or, false_and,
    OfNat.one_ne_ofNat, OfNat.ofNat_ne_one, Bool.not_true, Bool.false_eq_true, if_false]

end

/-! ### Cycle counters (R563) -/

theorem exec_perfWrap {p : Fin 8192} {s : State} (hp : (pageOf p).isSome = true) (hl : s.live p = true) :
    exec (.perfWrap p) s = .next (perfWrap p s) := congrArg done (s.when_pos _ (by rw [hp, hl]; rfl))

/-- Settles O49: a window by its length and its end, a pair by whether it waits for its fold, a table command by its
operation. -/
theorem countersAndFlowStatistics : Obligations.CountersAndFlowStatistics := by
  unfold Obligations.CountersAndFlowStatistics
  refine ⟨?wrap, ?window, ?badWindow, ?windowEnd, ?caught, fun n s hen => exec_bwWindowEnd_of_off hen, ?seqRead, ?fsCfg,
    fun i s hon => ⟨exec_fsVisit hon, exec_fold_of_queued hon, exec_fold_of_notQueued⟩, ?folded, ?read, ?clear,
    fun r s h => exec_fsRead h, fun r s h => exec_fsClear h, fun p s hp hl => exec_perfWrap hp hl,
    fun n s hl hen hst => exec_bwWindowEnd hl hen hst, fun r n s => rfl, fun r n v s h => exec_bwCfgWrite v h⟩
  case wrap =>
    rintro p s w hp hl rfl
    exact exec_perfWrap hp hl
  case window =>
    rintro r n v m s w u h rfl hm h0 hmax hdiv hu
    rw [exec_bwCfgWrite v h, bwCfg_of_good hm h0 hmax hdiv hu]
  case badWindow =>
    rintro r n v s w h rfl hbad
    rw [exec_bwCfgWrite v h, bwCfg_of_bad hbad]
  case windowEnd =>
    rintro n s w hl hen hst rfl
    exact exec_bwWindowEnd hl hen hst
  case caught =>
    rintro n m a t s w hen ha ha0 hm hm0 hend hone rfl
    exact bwCatch_of_ended hen ha ha0 hm hm0 hend hone
  case seqRead =>
    intro r n s w h hw
    rw [exec_bwSeqRead h, bwSeq_eq hw]
  case fsCfg =>
    rintro r v s w h rfl
    exact exec_fsCfgWrite v h
  case folded =>
    rintro i s w rfl
    rfl
  case read =>
    rintro r s w h rfl hsel hidx hon
    rw [exec_fsRead h, snapTable_read hsel hidx hon]
    rfl
  case clear =>
    rintro r s w u h rfl hsel hidx hon rfl
    rw [exec_fsClear h, snapTable_clear hsel hidx hon]
    rfl

/-! ### Orders of a snapshot (R575) -/

section
variable {s : State} {r : Req} (h : Admits s r Reg.SNAP.CTL)
include h

theorem exec_snapArm : exec (.snapArm r) s = .next (snapCtl r 1 (firstWrite r s)) := congrArg done (gateWrite_admits _ h)

theorem exec_snapDisarm : exec (.snapDisarm r) s = .next (snapCtl r 2 (firstWrite r s)) := congrArg done (gateWrite_admits _ h)

theorem exec_snapNow : exec (.snapNow r) s = .next (snapCtl r 4 (firstWrite r s)) := congrArg done (gateWrite_admits _ h)

end

/-- A running SNAP page executes the one order that the value written names. -/
theorem snapCtl_of_live {s : State} (r : Req) (hl : s.live snapPage = true) :
    snapCtl r 1 s = snapArm r 1 s ∧ snapCtl r 2 s = snapDisarm r 2 s ∧ snapCtl r 4 s = snapNow r 4 s := by
  have h1 : bit 1 0 = true ∧ bit 1 1 = false ∧ bit 1 2 = false := by decide
  have h2 : bit 2 0 = false ∧ bit 2 1 = true ∧ bit 2 2 = false := by decide
  have h4 : bit 4 0 = false ∧ bit 4 1 = false ∧ bit 4 2 = true := by decide
  simp only [snapCtl, hl, h1, h2, h4, Nat.reduceMod, one_ne_zero, OfNat.ofNat_ne_zero, Bool.not_true, Bool.false_eq_true, if_false, if_true,
    and_self]

theorem snapArm_of_good {s : State} {r : Req} {v : Nat} (h0 : snapState s = 0) (hns : s.reg Reg.SNAP.SNAP_NS ≤ 999999999)
    (ht : s.tb + 1000 * unitsNs ≤ snapTime s) : snapArm r v s = setSnapState 1 s := if_pos ⟨h0, hns, ht⟩

theorem snapArm_of_bad {s : State} {r : Req} {v : Nat}
    (h : snapState s ≠ 0 ∨ 999999999 < s.reg Reg.SNAP.SNAP_NS ∨ snapTime s < s.tb + 1000 * unitsNs) :
    snapArm r v s = errReq snapPage 0x10 r Reg.SNAP.CTL v s :=
  if_neg (by rintro ⟨h0, hns, ht⟩; rcases h with h | h | h <;> omega)

/-! ### The cut and what follows it (R576 to R578) -/

theorem exec_snapCut {s : State} (hl : s.live snapPage = true) (ht : s.timeRuns = true) :
    exec .snapCut s = .next (
      if snapState s = 1 then let t := snapTime s; let s := advanceTo t s; s.when (t ≤ s.tb) snapCut
      else if snapState s = 2 ∧ s.hb .snapOpen = false ∧ s.rbit Reg.SNAP.STS 30 = false then snapCut (advance 1 s)
      else s) :=
  congrArg done (s.when_pos _ (by rw [hl, ht]; rfl))

section
variable {s : State} (hl : s.live snapPage = true) (ht : s.timeRuns = true)
include hl ht

/-- An armed cut comes once the time base has reached its time. -/
theorem exec_snapCut_of_armed (h1 : snapState s = 1) :
    exec .snapCut s = .next (if snapTime s ≤ (advanceTo (snapTime s) s).tb then snapCut (advanceTo (snapTime s) s)
      else advanceTo (snapTime s) s) := by
  simp only [exec_snapCut hl ht, h1, if_true, State.when, decide_eq_true_eq]

theorem exec_snapCut_of_ordered (h2 : snapState s = 2) (ho : s.hb .snapOpen = false) (hfs : s.rbit Reg.SNAP.STS 30 = false) :
    exec .snapCut s = .next (snapCut (advance 1 s)) := by
  simp only [exec_snapCut hl ht, h2, ho, hfs, OfNat.ofNat_ne_one, and_self, if_false, if_true]

theorem exec_snapCut_of_idle (h0 : snapState s = 0) : exec .snapCut s = .next s := by
  simp only [exec_snapCut hl ht, h0, OfNat.zero_ne_ofNat, zero_ne_one, false_and, if_false]

end

theorem exec_snapMoverCopy {a : BitVec 29} {s : State} (hl : s.live snapPage = true) (he : engUp s 3 = true)
    (hc : captured a.toNat = true) (hon : s.pageOn (a.toNat / 0x10000) = true) :
    exec (.snapMoverCopy a) s = .next (snapTouch a.toNat s) :=
  congrArg done (s.when_pos _ (by rw [hl, he, hc, hon]; rfl))

theorem exec_snapDone {s : State} (hl : s.live snapPage = true) (ho : s.hb .snapOpen = true) (he : engUp s 3 = true) :
    exec .snapDone s = .next (snapDone s) := congrArg done (s.when_pos _ (by rw [hl, ho, he]; rfl))

theorem exec_fsDone {s : State} (hl : s.live snapPage = true) (hfs : s.rbit Reg.SNAP.STS 30 = true) :
    exec .fsDone s = .next (fsDone s) := congrArg done (s.when_pos _ (by rw [hl, hfs]; rfl))

/-- Settles O50: an order by the state that it meets, the cut by how it was ordered, each completion on its condition. -/
theorem snapshots : Obligations.Snapshots := by
  unfold Obligations.Snapshots
  refine ⟨?armed, ?notArmed, ?disarm, ?now, ?cut, ?latched, ?epoch, fun a s hl he hc hon => exec_snapMoverCopy hl he hc hon,
    ?done, ?pairsDone, fun s => rfl, fun r s h => exec_snapArm h, fun r s h => exec_snapDisarm h, fun r s h => exec_snapNow h,
    fun s hl ht => exec_snapCut hl ht, fun s hl ho he => exec_snapDone hl ho he, fun s hl hfs => exec_fsDone hl hfs⟩
  case armed =>
    rintro r s w h rfl hl h0 hns ht
    rw [exec_snapArm h, (snapCtl_of_live r hl).1, snapArm_of_good h0 hns ht]
  case notArmed =>
    rintro r s w h rfl hl hbad
    rw [exec_snapArm h, (snapCtl_of_live r hl).1, snapArm_of_bad hbad]
  case disarm =>
    rintro r s w h rfl hl
    rw [exec_snapDisarm h, (snapCtl_of_live r hl).2.1]
    rfl
  case now =>
    rintro r s w h rfl hl
    rw [exec_snapNow h, (snapCtl_of_live r hl).2.2]
    rfl
  case cut =>
    rintro s w hl ht rfl
    exact ⟨exec_snapCut_of_armed hl ht, exec_snapCut_of_ordered hl ht, exec_snapCut_of_idle hl ht⟩
  case latched =>
    rintro s w rfl
    rfl
  case epoch =>
    rintro s u rfl
    rfl
  case done =>
    rintro s w hl ho he rfl
    exact exec_snapDone hl ho he
  case pairsDone =>
    rintro s w u hl hfs rfl rfl
    exact exec_fsDone hl hfs

end Sys2Proof.Machine
end

section
/-!
PROOFS. Requests of the host, and stopping, resetting and containing its function (R495, R496, R504, R505, R517 to R527,
spec/13_host_interface.md).
-/
namespace Sys2Proof.Machine

/-! ### Requests to the function's memory (R495, R496, R502, R504) -/

theorem memReq_of_awake {s : State} (read : Bool) (f : State → State) (hc : cfgOk s = true) (hd : s.hb .pmD3 = false) :
    memReq read f s = f s := by
  simp only [memReq, hc, hd, Bool.not_true, Bool.false_eq_true, if_false]

/-- In D3hot a read is unsupported and a write discarded. -/
theorem memReq_of_asleep {s : State} (f : State → State) (hc : cfgOk s = true) (hd : s.hb .pmD3 = true) :
    memReq true f s = cplUr s ∧ memReq false f s = s := by
  simp only [memReq, hc, hd, Bool.not_true, Bool.false_eq_true, if_false, if_true, and_self]

theorem bar0Read_dword {a : Nat} {s : State} (ha : a % 4 = 0) :
    bar0Read a 1 true s = (regRead .HOST a s).2.emit (.cpl false false (leBytes 4 (regRead .HOST a s).1)) :=
  if_pos ⟨rfl, ha, rfl⟩

theorem bar0Write_dword {a v : Nat} {s : State} (ha : a % 4 = 0) : bar0Write a true [v] s = regWrite .HOST a v s :=
  if_pos ⟨ha, rfl⟩

/-- A request of more than two DWORDs is refused for its width. -/
theorem bar0Read_wide {a d : Nat} {be : Bool} {s : State} (hd : 2 < d) : bar0Read a d be s = cplUr (accErr a s) := by
  rw [bar0Read, if_neg (by omega), if_neg (by omega), if_neg (by omega)]

theorem bar0Write_wide {a : Nat} {be : Bool} {l : List Nat} {s : State} (hl : 2 < l.length) :
    bar0Write a be l s = accErr a s := by
  unfold bar0Write
  split
  next => simp at hl
  next => simp at hl
  next => rfl

section
variable {s : State} (hc : cfgOk s = true) (hd : s.hb .pmD3 = false)
include hc hd

theorem exec_bar0Read (a : BitVec 29) (dw : BitVec 11) (be : Bool) :
    exec (.bar0Request a dw be none) s = .next (bar0Read a.toNat dw.toNat be s) :=
  congrArg done (memReq_of_awake true _ hc hd)

theorem exec_bar0Write (a : BitVec 29) (dw : BitVec 11) (be : Bool) (l : List W32) :
    exec (.bar0Request a dw be (some l)) s = .next (bar0Write a.toNat be (l.map BitVec.toNat) s) :=
  congrArg done (memReq_of_awake false _ hc hd)

theorem exec_bar2Read (a : W32) (n : BitVec 13) (ue : Bool) :
    exec (.bar2Request a n none ue) s = .next (bar2 a.toNat n.toNat none ue s) :=
  congrArg done (memReq_of_awake true _ hc hd)

theorem exec_bar2Write (a : W32) (n : BitVec 13) (l : List Byte) (ue : Bool) :
    exec (.bar2Request a n (some l) ue) s = .next (bar2 a.toNat l.length (some l) ue s) :=
  congrArg done (memReq_of_awake false _ hc hd)

theorem exec_bar4 (a : Fin 4096) (be : BitVec 4) (v : Option W32) :
    exec (.bar4Request (.bar4 a be v)) s = .next (bar4 a be.toNat v s) :=
  congrArg done (memReq_of_awake _ _ hc hd)

/-- While it is enabled the expansion ROM answers reads. -/
theorem exec_romRead (o : BitVec 20) (n : BitVec 13) (hrom : s.hb .romEn = true) :
    exec (.bar4Request (.rom o n)) s = .next (s.emit
      (.cpl false false ((List.range n.toNat).map fun i => BitVec.ofNat 8 (byteAt romImage (o.toNat + i))))) :=
  congrArg done ((memReq_of_awake true _ hc hd).trans (if_pos hrom))

end

/-! ### The inbound windows (R525 to R527) -/

/-- A frozen function answers reads as unsupported and discards writes. -/
theorem bar2_of_frozen {s : State} (a n : Nat) (l : List Byte) (ue : Bool) (hf : s.rbit Reg.HOST.CONTAIN 31 = true) :
    bar2 a n none ue s = cplUr s ∧ bar2 a n (some l) ue s = s := by
  simp only [bar2, hf, Bool.true_or, Option.isNone_none, Option.isNone_some, Bool.false_eq_true, if_false, if_true, and_self]

section
variable {a n : Nat} {s : State} (ue : Bool) (hf : s.rbit Reg.HOST.CONTAIN 31 = false) (hl : s.live hostPage = true)
include hf hl

theorem bar2_of_noWindow (hw : winAt s a (max n 1) = none) : bar2 a n none ue s = cplUr (bump Reg.HOST.WIN_MISS s) := by
  simp only [bar2, hf, hl, hw, Bool.not_true, Bool.or_self, Option.isNone_none, Bool.false_eq_true, if_false, if_true]

theorem bar2_of_denied {i : Nat} (hw : winAt s a (max n 1) = some i) (hb : bit (hostWin s true i).2.1 31 = false) :
    bar2 a n none ue s = cplUr (bump Reg.HOST.WIN_DENY s) := by
  simp only [bar2, hf, hl, hw, hb, Bool.not_true, Bool.not_false, Bool.or_self, Option.isNone_none, Option.isSome_none,
    Bool.false_eq_true, if_false, if_true]

theorem bar2_of_allowed {i : Nat} (hw : winAt s a (max n 1) = some i) (hb : bit (hostWin s true i).2.1 31 = true) :
    bar2 a n none ue s =
      let w := hostWin s true i
      winRead (fld w.2.1 8 3) (w.2.2 + (a - w.1)) n ue s := by
  simp only [bar2, hf, hl, hw, hb, Bool.not_true, Bool.or_self, Option.isSome_none, Bool.false_eq_true, if_false]

end

theorem exec_winCommit {s : State} {r : Req} (v : W32) (h : Admits s r Reg.HOST.WIN_COMMIT) :
    exec (.winCommit r v) s = .next (winCommitHost r v.toNat (firstWrite r s)) := congrArg done (gateWrite_admits _ h)

/-- The shadow windows become active if each is valid and no two enabled ones overlap. -/
theorem winCommitHost_of_set {r : Req} {v : Nat} {s : State} (hv : bit v 0 = true) :
    winCommitHost r v s = if ((List.range 8).all (winOk s) && !winOverlap s) = true then
        forEach (List.range 8) s fun k t =>
          let t := t.setReg (Reg.HOST.ACT_WIN_BASE k) (t.reg (Reg.HOST.WIN_BASE k))
          let t := t.setReg (Reg.HOST.ACT_WIN_CFG k) (t.reg (Reg.HOST.WIN_CFG k))
          let t := t.setReg (Reg.HOST.ACT_TGT_BASE_LO k) (t.reg (Reg.HOST.TGT_BASE_LO k))
          t.setReg (Reg.HOST.ACT_TGT_BASE_HI k) (t.reg (Reg.HOST.TGT_BASE_HI k))
      else errReq hostPage 0x12 r Reg.HOST.WIN_COMMIT v s := by
  have hbad : (!(List.range 8).all (winOk s) || winOverlap s) = !((List.range 8).all (winOk s) && !winOverlap s) := by
    rw [Bool.not_and, Bool.not_not]
  simp only [winCommitHost, hv, hbad, Bool.not_true, Bool.false_eq_true, if_false]
  cases (List.range 8).all (winOk s) && !winOverlap s <;>
    simp only [Bool.not_true, Bool.not_false, Bool.false_eq_true, if_false, if_true]

/-! ### Configuration space (R494, R505, R517, R519) -/

section
variable {s : State} (hk : s.clocked hostPage = true) (hup : s.hb .pciUp = true) (hp : s.hb .perst = false)
include hk hup hp

theorem configReq_of_retry (f : State → State) (h : s.h .booted = 0 ∨ s.hb .flr = true) :
    configReq f s = s.emit .cplRetry := by
  simp only [configReq, hk, hup, hp, h, Bool.not_true, Bool.or_self, Bool.false_eq_true, if_false, if_true]

theorem configReq_of_answered (f : State → State) (hb : s.h .booted ≠ 0) (hf : s.hb .flr = false) : configReq f s = f s := by
  simp only [configReq, hk, hup, hp, hb, hf, Bool.not_true, Bool.or_self, Bool.false_eq_true, or_self, if_false]

end

/-! ### Resets, containment and release (R519 to R523) -/

theorem exec_flrDone {s : State} (hf : s.hb .flr = true) :
    exec .flrDone s = .next (intcUpdate (raise hostPage 2 (s.setHb .flr false))) := congrArg done (s.when_pos _ hf)

theorem exec_pcieLinkDown {s : State} (ann : Bool) (hup : s.hb .pciUp = true) :
    exec (.pcieLinkDown ann) s = .next (linkDown ann s) := congrArg done (s.when_pos _ hup)

theorem exec_pcieLinkUp {s : State} (k : Fin 4) (sp : Fin 5) (hon : s.pageOn hostPage = true) (hp : s.hb .perst = false)
    (hr : s.h .rstHold = 0) :
    exec (.pcieLinkUp k sp) s =
      .next (intcUpdate ((s.setHb .pciUp true).setH .linkWS (2 ^ k.val * 16 + (sp.val + 1) : Nat))) :=
  congrArg done (s.when_pos _ (by rw [hon, hp, hr]; rfl))

theorem exec_release {s : State} {r : Req} (v : W32) (h : Admits s r Reg.HOST.RELEASE) :
    exec (.release r v) s = .next (releaseWrite r v.toNat (firstWrite r s)) := congrArg done (gateWrite_admits _ h)

theorem releaseWrite_of_set {r : Req} {v : Nat} {s : State} (hv : bit v 0 = true) :
    releaseWrite r v s = if s.rbit Reg.HOST.CONTAIN 31 && s.hb .pciUp then issueReads (s.setReg Reg.HOST.CONTAIN 0)
      else errReq hostPage 0x13 r Reg.HOST.RELEASE v s := by
  simp only [releaseWrite, hv, Bool.not_true, Bool.false_eq_true, if_false]

/-- Settles O45: a request by the space that it names and whether the function may answer it, each stop and reset on its
condition. -/
theorem hostFunction : Obligations.HostFunction := by
  unfold Obligations.HostFunction
  refine ⟨?bar0Read, ?bar0Write, ?bar0Wide, ?bar2Missed, ?bar2Allowed, ?bar2Frozen, ?bar4, ?rom, ?config,
    fun f s hc hd => memReq_of_asleep f hc hd, ?bme, ?flr, fun s hf => exec_flrDone hf,
    fun f s hk hup hp h => configReq_of_retry hk hup hp f h, fun s => rfl, ?linkDown,
    fun k sp s hon hp hr => exec_pcieLinkUp k sp hon hp hr, ?release, ?perst, fun s => rfl, ?intDis, ?winCommit,
    fun a dw be w s => rfl, fun a n w ue s => rfl, fun s => rfl, fun s => rfl, fun s => rfl, fun s => rfl, fun dis cfg s => rfl,
    fun t s => rfl, fun r v s h => exec_winCommit v h, fun r v s h => exec_release v h,
    fun ann s hup => exec_pcieLinkDown ann hup⟩
  case bar0Read =>
    intro a s hc hd ha
    rw [exec_bar0Read hc hd]
    exact congrArg done (bar0Read_dword ha)
  case bar0Write =>
    intro a v s hc hd ha
    rw [exec_bar0Write hc hd, List.map_singleton, bar0Write_dword ha]
  case bar0Wide =>
    intro a d be l s hc hd hdw hl
    rw [exec_bar0Write hc hd, exec_bar0Read hc hd, bar0Read_wide hdw, bar0Write_wide (by rwa [List.length_map])]
    exact ⟨rfl, rfl⟩
  case bar2Missed =>
    intro a n ue s hc hd hf hl
    rw [exec_bar2Read hc hd]
    exact ⟨fun hw => congrArg done (bar2_of_noWindow ue hf hl hw), fun i hw hb => congrArg done (bar2_of_denied ue hf hl hw hb)⟩
  case bar2Allowed =>
    intro a n ue i s hc hd hf hl hw hb
    rw [exec_bar2Read hc hd, bar2_of_allowed ue hf hl hw hb]
  case bar2Frozen =>
    intro a n l ue s hc hd hf
    rw [exec_bar2Read hc hd, exec_bar2Write hc hd, (bar2_of_frozen _ _ l ue hf).1, (bar2_of_frozen _ _ l ue hf).2]
    exact ⟨rfl, rfl⟩
  case bar4 =>
    intro a be v s hc hd
    exact ⟨exec_bar4 hc hd a be none, exec_bar4 hc hd a be (some v)⟩
  case rom =>
    intro o n s hc hd hrom
    exact ⟨exec_romRead hc hd o n hrom, rfl⟩
  case config =>
    intro k s hk hup hp hb hf
    exact congrArg done (configReq_of_answered hk hup hp _ hb hf)
  case bme =>
    intro s hk hup hp hb hf
    exact ⟨fun hbme => congrArg done ((configReq_of_answered hk hup hp _ hb hf).trans (s.when_pos _ hbme)),
      congrArg done (configReq_of_answered hk hup hp _ hb hf)⟩
  case flr =>
    intro s hk hup hp hb hf
    exact congrArg done (configReq_of_answered hk hup hp _ hb hf)
  case linkDown =>
    rintro ann s w hup rfl
    exact exec_pcieLinkDown ann hup
  case release =>
    rintro r v s w h rfl hv
    rw [exec_release v h, releaseWrite_of_set hv]
  case perst =>
    intro s hp
    exact congrArg done (if_neg (by simp [hp]))
  case intDis =>
    intro dis s hk hup hp hb hf
    exact congrArg done (configReq_of_answered hk hup hp _ hb hf)
  case winCommit =>
    rintro r v s w h rfl hv
    rw [exec_winCommit v h, winCommitHost_of_set hv]

end Sys2Proof.Machine
end

section
/-!
PROOFS. The punt and inject rings, and messages held back (R504 to R518, R528, spec/13_host_interface.md).
-/
namespace Sys2Proof.Machine

/-! ### Punt rings (R507 to R511) -/

theorem exec_puntWrite {s : State} {k : Fin 64} (l : List W64) (ue : Bool) (hd : dmaOk s = true) (hon : puntOn s k = true) :
    exec (.puntWrite k l ue) s = .next (if ue then puntUe k s else puntWrite k (l.map BitVec.toNat) s) := by
  refine congrArg done ((s.when_pos _ (by rw [hd, hon]; rfl)).trans ?_)
  cases ue <;> rfl

theorem puntWrite_of_none {k : Nat} {l : List Nat} {s : State} (hf : s.firstAt (.host k) = none) : puntWrite k l s = s := by
  simp only [puntWrite, hf]

theorem State.reg_of_regs {s t : State} (h : t.regs = s.regs) (a : Nat) : t.reg a = s.reg a := by
  rw [State.reg, State.reg, h]

theorem State.rfld_of_regs {s t : State} (h : t.regs = s.regs) (a lo w : Nat) : t.rfld a lo w = s.rfld a lo w := by
  rw [State.rfld, State.rfld, State.reg_of_regs h]

theorem ringSize_of_regs {s t : State} (h : t.regs = s.regs) (a : Nat) : ringSize t a = ringSize s a := by
  rw [ringSize, ringSize, State.rfld_of_regs h]

section
variable {k : Nat} {f : Frame} {s : State} (hf : s.firstAt (.host k) = some f) (hp : s.h (.puntPart k) = 0)
include hf hp

/-- A frame for which enough buffers are posted is written whole and leaves its ring. -/
theorem puntWrite_of_whole {n : Nat} {l : List Nat} {w : State}
    (hn : n = (puntChunks (256 * s.rfld (Reg.HOST.P_CFG k) 0 7) f).length) (hl : n ≤ l.length)
    (hposted : n ≤ posted s (Reg.HOST.P_CFG k) (Reg.HOST.P_HEAD k) (Reg.HOST.P_TAIL k))
    (hw : (forEach (List.range n) s fun j t => puntFill k
      ((s.reg (Reg.HOST.P_HEAD k) + j) % ringSize s (Reg.HOST.P_CFG k)) (l.getD j 0)
      ((puntChunks (256 * s.rfld (Reg.HOST.P_CFG k) 0 7) f).getD j []) (j == 0) (j + 1 == n) t) = w) :
    puntWrite k l s = ring (0xE00 + k) (bumpBy (Reg.HOST.P_BYTES k) f.bytes.length (bump (Reg.HOST.P_FRAMES k)
      (((w.setReg (Reg.HOST.P_HEAD k) ((s.reg (Reg.HOST.P_HEAD k) + n) % ringSize s (Reg.HOST.P_CFG k))).setH (.puntPart k) 0).drop f))) := by
  have hpart : s.hn (.puntPart k) = 0 := by rw [State.hn, hp, Int.toNat_zero]
  subst hn
  simp only [puntWrite, hf, hpart, Nat.sub_zero, Nat.zero_add, Nat.min_eq_left hl, Nat.min_eq_left hposted, hw, Nat.lt_irrefl,
    if_false]

/-- With no buffer given nothing is written, and the ring's place stays. -/
theorem puntWrite_of_noBuffer (hh : s.reg (Reg.HOST.P_HEAD k) < ringSize s (Reg.HOST.P_CFG k))
    (hc : puntChunks (256 * s.rfld (Reg.HOST.P_CFG k) 0 7) f ≠ []) :
    puntWrite k [] s = (s.setReg (Reg.HOST.P_HEAD k) (s.reg (Reg.HOST.P_HEAD k))).setH (.puntPart k) 0 := by
  have hpart : s.hn (.puntPart k) = 0 := by rw [State.hn, hp, Int.toNat_zero]
  simp only [puntWrite, hf, hpart, List.length_nil, Nat.sub_zero, Nat.min_zero, Nat.zero_min, List.range_zero, forEach_nil,
    Nat.add_zero, Nat.mod_eq_of_lt hh, List.length_pos_iff.2 hc, if_true, Nat.cast_zero]

end

theorem exec_puntAgeDrop {s : State} (k : Fin 64) (hl : s.live hostPage = true) :
    exec (.puntAgeDrop k) s = .next (puntAge k s) := congrArg done (s.ifLive_pos _ hl)

/-- The frame that has waited longer than its limit is dropped. -/
theorem puntAge_of_late {k : Nat} {f : Frame} {s w : State} (hf : s.firstAt (.host k) = some f)
    (hw : advanceFolTo ((f.since + f.limit * 1000 + 1) * unitsNs) s = w) (hlate : f.since + f.limit * 1000 < w.folNs) :
    puntAge k s = puntDrop (Reg.HOST.P_DROP_AGED k) f (w.setH (.puntPart k) 0) := by
  simp only [puntAge, hf, hw, Nat.not_le_of_lt hlate, if_false]

/-! ### Tails and configurations of the rings (R518, R528) -/

theorem exec_pTailWrite {s : State} {r : Req} {k : Fin 64} (v : W32) (h : Admits s r (Reg.HOST.P_TAIL k)) :
    exec (.pTailWrite r k v) s =
      .next (tailWrite r (Reg.HOST.P_CFG k) (Reg.HOST.P_TAIL k) v.toNat (firstWrite r s)) := congrArg done (gateWrite_admits _ h)

theorem exec_iTailWrite {s : State} {r : Req} {k : Fin 16} (v : W32) (h : Admits s r (Reg.HOST.I_TAIL k)) :
    exec (.iTailWrite r k v) s =
      .next (tailWrite r (Reg.HOST.I_CFG k) (Reg.HOST.I_TAIL k) v.toNat (firstWrite r s)) := congrArg done (gateWrite_admits _ h)

theorem exec_ringEnable_of_punt {s : State} {r : Req} {k : Fin 64} {j : Fin 80} (v : W32) (hj : j.val = k.val)
    (h : Admits s r (Reg.HOST.P_CFG k)) : exec (.ringEnable r j v) s = .next (puntCfg r k v.toNat (firstWrite r s)) := by
  rw [exec_ringEnable_punt r v (by omega), hj, gateWrite_admits _ h]

theorem exec_ringEnable_of_inject {s : State} {r : Req} {k : Fin 16} {j : Fin 80} (v : W32) (hj : j.val = 64 + k.val)
    (h : Admits s r (Reg.HOST.I_CFG k)) : exec (.ringEnable r j v) s = .next (injCfg r k v.toNat (firstWrite r s)) := by
  have hk : j.val - 64 = k.val := by omega
  rw [exec_ringEnable_inject r v (by omega), hk, gateWrite_admits _ h]

/-! ### Inject rings (R512 to R516) -/

/-- With no working ring that has a whole frame posted nothing is taken up. -/
theorem exec_injectRead_of_none {wh : BitVec 16} {s : State} (ds : List (BitVec 256))
    (h : firstFrom (s.hn .injTurn) ((List.range 16).filter fun i => injOn s i && bit wh.toNat i && injPosted s i != 0) = none) :
    exec (.injectRead wh ds) s = .next s := by
  refine congrArg done ?_
  rw [h]

theorem exec_injectRead_of_posted {wh : BitVec 16} {ds : List (BitVec 256)} {s : State} {i k : Nat} {l xs : List Nat}
    (h : firstFrom (s.hn .injTurn) ((List.range 16).filter fun i => injOn s i && bit wh.toNat i && injPosted s i != 0) = some i)
    (hxs : (ds.take (injPosted s i)).map BitVec.toNat = xs) (hk : (xs.takeWhile fun d => !dscSop d).length = k)
    (hl : uptoEop (xs.drop k) = some l) (hd : dmaOk s = true) :
    exec (.injectRead wh ds) s = .next (issueReads (injTake i k l s)) := by
  refine congrArg done ?_
  simp only [h, hxs, hk, hl, s.when_pos _ hd]

/-- A frame of a length that cannot be sent gets its status unread. -/
theorem injTake_of_length {i k : Nat} {l : List Nat} {s : State} (h : (l.map dscLen).sum < 60 ∨ 12288 < (l.map dscLen).sum) :
    injTake i k l s = { s.setH .injTurn ((i + 1) % 16 : Nat) with injects := s.injects ++ [{
      ring := i, skip := k, desc := (s.reg (Reg.HOST.I_HEAD i) + claimed s i + k) % ringSize s (Reg.HOST.I_CFG i), descs := l.length,
      sop := l.headD 0, reads := [], bytes := [], err := false, offered := true, cells := [], status := some 4, ts := 0 }] } :=
  if_pos h

theorem exec_injectOffer_of_read {i : Fin 16} {j : Inj} {s : State} (carry : Bool)
    (hj : s.injects.find? (fun j => j.ring == i.val && !j.offered) = some j) (hd : dmaOk s = true) (hon : injOn s i = true)
    (hr : j.reads = []) : exec (.injectOffer i carry) s = .next (injOffer carry j s) := by
  refine congrArg done ?_
  rw [hj]
  exact s.when_pos _ (by rw [hd, hon, hr]; rfl)

section
variable {i : Fin 16} {j : Inj} {s : State} (hj : s.injects.find? (fun j => j.ring == i.val) = some j)
include hj

theorem exec_injectWriteback_of_open (hst : j.status = none) : exec (.injectWriteback i) s = .next s := by
  refine congrArg done ?_
  simp only [hj, hst]

theorem exec_injectWriteback_of_known {x : Nat} (hst : j.status = some x) (hd : dmaOk s = true) (hon : injOn s i = true) :
    exec (.injectWriteback i) s = .next (injWriteback j x s) := by
  refine congrArg done ?_
  simp only [hj, hst]
  exact s.when_pos _ (by rw [hd, hon]; rfl)

end

/-! ### Completions (R517, R518, R521, R522) -/

section
variable {s : State} (hc : s.clocked hostPage = true) (hup : s.hb .pciUp = true)
include hc hup

theorem exec_readCompletion_of_data {i : Fin 16} (data : List Byte) (x : Fin 3) (hr : readPending s i = true) :
    exec (.readCompletion (some i) data x none) s = .next (if x.val = 2 then
      aerError 12 (if bit (s.hn .aerMask) 12 then readEnd i data true s else readFail i s)
      else readEnd i data (x.val != 0) s) :=
  congrArg done ((s.when_pos _ (by rw [hc, hup]; rfl)).trans (if_neg (by simp [hr])))

theorem exec_readCompletion_of_noRead {i : Fin 16} (data : List Byte) (x : Fin 3) (hr : readPending s i = false) :
    exec (.readCompletion (some i) data x none) s = .next (unexpected s) :=
  congrArg done ((s.when_pos _ (by rw [hc, hup]; rfl)).trans (if_pos (by simp [hr])))

theorem exec_readCompletion_of_noMatch (data : List Byte) (x : Fin 3) :
    exec (.readCompletion none data x none) s = .next (unexpected s) :=
  congrArg done (s.when_pos _ (by rw [hc, hup]; rfl))

theorem exec_readCompletion_of_aer {b : Fin 32} (i : Option (Fin 16)) (data : List Byte) (x : Fin 3)
    (hb : aerBits.contains b.val = true) : exec (.readCompletion i data x (some b)) s = .next (aerError b s) :=
  congrArg done ((s.when_pos _ (by rw [hc, hup]; rfl)).trans (if_pos hb))

end

theorem exec_completionTimeout {s : State} (i : Fin 16) (hc : s.clocked hostPage = true) :
    exec (.completionTimeout i) s = .next (cplTimeout i s) := congrArg done (s.when_pos _ hc)

theorem cplTimeout_of_pending {i : Nat} {s u : State} (hr : readPending s i = true) (hcto : bit (s.hn .cto) 4 = false)
    (hu : waitRoot (readSince s i + cycUs (ctoUs (s.hn .cto % 16))) s = u) :
    cplTimeout i s =
      let w := raise hostPage 4 (bump Reg.HOST.CPL_TIMEOUT (aerLog 14 u))
      if u.hb .bme then (if bit (w.hn .aerMask) 14 then readEnd i [] true w else freeze 1 w)
      else bump Reg.HOST.ABANDONED (readEnd i [] true u) := by
  simp only [cplTimeout, hr, hcto, hu, Bool.not_true, Bool.or_self, Bool.false_eq_true, if_false]

/-! ### Messages held back (R504) -/

theorem exec_msixHoldEnd {s : State} (v : Fin 64) (hc : cfgOk s = true) :
    exec (.msixHoldEnd v) s = .next (holdEnd v s) := congrArg done (s.when_pos _ hc)

theorem holdEnd_of_held {v : Nat} {s w : State} (hp : s.rbit (bank 60 (0x800 + 4 * (v / 32))) (v % 32) = true)
    (hm : msixHeld s v = false) (hw : s.setRbit (bank 60 (0x800 + 4 * (v / 32))) (v % 32) false = w) :
    holdEnd v s =
      let l := (presentable s 3).filter fun x => s.rfld (Reg.INTC.SRC_CFG x) 16 6 == v
      let t := forEach ((srcsOf w 3).filter fun x => s.rfld (Reg.INTC.SRC_CFG x) 16 6 == v) w fun x t =>
        if t.h (.msiSent x) = 2 then t.setH (.msiSent x) 0 else t
      if l.isEmpty || !t.hb .msixEn then t else (forEach l t fun x t => t.setH (.msiSent x) 1).emit (.msix v) := by
  simp only [holdEnd, hp, hm, hw, Bool.not_true, Bool.or_self, Bool.false_eq_true, if_false]

/-- Settles O46: a punt ring by what waits and what is posted, an inject frame by how far it has come, a completion by what it
matches, a message by its hold. -/
theorem puntAndInjectRings : Obligations.PuntAndInjectRings := by
  unfold Obligations.PuntAndInjectRings
  refine ⟨fun k l s hf => congrArg done (State.when_of_same (puntWrite_of_none hf)), ?whole, ?noBuffer, ?aged, ?pTail, ?iTail,
    ?pCfg, ?iCfg, ?taken, fun i k l s h => injTake_of_length h, ?completed, ?aer,
    fun i carry j s hj hd hon hr => exec_injectOffer_of_read carry hj hd hon hr, fun s j => rfl,
    fun i j s hj => ⟨exec_injectWriteback_of_open hj, fun x hst hd hon => exec_injectWriteback_of_known hj hst hd hon⟩, ?timeout,
    ?held, fun i data x s hc hup hr => exec_readCompletion_of_noRead hc hup data x hr,
    fun k l ue s hd hon => exec_puntWrite l ue hd hon, fun k s hl => exec_puntAgeDrop k hl,
    fun i s hc => exec_completionTimeout i hc, fun i carry s => rfl, fun i s => rfl, fun v s hc => exec_msixHoldEnd v hc⟩
  case whole =>
    intro k l f n s w hd hon hf hp hn hl hposted hw hregs
    simp only [State.reg_of_regs hregs, State.rfld_of_regs hregs, ringSize_of_regs hregs] at hw
    rw [exec_puntWrite l false hd hon]
    exact congrArg done (puntWrite_of_whole hf hp hn (by rwa [List.length_map]) hposted hw)
  case noBuffer =>
    intro k f s hd hon hf hp hh hc
    rw [exec_puntWrite [] false hd hon]
    exact congrArg done (puntWrite_of_noBuffer hf hp hh hc)
  case aged =>
    intro k f s w hl hf hw hlate
    rw [exec_puntAgeDrop k hl, puntAge_of_late hf hw hlate]
  case pTail =>
    rintro r k v s w h rfl
    exact exec_pTailWrite v h
  case iTail =>
    rintro r k v s w h rfl
    exact exec_iTailWrite v h
  case pCfg =>
    rintro r k j v s w hj h rfl
    rw [exec_ringEnable_of_punt v hj h]
    simp only [puntCfg, ringCfg, ringBad, Bool.not_eq_true']
  case iCfg =>
    rintro r k j v s w hj h rfl
    rw [exec_ringEnable_of_inject v hj h]
    simp only [injCfg, ringCfg, ringBad, Bool.not_true, Bool.false_eq_true, false_or]
  case taken =>
    exact fun wh ds s => ⟨exec_injectRead_of_none ds, fun i l xs k h hxs hk hl hd => exec_injectRead_of_posted h hxs hk hl hd⟩
  case completed =>
    exact fun i data x s hc hup hr =>
      ⟨exec_readCompletion_of_data hc hup data x hr, exec_readCompletion_of_noMatch hc hup data x⟩
  case aer =>
    exact fun i data x b s hc hup hb => exec_readCompletion_of_aer hc hup i data x hb
  case timeout =>
    intro i s u hc hr hcto hu
    rw [exec_completionTimeout i hc, cplTimeout_of_pending hr hcto hu]
  case held =>
    intro v s w hc hp hm hw
    rw [exec_msixHoldEnd v hc, holdEnd_of_held hp hm hw]

end Sys2Proof.Machine
end

section
/-!
PROOFS. The recovery protocol, SPDM and stores to the Pegbox (R547 to R557, spec/14_firmware_trust.md).
-/
namespace Sys2Proof.Machine

/-! ### Requests of the recovery protocol (R547, R548) -/

section
variable {h : EloHdr} {typ n : Nat} {s : State} (f : State → State) (hr : eloRuns s = true)
include hr

theorem eloGate_of_notFor (hf : eloFor h typ = false) : eloGate h typ n f s = s := by
  simp only [eloGate, hr, hf, Bool.not_true, Bool.not_false, Bool.or_true, if_true]

variable (hf : eloFor h typ = true)
include hf

theorem eloGate_of_malformed (hm : eloMalformed h n = true) :
    eloGate h typ n f s = eloSend h (eloResp 0xFF h.seq.toNat 1 []) (bump Reg.SEC.ELO_BAD s) := by
  simp only [eloGate, hr, hf, hm, Bool.not_true, Bool.or_self, Bool.false_eq_true, if_false, if_true, eloBad]

variable (hm : eloMalformed h n = false)
include hm

theorem eloGate_of_stranger (hp : s.h .eloPeer = 0 ∨ eloMac s ≠ h.mac.toNat) :
    eloGate h typ n f s = eloSend h (eloResp (typ + 0x80) h.seq.toNat 2 []) s := by
  simp only [eloGate, hr, hf, hm, hp, Bool.not_true, Bool.or_self, Bool.false_eq_true, if_false, if_true]

variable (hp : s.h .eloPeer ≠ 0) (ha : eloMac s = h.mac.toNat)
include hp ha

/-- A request that waits for its answer already is not answered again. -/
theorem eloGate_of_open (ho : eloOpen s h.seq = true) : eloGate h typ n f s = s.setH .eloAt (s.root : Nat) := by
  simp only [eloGate, hr, hf, hm, hp, ha, ho, Bool.not_true, Bool.or_self, Bool.false_eq_true, ne_eq, not_true_eq_false, or_self,
    if_false, if_true]

/-- A repeated request is answered with the last response. -/
theorem eloGate_of_repeated (ho : eloOpen s h.seq = false) (hseq : s.h .eloSeq = (h.seq.toNat + 1 : Nat)) :
    eloGate h typ n f s = eloSend h s.eloLast (s.setH .eloAt (s.root : Nat)) := by
  simp only [eloGate, hr, hf, hm, hp, ha, ho, hseq, Bool.not_true, Bool.or_self, Bool.false_eq_true, ne_eq, not_true_eq_false,
    or_self, if_false, if_true]

end

/-- A request that uses the flash is answered with its refusal, or joins the flash operations. -/
theorem eloAsk_served {h : EloHdr} {m : EloMsg} {n : Nat} {s : State} (a : EloServed s h m.no n) :
    eloAsk h m n s = if eloRefused m s = 0 then flashGo (flashAsk (.elo h m) (s.setH .eloAt (s.root : Nat)))
      else eloAnswer h m.no (eloRefused m s) [] s := by
  rw [eloAsk, eloGate_served _ a]
  split
  next h0 => rw [if_pos h0]
  next h0 => rw [if_neg h0]

/-! ### HELLO (R548, R549) -/

/-- A HELLO locks its sender while no peer is locked, or once the peer is idle. -/
theorem exec_hello_of_free {h : EloHdr} {idle : Bool} {s t w : State}
    (ht : (if idle then waitRoot (s.hn .eloAt + cycUs 10000000) s else s) = t) (hr : eloRuns t = true) (hf : eloFor h 1 = true)
    (hm : eloMalformed h 0 = false)
    (hfree : t.h .eloPeer = 0 ∨ (s.hn .eloAt + cycUs 10000000 ≤ t.root ∧ eloWaits t = false))
    (hw : raise secPage 3 ((((t.setReg Reg.SEC.ELO_PEER_LO (h.mac.toNat % 2 ^ 32)).setReg Reg.SEC.ELO_PEER_HI
      (h.mac.toNat / 2 ^ 32)).setH .eloPeer 1).setH .eloSeq 0) = w) :
    exec (.hello h idle) s = .next (eloGate h 0x01 0 (fun t => eloAnswer h 0x01 0 (helloPay t) t) w) := by
  have hfree' : (t.h .eloPeer == 0 || (decide (s.hn .eloAt + cycUs 10000000 ≤ t.root) && !eloWaits t)) = true := by
    simpa using hfree
  subst ht hw
  refine congrArg (fun u => done (eloGate h 0x01 0 (fun t => eloAnswer h 0x01 0 (helloPay t) t) u)) (if_pos ?_)
  rw [hr, hf, hm, hfree']
  rfl

/-- Before its peer is idle a HELLO is a request like any other. -/
theorem exec_hello_of_locked {h : EloHdr} {s : State} (hp : s.h .eloPeer ≠ 0) (hroot : s.root < s.hn .eloAt + cycUs 10000000) :
    exec (.hello h false) s = .next (eloGate h 0x01 0 (fun t => eloAnswer h 0x01 0 (helloPay t) t) s) := by
  refine congrArg (fun u => done (eloGate h 0x01 0 (fun t => eloAnswer h 0x01 0 (helloPay t) t) u)) (if_neg ?_)
  have hlocked : (s.h .eloPeer == 0) = false := beq_eq_false_iff_ne.2 hp
  have hbusy : decide (s.hn .eloAt + cycUs 10000000 ≤ s.root) = false := decide_eq_false (Nat.not_le_of_lt hroot)
  simp only [Bool.false_eq_true, if_false, hlocked, hbusy, Bool.false_and, Bool.or_self, Bool.and_false, not_false_eq_true]

/-! ### Flash operations of the protocol (R543, R549, R550) -/

theorem eraseDone_of_erase {ok : Bool} {h : EloHdr} {n : Nat} {s : State} (hq : flashHead s = some (.elo h (.erase n))) :
    eraseDone ok s = flashGo (eloAnswer h 0x03 (if ok then 0 else 6) []
      (flashEnd (if ok then s.eraseMem .flash (n * 2 ^ 24) (2 ^ 24) else s))) := by
  simp only [eraseDone, hq]

/-- A write that is not refused programs the flash and tells whether it reads back. -/
theorem eloServes_write {x o : Nat} {l b : List Byte} {s : State} (hd : slotDenied s x = 0)
    (hb : programmed (slotBytes s x o l.length) l = b) :
    eloServes (.write x o l) s = (if b = l then 0 else 5, [], s.wrMem .flash (x * 2 ^ 24 + o) b) := by
  simp only [eloServes, hd, hb, ne_eq, not_true_eq_false, if_false]

/-- A request whose turn has come is answered at once, but for an ERASE. -/
theorem flashNext_of_request {h : EloHdr} {m : EloMsg} (n : Nat) {s : State} (hq : flashHead s = some (.elo h m))
    (hm : ∀ x, m ≠ .erase x) :
    flashNext (n + 1) s = flashNext n (eloAnswer h m.no (eloServes m s).1 (eloServes m s).2.1 (flashEnd (eloServes m s).2.2)) := by
  cases m with
  | erase x => exact absurd rfl (hm x)
  | _ => simp only [flashNext, hq]

/-! ### SPDM (R553) -/

theorem exec_spdmRequest_doe {msg : List Byte} {s : State} (hr : eloRuns s = true) :
    exec (.spdmRequest none msg) s = .next (doeRequest msg (doeGo s)) := congrArg done (if_neg (by simp [hr]))

theorem exec_spdmRequest_elo {h : EloHdr} {msg : List Byte} {s : State} (a : EloServed s h 0x08 msg.length) :
    exec (.spdmRequest (some h) msg) s = .next (eloAnswer h 0x08 0 (eloSpdm msg s).1 (eloSpdm msg s).2) :=
  congrArg done (eloGate_served _ a)

/-! ### Stores to the Pegbox (R556, R557) -/

theorem exec_store {s : State} {r : Req} (v : W32) (h : Admits s r Reg.PEG.STORE) :
    exec (.store r v) s = .next (pegStore r v.toNat (firstWrite r s)) := congrArg done (gateWrite_admits _ h)

section
variable {r : Req} {v : Nat} {s : State} (hl : s.live pegPage = true)
include hl

theorem pegStore_of_good (hj : s.pegJobs = []) (ha : fld v 24 6 < 2 ∨ 31 < fld v 24 6) (hn : fld v 0 12 ≤ 4032) :
    pegStore r v s = { s.setReg (storeSts (reqNo r)) (2 ^ 31) with
      pegJobs := [{ r := reqNo r, area := fld v 24 6, fmt := fld v 12 8, data := staging s (reqNo r) (fld v 0 12) }] } := by
  have harea : ¬(2 ≤ fld v 24 6 ∧ fld v 24 6 ≤ 31) := by omega
  simp only [pegStore, hl, hj, harea, Nat.not_lt_of_le hn, List.isEmpty_nil, Bool.not_true, Bool.false_eq_true, if_false]

/-- A store in progress is refused before a wrong area, and that before a wrong length. -/
theorem pegStore_of_bad {c : Nat}
    (hc : c = if !s.pegJobs.isEmpty then 0x10 else if 2 ≤ fld v 24 6 ∧ fld v 24 6 ≤ 31 then 0x11 else 0x12)
    (h : s.pegJobs ≠ [] ∨ (2 ≤ fld v 24 6 ∧ fld v 24 6 ≤ 31) ∨ 4032 < fld v 0 12) :
    pegStore r v s = errReq pegPage c r Reg.PEG.STORE v (s.setReg (storeSts (reqNo r))
      (setFld (s.reg (storeSts (reqNo r))) 0 31 (2 ^ 30 + c))) := by
  subst hc
  by_cases hj : s.pegJobs = []
  · by_cases ha : 2 ≤ fld v 24 6 ∧ fld v 24 6 ≤ 31
    · simp only [pegStore, hl, hj, ha, List.isEmpty_nil, Bool.not_true, Bool.false_eq_true, if_false, if_true, and_self]
    · have hn : 4032 < fld v 0 12 := (h.resolve_left (not_not_intro hj)).resolve_left ha
      simp only [pegStore, hl, hj, ha, hn, List.isEmpty_nil, Bool.not_true, Bool.false_eq_true, if_false, if_true]
  · have hbusy : s.pegJobs.isEmpty = false := List.isEmpty_eq_false_iff.2 hj
    simp only [pegStore, hl, hbusy, Bool.not_true, Bool.not_false, Bool.false_eq_true, if_false, if_true]

end

theorem storeDone_of_none {ok : Bool} {s : State} (hj : s.pegJobs = []) : storeDone ok s = s := by
  simp only [storeDone, hj]

section
variable {j : PegJob} {l : List PegJob} {s w : State} (hj : s.pegJobs = j :: l) (hw : { s with pegJobs := l } = w)
include hj hw

theorem storeDone_of_good : storeDone true s = storeGood j w := by
  simp only [storeDone, hj, hw, if_true]

theorem storeDone_of_bad : storeDone false s = storeBad j w := by
  simp only [storeDone, hj, hw, Bool.false_eq_true, if_false]

end

/-- A store that fails leaves the page that is not current erased. -/
theorem storeBad_eq (j : PegJob) (w : State) :
    storeBad j w =
      let g := (pegCurrent w j.area).elim (2 * j.area) fun p => 4 * j.area + 1 - p
      let t := pegStatus j.area (bump Reg.PEG.STORE_FAILS (jobSts j (2 ^ 30 + 0x13) (w.eraseMem .pegbox (4096 * g) 4096)))
      let v := j.area * 2 ^ 24 + j.fmt * 2 ^ 12 + j.data.length
      raise pegPage 1 (errBy pegPage 0x13 (j.r % 5) (Reg.PEG.STORE % 0x10000) v t) := by
  unfold storeBad
  cases pegCurrent w j.area <;> rfl

theorem exec_lifetimeStore_hourly {s : State} (hr : eloRuns s = true) :
    exec (.lifetimeStore true) s = .next (
      let t := waitRoot (s.hn .lifeAt + cycUs 3600000000) s
      lifetimeStore true (t.setH .lifeAt (t.root : Nat))) :=
  congrArg done ((if_neg (by simp [hr])).trans (if_pos rfl))

/-- An hourly LIFETIME record adds one hour and no start. -/
theorem lifetimeStore_hourly (w : State) :
    lifetimeStore true w =
      let f := fun i => leNat (((pegLatest w 4).drop (4 * i)).take 4)
      pegAsk 4 (leBytes 4 (f 0 + 1) ++ leBytes 4 (f 1) ++ leBytes 4 (f 2 + w.hn .lifeRec) ++
        leBytes 4 (unsgn (max (sgn (f 3) 32) ((w.hn .tjHi : Int) - 128)) 32) ++ leBytes 4 ((f 4 : Int) + w.h .lifeHo).toNat)
        ((w.setH .lifeRec 0).setH .lifeHo 0) := by
  have hone : ofB true = 1 := rfl
  have hzero : ofB (!true) = 0 := rfl
  simp only [lifetimeStore, hone, hzero, Nat.add_zero]

theorem exec_lifetimeStore_atStart {s : State} (hr : eloRuns s = true) (hd : s.hb .lifeDue = true) :
    exec (.lifetimeStore false) s = .next (lifetimeStore false ((s.setHb .lifeDue false).setH .lifeAt (s.root : Nat))) :=
  congrArg done ((if_neg (by simp [hr])).trans ((if_neg Bool.false_ne_true).trans (s.when_pos _ hd)))

/-- Settles O48: a frame of the protocol by what it carries and whose it is, a flash operation by its request, a store by what
it names and how it ends. -/
theorem eloatalAndPegbox : Obligations.EloatalAndPegbox := by
  unfold Obligations.EloatalAndPegbox
  refine ⟨fun h typ sts bytes s => rfl, fun h idle s t w ht hr hf hm hfree hw => exec_hello_of_free ht hr hf hm hfree hw,
    fun h s hr hp hroot => exec_hello_of_locked hp hroot, ?gate, ?slotInfo, ?erase,
    fun ok h n s hq => congrArg done (eraseDone_of_erase hq), fun h x o l s a => ?write, fun x o l s => rfl,
    fun x o n l b s hd hb => ⟨eloServes_write hd hb, rfl⟩, fun h m n s hq hm => flashNext_of_request n hq hm, ?read, ?setBoot,
    fun x s => rfl, fun h s a => congrArg done (eloGate_served _ a), fun h msg s a => ⟨?doe, exec_spdmRequest_elo a⟩, ?store,
    ?storeBad, ?storedWell, ?storedBadly, fun ok s hj => congrArg done (storeDone_of_none hj), ?hourly, ?atStart,
    fun elo msg s => rfl, fun h idle s => rfl, fun h x s => rfl, fun h x s => rfl, fun ok s => rfl, fun h x o l s => rfl,
    fun h x o n s => rfl, fun h x s => rfl, fun h s => rfl, fun ok s => rfl, fun hourly s => rfl, fun r v s h => exec_store v h⟩
  case gate =>
    exact fun h typ n f s hr => ⟨eloGate_of_notFor f hr, eloGate_of_malformed f hr, eloGate_of_stranger f hr,
      eloGate_of_open f hr, eloGate_of_repeated f hr⟩
  case slotInfo =>
    intro h x s a
    refine congrArg done ((eloAsk_served a).trans ?_)
    by_cases hx : 2 ≤ x.toNat <;> simp only [eloRefused, hx, EloMsg.no, one_ne_zero, if_false, if_true]
  case erase =>
    intro h x s a
    refine congrArg done ((eloAsk_served a).trans ?_)
    by_cases hd : slotDenied s x.toNat = 0
    · cases hl : slotLoading s x.toNat <;>
        simp only [eloRefused, hd, hl, EloMsg.no, ne_eq, not_true_eq_false, OfNat.ofNat_ne_zero, Bool.false_eq_true, if_false, if_true]
    · simp only [eloRefused, hd, EloMsg.no, ne_eq, not_false_eq_true, if_false, if_true]
  case write => exact congrArg done (eloAsk_served a)
  case read =>
    intro h x o n s a
    refine congrArg done ((eloAsk_served a).trans ?_)
    by_cases hx : 2 ≤ x.toNat ∨ n.toNat = 0 ∨ 1024 < n.toNat
    · simp only [eloRefused, hx, EloMsg.no, one_ne_zero, if_false, if_true]
    · by_cases hend : 2 ^ 24 < o.toNat + n.toNat <;>
        simp only [eloRefused, hx, hend, EloMsg.no, OfNat.ofNat_ne_zero, if_false, if_true]
  case setBoot =>
    intro h x s a
    refine congrArg done ((eloAsk_served a).trans ?_)
    by_cases hx : 2 < x.toNat <;> simp only [eloRefused, hx, EloMsg.no, one_ne_zero, if_false, if_true]
  case doe =>
    obtain ⟨hr, -⟩ := a
    exact exec_spdmRequest_doe hr
  case store =>
    rintro r v s w h rfl hl hj ha hn
    rw [exec_store v h, pegStore_of_good hl hj ha hn]
  case storeBad =>
    rintro r v c s w h rfl hl hc hbad
    rw [exec_store v h, pegStore_of_bad hl hc hbad]
  case storedWell =>
    exact fun j l s w hj hw => congrArg done (storeDone_of_good hj hw)
  case storedBadly =>
    exact fun j l s w hj hw => congrArg done ((storeDone_of_bad hj hw).trans (storeBad_eq j w))
  case hourly =>
    intro s t w hr ht hw
    simp only [exec_lifetimeStore_hourly hr, ht, hw, lifetimeStore_hourly]
  case atStart =>
    rintro s w hr hd rfl
    exact exec_lifetimeStore_atStart hr hd

end Sys2Proof.Machine
end
